-- ==== Sys2Proof/Word.lean ====
section
/-!
DEFINITION. The word types of the device and the plainest names over them: a byte, the 32-bit register word, the
64-bit scalar register, and the sparse tables every numbered array of the device is held in.
-/
namespace Sys2Proof

/-- One byte. -/
abbrev Byte := BitVec 8

/-- A 32-bit register of the unit register space. -/
abbrev W32 := BitVec 32

/-- A 64-bit scalar register or operand. -/
abbrev Word := BitVec 64

/-- A byte string: a packet, a record, a buffer. -/
abbrev Bytes := List (BitVec 8)

/-- A numbered array of the device held sparsely: entries by strictly rising number, and no entry equal to the
array's reset value (see `Sys2Proof.Machine.spSet`). -/
abbrev Sparse (α : Type) := List (Nat × α)

end Sys2Proof
end

