-- ==== Sys2Proof/Types.lean ====
section
/-!
DEFINITION. The plain types the commands' operands and the state are made of.
-/
namespace Sys2Proof

/-- The three parts of the family (00_scope.md, Variants). -/
inductive Part where
  | yd4460 | yd4440 | yd4420
  deriving DecidableEq, Repr

/-- The three command transports (02_commands.md, Transports). -/
inductive Transport where
  | pcie | eth | uart
  deriving DecidableEq, Repr

/-- A request that has passed the length, version, flags and opcode checks of R40, as its command sees it. -/
structure Request where
  /-- the transport it arrived on -/
  transport : Transport
  /-- where a management-port reply goes: the request's source address and port -/
  source : Nat := 0
  sequence : BitVec 16
  unit : BitVec 8 := 1
  inst : BitVec 8 := 0
  /-- bit 0 DRY_RUN, bit 1 NOTIFY -/
  flags : BitVec 8 := 0
  /-- a reserved byte of the header is not 0 -/
  reserved : Bool := false
  /-- the bytes from offset 16 of the packet -/
  params : List (BitVec 8) := []
  deriving DecidableEq, Repr

/-- The Weft requester identity of an access (R517, INITIATOR): unit identifier and instance. -/
structure Initiator where
  unit : BitVec 8
  inst : BitVec 8
  deriving DecidableEq, Repr

/-- Where Shuttle dispatches to (R178, R181). -/
inductive DispatchTo where
  | core (c : Fin 96)
  /-- the pool of a TARGET: 1 LDPC_DEC, 2 LDPC_ENC, 3 POLAR, 4 CIPHER -/
  | pool (target : Fin 5)
  /-- a DMA channel -/
  | dma (ch : Fin 64)
  deriving DecidableEq, Repr

/-- The flip-mask registers of a memory controller or of a crew's bank group (R472). -/
inductive FlipTarget where
  | mem (ch : Fin 8)
  | spm (crew : Fin 12) (group : Fin 4)
  deriving DecidableEq, Repr

/-- What memory initialisation finds on one channel (R451, MEM_STATUS): RATE 0 when it does not train. -/
structure ChannelTraining where
  rate : Fin 4 := 0
  ranks : Fin 3 := 0
  /-- 1 for 8 Gb devices, 2 for 16 Gb -/
  die : Fin 3 := 0
  deriving DecidableEq, Repr

/-- The second operand of a vector arithmetic instruction (07_vector.md, Encodings). -/
inductive VOperand where
  /-- opcode 0x34, a vector -/
  | vv (vs2 : Fin 32)
  /-- opcode 0x35, a scalar register -/
  | vs (rs2 : Fin 32)
  /-- opcode 0x36, a 5-bit immediate -/
  | vi (imm : BitVec 5)
  deriving DecidableEq, Repr

/-- The fields of a vector arithmetic or compare instruction. -/
structure VArith where
  vd : Fin 32
  vs1 : Fin 32
  b : VOperand := .vi 0
  men : Bool := false
  msel : Fin 8 := 0
  deriving DecidableEq, Repr

/-- The addressing of a vector load or store (07_vector.md, Memory access). -/
inductive VMode where
  | unit
  | strided (rs2 : Fin 32)
  | indexed (vs2 : Fin 32)
  /-- MODE 3, which raises ILLEGAL_INSTR -/
  | mode3
  deriving DecidableEq, Repr

/-- The fields of a vector load or store: `v` is the destination or the data. -/
structure VMem where
  v : Fin 32
  rs1 : Fin 32
  mode : VMode := .unit
  men : Bool := false
  msel : Fin 8 := 0
  deriving DecidableEq, Repr

/-- The contents of a received Announce message that the BMCA compares (R434, IEEE 1588-2019). -/
structure Announce where
  /-- portIdentity of the sender -/
  sender : BitVec 80
  grandmaster : BitVec 64
  priority1 : BitVec 8 := 128
  clockClass : BitVec 8 := 248
  accuracy : BitVec 8 := 0xFE
  variance : BitVec 16 := 0xFFFF
  priority2 : BitVec 8 := 128
  steps : BitVec 16 := 0
  domain : BitVec 8 := 0
  deriving DecidableEq, Repr

/-- The PTP messages a port sends or waits for. -/
inductive PtpMessage where
  | sync | delay | announce
  deriving DecidableEq, Repr

/-- A strobe of Cox, or the edge of a PPS output (R444, R445). -/
inductive Strobe where
  | second
  | sample
  /-- radio frame, slot and symbol of a carrier -/
  | frame (carrier : Fin 64)
  | slot (carrier : Fin 64)
  | symbol (carrier : Fin 64) (k : Fin 14)
  /-- video frame at N / D per second -/
  | video (n d : Nat)
  | ppsOut (output : Fin 4)
  deriving DecidableEq, Repr

/-- One resource block of a U-plane message: its exponent and its 24 mantissas, I then Q of each subcarrier (R133). -/
structure Prb where
  exponent : BitVec 4 := 0
  mantissas : List (BitVec 16)
  deriving DecidableEq, Repr

/-- A handset's link as last measured (R155): its rank nibbles, UL_SINR, MCS indexes, PHR and TA. -/
structure LinkFigure where
  rank : BitVec 8 := 0
  sinr : BitVec 16 := 0
  dlMcs : BitVec 8 := 0
  ulMcs : BitVec 8 := 0
  phr : BitVec 8 := 0
  ta : BitVec 16 := 0
  deriving DecidableEq, Repr

/-- A transport block in a HARQ process: its process number, its K1 (downlink) or K2 (uplink), its bits. -/
structure TransportBlock where
  proc : Fin 16
  k : Fin 16
  bits : BitVec 24
  deriving DecidableEq, Repr

/-- What the MAC finds and decides for one handset in a slot (R142 to R156). -/
structure SlotFigure where
  handset : BitVec 14
  /-- a CQI it has reported since the last slot -/
  cqi : Option (Fin 16) := none
  /-- its expected share of resource blocks in 1/1,000, and BLER in percent -/
  share : BitVec 10 := 0
  bler : Fin 101 := 0
  drxAsleep : Bool := false
  /-- an expected uplink transmission, and whether it was DTX -/
  dtx : Option Bool := none
  /-- packets of its queue carried in the slot -/
  carried : Nat := 0
  /-- the transport blocks the slot sends and grants -/
  down : Option TransportBlock := none
  up : Option TransportBlock := none
  /-- decode results: a process of the downlink (feedback, true ACK) or the uplink (true decoded) -/
  feedback : List (Fin 16 × Bool) := []
  decoded : List (Fin 16 × Bool) := []
  /-- user packets decoded on the uplink, by DRB, and SRB PDUs, by LCID -/
  userPackets : List (BitVec 8 × List (BitVec 8)) := []
  srbPdus : List (BitVec 8 × List (BitVec 8)) := []
  /-- detected PUSCH symbols: slot, symbol, squared error relative to the constellation in units of 10^-8 summed over its
  data resource elements, their number -/
  errors : List (BitVec 48 × Fin 14 × BitVec 64 × BitVec 16) := []
  link : Option LinkFigure := none
  deriving DecidableEq, Repr

/-- What the MAC finds and decides for the carrier in a slot: resource blocks used, UL_SINR and UL_NI, and the broadcast
items it sends, by kind and number. -/
structure CarrierFigure where
  dlPrb : BitVec 12 := 0
  ulPrb : BitVec 12 := 0
  sinr : Option (BitVec 16) := none
  ni : Option (BitVec 16) := none
  aired : List (Fin 6 × BitVec 8) := []
  deriving DecidableEq, Repr

/-- An up-chirp that a searcher finds: its dechirped peak power, its timing in ns and its bin (R327). -/
structure UpChirp where
  power : BitVec 32
  timing : BitVec 64
  bin : BitVec 11
  deriving DecidableEq, Repr

/-- What follows a detection: the up-chirps of the preamble, the sync word with the symbols from the detection to it, and
whether the marker follows it (R327, R329). -/
structure SyncSeen where
  upChirps : BitVec 8
  sync : Option (BitVec 8)
  after : BitVec 8
  marker : Bool
  deriving DecidableEq, Repr

/-- A code block of UCI or of data that missed its deadline: a handset's HARQ process (R144). -/
structure MissedBlock where
  uci : Bool
  handset : BitVec 14
  proc : Fin 16
  deriving DecidableEq, Repr

/-- A plug, or the lack of one, at a headset port, and the time in ms for which it has been so (R379). -/
structure PlugHeld where
  port : Fin 2
  stable : BitVec 16
  deriving DecidableEq, Repr

/-- A timed PTP message: its domain, its sender's portIdentity and its timestamp in units of 2^-16 ns (R436). -/
structure PtpTimed where
  domain : BitVec 8
  sender : BitVec 80
  time : Int
  deriving DecidableEq, Repr

/-- FEC code words corrected and lost (R545). -/
structure FecCount where
  fixed : BitVec 32 := 0
  lost : BitVec 32 := 0
  deriving DecidableEq, Repr

/-- What a chirp demodulator has received of a payload, with its quality figures (09_chirp_radio.md). -/
structure RxData where
  symbols : List (BitVec 11) := []
  rssi : BitVec 16 := 0
  snr : BitVec 16 := 0
  evm : BitVec 16 := 0
  freqOffset : BitVec 32 := 0
  drift : BitVec 16 := 0
  deriving DecidableEq, Repr

/-- The fields of a frame that carries eCPRI (R132): its EtherType and 802.1Q tags, or the IP version of the UDP datagram
that carries it; the message type; of a C-plane message its section types and extension types; of a U-plane message whether
a udCompHdr stands in it. -/
structure EcpriHead where
  etherType : BitVec 16 := 0xAEFE
  tags : Nat := 0
  udpOver : Option (Fin 16) := none
  message : BitVec 8 := 0
  sections : List (BitVec 8) := []
  extensions : List (BitVec 7) := []
  compHdr : Bool := false
  deriving DecidableEq, Repr

/-- A received Ethernet frame, as far as the MAC's own answers depend on it; what another unit takes reaches it by that
unit's own command. -/
inductive EthFrame where
  | other
  /-- a GTP-U packet for a tunnel (R146) -/
  | gtpu (teid : BitVec 32) (data : List (BitVec 8))
  | gtpuEcho (data : List (BitVec 8))
  /-- an IP fragment on the GTP-U port -/
  | fragment
  /-- ARP or IPv6 neighbour discovery, for an own address or another (R70) -/
  | addressQuery (own : Bool)
  | icmpEcho (own : Bool) (data : List (BitVec 8))
  /-- an eCPRI message, by the fields that decide whether it lies in the subset of R132 -/
  | ecpri (head : EcpriHead)
  /-- a PTP Delay_Req: its domain, the sender's portIdentity, sequenceId and correctionField (R434) -/
  | delayReq (domain : BitVec 8) (requester : BitVec 80) (seq : BitVec 16) (corr : BitVec 64)
  deriving DecidableEq, Repr

/-- How a receiver's partner clock has run since the last frame (R548): the idle octets of the gap before the frame or the
FILL blocks received with it, and the octets or blocks by which the partner has run ahead of the device. -/
structure RxClock where
  spare : BitVec 16 := 0
  ahead : Int := 0
  deriving DecidableEq, Repr

/-- The KIND of a Weft packet (R517); a CREDIT comes by its own command. -/
inductive WeftKind where
  | readReq | writeReq | readRsp | writeRsp | msg
  deriving DecidableEq, Repr

/-- A Weft packet's header as far as Weft itself looks at it (R517). -/
structure WeftHead where
  src : Fin 64
  dst : Fin 64
  vc : Fin 4
  kind : WeftKind
  len : BitVec 16 := 32
  tag : BitVec 16 := 0
  /-- a body flit was found with an uncorrectable error on the way (R516) -/
  bodyBad : Bool := false
  deriving DecidableEq, Repr

/-- A Weft packet beyond its route: KIND, LEN and TAG (R517). -/
structure WeftPacket where
  kind : WeftKind
  len : BitVec 16 := 32
  tag : BitVec 16 := 0
  /-- a body flit was found with an uncorrectable error on the way (R516) -/
  bodyBad : Bool := false
  deriving DecidableEq, Repr

/-- A Weft request as its initiator knows it (R524). -/
structure WeftRequest where
  tag : BitVec 16
  addr : BitVec 48
  deriving DecidableEq, Repr

/-- What a received Bupex frame carries (16_lanes_bupex.md, the services of Bupex). -/
inductive BupexBody where
  /-- acknowledgement alone -/
  | ack
  /-- the partner asks for a replay (R557) -/
  | replayRequest
  /-- a device's link list (R564) -/
  | links (peers : List (BitVec 12))
  /-- a packet of a proxy queue for HOME_Q, named at its sender by a handle (R566) -/
  | proxy (homeQ : BitVec 16) (handle : BitVec 32) (data : List (BitVec 8))
  | proxyAck (handle : BitVec 32)
  /-- a subscription to a handset's forecast records (R403) -/
  | subscribe (handset : BitVec 14)
  /-- a joint uplink symbol (R567) -/
  | joint (carrier : Fin 64) (slot : BitVec 48) (sym : Fin 14) (ant : Fin 128) (iq : List (BitVec 8))
  /-- boot transfer: the first frame gives the image's length (R575, R576) -/
  | bootFirst (length : BitVec 32) (data : List (BitVec 8))
  | bootNext (data : List (BitVec 8))
  | bootEnd
  /-- a PTP Delay_Req: its domain, the sender's portIdentity, sequenceId and correctionField (R434) -/
  | delayReq (domain : BitVec 8) (requester : BitVec 80) (seq : BitVec 16) (corr : BitVec 64)
  /-- a forecast record, sub-sum, PTP or last-gasp message, which its unit takes by its own command: TYPE and body -/
  | unit (type : Fin 16) (body : List (BitVec 8))
  deriving DecidableEq, Repr

/-- A received Bupex frame (R555). -/
structure BupexFrame where
  cls : Fin 4
  dup : Bool := false
  dir : Bool := false
  dst : BitVec 12
  src : BitVec 12
  seq : BitVec 16 := 0
  ttl : BitVec 8 := 255
  lseq : BitVec 16 := 0
  lack : BitVec 16 := 0xFFFF
  /-- its CRC-32 is right -/
  crc : Bool := true
  /-- FILL blocks that came with it, and the partner's clock (R548) -/
  clock : RxClock := {}
  body : BupexBody
  deriving DecidableEq, Repr

/-- What arrives at a hard serial port (R599): a byte, a UART framing error, an I2C NACK. -/
inductive SpEvent where
  | byte (v : BitVec 8)
  | framing
  | nack
  deriving DecidableEq, Repr

/-- A wake source that is no command and no access (R613). -/
inductive WakeSource where
  /-- a head flit held at a gateway of the domain -/
  | node (n : Fin 64)
  /-- a task staged on a core of the domain, or on an engine of it -/
  | shuttle
  /-- a pending and enabled interrupt of a core -/
  | irq (c : Fin 96)
  /-- a training burst or signal on an idle lane -/
  | lane (n : Fin 48)
  /-- a plug insertion or button change -/
  | hsp (p : Fin 2)
  deriving DecidableEq, Repr

/-- Where an inbound PCI Express request falls (R546): an offset in a BAR, or outside every BAR. -/
inductive PcieTarget where
  | bar0 (off : BitVec 16)
  | bar2 (off : BitVec 36)
  | bar4 (off : BitVec 30)
  | outside
  deriving DecidableEq, Repr

end Sys2Proof
end

