-- ==== Sys2Proof/Syntax.lean ====
section
/-!
DEFINITION. The commands the block takes: one constructor for each row of spec/opcode_table.json, with the operands
the row's rule gives it. No row has bits of an encoding, so a command is plain data.
-/
namespace Sys2Proof

/-- A command of the block: an operation of one of its processors, a register access, a request, or an event at one
of its ports. -/
inductive Instr where
  /-- The rising edge of RESET_N samples the BOOT_MODE straps and starts the boot ROM (R76). -/
  | resetNRise (straps : Fin 8)
  /-- Power-on reset ends once AON_CLK has run 1 ms and every rail has held above UV_WARN for 10 ms; any pending RESET_N edge then takes effect (R651). -/
  | powerOnResetEnd (straps : Fin 8) (osc : Bool)
  /-- DEVICE_RESET with the right key resets the device after its reply and discards every request, reply and outstanding long command (R56). -/
  | deviceReset (r : Request)
  /-- The ROM phase reads fuses and straps and trains PCI Express (R81). -/
  | romPhase (up : Bool) (gen : Fin 8) (width : Fin 32)
  /-- Memory initialisation trains the SDRAM channels, puts a power-of-two set in service, reserves the top regions and sets SYS_CAP_MEM (R452). -/
  | memInit (channels : List ChannelTraining)
  /-- FW_LOAD selects a source and slot, copies the firmware and verifies it, or enters WAIT_HOST or CONFIG_INVALID (R93). -/
  | fwLoad
  /-- PIN_TABLE verifies the pin-default table and drives its safe levels (R584). -/
  | pinTable
  /-- FABRIC_LOAD verifies the bitstream, counts long-line taps, configures the array and releases pins and flip-flops (R582). -/
  | fabricLoad
  /-- CFG_LOAD verifies the configuration image, runs the consistency check and creates its objects (R103). -/
  | cfgLoad
  /-- The AUTOSTART phase releases the crew cores, starts the AUTOSTART functions in object ID order and defers those that need time of day (R74). -/
  | autostart
  /-- In the first command-interface cycle after the time state leaves UNSET, the device starts the deferred AUTOSTART functions in order (R75). -/
  | deferredAutostart
  /-- A write of SYS_CMD_DOORBELL copies the request window into the PCI Express request queue, or sets REQ_OVERFLOW (R36). -/
  | cmdDoorbell (length : BitVec 11)
  /-- A UDP datagram on the management port is queued as a request, or is discarded and counted (R34). -/
  | mgmtDatagram (source : Nat) (data : List (BitVec 8))
  /-- A COBS frame on the UART console is decoded, CRC-checked and queued as a request, or is discarded and counted (R34). -/
  | uartFrame (data : List (BitVec 8))
  /-- The command interface takes the next request in transport rotation, runs the checks of R40 and queues its immediate reply (R42). -/
  | requestTaken
  /-- A read of SYS_CMD_RPL_POP moves the oldest reply, or the idle reply, into the reply window (R47). -/
  | sysCmdRplPop
  /-- Writing FLUSH_PCIE discards the PCI Express transport's queued requests and waiting replies (R38). -/
  | flushPcie
  /-- Writing FLUSH_ETH discards the management port's queued requests and waiting replies (R38). -/
  | flushEth
  /-- Writing FLUSH_UART discards the UART console's queued requests and waiting replies (R38). -/
  | flushUart
  /-- A long command finishes and queues its single completion reply (R50). -/
  | longCommandCompletion (transport : Transport) (sequence : BitVec 16) (ok : Bool)
  /-- OBJ_SET creates or replaces a configuration object as a whole, or applies a setting object (R61). -/
  | objSet (family : BitVec 8) (r : Request)
  /-- OBJ_GET returns an object record inline or writes it to a result address (R59). -/
  | objGet (family : BitVec 8) (r : Request)
  /-- START admits a STOPPED function, adds its cost to COMMITTED and makes it STARTING (R62). -/
  | startFn (family : BitVec 8) (r : Request)
  /-- STOP accepts a RUNNING function and makes it STOPPING (R64). -/
  | stopFn (family : BitVec 8) (r : Request)
  /-- OBJ_DELETE removes a function object, or restores a setting object's unset values (R667). -/
  | objDelete (family : BitVec 8) (r : Request)
  /-- OBJ_STATE returns a function's state, committed cost and last status (R60). -/
  | objState (family : BitVec 8) (r : Request)
  /-- OBJ_LIST returns up to 1,000 object IDs of one type in ascending order (R57). -/
  | objList (family : BitVec 8) (r : Request)
  /-- CAPS returns the capability and budget registers (R22). -/
  | capsCmd (r : Request)
  /-- ECHO returns its parameters unchanged (R40). -/
  | echoCmd (r : Request)
  /-- CMD_QUERY reports whether a sequence has a long command outstanding on a transport (R54). -/
  | cmdQuery (r : Request)
  /-- CANCEL ends a cancellable long command, whose completion then carries CANCELLED (R55). -/
  | cancelCmd (r : Request)
  /-- CONFIG_EXPORT writes the records of the persistent running set to a buffer as an unsigned image body (R71). -/
  | configExport (r : Request)
  /-- CONFIG_INSTALL verifies an image and writes it and its commit record to the slot that is not newest (R72). -/
  | configInstall (r : Request)
  /-- IMAGE_PUSH verifies pushed firmware in WAIT_HOST or an FW_LOAD CONFIG_INVALID and resumes boot at PIN_TABLE (R101). -/
  | imagePush (r : Request)
  /-- IMAGE_INSTALL clears the non-newest slot's record, writes the image, then writes the commit record (R92). -/
  | imageInstall (r : Request)
  /-- BOOT_CONTINUE resumes boot after the failed phase in CONFIG_INVALID (R102). -/
  | bootContinue (r : Request)
  /-- ROLLBACK_ADVANCE blows rollback fuse bits one at a time up to the target (R97). -/
  | rollbackAdvance (r : Request)
  /-- IDENTITY_GET returns the device serial and public keys (R105). -/
  | identityGet (r : Request)
  /-- CERT_GET returns a slice of a device or CA certificate (R106). -/
  | certGet (r : Request)
  /-- ATTEST returns a report signed by both device keys (R109). -/
  | attest (r : Request)
  /-- OWNER_KEYS_SET programs an unprogrammed owner key slot (R107). -/
  | ownerKeysSet (r : Request)
  /-- OWNER_KEY_REVOKE blows a slot's revoke fuse when signed by the other slot (R108). -/
  | ownerKeyRevoke (r : Request)
  /-- A write to a register with no behaviour of its own updates its writable fields (R238). -/
  | registerWrite (i : Initiator) (unit : BitVec 8) (inst : BitVec 8) (off : BitVec 16) (value : BitVec 32)
  /-- An admitted carrier reaches RUNNING at the first frame boundary at least 2 ms after admission (R129). -/
  | carrierRunning (c : Fin 64)
  /-- A stopping carrier discards its handset contexts and reaches STOPPED after its last slot's decode deadline (R130). -/
  | carrierStopped (c : Fin 64)
  /-- A received U-plane message is accepted into its symbol's Spool packet or dropped as early, late, duplicate or unknown eAxC (R134). -/
  | uplaneMessage (port : Fin 48) (eaxc : BitVec 16) (seq : BitVec 8) (slot : BitVec 48) (sym : Fin 14) (first : Fin 273) (prbs : List Prb)
  /-- At the close of a symbol's receive window the engine completes its Spool packet, zeroing missing blocks (R136). -/
  | receiveWindowClose (c : Fin 64) (slot : BitVec 48) (sym : Fin 14)
  /-- At its send deadline a downlink symbol's U-plane messages are sent, or the symbol is counted DL_LATE (R138). -/
  | dlSymbolSend (c : Fin 64) (slot : BitVec 48) (sym : Fin 14) (iq : List (Fin 128 × BitVec 32))
  /-- At its deadline a slot's C-plane messages are sent, or the slot is counted CPLANE_LATE (R139). -/
  | cplaneSend (c : Fin 64) (slot : BitVec 48) (msgs : List (Fin 48 × List (BitVec 8)))
  /-- An eCPRI one-way delay measurement message is answered or initiated by the fronthaul engine (R132). -/
  | ecpriDelayMeasurement (port : Fin 48) (received : Bool) (id : BitVec 8)
  /-- Writing CLEAR_ALL sets every fronthaul counter to zero (R140). -/
  | fronthaulClearAll
  /-- The class-0 MAC scheduling stage for slot n runs from its release, applying host broadcast items (R142). -/
  | macScheduling (c : Fin 64) (figs : List SlotFigure) (air : CarrierFigure)
  /-- Uplink or UCI decoding that misses its deadline is treated as failed or DTX and counted (R144). -/
  | decodeDeadlineMiss (c : Fin 64) (block : MissedBlock)
  /-- Every 1,000 slots a carrier record and staggered link-quality records are written to STATS_Q (R155). -/
  | statsPeriod (c : Fin 64)
  /-- HANDSET_ADD creates a handset context from the next scheduling release (R151). -/
  | handsetAdd (r : Request)
  /-- HANDSET_MODIFY replaces a handset context from the slot at APPLY (R152). -/
  | handsetModify (r : Request)
  /-- HANDSET_REMOVE discards a handset's context, HARQ processes and packets and publishes a final forecast (R153). -/
  | handsetRemove (r : Request)
  /-- HANDSET_STATS returns a handset's current link-quality record (R155). -/
  | handsetStats (r : Request)
  /-- CARRIER_STATS returns a carrier's current record (R155). -/
  | carrierStats (r : Request)
  /-- A write of SHUTTLE_ARM reads a task descriptor and arms the slot, or refuses the arm with a reason (R159). -/
  | shuttleArm (task : BitVec 16)
  /-- A write of SHUTTLE_DEC subtracts COUNT from a slot's dependence counter (R166). -/
  | shuttleDec (i : Initiator) (task : BitVec 16) (count : BitVec 12)
  /-- When pool or Beam room appears, Shuttle creates the instances of pending notices in order (R170). -/
  | pendingInstanceCreate (task : BitVec 16)
  /-- A slot becomes READY when its counter is zero and Cox time has reached RELEASE (R163). -/
  | taskReady (task : BitVec 16)
  /-- Shuttle chooses a ready task for a core's staged entry or an engine pool by affinity or EDF (R181). -/
  | taskDispatch (to_ : DispatchTo)
  /-- A write of SHUTTLE_BEAM_PUT adds an output to the running task's Beam sequence, or drops it (R198). -/
  | shuttleBeamPut (i : Initiator) (handle : BitVec 32)
  /-- After its drain and clean, a core task's completion is recorded, its successors decremented and its Beam sequence closed (R175). -/
  | taskCompletion (c : Fin 96)
  /-- A head sequence waiting longer than TIMEOUT is skipped and counted (R202). -/
  | beamTimeout (flow : Fin 4096)
  /-- A device-wide engine completes its task after its writes and status record return, decrementing the successors (R308). -/
  | engineCompletion (engine : Fin 44)
  /-- Shuttle evaluates finish-time projections and enters or leaves crew and device rescue (R188). -/
  | rescueEvaluation
  /-- A core task running past start + WDOG × COST is ended, its core reset and the task failed (R190). -/
  | taskWatchdog (c : Fin 96)
  /-- A CANCEL_LATE task not dispatched by its deadline is cancelled and its successors decremented (R191). -/
  | cancelLate (task : BitVec 16) (inst : Fin 16384)
  /-- On a crew failure the device sets FAILED, adjusts the ledger, replays or fails its tasks and enters RECOVERY (R193). -/
  | crewFailure (crew : Fin 12)
  /-- A write of SHUTTLE_CTRL.SERVICE_REQ requests NORMAL or TEST service (R180). -/
  | serviceReq (value : BitVec 2)
  /-- SERVICE_SET selects NORMAL or TEST service (R180). -/
  | serviceSet (r : Request)
  /-- CREW_RETIRE retires a crew, which fails under R193 (R262). -/
  | crewRetire (r : Request)
  /-- SHUTTLE_STATS returns the Shuttle counters of a crew or the device (R210). -/
  | shuttleStats (r : Request)
  /-- A stopping task set reaches STOPPED when its last running task completes (R209). -/
  | taskSetStopped (index : BitVec 16)
  /-- ADD writes rs1 + rs2 to rd (R212). -/
  | add (c : Fin 96) (rd : Fin 32) (rs1 : Fin 32) (rs2 : Fin 32)
  /-- SUB writes rs1 − rs2 to rd (R212). -/
  | sub (c : Fin 96) (rd : Fin 32) (rs1 : Fin 32) (rs2 : Fin 32)
  /-- AND writes the bitwise AND of rs1 and rs2 (R212). -/
  | andOp (c : Fin 96) (rd : Fin 32) (rs1 : Fin 32) (rs2 : Fin 32)
  /-- OR writes the bitwise OR of rs1 and rs2 (R212). -/
  | orOp (c : Fin 96) (rd : Fin 32) (rs1 : Fin 32) (rs2 : Fin 32)
  /-- XOR writes the bitwise XOR of rs1 and rs2 (R212). -/
  | xorOp (c : Fin 96) (rd : Fin 32) (rs1 : Fin 32) (rs2 : Fin 32)
  /-- SLL shifts rs1 left by rs2[5:0] (R212). -/
  | sll (c : Fin 96) (rd : Fin 32) (rs1 : Fin 32) (rs2 : Fin 32)
  /-- SRL shifts rs1 right logically by rs2[5:0] (R212). -/
  | srl (c : Fin 96) (rd : Fin 32) (rs1 : Fin 32) (rs2 : Fin 32)
  /-- SRA shifts rs1 right arithmetically by rs2[5:0] (R212). -/
  | sra (c : Fin 96) (rd : Fin 32) (rs1 : Fin 32) (rs2 : Fin 32)
  /-- SLT writes 1 when rs1 < rs2 signed (R212). -/
  | slt (c : Fin 96) (rd : Fin 32) (rs1 : Fin 32) (rs2 : Fin 32)
  /-- SLTU writes 1 when rs1 < rs2 unsigned (R212). -/
  | sltu (c : Fin 96) (rd : Fin 32) (rs1 : Fin 32) (rs2 : Fin 32)
  /-- MUL writes the low 64 bits of rs1 × rs2 (R212). -/
  | mul (c : Fin 96) (rd : Fin 32) (rs1 : Fin 32) (rs2 : Fin 32)
  /-- MULH writes the high 64 bits of the signed product (R212). -/
  | mulh (c : Fin 96) (rd : Fin 32) (rs1 : Fin 32) (rs2 : Fin 32)
  /-- MULHU writes the high 64 bits of the unsigned product (R212). -/
  | mulhu (c : Fin 96) (rd : Fin 32) (rs1 : Fin 32) (rs2 : Fin 32)
  /-- DIV divides signed, rounding toward zero, with defined results for zero and overflow (R216). -/
  | div (c : Fin 96) (rd : Fin 32) (rs1 : Fin 32) (rs2 : Fin 32)
  /-- DIVU divides unsigned, returning all ones on division by zero (R216). -/
  | divu (c : Fin 96) (rd : Fin 32) (rs1 : Fin 32) (rs2 : Fin 32)
  /-- REM writes the signed remainder (R216). -/
  | rem (c : Fin 96) (rd : Fin 32) (rs1 : Fin 32) (rs2 : Fin 32)
  /-- REMU writes the unsigned remainder (R216). -/
  | remu (c : Fin 96) (rd : Fin 32) (rs1 : Fin 32) (rs2 : Fin 32)
  /-- CLZ writes the leading zero count of rs1 (R212). -/
  | clz (c : Fin 96) (rd : Fin 32) (rs1 : Fin 32)
  /-- POPC writes the set-bit count of rs1 (R212). -/
  | popc (c : Fin 96) (rd : Fin 32) (rs1 : Fin 32)
  /-- ADDI adds a sign-extended immediate (R212). -/
  | addi (c : Fin 96) (rd : Fin 32) (rs1 : Fin 32) (imm : BitVec 16)
  /-- ANDI ANDs a zero-extended immediate (R212). -/
  | andi (c : Fin 96) (rd : Fin 32) (rs1 : Fin 32) (imm : BitVec 16)
  /-- ORI ORs a zero-extended immediate (R212). -/
  | ori (c : Fin 96) (rd : Fin 32) (rs1 : Fin 32) (imm : BitVec 16)
  /-- XORI XORs a zero-extended immediate (R212). -/
  | xori (c : Fin 96) (rd : Fin 32) (rs1 : Fin 32) (imm : BitVec 16)
  /-- SLTI compares rs1 with an immediate, signed (R212). -/
  | slti (c : Fin 96) (rd : Fin 32) (rs1 : Fin 32) (imm : BitVec 16)
  /-- SLTIU compares rs1 with an immediate, unsigned (R212). -/
  | sltiu (c : Fin 96) (rd : Fin 32) (rs1 : Fin 32) (imm : BitVec 16)
  /-- SLLI shifts left by an immediate amount (R215). -/
  | slli (c : Fin 96) (rd : Fin 32) (rs1 : Fin 32) (amount : BitVec 6)
  /-- SRLI shifts right logically by an immediate amount (R215). -/
  | srli (c : Fin 96) (rd : Fin 32) (rs1 : Fin 32) (amount : BitVec 6)
  /-- SRAI shifts right arithmetically by an immediate amount (R215). -/
  | srai (c : Fin 96) (rd : Fin 32) (rs1 : Fin 32) (amount : BitVec 6)
  /-- LUI writes sext(imm16 × 2^16) (R212). -/
  | lui (c : Fin 96) (rd : Fin 32) (imm : BitVec 16)
  /-- SHORI shifts rs1 left 16 and ORs in the immediate (R212). -/
  | shori (c : Fin 96) (rd : Fin 32) (rs1 : Fin 32) (imm : BitVec 16)
  /-- LB loads a sign-extended byte (R217). -/
  | lb (c : Fin 96) (rd : Fin 32) (rs1 : Fin 32) (imm : BitVec 16)
  /-- LBU loads a zero-extended byte (R217). -/
  | lbu (c : Fin 96) (rd : Fin 32) (rs1 : Fin 32) (imm : BitVec 16)
  /-- LH loads a sign-extended halfword (R217). -/
  | lh (c : Fin 96) (rd : Fin 32) (rs1 : Fin 32) (imm : BitVec 16)
  /-- LHU loads a zero-extended halfword (R217). -/
  | lhu (c : Fin 96) (rd : Fin 32) (rs1 : Fin 32) (imm : BitVec 16)
  /-- LW loads a sign-extended word (R217). -/
  | lw (c : Fin 96) (rd : Fin 32) (rs1 : Fin 32) (imm : BitVec 16)
  /-- LWU loads a zero-extended word (R217). -/
  | lwu (c : Fin 96) (rd : Fin 32) (rs1 : Fin 32) (imm : BitVec 16)
  /-- LD loads 8 bytes (R217). -/
  | ld (c : Fin 96) (rd : Fin 32) (rs1 : Fin 32) (imm : BitVec 16)
  /-- SB stores one byte, subject to the narrow-store rule (R259). -/
  | sb (c : Fin 96) (rs2 : Fin 32) (rs1 : Fin 32) (imm : BitVec 16)
  /-- SH stores two bytes, subject to the narrow-store rule (R259). -/
  | sh (c : Fin 96) (rs2 : Fin 32) (rs1 : Fin 32) (imm : BitVec 16)
  /-- SW stores four bytes, subject to the narrow-store rule (R259). -/
  | sw (c : Fin 96) (rs2 : Fin 32) (rs1 : Fin 32) (imm : BitVec 16)
  /-- SD stores eight bytes, subject to the narrow-store rule (R259). -/
  | sd (c : Fin 96) (rs2 : Fin 32) (rs1 : Fin 32) (imm : BitVec 16)
  /-- BEQ branches when rs1 = rs2 (R213). -/
  | beq (c : Fin 96) (rs1 : Fin 32) (rs2 : Fin 32) (imm : BitVec 16)
  /-- BNE branches when rs1 ≠ rs2 (R213). -/
  | bne (c : Fin 96) (rs1 : Fin 32) (rs2 : Fin 32) (imm : BitVec 16)
  /-- BLT branches when rs1 < rs2 signed (R213). -/
  | blt (c : Fin 96) (rs1 : Fin 32) (rs2 : Fin 32) (imm : BitVec 16)
  /-- BGE branches when rs1 ≥ rs2 signed (R213). -/
  | bge (c : Fin 96) (rs1 : Fin 32) (rs2 : Fin 32) (imm : BitVec 16)
  /-- BLTU branches when rs1 < rs2 unsigned (R213). -/
  | bltu (c : Fin 96) (rs1 : Fin 32) (rs2 : Fin 32) (imm : BitVec 16)
  /-- BGEU branches when rs1 ≥ rs2 unsigned (R213). -/
  | bgeu (c : Fin 96) (rs1 : Fin 32) (rs2 : Fin 32) (imm : BitVec 16)
  /-- J jumps by a 26-bit offset (R213). -/
  | jmp (c : Fin 96) (imm : BitVec 26)
  /-- JAL jumps and writes the return address to s31 (R213). -/
  | jal (c : Fin 96) (imm : BitVec 26)
  /-- JALR jumps to rs1 + imm and links, faulting on a bad target (R219). -/
  | jalr (c : Fin 96) (rd : Fin 32) (rs1 : Fin 32) (imm : BitVec 16)
  /-- MAC adds a 24-bit product to an accumulator, wrapping and setting AOV (R220). -/
  | mac (c : Fin 96) (acc : Fin 4) (rs1 : Fin 32) (rs2 : Fin 32)
  /-- MSU subtracts a 24-bit product from an accumulator, wrapping and setting AOV (R220). -/
  | msu (c : Fin 96) (acc : Fin 4) (rs1 : Fin 32) (rs2 : Fin 32)
  /-- MULA loads an accumulator with a product (R220). -/
  | mula (c : Fin 96) (acc : Fin 4) (rs1 : Fin 32) (rs2 : Fin 32)
  /-- ACCLD loads an accumulator from rs1 (R220). -/
  | accld (c : Fin 96) (acc : Fin 4) (rs1 : Fin 32)
  /-- ACCX extracts a shifted accumulator, truncating (R221). -/
  | accx (c : Fin 96) (rd : Fin 32) (acc : Fin 4) (shift : BitVec 6)
  /-- ACCXS extracts and saturates an accumulator to 24 bits, setting SAT (R222). -/
  | accxs (c : Fin 96) (rd : Fin 32) (acc : Fin 4) (shift : BitVec 6)
  /-- MAXI keeps a running signed maximum and its index (R224). -/
  | maxi (c : Fin 96) (rd : Fin 32) (rs1 : Fin 32) (rs2 : Fin 32)
  /-- MINI keeps a running signed minimum and its index (R224). -/
  | mini (c : Fin 96) (rd : Fin 32) (rs1 : Fin 32) (rs2 : Fin 32)
  /-- MAXIU keeps a running unsigned maximum and its index (R224). -/
  | maxiu (c : Fin 96) (rd : Fin 32) (rs1 : Fin 32) (rs2 : Fin 32)
  /-- MINIU keeps a running unsigned minimum and its index (R224). -/
  | miniu (c : Fin 96) (rd : Fin 32) (rs1 : Fin 32) (rs2 : Fin 32)
  /-- ECALL raises the ECALL exception (R229). -/
  | ecall (c : Fin 96)
  /-- EBREAK raises the EBREAK exception (R229). -/
  | ebreak (c : Fin 96)
  /-- ERET restores IE from PIE, clears EXC_ACTIVE and returns to CORE_EPC (R229). -/
  | eret (c : Fin 96)
  /-- WFI waits until an enabled interrupt is pending (R230). -/
  | wfi (c : Fin 96)
  /-- FENCE waits for the write buffer to drain and every earlier load to return (R237). -/
  | fence (c : Fin 96)
  /-- FENCE.W waits until every earlier write has returned its response (R237). -/
  | fenceW (c : Fin 96)
  /-- CCLEAN starts a write-back of the line holding rs1 (R239). -/
  | cclean (c : Fin 96) (rs1 : Fin 32)
  /-- CINVAL invalidates the line holding rs1, discarding dirty data (R239). -/
  | cinval (c : Fin 96) (rs1 : Fin 32)
  /-- CFLUSH cleans and invalidates the line holding rs1 (R239). -/
  | cflush (c : Fin 96) (rs1 : Fin 32)
  /-- CCLEAN.R cleans every line of a range (R239). -/
  | ccleanR (c : Fin 96) (rs1 : Fin 32) (rs2 : Fin 32)
  /-- CINVAL.R invalidates every line of a range (R239). -/
  | cinvalR (c : Fin 96) (rs1 : Fin 32) (rs2 : Fin 32)
  /-- CFLUSH.R cleans and invalidates every line of a range (R239). -/
  | cflushR (c : Fin 96) (rs1 : Fin 32) (rs2 : Fin 32)
  /-- CCLEAN.ALL cleans every data-cache line (R239). -/
  | ccleanAll (c : Fin 96)
  /-- CFLUSH.ALL cleans and invalidates every data-cache line (R239). -/
  | cflushAll (c : Fin 96)
  /-- IINVAL invalidates an instruction-cache line and the fetch buffer (R239). -/
  | iinval (c : Fin 96) (rs1 : Fin 32)
  /-- IINVAL.ALL invalidates the instruction cache and fetch buffer (R239). -/
  | iinvalAll (c : Fin 96)
  /-- TASK_WAIT returns the staged task in s1 to s6, or blocks until one is staged (R173). -/
  | taskWait (c : Fin 96)
  /-- TASK_DONE drains the write buffer and cleans the dirty range before the task's completion (R175). -/
  | taskDone (c : Fin 96) (rs1 : Fin 32)
  /-- DOORBELL sets DOORBELL pending in the named cores of the crew (R230). -/
  | doorbell (c : Fin 96) (rs1 : Fin 32)
  /-- CSRR reads a CSR (R214). -/
  | csrr (c : Fin 96) (rd : Fin 32) (csr : BitVec 12)
  /-- CSRW reads and writes a CSR (R214). -/
  | csrw (c : Fin 96) (rd : Fin 32) (rs1 : Fin 32) (csr : BitVec 12)
  /-- CSRS reads a CSR and sets bits in it (R214). -/
  | csrs (c : Fin 96) (rd : Fin 32) (rs1 : Fin 32) (csr : BitVec 12)
  /-- CSRC reads a CSR and clears bits in it (R214). -/
  | csrc (c : Fin 96) (rd : Fin 32) (rs1 : Fin 32) (csr : BitVec 12)
  /-- The core takes the lowest pending enabled interrupt at an instruction boundary (R230). -/
  | interruptEntry (c : Fin 96)
  /-- A bus error answering a retired store sets STORE_ERROR and records its address (R232). -/
  | storeError (c : Fin 96) (addr : BitVec 48)
  /-- A core reset writes back dirty lines, invalidates caches, fails its task and restarts at CREW_BOOT_VEC (R261). -/
  | coreReset (c : Fin 96)
  /-- A write of CREW_DOORBELL sets DOORBELL in the named cores (R230). -/
  | crewDoorbell (i : Initiator) (crew : Fin 12) (ring : BitVec 8)
  /-- A write of CREW_BANK_OWNER_b sets PENDING, or commits the new owner at once when nothing is outstanding (R245). -/
  | crewBankOwner (i : Initiator) (crew : Fin 12) (bank : Fin 32) (owner : BitVec 8) (outstanding : Bool)
  /-- The pending owner takes effect once the old owner's accepted accesses complete, and PENDING clears (R245). -/
  | bankOwnerCommit (crew : Fin 12) (bank : Fin 32)
  /-- A CREW_FAULT bit sets, the crew raises CREW_FATAL and fails (R262). -/
  | crewFatal (crew : Fin 12) (fault : Fin 3)
  /-- A write of CREW_RETENTION_ACK clears POISONED of named banks (R619). -/
  | crewRetentionAck (i : Initiator) (crew : Fin 12) (banks : BitVec 32)
  /-- VSET sets VSHAPE and VCOUNT and returns VCOUNT (R268). -/
  | vset (c : Fin 96) (rd : Fin 32) (rs1 : Fin 32) (shape : BitVec 8)
  /-- VLD loads active elements from its starting element, stopping at the first element fault (R283). -/
  | vld (c : Fin 96) (f : VMem)
  /-- VLDFF loads from element 0 and truncates VCOUNT at a fault above element 0 (R285). -/
  | vldff (c : Fin 96) (f : VMem)
  /-- VST stores active elements in order after the full-word check (R280). -/
  | vst (c : Fin 96) (f : VMem)
  /-- VLD.M loads a mask register from 64 bytes (R276). -/
  | vldM (c : Fin 96) (md : Fin 8) (rs1 : Fin 32)
  /-- VST.M stores a mask register to 64 bytes (R276). -/
  | vstM (c : Fin 96) (ms : Fin 8) (rs1 : Fin 32)
  /-- VADD adds elements, wrapping (R269). -/
  | vadd (c : Fin 96) (f : VArith)
  /-- VSUB subtracts elements, wrapping (R269). -/
  | vsub (c : Fin 96) (f : VArith)
  /-- VADDS adds elements with saturation (R272). -/
  | vadds (c : Fin 96) (f : VArith)
  /-- VSUBS subtracts elements with saturation (R272). -/
  | vsubs (c : Fin 96) (f : VArith)
  /-- VAND ANDs element bits (R269). -/
  | vand (c : Fin 96) (f : VArith)
  /-- VOR ORs element bits (R269). -/
  | vor (c : Fin 96) (f : VArith)
  /-- VXOR XORs element bits (R269). -/
  | vxor (c : Fin 96) (f : VArith)
  /-- VMIN takes the signed minimum (R269). -/
  | vmin (c : Fin 96) (f : VArith)
  /-- VMAX takes the signed maximum (R269). -/
  | vmax (c : Fin 96) (f : VArith)
  /-- VMINU takes the unsigned minimum (R269). -/
  | vminu (c : Fin 96) (f : VArith)
  /-- VMAXU takes the unsigned maximum (R269). -/
  | vmaxu (c : Fin 96) (f : VArith)
  /-- VSLL shifts elements left (R269). -/
  | vsll (c : Fin 96) (f : VArith)
  /-- VSRL shifts elements right logically (R269). -/
  | vsrl (c : Fin 96) (f : VArith)
  /-- VSRA shifts elements right arithmetically (R269). -/
  | vsra (c : Fin 96) (f : VArith)
  /-- VNSRA narrows with a rounded right shift, wrapping (R271). -/
  | vnsra (c : Fin 96) (f : VArith)
  /-- VNSRAS narrows with a rounded right shift, saturating (R271). -/
  | vnsras (c : Fin 96) (f : VArith)
  /-- VMUL writes the low bits of the product (R269). -/
  | vmul (c : Fin 96) (f : VArith)
  /-- VMULQ forms a rounded, saturated Q-format product (R271). -/
  | vmulq (c : Fin 96) (f : VArith)
  /-- VMACW adds a widened product to the destination (R273). -/
  | vmacw (c : Fin 96) (f : VArith)
  /-- VMSUW subtracts a widened product from the destination (R273). -/
  | vmsuw (c : Fin 96) (f : VArith)
  /-- VCMULW forms an exact widened complex product (R273). -/
  | vcmulw (c : Fin 96) (f : VArith)
  /-- VCMACW accumulates a widened complex product (R273). -/
  | vcmacw (c : Fin 96) (f : VArith)
  /-- VCMACJW accumulates a widened conjugate complex product (R273). -/
  | vcmacjw (c : Fin 96) (f : VArith)
  /-- VCMULQ forms a rounded, saturated complex Q15 product (R271). -/
  | vcmulq (c : Fin 96) (f : VArith)
  /-- VFADD adds binary32 elements (R274). -/
  | vfadd (c : Fin 96) (f : VArith)
  /-- VFSUB subtracts binary32 elements (R274). -/
  | vfsub (c : Fin 96) (f : VArith)
  /-- VFMUL multiplies binary32 elements (R274). -/
  | vfmul (c : Fin 96) (f : VArith)
  /-- VFMA performs a fused multiply-add (R274). -/
  | vfma (c : Fin 96) (f : VArith)
  /-- VFMIN takes the binary32 minimum (R274). -/
  | vfmin (c : Fin 96) (f : VArith)
  /-- VFMAX takes the binary32 maximum (R274). -/
  | vfmax (c : Fin 96) (f : VArith)
  /-- VFRECE estimates 1/a (R274). -/
  | vfrece (c : Fin 96) (f : VArith)
  /-- VFRSQE estimates 1/√a (R274). -/
  | vfrsqe (c : Fin 96) (f : VArith)
  /-- VFCVT.I converts binary32 to saturated int32 (R275). -/
  | vfcvtI (c : Fin 96) (f : VArith)
  /-- VFCVT.F converts int32 to binary32 (R271). -/
  | vfcvtF (c : Fin 96) (f : VArith)
  /-- VCMPEQ writes mask bits for equality (R270). -/
  | vcmpeq (c : Fin 96) (f : VArith)
  /-- VCMPNE writes mask bits for inequality (R270). -/
  | vcmpne (c : Fin 96) (f : VArith)
  /-- VCMPLT writes mask bits for signed less-than (R270). -/
  | vcmplt (c : Fin 96) (f : VArith)
  /-- VCMPLTU writes mask bits for unsigned less-than (R270). -/
  | vcmpltu (c : Fin 96) (f : VArith)
  /-- VCMPLE writes mask bits for signed less-or-equal (R270). -/
  | vcmple (c : Fin 96) (f : VArith)
  /-- VCMPLEU writes mask bits for unsigned less-or-equal (R270). -/
  | vcmpleu (c : Fin 96) (f : VArith)
  /-- VFCMPEQ writes mask bits for binary32 equality (R270). -/
  | vfcmpeq (c : Fin 96) (f : VArith)
  /-- VFCMPLT writes mask bits for binary32 less-than (R270). -/
  | vfcmplt (c : Fin 96) (f : VArith)
  /-- VMERGE selects elements by mask (R269). -/
  | vmerge (c : Fin 96) (f : VArith)
  /-- VREDSUM sums the active elements into rd (R269). -/
  | vredsum (c : Fin 96) (rd : Fin 32) (vs1 : Fin 32) (men : Bool) (msel : Fin 8)
  /-- VREDMAX returns the maximum active element and its lowest index (R269). -/
  | vredmax (c : Fin 96) (rd : Fin 32) (vs1 : Fin 32) (men : Bool) (msel : Fin 8)
  /-- VREDMIN returns the minimum active element and its lowest index (R269). -/
  | vredmin (c : Fin 96) (rd : Fin 32) (vs1 : Fin 32) (men : Bool) (msel : Fin 8)
  /-- VSLIDEDN slides elements down by rs2 (R269). -/
  | vslidedn (c : Fin 96) (vd : Fin 32) (vs1 : Fin 32) (rs2 : Fin 32) (men : Bool) (msel : Fin 8)
  /-- VSLIDEUP slides elements up by rs2 (R269). -/
  | vslideup (c : Fin 96) (vd : Fin 32) (vs1 : Fin 32) (rs2 : Fin 32) (men : Bool) (msel : Fin 8)
  /-- VGATHERR gathers elements from a register by index (R269). -/
  | vgatherr (c : Fin 96) (vd : Fin 32) (vs1 : Fin 32) (vs2 : Fin 32) (men : Bool) (msel : Fin 8)
  /-- VEXT extracts one element to a scalar register (R269). -/
  | vext (c : Fin 96) (rd : Fin 32) (vs1 : Fin 32) (rs2 : Fin 32)
  /-- VINS inserts a scalar into one element (R269). -/
  | vins (c : Fin 96) (vd : Fin 32) (rs1 : Fin 32) (rs2 : Fin 32)
  /-- VMAND ANDs two masks (R270). -/
  | vmand (c : Fin 96) (md : Fin 8) (ms1 : Fin 8) (ms2 : Fin 8)
  /-- VMOR ORs two masks (R270). -/
  | vmor (c : Fin 96) (md : Fin 8) (ms1 : Fin 8) (ms2 : Fin 8)
  /-- VMXOR XORs two masks (R270). -/
  | vmxor (c : Fin 96) (md : Fin 8) (ms1 : Fin 8) (ms2 : Fin 8)
  /-- VMANDN ANDs a mask with the complement of another (R270). -/
  | vmandn (c : Fin 96) (md : Fin 8) (ms1 : Fin 8) (ms2 : Fin 8)
  /-- VMSET sets mask bits below VCOUNT (R270). -/
  | vmset (c : Fin 96) (md : Fin 8)
  /-- VMCLR clears a mask (R270). -/
  | vmclr (c : Fin 96) (md : Fin 8)
  /-- VMPOPC counts set mask bits below VCOUNT (R270). -/
  | vmpopc (c : Fin 96) (rd : Fin 32) (ms1 : Fin 8)
  /-- VMFIRST returns the lowest set mask bit below VCOUNT (R270). -/
  | vmfirst (c : Fin 96) (rd : Fin 32) (ms1 : Fin 8)
  /-- CPISS checks and issues a coprocessor command on a tag (R291). -/
  | cpiss (c : Fin 96) (tag : Fin 32) (unit : Fin 8) (q : Fin 8)
  /-- CPRES waits for a tag, returns its result and status and frees it (R299). -/
  | cpres (c : Fin 96) (rd : Fin 32) (tag : Fin 32)
  /-- CPB branches on a tag's state (R288). -/
  | cpb (c : Fin 96) (tag : Fin 32) (cond : Fin 32) (imm : BitVec 16)
  /-- CPWAIT waits until no named tag is LIVE (R288). -/
  | cpwait (c : Fin 96) (rs1 : Fin 32)
  /-- CPFREE frees the named tags, discarding live results (R301). -/
  | cpfree (c : Fin 96) (rs1 : Fin 32)
  /-- CPTST returns a tag's state (R288). -/
  | cptst (c : Fin 96) (rd : Fin 32) (rs1 : Fin 32)
  /-- A coprocessor runs a forward FFT and writes the window bins (R292). -/
  | fft (crew : Fin 12) (engine : Fin 2) (coll : Option (BitVec 48))
  /-- A coprocessor runs an inverse FFT (R292). -/
  | ifft (crew : Fin 12) (engine : Fin 2) (coll : Option (BitVec 48))
  /-- A coprocessor runs an FFT and returns the peak bin and power (R289). -/
  | fftPeak (crew : Fin 12) (engine : Fin 2)
  /-- A coprocessor runs a forward DFT (R292). -/
  | dft (crew : Fin 12) (engine : Fin 2) (coll : Option (BitVec 48))
  /-- A coprocessor runs an inverse DFT (R292). -/
  | idft (crew : Fin 12) (engine : Fin 2) (coll : Option (BitVec 48))
  /-- A CEMD engine computes a smoothed least-squares channel estimate (R292). -/
  | chest (crew : Fin 12) (engine : Fin 2) (coll : Option (BitVec 48))
  /-- A CEMD engine equalises resource elements into symbols or LLRs (R292). -/
  | mimoDet (crew : Fin 12) (engine : Fin 2) (coll : Option (BitVec 48))
  /-- A CEMD engine sums received power (R289). -/
  | power (crew : Fin 12) (engine : Fin 2)
  /-- BW_0 computes beamforming weight matrices (R292). -/
  | bwWeights (crew : Fin 12) (coll : Option (BitVec 48))
  /-- BW_0 applies weight matrices to samples (R292). -/
  | bwApply (crew : Fin 12) (coll : Option (BitVec 48))
  /-- A hand-over drains and cleans its ranges and sends one decrement to a Shuttle slot (R303). -/
  | handover (c : Fin 96) (tag : Fin 32)
  /-- An LDPC decoder decodes a task's code blocks and writes its status record (R310). -/
  | ldpcDecode (engine : Fin 24)
  /-- An LDPC encoder encodes and rate-matches a task's code blocks (R309). -/
  | ldpcEncode (engine : Fin 8)
  /-- A polar engine decodes a task's candidates (R306). -/
  | polarDecode (engine : Fin 8)
  /-- A polar engine encodes a task's candidates (R306). -/
  | polarEncode (engine : Fin 8)
  /-- A cipher engine ciphers and authenticates a task's packet list (R313). -/
  | cipherTask (engine : Fin 4)
  /-- A band sample message arrives for a chirp channel group (R335). -/
  | bandSampleMessage (port : Fin 48) (eaxc : BitVec 16) (last : BitVec 64)
  /-- A sample message missing 2 ms after its last sample time is replaced by zeros and counted (R335). -/
  | bandGap (g : Fin 256)
  /-- A stopping chirp group discards receptions, finishes emission, writes STOPPED results and reaches STOPPED (R322). -/
  | chirpGroupStopped (g : Fin 256)
  /-- A searcher reports a preamble detection, which a demodulator takes, captures or drops (R328). -/
  | detection (ch : Fin 256) (so : Fin 12) (chirps : List UpChirp) (newest : UpChirp) (checks : List (Fin 8 × SyncSeen × List (BitVec 11))) (frames : List (BitVec 16)) (part : RxData)
  /-- A reception's header is decoded and CRC-checked, confirming it or ending it as a false detection (R329). -/
  | headerCheck (ch : Fin 256) (d : Fin 8) (pre : SyncSeen) (symbols : List (BitVec 11))
  /-- A reception ends and its record is written to RX_Q and the tag registry updated (R337). -/
  | receptionEnd (ch : Fin 256) (d : Fin 8) (data : RxData)
  /-- A quiet symbol period updates the channel's noise floor (R336). -/
  | noiseFloorPeriod (ch : Fin 256) (power : BitVec 32)
  /-- At LAUNCH − TX_LEAD_US the head transmit descriptor is dequeued and booked or rejected (R341). -/
  | txDequeue (g : Fin 256)
  /-- A booked frame's first sample leaves the port at LAUNCH − TX_DELAY (R342). -/
  | txFrameLaunch (m : Fin 64) (parts : List (Fin 256 × Fin 8 × RxData))
  /-- A launched frame ends, its modulator frees and a LAUNCHED result is written (R341). -/
  | txFrameEnd (m : Fin 64)
  /-- TAG_SET clears a registry entry and sets REGISTERED (R343). -/
  | tagSet (r : Request)
  /-- TAG_REMOVE clears a registry entry (R343). -/
  | tagRemove (r : Request)
  /-- TAG_GET returns a registry entry (R343). -/
  | tagGet (r : Request)
  /-- CHIRP_STATS returns a channel's counters (R343). -/
  | chirpStats (r : Request)
  /-- Writing CSS_CNT_CTRL.CLEAR sets a channel's counters to zero (R344). -/
  | cssCntClear (ch : Fin 256)
  /-- An admitted bridge group reaches RUNNING at the first block at least 2 ms after admission (R349). -/
  | bridgeGroupRunning (g : Fin 512)
  /-- A stopping bridge group removes its legs and reaches STOPPED after its last output frame (R350). -/
  | bridgeGroupStopped (g : Fin 512)
  /-- An input frame on IN_Q is converted to 48 kHz and written into its leg's jitter buffer (R351). -/
  | inputFrame (g : Fin 512)
  /-- At a block start the engine computes the group sums, N-1 outputs and limiter and enqueues output frames (R355). -/
  | blockCompute (mic0 : List (BitVec 24)) (mic1 : List (BitVec 24)) (took : BitVec 16)
  /-- A block not complete by B + 400 µs has its missing outputs written as zero and counted (R357). -/
  | audioBlockOverrun
  /-- A remote sub-sum arrives for use in the next block's computation (R371). -/
  | subsumReceived (g : Fin 512) (device : BitVec 12) (block : BitVec 64) (samples : List (BitVec 64))
  /-- A parameter descriptor from AUDIO_PARAM_Q is stored pending, or dropped (R370). -/
  | paramDescriptor
  /-- LEG_ADD adds an audio leg to a group from the next block (R375). -/
  | legAdd (r : Request)
  /-- LEG_REMOVE removes an audio leg and clears its key slots (R376). -/
  | legRemove (r : Request)
  /-- LEG_PARAM queues a parameter descriptor (R376). -/
  | legParam (r : Request)
  /-- LEG_STATS returns an audio leg's counters (R383). -/
  | legStats (r : Request)
  /-- LEG_KEY_SET writes an audio leg's SRTP key slot (R377). -/
  | legKeySet (r : Request)
  /-- Writing AUDIO_CTRL.CLEAR_ALL sets every audio counter to zero (R383). -/
  | audioClearAll
  /-- A debounced plug insertion starts accessory detection (R379). -/
  | hspInsertion (plug : PlugHeld)
  /-- 15 ms after insertion the accessory is classified, HSP_PLUG raised and outputs optionally unmuted (R379). -/
  | accessoryDetection (n : Fin 2) (t : BitVec 32) (r1 : BitVec 32) (short : BitVec 32) (onS : BitVec 32) (onR2 : BitVec 32)
  /-- A debounced removal mutes the port and abandons detection (R378). -/
  | hspRemoval (plug : PlugHeld)
  /-- Every 1 ms the microphone contact is measured and a stable button reading updates BUTTONS (R380). -/
  | micMeasurement (n : Fin 2) (ohms : BitVec 32)
  /-- An admitted video session reaches RUNNING at the first frame boundary 2 ms after admission (R390). -/
  | videoSessionRunning (k : Fin 4096)
  /-- A stopping video session ends after its picture in progress and frees its buffers (R390). -/
  | videoSessionStopped (k : Fin 4096)
  /-- An access unit on IN_Q is decoded, with concealment and DAMAGED marking on errors (R392). -/
  | accessUnit (k : Fin 4096)
  /-- A decode completes and its picture becomes eligible at picture time + DELAY (R391). -/
  | pictureDecode (k : Fin 4096)
  /-- An encode completes and its layered stream packets are written (R391). -/
  | pictureEncode (k : Fin 4096)
  /-- At a layout frame boundary the compositor builds the output picture from eligible source pictures (R394). -/
  | composeFrame (layout : Fin 8)
  /-- An ST 2110 packet is received, de-duplicated across ports and placed in its picture (R398). -/
  | st2110Packet (k : Fin 4096) (port : Fin 48) (seq : BitVec 16) (ts : BitVec 32) (ssrc : BitVec 32) (pt : BitVec 7) (segs : List (Fin 4096 × Fin 16384 × List (BitVec 8)))
  /-- An RX_2110 picture becomes eligible and its missing lines are counted (R399). -/
  | st2110PictureEligible (k : Fin 4096)
  /-- A TX_2110 session sends a picture paced under ST 2110-21 (R387). -/
  | tx2110Picture (k : Fin 4096)
  /-- A stream packet reaches the forwarder and is sent to each leg under its selection (R408). -/
  | streamPacket (n : Fin 512)
  /-- Every 10 ms layer rates are measured and leg targets recomputed (R406). -/
  | layerRateMeasure
  /-- The forwarder dequeues a forecast record and updates HANDSET leg budgets or relays it (R402). -/
  | forecastRecord (c : Fin 64)
  /-- A relayed forecast record arrives over Bupex for a subscribed handset (R403). -/
  | forecastRelay (device : BitVec 12) (record : List (BitVec 8))
  /-- A HANDSET leg without records for STALE_MS drops its target to (0, 0) (R404). -/
  | forecastStale (l : Fin 4096)
  /-- A feedback record updates an IP leg's budget and may request a key (R405). -/
  | feedbackRecord
  /-- A higher target held for UP_HOLD ms is adopted (R407). -/
  | upHoldExpiry (l : Fin 4096)
  /-- With no KEY within KEY_WAIT, the forwarder requests a key picture (R409). -/
  | keyRequest (l : Fin 4096)
  /-- Stream packets held 200 ms are released and legs still waiting skip them (R412). -/
  | streamPacketExpiry (n : Fin 512)
  /-- LAYOUT_SET sets a compositor layout from APPLY (R393). -/
  | layoutSet (r : Request)
  /-- LAYOUT_GET returns a layout (R393). -/
  | layoutGet (r : Request)
  /-- FWD_LEG_ADD adds a video leg served from the next layer-0 KEY (R415). -/
  | fwdLegAdd (r : Request)
  /-- FWD_LEG_REMOVE removes a video leg (R415). -/
  | fwdLegRemove (r : Request)
  /-- FWD_LEG_STATS returns a video leg's counters (R415). -/
  | fwdLegStats (r : Request)
  /-- Writing FWD_CTRL.CLEAR_ALL sets every forwarder counter to zero (R416). -/
  | fwdClearAll
  /-- A Sync with Follow_Up is received; it sets the counter from UNSET or yields a measurement (R423). -/
  | ptpSync (p : Fin 16) (msg : PtpTimed) (corr : Int)
  /-- A Delay_Resp completes an exchange and gives meanPathDelay and offset for the servo (R438). -/
  | delayResp (p : Fin 16) (msg : PtpTimed) (corr : Int)
  /-- An Announce message feeds the BMCA and port state (R435). -/
  | announce (p : Fin 16) (a : Announce)
  /-- A port sends Sync, Delay_Req or Announce at its interval, launched at a chosen instant when one-step (R439). -/
  | ptpMessageSend (p : Fin 16) (m : PtpMessage)
  /-- Sync, Delay_Resp or Announce messages missing beyond their timeout invalidate the PTP reference (R430). -/
  | ptpTimeout (p : Fin 16) (m : PtpMessage)
  /-- A selected PPS input edge is captured, measured and applied to NEXT_PPS TIME_SET (R441). -/
  | ppsEdge (n : Fin 4)
  /-- A PPS input missing an edge for 1.5 s becomes invalid (R430). -/
  | ppsInputInvalid (n : Fin 4)
  /-- A better reference valid for 10 s is selected (R433). -/
  | referencePromotion (ref : Fin 20)
  /-- After HOLDOVER_S seconds in HOLDOVER the state becomes FREERUN (R423). -/
  | holdoverExpiry
  /-- Cox asserts a second, sample, frame, slot, symbol or video strobe at its boundary (R445). -/
  | strobe (strobe : Strobe)
  /-- TIME_SET sets the counter directly or arms it for the next PPS edge (R428). -/
  | timeSet (r : Request)
  /-- A NEXT_PPS TIME_SET with no edge within 2 s completes with PPS_NO_EDGE (R443). -/
  | ppsNoEdge
  /-- TIME_ADJUST steps the counter or adds to the phase to be slewed (R429). -/
  | timeAdjust (r : Request)
  /-- TIME_GET returns the time state, reference and time (R449). -/
  | timeGet (r : Request)
  /-- PTP_PORT_STATS returns a port's state, parent, delay and counters (R449). -/
  | ptpPortStats (r : Request)
  /-- A read of COX_LATCH_SHORT_LO_k captures the counter into bank k (R421). -/
  | coxLatchShortLo (k : Fin 4)
  /-- A read of COX_PPS_IN_TS_LO holds the edge timestamp's other fields (R441). -/
  | coxPpsInTsLo (n : Fin 4)
  /-- A read of MEM_DEV_CE clears the selected count and re-arms MEM_DEVICE_SUSPECT (R462). -/
  | memDevCe (ch : Fin 8)
  /-- A channel interface failing beyond 1 ms of retraining is taken out of service (R470). -/
  | memChannelDown (ch : Fin 8) (parity : Bool)
  /-- A write of MEM_REPAIR_LO reads, corrects and rewrites a burst as one operation (R471). -/
  | memRepair (ch : Fin 8) (lo : BitVec 32)
  /-- Setting ARM applies the flip masks to the next code word encoded for the target address (R472). -/
  | memFlipArm (target : FlipTarget) (axor : BitVec 16)
  /-- An inbound PCI Express posted write is performed, or discarded under R464 or R641 (R641). -/
  | inboundPcieWrite (target : PcieTarget) (data : List (BitVec 8)) (whole : Bool)
  /-- An inbound PCI Express read completes with data, Completer Abort or Unsupported Request (R641). -/
  | inboundPcieRead (target : PcieTarget) (len : BitVec 13)
  /-- A read of SPOOL_ALLOC allocates a packet of CTX_LEN bytes or reports NO_CELLS (R486). -/
  | spoolAlloc (i : Initiator)
  /-- A write of SPOOL_ENQ enqueues a packet on CTX_QUEUE and sends its notice (R482). -/
  | spoolEnq (i : Initiator) (handle : BitVec 32)
  /-- A read of SPOOL_DEQ dequeues the head packet or returns the idle item (R483). -/
  | spoolDeq (i : Initiator)
  /-- A write of SPOOL_FREE frees every cell of a packet (R481). -/
  | spoolFree (i : Initiator) (handle : BitVec 32)
  /-- A read of SPOOL_NEXT walks to the next cell of a packet (R486). -/
  | spoolNext (i : Initiator)
  /-- A unit's packet joins its queue once its EOP cell's writes have returned, raising one notice (R479). -/
  | packetJoin (handle : BitVec 32)
  /-- A write of PUSH_3 appends an item to a compatibility queue or sets OVERFLOW (R492). -/
  | spoolCqPush (q : Fin 1024) (word : BitVec 32)
  /-- A read of POP_0 removes and latches the head item, refilling from the spill ring (R493). -/
  | spoolCqPop (q : Fin 1024)
  /-- Setting or clearing EN allocates or frees a compatibility queue's spill ring (R494). -/
  | spoolCqEnable (q : Fin 1024) (en : Bool)
  /-- QUEUE_RECLAIM scans the link table and frees the queue's quarantined cells (R489). -/
  | queueReclaim (r : Request)
  /-- QUEUE_STATS returns a queue's counts (R513). -/
  | queueStats (r : Request)
  /-- At a program boundary a DMA channel starts the armed shadow program or a staged task (R504). -/
  | handoverCycle (ch : Fin 64)
  /-- A MOVE transfers LEN bytes, packets or buffers, and writes its status record (R495). -/
  | moveProg (ch : Fin 64)
  /-- LOOP opens a loop of COUNT iterations (R503). -/
  | loopProg (ch : Fin 64)
  /-- ENDLOOP repeats or closes the innermost loop (R503). -/
  | endloop (ch : Fin 64)
  /-- WAIT holds the program until a time or a memory word condition (R502). -/
  | waitProg (ch : Fin 64)
  /-- A WAIT still waiting after TIMEOUT ends the program (R502). -/
  | waitTimeout (ch : Fin 64)
  /-- SIGNAL decrements a task, sends a vector or enqueues a packet after earlier writes return (R501). -/
  | signalProg (ch : Fin 64)
  /-- A DMA FENCE waits for all earlier reads and writes (R498). -/
  | dmaFence (ch : Fin 64)
  /-- END completes the program after its writes return and sends the shadow decrement (R507). -/
  | endProg (ch : Fin 64)
  /-- Setting DMA_CH_CTRL.ARM arms the shadow program for the next boundary (R505). -/
  | dmaArm (ch : Fin 64)
  /-- Writing ABORT stops the running program with ERROR ABORTED (R509). -/
  | abortCh (ch : Fin 64)
  /-- A shadow register write is accepted while ARM is 0, or ignored setting SHADOW_LOCKED (R506). -/
  | shadowWrite (ch : Fin 64) (reg : Fin 5) (value : BitVec 32)
  /-- A CREDIT packet returns request-buffer credits to a source gateway (R523). -/
  | credit (src : Fin 64) (dst : Fin 64) (flits : Fin 1025)
  /-- A head flit at a gateway is delivered, aborts a domain entry, or waits and requests a wake (R536). -/
  | gatewayHeadFlit (src : Fin 64) (dst : Fin 64) (vc : Fin 4) (pkt : WeftPacket) (bad : Option (Fin 64 × Fin 5)) (corrected : Option (Fin 64 × Fin 5))
  /-- A request without response in 10 ms returns a bus error and resynchronises credits (R524). -/
  | requestTimeout (i : Initiator) (src : Fin 64) (dst : Fin 64) (req : WeftRequest)
  /-- A CREDIT_SYNC is answered with the credits the source actually holds (R524). -/
  | creditSync (src : Fin 64) (dst : Fin 64)
  /-- A write of WEFT_ROUTE commits a new route entry in one cycle, or sets REJECT (R528). -/
  | weftRoute (node : Fin 64) (value : BitVec 32)
  /-- WEFT_DRAIN schedules a router drain window (R533). -/
  | weftDrain (r : Request)
  /-- At START the router enters DRAINING and lowers its availability (R529). -/
  | drainStart (node : Fin 64)
  /-- The draining router holds no flit and enters DRAINED (R531). -/
  | drained (node : Fin 64)
  /-- At END the router returns to RUN and the WEFT_DRAIN completes (R532). -/
  | drainEnd (node : Fin 64)
  /-- Writing BIST in DRAINED runs the router self-test (R531). -/
  | weftBist (node : Fin 64) (pass : Bool)
  /-- WEFT_LINK_LOAD returns an output's admitted class-0 load (R541). -/
  | weftLinkLoad (r : Request)
  /-- WEFT_PATH returns a path's router count and class-0 bound (R541). -/
  | weftPath (r : Request)
  /-- Setting ETH_PORT_CFG.ENABLE takes the port's lanes or sets CONFLICT (R544). -/
  | ethPortEnable (n : Fin 49) (value : BitVec 32)
  /-- An Ethernet port comes up after equaliser adaptation (R549). -/
  | ethLinkUp (n : Fin 49)
  /-- An Ethernet port goes down (R545). -/
  | ethLinkDown (n : Fin 49) (signal : Bool)
  /-- The MAC accepts or drops a received frame (R545). -/
  | ethFrameReceived (n : Fin 49) (len : BitVec 16) (fcs : Bool) (pause : Bool) (fec : FecCount) (clock : RxClock) (frame : EthFrame)
  /-- A lost lane is reconstructed from the parity lane (R554). -/
  | laneParityActive (lane : Fin 48)
  /-- The PRBS checker loses and regains synchronisation (R550). -/
  | prbsSyncLost (lane : Fin 48) (lost : Bool) (errs : BitVec 48) (total : BitVec 48)
  /-- Reading the LO half of a PRBS counter clears it and latches the HI half (R550). -/
  | lanePrbsErrLo (lane : Fin 48) (errors : Bool)
  /-- An admitted Bupex link reaches RUNNING once its lanes are enabled (R568). -/
  | bupexLinkRunning (l : Fin 6)
  /-- A Bupex frame is received, CRC-checked, acknowledged or replayed, filtered and delivered or forwarded (R557). -/
  | bupexFrame (l : Fin 6) (f : BupexFrame)
  /-- Every 10 µs a running link sends a HELLO with DEVICE_ID and settings digest (R563). -/
  | hello (l : Fin 6) (rx : Option (BitVec 12 × BitVec 64 × BitVec 16))
  /-- A link without valid HELLO for 30 µs goes down and routes are recomputed (R564). -/
  | bupexLinkDown (l : Fin 6)
  /-- A link comes up on matching HELLO digests (R563). -/
  | bupexLinkUp (l : Fin 6)
  /-- A link with IDLE_EN enters electrical idle after IDLE_US without traffic (R552). -/
  | bupexIdleEntry (l : Fin 6)
  /-- A link leaves electrical idle for a ready frame, a partner burst or a 1 ms wake (R552). -/
  | bupexIdleExit (l : Fin 6) (valid : Bool)
  /-- Members unreachable for PARTITION_HOLD cause a partition with roles decided by votes (R570). -/
  | partitioned
  /-- All members reachable for PARTITION_HOLD cause rejoin and restore suspended services (R574). -/
  | rejoined
  /-- A packet enqueued on a proxy queue is carried to HOME_Q on its home device (R566). -/
  | proxyEnqueue (q : BitVec 16)
  /-- MD_STATUS returns the role, leader, votes and members seen (R577). -/
  | mdStatus (r : Request)
  /-- BUPEX_LINK_STATS returns a link's counters (R577). -/
  | bupexLinkStats (r : Request)
  /-- BUPEX_BOOT_SEND trains a lane and sends a firmware image as BOOT frames (R575). -/
  | bupexBootSend (r : Request)
  /-- A target strapped 0b100 accepts a boot transfer after training LANE_0 (R576). -/
  | bootReady
  /-- A long-line comparator mismatch over 4 ns forces the line's taps off (R583). -/
  | fabricContention (row : Fin 6) (line : Fin 16)
  /-- Every 10 µs a block frame is read back and a CRC mismatch stops its region (R590). -/
  | cfgReadback (upset : Bool)
  /-- A region START checks and loads its image and releases it under R588 (R592). -/
  | regionStartLoad (r : Fin 96)
  /-- A region STOP disables its taps, pins and ports within 1 µs (R593). -/
  | regionStop (r : Fin 96)
  /-- A write of FABRIC_PIN_SET_k sets OUT of REG-owned pins (R594). -/
  | fabricPinSet (k : Fin 4) (value : BitVec 32)
  /-- A write of FABRIC_PIN_CLR_k clears OUT of REG-owned pins (R594). -/
  | fabricPinClr (k : Fin 4) (value : BitVec 32)
  /-- A write of FABRIC_SP_TX_p queues a byte, with START or STOP framing (R599). -/
  | fabricSpTx (p : Fin 12) (value : BitVec 32)
  /-- A read of FABRIC_SP_RX_p pops a received byte (R599). -/
  | fabricSpRx (p : Fin 12)
  /-- Setting an oscillator's EN starts it and sets READY 10 µs later (R597). -/
  | oscEnable (n : Fin 4) (value : BitVec 32)
  /-- NV_READ copies user-area NV store data to a buffer (R600). -/
  | nvRead (r : Request)
  /-- NV_WRITE writes 32-byte units to the NV user area (R600). -/
  | nvWrite (r : Request)
  /-- A domain's idle timer reaching DOZE_US, HOLD_US or OFF_MS requests that state (R607). -/
  | idleTimerExpiry (d : Fin 38) (which : Fin 3)
  /-- DOZE entry gates the domain's clocks (R610). -/
  | dozeEntry (d : Fin 38)
  /-- HOLD or OFF entry runs its steps to the point of no return or is refused or aborted (R609). -/
  | domainEntry (d : Fin 38) (upto : Fin 7)
  /-- The supply reaches retention level or off and the domain enters HOLD or OFF (R609). -/
  | domainEntryComplete (d : Fin 38)
  /-- A wake source requests a shallower state and the request is handled under R612 (R613). -/
  | wakeRequest (d : Fin 38) (w : WakeSource)
  /-- A wake asserts its next ready signal, reaching RUN at LOGIC_READY (R614). -/
  | wakeReadyStep (d : Fin 38)
  /-- A ready signal late beyond four times its time fails the wake (R615). -/
  | wakeFail (d : Fin 38)
  /-- A rail monitor crossing a threshold for 4 samples warns, fails crews or reports over-voltage (R621). -/
  | monitorSample (m : Fin 8) (level : BitVec 16)
  /-- UV_FAULT on a core rail resets the device until rails recover (R622). -/
  | brownout
  /-- PFAIL_N low for PFAIL_FILTER_US sets PFAIL, sheds domains and sends last-gasp messages (R623). -/
  | pfail
  /-- A received LAST_GASP frame raises BUPEX_PEER_LAST_GASP (R625). -/
  | lastGaspReceived (l : Fin 6) (sender : BitVec 12)
  /-- PFAIL_N high for 10 ms clears PFAIL and releases shed domains (R626). -/
  | powerRestored
  /-- POWER_SET requests a state for a domain without waiting for its idle timer (R630). -/
  | powerSet (r : Request)
  /-- POWER_STATUS returns every domain's state and counts (R630). -/
  | powerStatus (r : Request)
  /-- A write of POWER_DOM_CTRL_n.REQ submits a state request (R612). -/
  | powerDomCtrl (d : Fin 38) (value : BitVec 32)
  /-- A sensor at 135 °C resets the device and drives THERMTRIP_N low (R664). -/
  | thermtrip
  /-- SFG_STATUS returns each single-fault clause's state (R644). -/
  | sfgStatus (r : Request)
  /-- FAULT_INJECT starts an injected fault (R645). -/
  | faultInject (r : Request)
  /-- FAULT_CLEAR ends an active injection (R646). -/
  | faultClear (r : Request)
  /-- An injection ends after DURATION_US (R645). -/
  | injectionExpiry
  /-- A change of SYS_PLL_SSC_k.EN takes effect at the next modulation zero crossing (R662). -/
  | sscEnable (k : Fin 4)
  /-- RESET_N driven low resets the device, discarding every request, reply and outstanding long command and returning the time state to UNSET (R56). -/
  | resetNAssert
  /-- The brownout reset ends once every faulted rail has stayed above UV_WARN for 10 ms, with RESET_CAUSE BROWNOUT (R622). -/
  | brownoutResetEnd
  /-- CORE_TIME reaches CORE_TIMER_CMP, TIMER becomes pending, a WFI ends and the crew's domain receives a wake request (R613). -/
  | coreTimerCmpReached (c : Fin 96)
  /-- A DMA WAIT continues when Cox time reaches its time, or when a 1 µs re-read finds the word condition true or receives a bus error (R502). -/
  | waitContinue (ch : Fin 64)
  /-- A target strapped 0b100 that has begun no image within 2 s of training LANE_0 passes to host push (R576). -/
  | bootTransferTimeout
  /-- A byte arriving on a REG-owned UART, SPI or I2C port enters the receive FIFO or sets OVERRUN, FRAMING or NACK (R599). -/
  | serialPortByteReceived (p : Fin 12) (e : SpEvent)
  /-- The PCI Express host link goes down, retrains or enters and leaves L1, changing PCIE_STATUS and the PCIE domain's idleness (R546). -/
  | pcieLinkChange (up : Bool) (gen : Fin 6) (width : Fin 17) (l1 : Bool)
  /-- Every 100 µs each on-die sensor takes a reading, setting VALID and updating POWER_TEMP_s and POWER_TEMP_MAX (R664). -/
  | tempSensorUpdate (k : Fin 16) (v : BitVec 13)
  deriving DecidableEq, Repr

end Sys2Proof
end

