-- ==== Sys2Proof/Config.lean ====
section
/-!
DEFINITION. What one device fixes and the spec leaves open. Every value the spec leaves open is an opaque constant
without a body: no proof can see it, so a claim holds whatever it is.
-/
namespace Sys2Proof

/-- A fresh free value, one for each draw; `State.free` counts the draws. -/
opaque Config.fresh : Nat → Nat

/-- The byte an SDRAM or Spool cell address holds after power-up, before it is written (R455, R478). -/
opaque Config.powerUpByte : Nat → BitVec 8

/-- How the stored bits of an unwritten SDRAM code word differ from an encoding: the data bits, the check bits
(R455). -/
opaque Config.powerUpData : Nat → BitVec 256
opaque Config.powerUpCheck : Nat → BitVec 64

/-- The silicon steps SYS_CAP_PART shows (01_architecture.md, Capability discovery). -/
opaque Config.siliconMajor : Part → BitVec 4
opaque Config.siliconMinor : Part → BitVec 4

/-- The bytes host memory returns through the outbound window, by address and by the read's number (R547). -/
opaque Config.hostByte : Nat → Nat → BitVec 8

/-- The sign and payload of the quiet NaN an operation with NaN operands returns (R274). -/
opaque Config.nanPayload : Nat → Nat → Nat → BitVec 32

/-- Whether tininess is detected after rounding (IEEE 754-2019 leaves it to the implementation; R274). -/
opaque Config.tinyAfterRounding : Bool

/-- The device's estimates of 1/a and 1/√a (VFRECE, VFRSQE). -/
opaque Config.recipEstimate : BitVec 32 → BitVec 32
opaque Config.rsqrtEstimate : BitVec 32 → BitVec 32

/-- A crew's clock cycles between two elapsed times, its frequency being the power policy's (CORE_CYCLE). -/
opaque Config.crewCycles : Nat → Nat → Nat → Nat

/-- The output bytes and the result word's open fields of a coprocessor command, from its 32 bytes and its input
(08_coprocessors.md: the arithmetic inside a transform, estimate, detection or weight computation is not given). -/
opaque Config.copByte : List (BitVec 8) → List (BitVec 8) → Nat → BitVec 8
opaque Config.copResult : List (BitVec 8) → List (BitVec 8) → BitVec 64

/-- The bytes and values a device-wide engine computes from its descriptor and its input: a decoder's and encoder's
output, the iterations a block takes and whether it passes (08_coprocessors.md refers to TS 38.212 for them). -/
opaque Config.engineByte : List (BitVec 8) → List (BitVec 8) → Nat → BitVec 8
opaque Config.engineValue : List (BitVec 8) → List (BitVec 8) → Nat → Nat

/-- The keystream and message authentication bytes of an algorithm under a key, for the fields of a packet entry
(R145, R313; the algorithms are those of other standards). -/
opaque Config.keystream : Nat → List (BitVec 8) → List (BitVec 8) → Nat → BitVec 8
opaque Config.macByte : Nat → List (BitVec 8) → List (BitVec 8) → List (BitVec 8) → Nat → BitVec 8

/-- The leap fields and zeros of the SM TLV (R434 names them; SMPTE ST 2059-2 lays them out). -/
opaque Config.leapFields : List (BitVec 8)

/-- The servo: the new frequency correction from SERVO_BW, the present one and the measured offset (R418, R426 give its
limit and its bandwidth, not its law). -/
opaque Config.servo : Nat → Int → Int → Int

/-- The device's own clock as the BMCA of another standard compares it: clockIdentity, clockAccuracy and
offsetScaledLogVariance. -/
opaque Config.clockIdentity : BitVec 64
opaque Config.clockAccuracy : BitVec 8
opaque Config.clockVariance : BitVec 16

/-- The Shuttle tasks and flows a carrier, chirp channel group or bridge group takes at START (R206), and its class-0
traffic entries as source, destination, rate and burst (R142, R205), from its object ID and body. -/
opaque Config.functionTasks : Nat → List (BitVec 8) → Nat
opaque Config.functionFlows : Nat → List (BitVec 8) → Nat
opaque Config.functionTraffic : Nat → List (BitVec 8) → List (Nat × Nat × Nat × Nat)

/-- The phase compensation of TS 38.211 clause 5.4 on one I or Q pair, by numerology, ARFCN, slot and symbol (R113). -/
opaque Config.phaseComp : Nat → Nat → Nat → Nat → Int × Int → Int × Int

/-- The rate in kb/s a carrier gives a handset at a CQI, a rank byte, a share of resource blocks in 1/1,000 and a BLER in
percent (R154: the achievable rate at a CQI and rank is that of TS 38.214). -/
opaque Config.linkRate : List (BitVec 8) → Nat → Nat → Nat → Nat → Nat

/-- The PDU session container of an uplink packet of a bearer (R146; TS 38.415, whose QFI the context does not give). -/
opaque Config.sessionContainer : List (BitVec 8) → List (BitVec 8)

/-- Ten times the logarithm of a mean power, in 0.1 dBFS (R336). -/
opaque Config.powerDb : Nat → BitVec 16

/-- A sample at 48 kHz from the converter (Processing, stage 1): the source rate code, the samples before the frame, the
frame, and the output instant in nanoseconds after the frame's first sample. The filter's coefficients are not given. -/
opaque Config.convert : Nat → List Int → List Int → Nat → Int

/-- The linear level of a threshold in 0.1 dBFS, and the gate's closed gain 10^(−RANGE/20) for RANGE in dB, in units of
2^−24 (R360; the number formats are not given). -/
opaque Config.dbLevel : Int → Nat
opaque Config.closedGain : Nat → BitVec 24

/-- Video coding, whose bitstreams and filters are those of other standards: whether an access unit decodes cleanly, its
picture from the one before, whether a byte of it lies in a damaged area (after a known loss or not), the payloads and
extension lengths an encoder makes of a picture, and the colour (as FILL gives it) the compositor's scaling filter gives a
pixel of a tile: from the source session's body, its picture and the tile. -/
opaque Config.decodesCleanly : Nat → List (BitVec 8) → Bool
opaque Config.decodePicture : Nat → List (BitVec 8) → List (BitVec 8) → List (BitVec 8)
opaque Config.encodePackets : List (BitVec 8) → List (BitVec 8) → Nat → Nat → List (List (BitVec 8) × Nat)
opaque Config.damagedByte : Nat → List (BitVec 8) → Bool → Nat → Bool
opaque Config.scaledPixel : List (BitVec 8) → List (BitVec 8) → List (BitVec 8) → Nat → Nat → BitVec 30

/-- The IP and UDP headers before a datagram: destination and source address, ports, DSCP and payload (their fields beyond
those are not given). -/
opaque Config.ipUdp : List (BitVec 8) → List (BitVec 8) → Nat → Nat → Nat → List (BitVec 8) → List (BitVec 8)

/-- SHA-512 of a byte string. -/
opaque Config.sha512 : List (BitVec 8) → List (BitVec 8)

/-- Signature verification (RFC 8032, FIPS 204): key, message, signature. -/
opaque Config.ed25519 : List (BitVec 8) → List (BitVec 8) → List (BitVec 8) → Bool
opaque Config.mldsa : List (BitVec 8) → List (BitVec 8) → List (BitVec 8) → Bool

/-- What manufacture put into the device: Yunaif's keys in ROM, the device serial and public keys, and the
signature block it makes of a report. -/
opaque Config.yunaifEd : List (BitVec 8)
opaque Config.yunaifMldsa : List (BitVec 8)
opaque Config.serial : BitVec 64
opaque Config.deviceEd : List (BitVec 8)
opaque Config.deviceMldsa : List (BitVec 8)
opaque Config.signReport : List (BitVec 8) → List (BitVec 8)

/-- What the authorities put into the certificates 0 to 3 as CERT_GET numbers them (R106): the serial number, the issuer's
names, the validity, the subject's other names, the extensions, the signature, and the authorities' own public keys. -/
opaque Config.certNumber : Nat → List (BitVec 8)
opaque Config.certIssuer : Nat → List (BitVec 8)
opaque Config.certValidity : Nat → List (BitVec 8)
opaque Config.certSubject : Nat → List (BitVec 8)
opaque Config.certExtensions : Nat → List (BitVec 8)
opaque Config.certSignature : Nat → List (BitVec 8)
opaque Config.authorityKey : Nat → List (BitVec 8)

/-- The 16 long-line tap enables of a block frame, whose places among its bytes 360 to 1,023 the spec does not give
(R585). -/
opaque Config.tapEnables : List (BitVec 8) → BitVec 16

/-- The level sensed on a pin that the device does
not drive, by pin and elapsed time. -/
opaque Config.pinLevel : Nat → Nat → Bool

/-- The fields that the spec does not give of the Weft header in a DATA frame on Bupex: nodes, TAG, selector and initiator, by the
service, by what names its target and by the frame's place in the message (R517, R555). -/
opaque Config.bupexHeader : String → List (BitVec 8) → Nat → BitVec 92

end Sys2Proof
end

