-- ==== Sys2Proof/Machine/Bits.lean ====
section
/-!
DEFINITION. Bit fields, byte order and the sparse tables. Every multi-byte field of the spec is little-endian
(00_scope.md, Conventions, Layouts), so byte order is decided once, in `leNat` and `leBytes`.
-/
namespace Sys2Proof.Machine
open Sys2Proof

/-- Bits `hi` down to `lo` of a number, as the spec writes `[hi:lo]`. -/
def bits (v hi lo : Nat) : Nat := v / 2 ^ lo % 2 ^ (hi - lo + 1)

/-- Bit `k` of a number. -/
def bit (v k : Nat) : Bool := v / 2 ^ k % 2 == 1

/-- A truth value as a field of one bit. -/
def b2n (b : Bool) : Nat := if b then 1 else 0

/-- `n` with bits `hi` to `lo` replaced by the low bits of `f`. -/
def setBits (n hi lo f : Nat) : Nat :=
  n - bits n hi lo * 2 ^ lo + (f % 2 ^ (hi - lo + 1)) * 2 ^ lo

/-- The little-endian value of a byte string. -/
def leNat : Bytes → Nat
  | [] => 0
  | b :: bs => b.toNat + 256 * leNat bs

/-- The `n` little-endian bytes of a value. -/
def leBytes : Nat → Nat → Bytes
  | 0, _ => []
  | n + 1, v => BitVec.ofNat 8 v :: leBytes n (v / 256)

/-- The big-endian value of a byte string (network byte order, R70 and the wire formats). -/
def beNat (bs : Bytes) : Nat := leNat bs.reverse

/-- The `n` big-endian bytes of a value. -/
def beBytes (n v : Nat) : Bytes := (leBytes n v).reverse

/-- The bytes of `bs` from `off`, `w` of them; bytes beyond the end read as zero. -/
def sub (bs : Bytes) (off w : Nat) : Bytes :=
  let t := (bs.drop off).take w
  t ++ List.replicate (w - t.length) 0

/-- The little-endian field of width `w` at byte `off` of a layout. -/
def fld (bs : Bytes) (off w : Nat) : Nat := leNat (sub bs off w)

/-- `bs` with the field of width `w` at `off` replaced. -/
def putFld (bs : Bytes) (off w v : Nat) : Bytes :=
  sub bs 0 off ++ leBytes w v ++ bs.drop (off + w)

/-- A number of `w` bits read as two's complement. -/
def toS (w v : Nat) : Int := if v % 2 ^ w < 2 ^ (w - 1) then (v % 2 ^ w : Nat) else (v % 2 ^ w : Nat) - (2 ^ w : Nat)

/-- An integer as `w` bits of two's complement. -/
def ofS (w : Nat) (v : Int) : Nat := (v % (2 ^ w : Nat)).toNat

/-- An integer limited to the range of `w`-bit two's complement. -/
def satS (w : Nat) (v : Int) : Int :=
  if v > (2 ^ (w - 1) : Nat) - 1 then (2 ^ (w - 1) : Nat) - 1
  else if v < -((2 ^ (w - 1) : Nat) : Int) then -((2 ^ (w - 1) : Nat) : Int) else v

/-- A count limited to `m`. -/
def satN (m v : Nat) : Nat := if v > m then m else v

/-- `n` rounded up to a multiple of `k`. -/
def roundUp (n k : Nat) : Nat := (n + k - 1) / k * k

/-- `n / k` rounded up. -/
def ceilDiv (n k : Nat) : Nat := (n + k - 1) / k

/-- `n` zero bytes. -/
def zeros (n : Nat) : Bytes := List.replicate n 0

/-- A byte string cut or zero-filled to `n` bytes. -/
def fit (n : Nat) (bs : Bytes) : Bytes := sub bs 0 n

/-- True when every byte is zero (the reserved fields of a layout). -/
def allZero (bs : Bytes) : Bool := bs.all (· == 0)

/-- Reserved bytes `off` to `off + w - 1` of a layout are zero. -/
def rsv (bs : Bytes) (off w : Nat) : Bool := fld bs off w == 0

/-- The largest element of a list of numbers, 0 for none. -/
def maxL (l : List Nat) : Nat := l.foldl max 0

/-- The sum of a list of numbers. -/
def sumL (l : List Nat) : Nat := l.foldl (· + ·) 0

/-- The entry numbered `k` of a sparse table. -/
def spFind {α : Type} (m : Sparse α) (k : Nat) : Option α :=
  match m with
  | [] => none
  | (j, v) :: r => if j = k then some v else spFind r k

/-- The entry numbered `k`, or the reset value `d` where the table lists none. -/
def spGet {α : Type} (d : α) (m : Sparse α) (k : Nat) : α := (spFind m k).getD d

/-- The table with entry `k` removed. -/
def spDel {α : Type} (m : Sparse α) (k : Nat) : Sparse α :=
  match m with
  | [] => []
  | (j, v) :: r => if j = k then spDel r k else (j, v) :: spDel r k

/-- The table with entry `k` put in its place by rising number. -/
def spPut {α : Type} (m : Sparse α) (k : Nat) (v : α) : Sparse α :=
  match m with
  | [] => [(k, v)]
  | (j, w) :: r =>
    if k < j then (k, v) :: (j, w) :: r
    else if k = j then (k, v) :: r
    else (j, w) :: spPut r k v

/-- The table with entry `k` set to `v`; an entry equal to the reset value is not listed. -/
def spSet {α : Type} [DecidableEq α] (d : α) (m : Sparse α) (k : Nat) (v : α) : Sparse α :=
  match m with
  | [] => if v = d then [] else [(k, v)]
  | e :: r => if v = d then spDel (e :: r) k else spPut (e :: r) k v

/-- The table with a change applied to entry `k`. -/
def spMod {α : Type} [DecidableEq α] (d : α) (m : Sparse α) (k : Nat) (f : α → α) : Sparse α :=
  spSet d m k (f (spGet d m k))

/-- Insertion of one element into a list ordered by a key. -/
def insBy {α : Type} (key : α → Nat) (x : α) : List α → List α
  | [] => [x]
  | y :: r => if key x < key y then x :: y :: r else y :: insBy key x r

/-- A list put in rising order of a key; elements of equal key keep their order. -/
def sortBy {α : Type} (key : α → Nat) (l : List α) : List α := l.foldl (fun acc x => insBy key x acc) []

/-- The bytewise CRC over `w` bits, no reflection: `poly` without its top bit, from `init` (02_commands.md, 09, 16). -/
def crcStep (w poly : Nat) : Nat → Nat → Nat
  | 0, r => r
  | k + 1, r =>
    crcStep w poly k (if bit r (w - 1) then Nat.xor (r * 2 % 2 ^ w) poly else r * 2 % 2 ^ w)

/-- A CRC of `w` bits over a byte string, most significant bit first. -/
def crcMsb (w poly init : Nat) (bs : Bytes) : Nat :=
  bs.foldl (fun r b => crcStep w poly 8 (Nat.xor r (b.toNat * 2 ^ (w - 8)))) init

/-- One reflected CRC step. -/
def crcStepLsb (poly : Nat) : Nat → Nat → Nat
  | 0, r => r
  | k + 1, r => crcStepLsb poly k (if r % 2 = 1 then Nat.xor (r / 2) poly else r / 2)

/-- A reflected CRC, least significant bit first; `poly` is the reflected polynomial. -/
def crcLsb (poly init : Nat) (bs : Bytes) : Nat :=
  bs.foldl (fun r b => crcStepLsb poly 8 (Nat.xor r b.toNat)) init

/-- CRC-32 (IEEE 802.3). -/
def crc32 (bs : Bytes) : Nat := Nat.xor (crcLsb 0xEDB88320 0xFFFFFFFF bs) 0xFFFFFFFF

end Sys2Proof.Machine
end

