-- ==== Sys2Proof/Machine/Regs.lean ====
section
/-!
DEFINITION. The unit register space (01_architecture.md, Address map and Unit identifiers): unit numbers, register
keys, and one row for every register that holds what was written to it or recorded in it, with its reset value and the
access of its bits. Registers whose value the state gives by other means (a FIFO's count, a selected counter) have no
row here; `Sys2Proof.Machine.regRead` computes them.
-/
namespace Sys2Proof.Machine
open Sys2Proof

/-- Unit identifiers (01_architecture.md, Unit identifiers). -/
abbrev uSYS : Nat := 0x01
abbrev uSEC : Nat := 0x02
abbrev uCOX : Nat := 0x03
abbrev uWEFT : Nat := 0x04
abbrev uSPOOL : Nat := 0x05
abbrev uSHUTTLE : Nat := 0x06
abbrev uDMA : Nat := 0x07
abbrev uMEM : Nat := 0x08
abbrev uCREW : Nat := 0x10
abbrev uFEC : Nat := 0x20
abbrev uCIPHER : Nat := 0x21
abbrev uFRONTHAUL : Nat := 0x22
abbrev uCSS : Nat := 0x23
abbrev uAUDIO : Nat := 0x24
abbrev uVIDEO : Nat := 0x25
abbrev uFWD : Nat := 0x26
abbrev uCOMPOSE : Nat := 0x27
abbrev uLANE : Nat := 0x28
abbrev uETH : Nat := 0x29
abbrev uBUPEX : Nat := 0x2A
abbrev uPCIE : Nat := 0x2B
abbrev uFABRIC : Nat := 0x30
abbrev uPOWER : Nat := 0x31
abbrev uHSP : Nat := 0x32

/-- The number of instances the unit table lists; 0 for a number it does not list (R20). -/
def unitInstances (u : Nat) : Nat :=
  if u = uSYS ∨ u = uSEC ∨ u = uCOX ∨ u = uSPOOL ∨ u = uSHUTTLE ∨ u = uFRONTHAUL ∨ u = uAUDIO ∨ u = uFWD ∨
      u = uCOMPOSE ∨ u = uPCIE ∨ u = uFABRIC ∨ u = uPOWER then 1
  else if u = uWEFT then 64
  else if u = uDMA ∨ u = uCIPHER then 4
  else if u = uMEM ∨ u = uVIDEO then 8
  else if 0x10 ≤ u ∧ u ≤ 0x1B then 9
  else if u = uFEC then 40
  else if u = uCSS then 256
  else if u = uLANE then 48
  else if u = uETH then 49
  else if u = uBUPEX then 6
  else if u = uHSP then 2
  else 0

/-- A register's key: its address less 0x0180_0000_0000. -/
def regKey (unit inst off : Nat) : Nat := unit * 0x1000000 + inst * 0x10000 + off

/-- The access of a group of registers at `base + stride × k`, for `k` below `count`. -/
structure RegRow where
  base : Nat
  stride : Nat := 4
  count : Nat := 1
  reset : Nat := 0
  /-- bits a write replaces -/
  rw : Nat := 0
  /-- bits a written 1 clears -/
  w1c : Nat := 0
  /-- bits a written 1 sets -/
  w1s : Nat := 0
  /-- bits a read clears -/
  rc : Nat := 0
  deriving DecidableEq, Repr

/-- All 32 bits. -/
abbrev allBits : Nat := 0xFFFFFFFF

/-- The rows of one unit's registers, from the register tables of its chapter. -/
def regRows (u inst : Nat) : List RegRow :=
  if u = uSYS then
    [ { base := 0x00C }, { base := 0x020 },
      { base := 0x104, w1c := 0x80000000 },
      { base := 0x10C, rw := 0x8000000F },
      { base := 0x110, reset := 0x4, rw := 0x6, w1s := 0x80000000 },
      { base := 0x114, reset := 0x0FFE, rw := 0x0FFE },
      { base := 0x118, reset := 0x0EFE, rw := 0x0FFE },
      { base := 0x11C, reset := 0x0EFE, rw := 0x0FFE },
      { base := 0x120, rc := allBits },
      { base := 0x200, reset := 0xD1FF0000, rw := allBits },
      { base := 0x204, count := 15, reset := 0x11FF0000, rw := allBits },
      { base := 0x240, rc := 0xFFFF0000 },
      { base := 0x300, count := 4, reset := 0x013B0032, rw := 0x81FF007F } ]
  else if u = uSEC then [ { base := 0x000 }, { base := 0x004 } ]
  else if u = uCOX then
    [ { base := 0x100, stride := 0x20, count := 4 }, { base := 0x104, stride := 0x20, count := 4 },
      { base := 0x108, stride := 0x20, count := 4 }, { base := 0x10C, stride := 0x20, count := 4 },
      { base := 0x110, stride := 0x20, count := 4 }, { base := 0x114, stride := 0x20, count := 4 },
      { base := 0x204, stride := 0x10, count := 4 }, { base := 0x208, stride := 0x10, count := 4 },
      { base := 0x20C, stride := 0x10, count := 4, rc := 0xFFFF },
      { base := 0x400, count := 96, rw := allBits } ]
  else if u = uWEFT then
    [ { base := 0x004, reset := 0x1000, rw := 0xFF00 },
      { base := 0x010, rw := 0x3F }, { base := 0x014, w1c := 0x80000000 },
      { base := 0x040, rw := 0xF }, { base := 0x080 }, { base := 0x084, rw := 0x3F } ]
  else if u = uSPOOL then
    [ { base := 0x008, rw := 0xFFF00000 }, { base := 0x00C, rw := 0xFFFF }, { base := 0x010, rw := 0x0FFFFFFF },
      { base := 0x014, rc := allBits }, { base := 0x080, rw := 0xFFFF }, { base := 0x0A0, rw := 0x3FF } ]
  else if u = uSHUTTLE then
    [ { base := 0x000, reset := 0xC, rw := 0xC },
      { base := 0x008, rw := 0xFFC00000 }, { base := 0x00C, rw := 0xFFFF },
      { base := 0x010, reset := 0x07D001F4, rw := allBits },
      { base := 0x014, reset := 0x10000064, rw := 0xFF00FFFF },
      { base := 0x030, rw := 0xFFFF }, { base := 0x040, rw := 0xFFF }, { base := 0x070, rw := 0xF0F } ]
  else if u = uDMA then [ { base := 0x004, rc := allBits }, { base := 0x008, rc := allBits } ]
  else if u = uMEM then
    [ { base := 0x000 }, { base := 0x004, rc := allBits }, { base := 0x008, rc := allBits },
      { base := 0x010, reset := 0x40000000, rw := 0xFF00003F },
      { base := 0x018 }, { base := 0x01C, w1c := 0x80000000 }, { base := 0x020 }, { base := 0x024, w1c := 0x80000000 },
      { base := 0x028, rw := 0xFFFFFF80 }, { base := 0x02C, rw := 0xFFFF, w1c := 0x40000000 },
      { base := 0x040, count := 10, rw := allBits },
      { base := 0x068, rw := 0xFFFFFFE0 }, { base := 0x06C, rw := 0xFFFF },
      { base := 0x070, rw := 0xFFFF, w1s := 0x80000000 } ] ++
    (if inst = 0 then [ { base := 0x00C, rc := allBits }, { base := 0x080, rw := 0x1FF } ] else [])
  else if 0x10 ≤ u ∧ u ≤ 0x1B then
    if inst = 8 then
      [ { base := 0x008 }, { base := 0x00C, rw := 0xFFFFFFFC }, { base := 0x010, rw := 0xFFFF },
        { base := 0x018, rc := 0xFFFF }, { base := 0x01C, rc := allBits }, { base := 0x020, rc := allBits },
        { base := 0x024 }, { base := 0x100, count := 32, reset := 0xFF, rc := 0xFF0000 },
        { base := 0x200, count := 8, rw := allBits }, { base := 0x240, count := 8, rw := allBits },
        { base := 0x280, count := 8, rw := allBits }, { base := 0x2C0, count := 8, rw := allBits },
        { base := 0x220, stride := 0x40, count := 4, rw := 0xFFFF },
        { base := 0x224, stride := 0x40, count := 4, rw := 0x7FFFE0 },
        { base := 0x228, stride := 0x40, count := 4, rw := 0xFFFF, w1s := 0x80000000 } ]
    else []
  else if u = uFEC ∨ u = uCIPHER then
    [ { base := 0x004, rw := 0x1 }, { base := 0x008, rc := allBits }, { base := 0x00C, rc := allBits } ]
  else if u = uFRONTHAUL then [ { base := 0x008, rw := 0x2 }, { base := 0x010, rw := 0x3F0F } ]
  else if u = uCSS then
    [ { base := 0x004, reset := 0x80000000 }, { base := 0x010, rw := 0xF }, { base := 0x018, rw := 0x2 } ] ++
    (if inst < 64 then [ { base := 0x8004, rc := allBits } ] else [])
  else if u = uAUDIO then
    [ { base := 0x004, rw := 0x8000FFFF }, { base := 0x008, rc := allBits }, { base := 0x00C, rw := 0x2 },
      { base := 0x010, rw := 0x0FFF000F } ]
  else if u = uVIDEO then [ { base := 0x004, rc := allBits } ]
  else if u = uFWD then
    [ { base := 0x000, rw := 0xFFFF }, { base := 0x004, count := 2, rw := 0x8000FFFF }, { base := 0x010, rw := 0x2 },
      { base := 0x014, rw := 0x0FFF000F } ]
  else if u = uCOMPOSE then [ { base := 0x004, rc := allBits } ]
  else if u = uLANE then
    [ { base := 0x000, reset := 0x04000000 }, { base := 0x004, rw := 0xFC00000F },
      { base := 0x008, w1c := 0x40000000 }, { base := 0x010 }, { base := 0x018 }, { base := 0x020, rw := 0x1F } ]
  else if u = uETH then
    [ { base := 0x000, reset := 0x5EE, rw := 0xBC0F3FFF, w1c := 0x40000000 }, { base := 0x004 },
      { base := 0x008, rw := 0x7 } ]
  else if u = uBUPEX then
    [ { base := 0x000, reset := 0x0FFF0000 }, { base := 0x004, rw := 0xF } ]
  else if u = uPCIE then
    [ { base := 0x000 }, { base := 0x004, rw := 0xFFFFF000 }, { base := 0x008, rw := allBits }, { base := 0x00C, rw := 1 },
      { base := 0x010, rw := 0xC0000000 }, { base := 0x014, rw := 0xFFFF } ]
  else if u = uFABRIC then
    [ { base := 0x004, rw := 0x7F }, { base := 0x010, count := 6 }, { base := 0x030, rc := allBits },
      { base := 0x040, count := 4, reset := 0x28, rw := 0x8000003F },
      { base := 0x050, reset := 0x3E8, rw := 0xBFFFFFFF },
      { base := 0x1000, count := 128, reset := 0x4000, rw := 0x3FC00C },
      { base := 0x2000, stride := 0x20, count := 12, reset := 0x364, rw := 0xFEFFFFFF },
      { base := 0x2004, stride := 0x20, count := 12, w1c := 0x38000000 } ]
  else if u = uPOWER then
    [ { base := 0x000, w1c := 0x40000000 },
      { base := 0x108, stride := 0x10, count := 38, rc := allBits }, { base := 0x10C, stride := 0x10, count := 38 },
      { base := 0x400, count := 8, w1c := 0xE0000000 },
      { base := 0x500, count := 16 }, { base := 0x540, reset := 0x1000, rc := 0x1FFF } ]
  else if u = uHSP then
    [ { base := 0x000 }, { base := 0x004, reset := 0x13, rw := 0xF3 }, { base := 0x008, reset := 0x32051400, rw := 0xFFFFFF00 },
      { base := 0x00C, w1c := 0xF } ]
  else []

/-- The row that describes the register at an offset. -/
def regRow (u inst off : Nat) : Option RegRow :=
  (regRows u inst).find? fun r =>
    r.base ≤ off && (off - r.base) % r.stride == 0 && (off - r.base) / r.stride < r.count

/-- A register's reset value by its key. -/
def regReset (k : Nat) : W32 :=
  match regRow (k / 0x1000000) (k / 0x10000 % 256) (k % 0x10000) with
  | some r => BitVec.ofNat 32 r.reset
  | none => 0

/-- What a write of `v` leaves in a register that holds `old` (Conventions, Register tables). -/
def regMerge (r : RegRow) (old v : W32) : W32 :=
  let rw := BitVec.ofNat 32 r.rw
  let kept := (old &&& ~~~rw) ||| (v &&& rw)
  (kept &&& ~~~(v &&& BitVec.ofNat 32 r.w1c)) ||| (v &&& BitVec.ofNat 32 r.w1s)

/-- What a read leaves in a register that holds `old`. -/
def regAfterRead (r : RegRow) (old : W32) : W32 := old &&& ~~~(BitVec.ofNat 32 r.rc)

/-- The key of a counter: its unit, the item a selector names, and its index. -/
def cntKey (unit item idx : Nat) : Nat := unit * 0x100000000 + item * 16 + idx

end Sys2Proof.Machine
end

