-- ==== Sys2Proof/Machine/Units/Base.lean ====
section
/-!
DEFINITION. The plain data shared by every unit of the state: error patterns, events, outputs.
-/
namespace Sys2Proof.Machine
open Sys2Proof

/-- What is wrong with one stored 256-bit code word: the bits stored other than as encoded, and the XOR applied to
the address the check bits were computed for (R456 to R461, R472). All zero: the word is good. -/
structure ErrPat where
  data : BitVec 256 := 0
  check : BitVec 64 := 0
  axor : BitVec 16 := 0
  deriving DecidableEq, Repr

/-- An event to be delivered (R632): its code, the raising unit and instance, its severity and its DATA bytes. -/
structure Event where
  code : Nat
  unit : Nat
  inst : Nat
  sev : Nat
  data : List (BitVec 8) := []
  deriving DecidableEq, Repr

/-- What the device sends out, oldest first; kept as the model's own record of its outputs. -/
inductive Out where
  /-- an MSI-X message (R39, R484, R501, R637) -/
  | msix (vector : Nat)
  /-- a reply sent on the management port (to `dest`) or the UART console (R35) -/
  | reply (transport : Transport) (dest : Nat) (packet : List (BitVec 8))
  /-- bytes written to host memory through the outbound window -/
  | hostWrite (addr : Nat) (data : List (BitVec 8))
  /-- a frame, message or datagram sent on an Ethernet port -/
  | eth (port : Nat) (kind : String) (data : List (BitVec 8))
  /-- a frame sent on a Bupex link -/
  | bupex (link : Nat) (kind : String) (data : List (BitVec 8))
  /-- a boot-transfer frame sent on a lane (R575, R576) -/
  | boot (lane : Nat) (kind : String) (data : List (BitVec 8))
  /-- a strobe, edge or pulse placed at a short-form time -/
  | edge (name : String) (index : Nat) (time : Int)
  /-- a PCI Express completion: status 0 data, 1 Completer Abort, 2 Unsupported Request (R641) -/
  | completion (status : Nat) (data : List (BitVec 8))
  /-- samples presented at a headset jack from a short-form time on, both ears alike -/
  | hsp (port : Nat) (time : Int) (samples : List Int)
  /-- a byte shifted out of a serial port -/
  | serial (port : Nat) (data : Nat)
  /-- a transport block's contents of a carrier's slot, handed to encoding (R147, R148) -/
  | mac (carrier slot : Nat) (data : List (BitVec 8))
  /-- the SFN of a carrier's frame that begins (R127) -/
  | sfn (carrier value : Nat)
  /-- a read on the BOOT_SPI pins: command, 4-byte address, dummy cycles, bytes (R79) -/
  | flash (command addr dummy bytes : Nat)
  /-- a message carried on Weft to another node (R517) -/
  | weft (node : Nat) (kind : String) (data : List (BitVec 8))
  deriving DecidableEq, Repr

end Sys2Proof.Machine
end

