-- ==== Sys2Proof/Machine/Units/Audio.lean ====
section
/-!
DEFINITION. The state of the audio bridge and of the headset ports (10_audio_bridge.md).
-/
namespace Sys2Proof.Machine
open Sys2Proof

/-- A leg's parameters with their defaults (R366). -/
structure LegParams where
  inGain : Nat := 0x10000
  outGain : Nat := 0x10000
  muteIn : Bool := false
  muteOut : Bool := false
  /-- gate thresholds in 0.1 dBFS, RANGE in dB, HOLD in ms -/
  gateOpen : Int := 0
  gateClose : Int := 0
  gateRange : Nat := 0
  gateHold : Nat := 0
  /-- b0, b1, b2, a1, a2 of each section -/
  eq : List (List Int) := List.replicate 4 [268435456, 0, 0, 0, 0]
  outDelay : Nat := 0
  limit : Nat := 8388607
  release : Nat := 100
  contribute : Bool := false
  receive : Bool := false
  /-- valid listen entries: group and gain -/
  listens : List (Nat × Nat) := []
  /-- µs -/
  playout : Nat := 0
  deriving DecidableEq, Repr

/-- One output sample on its way: its index, its value before the limiter or its contribution, and the parameters in
force at it. -/
structure MixSample where
  n : Nat
  v : Int
  p : LegParams
  deriving DecidableEq, Repr

/-- A leg (R351 to R376). -/
structure Leg where
  group : Nat
  /-- 0 FRAMES or OUT_Q, 1 HSP_0, 2 HSP_1, 3 NONE -/
  source : Nat
  sink : Nat
  /-- samples in an output frame -/
  frame : Nat
  p : LegParams := {}
  /-- first block computed for it, and the block at which it is removed -/
  start : Nat
  stopAt : Option Nat := none
  /-- jitter buffer by 48 kHz sample index of the mix time -/
  buf : Sparse Int := []
  /-- source samples the converter continues from, newest last, their rate code and the time of their end -/
  src : List Int := []
  rate : Nat := 5
  srcEnd : Option Nat := none
  /-- the first frame has been received -/
  heard : Bool := false
  /-- gate: the last 48 magnitudes, whether it is open, samples below CLOSE, and the ramp's position (0 gain 1) -/
  window : List Nat := []
  gateIsOpen : Bool := true
  below : Nat := 0
  ramp : Nat := 0
  /-- x1, x2, y1, y2 of each EQ section -/
  eqs : List (List Int) := List.replicate 4 [0, 0, 0, 0]
  /-- contributions of a spanning group's block that wait for sub-sums (R371) -/
  held : List MixSample := []
  /-- values waiting for the limiter's look-ahead, and its last gain (R365) -/
  line : List MixSample := []
  g : Nat := 8388608
  /-- output frame under assembly: its samples and its first sample's index and delay -/
  acc : List Int := []
  accAt : Nat := 0
  accDelay : Nat := 0
  limiting : Bool := false
  deriving DecidableEq, Repr

/-- A bridge group's run-time state. -/
structure AudioGroup where
  /-- short-form time of admission -/
  admitted : Nat := 0
  /-- full sums of the blocks formed last, newest first -/
  sums : List (Nat × List Int) := []
  /-- local sums of the block that waits for sub-sums -/
  local_ : Option (Nat × List Int) := none
  /-- sub-sums received: device, block, samples -/
  subs : List (Nat × Nat × List Int) := []
  deriving DecidableEq, Repr

/-- A pending parameter descriptor: its APPLY time and its bytes (R367). -/
structure ParamPend where
  time : Nat
  leg : Nat
  data : List (BitVec 8)
  /-- elapsed time of its arrival, and whether a command brought it (R369) -/
  came : Nat := 0
  cmd : Bool := false
  deriving DecidableEq, Repr

/-- The AUDIO engine. -/
structure Audio where
  legs : Sparse Leg := []
  groups : Sparse AudioGroup := []
  pend : List ParamPend := []
  /-- last block computed -/
  last : Option Nat := none
  /-- devices out of reach, each with the block from which its sub-sums count again (R372) -/
  cut : List (Nat × Option Nat) := []
  deriving DecidableEq, Repr

/-- A headset port beyond its registers: the elapsed times of the debounced insertion and of the present microphone
reading (0 none, else button + 1). -/
structure Hsp where
  inserted : Option Nat := none
  reading : Nat := 0
  since : Nat := 0
  deriving DecidableEq, Repr

end Sys2Proof.Machine
end

