-- ==== Sys2Proof/Machine/Units/Crew.lean ====
section
/-!
DEFINITION. The state of one crew core: scalar, vector and coprocessor-tag registers, CSRs and data cache
(06_crew_cores.md, 07_vector.md, 08_coprocessors.md).
-/
namespace Sys2Proof.Machine
open Sys2Proof

/-- What a core is doing (CORE_DBG_STATE; HANDLER is `run` with EXC_ACTIVE). -/
inductive CoreRun where
  | reset | taskWait | run | wfi | drain | held
  deriving DecidableEq, Repr

/-- A data-cache line (Caches and ordering): 64 bytes from `addr`. -/
structure Line where
  addr : Nat
  data : List (BitVec 8)
  dirty : Bool := false
  /-- the stored line holds an uncorrectable error (R240, R241) -/
  bad : Bool := false
  /-- the stored line holds a correctable error (R240) -/
  ce : Bool := false
  deriving DecidableEq, Repr

/-- A coprocessor tag (R288). -/
inductive TagSt where
  | free | live | done
  deriving DecidableEq, Repr

/-- A tag's state, result and status (R299). -/
structure Tag where
  st : TagSt := .free
  result : BitVec 64 := 0
  status : Nat := 0
  /-- which command of the core holds the tag -/
  gen : Nat := 0
  deriving DecidableEq, Repr

/-- A coprocessor command waiting in a queue, or a hand-over (R288, R294, R303). -/
structure CopCmd where
  core : Nat
  tag : Nat
  gen : Nat
  data : List (BitVec 8)
  /-- the tag and command its AFTER wait names -/
  after : Option (Nat × Nat) := none
  /-- the awaited tag ended with an error while this command waited for it (R294) -/
  depFailed : Bool := false
  deriving DecidableEq, Repr

/-- One core. Every field holds its reset value. -/
structure Core where
  run : CoreRun := .reset
  /-- s0 to s31; s0 is never written -/
  s : Vector (BitVec 64) 32 := Vector.replicate 32 0
  /-- a0 to a3 -/
  a : Vector (BitVec 56) 4 := Vector.replicate 4 0
  pc : BitVec 48 := 0
  /-- CORE_STATUS.TASK -/
  task : Bool := false
  sat : Bool := false
  aov : Bool := false
  /-- CORE_STATUS.EXC_ACTIVE -/
  exc : Bool := false
  pie : Bool := false
  ie : Bool := false
  evec : BitVec 64 := 0
  epc : BitVec 64 := 0
  ecause : BitVec 64 := 0
  eaddr : BitVec 64 := 0
  escratch : BitVec 64 := 0
  irqEn : BitVec 64 := 0
  /-- CORE_IRQ_PEND bits 4, 3 and 1; TIMER and COP_LATE_ERROR follow from other state -/
  dataLost : Bool := false
  doorbell : Bool := false
  storeError : Bool := false
  irqAddr : BitVec 64 := 0
  /-- elapsed time at which the core left reset, from which CORE_CYCLE counts -/
  since : Nat := 0
  timerCmp : BitVec 64 := 0xFFFFFFFFFFFFFFFF
  spmCached : BitVec 64 := 0
  ucBase : BitVec 64 := 0
  ucLimit : BitVec 64 := 0
  /-- address of the last retired instruction (CORE_DBG_PC) -/
  lastPc : BitVec 48 := 0
  dcache : List Line := []
  v : Vector (BitVec 512) 32 := Vector.replicate 32 0
  m : Vector (BitVec 512) 8 := Vector.replicate 8 0
  vshape : BitVec 64 := 0
  vcount : BitVec 64 := 0
  vfxm : BitVec 64 := 0
  vstat : BitVec 64 := 0
  eri : BitVec 64 := 0
  tags : Sparse Tag := []
  cpLate : BitVec 32 := 0
  /-- commands issued since the core left reset, and its hand-overs not yet sent -/
  cpGen : Nat := 0
  hand : List CopCmd := []
  /-- line write-backs that have begun and wait for a bank's new owner or a memory asleep, oldest first (R239, R246) -/
  writes : List (Nat × List (BitVec 8)) := []
  /-- the bank, 32 × crew + bank, whose ownership write has not returned its response (R245) -/
  regWait : Option Nat := none
  deriving DecidableEq, Repr

end Sys2Proof.Machine
end

