-- ==== Sys2Proof/Machine/Units/Power.lean ====
section
/-!
DEFINITION. The state of the power controller (18_power.md) and of the active fault injections (19_faults.md).
-/
namespace Sys2Proof.Machine
open Sys2Proof

/-- A domain's state (R604), shallowest first. -/
inductive PState where
  | run | doze | hold | off
  deriving DecidableEq, Repr

/-- A transition in progress. -/
inductive Trans where
  /-- entry into a state, with the steps of R609 done so far (DOZE entry has one) -/
  | entry (dest : PState) (steps : Nat)
  /-- a wake, with the ready signals of R614 asserted so far and the elapsed time the last began -/
  | wake (src : PState) (ready : Nat) (since : Nat)
  deriving DecidableEq, Repr

/-- What HOLD entry keeps of one scratchpad bank (R616, R617). -/
structure Retained where
  bank : Nat
  saved : List (BitVec 8)
  /-- the error pattern the saved word had -/
  err : ErrPat := {}
  sentinel : List (BitVec 8)
  crc : Option Nat := none
  deriving DecidableEq, Repr

/-- A power domain. -/
structure Domain where
  st : PState := .run
  trans : Option Trans := none
  pend : Option PState := none
  /-- a wake begins as soon as the entry past its point of no return has completed (R612) -/
  wakeNext : Bool := false
  fault : Bool := false
  /-- held in DOZE by PFAIL (R623) -/
  shed : Bool := false
  /-- elapsed time at which the domain last became idle -/
  idleSince : Option Nat := none
  retained : List Retained := []
  deriving DecidableEq, Repr

/-- A rail monitor's consecutive samples beyond each threshold (R621). -/
structure RailCount where
  uvWarn : Nat := 0
  uvFault : Nat := 0
  ovFault : Nat := 0
  /-- elapsed time since which the rail has stayed above UV_WARN -/
  goodSince : Option Nat := none
  deriving DecidableEq, Repr

/-- An active fault injection (R645). -/
structure Injection where
  kind : Nat
  target : Nat
  sub : Nat
  /-- elapsed time at which it ends; none until FAULT_CLEAR -/
  until_ : Option Nat
  deriving DecidableEq, Repr

/-- How a request for a domain's state has ended, for the POWER_SET that made it: the state asked for, the status and the
refuser (R620, R630). -/
structure PowerEnd where
  dom : Nat
  target : PState
  status : Nat
  unit : Nat := 0
  inst : Nat := 0
  deriving DecidableEq, Repr

/-- The power controller. -/
structure Power where
  domains : Sparse Domain := []
  rails : Sparse RailCount := []
  /-- level of PFAIL_N -/
  pfailPin : Bool := true
  /-- elapsed time at which PFAIL was set -/
  pfailAt : Option Nat := none
  /-- each crew's CREW_BOOT_VEC as last written, kept in always-on storage (R605) -/
  bootVec : Sparse Nat := []
  /-- THERMTRIP_N driven low (R664) -/
  thermtrip : Bool := false
  injections : List Injection := []
  ended : List PowerEnd := []
  /-- PLLs whose down-spread is in effect, as a mask (R662) -/
  ssc : Nat := 0
  deriving DecidableEq, Repr

end Sys2Proof.Machine
end

