-- ==== Sys2Proof/Machine/Units/Radio.lean ====
section
/-!
DEFINITION. The run-time state of carriers and handsets (04_baseband.md) and of the chirp channels (09_chirp_radio.md).
-/
namespace Sys2Proof.Machine
open Sys2Proof

/-- An uplink symbol of one antenna (R133 to R137): it stays listed until its receive window closes and its packet has left
Spool. -/
structure UlSymbol where
  slot : Nat
  sym : Nat
  ant : Nat
  handle : Nat
  /-- resource blocks received -/
  got : List Nat := []
  complete : Bool := false
  /-- the short-form time of its completion, which releases its ingest (R142) -/
  doneAt : Nat := 0
  /-- the packet's MISSING flag -/
  missing : Bool := false
  deriving DecidableEq, Repr

/-- A broadcast item of the host (R147, R148). -/
structure Broadcast where
  kind : Nat
  num : Nat
  cell : Nat
  apply : Nat
  data : List (BitVec 8)
  inForce : Bool := false
  deriving DecidableEq, Repr

/-- The stages of the slot pipeline (R142). -/
inductive Stage where
  | scheduling | encoding | modulation (k : Nat) | cplane | ingest (k : Nat) | estimation | detection | ldpc | uci | macUplink
  deriving DecidableEq, Repr

/-- A stage that a carrier has still to do: its slot, its release where one is known, its deadline (short-form ns). -/
structure StageRun where
  stage : Stage
  slot : Nat
  release : Option Int := none
  deadline : Int
  deriving DecidableEq, Repr

/-- What the air interface has carried in a statistics period (R155, R156): transport blocks and failed ones, bits, the sum
of squared errors relative to the constellation in units of 10^-8 with its resource elements. -/
structure AirStats where
  dlTb : Nat := 0
  dlErr : Nat := 0
  ulTb : Nat := 0
  ulErr : Nat := 0
  dlBits : Nat := 0
  ulBits : Nat := 0
  evmSum : Nat := 0
  evmCount : Nat := 0
  deriving DecidableEq, Repr

/-- A HARQ process (R142 to R144): of an uplink transport block, with its slot, or of a downlink one, with the slot of its
feedback. -/
structure HarqProc where
  up : Bool
  proc : Nat
  slot : Nat
  bits : Nat := 0
  /-- a miss has made it failed (uplink) or DTX (downlink), or it was decoded as such -/
  failed : Bool := false
  deriving DecidableEq, Repr

/-- A carrier's run-time state (R129 to R156). -/
structure CarrierRun where
  /-- short-form time of its admission -/
  admitted : Nat := 0
  /-- the first slot it serves, at its first frame boundary (R129) -/
  first : Nat := 0
  /-- the last slot whose MAC scheduling has been released -/
  released : Option Nat := none
  symbols : List UlSymbol := []
  /-- symbols dropped for want of cells whose receive window is still open: (14 × slot + symbol) × 256 + antenna (R137) -/
  dropped : List Nat := []
  /-- downlink symbols (14 × slot + symbol) and C-plane slots counted late -/
  lateSymbols : List Nat := []
  lateSlots : List Nat := []
  items : List Broadcast := []
  /-- the first slot of the present statistics period, and the last slot looked at -/
  period : Nat := 0
  statsSlot : Nat := 0
  /-- DL_LATE, uplink losses and HARQ misses of the period -/
  dlLate : Nat := 0
  ulLost : Nat := 0
  harqMiss : Nat := 0
  /-- what the period's slots carried; resource blocks used in each direction -/
  air : AirStats := {}
  dlPrb : Nat := 0
  ulPrb : Nat := 0
  /-- UL_SINR and UL_NI as last measured -/
  sinr : BitVec 16 := 0
  ni : BitVec 16 := 0
  /-- uplink symbols (14 × slot + symbol) completed with MISSING set, which EVM excludes (R156) -/
  missing : List Nat := []
  /-- stages of released slots still to be done (R142) -/
  stages : List StageRun := []
  deriving DecidableEq, Repr

/-- A bearer's PDCP and RLC state: its DRB, its two COUNT values and the RLC sequence numbers of each direction (R152). -/
structure Bearer where
  drb : Nat
  ulCount : Nat := 0
  dlCount : Nat := 0
  rlcTx : Nat := 0
  rlcRx : Nat := 0
  deriving DecidableEq, Repr

/-- A handset context (R149 to R154). -/
structure Handset where
  /-- the context as HANDSET_ADD or HANDSET_MODIFY gave it, without its keys -/
  ctx : List (BitVec 8)
  bearers : List Bearer := []
  /-- the first slot that serves it (R151), and from which it is no longer served once removed (R153) -/
  first : Nat := 0
  removed : Option Nat := none
  /-- a replacement and the first slot it applies to (R152) -/
  next : Option (List (BitVec 8) × Nat) := none
  /-- downlink packets queued: the DRB, or 256 + LCID of an SRB PDU, and the bytes -/
  queue : List (Nat × List (BitVec 8)) := []
  /-- last published RATE_EXPECTED and flags, and the slot of that record (R154) -/
  published : Option (Nat × Nat × Nat) := none
  /-- reported CQIs of the last 16 slots with their slots, oldest first (R154) -/
  cqis : List (Nat × Nat) := []
  /-- the scheduler's expectation: share of resource blocks in 1/1,000, BLER in percent -/
  share : Nat := 0
  bler : Nat := 0
  /-- expected uplink transmissions in a row that were DTX (LINK_SUSPECT, R154) -/
  dtx : Nat := 0
  drx : Bool := false
  harq : List HarqProc := []
  /-- what it carried in its statistics period, and the link's last figures (R155) -/
  air : AirStats := {}
  link : LinkFigure := {}
  deriving DecidableEq, Repr

/-- A demodulator's reception (R328 to R334). -/
structure Reception where
  so : Nat
  /-- timing of the detection in ns and its bin -/
  at_ : Nat
  bin : Nat
  /-- noise floor at the detection -/
  floor : Nat
  /-- the header once confirmed, with its time at the antenna and whether its tag was registered -/
  header : Option (List (BitVec 8)) := none
  time : Nat := 0
  registered : Bool := false
  /-- the tag's entry stands since the lookup (R339) -/
  entry : Bool := false
  corrections : Nat := 0
  deriving DecidableEq, Repr

/-- A chirp channel. -/
structure ChirpCh where
  /-- receptions by demodulator -/
  demods : Sparse Reception := []
  /-- powers of the last 64 noise periods, newest last (R336) -/
  noise : List Nat := []
  /-- elapsed time at which FLOOR last changed -/
  floorAt : Nat := 0
  /-- elapsed times at which a reception or detection last was, and at which the last noise period ended (R336) -/
  busyAt : Nat := 0
  noiseAt : Nat := 0
  deriving DecidableEq, Repr

/-- A booked transmit modulator (R341). -/
structure ChirpMod where
  group : Nat
  channel : Nat
  launch : Nat
  stop : Nat
  cookie : Nat
  symbols : List Nat
  so : Nat
  atten : Nat
  started : Bool := false
  deriving DecidableEq, Repr

/-- A chirp channel group's run-time state. -/
structure ChirpGroup where
  /-- antenna time of the last sample up to which every message has been received or replaced (R335) -/
  seen : Option Nat := none
  /-- messages received beyond it, by the antenna time of their last samples -/
  got : List Nat := []
  /-- short-form time until which the band is blanked (R334) -/
  blankUntil : Nat := 0
  deriving DecidableEq, Repr

end Sys2Proof.Machine
end

