-- ==== Sys2Proof/Machine/Units/Sec.lean ====
section
/-!
DEFINITION. The state of boot and the security island (03_boot_identity.md), and of the Jortanu fabric
(17_jortanu_fabric.md).
-/
namespace Sys2Proof.Machine
open Sys2Proof

/-- Why the device is held in reset. -/
inductive Held where
  /-- not held: it boots or runs -/
  | no
  /-- RESET_N is low -/
  | resetN
  /-- power-on reset, and whether RESET_N has risen, which takes effect at its end (R651) -/
  | powerOn (edge : Bool)
  /-- brownout reset (R622), and whether RESET_N is low -/
  | brownout (low : Bool)
  deriving DecidableEq, Repr

/-- The fuses of an owner key slot: SHA-512 digests of its two keys once programmed, and the revoke fuse (R89, R107,
R108). -/
structure OwnerSlot where
  ed : Option (List (BitVec 8)) := none
  ml : List (BitVec 8) := []
  revoked : Bool := false
  deriving DecidableEq, Repr

/-- The security island and boot. -/
structure Sec where
  held : Held := .resetN
  /-- the NV store and the SPI flash, by byte offset; an offset not listed holds 0 -/
  nv : Sparse (BitVec 8) := []
  spi : Sparse (BitVec 8) := []
  /-- rollback counters of image types 1 to 4 -/
  rollback : List Nat := [0, 0, 0, 0]
  owner0 : OwnerSlot := {}
  owner1 : OwnerSlot := {}
  /-- headers of the images booted since reset, by image type -/
  booted : Sparse (List (BitVec 8)) := []
  /-- elapsed time at which LANE_0 trained for a boot transfer, none once it is over, and what it has brought: the length
  announced and the bytes, complete once BOOT_END has come (R576) -/
  trained : Option Nat := none
  rx : Option (Nat × List (BitVec 8)) := none
  rxDone : Bool := false
  deriving DecidableEq, Repr

/-- A hard serial port beyond its registers: the bytes queued with END and BEGIN in bits 9 and 8, the elapsed time until
which it shifts, and the received bytes. -/
structure SerialPort where
  tx : List Nat := []
  busyUntil : Nat := 0
  rx : List Nat := []
  /-- an I2C transfer is being discarded up to its STOP -/
  discard : Bool := false
  deriving DecidableEq, Repr

/-- A pin's input filter (R596): the level after it, and the level before it with the elapsed time it began. -/
structure PinFilter where
  out : Bool
  level : Bool
  since : Nat
  deriving DecidableEq, Repr

/-- The Jortanu fabric beyond its registers. -/
structure Fabric where
  /-- 0 UNCONFIGURED, 1 LOADING, 2 CONFIGURED -/
  st : Nat := 0
  /-- blocks of each region the booted bitstream declares, as a mask -/
  regions : Sparse Nat := []
  /-- configured frames by block -/
  frames : Sparse (List (BitVec 8)) := []
  /-- owner codes of pins and serial ports: a region, 0xFE REG; others have none -/
  pinOwner : Sparse Nat := []
  portOwner : Sparse Nat := []
  /-- the booted pin-default table: LEVEL by pin -/
  safe : Sparse Nat := []
  /-- clock nets of the booted bitstream -/
  clocks : List (BitVec 8) := []
  /-- elapsed time at which each oscillator's EN was last set -/
  oscAt : Sparse Nat := []
  ports : Sparse SerialPort := []
  /-- the block read back next (R590) -/
  check : Nat := 0
  /-- input filters that are on, by pin -/
  filters : Sparse PinFilter := []
  /-- pins whose OE has been set, which no longer hold their safe level, as a mask (R589) -/
  taken : Nat := 0
  /-- the Cox fabric clock is high (R598) -/
  clk : Bool := false
  deriving DecidableEq, Repr

end Sys2Proof.Machine
end

