-- ==== Sys2Proof/Machine/Units/Serial.lean ====
section
/-!
DEFINITION. The state of lanes, ports, Bupex links and the system of devices (16_lanes_bupex.md).
-/
namespace Sys2Proof.Machine
open Sys2Proof

/-- A frame of class 1 to 3 kept for replay: its link sequence, kind and bytes (R557). -/
structure SentFrame where
  lseq : Nat
  kind : String
  data : List (BitVec 8)
  deriving DecidableEq, Repr

/-- A frame in a link's transmitter: its link sequence when it is kept for replay, its kind and bytes, the blocks still to be
sent and whether any has been. -/
structure TxFrame where
  lseq : Option Nat := none
  kind : String
  data : List (BitVec 8)
  left : Nat
  begun : Bool := false
  deriving DecidableEq, Repr

/-- A Bupex link beyond its registers. -/
structure LinkRun where
  /-- the transmitter (R548, R556): class-0 frames and the others in order, blocks sent since the last FILL, and the part of
  a block time that has passed; the blocks in the receiver's elastic buffer -/
  tx0 : List TxFrame := []
  tx : List TxFrame := []
  blocks : Nat := 0
  credit : Nat := 0
  elastic : Nat := 0
  /-- the partner's last HELLO: its DEVICE_ID, whether its digest agreed, and the elapsed time of it -/
  hello : Option (Nat × Bool × Nat) := none
  /-- elapsed time of the last frame sent other than a HELLO -/
  lastTx : Nat := 0
  /-- next link sequence to send, and the last received in order -/
  lseq : Nat := 0
  lack : Nat := 0xFFFF
  unacked : List SentFrame := []
  /-- frames held while the link is in electrical idle (R552) -/
  waiting : List (String × List (BitVec 8)) := []
  deriving DecidableEq, Repr

/-- The duplicate filter for one source device (R558). -/
structure DupFilter where
  high : Nat
  seen : List Nat := []
  deriving DecidableEq, Repr

/-- The system of devices. -/
structure MultiDev where
  /-- 0 NONE, 1 JOINED, 2 PRIMARY, 3 AUTONOMOUS -/
  role : Nat := 0
  leader : Nat := 0xFFF
  changedAt : Nat := 0
  /-- neighbours of other devices as last flooded (R564) -/
  topo : Sparse (List Nat) := []
  /-- unreachable members with the elapsed time since which they have been -/
  gone : Sparse Nat := []
  /-- elapsed time since which every member has been reachable -/
  allSince : Option Nat := none
  /-- devices that a declared partition has cut off, and the short-form time of the last change with those before it -/
  cut : List Nat := []
  cutAt : Nat := 0
  cutBefore : List Nat := []
  /-- proxy queues whose EN the partition cleared (R572) -/
  proxyOff : List Nat := []
  /-- packets carried to a home device and not yet acknowledged (R566) -/
  carried : List Nat := []
  /-- SEQ of the next frame by destination -/
  txSeq : Sparse Nat := []
  filters : Sparse DupFilter := []
  deriving DecidableEq, Repr

/-- Lanes, ports, links and the system. -/
structure Serial where
  /-- what a lane's owner is: the port or link number, by lane -/
  owner : Sparse Nat := []
  /-- PRBS error and bit counters by lane -/
  prbs : Sparse (Nat × Nat) := []
  /-- transmit FIR taps by `lane * 32 + tap` -/
  fir : Sparse Nat := []
  /-- equaliser taps read while EQ_FREEZE holds them, by `lane * 32 + tap` (R549) -/
  eq : Sparse Nat := []
  links : Sparse LinkRun := []
  /-- octets by which an Ethernet port's partner has run ahead and idle has not yet absorbed (R548) -/
  idle : Sparse Int := []
  md : MultiDev := {}
  /-- the PCI Express link is in L1 -/
  pcieL1 : Bool := false
  deriving DecidableEq, Repr

end Sys2Proof.Machine
end

