-- ==== Sys2Proof/Machine/Units/System.lean ====
section
/-!
DEFINITION. The state of the command interface, the objects and the memory controllers (02_commands.md,
13_memory_ecc.md).
-/
namespace Sys2Proof.Machine
open Sys2Proof

/-- A function's state (Functions and their states). A setting object has none. -/
inductive FnState where
  | stopped | starting | running | stopping
  deriving DecidableEq, Repr

/-- A configuration object of the running set. -/
structure Object where
  /-- bit 0 PERSIST, bit 1 AUTOSTART -/
  attrs : Nat := 0
  body : List (BitVec 8) := []
  /-- `none` for a setting object -/
  st : Option FnState := none
  /-- committed cost in 1/64 crew; 0 while STOPPED -/
  cost : Nat := 0
  /-- bytes of the device pool it holds -/
  pool : Nat := 0
  /-- status of the last START or STOP -/
  last : Nat := 0
  /-- short-form time of the last state change -/
  changed : Nat := 0
  deriving DecidableEq, Repr

/-- A request packet waiting in a transport's queue: its bytes, the size its carrier gives, and where the reply
goes. -/
structure RawReq where
  data : List (BitVec 8)
  /-- doorbell LENGTH, datagram size / 4 or decoded frame size / 4; `none` when not a whole number of words -/
  words : Option Nat
  source : Nat := 0
  deriving DecidableEq, Repr

/-- A long command outstanding (R50 to R55). -/
structure Long where
  transport : Transport
  source : Nat := 0
  opcode : Nat
  sequence : BitVec 16
  unit : BitVec 8
  inst : BitVec 8
  flags : BitVec 8
  params : List (BitVec 8)
  /-- the object it works on -/
  obj : Option Nat := none
  cancellable : Bool := false
  /-- its transport was flushed: its completion reply is discarded (R38) -/
  muted : Bool := false
  deriving DecidableEq, Repr

/-- The command interface. -/
structure CmdIf where
  reqPcie : List RawReq := []
  reqEth : List RawReq := []
  reqUart : List RawReq := []
  /-- the PCI Express reply FIFO, oldest first (R46) -/
  replies : List (List (BitVec 8)) := []
  /-- completions that wait for a place in the full FIFO, oldest first, with their NOTIFY -/
  backlog : List (List (BitVec 8) × Bool) := []
  /-- the request window, by word number -/
  reqWindow : Sparse W32 := []
  /-- the reply window -/
  replyWindow : List (BitVec 8) := []
  /-- sequence of the last reply consumed from the FIFO (R47) -/
  lastSeq : BitVec 16 := 0
  /-- transport the rotation looks at first: 0 PCI Express, 1 Ethernet, 2 UART (R42) -/
  turn : Nat := 0
  longs : List Long := []
  /-- deferred AUTOSTART functions, by object ID (R75) -/
  deferred : List Nat := []
  deriving DecidableEq, Repr

/-- A key slot of the key store (R312, R313): a bearer's two keys, or an SRTP key and salt. -/
structure KeySlot where
  first : List (BitVec 8)
  second : List (BitVec 8) := []
  deriving DecidableEq, Repr

/-- One SDRAM channel's state beyond its registers (R451 to R473). -/
structure MemCh where
  /-- corrections by `rank * 32 + position` (R462) -/
  devCe : Sparse Nat := []
  /-- times of the corrections of the last second by `rank * 32 + position` -/
  recent : Sparse (List Nat) := []
  /-- positions whose MEM_DEVICE_SUSPECT has been raised since the count was cleared -/
  suspect : List Nat := []
  deriving DecidableEq, Repr

end Sys2Proof.Machine
end

