-- ==== Sys2Proof/Machine/Units/Shuttle.lean ====
section
/-!
DEFINITION. The state of Shuttle and Beam (05_shuttle.md).
-/
namespace Sys2Proof.Machine
open Sys2Proof

/-- A task descriptor as Shuttle holds it (R158). -/
structure TaskDesc where
  cls : Nat := 0
  template : Bool := false
  ordered : Bool := false
  cancelLate : Bool := false
  replay : Bool := false
  anyCore : Bool := false
  init : Nat := 0
  flow : Nat := 0
  flowValid : Bool := false
  crewMask : Nat := 0
  affCrew : Nat := 0
  affCore : Nat := 0
  /-- 0 CORE, 1 LDPC_DEC, 2 LDPC_ENC, 3 POLAR, 4 CIPHER, 5 DMA, 6 NONE -/
  target : Nat := 0
  cost : Nat := 1
  release : Nat := 0
  /-- for a template, ns after instance creation; 2^64 - 1 for none -/
  deadline : Nat := 18446744073709551615
  entry : Nat := 0
  bindQ : Nat := 65535
  arg : Nat := 0
  succ : List Nat := []
  dirtyBase : Nat := 0
  dirtyLen : Nat := 0
  deriving DecidableEq, Repr

/-- A slot's state code (Task descriptors). -/
inductive SlotState where
  | free | waiting | ready | staged | running | armedTemplate
  deriving DecidableEq, Repr

/-- A task slot. -/
structure Slot where
  st : SlotState := .free
  desc : TaskDesc := {}
  count : Nat := 0
  pending : Nat := 0
  /-- places among the pending notices, 0 the oldest, of those whose source failed (R167, R170) -/
  failedAt : List Nat := []
  inputFailed : Bool := false
  /-- the Beam sequence taken at arm (R197) -/
  seq : Nat := 0
  deriving DecidableEq, Repr

/-- One unit of work: a non-template task that became READY, or an instance of a template. -/
structure Work where
  task : Nat
  /-- instance index; 0 for a non-template -/
  inst : Nat := 0
  handle : Option Nat := none
  /-- absolute deadline, 2^64 - 1 for none -/
  deadline : Nat
  inputFailed : Bool := false
  replayed : Bool := false
  seq : Nat := 0
  /-- order in which it became ready -/
  order : Nat := 0
  deriving DecidableEq, Repr

/-- Work on a core or an engine: when it began, and whether its overrun has been counted (R184). -/
structure Running where
  work : Work
  start : Nat
  overrun : Bool := false
  /-- TASK_DONE has been executed with this status; the drain and clean are under way (R175) -/
  done : Option Nat := none
  /-- the audio legs' key slots as they stood at dispatch, for a cipher task (R377) -/
  keys : Sparse KeySlot := []
  deriving DecidableEq, Repr

/-- One Beam sequence (R197 to R202). -/
structure BeamSeq where
  num : Nat
  taken : Nat
  outs : List Nat := []
  /-- closed by its task's completion; `true` releases, `false` releases nothing (R200, R201) -/
  closed : Option Bool := none
  deriving DecidableEq, Repr

/-- An ordered flow. WINDOW 0: not in use. -/
structure Flow where
  destQ : Nat := 0
  window : Nat := 0
  timeoutUs : Nat := 0
  head : Nat := 0
  next : Nat := 0
  lastCore : Option Nat := none
  /-- sequences from HEAD on -/
  seqs : List BeamSeq := []
  /-- sequences skipped under R202 whose task has not completed -/
  skipped : List BeamSeq := []
  deriving DecidableEq, Repr

/-- The tasks and flows a function owns (R206). -/
structure Owned where
  obj : Nat
  tFirst : Nat
  tCount : Nat
  fFirst : Nat
  fCount : Nat
  /-- the crews the owner's tasks may use (R207) -/
  mask : Nat := 0xFFF
  class0 : Bool
  stopping : Bool := false
  deriving DecidableEq, Repr

/-- A decrement on its way to a slot (R162): its amount, its source and whether it marks INPUT_FAILED. -/
structure Notice where
  task : Nat
  count : Nat := 1
  source : Initiator
  failed : Bool := false
  deriving DecidableEq, Repr

/-- Service modes (R179). -/
inductive Service where
  | startup | normal | test | recovery
  deriving DecidableEq, Repr

/-- How an engine's work ended, once its writes have returned (R306 to R308). -/
structure EngineEnd where
  error : Nat := 0
  addr : Nat := 0
  /-- the status record was written -/
  recorded : Bool := true
  deriving DecidableEq, Repr

/-- Shuttle and Beam. -/
structure Shuttle where
  service : Service := .startup
  /-- crews in crew rescue -/
  crewRescue : List Nat := []
  deviceRescue : Bool := false
  slots : Sparse Slot := []
  ready : List Work := []
  /-- staged entries by core, 8 * crew + core -/
  staged : Sparse Work := []
  running : Sparse Running := []
  /-- work on device-wide engines: FEC 0 to 39, CIPHER 40 to 43 -/
  engines : Sparse Running := []
  engineEnds : Sparse EngineEnd := []
  flows : Sparse Flow := []
  owned : List Owned := []
  order : Nat := 0
  /-- by crew, or 15 for the device: the elapsed time since which the return test of R187 has held -/
  slackSince : Sparse Nat := []
  /-- LDPC instances that run code blocks lent by a lead, with the lead (R309) -/
  lent : Sparse Nat := []
  /-- a task became ready, was dispatched or completed, and the projections are not yet evaluated (R188) -/
  evalDue : Bool := false
  deriving DecidableEq, Repr

end Sys2Proof.Machine
end

