-- ==== Sys2Proof/Machine/Units/Spool.lean ====
section
/-!
DEFINITION. The state of Spool: packets and their cells, native and compatibility queues, initiator contexts
(14_spool_dma.md).
-/
namespace Sys2Proof.Machine
open Sys2Proof

/-- Where a packet stands (R479, R481, R487). -/
inductive PktState where
  /-- allocated; its holder may still be writing its cells -/
  | held
  /-- a unit's packet whose EOP cell is not yet written (R479), meant for a queue -/
  | opened
  /-- on a native queue -/
  | queued
  /-- quarantined from a queue (R487) -/
  | quarantined
  deriving DecidableEq, Repr

/-- A packet: its cells in chain order, its length in bytes, where it stands and on which queue. -/
structure Packet where
  cells : List Nat := []
  len : Nat := 0
  st : PktState := .held
  queue : Nat := 0
  /-- allocated by the fronthaul engine (R477) -/
  fronthaul : Bool := false
  deriving DecidableEq, Repr

/-- A native queue (R480 to R489); the fields hold their reset values. -/
structure Queue where
  en : Bool := true
  maxCells : Nat := 0
  notifyKind : Nat := 0
  notifyTarget : Nat := 0
  /-- handles, head first -/
  items : List Nat := []
  /-- the two copies of head or tail differ, or a link entry is uncorrectable (R487) -/
  mismatch : Bool := false
  enqueued : Nat := 0
  dequeued : Nat := 0
  idle : Nat := 0
  refused : Nat := 0
  deriving DecidableEq, Repr

/-- The operation context of one initiator (The initiator context, R486). -/
structure Ctx where
  queue : Nat := 0
  len : Nat := 0
  badHandle : Bool := false
  noCells : Bool := false
  full : Bool := false
  idle : Bool := false
  notifyValid : Bool := false
  notifyTask : Nat := 0
  cell : Nat := 0
  deriving DecidableEq, Repr

/-- A 16-byte item of a compatibility queue. -/
structure CqItem where
  w0 : W32 := 0
  w1 : W32 := 0
  w2 : W32 := 0
  w3 : W32 := 0
  deriving DecidableEq, Repr

/-- A compatibility queue (R490 to R494). -/
structure CompatQ where
  en : Bool := false
  noSpace : Bool := false
  depthLog2 : Nat := 0
  overflow : Bool := false
  items : List CqItem := []
  push : CqItem := {}
  /-- what POP_0 to POP_3 read back -/
  latch : CqItem := {}
  mismatch : Bool := false
  deriving DecidableEq, Repr

/-- Spool. -/
structure Spool where
  /-- allocated packets by descriptor handle -/
  packets : Sparse Packet := []
  queues : Sparse Queue := []
  /-- contexts by initiator, `unit * 256 + instance` -/
  ctxs : Sparse Ctx := []
  compat : Sparse CompatQ := []
  /-- the handles a QUEUE_RECLAIM in progress will free (R489) -/
  reclaim : Option (Nat × List Nat) := none
  deriving DecidableEq, Repr

/-- One channel's loop in progress: the address of its LOOP, iterations asked for and done. -/
structure DmaLoop where
  start : Nat
  count : Nat
  i : Nat
  deriving DecidableEq, Repr

/-- What a waiting DMA program waits for (R502). -/
inductive DmaWait where
  | time (t : Nat)
  | word (addr mask value : Nat)
  deriving DecidableEq, Repr

/-- Where a DMA channel stands (DMA_CH_STATUS.STATE). -/
inductive DmaRun where
  | idle | run | wait | drain
  deriving DecidableEq, Repr

/-- A MOVE whose transfers are still under way (R498, R510): the elapsed time it was issued at, the bytes left, and the words it
writes as they stood before. -/
structure DmaMove where
  at_ : Nat
  left : Nat
  old : List (Nat × List (BitVec 8)) := []
  deriving DecidableEq, Repr

/-- A DMA channel: the registers of its block and its program in progress (R495 to R512). -/
structure DmaCh where
  maxReads : Nat := 256
  tasksEn : Bool := true
  cls : Nat := 1
  handoverSeq : Nat := 0
  shadowLocked : Bool := false
  programError : Bool := false
  error : Nat := 0
  /-- 0 none, 1 Shuttle task, 2 shadow -/
  source : Nat := 0
  run : DmaRun := .idle
  armed : Bool := false
  pc : Nat := 0
  /-- the Shuttle task whose program runs -/
  work : Option Work := none
  shProg : Nat := 0
  shBase : Nat := 0
  shSignalValid : Bool := false
  shSignalTask : Nat := 0
  base : Nat := 0
  signal : Option Nat := none
  loops : List DmaLoop := []
  /-- a MOVE of the program was BAD -/
  bad : Bool := false
  /-- source packets to free at completion (R497) -/
  frees : List Nat := []
  wait : Option DmaWait := none
  deadline : Option Nat := none
  /-- MOVEs under way, oldest first, the elapsed time the engines last served the channel, and how the program ends once its
  writes have returned -/
  moves : List DmaMove := []
  served : Nat := 0
  ending : Option Bool := none
  /-- the staged Shuttle task -/
  staged : Option Work := none
  deriving DecidableEq, Repr

end Sys2Proof.Machine
end

