-- ==== Sys2Proof/Machine/Units/Time.lean ====
section
/-!
DEFINITION. The state of Cox (12_cox_time.md): the time state, steering, references, PTP ports and PPS inputs.
-/
namespace Sys2Proof.Machine
open Sys2Proof

/-- The time states (R423). -/
inductive TimeState where
  | unset | freerun | locking | locked | holdover
  deriving DecidableEq, Repr

/-- A PPS input (R430, R441). -/
structure PpsIn where
  valid : Bool := false
  /-- consecutive edges spaced 1 s ± 100 µs -/
  streak : Nat := 0
  /-- timestamp of the last edge in units of 2^-16 ns -/
  ts : Int := 0
  /-- the last edge in the counter's present time, which its spacing to the next is measured from (R420, R430) -/
  base : Int := 0
  /-- the last edge is recent enough to measure a spacing from -/
  fresh : Bool := false
  /-- elapsed time of the last edge, and since which the input has been valid -/
  lastAt : Nat := 0
  since : Nat := 0
  deriving DecidableEq, Repr

/-- A master heard on a port: its last Announce, how many were received and when the last was. -/
structure Foreign where
  msg : Announce
  count : Nat
  at_ : Nat
  deriving DecidableEq, Repr

/-- A PTP port (R430, R434 to R439). -/
structure PtpPort where
  /-- portState, IEEE 1588-2019 codes: 3 DISABLED, 4 LISTENING, 6 MASTER, 7 PASSIVE, 9 SLAVE -/
  st : Nat := 3
  foreign : List Foreign := []
  /-- the master a SLAVE port follows -/
  parent : Option Announce := none
  /-- t1 + cS and t2 of the last Sync, t3 of the last Delay_Req, in units of 2^-16 ns -/
  sync : Option (Int × Int) := none
  t3 : Option Int := none
  /-- units of 2^-16 ns -/
  meanPathDelay : Int := 0
  /-- elapsed times of the last messages -/
  syncAt : Nat := 0
  respAt : Nat := 0
  announceAt : Nat := 0
  valid : Bool := false
  since : Nat := 0
  /-- Sync received, Sync sent, Delay_Req sent, Announce timeouts, Sync timeouts, SYNC_MISSED -/
  counts : List Nat := [0, 0, 0, 0, 0, 0]
  deriving DecidableEq, Repr

/-- An event message waiting for its instant (R439): on a Bupex link or an Ethernet port, which one, its PTP port entry, the
short-form instant T its start-of-frame delimiter crosses the reference plane at, and its bytes. -/
structure Launch where
  bupex : Bool
  inst : Nat
  port : Nat
  at_ : Nat
  data : List (BitVec 8)
  deriving DecidableEq, Repr

/-- Cox, beyond its counter. -/
structure Cox where
  st : TimeState := .unset
  epochSet : Bool := false
  /-- COX_STATUS.REF -/
  ref : Nat := 31
  /-- the servo's frequency correction in units of 2^-48 ns per cycle (R418) -/
  freq : Int := 0
  /-- phase still to be slewed in units of 2^-48 ns (R426) -/
  slew : Int := 0
  /-- last measured offset from the selected reference in units of 2^-16 ns -/
  offset : Int := 0
  /-- elapsed time since which every measurement has been within LOCK_NS (R424) -/
  goodSince : Option Nat := none
  /-- consecutive measurements beyond 4 × LOCK_NS -/
  bad : Nat := 0
  /-- LOCKED has been reached since the epoch change (R427) -/
  lockedOnce : Bool := false
  /-- a rejoin is followed by slewing alone until LOCKED (R574) -/
  slewOnly : Bool := false
  /-- short-form time at the last step or epoch change (R598) -/
  stepAt : Nat := 0
  /-- frequency corrections of the present LOCKED operation, each from its elapsed time, newest first (R425) -/
  history : List (Nat × Int) := []
  holdSince : Nat := 0
  pps : Sparse PpsIn := []
  ports : Sparse PtpPort := []
  /-- an outstanding NEXT_PPS TIME_SET: its input, seconds and the elapsed time at which it was taken (R443) -/
  nextPps : Option (Nat × Nat × Nat) := none
  /-- messages to be launched, and the Ethernet frames their ports hold back (R439, R440) -/
  launches : List Launch := []
  held : List Out := []
  /-- a usable COX_OSC was measured at the end of power-on reset (R659) -/
  osc : Bool := true
  deriving DecidableEq, Repr

end Sys2Proof.Machine
end

