-- ==== Sys2Proof/Machine/Units/Video.lean ====
section
/-!
DEFINITION. The state of video sessions, the compositor and the layered forwarder (11_video_bridge.md).
-/
namespace Sys2Proof.Machine
open Sys2Proof

/-- A picture: its picture time, the time it is eligible from, its content and DAMAGED. -/
structure Picture where
  time : Nat
  elig : Nat
  data : List (BitVec 8) := []
  damaged : Bool := false
  deriving DecidableEq, Repr

/-- An ST 2110 picture being received: bytes by `line * 16384 + offset`. -/
structure RxPicture where
  time : Nat
  parts : Sparse (List (BitVec 8)) := []
  deriving DecidableEq, Repr

/-- A video session's run-time state. -/
structure VideoRun where
  admitted : Nat := 0
  /-- the VIDEO engine it is placed on -/
  engine : Option Nat := none
  /-- short-form time of the frame boundary at which a stopping session ends -/
  stopAt : Nat := 0
  /-- pictures being decoded, oldest first, and decoded or received ones, newest last -/
  decoding : List Picture := []
  pictures : List Picture := []
  /-- ST 2110 pictures being received, and the RTP sequence numbers accepted lately -/
  rx : List RxPicture := []
  seqs : List Nat := []
  rxLoss : Nat := 0
  /-- pictures are marked DAMAGED until a KEY access unit decodes cleanly (R392) -/
  damaged : Bool := false
  /-- frames encoded, short-form time of the last KEY picture, and a key request not yet served -/
  frame : Nat := 0
  lastKey : Option Nat := none
  wantKey : Bool := false
  /-- picture time of the last picture encoded or sent -/
  lastTime : Option Nat := none
  deriving DecidableEq, Repr

/-- A compositor layout's run-time state. -/
structure LayoutRun where
  /-- the layout in force and its replacements as LAYOUT_SET gave them, each with the boundary of the first frame it
  applies to, by that boundary (R396) -/
  cur : List (BitVec 8) := []
  waiting : List (List (BitVec 8) × Nat) := []
  /-- boundary of the last output frame, and the pictures used in it: session and picture time -/
  last : Option Nat := none
  used : List (Nat × Nat) := []
  /-- output pictures, newest last -/
  outs : List Picture := []
  deriving DecidableEq, Repr

/-- A stream of the forwarder. -/
structure FwdStream where
  /-- packets of the last second: elapsed time of arrival, bits with overhead, spatial and temporal layer -/
  window : List (Nat × Nat × Nat × Nat) := []
  simulcast : Bool := false
  /-- measured layer rates in kb/s by `4 * s + t` (R406) -/
  rates : Sparse Nat := []
  /-- the frame whose END_OF_FRAME packet has not arrived -/
  frame : Option Nat := none
  lastReq : Option Nat := none
  late : Nat := 0
  deriving DecidableEq, Repr

/-- A record waiting for its SLOT_TIME (R401): time, budget and flags. -/
structure BudgetRec where
  time : Nat
  budget : Nat
  flags : Nat
  deriving DecidableEq, Repr

/-- A video leg. -/
structure FwdLeg where
  /-- FWD_LEG_ADD's parameters without the key and salt -/
  body : List (BitVec 8)
  budget : Nat := 0
  /-- current selection and adopted target, spatial and temporal -/
  cur : Nat × Nat := (0, 0)
  tgt : Nat × Nat := (0, 0)
  /-- a higher computed target and the elapsed time since which it has been computed (R407) -/
  cand : Option ((Nat × Nat) × Nat) := none
  /-- elapsed time at which the target was adopted, and whether a key picture has been requested for it -/
  adoptAt : Nat := 0
  asked : Bool := false
  started : Bool := false
  paused : Bool := false
  suspended : Bool := false
  suspect : Bool := false
  stale : Bool := false
  broken : Bool := false
  /-- records waiting for their SLOT_TIME, and the elapsed time of the last record -/
  recs : List BudgetRec := []
  lastRec : Nat := 0
  /-- the next sequence number, and how often it has wrapped (the rollover counter of R411) -/
  seq : Nat := 0
  roc : Nat := 0
  /-- the frame in hand, its packets that wait for its selection with their arrival (R408), and the rest of it is dropped
  (R412) -/
  frame : Option Nat := none
  waiting : List (Nat × List (BitVec 8)) := []
  dropping : Bool := false
  /-- selected packets held back for END_OF_FRAME, with their frame and arrival (R410) -/
  held : List (Nat × Nat × List (BitVec 8)) := []
  deriving DecidableEq, Repr

/-- The forwarder. -/
structure Fwd where
  streams : Sparse FwdStream := []
  legs : Sparse FwdLeg := []
  /-- remote subscriptions: device and handset (R403) -/
  subs : List (Nat × Nat) := []
  measuredAt : Nat := 0
  deriving DecidableEq, Repr

/-- VIDEO, COMPOSE and FWD. -/
structure VideoState where
  sessions : Sparse VideoRun := []
  layouts : Sparse LayoutRun := []
  fwd : Fwd := {}
  deriving DecidableEq, Repr

end Sys2Proof.Machine
end

