-- ==== Sys2Proof/Machine/Units/Weft.lean ====
section
/-!
DEFINITION. The state of Weft (15_weft_network.md): routers, gateways, drain windows and admitted class-0 entries.
-/
namespace Sys2Proof.Machine
open Sys2Proof

/-- A router's state (Draining a router). -/
inductive RouterSt where
  | run | draining | drained
  deriving DecidableEq, Repr

/-- A router and its gateway, beyond the registers. -/
structure Router where
  st : RouterSt := .run
  /-- route masks by destination that differ from the minimal directions -/
  routes : Sparse Nat := []
  /-- windows by source node that differ from 16 flits -/
  wins : Sparse Nat := []
  /-- flits waiting in the request buffer by source node (R537) -/
  held : Sparse Nat := []
  /-- credits of this gateway that each source has spent and that have not returned (R521) -/
  spent : Sparse Nat := []
  /-- response space reserved in this gateway by request tag, in flits (R522) -/
  reserved : Sparse Nat := []
  /-- the neighbours see the router unavailable (R529) -/
  hidden : Bool := false
  /-- where the round robin of each output stands (R519) -/
  turn : Sparse Nat := []
  /-- what the class-0 shaper's bucket lacks, in thousandths of a byte (R538) -/
  debt : Nat := 0
  deriving DecidableEq, Repr

/-- A packet, or a part of it, in a router: which packet, the router and the input port it came in at, the output chosen, the
Weft cycle its head arrived in, its flits in the router, those already sent on, and those still in its source gateway. -/
structure Hop where
  id : Nat
  head : WeftHead
  node : Nat
  inp : Nat
  out : Option Nat := none
  seen : Nat
  here : Nat
  sent : Nat := 0
  behind : Nat := 0
  deriving DecidableEq, Repr

/-- An accepted drain window (R529 to R533). -/
structure Drain where
  router : Nat
  start : Nat
  stop : Nat
  started : Bool := false
  /-- short-form time at which DRAINED was reached -/
  drainedAt : Option Nat := none
  deriving DecidableEq, Repr

/-- A class-0 traffic entry: its source, its destinations, and its rate and burst in link bytes (R538 to R540). -/
structure C0Entry where
  src : Nat
  dsts : List Nat
  rate : Nat
  burst : Nat
  deriving DecidableEq, Repr

/-- Weft. -/
structure Weft where
  routers : Sparse Router := []
  drains : List Drain := []
  /-- entries admitted for functions, by object ID -/
  admitted : Sparse (List C0Entry) := []
  /-- packets in the mesh and packets waiting at their source gateways, oldest first, the number of packets sent into the mesh
  so far and of Weft cycles in which it held one -/
  hops : List Hop := []
  waiting : List WeftHead := []
  packets : Nat := 0
  cycles : Nat := 0
  deriving DecidableEq, Repr

end Sys2Proof.Machine
end

