-- ==== Sys2Proof/Machine/State.lean ====
section
/-!
DEFINITION. The whole state of the block as plain data, and its value right after reset. A field's default is its
reset value; where the spec gives none, the assumption log names the choice.
-/
namespace Sys2Proof.Machine
open Sys2Proof

/-- No command of this block stops the machine: the spec gives every access and every failure an effect on the state,
so there is no reason a step could fault for. -/
inductive Fault where
  deriving DecidableEq, Repr

/-- Why a command has no meaning. -/
inductive Refusal where
  /-- raised by an arm of `exec` whose meaning is not written; safe: nothing can be proved of the command -/
  | notModelled (mnemonic : String)
  deriving DecidableEq, Repr

/-- The state of the block. -/
structure State where
  /-- which part this is (00_scope.md, Variants) -/
  part : Part := .yd4460
  /-- elapsed nanoseconds, the model's own clock; a reset does not set it back -/
  now : Nat := 0
  /-- the Cox counter in units of 2^-48 ns (R417, R418) -/
  coxCount : Nat := 0
  /-- the model's own counter of free values drawn -/
  free : Nat := 0
  /-- registers that hold what was written or recorded, by `regKey` -/
  regs : Sparse W32 := []
  /-- counters shown through selector registers, by `cntKey` -/
  counters : Sparse Nat := []
  /-- SDRAM, scratchpad and Spool cell memory, by byte address -/
  mem : List Host.Cell := []
  /-- stored code words that differ from what was encoded, by word address -/
  ecc : Sparse ErrPat := []
  /-- what the last register or memory read returned to its initiator -/
  rdata : Nat := 0
  /-- what the device has sent out, newest last -/
  out : List Out := []
  /-- events raised in this step and not yet delivered (R633) -/
  evq : List Event := []
  /-- decrements on their way to their slots (R162) -/
  notices : List Notice := []
  /-- elapsed time at which each limited event was last raised, by code and instance (R635) -/
  raised : Sparse Nat := []
  /-- SEQ of the next event -/
  evSeq : Nat := 0
  objs : Sparse Object := []
  cmd : CmdIf := {}
  memc : Sparse MemCh := []
  /-- bank owners waiting under R245, by 32 * crew + bank -/
  bankPend : Sparse Nat := []
  spool : Spool := {}
  dma : Sparse DmaCh := []
  shuttle : Shuttle := {}
  power : Power := {}
  cox : Cox := {}
  weft : Weft := {}
  /-- run-time state of carriers, by carrier identifier, and of handsets, by handset identifier -/
  carriers : Sparse CarrierRun := []
  handsets : Sparse Handset := []
  /-- the last eCPRI sequence number by `port * 65536 + eAxC` -/
  fhSeq : Sparse Nat := []
  /-- chirp channels, modulators and groups, and the entries of registered tags (R338) -/
  chirp : Sparse ChirpCh := []
  chirpMods : Sparse ChirpMod := []
  chirpGroups : Sparse ChirpGroup := []
  tags : Sparse (List (BitVec 8)) := []
  audio : Audio := {}
  hsp : Sparse Hsp := []
  video : VideoState := {}
  serial : Serial := {}
  sec : Sec := {}
  fabric : Fabric := {}
  /-- the crew cores, by 8 * crew + core -/
  cores : Sparse Core := []
  /-- the input queues of the coprocessors, by 8 * crew + engine (FFT_0, FFT_1, CEMD_0, CEMD_1, BW_0) -/
  cops : Sparse (List CopCmd) := []
  /-- the written slots of the key store (R312) -/
  keys : Sparse KeySlot := []
  /-- SDRAM channels put in service at memory initialisation, in address order (R452, R453) -/
  memChans : List Nat := []
  /-- capacity used in each of them, in GiB -/
  memGib : Nat := 0
  /-- the commands waiting, first in first out -/
  pending : List Instr := []
  deriving DecidableEq, Repr

/-- The block right after reset. -/
def State.reset : State := {}

end Sys2Proof.Machine
end

