-- ==== Sys2Proof/Machine/Ops.lean ====
section
/-!
DEFINITION. The named operations every unit uses: registers, counters, time, events, outputs, objects and free values.
-/
namespace Sys2Proof.Machine
open Sys2Proof

/-- The outcome of a step. -/
abbrev Res := Host.Outcome State Fault Refusal

/-- The value stored in a register. -/
def regGet (s : State) (unit inst off : Nat) : W32 :=
  spGet (regReset (regKey unit inst off)) s.regs (regKey unit inst off)

/-- A register with its value set by the hardware. -/
def regPut (unit inst off : Nat) (v : W32) (s : State) : State :=
  { s with regs := spSet (regReset (regKey unit inst off)) s.regs (regKey unit inst off) v }

/-- Field `[hi:lo]` of a register. -/
def regF (s : State) (unit inst off hi lo : Nat) : Nat := bits (regGet s unit inst off).toNat hi lo

/-- A register with field `[hi:lo]` set. -/
def regPutF (unit inst off hi lo v : Nat) (s : State) : State :=
  regPut unit inst off (BitVec.ofNat 32 (setBits (regGet s unit inst off).toNat hi lo v)) s

/-- A saturating count in field `[hi:lo]` of a register, raised by `n`. -/
def regBump (unit inst off hi lo n : Nat) (s : State) : State :=
  regPutF unit inst off hi lo (satN (2 ^ (hi - lo + 1) - 1) (regF s unit inst off hi lo + n)) s

/-- A counter shown through a selector register. -/
def cntGet (s : State) (k : Nat) : Nat := spGet 0 s.counters k

/-- A selected counter raised by `n`, saturating at 0xFFFF_FFFF. -/
def cntBump (k n : Nat) (s : State) : State :=
  { s with counters := spSet 0 s.counters k (satN 0xFFFFFFFF (cntGet s k + n)) }

/-- A selected counter set to zero. -/
def cntZero (k : Nat) (s : State) : State := { s with counters := spDel s.counters k }

/-- Every counter of a unit and item set to zero. -/
def cntZeroAll (p : Nat → Bool) (s : State) : State :=
  { s with counters := s.counters.filter fun e => !p e.1 }

/-- The short-form Cox time (R9, R419). -/
def shortNow (s : State) : Nat := s.coxCount / 2 ^ 48

/-- A free value and the state with one more drawn. -/
def draw (s : State) : Nat × State := (Config.fresh s.free, { s with free := s.free + 1 })

/-- An output that leaves; frames on an Ethernet port and a Bupex link count TX_FRAMES and FRAMES_TX. -/
def sendOut (o : Out) (s : State) : State :=
  let s := { s with out := s.out ++ [o] }
  match o with
  | .eth p _ _ => cntBump (uETH * 0x100000000 + p * 16 + 1) 1 s
  | .bupex l _ _ => cntBump (uBUPEX * 0x100000000 + l * 16) 1 s
  | _ => s

/-- The Ethernet port a frame leaves on, and its bytes. -/
def outPort : Out → Option (Nat × Nat)
  | .eth p _ b => some (p, b.length)
  | .reply .eth _ b => some (48, b.length)
  | _ => none

/-- The rate of a port type in units of 0.1 Gb/s (R545). -/
def ethRate (mode : Nat) : Nat := [10, 10, 100, 250, 500, 1000, 1000, 1000, 2000, 2000, 4000, 4000].getD mode 10

/-- Nanoseconds a frame of `n` bytes takes on a port, with its preamble and FCS. -/
def frameNs (s : State) (p n : Nat) : Nat := ((n + 12) * 80 + ethRate (regF s uETH p 0x000 19 16) - 1) / ethRate (regF s uETH p 0x000 19 16)

/-- A frame that its port may not start now (R440): a launch at T is pending and the frame's transmission would overlap T, or
an earlier frame of the port is held back. -/
def portHeld (s : State) (o : Out) : Bool :=
  match outPort o with
  | none => false
  | some (p, n) =>
    (s.cox.launches.any fun x => !x.bupex && x.inst == p && x.at_ < shortNow s + frameNs s p n) ||
      s.cox.held.any fun h => (outPort h).any fun q => q.1 == p

/-- An output: sent, or held back by its port until a pending launch has gone (R440). -/
def emit (o : Out) (s : State) : State :=
  if portHeld s o then { s with cox := { s.cox with held := s.cox.held ++ [o] } } else sendOut o s

/-- The value a register or memory read returned to its initiator. -/
def answer (v : Nat) (s : State) : State := { s with rdata := v }

/-- An event raised; it is numbered and delivered when the step's events are settled (R633, R636). -/
def raise (code unit inst sev : Nat) (data : Bytes) (s : State) : State :=
  { s with evq := s.evq ++ [{ code := code, unit := unit, inst := inst, sev := sev, data := fit 16 data }] }

/-- A limited event (R635): raised unless one of its code and instance key was raised within `ns`. -/
def raiseLim (ns key : Nat) (code unit inst sev : Nat) (data : Bytes) (s : State) : State :=
  let k := code * 0x1000000 + key
  match spFind s.raised k with
  | some t =>
    if s.now < t + ns then s
    else raise code unit inst sev data { s with raised := spPut s.raised k s.now }
  | none => raise code unit inst sev data { s with raised := spPut s.raised k s.now }

/-- One second in nanoseconds. -/
abbrev second : Nat := 1000000000

/-- A decrement sent to a slot. -/
def notify (task count : Nat) (source : Initiator) (s : State) : State :=
  { s with notices := s.notices ++ [{ task := task, count := count, source := source }] }

/-- A requester identity as the number that selects its Spool context. -/
def initKey (i : Initiator) : Nat := i.unit.toNat * 256 + i.inst.toNat

/-- A unit's own identity. -/
def unitInit (unit inst : Nat) : Initiator := ⟨BitVec.ofNat 8 unit, BitVec.ofNat 8 inst⟩

/-- The host, which reaches the device through the PCI Express controller. -/
def hostInit : Initiator := unitInit uPCIE 0

/-- The identity of core `c`, numbered 8 × crew + core. -/
def coreInit (c : Nat) : Initiator := unitInit (uCREW + c / 8) (c % 8)

/-- The two bytes of a unit pair (R639). -/
def pairBytes (i : Initiator) : Bytes := [i.unit, i.inst]

/-- The number of the core an initiator is, if it is one. -/
def coreOf (i : Initiator) : Option Nat :=
  if 0x10 ≤ i.unit.toNat ∧ i.unit.toNat ≤ 0x1B ∧ i.inst.toNat < 8 then some ((i.unit.toNat - 0x10) * 8 + i.inst.toNat)
  else none

/-- The units of a part (00_scope.md, Variants). -/
def crewCount (p : Part) : Nat := match p with | .yd4460 => 12 | .yd4440 => 8 | .yd4420 => 6
def videoCount (p : Part) : Nat := match p with | .yd4460 => 8 | _ => 0
def cssChannels (p : Part) : Nat := match p with | .yd4460 => 256 | .yd4440 => 128 | .yd4420 => 0
def laneCount (p : Part) : Nat := match p with | .yd4460 => 48 | .yd4440 => 32 | .yd4420 => 24
def hasLogicArray (p : Part) : Bool := match p with | .yd4420 => false | _ => true

/-- The device is in WAIT_HOST or CONFIG_INVALID, where every output is off (R99). -/
def outputsOff (s : State) : Bool := 8 ≤ regF s uSEC 0 0x000 23 20

/-- No multi-protocol lane leaves electrical idle: boot has not completed PIN_TABLE, or every output is off (R82, R99). -/
def lanesOff (s : State) : Bool := regF s uSEC 0 0x000 23 20 < 4 || outputsOff s

/-- Crews retired after a fault (SYS_CAP_CREWS.FAILED), which the register file holds at its own offset. -/
def failedMask (s : State) : Nat := regF s uSYS 0 0x00C 27 16

/-- A crew is present in the part. -/
def crewPresent (s : State) (n : Nat) : Bool := n < crewCount s.part

/-- A crew is present and not FAILED. -/
def crewUsable (s : State) (n : Nat) : Bool := crewPresent s n && !bit (failedMask s) n

/-- A unit instance is present in the part (R2, R3). -/
def unitPresent (p : Part) (u inst : Nat) : Bool :=
  inst < unitInstances u &&
  (if 0x10 ≤ u ∧ u ≤ 0x1B then u - 0x10 < crewCount p
   else if u = uCSS then inst < cssChannels p
   else if u = uVIDEO then inst < videoCount p
   else if u = uLANE then inst < laneCount p
   else if u = uETH then inst < laneCount p || inst == 48
   else true)

/-- An object of the running set. -/
def objFind (s : State) (id : Nat) : Option Object := spFind s.objs id

/-- The running set with an object put in it. -/
def objPut (id : Nat) (o : Object) (s : State) : State := { s with objs := spPut s.objs id o }

/-- The running set without an object. -/
def objDel (id : Nat) (s : State) : State := { s with objs := spDel s.objs id }

/-- An object ID from its family, type and index. -/
def objId (family type index : Nat) : Nat := family * 0x1000000 + type * 0x10000 + index

/-- A function object is RUNNING. -/
def isRunning (s : State) (id : Nat) : Bool := (objFind s id).any fun o => o.st == some .running

/-- A function object is in a state other than STOPPED. -/
def isActive (s : State) (id : Nat) : Bool :=
  (objFind s id).any fun o => o.st == some .running || o.st == some .starting || o.st == some .stopping

/-- The objects of a family and type. -/
def objsOf (s : State) (family type : Nat) : List (Nat × Object) :=
  s.objs.filter fun e => e.1 / 0x10000 == family * 256 + type

/-- The ledger (SYS_CREW_BUDGET): COMMITTED, SPARE and AVAILABLE (R24 to R30). -/
def committed (s : State) : Nat := regF s uSYS 0 0x020 29 20
def spare (s : State) : Nat := regF s uSYS 0 0x020 19 10

/-- 64 × (present crews − failed crews): COMMITTED, SPARE and AVAILABLE are parts of it. -/
def crewCapacity (s : State) : Nat :=
  64 * ((List.range (crewCount s.part)).filter fun n => !bit (failedMask s) n).length

/-- AVAILABLE is the capacity less SPARE. -/
def available (s : State) : Nat := crewCapacity s - spare s

/-- COMMITTED set. -/
def setCommitted (v : Nat) (s : State) : State := regPutF uSYS 0 0x020 29 20 v s

/-- SPARE set. -/
def setSpare (v : Nat) (s : State) : State := regPutF uSYS 0 0x020 19 10 v s

end Sys2Proof.Machine
end

