-- ==== Sys2Proof/Machine/Carrier.lean ====
section
/-!
DEFINITION. A carrier's fields and air-interface timing (04_baseband.md, R111 to R113, R117 to R127; 12_cox_time.md,
Derived strobes).
-/
namespace Sys2Proof.Machine
open Sys2Proof

/-- The object ID of a carrier: type 1 NR, type 2 LTE. -/
def carrierObj (type c : Nat) : Nat := objId 2 type c

/-- The object that holds a carrier identifier, if one does (R114). -/
def carrierFind (s : State) (c : Nat) : Option (Nat × Object) :=
  match objFind s (carrierObj 1 c) with
  | some o => some (carrierObj 1 c, o)
  | none => (objFind s (carrierObj 2 c)).map fun o => (carrierObj 2 c, o)

/-- A carrier object ID names LTE. -/
def isLte (id : Nat) : Bool := id / 0x10000 % 256 == 2

/-- A carrier's numerology; LTE has the timing of µ = 0. -/
def carMu (id : Nat) (b : Bytes) : Nat := if isLte id then 0 else fld b 0 1

/-- Its flags, antennas, layers and windows (R123). -/
def carFlag (b : Bytes) (k : Nat) : Bool := bit (fld b 23 1) k
def carDlAnt (b : Bytes) : Nat := fld b 6 1
def carUlAnt (b : Bytes) : Nat := fld b 7 1
def carUlLayers (b : Bytes) : Nat := fld b 9 1
def carMax (b : Bytes) : Nat := fld b 10 2
def carDlAdvance (b : Bytes) : Nat := fld b 40 2 * 1000
def carUlWindowNs (b : Bytes) : Nat := fld b 42 2 * 1000
def carMantissa (b : Bytes) : Nat := fld b 44 1
def carUlWindow (b : Bytes) : Nat := fld b 47 1

/-- Slot length in nanoseconds. -/
def slotNs (mu : Nat) : Nat := 1000000 / 2 ^ mu

/-- The scheduling lead in slots (R141). -/
def lead (mu : Nat) : Nat := if mu = 0 then 2 else if mu = 1 then 3 else if mu = 2 then 4 else 6

/-- The start of frame 0 in short-form nanoseconds (R127). -/
def frame0 (b : Bytes) : Int := 315964819000000000 + toS 64 (fld b 24 8)

/-- The start of slot `n`, counted from frame 0. -/
def slotStart (id : Nat) (b : Bytes) (n : Nat) : Int := frame0 b + (n * slotNs (carMu id b) : Nat)

/-- The start of symbol `k` within slot `n` in nanoseconds, rounded down: 2,192 samples of 30.72 MHz / 2^-µ each, and
16 more on the first symbol of each half subframe (TS 38.211; Derived strobes). Symbol 14 is the slot's end. -/
def symbolOffset (mu n k : Nat) : Nat :=
  let q := n % 2 ^ mu
  let long := fun (l : Nat) => l = 0 ∨ l = 7 * 2 ^ mu
  let extra := ((List.range k).filter fun j => long (q * 14 + j)).length
  (k * 2192 + 16 * 2 ^ mu * extra) * 15625 / (480 * 2 ^ mu)

/-- T_k of slot `n`. -/
def symbolStart (id : Nat) (b : Bytes) (n k : Nat) : Int := slotStart id b n + (symbolOffset (carMu id b) n k : Nat)

/-- The slot in progress at a short-form time, none before frame 0. -/
def slotAt (id : Nat) (b : Bytes) (t : Nat) : Option Nat :=
  let d := (t : Int) - frame0 b
  if d < 0 then none else some (d.toNat / slotNs (carMu id b))

/-- The first frame boundary at least 2 ms after admission (R129). -/
def carrierStartAt (b : Bytes) (admitted : Nat) : Int :=
  let d := (admitted : Int) + 2000000 - frame0 b
  frame0 b + (d + 9999999) / 10000000 * 10000000

/-- The SFN of slot `n`: frames of 10 ms since frame 0, modulo 1,024 (R127). -/
def sfn (id : Nat) (b : Bytes) (n : Nat) : Nat := n / (10 * 2 ^ carMu id b) % 1024

/-- The release of a stage of slot `n` where the clock alone gives it, and its deadline (R142); an ingest's deadline counts
from the completion of its symbol packet, `t`. -/
def stageRelease (id : Nat) (b : Bytes) (n : Nat) : Stage → Option Int
  | .scheduling => some (slotStart id b n - (lead (carMu id b) * slotNs (carMu id b) : Nat))
  | _ => none
def stageDeadline (id : Nat) (b : Bytes) (n : Nat) (t : Int) : Stage → Int
  | .scheduling => slotStart id b (n + 1) - (lead (carMu id b) * slotNs (carMu id b) : Nat)
  | .encoding => slotStart id b n - carDlAdvance b - (slotNs (carMu id b) / 4 : Nat)
  | .modulation k => symbolStart id b n k - carDlAdvance b - 10000
  | .cplane => slotStart id b n - carDlAdvance b - 125000
  | .ingest _ => t + 20000
  | .estimation => slotStart id b (n + 1) + (slotNs (carMu id b) / 2 : Nat)
  | .detection => slotStart id b (n + 1) + (slotNs (carMu id b) / 2 : Nat)
  | .ldpc => slotStart id b (n + 2)
  | .uci => slotStart id b (n + 2)
  | .macUplink => slotStart id b (n + 4)

/-- A stage of slot `n` still to be done. -/
def stageRun (id : Nat) (b : Bytes) (n : Nat) (t : Int) (st : Stage) : StageRun :=
  { stage := st, slot := n, release := stageRelease id b n st, deadline := stageDeadline id b n t st }

/-- Resource blocks of an NR bandwidth in MHz (TS 38.101-1 and 38.101-2), 0 where the numerology has none. -/
def nrRbs (mu bw : Nat) : Nat :=
  let t : List (Nat × Nat) :=
    if mu = 0 then [(5, 25), (10, 52), (15, 79), (20, 106), (25, 133), (30, 160), (40, 216), (50, 270)]
    else if mu = 1 then
      [(5, 11), (10, 24), (15, 38), (20, 51), (25, 65), (30, 78), (40, 106), (50, 133), (60, 162), (70, 189), (80, 217),
       (90, 245), (100, 273)]
    else if mu = 2 then
      [(10, 11), (15, 18), (20, 24), (25, 31), (30, 38), (40, 51), (50, 65), (60, 79), (70, 93), (80, 107), (90, 121),
       (100, 135)]
    else [(50, 32), (100, 66), (200, 132), (400, 264)]
  ((t.find? (·.1 == bw)).map (·.2)).getD 0

/-- Resource blocks at µ = 2 in FR2-1. -/
def nrRbsFr2 (bw : Nat) : Nat :=
  (([(50, 66), (100, 132), (200, 264)].find? (·.1 == bw)).map (·.2)).getD 0

/-- The ARFCN lies in FR2-1 (24,250 MHz and up: NR-ARFCN 2,016,667 and up). -/
def isFr2 (b : Bytes) : Bool := 2016667 ≤ fld b 12 4

/-- Resource blocks of one direction, its bandwidth field at `o`. -/
def carRb (id : Nat) (b : Bytes) (o : Nat) : Nat :=
  let bw := fld b o 2
  if isLte id then (([(14, 6), (30, 15), (50, 25), (100, 50), (150, 75), (200, 100)].find? (·.1 == bw)).map (·.2)).getD 0
  else if isFr2 b then (if fld b 0 1 = 2 then nrRbsFr2 bw else nrRbs 3 bw)
  else nrRbs (fld b 0 1) bw

/-- N_RB, the larger of the two directions. -/
def nRb (id : Nat) (b : Bytes) : Nat := max (carRb id b 2) (carRb id b 4)

/-- Cells of an LTE object (R115). -/
def lteCells (id : Nat) (b : Bytes) : Nat := if isLte id then (if carFlag b 4 then 2 else 1) else 0

/-- The crew cost of a carrier (R117). -/
def carrierCost (id : Nat) (b : Bytes) : Nat :=
  let w := max (fld b 2 2) (fld b 4 2)
  let a := max (carDlAnt b) (carUlAnt b)
  if isLte id then
    let g := if a ≤ 2 then 4 else if a ≤ 4 then 8 else 16
    ceilDiv (g * w) 200 * lteCells id b
  else
    let f := if a ≤ 2 then 8 else if a ≤ 4 then 16 else if a ≤ 8 then 24 else if a ≤ 16 then 40 else if a ≤ 32 then 64 else 96
    max 2 (ceilDiv (f * w) 100)

/-- N_FFT: the smallest power of two, at least 256, above 12 × N_RB (R119). -/
def nFft (rb : Nat) : Nat :=
  ([256, 512, 1024, 2048, 4096, 8192].find? (12 * rb < ·)).getD 8192

/-- The stream cost of one direction in quarter streams (R119): antennas × ceil(4 Fs / 122.88 Msps). -/
def streamCost (id : Nat) (b : Bytes) (down : Bool) : Nat :=
  let rb := carRb id b (if down then 2 else 4)
  (if down then carDlAnt b else carUlAnt b) * ceilDiv (4 * nFft rb * 15 * 2 ^ carMu id b) 122880

/-- The cell cost (R120). -/
def cellCost (id : Nat) (b : Bytes) : Nat :=
  (carUlAnt b * carUlWindow b + carDlAnt b * 2) * ceilDiv (3 * nRb id b) 16

/-- HARQ soft buffers in bytes (R121). -/
def harqBytes (id : Nat) (b : Bytes) : Nat := 64 * carUlLayers b * 12 * carRb id b 4 * 14 * 8

/-- One entry of the antenna map. -/
structure AntEntry where
  port : Nat
  dir : Nat
  eaxc : Nat
  ant : Nat
  deriving DecidableEq, Repr

/-- The antenna map of a carrier body. -/
def antMap (b : Bytes) : List AntEntry :=
  (List.range ((b.length - 80) / 8)).map fun k =>
    let e := b.drop (80 + 8 * k)
    { port := fld e 0 1, dir := fld e 1 1, eaxc := fld e 2 2, ant := fld e 4 1 }

/-- The load of one antenna stream in bits per second (R122): 14 × 1,000 × 2^µ symbols per second. -/
def streamLoad (id : Nat) (b : Bytes) (rb : Nat) : Nat :=
  (rb * (24 * carMantissa b + 4) + 512) * 14000 * 2 ^ carMu id b

/-- Slot `n` and symbol `k` carry the uplink: every symbol for FDD; by the pattern for TDD. The LTE configurations are
those of TS 36.211. -/
def isUplink (id : Nat) (b : Bytes) (n k : Nat) : Bool :=
  if fld b 1 1 = 1 then true
  else if isLte id then
    let pat : List (List Nat) := [[2,3,4,7,8,9], [2,3,7,8], [2,7], [2,3,4], [2,3], [2], [2,3,4,7,8]]
    let special := (n % 10 == 1) || (n % 10 == 6 && [0, 1, 2, 6].contains (fld b 32 1))
    let cfg := fld b 33 1
    (pat.getD (fld b 32 1) []).contains (n % 10) ||
      (special && (if cfg ≤ 4 then 13 ≤ k else if cfg = 10 then 8 ≤ k else 12 ≤ k))
  else
    let p := fld b 32 1
    let q := n % p
    let dl := fld b 33 1
    let ul := fld b 36 1
    p - ul ≤ q || (q == dl && dl + ul < p && 14 - fld b 35 1 ≤ k)

/-- A carrier is RUNNING. -/
def anyCarrierRunning (s : State) : Bool :=
  (objsOf s 2 1 ++ objsOf s 2 2).any fun e => e.2.st == some .running

/-- Functions whose costs are committed: every one not STOPPED. -/
def activeOf (s : State) (family type : Nat) : List (Nat × Object) :=
  (objsOf s family type).filter fun e => e.2.st == some .running || e.2.st == some .starting || e.2.st == some .stopping

/-- The carriers whose costs are committed. -/
def activeCarriers (s : State) : List (Nat × Object) := activeOf s 2 1 ++ activeOf s 2 2

end Sys2Proof.Machine
end

