-- ==== Sys2Proof/Machine/Mem.lean ====
section
/-!
DEFINITION. Memory as stored: the canonical list of bytes, the error patterns of code words, and Codes S and D
(13_memory_ecc.md, R455 to R461, R472).
-/
namespace Sys2Proof.Machine
open Sys2Proof

/-- The bases of the address map (01_architecture.md, Address map). -/
abbrev spmBase : Nat := 0x010000000000
abbrev setAlias : Nat := 0x001000000000
abbrev clrAlias : Nat := 0x002000000000
abbrev cellBase : Nat := 0x014000000000
abbrev regBase : Nat := 0x018000000000
abbrev outBase : Nat := 0x020000000000

/-- Where an address lies (Address map). -/
inductive Region where
  | sdram
  /-- crew, offset in its scratchpad -/
  | spm (crew off : Nat)
  /-- bit-set (true) or bit-clear alias of a crew's scratchpad -/
  | aliasW (set : Bool) (crew off : Nat)
  | cell
  | reg (unit inst off : Nat)
  | outbound (off : Nat)
  | nothing
  deriving DecidableEq, Repr

/-- The region of an address; an address in no region is `nothing` (R18). -/
def regionOf (a : Nat) : Region :=
  if a < 0x4000000000 then .sdram
  else if spmBase ≤ a ∧ a < spmBase + 12 * 0x1000000 then
    (if (a - spmBase) % 0x1000000 < 0x800000 then .spm ((a - spmBase) / 0x1000000) ((a - spmBase) % 0x1000000)
     else .nothing)
  else if spmBase + setAlias ≤ a ∧ a < spmBase + setAlias + 12 * 0x1000000 then
    (if (a - spmBase - setAlias) % 0x1000000 < 0x800000 then
       .aliasW true ((a - spmBase - setAlias) / 0x1000000) ((a - spmBase - setAlias) % 0x1000000) else .nothing)
  else if spmBase + clrAlias ≤ a ∧ a < spmBase + clrAlias + 12 * 0x1000000 then
    (if (a - spmBase - clrAlias) % 0x1000000 < 0x800000 then
       .aliasW false ((a - spmBase - clrAlias) / 0x1000000) ((a - spmBase - clrAlias) % 0x1000000) else .nothing)
  else if cellBase ≤ a ∧ a < cellBase + 0x4000000 then .cell
  else if regBase ≤ a ∧ a < regBase + 0x100000000 then
    .reg ((a - regBase) / 0x1000000) ((a - regBase) / 0x10000 % 256) ((a - regBase) % 0x10000)
  else if outBase ≤ a ∧ a < outBase + 0x10000000000 then .outbound (a - outBase)
  else .nothing

/-- What a byte nothing has written reads as, where the spec gives it: zero in a scratchpad (R242). SDRAM and Spool
cells hold what they hold after power-up (R455, R478), which the spec does not give. -/
def defaultByte (a : Nat) : Option Byte :=
  match regionOf a with
  | .spm _ _ => some 0
  | _ => none

/-- The byte stored at an address. -/
def memByte (m : List Host.Cell) (a : Nat) : Byte :=
  match spFind m a with
  | some b => b
  | none => (defaultByte a).getD (Config.powerUpByte a)

/-- Memory with one byte stored, in canonical form: a byte equal to what an unlisted address reads as is not
listed. -/
def memPut (m : List Host.Cell) (a : Nat) (b : Byte) : List Host.Cell :=
  if defaultByte a = some b then spDel m a else spPut m a b

/-- The canonical form of memory: addresses strictly rising and no redundant entry. -/
def Memory.wf (m : List Host.Cell) : Bool :=
  match m with
  | [] => true
  | [(a, b)] => defaultByte a != some b
  | (a, b) :: (c, d) :: r => defaultByte a != some b && a < c && Memory.wf ((c, d) :: r)

/-- `n` bytes from an address, as stored. -/
def memBytes (m : List Host.Cell) (a : Nat) : Nat → Bytes
  | 0 => []
  | n + 1 => memByte m a :: memBytes m (a + 1) n

/-- Memory with a byte string stored from an address. -/
def memPutAll (m : List Host.Cell) (a : Nat) : Bytes → List Host.Cell
  | [] => m
  | b :: bs => memPutAll (memPut m a b) (a + 1) bs

/-- The address of the code word holding an address. -/
def wordOf (a : Nat) : Nat := a / 32 * 32

/-- A code word of SDRAM that nothing has written since power-up (R455). -/
def unwritten (s : State) (w : Nat) : Bool := regionOf w == .sdram && (spFind s.mem w).isNone

/-- How a stored code word differs from an encoding. -/
def errPat (s : State) (w : Nat) : ErrPat :=
  match spFind s.ecc w with
  | some p => p
  | none => if unwritten s w then { data := Config.powerUpData w, check := Config.powerUpCheck w } else {}

/-- A code word stored with an error pattern, all zero for a good word. -/
def putErr (w : Nat) (p : ErrPat) (s : State) : State := { s with ecc := spSet {} s.ecc w p }

/-- A good code word (or part of one) stored. -/
def storeRaw (a : Nat) (bs : Bytes) (s : State) : State := { s with mem := memPutAll s.mem a bs }

/-- The 16-bit values of weight 3 in rising order (R456). -/
def weight3 : List Nat :=
  (List.range 16).flatMap fun h => (List.range h).flatMap fun m => (List.range m).map fun l => 2 ^ h + 2 ^ m + 2 ^ l

/-- The XOR of the columns of the set bits of a mask. -/
def xorCols : List Nat → Nat → Nat
  | [], _ => 0
  | c :: cs, v => if v % 2 = 1 then Nat.xor c (xorCols cs (v / 2)) else xorCols cs (v / 2)

/-- The Code S syndrome of an error pattern (R456). -/
def synS (p : ErrPat) : Nat :=
  Nat.xor (xorCols (weight3.take 256) p.data.toNat)
    (Nat.xor (p.check.toNat % 0x10000)
      (xorCols ((weight3.take 16).map (0x8000 + ·)) p.axor.toNat))

/-- Multiplication by α in GF(2^16), field polynomial x^16 + x^12 + x^3 + x + 1 (R460). -/
def gfX (v : Nat) : Nat := if v < 0x8000 then v * 2 else Nat.xor (v * 2 % 0x10000) 0x100B

/-- Multiplication by α^n. -/
def gfXn : Nat → Nat → Nat
  | 0, v => v
  | n + 1, v => gfXn n (gfX v)

/-- Symbol `d` of an error pattern: positions 0 to 15 data, 16 to 19 check, 20 the address bits [20:5]. -/
def symOf (p : ErrPat) (d : Nat) : Nat :=
  if d < 16 then p.data.toNat / 2 ^ (16 * d) % 0x10000
  else if d < 20 then p.check.toNat / 2 ^ (16 * (d - 16)) % 0x10000
  else p.axor.toNat

/-- The Code D syndrome S_j of an error pattern (R460). -/
def synD (p : ErrPat) (j : Nat) : Nat :=
  (List.range 21).foldl (fun acc i => Nat.xor acc (gfXn (i * j) (symOf p i))) 0

/-- The one stored position whose error explains the syndromes (R461). -/
def locateD (p : ErrPat) : Option Nat :=
  (List.range 20).find? fun d =>
    synD p 0 != 0 && gfXn d (synD p 0) == synD p 1 && gfXn (2 * d) (synD p 0) == synD p 2 &&
      gfXn (3 * d) (synD p 0) == synD p 3

/-- What a decoder makes of a stored word: the XOR between the data written and the data returned. -/
inductive Decoded where
  | good (x : BitVec 256)
  /-- corrected, at a device position (Code D) -/
  | corrected (x : BitVec 256) (pos : Nat)
  | bad
  deriving DecidableEq, Repr

/-- Code S decoding of an error pattern (R457). -/
def decodeS (p : ErrPat) : Decoded :=
  let y := synS p
  if y = 0 then .good p.data
  else match (weight3.take 256).findIdx? (· == y) with
  | some i => .corrected (p.data ^^^ (1#256 <<< i)) 0
  | none => if (List.range 16).any fun j => y == 2 ^ j then .corrected p.data 0 else .bad

/-- Code D decoding of an error pattern (R461). -/
def decodeD (p : ErrPat) : Decoded :=
  if synD p 0 = 0 ∧ synD p 1 = 0 ∧ synD p 2 = 0 ∧ synD p 3 = 0 then .good p.data
  else match locateD p with
  | some d =>
    if d < 16 then .corrected (p.data ^^^ (BitVec.ofNat 256 (synD p 0) <<< (16 * d))) d else .corrected p.data d
  | none => .bad

/-- A byte string of 32 bytes XORed with a 256-bit mask. -/
def xorWord (bs : Bytes) (x : BitVec 256) : Bytes :=
  leBytes 32 (Nat.xor (leNat (fit 32 bs)) x.toNat)

/-- Where SDRAM address `a` lies: its channel, channel-local address and rank (R453); none above the populated
capacity. -/
def sdramAt (s : State) (a : Nat) : Option (Nat × Nat × Nat) :=
  let n := s.memChans.length
  if n = 0 ∨ a ≥ n * s.memGib * 0x40000000 then none
  else
    let ch := s.memChans.getD (a / 128 % n) 0
    let loc := a / (128 * n) * 128 + a % 128
    let rank := if regF s uMEM ch 0x000 9 8 = 2 ∧ loc ≥ s.memGib * 0x40000000 / 2 then 1 else 0
    some (ch, loc, rank)

/-- The error pattern a read of SDRAM sees: the stored one, with a failed device's symbol complemented while
MEM_DEVICE is injected on it (R645, KIND 1). -/
def seenPat (s : State) (w ch rank : Nat) : ErrPat :=
  s.power.injections.foldl (fun p i =>
    if i.kind = 1 ∧ i.target = ch ∧ i.sub / 32 % 2 = rank then
      let d := i.sub % 32
      if d < 16 then { p with data := p.data ^^^ (0xFFFF#256 <<< (16 * d)) }
      else if d < 20 then { p with check := p.check ^^^ (0xFFFF#64 <<< (16 * (d - 16))) }
      else p
    else p) (errPat s w)

/-- The first byte of the regions reserved at the top of SDRAM: the key store and below it the tag registry (R454). -/
def sdramTop (s : State) : Nat := s.memChans.length * s.memGib * 0x40000000
def keyStoreBase (s : State) : Nat := sdramTop s - 0x1000000
def tagRegBase (s : State) : Nat :=
  keyStoreBase s - (if cssChannels s.part = 0 then 0 else 0x800000)

end Sys2Proof.Machine
end

