-- ==== Sys2Proof/Machine/PowerDomain.lean ====
section
/-!
DEFINITION. Power domains: which domain a unit lies in, wake requests and their accounting (18_power.md, R602, R610 to
R613, R620), and whether an access reaches a unit or waits at its gateway (R536, R537, R615).
-/
namespace Sys2Proof.Machine
open Sys2Proof

/-- The domain a unit instance lies in; none for what never leaves RUN (R602). -/
def domainOf (u inst : Nat) : Option Nat :=
  if 0x10 ≤ u ∧ u ≤ 0x1B then some (u - 0x10)
  else if u = uFEC then some (if inst < 24 then 12 else 13)
  else if u = uCIPHER then some 14
  else if u = uFRONTHAUL then some 15
  else if u = uCSS then some 16
  else if u = uVIDEO then some (17 + inst / 2)
  else if u = uCOMPOSE then some 21
  else if u = uFWD then some 22
  else if u = uAUDIO then some 23
  else if u = uHSP then some 24
  else if u = uMEM then some (25 + inst)
  else if u = uLANE then some (33 + inst / 12)
  else if u = uETH then (if inst < 48 then some (33 + inst / 12) else none)
  else if u = uPCIE then some 37
  else none

/-- The first Weft node of a domain (R602). -/
def domainNode (d : Nat) : Nat :=
  if d < 12 then 8 + 2 * d else if d = 12 then 48 else if d = 13 then 52 else if d = 14 then 53 else if d = 15 then 4
  else if d = 16 then 6 else if d < 21 then 39 + d else if d = 21 then 60 else if d = 22 then 61 else if d = 23 then 54
  else if d = 24 then 55 else if d < 33 then 7 + d else if d < 37 then d - 33 else 5

/-- The deepest state a domain may enter (R602). -/
def domainLowest (d : Nat) : PState :=
  if d = 24 ∨ d = 37 then .doze else if 25 ≤ d ∧ d ≤ 32 then .hold else .off

/-- A domain whose units are all absent from the part (R603). -/
def domainAbsent (p : Part) (d : Nat) : Bool :=
  if d < 12 then crewCount p ≤ d
  else if d = 16 then cssChannels p == 0
  else if 17 ≤ d ∧ d ≤ 20 then videoCount p == 0
  else if 33 ≤ d ∧ d ≤ 36 then laneCount p ≤ 12 * (d - 33)
  else false

/-- A power state's depth. -/
def depth : PState → Nat
  | .run => 0 | .doze => 1 | .hold => 2 | .off => 3

/-- The power state of a depth. -/
def ofDepth : Nat → PState
  | 0 => .run | 1 => .doze | 2 => .hold | _ => .off

/-- A domain. -/
def dom (s : State) (d : Nat) : Domain := spGet {} s.power.domains d

/-- A domain set. -/
def domPut (d : Nat) (x : Domain) (s : State) : State :=
  { s with power := { s.power with domains := spSet {} s.power.domains d x } }

/-- A refusal (kind 1) or an abort (kind 2) counted and recorded (R620). -/
def domAccount (d kind : Nat) (target : PState) (unit inst : Nat) (s : State) : State :=
  let s := if kind = 1 then regBump uPOWER 0 (0x108 + 0x10 * d) 31 16 1 s
           else regBump uPOWER 0 (0x108 + 0x10 * d) 15 0 1 s
  regPut uPOWER 0 (0x10C + 0x10 * d)
    (BitVec.ofNat 32 (kind * 2 ^ 30 + depth target * 2 ^ 28 + unit % 256 * 2 ^ 16 + inst % 256 * 2 ^ 8)) s

/-- The entry a domain is in may still be aborted: a DOZE entry, or before the point of no return (R610, R612). -/
def abortable (x : Domain) : Bool :=
  match x.trans with
  | some (.entry .doze _) => true
  | some (.entry _ n) => n < 6
  | _ => false

/-- The address of a bank's last code word (R616). -/
def sentinelAddr (crew bank : Nat) : Nat := spmBase + crew * 0x1000000 + bank * 0x40000 + 0x3FFE0

/-- The saved last words of a crew's banks put back as they were (R611, R618). -/
def putBack (crew : Nat) (rs : List Retained) (s : State) : State :=
  rs.foldl (fun s r => putErr (sentinelAddr crew r.bank) r.err (storeRaw (sentinelAddr crew r.bank) r.saved s)) s

/-- A wake begins (R614). -/
def beginWake (d : Nat) (s : State) : State :=
  let x := dom s d
  domPut d { x with trans := some (.wake x.st 0 s.now), wakeNext := false, idleSince := none } s

/-- How a request ended, kept for its POWER_SET. -/
def powerEnd (d : Nat) (target : PState) (status unit inst : Nat) (s : State) : State :=
  { s with power := { s.power with
      ended := s.power.ended ++ [{ dom := d, target := target, status := status, unit := unit, inst := inst }] } }

/-- A refused request: counted, recorded, and its POWER_SET ends with POWER_REFUSED (R609, R620, R630). -/
def powerRefuse (d : Nat) (target : PState) (unit inst : Nat) (s : State) : State :=
  powerEnd d target 0x0701 unit inst (domAccount d 1 target unit inst s)

/-- An entry aborted before its point of no return: the domain is in RUN, or wakes when it came from HOLD
(R611, R612). -/
def abortEntry (d : Nat) (unit inst : Nat) (s : State) : State :=
  let x := dom s d
  match x.trans with
  | some (.entry dest _) =>
    let s := powerEnd d dest 0x0702 unit inst (domAccount d 2 dest unit inst s)
    if x.st = .hold then beginWake d s
    else putBack d x.retained (domPut d { x with st := .run, trans := none, idleSince := none, retained := [] } s)
  | _ => s

/-- A wake request for RUN from a source other than a command (R612, R613). A pending request for a deeper state finds
the domain not idle once an abort has ended the transition, and is refused; where a wake follows at once it starts after that. -/
def wakeRequestBase (d unit inst : Nat) (s : State) : State :=
  let x := dom s d
  if domainAbsent s.part d || x.fault || x.shed then s
  else match x.trans with
  | some (.entry _ _) =>
    if abortable x then
      let s := abortEntry d unit inst s
      if x.st = .hold then s
      else match x.pend with
      | some p => powerRefuse d p unit inst (domPut d { dom s d with pend := none } s)
      | none => s
    else domPut d { x with wakeNext := true } s
  | some (.wake _ _ _) => s
  | none => if x.st = .run then s else beginWake d s

/-- A domain's units work: it is in RUN and in no transition. -/
def awake (s : State) (d : Option Nat) : Bool :=
  match d with
  | none => true
  | some d => (dom s d).st == .run && (dom s d).trans == none

/-- Whether an access to a unit goes through, waits at the gateway, or is answered with a bus error. -/
inductive Gate where
  | go | wait | err
  deriving DecidableEq, Repr

/-- An access reaching a domain: a MEM domain's idle time begins anew (R606). -/
def touch (d : Nat) (s : State) : State :=
  if 25 ≤ d ∧ d ≤ 32 ∧ (dom s d).idleSince.isSome then domPut d { dom s d with idleSince := none } s else s

/-- A head flit reaches the gateway of domain `d` (R536, R537, R615): delivered in RUN; an entry before its point of
no return is aborted and the packet delivered; otherwise the packet waits, WAKE_HELD is set and a wake is
requested. -/
def reach (d : Option Nat) (s : State) : Gate × State :=
  match d with
  | none => (.go, s)
  | some d =>
    let x := dom s d
    let node := domainNode d
    if domainAbsent s.part d then (.go, s)
    else if x.fault then (.err, s)
    else if x.st = .run ∧ x.trans = none then (.go, touch d s)
    else if x.st ≠ .hold ∧ abortable x ∧ !x.shed then (.go, touch d (wakeRequestBase d uWEFT node s))
    else (.wait, wakeRequestBase d uWEFT node (regPut uWEFT node 0x080 0x40000000 s))

end Sys2Proof.Machine
end

