-- ==== Sys2Proof/Machine/Bus.lean ====
section
/-!
DEFINITION. Accesses to SDRAM, scratchpad and Spool cell memory by code words: reservation, ownership, error checking
and accounting (R18, R19, R243 to R259, R453 to R473, R619).
-/
namespace Sys2Proof.Machine
open Sys2Proof

/-- How an access ends. `wait`: it is held at a gateway or a bank and has not happened yet. -/
inductive Bus where
  | ok | busError | uncorrectable | wait
  deriving DecidableEq, Repr

/-- The crew control instance's register space of a crew. -/
abbrev crewCtl : Nat := 8

/-- The OWNER code in force at a bank (R245). -/
def bankOwner (s : State) (crew bank : Nat) : Nat := regF s (uCREW + crew) crewCtl (0x100 + 4 * bank) 7 0

/-- The owner code under which an initiator's loads and stores reach a bank of `crew`; 0x100 when none does. -/
def ownerCode (crew : Nat) (i : Initiator) : Nat :=
  match coreOf i with
  | some c => if c / 8 = crew then c % 8 else 0x50 + c
  | none =>
    if i.unit.toNat = uDMA then 0x10 + i.inst.toNat % 64
    else if i.unit.toNat = uPCIE ∨ i.unit.toNat = uSYS then 0xC0 else 0x100

/-- A refused access counted at its bank and reported (R243). -/
def bankDenied (crew bank : Nat) (i : Initiator) (a : Nat) (s : State) : State :=
  raiseLim second crew 0x1004 (uCREW + crew) 8 1
    ([BitVec.ofNat 8 bank, BitVec.ofNat 8 (bankOwner s crew bank)] ++ pairBytes i ++ zeros 4 ++ leBytes 8 a)
    (regBump (uCREW + crew) crewCtl (0x100 + 4 * bank) 23 16 1 s)

/-- What a bank does with an access of owner code `code` (R243, R246). -/
def bankCheck (s : State) (crew bank code : Nat) : Bus :=
  match spFind s.bankPend (crew * 32 + bank) with
  | some p => if p = code then .wait else .busError
  | none => if bankOwner s crew bank = code then .ok else .busError

/-- POISONED of a bank (R619). -/
def poisoned (s : State) (crew bank : Nat) : Bool := bit (regGet s (uCREW + crew) crewCtl 0x024).toNat bank

/-- A correction in an on-chip SRAM (R458, R474), `d` where it is counted. -/
def sramCe (unit inst a : Nat) (s : State) : State :=
  let s := if 0x10 ≤ unit ∧ unit ≤ 0x1B then regBump unit crewCtl 0x01C 31 0 1 s else s
  raiseLim second (unit * 256 + inst) 0x0807 unit inst 0 (zeros 8 ++ leBytes 8 a) s

/-- An uncorrectable error in an on-chip SRAM (R458, R474). -/
def sramUe (unit inst a : Nat) (i : Initiator) (s : State) : State :=
  let s := if 0x10 ≤ unit ∧ unit ≤ 0x1B then regBump unit crewCtl 0x020 31 0 1 s else s
  raise 0x0808 unit inst 2 (pairBytes i ++ zeros 6 ++ leBytes 8 a) s

/-- A channel's bookkeeping. -/
def memCh (s : State) (ch : Nat) : MemCh := spGet {} s.memc ch

/-- A correction of a device position counted; DEV_LIMIT of them within one second raise MEM_DEVICE_SUSPECT
(R462). -/
def memDevCount (ch rank pos : Nat) (s : State) : State :=
  let c := memCh s ch
  let k := rank * 32 + pos
  let limit := regF s uMEM ch 0x010 31 24
  let times := ((spGet [] c.recent k).filter fun t => s.now < t + second) ++ [s.now]
  let times := times.drop (times.length - 256)
  let hit := times.length ≥ limit && !c.suspect.contains k
  let c := { c with devCe := spSet 0 c.devCe k (satN 0xFFFFFFFF (spGet 0 c.devCe k + 1))
                    recent := spSet [] c.recent k times
                    suspect := if hit then c.suspect ++ [k] else c.suspect }
  let s := { s with memc := spSet {} s.memc ch c }
  if hit then raise 0x0803 uMEM ch 1 [BitVec.ofNat 8 pos, BitVec.ofNat 8 rank] s else s

/-- An SDRAM correction counted, recorded and reported (R469). -/
def memCe (ch rank pos w : Nat) (s : State) : State :=
  let s := regBump uMEM ch 0x004 31 0 1 s
  let s := regPut uMEM ch 0x018 (BitVec.ofNat 32 (w / 32 * 32)) s
  let s := regPut uMEM ch 0x01C
    (BitVec.ofNat 32 (0x80000000 + rank * 2 ^ 29 + pos * 2 ^ 24 + w / 2 ^ 32 % 0x10000)) s
  let s := memDevCount ch rank pos s
  raiseLim second ch 0x0801 uMEM ch 0
    ([BitVec.ofNat 8 pos, BitVec.ofNat 8 rank] ++ zeros 6 ++ leBytes 8 w) s

/-- An SDRAM uncorrectable error counted, recorded when no earlier one is held, and reported (R469). -/
def memUe (ch rank w : Nat) (merge : Bool) (i : Initiator) (s : State) : State :=
  let s := regBump uMEM ch 0x008 31 0 1 s
  let s := if regF s uMEM ch 0x024 31 31 = 1 then s
    else regPut uMEM ch 0x024
      (BitVec.ofNat 32 (0x80000000 + b2n merge * 2 ^ 30 + rank * 2 ^ 29 + w / 2 ^ 32 % 0x10000))
      (regPut uMEM ch 0x020 (BitVec.ofNat 32 (w / 32 * 32)) s)
  raise 0x0802 uMEM ch 2
    (pairBytes i ++ [BitVec.ofNat 8 rank, BitVec.ofNat 8 (b2n merge)] ++ zeros 4 ++ leBytes 8 w) s

/-- Whether an SDRAM word is open to an initiator: populated, its channel in service, not reserved to another
(R18, R454, R470). Only the cipher engines read the key store, and nothing writes its words: the commands that set key
slots write `State.keys` (R312). -/
def sdramOpen (s : State) (i : Initiator) (write : Bool) (w : Nat) : Option (Nat × Nat) :=
  match sdramAt s w with
  | none => none
  | some (ch, _, rank) =>
    if regF s uMEM ch 0x000 31 31 = 0 then none
    else if w ≥ keyStoreBase s then
      (if i.unit.toNat = uCIPHER ∧ !write then some (ch, rank) else none)
    else if w ≥ tagRegBase s then (if i.unit.toNat = uCSS then some (ch, rank) else none)
    else some (ch, rank)

/-- A read of one SDRAM code word that has passed the checks of its path. -/
def sdramRead (i : Initiator) (w ch rank : Nat) (s : State) : Bus × Bytes × State :=
  let p := seenPat s w ch rank
  let raw := memBytes s.mem w 32
  if p = {} then (.ok, raw, s)
  else match decodeD p with
  | .good x => (.ok, xorWord raw x, s)
  | .corrected x pos => (.ok, xorWord raw x, memCe ch rank pos w s)
  | .bad => (.uncorrectable, [], memUe ch rank w false i s)

/-- A read of one on-chip code word under Code S. -/
def sramRead (unit inst : Nat) (i : Initiator) (w : Nat) (s : State) : Bus × Bytes × State :=
  let p := errPat s w
  let raw := memBytes s.mem w 32
  if p = {} then (.ok, raw, s)
  else match decodeS p with
  | .good x => (.ok, xorWord raw x, s)
  | .corrected x _ => (.ok, xorWord raw x, sramCe unit inst w s)
  | .bad => (.uncorrectable, [], sramUe unit inst w i s)

/-- A read of the scratchpad word at `off` of a crew by an access of owner code `code`; `count` when a refusal
increments DENIED (R243). -/
def spmRead (i : Initiator) (code : Nat) (count : Bool) (w crew off : Nat) (s : State) : Bus × Bytes × State :=
  if !crewUsable s crew then (.busError, [], s)
  else match reach (some crew) s with
  | (.err, s) => (.busError, [], s)
  | (.wait, s) => (.wait, [], s)
  | (.go, s) =>
    match bankCheck s crew (off / 0x40000) code with
    | .ok =>
      if poisoned s crew (off / 0x40000) then (.busError, [], s)
      else sramRead (uCREW + crew) 8 i w s
    | .wait => (.wait, [], s)
    | _ => (.busError, [], if count then bankDenied crew (off / 0x40000) i w s else s)

/-- A read of the code word holding address `w`, by an initiator. -/
def readWord (i : Initiator) (w : Nat) (s : State) : Bus × Bytes × State :=
  let w := wordOf w
  match regionOf w with
  | .sdram =>
    match sdramOpen s i false w with
    | none => (.busError, [], s)
    | some (ch, rank) =>
      match reach (some (25 + ch)) s with
      | (.err, s) => (.busError, [], s)
      | (.wait, s) => (.wait, [], s)
      | (.go, s) => sdramRead i w ch rank s
  | .spm crew off => spmRead i (ownerCode crew i) true w crew off s
  | .cell => sramRead uSPOOL 0 i w s
  | .outbound off =>
    if regF s uPCIE 0 0x00C 0 0 = 1 then
      (.ok, (List.range 32).map fun k =>
        Config.hostByte ((regGet s uPCIE 0 0x008).toNat * 2 ^ 32 + (regGet s uPCIE 0 0x004).toNat + off + k) s.free,
       { s with free := s.free + 1 })
    else (.busError, [], s)
  | _ => (.busError, [], s)

/-- A read of `n` consecutive code words from `w`; it stops at the first that fails and gives that word's address. -/
def readWords (i : Initiator) (w : Nat) : Nat → State → Bus × Bytes × Nat × State
  | 0, s => (.ok, [], 0, s)
  | n + 1, s =>
    match readWord i w s with
    | (.ok, b, s) =>
      match readWords i (w + 32) n s with
      | (r, bs, e, s) => (r, b ++ bs, e, s)
    | (r, _, s) => (r, [], w, s)

/-- A read of `n` bytes from any address, as the code words that hold them. -/
def readBytes (i : Initiator) (a n : Nat) (s : State) : Bus × Bytes × Nat × State :=
  match readWords i (wordOf a) ((a + n + 31) / 32 - a / 32) s with
  | (.ok, bs, e, s) => (.ok, (bs.drop (a % 32)).take n, e, s)
  | (r, _, e, s) => (r, [], e, s)

/-- The error pattern a newly encoded SDRAM word is stored with: the armed flip masks of its channel when it is their
target, which then clear (R472). -/
def memFlip (ch w : Nat) (s : State) : ErrPat × State :=
  let g := fun o => regGet s uMEM ch o
  let target := (g 0x06C).toNat % 0x10000 * 2 ^ 32 + (g 0x068).toNat
  if bit (g 0x070).toNat 31 ∧ target / 32 = w / 32 then
    let data := (List.range 8).foldl (fun acc k => acc + (g (0x040 + 4 * k)).toNat * 2 ^ (32 * k)) 0
    let check := (g 0x060).toNat + (g 0x064).toNat * 2 ^ 32
    ({ data := BitVec.ofNat 256 data, check := BitVec.ofNat 64 check, axor := BitVec.ofNat 16 ((g 0x070).toNat % 0x10000) },
     regPut uMEM ch 0x070 0 ((List.range 10).foldl (fun s k => regPut uMEM ch (0x040 + 4 * k) 0 s) s))
  else ({}, s)

/-- The same for a scratchpad word and its bank group's masks (R472). -/
def spmFlip (crew off : Nat) (s : State) : ErrPat × State :=
  let u := uCREW + crew
  let b := 0x200 + 0x40 * (off / 0x200000)
  let g := fun o => regGet s u crewCtl (b + o)
  if bit (g 0x28).toNat 31 ∧ (g 0x24).toNat / 32 = off / 32 then
    let data := (List.range 8).foldl (fun acc k => acc + (g (4 * k)).toNat * 2 ^ (32 * k)) 0
    ({ data := BitVec.ofNat 256 data, check := BitVec.ofNat 64 ((g 0x20).toNat % 0x10000)
       axor := BitVec.ofNat 16 ((g 0x28).toNat % 0x10000) },
     regPut u crewCtl (b + 0x28) 0 (regPut u crewCtl (b + 0x20) 0
       ((List.range 8).foldl (fun s k => regPut u crewCtl (b + 4 * k) 0 s) s)))
  else ({}, s)

/-- One SDRAM code word encoded and stored. -/
def sdramStore (ch w : Nat) (b : Bytes) (s : State) : State :=
  match memFlip ch w s with
  | (p, s) => putErr w p (storeRaw w (fit 32 b) s)

/-- The words of a burst that a write does not replace, read and written back (R465, R466). -/
def mergeWords (i : Initiator) (ch rank : Nat) : List Nat → State → State
  | [], s => s
  | w :: ws, s =>
    let p := seenPat s w ch rank
    let s :=
      if p = {} then sdramStore ch w (memBytes s.mem w 32) s
      else match decodeD p with
      | .good x => sdramStore ch w (xorWord (memBytes s.mem w 32) x) s
      | .corrected x pos => sdramStore ch w (xorWord (memBytes s.mem w 32) x) (memCe ch rank pos w s)
      | .bad => memUe ch rank w true i s
    mergeWords i ch rank ws s

/-- The words of the burst holding `w` other than those from `lo` below `hi`. -/
def burstRest (w lo hi : Nat) : List Nat :=
  ((List.range 4).map fun k => w / 128 * 128 + 32 * k).filter fun v => v < lo || hi ≤ v

/-- A scratchpad word encoded and stored. -/
def spmStore (crew off w : Nat) (b : Bytes) (s : State) : State :=
  match spmFlip crew off s with
  | (p, s) => putErr w p (storeRaw w (fit 32 b) s)

/-- A write of the scratchpad word at `off` of a crew by an access of owner code `code`. -/
def spmWrite (i : Initiator) (code : Nat) (w crew off : Nat) (b : Bytes) (s : State) : Bus × State :=
  if !crewUsable s crew then (.busError, s)
  else match reach (some crew) s with
  | (.err, s) => (.busError, s)
  | (.wait, s) => (.wait, s)
  | (.go, s) =>
    match bankCheck s crew (off / 0x40000) code with
    | .ok => (.ok, spmStore crew off w b s)
    | .wait => (.wait, s)
    | _ => (.busError, bankDenied crew (off / 0x40000) i w s)

/-- A store to the bit-set or bit-clear alias of a scratchpad word: an indivisible read, modify and write at the bank
(R255 to R258). `n` bytes at `off`, naturally aligned. -/
def aliasStore (i : Initiator) (set : Bool) (crew off : Nat) (bs : Bytes) (s : State) : Bus × State :=
  let n := bs.length
  let w := wordOf (spmBase + crew * 0x1000000 + off)
  if n = 0 ∨ off % n ≠ 0 ∨ !([1, 2, 4, 8, 16, 32].contains n) then (.busError, s)
  else if !crewUsable s crew then (.busError, s)
  else match reach (some crew) s with
  | (.err, s) => (.busError, s)
  | (.wait, s) => (.wait, s)
  | (.go, s) =>
    match bankCheck s crew (off / 0x40000) (ownerCode crew i) with
    | .wait => (.wait, s)
    | .ok =>
      if poisoned s crew (off / 0x40000) then (.busError, s)
      else match sramRead (uCREW + crew) 8 i w s with
      | (.ok, old, s) =>
        let mask := leNat bs * 2 ^ (8 * (off % 32))
        let v := leNat old
        let v' := if set then Nat.lor v mask else Nat.xor v (Nat.land v mask)
        (.ok, spmStore crew (off / 32 * 32) w (leBytes 32 v') s)
      | (_, _, s) => (.busError, s)
    | _ => (.busError, bankDenied crew (off / 0x40000) i w s)

/-- A write of one code word, part of a write of the words from `lo` below `hi`. -/
def writeWord (i : Initiator) (w lo hi : Nat) (b : Bytes) (s : State) : Bus × State :=
  match regionOf w with
  | .sdram =>
    match sdramOpen s i true w with
    | none => (.busError, s)
    | some (ch, rank) =>
      match reach (some (25 + ch)) s with
      | (.err, s) => (.busError, s)
      | (.wait, s) => (.wait, s)
      | (.go, s) =>
        let s := if w = lo ∨ w % 128 = 0 then mergeWords i ch rank (burstRest w lo hi) s else s
        (.ok, sdramStore ch w b s)
  | .spm crew off => spmWrite i (ownerCode crew i) w crew off b s
  | .aliasW set crew off => aliasStore i set crew off (fit 32 b) s
  | .cell => (.ok, putErr w {} (storeRaw w (fit 32 b) s))
  | .outbound off =>
    if regF s uPCIE 0 0x00C 0 0 = 1 then
      (.ok, emit (.hostWrite ((regGet s uPCIE 0 0x008).toNat * 2 ^ 32 + (regGet s uPCIE 0 0x004).toNat + off) (fit 32 b)) s)
    else (.busError, s)
  | _ => (.busError, s)

/-- A write of `n` whole code words from `w`; it stops at the first that fails and gives that word's address. -/
def writeFrom (i : Initiator) (lo hi w : Nat) (bs : Bytes) : Nat → State → Bus × Nat × State
  | 0, s => (.ok, 0, s)
  | n + 1, s =>
    match writeWord i w lo hi (bs.take 32) s with
    | (.ok, s) => writeFrom i lo hi (w + 32) (bs.drop 32) n s
    | (r, s) => (r, w, s)

/-- A write of whole code words at a 32-byte-aligned address; a narrower or misaligned write to SDRAM, scratchpad or
Spool cells returns a bus error and writes nothing (R463). -/
def writeBytes (i : Initiator) (a : Nat) (bs : Bytes) (s : State) : Bus × Nat × State :=
  if a % 32 = 0 ∧ bs.length % 32 = 0 then writeFrom i a (a + bs.length) a bs (bs.length / 32) s
  else match regionOf a with
  | .outbound off =>
    if regF s uPCIE 0 0x00C 0 0 = 1 then
      (.ok, 0, emit (.hostWrite ((regGet s uPCIE 0 0x008).toNat * 2 ^ 32 + (regGet s uPCIE 0 0x004).toNat + off) bs) s)
    else (.busError, a, s)
  | _ => (.busError, a, s)

/-- Whether a write of the code word at `w` by an initiator would be performed at once. -/
def mayWrite (s : State) (i : Initiator) (w : Nat) : Bool :=
  match regionOf w with
  | .sdram => (sdramOpen s i true w).isSome
  | .spm crew off => crewUsable s crew && bankCheck s crew (off / 0x40000) (ownerCode crew i) == .ok
  | .cell => true
  | _ => false

/-- A state left as it was, but for the wake an access that must wait has requested. -/
def waitAt (s0 s1 : State) : State := { s0 with power := s1.power, regs := s1.regs }

/-- Code words whose contents a failed transfer leaves undefined: each takes a free value where `ok` allows a write. -/
def scramble (ok : State → Nat → Bool) : List Nat → State → State
  | [], s => s
  | w :: ws, s =>
    if ok s w then
      let (v, s) := draw s
      scramble ok ws (putErr w {} (storeRaw w (leBytes 32 v) s))
    else scramble ok ws s

end Sys2Proof.Machine
end

