-- ==== Sys2Proof/Machine/Spool.lean ====
section
/-!
DEFINITION. Spool's operations and the commands on them (14_spool_dma.md, R475 to R494, R513, R514).
-/
namespace Sys2Proof.Machine
open Sys2Proof

/-- The handle that stands for no packet. -/
abbrev noHandle : Nat := 0xFFFFFFFF

/-- On-chip cells. -/
abbrev onChip : Nat := 262144

/-- Extension cells present (SPOOL_EXT_CELLS). -/
def extCells (s : State) : Nat := regF s uSPOOL 0 0x010 27 0

/-- SPOOL_EXT_BASE. -/
def extBase (s : State) : Nat :=
  regF s uSPOOL 0 0x00C 15 0 * 2 ^ 32 + regF s uSPOOL 0 0x008 31 20 * 2 ^ 20

/-- The address of a cell (R475). -/
def cellAddr (s : State) (c : Nat) : Nat :=
  if c < onChip then cellBase + 256 * c else extBase s + 256 * (c - onChip)

/-- A packet of Spool, by its handle. -/
def pkt (s : State) (h : Nat) : Option Packet := spFind s.spool.packets h

/-- A packet put in place. -/
def pktPut (h : Nat) (p : Packet) (s : State) : State :=
  { s with spool := { s.spool with packets := spPut s.spool.packets h p } }

/-- A packet's cells freed. -/
def pktFree (h : Nat) (s : State) : State :=
  { s with spool := { s.spool with packets := spDel s.spool.packets h } }

/-- A native queue. -/
def queue (s : State) (q : Nat) : Queue := spGet {} s.spool.queues q

/-- A native queue put in place. -/
def queuePut (q : Nat) (x : Queue) (s : State) : State :=
  { s with spool := { s.spool with queues := spSet {} s.spool.queues q x } }

/-- An initiator's context. -/
def ctx (s : State) (i : Initiator) : Ctx := spGet {} s.spool.ctxs (initKey i)

/-- An initiator's context put in place. -/
def ctxPut (i : Initiator) (x : Ctx) (s : State) : State :=
  { s with spool := { s.spool with ctxs := spSet {} s.spool.ctxs (initKey i) x } }

/-- A compatibility queue. -/
def compat (s : State) (q : Nat) : CompatQ := spGet {} s.spool.compat q

/-- A compatibility queue put in place. -/
def compatPut (q : Nat) (x : CompatQ) (s : State) : State :=
  { s with spool := { s.spool with compat := spSet {} s.spool.compat q x } }

/-- Cells in use below and from `onChip`, allocated, queued or quarantined. -/
def usedCells (s : State) : List Nat := s.spool.packets.flatMap fun e => e.2.cells
def usedOnChip (s : State) : Nat := ((usedCells s).filter (· < onChip)).length
def usedExt (s : State) : Nat := ((usedCells s).filter fun c => onChip ≤ c).length

/-- Free cells, extension included (SPOOL_STATUS.FREE). -/
def freeCells (s : State) : Nat := onChip + extCells s - (usedCells s).length

/-- Quarantined cells (SPOOL_QUARANTINED). -/
def quarantinedCells (s : State) : Nat :=
  sumL ((s.spool.packets.filter fun e => e.2.st == .quarantined).map fun e => e.2.cells.length)

/-- The part of FRONTHAUL_CELLS.RESERVED_CELLS that the fronthaul engine does not hold (R477). -/
def fhReserve (s : State) (reserved : Nat) : Nat :=
  reserved - sumL ((s.spool.packets.filter fun e => e.2.fronthaul).map fun e => e.2.cells.length)

/-- The first number at or after `c`, cyclically below `n`, that is not in `used`. -/
def pickFrom (used : List Nat) (base n : Nat) : Nat → Nat → Nat
  | 0, c => base + c % n
  | f + 1, c => if used.contains (base + c % n) then pickFrom used base n f (c + 1) else base + c % n

/-- `n` free cells chosen from a range; the spec leaves the choice open, so each starts from a free value. -/
def pickCells (used : List Nat) (base size : Nat) : Nat → State → List Nat × State
  | 0, s => ([], s)
  | n + 1, s =>
    let (v, s) := draw s
    let c := pickFrom used base size used.length v
    let (cs, s) := pickCells (c :: used) base size n s
    (c :: cs, s)

/-- Who allocates (R477). -/
inductive Allocator where
  | unit | fronthaul | event
  deriving DecidableEq, Repr

/-- RESERVED_CELLS of FRONTHAUL_CELLS, the sum of the running carriers' cell costs, which the register file keeps. -/
def reservedCells (s : State) : Nat := regF s uFRONTHAUL 0 0x004 17 0

/-- A packet of `len` bytes allocated (R477): on-chip cells first, extension cells for the rest; none when there is no
room. -/
def alloc (who : Allocator) (len : Nat) (s : State) : Option Nat × State :=
  let n := ceilDiv len 256
  let freeOn := onChip - usedOnChip s
  let usable := match who with
    | .fronthaul => freeOn
    | _ => freeOn - fhReserve s (reservedCells s)
  let freeExt := match who with
    | .unit => extCells s - usedExt s
    | _ => 0
  if len = 0 ∨ n > usable + freeExt then (none, s)
  else
    let k := if n ≤ usable then n else usable
    let (a, s) := pickCells (usedCells s) 0 onChip k s
    let (b, s) := pickCells (usedCells s) onChip (extCells s) (n - k) s
    match a ++ b with
    | [] => (none, s)
    | h :: t =>
      (some h, pktPut h { cells := h :: t, len := len, fronthaul := who == .fronthaul } s)

/-- SPOOL_NO_CELLS raised within its limit (R514). -/
def noCells (i : Initiator) (len : Nat) (s : State) : State :=
  raiseLim second 0 0x0503 uSPOOL 0 1 (pairBytes i ++ zeros 2 ++ leBytes 4 len) s

/-- A bad handle counted and reported (R481). -/
def badHandle (h q : Nat) (i : Initiator) (s : State) : State :=
  raiseLim second q 0x0502 uSPOOL 0 1 (leBytes 4 h ++ leBytes 2 q ++ pairBytes i)
    (regBump uSPOOL 0 0x014 31 0 1 s)

/-- Cells queued on a queue. -/
def queueCells (s : State) (q : Nat) : Nat :=
  sumL ((queue s q).items.map fun h => ((pkt s h).map fun p => p.cells.length).getD 0)

/-- A pointer mismatch found on a queue: it is emptied and its cells quarantined (R487). -/
def quarantine (q : Nat) (extra : List Nat) (s : State) : State :=
  let x := queue s q
  let hs := x.items ++ extra
  let n := sumL (hs.map fun h => ((pkt s h).map fun p => p.cells.length).getD 0)
  let s := hs.foldl (fun s h => match pkt s h with
    | some p => pktPut h { p with st := .quarantined, queue := q } s
    | none => s) s
  raise 0x0501 uSPOOL 0 2 (leBytes 2 q ++ [0, 0] ++ leBytes 4 n)
    (queuePut q { x with items := [], mismatch := false } s)

/-- A queue's pointer copies differ: an upset, or an injected SPOOL_PTR fault, which ends at this effect (R645). -/
def ptrBad (s : State) (q : Nat) : Bool :=
  (queue s q).mismatch || s.power.injections.any fun i => i.kind == 7 && i.target == q

/-- One-shot SPOOL_PTR injections on a queue ended. -/
def endPtr (q : Nat) (s : State) : State :=
  { s with power := { s.power with
      injections := s.power.injections.filter fun i => !(i.kind == 7 && i.target == q) } }

/-- A queue finds a packet of `n` cells does not fit (R482). -/
def isFull (s : State) (q n : Nat) : Bool :=
  let x := queue s q
  !x.en || (x.maxCells != 0 && x.maxCells < queueCells s q + n)

/-- The notice of a packet joining a queue (R484): to the slot the producer named, or to the queue's target. -/
def sendNotice (q : Nat) (named : Option Nat) (wasEmpty : Bool) (i : Initiator) (s : State) : State :=
  match named with
  | some t => notify t 1 i s
  | none =>
    let x := queue s q
    if x.notifyKind = 1 then notify x.notifyTarget 1 (unitInit uSPOOL 0) s
    else if x.notifyKind = 2 ∧ wasEmpty then emit (.msix (x.notifyTarget % 16)) s
    else s

/-- What an enqueue came to. -/
inductive Enq where
  | joined | full | bad | mismatch
  deriving DecidableEq, Repr

/-- The handle names the first cell of a packet that is allocated and neither queued nor free (R481). -/
def holdable (s : State) (h : Nat) : Bool :=
  match pkt s h with
  | some p => p.st == .held || p.st == .opened
  | none => false

/-- An enqueue of a packet (R481, R482, R484, R487); the caller deals with a full queue. -/
def enqueue (q h : Nat) (named : Option Nat) (i : Initiator) (s : State) : Enq × State :=
  if !holdable s h then (.bad, badHandle h q i s)
  else if ptrBad s q then (.mismatch, quarantine q [h] (endPtr q s))
  else
    let p := (pkt s h).getD {}
    let x := queue s q
    if isFull s q p.cells.length then
      (.full,
       raiseLim second q 0x0504 uSPOOL 0 1 (leBytes 2 q ++ pairBytes i ++ leBytes 4 (queueCells s q))
         (queuePut q { x with refused := satN 0xFFFFFFFF (x.refused + 1) } s))
    else
      let s := queuePut q { x with items := x.items ++ [h], enqueued := satN 0xFFFFFFFF (x.enqueued + 1) } s
      let s := pktPut h { p with st := .queued, queue := q } s
      (.joined, sendNotice q named x.items.isEmpty i s)

/-- A unit's enqueue: a queue it finds full has the packet freed (R482). The flag tells whether it joined. -/
def unitEnqueue (q h : Nat) (named : Option Nat) (i : Initiator) (s : State) : Bool × State :=
  match enqueue q h named i s with
  | (.full, s) => (false, pktFree h s)
  | (.joined, s) => (true, s)
  | (_, s) => (false, s)

/-- The body of the multi-device settings object; empty while it is not set (R569, R667). -/
def mdBody (s : State) : Bytes := ((objFind s 0x0A020000).map (·.body)).getD []

/-- A proxy entry: local queue, home device, home queue and class (R569). -/
structure ProxyEntry where
  localQ : Nat
  home : Nat
  homeQ : Nat
  cls : Nat
  deriving DecidableEq, Repr

/-- The proxy entries of the settings. -/
def proxies (s : State) : List ProxyEntry :=
  let b := mdBody s
  (List.range (fld b 6 1)).map fun k =>
    let o := 16 + 4 * fld b 4 2 + 8 * k
    { localQ := fld b o 2, home := fld b (o + 2) 2, homeQ := fld b (o + 4) 2, cls := fld b (o + 6) 1 }

/-- A dequeue (R483, R487): the head packet, now held by the dequeuer, or nothing; a proxy queue gives nothing (R566). -/
def dequeue (q : Nat) (s : State) : Option Nat × State :=
  if (proxies s).any fun e => e.localQ == q then
    (none, queuePut q { queue s q with idle := satN 0xFFFFFFFF ((queue s q).idle + 1) } s)
  else if ptrBad s q then
    let s := quarantine q [] (endPtr q s)
    let x := queue s q
    (none, queuePut q { x with idle := satN 0xFFFFFFFF (x.idle + 1) } s)
  else
    let x := queue s q
    match x.items with
    | [] => (none, queuePut q { x with idle := satN 0xFFFFFFFF (x.idle + 1) } s)
    | h :: t =>
      let s := queuePut q { x with items := t, dequeued := satN 0xFFFFFFFF (x.dequeued + 1) } s
      (some h, match pkt s h with
        | some p => pktPut h { p with st := .held } s
        | none => s)

/-- A code word of a cell encoded anew: a flip armed for its address applies, any earlier error is gone (R472). -/
def cellEncode (w : Nat) (s : State) : State :=
  match sdramAt s w with
  | some (ch, _, _) => match memFlip ch w s with
    | (p, s) => putErr w p s
  | none => putErr w {} s

/-- The rest of a burst of SDRAM of which a cell's `n` words from `a` cover a part, merged (R465). -/
def cellMerge (a n : Nat) (s : State) : State :=
  match sdramAt s a with
  | some (ch, _, rank) => mergeWords (unitInit uSPOOL 0) ch rank (burstRest (a + 32 * (n - 1)) a (a + 32 * n)) s
  | none => s

/-- Bytes written into a packet's cells in chain order by the unit that builds it. -/
def fillCells : List Nat → Bytes → State → State
  | [], _, s => s
  | c :: cs, bs, s =>
    let a := cellAddr s c
    let n := ceilDiv (bs.take 256).length 32
    fillCells cs (bs.drop 256)
      ((List.range n).foldl (fun s k => cellEncode (a + 32 * k) s) (storeRaw a (bs.take 256) (cellMerge a n s)))

/-- Bytes written into a packet. -/
def fillPacket (h : Nat) (bs : Bytes) (s : State) : State :=
  match pkt s h with
  | some p => fillCells p.cells bs s
  | none => s

/-- The bytes a packet was written with. -/
def packetBytes (s : State) (h : Nat) : Bytes :=
  match pkt s h with
  | some p => (p.cells.flatMap fun c => memBytes s.mem (cellAddr s c) 256).take p.len
  | none => []

/-- A code word of a cell as a unit reads it: corrected and counted where its code can (R457, R458, R461, R469), else a free value,
since the spec does not say what the unit goes on with (R468). An extension cell's channel is woken for it. -/
def cellWord (i : Initiator) (w : Nat) (s : State) : Bytes × State :=
  let r := match regionOf w with
    | .sdram => match sdramOpen s i false w with
      | some (ch, rank) => sdramRead i w ch rank (reach (some (25 + ch)) s).2
      | none => (.busError, [], s)
    | _ => sramRead uSPOOL 0 i w s
  match r with
  | (.ok, b, s) => (b, s)
  | (_, _, s) =>
    let (v, s) := draw s
    (leBytes 32 v, s)

/-- The code words of a packet that hold its bytes, in chain order. -/
def packetWords (s : State) (h : Nat) : List Nat :=
  match pkt s h with
  | some p => (p.cells.flatMap fun c => (List.range 8).map fun k => cellAddr s c + 32 * k).take (ceilDiv p.len 32)
  | none => []

/-- Code words of cells read in order. -/
def cellsRead (i : Initiator) : List Nat → State → Bytes × State
  | [], s => ([], s)
  | w :: ws, s =>
    let (b, s) := cellWord i w s
    let (bs, s) := cellsRead i ws s
    (b ++ bs, s)

/-- A packet read by a unit. -/
def readPacket (i : Initiator) (h : Nat) (s : State) : Bytes × State :=
  let (b, t) := cellsRead i (packetWords s h) s
  (b.take (((pkt s h).map (·.len)).getD 0), t)

/-- The packet at the head of a queue taken by a unit, which reads it and frees it (R483). -/
def takePacket (i : Initiator) (q : Nat) (s : State) : Option Bytes × State :=
  match dequeue q s with
  | (none, s) => (none, s)
  | (some h, s) =>
    let (d, s) := readPacket i h s
    (some d, pktFree h s)

/-- A packet of a unit made of given bytes and enqueued; its EOP cell is written in the same step (R479). The handle
when it joined. -/
def unitSend (who : Allocator) (q : Nat) (bs : Bytes) (i : Initiator) (s : State) : Option Nat × State :=
  match alloc who bs.length s with
  | (none, s) => (none, noCells i bs.length s)
  | (some h, s) =>
    match unitEnqueue q h none i (fillPacket h bs s) with
    | (true, s) => (some h, s)
    | (false, s) => (none, s)

/-- CTX_FLAGS rewritten whole (R486). -/
def ctxFlags (i : Initiator) (bad noCell full idle : Bool) (s : State) : State :=
  ctxPut i { ctx s i with badHandle := bad, noCells := noCell, full := full, idle := idle } s

/-- A read of SPOOL_ALLOC (R486). -/
def spoolAllocOp (i : Initiator) (s : State) : State :=
  match alloc .unit (ctx s i).len s with
  | (some h, s) => answer h (ctxFlags i false false false false s)
  | (none, s) => answer noHandle (ctxFlags i false true false false (noCells i (ctx s i).len s))

/-- A write of SPOOL_ENQ (R481, R482, R486). -/
def spoolEnqOp (i : Initiator) (h : Nat) (s : State) : State :=
  let x := ctx s i
  let named := if x.notifyValid then some x.notifyTask else none
  match enqueue x.queue h named i (ctxPut i { x with notifyValid := false } s) with
  | (.bad, s) => ctxFlags i true false false false s
  | (.full, s) => ctxFlags i false false true false s
  | (_, s) => ctxFlags i false false false false s

/-- A read of SPOOL_DEQ (R483, R486). -/
def spoolDeqOp (i : Initiator) (s : State) : State :=
  match dequeue (ctx s i).queue s with
  | (some h, s) =>
    let s := ctxPut i { ctx s i with len := ((pkt s h).map (·.len)).getD 0 } s
    answer h (ctxFlags i false false false false s)
  | (none, s) =>
    let s := ctxPut i { ctx s i with len := 0 } s
    answer noHandle (ctxFlags i false false false true s)

/-- A write of SPOOL_FREE (R481, R486). -/
def spoolFreeOp (i : Initiator) (h : Nat) (s : State) : State :=
  if holdable s h then ctxFlags i false false false false (pktFree h s)
  else ctxFlags i true false false false (badHandle h (ctx s i).queue i s)

/-- The cell after `c` in a chain. -/
def nextCell : List Nat → Nat → Option Nat
  | a :: b :: r, c => if a = c then some b else nextCell (b :: r) c
  | _, _ => none

/-- A read of SPOOL_NEXT (R486). -/
def spoolNextOp (i : Initiator) (s : State) : State :=
  let x := ctx s i
  match s.spool.packets.find? fun e => e.2.cells.contains x.cell && e.2.st != .quarantined with
  | some e =>
    match nextCell e.2.cells x.cell with
    | some c => answer c (ctxFlags i false false false false (ctxPut i { x with cell := c } s))
    | none => answer noHandle (ctxFlags i false false false false s)
  | none => answer noHandle (ctxFlags i true false false false s)

/-- The idle item of a compatibility queue (R492). -/
def idleItem : CqItem := { w0 := 0xFFFFFFFF, w1 := 0x80000000, w2 := 0, w3 := 0 }

/-- Bit 31 of word 1 forced to 0 (R492). -/
def cleanItem (x : CqItem) : CqItem := { x with w1 := x.w1 &&& 0x7FFFFFFF }

/-- A pointer mismatch empties a compatibility queue (R494). -/
def compatCheck (q : Nat) (s : State) : State :=
  let x := compat s q
  if x.mismatch then
    raise 0x0501 uSPOOL 0 2 (leBytes 2 q ++ [1]) (compatPut q { x with items := [], mismatch := false } s)
  else s

/-- A write of PUSH_3 (R492, R494). -/
def cqPushOp (q : Nat) (w3 : W32) (s : State) : State :=
  let s := compatCheck q s
  let x := compat s q
  let it := { x.push with w3 := w3 }
  if !x.en || x.items.length ≥ 2 ^ x.depthLog2 then compatPut q { x with push := it, overflow := true } s
  else compatPut q { x with push := it, items := x.items ++ [cleanItem it] } s

/-- A read of POP_0 (R492 to R494). -/
def cqPopOp (q : Nat) (s : State) : State :=
  let s := compatCheck q s
  let x := compat s q
  match (if x.en then x.items else []) with
  | [] => answer 0xFFFFFFFF (compatPut q { x with latch := idleItem } s)
  | it :: r => answer it.w0.toNat (compatPut q { x with latch := it, items := r } s)

/-- Bytes of the device pool that enabled compatibility queues hold (R494). -/
def ringBytes (s : State) : Nat :=
  sumL (s.spool.compat.map fun e => if e.2.en then 2 ^ e.2.depthLog2 * 16 else 0)

/-- The device pool in bytes (R454). -/
def poolBytes (s : State) : Nat := regF s uMEM 0 0x080 8 0 * 0x40000000

/-- A write of EN of a compatibility queue (R494); `held` is what functions hold of the pool. -/
def cqEnableOp (q : Nat) (en : Bool) (held : Nat) (s : State) : State :=
  let x := compat s q
  if en then
    if x.en then s
    else if x.depthLog2 < 4 ∨ 16 < x.depthLog2 ∨ poolBytes s < held + ringBytes s + 2 ^ x.depthLog2 * 16 then
      compatPut q { x with noSpace := true } s
    else compatPut q { x with en := true, noSpace := false } s
  else if x.en then compatPut q { x with en := false, items := [] } s
  else s

/-- The handles quarantined from a queue. -/
def quarantinedOf (s : State) (q : Nat) : List Nat :=
  (s.spool.packets.filter fun e => e.2.st == .quarantined && e.2.queue == q).map (·.1)

end Sys2Proof.Machine
end

