-- ==== Sys2Proof/Machine/Routes.lean ====
section
/-!
DEFINITION. The system of devices seen from this one: its members, reachability, routes, and frames sent to another
device (16_lanes_bupex.md, R555 to R566).
-/
namespace Sys2Proof.Machine
open Sys2Proof

/-- DEVICE_ID of the multi-device settings, 0xFFF until they are set (R562, R667). -/
def deviceId (s : State) : Nat := ((objFind s 0x0A020000).map fun o => fld o.body 0 2).getD 0xFFF

/-- The members: device, votes and TIEBREAK. -/
def members (s : State) : List (Nat × Nat × Bool) :=
  let b := mdBody s
  (List.range (fld b 4 2)).map fun k =>
    (fld b (16 + 4 * k) 2 % 4096, fld b (18 + 4 * k) 1, bit (fld b (16 + 4 * k) 2) 15)

/-- A joint entry (R567). -/
structure JointEntry where
  carrier : Nat
  peerCarrier : Nat
  peer : Nat
  deriving DecidableEq, Repr

/-- The joint entries of the settings. -/
def joints (s : State) : List JointEntry :=
  let b := mdBody s
  (List.range (fld b 7 1)).map fun k =>
    let o := 16 + 4 * fld b 4 2 + 8 * fld b 6 1 + 8 * k
    { carrier := fld b o 1, peerCarrier := fld b (o + 1) 1, peer := fld b (o + 2) 2 }

/-- The object of a Bupex link, its run-time state, and fields of its body (R568). -/
def linkObj (l : Nat) : Nat := objId 0x0A 1 l
def linkBody (s : State) (l : Nat) : Bytes := ((objFind s (linkObj l)).map (·.body)).getD []
def linkRun (s : State) (l : Nat) : LinkRun := spGet {} s.serial.links l
def serialMod (f : Serial → Serial) (s : State) : State := { s with serial := f s.serial }
def linkPut (l : Nat) (x : LinkRun) (s : State) : State :=
  serialMod (fun (z : Serial) => { z with links := spSet {} z.links l x }) s
def linkFlag (s : State) (l k : Nat) : Bool := bit (fld (linkBody s l) 3 1) k

/-- A link is up with equal digests, and its partner. -/
def linkUp (s : State) (l : Nat) : Bool := regF s uBUPEX l 0x000 31 31 == 1
def linkPeer (s : State) (l : Nat) : Nat := regF s uBUPEX l 0x000 27 16
def linkIdle (s : State) (l : Nat) : Bool := regF s uBUPEX l 0x000 29 29 == 1

/-- The links that are up. -/
def upLinks (s : State) : List Nat := (List.range 6).filter (linkUp s)

/-- The neighbours of a device: this one's by its links, another's as it last flooded them. -/
def neighbours (s : State) (d : Nat) : List Nat :=
  if d = deviceId s then (upLinks s).map (linkPeer s) else spGet [] s.serial.md.topo d

/-- Devices reached in at most `n` further hops. -/
def spread (s : State) : Nat → List Nat → List Nat
  | 0, l => l
  | n + 1, l =>
    let new := ((l.flatMap (neighbours s)).filter fun d => !l.contains d).eraseDups
    if new = [] then l else spread s n (l ++ new)

/-- The members this device can reach, itself among them (R570). -/
def reachable (s : State) : List Nat :=
  let r := spread s 256 [deviceId s]
  ((members s).map (·.1)).filter r.contains

/-- Hops from device `a` to `d`, without passing `avoid`. -/
def hopsGo (s : State) (avoid d : Nat) : Nat → List Nat → Option Nat
  | 0, _ => none
  | n + 1, l =>
    if l.contains d then some 0
    else
      let new := ((l ++ l.flatMap (neighbours s)).filter (· != avoid)).eraseDups
      if new.length = l.length then none else (hopsGo s avoid d n new).map (· + 1)

/-- The link of the route of fewest hops to a device, ties to the lower number; class 0 only on links with CLASS0
(R560, R565). -/
def routeTo (s : State) (d cls : Nat) : Option Nat :=
  let ls := (upLinks s).filter fun l => cls != 0 || linkFlag s l 3
  ((ls.filterMap fun l => (hopsGo s (deviceId s) d 257 [linkPeer s l]).map fun h => (l, h)).foldl (fun acc e =>
    match acc with
    | none => some e
    | some b => if e.2 < b.2 then some e else some b) none).map (·.1)

/-- The members' links form one cycle (R565). -/
def isRing (s : State) : Bool :=
  let ms := (members s).map (·.1)
  3 ≤ ms.length && (ms.all fun d => (neighbours s d).eraseDups.length == 2) && (reachable s).length == ms.length

/-! ### Frames (R555) -/

/-- TYPE of a frame by what it is: 0 DATA, 1 ACK, 2 LINKCTL, 3 PTP, 4 BOOT. -/
def frameType (kind : String) : Nat :=
  if kind = "ack" then 1
  else if ["hello", "links", "replay-request", "last-gasp"].contains kind then 2
  else if ["sync", "follow_up", "announce", "sm_tlv", "delay_req", "delay_resp"].contains kind then 3
  else if kind = "boot" then 4 else 0

/-- The 12-byte header of a frame, its LSEQ and LACK not yet set. -/
def headBytes (type cls : Nat) (dup dir : Bool) (dst src seq ttl : Nat) : Bytes :=
  [BitVec.ofNat 8 (type + cls * 16 + b2n dup * 64 + b2n dir * 128)] ++ leBytes 3 (dst % 4096 + src % 4096 * 4096) ++
    leBytes 2 seq ++ [BitVec.ofNat 8 ttl] ++ zeros 5

/-- The body of a DATA frame: a Weft header of KIND MSG with its VC and LEN, its other fields free (log 91), and the payload. -/
def dataBody (kind : String) (cls : Nat) (select : Bytes) (piece : Nat) (payload : Bytes) : Bytes :=
  let h := Config.bupexHeader kind select piece
  let vc := if cls = 0 then 0 else if cls = 3 then 3 else 1
  [BitVec.ofNat 8 (h.toNat % 64 + vc * 64), BitVec.ofNat 8 (h.toNat / 64 % 64), 5, 0] ++ leBytes 2 payload.length ++
    leBytes 10 (h.toNat / 4096) ++ payload

/-- A frame on the wire: header and body, their CRC-32, and zeros to a multiple of 8 bytes. -/
def wireFrame (b : Bytes) : Bytes :=
  let n := b.length + 4
  b ++ leBytes 4 (crc32 b) ++ zeros (roundUp n 8 - n)

/-- The 64-bit blocks of a frame with this header and body. -/
def frameBlocks (data : Bytes) : Nat := ceilDiv (data.length + 4) 8

/-- A frame's LSEQ and LACK set, as its first block leaves (R555, R557). -/
def stampFrame (lseq lack : Nat) (b : Bytes) : Bytes := putFld (putFld b 8 2 lseq) 10 2 lack

/-- A payload in the fewest frames that hold it, of 256 bytes at most, equal ones where it can be (R555; the chapter's example
sends 384 bytes as two of 192). -/
def pieces (b : Bytes) : List Bytes :=
  let n := max 1 (ceilDiv b.length 256)
  let w := roundUp (ceilDiv b.length n) 32
  (List.range n).map fun k => (b.drop (w * k)).take w

/-- A frame given to a link's transmitter (R556): behind those of its own kind, class 0 or not. -/
def linkQueue (l cls : Nat) (lseq : Option Nat) (kind : String) (data : Bytes) (s : State) : State :=
  let x := linkRun s l
  let f : TxFrame := { lseq := lseq, kind := kind, data := data, left := frameBlocks data }
  linkPut l (if cls = 0 then { x with tx0 := x.tx0 ++ [f] } else { x with tx := x.tx ++ [f] }) s

/-- A frame put on a link: held while the link is in electrical idle (R552), kept for replay in classes 1 to 3 (R557). -/
def linkSend (l cls : Nat) (kind : String) (data : Bytes) (s : State) : State :=
  let x := linkRun s l
  if linkIdle s l then linkPut l { x with waiting := x.waiting ++ [(kind, data)] } s
  else
    let s := linkQueue l cls (if cls = 0 then none else some x.lseq) kind data s
    if cls = 0 then linkPut l { linkRun s l with lastTx := s.now } s
    else linkPut l { linkRun s l with lastTx := s.now, lseq := (x.lseq + 1) % 65536
                                      unacked := x.unacked ++ [{ lseq := x.lseq, kind := kind, data := data }] } s

/-- The header of a frame this device originates, TTL 255 (R555). -/
def frameHead (s : State) (kind : String) (d cls seq : Nat) (dup dir : Bool) : Bytes :=
  headBytes (frameType kind) cls dup dir d (deviceId s) seq 255

/-- The next SEQ toward a device (R555). -/
def nextSeq (d : Nat) (s : State) : Nat := spGet 0 s.serial.md.txSeq d
def seqTaken (d : Nat) (s : State) : State :=
  serialMod (fun (z : Serial) => { z with md := { z.md with txSeq := spSet 0 z.md.txSeq d ((nextSeq d s + 1) % 65536) } }) s

/-- A frame for the partner of a link alone: SEQ 0 but for PTP, which is numbered. -/
def partnerFrame (s : State) (l : Nat) (kind : String) (cls seq : Nat) (body : Bytes) : Bytes :=
  frameHead s kind (linkPeer s l) cls seq false false ++ body

/-- A frame sent to another device: by the route of fewest hops, or both ways around a ring in class 0 (R565). Without
a route it is not sent. -/
def sendData (d cls : Nat) (kind : String) (body : Bytes) (s : State) : State :=
  let seq := nextSeq d s
  let s := seqTaken d s
  if cls = 0 ∧ isRing s then
    let ls := (upLinks s).filter fun l => linkFlag s l 3
    (List.range ls.length).foldl (fun s i =>
      linkSend (ls.getD i 0) 0 kind (frameHead s kind d 0 seq true (i % 2 == 1) ++ body) s) s
  else match routeTo s d cls with
  | some l => linkSend l cls kind (frameHead s kind d cls seq false false ++ body) s
  | none => s

/-- A message of a service sent to another device in DATA frames; `select` is what names its target there. -/
def sendTo (d cls : Nat) (kind : String) (select data : Bytes) (s : State) : State :=
  let ps := pieces data
  (List.range ps.length).foldl (fun s k => sendData d cls kind (dataBody kind cls select k (ps.getD k [])) s) s

end Sys2Proof.Machine
end

