-- ==== Sys2Proof/Machine/BupexLoad.lean ====
section
/-!
DEFINITION. Class-0 admission on Bupex links (16_lanes_bupex.md, R560): the payload rate of a link and the class-0 traffic
that running functions send to other devices.
-/
namespace Sys2Proof.Machine
open Sys2Proof

/-- The payload rate of a link object's body as a fraction of bits per second (Bupex links): lanes × signalling rate ×
64/66, multiplied by the FEC code rate where FEC is used. -/
def payloadNum (b : Bytes) : Nat :=
  let lanes := fld b 1 1
  if fld b 2 1 = 4 then lanes * 28000000000 * 64
  else if fld b 2 1 = 6 then (if bit (fld b 3 1) 1 then lanes * 56000000000 * 64 * 514 else lanes * 56000000000 * 64)
  else lanes * 112000000000 * 64 * 514
def payloadDen (b : Bytes) : Nat :=
  if fld b 2 1 = 4 then 66
  else if fld b 2 1 = 6 then (if bit (fld b 3 1) 1 then 66 * 528 else 66)
  else 66 * 544

/-! ### The transmitter (R440, R548, R556) -/

/-- Bytes of the replay buffer in use: the unacknowledged frames that have left the transmitter (R557). -/
def replayHeld (x : LinkRun) : Nat :=
  sumL ((x.unacked.filter fun u => x.tx.all fun f => f.lseq != some u.lseq).map fun u => 8 * frameBlocks u.data)

/-- A frame may go on, or begin: it does not overlap a launch `room` blocks ahead (R440), and the 64 KiB replay buffer has
room for it (R557). -/
def mayBegin (room : Option Nat) (x : LinkRun) (f : TxFrame) : Bool :=
  f.begun || (room.all (fun k => f.left ≤ k) && (f.lseq.isNone || replayHeld x + 8 * f.left ≤ 65536))

/-- The place in `tx` of the frame to send: the one begun, else the first, else, where the first may not begin, the first that
needs no replay buffer. -/
def txPlace (room : Option Nat) (x : LinkRun) : Nat :=
  if x.tx.any (·.begun) then x.tx.findIdx (·.begun)
  else if x.tx.head?.any (mayBegin room x) then 0
  else x.tx.findIdx fun f => f.lseq.isNone

/-- A frame after one of its blocks, its first one with LSEQ and LACK set; nothing of it after its last. -/
def afterBlock (lack : Nat) (f : TxFrame) : TxFrame :=
  { f with left := f.left - 1, begun := true, data := if f.begun then f.data else stampFrame (f.lseq.getD 0) lack f.data }

/-- One block of a link: a FILL block after 1,024 others and when there is nothing else, else the next block of a class-0
frame, which so interrupts another, else of the frame in hand. The frame that its last block completes is answered. -/
def sendBlock (room : Option Nat) (x : LinkRun) : LinkRun × Option TxFrame :=
  let fill : LinkRun × Option TxFrame := ({ x with blocks := 0 }, none)
  let urgent := x.tx0.head?.any (mayBegin room x)
  let fs := if urgent then x.tx0 else x.tx
  let k := if urgent then 0 else txPlace room x
  if 1024 ≤ x.blocks then fill
  else match fs[k]? with
  | none => fill
  | some f =>
    if !mayBegin room x f then fill
    else
      let g := afterBlock x.lack f
      let rest := if g.left = 0 then fs.eraseIdx k else fs.set k g
      let x := { x with blocks := x.blocks + 1 }
      (if urgent then { x with tx0 := rest } else { x with tx := rest }, if g.left = 0 then some g else none)

/-- Some blocks of a link sent; a frame completed leaves the device. -/
def sendBlocks (l : Nat) : Nat → Option Nat → State → State
  | 0, _, s => s
  | n + 1, room, s =>
    let (x, f) := sendBlock room (linkRun s l)
    let x := if f.any fun f => f.kind != "hello" then { x with lastTx := s.now } else x
    let s := linkPut l x s
    sendBlocks l n (room.map (· - 1)) (match f with
      | some f => sendOut (.bupex l f.kind (wireFrame f.data)) s
      | none => s)

/-- A nanosecond of a running link's transmitter: the blocks of 64 bits its payload rate carries. A link with nothing to send
sends FILL. -/
def linkTick (l : Nat) (s : State) : State :=
  let x := linkRun s l
  if x.tx0 = [] ∧ x.tx = [] then (if x.blocks = 0 ∧ x.credit = 0 then s else linkPut l { x with blocks := 0, credit := 0 } s)
  else if !isRunning s (linkObj l) then s
  else
    let b := linkBody s l
    let cost := 64 * second * payloadDen b
    let have_ := x.credit + payloadNum b
    let room := (s.cox.launches.find? fun y => y.bupex && y.inst == l).map fun y => (y.at_ - shortNow s) * payloadNum b / cost
    sendBlocks l (have_ / cost) room (linkPut l { x with credit := have_ % cost } s)

/-- The links' transmitters for a nanosecond. -/
def linksTick (s : State) : State := (List.range 6).foldl (fun s l => linkTick l s) s

/-- The class-0 frames a function sends to other devices: destination and rate in bits per second. A spanning bridge group
sends two frames of 224 bytes per block (the chapter's example); a joint carrier sends its antenna streams (R567). -/
def bupexFlows (s : State) (id : Nat) (b : Bytes) : List (Nat × Nat) :=
  if id / 0x10000 = 0x0401 then
    (if bit (fld b 8 1) 0 then (List.range (fld b 9 1)).map fun k => (fld b (16 + 2 * k) 2, 3584000) else [])
  else if id / 0x10000 = 0x0201 ∨ id / 0x10000 = 0x0202 then
    ((joints s).filter fun j => j.carrier == id % 0x10000).map fun j => (j.peer, carUlAnt b * streamLoad id b (carRb id b 4))
  else []

/-- The links a class-0 frame to a device leaves on: both ways around a ring, otherwise its route (R565). -/
def c0Links (s : State) (d : Nat) : List Nat :=
  if isRing s then (upLinks s).filter fun l => linkFlag s l 3 else (routeTo s d 0).toList

/-- Class-0 admission of a function's traffic on this device's links (R560): no link above half its payload rate. -/
def bupexAdmit (s : State) (id : Nat) (b : Bytes) : Bool :=
  let flows := bupexFlows s id b ++
    (activeOf s 4 1 ++ activeCarriers s).flatMap fun e => bupexFlows s e.1 e.2.body
  (List.range 6).all fun l =>
    let rate := sumL ((flows.filter fun f => (c0Links s f.1).contains l).map (·.2))
    rate == 0 || 2 * rate * payloadDen (linkBody s l) ≤ payloadNum (linkBody s l)

end Sys2Proof.Machine
end

