-- ==== Sys2Proof/Machine/AudioCore.lean ====
section
/-!
DEFINITION. The AUDIO engine's timeline and sample chain (10_audio_bridge.md, R351 to R372).
-/
namespace Sys2Proof.Machine
open Sys2Proof

/-- The AUDIO engine with a change applied. -/
def audioMod (f : Audio → Audio) (s : State) : State := { s with audio := f s.audio }

/-- A leg and a group's run-time state. -/
def legFind (s : State) (l : Nat) : Option Leg := spFind s.audio.legs l
def legPut (l : Nat) (x : Leg) (s : State) : State := audioMod (fun (a : Audio) => { a with legs := spPut a.legs l x }) s
def audioGroup (s : State) (g : Nat) : AudioGroup := spGet {} s.audio.groups g
def audioGroupPut (g : Nat) (x : AudioGroup) (s : State) : State :=
  audioMod (fun (a : Audio) => { a with groups := spSet {} a.groups g x }) s

/-- The object ID of a bridge group, and its body. -/
def bridgeObj (g : Nat) : Nat := objId 4 1 g
def bridgeBody (s : State) (g : Nat) : Bytes := ((objFind s (bridgeObj g)).map (·.body)).getD []
def bridgeSpan (s : State) (g : Nat) : Bool := bit (fld (bridgeBody s g) 8 1) 0
def bridgeRemotes (b : Bytes) : List Nat := (List.range (fld b 9 1)).map fun k => fld b (16 + 2 * k) 2

/-- Sample `n` of the Cox epoch in nanoseconds, and the first sample at or after a time (Timeline). -/
def sampleNs (n : Nat) : Nat := n * 62500 / 3
def sampleAt (t : Nat) : Nat := ceilDiv (3 * t) 62500

/-- The block in progress: the milliseconds of Cox time. -/
def blockNow (s : State) : Nat := shortNow s / 1000000

/-- The start of the first block not yet begun. -/
def nextBlock (s : State) : Nat := blockNow s + 1

/-- A counter of a leg raised unless FREEZE holds it (R383). -/
def legCount (l k n : Nat) (s : State) : State :=
  if regF s uAUDIO 0 0x00C 1 1 = 1 ∨ n = 0 then s else cntBump (cntKey uAUDIO l k) n s

/-- A leg's counter in four bytes. -/
def legCnt (s : State) (l k : Nat) : Bytes := leBytes 4 (cntGet s (cntKey uAUDIO l k))

/-- AUDIO_CTRL.FREEZE holds every counter; an event raised when one increments is then lost. -/
def audioFrozen (s : State) : Bool := regF s uAUDIO 0 0x00C 1 1 == 1

/-- AUDIO_LATE. -/
def audioLate (l : Nat) (s : State) : State :=
  if audioFrozen s then s else raiseLim second l 0x2401 uAUDIO 0 1 (leBytes 2 l ++ zeros 2 ++ legCnt s l 1 ++ legCnt s l 3) s

/-- A step of Cox time: pending APPLY times move with it (R420), and every leg starts again from silence (R358). -/
def audioStep (d : Int) (running : Nat → Bool) (s : State) : State :=
  let s := audioMod (fun (a : Audio) => { a with
    last := none
    pend := a.pend.map fun (p : ParamPend) => { p with time := ((p.time : Int) + d).toNat }
    groups := a.groups.map fun e => (e.1, { e.2 with local_ := none, sums := [], subs := [] })
    cut := a.cut.map fun c => (c.1, c.2.map fun _ => 0)
    legs := a.legs.map fun e => (e.1, { e.2 with
      buf := [], src := [], srcEnd := none, held := [], line := [], acc := [], limiting := false, g := 8388608
      start := min e.2.start (((e.2.start * 1000000 : Nat) + d).toNat / 1000000)
      stopAt := e.2.stopAt.map fun b => min b (((b * 1000000 : Nat) + d).toNat / 1000000) }) }) s
  s.audio.legs.foldl (fun s e => if running e.2.group then legCount e.1 14 1 s else s) s

/-- Source rates and the most samples of a frame (R345). -/
def rateHz (r : Nat) : Nat := [8000, 16000, 24000, 32000, 44100, 48000].getD r 48000
def maxCount (r : Nat) : Nat := [320, 640, 960, 1280, 1764, 1920].getD r 0

/-- Samples put into a jitter buffer from index `n` on (R351, R353): the buffer, and how many overlapped and were
late; `first` is the first sample whose block has not begun. -/
def bufFill (first : Nat) : Nat → List Int → Sparse Int → Nat × Nat × Sparse Int
  | _, [], m => (0, 0, m)
  | n, v :: vs, m =>
    if (spFind m n).isSome then
      let (o, l, m) := bufFill first (n + 1) vs m
      (o + 1, l, m)
    else if n < first then
      let (o, l, m) := bufFill first (n + 1) vs m
      (o, l + 1, m)
    else bufFill first (n + 1) vs (spPut (m.filter fun e => e.1 % 12288 != n % 12288) n v)

/-- An input frame of a leg placed (R351 to R353). -/
def placeFrame (l : Nat) (x : Leg) (h : Bytes) (s : State) : State :=
  let t := fld h 0 8
  let rate := fld h 10 1
  let cnt := fld h 12 2
  let hz := rateHz rate
  let w := if fld h 11 1 = 0 then 2 else 4
  let vs := (List.range cnt).map fun k =>
    if w = 2 then toS 16 (fld h (32 + 2 * k) 2) * 256 else satS 24 (toS 32 (fld h (32 + 4 * k) 4))
  let s := legCount l 0 1 s
  let s := if bit (fld h 14 1) 0 then legCount l 6 1 s else s
  let mix := t + x.p.playout * 1000
  if blockNow s * 1000000 + 256000000 ≤ mix + (cnt - 1) * second / hz then legCount l 2 1 s
  else
    let fin := t + cnt * second / hz
    let goesOn := !bit (fld h 14 1) 1 && rate == x.rate &&
      x.srcEnd.any fun e => (if e < t then t - e else e - t) ≤ second / hz
    let past := if goesOn then x.src else []
    let n0 := sampleAt mix
    let n1 := sampleAt (mix + cnt * second / hz)
    let out := (List.range (n1 - n0)).map fun k => satS 24 (Config.convert rate past vs (sampleNs (n0 + k) - mix))
    let z := bufFill (48 * nextBlock s) n0 out x.buf
    let hist := past ++ vs
    let s := legPut l
      { x with buf := z.2.2, src := hist.drop (hist.length - 1920), rate := rate, srcEnd := some fin, heard := true } s
    let s := legCount l 1 z.2.1 (legCount l 4 z.1 s)
    if z.2.1 = 0 then s else audioLate l s

/-! ### Parameters (R366 to R370) -/

/-- The ranges of a descriptor's VALUE; `g` is the leg's group. -/
def valueOk (g param : Nat) (v : Bytes) : Bool :=
  if param = 1 ∨ param = 2 then fld v 0 4 < 2 ^ 20 && rsv v 4 44
  else if param = 3 then fld v 0 1 < 4 && rsv v 1 47
  else if param = 4 then
    toS 16 (fld v 2 2) ≤ toS 16 (fld v 0 2) && fld v 4 1 ≤ 90 && rsv v 5 1 && fld v 6 2 ≤ 2000 && rsv v 8 40
  else if param = 5 then rsv v 20 28
  else if param = 6 then fld v 0 2 ≤ 9600 && rsv v 2 46
  else if param = 7 then 1 ≤ fld v 0 4 && fld v 0 4 ≤ 8388607 && 10 ≤ fld v 4 2 && fld v 4 2 ≤ 2000 && rsv v 6 42
  else if param = 8 then
    fld v 0 1 < 4 && rsv v 1 3 && rsv v 28 20 && ((List.range 3).all fun k =>
      let e := v.drop (4 + 8 * k)
      bits (fld e 0 2) 14 9 == 0 && rsv e 2 2 && fld e 4 4 < 2 ^ 20 &&
        !(bit (fld e 0 2) 15 && fld e 0 2 % 512 == g))
  else param == 9 && fld v 0 4 ≤ 200000 && rsv v 4 44

/-- A descriptor is well formed for a leg of group `g` (R364, R366). -/
def descWf (g : Nat) (d : Bytes) : Bool :=
  d.length == 64 && fld d 8 2 < 4096 && (if fld d 10 1 = 5 then fld d 11 1 < 4 else fld d 11 1 == 0) && rsv d 12 4 &&
    valueOk g (fld d 10 1) (d.drop 16)

/-- A descriptor's effect on a leg (R366, R368). -/
def applyParam (d : Bytes) (x : Leg) : Leg :=
  let v := d.drop 16
  let p := x.p
  match fld d 10 1 with
  | 1 => { x with p := { p with inGain := fld v 0 4 } }
  | 2 => { x with p := { p with outGain := fld v 0 4 } }
  | 3 => { x with p := { p with muteIn := bit (fld v 0 1) 0, muteOut := bit (fld v 0 1) 1 } }
  | 4 => { x with p := { p with gateOpen := toS 16 (fld v 0 2), gateClose := toS 16 (fld v 2 2), gateRange := fld v 4 1,
                                gateHold := fld v 6 2 } }
  | 5 =>
    let c := (List.range 5).map fun k => toS 32 (fld v (4 * k) 4)
    { x with p := { p with eq := p.eq.set (fld d 11 1) c } }
  | 6 => { x with p := { p with outDelay := fld v 0 2 } }
  | 7 => { x with p := { p with limit := fld v 0 4, release := fld v 4 2 } }
  | 8 =>
    let ls := (List.range 3).filterMap fun k =>
      let e := v.drop (4 + 8 * k)
      if bit (fld e 0 2) 15 then some (fld e 0 2 % 512, fld e 4 4) else none
    { x with p := { p with contribute := bit (fld v 0 1) 0, receive := bit (fld v 0 1) 1, listens := ls } }
  | _ =>
    let new := fld v 0 4
    let move : Int := ((new : Int) - p.playout) * 48 / 1000
    { x with p := { p with playout := new }
             buf := sortBy (·.1) ((x.buf.filter fun e => 0 ≤ (e.1 : Int) + move).map fun e => (((e.1 : Int) + move).toNat, e.2)) }

/-- The descriptors of a leg due at sample `n`, in order of arrival. -/
def dueAt (ps : List ParamPend) (l n : Nat) : List ParamPend := ps.filter fun p => p.leg == l && p.time ≤ sampleNs n

/-! ### One leg's input chain (R359 to R362) -/

/-- The gate's gain at a ramp position, in units of 2^−24 / 48: linear from 1 at 0 to the closed gain at 48 (R360). -/
def gateGain (range ramp : Nat) : Nat := 48 * 2 ^ 24 - ramp * (2 ^ 24 - (Config.closedGain range).toNat)

/-- The gate on one sample (R360): the envelope is the peak of the 48 samples before it. -/
def gateStep (x : Leg) (v : Int) : Int × Leg :=
  let p := x.p
  if p.gateRange = 0 then (v, { x with window := [], gateIsOpen := true, below := 0, ramp := 0 })
  else
    let env := maxL x.window
    let w := (x.window ++ [v.natAbs]).drop (x.window.length - 47)
    let below := if env < Config.dbLevel p.gateClose then x.below + 1 else 0
    let isOpen := if Config.dbLevel p.gateOpen ≤ env then true
      else if x.gateIsOpen && 48 * p.gateHold ≤ below && 0 < below then false else x.gateIsOpen
    let ramp := if isOpen then x.ramp - 1 else min 48 (x.ramp + 1)
    (v * gateGain p.gateRange ramp / (48 * 2 ^ 24),
      { x with window := w, gateIsOpen := isOpen, below := below, ramp := ramp })

/-- One EQ section (R361): the output and the new x1, x2, y1, y2. -/
def eqSection (c st : List Int) (v : Int) : Int × List Int :=
  let k := fun (l : List Int) (i : Nat) => l.getD i 0
  let y := satS 32 ((k c 0 * v + k c 1 * k st 0 + k c 2 * k st 1 - k c 3 * k st 2 - k c 4 * k st 3) / 2 ^ 28)
  (y, [v, k st 0, y, k st 2])

/-- The EQ sections in order. -/
def eqChain : List (List Int) → List (List Int) → Int → Int × List (List Int)
  | c :: cs, st :: sts, v =>
    let (y, st) := eqSection c st v
    let (z, r) := eqChain cs sts y
    (z, st :: r)
  | _, sts, v => (v, sts)

/-- What a run of the input chain has counted. -/
structure ChainCount where
  gap : Nat := 0
  sat : Nat := 0

/-- One sample of a leg: its parameters due, stages 1 to 5, its contribution. -/
def chainStep (ps : List ParamPend) (l n : Nat) (x : Leg) (c : ChainCount) : MixSample × Leg × ChainCount :=
  let x := (dueAt ps l n).foldl (fun x p => applyParam p.data x) x
  let (v0, gap) := match spFind x.buf n with
    | some v => (v, 0)
    | none => (0, if x.source < 3 ∧ x.heard then 1 else 0)
  let v1 := if x.p.muteIn then 0 else v0
  let (v2, x) := gateStep x v1
  let (v3, es) := eqChain x.p.eq x.eqs v2
  let v4 := v3 * x.p.inGain / 65536
  let v5 := satS 24 v4
  ({ n := n, v := v5, p := x.p }, { x with eqs := es },
    { gap := c.gap + gap, sat := c.sat + b2n (v5 != v4) })

/-- The samples `n` to `n + k - 1` of a leg; the descriptors applied are those due by each sample, once. -/
def chainRun (ps : List ParamPend) (l : Nat) : Nat → Nat → Leg → ChainCount → List MixSample × Leg × ChainCount
  | 0, _, x, c => ([], x, c)
  | k + 1, n, x, c =>
    let (m, x, c) := chainStep ps l n x c
    let (ms, x, c) := chainRun (ps.filter fun p => sampleNs n < p.time) l k (n + 1) x c
    (m :: ms, x, c)

/-! ### Output (R363 to R365) -/

/-- A group's full sum of a block, or of the newest formed before it; zero for a group that is not RUNNING (R364). -/
def groupSum (s : State) (g b : Nat) : List Int :=
  if !isRunning s (bridgeObj g) then []
  else (((audioGroup s g).sums.find? fun e => e.1 ≤ b).map (·.2)).getD []

/-- The value before the limiter of one sample: the N-1 term, the listen terms, MUTE_OUT and OUT_GAIN (R363). -/
def outValue (s : State) (b : Nat) (sum : List Int) (m : MixSample) : Int :=
  let k := m.n % 48
  let own := sum.getD k 0
  let n1 := if !m.p.receive then 0 else if m.p.contribute then own - m.v else own
  let v := m.p.listens.foldl (fun v e => v + (groupSum s e.1 b).getD k 0 * e.2 / 65536) n1
  (if m.p.muteOut then 0 else v) * m.p.outGain / 65536

/-- The gain a sample requires (R365). -/
def needGain (m : MixSample) : Nat :=
  if m.v.natAbs ≤ m.p.limit then 8388608 else m.p.limit * 8388608 / m.v.natAbs

/-- The limiter on `k` samples of a line: outputs with their index and delay, whether any was limited, and how many. -/
def limitRun : Nat → List MixSample → Nat → List (Nat × Nat × Int × Bool) × Nat
  | 0, _, g => ([], g)
  | _, [], g => ([], g)
  | k + 1, m :: ms, g =>
    let up := g + ceilDiv (8388608 - g) (48 * m.p.release)
    let g := ((m :: ms).take 48).foldl (fun a x => min a (needGain x)) up
    let (r, g') := limitRun k ms g
    ((m.n, m.p.outDelay, m.v * g / 8388608, g < 8388608) :: r, g')

end Sys2Proof.Machine
end

