-- ==== Sys2Proof/Machine/Shuttle.lean ====
section
/-!
DEFINITION. Shuttle and Beam: descriptors, arming, dependences, instances, dispatch bookkeeping and ordered release
(05_shuttle.md, R158 to R202).
-/
namespace Sys2Proof.Machine
open Sys2Proof

/-- All ones: no deadline. -/
abbrev noDeadline : Nat := 0xFFFFFFFFFFFFFFFF

/-- A descriptor's bytes as its fields (R158). -/
def parseDesc (b : Bytes) : TaskDesc :=
  let f := fld b 3 1
  { cls := fld b 2 1 % 4, template := bit f 0, ordered := bit f 1, cancelLate := bit f 2, replay := bit f 3,
    anyCore := bit f 4, init := fld b 4 2 % 4096, flow := fld b 6 2 % 4096, flowValid := bit (fld b 6 2) 15,
    crewMask := fld b 8 2 % 4096, affCrew := bits (fld b 10 1) 6 3, affCore := bits (fld b 10 1) 2 0,
    target := fld b 11 1, cost := fld b 12 4, release := fld b 16 8, deadline := fld b 24 8, entry := fld b 32 6,
    bindQ := fld b 38 2, arg := fld b 40 8,
    succ := [fld b 48 2, fld b 50 2, fld b 52 2, fld b 54 2].filter (· != 0xFFFF),
    dirtyBase := fld b 56 6, dirtyLen := fld b 62 2 }

/-- The field ranges of R158 and the descriptor conditions of R159's second point. -/
def descOk (task : Nat) (b : Bytes) : Bool :=
  let d := parseDesc b
  fld b 0 2 == task && fld b 2 1 < 4 && fld b 3 1 < 32 && fld b 4 2 < 4096 && bits (fld b 6 2) 14 12 == 0 &&
    fld b 8 2 < 4096 && fld b 10 1 < 128 && d.target ≤ 6 && 1 ≤ d.cost && d.cost ≤ 10000000 &&
    (!d.template || d.init == 1) && (d.cls != 0 || d.deadline != noDeadline)

/-- A slot. -/
def slot (s : State) (t : Nat) : Slot := spGet {} s.shuttle.slots t

/-- A slot put in place. -/
def slotPut (t : Nat) (x : Slot) (s : State) : State :=
  { s with shuttle := { s.shuttle with slots := spSet {} s.shuttle.slots t x } }

/-- A flow. -/
def flow (s : State) (f : Nat) : Flow := spGet {} s.shuttle.flows f

/-- A flow put in place. -/
def flowPut (f : Nat) (x : Flow) (s : State) : State :=
  { s with shuttle := { s.shuttle with flows := spSet {} s.shuttle.flows f x } }

/-- A Shuttle counter of the device (crew 15) raised. -/
def shCount (idx n : Nat) (s : State) : State := cntBump (cntKey uSHUTTLE 15 idx) n s

/-- A Shuttle counter of a crew and of the device raised. -/
def shCountCrew (crew idx n : Nat) (s : State) : State :=
  shCount idx n (cntBump (cntKey uSHUTTLE crew idx) n s)

/-- The owner of a task ID. -/
def ownerOfTask (s : State) (t : Nat) : Option Owned :=
  s.shuttle.owned.find? fun o => o.tFirst ≤ t && t < o.tFirst + o.tCount

/-- The owner of a flow. -/
def ownerOfFlow (s : State) (f : Nat) : Option Owned :=
  s.shuttle.owned.find? fun o => o.fFirst ≤ f && f < o.fFirst + o.fCount

/-- Sequences of a flow that its window still has room for (R197). -/
def beamRoom (x : Flow) : Bool := x.seqs.length < x.window

/-- The next sequence of a flow taken. -/
def takeSeq (f : Nat) (s : State) : Nat × State :=
  let x := flow s f
  (x.next, flowPut f { x with next := (x.next + 1) % 65536, seqs := x.seqs ++ [{ num := x.next, taken := s.now }] } s)

/-- Instances now in existence (R170). -/
def instances (s : State) : List Work :=
  (s.shuttle.ready ++ s.shuttle.staged.map (·.2) ++ s.shuttle.running.map (·.2.work) ++
    s.shuttle.engines.map (·.2.work)).filter fun w => (slot s w.task).desc.template

/-- Work staged or running on DMA channels. -/
def dmaWorks (s : State) : List Work := s.dma.flatMap fun e => e.2.work.toList ++ e.2.staged.toList

/-- Instances staged or running on DMA channels. -/
def dmaInstances (s : State) : List Work := (dmaWorks s).filter fun w => (slot s w.task).desc.template

/-- The pool of 16,384 instances has room (R170). -/
def poolRoom (s : State) : Bool := (instances s).length + (dmaInstances s).length < 16384

/-- The lowest free instance index. -/
def freeInst (s : State) : Nat := pickFrom ((instances s ++ dmaInstances s).map (·.inst)) 0 16384 16384 1

/-- Work put among the ready; the projections are then evaluated (R188). -/
def addReady (w : Work) (s : State) : State :=
  { s with shuttle := { s.shuttle with ready := s.shuttle.ready ++ [{ w with order := s.shuttle.order }]
                                       order := s.shuttle.order + 1, evalDue := true } }

/-- The successors of a completed or cancelled task decremented, marked when it failed (R162, R167); none once its
owner is stopping (R209). -/
def decSuccessors (d : TaskDesc) (task : Nat) (ok : Bool) (s : State) : State :=
  if (ownerOfTask s task).any (·.stopping) then s
  else { s with notices := s.notices ++ d.succ.map fun t =>
      { task := t, count := 1, source := unitInit uSHUTTLE 0, failed := !ok } }

/-- An output freed by Beam; a handle that no longer names a packet free to be freed is counted (R481). -/
def beamFree (h : Nat) (s : State) : State :=
  if holdable s h then pktFree h s else badHandle h 0 (unitInit uSHUTTLE 0) s

/-- Closed sequences at HEAD released in order: their outputs enqueued on DEST_Q in put order, or freed when the
sequence releases none (R200, R201). -/
def beamRelease (f : Nat) : Nat → State → State
  | 0, s => s
  | n + 1, s =>
    let x := flow s f
    match x.seqs with
    | [] => s
    | q :: r =>
      match q.closed with
      | none => s
      | some rel =>
        let s := flowPut f { x with seqs := r, head := (q.num + 1) % 65536 } s
        let s := q.outs.foldl (fun s h =>
          if rel then (unitEnqueue x.destQ h none (unitInit uSHUTTLE 0) s).2 else beamFree h s) s
        beamRelease f n s

/-- A task's Beam sequence closed, releasing or releasing nothing; the outputs of a skipped sequence are freed
(R200 to R202). -/
def closeSeq (f num : Nat) (rel : Bool) (s : State) : State :=
  let x := flow s f
  match x.skipped.find? (·.num == num) with
  | some q =>
    let s := flowPut f { x with skipped := x.skipped.filter (·.num != num) } s
    q.outs.foldl (fun s h => beamFree h s) s
  | none =>
    let s := flowPut f { x with seqs := x.seqs.map fun q => if q.num == num then { q with closed := some rel } else q } s
    beamRelease f (x.seqs.length + 1) s

/-- The projections are to be evaluated as the step's effects settle (R188). -/
def evalNext (s : State) : State := { s with shuttle := { s.shuttle with evalDue := true } }

/-- A task's completion with a status: deadline accounting, the slot, the successors and the Beam sequence
(R161, R167, R192, R200, R201). `crew` is the crew it ran on, 15 for none. -/
def completeWork (w : Work) (ok : Bool) (crew : Nat) (s : State) : State :=
  let x := slot s w.task
  let d := x.desc
  let t := shortNow s
  let s := if d.cls = 0 ∧ w.deadline ≠ noDeadline ∧ w.deadline < t then
      raiseLim second crew 0x0605 uSHUTTLE 0 1
        (leBytes 2 w.task ++ [BitVec.ofNat 8 crew, 0, 0, 0, 0, 0] ++ leBytes 8 (t - w.deadline))
        (if crew = 15 then shCount 1 1 s else shCountCrew crew 1 1 s)
    else s
  let s := if d.template then s else slotPut w.task {} s
  let s := decSuccessors d w.task ok (evalNext s)
  if d.ordered then closeSeq d.flow w.seq ok s else s

/-- The class-0 lateness does not apply to a task that never ran: cancellation (R167, R191). -/
def cancelWork (w : Work) (s : State) : State :=
  let d := (slot s w.task).desc
  let s := shCount 2 1 s
  let s := if d.template then s else slotPut w.task {} s
  let s := decSuccessors d w.task false (evalNext s)
  if d.ordered then closeSeq d.flow w.seq false s else s

/-- A ready core task no crew can run (R195). -/
def noCrew (s : State) (d : TaskDesc) : Bool :=
  d.target == 0 && !(List.range 12).any fun n => bit d.crewMask n && crewUsable s n

/-- A ready core task that no crew can run completes with FAIL and raises TASK_NO_CREW (R195). -/
def failNoCrew (w : Work) (s : State) : State :=
  raise 0x0609 uSHUTTLE 0 2 (leBytes 2 w.task ++ leBytes 2 (slot s w.task).desc.crewMask)
    (completeWork w false 15 s)

/-- Work that has become ready: a join node completes at once (R158), a core task no crew can run fails (R195), any
other waits for dispatch. -/
def becomeReady (w : Work) (s : State) : State :=
  let d := (slot s w.task).desc
  if d.target = 6 then completeWork w (!w.inputFailed) 15 s
  else if noCrew s d then failNoCrew w s
  else
    let s := if d.template then s else slotPut w.task { slot s w.task with st := .ready } s
    addReady w s

/-- One instance of an armed template created, its packet dequeued and bound (R168 to R170). -/
def createInstance (t : Nat) (failed : Bool) (s : State) : State :=
  let x := slot s t
  let d := x.desc
  let (h, s) := if d.bindQ = 0xFFFF then (none, s) else dequeue d.bindQ s
  let (q, s) := if d.ordered then takeSeq d.flow s else (0, s)
  let i := freeInst s
  let dl := if d.deadline = noDeadline then noDeadline else shortNow s + d.deadline
  becomeReady { task := t, inst := i, handle := h, deadline := dl, inputFailed := failed, seq := q } s

/-- An instance may be created now (R170). -/
def canCreate (s : State) (d : TaskDesc) : Bool :=
  poolRoom s && (!d.ordered || beamRoom (flow s d.flow))

/-- `n` notices at an armed template, in order (R168, R170, R171). -/
def noticeTemplate (t : Nat) (failed : Bool) : Nat → State → State
  | 0, s => s
  | n + 1, s =>
    let x := slot s t
    let s :=
      if x.pending = 0 ∧ canCreate s x.desc then createInstance t failed s
      else if x.pending < 4095 then slotPut t { x with
        pending := x.pending + 1, failedAt := if failed then x.failedAt ++ [x.pending] else x.failedAt } s
      else raise 0x0603 uSHUTTLE 0 1 (leBytes 2 t ++ leBytes 2 x.desc.bindQ) (shCount 12 1 s)
    noticeTemplate t failed n s

/-- A DEP_ERROR event. -/
def depError (t kind : Nat) (i : Initiator) (s : State) : State :=
  raise 0x0602 uSHUTTLE 0 2 (leBytes 2 t ++ [BitVec.ofNat 8 kind, 0] ++ pairBytes i) s

/-- One source event at a slot (R162, R165, R166, R168). -/
def decrement (n : Notice) (s : State) : State :=
  let x := slot s n.task
  match x.st with
  | .free => if n.count = 0 then s else depError n.task 1 n.source (shCount 5 1 s)
  | .armedTemplate => noticeTemplate n.task n.failed n.count s
  | _ =>
    if n.count = 0 then s
    else
      let x' := { x with count := x.count - n.count, inputFailed := x.inputFailed || n.failed }
      let s := slotPut n.task (if x.count = 0 then x else x') s
      if x.count < n.count then depError n.task 2 n.source (shCount 6 1 s) else s

/-- A refused arm (R159). -/
def armRefused (t reason : Nat) (s : State) : State :=
  raise 0x0601 uSHUTTLE 0 1 (leBytes 2 t ++ [BitVec.ofNat 8 reason]) (shCount 7 1 s)

/-- SHUTTLE_TASK_BASE. -/
def taskBase (s : State) : Nat :=
  regF s uSHUTTLE 0 0x00C 15 0 * 2 ^ 32 + regF s uSHUTTLE 0 0x008 31 22 * 2 ^ 22

/-- The descriptor of task `t` from its bytes, limited to the crews its owner may use (R207). -/
def ownedDesc (s : State) (t : Nat) (b : Bytes) : TaskDesc :=
  let d := parseDesc b
  match ownerOfTask s t with
  | some o => { d with crewMask := Nat.land d.crewMask o.mask }
  | none => d

/-- The reason an arm of slot `t` with descriptor bytes `b` is refused, in the order of R159; 0 when it is not. -/
def armReason (t : Nat) (r : Bus) (b : Bytes) (s : State) : Nat :=
  let d := ownedDesc s t b
  let f := flow s d.flow
  let o := ownerOfTask s t
  if (slot s t).st ≠ .free then 1
  else if r ≠ .ok ∨ !descOk t b then 2
  else if d.ordered ∧ (!d.flowValid ∨ f.window = 0) then 2
  else if !(o.any fun o => !o.stopping ∧ isActive s o.obj) ∨
      (d.ordered ∧ ((ownerOfFlow s d.flow).map (·.obj)) ≠ (o.map (·.obj))) then 3
  else if d.cls = 0 ∧ !(o.any (·.class0)) then 4
  else if noCrew s d then 5
  else if d.ordered ∧ !d.template ∧ !beamRoom f then 6
  else 0

/-- A slot armed (R159, R168, R197, R485). -/
def armSlot (t : Nat) (b : Bytes) (s : State) : State :=
  let d := ownedDesc s t b
  if d.template then
    let s := if d.bindQ = 0xFFFF then s
      else queuePut d.bindQ { queue s d.bindQ with notifyKind := 1, notifyTarget := t } s
    slotPut t { st := .armedTemplate, desc := d, count := 1 } s
  else
    let (q, s) := if d.ordered then takeSeq d.flow s else (0, s)
    slotPut t { st := .waiting, desc := d, count := d.init, seq := q } s

/-- The read of the descriptor of slot `t` has to wait for memory that is asleep (R537). -/
def armWaits (t : Nat) (s : State) : Bool :=
  (slot s t).st == .free && (readBytes (unitInit uSHUTTLE 0) (taskBase s + 64 * t) 64 s).1 == .wait

/-- A write of SHUTTLE_ARM: the descriptor is read and the slot armed, or the arm refused (R159). -/
def armOp (t : Nat) (s : State) : State :=
  let z := readBytes (unitInit uSHUTTLE 0) (taskBase s + 64 * t) 64 s
  let k := armReason t z.1 z.2.1 z.2.2.2
  if armWaits t s then waitAt s z.2.2.2
  else if k = 0 then armSlot t z.2.1 z.2.2.2 else armRefused t k z.2.2.2

/-- A slot whose counter is zero and whose release time has come becomes READY (R163); a CANCEL_LATE task whose
deadline has come is cancelled instead (R191). -/
def readyOp (t : Nat) (s : State) : State :=
  let x := slot s t
  if x.st = .waiting ∧ x.count = 0 ∧ x.desc.release ≤ shortNow s then
    let w : Work := { task := t, deadline := x.desc.deadline, inputFailed := x.inputFailed, seq := x.seq }
    if x.desc.cancelLate ∧ x.desc.deadline ≠ noDeadline ∧ x.desc.deadline ≤ shortNow s then cancelWork w s
    else becomeReady w s
  else s

/-- Notices awaiting instances made into instances as room appears (R170). -/
def drainPending (t : Nat) : Nat → State → State
  | 0, s => s
  | n + 1, s =>
    let x := slot s t
    if x.st = .armedTemplate ∧ 0 < x.pending ∧ canCreate s x.desc then
      drainPending t n (createInstance t (x.failedAt.contains 0)
        (slotPut t { x with pending := x.pending - 1, failedAt := (x.failedAt.filter (· != 0)).map (· - 1) } s))
    else s

/-- The bytes of an event record (R632). -/
def eventBytes (s : State) (e : Event) : Bytes :=
  leBytes 8 (shortNow s) ++ [BitVec.ofNat 8 e.unit, BitVec.ofNat 8 e.inst] ++ leBytes 2 e.code ++
    [BitVec.ofNat 8 e.sev, 0] ++ leBytes 2 (s.evSeq % 65536) ++ fit 16 e.data

/-- A record enqueued for delivery: on an on-chip cell, or lost and counted (R636, R637). -/
def deliverTo (q : Nat) (b : Bytes) (s : State) : State :=
  let lost := fun s => regBump uSYS 0 0x240 31 16 1 s
  if q = 0 ∧ (4096 ≤ (queue s 0).items.length ∨ isFull s 0 1) then lost s
  else match alloc .event 32 s with
  | (none, s) => lost s
  | (some h, s) =>
    match enqueue q h none (unitInit uSYS 0) (fillPacket h b s) with
    | (.joined, s) => s
    | (.full, s) => lost (pktFree h s)
    | (_, s) => lost s

/-- The routing entries that match an event (R637). -/
def routesOf (s : State) (e : Event) : List Nat :=
  (List.range 16).filter fun n =>
    let r := (regGet s uSYS 0 (0x200 + 4 * n)).toNat
    bit r 31 && (bits r 23 16 == 0xFF || bits r 23 16 == e.code / 256) && bits r 29 28 ≤ e.sev

/-- One event numbered, enqueued on queue 0, routed and signalled (R633, R636, R637). -/
def deliver (e : Event) (s : State) : State :=
  let b := eventBytes s e
  let s := deliverTo 0 b { s with evSeq := (s.evSeq + 1) % 65536 }
  let rs := routesOf s e
  let s := rs.foldl (fun s n =>
    let q := regF s uSYS 0 (0x200 + 4 * n) 15 0
    if q = 0 then s else deliverTo q b s) s
  let vs := rs.filterMap fun n =>
    let r := (regGet s uSYS 0 (0x200 + 4 * n)).toNat
    if bit r 30 then some (bits r 27 24) else none
  vs.eraseDups.foldl (fun s v => emit (.msix v) s) s

/-- The order of events of one instant: unit, then instance, then code (R633). -/
def eventKey (e : Event) : Nat := e.unit * 2 ^ 32 + e.inst * 2 ^ 16 + e.code

/-- A work's task descriptor. -/
def descOf (s : State) (w : Work) : TaskDesc := (slot s w.task).desc

/-- The EDF order of R183: deadline, class, task ID, the earlier instance; tasks without a deadline last. -/
def edfKey (s : State) (w : Work) : Nat :=
  ((w.deadline * 4 + (descOf s w).cls) * 65536 + w.task) * 2 ^ 64 + w.order

/-- The affinity order of R182: class, deadline, order of becoming ready. -/
def affKey (s : State) (w : Work) : Nat :=
  ((descOf s w).cls * 2 ^ 64 + w.deadline) * 2 ^ 64 + w.order

/-- A core is idle: nothing staged on it and no task held. -/
def coreIdle (s : State) (c : Nat) : Bool :=
  (spFind s.shuttle.staged c).isNone && (spFind s.shuttle.running c).isNone

/-- The core affinity binds a ready core task to; none when neither core of R181 qualifies. -/
def boundCore (s : State) (w : Work) : Option Nat :=
  let d := descOf s w
  let inMask := fun c => bit d.crewMask (c / 8)
  let last := if d.flowValid then (flow s d.flow).lastCore else none
  let base := match last.filter inMask with
    | some c => some c
    | none =>
      if inMask (8 * d.affCrew) && crewUsable s d.affCrew then some (8 * d.affCrew + d.affCore) else none
  base.map fun c =>
    if d.anyCore then ((List.range 8).map fun k => c / 8 * 8 + k).find? (coreIdle s) |>.getD c else c

/-- The ready core tasks. -/
def readyCore (s : State) : List Work := s.shuttle.ready.filter fun w => (descOf s w).target == 0

/-- EDF across the device is in force (R179, R186). -/
def edfDevice (s : State) : Bool := s.shuttle.service != .normal || s.shuttle.deviceRescue

/-- The least element of a list under a key. -/
def leastBy {α : Type} (key : α → Nat) : List α → Option α
  | [] => none
  | x :: r => match leastBy key r with
    | none => some x
    | some y => if key x ≤ key y then some x else some y

/-- Remaining declared cost of the work on a core, and of its staged task: R(C) of R184. -/
def remCost (s : State) (c : Nat) : Nat :=
  let run := match spFind s.shuttle.running c with
    | some r =>
      let k := (descOf s r.work).cost
      if s.now < r.start + k then r.start + k - s.now else k
    | none => 0
  run + match spFind s.shuttle.staged c with
    | some w => (descOf s w).cost
    | none => 0

/-- The cores that may run a task in a scope: every usable crew of its mask, or one crew. -/
def scopeCores (s : State) (crew : Option Nat) (w : Work) : List Nat :=
  (List.range 96).filter fun c =>
    crewUsable s (c / 8) && bit (descOf s w).crewMask (c / 8) && (crew.isNone || crew == some (c / 8))

/-- The ready core tasks of a scope: a crew's own, or the device's. -/
def scopeTasks (s : State) (crew : Option Nat) : List Work :=
  match crew with
  | none => readyCore s
  | some n => (readyCore s).filter fun w => (boundCore s w).any fun b => b / 8 == n

/-- P(T) for a task dispatched by EDF in a scope (R184); none when no core of the scope may run it. -/
def projectPool (s : State) (crew : Option Nat) (w : Work) : Option Nat :=
  let cs := scopeCores s crew w
  match cs.map (remCost s) with
  | [] => none
  | r :: rs =>
    let ahead := (scopeTasks s crew).filter fun v => edfKey s v < edfKey s w
    some (shortNow s + rs.foldl min r + ceilDiv (sumL (ahead.map fun v => (descOf s v).cost)) cs.length +
      (descOf s w).cost)

/-- P(T) for a task waiting for one core (R184). -/
def projectCore (s : State) (c : Nat) (w : Work) : Nat :=
  let ahead := (readyCore s).filter fun v => boundCore s v == some c && affKey s v < affKey s w
  shortNow s + remCost s c + sumL (ahead.map fun v => (descOf s v).cost) + (descOf s w).cost

/-- P(T) as things stand for a class-0 task. -/
def projection (s : State) (w : Work) : Option Nat :=
  if edfDevice s then projectPool s none w
  else match boundCore s w with
  | some c => if s.shuttle.crewRescue.contains (c / 8) then projectPool s (some (c / 8)) w else some (projectCore s c w)
  | none => projectPool s none w

/-- MARGIN, RETURN_SLACK and RETURN_HOLD in nanoseconds. -/
def margin (s : State) : Nat := regF s uSHUTTLE 0 0x010 15 0 * 10
def returnSlack (s : State) : Nat := regF s uSHUTTLE 0 0x010 31 16 * 10
def returnHold (s : State) : Nat := regF s uSHUTTLE 0 0x014 15 0 * 1000

/-- A projection misses: P > DEADLINE − MARGIN. -/
def misses (s : State) (w : Work) (p : Option Nat) : Bool := p.any fun p => p + margin s > w.deadline

/-- The return test of R187 over the ready class-0 tasks of a scope. -/
def slackOk (s : State) (crew : Option Nat) : Bool :=
  ((scopeTasks s crew).filter fun w => (descOf s w).cls == 0).all fun w =>
    (projection s w).any fun p => p + returnSlack s ≤ w.deadline

/-- How long the return test of a scope (a crew, or 15 for the device) has held, brought up to date. -/
def holdSlack (k : Nat) (ok : Bool) (s : State) : Bool × State :=
  let sh := s.shuttle
  if !ok then (false, { s with shuttle := { sh with slackSince := spDel sh.slackSince k } })
  else match spFind sh.slackSince k with
  | some t => (decide (t + returnHold s ≤ s.now), s)
  | none => (returnHold s = 0, { s with shuttle := { sh with slackSince := spPut sh.slackSince k s.now } })

/-- RESCUE_ENTER and RESCUE_EXIT. -/
def rescueEvent (enter : Bool) (k : Nat) (s : State) : State :=
  raise (if enter then 0x0606 else 0x0607) uSHUTTLE 0 0 [BitVec.ofNat 8 k] s

/-- COST_OVERRUN counted once for each running core task past its declared cost (R184). -/
def countOverruns (s : State) : State :=
  s.shuttle.running.foldl (fun s e =>
    let r := e.2
    if !r.overrun && r.start + (descOf s r.work).cost ≤ s.now then
      shCountCrew (e.1 / 8) 3 1
        { s with shuttle := { s.shuttle with running := spPut s.shuttle.running e.1 { r with overrun := true } } }
    else s) s

/-- Every rescue in progress ends as SERVICE leaves NORMAL (R189). -/
def endRescues (s : State) : State :=
  let sh := s.shuttle
  let s := sh.crewRescue.foldl (fun s n => rescueEvent false n s) s
  let s := if sh.deviceRescue then rescueEvent false 15 s else s
  { s with shuttle := { s.shuttle with crewRescue := [], deviceRescue := false, slackSince := [] } }

/-- SERVICE set (R179, R189). -/
def setService (v : Service) (s : State) : State :=
  let s := if s.shuttle.service = .normal ∧ v ≠ .normal then endRescues s else s
  { s with shuttle := { s.shuttle with service := v, slackSince := if s.shuttle.service = v then s.shuttle.slackSince else [] } }

/-- One crew's entry into or return from crew rescue at an evaluation (R185, R187, R188). -/
def evalCrew (n : Nat) (s : State) : State :=
  let zero := (scopeTasks s (some n)).filter fun w => (descOf s w).cls == 0
  let entry := zero.any fun w => misses s w (projection s w)
  if s.shuttle.crewRescue.contains n then
    let (held, s) := holdSlack n (slackOk s (some n)) s
    if held && !entry && !s.shuttle.deviceRescue then
      rescueEvent false n
        { s with shuttle := { s.shuttle with crewRescue := s.shuttle.crewRescue.erase n
                                             slackSince := spDel s.shuttle.slackSince n } }
    else s
  else if entry && regF s uSHUTTLE 0 0x000 2 2 == 1 && !s.shuttle.deviceRescue && crewUsable s n then
    shCountCrew n 8 1 (rescueEvent true n
      { s with shuttle := { s.shuttle with crewRescue := s.shuttle.crewRescue ++ [n]
                                           slackSince := spDel s.shuttle.slackSince n } })
  else s

/-- A crew in rescue holds a class-0 task at the head of its EDF order that it cannot finish in time (R186). -/
def crewHopeless (s : State) (n : Nat) : Bool :=
  match leastBy (edfKey s) (scopeTasks s (some n)) with
  | none => false
  | some w =>
    (descOf s w).cls == 0 &&
      match ((List.range 8).map fun k => remCost s (8 * n + k)) with
      | [] => false
      | r :: rs => shortNow s + rs.foldl min r + (descOf s w).cost + margin s > w.deadline

/-- One evaluation of the projections (R184 to R189, R194). -/
def rescueEval (s : State) : State :=
  let s := countOverruns { s with shuttle := { s.shuttle with evalDue := false } }
  match s.shuttle.service with
  | .normal =>
    let s := (List.range 12).foldl (fun s n => evalCrew n s) s
    let entry := s.shuttle.crewRescue.any (crewHopeless s)
    if s.shuttle.deviceRescue then
      let (held, s) := holdSlack 15 (slackOk s none) s
      if held && !entry then
        rescueEvent false 15 { s with shuttle := { s.shuttle with deviceRescue := false, slackSince := [] } }
      else s
    else if entry && regF s uSHUTTLE 0 0x000 3 3 == 1 then
      shCount 9 1 (rescueEvent true 15 { s with shuttle := { s.shuttle with deviceRescue := true, slackSince := [] } })
    else s
  | .recovery =>
    let (held, s) := holdSlack 15 (slackOk s none) s
    if held then setService .normal s else s
  | _ => s

/-- Everything a step raised carried through: decrements reach their slots, events are delivered in the order of R633, and
the projections are evaluated where a task became ready, was dispatched or completed (R188), until nothing is left. -/
def settle : Nat → State → State
  | 0, s => s
  | n + 1, s =>
    match s.notices with
    | x :: r => settle n (decrement x { s with notices := r })
    | [] =>
      match sortBy eventKey s.evq with
      | e :: r => settle n (deliver e { s with evq := r })
      | [] => if s.shuttle.evalDue then settle n (rescueEval s) else s

/-- The outcome of a command whose effects have been applied. -/
def done (s : State) : Res := .next (settle 4096 s)

end Sys2Proof.Machine
end

