-- ==== Sys2Proof/Machine/Cmd.lean ====
section
/-!
DEFINITION. The command interface: packets, checks, replies, the reply FIFO and long commands (02_commands.md, R33 to
R56), and the commands of the system family that act on nothing else.
-/
namespace Sys2Proof.Machine
open Sys2Proof

/-- Status codes (02_commands.md, Status codes). -/
abbrev stDONE : Nat := 0x0000
abbrev stACCEPTED : Nat := 0x0001
abbrev stNOT_READY : Nat := 0x0002
abbrev stBAD_OPCODE : Nat := 0x0010
abbrev stBAD_LENGTH : Nat := 0x0011
abbrev stBAD_PARAM : Nat := 0x0012
abbrev stUNIT_ABSENT : Nat := 0x0013
abbrev stFUNCTION_RUNNING : Nat := 0x0014
abbrev stFUNCTION_STOPPED : Nat := 0x0015
abbrev stNO_RESOURCE : Nat := 0x0016
abbrev stBUSY : Nat := 0x0017
abbrev stADMISSION_REFUSED : Nat := 0x0018
abbrev stSIGNATURE_FAIL : Nat := 0x0020
abbrev stIMAGE_INCOMPLETE : Nat := 0x0021
abbrev stROLLBACK : Nat := 0x0022
abbrev stNOT_AUTHORISED : Nat := 0x0023
abbrev stCONFIG_INVALID : Nat := 0x0024
abbrev stTIME_UNSET : Nat := 0x0030
abbrev stHW_FAULT : Nat := 0x0040
abbrev stVERSION_UNSUPPORTED : Nat := 0x0101
abbrev stOBJECT_UNKNOWN : Nat := 0x0102
abbrev stSEQ_IN_USE : Nat := 0x0103
abbrev stCANCELLED : Nat := 0x0104

/-- The number of a transport in the rotation and in CMD_QUERY. -/
def transportNo : Transport → Nat
  | .pcie => 0 | .eth => 1 | .uart => 2

/-- The transport of a number. -/
def transportOf : Nat → Transport
  | 0 => .pcie | 1 => .eth | _ => .uart

/-- A reply packet (Packet format): results are padded to whole words. -/
def replyPacket (opcode : Nat) (seq : BitVec 16) (unit inst : BitVec 8) (flags status : Nat) (results : Bytes) : Bytes :=
  let n := roundUp results.length 4
  leBytes 2 opcode ++ leBytes 2 seq.toNat ++ leBytes 2 (4 + n / 4) ++ [unit, inst, BitVec.ofNat 8 flags, 1] ++
    leBytes 2 status ++ zeros 4 ++ fit n results

/-- The CRC-16 of a UART frame (Transports). -/
def crc16 (bs : Bytes) : Nat := crcMsb 16 0x1021 0xFFFF bs

/-- COBS encoding: runs of non-zero bytes preceded by their length plus one. -/
def cobsGo : Bytes → Bytes → Bytes
  | [], run => BitVec.ofNat 8 (run.length + 1) :: run
  | b :: bs, run =>
    if b = 0 then (BitVec.ofNat 8 (run.length + 1) :: run) ++ cobsGo bs []
    else if run.length = 253 then (255 :: (run ++ [b])) ++ cobsGo bs []
    else cobsGo bs (run ++ [b])

/-- A UART frame of a packet: the packet and its CRC, COBS-encoded, ended by 0x00. -/
def uartFrameOf (p : Bytes) : Bytes := cobsGo (p ++ leBytes 2 (crc16 p)) [] ++ [0]

/-- COBS decoding; none for a frame that is not valid COBS. -/
def cobsDecode : Nat → Bytes → Option Bytes
  | 0, _ => none
  | _ + 1, [] => some []
  | f + 1, c :: bs =>
    let n := c.toNat
    let run := bs.take (n - 1)
    if n = 0 ∨ run.length < n - 1 ∨ run.any (· == 0) then none
    else
      let rest := bs.drop (n - 1)
      match cobsDecode f rest with
      | none => none
      | some r => if rest = [] then some run else if n = 255 then some (run ++ r) else some (run ++ 0 :: r)

/-- The MSI-X vector of the reply interrupt (SYS_CMD_IRQ). -/
def replyVector (s : State) : Nat := regF s uSYS 0 0x10C 3 0

/-- A reply put into the PCI Express FIFO (R39, R46). -/
def fifoPut (p : Bytes) (note : Bool) (s : State) : State :=
  let irq := note || (regF s uSYS 0 0x10C 31 31 == 1 && s.cmd.replies.isEmpty)
  let s := { s with cmd := { s.cmd with replies := s.cmd.replies ++ [p] } }
  if irq then emit (.msix (replyVector s)) s else s

/-- A reply queued on its transport (R35, R39, R46); `note` for a completion whose request set NOTIFY. A completion that
finds the FIFO's 64 places taken waits outside it and enters as pops make room, which the spec leaves open (DESIGN CHOICE,
log 106). -/
def queueReply (t : Transport) (source : Nat) (p : Bytes) (note : Bool) (s : State) : State :=
  match t with
  | .pcie =>
    if s.cmd.replies.length < 64 then fifoPut p note s
    else { s with cmd := { s.cmd with backlog := s.cmd.backlog ++ [(p, note)] } }
  | .eth => emit (.reply .eth source p) s
  | .uart => emit (.reply .uart source (uartFrameOf p)) s

/-- The immediate reply of a request. -/
def reply (opcode : Nat) (r : Request) (status : Nat) (results : Bytes) (s : State) : State :=
  queueReply r.transport r.source
    (replyPacket opcode r.sequence r.unit r.inst (r.flags.toNat % 4) status results) false s

/-- DRY_RUN is set. -/
def dryRun (r : Request) : Bool := bit r.flags.toNat 0

/-- The target check of R40: the unit and instance present, and the ones the opcode requires. -/
def targetCheck (s : State) (r : Request) (unit inst : Nat) : Nat :=
  if !unitPresent s.part r.unit.toNat r.inst.toNat then stUNIT_ABSENT
  else if r.unit.toNat = unit ∧ r.inst.toNat = inst then 0 else stBAD_PARAM

/-- The first status that is not 0. -/
def firstFail : List Nat → Nat
  | [] => 0
  | x :: xs => if x = 0 then firstFail xs else x

/-- The checks of a request whose header has a reserved byte that is not 0: BAD_PARAM, once the target and the length of
the parameters have passed (R40; DEDUCED, log 24). -/
def headed (r : Request) (chk : Nat) : Nat :=
  if !r.reserved ∨ chk = stUNIT_ABSENT ∨ chk = stBAD_LENGTH then chk else stBAD_PARAM

/-- The status of a condition. -/
def need (c : Bool) (st : Nat) : Nat := if c then 0 else st

/-- An immediate command: its checks, then its effect, which gives a status, results and the state. With DRY_RUN the
reply is DONE without results, whatever results the command has (R40; DESIGN CHOICE, log 105). -/
def runCmd (opcode : Nat) (r : Request) (check : Nat) (act : State → Nat × Bytes × State) (s : State) : State :=
  if headed r check ≠ 0 then reply opcode r (headed r check) [] s
  else if dryRun r then reply opcode r stDONE [] s
  else
    let (st, res, s) := act s
    reply opcode r st res s

/-- A long command is outstanding on a transport with a sequence (R53). -/
def seqInUse (s : State) (t : Transport) (q : BitVec 16) : Bool :=
  s.cmd.longs.any fun l => l.transport == t && l.sequence == q

/-- A long command: the target and parameter checks, R53 and R52, the state and admission checks, then its beginning
(R50, R51). -/
def runLong (opcode : Nat) (r : Request) (pchk : Nat) (schk : Nat) (obj : Option Nat) (cancellable : Bool)
    (act : State → State) (s : State) : State :=
  let st := firstFail [headed r pchk, need (!seqInUse s r.transport r.sequence) stSEQ_IN_USE,
    need (s.cmd.longs.length < 32) stBUSY, schk]
  if st ≠ 0 then reply opcode r st [] s
  else if dryRun r then reply opcode r stDONE [] s
  else
    let l : Long :=
      { transport := r.transport, source := r.source, opcode := opcode, sequence := r.sequence, unit := r.unit,
        inst := r.inst, flags := r.flags, params := r.params, obj := obj, cancellable := cancellable }
    reply opcode r stACCEPTED [] (act { s with cmd := { s.cmd with longs := s.cmd.longs ++ [l] } })

/-- A long command's completion: it is no longer outstanding and its one completion reply is queued, unless its
transport was flushed (R38, R50). -/
def completeLong (l : Long) (status : Nat) (results : Bytes) (s : State) : State :=
  let s := { s with cmd := { s.cmd with longs := s.cmd.longs.erase l } }
  if l.muted then s
  else queueReply l.transport l.source
    (replyPacket l.opcode l.sequence l.unit l.inst (0x80 + l.flags.toNat % 4) status results)
    (l.transport == .pcie && bit l.flags.toNat 1) s

/-- The outstanding long command of an opcode low byte on an object. -/
def longOn (s : State) (low : Nat) (id : Nat) : Option Long :=
  s.cmd.longs.find? fun l => l.opcode % 256 == low && l.obj == some id

/-- A long command is outstanding on an object (R54). -/
def objBusy (s : State) (id : Nat) : Bool := s.cmd.longs.any fun l => l.obj == some id

/-- Changed state of a function recorded. -/
def setFn (id : Nat) (st : FnState) (s : State) : State :=
  match objFind s id with
  | some o => objPut id { o with st := some st, changed := shortNow s } s
  | none => s

/-- A function reaches RUNNING and its START completes (R62). -/
def reachRunning (id : Nat) (s : State) : State :=
  let s := setFn id .running s
  match objFind s id, longOn s 3 id with
  | some o, some l =>
    completeLong l stDONE (leBytes 2 o.cost ++ [0, 0] ++ leBytes 8 (shortNow s)) (objPut id { o with last := stDONE } s)
  | some o, none => objPut id { o with last := stDONE } s
  | none, _ => s

/-- A function's cost taken from COMMITTED (R27, R63, R65). -/
def releaseCost (id : Nat) (s : State) : State :=
  match objFind s id with
  | some o => setCommitted (committed s - o.cost) (objPut id { o with cost := 0 } s)
  | none => s

/-- A STARTING function that cannot reach RUNNING (R63). -/
def startFailed (id status : Nat) (s : State) : State :=
  let s := setFn id .stopped (releaseCost id s)
  match objFind s id, longOn s 3 id with
  | some o, some l => completeLong l status [] (objPut id { o with last := status } s)
  | some o, none => objPut id { o with last := status } s
  | none, _ => s

/-- A function reaches STOPPED and its STOP completes (R65). -/
def reachStopped (id : Nat) (s : State) : State :=
  let s := setFn id .stopped (releaseCost id s)
  match objFind s id, longOn s 4 id with
  | some o, some l => completeLong l stDONE (leBytes 8 (shortNow s)) (objPut id { o with last := stDONE } s)
  | some o, none => objPut id { o with last := stDONE } s
  | none, _ => s

/-- A write of SYS_CMD_DOORBELL (R36, R37). -/
def doorbellOp (len : Nat) (s : State) : State :=
  if 16 ≤ s.cmd.reqPcie.length then regPutF uSYS 0 0x104 31 31 1 s
  else
    let ws := (List.range (min len 1024)).flatMap fun k => leBytes 4 (spGet 0 s.cmd.reqWindow k).toNat
    { s with cmd := { s.cmd with reqPcie := s.cmd.reqPcie ++ [{ data := ws, words := some len }] } }

/-- The management port holds an address (R70). -/
def mgmtAddressed (s : State) : Bool := (objFind s 0x01020000).isSome

/-- A datagram arriving on the management port, which serves requests while its link is up (R34, R70). -/
def datagramOp (source : Nat) (bs : Bytes) (s : State) : State :=
  if regF s uSYS 0 0x110 1 1 = 0 ∨ !mgmtAddressed s ∨ regF s uETH 48 0x004 31 31 = 0 then s
  else if 16 ≤ s.cmd.reqEth.length then regBump uSYS 0 0x120 15 0 1 s
  else
    let w := if bs.length % 4 = 0 then some (bs.length / 4) else none
    { s with cmd := { s.cmd with reqEth := s.cmd.reqEth ++ [{ data := bs, words := w, source := source }] } }

/-- A frame arriving on the UART console, without its closing 0x00 (R34). -/
def uartOp (bs : Bytes) (s : State) : State :=
  let drop := regBump uSYS 0 0x120 31 16 1 s
  if regF s uSYS 0 0x110 2 2 = 0 then s
  else match cobsDecode (bs.length + 1) bs with
  | none => drop
  | some d =>
    let p := d.take (d.length - 2)
    if d.length < 2 ∨ fld d (d.length - 2) 2 ≠ crc16 p ∨ 16 ≤ s.cmd.reqUart.length then drop
    else
      let w := if p.length % 4 = 0 then some (p.length / 4) else none
      { s with cmd := { s.cmd with reqUart := s.cmd.reqUart ++ [{ data := p, words := w }] } }

/-- The idle reply (R47). -/
def idleReply (s : State) : Bytes := replyPacket 0 s.cmd.lastSeq 0 0 0x40 stNOT_READY []

/-- The oldest completion that waits for a place in the reply FIFO takes the one a pop has left. -/
def backlogIn (s : State) : State :=
  match s.cmd.backlog with
  | (p, note) :: r => fifoPut p note { s with cmd := { s.cmd with backlog := r } }
  | [] => s

/-- A read of SYS_CMD_RPL_POP (R46 to R48). -/
def rplPopOp (s : State) : State :=
  match s.cmd.replies with
  | p :: r =>
    answer (fld p 0 4) (backlogIn
      { s with cmd := { s.cmd with replies := r, replyWindow := p, lastSeq := BitVec.ofNat 16 (fld p 2 2) } })
  | [] =>
    let p := idleReply s
    answer (fld p 2 2 * 0x10000) { s with cmd := { s.cmd with replyWindow := p } }

/-- A transport's queued requests and waiting replies discarded; its long commands run on in silence (R38). -/
def flushOp (t : Transport) (s : State) : State :=
  let c := s.cmd
  let c := { c with longs := c.longs.map fun (l : Long) => if l.transport = t then { l with muted := true } else l }
  { s with cmd := match t with
      | .pcie => { c with reqPcie := [], replies := [], backlog := [], lastSeq := 0 }
      | .eth => { c with reqEth := [] }
      | .uart => { c with reqUart := [] } }

/-- SYS_CAP_UNITS: bit n is 1 when unit `base + n` has a present instance; the unit numbers' order is the table's. -/
def capUnits (p : Part) (base : Nat) : Nat :=
  (List.range 32).foldl (fun acc n =>
    acc + (if (List.range (unitInstances (base + n))).any fun i => unitPresent p (base + n) i then 2 ^ n else 0)) 0

/-- The nine registers SYS_CAP_PART to SYS_CREW_BUDGET (R21, R22). -/
def capReg (s : State) (off : Nat) : Nat :=
  let p := s.part
  if off = 0x000 then
    (match p with | .yd4460 => 0x4460 | .yd4440 => 0x4440 | .yd4420 => 0x4420) * 0x10000 +
      (Config.siliconMajor p).toNat * 0x1000 + (Config.siliconMinor p).toNat * 0x100
  else if off = 0x004 then capUnits p 0
  else if off = 0x008 then capUnits p 0x20
  else if off = 0x00C then failedMask s * 0x10000 + (2 ^ crewCount p - 1)
  else if off = 0x010 then 2 ^ min (laneCount p) 32 - 1
  else if off = 0x014 then 2 ^ (laneCount p - 32) - 1
  else if off = 0x018 then b2n (hasLogicArray p) * 2 ^ 31 + (2 ^ videoCount p - 1) * 2 ^ 16 + cssChannels p
  else if off = 0x01C then
    let up := s.memChans.filter fun c => regF s uMEM c 0x000 31 31 = 1
    sumL (up.map fun c => 2 ^ (24 + c)) + sumL (up.map fun c => regF s uMEM c 0x000 23 16)
  else committed s * 2 ^ 20 + spare s * 2 ^ 10 + available s

/-- CAPS (R22). -/
def capsOp (r : Request) (s : State) : State :=
  runCmd 0x0140 r (firstFail [targetCheck s r uSYS 0, need (r.params.length == 0) stBAD_LENGTH])
    (fun s => (stDONE, (List.range 9).flatMap fun k => leBytes 4 (capReg s (4 * k)), s)) s

/-- ECHO. -/
def echoOp (r : Request) (s : State) : State :=
  runCmd 0x0141 r (targetCheck s r uSYS 0) (fun s => (stDONE, r.params, s)) s

/-- The long command a CMD_QUERY or CANCEL names. -/
def queried (s : State) (p : Bytes) : Option Long :=
  s.cmd.longs.find? fun l => l.sequence.toNat == fld p 0 2 && transportNo l.transport == fld p 2 1

/-- The parameter checks of CMD_QUERY and CANCEL. -/
def queryCheck (s : State) (r : Request) : Nat :=
  firstFail [targetCheck s r uSYS 0, need (r.params.length == 4) stBAD_LENGTH,
    need (fld r.params 2 1 < 3 && rsv r.params 3 1) stBAD_PARAM]

/-- CMD_QUERY (R54). -/
def cmdQueryOp (r : Request) (s : State) : State :=
  runCmd 0x0142 r (queryCheck s r)
    (fun s => match queried s r.params with
      | some l => (stDONE, [1, BitVec.ofNat 8 (b2n l.cancellable)] ++ leBytes 2 l.opcode, s)
      | none => (stDONE, zeros 4, s)) s

end Sys2Proof.Machine
end

