-- ==== Sys2Proof/Machine/Cox.lean ====
section
/-!
DEFINITION. Cox: the counter, its steering, the time states, the references and their selection, PTP, PPS inputs and the
time commands (12_cox_time.md, R417 to R450, R659, R665).
-/
namespace Sys2Proof.Machine
open Sys2Proof

/-- The unset values of the time reference settings (R665). -/
def timeUnset : Bytes :=
  [0, 0, 0, 128, 128, 0, 6, 37] ++ leBytes 4 100 ++ leBytes 2 10 ++ leBytes 2 1000 ++ leBytes 4 0 ++ leBytes 4 1000 ++
    [1, 128] ++ zeros 6 ++ (List.range 4).flatMap (fun _ => [0, 128] ++ zeros 6) ++ zeros 64

/-- The time reference settings in force (R447, R665). -/
def timeBody (s : State) : Bytes := ((objFind s 0x05010000).map (·.body)).getD timeUnset

/-- Fields of the settings. -/
def timeFlag (s : State) (k : Nat) : Bool := bit (fld (timeBody s) 0 1) k
def timePorts (s : State) : Nat := fld (timeBody s) 5 1
def lockNs (s : State) : Nat := fld (timeBody s) 8 4
def lockS (s : State) : Nat := fld (timeBody s) 12 2
def slewPpb (s : State) : Nat := fld (timeBody s) 14 2
def holdoverS (s : State) : Nat := fld (timeBody s) 16 4
def stepNs (s : State) : Nat := fld (timeBody s) 20 4

/-- Fields of PPS input entry `n`. -/
def ppsFlag (s : State) (n k : Nat) : Bool := bit (fld (timeBody s) (32 + 8 * n) 1) k
def ppsPriority (s : State) (n : Nat) : Nat := fld (timeBody s) (33 + 8 * n) 1
def ppsDelay (s : State) (n : Nat) : Int := toS 32 (fld (timeBody s) (36 + 8 * n) 4)

/-- The entry of PTP port `p`, and its fields. -/
def portEntry (s : State) (p : Nat) : Bytes := sub (timeBody s) (128 + 32 * p) 32
def portFlag (s : State) (p k : Nat) : Bool := bit (fld (portEntry s p) 2 1) k
def portAsym (s : State) (p : Nat) : Int := toS 32 (fld (portEntry s p) 12 4)

/-- A message interval in nanoseconds from its signed logarithm. -/
def logNs (l : Nat) : Nat :=
  let v := toS 8 l
  if v < 0 then second / 2 ^ (-v).toNat else second * 2 ^ v.toNat

/-- Cox with a change applied. -/
def coxMod (f : Cox → Cox) (s : State) : State := { s with cox := f s.cox }

/-- A PPS input and a PTP port of the state. -/
def ppsIn (s : State) (n : Nat) : PpsIn := spGet {} s.cox.pps n
def ppsPut (n : Nat) (x : PpsIn) (s : State) : State := coxMod (fun (c : Cox) => { c with pps := spSet {} c.pps n x }) s
def ptpPort (s : State) (p : Nat) : PtpPort := spGet {} s.cox.ports p
def ptpPut (p : Nat) (x : PtpPort) (s : State) : State := coxMod (fun (c : Cox) => { c with ports := spSet {} c.ports p x }) s

/-- A counter of a port raised. -/
def ptpCount (p k : Nat) (s : State) : State :=
  let x := ptpPort s p
  ptpPut p { x with counts := x.counts.modify k fun n => satN 0xFFFFFFFF (n + 1) } s

/-- The counter in units of 2^-16 ns. -/
def coxFine (s : State) : Int := (s.coxCount / 2 ^ 32 : Nat)

/-- The limit of the frequency correction, 100 ppm in units of 2^-48 ns per cycle (R418). -/
abbrev freqLimit : Int := 28147497671

/-- A correction kept within the limit. -/
def clampFreq (v : Int) : Int := if v > freqLimit then freqLimit else if v < -freqLimit then -freqLimit else v

/-- The slew of one cycle (R426): SLEW_PPB in the direction of the phase still to be slewed, never past it. -/
def slewStep (s : State) : Int :=
  let u : Int := (slewPpb s * 2 ^ 48 / second : Nat)
  if s.cox.slew > 0 then min u s.cox.slew else if s.cox.slew < 0 then max (-u) s.cox.slew else 0

/-- One cycle of the Cox PLL (R417, R418, R426). -/
def coxTick (s : State) : State :=
  let total := clampFreq (s.cox.freq + slewStep s)
  let slewed := total - s.cox.freq
  coxMod (fun (c : Cox) => { c with slew := c.slew - (if c.slew = 0 then 0 else slewed) })
    { s with now := s.now + 1, coxCount := ((s.coxCount : Int) + 2 ^ 48 + total).toNat }

/-- A 64-bit time moved by D; all ones stands for none (R420). -/
def shiftTime (d : Int) (t : Nat) : Nat := if t = 0xFFFFFFFFFFFFFFFF then t else ((t : Int) + d).toNat

/-- The times that Shuttle and the cores hold, moved by D (R420). -/
def shiftTasks (d : Int) (s : State) : State :=
  let w := fun (x : Work) => { x with deadline := shiftTime d x.deadline }
  let r := fun (x : Running) => { x with work := w x.work }
  let sl := fun (x : Slot) =>
    if x.st = .free then x
    else { x with desc := { x.desc with release := shiftTime d x.desc.release,
                                        deadline := if x.desc.template then x.desc.deadline else shiftTime d x.desc.deadline } }
  let h := s.shuttle
  { s with
    shuttle := { h with
      slots := h.slots.map fun e => (e.1, sl e.2)
      ready := h.ready.map w
      staged := h.staged.map fun e => (e.1, w e.2)
      running := h.running.map fun e => (e.1, r e.2)
      engines := h.engines.map fun e => (e.1, r e.2) }
    dma := s.dma.map fun e => (e.1, { e.2 with work := e.2.work.map w, staged := e.2.staged.map w })
    cores := s.cores.map fun e => (e.1, { e.2 with timerCmp := BitVec.ofNat 64 (shiftTime d e.2.timerCmp.toNat) }) }

/-- Pending APPLY times of the compositor and of the handset commands moved by D, and the audio engine's step (R358,
R420). -/
def shiftMedia (d : Int) (s : State) : State :=
  let mv := fun (t : Nat) => ((t : Int) + d).toNat
  let ly := fun (x : LayoutRun) => { x with waiting := x.waiting.map fun e => (e.1, if e.2 = 0 then 0 else mv e.2) }
  let hs := fun (x : Handset) => { x with next := x.next.map fun e => (e.1, if e.2 = 0 then 0 else mv e.2) }
  audioStep d (fun g => isRunning s (bridgeObj g))
    { s with handsets := s.handsets.map fun e => (e.1, hs e.2)
             video := { s.video with layouts := s.video.layouts.map fun e => (e.1, ly e.2) } }

/-- The counter set to a value in units of 2^-48 ns: the epoch change, or a step (R419, R420). -/
def coxSet (count : Nat) (s : State) : State :=
  let old := shortNow s
  let s1 := { s with coxCount := count }
  let d : Int := (shortNow s1 : Int) - old
  let fine := coxFine s1 - coxFine s
  let code := if s.cox.epochSet then 0x0303 else 0x0302
  let s1 := coxMod (fun (c : Cox) => { c with epochSet := true
                                              lockedOnce := c.lockedOnce && c.epochSet
                                              stepAt := shortNow s1
                                              launches := c.launches.map fun x => { x with at_ := ((x.at_ : Int) + d).toNat }
                                              pps := c.pps.map fun e => (e.1, { e.2 with base := e.2.base + fine })
                                              ports := c.ports.map fun e => (e.1, { e.2 with
                                                sync := e.2.sync.map fun x => (x.1, x.2 + fine)
                                                t3 := e.2.t3.map (· + fine) }) }) s1
  raise code uCOX 0 (if code = 0x0303 then 1 else 0) (leBytes 8 (ofS 64 d)) (shiftMedia d (shiftTasks d s1))

/-- CARRIER_TIME_DEGRADED of every running carrier with REQUIRE_LOCKED (R128). -/
def carriersDegraded (st : Nat) (s : State) : State :=
  (objsOf s 2 1 ++ objsOf s 2 2).foldl (fun s e =>
    if e.2.st == some .running && carFlag e.2.body 0 then
      raiseLim second (e.1 % 0x10000) 0x2204 uFRONTHAUL (e.1 % 0x10000) 1 [BitVec.ofNat 8 st] s
    else s) s

/-- The code of a time state. -/
def timeCode : TimeState → Nat
  | .unset => 0 | .freerun => 1 | .locking => 2 | .locked => 3 | .holdover => 4

/-- The mean frequency correction of the last 64 s of LOCKED operation (R425). -/
def meanFreq (now : Nat) (h : List (Nat × Int)) : Int :=
  let lo := now - 64 * second
  let seg := (h.foldl (fun (acc : Int × Nat × Nat) e =>
      let a := max e.1 lo
      let n := acc.2.1 - a
      (acc.1 + e.2 * n, min acc.2.1 a, acc.2.2 + n)) (0, now, 0))
  if seg.2.2 = 0 then (h.head?.map (·.2)).getD 0 else seg.1 / seg.2.2

/-- A change of time state (R423 to R425). -/
def setTime (new : TimeState) (s : State) : State :=
  let old := s.cox.st
  if old = new then s
  else
    let f := if new = .holdover then meanFreq s.now s.cox.history else s.cox.freq
    let s := coxMod (fun (c : Cox) => { c with
      st := new, goodSince := none, bad := 0, freq := f
      slew := if new = .holdover then 0 else c.slew
      lockedOnce := c.lockedOnce || new == .locked
      history := if new = .locked then [(s.now, f)] else []
      holdSince := if new = .holdover then s.now else c.holdSince }) s
    let s := raise 0x0301 uCOX 0 0
      [BitVec.ofNat 8 (timeCode old), BitVec.ofNat 8 (timeCode new), BitVec.ofNat 8 s.cox.ref] s
    if old = .locked then carriersDegraded (timeCode new) s else s

/-- A reference is injected as lost (R645, KIND 4). -/
def refLost (s : State) (r : Nat) : Bool := s.power.injections.any fun i => i.kind == 4 && i.target == r

/-- A reference may be selected (R430, R431, R443, R659). -/
def refValid (s : State) (r : Nat) : Bool :=
  s.cox.osc &&
    (if r < 16 then (ptpPort s r).valid && (ptpPort s r).st == 9
     else s.cox.epochSet && ppsFlag s (r - 16) 0 && (ppsIn s (r - 16)).valid)

/-- The rank of a reference, lower preferred (R431). -/
def refRank (s : State) (r : Nat) : Nat :=
  (if r < 16 then fld (timeBody s) 25 1 else ppsPriority s (r - 16)) * 64 + r

/-- The best valid reference. -/
def bestRef (s : State) : Option Nat :=
  ((List.range 20).filter (refValid s)).foldl (fun acc r => match acc with
    | none => some r
    | some q => if refRank s r < refRank s q then some r else some q) none

/-- The selected reference changed, REF announced (R432, R450). -/
def switchRef (new : Nat) (s : State) : State :=
  let old := s.cox.ref
  if old = new then s
  else raise 0x0304 uCOX 0 0 [BitVec.ofNat 8 old, BitVec.ofNat 8 new]
    (coxMod (fun (c : Cox) => { c with ref := new, goodSince := none, bad := 0 }) s)

/-- The selection brought up to date (R423, R430 to R432): a selected reference that is no longer valid gives way to the
best valid one; with none selected the best is. -/
def selectRef (s : State) : State :=
  if s.cox.st = .unset then s
  else if s.cox.ref < 31 ∧ refValid s s.cox.ref then s
  else
    let s := if s.cox.ref < 31 then
        raiseLim second s.cox.ref 0x0305 uCOX 0 1 [BitVec.ofNat 8 s.cox.ref] s else s
    match bestRef s with
    | some r =>
      let s := switchRef r s
      if s.cox.st = .freerun ∨ s.cox.st = .holdover then setTime .locking s else s
    | none =>
      let s := switchRef 31 s
      if s.cox.st = .locking then setTime .freerun s
      else if s.cox.st = .locked then setTime .holdover s else s

/-- A better reference valid for 10 s is selected (R433). -/
def promoteRef (r : Nat) (s : State) : State :=
  let since := if r < 16 then (ptpPort s r).since else (ppsIn s (r - 16)).since
  if s.cox.st ≠ .unset ∧ s.cox.ref < 31 ∧ refValid s r ∧ refRank s r < refRank s s.cox.ref ∧ since + 10 * second ≤ s.now then
    switchRef r s
  else s

/-- The measured phase error removed by slewing (R426); an error of 1 ns or less is not slewed. -/
def startSlew (off : Int) (s : State) : State :=
  coxMod (fun (c : Cox) => { c with slew := if off.natAbs ≤ 65536 then 0 else -off * 2 ^ 32 }) s

/-- The servo's new correction, recorded for holdover while LOCKED (R425, R426). -/
def runServo (off : Int) (s : State) : State :=
  let f := clampFreq (Config.servo (fld (timeBody s) 24 1) s.cox.freq off)
  coxMod (fun (c : Cox) => { c with
    freq := f, history := if c.st = .locked then (s.now, f) :: c.history.take 16384 else c.history }) s

/-- One measurement of the selected reference in units of 2^-16 ns (R424, R426, R427); an AUTONOMOUS device and one that has
rejoined never step (R574). -/
def measure (r : Nat) (off : Int) (s : State) : State :=
  if s.cox.st = .unset ∨ s.cox.ref ≠ r ∨ !s.cox.osc then s
  else
    let a := off.natAbs
    let lim := lockNs s * 65536
    let s := coxMod (fun (c : Cox) => { c with offset := off }) s
    let s :=
      if s.cox.st = .locking then
        if a > lim then coxMod (fun (c : Cox) => { c with goodSince := none }) s
        else match s.cox.goodSince with
          | none => coxMod (fun (c : Cox) => { c with goodSince := some s.now }) s
          | some t => if t + lockS s * second ≤ s.now then setTime .locked (coxMod (fun (c : Cox) => { c with slewOnly := false }) s) else s
      else if s.cox.st = .locked then
        let b := if a > 4 * lim then s.cox.bad + 1 else 0
        let s := coxMod (fun (c : Cox) => { c with bad := b }) s
        if 3 ≤ b then setTime .locking s else s
      else s
    if s.cox.st = .locking ∧ !s.cox.lockedOnce ∧ !s.cox.slewOnly ∧ s.serial.md.role ≠ 3 ∧ timeFlag s 1 ∧ !anyCarrierRunning s ∧ a > stepNs s * 65536 then
      coxSet ((s.coxCount : Int) - off * 2 ^ 32).toNat (coxMod (fun (c : Cox) => { c with slew := 0 }) s)
    else startSlew off (runServo off s)

/-- The clockClass advertised (R435). -/
def coxClass (s : State) : Nat :=
  let g := fld (timeBody s) 1 1 == 1
  let r := s.cox.ref
  match s.cox.st with
  | .unset => 248
  | .freerun => 248
  | .holdover => if g then 135 else 7
  | st =>
    if r < 16 then ((ptpPort s r).parent.map fun a => a.clockClass.toNat).getD 248
    else if st = .locked ∧ 16 ≤ r ∧ r < 20 ∧ ppsFlag s (r - 16) 2 then (if g then 6 else fld (timeBody s) 6 1)
    else 248

/-- A link of an ETH port or a Bupex link is up (ETH_PORT_STATUS, BUPEX_LINK_STATUS). -/
def portLinkUp (s : State) (p : Nat) : Bool :=
  let e := portEntry s p
  if fld e 0 1 = 0 then regF s uETH (fld e 1 1) 0x004 31 31 == 1 else regF s uBUPEX (fld e 1 1) 0x000 31 31 == 1

/-- The lowest-numbered lane of a PTP port, whose adjustments apply (R437): a port's own number, a Bupex link's LANE_FIRST;
none for ETH 48. -/
def portLane (s : State) (p : Nat) : Option Nat :=
  let e := portEntry s p
  if fld e 0 1 = 0 then (if fld e 1 1 < 48 then some (fld e 1 1) else none)
  else (objFind s (objId 0x0A 1 (fld e 1 1))).map fun o => fld o.body 0 1

/-- COX_LANE_TX_ADJ and COX_LANE_RX_ADJ of a PTP port in units of 2^-16 ns (R436). -/
def portAdj (s : State) (p : Nat) (rx : Bool) : Int :=
  match portLane s p with
  | some n => toS 32 (regGet s uCOX 0 (0x400 + 8 * n + (if rx then 4 else 0))).toNat * 256
  | none => 0

/-- PTP runs on a port entry. -/
def portRuns (s : State) (p : Nat) : Bool := timeFlag s 0 && p < timePorts s

/-- DOMAIN of the settings. -/
def ptpDomain (s : State) : Nat := fld (timeBody s) 2 1

/-- A port takes a Sync or Delay_Resp: it is SLAVE, the message is of the device's domain and from the port's parent
(R434). -/
def fromParent (p domain : Nat) (sender : BitVec 80) (s : State) : Bool :=
  portRuns s p && (ptpPort s p).st == 9 && !refLost s p && domain == ptpDomain s &&
    (ptpPort s p).parent.any fun a => a.sender == sender

/-- A Sync with its Follow_Up, when one is due, arrives: origin timestamp and correction in units of 2^-16 ns (R423,
R436). -/
def ptpSync (p domain : Nat) (sender : BitVec 80) (t1 corr : Int) (s : State) : State :=
  if !fromParent p domain sender s then s
  else
    let s := ptpCount p 0 s
    let t2 := coxFine s - portAdj s p true
    let s := ptpPut p { ptpPort s p with sync := some (t1 + corr, t2), syncAt := s.now } s
    if s.cox.st = .unset ∧ s.cox.osc then
      let count := ((t1 + corr + portAdj s p true) * 2 ^ 32).toNat
      let x := ptpPort s p
      let s := coxSet count (ptpPut p { x with valid := true, since := s.now, respAt := s.now, t3 := none } s)
      setTime .locking (switchRef p s)
    else s

/-- A Delay_Resp completes an exchange: receive timestamp and correction in units of 2^-16 ns (R430, R438). -/
def delayResp (p domain : Nat) (sender : BitVec 80) (t4 corr : Int) (s : State) : State :=
  let x := ptpPort s p
  if !fromParent p domain sender s then s
  else match x.sync, x.t3 with
  | some (t1, t2), some t3 =>
    let mpd := ((t2 - t1) + (t4 - t3 - corr)) / 2
    let off := t2 - t1 - mpd - portAsym s p * 256
    let s := ptpPut p { x with meanPathDelay := mpd, respAt := s.now, t3 := none
                               valid := x.valid || s.now ≤ x.syncAt + 3 * logNs (fld (portEntry s p) 4 1)
                               since := if x.valid then x.since else s.now } s
    measure p off (selectRef s)
  | _, _ => s

/-- The comparison key of a clock's data set: priority1, class, accuracy, variance, priority2, identity. -/
def clockKey (a : Announce) : Nat :=
  a.priority1.toNat * 2 ^ 104 + a.clockClass.toNat * 2 ^ 96 + a.accuracy.toNat * 2 ^ 88 + a.variance.toNat * 2 ^ 72 +
    a.priority2.toNat * 2 ^ 64 + a.grandmaster.toNat

/-- The key of the alternate BMCA of G.8275.1 (R434): class, accuracy, variance, priority2, localPriority, then the
identity, which clocks of class 127 or less leave out. -/
def altKey (a : Announce) (loc : Nat) : Nat :=
  a.clockClass.toNat * 2 ^ 104 + a.accuracy.toNat * 2 ^ 96 + a.variance.toNat * 2 ^ 80 + a.priority2.toNat * 2 ^ 72 +
    loc * 2 ^ 64 + if a.clockClass.toNat ≤ 127 then 0 else a.grandmaster.toNat

/-- The steps removed, then the sender. -/
def pathKey (a : Announce) : Nat := a.steps.toNat * 2 ^ 80 + a.sender.toNat

/-- `a`, heard with localPriority `la`, is better than `b`: by grandmaster, then by steps removed, then by sender (IEEE
1588-2019, 9.3.4), or as G.8275.1 compares (R434). -/
def betterClock (g : Bool) (a : Announce) (la : Nat) (b : Announce) (lb : Nat) : Bool :=
  if g then (if altKey a la = altKey b lb then pathKey a < pathKey b else altKey a la < altKey b lb)
  else if a.grandmaster = b.grandmaster then pathKey a < pathKey b
  else clockKey a < clockKey b

/-- The profile is G.8275.1, and a port's LOCAL_PRIORITY; the device's own clock has 128. -/
def alternate (s : State) : Bool := fld (timeBody s) 1 1 == 1
def portLocal (s : State) (p : Nat) : Nat := fld (portEntry s p) 3 1

/-- The class of the device's own clock, without what a PTP parent lends it (R435). -/
def localClass (s : State) : Nat :=
  if s.cox.ref < 16 ∧ (s.cox.st = .locking ∨ s.cox.st = .locked) then 248 else coxClass s

/-- The device's own data set. -/
def ownClock (s : State) : Announce :=
  { sender := 0, grandmaster := Config.clockIdentity
    priority1 := BitVec.ofNat 8 (fld (timeBody s) 3 1), clockClass := BitVec.ofNat 8 (localClass s)
    accuracy := Config.clockAccuracy, variance := Config.clockVariance
    priority2 := BitVec.ofNat 8 (fld (timeBody s) 4 1) }

/-- The best master heard on a port: two Announce messages within four intervals qualify it. -/
def bestForeign (s : State) (p : Nat) : Option Announce :=
  if portFlag s p 0 then none
  else (((ptpPort s p).foreign.filter fun f => 2 ≤ f.count).map (·.msg)).foldl (fun acc a => match acc with
    | none => some a
    | some b => if betterClock (alternate s) a 0 b 0 then some a else some b) none

/-- A port that may be master is (R435). -/
def masterOr (s : State) (p : Nat) (other : Nat) : Nat :=
  if timeFlag s 2 && s.cox.st != .unset && !portFlag s p 1 then 6 else other

/-- The state the BMCA gives a port (IEEE 1588-2019, 9.3.3). A clock of class 127 or less steered by a PRIMARY PPS input is no
slave; one in HOLDOVER may become one again (DEDUCED from R423 and R431, log 81). -/
def bmcaState (s : State) (p : Nat) : Nat :=
  let own := ownClock s
  let all := (List.range (timePorts s)).filterMap fun q => (bestForeign s q).map fun a => (a, q)
  let best := all.foldl (fun acc e => match acc with
    | none => some e
    | some b => if betterClock (alternate s) e.1 (portLocal s e.2) b.1 (portLocal s b.2) then some e else some b) none
  match best with
  | none =>
    if (ptpPort s p).announceAt + fld (portEntry s p) 7 1 * logNs (fld (portEntry s p) 6 1) ≤ s.now ∨ portFlag s p 0 then
      masterOr s p 4
    else (ptpPort s p).st
  | some (a, q) =>
    if own.clockClass.toNat < 128 ∧ s.cox.st ≠ .holdover then
      match bestForeign s p with
      | some r => if betterClock (alternate s) own 128 r (portLocal s p) then masterOr s p 7 else 7
      | none => masterOr s p 7
    else if betterClock (alternate s) own 128 a (portLocal s q) then masterOr s p 7
    else if q = p then 9
    else match bestForeign s p with
      | some r => if r.grandmaster = a.grandmaster then 7 else masterOr s p 7
      | none => masterOr s p 7

/-- One port put in the state the BMCA gives it; a port that leaves SLAVE loses its parent and its validity. -/
def applyBmca (p : Nat) (s : State) : State :=
  let x := ptpPort s p
  if !portRuns s p then (if x.st = 3 then s else ptpPut p { x with st := 3, parent := none, valid := false } s)
  else
    let st := bmcaState s p
    if st = 9 then ptpPut p { x with st := 9, parent := bestForeign s p } s
    else ptpPut p { x with st := st, parent := none, valid := false, sync := none, t3 := none } s

/-- The BMCA run over every port, and the selection after it. -/
def runBmca (s : State) : State := selectRef ((List.range 16).foldl (fun s p => applyBmca p s) s)

/-- An Announce message arrives (R435). -/
def announceOp (p : Nat) (a : Announce) (s : State) : State :=
  let x := ptpPort s p
  if !portRuns s p ∨ refLost s p ∨ portFlag s p 0 ∨ a.domain.toNat ≠ ptpDomain s ∨ 255 ≤ a.steps.toNat ∨
      a.sender.toNat / 2 ^ 16 = Config.clockIdentity.toNat then s
  else
    let window := 4 * logNs (fld (portEntry s p) 6 1)
    let n := match x.foreign.find? fun f => f.msg.sender == a.sender with
      | some f => if s.now ≤ f.at_ + window then f.count + 1 else 1
      | none => 1
    let fs := (x.foreign.filter fun f => f.msg.sender != a.sender && s.now ≤ f.at_ + window) ++
      [{ msg := a, count := n, at_ := s.now }]
    runBmca (ptpPut p { x with foreign := fs, announceAt := s.now } s)

/-- Sync, Delay_Resp or Announce messages have been missing beyond their timeout (R430, R434). -/
def ptpTimeout (p : Nat) (m : PtpMessage) (s : State) : State :=
  let x := ptpPort s p
  let e := portEntry s p
  if !portRuns s p then s
  else match m with
  | .sync =>
    if x.st = 9 ∧ x.syncAt + 3 * logNs (fld e 4 1) < s.now then
      selectRef (ptpPut p { ptpPort (ptpCount p 4 s) p with valid := false } s)
    else s
  | .delay =>
    if x.st = 9 ∧ x.respAt + 3 * logNs (fld e 5 1) < s.now then selectRef (ptpPut p { x with valid := false } s) else s
  | .announce =>
    if x.announceAt + fld e 7 1 * logNs (fld e 6 1) ≤ s.now then
      let s := if x.foreign = [] then s else ptpCount p 3 s
      runBmca (ptpPut p { ptpPort s p with foreign := [] } s)
    else s

/-- A Cox time as 10 bytes of the format of R10: seconds, nanoseconds and fraction, from units of 2^-16 ns. -/
def coxBytes (v : Int) : Bytes :=
  let n := v.toNat
  leBytes 8 (n / 65536 / second) ++ leBytes 4 (n / 65536 % second) ++ leBytes 2 (n % 65536)

/-- A frame of a PTP port sent. -/
def ptpEmit (p : Nat) (kind : String) (b : Bytes) (s : State) : State :=
  let e := portEntry s p
  if fld e 0 1 = 0 then emit (.eth (fld e 1 1) kind b) s
  else
    let l := fld e 1 1
    linkQueue l 0 none kind (partnerFrame s l kind 0 (nextSeq (linkPeer s l) s) b) (seqTaken (linkPeer s l) s)

/-- The clock a port announces (R434, R435): the parent's grandmaster one step further while the PTP reference is selected, the
device's own otherwise. -/
def announced (s : State) : Announce :=
  let own := ownClock s
  if s.cox.ref < 16 ∧ (s.cox.st = .locking ∨ s.cox.st = .locked) then
    match (ptpPort s s.cox.ref).parent with
    | some a => { a with sender := own.sender, steps := a.steps + 1 }
    | none => own
  else own

/-- The body of an Announce: domain, currentUtcOffset, then the grandmaster's priority1, clockClass, accuracy, variance,
priority2 and identity, and stepsRemoved. -/
def announceBytes (s : State) : Bytes :=
  let a := announced s
  [BitVec.ofNat 8 (ptpDomain s), BitVec.ofNat 8 (fld (timeBody s) 7 1), a.priority1, a.clockClass, a.accuracy] ++
    beBytes 2 a.variance.toNat ++ [a.priority2] ++ beBytes 8 a.grandmaster.toNat ++ beBytes 2 a.steps.toNat

/-- The SM TLV a master of the ST 2059-2 profile sends: the UTC offset and the leap fields, all others 0 (R434). -/
def smTlv (s : State) : Bytes := BitVec.ofNat 8 (fld (timeBody s) 7 1) :: Config.leapFields

/-- A Delay_Req received on a Bupex link or an Ethernet port: a port in MASTER state of its domain answers with the time it was
received at, less its ingress adjustment (R434, R436). -/
def delayReqOp (bupex : Bool) (inst domain : Nat) (requester : BitVec 80) (seq : BitVec 16) (corr : BitVec 64) (s : State) :
    State :=
  match (List.range (timePorts s)).find? fun p => portRuns s p && fld (portEntry s p) 0 1 == b2n bupex &&
      fld (portEntry s p) 1 1 == inst && (ptpPort s p).st == 6 with
  | none => s
  | some p =>
    if domain ≠ ptpDomain s then s
    else ptpEmit p "delay_resp" (beBytes 10 requester.toNat ++ beBytes 2 seq.toNat ++ coxBytes (coxFine s - portAdj s p true) ++
      beBytes 8 corr.toNat) s

/-- A port sends one of its messages (R434, R435, R436, R439); a one-step Sync is launched 10 µs ahead. -/
def ptpSend (p : Nat) (m : PtpMessage) (s : State) : State :=
  let x := ptpPort s p
  if !portRuns s p then s
  else match m with
  | .sync =>
    if x.st ≠ 6 then s
    else if portFlag s p 2 then
      coxMod (fun (c : Cox) => { c with launches := c.launches ++
        [{ bupex := fld (portEntry s p) 0 1 == 1, inst := fld (portEntry s p) 1 1, port := p, at_ := shortNow s + 10000
           data := coxBytes ((shortNow s + 10000 : Nat) * 65536) }] }) s
    else if portLinkUp s p then
      ptpEmit p "follow_up" (coxBytes (coxFine s + portAdj s p false)) (ptpEmit p "sync" (zeros 14) (ptpCount p 1 s))
    else s
  | .delay =>
    if x.st ≠ 9 ∨ !portLinkUp s p then s
    else ptpEmit p "delay_req" [] (ptpCount p 2 (ptpPut p { x with t3 := some (coxFine s + portAdj s p false) } s))
  | .announce =>
    if x.st ≠ 6 ∨ !portLinkUp s p then s
    else
      let s1 := ptpEmit p "announce" (announceBytes s) s
      if fld (timeBody s) 1 1 = 2 then ptpEmit p "sm_tlv" (smTlv s) s1 else s1

/-- A launched message at its instant (R439, R440): sent, or with the link down counted SYNC_MISSED; the frames its port held
back follow. -/
def launchMessage (x : Launch) (s : State) : State :=
  let s := coxMod (fun (c : Cox) => { c with launches := c.launches.erase x }) s
  let s := if !portLinkUp s x.port then ptpCount x.port 5 s
    else
      let s := ptpCount x.port 1 s
      if x.bupex then
        let r := linkRun s x.inst
        let b := partnerFrame s x.inst "sync" 0 (nextSeq (linkPeer s x.inst) s) x.data
        linkPut x.inst { r with tx0 := { kind := "sync", data := b, left := frameBlocks b } :: r.tx0 } (seqTaken (linkPeer s x.inst) s)
      else sendOut (.eth x.inst "sync" x.data) s
  let mine := s.cox.held.filter fun o => !x.bupex && (outPort o).any fun q => q.1 == x.inst
  let s := coxMod (fun (c : Cox) => { c with held := c.held.filter fun o => !mine.contains o }) s
  mine.foldl (fun s o => emit o s) s

/-- The messages whose instant has come launched. -/
def launchTick (s : State) : State :=
  (s.cox.launches.filter fun x => x.at_ ≤ shortNow s).foldl (fun s x => launchMessage x s) s

/-- A PPS input has been valid for fewer than three edges, or is. -/
def ppsValidate (n : Nat) (x : PpsIn) (s : State) : State :=
  let v := x.valid || 3 ≤ x.streak
  selectRef (ppsPut n { x with valid := v, since := if x.valid then x.since else s.now } s)

/-- The outstanding NEXT_PPS TIME_SET. -/
def nextPpsLong (s : State) : Option Long := s.cmd.longs.find? fun l => l.opcode == 0x0540

/-- The counter set by TIME_SET, in units of 2^-48 ns, with the state UNSET leads to. -/
def setByCommand (count : Nat) (first : TimeState) (s : State) : State :=
  let was := s.cox.st
  let s := coxSet count (coxMod (fun (c : Cox) => { c with slew := 0 }) s)
  if was = .unset then setTime first s else s

/-- The edge of a NEXT_PPS TIME_SET (R428, R429, R443, R659); the selection follows with the edge's own measurement. -/
def applyNextPps (n : Nat) (s : State) : State :=
  match s.cox.nextPps, nextPpsLong s with
  | some (i, secs, taken), some l =>
    if i ≠ n ∨ s.now ≤ taken then s
    else
      let s := coxMod (fun (c : Cox) => { c with nextPps := none }) s
      if s.cox.st = .locking ∨ s.cox.st = .locked then completeLong l 0x0501 [] s
      else if s.cox.st ≠ .unset ∧ anyCarrierRunning s then completeLong l stFUNCTION_RUNNING [] s
      else
        let count := ((secs * second * 2 ^ 48 : Nat) : Int) + ppsDelay s n * 2 ^ 40
        let s := setByCommand count.toNat (if s.cox.osc then .locking else .freerun) s
        completeLong l stDONE (leBytes 8 (shortNow s)) s
  | _, _ => s

/-- The whole second nearest a time in units of 2^-16 ns. -/
def nearestSecond (t : Int) : Int := (t + 32768 * (second : Nat)) / (65536 * (second : Nat)) * (65536 * (second : Nat))

/-- The selected edge of a PPS input (R430, R441 to R443). -/
def ppsEdge (n : Nat) (s : State) : State :=
  if refLost s (16 + n) then s
  else
    let s := applyNextPps n s
    let x := ppsIn s n
    let ts := coxFine s - ppsDelay s n * 256
    let sp := (ts - x.base - 65536 * (second : Nat)).natAbs
    let streak := if x.fresh ∧ s.now < x.lastAt + 1500000000 ∧ sp ≤ 100000 * 65536 then x.streak + 1 else 1
    let s := regBump uCOX 0 (0x20C + 0x10 * n) 15 0 1 s
    let s := ppsValidate n { x with streak := streak, ts := ts, base := ts, fresh := true, lastAt := s.now } s
    measure (16 + n) (ts - nearestSecond ts) s

/-- A PPS input without an edge for 1.5 s (R430, R432). -/
def ppsMissing (n : Nat) (s : State) : State :=
  let x := ppsIn s n
  if x.fresh ∧ x.lastAt + 1500000000 ≤ s.now then
    let s := ppsPut n { x with valid := false, streak := 0, fresh := false } s
    let s := if x.valid ∧ ppsFlag s n 0 then raiseLim second n 0x0306 uCOX 0 1 [BitVec.ofNat 8 n] s else s
    selectRef s
  else s

/-- HOLDOVER_S seconds have passed in HOLDOVER (R423). -/
def holdoverExpiry (s : State) : State :=
  if s.cox.st = .holdover ∧ holdoverS s ≠ 0 ∧ s.cox.holdSince + holdoverS s * second ≤ s.now then setTime .freerun s else s

/-- A NEXT_PPS TIME_SET without an edge for 2 s (R443). -/
def ppsNoEdge (s : State) : State :=
  match s.cox.nextPps, nextPpsLong s with
  | some (_, _, taken), some l =>
    if taken + 2 * second ≤ s.now then completeLong l 0x0502 [] (coxMod (fun (c : Cox) => { c with nextPps := none }) s) else s
  | _, _ => s

/-- The checks on the time state of TIME_SET and TIME_ADJUST (R428, R429, R443). -/
def timeChecks (s : State) (adjust step : Bool) : Nat :=
  firstFail [need (nextPpsLong s).isNone stBUSY,
    need (!(adjust && s.cox.st == .unset)) stTIME_UNSET,
    need (s.cox.st != .locking && s.cox.st != .locked) 0x0501,
    need (!(step && anyCarrierRunning s)) stFUNCTION_RUNNING]

/-- TIME_SET (R428, R429, R443, R449). -/
def timeSetOp (r : Request) (s : State) : State :=
  let p := r.params
  let mode := fld p 0 1
  let ns := fld p 4 4
  let pchk := firstFail [targetCheck s r uCOX 0, need (p.length == 16) stBAD_LENGTH,
    need (mode < 2 && fld p 1 1 < 4 && rsv p 2 2 && (if mode = 0 then ns < second else ns == 0)) stBAD_PARAM]
  let schk := timeChecks s false (s.cox.st != .unset)
  if mode = 0 then
    runCmd 0x0540 r (firstFail [pchk, schk]) (fun s =>
      let s := selectRef (setByCommand ((fld p 8 8 * second + ns) * 2 ^ 48) .freerun s)
      (stDONE, leBytes 8 (shortNow s), s)) s
  else
    runLong 0x0540 r pchk schk none true (fun s =>
      coxMod (fun (c : Cox) => { c with nextPps := some (fld p 1 1, fld p 8 8, s.now) }) s) s

/-- TIME_ADJUST (R428, R429, R449). -/
def timeAdjustOp (r : Request) (s : State) : State :=
  let p := r.params
  let d := toS 64 (fld p 8 8)
  runCmd 0x0541 r (firstFail [targetCheck s r uCOX 0, need (p.length == 16) stBAD_LENGTH,
      need (fld p 0 1 < 2 && rsv p 1 7) stBAD_PARAM, timeChecks s true (fld p 0 1 == 0)])
    (fun s =>
      let s := if fld p 0 1 = 0 then coxSet ((s.coxCount : Int) + d * 2 ^ 48).toNat s
        else coxMod (fun (c : Cox) => { c with slew := c.slew + d * 2 ^ 48 }) s
      (stDONE, leBytes 8 (shortNow s), s)) s

/-- An integer saturated to a signed 32-bit register. -/
def reg32 (v : Int) : Nat := ofS 32 (satS 32 v)

/-- COX_OFFSET, COX_FREQ and COX_SLEW_LEFT. -/
def coxOffset (s : State) : Nat := reg32 (s.cox.offset / 256)
def coxFreq (s : State) : Nat := reg32 (clampFreq (s.cox.freq + slewStep s) * (second : Nat) / 2 ^ 40)
def coxLeft (s : State) : Nat := reg32 (s.cox.slew.tdiv (2 ^ 48))

/-- COX_STATUS. -/
def coxStatus (s : State) : Nat :=
  s.cox.ref * 2 ^ 24 + b2n s.cox.epochSet * 2 ^ 23 + coxClass s * 256 + timeCode s.cox.st

/-- TIME_GET (R449). -/
def timeGetOp (r : Request) (s : State) : State :=
  runCmd 0x0542 r (firstFail [targetCheck s r uCOX 0, need (r.params.length == 0) stBAD_LENGTH]) (fun s =>
    let f := s.coxCount / 2 ^ 32
    (stDONE, [BitVec.ofNat 8 (timeCode s.cox.st), BitVec.ofNat 8 s.cox.ref, BitVec.ofNat 8 (coxClass s)] ++ zeros 5 ++
      leBytes 8 (f / 65536 / second) ++ leBytes 4 (f / 65536 % second) ++ leBytes 2 (f % 65536) ++ zeros 2 ++
      leBytes 8 (shortNow s) ++ leBytes 4 (coxOffset s) ++ leBytes 4 (coxFreq s), s)) s

/-- PTP_PORT_STATS (R449). -/
def ptpStatsOp (r : Request) (s : State) : State :=
  let n := fld r.params 0 1
  runCmd 0x0543 r (firstFail [targetCheck s r uCOX 0, need (r.params.length == 8) stBAD_LENGTH,
      need (n < timePorts s && rsv r.params 1 7) stBAD_PARAM]) (fun s =>
    let x := ptpPort s n
    let parent := (x.parent.map fun a => beBytes 10 a.sender.toNat).getD (zeros 10)
    (stDONE, [BitVec.ofNat 8 x.st] ++ zeros 7 ++ parent ++ zeros 2 ++ leBytes 4 (reg32 (x.meanPathDelay / 256)) ++
      x.counts.flatMap (leBytes 4), s)) s

/-- A read of COX_LATCH_SHORT_LO_k (R421). -/
def coxLatch (k : Nat) (s : State) : State :=
  let b := 0x100 + 0x20 * k
  let f := s.coxCount / 2 ^ 32
  let t := shortNow s
  let put := fun (o v : Nat) (s : State) => regPut uCOX 0 (b + o) (BitVec.ofNat 32 v) s
  answer (t % 2 ^ 32)
    (put 0x14 (f % 65536) (put 0x10 (f / 65536 % second) (put 0x0C (f / 65536 / second / 2 ^ 32)
      (put 0x08 (f / 65536 / second) (put 0x04 (t / 2 ^ 32) (put 0x00 t s))))))

/-- A read of COX_PPS_IN_TS_LO_n, which holds TS_HI and FRAC. -/
def ppsTsRead (n : Nat) (s : State) : State :=
  let f := (ppsIn s n).ts.toNat
  let t := f / 65536
  answer (t % 2 ^ 32)
    (regPut uCOX 0 (0x208 + 0x10 * n) (BitVec.ofNat 32 (f % 65536))
      (regPut uCOX 0 (0x204 + 0x10 * n) (BitVec.ofNat 32 (t / 2 ^ 32)) s))

/-- The ranges of a PTP port entry (R434, R447). -/
def portOk (b e : Bytes) : Bool :=
  let prof := fld b 1 1
  let sl := toS 8 (fld e 4 1)
  let dl := toS 8 (fld e 5 1)
  let an := toS 8 (fld e 6 1)
  let f := fld e 2 1
  fld e 0 1 < 2 && (if fld e 0 1 = 0 then fld e 1 1 ≤ 48 else fld e 1 1 ≤ 5) && f < 32 &&
    (if prof = 1 then 1 ≤ fld e 3 1 else fld e 3 1 == 0) &&
    (if prof = 0 then -7 ≤ sl && sl ≤ 4 else if prof = 1 then sl == -4 else -7 ≤ sl && sl ≤ -1) &&
    sl ≤ dl && dl ≤ sl + 5 &&
    (if prof = 0 then -3 ≤ an && an ≤ 4 else if prof = 1 then an == -3 else -3 ≤ an && an ≤ 1) &&
    2 ≤ fld e 7 1 && fld e 7 1 ≤ 10 && (if bit f 4 then fld e 8 2 < 4096 else fld e 8 2 == 0) && rsv e 10 2 &&
    (prof != 1 && fld e 0 1 == 0 || rsv e 16 16)

/-- The ranges of the time reference settings (R434, R447). -/
def timeBodyOk (b : Bytes) : Bool :=
  let prof := fld b 1 1
  128 ≤ b.length && b.length == 128 + 32 * fld b 5 1 && fld b 0 1 < 16 && prof ≤ 2 &&
    (if prof = 1 then 24 ≤ fld b 2 1 && fld b 2 1 ≤ 43 && fld b 3 1 == 128 else fld b 2 1 ≤ 127) &&
    fld b 5 1 ≤ 16 && 6 ≤ fld b 6 1 && 1 ≤ fld b 8 4 && fld b 8 4 ≤ 1000000 && 1 ≤ fld b 12 2 && fld b 12 2 ≤ 3600 &&
    1 ≤ fld b 14 2 && fld b 14 2 ≤ 1000 && fld b 16 4 ≤ 2592000 && 100 ≤ fld b 20 4 && fld b 20 4 ≤ 1000000000 &&
    fld b 24 1 ≤ 2 && rsv b 26 6 &&
    ((List.range 4).all fun n => fld b (32 + 8 * n) 1 < 8 && rsv b (34 + 8 * n) 2) &&
    ((List.range 4).all fun n =>
      let e := b.drop (64 + 16 * n)
      let period := if fld e 0 1 = 2 then fld e 4 4 else second
      fld e 0 1 ≤ 2 && fld e 1 1 < 2 && rsv e 2 2 &&
        (if fld e 0 1 = 2 then 100 ≤ fld e 4 4 && fld e 4 4 ≤ second && second % fld e 4 4 == 0 else fld e 4 4 == 0) &&
        (fld e 0 1 == 0 || (1 ≤ fld e 8 4 && fld e 8 4 < period))) &&
    ((List.range (fld b 5 1)).all fun p => portOk b (b.drop (128 + 32 * p)))

/-- What a change of the settings does to port `p` (R448): a change of its KIND, INSTANCE, FLAGS, DOMAIN or transport
restarts its state machine. -/
def portRestart (old : Bytes) (p : Nat) (s : State) : State :=
  let key := fun (b : Bytes) =>
    (p < fld b 5 1 && bit (fld b 0 1) 0, fld b 1 1, fld b 2 1, sub b (128 + 32 * p) 3, sub b (128 + 32 * p + 8) 2, sub b (128 + 32 * p + 16) 16)
  if key old = key (timeBody s) then s
  else ptpPut p (if portRuns s p then { st := 4, announceAt := s.now, counts := (ptpPort s p).counts }
    else if p < timePorts s then { counts := (ptpPort s p).counts } else {}) s

/-- A MASTER port that may no longer be one listens (R435, R448). -/
def portDemote (p : Nat) (s : State) : State :=
  let x := ptpPort s p
  if x.st = 6 ∧ masterOr s p 4 ≠ 6 then ptpPut p { x with st := 4, announceAt := s.now } s else s

/-- New settings in force, given the old (R448). -/
def timeApplied (old : Bytes) (s : State) : State :=
  selectRef ((List.range 16).foldl (fun s p => portDemote p (portRestart old p s)) s)

end Sys2Proof.Machine
end

