-- ==== Sys2Proof/Machine/SpoolRows.lean ====
section
/-!
DEFINITION. The commands of Spool (14_spool_dma.md, R475 to R494, R513).
-/
namespace Sys2Proof.Machine
open Sys2Proof

/-- Bytes of the device pool held by functions. -/
def poolHeld (s : State) : Nat := sumL (s.objs.map fun e => e.2.pool)

/-- A unit's packet whose cells are all written joins its queue (R479). -/
def packetJoin (h : Nat) (s : State) : State :=
  match pkt s h with
  | some p =>
    if p.st = .opened then
      (unitEnqueue p.queue h none (unitInit (if p.fronthaul then uFRONTHAUL else uSPOOL) 0)
        (pktPut h { p with st := .held } s)).2
    else s
  | none => s

/-- The checks of the queue commands. -/
def queueCheck (s : State) (r : Request) : Nat :=
  firstFail [targetCheck s r uSPOOL 0, need (r.params.length == 8) stBAD_LENGTH, need (rsv r.params 2 6) stBAD_PARAM]

/-- QUEUE_RECLAIM (R489, R513): the scan begins with what is quarantined now; its completion frees it. -/
def queueReclaimOp (r : Request) (s : State) : State :=
  runLong 0x0B50 r (queueCheck s r) (need (!s.cmd.longs.any fun l => l.opcode == 0x0B50) stBUSY) none false
    (fun s => { s with spool := { s.spool with
      reclaim := some (fld r.params 0 2, quarantinedOf s (fld r.params 0 2)) } }) s

/-- The end of a QUEUE_RECLAIM: the cells freed. -/
def queueReclaimed (l : Long) (s : State) : State :=
  match s.spool.reclaim with
  | none => completeLong l stDONE (leBytes 4 0) s
  | some (_, hs) =>
    let n := sumL (hs.map fun h => ((pkt s h).map fun p => p.cells.length).getD 0)
    let s := hs.foldl (fun s h => pktFree h s) s
    completeLong l stDONE (leBytes 4 n) { s with spool := { s.spool with reclaim := none } }

/-- QUEUE_STATS. -/
def queueStatsOp (r : Request) (s : State) : State :=
  runCmd 0x0B51 r (queueCheck s r) (fun s =>
    let q := fld r.params 0 2
    let x := queue s q
    let qc := sumL ((s.spool.packets.filter fun e => e.2.st == .quarantined && e.2.queue == q).map
      fun e => e.2.cells.length)
    let c := fun n => leBytes 4 (satN 0xFFFFFFFF n)
    (stDONE, c x.enqueued ++ c x.dequeued ++ c x.idle ++ c x.refused ++ c x.items.length ++ c (queueCells s q) ++ c qc,
     s)) s

/-- SPOOL_ALLOC: a read of SPOOL_ALLOC by an initiator (R477, R486). -/
def execSpoolAlloc (i : Initiator) (s : State) : Res :=
  done (spoolAllocOp i s)

/-- SPOOL_ENQ: a write of SPOOL_ENQ by an initiator (R481, R482, R484). -/
def execSpoolEnq (i : Initiator) (handle : BitVec 32) (s : State) : Res :=
  done (spoolEnqOp i handle.toNat s)

/-- SPOOL_DEQ: a read of SPOOL_DEQ by an initiator (R483). -/
def execSpoolDeq (i : Initiator) (s : State) : Res :=
  done (spoolDeqOp i s)

/-- SPOOL_FREE: a write of SPOOL_FREE by an initiator (R481). -/
def execSpoolFree (i : Initiator) (handle : BitVec 32) (s : State) : Res :=
  done (spoolFreeOp i handle.toNat s)

/-- SPOOL_NEXT: a read of SPOOL_NEXT by an initiator (R486). -/
def execSpoolNext (i : Initiator) (s : State) : Res :=
  done (spoolNextOp i s)

/-- PACKET_JOIN: a unit's packet joins its queue once its writes have returned (R479). -/
def execPacketJoin (handle : BitVec 32) (s : State) : Res :=
  done (packetJoin handle.toNat s)

/-- SPOOL_CQ_PUSH: a write of PUSH_3 of a compatibility queue (R492). -/
def execSpoolCqPush (q : Fin 1024) (word : BitVec 32) (s : State) : Res :=
  done (cqPushOp q word s)

/-- SPOOL_CQ_POP: a read of POP_0 of a compatibility queue (R492, R493). -/
def execSpoolCqPop (q : Fin 1024) (s : State) : Res :=
  done (cqPopOp q s)

/-- SPOOL_CQ_ENABLE: EN of a compatibility queue set or cleared (R494). -/
def execSpoolCqEnable (q : Fin 1024) (en : Bool) (s : State) : Res :=
  done (cqEnableOp q en (poolHeld s) s)

/-- QUEUE_RECLAIM: begins freeing a queue's quarantined cells (R489). -/
def execQueueReclaim (r : Request) (s : State) : Res :=
  done (queueReclaimOp r s)

/-- QUEUE_STATS: a queue's counts (R513). -/
def execQueueStats (r : Request) (s : State) : Res :=
  done (queueStatsOp r s)

end Sys2Proof.Machine
end

