-- ==== Sys2Proof/Machine/Weft.lean ====
section
/-!
DEFINITION. Weft: paths and routes, class-0 admission, credits and gateways, drain windows and the Weft commands
(15_weft_network.md, R515 to R542; 05_shuttle.md, R203, R205).
-/
namespace Sys2Proof.Machine
open Sys2Proof

/-- Outputs of a router: 0 N, 1 E, 2 S, 3 W, 4 LOCAL. -/
def neighbour (n out : Nat) : Option Nat :=
  match out with
  | 0 => if n / 8 = 0 then none else some (n - 8)
  | 1 => if n % 8 = 7 then none else some (n + 1)
  | 2 => if n / 8 = 7 then none else some (n + 8)
  | 3 => if n % 8 = 0 then none else some (n - 1)
  | _ => none

/-- The output a VC0 packet takes at node `n` toward `d`: along the row, then along the column (R525). -/
def xyOut (n d : Nat) : Nat :=
  if n % 8 < d % 8 then 1 else if d % 8 < n % 8 then 3 else if n / 8 < d / 8 then 2 else if d / 8 < n / 8 then 0 else 4

/-- The outputs of the XY path from `n` to `d`, ejection included. -/
def xyPath : Nat → Nat → Nat → List (Nat × Nat)
  | 0, n, _ => [(n, 4)]
  | f + 1, n, d =>
    let o := xyOut n d
    match neighbour n o with
    | some m => (n, o) :: xyPath f m d
    | none => [(n, 4)]

/-- The XY path between two nodes. -/
def pathOf (n d : Nat) : List (Nat × Nat) := xyPath 14 n d

/-- A router. -/
def router (s : State) (n : Nat) : Router := spGet {} s.weft.routers n

/-- A router put in place. -/
def routerPut (n : Nat) (x : Router) (s : State) : State :=
  { s with weft := { s.weft with routers := spSet {} s.weft.routers n x } }

/-- The entries admitted at reset (R540). -/
def resetEntries : List C0Entry :=
  [{ src := 42, dsts := List.range 64, rate := 8000, burst := 64 }, { src := 43, dsts := List.range 64, rate := 8000, burst := 64 },
   { src := 54, dsts := (List.range 10).map (· + 32), rate := 4000, burst := 128 },
   { src := 61, dsts := List.range 4, rate := 2100, burst := 64 }]

/-- Every admitted entry. -/
def c0Entries (s : State) : List C0Entry := resetEntries ++ s.weft.admitted.flatMap (·.2)

/-- An entry is counted on an output (R539). -/
def crosses (e : C0Entry) (n out : Nat) : Bool := e.dsts.any fun d => (pathOf e.src d).contains (n, out)

/-- R, B and the number of entries counted at an output. -/
def c0Load (es : List C0Entry) (n out : Nat) : Nat × Nat × Nat :=
  let c := es.filter fun e => crosses e n out
  (sumL (c.map (·.rate)), sumL (c.map (·.burst)), c.length)

/-- Class-0 admission of new entries (R539): no output above 64,000 MB/s or 768 bytes, no path through a router that is
DRAINING or DRAINED. -/
def c0Admit (s : State) (new : List C0Entry) : Bool :=
  let es := c0Entries s ++ new
  new.all fun e => e.dsts.all fun d => (pathOf e.src d).all fun p =>
    (router s p.1).st == .run && (c0Load es p.1 p.2).1 ≤ 64000 && (c0Load es p.1 p.2).2.1 ≤ 768

/-- Entries admitted for a function, or withdrawn with an empty list. -/
def c0Set (obj : Nat) (es : List C0Entry) (s : State) : State :=
  { s with weft := { s.weft with admitted := spSet [] s.weft.admitted obj es } }

/-- Minimal directions from `n` to `d`, bit by output (Routing). -/
def minimalMask (n d : Nat) : Nat :=
  b2n (d / 8 < n / 8) + 2 * b2n (n % 8 < d % 8) + 4 * b2n (n / 8 < d / 8) + 8 * b2n (d % 8 < n % 8)

/-- The route mask of an entry. -/
def routeMask (s : State) (n d : Nat) : Nat := spGet (minimalMask n d) (router s n).routes d

/-- The turn into output `out` by a packet that came in at port `inp` is legal under the odd-even model; a packet that
came in at a port travels away from it, and does not turn back. -/
def turnOk (n inp out : Nat) : Bool :=
  let even := n / 1 % 8 % 2 == 0
  if inp = out then false
  else if inp = 3 ∧ even ∧ (out = 0 ∨ out = 2) then false
  else if !even ∧ out = 3 ∧ (inp = 2 ∨ inp = 0) then false
  else true

/-- A mask leaves a packet at an input port a direction. -/
def leaves (n inp mask : Nat) : Bool := (List.range 4).any fun o => bit mask o && turnOk n inp o

/-- A write of WEFT_ROUTE (R527, R528). -/
def routeOp (n v : Nat) (s : State) : State :=
  let s := if bit v 31 then regPutF uWEFT n 0x014 31 31 0 s else s
  let d := regF s uWEFT n 0x010 5 0
  let m := v % 16
  let min := minimalMask n d
  let inputs := 4 :: (List.range 4).filter fun p => (neighbour n p).isSome
  let reject := (if n = d then m != 0 else Nat.lor m min != min ||
    inputs.any fun p => leaves n p min && !leaves n p m)
  if reject then regPutF uWEFT n 0x014 31 31 1 s
  else
    let x := router s n
    cntBump (cntKey uWEFT n 8) 1 (routerPut n { x with routes := spSet min x.routes d m } s)

/-- A router as its neighbours see it is available (R529). -/
def available_ (s : State) (n : Nat) : Bool := !(router s n).hidden

/-- WEFT_AVAIL: the neighbours that are present and seen available. -/
def availMask (s : State) (n : Nat) : Nat :=
  sumL ((List.range 4).map fun o => match neighbour n o with
    | some m => if available_ s m then 2 ^ o else 0
    | none => 0)

/-- The domains of a Weft node that may leave RUN (R602, R603). -/
def nodeDomains (n : Nat) : List Nat :=
  if n < 4 then [33 + n] else if n = 4 then [15] else if n = 5 then [37] else if n = 6 then [16]
  else if 8 ≤ n ∧ n < 32 then [(n - 8) / 2] else if 32 ≤ n ∧ n < 40 then [n - 7]
  else if 48 ≤ n ∧ n < 52 then [12] else if n = 52 then [13] else if n = 53 then [14] else if n = 54 then [23]
  else if 56 ≤ n ∧ n < 60 then [n - 39] else if n = 60 then [21] else if n = 61 then [22] else []

/-- The window of a source at a gateway (WEFT_GW_WIN). -/
def window (s : State) (dst src : Nat) : Nat := spGet 16 (router s dst).wins src

/-- Credits of `dst` that `src` has spent. -/
def spentAt (s : State) (dst src : Nat) : Nat := spGet 0 (router s dst).spent src

/-- Those credits set. -/
def spentPut (dst src n : Nat) (s : State) : State :=
  let x := router s dst
  routerPut dst { x with spent := spSet 0 x.spent src n } s

/-- Flits a router holds (HELD). -/
def routerHeld (s : State) (n : Nat) : Nat := sumL ((s.weft.hops.filter fun h => h.node == n).map (·.here))

/-- A gateway reports EMPTY: nothing in its ingress buffers, and nothing of its block still to leave (R535). -/
def gwEmpty (s : State) (n : Nat) : Bool :=
  (router s n).held.isEmpty && (s.weft.waiting.all fun h => h.src.val != n) &&
    s.weft.hops.all fun h => h.behind == 0 || h.head.src.val != n

/-- Its RES_OUT: credits of its request buffer spent and response space reserved (R535). -/
def gwResOut (s : State) (n : Nat) : Nat :=
  sumL ((router s n).spent.map (·.2)) + sumL ((router s n).reserved.map (·.2))

/-- The bucket of a node's class-0 shaper: the sums admitted for it (R538, R540). -/
def shaper (s : State) (n : Nat) : Nat × Nat :=
  let es := (c0Entries s).filter fun e => e.src == n
  (sumL (es.map (·.rate)), sumL (es.map (·.burst)))

/-- An uncorrectable head flit at router `n`, input port `port`: the packet is discarded (R516). -/
def linkUe (n port src dst vc : Nat) (s : State) : State :=
  raise 0x0402 uWEFT n 2 [BitVec.ofNat 8 port, BitVec.ofNat 8 src, BitVec.ofNat 8 dst, BitVec.ofNat 8 vc]
    (cntBump (cntKey uWEFT n 5) 1 s)

/-- A corrected flit (R515). -/
def linkCe (n port : Nat) (s : State) : State :=
  let s := cntBump (cntKey uWEFT n 4) 1 s
  raiseLim second n 0x0401 uWEFT n 0 ([BitVec.ofNat 8 port, 0, 0, 0] ++ leBytes 4 (cntGet s (cntKey uWEFT n 4))) s

/-- The port of the router after `n` at which its output `out` arrives. -/
def entryPort (out : Nat) : Nat := if out = 0 then 2 else if out = 1 then 3 else if out = 2 then 0 else if out = 3 then 1 else 4

/-- An injected WEFT_LINK fault at a router's output (R645, KIND 6). -/
def linkFault (s : State) (n out : Nat) : Option Injection :=
  s.power.injections.find? fun i => i.kind == 6 && i.target == n && i.sub == out

/-- The packets waiting at the gateways of a domain that has reached RUN are delivered (R537). -/
def deliverHeld (d : Nat) (s : State) : State :=
  (List.range 64).foldl (fun s n =>
    if (nodeDomains n).contains d then
      regPut uWEFT n 0x080 0 (if (router s n).held.isEmpty then s else routerPut n { router s n with held := [] } s)
    else s) s

/-- A CREDIT packet returns credits (R521, R523). -/
def creditOp (src dst flits : Nat) (s : State) : State := spentPut dst src (spentAt s dst src - flits) s

/-- A CREDIT_SYNC is answered with the credits the source actually holds: those of flits still in the buffer are spent,
all others come back (R524). -/
def creditSync (src dst : Nat) (s : State) : State := spentPut dst src (spGet 0 (router s dst).held src) s

/-- A request without a response in 10 ms (R524): its response space is given up, so that a response still to come is
discarded by its tag. -/
def requestTimeout (i : Initiator) (src dst tag a : Nat) (s : State) : State :=
  let s := routerPut src { router s src with reserved := spDel (router s src).reserved tag } s
  creditSync src dst (raise 0x0403 uWEFT src 2 (pairBytes i ++ [BitVec.ofNat 8 dst] ++ zeros 5 ++ leBytes 8 a)
    (cntBump (cntKey uWEFT src 10) 1 s))

/-- A router on an XY path of an admitted entry (R533). -/
def onC0Path (s : State) (n : Nat) : Bool :=
  (c0Entries s).any fun e => e.dsts.any fun d => (pathOf e.src d).any fun p => p.1 == n

/-- WEFT_DRAIN (R533, R541). -/
def weftDrainOp (r : Request) (s : State) : State :=
  let p := r.params
  let n := fld p 0 1
  let start := fld p 8 8
  let stop := fld p 16 8
  let pchk := firstFail [targetCheck s r uWEFT 63, need (p.length == 24) stBAD_LENGTH,
    need (n < 64 && fld p 1 1 < 2 && rsv p 2 6 && shortNow s + 10000 ≤ start && start < stop && stop ≤ start + 10000000)
      stBAD_PARAM]
  let schk := firstFail [need (!s.weft.drains.any fun d => d.start < stop && start < d.stop) stBUSY,
    need (!(onC0Path s n && fld p 1 1 == 0)) 0x0B03]
  runLong 0x0B60 r pchk schk none true (fun s =>
    { s with weft := { s.weft with drains := s.weft.drains ++ [{ router := n, start := start, stop := stop }] } }) s

/-- The long command of a drain window. -/
def drainLong (s : State) (d : Drain) : Option Long :=
  s.cmd.longs.find? fun l => l.opcode == 0x0B60 && fld l.params 0 1 == d.router && fld l.params 8 8 == d.start

/-- A drain window changed or removed. -/
def drainMod (d : Drain) (f : Drain → List Drain) (s : State) : State :=
  { s with weft := { s.weft with drains := s.weft.drains.flatMap fun x => if x = d then f x else [x] } }

/-- START of a drain window (R529, R533). -/
def drainStart (n : Nat) (s : State) : State :=
  match s.weft.drains.find? fun d => d.router == n && !d.started && d.start ≤ shortNow s with
  | none => s
  | some d =>
    let s := drainMod d (fun x => [{ x with started := true }]) s
    let mine := drainLong s d
    let fix := fun (l : Long) => if some l = mine then { l with cancellable := false } else l
    let s := { s with cmd := { s.cmd with longs := s.cmd.longs.map fix } }
    let s := cntBump (cntKey uWEFT n 9) 1 (routerPut n { router s n with st := .draining } s)
    if onC0Path s n then raise 0x0404 uWEFT n 0 (leBytes 8 d.start ++ leBytes 8 d.stop) s else s

/-- The draining router holds no flit: it enters DRAINED (R531). -/
def drainedOp (n : Nat) (s : State) : State :=
  match s.weft.drains.find? fun d => d.router == n && d.started with
  | none => s
  | some d =>
    if (router s n).st = .draining ∧ (s.weft.hops.all fun h => h.node != n) then
      drainMod d (fun x => [{ x with drainedAt := some (shortNow s) }]) (routerPut n { router s n with st := .drained } s)
    else s

/-- END of a drain window (R532). -/
def drainEnd (n : Nat) (s : State) : State :=
  match s.weft.drains.find? fun d => d.router == n && d.started && d.stop ≤ shortNow s with
  | none => s
  | some d =>
    let l := drainLong s d
    let s := routerPut n { router s n with st := .run } (drainMod d (fun _ => []) s)
    let s := if d.drainedAt.isNone then raise 0x0405 uWEFT n 1 (leBytes 2 (satN 0xFFFF (routerHeld s n)) ++ zeros 6 ++ leBytes 8 d.stop) s else s
    match l with
    | some l => completeLong l stDONE ([BitVec.ofNat 8 (b2n d.drainedAt.isNone)] ++ zeros 7 ++
        leBytes 8 (d.drainedAt.getD 0) ++ leBytes 8 (shortNow s)) s
    | none => s

/-- A self-test of a drained router, with its result. -/
def bistOp (n : Nat) (pass : Bool) (s : State) : State :=
  if (router s n).st = .drained then regPutF uWEFT n 0x004 1 1 (b2n !pass) s else s

/-- A write of WEFT_RTR_CFG: VC3_DEPTH in DRAINED only (R531). -/
def rtrCfgWrite (n v : Nat) (s : State) : State :=
  let d := bits v 15 8
  if (router s n).st = .drained ∧ 4 ≤ d ∧ d ≤ 32 then regPutF uWEFT n 0x004 15 8 d s else s

/-- A write of WEFT_GW_WIN. -/
def gwWinWrite (n v : Nat) (s : State) : State :=
  let x := router s n
  let src := regF s uWEFT n 0x084 5 0
  let f := v % 128
  let total := sumL ((List.range 64).map fun k => if k = src then f else window s n k)
  if 5 ≤ f ∧ f ≤ 64 ∧ total ≤ 1024 ∧ spentAt s n src ≤ f then routerPut n { x with wins := spSet 16 x.wins src f } s else s

/-- WEFT_LINK_LOAD (R541). -/
def linkLoadOp (r : Request) (s : State) : State :=
  let p := r.params
  runCmd 0x0B61 r (firstFail [targetCheck s r uWEFT 63, need (p.length == 8) stBAD_LENGTH,
      need (fld p 0 1 < 64 && fld p 1 1 < 5 && rsv p 2 6) stBAD_PARAM]) (fun s =>
    let l := c0Load (c0Entries s) (fld p 0 1) (fld p 1 1)
    (stDONE, leBytes 4 l.1 ++ leBytes 4 l.2.1 ++ leBytes 4 l.2.2, s)) s

/-- The bound of a path in units of 0.125 ns (R541): the zero-load terms, and 0.5 + B / 128 ns at each output. -/
def pathBound (s : State) (n d : Nat) : Nat :=
  let p := pathOf n d
  if p.any fun q => (router s q.1).st != .run then 0xFFFF
  else
    let es := c0Entries s
    8 * p.length - 4 + 32 + 4 * p.length + ceilDiv (sumL (p.map fun q => (c0Load es q.1 q.2).2.1)) 16

/-- WEFT_PATH (R541). -/
def weftPathOp (r : Request) (s : State) : State :=
  let p := r.params
  runCmd 0x0B62 r (firstFail [targetCheck s r uWEFT 63, need (p.length == 8) stBAD_LENGTH,
      need (fld p 0 1 < 64 && fld p 1 1 < 64 && rsv p 2 6) stBAD_PARAM]) (fun s =>
    (stDONE, [BitVec.ofNat 8 (pathOf (fld p 0 1) (fld p 1 1)).length, 0] ++
      leBytes 2 (pathBound s (fld p 0 1) (fld p 1 1)), s)) s

end Sys2Proof.Machine
end

