-- ==== Sys2Proof/Machine/Baseband.lean ====
section
/-!
DEFINITION. Carriers: admission, the fronthaul engine, MAC scheduling, handset contexts, forecasts and statistics
(04_baseband.md, R111 to R157).
-/
namespace Sys2Proof.Machine
open Sys2Proof

/-- A carrier's run-time state. -/
def carrierRun (s : State) (c : Nat) : CarrierRun := spGet {} s.carriers c

/-- It put in place. -/
def carrierPut (c : Nat) (x : CarrierRun) (s : State) : State := { s with carriers := spSet {} s.carriers c x }

/-- A carrier that is in a state, with its object ID and body. -/
def carrierIn (s : State) (c : Nat) (st : FnState) : Option (Nat × Bytes) :=
  match carrierFind s c with
  | some (id, o) => if o.st = some st then some (id, o.body) else none
  | none => none

/-- The fronthaul counters' indexes (R140). -/
abbrev fhACCEPTED : Nat := 0
abbrev fhLATE : Nat := 1
abbrev fhEARLY : Nat := 2
abbrev fhDUPLICATE : Nat := 3
abbrev fhMISSING : Nat := 4
abbrev fhNO_CELLS : Nat := 5
abbrev fhUNKNOWN : Nat := 6
abbrev fhSEQ_GAP : Nat := 7
abbrev fhDL_SENT : Nat := 8
abbrev fhDL_LATE : Nat := 9
abbrev fhCP_SENT : Nat := 10
abbrev fhCP_LATE : Nat := 11
abbrev fhHARQ_UL : Nat := 12
abbrev fhHARQ_DL : Nat := 13

/-- A fronthaul counter raised unless FREEZE holds it. -/
def fhCount (c k n : Nat) (s : State) : State :=
  if regF s uFRONTHAUL 0 0x008 1 1 = 1 then s else cntBump (cntKey uFRONTHAUL c k) n s

/-- A fronthaul counter's four bytes. -/
def fhBytes (s : State) (c k : Nat) : Bytes := leBytes 4 (cntGet s (cntKey uFRONTHAUL c k))

/-- An event of R157 that goes with a count: lost while FREEZE holds the counters, which do not increment then (R140). -/
def fhEvent (c code : Nat) (data : Bytes) (s : State) : State :=
  if regF s uFRONTHAUL 0 0x008 1 1 = 1 then s else raiseLim second c code uFRONTHAUL c 1 data s

/-- The events of R157. -/
def dlLateEvent (c : Nat) (s : State) : State :=
  fhEvent c 0x2201 (fhBytes s c fhDL_LATE ++ fhBytes s c fhCP_LATE) s
def ulLostEvent (c : Nat) (s : State) : State :=
  fhEvent c 0x2202 (fhBytes s c fhLATE ++ fhBytes s c fhNO_CELLS ++ fhBytes s c fhMISSING) s
def harqEvent (c : Nat) (s : State) : State :=
  fhEvent c 0x2203 (fhBytes s c fhHARQ_UL ++ fhBytes s c fhHARQ_DL) s

/-- CLEAR_ALL (R140). -/
def fhClearAll (s : State) : State := cntZeroAll (fun k => k / 0x100000000 == uFRONTHAUL) s

/-- The line rate of an Ethernet port mode in bits per second (R545), 0 for none. -/
def modeRate (m : Nat) : Nat :=
  [0, 1000000000, 10000000000, 25000000000, 50000000000, 100000000000, 100000000000, 100000000000, 200000000000,
   200000000000, 400000000000, 400000000000].getD m 0

/-- The line rate of an ETH instance as configured. -/
def portRate (s : State) (p : Nat) : Nat := modeRate (regF s uETH p 0x000 19 16)

/-- The band rate of a chirp group in samples per second. -/
def bandRate (b : Bytes) : Nat := 1600000 * 2 ^ fld b 6 1

/-- The load a function puts on a port in one direction, in bits per second (R122, R320). -/
def portLoad (e : Nat × Object) (p : Nat) (down : Bool) : Nat :=
  let b := e.2.body
  if e.1 / 0x1000000 = 2 then
    ((antMap b).filter fun a => a.port == p && bit a.dir (if down then 0 else 1)).length *
      streamLoad e.1 b (carRb e.1 b (if down then 2 else 4))
  else if fld b 0 1 = p ∧ (!down ∨ bit (fld b 1 1) 2) then 32 * bandRate b + 5120000 else 0

/-- The stream cost of a function in one direction, in quarter streams (R119, R320). -/
def quarters (e : Nat × Object) (down : Bool) : Nat :=
  if e.1 / 0x1000000 = 2 then streamCost e.1 e.2.body down
  else if !down ∨ bit (fld e.2.body 1 1) 2 then ceilDiv (4 * bandRate e.2.body) 122880000 else 0

/-- The carriers and chirp groups whose costs are committed. -/
def fronthaulActive (s : State) : List (Nat × Object) := activeCarriers s ++ activeOf s 3 1

/-- The fronthaul checks of a START: STREAM_LIMIT, then FH_PORT_OVERLOAD (R119, R122, R320). -/
def fronthaulCheck (s : State) (e : Nat × Object) : Nat :=
  let all := e :: fronthaulActive s
  let tooMuch := fun (d : Bool) => 2048 < sumL (all.map fun x => quarters x d)
  let hot := fun (p : Nat) (d : Bool) => 95 * portRate s p < 100 * sumL (all.map fun x => portLoad x p d)
  if tooMuch true || tooMuch false then 0x0207
  else if (List.range 48).any fun p =>
    (portLoad e p true != 0 || portLoad e p false != 0) && (hot p true || hot p false) then 0x0203 else 0

/-- The first number from `lo` below `hi` at which `n` numbers lie outside some ranges. -/
def firstGap (lo hi n : Nat) (used : List (Nat × Nat)) : Option Nat :=
  if n = 0 then some lo
  else (lo :: used.map fun u => u.1 + u.2).find? fun a =>
    lo ≤ a && a + n ≤ hi && used.all fun u => u.2 == 0 || a + n ≤ u.1 || u.1 + u.2 ≤ a

/-- The tasks and flows the device allocates to a carrier, chirp group or bridge group at START, each a range of consecutive
numbers from 32,768 and from 2,048 on (R206; that a range is consecutive is a DESIGN CHOICE, log 109). -/
def taskRange (s : State) (e : Nat × Object) : Option Owned :=
  let nt := Config.functionTasks e.1 e.2.body
  let nf := Config.functionFlows e.1 e.2.body
  match firstGap 32768 65536 nt (s.shuttle.owned.map fun o => (o.tFirst, o.tCount)),
      firstGap 2048 4096 nf (s.shuttle.owned.map fun o => (o.fFirst, o.fCount)) with
  | some t, some f => some { obj := e.1, tFirst := t, tCount := nt, fFirst := f, fCount := nf, class0 := true }
  | _, _ => none

/-- Shuttle tasks and flows for a carrier, chirp group or bridge group can be allocated (R206). -/
def taskRoom (s : State) (e : Nat × Object) : Bool := (taskRange s e).isSome

/-- They are allocated, and given back when the function ends. -/
def taskTake (e : Nat × Object) (s : State) : State :=
  match taskRange s e with
  | some o => { s with shuttle := { s.shuttle with owned := s.shuttle.owned ++ [o] } }
  | none => s
def taskGive (id : Nat) (s : State) : State :=
  { s with shuttle := { s.shuttle with owned := s.shuttle.owned.filter (·.obj != id) } }

/-- The class-0 traffic a function admits at START (R142, R205). -/
def functionC0 (id : Nat) (b : Bytes) : List C0Entry :=
  (Config.functionTraffic id b).map fun t => { src := t.1 % 64, dsts := [t.2.1 % 64], rate := t.2.2.1, burst := t.2.2.2 }

/-- The ledger check (R25). -/
def ledgerOk (s : State) (cost : Nat) : Bool := committed s + cost ≤ available s

/-- The device pool has room for `n` more bytes (R454). -/
def poolFree (s : State) (n : Nat) : Bool := poolHeld s + ringBytes s + n ≤ poolBytes s

/-- The frequency range of an NR-ARFCN (TS 38.104; R111): 1 FR1, 2 FR2-1, 0 neither. -/
def freqRange (n : Nat) : Nat :=
  let f := if n < 600000 then 5 * n else if n < 2016667 then 3000000 + 15 * (n - 600000) else 24250080 + 60 * (n - 2016667)
  if 410000 ≤ f ∧ f ≤ 7125000 then 1 else if 24250000 ≤ f ∧ f ≤ 52600000 then 2 else 0

/-- Every antenna of each direction named exactly once (R124). With TWO_CELLS each cell's entries, told apart by bit 2 of
DIR, name every antenna once, since the cells share the antennas and each has messages of its own; the spec leaves this open
(DESIGN CHOICE, log 110). -/
def antMapOk (id : Nat) (b : Bytes) : Bool :=
  let two := isLte id && carFlag b 4
  let m := antMap b
  let named := m.flatMap fun a =>
    (if bit a.dir 0 then [(bit a.dir 2, true, a.ant)] else []) ++ (if bit a.dir 1 then [(bit a.dir 2, false, a.ant)] else [])
  let want := ([false] ++ (if two then [true] else [])).flatMap fun c =>
    (List.range (carDlAnt b)).map (fun a => (c, true, a)) ++ (List.range (carUlAnt b)).map (fun a => (c, false, a))
  named.length == want.length && want.all named.contains &&
    m.all (fun a => a.port ≤ 47 && a.dir < 8 && a.dir % 4 != 0 && (two || a.dir < 4)) &&
    ((List.range m.length).all fun k => rsv b (80 + 8 * k + 5) 3)

/-- The port and eAxC pairs an object uses (R124, R319). -/
def eaxcsOf (e : Nat × Object) : List (Nat × Nat) :=
  let b := e.2.body
  if e.1 / 0x1000000 = 2 then (antMap b).map fun a => (a.port, a.eaxc)
  else (fld b 0 1, fld b 2 2) :: (if bit (fld b 1 1) 2 then [(fld b 0 1, fld b 4 2)] else [])

/-- No eAxC identifier is used twice on a port, by this body or by another carrier or chirp group (R124, R319). -/
def eaxcOk (s : State) (e : Nat × Object) : Bool :=
  let mine := eaxcsOf e
  let others := ((objsOf s 2 1 ++ objsOf s 2 2 ++ objsOf s 3 1).filter (·.1 != e.1)).flatMap eaxcsOf
  mine.eraseDups.length == mine.length && mine.all fun p => !others.contains p

/-- The body ranges that NR and LTE share (R123, R125). -/
def carrierCommonOk (b : Bytes) : Bool :=
  88 ≤ b.length && (b.length - 80) % 8 == 0 && fld b 1 1 < 2 && 1 ≤ carMax b && carMax b ≤ 4096 &&
    (toS 64 (fld b 24 8)).natAbs ≤ 10000000 && rsv b 37 3 && 100 ≤ fld b 40 2 && fld b 40 2 ≤ 1000 &&
    20 ≤ fld b 42 2 && fld b 42 2 ≤ 500 && [8, 9, 12, 14, 16].contains (carMantissa b) &&
    2 ≤ carUlWindow b && carUlWindow b ≤ 14 && 1 ≤ fld b 48 1 && fld b 48 1 ≤ 100 && 1 ≤ fld b 49 1 &&
    fld b 50 1 ≤ 48 && rsv b 51 1 && 1 ≤ fld b 8 1 && fld b 8 1 ≤ carDlAnt b && 1 ≤ fld b 9 1 && fld b 9 1 ≤ carUlAnt b &&
    (fld b 1 1 == 1 || (fld b 2 2 == fld b 4 2 && fld b 12 4 == fld b 16 4))

/-- The NR body (R123). Of an FDD body's TDD fields only TDD_PERIOD is checked, the one the rule lists for FDD (DESIGN CHOICE,
log 118). -/
def nrOk (id : Nat) (b : Bytes) : Bool :=
  let ants := [1, 2, 4, 8, 16, 32, 64]
  let syms := fld b 34 1 + fld b 35 1
  let fr := freqRange (fld b 12 4)
  fld b 0 1 ≤ 3 && ants.contains (carDlAnt b) && ants.contains (carUlAnt b) && fld b 8 1 ≤ 16 && fld b 9 1 ≤ 8 &&
    fld b 12 4 ≤ 3279165 && fld b 16 4 ≤ 3279165 && fr != 0 && fld b 20 2 ≤ 1007 && fld b 22 1 ≤ 5 && fld b 23 1 < 16 &&
    1 ≤ fld b 45 1 && fld b 45 1 ≤ 15 && 1 ≤ fld b 46 1 && fld b 46 1 ≤ 15 && rsv b 60 4 &&
    (if fr = 1 then fld b 0 1 ≤ 2 else 2 ≤ fld b 0 1) && carRb id b 2 != 0 && carRb id b 4 != 0 &&
    (if fld b 1 1 = 0 then 1 ≤ fld b 32 1 && fld b 32 1 ≤ 80 && syms ≤ 14 &&
        fld b 33 1 + fld b 36 1 + (if 0 < syms then 1 else 0) == fld b 32 1
     else rsv b 32 1 && fr == 1 && freqRange (fld b 16 4) == 1)

/-- The LTE body (R125). Of the fields its table does not list, SSB_PERIOD, TDD_DL_SYMS, TDD_UL_SYMS and TDD_UL_SLOTS, which
have no LTE meaning, must be 0, and bytes 60 to 63 without TWO_CELLS; the others have the NR layout's meaning and ranges,
without which no LTE carrier could be configured (DESIGN CHOICE, log 111). -/
def lteOk (id : Nat) (b : Bytes) : Bool :=
  let off := toS 16 (fld b 62 2)
  let inR := fun (v : Int) => 0 ≤ v && v ≤ 262143
  fld b 0 1 == 0 && [1, 2, 4, 8].contains (carDlAnt b) && [1, 2, 4, 8].contains (carUlAnt b) && fld b 8 1 ≤ 4 &&
    fld b 9 1 ≤ 2 && inR (fld b 12 4 : Nat) && inR (fld b 16 4 : Nat) && fld b 20 2 ≤ 503 && rsv b 22 1 && fld b 23 1 < 32 &&
    rsv b 34 3 && rsv b 45 2 && carRb id b 2 != 0 && carRb id b 4 != 0 &&
    (if fld b 1 1 = 0 then fld b 32 1 ≤ 6 else fld b 32 1 == 0xFF) && fld b 33 1 ≤ 10 &&
    (if carFlag b 4 then fld b 60 2 ≤ 503 && inR ((fld b 12 4 : Nat) + off) && inR ((fld b 16 4 : Nat) + off) else rsv b 60 4)

/-- OBJ_SET's check of a carrier body (R114, R123 to R125). -/
def carrierCheck (s : State) (id : Nat) (b : Bytes) : Nat :=
  let other := carrierObj (if isLte id then 1 else 2) (id % 0x10000)
  firstFail [need (carrierCommonOk b && (if isLte id then lteOk id b else nrOk id b) && antMapOk id b &&
      eaxcOk s (id, { body := b })) stBAD_PARAM,
    need (objFind s other).isNone 0x0206]

/-- A carrier's fronthaul or N3 port is absent from the part (R58). -/
def carrierAbsent (s : State) (b : Bytes) : Bool :=
  ((antMap b).map (·.port) ++ [fld b 50 1]).any fun p => p ≤ 48 && !unitPresent s.part uETH p

/-- The state and admission checks of a carrier's START in order, 0 when it is admitted (R115 to R126, R205, R206). -/
def carrierAdmit (s : State) (id : Nat) (o : Object) : Nat :=
  let b := o.body
  let act := activeCarriers s
  firstFail [need (s.cox.st != .unset) stTIME_UNSET,
    need (!carFlag b 0 || s.cox.st == .locked) 0x0202,
    need (ledgerOk s (carrierCost id b)) stADMISSION_REFUSED,
    need (!isLte id || sumL (act.map fun e => lteCells e.1 e.2.body) + lteCells id b ≤ 96) stNO_RESOURCE,
    need (sumL (act.map fun e => carMax e.2.body) + carMax b ≤ 16384) stNO_RESOURCE,
    need (sumL (act.map fun e => cellCost e.1 e.2.body) + cellCost id b ≤ 196608) stNO_RESOURCE,
    need (poolFree s (harqBytes id b)) stNO_RESOURCE,
    need (taskRoom s (id, o)) stNO_RESOURCE,
    fronthaulCheck s (id, o),
    need (c0Admit s (functionC0 id b) && bupexAdmit s id b) stADMISSION_REFUSED]

/-- FRONTHAUL_STATUS and FRONTHAUL_CELLS brought up to date. -/
def fhRefresh (s : State) : State :=
  let act := fronthaulActive s
  let q := max (sumL (act.map fun e => quarters e true)) (sumL (act.map fun e => quarters e false))
  let run := (objsOf s 2 1 ++ objsOf s 2 2).filter fun e => e.2.st == some .running
  regPut uFRONTHAUL 0 0x004 (BitVec.ofNat 32 (sumL ((activeCarriers s).map fun e => cellCost e.1 e.2.body)))
    (regPut uFRONTHAUL 0 0x000 (BitVec.ofNat 32 (q * 65536 + run.length)) s)

/-- An admitted carrier begins to start (R121, R129, R140, R205). -/
def carrierBegin (id : Nat) (s : State) : State :=
  let c := id % 0x10000
  match objFind s id with
  | none => s
  | some o =>
    let s := taskTake (id, o) (c0Set id (functionC0 id o.body) (objPut id { o with pool := harqBytes id o.body } s))
    let s := cntZeroAll (fun k => k / 16 == cntKey uFRONTHAUL c 0 / 16 && k % 16 != fhUNKNOWN) s
    let n := (slotAt id o.body (carrierStartAt o.body (shortNow s)).toNat).getD 0
    fhRefresh (carrierPut c { admitted := shortNow s, first := n, period := n, statsSlot := n } s)

/-- A STARTING carrier reaches RUNNING (R129). -/
def carrierRunning (c : Nat) (s : State) : State :=
  match carrierIn s c .starting with
  | none => s
  | some (id, b) =>
    if carrierStartAt b (carrierRun s c).admitted ≤ (shortNow s : Int) then
      fhRefresh (reachRunning id s)
    else s

/-- The packets of a carrier's uplink symbols freed. -/
def freeSymbols (c : Nat) (s : State) : State :=
  let s := (carrierRun s c).symbols.foldl (fun s u => pktFree u.handle s) s
  carrierPut c { carrierRun s c with symbols := [] } s

/-- The carrier of a handset. -/
def handsetCarrier (h : Handset) : Nat := fld h.ctx 2 1

/-- The latest slot whose scheduling is due at a time. -/
def dueSlot (id : Nat) (b : Bytes) (t : Nat) : Option Nat := (slotAt id b t).map fun n => n + lead (carMu id b)

/-- The end of a stopping carrier's last slot whose scheduling has been released (R130). -/
def carrierEndAt (s : State) (c id : Nat) (b : Bytes) : Int :=
  match (carrierRun s c).released with
  | some n => slotStart id b (n + 1)
  | none => 0

/-- At that point a stopping carrier's contexts go, with their HARQ processes, queued packets and keys (R130). -/
def carrierDiscard (c : Nat) (s : State) : State :=
  let hs := (s.handsets.filter fun e => handsetCarrier e.2 == c).map (·.1)
  { s with handsets := s.handsets.filter fun e => handsetCarrier e.2 != c
           keys := s.keys.filter fun e => !(hs.contains (e.1 / 8)) }

/-- The end of its last slot has come. -/
def carrierOver (s : State) (c : Nat) : Bool :=
  match carrierIn s c .stopping with
  | some (id, b) => carrierEndAt s c id b ≤ (shortNow s : Int)
  | none => false

/-- The carriers' part of a clock cycle. -/
def carrierTick (s : State) : State :=
  (List.range 64).foldl (fun s c => if carrierOver s c then carrierDiscard c s else s) s

/-- The decode deadline of a stopping carrier's last slot (R130): (n + 2)S after slot `n`. -/
def carrierStopAt (s : State) (c id : Nat) (b : Bytes) : Int :=
  match (carrierRun s c).released with
  | some n => slotStart id b (n + 2)
  | none => 0

/-- A stopping carrier reaches STOPPED (R65, R130). -/
def carrierStopped (c : Nat) (s : State) : State :=
  match carrierIn s c .stopping with
  | none => s
  | some (id, b) =>
    if carrierStopAt s c id b ≤ (shortNow s : Int) then
      let s := freeSymbols c (carrierDiscard c s)
      let s := match objFind s id with
        | some o => objPut id { o with pool := 0 } s
        | none => s
      fhRefresh (reachStopped id (c0Set id [] { taskGive id s with carriers := spDel s.carriers c }))
    else s

/-- The carrier that is not STOPPED, its ID, body and antenna entry that a port and eAxC map to in a direction. -/
def eaxcFind (s : State) (port eaxc dirBit : Nat) : Option (Nat × Nat × Bytes × AntEntry) :=
  (objsOf s 2 1 ++ objsOf s 2 2).findSome? fun e =>
    if e.2.st == some .running || e.2.st == some .stopping || e.2.st == some .starting then
      ((antMap e.2.body).find? fun a => a.port == port && a.eaxc == eaxc && bit a.dir dirBit).map fun a =>
        (e.1 % 0x10000, e.1, e.2.body, a)
    else none

/-- A slot that a carrier serves: from its first frame on, whose stages begin while it is STARTING (R129, R142); while
STOPPING those already scheduled (R130). -/
def slotServed (s : State) (c n : Nat) : Bool :=
  match carrierFind s c with
  | some (_, o) =>
    (carrierRun s c).first ≤ n &&
      (o.st == some .running || o.st == some .starting || (carrierRun s c).released.any fun m => n ≤ m)
  | none => false

/-- The symbols of an antenna that are still in Spool (R137). -/
def inSpool (s : State) (c ant : Nat) : List UlSymbol :=
  (carrierRun s c).symbols.filter fun u => u.ant == ant && (pkt s u.handle).any (·.fronthaul)

/-- A symbol's entry: it stays until the receive window closes, though its packet may have been freed before (R135). -/
def ulFind (s : State) (c n k ant : Nat) : Option UlSymbol :=
  (carrierRun s c).symbols.find? fun u => u.slot == n && u.sym == k && u.ant == ant

/-- A symbol's entry changed. -/
def ulMod (c n k ant : Nat) (f : UlSymbol → UlSymbol) (s : State) : State :=
  let x := carrierRun s c
  carrierPut c { x with symbols := x.symbols.map fun u => if u.slot = n ∧ u.sym = k ∧ u.ant = ant then f u else u } s

/-- The key of a symbol and antenna among the carrier's dropped symbols. -/
def ulKey (n k ant : Nat) : Nat := (14 * n + k) * 256 + ant

/-- A packet opened for a symbol, its cells zero until blocks arrive; none when the window or Spool is full (R133,
R137). -/
def ulOpen (c id : Nat) (b : Bytes) (n k ant : Nat) (s : State) : Bool × State :=
  let lost := fun s => (false, ulLostEvent c (fhCount c fhNO_CELLS 1
    (carrierPut c { carrierRun s c with ulLost := (carrierRun s c).ulLost + 1,
                                        dropped := ulKey n k ant :: (carrierRun s c).dropped } s)))
  if carUlWindow b ≤ (inSpool s c ant).length then lost s
  else match alloc .fronthaul (48 * carRb id b 4) s with
  | (none, s) => lost s
  | (some h, s) =>
    let s := { s with carriers := s.carriers.map fun e =>
                 (e.1, { e.2 with symbols := e.2.symbols.map fun u => if u.handle = h then { u with handle := noHandle } else u }) }
    let x := carrierRun s c
    (true, fillPacket h (zeros (48 * carRb id b 4))
      (carrierPut c { x with symbols := x.symbols ++ [{ slot := n, sym := k, ant := ant, handle := h }] } s))

/-- The decompressed value of a mantissa of `w` bits (R133); one that does not fit 16 bits saturates, which the spec leaves
open (DESIGN CHOICE, log 112). -/
def expand (w exponent : Nat) (m : BitVec 16) : Int := satS 16 (toS w (m.toNat % 2 ^ w) * 2 ^ exponent)

/-- The phase compensation of a symbol, none for LTE or with RU_PHASE_COMP (R113). -/
def compensate (id : Nat) (b : Bytes) (down : Bool) (n k : Nat) (v : Int × Int) : Int × Int :=
  if isLte id ∨ carFlag b 3 then v else Config.phaseComp (carMu id b) (fld b (if down then 12 else 16) 4) n k v

/-- The 48 bytes of a resource block: I and Q of each subcarrier. A received symbol is compensated as it is decompressed, so
that its Spool packet holds compensated values; R113 does not place the compensation (DESIGN CHOICE, log 113). -/
def prbBytes (id : Nat) (b : Bytes) (n k : Nat) (p : Prb) : Bytes :=
  let w := carMantissa b
  let e := if w = 16 then 0 else p.exponent.toNat
  (List.range 12).flatMap fun j =>
    let v := compensate id b false n k (expand w e (p.mantissas.getD (2 * j) 0), expand w e (p.mantissas.getD (2 * j + 1) 0))
    leBytes 2 (ofS 16 v.1) ++ leBytes 2 (ofS 16 v.2)

/-- Bytes written into a packet at an offset that is a multiple of 16 below its length. -/
def patchPacket (h off : Nat) (bs : Bytes) (s : State) : State :=
  let old := packetBytes s h
  fillPacket h (sub old 0 off ++ bs ++ old.drop (off + bs.length)) s

/-- The eCPRI sequence of an eAxC looked at: a gap is counted (R140). -/
def seqCheck (c port eaxc seq : Nat) (s : State) : State :=
  let k := port * 65536 + eaxc
  let gap := (spFind s.fhSeq k).any fun q => (q + 1) % 256 != seq
  let s := { s with fhSeq := spPut s.fhSeq k seq }
  if gap then fhCount c fhSEQ_GAP 1 s else s

/-- A symbol's packet is complete: its ingest is released, and the last symbol of a slot's stages after it have their
deadlines (R136, R142). -/
def ulComplete (c id : Nat) (b : Bytes) (n k ant : Nat) (missing : Bool) (s : State) : State :=
  let t := shortNow s
  let s := ulMod c n k ant (fun u => { u with complete := true, doneAt := t, missing := missing }) s
  let x := carrierRun s c
  let new := (.ingest k :: [Stage.estimation, .detection, .ldpc, .uci, .macUplink]).map (stageRun id b n t)
  carrierPut c { x with
    missing := if missing then (14 * n + k) :: x.missing.take 4095 else x.missing
    stages := x.stages ++ new.filter fun r => !x.stages.any fun q => q.stage == r.stage && q.slot == r.slot } s

/-- A received U-plane message (R133 to R137): blocks from `first` of symbol `k` of slot `n`. -/
def uplaneMessage (port eaxc seq n k first : Nat) (prbs : List Prb) (s : State) : State :=
  match eaxcFind s port eaxc 1 with
  | none => fhCount port fhUNKNOWN 1 s
  | some (c, id, b, a) =>
    if !slotServed s c n then fhCount port fhUNKNOWN 1 s
    else
      let ant := a.ant + (if bit a.dir 2 then 64 else 0)
      let s := seqCheck c port eaxc seq s
      let t : Int := (shortNow s : Int)
      if t < symbolStart id b n k then fhCount c fhEARLY 1 s
      else if symbolStart id b n (k + 1) + carUlWindowNs b < t then
        ulLostEvent c (fhCount c fhLATE 1 (carrierPut c { carrierRun s c with ulLost := (carrierRun s c).ulLost + 1 } s))
      else
        let blocks := (List.range prbs.length).map (· + first)
        if blocks.any fun p => carRb id b 4 ≤ p then fhCount port fhUNKNOWN 1 s
        else if (carrierRun s c).dropped.contains (ulKey n k ant) then s
        else
          let (ok, s) := match ulFind s c n k ant with
            | some _ => (true, s)
            | none => ulOpen c id b n k ant s
          match ulFind s c n k ant with
          | none => s
          | some u =>
            if !ok then s
            else if u.complete ∨ blocks.any u.got.contains then fhCount c fhDUPLICATE 1 s
            else
              let s := ulMod c n k ant (fun u => { u with got := u.got ++ blocks }) s
              let s := fhCount c fhACCEPTED 1 (patchPacket u.handle (48 * first) (prbs.flatMap (prbBytes id b n k)) s)
              if u.got.length + blocks.length = carRb id b 4 then ulComplete c id b n k ant false s else s

/-- One antenna's symbol at the close of its receive window (R136); a dropped symbol has no packet to complete (R137). -/
def closeAntenna (c id : Nat) (b : Bytes) (n k ant : Nat) (s : State) : State :=
  let s := match ulFind s c n k ant with
    | some _ => s
    | none => if (carrierRun s c).dropped.contains (ulKey n k ant) then s else (ulOpen c id b n k ant s).2
  match ulFind s c n k ant with
  | none => carrierPut c { carrierRun s c with dropped := (carrierRun s c).dropped.filter (· != ulKey n k ant) } s
  | some u =>
    if u.complete then s
    else
      let miss := carRb id b 4 - u.got.length
      let s := ulComplete c id b n k ant (0 < miss) s
      if miss = 0 then s
      else ulLostEvent c (fhCount c fhMISSING miss (carrierPut c { carrierRun s c with ulLost := (carrierRun s c).ulLost + 1 } s))

/-- A joint group toward a device is suspended in a slot: suspension and resumption hold from the next frame boundary (R572,
R574). -/
def jointCut (s : State) (id : Nat) (b : Bytes) (n dev : Nat) : Bool :=
  let m := s.serial.md
  let frame := 10 * 2 ^ carMu id b
  (if (m.cutAt : Int) ≤ slotStart id b (n / frame * frame) then m.cut else m.cutBefore).contains dev

/-- A completed symbol of a carrier with a joint group sent to the peer device (R567, R572). -/
def jointSend (c id : Nat) (b : Bytes) (n k ant : Nat) (s : State) : State :=
  match ulFind s c n k ant with
  | none => s
  | some u =>
    (joints s).foldl (fun s j =>
      if j.carrier = c ∧ !jointCut s id b n j.peer then
        sendTo j.peer 0 "joint-symbol" (leBytes 1 j.peerCarrier ++ leBytes 8 n ++ leBytes 1 k ++ leBytes 1 ant) (packetBytes s u.handle) s
      else s) s

/-- A peer's uplink symbol of a joint group arrives: it stands beside this carrier's own antennas, numbered from 128, for
detection (R567). -/
def jointReceive (dev c n k ant : Nat) (iq : Bytes) (s : State) : State :=
  match carrierFind s c with
  | none => s
  | some (id, o) =>
    if o.st ≠ some .running ∨ !(joints s).any (fun j => j.carrier == c && j.peer == dev) ∨ jointCut s id o.body n dev then s
    else match ulOpen c id o.body n k (128 + ant) s with
    | (false, s) => s
    | (true, s) =>
      match ulFind s c n k (128 + ant) with
      | some u =>
        patchPacket u.handle 0 (fit (48 * carRb id o.body 4) iq) (ulMod c n k (128 + ant) (fun (u : UlSymbol) => { u with complete := true }) s)
      | none => s

/-- The close of a symbol's receive window (R136). -/
def windowClose (c n k : Nat) (s : State) : State :=
  match carrierFind s c with
  | none => s
  | some (id, o) =>
    let b := o.body
    if !slotServed s c n ∨ !isUplink id b n k ∨ (shortNow s : Int) ≤ symbolStart id b n (k + 1) + carUlWindowNs b then s
    else
      let ants := List.range (carUlAnt b) ++ (if isLte id && carFlag b 4 then (List.range (carUlAnt b)).map (· + 64) else [])
      let s := ants.foldl (fun s a => jointSend c id b n k a (closeAntenna c id b n k a s)) s
      let x := carrierRun s c
      let past := fun (u : UlSymbol) => u.slot < n || (u.slot == n && u.sym ≤ k)
      carrierPut c { x with symbols := x.symbols.filter fun u => !past u || (pkt s u.handle).any (·.fronthaul) } s

/-- The least exponent at which no mantissa of a block saturates (R133). -/
def blockExponent (m : Nat) (vs : List Int) : Nat :=
  ((List.range 16).find? fun e => vs.all fun v => satS m (v / 2 ^ e) == v / 2 ^ e).getD 15

/-- The `n` low bits of a value, the highest first. -/
def bitsHigh (n v : Nat) : List Bool := (List.range n).map fun k => bit v (n - 1 - k)

/-- A block of 24 values compressed: a 4-bit exponent, none with 16-bit values, then the mantissas in MANTISSA bits each
(R133). -/
def packBlock (m : Nat) (vs : List Int) : List Bool :=
  let e := if m = 16 then 0 else blockExponent m vs
  (if m = 16 then [] else bitsHigh 4 e) ++ vs.flatMap fun v => bitsHigh m (ofS m (v / 2 ^ e))

/-- Bits put into bytes, the first highest, the last byte filled with zeros (the order of bits is a DESIGN CHOICE, log
112). -/
def packBits : Nat → List Bool → Bytes
  | 0, _ => []
  | f + 1, l =>
    if l = [] then []
    else BitVec.ofNat 8 ((List.range 8).foldl (fun a k => 2 * a + b2n (l.getD k false)) 0) :: packBits f (l.drop 8)

/-- The I and Q values of a symbol of IQ, compensated. -/
def symbolValues (id : Nat) (b : Bytes) (n k : Nat) (iq : Bytes) : List Int :=
  (List.range (iq.length / 4)).flatMap fun j =>
    let v := compensate id b true n k (toS 16 (fld iq (4 * j) 2), toS 16 (fld iq (4 * j + 2) 2))
    [v.1, v.2]

/-- Lists of 24 values at a time. -/
def chunks24 : Nat → List Int → List (List Int)
  | 0, _ => []
  | f + 1, vs => if vs = [] then [] else vs.take 24 :: chunks24 f (vs.drop 24)

/-- The U-plane message of one antenna's symbol sent on each port and eAxC that carries it. -/
def sendUplane (c id : Nat) (b : Bytes) (n k ant : Nat) (iq : Bytes) (s : State) : State :=
  let vs := symbolValues id b n k iq
  let blocks := (chunks24 (vs.length + 1) vs).flatMap (packBlock (carMantissa b))
  let body := packBits (blocks.length + 1) blocks
  ((antMap b).filter fun a => bit a.dir 0 && a.ant + (if bit a.dir 2 then 64 else 0) == ant).foldl (fun s a =>
    fhCount c fhDL_SENT 1 (emit (.eth a.port "uplane" (leBytes 2 a.eaxc ++ leBytes 4 n ++ [BitVec.ofNat 8 k] ++ body)) s)) s

/-- A stage of a slot done. -/
def stageDone (c n : Nat) (st : Stage) (s : State) : State :=
  let x := carrierRun s c
  carrierPut c { x with stages := x.stages.filter fun r => !(r.stage == st && r.slot == n) } s

/-- A downlink symbol's IQ, one packet per antenna, is complete in Spool, or its time has come without it (R138). -/
def dlSymbolSend (c n k : Nat) (iq : List (Nat × Nat)) (s : State) : State :=
  match carrierFind s c with
  | none => s
  | some (id, o) =>
    let b := o.body
    if !slotServed s c n then s
    else
      let limit := symbolStart id b n k - carDlAdvance b - 10000
      let x := carrierRun s c
      let free := fun s => iq.foldl (fun s (e : Nat × Nat) => if holdable s e.2 then pktFree e.2 s else s) s
      if (shortNow s : Int) ≤ limit then
        if iq = [] then s else stageDone c n (.modulation k) <| free (iq.foldl (fun s e =>
          let (d, s) := readPacket (unitInit uFRONTHAUL 0) e.2 s
          sendUplane c id b n k e.1 d s) s)
      else if x.lateSymbols.contains (14 * n + k) then free s
      else
        let s := carrierPut c { x with lateSymbols := (14 * n + k) :: x.lateSymbols.take 4095, dlLate := x.dlLate + 1 } s
        free (dlLateEvent c (fhCount c fhDL_LATE 1 s))

/-- The C-plane messages of a slot are ready, or its time has come without them (R139). -/
def cplaneSend (c n : Nat) (msgs : List (Nat × Bytes)) (s : State) : State :=
  match carrierFind s c with
  | none => s
  | some (id, o) =>
    let b := o.body
    if !slotServed s c n then s
    else
      let x := carrierRun s c
      if (shortNow s : Int) ≤ slotStart id b n - carDlAdvance b - 125000 then
        stageDone c n .cplane (msgs.foldl (fun s m => fhCount c fhCP_SENT 1 (emit (.eth m.1 "cplane" m.2) s)) s)
      else if x.lateSlots.contains n then s
      else dlLateEvent c (fhCount c fhCP_LATE 1 (carrierPut c { x with lateSlots := n :: x.lateSlots.take 4095 } s))

/-- A one-way delay measurement (R132): a request received is answered, and the device's own request sent. -/
def delayMeasurement (port : Nat) (received : Bool) (id : Nat) (s : State) : State :=
  emit (.eth port (if received then "delay-response" else "delay-request") (BitVec.ofNat 8 id :: coxBytes (coxFine s))) s

/-- A handset context put in place. -/
def handsetPut (h : Nat) (x : Handset) (s : State) : State := { s with handsets := spPut s.handsets h x }

/-- The context part of a request, its keys taken out. -/
def stripKeys (p : Bytes) : Bytes :=
  sub p 0 24 ++ (List.range (fld p 10 2)).flatMap fun k => sub p (24 + 64 * k) 32 ++ zeros 32

/-- The key slots of a handset written from a request (R312, R313), and cleared. -/
def keysWrite (h : Nat) (p : Bytes) (s : State) : State :=
  (List.range 8).foldl (fun s k =>
    if k < fld p 10 2 then
      { s with keys := spPut s.keys (h * 8 + k) { first := sub p (24 + 64 * k + 32) 16, second := sub p (24 + 64 * k + 48) 16 } }
    else { s with keys := spDel s.keys (h * 8 + k) }) s
def keysClear (h : Nat) (s : State) : State :=
  (List.range 8).foldl (fun s k => { s with keys := spDel s.keys (h * 8 + k) }) s

/-- The bearers of a new context: those of the same DRB_ID keep their COUNT values unless REESTABLISH is 1 (R152). -/
def newBearers (old : List Bearer) (p : Bytes) : List Bearer :=
  (List.range (fld p 10 2)).map fun k =>
    let d := fld p (24 + 64 * k) 1
    match old.find? fun b => b.drb == d && !bit (fld p 9 1) 2 with
    | some b => b
    | none => { drb := d }

/-- A context in force: FORECAST newly set makes the next scheduling task publish (R154). -/
def adoptContext (h : Nat) (x : Handset) (p : Bytes) (s : State) : State :=
  let newly := bit (fld p 9 1) 0 && !bit (fld x.ctx 9 1) 0
  handsetPut h { x with ctx := stripKeys p, bearers := newBearers x.bearers p, next := none
                        published := if newly then none else x.published } (keysWrite h p s)

/-- Handsets of a carrier, by rising identifier. -/
def handsetsOf (s : State) (c : Nat) : List (Nat × Handset) := s.handsets.filter fun e => handsetCarrier e.2 == c

/-- A handset whose context no HANDSET_REMOVE has ended. -/
def handsetFind (s : State) (h : Nat) : Option Handset := (spFind s.handsets h).filter fun x => x.removed.isNone

/-- Bytes queued for a handset. -/
def backlog (x : Handset) : Nat := sumL (x.queue.map fun e => e.2.length)

/-! ### HARQ (R142 to R144) -/

/-- A handset's HARQ process of a direction. -/
def harqFind (x : Handset) (up : Bool) (p : Nat) : Option HarqProc := x.harq.find? fun q => q.up == up && q.proc == p

/-- It put in place of the one of the same direction and number, and taken out. -/
def harqDel (up : Bool) (p : Nat) (x : Handset) : Handset :=
  { x with harq := x.harq.filter fun q => !(q.up == up && q.proc == p) }
def harqPut (q : HarqProc) (x : Handset) : Handset :=
  { harqDel q.up q.proc x with harq := (harqDel q.up q.proc x).harq ++ [q] }

/-- A transport block counted in a period. -/
def airCount (up good : Bool) (bits : Nat) (a : AirStats) : AirStats :=
  if up then { a with ulTb := a.ulTb + 1, ulErr := a.ulErr + b2n (!good), ulBits := a.ulBits + (if good then bits else 0) }
  else { a with dlTb := a.dlTb + 1, dlErr := a.dlErr + b2n (!good), dlBits := a.dlBits + (if good then bits else 0) }

/-- A process's decode result: delivered, it is free; failed, it waits for its retransmission. A result for a process that
has already missed its deadline, or for none, is late and discarded (R144). -/
def harqResult (c h : Nat) (up good : Bool) (p : Nat) (s : State) : State :=
  match spFind s.handsets h with
  | none => s
  | some x =>
    match harqFind x up p with
    | none => s
    | some q =>
      if q.failed then s
      else
        let x := { x with air := airCount up good q.bits x.air }
        let x := if good then harqDel up p x else harqPut { q with failed := true } x
        let r := carrierRun s c
        handsetPut h x (carrierPut c { r with air := airCount up good q.bits r.air } s)

/-- A decoding that missed its deadline, (n + 2)S of the block's or the feedback's slot: the block counts as failed, the
feedback as DTX (R144). -/
def decodeMiss (c : Nat) (uci : Bool) (h p : Nat) (s : State) : State :=
  match carrierFind s c, spFind s.handsets h with
  | some (id, o), some x =>
    match harqFind x (!uci) p with
    | none => s
    | some q =>
      if handsetCarrier x ≠ c ∨ o.st = some .stopped ∨ q.failed ∨ (shortNow s : Int) < slotStart id o.body (q.slot + 2) then s
      else
        let x := harqPut { q with failed := true } { x with dtx := if uci then x.dtx + 1 else x.dtx }
        harqEvent c (fhCount c (if uci then fhHARQ_DL else fhHARQ_UL) 1
          (carrierPut c { carrierRun s c with harqMiss := (carrierRun s c).harqMiss + 1 } (handsetPut h x s)))
  | _, _ => s

/-! ### The user plane upwards (R146, R147) -/

/-- A record or packet of the fronthaul unit sent on a queue. -/
def fhSend (q : Nat) (bs : Bytes) (s : State) : State := (unitSend .unit q bs (unitInit uFRONTHAUL 0) s).2

/-- The bearer entry of a DRB in a context. -/
def bearerEntry (x : Handset) (drb : Nat) : Option Bytes :=
  ((List.range (fld x.ctx 10 2)).map fun k => sub x.ctx (24 + 64 * k) 64).find? fun e => fld e 0 1 == drb

/-- A GTP-U G-PDU (TS 29.281): the TEID, with the PDU session container on N3, none on S1-U. -/
def gtpuHead (lte : Bool) (e data : Bytes) : Bytes :=
  let teid := (leBytes 4 (fld e 12 4)).reverse
  let ext := if lte then [] else [0, 0, 0, 0x85] ++ fit 4 (Config.sessionContainer e)
  [if lte then 0x30 else 0x34, 0xFF] ++ (leBytes 2 (ext.length + data.length)).reverse ++ teid ++ ext

/-- A user packet of the uplink sent to the core network without fragmentation (R146). -/
def gtpuSend (id : Nat) (b : Bytes) (x : Handset) (drb : Nat) (data : Bytes) (s : State) : State :=
  match bearerEntry x drb with
  | none => s
  | some e =>
    let g := gtpuHead (isLte id) e data ++ data
    emit (.eth (fld b 50 1) "gtpu" (Config.ipUdp (sub e 16 16) (sub b 64 16) 2152 2152 (fld e 7 1) g ++ g)) s

/-- The queue item of an SRB PDU to the host (R147). -/
def srbItem (c h : Nat) (x : Handset) (lcid : BitVec 8) (data : Bytes) : Bytes :=
  [1, lcid] ++ leBytes 2 h ++ [BitVec.ofNat 8 c, BitVec.ofNat 8 (fld x.ctx 3 1)] ++ zeros 10 ++ data

/-- What a slot has decoded for a handset goes on: user packets to the core, SRB PDUs to HOST_UP_Q. -/
def sendUp (id : Nat) (b : Bytes) (f : SlotFigure) (s : State) : State :=
  let h := f.handset.toNat
  match spFind s.handsets h with
  | none => s
  | some x =>
    let up := fun (r : Bearer) =>
      let n := (f.userPackets.filter fun e => e.1.toNat == r.drb).length
      { r with ulCount := r.ulCount + n, rlcRx := r.rlcRx + n }
    let s := handsetPut h { x with bearers := x.bearers.map up } s
    let s := f.userPackets.foldl (fun s e => gtpuSend id b x e.1.toNat e.2 s) s
    f.srbPdus.foldl (fun s e => fhSend (fld b 56 2) (srbItem (id % 0x10000) h x e.1 e.2) s) s

/-! ### Forecasts (R154) -/

/-- A forecast record (R154). -/
def forecastRecord (s : State) (id : Nat) (b : Bytes) (n h flags : Nat) (x : Handset) (exp flo bler : Nat) : Bytes :=
  leBytes 8 (ofS 64 (slotStart id b n)) ++ leBytes 2 h ++ [BitVec.ofNat 8 (id % 0x10000), BitVec.ofNat 8 flags] ++
    leBytes 4 exp ++ leBytes 4 flo ++ leBytes 4 (backlog x) ++ leBytes 2 16 ++ [BitVec.ofNat 8 bler, 0] ++
    leBytes 2 (deviceId s % 0x1000) ++ [0, 0]

/-- The rule of R154 for publishing: the rate differs by more than FC_DELTA percent, the gap has passed, or a flag
changed. -/
def mustPublish (b : Bytes) (n exp flags : Nat) (last : Option (Nat × Nat × Nat)) : Bool :=
  match last with
  | none => true
  | some (r, f, m) =>
    (if r = 0 then exp != 0 else fld b 48 1 * r < 100 * (if r < exp then exp - r else r - exp)) || f != flags ||
      m + fld b 49 1 ≤ n

/-- RATE_EXPECTED, at the handset's current CQI, and RATE_FLOOR, at the lowest it has reported in the last 16 slots. -/
def rateExpected (b : Bytes) (x : Handset) : Nat :=
  Config.linkRate b ((x.cqis.getLast?.map (·.2)).getD 0) x.link.rank.toNat x.share x.bler
def rateFloor (b : Bytes) (n : Nat) (x : Handset) : Nat :=
  let now := (x.cqis.getLast?.map (·.2)).getD 0
  let low := ((x.cqis.filter fun e => n < e.1 + 16).map (·.2)).foldl min now
  Config.linkRate b low x.link.rank.toNat x.share x.bler

/-- The flags of a forecast record but REMOVED: LINK_SUSPECT after DTX on 8 consecutive expected transmissions, DRX. -/
def forecastFlags (x : Handset) : Nat := 2 * b2n (8 ≤ x.dtx) + 4 * b2n x.drx

/-- A handset's forecast in the scheduling task of slot `n`. -/
def publish (id : Nat) (b : Bytes) (n h : Nat) (s : State) : State :=
  match spFind s.handsets h with
  | none => s
  | some x =>
    let e := rateExpected b x % 2 ^ 32
    if carFlag b 1 && bit (fld x.ctx 9 1) 0 && mustPublish b n e (forecastFlags x) x.published then
      fhSend (fld b 54 2) (forecastRecord s id b n h (forecastFlags x) x e (rateFloor b n x % 2 ^ 32) x.bler)
        (handsetPut h { x with published := some (e, forecastFlags x, n) } s)
    else s

/-! ### MAC scheduling (R141, R142, R147, R148, R151 to R154) -/

/-- What a slot's figures change in a handset: reports, the packets and transport blocks it carries, the errors of detected
symbols, those with MISSING left out (R156). -/
def handsetFigure (s : State) (c n : Nat) (f : SlotFigure) (x : Handset) : Handset :=
  let sent := x.queue.take f.carried
  let good := f.errors.filter fun e => !(carrierRun s c).missing.contains (14 * e.1.toNat + e.2.1.val)
  let put := fun (up : Bool) (t : Option TransportBlock) (x : Handset) => match t with
    | some t => harqPut { up := up, proc := t.proc, slot := n + t.k.val, bits := t.bits.toNat } x
    | none => x
  put true f.up (put false f.down { x with
    queue := x.queue.drop f.carried
    bearers := x.bearers.map fun r =>
      let k := (sent.filter fun e => e.1 == r.drb).length
      { r with dlCount := r.dlCount + k, rlcTx := r.rlcTx + k }
    cqis := ((x.cqis ++ (match f.cqi with | some v => [(n, v.val)] | none => [])).drop
      ((x.cqis.length + b2n f.cqi.isSome) - 17))
    share := f.share.toNat, bler := f.bler, drx := f.drxAsleep
    dtx := match f.dtx with | some true => x.dtx + 1 | some false => 0 | none => x.dtx
    air := { x.air with evmSum := x.air.evmSum + sumL (good.map fun e => e.2.2.1.toNat)
                        evmCount := x.air.evmCount + sumL (good.map fun e => e.2.2.2.toNat) }
    link := f.link.getD x.link })

/-- One handset's figures in a scheduling task: decode results, uplink packets, the slot's own transport blocks and packets,
which go to encoding. -/
def scheduleHandset (id : Nat) (b : Bytes) (n : Nat) (f : SlotFigure) (s : State) : State :=
  let h := f.handset.toNat
  let c := id % 0x10000
  match spFind s.handsets h with
  | none => s
  | some x =>
    if handsetCarrier x ≠ c ∨ n < x.first ∨ x.removed.isSome then s
    else
      let s := f.feedback.foldl (fun s e => harqResult c h false e.2 e.1 s) s
      let s := f.decoded.foldl (fun s e => harqResult c h true e.2 e.1 s) s
      let s := sendUp id b f s
      match spFind s.handsets h with
      | none => s
      | some x =>
        let y := handsetFigure s c n f x
        let r := carrierRun s c
        let s := carrierPut c { r with air := { r.air with evmSum := r.air.evmSum + (y.air.evmSum - x.air.evmSum)
                                                           evmCount := r.air.evmCount + (y.air.evmCount - x.air.evmCount) } } s
        (x.queue.take f.carried).foldl (fun s e => emit (.mac c n (leBytes 2 h ++ leBytes 2 e.1 ++ e.2)) s) (handsetPut h y s)

/-- One item of HOST_DN_Q taken, for whichever running carrier it names (R147, R148). -/
def hostItem (bs : Bytes) (s : State) : State :=
  let kind := fld bs 0 1
  let c := fld bs 4 1
  let data := bs.drop 16
  if bs.length < 16 ∨ c ≥ 64 then s
  else if kind = 1 then
    match handsetFind s (fld bs 2 2 % 0x4000) with
    | some x =>
      if handsetCarrier x = c then
        handsetPut (fld bs 2 2 % 0x4000) { x with queue := x.queue ++ [(256 + fld bs 1 1, data)] } s else s
    | none => s
  else if 2 ≤ kind ∧ kind ≤ 5 ∧ (carrierFind s c).any fun e => isActive s e.1 then
    let x := carrierRun s c
    carrierPut c { x with items := x.items ++
      [{ kind := kind, num := fld bs 1 1, cell := fld bs 5 1, apply := fld bs 8 8, data := data }] } s
  else s

/-- The waiting items of HOST_DN_Q taken. -/
def takeHostItems (q : Nat) : Nat → State → State
  | 0, s => s
  | f + 1, s =>
    match takePacket (unitInit uFRONTHAUL 0) q s with
    | (none, s) => s
    | (some d, s) => takeHostItems q f (hostItem d s)

/-- Broadcast items whose time has come replace those of the same kind, number and cell (R148). -/
def applyItems (t : Nat) (l : List Broadcast) : List Broadcast :=
  l.foldl (fun acc i =>
    if i.inForce ∨ i.apply ≤ t then
      acc.filter (fun j => !(j.inForce && j.kind == i.kind && j.num == i.num && j.cell == i.cell)) ++ [{ i with inForce := true }]
    else acc ++ [i]) []

/-- The broadcast items in force that a slot sends, with the SFN of its frame (R127, R147). -/
def airItems (c id : Nat) (b : Bytes) (n : Nat) (aired : List (Fin 6 × BitVec 8)) (s : State) : State :=
  ((carrierRun s c).items.filter fun i => i.inForce && aired.any fun a => a.1.val == i.kind && a.2.toNat == i.num).foldl
    (fun s i => emit (.mac c n (leBytes 2 (sfn id b n) ++ leBytes 1 i.kind ++ leBytes 1 i.num ++ leBytes 1 i.cell ++ i.data)) s) s

/-- A removal takes effect: the context goes, and with FORECAST set one final record with REMOVED goes out, its figures those
last known (R153). -/
def handsetGone (id : Nat) (b : Bytes) (n h : Nat) (s : State) : State :=
  match spFind s.handsets h with
  | none => s
  | some x =>
    let s' := keysClear h { s with handsets := spDel s.handsets h }
    if bit (fld x.ctx 9 1) 0 then
      fhSend (fld b 54 2) (forecastRecord s id b n h (1 + forecastFlags x) { x with queue := [] } (rateExpected b x % 2 ^ 32)
        (rateFloor b n x % 2 ^ 32) x.bler) s'
    else s'

/-- The carrier whose stages run: RUNNING, or STARTING with its first frame ahead (R129). -/
def carrierServing (s : State) (c : Nat) : Option (Nat × Bytes) :=
  match carrierIn s c .running with
  | some e => some e
  | none => carrierIn s c .starting

/-- The stages of slot `n` that its scheduling releases, those past their deadline gone (R142). -/
def slotStages (id : Nat) (b : Bytes) (n t : Nat) (l : List StageRun) : List StageRun :=
  (l.filter fun r => (t : Int) ≤ r.deadline) ++
    ([Stage.encoding, .cplane] ++ ((List.range 14).filter fun k => fld b 1 1 == 1 || !isUplink id b n k).map Stage.modulation).map
      (stageRun id b n 0)

/-- The MAC scheduling stage of the slot now due (R141, R142, R147, R148, R151 to R154). -/
def macScheduling (c : Nat) (figs : List SlotFigure) (air : CarrierFigure) (s : State) : State :=
  match carrierServing s c with
  | none => s
  | some (id, b) =>
    match dueSlot id b (shortNow s) with
    | none => s
    | some n =>
      if n < (carrierRun s c).first ∨ (carrierRun s c).released.any fun m => n ≤ m then s
      else
        let s := takeHostItems (fld b 58 2) ((queue s (fld b 58 2)).items.length) s
        let x := carrierRun s c
        let release := (slotStart id b (n - lead (carMu id b))).toNat
        let s := carrierPut c { x with
          released := some n, items := applyItems release x.items
          dlPrb := x.dlPrb + air.dlPrb.toNat, ulPrb := x.ulPrb + air.ulPrb.toNat
          sinr := air.sinr.getD x.sinr, ni := air.ni.getD x.ni
          stages := slotStages id b n (shortNow s) x.stages } s
        let gone := (handsetsOf s c).filter fun e => e.2.removed.any fun m => m ≤ n
        let s := gone.foldl (fun s e => handsetGone id b n e.1 s) s
        let due := (handsetsOf s c).filterMap fun e => match e.2.next with
          | some (p, t) => if ((slotAt id b t).getD 0) ≤ n then some (e.1, e.2, p) else none
          | none => none
        let s := due.foldl (fun s e => adoptContext e.1 e.2.1 e.2.2 s) s
        let s := figs.foldl (fun s f => scheduleHandset id b n f s) s
        let served := (handsetsOf s c).filter fun e => e.2.first ≤ n && e.2.removed.isNone
        airItems c id b n air.aired (served.foldl (fun s e => publish id b n e.1 s) s)

/-! ### Statistics (R155, R156) -/

/-- EVM in units of 0.01 %: the root of the mean squared error (R156). -/
def evmOf (a : AirStats) : Nat := Nat.sqrt (a.evmSum / max a.evmCount 1)

/-- A share of a total in parts of `unit`. -/
def shareOf (unit part whole : Nat) : Nat := unit * part / max whole 1

/-- A link-quality record (R155). -/
def linkRecord (t h c : Nat) (x : Handset) : Bytes :=
  let y := x.link
  let a := x.air
  leBytes 8 t ++ leBytes 2 h ++ [BitVec.ofNat 8 c, y.rank] ++ leBytes 2 y.sinr.toNat ++ leBytes 2 (evmOf a) ++
    [BitVec.ofNat 8 ((x.cqis.getLast?.map (·.2)).getD 0), y.dlMcs, y.ulMcs, BitVec.ofNat 8 (shareOf 100 a.dlErr a.dlTb),
     BitVec.ofNat 8 (shareOf 100 a.ulErr a.ulTb), y.phr] ++ leBytes 2 y.ta.toNat ++ leBytes 4 (a.dlBits / 8) ++
    leBytes 4 (a.ulBits / 8)

/-- A carrier record (R155). -/
def carrierRecord (s : State) (id : Nat) (b : Bytes) (t slots : Nat) : Bytes :=
  let c := id % 0x10000
  let x := carrierRun s c
  let a := x.air
  leBytes 8 t ++ [BitVec.ofNat 8 c, 1] ++ leBytes 2 slots ++ leBytes 2 (evmOf a) ++ leBytes 2 x.sinr.toNat ++
    leBytes 2 x.ni.toNat ++ leBytes 2 (shareOf 1000 x.dlPrb (slots * carRb id b 2)) ++
    leBytes 2 (shareOf 1000 x.ulPrb (slots * carRb id b 4)) ++ leBytes 2 (shareOf 10000 a.dlErr a.dlTb) ++
    leBytes 2 (shareOf 10000 a.ulErr a.ulTb) ++ leBytes 2 (handsetsOf s c).length ++
    leBytes 4 x.dlLate ++ leBytes 4 x.ulLost ++ leBytes 4 x.harqMiss ++ leBytes 8 a.dlBits ++ leBytes 8 a.ulBits ++ zeros 8

/-- Every 1,000 slots a carrier's period ends, and each handset's, staggered by identifier; the records go out where STATS_EN
and STATS ask for them (R155, R156). -/
def statsPeriod (c : Nat) (s : State) : State :=
  match carrierIn s c .running with
  | none => s
  | some (id, b) =>
    match slotAt id b (shortNow s) with
    | none => s
    | some n =>
      let x := carrierRun s c
      if n ≤ x.statsSlot then s
      else
        let due := (handsetsOf s c).filter fun e =>
          (List.range (min 1000 (n - x.statsSlot))).any fun k => (n - k) % 1000 == e.1 % 1000
        let s := due.foldl (fun s e =>
          let s := if carFlag b 2 && bit (fld e.2.ctx 9 1) 1 then
            fhSend (fld b 52 2) (linkRecord (slotStart id b n).toNat e.1 c e.2) s else s
          handsetPut e.1 { e.2 with air := {} } s) s
        let s := carrierPut c { carrierRun s c with statsSlot := n } s
        if x.period + 1000 ≤ n then
          let s := if carFlag b 2 then
            fhSend (fld b 52 2) (carrierRecord s id b (slotStart id b n).toNat (n - x.period)) s else s
          carrierPut c { carrierRun s c with
            period := n, dlLate := 0, ulLost := 0, harqMiss := 0, air := {}, dlPrb := 0, ulPrb := 0 } s
        else s

/-- The LCID range of a carrier (R149). -/
def lcidOk (s : State) (c v : Nat) : Bool :=
  match carrierFind s c with
  | some (id, _) => if isLte id then 3 ≤ v && v ≤ 10 else 4 ≤ v && v ≤ 32
  | none => 3 ≤ v && v ≤ 32

/-- One bearer entry's ranges. -/
def bearerOk (s : State) (c : Nat) (e : Bytes) : Bool :=
  let f := fun o => fld e o 1
  1 ≤ f 0 && f 0 ≤ 32 && lcidOk s c (f 1) && f 2 ≤ 1 && (f 3 == 12 || f 3 == 18) && f 4 ≤ 3 && f 5 ≤ 3 && f 7 < 64 &&
    (f 5 != 0 || rsv e 48 16)

/-- The checks of a handset context (R149 to R152). -/
def contextCheck (s : State) (r : Request) (modify : Bool) : Nat :=
  let p := r.params
  let c := fld p 2 1
  let n := fld p 10 2
  let cellOk := fld p 3 1 == 0 || (fld p 3 1 == 1 && (carrierFind s c).any fun e => isLte e.1 && carFlag e.2.body 4)
  firstFail [need (r.transport == .pcie) stNOT_AUTHORISED, targetCheck s r uSYS 0,
    need (24 ≤ p.length && 1 ≤ n && n ≤ 8 && p.length == 24 + 64 * n) (if 24 ≤ p.length && !(1 ≤ n && n ≤ 8) then stBAD_PARAM else stBAD_LENGTH),
    need (fld p 0 2 < 0x4000 && c < 64 && cellOk && 1 ≤ fld p 4 2 && fld p 4 2 ≤ 0xFFEF && 1 ≤ fld p 6 1 &&
      fld p 6 1 ≤ 8 && 1 ≤ fld p 7 1 && fld p 7 1 ≤ 4 && [2, 4, 6, 8].contains (fld p 8 1) &&
      fld p 9 1 < (if modify then 8 else 4) && rsv p 12 4 && (modify || rsv p 16 8) &&
      ((List.range n).all fun k => bearerOk s c (p.drop (24 + 64 * k)))) stBAD_PARAM,
    need (carrierIn s c .running).isSome stFUNCTION_STOPPED]

/-- The first slot whose scheduling is released after now. -/
def nextSlot (s : State) (c id : Nat) (b : Bytes) : Nat :=
  max (((dueSlot id b (shortNow s)).map (· + 1)).getD 0) (((carrierRun s c).released.map (· + 1)).getD 0)

/-- HANDSET_ADD (R150, R151): the context serves from the first slot whose scheduling is released after the command. -/
def handsetAddOp (r : Request) (s : State) : State :=
  let p := r.params
  let h := fld p 0 2
  let c := fld p 2 1
  runCmd 0x0240 r (firstFail [contextCheck s r false, need (spFind s.handsets h).isNone 0x0204,
      need (s.handsets.length < 16384 && (handsetsOf s c).length < 4096) stNO_RESOURCE])
    (fun s => match carrierIn s c .running with
      | some (id, b) =>
        (stDONE, leBytes 8 (slotStart id b (nextSlot s c id b)).toNat,
         adoptContext h { ctx := zeros 24, first := nextSlot s c id b } p s)
      | none => (stFUNCTION_STOPPED, [], s)) s

/-- HANDSET_MODIFY (R150, R152): the new context applies from the slot at APPLY. -/
def handsetModifyOp (r : Request) (s : State) : State :=
  let p := r.params
  let h := fld p 0 2
  let c := fld p 2 1
  let apply := fld p 16 8
  let late := match carrierIn s c .running with
    | some (id, b) => apply != 0 && (slotAt id b apply).all fun n => n < nextSlot s c id b
    | none => false
  runCmd 0x0241 r (firstFail [contextCheck s r true,
      need ((handsetFind s h).any fun x => handsetCarrier x == c) 0x0205, need (!late) 0x0201])
    (fun s => match carrierIn s c .running, spFind s.handsets h with
      | some (id, b), some x =>
        let n := if apply = 0 then nextSlot s c id b else (slotAt id b apply).getD 0
        let t := (slotStart id b n).toNat
        (stDONE, leBytes 8 t, handsetPut h { x with next := some (p, if apply = 0 then t else apply) } s)
      | _, _ => (stFUNCTION_STOPPED, [], s)) s

/-- The checks of a command that names a handset. -/
def handsetCheck (s : State) (r : Request) : Nat :=
  let p := r.params
  firstFail [targetCheck s r uSYS 0, need (p.length == 8) stBAD_LENGTH, need (fld p 0 2 < 0x4000 && rsv p 2 6) stBAD_PARAM,
    match handsetFind s (fld p 0 2) with
    | some x => need (carrierIn s (handsetCarrier x) .running).isSome stFUNCTION_STOPPED
    | none => 0x0205]

/-- HANDSET_REMOVE (R153): queued packets and HARQ processes go at once; the context takes part in no scheduling released from
now on, and the next one takes it out. -/
def handsetRemoveOp (r : Request) (s : State) : State :=
  let h := fld r.params 0 2
  runCmd 0x0242 r (handsetCheck s r) (fun s =>
    match spFind s.handsets h with
    | none => (0x0205, [], s)
    | some x =>
      let n := match carrierIn s (handsetCarrier x) .running with
        | some (id, b) => nextSlot s (handsetCarrier x) id b
        | none => 0
      (stDONE, leBytes 4 x.queue.length, handsetPut h { x with removed := some n, queue := [], harq := [], next := none } s)) s

/-- HANDSET_STATS (R155). -/
def handsetStatsOp (r : Request) (s : State) : State :=
  let h := fld r.params 0 2
  runCmd 0x0243 r (handsetCheck s r) (fun s => match spFind s.handsets h with
    | some x => (stDONE, linkRecord (shortNow s) h (handsetCarrier x) x, s)
    | none => (0x0205, [], s)) s

/-- CARRIER_STATS (R155). -/
def carrierStatsOp (r : Request) (s : State) : State :=
  let p := r.params
  let c := fld p 0 1
  runCmd 0x0244 r (firstFail [targetCheck s r uSYS 0, need (p.length == 8) stBAD_LENGTH, need (c < 64 && rsv p 1 7) stBAD_PARAM,
      need (carrierIn s c .running).isSome stFUNCTION_STOPPED])
    (fun s => match carrierIn s c .running with
      | some (id, b) =>
        let n := (slotAt id b (shortNow s)).getD 0
        (stDONE, carrierRecord s id b (shortNow s) (n - (carrierRun s c).period), s)
      | none => (stFUNCTION_STOPPED, [], s)) s

/-- A GTP-U packet of the core network for a bearer (R146): its TEID unknown, an error indication is sent. -/
def gtpuPacket (port teid : Nat) (data : Bytes) (s : State) : State :=
  let hit := s.handsets.findSome? fun e =>
    if e.2.removed.isSome then none
    else ((List.range (fld e.2.ctx 10 2)).find? fun k => fld e.2.ctx (24 + 64 * k + 8) 4 == teid).map fun k =>
      (e.1, e.2, fld e.2.ctx (24 + 64 * k) 1)
  match hit with
  | some (h, x, drb) => handsetPut h { x with queue := x.queue ++ [(drb, data)] } s
  | none => emit (.eth port "gtpu-error-indication" (leBytes 4 teid)) s

/-- An eCPRI message lies in the subset of the fronthaul engine (R132): EtherType 0xAEFE with at most one tag, or UDP on
IPv4; types 0, 2 and 5; section types 1 and 3; extensions 6 and 12; no udCompHdr. -/
def ecpriInside (h : EcpriHead) : Bool :=
  (match h.udpOver with
   | some v => v.val == 4
   | none => h.etherType == 0xAEFE && h.tags ≤ 1) &&
    [0, 2, 5].contains h.message.toNat && !(h.message == 0 && h.compHdr) &&
    (h.message != 2 || (h.sections.all (fun t => t == 1 || t == 3) && h.extensions.all fun e => e == 6 || e == 12))

/-- FH_PORT_DOWN of every running carrier that a port serves (R157). -/
def carriersPortDown (p : Nat) (s : State) : State :=
  (objsOf s 2 1 ++ objsOf s 2 2).foldl (fun s e =>
    if e.2.st == some .running && (antMap e.2.body).any fun a => a.port == p then
      raiseLim second (e.1 % 0x10000) 0x2205 uFRONTHAUL (e.1 % 0x10000) 2 [BitVec.ofNat 8 p] s
    else s) s

end Sys2Proof.Machine
end

