-- ==== Sys2Proof/Machine/CoxRows.lean ====
section
/-!
DEFINITION. Cox's strobes and PPS outputs (R444, R445, R450), and the commands of Cox (12_cox_time.md).
-/
namespace Sys2Proof.Machine
open Sys2Proof

/-- The smallest boundary count at or below `t` of a period `p` ns written as `num / den`, rounded down to a nanosecond:
the boundary is at `⌊k × num / den⌋`. -/
def onBoundary (t num den : Nat) : Bool :=
  let k := (t * den + num - 1) / num
  num != 0 && den != 0 && k * num / den == t

/-- The time state in which PPS outputs are quiet whatever their configuration. -/
def ppsGated (s : State) (n : Nat) : Bool :=
  let e := (timeBody s).drop (64 + 16 * n)
  s.cox.st == .unset || outputsOff s || (bit (fld e 1 1) 1 && (s.cox.st == .freerun || s.cox.st == .locking))

/-- A carrier's boundary of the frame, a slot or symbol `k` at a time. -/
def carrierBoundary (s : State) (c : Nat) (t : Int) (p : Nat → Bytes → Nat → Bool) : Bool :=
  match carrierFind s c with
  | some (id, o) => t ≥ frame0 o.body && p id o.body (t - frame0 o.body).toNat
  | none => false

/-- Whether a strobe's boundary is now (R444, R445). Time-of-day strobes wait for the epoch change. -/
def strobeDue (st : Strobe) (s : State) : Bool :=
  let t := shortNow s
  let tod := s.cox.st != .unset
  match st with
  | .second => tod && t % second == 0
  | .sample => onBoundary t 62500 3
  | .frame c => tod && carrierBoundary s c t (fun _ _ d => d % 10000000 == 0)
  | .slot c => tod && carrierBoundary s c t (fun id b d => d % slotNs (carMu id b) == 0)
  | .symbol c k => tod && carrierBoundary s c t (fun id b d =>
      d % slotNs (carMu id b) == symbolOffset (carMu id b) (d / slotNs (carMu id b)) k)
  | .video n d => tod && onBoundary t (second * d) n
  | .ppsOut n =>
    let e := (timeBody s).drop (64 + 16 * n.val)
    let period := if fld e 0 1 = 2 then fld e 4 4 else second
    fld e 0 1 != 0 && !ppsGated s n && ((t : Int) - toS 32 (fld e 12 4)) % (period : Int) == 0

/-- A strobe asserted at its boundary. -/
def strobeOp (st : Strobe) (s : State) : State :=
  let go := fun (name : String) (i : Nat) => if strobeDue st s then emit (.edge name i (shortNow s : Int)) s else s
  match st with
  | .second => go "second" 0
  | .sample => go "sample" 0
  | .frame c =>
    match strobeDue st s, carrierFind s c with
    | true, some (id, o) =>
      let n := ((shortNow s : Int) - frame0 o.body).toNat / slotNs (carMu id o.body)
      emit (.sfn c (sfn id o.body n)) (go "frame" c)
    | _, _ => go "frame" c
  | .slot c => go "slot" c
  | .symbol c k => go "symbol" (14 * c.val + k.val)
  | .video n d => go "video" (n * 65536 + d)
  | .ppsOut n => go (if bit (fld ((timeBody s).drop (64 + 16 * n.val)) 1 1) 0 then "pps-falling" else "pps-rising") n

/-- PTP_SYNC: a Sync with its Follow_Up arrives: origin timestamp and correction in units of 2^-16 ns (R423, R436). -/
def execPtpSync (p : Fin 16) (msg : PtpTimed) (corr : Int) (s : State) : Res :=
  done (ptpSync p msg.domain.toNat msg.sender msg.time corr s)

/-- DELAY_RESP: a Delay_Resp completes an exchange: receive timestamp and correction in units of 2^-16 ns (R430, R438). -/
def execDelayResp (p : Fin 16) (msg : PtpTimed) (corr : Int) (s : State) : Res :=
  done (delayResp p msg.domain.toNat msg.sender msg.time corr s)

/-- ANNOUNCE: an Announce message arrives (R435). -/
def execAnnounce (p : Fin 16) (a : Announce) (s : State) : Res :=
  done (announceOp p a s)

/-- PTP_MESSAGE_SEND: a port sends a message (R434 to R436, R439). -/
def execPtpMessageSend (p : Fin 16) (m : PtpMessage) (s : State) : Res :=
  done (ptpSend p m s)

/-- PTP_TIMEOUT: messages of a kind have been missing beyond their timeout (R430, R434). -/
def execPtpTimeout (p : Fin 16) (m : PtpMessage) (s : State) : Res :=
  done (ptpTimeout p m s)

/-- PPS_EDGE: the selected edge of a PPS input (R430, R441 to R443). -/
def execPpsEdge (n : Fin 4) (s : State) : Res :=
  done (ppsEdge n s)

/-- PPS_INPUT_INVALID: a PPS input has had no edge for 1.5 s (R430, R432). -/
def execPpsInputInvalid (n : Fin 4) (s : State) : Res :=
  done (ppsMissing n s)

/-- REFERENCE_PROMOTION: a better reference has been valid for 10 s (R433). -/
def execReferencePromotion (ref : Fin 20) (s : State) : Res :=
  done (promoteRef ref s)

/-- HOLDOVER_EXPIRY: HOLDOVER_S seconds have passed (R423). -/
def execHoldoverExpiry (s : State) : Res :=
  done (holdoverExpiry s)

/-- STROBE: a strobe or PPS output edge at its boundary (R444, R445). -/
def execStrobe (strobe : Strobe) (s : State) : Res :=
  done (strobeOp strobe s)

/-- TIME_SET: sets the counter (R428, R429, R443, R449). -/
def execTimeSet (r : Request) (s : State) : Res :=
  done (timeSetOp r s)

/-- PPS_NO_EDGE: 2 s without an edge for a NEXT_PPS TIME_SET (R443). -/
def execPpsNoEdge (s : State) : Res :=
  done (ppsNoEdge s)

/-- TIME_ADJUST: steps or slews the counter (R428, R429, R449). -/
def execTimeAdjust (r : Request) (s : State) : Res :=
  done (timeAdjustOp r s)

/-- TIME_GET: the time and its state (R449). -/
def execTimeGet (r : Request) (s : State) : Res :=
  done (timeGetOp r s)

/-- PTP_PORT_STATS: a port's state and counters (R449). -/
def execPtpPortStats (r : Request) (s : State) : Res :=
  done (ptpStatsOp r s)

/-- COX_LATCH_SHORT_LO: a read of COX_LATCH_SHORT_LO_k (R421). -/
def execCoxLatchShortLo (k : Fin 4) (s : State) : Res :=
  done (coxLatch k s)

/-- COX_PPS_IN_TS_LO: a read of COX_PPS_IN_TS_LO_n. -/
def execCoxPpsInTsLo (n : Fin 4) (s : State) : Res :=
  done (ppsTsRead n s)

end Sys2Proof.Machine
end

