-- ==== Sys2Proof/Machine/Cpu.lean ====
section
/-!
DEFINITION. A crew core: registers, exceptions and interrupts, the data cache, and core reset (06_crew_cores.md, R212 to
R264).
-/
namespace Sys2Proof.Machine
open Sys2Proof

/-- The exception codes (06, Exceptions and interrupts; 07, 08). -/
abbrev exILLEGAL : Nat := 0x01
abbrev exFETCH : Nat := 0x02
abbrev exMISALIGNED : Nat := 0x03
abbrev exLOAD : Nat := 0x04
abbrev exNARROW : Nat := 0x05
abbrev exSTORE_ADDR : Nat := 0x06
abbrev exECALL : Nat := 0x07
abbrev exEBREAK : Nat := 0x08
abbrev exTASK_STATE : Nat := 0x09

/-- A core by its number, 8 × crew + core. -/
def core (s : State) (c : Nat) : Core := spGet {} s.cores c

/-- A core put in place. -/
def corePut (c : Nat) (x : Core) (s : State) : State := { s with cores := spSet {} s.cores c x }

/-- Scalar register `r`; s0 reads as zero (R212). -/
def getS (x : Core) (r : Fin 32) : Word := if r = 0 then 0 else x.s[r]

/-- Scalar register `r` written; a write to s0 is discarded (R212). -/
def setS (x : Core) (r : Fin 32) (v : Word) : Core := if r = 0 then x else { x with s := x.s.set r v }

/-- A core executes instructions: its crew is present and not failed, and it is in RUN, in its handler or not. -/
def runs (s : State) (c : Nat) : Bool :=
  crewUsable s (c / 8) && (core s c).run == .run && (dom s (c / 8)).st == .run

/-- The core past its instruction: the program counter at the next word (R213). -/
def retire (x : Core) : Core := { x with lastPc := x.pc, pc := x.pc + 4 }

/-- The core past a taken transfer to `t`. -/
def jumpTo (x : Core) (t : BitVec 48) : Core := { x with lastPc := x.pc, pc := t }

/-- CREW_BOOT_VEC of a crew. -/
def bootVec (s : State) (crew : Nat) : BitVec 48 :=
  BitVec.ofNat 48 (regF s (uCREW + crew) crewCtl 0x010 15 0 * 2 ^ 32 + regF s (uCREW + crew) crewCtl 0x00C 31 2 * 4)

/-- The pending interrupts of a core (CORE_IRQ_PEND). -/
def irqPend (s : State) (x : Core) : Nat :=
  b2n x.dataLost * 16 + b2n x.doorbell * 8 + b2n (x.timerCmp.toNat ≤ shortNow s) * 4 + b2n x.storeError * 2 +
    b2n (x.cpLate != 0)

/-- Pending and enabled interrupts. -/
def irqReady (s : State) (x : Core) : Nat := Nat.land (irqPend s x) (x.irqEn.toNat % 32)

/-- The core takes an interrupt at its next instruction boundary (R230). -/
def irqTakes (s : State) (x : Core) : Bool := x.ie && !x.exc && irqReady s x != 0

/-- The lowest set bit of the five interrupt bits. -/
def lowestBit (v : Nat) : Nat := ((List.range 5).find? fun k => bit v k).getD 0

/-- A pending and enabled interrupt of a core requests a wake of its crew's domain (R613), and a WFI of a core that works
ends (WFI waits whatever IE holds). -/
def wakeWfi (c : Nat) (s : State) : State :=
  if irqReady s (core s c) = 0 then s
  else
    let s := wakeRequestBase (c / 8) (uCREW + c / 8) (c % 8) s
    let x := core s c
    if x.run = .wfi ∧ awake s (some (c / 8)) then corePut c (retire { x with run := .run }) s else s

/-- A store's or write-back's bus error recorded (R232). -/
def storeErrorOp (c a : Nat) (s : State) : State :=
  let x := core s c
  let x := if x.storeError then { x with irqAddr := x.irqAddr ||| (1 <<< 63) }
           else { x with storeError := true, irqAddr := BitVec.ofNat 64 (a % 2 ^ 48) }
  wakeWfi c (corePut c x s)

/-- A line's dirty data lost (R241). -/
def cacheLost (c a : Nat) (s : State) : State :=
  let s := raise 0x1002 (uCREW + c / 8) (c % 8) 2 ([BitVec.ofNat 8 (c % 8)] ++ zeros 7 ++ leBytes 8 a) s
  wakeWfi c (corePut c { core s c with dataLost := true } s)

/-- A line written as two code words (R233): false when the write has to wait for a bank's new owner or a memory asleep
(R246, R537). Each word answered with a bus error sets STORE_ERROR (R232). -/
def writeLine (c a : Nat) (bs : Bytes) (s : State) : Bool × State :=
  match writeBytes (coreInit c) a bs s with
  | (.ok, _, s) => (true, s)
  | (.wait, _, s1) => (false, waitAt s s1)
  | (_, e, s) =>
    let s := storeErrorOp c e s
    if e ≠ a then (true, s)
    else match writeBytes (coreInit c) (a + 32) (bs.drop 32) s with
    | (.ok, _, s) => (true, s)
    | (_, e, s) => (true, storeErrorOp c e s)

/-- Write-backs begun: each is performed, or joins those that wait. -/
def startWrites (c : Nat) : List (Nat × Bytes) → State → State
  | [], s => s
  | w :: ws, s =>
    match writeLine c w.1 w.2 s with
    | (true, s) => startWrites c ws s
    | (false, s) => startWrites c ws (corePut c { core s c with writes := (core s c).writes ++ [w] } s)

/-- The write-backs of a core that wait tried again, in order. -/
def drainWrites (c : Nat) (s : State) : State :=
  if (core s c).writes = [] then s
  else startWrites c (core s c).writes (corePut c { core s c with writes := [] } s)

/-- A write-back of the line at `a` waits. -/
def lineWaits (s : State) (c a : Nat) : Bool := (core s c).writes.any (·.1 == a / 64 * 64)

/-- Every earlier write of a core, write-backs and ownership writes included, has returned its response (R237, R245). -/
def drained (s : State) (c : Nat) : Bool := (core s c).writes.isEmpty && (core s c).regWait.isNone

/-- A correctable error of a line corrected and counted when the line is used (R240, R458). -/
def lineCorrect (c : Nat) (l : Line) (s : State) : State :=
  if l.ce then sramCe (uCREW + c / 8) (c % 8) l.addr s else s

/-- A dirty line's write-back begun, without waiting for it (R233, R239, R241). -/
def writeBack (c : Nat) (l : Line) (s : State) : State :=
  if !l.dirty then s
  else if l.bad then cacheLost c l.addr s
  else if lineWaits s c l.addr then corePut c { core s c with writes := (core s c).writes ++ [(l.addr, l.data)] } s
  else startWrites c [(l.addr, l.data)] (lineCorrect c l s)

/-- The lines of a core's data cache put in place. -/
def setLines (c : Nat) (ls : List Line) (s : State) : State := corePut c { core s c with dcache := ls } s

/-- A line cleaned: written back and no longer dirty (R239); one under R241 is invalidated. -/
def cleanLine (c a : Nat) (s : State) : State :=
  match (core s c).dcache.find? (·.addr == a) with
  | none => s
  | some l =>
    let s := writeBack c l s
    if l.bad ∧ l.dirty then setLines c ((core s c).dcache.filter (·.addr != a)) s
    else setLines c ((core s c).dcache.map fun k => if k.addr == a then { k with dirty := false } else k) s

/-- A line invalidated, its dirty data discarded. -/
def invalLine (c a : Nat) (s : State) : State := setLines c ((core s c).dcache.filter (·.addr != a)) s

/-- A line cleaned, then invalidated. -/
def flushLine (c a : Nat) (s : State) : State := invalLine c a (cleanLine c a s)

/-- The lines of the cache that overlap `n` bytes from `a`, lowest first. -/
def linesIn (s : State) (c a n : Nat) : List Nat :=
  (sortBy id ((core s c).dcache.map (·.addr))).filter fun l => a < l + 64 && l < a + n

/-- Every line cleaned. -/
def cleanAll (c : Nat) (s : State) : State :=
  (sortBy id ((core s c).dcache.map (·.addr))).foldl (fun s a => cleanLine c a s) s

/-- Every line cleaned and invalidated. -/
def flushAll (c : Nat) (s : State) : State :=
  (sortBy id ((core s c).dcache.map (·.addr))).foldl (fun s a => flushLine c a s) s

/-- The held task of a core completed with FAIL, counted under WATCHDOG when asked (R190, R231, R261). -/
def failHeld (c : Nat) (watchdog : Bool) (s : State) : State :=
  match spFind s.shuttle.running c with
  | none => s
  | some r =>
    let s := { s with shuttle := { s.shuttle with running := spDel s.shuttle.running c } }
    completeWork r.work false (c / 8) (if watchdog then shCountCrew (c / 8) 4 1 s else s)

/-- A staged task of a core returned to READY (R193, R261). -/
def unstage (c : Nat) (s : State) : State :=
  match spFind s.shuttle.staged c with
  | none => s
  | some w =>
    let x := slot s w.task
    let s := if x.desc.template then s else slotPut w.task { x with st := .ready } s
    { s with shuttle := { s.shuttle with staged := spDel s.shuttle.staged c, ready := s.shuttle.ready ++ [w] } }

/-- The write-backs that wait, of every core, tried again as time passes. -/
def writesTick (s : State) : State := s.cores.foldl (fun s e => drainWrites e.1 s) s

/-- The write-backs that wait, of every core of a crew, tried again. -/
def drainCrew (n : Nat) (s : State) : State := (List.range 8).foldl (fun s k => drainWrites (8 * n + k) s) s

/-- A core released at CREW_BOOT_VEC with reset values in all its registers (R260, R261). -/
def startCore (c : Nat) (s : State) : State :=
  corePut c { run := .run, pc := bootVec s (c / 8), since := s.now } s

/-- Commands of a core removed from the coprocessor queues of its crew (R302). -/
def dropCommands (c : Nat) (s : State) : State :=
  (List.range 5).foldl (fun s e =>
    let k := 8 * (c / 8) + e
    { s with cops := spSet [] s.cops k ((spGet [] s.cops k).filter (·.core != c)) }) s

/-- Step 1 of a core reset: every dirty line is written back and the lines are invalidated; some write may have to wait. -/
def resetFlush (c : Nat) (s : State) : State := flushAll c (drainWrites c s)

/-- A core reset has to wait for the responses of its write-backs (R261). -/
def resetWaits (c : Nat) (s : State) : Bool := crewUsable s (c / 8) && !(core (resetFlush c s) c).writes.isEmpty

/-- Core reset (R261): write-backs and invalidation; when the write-backs have returned their responses, the staged task
back to READY, the held task failed, `ev` raised, and the restart. -/
def coreResetOp (c : Nat) (watchdog : Bool) (ev : State → State) (s : State) : State :=
  if !crewUsable s (c / 8) then ev s
  else if resetWaits c s then resetFlush c s
  else startCore c (dropCommands c (failHeld c watchdog (unstage c (resetFlush c (ev s)))))

/-- Entry to the handler (R229). -/
def enterHandler (x : Core) (epc : BitVec 48) (cause eaddr : Word) : Core :=
  { x with epc := epc.setWidth 64, ecause := cause, eaddr := eaddr, pie := x.ie, ie := false, exc := true, run := .run
           pc := BitVec.ofNat 48 x.evec.toNat }

/-- An exception at the current instruction (R228, R229); one raised while EXC_ACTIVE is 1 is a double fault, which
resets the core (R231). -/
def exception (c code : Nat) (eaddr : Nat) (s : State) : State :=
  let x := core s c
  if x.exc then
    coreResetOp c true (raise 0x1001 (uCREW + c / 8) (c % 8) 2
      ([BitVec.ofNat 8 code] ++ zeros 7 ++ leBytes 8 x.epc.toNat)) s
  else corePut c (enterHandler x x.pc (BitVec.ofNat 64 code) (BitVec.ofNat 64 eaddr)) s

/-- ERI.PENDING of a core (07, Vector CSRs). -/
def eriPending (x : Core) : Bool := bit x.eri.toNat 63

/-- ERI with PENDING cleared. -/
def eriClear (e : Word) : Word := BitVec.ofNat 64 (e.toNat % 2 ^ 63)

/-- The core as an instruction begins with EXC_ACTIVE at 0: a pending resume is consumed (R282). -/
def beginInstr (c : Nat) (s : State) : State :=
  let x := core s c
  if !x.exc && eriPending x then corePut c { x with eri := eriClear x.eri } s else s

/-- ERI as the instruction leaves it, `before` being the core before it began: an exception other than an element fault
leaves ERI as it was (R282). -/
def endInstr (c : Nat) (before : Core) (s : State) : State :=
  let x := core s c
  if !before.exc && x.exc && !eriPending x then corePut c { x with eri := before.eri } s else s

/-- Instructions are fetched from SDRAM and scratchpad; a fetch from any other region raises FETCH_ERROR (Caches and
ordering). -/
def fetchable (x : Core) : Bool :=
  match regionOf x.pc.toNat with
  | .sdram => true
  | .spm _ _ => true
  | _ => false

/-- An instruction of a core that may find its access waiting. `f` gets whether a resume was consumed, the core and the
state, and answers whether the instruction went through; one whose access waits has not begun. A core that does not run
executes nothing. -/
def onCoreR (c : Fin 96) (f : Bool → Core → State → Bool × State) (s : State) : Res :=
  done (
    if runs s c then
      let x := core s c
      if !fetchable x then exception c exFETCH x.pc.toNat s
      else
      let s0 := beginInstr c s
      match f (!x.exc && eriPending x) (core s0 c) s0 with
      | (true, s1) => endInstr c x s1
      | (false, s1) => corePut c { core s1 c with eri := x.eri } s1
    else s)

/-- A core running an instruction of its own that accesses no memory. -/
def onCore (c : Fin 96) (f : Core → State → State) (s : State) : Res :=
  onCoreR c (fun _ x s => (true, f x s)) s

/-- A result written to a scalar register and the instruction retired. -/
def writeS (c : Nat) (rd : Fin 32) (v : Word) (s : State) : State := corePut c (retire (setS (core s c) rd v)) s

/-- The bank of a core's own crew an address lies in. -/
def ownBank (c a : Nat) : Option Nat :=
  match regionOf a with
  | .spm crew off => if crew = c / 8 then some (off / 0x40000) else none
  | _ => none

/-- An address is cacheable for a core (Caches and ordering). -/
def cacheable (x : Core) (c a : Nat) : Bool :=
  match regionOf a with
  | .sdram => !(x.ucBase.toNat ≤ a && a < x.ucLimit.toNat)
  | .spm _ _ => match ownBank c a with
    | some b => bit x.spmCached.toNat b
    | none => false
  | _ => false

/-- One way of a full set evicted, the spec leaving open which; its dirty data is written back. -/
def evict (c a : Nat) (s : State) : State :=
  let set := (core s c).dcache.filter fun l => l.addr / 64 % 256 == a / 64 % 256
  if set.length < 4 then s
  else
    let (v, s) := draw s
    match set[v % 4]? with
    | some l => flushLine c l.addr s
    | none => s

/-- The line at `a` present in the cache, filled from memory on a miss (R233, R240, R241); the flag of the result tells
how the access ended. A miss waits for a write-back of the same line (R236). -/
def fillLine (c a : Nat) (s : State) : Bus × State :=
  let hit := (core s c).dcache.find? (·.addr == a)
  match hit with
  | some l =>
    if l.bad ∧ l.dirty then (.uncorrectable, s)
    else if l.bad then
      if lineWaits s c a then (.wait, s)
      else match readBytes (coreInit c) a 64 (invalLine c a s) with
      | (.ok, b, _, s) => (.ok, setLines c ((core s c).dcache ++ [{ addr := a, data := b }]) s)
      | (r, _, _, s) => (r, s)
    else (.ok, lineCorrect c l s)
  | none =>
    if lineWaits s c a then (.wait, s)
    else match readBytes (coreInit c) a 64 s with
    | (.ok, b, _, s) =>
      let s := evict c a s
      (.ok, setLines c ((core s c).dcache ++ [{ addr := a, data := b }]) s)
    | (r, _, _, s) => (r, s)

/-- Bytes of a present line. -/
def lineBytes (s : State) (c a n : Nat) : Bytes :=
  match (core s c).dcache.find? (·.addr == a / 64 * 64) with
  | some l => sub l.data (a % 64) n
  | none => zeros n

/-- Bytes stored in a present line, which becomes dirty. -/
def lineStore (c a : Nat) (bs : Bytes) (s : State) : State :=
  setLines c ((core s c).dcache.map fun (l : Line) =>
    if l.addr == a / 64 * 64 then
      { l with data := sub l.data 0 (a % 64) ++ bs ++ l.data.drop (a % 64 + bs.length), dirty := true }
    else l) s

end Sys2Proof.Machine
end

