-- ==== Sys2Proof/Machine/Operands.lean ====
section
/-!
DEFINITION. The operand forms of a core's instructions (06_crew_cores.md, Instruction formats and Scalar
instructions).
-/
namespace Sys2Proof.Machine
open Sys2Proof

/-- A 16-bit immediate sign-extended. -/
def sext16 (i : BitVec 16) : Word := i.signExtend 64

/-- A 16-bit immediate zero-extended. -/
def zext16 (i : BitVec 16) : Word := i.setWidth 64

/-- The address of a load or store: rs1 + sext(imm16). -/
def effAddr (x : Core) (rs1 : Fin 32) (i : BitVec 16) : Word := getS x rs1 + sext16 i

/-- The target of a branch: pc + 4 × sext(imm16). -/
def branchTarget (x : Core) (i : BitVec 16) : BitVec 48 := x.pc + (i.signExtend 48) * 4

/-- The target of J and JAL: pc + 4 × sext(imm26). -/
def jumpTarget (x : Core) (i : BitVec 26) : BitVec 48 := x.pc + (i.signExtend 48) * 4

/-- The return address pc + 4. -/
def link (x : Core) : Word := (x.pc + 4).setWidth 64

/-- The 24-bit product of the multiply-accumulate instructions, in 56 bits. -/
def product24 (a b : Word) : Int := (a.setWidth 24).toInt * (b.setWidth 24).toInt

/-- The search pair's index register rd + 1. -/
def pairOf (rd : Fin 32) : Fin 32 := rd + 1

/-- rd of a search instruction is even and from 2 to 30 (R223). -/
def pairOk (rd : Fin 32) : Bool := rd.val % 2 == 0 && rd.val != 0

/-- The value of a loaded byte string, sign- or zero-extended to 64 bits. -/
def loadValue (signed : Bool) (bs : Bytes) : Word :=
  if signed then BitVec.ofInt 64 (toS (8 * bs.length) (leNat bs)) else BitVec.ofNat 64 (leNat bs)

end Sys2Proof.Machine
end

