-- ==== Sys2Proof/Machine/Flags.lean ====
section
/-!
DEFINITION. The flag computations of the scalar unit: the sticky bits AOV and SAT of CORE_STATUS (R220, R222). Those of
the vector unit (VSTAT) stand beside its arithmetic.
-/
namespace Sys2Proof.Machine
open Sys2Proof

/-- An exact integer lies outside the 56-bit signed range (R220). -/
def out56 (v : Int) : Bool := v < -(2 ^ 55) || 2 ^ 55 - 1 < v

/-- An accumulator set to the wrapped exact result, with AOV set when it wrapped (R220). -/
def accWrap (x : Core) (acc : Fin 4) (v : Int) : Core :=
  { x with a := x.a.set acc (BitVec.ofInt 56 v), aov := x.aov || out56 v }

/-- A value limited to 24 signed bits, and whether it clipped (R222). -/
def clip24 (v : Int) : Int × Bool := (satS 24 v, satS 24 v != v)

end Sys2Proof.Machine
end

