-- ==== Sys2Proof/Machine/Cop.lean ====
section
/-!
DEFINITION. The coprocessors of a crew: tags, command checks, queues, execution and hand-over (08_coprocessors.md,
R287 to R305).
-/
namespace Sys2Proof.Machine
open Sys2Proof

abbrev exTAG_BUSY : Nat := 0x20
abbrev exPARAM : Nat := 0x21
abbrev exCOPADDR : Nat := 0x22
abbrev exTAG_STATE : Nat := 0x23

/-- Tag status codes. -/
abbrev cpOK : Nat := 0
abbrev cpDENIED : Nat := 1
abbrev cpWCOLL : Nat := 2
abbrev cpUNCORR : Nat := 3
abbrev cpDEP : Nat := 4
abbrev cpORPHAN : Nat := 5

/-- A tag of a core. -/
def tagOf (x : Core) (t : Nat) : Tag := spGet {} x.tags t

/-- The key of a coprocessor's queue. -/
def copKey (crew engine : Nat) : Nat := 8 * crew + engine

/-- A coprocessor's queue, oldest first. -/
def copQueue (s : State) (crew engine : Nat) : List CopCmd := spGet [] s.cops (copKey crew engine)

/-- A coprocessor's queue put in place. -/
def copPut (crew engine : Nat) (q : List CopCmd) (s : State) : State :=
  { s with cops := spSet [] s.cops (copKey crew engine) q }

/-- A DFT length: 12 × 2^a × 3^b × 5^c up to 3,240, or one of four primes. -/
def dftLength (n : Nat) : Bool :=
  [139, 571, 839, 1151].contains n ||
    (n ≤ 3240 && (List.range 9).any fun a => (List.range 6).any fun b => (List.range 4).any fun c =>
      n == 12 * 2 ^ a * 3 ^ b * 5 ^ c)

/-- The field checks of a command for unit code `unit` (R291, COP_PARAM). -/
def copParamOk (unit : Nat) (b : Bytes) : Bool :=
  let cmd := fld b 0 1
  let after := bits (fld b 1 1) 6 5 == 0
  let one := fun o => fld b o 1
  let two := fun o => fld b o 2
  if unit = 0 ∨ unit = 1 ∨ unit = 5 then
    let peak := cmd == 3
    let n := two 4
    after && 1 ≤ cmd && cmd ≤ 5 && bits (one 2) 6 4 == 0 && bits (one 2) 3 0 ≤ 12 && rsv b 3 1 &&
      (if cmd ≤ 3 then 64 ≤ n && n ≤ 4096 && n == 2 ^ Nat.log2 n else dftLength n) &&
      (if peak then two 6 == 0 && fld b 16 6 == 0 else 1 ≤ two 6 && two 6 ≤ n) &&
      two 14 < n && rsv b 22 2 && rsv b 28 4
  else if unit = 2 ∨ unit = 3 ∨ unit = 6 then
    let det := cmd == 0x11
    let pow := cmd == 0x12
    let flags := one 7
    after && 0x10 ≤ cmd && cmd ≤ 0x12 && 1 ≤ one 2 && one 2 ≤ 16 &&
      (if pow then one 3 == 0 else 1 ≤ one 3 && one 3 ≤ 8) && 1 ≤ two 4 && two 4 ≤ 273 &&
      (if det then [0, 2, 4, 6, 8].contains (one 6) else one 6 == 0) && flags < 16 &&
      (!bit flags 3 || one 6 == 0) && (!pow || fld b 16 6 == 0) &&
      ((det && !bit flags 1) || two 22 == 0) && (det || one 30 == 0) && rsv b 31 1
  else if unit = 4 then
    let w := cmd == 0x20
    after && 0x20 ≤ cmd && cmd ≤ 0x21 && 1 ≤ one 2 && one 2 ≤ 64 && 1 ≤ one 3 && one 3 ≤ 64 &&
      (!w || (one 3 ≤ 16 && one 3 ≤ one 2)) && 1 ≤ two 4 && two 4 ≤ 273 && [1, 2, 4, 8, 16].contains (one 6) &&
      one 7 < 8 && bits (one 7) 1 0 < 3 && ((w && bits (one 7) 1 0 == 2) || two 22 == 0)
  else
    after && cmd == 0x30 && rsv b 4 4 && rsv b 14 2 && rsv b 30 2

/-- The input buffers of an in-crew command, as base and length in bytes. -/
def copInputs (b : Bytes) : List (Nat × Nat) :=
  let cmd := fld b 0 1
  let src := fld b 8 6
  let stride := fld b 14 2 * 32
  let nrb := fld b 4 2
  let per := fun n len => (List.range n).map fun a => (src + a * stride, len)
  if cmd = 2 ∨ cmd = 5 then [(src, fld b 6 2 * 4)]
  else if cmd < 6 then [(src, fld b 4 2 * 4)]
  else if cmd = 0x10 then
    let re := nrb * (if bit (fld b 7 1) 0 then 4 else 6)
    per (fld b 2 1) (re * 4) ++ [(fld b 16 6, re * 4)]
  else if cmd = 0x11 then per (fld b 2 1) (nrb * 48) ++ [(fld b 16 6, nrb * fld b 2 1 * fld b 3 1 * 4)]
  else if cmd = 0x12 then per (fld b 2 1) (nrb * 48)
  else
    let groups := ceilDiv nrb (fld b 6 1)
    let mat := fld b 2 1 * fld b 3 1 * 4 * groups
    if cmd = 0x20 then [(src, mat)] else per (fld b 2 1) (nrb * 48) ++ [(fld b 16 6, mat)]

/-- The output buffers of an in-crew command. -/
def copOutputs (b : Bytes) : List (Nat × Nat) :=
  let cmd := fld b 0 1
  let dst := fld b 24 6
  let nrb := fld b 4 2
  if cmd = 2 ∨ cmd = 5 then [(fld b 16 6, fld b 4 2 * 4)]
  else if cmd = 1 ∨ cmd = 4 then [(fld b 16 6, fld b 6 2 * 4)]
  else if cmd = 0x10 then [(dst, nrb * fld b 2 1 * fld b 3 1 * 4)]
  else if cmd = 0x11 then
    [(dst, nrb * 12 * fld b 3 1 * (if fld b 6 1 = 0 then 4 else fld b 6 1))]
  else if cmd = 0x20 then [(fld b 16 6, fld b 2 1 * fld b 3 1 * 4 * ceilDiv nrb (fld b 6 1))]
  else if cmd = 0x21 then (List.range (fld b 3 1)).map fun k => (dst + k * (fld b 30 2 * 32), nrb * 48)
  else []

/-- A buffer is 32-byte aligned and lies wholly in a crew's scratchpad; an output takes whole code words (R291,
R296). -/
def inSpm (crew : Nat) (r : Nat × Nat) : Bool :=
  r.1 % 32 == 0 && spmBase + crew * 0x1000000 ≤ r.1 && r.1 + roundUp r.2 32 ≤ spmBase + crew * 0x1000000 + 0x800000

/-- A hand-over range is empty, or aligned and within one region of the address map. -/
def handRangeOk (base len : Nat) : Bool :=
  len == 0 || (base % 32 == 0 &&
    match regionOf base, regionOf (base + len - 1) with
    | .sdram, .sdram => true
    | .spm a _, .spm b _ => a == b
    | .aliasW p a _, .aliasW q b _ => p == q && a == b
    | .cell, .cell => true
    | .reg _ _ _, .reg _ _ _ => true
    | .outbound _, .outbound _ => true
    | _, _ => false)

/-- The address checks of a command (R291, COP_ADDR). -/
def copAddrOk (crew unit : Nat) (b : Bytes) : Bool :=
  if unit = 7 then handRangeOk (fld b 8 6) (fld b 16 4) && handRangeOk (fld b 24 6) (fld b 20 4)
  else (copInputs b ++ copOutputs b).all (inSpm crew)

/-- The engine a unit code names: FFT_ANY and CEMD_ANY choose the shorter queue, on a tie the lower (R293). -/
def copEngine (s : State) (crew unit : Nat) : Nat :=
  let pick := fun a => if (copQueue s crew (a + 1)).length < (copQueue s crew a).length then a + 1 else a
  if unit = 5 then pick 0 else if unit = 6 then pick 2 else unit

/-- The 32 bytes of the command in s(4q) to s(4q + 3). -/
def copBytes (x : Core) (q : Nat) : Bytes :=
  (List.range 4).flatMap fun k => leBytes 8 (getS x (Fin.ofNat 32 (4 * q + k))).toNat

/-- CPISS (R288, R291 to R294); it stalls while its queue is full. -/
def cpissOp (c tag unit q : Nat) (x : Core) (s : State) : Bool × State :=
  let b := copBytes x q
  if q = 0 then (true, exception c exILLEGAL 0 s)
  else if (tagOf x tag).st ≠ .free then (true, exception c exTAG_BUSY 0 s)
  else if !copParamOk unit b then (true, exception c exPARAM 0 s)
  else if !copAddrOk (c / 8) unit b then (true, exception c exCOPADDR 0 s)
  else
    let a := bits (fld b 1 1) 4 0
    let after := if bit (fld b 1 1) 7 && (tagOf x a).st == .live then some (a, (tagOf x a).gen) else none
    let cmd : CopCmd := { core := c, tag := tag, gen := x.cpGen + 1, data := b, after := after }
    let x := { x with tags := spSet {} x.tags tag { st := .live, gen := x.cpGen + 1 }, cpGen := x.cpGen + 1 }
    if unit = 7 then (true, corePut c (retire { x with hand := x.hand ++ [cmd] }) s)
    else
      let e := copEngine s (c / 8) unit
      let qu := copQueue s (c / 8) e
      if 16 ≤ qu.length then (false, s)
      else (true, corePut c (retire x) (copPut (c / 8) e (qu ++ [cmd]) s))

/-- The REG-class command that the CPISS at address `a` would issue for a core, with its coprocessor (R288): none when the
word there is no CPISS, or the command is not REG class, fails a check or finds its queue full. -/
def specIssue (s : State) (c : Nat) (a : BitVec 48) : Option (Nat × CopCmd) :=
  let x := core s c
  let w := leNat (memBytes s.mem a.toNat 4)
  let tag := bits w 25 21
  let unit := bits w 20 18
  let q := bits w 17 15
  let b := copBytes x q
  let e := copEngine s (c / 8) unit
  if fetchable { x with pc := a } && bits w 31 26 == 0x3C && bits w 14 0 == 0 && q != 0 && unit != 7 &&
      (fld b 0 1 == 3 || fld b 0 1 == 0x12) && (tagOf x tag).st == .free && copParamOk unit b && copAddrOk (c / 8) unit b &&
      (copQueue s (c / 8) e).length < 16 then
    let t := bits (fld b 1 1) 4 0
    let after := if bit (fld b 1 1) 7 && (tagOf x t).st == .live then some (t, (tagOf x t).gen) else none
    some (e, { core := c, tag := tag, gen := x.cpGen + 1, data := b, after := after })
  else none

/-- A branch resolved against a CPISS at `a`, first on the path not taken: its REG command may have issued under
speculation, and is then squashed. Its tag is FREE in the same cycle, and the coprocessor still finishes the command,
whose result no tag takes (R288, R290). Whether it had issued is open. -/
def squash (c : Nat) (a : BitVec 48) (s : State) : State :=
  match specIssue s c a with
  | none => s
  | some (e, d) =>
    let (v, s) := draw s
    if v % 2 = 0 then s
    else corePut c { core s c with cpGen := d.gen } (copPut (c / 8) e (copQueue s (c / 8) e ++ [d]) s)

/-- A conditional branch resolved: on at the target when taken, else at the next word, with what the other path had
issued squashed (R290). -/
def branchTo (c : Nat) (taken : Bool) (target : BitVec 48) (s : State) : State :=
  let s := squash c (if taken then (core s c).pc + 4 else target) s
  corePut c (if taken then jumpTo (core s c) target else retire (core s c)) s

/-- A tag freed, its CP_LATE bit with it (R300). -/
def freeTag (t : Nat) (x : Core) : Core :=
  { x with tags := spDel x.tags t, cpLate := BitVec.ofNat 32 (setBits x.cpLate.toNat t t 0) }

/-- The commands that wait for a tag, at the head of their queues or hand-overs, when its command ends with an error
(R294, R305). -/
def markWaiters (d : CopCmd) (s : State) : State :=
  let mark := fun (e : CopCmd) =>
    if e.core = d.core ∧ e.after = some (d.tag, d.gen) then { e with depFailed := true } else e
  let x := core s d.core
  { corePut d.core { x with hand := x.hand.map mark } s with
    cops := s.cops.map fun e => (e.1, match e.2 with
      | [] => []
      | h :: r => mark h :: r) }

/-- A command's end: its result and status reach its tag, unless the tag has been freed since (R290, R300). -/
def endCommand (d : CopCmd) (result : Nat) (status : Nat) (s : State) : State :=
  let s := if status = cpOK ∨ (tagOf (core s d.core) d.tag).st ≠ .live ∨ (tagOf (core s d.core) d.tag).gen ≠ d.gen then s
    else markWaiters d s
  let x := core s d.core
  let t := tagOf x d.tag
  if t.st = .live ∧ t.gen = d.gen then
    let t' : Tag := { st := .done, result := BitVec.ofNat 64 result, status := status, gen := d.gen }
    let x := { x with tags := spSet {} x.tags d.tag t'
                      cpLate := if status = cpOK then x.cpLate
                                else BitVec.ofNat 32 (setBits x.cpLate.toNat d.tag d.tag 1) }
    wakeWfi d.core (corePut d.core x s)
  else s

/-- A command's AFTER wait: `none` while it waits, else whether the awaited tag held an error as it ended, or holds one
when the wait is first looked at (R294). -/
def afterState (s : State) (d : CopCmd) : Option Bool :=
  match d.after with
  | none => some false
  | some (t, g) =>
    let x := tagOf (core s d.core) t
    if x.gen ≠ g ∨ x.st = .free then some d.depFailed
    else if x.st = .live then none
    else some (d.depFailed || x.status != cpOK)

/-- The owner code a coprocessor access carries at a bank: the issuing core's, or the coprocessor group's (R295). -/
def copCode (s : State) (crew bank c : Nat) : Nat :=
  if bankOwner s crew bank = 8 ∨ spFind s.bankPend (crew * 32 + bank) = some 8 then 8 else c % 8

/-- The status of a coprocessor access, or a wait. -/
inductive CopAcc where
  | ok | fail (status : Nat) | wait
  deriving DecidableEq, Repr

/-- Code words read for a command, from `a` (R289, R295). -/
def copRead (c : Nat) (count : Bool) (a : Nat) : Nat → State → CopAcc × Bytes × State
  | 0, s => (.ok, [], s)
  | n + 1, s =>
    let crew := c / 8
    let off := a - (spmBase + crew * 0x1000000)
    let code := copCode s crew (off / 0x40000) c
    let refused := bankCheck s crew (off / 0x40000) code == .busError
    match spmRead (coreInit c) code count a crew off s with
    | (.ok, b, s) =>
      match copRead c count (a + 32) n s with
      | (r, bs, s) => (r, b ++ bs, s)
    | (.wait, _, s) => (.wait, [], s)
    | (_, _, s) => (.fail (if refused then cpDENIED else cpUNCORR), [], s)

/-- All the inputs of a command, one after another. -/
def copReadAll (c : Nat) (count : Bool) : List (Nat × Nat) → State → CopAcc × Bytes × State
  | [], s => (.ok, [], s)
  | (a, n) :: r, s =>
    match copRead c count a (ceilDiv n 32) s with
    | (.ok, b, s) =>
      match copReadAll c count r s with
      | (e, bs, s) => (e, b.take n ++ bs, s)
    | (e, _, s) => (e, [], s)

/-- Code words written for a command; `coll` is a word whose write loses a collision (R250, R252). -/
def copWrite (c port : Nat) (coll : Option Nat) (a : Nat) (bs : Bytes) : Nat → State → CopAcc × State
  | 0, s => (.ok, s)
  | n + 1, s =>
    let crew := c / 8
    let off := a - (spmBase + crew * 0x1000000)
    if coll = some a then
      (.fail cpWCOLL,
       raiseLim second crew 0x1003 (uCREW + crew) 8 1
         ([BitVec.ofNat 8 (off / 0x40000), BitVec.ofNat 8 port] ++ zeros 6 ++ leBytes 8 a)
         (regBump (uCREW + crew) crewCtl 0x018 15 0 1 s))
    else
      let code := copCode s crew (off / 0x40000) c
      match spmWrite (coreInit c) code a crew off (fit 32 bs) s with
      | (.ok, s) => copWrite c port coll (a + 32) (bs.drop 32) n s
      | (.wait, s) => (.wait, s)
      | (_, s) => (.fail cpDENIED, s)

/-- All the outputs of a command, each padded with zeros to whole code words (R296). -/
def copWriteAll (c port : Nat) (coll : Option Nat) : List (Nat × Nat) → Bytes → State → CopAcc × State
  | [], _, s => (.ok, s)
  | (a, n) :: r, bs, s =>
    match copWrite c port coll a (fit (roundUp n 32) (bs.take n)) (ceilDiv n 32) s with
    | (.ok, s) => copWriteAll c port coll r (bs.drop n) s
    | (e, s) => (e, s)

/-- The code words of buffers. -/
def bufferWords (bufs : List (Nat × Nat)) : List Nat :=
  bufs.flatMap fun b => (List.range (ceilDiv b.2 32)).map fun k => b.1 + 32 * k

/-- A command that ended with an error: its outputs are undefined (R297), but for a word whose write lost a collision,
which keeps what the other port wrote (R250, R251). -/
def copFail (crew engine : Nat) (d : CopCmd) (q : List CopCmd) (lost : Option Nat) (st : Nat) (s : State) : State :=
  let ok := fun s w => let off := w - (spmBase + crew * 0x1000000)
    lost != some w && bankCheck s crew (off / 0x40000) (copCode s crew (off / 0x40000) d.core) == .ok
  endCommand d 0 st (copPut crew engine q (scramble ok (bufferWords (copOutputs d.data)) s))

/-- A byte that is an LLR: saturated at ±127. -/
def llrByte (v : Byte) : Byte := if v = 0x80 then 0x81 else v

/-- The open output bytes of a command; LLRs saturate at ±127 (R298). -/
def copOut (b input : Bytes) (n : Nat) : Bytes :=
  (List.range n).map fun k =>
    let v := Config.copByte b input k
    if fld b 0 1 = 0x11 ∧ fld b 6 1 ≠ 0 then llrByte v else v

/-- The 16-bit parts of an output that lie at a limit of their type, each of which a saturation may have put there. -/
def atLimit : Nat → Bytes → Nat
  | 0, _ => 0
  | n + 1, bs => b2n (fld bs 0 2 == 0x7FFF || fld bs 0 2 == 0x8000) + atLimit n (bs.drop 2)

/-- The count of saturated outputs, which the result word saturates at 0xFFFF (R298): which of the parts at a limit were
saturated is open. -/
def satCount (b input : Bytes) : Nat :=
  let n := sumL ((copOutputs b).map (·.2))
  min 0xFFFF ((Config.copResult b input).toNat % (atLimit (n / 2) (copOut b input n) + 1))

/-- The SHIFT a transform reports: the command's, or with AUTO the engine's choice. -/
def shiftField (b input : Bytes) : Nat :=
  if bit (fld b 2 1) 7 then bits (Config.copResult b input).toNat 19 16 else bits (fld b 2 1) 3 0

/-- The head command of a coprocessor run to its end, when it is one of `cmds`: its AFTER wait, its reads, its writes and
its tag's result. -/
def runCop (crew engine : Nat) (cmd : Nat) (coll : Option Nat) (mem : Bool) (result : Bytes → Bytes → Nat)
    (s : State) : State :=
  if !crewUsable s crew then s
  else match copQueue s crew engine with
  | [] => s
  | d :: q =>
    if fld d.data 0 1 ≠ cmd then s
    else match afterState s d with
    | none => s
    | some true => endCommand d 0 cpDEP (copPut crew engine q s)
    | some false =>
      match copReadAll d.core mem (copInputs d.data) s with
      | (.wait, _, s1) => waitAt s s1
      | (.fail st, _, s) => copFail crew engine d q none st s
      | (.ok, input, s1) =>
        let outs := copOutputs d.data
        match copWriteAll d.core (engine + 1) coll outs (copOut d.data input (sumL (outs.map (·.2)))) s1 with
        | (.wait, s1) => waitAt s s1
        | (.fail st, s) => copFail crew engine d q coll st s
        | (.ok, s) => endCommand d (result d.data input) cpOK (copPut crew engine q s)

/-- The result word of a transform: SHIFT applied and the count of saturated outputs. -/
def transformResult (b input : Bytes) : Nat := shiftField b input * 0x10000 + satCount b input

/-- The result word of FFT_PEAK: PEAK_POWER, SHIFT applied and PEAK_BIN, which is below N. -/
def peakResult (b input : Bytes) : Nat :=
  bits (Config.copResult b input).toNat 63 32 * 2 ^ 32 + shiftField b input * 0x10000 +
    (Config.copResult b input).toNat % fld b 4 2

/-- The result word of CHEST: NOISE_EST and SHIFT. -/
def chestResult (b input : Bytes) : Nat :=
  bits (Config.copResult b input).toNat 31 16 * 0x10000 + bits (Config.copResult b input).toNat 3 0

/-- The exact power sum of cint16 samples. -/
def powerSum : Nat → Bytes → Nat
  | 0, _ => 0
  | n + 1, bs =>
    let i := (toS 16 (fld bs 0 2)).natAbs
    let q := (toS 16 (fld bs 2 2)).natAbs
    i * i + q * q + powerSum n (bs.drop 4)

/-- The lines a hand-over cleans: those overlapping its ranges and the declared dirty range of the held task (R303). -/
def handLines (s : State) (d : CopCmd) : List Nat :=
  let b := d.data
  let rng := fun base len => if len = 0 then [] else linesIn s d.core base len
  rng (fld b 8 6) (fld b 16 4) ++ rng (fld b 24 6) (fld b 20 4) ++
    match spFind s.shuttle.running d.core with
    | some r => let k := (slot s r.work.task).desc
                if k.dirtyBase = 0 then [] else rng k.dirtyBase (k.dirtyLen * 32)
    | none => []

/-- A hand-over carried out (R303 to R305): its lines are cleaned, and its decrement is sent once every write of the core
has returned its response. -/
def handoverOp (c tag : Nat) (s : State) : State :=
  if !crewUsable s (c / 8) then s
  else match (core s c).hand.find? (·.tag == tag) with
  | none => s
  | some d =>
    match afterState s d with
    | none => s
    | some dep =>
      let sent := fun s => corePut c { core s c with hand := (core s c).hand.erase d } s
      if dep then endCommand d 0 cpDEP (sent s)
      else
        let s := drainWrites c ((handLines s d).foldl (fun s a => cleanLine c a s) s)
        if !drained s c then s
        else
          let t := fld d.data 2 2
          let orphan := (slot s t).st == .free
          endCommand d 0 (if orphan then cpORPHAN else cpOK) (notify t 1 (coreInit c) (sent s))

/-- The stores of a core are held back by a hand-over not yet sent (R304). -/
def storeHeld (x : Core) : Bool := !x.hand.isEmpty

end Sys2Proof.Machine
end

