-- ==== Sys2Proof/Machine/Sched.lean ====
section
/-!
DEFINITION. Dispatch, deadline rescue, the watchdog, cancellation, Beam timeout, crew failure and the stop of a task
range (05_shuttle.md, R172 to R209).
-/
namespace Sys2Proof.Machine
open Sys2Proof

/-- A CANCEL_LATE task whose deadline has come is not dispatched (R191). -/
def lateCancel (s : State) (w : Work) : Bool :=
  (descOf s w).cancelLate && w.deadline != noDeadline && w.deadline ≤ shortNow s

/-- The ready core task Shuttle chooses for core `c` (R181 to R183). -/
def chooseFor (s : State) (c : Nat) : Option Work :=
  let ok := (readyCore s).filter fun w => !lateCancel s w && bit (descOf s w).crewMask (c / 8)
  if edfDevice s then (if coreIdle s c then leastBy (edfKey s) ok else none)
  else
    let free := if coreIdle s c then leastBy (edfKey s) (ok.filter fun w => (boundCore s w).isNone) else none
    if s.shuttle.crewRescue.contains (c / 8) then
      if coreIdle s c then
        match leastBy (edfKey s) (ok.filter fun w => (boundCore s w).any fun b => b / 8 == c / 8) with
        | some w => some w
        | none => free
      else none
    else match leastBy (affKey s) (ok.filter fun w => boundCore s w == some c) with
    | some w => some w
    | none => free

/-- A work removed from the ready. -/
def unready (w : Work) (s : State) : State :=
  { s with shuttle := { s.shuttle with ready := s.shuttle.ready.erase w } }

/-- A non-template slot's state set. -/
def slotState (w : Work) (st : SlotState) (s : State) : State :=
  if (descOf s w).template then s else slotPut w.task { slot s w.task with st := st } s

/-- What TASK_WAIT returns in s1 to s6 (R172). -/
def taskRegs (s : State) (w : Work) (x : Core) : Core :=
  let d := descOf s w
  let v : List (Fin 32 × Nat) :=
    [(1, w.task + w.inst * 0x10000), (2, d.arg), (3, w.handle.getD noHandle), (4, d.entry), (5, w.deadline),
     (6, b2n w.inputFailed + 2 * b2n w.replayed + (if d.ordered then w.seq * 0x10000 else 0) + d.flow * 2 ^ 32 +
       b2n d.flowValid * 2 ^ 44)]
  v.foldl (fun x p => setS x p.1 (BitVec.ofNat 64 p.2)) x

/-- A blocked or arriving TASK_WAIT takes the staged task and retires (R172, R173). -/
def takeStaged (c : Nat) (s : State) : State :=
  match spFind s.shuttle.staged c with
  | none => s
  | some w =>
    let x := taskRegs s w (core s c)
    let s := corePut c (retire { x with run := .run, task := true }) s
    slotState w .running
      { s with shuttle := { s.shuttle with staged := spDel s.shuttle.staged c
                                           running := spPut s.shuttle.running c { work := w, start := s.now } } }

/-- A work staged on a core, the flow's last core recorded; a core blocked in TASK_WAIT takes it (R173, R181). Staging
requests a wake of the crew's domain, and the work waits staged until its core works (R613). An interrupt to take in the
same cycle wins, and leaves the task staged (R226). -/
def stageOn (c : Nat) (w : Work) (s : State) : State :=
  let d := descOf s w
  let s := slotState w .staged (unready w s)
  let s := if d.flowValid then flowPut d.flow { flow s d.flow with lastCore := some c } s else s
  let s := evalNext s
  let s := shCountCrew (c / 8) 0 1 { s with shuttle := { s.shuttle with staged := spPut s.shuttle.staged c w } }
  let s := wakeRequestBase (c / 8) uSHUTTLE 0 s
  if (core s c).run = .taskWait ∧ awake s (some (c / 8)) ∧ !irqTakes s (core s c) then takeStaged c s else s

/-- The engine instances of a pool, as the keys of `Shuttle.engines`. -/
def poolKeys (target : Nat) : List Nat :=
  if target = 1 then List.range 24
  else if target = 2 then (List.range 8).map (· + 24)
  else if target = 3 then (List.range 8).map (· + 32)
  else if target = 4 then (List.range 4).map (· + 40) else []

/-- The unit and instance of an engine key. -/
def engineUnit (k : Nat) : Nat × Nat := if k < 40 then (uFEC, k) else (uCIPHER, k - 40)

/-- An engine is free to take work: idle and not OFFLINE (R309, R315). -/
def engineFree (s : State) (k : Nat) : Bool :=
  let (u, i) := engineUnit k
  (spFind s.shuttle.engines k).isNone && (spFind s.shuttle.lent k).isNone && regF s u i 0x004 0 0 == 0 &&
    !((domainOf u i).any fun d => (dom s d).fault)

/-- A work begun on an engine, whose domain receives a wake request (R613). -/
def startEngine (k : Nat) (w : Work) (s : State) : State :=
  let (u, i) := engineUnit k
  let s := slotState w .running (unready w s)
  let legs := s.keys.filter fun e => 131072 ≤ e.1 && e.1 < 139264
  let r : Running := { work := w, start := s.now, keys := if 40 ≤ k then legs else [] }
  let s := regPutF u i 0x000 15 0 w.task (shCount 0 1
    { s with shuttle := { s.shuttle with engines := spPut s.shuttle.engines k r } })
  match domainOf u i with
  | some d => wakeRequestBase d uSHUTTLE 0 s
  | none => s

/-- A core task past start + WDOG × COST; a TASK_DONE whose drain has completed wins (R190). -/
def watchdogOp (c : Nat) (s : State) : State :=
  match spFind s.shuttle.running c with
  | none => s
  | some r =>
    let k := (descOf s r.work).cost
    if r.start + regF s uSHUTTLE 0 0x014 31 24 * k ≤ s.now ∧ !(r.done.isSome && drained s c) then
      rescueEval (coreResetOp c true (raise 0x0604 uSHUTTLE 0 2
        (leBytes 2 r.work.task ++ [BitVec.ofNat 8 (c / 8), BitVec.ofNat 8 (c % 8)] ++ leBytes 4 k)) s)
    else s

/-- A CANCEL_LATE task or instance not dispatched by its deadline (R191). -/
def cancelLateOp (t inst : Nat) (s : State) : State :=
  match s.shuttle.ready.find? fun w => w.task == t && w.inst == inst with
  | some w => if lateCancel s w then cancelWork w (unready w s) else s
  | none =>
    let x := slot s t
    let d := x.desc
    if x.st = .waiting ∧ d.cancelLate ∧ d.deadline ≠ noDeadline ∧ d.deadline ≤ shortNow s then
      cancelWork { task := t, deadline := d.deadline, inputFailed := x.inputFailed, seq := x.seq } s
    else s

/-- The task of a flow's sequence has ended by TASK_DONE and its drain has completed, so its TASK_DONE reaches the sequence
in this cycle (R202). -/
def beamEnding (s : State) (f num : Nat) : Bool :=
  s.shuttle.running.any fun e =>
    e.2.done.isSome && drained s e.1 && (descOf s e.2.work).ordered && (descOf s e.2.work).flow == f && e.2.work.seq == num

/-- HEAD of a flow waiting longer than its TIMEOUT is skipped; a TASK_DONE of the same cycle wins (R202). -/
def beamTimeoutOp (f : Nat) (s : State) : State :=
  let x := flow s f
  match x.seqs with
  | [] => s
  | q :: r =>
    if x.timeoutUs = 0 ∨ s.now ≤ q.taken + x.timeoutUs * 1000 ∨ q.closed.isSome ∨ beamEnding s f q.num then s
    else
      let s := flowPut f { x with seqs := r, head := (q.num + 1) % 65536, skipped := x.skipped ++ [q] } s
      beamRelease f (r.length + 1)
        (raise 0x060A uSHUTTLE 0 1 (leBytes 2 f ++ leBytes 2 q.num) (shCount 10 1 s))

/-- Outputs Beam holds. -/
def beamHeld (s : State) : Nat :=
  sumL (s.shuttle.flows.map fun e => sumL ((e.2.seqs ++ e.2.skipped).map fun q => q.outs.length))

/-- A put that is dropped (R199). -/
def beamDrop (i : Initiator) (h : Nat) (s : State) : State :=
  let s := shCount 11 1 s
  if holdable s h then pktFree h s else badHandle h 0 i s

/-- A write of SHUTTLE_BEAM_PUT (R198, R199); false when it stalls. -/
def beamPutOp (i : Initiator) (h : Nat) (s : State) : Bool × State :=
  match (coreOf i).bind fun c => spFind s.shuttle.running c with
  | none => (true, beamDrop i h s)
  | some r =>
    let d := descOf s r.work
    if !d.ordered then (true, beamDrop i h s)
    else
      let x := flow s d.flow
      let put := fun (q : BeamSeq) => if q.num == r.work.seq then { q with outs := q.outs ++ [h] } else q
      match (x.seqs ++ x.skipped).find? (·.num == r.work.seq) with
      | none => (true, beamDrop i h s)
      | some q =>
        if 64 ≤ q.outs.length then (true, beamDrop i h s)
        else if 131072 ≤ beamHeld s then (false, s)
        else (true, flowPut d.flow { x with seqs := x.seqs.map put, skipped := x.skipped.map put } s)

/-- A core task's completion once its drain and clean have ended (R175, R200). -/
def taskCompletionOp (c : Nat) (s : State) : State :=
  let s := drainWrites c s
  if !drained s c then s
  else match spFind s.shuttle.running c with
  | none => s
  | some r =>
    match r.done with
    | none => s
    | some st =>
      let x := core s c
      let s := corePut c (if x.run = .drain then retire { x with run := .run, task := false } else x) s
      rescueEval (completeWork r.work (st == 0) (c / 8)
        { s with shuttle := { s.shuttle with running := spDel s.shuttle.running c } })

/-- An engine's completion (R308, R316). -/
def engineCompletionOp (k : Nat) (s : State) : State :=
  match spFind s.shuttle.engines k, spFind s.shuttle.engineEnds k with
  | some r, some e =>
    let (u, i) := engineUnit k
    let ok := e.error = 0 ∧ e.recorded
    let s := { s with shuttle := { s.shuttle with engines := spDel s.shuttle.engines k
                                                  lent := s.shuttle.lent.filter fun e => e.2 != k
                                                  engineEnds := spDel s.shuttle.engineEnds k } }
    let s := regBump u i 0x008 31 0 1 s
    let s := if ok then s
      else raiseLim second (u * 256 + i) 0x2001 u i 2
        (leBytes 2 r.work.task ++ [BitVec.ofNat 8 e.error, 0, 0, 0, 0, 0] ++ leBytes 8 e.addr)
        (regBump u i 0x00C 31 0 1 s)
    rescueEval (completeWork r.work ok 15 s)
  | _, _ => s

/-- A work of a failed crew put back among the ready. -/
def requeue (w : Work) (s : State) : State :=
  slotState w .ready { s with shuttle := { s.shuttle with ready := s.shuttle.ready ++ [w] } }

/-- The held task of a core of a failed crew: replayed or failed (R193). -/
def failCoreWork (c : Nat) (acc : Nat × Nat × State) : Nat × Nat × State :=
  let (rep, fl, s) := acc
  match spFind s.shuttle.running c with
  | none => acc
  | some r =>
    let s := { s with shuttle := { s.shuttle with running := spDel s.shuttle.running c } }
    if (descOf s r.work).replay then
      (rep + 1, fl, shCountCrew (c / 8) 13 1 (requeue { r.work with replayed := true } s))
    else (rep, fl + 1, completeWork r.work false (c / 8) s)

/-- Ready core tasks no crew can run any more complete with FAIL (R195). -/
def failUnrunnable (s : State) : State :=
  ((readyCore s).filter fun w => noCrew s (descOf s w)).foldl (fun s w => failNoCrew w (unready w s)) s

/-- The steps of R193 for crew `n`: the failed bit and the ledger, the staged and running tasks, the flows, RECOVERY and
CREW_FAILED; with the numbers of tasks replayed and failed. -/
def crewFail (n : Nat) (s : State) : Nat × Nat × State :=
  let s := regPutF uSYS 0 0x00C 27 16 (Nat.lor (failedMask s) (2 ^ n)) s
  let s := if spare s = 64 then setSpare 0 s
    else if available s < committed s then
      raise 0x0101 uSYS 0 2 (leBytes 2 (committed s) ++ leBytes 2 (available s) ++ [BitVec.ofNat 8 n]) s
    else s
  let cs := (List.range 8).map fun k => 8 * n + k
  let s := cs.foldl (fun s c => unstage c s) s
  let (rep, fl, s) := cs.foldl (fun acc c => failCoreWork c acc) (0, 0, s)
  let s := { s with
    shuttle := { s.shuttle with
      flows := s.shuttle.flows.map fun e =>
        (e.1, { e.2 with lastCore := e.2.lastCore.filter fun c => c / 8 != n }) }
    cores := s.cores.filter fun e => e.1 / 8 != n
    cops := s.cops.filter fun e => e.1 / 8 != n }
  let s := setService .recovery s
  let s := raise 0x0608 uSHUTTLE 0 2
    ([BitVec.ofNat 8 n, BitVec.ofNat 8 (regF s (uCREW + n) crewCtl 0x008 3 0)] ++ leBytes 2 rep ++ leBytes 2 fl) s
  (rep, fl, rescueEval (failUnrunnable s))

/-- A crew whose fault bits are set fails; an outstanding CREW_RETIRE of it completes (R193, R210, R262). -/
def crewFailureOp (n : Nat) (s : State) : State :=
  if !crewUsable s n || regF s (uCREW + n) crewCtl 0x008 3 0 == 0 then s
  else
    let (rep, fl, s) := crewFail n s
    (s.cmd.longs.filter fun l => l.opcode == 0x0B41 && fld l.params 0 1 == n).foldl
      (fun s l => completeLong l stDONE (leBytes 4 rep ++ leBytes 4 fl) s) s

/-- A CREW_FAULT bit sets: CREW_FATAL is raised (R262). -/
def crewFatalOp (n b : Nat) (s : State) : State :=
  if !crewUsable s n || 3 ≤ b then s
  else
    let f := Nat.lor (regF s (uCREW + n) crewCtl 0x008 3 0) (2 ^ b)
    raise 0x1005 (uCREW + n) 8 2 [BitVec.ofNat 8 f] (regPutF (uCREW + n) crewCtl 0x008 3 0 f s)

/-- A write of SERVICE_REQ (R180). -/
def serviceReqOp (v : Nat) (s : State) : State :=
  if s.shuttle.service = .recovery then s
  else if v = 1 then setService .normal s
  else if v = 2 then setService .test s
  else s

/-- The code of a service mode. -/
def serviceCode : Service → Nat
  | .startup => 0 | .normal => 1 | .test => 2 | .recovery => 3

/-- SERVICE_SET (R180, R210). -/
def serviceSetOp (r : Request) (s : State) : State :=
  runCmd 0x0B40 r (firstFail [targetCheck s r uSHUTTLE 0, need (r.params.length == 4) stBAD_LENGTH,
      need ((fld r.params 0 1 == 1 || fld r.params 0 1 == 2) && rsv r.params 1 3) stBAD_PARAM,
      need (s.shuttle.service != .recovery) stBUSY])
    (fun s => (stDONE, leBytes 4 (serviceCode s.shuttle.service),
      setService (if fld r.params 0 1 = 1 then .normal else .test) s)) s

/-- A crew that is present and not FAILED, and whose failure is not under way (R193, R210). -/
def crewWhole (s : State) (n : Nat) : Bool := crewUsable s n && regF s (uCREW + n) crewCtl 0x008 3 0 == 0

/-- CREW_RETIRE (R210, R262): RETIRED sets; the crew then fails under R193, and the command completes with it. -/
def crewRetireOp (r : Request) (s : State) : State :=
  let n := fld r.params 0 1
  runLong 0x0B41 r (firstFail [targetCheck s r uSHUTTLE 0, need (r.params.length == 4) stBAD_LENGTH,
      need (crewWhole s n && rsv r.params 1 3) stBAD_PARAM])
    (need (((List.range 12).filter (crewWhole s)).length != 1) 0x0B02) none false
    (regPutF (uCREW + n) crewCtl 0x008 3 3 1) s

/-- SHUTTLE_STATS. -/
def shuttleStatsOp (r : Request) (s : State) : State :=
  let n := fld r.params 0 1
  runCmd 0x0B42 r (firstFail [targetCheck s r uSHUTTLE 0, need (r.params.length == 4) stBAD_LENGTH,
      need ((n < 12 || n == 15) && rsv r.params 1 3) stBAD_PARAM])
    (fun s => (stDONE, (List.range 16).flatMap fun k => leBytes 4 (cntGet s (cntKey uSHUTTLE n k)), s)) s

/-- A flow's held outputs freed. -/
def freeFlow (f : Nat) (s : State) : State :=
  let x := flow s f
  let s := (x.seqs ++ x.skipped).foldl (fun s q => q.outs.foldl (fun s h => beamFree h s) s) s
  flowPut f { x with seqs := x.seqs.map fun q => { q with outs := [] }
                     skipped := x.skipped.map fun q => { q with outs := [] } } s

/-- Tasks of a range that are running on cores, engines or DMA channels. -/
def rangeRunning (s : State) (first count : Nat) : Bool :=
  let inR := fun t => first ≤ t && t < first + count
  s.shuttle.running.any (fun e => inR e.2.work.task) || s.shuttle.engines.any (fun e => inR e.2.work.task) ||
    s.dma.any fun e => e.2.work.any fun w => inR w.task

/-- STOP of the owner of a task range (R209): slots that are not RUNNING are freed, held outputs freed, notices to its
templates discarded, and its later completions decrement nothing. A template freed while instances of it run keeps its
descriptor, which is theirs, until the owner is STOPPED. -/
def stopOwner (obj : Nat) (s : State) : State :=
  match s.shuttle.owned.find? (·.obj == obj) with
  | none => s
  | some o =>
    let inR := fun t => o.tFirst ≤ t && t < o.tFirst + o.tCount
    let sh := s.shuttle
    let shared := fun (e : Nat × Slot) => e.2.desc.template && rangeRunning s e.1 1
    let s := { s with
      notices := s.notices.filter fun n => !inR n.task
      dma := s.dma.map fun e => (e.1, { e.2 with staged := e.2.staged.filter fun w => !inR w.task })
      shuttle := { sh with
        slots := (sh.slots.filter fun e => !inR e.1 || e.2.st == .running || shared e).map fun e =>
          if inR e.1 && e.2.st != .running then (e.1, { desc := e.2.desc }) else e
        ready := sh.ready.filter fun w => !inR w.task
        staged := sh.staged.filter fun e => !inR e.2.task
        owned := sh.owned.map fun p => if p.obj = obj then { p with stopping := true } else p } }
    ((List.range o.fCount).map (· + o.fFirst)).foldl (fun s f => freeFlow f s) s

/-- The owner of a range gives its tasks and flows up, outputs still held in them freed. -/
def dropOwner (obj : Nat) (s : State) : State :=
  match s.shuttle.owned.find? (·.obj == obj) with
  | none => s
  | some o =>
    let s := ((List.range o.fCount).map (· + o.fFirst)).foldl (fun s f => freeFlow f s) s
    let sh := s.shuttle
    { s with shuttle := { sh with
        owned := sh.owned.filter fun p => p.obj != obj
        slots := sh.slots.filter fun e => !(o.tFirst ≤ e.1 && e.1 < o.tFirst + o.tCount)
        flows := sh.flows.filter fun e => !(o.fFirst ≤ e.1 && e.1 < o.fFirst + o.fCount) } }

/-- A stopping owner's last running task has ended, none of them back among the ready after a crew failure (R193, R209). -/
def ownerIdle (s : State) (obj : Nat) : Bool :=
  match s.shuttle.owned.find? (·.obj == obj) with
  | none => true
  | some o =>
    let inR := fun (w : Work) => o.tFirst ≤ w.task && w.task < o.tFirst + o.tCount
    !rangeRunning s o.tFirst o.tCount && !s.shuttle.ready.any inR && !s.shuttle.staged.any (inR ·.2) &&
      !(dmaWorks s).any inR

/-- A stopping task set reaches STOPPED (R209). -/
def taskSetStoppedOp (index : Nat) (s : State) : State :=
  let id := objId 0x0B 0x01 index
  if (objFind s id).any (fun o => o.st == some .stopping) && ownerIdle s id then
    reachStopped id (dropOwner id s)
  else s

end Sys2Proof.Machine
end

