-- ==== Sys2Proof/Machine/Dma.lean ====
section
/-!
DEFINITION. DMA programs, channels and the hand-over cycle (14_spool_dma.md, R495 to R512).
-/
namespace Sys2Proof.Machine
open Sys2Proof

/-- Program errors (R503). -/
abbrev dmaBAD_OPCODE : Nat := 1
abbrev dmaBAD_FIELD : Nat := 2
abbrev dmaLOOP_DEPTH : Nat := 3
abbrev dmaFETCH : Nat := 4
abbrev dmaTIMEOUT : Nat := 5
abbrev dmaABORTED : Nat := 6
abbrev dmaWAIT_BUS : Nat := 7

/-- A channel. -/
def dmaCh (s : State) (ch : Nat) : DmaCh := spGet {} s.dma ch

/-- A channel put in place. -/
def dmaPut (ch : Nat) (x : DmaCh) (s : State) : State := { s with dma := spSet {} s.dma ch x }

/-- A channel's identity on Weft. -/
def dmaInit (ch : Nat) : Initiator := unitInit uDMA ch

/-- A program's completion (R497, R507, R508): its packets freed where their handles still name held ones (R481), the shadow's decrement sent, its task completed. The
channel is then at a program boundary. -/
def dmaComplete (ch : Nat) (ok : Bool) (s : State) : State :=
  let x := dmaCh s ch
  let s := x.frees.foldl (fun s h => if holdable s h then pktFree h s else badHandle h 0 (dmaInit ch) s) s
  let s := match x.signal with
    | some t => notify t 1 (dmaInit ch) s
    | none => s
  let s := dmaPut ch { x with run := .idle, source := 0, work := none, signal := none, loops := [], bad := false
                              frees := [], wait := none, deadline := none, ending := none } s
  match x.work with
  | some w => rescueEval (completeWork w ok 15 s)
  | none => s

/-- A program has ended; it completes once its writes have returned their responses (R501, R507). -/
def dmaFinish (ch : Nat) (ok : Bool) (s : State) : State :=
  if (dmaCh s ch).moves = [] then dmaComplete ch ok s
  else dmaPut ch { dmaCh s ch with run := .drain, ending := some ok } s

/-- A program ended by an error (R503). -/
def dmaError (ch err : Nat) (s : State) : State :=
  let x := dmaCh s ch
  let s := dmaPut ch { x with programError := true, error := err } s
  let s := raise 0x0702 uDMA (ch / 16) 2 ([BitVec.ofNat 8 ch, BitVec.ofNat 8 err] ++ zeros 6 ++ leBytes 8 x.pc)
    (regBump uDMA (ch / 16) 0x008 31 0 1 s)
  dmaFinish ch false s

/-- The instruction at a running channel's program counter, when it is of kind `op`, handed to `act`; a fetch error or
an unassigned opcode ends the program whichever instruction was expected (R503). -/
def dmaInstr (ch op : Nat) (act : Bytes → State → State) (s : State) : State :=
  let x := dmaCh s ch
  if x.run ≠ .run then s
  else match readWord (dmaInit ch) x.pc s with
  | (.wait, _, s) => s
  | (.ok, b, s) =>
    let k := fld b 0 1
    if k = 0 ∨ 7 < k then dmaError ch dmaBAD_OPCODE s
    else if k = op then act b s else s
  | (_, _, s) => dmaError ch dmaFETCH s

/-- The channel past its instruction. -/
def dmaNext (ch : Nat) (s : State) : State :=
  let x := dmaCh s ch
  dmaPut ch { x with pc := x.pc + 32 } s

/-- The iteration count a level names (R495). -/
def dmaIter (x : DmaCh) (lvl : Nat) : Option Nat :=
  match x.loops[lvl]? with
  | some l => some l.i
  | none => if x.loops = [] ∧ lvl = 0 then some 0 else none

/-- The code word addresses of `n` words of a packet's cells in chain order. -/
def cellWords (s : State) (cells : List Nat) : List Nat :=
  cells.flatMap fun c => (List.range 8).map fun k => cellAddr s c + 32 * k

/-- The code words of a MOVE's source or destination. -/
def moveWords (s : State) (pktFlag : Bool) (handle addr n : Nat) : List Nat :=
  if pktFlag then (cellWords s (((pkt s handle).map (·.cells)).getD [])).take n
  else (List.range n).map fun k => addr + 32 * k

/-- How a MOVE's transfer ends: ERROR code, failing address, words written. -/
inductive MoveEnd where
  | ok | bad (err addr : Nat) | wait
  deriving DecidableEq, Repr

/-- The run of consecutive words of a MOVE's destination that holds `w`: the words of one cell, or all of them. -/
def moveSpan (pktFlag : Bool) (ws : List Nat) (w : Nat) : Nat × Nat :=
  if pktFlag then (w / 256 * 256, w / 256 * 256 + 32 * ws.countP fun v => v / 256 == w / 256)
  else (ws.headD w, ws.headD w + 32 * ws.length)

/-- A word read while earlier MOVEs of the channel have not had their responses (R498): what it holds, or what it held before one
of them, as a free choice. -/
def earlyRead (old : List (Nat × Bytes)) (a : Nat) (b : Bytes) (s : State) : Bytes × State :=
  let before := (old.filter fun e => e.1 == a).map (·.2)
  if before = [] then (b, s)
  else
    let (v, s) := draw s
    ((b :: before).getD (v % (before.length + 1)) b, s)

/-- Words moved one by one, each written with the others of its run (R465); `left` cuts the data of a packet to its
length, and `old` are words that earlier MOVEs still under way wrote. A task that received INPUT_FAILED moves its input as
erased, all zeros (R167). -/
def moveLoop (i : Initiator) (erased : Bool) (old : List (Nat × Bytes)) (span : Nat → Nat × Nat) :
    List Nat → List Nat → Nat → State → MoveEnd × State
  | r :: rs, w :: ws, left, s =>
    match readWord i r s with
    | (.wait, _, s) => (.wait, s)
    | (.uncorrectable, _, s) => (.bad 3 r, s)
    | (.busError, _, s) => (.bad 2 r, s)
    | (.ok, b, s) =>
      let (b, s) := earlyRead old r b s
      match writeWord i w (span w).1 (span w).2 (fit 32 (if erased then [] else b.take left)) s with
      | (.ok, s) => moveLoop i erased old span rs ws (left - 32) s
      | (.wait, s) => (.wait, s)
      | (_, s) => (.bad 2 w, s)
  | _, _, _, s => (.ok, s)

/-- A bad MOVE counted and reported (R499). -/
def dmaMoveBad (ch err addr : Nat) (s : State) : State :=
  let s := dmaPut ch { dmaCh s ch with bad := true } s
  raiseLim second ch 0x0701 uDMA (ch / 16) 1 ([BitVec.ofNat 8 ch, BitVec.ofNat 8 err] ++ zeros 6 ++ leBytes 8 addr)
    (regBump uDMA (ch / 16) 0x004 31 0 1 s)

/-- A MOVE's transfers issued, with the words of the device's memory it writes as they stood `before` (R498, R510). -/
def dmaIssue (ch bytes : Nat) (ws : List Nat) (before s : State) : State :=
  let x := dmaCh s ch
  let old := (ws.filter (· < outBase)).map fun w => (w, memBytes before.mem w 32)
  dmaPut ch { x with moves := x.moves ++ [{ at_ := s.now, left := bytes, old := old }] } s

/-- A status record (R500). -/
def moveRecord (s : State) (err bytes addr handle : Nat) : Bytes :=
  leBytes 8 (shortNow s) ++ [BitVec.ofNat 8 (b2n (err != 0)), BitVec.ofNat 8 err, 0, 0] ++ leBytes 4 bytes ++
    leBytes 8 addr ++ leBytes 4 handle ++ zeros 4

/-- The end of a MOVE: its status record, its accounting, and the next instruction (R499, R500). -/
def moveFinish (ch status err bytes addr handle : Nat) (s0 s : State) : State :=
  let s := if err = 0 then s else dmaMoveBad ch err addr s
  if status = 0 then dmaNext ch s
  else match writeWord (dmaInit ch) status status (status + 32) (moveRecord s err bytes addr handle) s with
  | (.ok, s) => dmaNext ch s
  | (.wait, s) => { s0 with power := s.power, regs := s.regs }
  | (_, s) => dmaNext ch (if err = 0 then dmaMoveBad ch 2 status s else s)

/-- MOVE (R495 to R500). -/
def dmaMove (ch : Nat) (b : Bytes) (s : State) : State :=
  let x := dmaCh s ch
  let f := fld b 1 1
  let len := fld b 2 3
  let lvl := bits f 7 6
  let srcPkt := bit f 3
  let dstPkt := bit f 4
  let step := fun o => toS 16 (fld b o 2)
  match dmaIter x lvl with
  | none => dmaError ch dmaBAD_FIELD s
  | some i =>
    let at_ := fun off rel st => (((fld b off 6 : Int) + (if bit f rel then (x.base : Int) else 0) + (i : Int) * 32 * st)
      % (2 ^ 48 : Nat)).toNat
    let src := at_ 8 0 (step 6)
    let dst := at_ 16 1 (step 14)
    let status := if fld b 24 6 = 0 then 0 else (fld b 24 6 + (if bit f 2 then x.base else 0)) % 2 ^ 48
    if len = 0 ∨ len % 32 ≠ 0 ∨ (!srcPkt && src % 32 != 0) ∨ (!dstPkt && dst % 32 != 0) ∨ status % 32 ≠ 0 ∨
        !rsv b 5 1 ∨ !rsv b 22 2 ∨ !rsv b 30 2 then dmaError ch dmaBAD_FIELD s
    else
      let bound := x.work.bind (·.handle)
      let sh := if fld b 8 4 = noHandle then bound.getD noHandle else fld b 8 4
      let dh := fld b 16 4
      let named := fun h => (pkt s h).any fun p => p.st != .quarantined
      let recH := if srcPkt then sh else noHandle
      if srcPkt && !named sh then moveFinish ch status 4 0 sh recH s s
      else if dstPkt && !named dh then
        moveFinish ch status 4 0 dh recH s (if srcPkt && bit f 5 then
          dmaPut ch { x with frees := x.frees ++ [sh] } s else s)
      else
        let sz := if srcPkt then min len (((pkt s sh).map (·.len)).getD 0) else len
        let dmax := if dstPkt then (((pkt s dh).map (·.cells.length)).getD 0) * 256 else roundUp sz 32
        let n := min (roundUp sz 32) dmax / 32
        let rs := moveWords s srcPkt sh src n
        let ws := moveWords s dstPkt dh dst n
        match moveLoop (dmaInit ch) (x.work.any (·.inputFailed)) (x.moves.flatMap (·.old)) (moveSpan dstPkt ws) rs ws sz s with
        | (.wait, s) => s
        | (.ok, s1) =>
          let s1 := dmaIssue ch (32 * n) ((ws.take n) ++ (if status = 0 then [] else [status])) s s1
          let s1 := if srcPkt && bit f 5 then
              let y := dmaCh s1 ch
              dmaPut ch { y with frees := y.frees ++ [sh] } s1
            else s1
          moveFinish ch status 0 (32 * n) 0 recH s1 s1
        | (.bad err addr, s1) =>
          let (v, s1) := draw (scramble (fun s w => mayWrite s (dmaInit ch) w) ws s1)
          let s1 := if srcPkt && bit f 5 then
              let y := dmaCh s1 ch
              dmaPut ch { y with frees := y.frees ++ [sh] } s1
            else s1
          moveFinish ch status err (32 * (v % n)) addr recH s s1

/-- LOOP. -/
def dmaLoopOp (ch : Nat) (b : Bytes) (s : State) : State :=
  let x := dmaCh s ch
  if !rsv b 1 3 ∨ !rsv b 8 24 ∨ fld b 4 4 = 0 then dmaError ch dmaBAD_FIELD s
  else if 4 ≤ x.loops.length then dmaError ch dmaLOOP_DEPTH s
  else dmaNext ch (dmaPut ch { x with loops := { start := x.pc, count := fld b 4 4, i := 0 } :: x.loops } s)

/-- ENDLOOP. -/
def dmaEndLoop (ch : Nat) (b : Bytes) (s : State) : State :=
  let x := dmaCh s ch
  if !rsv b 1 31 then dmaError ch dmaBAD_FIELD s
  else match x.loops with
  | [] => dmaError ch dmaLOOP_DEPTH s
  | l :: r =>
    if l.i + 1 < l.count then dmaPut ch { x with loops := { l with i := l.i + 1 } :: r, pc := l.start + 32 } s
    else dmaNext ch (dmaPut ch { x with loops := r } s)

/-- A WAIT evaluated: it continues, goes on waiting, or ends the program (R502). -/
def dmaPoll (ch : Nat) (w : DmaWait) (s : State) : State :=
  let x := dmaCh s ch
  let go := fun s => dmaNext ch (dmaPut ch { dmaCh s ch with run := .run, wait := none, deadline := none } s)
  match w with
  | .time t => if t ≤ shortNow s then go s else dmaPut ch { x with run := .wait, wait := some w } s
  | .word addr mask value =>
    match readWord (dmaInit ch) addr s with
    | (.ok, b, s) =>
      if Nat.land (fld b (addr % 32) 4) mask = value then go s
      else dmaPut ch { dmaCh s ch with run := .wait, wait := some w } s
    | (.wait, _, s) => dmaPut ch { dmaCh s ch with run := .wait, wait := some w } s
    | (_, _, s) => dmaError ch dmaWAIT_BUS s

/-- WAIT. -/
def dmaWaitOp (ch : Nat) (b : Bytes) (s : State) : State :=
  let k := fld b 1 1
  let reserved := rsv b 2 6 && rsv b 28 4 && (if k = 0 then rsv b 16 8 else rsv b 14 2)
  if 1 < k ∨ !reserved ∨ (k = 1 ∧ fld b 8 6 % 4 ≠ 0) then dmaError ch dmaBAD_FIELD s
  else
    let t := fld b 24 4
    let s := dmaPut ch { dmaCh s ch with deadline := if t = 0 then none else some (s.now + t) } s
    dmaPoll ch (if k = 0 then .time (fld b 8 8) else .word (fld b 8 6) (fld b 16 4) (fld b 20 4)) s

/-- A waiting program's condition looked at again (R502). -/
def dmaContinue (ch : Nat) (s : State) : State :=
  let x := dmaCh s ch
  match x.wait with
  | some w => if x.run = .wait then dmaPoll ch w s else s
  | none => s

/-- A WAIT past its TIMEOUT (R502). -/
def dmaTimeoutOp (ch : Nat) (s : State) : State :=
  let x := dmaCh s ch
  match x.deadline with
  | some t => if x.run = .wait ∧ t ≤ s.now then dmaError ch dmaTIMEOUT s else s
  | none => s

/-- SIGNAL, once every earlier write has returned its response (R501). -/
def dmaSignal (ch : Nat) (b : Bytes) (s : State) : State :=
  let k := fld b 1 1
  let reserved :=
    if k = 0 then rsv b 6 26
    else if k = 1 then rsv b 4 28
    else rsv b 2 2 && rsv b 6 2 && rsv b 12 20
  if 2 < k ∨ !reserved ∨ (k = 1 ∧ 15 < fld b 2 2) then dmaError ch dmaBAD_FIELD s
  else if (dmaCh s ch).moves ≠ [] then s
  else if k = 0 then dmaNext ch (notify (fld b 4 2) (fld b 2 2) (dmaInit ch) s)
  else if k = 1 then dmaNext ch (emit (.msix (fld b 2 2)) s)
  else dmaNext ch (unitEnqueue (fld b 4 2) (fld b 8 4) none (dmaInit ch) s).2

/-- FENCE: on, once every earlier read and write is done (R498). -/
def dmaFenceOp (ch : Nat) (b : Bytes) (s : State) : State :=
  if !rsv b 1 31 then dmaError ch dmaBAD_FIELD s
  else if (dmaCh s ch).moves ≠ [] then s
  else dmaNext ch s

/-- END (R501, R507, R508). -/
def dmaEnd (ch : Nat) (b : Bytes) (s : State) : State :=
  if rsv b 1 31 then dmaFinish ch (!(dmaCh s ch).bad) s else dmaError ch dmaBAD_FIELD s

/-- A program begun at `pc`. -/
def dmaStart (ch : Nat) (x : DmaCh) (s : State) : State :=
  let s := dmaPut ch { x with run := .run, loops := [], bad := false, frees := [], wait := none, deadline := none } s
  if x.pc % 32 = 0 then s else dmaError ch dmaBAD_FIELD s

/-- A hand-over cycle at a program boundary (R504). -/
def dmaHandover (ch : Nat) (s : State) : State :=
  let x := dmaCh s ch
  if x.run ≠ .idle then s
  else if x.armed then
    dmaStart ch { x with armed := false, handoverSeq := (x.handoverSeq + 1) % 256, source := 2, pc := x.shProg
                         base := x.shBase, work := none
                         signal := if x.shSignalValid then some x.shSignalTask else none } s
  else match x.staged with
  | some w =>
    if x.tasksEn then
      let d := descOf s w
      dmaStart ch { x with staged := none, work := some w, source := 1, pc := d.entry, base := d.arg / 0x10000
                           signal := none } (slotState w .running s)
    else s
  | none => s

/-- A write of a shadow register: 0 PROG_LO, 1 PROG_HI, 2 BASE_LO, 3 BASE_HI, 4 SIGNAL (R506). -/
def dmaShadow (ch k v : Nat) (s : State) : State :=
  let x := dmaCh s ch
  if x.armed then dmaPut ch { x with shadowLocked := true } s
  else dmaPut ch (
    if k = 0 then { x with shProg := setBits x.shProg 31 0 (v / 32 * 32) }
    else if k = 1 then { x with shProg := setBits x.shProg 47 32 v }
    else if k = 2 then { x with shBase := setBits x.shBase 31 0 v }
    else if k = 3 then { x with shBase := setBits x.shBase 47 32 v }
    else { x with shSignalValid := bit v 31, shSignalTask := v % 0x10000 }) s

/-- A write of ABORT (R509). -/
def dmaAbort (ch : Nat) (s : State) : State :=
  if (dmaCh s ch).run = .idle then s else dmaError ch dmaABORTED s

/-! ### Engines and staging (R510 to R512) -/

/-- The class of a channel's program: its task's, or the shadow's. -/
def dmaClass (s : State) (x : DmaCh) : Nat := (x.work.map fun w => (descOf s w).cls).getD x.cls

/-- The channels of a complex with transfers under way. -/
def dmaBusy (s : State) (n : Nat) : List Nat :=
  ((List.range 16).map (16 * n + ·)).filter fun ch => (dmaCh s ch).moves != []

/-- The reads in flight of a complex's channels: at most MAX_READS of a channel and 1,024 in all, of 256 bytes each, granted
in order of request. -/
def dmaReads (s : State) (n : Nat) : List (Nat × Nat) :=
  let asked := fun ch => (((dmaCh s ch).moves.head?).map (·.at_)).getD 0
  (sortBy (fun ch => asked ch * 64 + ch) (dmaBusy s n)).foldl (fun got ch =>
    let x := dmaCh s ch
    let want := min x.maxReads (ceilDiv (sumL (x.moves.map (·.left))) 256)
    got ++ [(ch, min want (1024 - sumL (got.map (·.2))))]) []

/-- The shared staging in use, in KiB: what channels hold beyond the 32 KiB each has. -/
def dmaShared (s : State) (n : Nat) : Nat := ceilDiv (sumL ((dmaReads s n).map fun e => (e.2 - 128) * 256)) 1024

/-- The channel the engines of a complex serve: class 0 first, then the one served longest ago (R512). -/
def dmaTurn (s : State) (n : Nat) : Option Nat :=
  let zero := (dmaBusy s n).filter fun ch => dmaClass s (dmaCh s ch) == 0
  (sortBy (fun ch => (dmaCh s ch).served * 16 + ch % 16) (if zero = [] then dmaBusy s n else zero)).head?

/-- 64 bytes of a channel's oldest MOVE moved; a program that has ended completes with the last of them. -/
def dmaServe (ch : Nat) (s : State) : State :=
  let x := dmaCh s ch
  match x.moves with
  | [] => s
  | m :: r =>
    let ms := if m.left ≤ 64 then r else { m with left := m.left - 64 } :: r
    let s := dmaPut ch { x with moves := ms, served := s.now } s
    match x.ending with
    | some ok => if ms = [] then dmaComplete ch ok s else s
    | none => s

/-- A cycle of the four complexes' engines. -/
def dmaTick (s : State) : State :=
  if s.dma.all fun e => e.2.moves == [] then s
  else (List.range 4).foldl (fun s n => match dmaTurn s n with
    | some ch => dmaServe ch s
    | none => s) s

/-- A ready DMA task staged on its channel (R178). -/
def dmaStage (ch : Nat) (s : State) : State :=
  let x := dmaCh s ch
  let ok := s.shuttle.ready.filter fun w =>
    (descOf s w).target == 5 && (descOf s w).arg % 64 == ch && !lateCancel s w
  match x.staged, leastBy (edfKey s) ok with
  | none, some w =>
    let s := shCount 0 1 (slotState w .staged (unready w s))
    dmaPut ch { dmaCh s ch with staged := some w } s
  | _, _ => s

end Sys2Proof.Machine
end

