-- ==== Sys2Proof/Machine/Images.lean ====
section
/-!
DEFINITION. Signed images, the NV store and its slots and commit records (03_boot_identity.md, R85 to R95), and the NV
commands (17_jortanu_fabric.md, R600).
-/
namespace Sys2Proof.Machine
open Sys2Proof

/-- A change to the security island's and the fabric's state. -/
def secMod (f : Sec → Sec) (s : State) : State := { s with sec := f s.sec }
def fabMod (f : Fabric → Fabric) (s : State) : State := { s with fabric := f s.fabric }

/-- The two stores that hold images. -/
inductive Store where
  | nv | spi
  deriving DecidableEq, Repr

/-- The contents of a store. -/
def storeOf (s : State) : Store → Sparse (BitVec 8)
  | .nv => s.sec.nv
  | .spi => s.sec.spi

/-- `n` bytes of a store. -/
def storeBytes (m : Sparse (BitVec 8)) (a n : Nat) : Bytes := (List.range n).map fun k => spGet 0 m (a + k)

/-- Bytes put into a store. -/
def storePut (m : Sparse (BitVec 8)) (a : Nat) : Bytes → Sparse (BitVec 8)
  | [] => m
  | b :: bs => storePut (spSet 0 m a b) (a + 1) bs

/-- A store written. -/
def storeWrite (w : Store) (a : Nat) (bs : Bytes) (s : State) : State :=
  match w with
  | .nv => secMod (fun (x : Sec) => { x with nv := storePut x.nv a bs }) s
  | .spi => secMod (fun (x : Sec) => { x with spi := storePut x.spi a bs }) s

/-! ### Images (R85 to R89) -/

/-- Fields of an image header. -/
def imgMagic : Bytes := [0x59, 0x44, 0x49, 0x4D]
def imgType (b : Bytes) : Nat := fld b 6 1
def imgSigner (b : Bytes) : Nat := fld b 7 1
def imgVersion (b : Bytes) : Nat := fld b 12 4
def imgLen (b : Bytes) : Nat := fld b 16 4
def imgPayload (b : Bytes) : Bytes := sub b 128 (imgLen b)

/-- The bit of a part in a part mask. -/
def partBit : Part → Nat
  | .yd4460 => 0 | .yd4440 => 1 | .yd4420 => 2

/-- The header is well formed for an image of a type (R85, R87). -/
def headerOk (type : Nat) (b : Bytes) : Bool :=
  128 ≤ b.length && sub b 0 4 == imgMagic && fld b 4 2 == 1 && imgType b == type && 1 ≤ imgSigner b && imgSigner b ≤ 3 &&
    fld b 8 2 < 8 && rsv b 10 2 && imgVersion b ≤ 64 && imgLen b % 4 == 0 && (type == 1 || rsv b 20 4) && rsv b 96 32

/-- The image is as long as its header declares. -/
def imageWhole (b : Bytes) : Bool := 128 ≤ b.length && 128 + imgLen b + 3376 ≤ b.length

/-- An owner slot. -/
def ownerSlot (s : State) (n : Nat) : OwnerSlot := if n = 0 then s.sec.owner0 else s.sec.owner1

/-- The verifying keys of a signer; none that are usable for a slot that is unprogrammed, revoked or whose stored keys do
not match its fuses (R89). -/
def keysOf (s : State) (signer : Nat) : Option (Bytes × Bytes) :=
  if signer = 1 then some (Config.yunaifEd, Config.yunaifMldsa)
  else if signer = 2 ∨ signer = 3 then
    let o := ownerSlot s (signer - 2)
    let ed := storeBytes s.sec.nv (0x1000 * (signer - 1)) 32
    let ml := storeBytes s.sec.nv (0x1000 * (signer - 1) + 32) 1952
    if !o.revoked ∧ o.ed = some (Config.sha512 ed) ∧ o.ml = Config.sha512 ml then some (ed, ml) else none
  else none

/-- Both signatures of a signature block over a message (R86, R88). -/
def sigCheck (keys : Option (Bytes × Bytes)) (msg block : Bytes) : Bool × Bool :=
  match keys with
  | some (ed, ml) => (Config.ed25519 ed msg (sub block 0 64), Config.mldsa ml msg (sub block 64 3309))
  | none => (false, false)

/-- What verification of an image finds. -/
inductive Verdict where
  | valid | malformed | incomplete | wrongPart | badSignature | rollback
  deriving DecidableEq, Repr

/-- An image verified for a type (R87): both signatures always, the results recorded in SEC_VERIFY_LAST (R88). An image
shorter than its header declares has no signature block to verify, and SEC_VERIFY_LAST stays as it was; one shorter than a
header is malformed; completeness comes before the other findings. The spec leaves the three open (DESIGN CHOICE, log
44). -/
def verifyImage (type : Nat) (b : Bytes) (s : State) : Verdict × State :=
  if !imageWhole b then (if headerOk type b then .incomplete else .malformed, s)
  else
    let sig := sigCheck (keysOf s (imgSigner b)) (sub b 0 128) (sub b (128 + imgLen b) 3376)
    let dig := Config.sha512 (imgPayload b) == sub b 32 64
    let low := imgVersion b < s.sec.rollback.getD (type - 1) 0
    let s := regPut uSEC 0 0x004
      (BitVec.ofNat 32 (type * 2 ^ 24 + b2n low * 8 + b2n (!dig) * 4 + b2n (!sig.2) * 2 + b2n (!sig.1))) s
    (if !headerOk type b then .malformed
     else if !bit (fld b 8 2) (partBit s.part) ∨ (fld b 24 8 ≠ 0 ∧ fld b 24 8 ≠ Config.serial.toNat) then .wrongPart
     else if !sig.1 ∨ !sig.2 ∨ !dig then .badSignature
     else if low then .rollback else .valid, s)

/-- The status a command gives for a verdict; a malformed image or a wrong part counts with the signatures, as the boot
reasons group them (R72, R102). -/
def verdictStatus : Verdict → Nat
  | .valid => stDONE
  | .incomplete => stIMAGE_INCOMPLETE
  | .rollback => stROLLBACK
  | _ => stSIGNATURE_FAIL

/-! ### Slots and commit records (R90 to R94) -/

/-- Where the commit record and the image of slot `n` of a type lie, and the slot's size. -/
def recordAt (w : Store) (type n : Nat) : Nat := match w with
  | .nv => (2 * (type - 1) + n) * 0x100
  | .spi => n * 0x100
def slotAtStore (w : Store) (type n : Nat) : Nat := match w with
  | .spi => 0x100000 + n * 0x2000000
  | .nv =>
    if type = 1 then 0x100000 * (n + 1) else if type = 2 then 0x300000 + n * 0x40000
    else if type = 3 then 0x380000 + n * 0x40000 else 0x8000 + n * 0x4000
def slotSize (w : Store) (type : Nat) : Nat := match w with
  | .spi => 0x2000000
  | .nv => if type = 1 then 0x100000 else if type = 4 then 0x4000 else 0x40000

/-- The commit record of an image with a serial (R90). -/
def commitRecord (img : Bytes) (serial : Nat) : Bytes :=
  let b := [0x59, 0x44, 0x43, 0x4D] ++ leBytes 4 img.length ++ leBytes 8 serial ++ fit 64 (Config.sha512 img) ++ zeros 12
  b ++ leBytes 4 (crc32 b)

/-- The committed image of a slot with its serial, when its record is valid (R91). -/
def committedIn (s : State) (w : Store) (type n : Nat) : Option (Nat × Bytes) :=
  let m := storeOf s w
  let r := storeBytes m (recordAt w type n) 96
  let img := storeBytes m (slotAtStore w type n) (fld r 4 4)
  if sub r 0 4 = [0x59, 0x44, 0x43, 0x4D] ∧ fld r 92 4 = crc32 (sub r 0 92) ∧ fld r 4 4 ≤ slotSize w type ∧
      sub r 16 64 = fit 64 (Config.sha512 img) then some (fld r 8 8, img)
  else none

/-- The flash is read with command 0x6C, a 4-byte address and 8 dummy cycles (R79); the NV store lies in the device. -/
def storeRead (w : Store) (a n : Nat) (s : State) : State :=
  match w with
  | .nv => s
  | .spi => emit (.flash 0x6C a 8 n) s

/-- Both slots of a type read: the record, and the image it names or the first bytes of one that no record names (R91,
R94). -/
def slotReads (w : Store) (type : Nat) (s : State) : State :=
  [0, 1].foldl (fun s n =>
    let len := match committedIn s w type n with
      | some x => x.2.length
      | none => 4
    storeRead w (slotAtStore w type n) len (storeRead w (recordAt w type n) 96 s)) s

/-- The newest slot of a type: the larger serial (R91). -/
def newestSlot (s : State) (w : Store) (type : Nat) : Option (Nat × Nat × Bytes) :=
  match committedIn s w type 0, committedIn s w type 1 with
  | some a, some b => if a.1 < b.1 then some (1, b) else some (0, a)
  | some a, none => some (0, a)
  | none, some b => some (1, b)
  | none, none => none

/-- The store's number in events. -/
def storeNo : Store → Nat
  | .nv => 0 | .spi => 1

/-- IMAGE_UNCOMMITTED for a slot with a header but no valid record (R94). -/
def uncommitted (w : Store) (type : Nat) (s : State) : State :=
  [0, 1].foldl (fun s n =>
    if (committedIn s w type n).isNone ∧ storeBytes (storeOf s w) (slotAtStore w type n) 4 = imgMagic then
      raise 0x0202 uSEC 0 1 [BitVec.ofNat 8 type, BitVec.ofNat 8 (storeNo w), BitVec.ofNat 8 n] s
    else s) s

/-- The slot an install writes: the one that is not newest (R92). -/
def installSlot (s : State) (w : Store) (type : Nat) : Nat :=
  match newestSlot s w type with
  | some (0, _) => 1
  | _ => 0

/-- An install: the record cleared, the image written, the commit record written with a serial one above the largest
(R90, R92). -/
def installImage (w : Store) (type : Nat) (img : Bytes) (s : State) : Nat × State :=
  let n := installSlot s w type
  let s := slotReads w type s
  let serial := 1 + ((newestSlot s w type).map fun x => x.2.1).getD 0
  let s := storeWrite w (recordAt w type n) (zeros 96) s
  let s := storeWrite w (slotAtStore w type n) img s
  (n, storeWrite w (recordAt w type n) (commitRecord img serial) s)

/-- An install ended before its commit record (R55): how far it came is not stated, so a free number of the image's bytes
are in the slot, whose record is cleared once it has begun. -/
def installCut (w : Store) (type : Nat) (img : Bytes) (s : State) : State :=
  let (v, s) := draw s
  if v % (img.length + 2) = 0 then s
  else
    let n := installSlot s w type
    let s := storeWrite w (recordAt w type n) (zeros 96) s
    storeWrite w (slotAtStore w type n) (img.take (v % (img.length + 2) - 1)) s

/-! ### Ranges of commands and the NV commands (R666, R600) -/

/-- Bytes `a` to `a + n`, rounded up to whole code words, lie in one region a command may write to (R666): SDRAM below the
device pool, which lies below the other reserved regions (R454). -/
def writable (s : State) (a n : Nat) : Bool :=
  let e := a + roundUp n 32
  a % 32 == 0 && (match regionOf a with
    | .sdram => e + regF s uMEM 0 0x080 8 0 * 0x40000000 ≤ tagRegBase s
    | .spm crew off => crewPresent s crew && off + roundUp n 32 ≤ 0x800000
    | .cell => e ≤ cellBase + 0x4000000
    | .outbound off => off + roundUp n 32 ≤ 0x10000000000
    | _ => false)

/-- Bytes written by a command as whole code words, zero beyond its data (R666): whether every word was, or the write has
to wait for a memory that is asleep (R537) and nothing is written yet. -/
def commandWrite (a : Nat) (bs : Bytes) (s : State) : Bus × State :=
  match writeBytes (unitInit uSYS 0) a (fit (roundUp bs.length 32) bs) s with
  | (.ok, _, s) => (.ok, s)
  | (.wait, _, s1) => (.wait, waitAt s s1)
  | (_, _, s) => (.busError, scramble (fun s w => mayWrite s (unitInit uSYS 0) w)
      ((List.range (ceilDiv bs.length 32)).map fun k => a + 32 * k) s)

/-- An offset and a length that lie in the NV user area (R600). -/
def nvRange (o n : Nat) : Bool := o % 32 == 0 && n % 32 == 0 && 0x10000 ≤ o && o + n ≤ 0x100000

/-- NV_READ and NV_WRITE taken. -/
def nvOp (write : Bool) (r : Request) (s : State) : State :=
  let p := r.params
  runLong (if write then 0x0641 else 0x0640) r
    (firstFail [targetCheck s r uFABRIC 0, need (p.length == 16) stBAD_LENGTH,
      need (nvRange (fld p 0 4) (fld p 4 4)) 0x0604,
      need (write || writable s (fld p 8 8) (fld p 4 4)) stBAD_PARAM])
    0 none true id s

/-- An NV command's work done, once the memory it reads or writes is awake; NV_WRITE starts no unit while PFAIL is set
(R623). -/
def nvDone (l : Long) (s : State) : State :=
  let o := fld l.params 0 4
  let n := fld l.params 4 4
  let a := fld l.params 8 8
  if l.opcode = 0x0640 then
    match commandWrite a (storeBytes s.sec.nv o n) s with
    | (.ok, s) => completeLong l stDONE (leBytes 4 n) s
    | (.wait, s) => s
    | (_, s) => completeLong l stHW_FAULT [] s
  else if regF s uPOWER 0 0x000 31 31 = 1 then s
  else match readBytes (unitInit uSYS 0) a n s with
  | (.ok, bs, _, s) => completeLong l stDONE (leBytes 4 n) (storeWrite .nv o bs s)
  | (.wait, _, _, s1) => waitAt s s1
  | (_, _, _, s) => completeLong l stHW_FAULT [] s

/-- NV_WRITE ended by CANCEL or a power loss: a free number of its units are new (R600). -/
def nvCut (l : Long) (s : State) : State :=
  if l.opcode ≠ 0x0641 then s
  else
    let (v, s) := draw s
    let n := fld l.params 4 4
    match readBytes (unitInit uSYS 0) (fld l.params 8 8) (v % (n / 32 + 1) * 32) s with
    | (.ok, bs, _, s) => storeWrite .nv (fld l.params 0 4) bs s
    | (_, _, _, s) => s

end Sys2Proof.Machine
end

