-- ==== Sys2Proof/Machine/Fabric.lean ====
section
/-!
DEFINITION. The Jortanu fabric: bitstreams, regions, pins, oscillators and hard serial ports (17_jortanu_fabric.md,
R579 to R601).
-/
namespace Sys2Proof.Machine
open Sys2Proof

/-- A region's object. -/
def regionObj (r : Nat) : Nat := objId 6 1 r

/-- The fabric's own registers. -/
def fabReg (s : State) (off : Nat) : Nat := (regGet s uFABRIC 0 off).toNat

/-! ### Bitstreams (R582, R584 to R588) -/

/-- The region map of a bitstream payload: block `b`'s region, 0xFF for none. -/
def regionOfBlock (p : Bytes) (b : Nat) : Nat := fld p (16 + b) 1

/-- The blocks of a payload's frames, in order, and the frame of a block. -/
def mapBlocks (p : Bytes) : List Nat := (List.range 96).filter fun b => regionOfBlock p b != 0xFF
def frameOf (p : Bytes) (b : Nat) : Bytes := sub p (592 + 1024 * ((mapBlocks p).findIdx (· == b))) 1024

/-- An owner code. -/
def ownerCodeOk (v : Nat) : Bool := v ≤ 0x5F || v == 0xFE || v == 0xFF

/-- The map section and the frames of a bitstream (R585, R586). -/
def bitstreamOk (p : Bytes) : Bool :=
  592 ≤ p.length && fld p 0 2 == 1 && fld p 2 1 ≤ 96 && fld p 3 1 == (mapBlocks p).length && rsv p 4 12 &&
    p.length == 592 + 1024 * (mapBlocks p).length &&
    ((List.range 96).all fun b => regionOfBlock p b ≤ 0x5F || regionOfBlock p b == 0xFF) &&
    ((List.range 128).all fun n => ownerCodeOk (fld p (112 + 2 * n) 1)) &&
    ((List.range 12).all fun n => ownerCodeOk (fld p (368 + 2 * n) 1) && rsv p (369 + 2 * n) 1) && fld p 368 1 == 0xFF &&
    ((List.range 8).all fun n => (fld p (392 + 4 * n) 1 ≤ 8 || fld p (392 + 4 * n) 1 == 0xFF) && rsv p (393 + 4 * n) 3) &&
    ((List.range 4).all fun n => !bit (fld p (424 + 4 * n) 1) 6 && rsv p (425 + 4 * n) 3) &&
    !bit (fld p 440 4) 30 && rsv p 444 148

/-- The regions a payload declares, with their blocks as a mask. -/
def declared (p : Bytes) : List (Nat × Nat) :=
  (((mapBlocks p).map (regionOfBlock p)).eraseDups).map fun r =>
    (r, sumL (((mapBlocks p).filter fun b => regionOfBlock p b == r).map (2 ^ ·)))

/-- Blocks of a region, from the booted bitstream. -/
def regionMask (s : State) (r : Nat) : Nat := spGet 0 s.fabric.regions r
def regionBlocks (s : State) (r : Nat) : List Nat := (List.range 96).filter fun b => bit (regionMask s r) b

/-- The region of a block. -/
def blockRegion (s : State) (b : Nat) : Option Nat := (s.fabric.regions.find? fun e => bit e.2 b).map (·.1)

/-- A region is not STOPPED. -/
def regionOn (s : State) (r : Nat) : Bool := isActive s (regionObj r)

/-- Frames whose taps count: those of regions that are not STOPPED, other than one. -/
def liveFrames (s : State) (but : Nat) : List (Nat × Bytes) :=
  s.fabric.frames.filter fun e => (blockRegion s e.1).any fun r => r != but && regionOn s r

/-- The enabled taps of line `l` of row `r` among some frames. -/
def tapCount (fs : List (Nat × Bytes)) (r l : Nat) : Nat :=
  (fs.filter fun e => e.1 / 16 == r && (Config.tapEnables e.2).getLsbD l).length

/-- No line has more than one enabled tap (R582). -/
def tapsOk (fs : List (Nat × Bytes)) : Bool :=
  (List.range 6).all fun r => (List.range 16).all fun l => tapCount fs r l ≤ 1

/-- The pin's electrical options of a PIN_MAP entry applied (R588). -/
def pinOptions (p : Bytes) (n : Nat) (s : State) : State :=
  let v := fld p (113 + 2 * n) 1
  regPutF uFABRIC 0 (0x1000 + 4 * n) 15 14 (bits v 7 6)
    (regPutF uFABRIC 0 (0x1000 + 4 * n) 21 16 (b2n (bit v 0) * 32 + bits v 2 1 * 8 + bits v 5 3) s)

/-- Pins and ports given to their owners by a payload, all of them or those of one region. -/
def takePins (p : Bytes) (only : Option Nat) (s : State) : State :=
  let mine := fun v => match only with
    | some r => v == r
    | none => v != 0xFF
  let s := (List.range 128).foldl (fun s n =>
    let v := fld p (112 + 2 * n) 1
    if mine v then fabMod (fun (f : Fabric) => { f with pinOwner := spPut f.pinOwner n v }) (pinOptions p n s) else s) s
  (List.range 12).foldl (fun s n =>
    let v := fld p (368 + 2 * n) 1
    if mine v then fabMod (fun (f : Fabric) => { f with portOwner := spPut f.portOwner n v }) s else s) s

/-- Frames configured. -/
def loadFrames (p : Bytes) (bs : List Nat) (s : State) : State :=
  fabMod (fun (f : Fabric) => { f with frames := bs.foldl (fun m b => spPut m b (frameOf p b)) f.frames }) s

/-- Lines of the blocks of a region no longer forced off: its taps are released again (R583). -/
def unforce (bs : List Nat) (s : State) : State :=
  bs.foldl (fun s b =>
    let taps := (Config.tapEnables (spGet [] s.fabric.frames b)).toNat
    let v := fabReg s (0x010 + 4 * (b / 16))
    regPut uFABRIC 0 (0x010 + 4 * (b / 16)) (BitVec.ofNat 32 (Nat.xor v (Nat.land v taps))) s) s

/-- A booted bitstream released (R588): owners, options, clocks and oscillators, and a RUNNING object for each region
(R591). -/
def releaseBoot (p : Bytes) (s : State) : State :=
  let s := fabMod (fun (f : Fabric) => { f with
    st := 2
    regions := (declared p).foldl (fun m e => spPut m e.1 e.2) []
    clocks := sub p 392 32 }) s
  let s := takePins p none (loadFrames p (mapBlocks p) s)
  let s := (List.range 4).foldl (fun s n =>
    let v := fld p (424 + 4 * n) 1
    let s := if bit v 7 then fabMod (fun (f : Fabric) => { f with oscAt := spPut f.oscAt n s.now }) s else s
    let s := regPutF uFABRIC 0 (0x040 + 4 * n) 31 31 (b2n (bit v 7)) s
    if 2 ≤ bits v 5 0 ∧ bits v 5 0 ≤ 50 then regPutF uFABRIC 0 (0x040 + 4 * n) 5 0 (bits v 5 0) s else s) s
  let s := regPut uFABRIC 0 0x050 (BitVec.ofNat 32 (fld p 440 4)) s
  (declared p).foldl (fun s e =>
    objPut (regionObj e.1)
      { body := zeros 16 ++ leBytes 12 e.2, st := some .running, changed := shortNow s } s) s

/-- Without a bitstream every pin and every port but UART_0 becomes REG-owned at the end of boot (R589). -/
def releaseToReg (s : State) : State :=
  if s.fabric.st = 2 then s
  else fabMod (fun (f : Fabric) => { f with
    pinOwner := (List.range 128).map fun n => (n, 0xFE)
    portOwner := (List.range 11).map fun n => (n + 1, 0xFE) }) s

/-- The fabric unconfigured, as WAIT_HOST and CONFIG_INVALID hold it (R99): no frame, region, owner, running oscillator or
forced line; the safe levels stay. -/
def fabricOff (s : State) : State :=
  let s := fabMod (fun (f : Fabric) => { safe := f.safe, check := f.check }) s
  let s := (List.range 6).foldl (fun s r => regPut uFABRIC 0 (0x010 + 4 * r) 0 s) s
  let s := (List.range 4).foldl (fun s n => regPutF uFABRIC 0 (0x040 + 4 * n) 31 31 0 s) s
  { regPutF uFABRIC 0 0x050 31 31 0 s with objs := s.objs.filter fun e => e.1 / 0x1000000 != 6 }

/-- A pin-default table (R584). -/
def pinTableOk (p : Bytes) : Bool :=
  let n := fld p 0 2
  let pins := (List.range n).map fun k => fld p (16 + 8 * k) 1
  n ≤ 128 && p.length == 16 + 8 * n && rsv p 2 14 && pins.eraseDups.length == n &&
    (List.range n).all fun k =>
      fld p (16 + 8 * k) 1 < 128 && fld p (17 + 8 * k) 1 ≤ 3 && fld p (18 + 8 * k) 1 < 8 && rsv p (19 + 8 * k) 5

/-- The safe levels of a table, with the electrical options of its entries. -/
def takeTable (p : Bytes) (s : State) : State :=
  (List.range (fld p 0 2)).foldl (fun s k =>
    let n := fld p (16 + 8 * k) 1
    let fl := fld p (18 + 8 * k) 1
    let s := fabMod (fun (f : Fabric) => { f with safe := spPut f.safe n (fld p (17 + 8 * k) 1) }) s
    regPutF uFABRIC 0 (0x1000 + 4 * n) 21 19 (b2n (bit fl 0) * 4 + bits fl 2 1) s) s

/-! ### Regions as functions (R591 to R593) -/

/-- Blocks named by an object body. -/
def bodyBlocks (b : Bytes) : Nat := fld b 16 12

/-- The body of a region object: its ranges, then the region against the booted bitstream (R591). -/
def regionCheck (s : State) (r : Nat) (attrs : Nat) (b : Bytes) : Nat :=
  firstFail [
    need (b.length == 28) stBAD_LENGTH,
    need (!bit attrs 0 && fld b 0 1 ≤ 1 && rsv b 1 3 && (fld b 0 1 == 1 || (rsv b 4 4 && rsv b 8 8)) && fld b 8 8 < 2 ^ 48) stBAD_PARAM,
    need ((spFind s.fabric.regions r).isSome) 0x0602,
    need (bodyBlocks b == regionMask s r) stBAD_PARAM]

/-- The image a region starts from: the booted bitstream's slot, or its address in memory, which may have to wake. -/
def regionImage (b : Bytes) (s : State) : Bus × Bytes × State :=
  if fld b 0 1 = 0 then
    match committedIn s .nv 3 (regF s uSEC 0 0x000 1 1) with
    | some x => (.ok, x.2, s)
    | none => (.busError, [], s)
  else match readBytes (unitInit uSYS 0) (fld b 8 8) (fld b 4 4) s with
  | (.ok, bs, _, s) => (.ok, bs, s)
  | (.wait, _, _, s1) => (.wait, [], waitAt s s1)
  | (_, _, _, s) => (.busError, [], s)

/-- A pin or port of the image belongs to another region or to REG (R592, check 3). -/
def pinsFree (s : State) (r : Nat) (p : Bytes) : Bool :=
  ((List.range 128).all fun n => fld p (112 + 2 * n) 1 != r || (let o := spGet 0xFF s.fabric.pinOwner n; o == 0xFF || o == r)) &&
    ((List.range 12).all fun n => fld p (368 + 2 * n) 1 != r || (let o := spGet 0xFF s.fabric.portOwner n; o == 0xFF || o == r))

/-- The checks of a region's START on its image, in order (R592). -/
def regionVerify (r : Nat) (b img : Bytes) (s : State) : Nat × State :=
  match verifyImage 3 img s with
  | (.badSignature, s) => (stSIGNATURE_FAIL, s)
  | (.rollback, s) => (stROLLBACK, s)
  | (.incomplete, s) => (stIMAGE_INCOMPLETE, s)
  | (.malformed, s) => (stBAD_PARAM, s)
  | (.wrongPart, s) => (stBAD_PARAM, s)
  | (.valid, s) =>
    let p := imgPayload img
    let mine := (mapBlocks p).filter fun k => regionOfBlock p k == r
    let exact := sumL (mine.map (2 ^ ·)) == regionMask s r && (fld b 0 1 == 0 || mine.length == (mapBlocks p).length)
    (firstFail [need (bitstreamOk p) stBAD_PARAM, need exact 0x0602, need (pinsFree s r p) 0x0603,
      need (tapsOk (liveFrames s r ++ mine.map fun k => (k, frameOf p k))) 0x0601], s)

/-- A starting region checks and loads its image and is released, or returns to STOPPED (R582, R587, R588, R592). -/
def regionLoad (r : Nat) (s : State) : State :=
  match objFind s (regionObj r) with
  | none => s
  | some o =>
    if o.st ≠ some .starting then s
    else match regionImage o.body s with
    | (.wait, _, s) => s
    | (.ok, img, s) =>
      match regionVerify r o.body img s with
      | (0, s) =>
        let p := imgPayload img
        let s := unforce (regionBlocks s r) (takePins p (some r) (loadFrames p (regionBlocks s r) s))
        reachRunning (regionObj r) s
      | (st, s) => startFailed (regionObj r) st s
    | (_, _, s) => startFailed (regionObj r) stHW_FAULT s

/-- STOP of a region completes (R593). -/
def regionStopped (r : Nat) (s : State) : State :=
  match objFind s (regionObj r) with
  | some o => if o.st = some .stopping then reachStopped (regionObj r) s else s
  | none => s

/-- A long-line comparator sees another level than the enabled tap's for more than 4 ns (R583). -/
def contention (row line : Nat) (s : State) : State :=
  match (liveFrames s 0xFF).find? fun e => e.1 / 16 == row && (Config.tapEnables e.2).getLsbD line with
  | some e =>
    if bit (fabReg s (0x010 + 4 * row)) line then s
    else
      raise 0x3001 uFABRIC 0 2
        [BitVec.ofNat 8 row, BitVec.ofNat 8 line, BitVec.ofNat 8 ((blockRegion s e.1).getD 0xFF)]
        (regPutF uFABRIC 0 (0x010 + 4 * row) line line 1 s)
  | none => s

/-- The block read back next, and the readback after it; one whose frame has changed stops its region (R590). -/
def readback (upset : Bool) (s : State) : State :=
  let b := s.fabric.check
  let s := fabMod (fun (f : Fabric) => { f with check := (b + 1) % 96 }) s
  match blockRegion s b with
  | none => s
  | some r =>
    if !upset ∨ (spFind s.fabric.frames b).isNone then s
    else
      let s := regPut uFABRIC 0 0x030 (BitVec.ofNat 32 (satN 0xFFFFFFFF (fabReg s 0x030 + 1))) s
      let s := match objFind s (regionObj r) with
        | some o => if o.st = some .running then setFn (regionObj r) .stopped s else s
        | none => s
      let s := match objFind s (regionObj r) with
        | some o => objPut (regionObj r) { o with last := stHW_FAULT } s
        | none => s
      raise 0x3002 uFABRIC 0 2 [BitVec.ofNat 8 b, BitVec.ofNat 8 r] s

/-! ### Pins (R589, R594 to R596) -/

/-- Owner code of a serial port, none for UART_0. -/
def portReg (s : State) (p : Nat) : Bool := p != 0 && spGet 0xFF s.fabric.portOwner p == 0xFE

/-- The fixed pins of a serial port (R599). -/
def portPins (p : Nat) : List Nat :=
  if p = 0 then [] else if p < 4 then [6 + 2 * p, 7 + 2 * p]
  else if p < 8 then (List.range 4).map (16 + 4 * (p - 4) + ·) else [32 + 2 * (p - 8), 33 + 2 * (p - 8)]

/-- OWNER of a pin: 0 none, 1 region, 2 REG, 3 serial port in REG mode. -/
def pinOwnerField (s : State) (n : Nat) : Nat :=
  let o := spGet 0xFF s.fabric.pinOwner n
  if outputsOff s ∨ o = 0xFF then 0
  else if o ≠ 0xFE then 1
  else if (List.range 12).any fun p => portReg s p && (portPins p).contains n && regF s uFABRIC 0 (0x2000 + 0x20 * p) 31 31 == 1 then 3
  else 2

/-- A pin is under register control (R594). -/
def pinReg (s : State) (n : Nat) : Bool := pinOwnerField s n == 2

/-- A pin holds its safe level (R589, R593): it has no owner, or its region does not run, or its OE has not been set. -/
def pinSafe (s : State) (n : Nat) : Bool :=
  let o := pinOwnerField s n
  o == 0 || (o == 1 && !isRunning s (regionObj (spGet 0xFF s.fabric.pinOwner n))) ||
    (o == 2 && !bit s.fabric.taken n)

/-- A pin's output is enabled by OE, by its safe level, or by the serial port it belongs to (R595, R599). -/
def pinDriven (s : State) (n : Nat) : Bool :=
  let safe := spGet 0 s.fabric.safe n
  if pinSafe s n then safe == 1 || safe == 2
  else if pinOwnerField s n = 3 then n < 32 && (if n < 16 then n % 2 == 0 else n % 4 != 2)
  else pinReg s n && bit (fabReg s (0x1000 + 4 * n)) 3

/-- A write of FABRIC_PIN_CFG_n (R594, R595). -/
def pinCfgWrite (n v : Nat) (s : State) : State :=
  let old := fabReg s (0x1000 + 4 * n)
  let w := setBits (setBits old 20 16 (bits v 20 16)) 15 14 (bits v 15 14)
  let w := if pinDriven s n then w else setBits w 21 21 (bits v 21 21)
  let w := if pinReg s n then setBits w 3 2 (bits v 3 2) else w
  let s := if pinReg s n && bit v 3 then fabMod (fun (f : Fabric) => { f with taken := Nat.lor f.taken (2 ^ n) }) s else s
  regPut uFABRIC 0 (0x1000 + 4 * n) (BitVec.ofNat 32 w) s

/-- A write of FABRIC_PIN_SET_k or FABRIC_PIN_CLR_k. -/
def pinSetClr (k v : Nat) (on : Bool) (s : State) : State :=
  (List.range 32).foldl (fun s i =>
    if bit v i ∧ pinReg s (32 * k + i) then regPutF uFABRIC 0 (0x1000 + 4 * (32 * k + i)) 2 2 (b2n on) s else s) s

/-- The level on a pin: the safe level of a pin that drives one, what a REG-owned pin drives, and otherwise the
outside's. -/
def pinLevel (s : State) (n : Nat) : Bool :=
  let v := fabReg s (0x1000 + 4 * n)
  let safe := spGet 0 s.fabric.safe n
  if pinSafe s n && (safe == 1 || safe == 2) then safe == 2
  else if pinReg s n && bit v 3 then bit v 2
  else Config.pinLevel n s.now

/-- How long a level must last to pass a pin's filter, in ns; 0 when it is off (R596). -/
def filterNs (s : State) (n : Nat) : Nat :=
  let f := regF s uFABRIC 0 (0x1000 + 4 * n) 18 16
  if f = 0 ∨ f = 7 then 0 else 2 ^ f

/-- The sensed level of a pin after its filter (IN). -/
def pinIn (s : State) (n : Nat) : Bool :=
  match spFind s.fabric.filters n with
  | some x => if filterNs s n = 0 then pinLevel s n else x.out
  | none => pinLevel s n

/-- A filter in one clock cycle: a level that has lasted for the filter's time passes, so a shorter pulse is rejected and
an edge comes that much later (R596). -/
def filterStep (s : State) (n : Nat) (m : Sparse PinFilter) : Sparse PinFilter :=
  let v := pinLevel s n
  if filterNs s n = 0 then spDel m n
  else match spFind m n with
  | none => spPut m n { out := v, level := v, since := s.now }
  | some x =>
    let x := if x.level = v then x else { x with level := v, since := s.now }
    spPut m n (if x.since + filterNs s n ≤ s.now then { x with out := x.level } else x)

/-- Every pin's filter in one clock cycle. -/
def filterTick (s : State) : State :=
  fabMod (fun (f : Fabric) => { f with filters := (List.range 128).foldl (fun m n => filterStep s n m) f.filters }) s

/-- FABRIC_PIN_CFG_n as it reads. -/
def pinCfgRead (s : State) (n : Nat) : Nat :=
  let o := pinOwnerField s n
  fabReg s (0x1000 + 4 * n) + o * 2 ^ 30 + (if o = 1 then spGet 0xFF s.fabric.pinOwner n * 2 ^ 23 else 0) + b2n (pinIn s n) * 2

/-! ### Hard blocks (R597 to R599) -/

/-- A write of FABRIC_OSC_n: DIV is kept while EN is 1 and outside 2 to 50. -/
def oscWrite (n v : Nat) (s : State) : State :=
  let old := fabReg s (0x040 + 4 * n)
  let w := setBits old 31 31 (bits v 31 31)
  let w := if bit old 31 ∨ bits v 5 0 < 2 ∨ 50 < bits v 5 0 then w else setBits w 5 0 (bits v 5 0)
  let s := if bit v 31 ∧ !bit old 31 then fabMod (fun (f : Fabric) => { f with oscAt := spPut f.oscAt n s.now }) s else s
  regPut uFABRIC 0 (0x040 + 4 * n) (BitVec.ofNat 32 w) s

/-- FABRIC_OSC_n as it reads: READY 10 µs after EN. -/
def oscRead (s : State) (n : Nat) : Nat :=
  let v := fabReg s (0x040 + 4 * n)
  v + b2n (bit v 31 && spGet 0 s.fabric.oscAt n + 10000 ≤ s.now) * 2 ^ 30

/-- A write of FABRIC_COX_CLK. -/
def coxClkWrite (v : Nat) (s : State) : State :=
  let old := fabReg s 0x050
  let w := setBits old 31 31 (bits v 31 31)
  let w := if bit old 31 ∨ bits v 29 0 < 8 ∨ 1000000000 < bits v 29 0 then w else setBits w 29 0 (bits v 29 0)
  regPut uFABRIC 0 0x050 (BitVec.ofNat 32 w) s

/-- The level of the Cox fabric clock (R598): it rises at the multiples of DIV ns and falls halfway, and after a step waits for
the next multiple. -/
def coxClkHigh (s : State) : Bool :=
  let v := fabReg s 0x050
  let div := bits v 29 0
  let t := shortNow s
  bit v 31 && 8 ≤ div && s.cox.stepAt < t / div * div && 2 * (t % div) < div

/-- The clock's edge, when one falls into this nanosecond. -/
def coxClkTick (s : State) : State :=
  let h := coxClkHigh s
  if h = s.fabric.clk then s
  else emit (.edge (if h then "cox-clock-rise" else "cox-clock-fall") 0 (shortNow s)) (fabMod (fun (f : Fabric) => { f with clk := h }) s)

/-- A serial port. -/
def serialPort (s : State) (p : Nat) : SerialPort := spGet {} s.fabric.ports p
def serialPut (p : Nat) (x : SerialPort) (s : State) : State :=
  fabMod (fun (f : Fabric) => { f with ports := spSet {} f.ports p x }) s

/-- A write of FABRIC_SP_CFG_p; DIV is kept while EN is 1 and below 4. A port that is not REG-owned ignores it. -/
def spCfgWrite (p v : Nat) (s : State) : State :=
  if !portReg s p then s
  else
    let a := 0x2000 + 0x20 * p
    let old := fabReg s a
    let w := setBits old 31 25 (bits v 31 25)
    let w := if bit old 31 ∨ bits v 23 0 < 4 then w else setBits w 23 0 (bits v 23 0)
    regPut uFABRIC 0 a (BitVec.ofNat 32 w) s

/-- A write of FABRIC_SP_TX_p (R599). -/
def spTx (p v : Nat) (s : State) : State :=
  let x := serialPort s p
  if !portReg s p ∨ 64 ≤ x.tx.length then s else serialPut p { x with tx := x.tx ++ [v % 1024] } s

/-- A read of FABRIC_SP_RX_p (R599). -/
def spRx (p : Nat) (s : State) : State :=
  let x := serialPort s p
  match (if portReg s p then x.rx else []) with
  | [] => answer 0 s
  | b :: r => answer (2 ^ 31 + b) (serialPut p { x with rx := r } s)

/-- A byte or an error arrives at a REG-owned, enabled port (R599). -/
def spReceived (p : Nat) (e : SpEvent) (s : State) : State :=
  let a := 0x2004 + 0x20 * p
  let x := serialPort s p
  if !portReg s p ∨ regF s uFABRIC 0 (0x2000 + 0x20 * p) 31 31 = 0 then s
  else match e with
  | .byte v => if 64 ≤ x.rx.length then regPutF uFABRIC 0 a 29 29 1 s else serialPut p { x with rx := x.rx ++ [v.toNat] } s
  | .framing => if 1 ≤ p ∧ p ≤ 3 then regPutF uFABRIC 0 a 27 27 1 s else s
  | .nack => if 8 ≤ p then serialPut p { x with discard := true } (regPutF uFABRIC 0 a 28 28 1 s) else s

/-- FABRIC_SP_STATUS_p as it reads. -/
def spStatusRead (s : State) (p : Nat) : Nat :=
  if p = 0 then 0
  else if !portReg s p then 0
  else
    let x := serialPort s p
    2 ^ 31 + b2n (s.now < x.busyUntil) * 2 ^ 30 + bits (fabReg s (0x2004 + 0x20 * p)) 29 27 * 2 ^ 27 + x.rx.length * 2 ^ 7 +
      (64 - x.tx.length)

/-- Bit periods a byte takes: start, data, parity and stop bits of a UART, 8 of SPI, 9 of I²C. -/
def spBits (s : State) (p : Nat) : Nat :=
  let c := fabReg s (0x2000 + 0x20 * p)
  if p < 4 then 10 + b2n (bits c 27 26 != 0) + b2n (bit c 25) else if p < 8 then 8 else 9

/-- The next byte of an enabled port that is not shifting goes out; after a NACK the rest is discarded up to STOP. -/
def spShift (p : Nat) (s : State) : State :=
  let x := serialPort s p
  if !portReg s p ∨ regF s uFABRIC 0 (0x2000 + 0x20 * p) 31 31 = 0 ∨ s.now < x.busyUntil then s
  else match x.tx with
  | [] => s
  | b :: r =>
    if x.discard then serialPut p { x with tx := r, discard := !bit b 9 } s
    else
      emit (.serial p b)
        (serialPut p { x with tx := r, busyUntil := s.now + spBits s p * regF s uFABRIC 0 (0x2000 + 0x20 * p) 23 0 * 10 } s)

/-- The fabric's part of a clock cycle: every serial port shifts, and every input filter looks at its pin. -/
def fabricTick (s : State) : State := coxClkTick <| filterTick (s.fabric.ports.foldl (fun s e => spShift e.1 s) s)

end Sys2Proof.Machine
end

