-- ==== Sys2Proof/Machine/Mesh.lean ====
section
/-!
DEFINITION. Packets on Weft: what a gateway needs to send one, the routers' choice of outputs, their arbitration, and the
arrival at a gateway (15_weft_network.md, R515 to R530, R536 to R538).
-/
namespace Sys2Proof.Machine
open Sys2Proof

/-- Flits of a payload of `n` bytes (Packets). -/
def flitsFor (n : Nat) : Nat := if n ≤ 48 then 1 else 1 + ceilDiv (n - 48) 64

/-- Flits of a packet: only WRITE_REQ, READ_RSP and MSG carry LEN bytes of payload. -/
def headFlits (h : WeftHead) : Nat :=
  match h.kind with
  | .readReq => 1
  | .writeRsp => 1
  | _ => flitsFor h.len.toNat

/-- Flits of the largest response a packet can produce, none for a message or a response. -/
def answerFlits (h : WeftHead) : Nat :=
  match h.kind with
  | .readReq => flitsFor h.len.toNat
  | .writeReq => 1
  | _ => 0

/-- A packet is a response. -/
def isResponse (h : WeftHead) : Bool := h.kind == .readRsp || h.kind == .writeRsp

/-- Response space of a gateway already reserved. -/
def reservedAt (s : State) (n : Nat) : Nat := sumL ((router s n).reserved.map (·.2))

/-- A source gateway may send a packet now: it holds credits for every flit of a request or message (R521), its response buffer
has room for the largest response (R522), its router accepts a head (R529), and for class 0 its bucket holds 64 bytes a
flit (R538). -/
def maySend (s : State) (h : WeftHead) : Bool :=
  let n := headFlits h
  (isResponse h || spentAt s h.dst h.src + n ≤ window s h.dst h.src) &&
    (answerFlits h == 0 || reservedAt s h.src + answerFlits h ≤ 1024) && available_ s h.src &&
    (h.vc != 0 || (router s h.src).debt + 64000 * n ≤ 1000 * (shaper s h.src).2)

/-- What sending spends: credits (R521), response space (R522) and the bucket's bytes (R538). -/
def spendFor (h : WeftHead) (s : State) : State :=
  let n := headFlits h
  let s := if isResponse h then s else spentPut h.dst h.src (spentAt s h.dst h.src + n) s
  let x := router s h.src
  let kept := if answerFlits h = 0 then x.reserved else spSet 0 x.reserved h.tag.toNat (answerFlits h)
  routerPut h.src { x with reserved := kept, debt := x.debt + if h.vc = 0 then 64000 * n else 0 } s

/-- What an uncorrectable error in a body flit leads to at the packet's gateway (R516): a write is answered UNCORRECTABLE, in the VC
of responses, and a response still awaited returns a bus error to its initiator. -/
def bodyError (h : WeftHead) (s : State) : State :=
  if !h.bodyBad then s
  else if isResponse h then
    (if (spFind (router s h.dst).reserved h.tag.toNat).isSome then emit (.weft h.dst "bus-error" (leBytes 2 h.tag.toNat)) s else s)
  else if h.kind = .writeReq then
    let vc := if h.vc = 0 then 0 else if h.vc = 3 then 3 else 2
    emit (.weft h.src "write-rsp" ([BitVec.ofNat 8 (h.src + vc * 64), BitVec.ofNat 8 h.dst, 4, 2] ++ zeros 2 ++
      leBytes 2 h.tag.toNat ++ zeros 8)) s
  else s

/-- A head flit at its gateway (R516, R522, R524, R536, R537): a response is taken and its space released, or discarded when its
request has timed out; a request or message is delivered, or waits in the request buffer for its domain. -/
def gatewayHead (h : WeftHead) (s : State) : State :=
  let dst := h.dst.val
  let s := bodyError h s
  if isResponse h then routerPut dst { router s dst with reserved := spDel (router s dst).reserved h.tag.toNat } s
  else
    (nodeDomains dst).foldl (fun s d =>
      match reach (some d) s with
      | (.wait, s) =>
        let x := router s dst
        cntBump (cntKey uWEFT dst 11) 1 (routerPut dst { x with held := spMod 0 x.held h.src (· + headFlits h) } s)
      | (_, s) => s) s

/-! ### Routers -/

/-- Change to the packets in the mesh. -/
def hopsPut (hs : List Hop) (s : State) : State := { s with weft := { s.weft with hops := hs } }

/-- Free flits of the buffer of a router's input port for a VC: 16, or VC3_DEPTH. -/
def freeFlits (s : State) (n inp vc : Nat) : Nat :=
  (if vc = 3 then regF s uWEFT n 0x004 15 8 else 16) -
    sumL ((s.weft.hops.filter fun h => h.node == n && h.inp == inp && h.head.vc == vc).map (·.here))

/-- Free credits that the neighbour at an output advertises for a VC. -/
def freeBeyond (s : State) (n out vc : Nat) : Nat :=
  match neighbour n out with
  | some m => freeFlits s m (entryPort out) vc
  | none => 0

/-- The neighbour at an output is seen available; the gateway always is. -/
def openOut (s : State) (n out : Nat) : Bool := out == 4 || (neighbour n out).any (available_ s)

/-- The set A of R526: minimal, legal, allowed and available directions of a head at router `n`, come in at port `inp`. -/
def directions (s : State) (n inp d : Nat) : List Nat :=
  (List.range 4).filter fun o =>
    bit (minimalMask n d) o && turnOk n inp o && bit (routeMask s n d) o && openOut s n o

/-- The direction of A with more free credits, E or W where the counts are equal (R526). -/
def bestDirection (s : State) (n vc : Nat) (a : List Nat) : Option Nat :=
  a.foldl (fun acc o => match acc with
    | none => some o
    | some b =>
      let f := freeBeyond s n o vc
      let g := freeBeyond s n b vc
      if g < f ∨ (f = g ∧ o % 2 = 1) then some o else some b) none

/-- The output of a head flit (R525, R526), none while A is empty. -/
def chooseOut (s : State) (h : Hop) : Option Nat :=
  if h.node = h.head.dst then some 4
  else if h.head.vc = 0 then some (xyOut h.node h.head.dst)
  else bestDirection s h.node h.head.vc (directions s h.node h.inp h.head.dst)

/-- A head that has no output yet, or whose chosen neighbour no longer accepts one, chooses; another keeps its own (R527,
R530). -/
def routeHop (s : State) (h : Hop) : Hop :=
  if h.sent = 0 ∧ !(h.out.any (openOut s h.node)) then { h with out := chooseOut s h } else h

/-- Every head's choice, the cycles in which one waited with A empty counted in ADAPT_WAIT. -/
def routeHeads (s : State) : State :=
  let hs := s.weft.hops.map (routeHop s)
  (hs.filter fun h => h.out.isNone).foldl (fun s h => cntBump (cntKey uWEFT h.node 7) 1 s) (hopsPut hs s)

/-- A packet's next flit can cross an output now: it is there, its head's router beyond is available (R529, R530), and the
buffer beyond has room. -/
def canCross (s : State) (h : Hop) (out : Nat) : Bool :=
  h.out == some out && 0 < h.here && (0 < h.sent || openOut s h.node out) &&
    (out == 4 || 0 < freeBeyond s h.node out h.head.vc)

/-- The packet whose flit a VC offers an output: the one begun there, which is not interleaved with another, else the one whose
head arrived first, in port order where two arrived together (R520). -/
def offered (s : State) (n out vc : Nat) : Option Hop :=
  let mine := s.weft.hops.filter fun h => h.node == n && h.out == some out && h.head.vc == vc
  match mine.find? fun h => 0 < h.sent with
  | some h => if canCross s h out then some h else none
  | none => (sortBy (fun h => 8 * h.seen + h.inp) (mine.filter fun h => canCross s h out)).head?

/-- The order in which an output serves VC1 to VC3: 2 : 2 : 1 (R519). -/
def turns : List Nat := [1, 2, 1, 2, 3]

/-- The flit an output sends in a cycle (R519): VC0 when one is ready, else the next ready VC in the round robin, with where it
then stands. -/
def arbitrate (s : State) (n out : Nat) : Option (Hop × Nat) :=
  let at_ := spGet 0 (router s n).turn out
  match offered s n out 0 with
  | some h => some (h, at_)
  | none => (List.range 5).findSome? fun k =>
    let j := (at_ + k) % 5
    (offered s n out (turns.getD j 1)).map fun h => (h, (j + 1) % 5)

/-- A packet's part in a router after one of its flits has left it: gone with the last one. -/
def leaveHop (h : Hop) : List Hop :=
  if headFlits h.head ≤ h.sent + 1 then [] else [{ h with here := h.here - 1, sent := h.sent + 1 }]

/-- The flit taken from its router and put into the next one in the Weft cycle `at_`, where a head opens a new part. -/
def moveFlit (at_ : Nat) (h : Hop) (out : Nat) (hs : List Hop) : List Hop :=
  let left := hs.flatMap fun x => if x.id = h.id ∧ x.node = h.node then leaveHop x else [x]
  match neighbour h.node out with
  | none => left
  | some m =>
    if h.sent = 0 then left ++ [{ id := h.id, head := h.head, node := m, inp := entryPort out, seen := at_, here := 1 }]
    else left.map fun x => if x.id = h.id ∧ x.node = m then { x with here := x.here + 1 } else x

/-- A head flit spoilt by an injected fault on an output: the packet is discarded (R516, R645). -/
def spoilt (h : WeftHead) (i : Injection) (s : State) : State :=
  linkUe ((neighbour i.target i.sub).getD i.target) (entryPort i.sub) h.src h.dst h.vc
    { s with power := { s.power with injections := s.power.injections.erase i } }

/-- A flit crosses an output (R519): counted by VC, a VC0 head's wait kept in C0_WAIT_MAX; a head that leaves by LOCAL is at
its gateway, and one on an output with an injected fault takes its packet with it. -/
def sendFlit (n out : Nat) (h : Hop) (next : Nat) (s : State) : State :=
  let x := router s n
  let now := s.weft.cycles
  let hs := moveFlit (now + 1) h out s.weft.hops
  let s := cntBump (cntKey uWEFT n h.head.vc) 1 (hopsPut hs (routerPut n { x with turn := spSet 0 x.turn out next } s))
  let s := if h.head.vc = 0 ∧ h.sent = 0 ∧ cntGet s (cntKey uWEFT n 6) < now - h.seen then
      { s with counters := spSet 0 s.counters (cntKey uWEFT n 6) (satN 0xFFFFFFFF (now - h.seen)) } else s
  if h.sent ≠ 0 then s
  else match linkFault s n out with
  | some i => spoilt h.head i (hopsPut (s.weft.hops.filter fun x => x.id != h.id) s)
  | none => if out = 4 then gatewayHead h.head s else s

/-- The outputs that some packet wants. -/
def wanted (s : State) : List (Nat × Nat) := (s.weft.hops.filterMap fun h => h.out.map fun o => (h.node, o)).eraseDups

/-- Every output's flit of a cycle, all decided from the cycle's beginning. -/
def sendFlits (s : State) : State :=
  ((wanted s).filterMap fun e => (arbitrate s e.1 e.2).map fun c => (e, c)).foldl (fun t m =>
    sendFlit m.1.1 m.1.2 m.2.1 m.2.2 t) s

/-- A packet enters its router's LOCAL port: its head now, the other flits after it. -/
def inject (h : WeftHead) (s : State) : State :=
  { s with weft := { s.weft with
    packets := s.weft.packets + 1
    hops := s.weft.hops ++ [{ id := s.weft.packets, head := h, node := h.src, inp := 4, seen := s.weft.cycles, here := 1
                              behind := headFlits h - 1 }] } }

/-- The flits of packets already begun that follow from their gateways, one a cycle for each. -/
def followFlits (s : State) : State :=
  hopsPut (s.weft.hops.map fun h =>
    if 0 < h.behind ∧ 0 < freeFlits s h.node 4 h.head.vc then { h with here := h.here + 1, behind := h.behind - 1 } else h) s

/-- A source gateway puts in its oldest waiting packet of each VC that may be sent, when no other is entering and the LOCAL
port has room. -/
def enterWaiting (s : State) : State :=
  s.weft.waiting.foldl (fun t h =>
    let first := (t.weft.waiting.find? fun x => x.src == h.src && x.vc == h.vc) == some h
    let busy := t.weft.hops.any fun x => x.node == h.src && x.inp == 4 && 0 < x.behind
    if first && !busy && maySend t h && 0 < freeFlits t h.src 4 h.vc then
      inject h (spendFor h { t with weft := { t.weft with waiting := t.weft.waiting.erase h } })
    else t) s

/-- The neighbours' view of every router brought up to date (R529). -/
def showRouters (s : State) : State :=
  (s.weft.routers.filter fun e => e.2.hidden != (e.2.st != .run)).foldl (fun s e =>
    routerPut e.1 { router s e.1 with hidden := (router s e.1).st != .run } s) s

/-- One Weft cycle, 0.5 ns. -/
def meshCycle (s : State) : State :=
  let s := enterWaiting (followFlits (sendFlits (routeHeads s)))
  showRouters { s with weft := { s.weft with cycles := s.weft.cycles + 1 } }

/-- The shapers' buckets fill for a nanosecond, at RATE MB/s (R538). -/
def fillBuckets (s : State) : State :=
  (s.weft.routers.filter fun e => e.2.debt != 0).foldl (fun s e =>
    routerPut e.1 { router s e.1 with debt := (router s e.1).debt - (shaper s e.1).1 } s) s

/-- A nanosecond of Weft: two cycles while a packet is on its way or waits, and the neighbours' view of the routers. -/
def weftTick (s : State) : State :=
  let s := fillBuckets s
  if s.weft.hops = [] ∧ s.weft.waiting = [] then showRouters s else meshCycle (meshCycle s)

/-- No packet is in the mesh and no router is out of service, so that a packet meets nothing on its way. -/
def meshClear (s : State) : Bool :=
  s.weft.hops.isEmpty && s.weft.routers.all fun e => e.2.st == .run && !e.2.hidden

/-- The routers and outputs of a packet's way through a clear mesh, at most 15; none where it would wait with A empty. -/
def clearPath (s : State) (h : WeftHead) : Nat → Nat → Nat → Option (List (Nat × Nat))
  | 0, _, _ => none
  | k + 1, n, inp =>
    match chooseOut s { id := 0, head := h, node := n, inp := inp, seen := 0, here := 1 } with
    | none => none
    | some o => match neighbour n o with
      | some m => (clearPath s h k m (entryPort o)).map ((n, o) :: ·)
      | none => some [(n, o)]

/-- A packet sent along its way, its flits counted at each router, to its gateway, or to an output with an injected fault. -/
def along (h : WeftHead) : List (Nat × Nat) → State → State
  | [], s => gatewayHead h s
  | (n, o) :: r, s =>
    let s := cntBump (cntKey uWEFT n h.vc) (headFlits h) s
    match linkFault s n o with
    | some i => spoilt h i s
    | none => along h r s

/-- A packet is sent and its head flit reaches its gateway, or is lost on the way (R516, R521, R536, R537). It waits at its
source gateway while it may not be sent (R521, R522, R530, R538); where it meets other packets or a router out of service it
goes from router to router in the cycles that follow. `bad` names the router and input port at which an uncorrectable error
is found, `good` one at which a correctable error is corrected. -/
def headFlit (h : WeftHead) (bad good : Option (Nat × Nat)) (s : State) : State :=
  let s := match good with
    | some (n, p) => linkCe n p s
    | none => s
  if !maySend s h || s.weft.waiting.any fun x => x.src == h.src && x.vc == h.vc then
    { s with weft := { s.weft with waiting := s.weft.waiting ++ [h] } }
  else
    let s := spendFor h s
    match bad with
    | some (n, p) => linkUe n p h.src h.dst h.vc s
    | none => match (if meshClear s then clearPath s h 15 h.src 4 else none) with
      | some way => along h way s
      | none => inject h s

end Sys2Proof.Machine
end

