-- ==== Sys2Proof/Machine/Audio.lean ====
section
/-!
DEFINITION. The audio bridge: groups, blocks, legs, parameter descriptors and headset ports (10_audio_bridge.md, R345 to
R384).
-/
namespace Sys2Proof.Machine
open Sys2Proof

/-- OBJ_SET's check of a bridge group body (R347). A body is a multiple of 4 bytes (R59). -/
def bridgeCheck (b : Bytes) : Nat :=
  let n := fld b 9 1
  need (16 ≤ b.length && b.length == 16 + roundUp (2 * n) 4 && fld b 0 2 ≤ 768 && 1 ≤ fld b 2 2 && fld b 2 2 ≤ 4096 &&
    fld b 8 1 < 2 && (if fld b 8 1 = 1 then 1 ≤ n && n ≤ 15 else n == 0) && rsv b 10 6 &&
    (bridgeRemotes b).all (· < 4096) && allZero (b.drop (16 + 2 * n))) stBAD_PARAM

/-- Bytes of jitter buffer of a group (R348). -/
def bridgePool (b : Bytes) : Nat := fld b 2 2 * 49152

/-- The state and admission checks of a group's START (R348, R205, R206). -/
def bridgeAdmit (s : State) (id : Nat) (o : Object) : Nat :=
  let b := o.body
  firstFail [need (s.cox.st != .unset) stTIME_UNSET, need (ledgerOk s (fld b 0 2)) stADMISSION_REFUSED,
    need (sumL ((activeOf s 4 1).map fun e => fld e.2.body 2 2) + fld b 2 2 ≤ 4096) stNO_RESOURCE,
    need (poolFree s (bridgePool b)) stNO_RESOURCE, need (taskRoom s (id, o)) stNO_RESOURCE,
    need (c0Admit s (functionC0 id b) && bupexAdmit s id b) stADMISSION_REFUSED]

/-- An admitted group begins to start. -/
def bridgeBegin (id : Nat) (s : State) : State :=
  match objFind s id with
  | none => s
  | some o =>
    audioGroupPut (id % 0x10000) { admitted := shortNow s }
      (taskTake (id, o) (c0Set id (functionC0 id o.body) (objPut id { o with pool := bridgePool o.body } s)))

/-- GROUP_SPLIT of a running group that spans unreachable devices (R372). -/
def splitEvent (g : Nat) (devs : List Nat) (s : State) : State :=
  let gone := (bridgeRemotes (bridgeBody s g)).filter devs.contains
  if isRunning s (bridgeObj g) && bridgeSpan s g && gone != [] then
    raiseLim second g 0x2405 uAUDIO g 1 (leBytes 2 (min 7 gone.length) ++ (gone.take 7).flatMap (leBytes 2)) s
  else s

/-- An admitted group reaches RUNNING (R349); one that reaches it while the system is partitioned is split (R372). -/
def bridgeRunning (g : Nat) (s : State) : State :=
  match objFind s (bridgeObj g) with
  | some o =>
    if o.st = some .starting ∧ ceilDiv ((audioGroup s g).admitted + 2000000) 1000000 * 1000000 ≤ shortNow s then
      splitEvent g ((s.audio.cut.filter fun c => c.2.isNone).map (·.1)) (reachRunning (bridgeObj g) s)
    else s
  | none => s

/-- Both key slots of a leg cleared (R312, R377). -/
def legKeysClear (l : Nat) (s : State) : State :=
  { s with keys := spDel (spDel s.keys (131072 + 2 * l)) (131073 + 2 * l) }

/-- A leg to be removed at the next block not yet begun (R350, R376). -/
def legRemove (l : Nat) (s : State) : State :=
  match legFind s l with
  | none => s
  | some x =>
    audioMod (fun (a : Audio) => { a with pend := a.pend.filter fun p => p.leg != l })
      (legKeysClear l (legPut l { x with stopAt := some (nextBlock s) } s))

/-- Legs of a group, by rising number. -/
def legsOf (s : State) (g : Nat) : List (Nat × Leg) := s.audio.legs.filter fun e => e.2.group == g

/-- Every packet of a queue dequeued and freed. -/
def drainQueue (q : Nat) : Nat → State → State
  | 0, s => s
  | n + 1, s =>
    match dequeue q s with
    | (some h, s) => drainQueue q n (pktFree h s)
    | (none, s) => s

/-- STOP of a group (R350). -/
def bridgeStopping (id : Nat) (s : State) : State :=
  match objFind s id with
  | none => s
  | some o =>
    let q := fld o.body 4 2
    drainQueue q (queue s q).items.length ((legsOf s (id % 0x10000)).foldl (fun s e => legRemove e.1 s) s)

/-- A stopping group without legs reaches STOPPED (R65, R350). -/
def bridgeStopped (g : Nat) (s : State) : State :=
  let id := bridgeObj g
  match objFind s id with
  | none => s
  | some o =>
    if o.st ≠ some .stopping ∨ legsOf s g ≠ [] then s
    else
      let s := audioMod (fun (a : Audio) => { a with groups := spDel a.groups g }) (objPut id { o with pool := 0 } s)
      reachStopped id (c0Set id [] (taskGive id s))

/-- A frame taken from a group's IN_Q (R345, R346, R351). -/
def inputFrame (g : Nat) (s : State) : State :=
  if !isRunning s (bridgeObj g) then s
  else
    let q := fld (bridgeBody s g) 4 2
    match takePacket (unitInit uAUDIO 0) q s with
    | (none, s) => s
    | (some d, s) =>
      let r := fld d 10 1
      let cnt := fld d 12 2
      let l := fld d 8 2 % 4096
      let ok := 32 ≤ d.length && fld d 8 2 < 4096 && r < 6 && fld d 11 1 < 2 && 1 ≤ cnt && cnt ≤ maxCount r &&
        fld d 14 1 < 4 && rsv d 15 17 && d.length == 32 + cnt * (if fld d 11 1 = 0 then 2 else 4)
      match legFind s l with
      | some x => if ok && x.group == g && x.source == 0 then placeFrame l x d s else legCount l 12 1 s
      | none => legCount l 12 1 s

/-! ### Blocks -/

/-- A group takes part in a block: RUNNING, or STOPPING with legs left. -/
def groupLive (s : State) (g : Nat) : Bool :=
  (objFind s (bridgeObj g)).any fun o => o.st == some .running || o.st == some .stopping

/-- Microphone samples of the last millisecond put into the legs whose source is a headset port: zero while muted or
while a button reads pressed (R381). -/
def placeMics (b : Nat) (mics : List (List Int)) (s : State) : State :=
  s.audio.legs.foldl (fun s e =>
    let x := e.2
    if x.source ≠ 1 ∧ x.source ≠ 2 then s
    else
      let p := x.source - 1
      let quiet := regF s uHSP p 0x004 0 0 == 1 || regF s uHSP p 0x000 19 16 != 0
      let vs := (List.range 48).map fun k => if quiet then 0 else satS 24 ((mics.getD p []).getD k 0)
      let n0 := 48 * (b - 1) + x.p.playout * 48 / 1000
      let (_, _, m) := bufFill (48 * b) n0 vs x.buf
      legPut e.1 { x with buf := m, heard := true } s) s

/-- A leg computed in block `b`: its samples, the leg, its counts. -/
def legBlock (b l : Nat) (silent : Bool) (x : Leg) (s : State) : List MixSample × State :=
  if b < x.start ∨ x.stopAt.any (· ≤ b) then ([], s)
  else if silent then ((List.range 48).map fun k => { n := 48 * b + k, v := 0, p := x.p }, s)
  else
    let ps := s.audio.pend
    let (ms, y, c) := chainRun ps l 48 (48 * b) x {}
    let y := { y with buf := y.buf.filter fun e => 48 * (b + 1) ≤ e.1 + 12288 }
    let s := legPut l y (audioMod (fun (a : Audio) => { a with
      pend := a.pend.filter fun p => !(p.leg == l && p.time ≤ sampleNs (48 * b + 47)) }) s)
    let s := legCount l 5 c.sat (legCount l 3 c.gap s)
    (ms, if c.gap = 0 then s else audioLate l s)

/-- The sum of the contributions of a group's legs at each sample (R362). -/
def sumOf (l : List (List MixSample)) : List Int :=
  (List.range 48).map fun k =>
    l.foldl (fun acc ms => match ms[k]? with
      | some m => if m.p.contribute then acc + m.v else acc
      | none => acc) 0

/-- A device's sub-sums count in block `b` (R372). -/
def subCounts (s : State) (dev b : Nat) : Bool :=
  match s.audio.cut.find? (·.1 == dev) with
  | some (_, some from_) => from_ ≤ b
  | some (_, none) => false
  | none => true

/-- Whether a spanning group is split (R372). -/
def groupSplit (s : State) (g b : Nat) : Bool :=
  bridgeSpan s g && (bridgeRemotes (bridgeBody s g)).any fun d => !subCounts s d b

/-- The presentation time of an output sample (R356). -/
def presentAt (s : State) (g n delay : Nat) : Nat :=
  sampleNs n + 1500000 + delay * 62500 / 3 + (if bridgeSpan s g then 1000000 else 0)

/-- An output sample presented at its leg's jack, which is muted by MUTE_OUT and while an accessory is being detected
(R356, R379). -/
def presentSample (x : Leg) (n delay : Nat) (v : Int) (s : State) : State :=
  let p := x.sink - 1
  let quiet := regF s uHSP p 0x004 1 1 == 1 || regF s uHSP p 0x000 30 28 == 6
  emit (.hsp p (presentAt s x.group n delay) [if quiet then 0 else v]) s

/-- The output frame of a leg finished and written to OUT_Q; a leg without a sink has none (R356, R373). -/
def sendFrame (l : Nat) (x : Leg) (split : Bool) (s : State) : State :=
  let body := bridgeBody s x.group
  let t := presentAt s x.group x.accAt x.accDelay
  if x.sink = 0 then
    let h := leBytes 8 t ++ leBytes 2 l ++ leBytes 2 x.group ++ leBytes 2 x.acc.length ++
      [BitVec.ofNat 8 (b2n x.limiting + 2 * b2n (x.acc.all (· == 0)) + 4 * b2n split)] ++ zeros 17
    match unitSend .unit (fld body 6 2) (h ++ x.acc.flatMap fun v => leBytes 4 (ofS 32 v)) (unitInit uAUDIO 0) s with
    | (some _, s) => legCount l 7 1 s
    | (none, s) =>
      let s := legCount l 8 1 s
      if audioFrozen s then s else raiseLim second l 0x2402 uAUDIO 0 1 (leBytes 2 l ++ zeros 2 ++ legCnt s l 8) s
  else s

/-- Output samples of a leg presented at its jack one by one, or put into frames on the block grid (R356, R373). -/
def assemble (l : Nat) (split : Bool) : List (Nat × Nat × Int × Bool) → State → State
  | [], s => s
  | (n, delay, y, lim) :: r, s =>
    match legFind s l with
    | none => s
    | some x =>
      let s := if lim then legCount l 9 1 s else s
      if x.sink = 1 ∨ x.sink = 2 then assemble l split r (presentSample x n delay y s)
      else
      let x := if n % x.frame = 0 then { x with acc := [], accAt := n, accDelay := delay, limiting := false } else x
      if n % x.frame ≠ 0 ∧ (x.acc = [] ∨ n ≠ x.accAt + x.acc.length) then assemble l split r s
      else
        let x := { x with acc := x.acc ++ [y], limiting := x.limiting || lim }
        if x.acc.length = x.frame then
          assemble l split r (legPut l { x with acc := [], limiting := false } (sendFrame l x split s))
        else assemble l split r (legPut l x s)

/-- A leg's output after its group's sum of block `m` is formed: the values ahead of the limiter, the limiter, and the
frames (R355, R363 to R365, R373). A leg removed at block `b` gives what remains; a block not computed gives zeros
(R357). -/
def legOutput (b l : Nat) (m : Nat) (silent : Bool) (sum : List Int) (ms : List MixSample) (s : State) : State :=
  match legFind s l with
  | none => s
  | some x =>
    let vs := ms.map fun q => { q with v := if silent then 0 else outValue s m sum q }
    let line := x.line ++ vs
    let gone := x.stopAt.any (· ≤ b)
    let k := if gone then line.length else x.line.length
    let (ys, g) := limitRun k line x.g
    let s := legPut l { x with line := line.drop k, g := g } s
    let s := assemble l (groupSplit s x.group m) ys s
    if gone then
      { s with audio := { s.audio with legs := spDel s.audio.legs l, pend := s.audio.pend.filter fun p => p.leg != l } }
    else s

/-- A group's sum put among those formed. -/
def formed (g b : Nat) (sum : List Int) (s : State) : State :=
  let x := audioGroup s g
  audioGroupPut g { x with sums := (b, sum) :: x.sums.take 1 } s

/-- A group that does not span computed in block `b`. -/
def localGroup (b g : Nat) (silent : Bool) (s : State) : List (Nat × List MixSample) × State :=
  (legsOf s g).foldl (fun (acc : List (Nat × List MixSample) × State) e =>
    let (ms, s) := legBlock b e.1 silent e.2 acc.2
    (acc.1 ++ [(e.1, ms)], s)) ([], s)

/-- The total of a spanning group's held block: local sum and the sub-sums received (R371). -/
def spanTotal (g m : Nat) (loc : List Int) (s : State) : List Int × State :=
  let x := audioGroup s g
  let devs := (bridgeRemotes (bridgeBody s g)).filter fun d => subCounts s d m
  let late := devs.filter fun d => (x.subs.find? fun e => e.1 == d && e.2.1 == m).isNone
  let sums := x.subs.filter fun e => devs.contains e.1 && e.2.1 == m
  let tot := (List.range 48).map fun k => sums.foldl (fun a e => a + e.2.2.getD k 0) (loc.getD k 0)
  let s := audioGroupPut g { x with subs := x.subs.filter fun e => m < e.2.1 } s
  (tot, (legsOf s g).foldl (fun s e => legCount e.1 13 late.length s) s)

/-- One group of one block, its sums formed: the legs' output still to come, as group, block and samples. -/
def groupBlock (b g : Nat) (silent : Bool) (s : State) : Option (Nat × List (Nat × List MixSample)) × State :=
  let (ls, s) := localGroup b g silent s
  let loc := sumOf (ls.map (·.2))
  if bridgeSpan s g then
    let x := audioGroup s g
    let prev := (legsOf s g).map fun e => (e.1, e.2.held)
    let s := (bridgeRemotes (bridgeBody s g)).foldl (fun s d =>
      sendTo d 0 "sub-sum" (leBytes 2 g ++ leBytes 8 (b * 1000000)) (loc.flatMap fun v => leBytes 8 (ofS 64 v)) s) s
    let s := ls.foldl (fun s e => match legFind s e.1 with
      | some y => legPut e.1 { y with held := e.2 } s
      | none => s) s
    match x.local_ with
    | some (m, old) =>
      let (tot, s) := spanTotal g m old s
      let s := formed g m tot s
      (some (m, prev), audioGroupPut g { audioGroup s g with local_ := some (b, loc) } s)
    | none => (none, audioGroupPut g { audioGroup s g with local_ := some (b, loc) } s)
  else (some (b, ls), formed g b loc s)

/-- The groups that may have legs, by rising index. -/
def liveGroups (s : State) : List Nat := ((objsOf s 4 1).map (·.1 % 0x10000)).filter (groupLive s)

/-- Block `b` computed (R355 to R365). -/
def computeBlock (b : Nat) (mics : List (List Int)) (silent : Bool) (s : State) : State :=
  let gs := liveGroups s
  let s := if silent then s else placeMics b mics s
  let (todo, s) := gs.foldl (fun (acc : List (Nat × Option (Nat × List (Nat × List MixSample))) × State) g =>
    let (t, s) := groupBlock b g silent acc.2
    (acc.1 ++ [(g, t)], s)) ([], s)
  let s := todo.foldl (fun s t => match t.2 with
    | some (m, ls) =>
      let sum := (((audioGroup s t.1).sums.find? fun e => e.1 == m).map (·.2)).getD []
      ls.foldl (fun s e => legOutput b e.1 m silent sum e.2 s) s
    | none => (legsOf s t.1).foldl (fun s e => legOutput b e.1 b silent [] [] s) s) s
  audioMod (fun (a : Audio) => { a with last := some b }) s

/-- BLOCK_COMPUTE: the block in progress, in the first 400 µs of it (R355); `took` is the time it took in 10 ns. -/
def blockCompute (mics : List (List Int)) (took : Nat) (s : State) : State :=
  let b := blockNow s
  if s.cox.st = .unset ∨ s.audio.last.any (fun m => b ≤ m) ∨ b * 1000000 + 400000 < shortNow s then s
  else
    let s := regPutF uAUDIO 0 0x008 15 0 (max took (regF s uAUDIO 0 0x008 15 0)) s
    computeBlock b mics false s

/-- A block not computed by B + 400 µs (R357). -/
def blockOverrun (s : State) : State :=
  let b := blockNow s
  if s.cox.st = .unset ∨ s.audio.last.any (fun m => b ≤ m) ∨ shortNow s < b * 1000000 + 400000 ∨ liveGroups s = [] then s
  else
    let s := computeBlock b [] true (regBump uAUDIO 0 0x008 31 16 1 s)
    raiseLim second 0xFFFF 0x2404 uAUDIO 0 2
      ([0xFF, 0xFF, 0, 0] ++ leBytes 4 (regF s uAUDIO 0 0x008 31 16) ++ leBytes 8 (b * 1000000)) s

/-- A remote sub-sum arrives (R371). -/
def subsumReceived (g dev t : Nat) (vs : List Int) (s : State) : State :=
  let x := audioGroup s g
  if !groupLive s g || !bridgeSpan s g || !(bridgeRemotes (bridgeBody s g)).contains dev then s
  else audioGroupPut g { x with subs := x.subs ++ [(dev, t / 1000000, vs)] } s

/-- Devices out of reach (R372): GROUP_SPLIT for each running group that spans one of them. -/
def audioPartition (devs : List Nat) (s : State) : State :=
  let s := audioMod (fun (a : Audio) => { a with
    cut := (a.cut.filter fun c => !devs.contains c.1) ++ devs.map fun d => (d, none) }) s
  (objsOf s 4 1).foldl (fun s e => splitEvent (e.1 % 0x10000) devs s) s

/-- Contact with devices has returned: their sub-sums count again from the first whole block (R372). -/
def audioRejoin (devs : List Nat) (s : State) : State :=
  let b := nextBlock s
  audioMod (fun (a : Audio) => { a with
    cut := a.cut.map fun c => if devs.contains c.1 then (c.1, some (c.2.getD b)) else c }) s

/-! ### Parameter descriptors and leg commands (R366 to R377) -/

/-- The time from which a descriptor takes effect, and whether it is late (R367). -/
def applyTime (s : State) (t : Nat) : Nat × Bool :=
  let next := nextBlock s * 1000000
  if t = 0 then (next, false)
  else if sampleAt t < 48 * nextBlock s then (next, true) else (t, false)

/-- The pending descriptors with one more, in order of arrival; a command's goes before the queue descriptors of its cycle
(R369). -/
def pendAdd (p : ParamPend) (l : List ParamPend) : List ParamPend :=
  let after := fun (q : ParamPend) => p.cmd && !q.cmd && q.came == p.came
  l.filter (fun q => !after q) ++ p :: l.filter after

/-- A descriptor put among the pending; `cmd` for LEG_PARAM. -/
def queueParam (cmd : Bool) (l : Nat) (d : Bytes) (s : State) : State :=
  let (t, late) := applyTime s (fld d 0 8)
  let s := audioMod (fun (a : Audio) => { a with
    pend := pendAdd { time := t, leg := l, data := d, came := s.now, cmd := cmd } a.pend }) s
  if late then legCount l 10 1 s else s

/-- A descriptor's APPLY lies no more than 10 s after the block in progress (R367). -/
def applyNear (s : State) (d : Bytes) : Bool := fld d 0 8 ≤ blockNow s * 1000000 + 10 * second

/-- A descriptor dropped (R370). -/
def paramDrop (l reason : Nat) (s : State) : State :=
  raiseLim second l 0x2403 uAUDIO 0 1 (leBytes 2 l ++ [BitVec.ofNat 8 reason]) (legCount l 11 1 s)

/-- A descriptor taken from AUDIO_PARAM_Q (R370). -/
def paramDescriptor (s : State) : State :=
  if regF s uAUDIO 0 0x004 31 31 = 0 then s
  else match takePacket (unitInit uAUDIO 0) (regF s uAUDIO 0 0x004 15 0) s with
  | (none, s) => s
  | (some d, s) =>
    let l := fld d 8 2 % 4096
    match legFind s l with
    | none => paramDrop l (if descWf 512 d && applyNear s d then 2 else 1) s
    | some x =>
      if !descWf x.group d || !applyNear s d then paramDrop l 1 s
      else if 1024 ≤ s.audio.pend.length then paramDrop l 3 s
      else queueParam false l d s

/-- The checks on a leg a command names (R374). -/
def legState (s : State) (l : Nat) : Nat :=
  match legFind s l with
  | none => 0x0402
  | some x => need (isRunning s (bridgeObj x.group)) stFUNCTION_STOPPED

/-- The checks of LEG_REMOVE and LEG_STATS. -/
def legCheck (s : State) (r : Request) : Nat :=
  firstFail [targetCheck s r uAUDIO 0, need (r.params.length == 8) stBAD_LENGTH,
    need (fld r.params 0 2 < 4096 && rsv r.params 2 6) stBAD_PARAM, legState s (fld r.params 0 2)]

/-- LEG_ADD (R374, R375, R383). -/
def legAddOp (r : Request) (s : State) : State :=
  let p := r.params
  let l := fld p 0 2
  let g := fld p 2 2
  let ports := ([fld p 4 1, fld p 5 1].filter fun k => k == 1 || k == 2)
  let busy := s.audio.legs.any fun e => ports.contains e.2.source || ports.contains e.2.sink
  runCmd 0x0440 r (firstFail [targetCheck s r uAUDIO 0, need (p.length == 16) stBAD_LENGTH,
      need (l < 4096 && g < 512 && fld p 4 1 < 4 && fld p 5 1 < 4 && fld p 6 1 < 5 && fld p 7 1 < 4 && fld p 8 4 ≤ 200000 &&
        (!(fld p 4 1 == 1 || fld p 4 1 == 2) || 1000 ≤ fld p 8 4) && rsv p 12 4) stBAD_PARAM,
      need (isRunning s (bridgeObj g)) stFUNCTION_STOPPED, need (legFind s l).isNone 0x0401,
      need ((legsOf s g).length < fld (bridgeBody s g) 2 2) 0x0403, need (!busy) 0x0404])
    (fun s =>
      let b := nextBlock s
      let x : Leg := { group := g, source := fld p 4 1, sink := fld p 5 1, frame := [48, 120, 240, 480, 960].getD (fld p 6 1) 48
                       p := { contribute := bit (fld p 7 1) 0, receive := bit (fld p 7 1) 1, playout := fld p 8 4 }
                       start := b }
      let s := (List.range 16).foldl (fun s k => cntZero (cntKey uAUDIO l k) s) s
      (stDONE, leBytes 8 (b * 1000000), legPut l x s)) s

/-- The input frames of a leg that wait in its group's IN_Q discarded; how many (R374). -/
def discardFrames (l : Nat) (s : State) : Nat × State :=
  let q := fld (bridgeBody s (((legFind s l).map (·.group)).getD 0)) 4 2
  let mine := fun h => fld (packetBytes s h) 8 2 == l
  let gone := (queue s q).items.filter mine
  let s := queuePut q { queue s q with items := (queue s q).items.filter fun h => !mine h } s
  (gone.length, gone.foldl (fun s h => pktFree h s) s)

/-- LEG_REMOVE (R374, R376). -/
def legRemoveOp (r : Request) (s : State) : State :=
  let l := fld r.params 0 2
  runCmd 0x0441 r (legCheck s r) (fun s =>
    let (n, s) := discardFrames l s
    (stDONE, leBytes 4 n, legRemove l s)) s

/-- LEG_PARAM (R376). -/
def legParamOp (r : Request) (s : State) : State :=
  let p := r.params
  let l := fld p 8 2
  let g := ((legFind s l).map (·.group)).getD 512
  runCmd 0x0442 r (firstFail [targetCheck s r uAUDIO 0, need (p.length == 64) stBAD_LENGTH,
      need (descWf g p && applyNear s p) stBAD_PARAM, legState s l, need (s.audio.pend.length < 1024) stNO_RESOURCE])
    (fun s => (stDONE, [], queueParam true l p s)) s

/-- LEG_STATS. -/
def legStatsOp (r : Request) (s : State) : State :=
  runCmd 0x0443 r (legCheck s r) (fun s =>
    (stDONE, (List.range 16).flatMap fun k => legCnt s (fld r.params 0 2) k, s)) s

/-- LEG_KEY_SET (R377). -/
def legKeyOp (r : Request) (s : State) : State :=
  let p := r.params
  let l := fld p 0 2
  let n := if fld p 3 1 = 0x10 then 16 else 32
  runCmd 0x0444 r (firstFail [need (r.transport == .pcie) stNOT_AUTHORISED, targetCheck s r uAUDIO 0,
      need (p.length == 56) stBAD_LENGTH,
      need (l < 4096 && fld p 2 1 < 2 && (fld p 3 1 == 0x10 || fld p 3 1 == 0x11) && rsv p 4 4 && rsv p 52 4) stBAD_PARAM,
      legState s l])
    (fun s =>
      let k := 131072 + 2 * l + fld p 2 1
      (stDONE, leBytes 4 k, { s with keys := spPut s.keys k { first := sub p 8 n, second := sub p 40 12 } })) s

/-- CLEAR_ALL (R383). -/
def audioClear (s : State) : State := cntZeroAll (fun k => k / 0x100000000 == uAUDIO) s

/-! ### Headset ports (R378 to R382) -/

/-- A headset port's state beyond its registers. -/
def hsp (s : State) (n : Nat) : Hsp := spGet {} s.hsp n
def hspPut (n : Nat) (x : Hsp) (s : State) : State := { s with hsp := spSet {} s.hsp n x }

/-- A bit of HSP_EVENTS set. -/
def hspEvent (n k : Nat) (s : State) : State := regPutF uHSP n 0x00C k k 1 s

/-- An insertion, reported once the plug state has been stable for INSERT_MS (R379). -/
def hspInsert (n stable : Nat) (s : State) : State :=
  if regF s uHSP n 0x000 31 31 = 1 ∨ stable < regF s uHSP n 0x008 31 24 then s
  else
    let s := wakeRequestBase 24 uHSP n (regPutF uHSP n 0x000 31 31 1 (regPutF uHSP n 0x000 30 28 6 s))
    hspEvent n 0 (hspPut n { inserted := some s.now } s)

/-- The accessory of what the port has measured (R379): the ear loads, R2 to S, the contact on S under bias with R2
grounded, and the contact on R2 with S grounded, all in ohms. -/
def accessory (t r1 short onS onR2 : Nat) : Nat :=
  let ears := fun (v : Nat) => 8 ≤ v && v ≤ 600
  let mic := fun (v : Nat) => 600 ≤ v && v ≤ 5000
  if ears t && ears r1 then
    (if short < 10 then 1 else if mic onS then 2 else if mic onR2 then 3 else 5)
  else if 5000 < t && 5000 < r1 then 4 else 5

/-- An ear load below 4 Ω (R382). -/
def hspFault (n contact load : Nat) (s : State) : State :=
  raiseLim second n 0x3204 uHSP n 1 ([BitVec.ofNat 8 contact, 0] ++ leBytes 2 (satN 0xFFFF load))
    (hspEvent n 3 (regPutF uHSP n 0x004 1 1 1 s))

/-- 15 ms after insertion the accessory is classified (R379, R382). -/
def hspDetect (n t r1 short onS onR2 : Nat) (s : State) : State :=
  match (hsp s n).inserted with
  | none => s
  | some at_ =>
    if regF s uHSP n 0x000 30 28 ≠ 6 ∨ s.now < at_ + 15000000 then s
    else
      let a := accessory t r1 short onS onR2
      let s := regPutF uHSP n 0x000 30 28 a s
      let s := raiseLim second n 0x3201 uHSP n 0 [BitVec.ofNat 8 a] s
      let s := if regF s uHSP n 0x004 5 5 = 1 ∧ !outputsOff s then
          let s := regPutF uHSP n 0x004 1 1 0 s
          if a = 2 ∨ a = 3 then regPutF uHSP n 0x004 0 0 0 s else s
        else s
      if t < 4 then hspFault n 0 t s else if r1 < 4 then hspFault n 1 r1 s else s

/-- A removal, reported once the plug state has been stable for REMOVE_MS (R378, R379); buttons that read pressed no longer
do (R380). -/
def hspRemove (n stable : Nat) (s : State) : State :=
  if regF s uHSP n 0x000 31 31 = 0 ∨ stable < regF s uHSP n 0x008 23 16 then s
  else
    let s := if regF s uHSP n 0x000 19 16 = 0 then s else raiseLim second n 0x3203 uHSP n 0 [0] (hspEvent n 2 s)
    let s := regPutF uHSP n 0x000 31 16 0 (regPutF uHSP n 0x004 1 0 3 s)
    raiseLim second n 0x3202 uHSP n 0 [] (hspEvent n 1 (hspPut n {} s))

/-- The button a resistance reads (R380): 0 for none, else its number plus one. -/
def buttonOf (v : Nat) : Nat :=
  if v ≤ 70 then 1 else if 110 ≤ v ∧ v ≤ 180 then 2 else if 210 ≤ v ∧ v ≤ 290 then 3 else if 360 ≤ v ∧ v ≤ 680 then 4 else 0

/-- The microphone contact measured (R380). -/
def micMeasure (n ohms : Nat) (s : State) : State :=
  let a := regF s uHSP n 0x000 30 28
  if (a ≠ 2 ∧ a ≠ 3) ∨ regF s uHSP n 0x004 4 4 = 0 then s
  else
    let s := regPutF uHSP n 0x000 15 0 (satN 0xFFFF ohms) s
    let k := buttonOf ohms
    let x := hsp s n
    if k ≠ x.reading then hspPut n { x with reading := k, since := s.now } s
    else
      let new := if k = 0 then 0 else 2 ^ (k - 1)
      if s.now < x.since + regF s uHSP n 0x008 15 8 * 1000000 ∨ regF s uHSP n 0x000 19 16 = new then s
      else raiseLim second n 0x3203 uHSP n 0 [BitVec.ofNat 8 new]
        (wakeRequestBase 24 uHSP n (hspEvent n 2 (regPutF uHSP n 0x000 19 16 new s)))

end Sys2Proof.Machine
end

