-- ==== Sys2Proof/Machine/Video.lean ====
section
/-!
DEFINITION. Video sessions, the compositor and ST 2110 (11_video_bridge.md, R385 to R399).
-/
namespace Sys2Proof.Machine
open Sys2Proof

/-- N and D of a RATE code. -/
def videoRate (c : Nat) : Nat × Nat :=
  [(24000, 1001), (24, 1), (25, 1), (30000, 1001), (30, 1), (50, 1), (60000, 1001), (60, 1)].getD c (60, 1)

/-- Frame boundary `k` of a rate (R385), the boundary in progress at a time, and the first at or after it. -/
def boundary (c k : Nat) : Nat := k * (videoRate c).2 * second / (videoRate c).1
def boundaryIdx (c t : Nat) : Nat := ceilDiv (t * (videoRate c).1) ((videoRate c).2 * second)
def boundaryFrom (c t : Nat) : Nat := boundary c (boundaryIdx c t)
def boundaryAt (c t : Nat) : Nat := boundary c (boundaryIdx c (t + 1) - 1)

/-- The frame period in nanoseconds, rounded down. -/
def framePeriod (c : Nat) : Nat := (videoRate c).2 * second / (videoRate c).1

/-- Video state with a change applied. -/
def videoMod (f : VideoState → VideoState) (s : State) : State := { s with video := f s.video }

/-- A session's object, body and run-time state. -/
def videoObj (k : Nat) : Nat := objId 4 2 k
def videoBody (s : State) (k : Nat) : Bytes := ((objFind s (videoObj k)).map (·.body)).getD []
def videoRun (s : State) (k : Nat) : VideoRun := spGet {} s.video.sessions k
def videoPut (k : Nat) (x : VideoRun) (s : State) : State :=
  videoMod (fun (v : VideoState) => { v with sessions := spSet {} v.sessions k x }) s

/-- Fields of a session body (R386). -/
def vKind (b : Bytes) : Nat := fld b 0 1
def vCodec (b : Bytes) : Nat := fld b 1 1
def vWidth (b : Bytes) : Nat := fld b 2 2
def vHeight (b : Bytes) : Nat := fld b 4 2
def vRate (b : Bytes) : Nat := fld b 6 1
def vSource (b : Bytes) : Nat := fld b 12 2
def vSpatial (b : Bytes) : Nat := fld b 14 1 % 4
def vTemporal (b : Bytes) : Nat := fld b 14 1 / 4 % 4
def vDelay (b : Bytes) : Nat := fld b 28 4 * 1000

/-- OBJ_SET's check of a session body (R386); the sizes and the depth of ST 2110 and of H.264 encoding are those of the
tables of the chapter. -/
def videoCheck (b : Bytes) : Nat :=
  let k := vKind b
  let enc := k == 1
  let st := 2 ≤ k
  let src := vSource b
  need (b.length == 64 && k < 4 && (if st then vCodec b == 0 else vCodec b ≤ 2) && 64 ≤ vWidth b && vWidth b ≤ 4096 &&
    vWidth b % 8 == 0 && 64 ≤ vHeight b && vHeight b ≤ 2304 && vHeight b % 8 == 0 && vRate b ≤ 7 &&
    (fld b 7 1 == 10 || (fld b 7 1 == 8 && !st)) && !(enc && vCodec b == 0 && fld b 7 1 == 10) &&
    (k == 0 || rsv b 8 2) && (if enc then fld b 10 2 ≤ 511 else rsv b 10 2) &&
    (if k = 1 ∨ k = 3 then (if bit src 15 then src < 0x8008 else src < 4096) else src == 0) &&
    (!enc || (1 ≤ vSpatial b && 1 ≤ vTemporal b && fld b 14 1 < 16 && 1 ≤ fld b 15 1 && fld b 15 1 ≤ 60 &&
      (List.range 3).all fun j => j < vSpatial b || rsv b (16 + 4 * j) 4)) &&
    fld b 28 4 ≤ 500000 && rsv b 35 1 && rsv b 38 2 && rsv b 44 4 &&
    (!st || (fld b 32 1 ≤ 47 && (k == 3 || fld b 33 1 ≤ 47 || fld b 33 1 == 0xFF) && 96 ≤ fld b 34 1 && fld b 34 1 ≤ 127 &&
      [(1280, 720), (1920, 1080), (3840, 2160)].contains (vWidth b, vHeight b)))) stBAD_PARAM

/-- A session's unit or port is absent from the part (R58, R389 step 1). -/
def videoAbsent (s : State) (b : Bytes) : Bool :=
  if vKind b < 2 then videoCount s.part == 0
  else (fld b 32 1 ≤ 48 && !unitPresent s.part uETH (fld b 32 1)) ||
    (vKind b == 2 && fld b 33 1 ≤ 48 && !unitPresent s.part uETH (fld b 33 1))

/-- Pixel-rate units of a picture format, its width and height divided by `d` (Admission). -/
def pixelUnits (w h c d : Nat) : Nat :=
  ceilDiv (16 * w * h * (videoRate c).1) (d * d * (videoRate c).2 * 1920 * 1080 * 60)

/-- Decode, encode and ST 2110 units of a session. -/
def decUnits (b : Bytes) : Nat := if vKind b = 0 then pixelUnits (vWidth b) (vHeight b) (vRate b) 1 else 0
def encUnits (b : Bytes) : Nat :=
  if vKind b = 1 then sumL ((List.range (vSpatial b)).map fun l => pixelUnits (vWidth b) (vHeight b) (vRate b) (2 ^ l)) else 0
def ioUnits (b : Bytes) : Nat := if 2 ≤ vKind b then pixelUnits (vWidth b) (vHeight b) (vRate b) 1 else 0

/-- Bytes of a session's picture buffers (R389). -/
def videoPool (b : Bytes) : Nat :=
  let deep := if fld b 7 1 = 10 then 2 else 1
  let pic := fun (d : Nat) => vWidth b / d * (vHeight b / d) * 3 / 2 * deep
  match vKind b with
  | 0 => 6 * pic 1
  | 1 => sumL ((List.range (vSpatial b)).map fun l => 4 * pic (2 ^ l))
  | 2 => 4 * (vWidth b * vHeight b * 4)
  | _ => 0

/-- The sessions whose costs are committed, by number. -/
def activeVideo (s : State) : List (Nat × Bytes) := (activeOf s 4 2).map fun e => (e.1 % 0x10000, e.2.body)

/-- An engine's placed decode and encode units. -/
def engineLoad (s : State) (n : Nat) : Nat × Nat :=
  let on := (activeVideo s).filter fun e => (videoRun s e.1).engine == some n
  (sumL (on.map fun e => decUnits e.2), sumL (on.map fun e => encUnits e.2))

/-- Room left on an engine in 1/128. -/
def engineRoom (s : State) (n : Nat) : Nat := 128 - ((engineLoad s n).1 + 2 * (engineLoad s n).2)

/-- The engine a session is placed on: the one with the most room that holds it whole (R389). -/
def placeVideo (s : State) (b : Bytes) : Option Nat :=
  let w := decUnits b + 2 * encUnits b
  ((List.range (videoCount s.part)).filter fun n => w ≤ engineRoom s n).foldl (fun acc n => match acc with
    | none => some n
    | some m => if engineRoom s m < engineRoom s n then some n else some m) none

/-- A layout's run-time state, and fields of a layout as LAYOUT_SET gives it. -/
def layoutRun (s : State) (k : Nat) : LayoutRun := spGet {} s.video.layouts k
def layoutPut (k : Nat) (x : LayoutRun) (s : State) : State :=
  videoMod (fun (v : VideoState) => { v with layouts := spSet {} v.layouts k x }) s
def layRate (l : Bytes) : Nat := fld l 1 1
def layTiles (l : Bytes) : Nat := fld l 3 1

/-- The layout that will be in force: the last waiting one, or the present one. -/
def layoutLast (x : LayoutRun) : Bytes := (x.waiting.getLast?.map (·.1)).getD x.cur

/-- A session's SOURCE runs and has the session's size and rate (R389 step 6). -/
def sourceOk (s : State) (b : Bytes) : Bool :=
  let src := vSource b
  if vKind b ≠ 1 ∧ vKind b ≠ 3 then true
  else if bit src 15 then
    let l := layoutLast (layoutRun s (src % 8))
    layTiles l != 0 && fld l 4 2 == vWidth b && fld l 6 2 == vHeight b && layRate l == vRate b
  else
    let o := videoBody s (src % 4096)
    isRunning s (videoObj (src % 4096)) && (vKind o == 0 || vKind o == 2) && vWidth o == vWidth b &&
      vHeight o == vHeight b && vRate o == vRate b

/-- The checks of a session's START in order (R389). -/
def videoAdmit (s : State) (b : Bytes) : Nat :=
  let act := activeVideo s
  let k := vKind b
  let dec := decUnits b + sumL (act.map fun e => decUnits e.2)
  let enc := encUnits b + sumL (act.map fun e => encUnits e.2)
  let io := ioUnits b + sumL ((act.filter fun e => vKind e.2 == k).map fun e => ioUnits e.2)
  firstFail [need (!(k < 2 && videoCount s.part == 0)) stUNIT_ABSENT, need (s.cox.st != .unset) stTIME_UNSET,
    need (2 ≤ k || dec + 2 * enc ≤ 1024) stADMISSION_REFUSED, need (2 ≤ k || (placeVideo s b).isSome) 0x0407,
    need (k < 2 || io ≤ 256) stADMISSION_REFUSED, need (sourceOk s b) 0x0408, need (poolFree s (videoPool b)) stNO_RESOURCE,
    need (k != 1 || act.all fun e => !(vKind e.2 == 1 && fld e.2 10 2 == fld b 10 2)) 0x0409]

/-- An admitted session begins to start. -/
def videoBegin (id : Nat) (s : State) : State :=
  match objFind s id with
  | none => s
  | some o =>
    let eng := if vKind o.body < 2 then placeVideo s o.body else none
    videoPut (id % 0x10000) { admitted := shortNow s, engine := eng } (objPut id { o with pool := videoPool o.body } s)

/-- An admitted session reaches RUNNING (R390). -/
def videoRunning (k : Nat) (s : State) : State :=
  match objFind s (videoObj k) with
  | some o =>
    if o.st = some .starting ∧ boundaryFrom (vRate o.body) ((videoRun s k).admitted + 2000000) ≤ shortNow s then
      reachRunning (videoObj k) s
    else s
  | none => s

/-- STOP of a session: it ends with the picture in progress (R390). -/
def videoStopping (id : Nat) (s : State) : State :=
  match objFind s id with
  | some o => videoPut (id % 0x10000) { videoRun s (id % 0x10000) with stopAt := boundaryFrom (vRate o.body) (shortNow s + 1) } s
  | none => s

/-- A session has a picture in progress (R390): one being decoded or received; an encoder and a sender are taken to have one
until the next frame boundary. -/
def pictureInProgress (s : State) (k : Nat) : Bool :=
  let x := videoRun s k
  x.decoding != [] || x.rx != [] || ((vKind (videoBody s k) == 1 || vKind (videoBody s k) == 3) && decide (shortNow s < x.stopAt))

/-- A stopping session reaches STOPPED once no picture is in progress (R65, R390). -/
def videoStopped (k : Nat) (s : State) : State :=
  let id := videoObj k
  match objFind s id with
  | none => s
  | some o =>
    if o.st ≠ some .stopping ∨ pictureInProgress s k then s
    else
      reachStopped id (videoMod (fun (v : VideoState) => { v with sessions := spDel v.sessions k }) (objPut id { o with pool := 0 } s))

/-- A session that runs, or finishes its picture in progress, of a kind. -/
def videoLive (s : State) (k kind : Nat) : Bool :=
  (objFind s (videoObj k)).any fun o => (o.st == some .running || o.st == some .stopping) && vKind o.body == kind

/-! ### Decode and encode -/

/-- A decoded picture whose damaged bytes are copied from the previous picture (R392); where there is no previous one they
stay as decoded. -/
def conceal (codec : Nat) (unit : Bytes) (discont : Bool) (prev data : Bytes) : Bytes :=
  data.mapIdx fun n v => if Config.damagedByte codec unit discont n then prev.getD n v else v

/-- An access unit taken from IN_Q (R392). A unit whose header does not name the session is dropped. -/
def accessUnit (k : Nat) (s : State) : State :=
  if !isRunning s (videoObj k) || vKind (videoBody s k) != 0 then s
  else
    let b := videoBody s k
    match takePacket (unitInit uVIDEO ((videoRun s k).engine.getD 0)) (fld b 8 2) s with
    | (none, s) => s
    | (some d, s) =>
      if d.length < 16 ∨ fld d 8 2 ≠ k ∨ 4 ≤ fld d 10 1 ∨ !rsv d 11 5 then s
      else
        let x := videoRun s k
        let clean := Config.decodesCleanly (vCodec b) (d.drop 16)
        let disc := bit (fld d 10 1) 1
        let bad := !clean || disc
        let unit := d.drop 16
        let prev := ((x.decoding ++ x.pictures).getLast?.map (·.data)).getD []
        let dmg := if clean && bit (fld d 10 1) 0 then false else x.damaged || bad
        let whole := Config.decodePicture (vCodec b) unit prev
        let pic : Picture := { time := fld d 0 8, elig := fld d 0 8 + vDelay b, damaged := x.damaged && dmg
                               data := if bad then conceal (vCodec b) unit disc prev whole else whole }
        let s := videoPut k { x with decoding := x.decoding ++ [pic], damaged := dmg } s
        if bad then
          let e := x.engine.getD 0
          let s := regBump uVIDEO e 0x004 31 16 1 s
          raiseLim second k 0x2501 uVIDEO e 1 (leBytes 2 k ++ zeros 2 ++ leBytes 4 (regF s uVIDEO e 0x004 31 16)) s
        else s

/-- A decode completes (R387, R391). -/
def pictureDecode (k : Nat) (s : State) : State :=
  let x := videoRun s k
  match x.decoding with
  | [] => s
  | p :: r =>
    if !videoLive s k 0 then s
    else
      let late := p.elig < shortNow s
      let p := if late then { p with elig := shortNow s } else p
      let ps := x.pictures ++ [p]
      let s := videoPut k { x with decoding := r, pictures := ps.drop (ps.length - 6) } s
      if late then
        let e := x.engine.getD 0
        let s := regBump uVIDEO e 0x004 15 0 1 s
        raiseLim second k 0x2502 uVIDEO e 1 (leBytes 2 k ++ zeros 2 ++ leBytes 4 (regF s uVIDEO e 0x004 15 0)) s
      else s

/-- The newest of the pictures eligible at a time. -/
def newestAt (t : Nat) (ps : List Picture) : Option Picture :=
  (ps.filter fun p => p.elig ≤ t).foldl (fun acc p => match acc with
    | none => some p
    | some q => if q.time ≤ p.time then some p else some q) none

/-- The picture a SOURCE offers now, if it is later than the last one used. -/
def sourcePicture (s : State) (src : Nat) (last : Option Nat) : Option Picture :=
  let ps := if bit src 15 then (layoutRun s (src % 8)).outs
    else if isRunning s (videoObj (src % 4096)) then (videoRun s (src % 4096)).pictures else []
  match newestAt (shortNow s) ps with
  | some p => if last.all fun t => t < p.time then some p else none
  | none => none

/-- The temporal layer of frame `j` (R400), no higher than the session has. -/
def temporalOf (j t : Nat) : Nat := min (t - 1) (if j % 4 = 0 then 0 else if j % 4 = 2 then 1 else 2)

/-- The packets of one encoded picture, by rising spatial layer (R400). -/
def framePackets (b : Bytes) (j : Nat) (key : Bool) (p : Picture) : List Bytes :=
  let t := temporalOf j (vTemporal b)
  let flags := 2 * b2n key + 4 * b2n (1 ≤ t) + 8 * b2n (vCodec b != 2 && 1 < vSpatial b)
  let raw := (List.range (vSpatial b)).flatMap fun l =>
    ((Config.encodePackets b p.data (4 * l + t + 16 * b2n key) j).filter fun e => e.1 != []).map fun e => (l, e)
  (List.range raw.length).filterMap fun i => (raw[i]?).map fun (l, e) =>
    let pay := e.1.take 1200
    let ext := if e.2 % 4 = 0 ∧ e.2 < pay.length then e.2 else 0
    leBytes 8 (p.time + vDelay b) ++ leBytes 2 (fld b 10 2) ++ leBytes 2 j ++ [BitVec.ofNat 8 (l + 4 * t),
      BitVec.ofNat 8 (flags + b2n (i + 1 == raw.length))] ++ leBytes 2 pay.length ++ leBytes 2 ext ++ zeros 14 ++ pay

/-- The 10-bit sample `n` of packed ST 2110-20 4:2:2 bytes, most significant bit first, in the order Cb, Y0, Cr, Y1. -/
def sample10 (d : Bytes) (n : Nat) : Nat :=
  bits ((d.getD (n * 10 / 8) 0).toNat * 256 + (d.getD (n * 10 / 8 + 1) 0).toNat) (15 - n * 10 % 8) (6 - n * 10 % 8)

/-- An ST 2110 picture as an encoder is given it (R387): 4:2:0, the chroma of each pair of lines averaged with truncation.
The planes Y, Cb and Cr follow one another, two bytes a sample. -/
def to420 (w h : Nat) (d : Bytes) : Bytes :=
  let at_ := fun (line n : Nat) => sample10 d (2 * w * line + n)
  let chroma := fun o => (List.range (h / 2)).flatMap fun y => (List.range (w / 2)).flatMap fun x =>
    leBytes 2 ((at_ (2 * y) (4 * x + o) + at_ (2 * y + 1) (4 * x + o)) / 2)
  ((List.range h).flatMap fun y => (List.range w).flatMap fun x => leBytes 2 (at_ y (2 * x + 1))) ++ chroma 0 ++ chroma 2

/-- The content of a source's picture as an encoder is given it. -/
def encoderInput (s : State) (src : Nat) (p : Picture) : Picture :=
  let o := videoBody s (src % 4096)
  if !bit src 15 && vKind o == 2 then { p with data := to420 (vWidth o) (vHeight o) p.data } else p

/-- The queue of a stream. -/
def streamQueue (s : State) (n : Nat) : Nat := regF s uFWD 0 0x000 15 0 + n

/-- An encode completes and its packets are written (R387, R391, R400). -/
def pictureEncode (k : Nat) (s : State) : State :=
  if !videoLive s k 1 then s
  else
    let b := videoBody s k
    let x := videoRun s k
    match sourcePicture s (vSource b) x.lastTime with
    | none => s
    | some p =>
      let key := x.wantKey || x.lastKey.all fun t => t + fld b 15 1 * second ≤ p.time
      let s := videoPut k { x with frame := x.frame + 1, wantKey := false, lastTime := some p.time
                                   lastKey := if key then some p.time else x.lastKey } s
      (framePackets b (x.frame % 65536) key (encoderInput s (vSource b) p)).foldl (fun s d =>
        (unitSend .unit (streamQueue s (fld b 10 2)) d (unitInit uVIDEO (x.engine.getD 0)) s).2) s

/-! ### Compositor (R393 to R396) -/

/-- A tile of a layout. -/
def tile (l : Bytes) (k : Nat) : Bytes := sub l (24 + 24 * k) 24

/-- The ranges of a tile: even values, inside the output, and the scaling limits. -/
def tileOk (l t : Bytes) : Bool :=
  let f := fun o => fld t o 2
  let fit1 := fun (src dst : Nat) => 0 < src && 0 < dst && src ≤ 8 * dst && dst ≤ 4 * src
  bits (f 0) 14 12 == 0 && fld t 2 1 < 64 && fld t 3 1 < 2 && rsv t 20 4 &&
    (!bit (f 0) 15 || (([4, 6, 8, 10, 12, 14, 16, 18].all fun o => f o % 2 == 0) && f 12 + f 16 ≤ fld l 4 2 &&
      f 14 + f 18 ≤ fld l 6 2 && fit1 (f 8) (f 16) && fit1 (f 10) (f 18)))

/-- The ranges of a layout (R393). -/
def layoutOk (l : Bytes) : Bool :=
  fld l 0 1 < 8 && layRate l ≤ 7 && (fld l 2 1 == 8 || fld l 2 1 == 10) && layTiles l ≤ 64 && 64 ≤ fld l 4 2 && fld l 4 2 ≤ 4096 &&
    fld l 4 2 % 8 == 0 && 64 ≤ fld l 6 2 && fld l 6 2 ≤ 2304 && fld l 6 2 % 8 == 0 && fld l 8 4 < 2 ^ 30 &&
    fld l 12 4 < 2 ^ 30 && (List.range (layTiles l)).all fun k => tileOk l (tile l k)

/-- Output units of a layout, none while it is disabled. -/
def layoutUnits (l : Bytes) : Nat := if layTiles l = 0 then 0 else pixelUnits (fld l 4 2) (fld l 6 2) (layRate l) 1

/-- The first output frame at or after a time whose composition has not begun (R396). -/
def nextFrame (s : State) (x : LayoutRun) (c t : Nat) : Nat :=
  boundaryFrom c (max (max t (shortNow s)) ((x.last.map (· + 1)).getD 0))

/-- The most output units a layout has, in force or waiting. -/
def layoutMost (x : LayoutRun) : Nat := ((x.cur :: x.waiting.map (·.1)).map layoutUnits).foldl max 0

/-- A layout put among the waiting ones, after those of its boundary and before (R396). -/
def addLayout (l : Bytes) (t : Nat) (ws : List (Bytes × Nat)) : List (Bytes × Nat) :=
  ws.filter (·.2 ≤ t) ++ (l, t) :: ws.filter fun e => t < e.2

/-- LAYOUT_SET (R393, R396, R414). DESIGN CHOICE: it does not need Cox time; in the time state UNSET (where the spec names no
TIME_UNSET for it, R8) it is accepted and its frame boundary reckoned from the time Cox shows (log 117). -/
def layoutSetOp (r : Request) (s : State) : State :=
  let l := r.params
  let k := fld l 0 1
  let x := layoutRun s k
  let old := layoutLast x
  let named := (activeVideo s).any fun e => (vKind e.2 == 1 || vKind e.2 == 3) && vSource e.2 == 0x8000 + k
  let others := sumL ((s.video.layouts.filter (·.1 != k)).map fun e => layoutMost e.2)
  runCmd 0x0450 r (firstFail [targetCheck s r uCOMPOSE 0,
      need (24 ≤ l.length && l.length == 24 + 24 * layTiles l) stBAD_LENGTH, need (layoutOk l) stBAD_PARAM,
      need (!(named && (sub old 1 2 != sub l 1 2 || sub old 4 4 != sub l 4 4))) stFUNCTION_RUNNING,
      need (others + layoutUnits l ≤ 128) stADMISSION_REFUSED])
    (fun s => (stDONE, leBytes 8 (nextFrame s x (layRate l) (fld l 16 8)),
      layoutPut k { x with waiting := addLayout l (nextFrame s x (layRate l) (fld l 16 8)) x.waiting } s)) s

/-- LAYOUT_GET. -/
def layoutGetOp (r : Request) (s : State) : State :=
  let k := fld r.params 0 1
  runCmd 0x0451 r (firstFail [targetCheck s r uCOMPOSE 0, need (r.params.length == 8) stBAD_LENGTH,
      need (k < 8 && rsv r.params 1 7) stBAD_PARAM]) (fun s =>
    let c := (layoutRun s k).cur
    (stDONE, if c = [] then BitVec.ofNat 8 k :: zeros 23 else c, s)) s

/-- The colour a tile gives a pixel of the output: none outside its RECT or without VALID; its 2-pixel BORDER lies inside the
tile; FILL stands where it has no picture (R393, R394). -/
def tilePixel (l t : Bytes) (src : Option (Bytes × Bytes)) (x y : Nat) : Option (BitVec 30) :=
  let f := fun o => fld t o 2
  if !bit (f 0) 15 || x < f 12 || f 12 + f 16 ≤ x || y < f 14 || f 14 + f 18 ≤ y then none
  else if bit (fld t 3 1) 0 && (x < f 12 + 2 || f 12 + f 16 ≤ x + 2 || y < f 14 + 2 || f 14 + f 18 ≤ y + 2) then
    some (BitVec.ofNat 30 (fld l 12 4))
  else match src with
  | none => some (BitVec.ofNat 30 (fld l 8 4))
  | some (body, data) => some (Config.scaledPixel body data t (x - f 12) (y - f 14))

/-- The colour of an output pixel: that of the covering tile with the highest Z, of equal ones the latest, over the
background FILL (R393). -/
def outputPixel (l : Bytes) (srcs : List (Option (Bytes × Bytes))) (x y : Nat) : BitVec 30 :=
  ((List.range (layTiles l)).foldl (fun acc i =>
    let t := tile l i
    match tilePixel l t (srcs.getD i none) x y with
    | some c => if acc.1 ≤ fld t 2 1 then (fld t 2 1, c) else acc
    | none => acc) (0, BitVec.ofNat 30 (fld l 8 4))).2

/-- An output picture, by lines, four bytes a pixel. -/
def composePicture (l : Bytes) (srcs : List (Option (Bytes × Bytes))) : Bytes :=
  (List.range (fld l 6 2)).flatMap fun y => (List.range (fld l 4 2)).flatMap fun x => leBytes 4 (outputPixel l srcs x y).toNat

/-- The waiting layouts whose frame has come put in force (R396). -/
def adoptLayouts (now : Nat) (x : LayoutRun) : LayoutRun :=
  let due := fun (e : Bytes × Nat) =>
    let b := boundaryAt (layRate e.1) now
    decide (e.2 ≤ b) && x.last.all fun m => m < b
  { x with cur := (((x.waiting.filter due).getLast?).map (·.1)).getD x.cur, waiting := x.waiting.filter fun e => !due e }

/-- A frame of a layout composed at its boundary (R394 to R396). -/
def composeFrame (k : Nat) (s : State) : State :=
  let now := shortNow s
  let x := adoptLayouts now (layoutRun s k)
  let l := x.cur
  let b := boundaryAt (layRate l) now
  if s.cox.st = .unset ∨ l = [] then s
  else if layTiles l = 0 ∨ x.last.any fun m => b ≤ m then layoutPut k x s
  else
    let pics := (List.range (layTiles l)).map fun i =>
      let src := fld (tile l i) 0 2
      if bit src 15 && isRunning s (videoObj (src % 4096)) then
        (newestAt b (videoRun s (src % 4096)).pictures).map fun p => (src % 4096, p)
      else none
    let used := pics.filterMap fun p => p.map fun e => (e.1, e.2.time)
    let reps := (used.filter x.used.contains).length
    let pic : Picture := { time := b, elig := b + framePeriod (layRate l)
                           data := composePicture l (pics.map fun p => p.map fun e => (videoBody s e.1, e.2.data)) }
    let outs := x.outs ++ [pic]
    regBump uCOMPOSE 0 0x004 31 0 reps
      (layoutPut k { x with last := some b, used := used, outs := outs.drop (outs.length - 4) } s)

/-! ### ST 2110 (R397 to R399) -/

/-- The count of the 90 kHz clock at a time, and the instant of a count. -/
def clock90 (t : Nat) : Nat := t * 9 / 100000
def instant90 (c : Nat) : Nat := ceilDiv (c * 100000) 9

/-- The Cox instant nearest to now whose 90 kHz count modulo 2^32 is `ts` (R397). -/
def rtpTime (now ts : Nat) : Nat :=
  let c := clock90 now
  let base := c / 2 ^ 32 * 2 ^ 32 + ts
  let near := fun (x : Nat) => if x < c then c - x else x - c
  let cand := [base, base + 2 ^ 32] ++ (if 2 ^ 32 ≤ base then [base - 2 ^ 32] else [])
  instant90 (cand.foldl (fun a x => if near x < near a then x else a) base)

/-- Bytes of a received picture's line. -/
def rxLineBytes (p : RxPicture) (line : Nat) : Nat :=
  sumL ((p.parts.filter fun e => e.1 / 16384 == line).map fun e => e.2.length)

/-- An ST 2110 packet (R397 to R399): which port it came on, its sequence number, RTP timestamp, SSRC and payload type,
and the line segments it carries as line, offset and bytes. -/
def st2110Packet (k port seq ts ssrc pt : Nat) (segs : List (Nat × Nat × Bytes)) (s : State) : State :=
  let b := videoBody s k
  let x := videoRun s k
  if !isRunning s (videoObj k) || vKind b != 2 || !(port == fld b 32 1 || port == fld b 33 1) || pt != fld b 34 1 ||
      (fld b 40 4 != 0 && fld b 40 4 != ssrc) || x.seqs.contains seq then s
  else
    let t := rtpTime (shortNow s) ts
    let x := { x with seqs := seq :: x.seqs.take 4095 }
    if t + vDelay b ≤ shortNow s ∨ x.pictures.any (fun p => p.time == t) then videoPut k x s
    else
      let p := (x.rx.find? fun p => p.time == t).getD { time := t }
      let parts := segs.foldl (fun m g => spPut m (g.1 * 16384 + g.2.1) g.2.2) p.parts
      videoPut k { x with rx := sortBy (·.time) ({ p with parts := parts } :: x.rx.filter fun p => p.time != t) } s

/-- The content of a received picture, its missing lines taken from the previous one, and how many they are. -/
def rxContent (b : Bytes) (p : RxPicture) (prev : Bytes) : Bytes × Nat :=
  let w := vWidth b * 5 / 2
  let miss := (List.range (vHeight b)).filter fun n => rxLineBytes p n < w
  ((List.range (vHeight b)).flatMap fun n =>
    if miss.contains n then sub prev (n * w) w
    else fit w ((p.parts.filter fun e => e.1 / 16384 == n).flatMap (·.2)), miss.length)

/-- A received picture becomes eligible (R387, R399). -/
def st2110Eligible (k : Nat) (s : State) : State :=
  let b := videoBody s k
  let x := videoRun s k
  match x.rx with
  | [] => s
  | p :: r =>
    if !videoLive s k 2 || shortNow s < p.time + vDelay b then s
    else
      let (d, miss) := rxContent b p ((x.pictures.getLast?.map (·.data)).getD [])
      let ps := x.pictures ++ [{ time := p.time, elig := p.time + vDelay b, data := d }]
      let loss := satN 0xFFFFFFFF (x.rxLoss + miss)
      let s := videoPut k { x with rx := r, pictures := ps.drop (ps.length - 4), rxLoss := loss } s
      if miss = 0 then s
      else raiseLim second k 0x2601 uFWD 0 1 (leBytes 2 k ++ zeros 2 ++ leBytes 4 loss) s

/-- A TX_2110 session sends a picture (R387). -/
def tx2110 (k : Nat) (s : State) : State :=
  if !videoLive s k 3 then s
  else
    let b := videoBody s k
    let x := videoRun s k
    match sourcePicture s (vSource b) x.lastTime with
    | none => s
    | some p =>
      let ts := clock90 (p.time + vDelay b) % 2 ^ 32
      emit (.eth (fld b 32 1) "st2110" (sub b 48 16 ++ leBytes 2 (fld b 36 2) ++ [BitVec.ofNat 8 (fld b 34 1)] ++ leBytes 4 ts ++
        leBytes 4 (fld b 40 4) ++ p.data)) (videoPut k { x with lastTime := some p.time } s)

end Sys2Proof.Machine
end

