-- ==== Sys2Proof/Machine/Forwarder.lean ====
section
/-!
DEFINITION. The layered forwarder: streams, legs, budgets, selection and egress (11_video_bridge.md, R400 to R416).
-/
namespace Sys2Proof.Machine
open Sys2Proof

/-- The forwarder with a change applied, its legs and its streams. -/
def fwdMod (f : Fwd → Fwd) (s : State) : State := videoMod (fun (v : VideoState) => { v with fwd := f v.fwd }) s
def fwdLeg (s : State) (l : Nat) : Option FwdLeg := spFind s.video.fwd.legs l
def fwdPut (l : Nat) (x : FwdLeg) (s : State) : State := fwdMod (fun (f : Fwd) => { f with legs := spPut f.legs l x }) s
def fwdStream (s : State) (n : Nat) : FwdStream := spGet {} s.video.fwd.streams n
def streamPut (n : Nat) (x : FwdStream) (s : State) : State :=
  fwdMod (fun (f : Fwd) => { f with streams := spSet {} f.streams n x }) s

/-- Fields of a leg (FWD_LEG_ADD). -/
def flStream (x : FwdLeg) : Nat := fld x.body 2 2
def flIp (x : FwdLeg) : Bool := fld x.body 4 1 == 1
def flFlag (x : FwdLeg) (k : Nat) : Bool := bit (fld x.body 7 1) k

/-- A counter of a leg raised unless FREEZE holds it, and its bytes. -/
def fwdCount (l k n : Nat) (s : State) : State :=
  if regF s uFWD 0 0x010 1 1 = 1 ∨ n = 0 then s else cntBump (cntKey uFWD l k) n s
def fwdCnt (s : State) (l k : Nat) : Bytes := leBytes 4 (cntGet s (cntKey uFWD l k))

/-- FWD_OUT_DROP, raised when OUT_DROP increments (R416): lost while FREEZE holds it. -/
def fwdDropEvent (l : Nat) (s : State) : State :=
  if regF s uFWD 0 0x010 1 1 = 1 then s else raiseLim second l 0x2602 uFWD 0 1 (leBytes 2 l ++ zeros 2 ++ fwdCnt s l 2) s

/-! ### Targets (R401, R404 to R407) -/

/-- The target a leg's budget gives: none when no layer qualifies (R406). A layer pair of which the last second held no packet
has the rate 0. -/
def computed (st : FwdStream) (x : FwdLeg) : Option (Nat × Nat) :=
  if x.suspect || x.stale then some (0, 0)
  else
    let mx := fld x.body 5 1
    let pairs := (List.range 3).flatMap fun a => (List.range 3).map fun t => (a, t)
    (pairs.filter fun p => p.1 ≤ mx % 4 && p.2 ≤ mx / 4 &&
      spGet 0 st.rates (4 * p.1 + p.2) * 100 ≤ x.budget * fld x.body 6 1).getLast?

/-- A target adopted. -/
def adopt (t : Nat × Nat) (now : Nat) (x : FwdLeg) : FwdLeg :=
  { x with tgt := t, cand := none, adoptAt := if t = x.tgt then x.adoptAt else now, asked := t == x.tgt && x.asked }

/-- The target recomputed and, when R407 allows, adopted. -/
def retarget (st : FwdStream) (now : Nat) (x : FwdLeg) : FwdLeg :=
  let hold := fld x.body 8 2 * 1000000
  match computed st x with
  | none => if flFlag x 1 then { x with paused := true, cand := none } else adopt (0, 0) now x
  | some t =>
    if t.1 < x.cur.1 ∨ t.2 < x.cur.2 ∨ t = x.cur then adopt t now x
    else if t = x.tgt then { x with cand := none }
    else match x.cand with
    | some (c, since) =>
      if c = t then (if since + hold ≤ now then adopt t now x else x)
      else if hold = 0 then adopt t now x else { x with cand := some (t, now) }
    | none => if hold = 0 then adopt t now x else { x with cand := some (t, now) }

/-- One record applied to a leg at its SLOT_TIME, or on arrival where that is later, and the target recomputed (R401, R406):
`t` is the present time and `now` the elapsed one. -/
def applyRec (t : Nat) (st : FwdStream) (now : Nat) (x : FwdLeg) (r : BudgetRec) : FwdLeg :=
  retarget st (max x.lastRec (now - (t - r.time)))
    { x with budget := r.budget, suspect := bit r.flags 1, suspended := x.suspended || bit r.flags 0 }

/-- Records whose SLOT_TIME has come applied to a leg in the order of that time (R401). -/
def applyRecs (t : Nat) (st : FwdStream) (now : Nat) (x : FwdLeg) : FwdLeg :=
  (sortBy (·.time) (x.recs.filter fun r => r.time ≤ t)).foldl (applyRec t st now)
    { x with recs := x.recs.filter fun r => t < r.time }

/-- Every leg brought up to the present time. -/
def fwdAdvance (s : State) : State :=
  let t := shortNow s
  fwdMod (fun (f : Fwd) => { f with legs := f.legs.map fun e => (e.1, applyRecs t (spGet {} f.streams (flStream e.2)) s.now e.2) }) s

/-- A leg's target recomputed in place. -/
def legRetarget (l : Nat) (s : State) : State :=
  match fwdLeg s l with
  | some x => fwdPut l (retarget (fwdStream s (flStream x)) s.now x) s
  | none => s

/-- A forecast record reaches a leg (R401, R404). -/
def recordFor (l : Nat) (d : Bytes) (s : State) : State :=
  let s := fwdAdvance s
  match fwdLeg s l with
  | none => s
  | some x =>
    let rate := if flFlag x 0 then fld d 16 4 else fld d 12 4
    let r : BudgetRec := { time := fld d 0 8, budget := rate * fld x.body 14 1 / 100, flags := fld d 11 1 }
    let s := fwdPut l { x with recs := x.recs ++ [r], lastRec := s.now, stale := false } s
    fwdAdvance (fwdCount l 7 1 (if x.stale then legRetarget l s else s))

/-- The legs a record names: HANDSET legs of a device, carrier and handset. -/
def legsNamed (s : State) (dev : Nat) (d : Bytes) : List Nat :=
  (s.video.fwd.legs.filter fun e => !flIp e.2 && fld e.2.body 24 2 == dev && fld e.2.body 26 1 == fld d 10 1 &&
    fld e.2.body 22 2 == fld d 8 2).map (·.1)

/-- A record taken from a carrier's FC_Q (R401 to R403). -/
def forecastRecordOp (c : Nat) (s : State) : State :=
  match carrierIn s c .running with
  | none => s
  | some (_, b) =>
    if !carFlag b 1 then s
    else match takePacket (unitInit uFWD 0) (fld b 54 2) s with
    | (none, s) => s
    | (some d, s) =>
      let s := (legsNamed s (deviceId s) d).foldl (fun s l => recordFor l d s) s
      ((s.video.fwd.subs.filter fun e => e.2 == fld d 8 2).map (·.1)).foldl (fun s dev =>
        sendTo dev 0 "forecast" [] d s) s

/-- A relayed record arrives (R403). -/
def forecastRelay (dev : Nat) (d : Bytes) (s : State) : State := (legsNamed s dev d).foldl (fun s l => recordFor l d s) s

/-- A HANDSET leg without a record for STALE_MS (R404). -/
def forecastStale (l : Nat) (s : State) : State :=
  match fwdLeg s l with
  | none => s
  | some x =>
    if flIp x ∨ x.stale ∨ s.now < x.lastRec + fld x.body 12 2 * 1000000 then s
    else
      let s := fwdCount l 6 1 (legRetarget l (fwdPut l { x with stale := true } s))
      raiseLim second l 0x2603 uFWD 0 1
        (leBytes 2 l ++ sub x.body 22 2 ++ sub x.body 24 2 ++ sub x.body 26 1) s

/-- The budget after a feedback record (R405). -/
def feedbackBudget (b loss flags tmmbr lo hi : Nat) : Nat :=
  let b := if 25 < loss then b - b * loss / 512 else b
  let b := if loss < 5 then b + b * 8 / 100 else b
  let b := if bit flags 0 ∧ tmmbr < b then tmmbr else b
  let b := if hi < b then hi else b
  if b < lo then lo else b

/-- The running encoder that feeds a stream. -/
def encoderOf (s : State) (n : Nat) : Option Nat :=
  ((activeVideo s).find? fun e => vKind e.2 == 1 && fld e.2 10 2 == n && isRunning s (videoObj e.1)).map (·.1)

/-- A key picture requested for a leg's stream (R409). -/
def requestKey (l : Nat) (s : State) : State :=
  match fwdLeg s l with
  | none => s
  | some x =>
    let n := flStream x
    let st := fwdStream s n
    let s := fwdCount l 5 1 s
    if st.lastReq.any fun t => s.now < t + 500000000 then s
    else
      let s := streamPut n { st with lastReq := some s.now } s
      match encoderOf s n with
      | some k => videoPut k { videoRun s k with wantKey := true } s
      | none =>
        if regF s uFWD 0 0x008 31 31 = 1 then
          (unitSend .unit (regF s uFWD 0 0x008 15 0) (leBytes 8 (shortNow s) ++ leBytes 2 l ++ [0, 2] ++ zeros 4)
            (unitInit uFWD 0) s).2
        else s

/-- A record taken from FWD_FB_Q (R405, R409). -/
def feedbackRecord (s : State) : State :=
  if regF s uFWD 0 0x004 31 31 = 0 then s
  else match takePacket (unitInit uFWD 0) (regF s uFWD 0 0x004 15 0) s with
  | (none, s) => s
  | (some d, s) =>
    let l := fld d 8 2
    match fwdLeg s l with
    | none => s
    | some x =>
      let s := fwdCount l 8 1 s
      let s := if flIp x then
          let b := feedbackBudget x.budget (fld d 10 1) (fld d 11 1) (fld d 12 4) (fld x.body 36 4) (fld x.body 40 4)
          legRetarget l (fwdPut l { x with budget := b } s)
        else s
      if bit (fld d 11 1) 1 then requestKey l s else s

/-- A higher target held for UP_HOLD is adopted (R407). -/
def upHold (l : Nat) (s : State) : State :=
  match fwdLeg s l with
  | some x =>
    match x.cand with
    | some (t, since) => if since + fld x.body 8 2 * 1000000 ≤ s.now then fwdPut l (adopt t s.now x) s else s
    | none => s
  | none => s

/-- A leg waits for a KEY at its target's spatial layer: a higher one, and in a simulcast stream any other (R400, R409). -/
def waitsKey (simulcast : Bool) (x : FwdLeg) : Bool := x.cur.1 < x.tgt.1 || (simulcast && x.tgt.1 < x.cur.1)

/-- No KEY within KEY_WAIT of adoption (R409). -/
def keyRequest (l : Nat) (s : State) : State :=
  match fwdLeg s l with
  | some x =>
    if waitsKey (fwdStream s (flStream x)).simulcast x ∧ !x.asked ∧ x.adoptAt + fld x.body 10 2 * 1000000 ≤ s.now then
      requestKey l (fwdPut l { x with asked := true } s)
    else s
  | none => s

/-- The layer rates of a stream in kb/s over the last second (R406). -/
def measureStream (now : Nat) (x : FwdStream) : FwdStream :=
  let w := x.window.filter fun p => now < p.1 + second
  let rate := fun (a t : Nat) =>
    sumL ((w.filter fun p => (if x.simulcast then p.2.2.1 == a else p.2.2.1 ≤ a) && p.2.2.2 ≤ t).map fun p => p.2.1) / 1000
  { x with window := w
           rates := ((List.range 3).flatMap fun a => (List.range 3).map fun t => (4 * a + t, rate a t)).filter (·.2 != 0) }

/-- Every 10 ms the layer rates are measured and every target recomputed (R406). -/
def layerRates (s : State) : State :=
  if s.now < s.video.fwd.measuredAt + 10000000 then s
  else
    let s := fwdMod (fun (f : Fwd) => { f with measuredAt := s.now, streams := f.streams.map fun e => (e.1, measureStream s.now e.2) })
      (fwdAdvance s)
    fwdMod (fun (f : Fwd) => { f with
      legs := f.legs.map fun e => (e.1, retarget (spGet {} f.streams (flStream e.2)) s.now e.2) }) s

/-! ### Egress (R408 to R413) -/

/-- A leg cannot send a packet: the packet is dropped, with it the rest of its frame, and the leg is BROKEN until a KEY of
its current spatial layer (R412). -/
def legBreak (l : Nat) (s : State) : State :=
  match fwdLeg s l with
  | none => s
  | some x =>
    let s := fwdCount l 2 1 s
    let s := fwdDropEvent l s
    if x.broken then s
    else requestKey l (fwdCount l 10 1 (fwdPut l { x with broken := true, dropping := true } s))

/-- A stream packet as an RTP packet of a leg (R410), sealed under SRTP (R411). Its initialisation vector is what RFC 7714
forms from the SSRC, the rollover counter and the sequence number, before the salt, which goes in with the key. -/
def rtpPacket (s : State) (l : Nat) (x : FwdLeg) (d : Bytes) (marker : Bool) : Bytes :=
  let ext := fld d 16 2
  let h := [BitVec.ofNat 8 (0x80 + (if ext = 0 then 0 else 0x10)), BitVec.ofNat 8 (128 * b2n marker + fld x.body 15 1)] ++
    beBytes 2 x.seq ++ beBytes 4 (clock90 (fld d 0 8) % 2 ^ 32) ++ beBytes 4 (fld x.body 16 4)
  let pay := d.drop 32
  if !flFlag x 2 then h ++ pay
  else
    let k := (spFind s.keys (139264 + l)).getD { first := [] }
    let key := k.first ++ k.second
    let alg := if flFlag x 3 then 0x11 else 0x10
    let head := h ++ pay.take ext
    let iv := zeros 2 ++ beBytes 4 (fld x.body 16 4) ++ beBytes 4 x.roc ++ beBytes 2 x.seq
    let body := (pay.drop ext).mapIdx fun n v => v ^^^ Config.keystream alg key iv n
    head ++ body ++ (List.range 16).map fun n => Config.macByte alg key (iv ++ head) body n

/-- A packet sent to a leg, or refused by its port or OUT_Q (R410 to R412). -/
def legSend (l : Nat) (d : Bytes) (marker : Bool) (s : State) : State :=
  match fwdLeg s l with
  | none => s
  | some x =>
    let rtp := rtpPacket s l x d marker
    let dst := sub x.body 48 16
    let src := sub x.body 64 16
    let sp := fld x.body 30 2
    let dp := fld x.body 32 2
    let pkt := Config.ipUdp dst src sp dp 0 rtp ++ rtp
    let sent := fun s => fwdCount l 0 1 (fwdPut l { x with seq := (x.seq + 1) % 65536, roc := (x.roc + (x.seq + 1) / 65536) % 2 ^ 32 } s)
    if flIp x then
      (if regF s uETH (fld x.body 27 1) 0x004 31 31 = 1 then sent (emit (.eth (fld x.body 27 1) "rtp" pkt) s) else legBreak l s)
    else match unitSend .unit (fld x.body 28 2) pkt (unitInit uFWD 0) s with
    | (some _, s) => sent s
    | (none, s) => legBreak l s

/-- The highest spatial layer whose KEY decides a leg's selection of a frame (R400, R409, R412, R415): for a leg that begins or
resumes layer 0 and its target, for a BROKEN one its current layer, and the target where the leg waits for a KEY. -/
def keyLayer (simulcast : Bool) (x : FwdLeg) : Nat :=
  if !x.started || x.paused then x.tgt.1
  else max (if x.broken then x.cur.1 else 0) (if waitsKey simulcast x then x.tgt.1 else 0)

/-- The selection of a frame of temporal layer `t`, with the spatial layers that carry KEY and its TSW (R408, R409, R412, R415
and the table of switching points). A leg that begins or resumes at a KEY of layer 0 without one at its target's layer
begins at layer 0. -/
def switchAt (simulcast : Bool) (t : Nat) (key : Nat → Bool) (tsw : Bool) (x : FwdLeg) : FwdLeg :=
  if !x.started || x.paused then
    if key 0 then
      { x with started := true, paused := false, broken := false, cur := (if key x.tgt.1 then x.tgt.1 else 0, x.tgt.2) }
    else x
  else if x.broken && !key x.cur.1 then x
  else
    let a := if waitsKey simulcast x && !key x.tgt.1 then x.cur.1 else x.tgt.1
    let tOk := x.tgt.2 < x.cur.2 || (decide (t ≤ x.tgt.2) && (tsw || key a))
    { x with broken := false, cur := (a, if x.tgt.2 = x.cur.2 ∨ tOk then x.tgt.2 else x.cur.2) }

/-- A leg's paused state is left only at a KEY, once a target qualifies again. -/
def mayResume (st : FwdStream) (x : FwdLeg) : Bool := !x.paused || (computed st x).isSome

/-- The selection of a leg's frame in hand decided from the packets of it that wait (R408). -/
def decideFrame (l : Nat) (st : FwdStream) (s : State) : State :=
  match fwdLeg s l with
  | none => s
  | some x =>
    let ds := x.waiting.map (·.2)
    let key := fun a => ds.any fun d => fld d 12 1 % 4 == a && bit (fld d 13 1) 1
    let t := (ds.head?.map fun d => fld d 12 1 / 4).getD 0
    let y := if mayResume st x then
        switchAt st.simulcast t key (ds.any fun d => bit (fld d 13 1) 2)
          (if x.paused then { x with tgt := (computed st x).getD (0, 0) } else x)
      else x
    let s := fwdPut l { y with waiting := [], dropping := y.broken } s
    if y.cur = x.cur ∨ !x.started then s
    else fwdCount l (if x.cur.1 < y.cur.1 ∨ x.cur.2 < y.cur.2 then 3 else 4) 1 s

/-- The held packets of a frame sent, the last with the marker bit when the frame has ended (R410); a leg that is suspended or
BROKEN sends nothing (R401, R412). -/
def flushHeld (l f : Nat) (ended : Bool) (s : State) : State :=
  match fwdLeg s l with
  | none => s
  | some x =>
    let mine := x.held.filter (·.1 == f)
    let s := fwdPut l { x with held := x.held.filter (·.1 != f) } s
    if x.suspended || x.broken then s else mine.foldl (fun s e => legSend l e.2.2 ended s) s

/-- A packet of a frame whose selection is decided, which arrived at `at_`, reaches a leg (R408, R410, R412). -/
def legDeliver (l : Nat) (st : FwdStream) (s : State) (e : Nat × Bytes) : State :=
  let d := e.2
  let f := fld d 10 2
  let a := fld d 12 1 % 4
  let t := fld d 12 1 / 4
  let fin := bit (fld d 13 1) 0
  match fwdLeg s l with
  | none => s
  | some x =>
    let live := x.started && !x.paused && !x.suspended && !x.broken && !x.dropping
    let sel := t ≤ x.cur.2 && (if st.simulcast then a == x.cur.1 else a ≤ x.cur.1)
    let s :=
      if live && sel then
        let s := flushHeld l f false s
        match fwdLeg s l with
        | some y => if y.broken then s else fwdPut l { y with held := y.held ++ [(f, e.1, d)] } s
        | none => s
      else fwdCount l 1 1 s
    if fin then flushHeld l f true s else s

/-- The waiting frame of a leg decided and its packets delivered. -/
def releaseFrame (l : Nat) (st : FwdStream) (s : State) : State :=
  match fwdLeg s l with
  | none => s
  | some x => if x.waiting = [] then s else x.waiting.foldl (legDeliver l st) (decideFrame l st s)

/-- A stream packet reaches one leg (R408). Packets of a new frame wait until the layers whose KEY decides the leg's selection
have come: until one of the highest of those layers, or the end of the frame. -/
def legPacket (l : Nat) (st : FwdStream) (d : Bytes) (s : State) : State :=
  let f := fld d 10 2
  match fwdLeg s l with
  | none => s
  | some x =>
    if x.frame = some f ∧ x.waiting = [] then legDeliver l st s (s.now, d)
    else
      let s := if x.frame = some f then s else releaseFrame l st s
      match fwdLeg s l with
      | none => s
      | some x =>
        let s := fwdPut l { x with frame := some f, waiting := x.waiting ++ [(s.now, d)] } s
        if keyLayer st.simulcast x ≤ fld d 12 1 % 4 ∨ bit (fld d 13 1) 0 then releaseFrame l st s else s

/-- The head of a stream's queue reaches the forwarder (R400, R408 to R413). -/
def streamPacket (n : Nat) (s : State) : State :=
  match takePacket (unitInit uFWD 0) (streamQueue s n) s with
  | (none, s) => s
  | (some d, s) =>
    let s := fwdAdvance s
    let len := fld d 14 2
    let lay := fld d 12 1
    if d.length ≠ 32 + len ∨ fld d 8 2 ≠ n ∨ 16 ≤ lay ∨ 2 < lay % 4 ∨ 2 < lay / 4 ∨ 16 ≤ fld d 13 1 ∨ len < 1 ∨ 1200 < len ∨
        fld d 16 2 % 4 ≠ 0 ∨ len ≤ fld d 16 2 then s
    else
      let st := fwdStream s n
      let late := fld d 0 8 < shortNow s
      let st := { st with window := st.window ++ [(s.now, 8 * (len + 40), lay % 4, lay / 4)], simulcast := bit (fld d 13 1) 3
                          frame := if bit (fld d 13 1) 0 then none else some (fld d 10 2)
                          late := satN 0xFFFFFFFF (st.late + b2n late) }
      let s := streamPut n st s
      let legs := (s.video.fwd.legs.filter fun e => flStream e.2 == n).map (·.1)
      let s := if late then
          raiseLim second n 0x2604 uFWD 0 1 (leBytes 2 n ++ zeros 2 ++ leBytes 4 st.late)
            (legs.foldl (fun s l => fwdCount l 9 1 s) s)
        else s
      legs.foldl (fun s l => legPacket l st d s) s

/-- Packets held for 200 ms are released, and legs that still wait skip them (R412). -/
def streamExpiry (n : Nat) (s : State) : State :=
  ((s.video.fwd.legs.filter fun e => flStream e.2 == n).map (·.1)).foldl (fun s l =>
    match fwdLeg s l with
    | none => s
    | some x =>
      let keep := fun (at_ : Nat) => decide (s.now < at_ + 200000000)
      let y := { x with held := x.held.filter fun e => keep e.2.1, waiting := x.waiting.filter fun e => keep e.1 }
      let n := x.held.length + x.waiting.length - y.held.length - y.waiting.length
      if n = 0 then s else fwdDropEvent l (fwdCount l 2 n (fwdPut l y s))) s

/-! ### Commands (R414, R415) -/

/-- The ranges of FWD_LEG_ADD. -/
def fwdLegOk (p : Bytes) : Bool :=
  let f := fun o => fld p o 1
  let w := fun o => fld p o 2
  let ip := f 4 == 1
  w 0 < 4096 && w 2 < 512 && f 4 < 2 && f 5 % 4 ≤ 2 && f 5 / 4 ≤ 2 && 50 ≤ f 6 && f 6 ≤ 100 && f 7 < 16 && w 8 ≤ 10000 &&
    20 ≤ w 10 && w 10 ≤ 5000 && (if ip then w 12 == 0 && f 14 == 0 else 10 ≤ w 12 && w 12 ≤ 10000 && 1 ≤ f 14 && f 14 ≤ 100) &&
    96 ≤ f 15 && f 15 ≤ 127 && rsv p 34 2 && rsv p 124 4 &&
    (if ip then f 27 ≤ 48 && 64 ≤ fld p 36 4 && fld p 36 4 ≤ fld p 40 4 && fld p 40 4 ≤ 100000 && fld p 36 4 ≤ fld p 44 4 &&
       fld p 44 4 ≤ fld p 40 4
     else w 22 < 2 ^ 14 && w 24 < 4096 && f 26 < 64) &&
    (bit (f 7) 2 || rsv p 80 32)

/-- FWD_LEG_ADD (R403, R405, R414, R415). -/
def fwdAddOp (r : Request) (s : State) : State :=
  let p := r.params
  let l := fld p 0 2
  let srtp := bit (fld p 7 1) 2
  runCmd 0x0452 r (firstFail [need (!srtp || r.transport == .pcie) stNOT_AUTHORISED, targetCheck s r uFWD 0,
      need (p.length == 128) stBAD_LENGTH, need (fwdLegOk p) stBAD_PARAM, need (fwdLeg s l).isNone 0x0405,
      need (s.video.fwd.legs.length < 4096) stNO_RESOURCE])
    (fun s =>
      let x : FwdLeg := { body := sub p 0 80, budget := if fld p 4 1 = 1 then fld p 44 4 else 0, seq := fld p 20 2
                          lastRec := s.now, adoptAt := s.now, frame := (fwdStream s (fld p 2 2)).frame }
      let s := (List.range 16).foldl (fun s k => cntZero (cntKey uFWD l k) s) s
      let s := if srtp then
          let n := if bit (fld p 7 1) 3 then 32 else 16
          { s with keys := spPut s.keys (139264 + l) { first := sub p 80 n, second := sub p 112 12 } }
        else s
      let s := if fld p 4 1 = 0 ∧ fld p 24 2 ≠ deviceId s then sendTo (fld p 24 2) 3 "forecast-subscribe" (sub p 22 2) [] s else s
      (stDONE, leBytes 8 (shortNow s), fwdPut l (retarget (fwdStream s (flStream x)) s.now x) s)) s

/-- The checks of FWD_LEG_REMOVE and FWD_LEG_STATS. -/
def fwdLegCheck (s : State) (r : Request) : Nat :=
  firstFail [targetCheck s r uFWD 0, need (r.params.length == 8) stBAD_LENGTH,
    need (fld r.params 0 2 < 4096 && rsv r.params 2 6) stBAD_PARAM, need (fwdLeg s (fld r.params 0 2)).isSome 0x0406]

/-- FWD_LEG_REMOVE (R312, R415). -/
def fwdRemoveOp (r : Request) (s : State) : State :=
  let l := fld r.params 0 2
  runCmd 0x0453 r (fwdLegCheck s r) (fun s =>
    (stDONE, fwdCnt s l 0,
      fwdMod (fun (f : Fwd) => { f with legs := spDel f.legs l }) { s with keys := spDel s.keys (139264 + l) })) s

/-- FWD_LEG_STATS. -/
def fwdStatsOp (r : Request) (s : State) : State :=
  runCmd 0x0454 r (fwdLegCheck s r) (fun s =>
    (stDONE, (List.range 12).flatMap fun k => fwdCnt s (fld r.params 0 2) k, s)) s

/-- CLEAR_ALL (R416). -/
def fwdClear (s : State) : State := cntZeroAll (fun k => k / 0x100000000 == uFWD) s

/-- FWD_LEG_STATE of a leg. -/
def fwdLegState (s : State) (l : Nat) : Nat :=
  match fwdLeg s l with
  | none => 0
  | some x => x.cur.1 * 2 ^ 30 + x.cur.2 * 2 ^ 28 + x.tgt.1 * 2 ^ 26 + x.tgt.2 * 2 ^ 24 + b2n (x.paused || x.suspended) * 2 ^ 23 +
      b2n x.broken * 2 ^ 22 + satN (2 ^ 22 - 1) x.budget

end Sys2Proof.Machine
end

