-- ==== Sys2Proof/Machine/Lanes.lean ====
section
/-!
DEFINITION. Serial lanes, Ethernet ports and their counters (16_lanes_bupex.md, R543 to R554, R578).
-/
namespace Sys2Proof.Machine
open Sys2Proof

/-- OWNER of a lane: 0 none, 1 ETH port, 2 Bupex link, 3 PRBS test. -/
def laneOwner (s : State) (n : Nat) : Nat := regF s uLANE n 0x000 29 28

/-- A lane's equaliser adapts: what it held under EQ_FREEZE is gone (R549). -/
def eqFree (n : Nat) (m : Sparse Nat) : Sparse Nat := m.filter fun e => e.1 / 32 != n

/-- A lane taken by an owner; its receiver adapts at link-up. -/
def laneTake (kind who rate : Nat) (idle : Bool) (n : Nat) (s : State) : State :=
  serialMod (fun (z : Serial) => { z with owner := spSet 0 z.owner n who, eq := eqFree n z.eq })
    (regPut uLANE n 0x000 (BitVec.ofNat 32 (kind * 2 ^ 28 + b2n idle * 2 ^ 26 + rate)) s)

/-- A lane given up: no owner, electrical idle, not reconstructed (R551, R554). -/
def laneDrop (n : Nat) (s : State) : State :=
  serialMod (fun (z : Serial) => { z with owner := spDel z.owner n }) (regPut uLANE n 0x000 0x04000000 s)

/-- Bits 31 and 30 of LANE_STATUS of some lanes: LOCK and SIGNAL. -/
def laneLock (on : Bool) (ls : List Nat) (s : State) : State :=
  ls.foldl (fun s n => regPutF uLANE n 0x000 31 30 (if on then 3 else 0) s) s

/-- The lanes a port or link owns. -/
def lanesOwned (s : State) (kind who : Nat) : List Nat :=
  (List.range 48).filter fun n => laneOwner s n == kind && spGet 0 s.serial.owner n == who

/-- A lane held in electrical idle by an injected fault (R645, KIND 2). -/
def laneInjected (s : State) (n : Nat) : Bool := s.power.injections.any fun i => i.kind == 2 && i.target == n

/-! ### Ethernet ports -/

/-- Lanes, RATE and allowed FEC codes of a MODE (R545). -/
def modeLanes (m : Nat) : Nat := [0, 1, 1, 1, 1, 4, 2, 1, 4, 2, 8, 4].getD m 0
def modeRateCode (m : Nat) : Nat := [0, 1, 2, 3, 5, 3, 5, 7, 5, 7, 5, 7].getD m 0
def modeFec (m : Nat) : List Nat :=
  [[], [0], [0, 1], [0, 1, 2], [3], [2], [3], [3], [3], [3], [3], [3]].getD m []

/-- Lanes of a port with its configuration word: its data lanes and the parity lane. -/
def portLanes (n v : Nat) : List Nat :=
  if n = 48 then [] else (List.range (modeLanes (bits v 19 16) + b2n (bit v 26))).map (n + ·)

/-- A configuration that R543, R545 and the part allow. -/
def portAllowed (s : State) (n v : Nat) : Bool :=
  let m := bits v 19 16
  let w := modeLanes m + b2n (bit v 26)
  let k := n % 12
  1 ≤ m && m ≤ 11 && (modeFec m).contains (bits v 29 28) &&
    (if n = 48 then m ≤ 2 && !bit v 26
     else k % w == 0 && k + w ≤ 12 && n + w ≤ laneCount s.part)

/-- An Ethernet port goes down (R545, R578): its counters, FH_PORT_DOWN of the carriers it serves (R157). -/
def ethDown (n cause : Nat) (s : State) : State :=
  if regF s uETH n 0x004 31 31 = 0 then s
  else
    let s := if cause = 1 then laneLock false (lanesOwned s 1 n) s else s
    let s := cntBump (cntKey uETH n 5) 1 (regPut uETH n 0x004 0 s)
    carriersPortDown n (raise 0x2902 uETH n 1 [BitVec.ofNat 8 cause] s)

/-- A write of ETH_PORT_CFG (R543 to R545): fields are frozen while ENABLE is 1; ENABLE takes the lanes or sets CONFLICT;
clearing it releases them. -/
def ethCfgWrite (n v : Nat) (s : State) : State :=
  let old := (regGet s uETH n 0x000).toNat
  let kept := if bit v 30 then setBits old 30 30 0 else old
  if bit old 31 then
    if bit v 31 then regPut uETH n 0x000 (BitVec.ofNat 32 kept) s
    else (portLanes n old).foldl (fun s l => laneDrop l s)
      (regPut uETH n 0x000 (BitVec.ofNat 32 (setBits kept 31 31 0)) (ethDown n 3 s))
  else
    let next := setBits (setBits (setBits kept 29 26 (bits v 29 26)) 19 16 (bits v 19 16)) 13 0 (bits v 13 0)
    let ls := portLanes n next
    if !bit v 31 then regPut uETH n 0x000 (BitVec.ofNat 32 next) s
    else if portAllowed s n next ∧ ls.all (fun l => laneOwner s l == 0) then
      ls.foldl (fun s l => laneTake 1 n (modeRateCode (bits next 19 16)) false l s)
        (regPut uETH n 0x000 (BitVec.ofNat 32 (setBits next 31 31 1)) s)
    else regPut uETH n 0x000 (BitVec.ofNat 32 (setBits next 30 30 1)) s

/-- An enabled port comes up (R549): where it trains, training leaves the transmit FIR taps at values of its own. -/
def ethUp (n : Nat) (s : State) : State :=
  let v := (regGet s uETH n 0x000).toNat
  if !bit v 31 ∨ regF s uETH n 0x004 31 31 = 1 ∨ (n < 48 ∧ lanesOff s) ∨ (lanesOwned s 1 n).any (laneInjected s) then s
  else
    let ls := lanesOwned s 1 n
    let s := if !bit v 27 then s else ls.foldl (fun s l => (List.range 3).foldl (fun s t =>
      let (f, s) := draw s
      serialMod (fun (z : Serial) => { z with fir := spSet 0 z.fir (l * 32 + 15 + t) (f % 65536) }) s) s) s
    let st := 2 ^ 31 + b2n (bits v 29 28 != 0) * 2 ^ 30 + b2n (bit v 27) * 2 ^ 29
    raise 0x2901 uETH n 0 [BitVec.ofNat 8 (bits v 19 16), BitVec.ofNat 8 (bits v 29 28)]
      (laneLock true ls (regPut uETH n 0x004 (BitVec.ofNat 32 st) s))

/-- What the port answers of itself, and what it hands to the baseband (R132, R146); the management port answers address
queries and ICMP echo for its own addresses and nothing else (R70). -/
def ethAccept (n : Nat) (f : EthFrame) (s : State) : State :=
  let dropped := cntBump (cntKey uETH n 2) 1 s
  match f with
  | .other => s
  | .gtpu teid data => if n = 48 then s else gtpuPacket n teid.toNat data s
  | .gtpuEcho data => if n = 48 then s else emit (.eth n "gtpu-echo-response" data) s
  | .fragment => dropped
  | .ecpri h => if ecpriInside h then s else dropped
  | .delayReq d r q c => delayReqOp false n d.toNat r q c s
  | .addressQuery own => if n = 48 ∧ own ∧ mgmtAddressed s then emit (.eth n "address-reply" []) s else s
  | .icmpEcho own data => if n = 48 ∧ own ∧ mgmtAddressed s then emit (.eth n "icmp-echo-reply" data) s else s

/-- The octets an Ethernet receiver still has to absorb after a gap (R548): idle is deleted from the gap while the partner is
ahead and inserted while it is behind. -/
def idleLeft (level : Int) (c : RxClock) : Int := max 0 (level + c.ahead - c.spare.toNat)

/-- A frame received (R545): accepted with a right FCS and 64 to MAX_FRAME bytes; others, and pause frames, are dropped
and counted. -/
def ethReceive (n len : Nat) (fcs pause : Bool) (fixed lost : Nat) (clock : RxClock) (f : EthFrame) (s : State) : State :=
  if regF s uETH n 0x004 31 31 = 0 then s
  else
    let s := serialMod (fun (z : Serial) => { z with idle := spSet 0 z.idle n (idleLeft (spGet 0 z.idle n) clock) }) s
    let s := cntBump (cntKey uETH n 4) lost (cntBump (cntKey uETH n 3) fixed s)
    if fcs ∧ !pause ∧ 64 ≤ len ∧ len ≤ regF s uETH n 0x000 13 0 then ethAccept n f (cntBump (cntKey uETH n 0) 1 s)
    else cntBump (cntKey uETH n 2) 1 s

/-! ### PRBS -/

/-- A write of LANE_CTRL (R544, R549, R550): the equaliser adapts while EQ_FREEZE is 0; the pattern is ignored while a port or link owns the lane; PRBS_GEN makes the test
the owner. -/
def laneCtrlWrite (n v : Nat) (s : State) : State :=
  let old := (regGet s uLANE n 0x004).toNat
  let w := setBits (setBits (setBits old 31 31 (bits v 31 31)) 27 26 (bits v 27 26)) 3 0 (bits v 3 0)
  let s := if bit v 31 then s else serialMod (fun (z : Serial) => { z with eq := eqFree n z.eq }) s
  if laneOwner s n = 1 ∨ laneOwner s n = 2 then regPut uLANE n 0x004 (BitVec.ofNat 32 w) s
  else
    let s := regPut uLANE n 0x004 (BitVec.ofNat 32 (setBits w 30 28 (bits v 30 28))) s
    if bit v 27 then laneTake 3 0 (bits v 3 0) false n s
    else if laneOwner s n = 3 then laneDrop n s else s

/-- The checker is on: usable while no port or link owns the lane (R550). -/
def prbsOn (s : State) (n : Nat) : Bool :=
  let p := regF s uLANE n 0x004 30 28
  regF s uLANE n 0x004 26 26 == 1 && 1 ≤ p && p ≤ 5 && (laneOwner s n == 0 || laneOwner s n == 3)

/-- What the checker finds in some received bits: it loses synchronisation and regains it, or is synchronised, and
counts (R550). -/
def prbsCheck (n : Nat) (lost : Bool) (errs total : Nat) (s : State) : State :=
  if !prbsOn s n then s
  else
    let c := spGet (0, 0) s.serial.prbs n
    let top := 2 ^ 48 - 1
    let s := serialMod (fun (z : Serial) => { z with
      prbs := spSet (0, 0) z.prbs n (satN top (c.1 + errs), satN top (c.2 + total)) }) s
    let s := regPutF uLANE n 0x008 31 31 1 s
    if lost then regPutF uLANE n 0x008 30 30 1 s else s

/-- A read of LANE_PRBS_ERR_LO or LANE_PRBS_BITS_LO: it latches the HI half and clears the counter (R550). -/
def prbsRead (n : Nat) (errors : Bool) (s : State) : State :=
  let c := spGet (0, 0) s.serial.prbs n
  let v := if errors then c.1 else c.2
  let left := if errors then (0, c.2) else (c.1, 0)
  answer (v % 2 ^ 32) (regPut uLANE n (if errors then 0x010 else 0x018) (BitVec.ofNat 32 (v / 2 ^ 32))
    (serialMod (fun (z : Serial) => { z with prbs := spSet (0, 0) z.prbs n left }) s))

/-- A write of LANE_EQ_VAL: only a transmit FIR tap can be written. -/
def eqWrite (n v : Nat) (s : State) : State :=
  let t := regF s uLANE n 0x020 4 0
  if 15 ≤ t ∧ t ≤ 17 then serialMod (fun (z : Serial) => { z with fir := spSet 0 z.fir (n * 32 + t) (v % 65536) }) s else s

/-- A read of LANE_EQ_VAL: a FIR tap; an equaliser's tap, whose value the spec does not give, the same again while EQ_FREEZE
holds it; or no tap. -/
def eqRead (n : Nat) (s : State) : State :=
  let t := regF s uLANE n 0x020 4 0
  if 15 ≤ t ∧ t ≤ 17 then answer (spGet 0 s.serial.fir (n * 32 + t)) s
  else if t < 15 then
    match spFind s.serial.eq (n * 32 + t) with
    | some v => answer v s
    | none =>
      let (f, s) := draw s
      answer (f % 65536) (if regF s uLANE n 0x004 31 31 = 1 then
        serialMod (fun (z : Serial) => { z with eq := spPut z.eq (n * 32 + t) (f % 65536) }) s else s)
  else answer 0 s

end Sys2Proof.Machine
end

