-- ==== Sys2Proof/Machine/Bupex.lean ====
section
/-!
DEFINITION. Bupex links, frames, the system of devices, partitions and their commands (16_lanes_bupex.md, R552 to R578).
-/
namespace Sys2Proof.Machine
open Sys2Proof

/-- Changes to the system's and a link's state. -/
def mdMod (f : MultiDev → MultiDev) (s : State) : State := serialMod (fun (z : Serial) => { z with md := f z.md }) s
def linkMod (l : Nat) (f : LinkRun → LinkRun) (s : State) : State := linkPut l (f (linkRun s l)) s

/-- A counter of a link raised. -/
def linkCount (l k n : Nat) (s : State) : State := cntBump (cntKey uBUPEX l k) n s

/-- A link discards what it receives while a fault is injected on it (R645, KIND 3) or one of its lanes is held (KIND 2)
without a parity lane. -/
def linkDeaf (s : State) (l : Nat) : Bool :=
  (s.power.injections.any fun i => i.kind == 3 && i.target == l) ||
    ((lanesOwned s 2 l).any fun n => laneInjected s n && regF s uLANE n 0x000 27 27 == 0)

/-! ### The link object (R543, R544, R560, R562, R568) -/

/-- Lanes a link object occupies, its parity lane included. -/
def linkLanes (b : Bytes) : List Nat := (List.range (fld b 1 1 + b2n (bit (fld b 3 1) 0))).map (fld b 0 1 + ·)

/-- The ranges of a link's body, then CLASS0 against its rate and IDLE_EN. -/
def linkCheck (b : Bytes) : Nat :=
  let fl := fld b 3 1
  let n := fld b 1 1 + b2n (bit fl 0)
  firstFail [
    need (b.length == 16) stBAD_LENGTH,
    need (fld b 0 1 ≤ 47 && 1 ≤ fld b 1 1 && n ≤ 8 && fld b 0 1 % 12 + n ≤ 12 && [4, 6, 8].contains (fld b 2 1) &&
      fl < 16 && (!bit fl 1 || fld b 2 1 == 6) && 1 ≤ fld b 4 2 && rsv b 6 2 && fld b 8 4 ≤ 1000000 && rsv b 12 4) stBAD_PARAM,
    need (!bit fl 3 || (100000000000 * payloadDen b ≤ payloadNum b && !bit fl 2)) 0x0A03]

/-- A lane of the link is absent from the part. -/
def linkAbsent (s : State) (b : Bytes) : Bool := (linkLanes b).any fun n => laneCount s.part ≤ n

/-- The state checks of a link's START. -/
def linkAdmit (s : State) (o : Object) : Nat :=
  firstFail [need (deviceId s != 0xFFF) 0x0A02, need ((linkLanes o.body).all fun n => laneOwner s n == 0) 0x0A01]

/-- An admitted link takes its lanes, still in electrical idle (R544, R551). -/
def linkBegin (id : Nat) (s : State) : State :=
  match objFind s id with
  | none => s
  | some o =>
    let l := id % 0x10000
    linkPut l {} (cntZeroAll (fun k => k / 16 == cntKey uBUPEX l 0 / 16)
      ((linkLanes o.body).foldl (fun s n => laneTake 2 l (fld o.body 2 1) true n s) s))

/-- An admitted link reaches RUNNING with its lanes enabled (R568), once lanes may leave electrical idle (R82). -/
def linkRunning (l : Nat) (s : State) : State :=
  match objFind s (linkObj l) with
  | some o =>
    if o.st = some .starting ∧ !lanesOff s then
      reachRunning (linkObj l) ((linkLanes o.body).foldl (fun s n => regPutF uLANE n 0x000 26 26 0 s) s)
    else s
  | none => s

/-! ### Topology and routes (R564, R565, R570) -/

/-- The link list flooded on every link that is up. -/
def floodLinks (s : State) : State :=
  let b := (upLinks s).flatMap fun l => leBytes 2 (linkPeer s l)
  (upLinks s).foldl (fun s l => linkSend l 3 "links" (partnerFrame s l "links" 3 0 b) s) s

/-- Which members can be reached looked at again. -/
def watchMembers (s : State) : State :=
  let r := reachable s
  let ms := (members s).map (·.1)
  let gone := ms.filter fun d => !r.contains d
  mdMod (fun (m : MultiDev) => { m with
    gone := gone.foldl (fun g d => spPut g d ((spFind m.gone d).getD s.now)) []
    allSince := if gone = [] then some (m.allSince.getD s.now) else none }) s

/-- A change of link state: the list is flooded and the routes are computed again. -/
def topoChange (s : State) : State := watchMembers (floodLinks s)

/-- Frames a failed link did not deliver sent again on the next route (R559). -/
def resendAll (fs : List (String × Bytes)) (s : State) : State :=
  fs.foldl (fun s f =>
    match routeTo s (fld f.2 1 3 % 4096) (fld f.2 0 1 / 16 % 4) with
    | some l => linkSend l (fld f.2 0 1 / 16 % 4) f.1 f.2 s
    | none => s) s

/-- A link is no longer up: what it had not delivered goes by the next route. -/
def linkOff (l : Nat) (s : State) : State :=
  let x := linkRun s l
  let s := regPutF uBUPEX l 0x000 29 29 0 (regPutF uBUPEX l 0x000 31 31 0 s)
  let s := linkPut l { x with unacked := [], waiting := [], tx0 := [], tx := [], blocks := 0, credit := 0, elastic := 0 } s
  topoChange (resendAll ((x.unacked.map fun f => (f.kind, f.data)) ++ x.waiting) s)

/-- A link goes down (R564): 1 HELLO timeout, 2 second lane lost, 3 wake failed. -/
def linkDown (l cause : Nat) (s : State) : State :=
  if !linkUp s l then s
  else
    let s := raise 0x2A02 uBUPEX l 1 (leBytes 2 (linkPeer s l) ++ [BitVec.ofNat 8 cause]) (linkCount l 7 1 s)
    linkOff l (laneLock false (lanesOwned s 2 l) s)

/-- The HELLO timeouts of R564: 30 µs, or 3 ms in electrical idle. -/
def linkTimeout (l : Nat) (s : State) : State :=
  match (linkRun s l).hello with
  | some (_, _, t) => if t + (if linkIdle s l then 3000000 else 30000) ≤ s.now then linkDown l 1 s else s
  | none => s

/-- STOP of a link completes: its lanes are released (R65, R551). -/
def linkStopped (l : Nat) (s : State) : State :=
  let s := if linkUp s l then linkOff l s else s
  let s := (lanesOwned s 2 l).foldl (fun s n => laneDrop n s) s
  reachStopped (linkObj l) (linkPut l {} (regPut uBUPEX l 0x000 0x0FFF0000 s))

/-! ### Lane parity (R553, R554) -/

/-- A lane of a running port or link is lost: reconstructed from the parity lane, or, a second one or one without parity,
taking its port or link down. -/
def laneLost (n : Nat) (s : State) : State :=
  let kind := laneOwner s n
  let who := spGet 0 s.serial.owner n
  let up := if kind = 1 then regF s uETH who 0x004 31 31 == 1 else kind == 2 && linkUp s who
  let spare := if kind = 1 then regF s uETH who 0x000 26 26 == 1 else linkFlag s who 0
  if !up ∨ regF s uLANE n 0x000 27 27 = 1 then s
  else if !spare ∨ (lanesOwned s kind who).any (fun k => regF s uLANE k 0x000 27 27 == 1) then
    (if kind = 1 then ethDown who 1 s else if spare then linkDown who 2 s else s)
  else
    let s := regPutF uLANE n 0x000 27 27 1 s
    let s := if kind = 1 then cntBump (cntKey uETH who 6) 1 s else regPutF uBUPEX who 0x000 30 30 1 s
    raise 0x2801 uLANE n 1 [BitVec.ofNat 8 n, BitVec.ofNat 8 (kind - 1), BitVec.ofNat 8 who] s

/-! ### HELLO and link state (R549, R552, R563) -/

/-- The settings digest: the first 8 bytes of the SHA-512 of the body with DEVICE_ID taken as 0xFFF. -/
def digest (s : State) : Bytes := fit 8 (Config.sha512 (putFld (mdBody s) 0 2 0xFFF))

/-- A HELLO received: its partner's DEVICE_ID, digest and the round trip. -/
def helloReceived (l peer dig rtt : Nat) (s : State) : State :=
  let same := dig == leNat (digest s)
  let old := (linkRun s l).hello
  let fresh := old.all fun h => h.1 != peer || h.2.1 != same
  let s := linkMod l (fun x => { x with hello := some (peer, same, s.now) }) s
  let s := regPutF uBUPEX l 0x000 15 0 rtt (regPutF uBUPEX l 0x000 27 16 peer s)
  if peer = deviceId s then
    let s := if fresh then raise 0x2A03 uBUPEX l 2 (leBytes 2 peer) s else s
    if linkUp s l then linkOff l s else s
  else if !same then
    let s := if fresh then raise 0x2A04 uBUPEX l 2 (leBytes 2 peer ++ zeros 6 ++ leBytes 8 dig) s else s
    if linkUp s l then linkOff l s else s
  else s

/-- The 10 µs of a running link, or a wake of an idle one: a HELLO sent, and the partner's if one has come. -/
def helloOp (l : Nat) (rx : Option (Nat × Nat × Nat)) (s : State) : State :=
  if !isRunning s (linkObj l) then s
  else
    let s := linkQueue l 3 none "hello" (partnerFrame s l "hello" 3 0 (leBytes 2 (deviceId s) ++ digest s)) s
    match rx with
    | some (p, d, t) => if linkDeaf s l then s else helloReceived l p d t (linkCount l 1 1 s)
    | none => s

/-- A running link comes up on equal digests. -/
def linkUpOp (l : Nat) (s : State) : State :=
  match (linkRun s l).hello with
  | some (peer, true, t) =>
    if !isRunning s (linkObj l) ∨ linkUp s l ∨ peer = deviceId s ∨ t + 30000 ≤ s.now then s
    else
      let s := laneLock true (lanesOwned s 2 l) (regPutF uBUPEX l 0x000 31 31 1 s)
      let s := linkMod l (fun x => { x with lseq := 0, lack := 0xFFFF, unacked := [], lastTx := s.now }) s
      topoChange (raise 0x2A01 uBUPEX l 0 (leBytes 2 peer) s)
  | _ => s

/-- A link enters electrical idle after IDLE_US without a frame to send. -/
def idleEntry (l : Nat) (s : State) : State :=
  let b := linkBody s l
  let x := linkRun s l
  if linkUp s l ∧ !linkIdle s l ∧ bit (fld b 3 1) 2 ∧ x.waiting = [] ∧ x.tx0 = [] ∧ x.tx = [] ∧ x.lastTx + fld b 4 2 * 1000 ≤ s.now then
    (lanesOwned s 2 l).foldl (fun s n => regPutF uLANE n 0x000 26 26 1 s) (regPutF uBUPEX l 0x000 29 29 1 s)
  else s

/-- A link leaves electrical idle with a training burst, the frames held going out; a wake that brings no valid data takes it down. -/
def idleExit (l : Nat) (valid : Bool) (s : State) : State :=
  if !linkIdle s l then s
  else
    let s := emit (.edge "bupex-training" l (shortNow s)) s
    let s := (lanesOwned s 2 l).foldl (fun s n => wakeRequestBase (33 + n / 12) uLANE n s) (linkCount l 9 1 s)
    if !valid ∨ linkDeaf s l then linkDown l 3 s
    else
      let x := linkRun s l
      let s := (lanesOwned s 2 l).foldl (fun s n => regPutF uLANE n 0x000 26 26 0 s) (regPutF uBUPEX l 0x000 29 29 0 s)
      x.waiting.foldl (fun s f => linkSend l (fld f.2 0 1 / 16 % 4) f.1 f.2 s) (linkPut l { x with waiting := [] } s)

/-! ### Frames received (R555 to R559, R566, R567) -/

/-- The duplicate filter of R558: accepted, duplicate (5) or stale (6), the counters of a link. -/
def dupFilter (src seq : Nat) (s : State) : Option Nat × State :=
  let put := fun (f : DupFilter) (s : State) => mdMod (fun (m : MultiDev) => { m with filters := spPut m.filters src f }) s
  match spFind s.serial.md.filters src with
  | none => (none, put { high := seq } s)
  | some f =>
    let ahead := (seq + 65536 - f.high) % 65536
    if ahead = 0 then (some 5, s)
    else if ahead < 32768 then
      (none, put { high := seq, seen := (f.high :: f.seen).filter fun v => (seq + 65536 - v) % 65536 ≤ 4096 } s)
    else if 4096 < 65536 - ahead then (some 6, s)
    else if f.seen.contains seq then (some 5, s)
    else (none, put { f with seen := seq :: f.seen } s)

/-- A frame's contents taken by the device it is for. -/
def bupexDeliver (l : Nat) (f : BupexFrame) (s : State) : State :=
  match f.body with
  | .proxy q h data =>
    let s := (unitSend .unit q.toNat data (unitInit uBUPEX 0) s).2
    sendTo f.src.toNat f.cls "proxy-ack" (leBytes 4 h.toNat) [] s
  | .proxyAck h =>
    if s.serial.md.carried.contains h.toNat then
      pktFree h.toNat (mdMod (fun (m : MultiDev) => { m with carried := m.carried.erase h.toNat }) s)
    else s
  | .subscribe h =>
    let e := (f.src.toNat, h.toNat)
    if s.video.fwd.subs.contains e then s else fwdMod (fun (w : Fwd) => { w with subs := w.subs ++ [e] }) s
  | .joint c n k a iq => jointReceive f.src.toNat c n.toNat k a iq s
  | .delayReq d r q c => delayReqOp true l d.toNat r q c s
  | _ => s

/-- What a frame sent on towards another device is: its kind, its TYPE and its body. -/
def bodyBytes (cls : Nat) (b : BupexBody) : String × Nat × Bytes :=
  let data := fun kind select d => (kind, 0, dataBody kind cls select 0 d)
  match b with
  | .proxy q h d => data "proxy" (leBytes 2 q.toNat ++ leBytes 4 h.toNat) d
  | .proxyAck h => data "proxy-ack" (leBytes 4 h.toNat) []
  | .subscribe h => data "forecast-subscribe" (leBytes 2 h.toNat) []
  | .joint c n k a iq => data "joint-symbol" (leBytes 1 c ++ leBytes 8 n.toNat ++ leBytes 1 k ++ leBytes 1 a) iq
  | .delayReq d q n c => ("delay_req", 3, [d] ++ beBytes 10 q.toNat ++ beBytes 2 n.toNat ++ beBytes 8 c.toNat)
  | .links ps => ("links", 2, ps.flatMap fun p => leBytes 2 p.toNat)
  | .bootFirst n d => ("boot", 4, leBytes 4 n.toNat ++ d)
  | .bootNext d => ("boot", 4, d)
  | .bootEnd => ("boot", 4, [])
  | .unit t d => ("forward", t, d)
  | .ack => ("ack", 1, [])
  | .replayRequest => ("replay-request", 2, [])

/-- A frame for another device passed on with TTL decremented: a duplicated one along its direction, others by the route
of fewest hops (R559, R565). -/
def bupexForward (l : Nat) (f : BupexFrame) (s : State) : State :=
  if f.ttl.toNat ≤ 1 then linkCount l 8 1 s
  else
    let kb := bodyBytes f.cls f.body
    let head := headBytes kb.2.1 f.cls f.dup f.dir f.dst.toNat f.src.toNat f.seq.toNat (f.ttl.toNat - 1)
    let out := if f.dup then (upLinks s).find? fun k => k != l && linkFlag s k 3 else routeTo s f.dst.toNat f.cls
    match out with
    | some k => linkSend k f.cls kb.1 (head ++ kb.2.2) s
    | none => s

/-- A flooded link list: kept, and passed on when it tells something new, until its TTL ends (R559, R564). -/
def linksReceived (l : Nat) (f : BupexFrame) (peers : List Nat) (s : State) : State :=
  if f.src.toNat = deviceId s ∨ spFind s.serial.md.topo f.src.toNat = some peers then s
  else
    let s := mdMod (fun (m : MultiDev) => { m with topo := spPut m.topo f.src.toNat peers }) s
    watchMembers (if f.ttl.toNat ≤ 1 then linkCount l 8 1 s
      else ((upLinks s).filter (· != l)).foldl (fun s k => linkSend k 3 "links"
        (headBytes 2 3 false false (linkPeer s k) f.src.toNat f.seq.toNat (f.ttl.toNat - 1) ++ peers.flatMap (leBytes 2)) s) s)

/-- The frames of a link that LACK acknowledges, and the replay its partner asks for (R557): the unacknowledged frames are sent
again in order, in place of those of them still waiting in the transmitter. -/
def acknowledge (l : Nat) (f : BupexFrame) (s : State) : State :=
  let x := linkRun s l
  let left := x.unacked.filter fun u => 32768 ≤ (f.lack.toNat + 65536 - u.lseq) % 65536
  let s := linkPut l { x with unacked := left } s
  if f.body = .replayRequest then
    let again := left.map fun u => ({ lseq := some u.lseq, kind := u.kind, data := u.data, left := frameBlocks u.data } : TxFrame)
    linkMod l (fun x => { x with tx := (x.tx.filter fun f => f.lseq.isNone) ++ again }) (linkCount l 3 1 s)
  else s

/-- The blocks in a receiver's elastic buffer after a frame (R548): the partner's lead adds to them, and each FILL block,
discarded, lets the device catch up by one. Beyond 8 a block is lost. -/
def elasticLevel (held : Nat) (c : RxClock) : Int := max 0 (held + c.ahead - c.spare.toNat)

/-- A frame arrives on a link (R548, R557 to R559, R563, R566, R567). -/
def bupexFrame (l : Nat) (f : BupexFrame) (s : State) : State :=
  if !linkUp s l ∨ linkDeaf s l then s
  else
  let level := elasticLevel (linkRun s l).elastic f.clock
  let s := linkMod l (fun x => { x with elastic := min level.toNat 8 }) s
  if !f.crc ∨ 8 < level then
    let s := linkCount l 2 1 s
    if f.cls.val = 0 then
      let s := linkCount l 4 1 s
      raiseLim second l 0x2A05 uBUPEX l 1 (leBytes 4 (cntGet s (cntKey uBUPEX l 4))) s
    else linkQueue l 3 none "replay-request" (partnerFrame s l "replay-request" 3 0 []) s
  else
    let s := acknowledge l f (linkCount l 1 1 s)
    let x := linkRun s l
    let take := fun (s : State) =>
      match f.body with
      | .links ps => linksReceived l f (ps.map (·.toNat)) s
      | .ack => s
      | .replayRequest => s
      | _ =>
        if f.dst.toNat ≠ deviceId s then bupexForward l f s
        else match dupFilter f.src.toNat f.seq.toNat s with
        | (none, s) => bupexDeliver l f s
        | (some k, s) => linkCount l k 1 s
    if f.cls.val = 0 ∨ f.body = .ack ∨ f.body = .replayRequest then take s
    else if f.lseq.toNat = (x.lack + 1) % 65536 then
      let s := linkMod l (fun x => { x with lack := f.lseq.toNat }) s
      take (linkQueue l 3 none "ack" (partnerFrame s l "ack" 3 0 []) s)
    else s

/-- A packet on a proxy queue carried to its home device (R566): it stays with the unit until the home device
acknowledges it. -/
def proxyEnqueue (q : Nat) (s : State) : State :=
  match (proxies s).find? fun e => e.localQ == q with
  | none => s
  | some e =>
    let x := queue s q
    match x.items with
    | [] => s
    | h :: t =>
      if (routeTo s e.home e.cls).isNone then s
      else
        let s := queuePut q { x with items := t } s
        let s := match pkt s h with
          | some p => pktPut h { p with st := .held } s
          | none => s
        let s := mdMod (fun (m : MultiDev) => { m with carried := m.carried ++ [h] }) s
        let (d, s) := readPacket (unitInit uBUPEX 0) h s
        sendTo e.home e.cls "proxy" (leBytes 2 e.homeQ ++ leBytes 4 h) d s

/-! ### Partition and rejoin (R570 to R574) -/

/-- Votes of some members. -/
def votesOf (s : State) (ds : List Nat) : Nat := sumL (((members s).filter fun m => ds.contains m.1).map fun m => m.2.1)

/-- The lowest DEVICE_ID of a set of members. -/
def leaderOf (ds : List Nat) : Nat := ds.foldl min 0xFFF

/-- The role a side takes: 2 PRIMARY, 3 AUTONOMOUS (R571). -/
def roleOf (s : State) (side : List Nat) : Nat :=
  let v := votesOf s side
  let total := votesOf s ((members s).map (·.1))
  if total < 2 * v then 2
  else if 2 * v = total ∧ (members s).any (fun m => side.contains m.1 && m.2.2) then 2
  else 3

/-- The queues that carry to some devices, with EN cleared or set again (R572, R574). -/
def proxyEn (ds : List Nat) (on : Bool) (s : State) : State :=
  (proxies s).foldl (fun s e =>
    if !ds.contains e.home then s
    else if on then
      (if s.serial.md.proxyOff.contains e.localQ then
         queuePut e.localQ { queue s e.localQ with en := true }
           (mdMod (fun (m : MultiDev) => { m with proxyOff := m.proxyOff.erase e.localQ }) s)
       else s)
    else if (queue s e.localQ).en then
      queuePut e.localQ { queue s e.localQ with en := false }
        (mdMod (fun (m : MultiDev) => { m with proxyOff := m.proxyOff ++ [e.localQ] }) s)
    else s) s

/-- The role, the leader and the suspensions set for the members now out of reach. -/
def takeRole (role leader : Nat) (cut : List Nat) (s : State) : State :=
  let old := s.serial.md.cut
  let lost := cut.filter fun d => !old.contains d
  let back := old.filter fun d => !cut.contains d
  let s := mdMod (fun (m : MultiDev) => { m with
    role := role, leader := leader, cut := cut
    cutAt := if m.cut = cut then m.cutAt else shortNow s
    cutBefore := if m.cut = cut then m.cutBefore else m.cut
    changedAt := if m.role = role then m.changedAt else shortNow s }) s
  let s := if lost = [] then s else audioPartition lost s
  let s := if back = [] then s else audioRejoin back s
  proxyEn back true (proxyEn lost false s)

/-- PARTITION_HOLD in nanoseconds. -/
def partitionHold (s : State) : Nat := fld (mdBody s) 2 2 * 1000000

/-- A partition declared (R570 to R573). -/
def partitionOp (s : State) : State :=
  let gone := s.serial.md.gone.map (·.1)
  if deviceId s ≠ 0xFFF ∧ s.serial.md.gone.any fun e => !s.serial.md.cut.contains e.1 && e.2 + partitionHold s ≤ s.now then
    let side := reachable s
    let role := roleOf s side
    let s := takeRole role (leaderOf side) gone s
    raise 0x2A06 uBUPEX 0 2 ([BitVec.ofNat 8 role, 0] ++ leBytes 2 (leaderOf side) ++ leBytes 2 side.length ++
      leBytes 2 (votesOf s side)) s
  else s

/-- An AUTONOMOUS side takes the other's state at a rejoin, but for the one of two with equal votes that holds the lower
leader (R574). -/
def adoptsTime (s : State) : Bool :=
  let m := s.serial.md
  let all := (members s).map (·.1)
  let own := all.filter fun d => !m.cut.contains d
  m.role == 3 && !(2 * votesOf s own == votesOf s all && leaderOf own < leaderOf m.cut)

/-- Members reachable again (R574): rejoin when all have been for PARTITION_HOLD; roles and suspensions computed again when
only some are. -/
def rejoinOp (s : State) : State :=
  let m := s.serial.md
  let gone := m.gone.map (·.1)
  if m.cut = [] then s
  else match m.allSince with
  | some t =>
    if t + partitionHold s ≤ s.now then
      let all := (members s).map (·.1)
      let s := if adoptsTime s then coxMod (fun (c : Cox) => { c with slewOnly := true }) s else s
      raise 0x2A07 uBUPEX 0 0 ([BitVec.ofNat 8 m.role, 0] ++ leBytes 2 (leaderOf all)) (takeRole 1 (leaderOf all) [] s)
    else s
  | none =>
    if m.cut.any fun d => !gone.contains d then
      let side := reachable s
      takeRole (roleOf s side) (leaderOf side) (m.cut.filter gone.contains) s
    else s

/-! ### The multi-device settings and the commands (R569, R575, R577) -/

/-- The settings body: its length and ranges, its members, votes and TIEBREAK. -/
def mdCheck (b : Bytes) : Nat :=
  let n := fld b 4 2
  let p := fld b 6 1
  let j := fld b 7 1
  let mem := fun k => sub b (16 + 4 * k) 4
  let prx := fun k => sub b (16 + 4 * n + 8 * k) 8
  let jnt := fun k => sub b (16 + 4 * n + 8 * p + 8 * k) 8
  firstFail [
    need (16 ≤ b.length) stBAD_LENGTH,
    need (1 ≤ n && n ≤ 256 && j ≤ 16) stBAD_PARAM,
    need (b.length == 16 + 4 * n + 8 * p + 8 * j) stBAD_LENGTH,
    need (fld b 0 2 ≤ 0xFFF && 1 ≤ fld b 2 2 && fld b 2 2 ≤ 10000 && rsv b 8 8) stBAD_PARAM,
    need ((List.range n).all fun k => fld (mem k) 0 2 % 0x8000 < 0xFFF && fld (mem k) 2 1 ≤ 15 && rsv (mem k) 3 1) stBAD_PARAM,
    need ((List.range p).all fun k => fld (prx k) 2 2 < 0xFFF && fld (prx k) 6 1 ≤ 3 && rsv (prx k) 7 1) stBAD_PARAM,
    need ((List.range j).all fun k => fld (jnt k) 0 1 < 64 && fld (jnt k) 1 1 < 64 && fld (jnt k) 2 2 < 0xFFF && rsv (jnt k) 4 4) stBAD_PARAM,
    need (fld b 0 2 == 0xFFF || (List.range n).any fun k => fld (mem k) 0 2 % 4096 == fld b 0 2) stBAD_PARAM,
    need (((List.range n).filter fun k => bit (fld (mem k) 0 2) 15).length ≤ 1) stBAD_PARAM,
    need (0 < sumL ((List.range n).map fun k => fld (mem k) 2 1)) stBAD_PARAM]

/-- Every Bupex link is STOPPED. -/
def linksStopped (s : State) : Bool := (List.range 6).all fun l => !isActive s (linkObj l)

/-- The settings have taken effect: JOINED once DEVICE_ID is set, NONE while it is not (R562, R573). -/
def mdApplied (s : State) : State :=
  watchMembers (mdMod (fun (m : MultiDev) =>
    { txSeq := m.txSeq, filters := m.filters, carried := m.carried
      role := if deviceId s = 0xFFF then 0 else 1
      changedAt := shortNow s }) s)

/-- MD_STATUS. -/
def mdStatusOp (r : Request) (s : State) : State :=
  runCmd 0x0A40 r (firstFail [targetCheck s r uBUPEX 0, need (r.params.length == 0) stBAD_LENGTH])
    (fun s =>
      let m := s.serial.md
      let seen := sortBy id (reachable s)
      (stDONE, [BitVec.ofNat 8 m.role, 0] ++ leBytes 2 m.leader ++ leBytes 2 (votesOf s seen) ++
        leBytes 2 (votesOf s ((members s).map (·.1))) ++ leBytes 8 m.changedAt ++ leBytes 2 seen.length ++ [0, 0] ++
        seen.flatMap (leBytes 2), s)) s

/-- BUPEX_LINK_STATS. -/
def linkStatsOp (r : Request) (s : State) : State :=
  runCmd 0x0A41 r (firstFail [targetCheck s r uBUPEX r.inst.toNat, need (r.params.length == 0) stBAD_LENGTH])
    (fun s => (stDONE, (List.range 10).flatMap fun k => leBytes 4 (cntGet s (cntKey uBUPEX r.inst.toNat k)), s)) s

/-- BUPEX_BOOT_SEND (R575): the lane is taken as a single-lane link at RATE 4. -/
def bootSendOp (r : Request) (s : State) : State :=
  let p := r.params
  let lane := fld p 0 1
  runLong 0x0A42 r
    (firstFail [targetCheck s r uBUPEX 0, need (p.length == 16) stBAD_LENGTH,
      need (lane ≤ 47 && rsv p 1 3 && 1 ≤ fld p 4 4 && fld p 4 4 ≤ 0x2000000) stBAD_PARAM,
      need (lane < laneCount s.part) stUNIT_ABSENT])
    (need (laneOwner s lane == 0) 0x0A01) none true
    (fun s => laneTake 2 0xFF 4 false lane s) s

/-- A frame of a boot transfer on a lane: DEVICE_ID fields 0xFFF, class 3 (R555, R575). -/
def bootOut (lane : Nat) (kind : String) (lseq lack : Nat) (body : Bytes) : Out :=
  let type := if kind = "ack" then 1 else if kind = "replay-request" then 2 else 4
  .boot lane kind (wireFrame (stampFrame lseq lack (headBytes type 3 false false 0xFFF 0xFFF 0 255 ++ body)))

/-- The boot transfer's end: the target's BOOT_READY came and the image went out as frames of 256 bytes, or it did not
come within 2 s; the lane returns to electrical idle. -/
def bootSent (l : Long) (ready : Bool) (s : State) : State :=
  let lane := fld l.params 0 1
  let len := fld l.params 4 4
  if !ready then completeLong l 0x0A04 [] (laneDrop lane s)
  else match readBytes (unitInit uSYS 0) (fld l.params 8 8) len s with
  | (.ok, bs, _, s) =>
    let n := ceilDiv len 256
    let s := (List.range n).foldl (fun s k => emit (bootOut lane "boot" k 0xFFFF (sub bs (256 * k) (min 256 (len - 256 * k)))) s) s
    completeLong l stDONE [] (laneDrop lane (emit (bootOut lane "boot-end" n 0xFFFF []) s))
  | (.wait, _, _, s1) => waitAt s s1
  | (_, _, _, s) => completeLong l stHW_FAULT [] (laneDrop lane s)

/-- The PCI Express host link changes (R546): PCIE_STATUS and the L1 state. -/
def pcieLink (up : Bool) (gen width : Nat) (l1 : Bool) (s : State) : State :=
  let v := if up then 2 ^ 31 + gen % 8 * 2 ^ 28 + width % 32 * 2 ^ 23 else 0
  serialMod (fun (z : Serial) => { z with pcieL1 := up && l1 }) (regPut uPCIE 0 0x000 (BitVec.ofNat 32 v) s)

end Sys2Proof.Machine
end

