-- ==== Sys2Proof/Machine/Power.lean ====
section
/-!
DEFINITION. The power controller: idleness, entry, wake, retention, rails and power failure (18_power.md, R602 to R631),
and the temperature sensors (20_electrical.md, R664).
-/
namespace Sys2Proof.Machine
open Sys2Proof

def powerMod (f : Power → Power) (s : State) : State := { s with power := f s.power }

/-- The policy object of a domain, or the supply settings (255), and their unset values (R628, R629, R667). -/
def policyObj (n : Nat) : Nat := objId 7 1 n
def policyUnset : Bytes := [1, 0, 0, 0] ++ leBytes 4 10 ++ zeros 8
def supplyUnset : Bytes :=
  [2, 7, 0, 0] ++ zeros 20 ++ (List.range 8).flatMap fun _ => leBytes 2 950 ++ leBytes 2 900 ++ leBytes 2 1100 ++ [0, 0]
def policy (s : State) (d : Nat) : Bytes := ((objFind s (policyObj d)).map (·.body)).getD policyUnset
def supply (s : State) : Bytes := ((objFind s (policyObj 255)).map (·.body)).getD supplyUnset

/-- The ranges of a domain policy's body (R628). -/
def policyOk (d : Nat) (b : Bytes) : Bool :=
  let doze := fld b 4 4
  let hold := fld b 8 4
  fld b 0 1 ≤ depth (domainLowest d) && fld b 1 1 < 4 && (!bit (fld b 1 1) 0 || d < 12) && rsv b 2 2 && doze ≤ 1000000 &&
    (hold == 0 || (doze ≤ hold && hold ≤ 100000000)) && fld b 12 4 ≤ 3600000

/-- The ranges of the supply policy's body (R629). -/
def supplyOk (b : Bytes) : Bool :=
  1 ≤ fld b 0 1 && fld b 0 1 ≤ 100 && fld b 1 1 < 8 && rsv b 4 4 &&
    (List.range 8).all fun m =>
      let warn := fld b (24 + 8 * m) 2
      let uv := fld b (26 + 8 * m) 2
      let ov := fld b (28 + 8 * m) 2
      uv < warn && warn < 1000 && 1000 < ov && rsv b (30 + 8 * m) 2

/-- The deepest state a request may name now: the lowest state, LIMIT, and DOZE for a lane group with a link that is not
STOPPED (R607, R608, R630). -/
def deepest (s : State) (d : Nat) : Nat :=
  let m := min (depth (domainLowest d)) (fld (policy s d) 0 1)
  if 33 ≤ d ∧ d ≤ 36 ∧ ((List.range 6).any fun l => isActive s (linkObj l) && (linkLanes (linkBody s l)).any fun n => n / 12 == d - 33)
  then min m 1 else m

/-! ### Idleness (R606) -/

/-- The refuser of a crew's own condition. -/
def crewRefuser (s : State) (n : Nat) : Option (Nat × Nat) :=
  let busy := (List.range 8).find? fun k =>
    let c := 8 * n + k
    let x := core s c
    !(x.run == .reset || x.run == .wfi || (x.run == .taskWait && (spFind s.shuttle.staged c).isNone)) ||
      x.tags.any fun t => t.2.st == .live
  match busy with
  | some k => some (uCREW + n, k)
  | none =>
    if (List.range 5).any (fun e => !(copQueue s n e).isEmpty) || (List.range 32).any fun b => (spFind s.bankPend (32 * n + b)).isSome
    then some (uCREW + n, 8) else none

/-- The refuser of the condition of a domain's kind. -/
def kindRefuser (s : State) (d : Nat) : Option (Nat × Nat) :=
  if d < 12 then crewRefuser s d
  else if d ≤ 14 then
    (s.shuttle.engines.find? fun e => domainOf (engineUnit e.1).1 (engineUnit e.1).2 == some d).map fun e => engineUnit e.1
  else if d ≤ 16 then
    if (fronthaulActive s).isEmpty then none else some (if d = 15 then uFRONTHAUL else uCSS, 0)
  else if d ≤ 20 then
    ((s.video.sessions.filterMap fun e => e.2.engine).find? fun n => n / 2 == d - 17).map fun n => (uVIDEO, n)
  else if d = 21 then
    if s.video.layouts.any fun e => layTiles e.2.cur != 0 || layTiles (layoutLast e.2) != 0 then some (uCOMPOSE, 0) else none
  else if d = 22 then
    if !s.video.fwd.legs.isEmpty || (activeVideo s).any (fun e => 2 ≤ vKind e.2) then some (uFWD, 0) else none
  else if d = 23 then
    if (objsOf s 4 1).any fun e => e.2.st == some .running then some (uAUDIO, 0) else none
  else if d = 24 then
    ([0, 1].find? fun p => s.audio.legs.any fun l => l.2.source == p + 1 || l.2.sink == p + 1).map fun p => (uHSP, p)
  else if d ≤ 32 then none
  else if d ≤ 36 then
    ((List.range 12).find? fun k =>
      let n := 12 * (d - 33) + k
      n < laneCount s.part && (laneOwner s n == 1 || !(regF s uLANE n 0x000 26 26 == 1 || lanesOff s))).map fun k =>
        (uLANE, 12 * (d - 33) + k)
  else if regF s uPCIE 0 0x000 31 31 = 1 ∧ !s.serial.pcieL1 then some (uPCIE, 0) else none

/-- The first refuser of a domain, none when it is idle. -/
def refuser (s : State) (d : Nat) : Option (Nat × Nat) :=
  match kindRefuser s d with
  | some r => some r
  | none =>
    ((List.range 64).find? fun n => (nodeDomains n).contains d && (!gwEmpty s n || gwResOut s n != 0)).map fun n => (uWEFT, n)

def isIdle (s : State) (d : Nat) : Bool := (refuser s d).isNone

/-- A clock cycle of the idle timers: a domain's begins when it is idle and begins anew when it is not (R607). -/
def idleTick (s : State) : State :=
  (List.range 38).foldl (fun s d =>
    let x := dom s d
    match isIdle s d, x.idleSince with
    | true, none => domPut d { x with idleSince := some s.now } s
    | false, some _ => domPut d { x with idleSince := none } s
    | _, _ => s) s

/-! ### Requests (R607, R609, R612, R630) -/

/-- An entry requested: HOLD and OFF look at idleness in their steps, DOZE when the request is taken. -/
def startEntry (d : Nat) (t : PState) (s : State) : State :=
  let go := domPut d { dom s d with trans := some (.entry t 0) } s
  if t ≠ .doze then go
  else match refuser s d with
  | some r => powerRefuse d t r.1 r.2 s
  | none => go

/-- A pending request put in place; one it replaces ends with POWER_SUPERSEDED. -/
def setPend (d : Nat) (t : PState) (s : State) : State :=
  let x := dom s d
  let s := domPut d { x with pend := some t } s
  match x.pend with
  | some p => if p = t then s else powerEnd d p 0x0703 uPOWER 0 s
  | none => s

/-- The pending request started at the end of a transition, unless a wake has followed at once (R612). -/
def startPending (d : Nat) (s : State) : State :=
  let x := dom s d
  match x.pend with
  | none => s
  | some p =>
    if x.trans.isSome then s
    else
    let s := domPut d { x with pend := none } s
    if depth p = depth x.st then powerEnd d p stDONE 0 0 s
    else if depth p < depth x.st then beginWake d s
    else match refuser s d with
    | some r => powerRefuse d p r.1 r.2 s
    | none => startEntry d p s

/-- A request of the idle timer, a command or a register for a state (R612). -/
def powerRequest (d : Nat) (t : PState) (s : State) : State :=
  let x := dom s d
  let later := fun (s : State) => if t = .run then s else setPend d t s
  match x.trans with
  | none =>
    if t = x.st then powerEnd d t stDONE 0 0 s
    else if x.shed then domPut d { dom (later s) d with wakeNext := x.wakeNext || depth t < depth x.st } (later s)
    else if depth x.st < depth t then startEntry d t s
    else beginWake d (later s)
  | some (.entry dest _) =>
    if t = dest then s
    else if depth dest < depth t then setPend d t s
    else if abortable x then startPending d (later (abortEntry d uPOWER 0 s))
    else domPut d { dom (later s) d with wakeNext := true } (later s)
  | some (.wake _ _ _) => later s

/-- Every POWER_SET whose request has ended is completed (R630). A request for RUN ends where the domain is in RUN. -/
def powerComplete (s : State) : State :=
  let es := s.power.ended
  es.foldl (fun s e =>
    (s.cmd.longs.filter fun l => l.opcode == 0x0740 && fld l.params 0 1 == e.dom && fld l.params 1 1 == depth e.target).foldl
      (fun s l => completeLong l e.status
        ([BitVec.ofNat 8 (depth (dom s e.dom).st), 0, BitVec.ofNat 8 e.unit, BitVec.ofNat 8 e.inst] ++ zeros 4 ++
          leBytes 8 (shortNow s)) s) s)
    (powerMod (fun (p : Power) => { p with ended := [] }) s)

/-! ### Entry (R609 to R611, R616, R617) -/

/-- The CRC-64 of R617 over a bank's bytes, as they are read. -/
def crc64 (bs : Bytes) : Nat := Nat.xor (crcMsb 64 0x42F0E1EBA9EA3693 0xFFFFFFFFFFFFFFFF bs) 0xFFFFFFFFFFFFFFFF

/-- A scratchpad word as a read returns it; none when it is uncorrectable. -/
def spmWord (s : State) (w : Nat) : Option Bytes :=
  match decodeS (errPat s w) with
  | .good x => some (xorWord (memBytes s.mem w 32) x)
  | .corrected x _ => some (xorWord (memBytes s.mem w 32) x)
  | .bad => none

/-- The bytes of a bank in ascending order. -/
def bankBytes (s : State) (crew bank : Nat) : Bytes :=
  (List.range 8192).flatMap fun k =>
    let w := spmBase + crew * 0x1000000 + bank * 0x40000 + 32 * k
    (spmWord s w).getD (memBytes s.mem w 32)

/-- The sentinels and signatures of a crew's banks. -/
def putSentinels (crew : Nat) (sign : Bool) (s : State) : State :=
  (List.range 32).foldl (fun s b =>
    let a := sentinelAddr crew b
    let (v, s) := draw s
    let saved := memBytes s.mem a 32
    let err := errPat s a
    let s := putErr a {} (storeRaw a (leBytes 32 v) s)
    let crc := if sign then some (crc64 (bankBytes s crew b)) else none
    domPut crew { dom s crew with
      retained := (dom s crew).retained ++ [{ bank := b, saved := saved, err := err, sentinel := leBytes 32 v, crc := crc }] } s) s

/-- An entry refused: the domain stays in RUN or returns to it, its sentinel words restored (R609, R611). -/
def refuseEntry (d : Nat) (t : PState) (r : Nat × Nat) (s : State) : State :=
  let x := dom s d
  let s := powerRefuse d t r.1 r.2 s
  if x.st = .hold then beginWake d s
  else startPending d
    (putBack d x.retained (domPut d { x with st := .run, trans := none, idleSince := none, retained := [] } s))

/-- One step of an entry into HOLD or OFF (R609). -/
def entryStep (d : Nat) (t : PState) (k : Nat) (s : State) : State :=
  let next := fun (s : State) => domPut d { dom s d with trans := some (.entry t k) } s
  let held := (dom s d).st = .hold
  if k = 1 ∨ k = 5 then
    match refuser s d with
    | some r => refuseEntry d t r s
    | none => next s
  else if k = 2 ∧ d < 12 ∧ !held then
    let s := (List.range 8).foldl (fun s j => resetFlush (8 * d + j) s) s
    if (List.range 8).all fun j => (core s (8 * d + j)).writes.isEmpty then next s else s
  else if k = 3 ∧ d < 12 ∧ t = .hold then next (putSentinels d (bit (fld (policy s d) 1 1) 0) s)
  else next s

/-- The steps of an entry up to step `upto`, or to its refusal; step 6 is the point of no return. -/
def entrySteps (d upto : Nat) : Nat → State → State
  | 0, s => s
  | n + 1, s =>
    match (dom s d).trans with
    | some (.entry t k) =>
      if t ≠ .doze ∧ k < upto ∧ k < 6 then entrySteps d upto n (entryStep d t (k + 1) s) else s
    | _ => s

/-- The clocks of a domain entering DOZE are gated (R610). -/
def dozeEntry (d : Nat) (s : State) : State :=
  let x := dom s d
  match x.trans with
  | some (.entry .doze _) =>
    startPending d (powerEnd d .doze stDONE 0 0 (domPut d { x with st := .doze, trans := none } s))
  | _ => s

/-- HOLD or OFF is reached (R609, R612). -/
def entryComplete (d : Nat) (s : State) : State :=
  let x := dom s d
  match x.trans with
  | some (.entry t n) =>
    if n < 6 then s
    else
      let keep := if t = .off then [] else x.retained
      let s := powerEnd d t stDONE 0 0 (domPut d { x with st := t, trans := none, wakeNext := false, retained := keep } s)
      if x.wakeNext ∧ !x.shed then beginWake d s
      else if x.wakeNext then domPut d { dom s d with wakeNext := true } s
      else startPending d s
  | _ => s

/-- A domain's idle timer reaches DOZE_US, HOLD_US or OFF_MS (R607). -/
def idleExpiry (d which : Nat) (s : State) : State :=
  let b := policy s d
  let ns := if which = 0 then fld b 4 4 * 1000 else if which = 1 then fld b 8 4 * 1000 else fld b 12 4 * 1000000
  let t := ofDepth (which + 1)
  let x := dom s d
  match x.idleSince with
  | none => s
  | some t0 =>
    if ns = 0 ∨ s.now < t0 + ns ∨ !isIdle s d ∨ domainAbsent s.part d ∨ x.fault ∨ x.shed ∨ deepest s d < which + 1 ∨
        which + 1 ≤ depth x.st then s
    else powerComplete (powerRequest d t s)

/-! ### Wake (R605, R614, R615, R618) -/

/-- The bytes and error patterns of a bank cleared to zero. -/
def clearBank (crew bank : Nat) (s : State) : State :=
  let lo := spmBase + crew * 0x1000000 + bank * 0x40000
  let out := fun (a : Nat) => a < lo || lo + 0x40000 ≤ a
  { s with mem := s.mem.filter fun c => out c.1, ecc := s.ecc.filter fun e => out e.1 }

/-- A bank looked at on wake from HOLD: its saved word is written back, or it is cleared, POISONED and reported. -/
def retentionCheck (crew : Nat) (r : Retained) (s : State) : State :=
  let a := sentinelAddr crew r.bank
  let s := match decodeS (errPat s a) with
    | .corrected _ _ => sramCe (uCREW + crew) 8 a s
    | .bad => sramUe (uCREW + crew) 8 a (unitInit uPOWER 0) s
    | .good _ => s
  let cause :=
    if spmWord s a ≠ some r.sentinel then 1
    else match r.crc with
      | some v => if crc64 (bankBytes s crew r.bank) = v then 0 else 2
      | none => 0
  if cause = 0 then putBack crew [r] s
  else
    raise 0x3101 uPOWER crew 2 [BitVec.ofNat 8 crew, BitVec.ofNat 8 r.bank, BitVec.ofNat 8 cause]
      (regPutF (uCREW + crew) crewCtl 0x024 r.bank r.bank 1 (clearBank crew r.bank s))

/-- The registers of a domain's units take their reset values, CREW_BOOT_VEC and a failed crew's CREW_FAULT apart
(R263, R604, R605). -/
def resetUnits (d : Nat) (s : State) : State :=
  let kept := fun (k : Nat) => k / 0x10000 % 256 == crewCtl && (k % 0x10000 == 0x008 || k % 0x10000 == 0x00C || k % 0x10000 == 0x010)
  let mine := fun (k : Nat) => domainOf (k / 0x1000000) (k / 0x10000 % 256) == some d && !(d < 12 && kept k)
  let us := [(15, uFRONTHAUL), (16, uCSS), (21, uCOMPOSE), (22, uFWD), (23, uAUDIO)]
  let s := { s with regs := s.regs.filter fun e => !mine e.1 }
  match us.find? (·.1 == d) with
  | some u => cntZeroAll (fun k => k / 0x100000000 == u.2) s
  | none =>
    if 33 ≤ d ∧ d ≤ 36 then
      let s := cntZeroAll (fun k => k / 0x100000000 == uETH && k % 0x100000000 / 16 < 48 && k % 0x100000000 / 16 / 12 == d - 33) s
      serialMod (fun (z : Serial) => { z with
        owner := z.owner.filter fun e => e.1 / 12 != d - 33
        prbs := z.prbs.filter fun e => e.1 / 12 != d - 33
        fir := z.fir.filter fun e => e.1 / 32 / 12 != d - 33
        eq := z.eq.filter fun e => e.1 / 32 / 12 != d - 33
        idle := z.idle.filter fun e => 48 ≤ e.1 || e.1 / 12 != d - 33 }) s
    else s

/-- A crew's cores restart when the wake lost their state; a core held in reset stays so (R605). -/
def restartCrew (n : Nat) (s : State) : State :=
  if !crewUsable s n then s
  else (List.range 8).foldl (fun s k => if (core s (8 * n + k)).run = .reset then s else startCore (8 * n + k) s) s

/-- CREW_BOOT_VEC written back from the power controller's copy. -/
def restoreBootVec (n : Nat) (s : State) : State :=
  let v := spGet 0 s.power.bootVec n
  regPut (uCREW + n) crewCtl 0x010 (BitVec.ofNat 32 (v / 2 ^ 32 % 2 ^ 16))
    (regPut (uCREW + n) crewCtl 0x00C (BitVec.ofNat 32 (v % 2 ^ 32 / 4 * 4)) s)

/-- LOGIC_READY: the domain is in RUN, held packets are delivered, waiting cores go on, the pending request starts. -/
def wakeDone (d : Nat) (src : PState) (s : State) : State :=
  let s := if src = .off then
      (if d < 12 then restoreBootVec d (resetUnits d ((List.range 32).foldl (fun s b => clearBank d b s) s)) else resetUnits d s)
    else s
  let s := if d < 12 ∧ (src = .hold ∨ src = .off) then restartCrew d s else s
  let s := domPut d { dom s d with st := .run, trans := none, idleSince := none, retained := [] } s
  let s := deliverHeld d (powerEnd d .run stDONE 0 0 s)
  let s := if d < 12 then
      (List.range 8).foldl (fun s k =>
        let s := wakeWfi (8 * d + k) s
        if (core s (8 * d + k)).run = .taskWait then takeStaged (8 * d + k) s else s) s
    else s
  startPending d s

/-- The next ready signal of a wake asserts (R614). -/
def wakeStep (d : Nat) (s : State) : State :=
  let x := dom s d
  match x.trans with
  | some (.wake src k _) =>
    let s := domPut d { x with trans := some (.wake src (k + 1) s.now) } s
    let s := if k = 2 ∧ d < 12 ∧ src = .hold then
        domPut d { dom (x.retained.foldl (fun s r => retentionCheck d r s) s) d with retained := [] }
          (x.retained.foldl (fun s r => retentionCheck d r s) s)
      else s
    if k < 3 then s else powerComplete (wakeDone d src s)
  | _ => s

/-- The time of a ready step in nanoseconds, retention checks and clears apart (R614). -/
def readyTime (d : Nat) (src : PState) (k : Nat) : Nat :=
  match src with
  | .hold => [10000, 20000, 1000, 1000].getD k 0
  | .off => [200000, 20000, if 25 ≤ d ∧ d ≤ 32 then 3000 else 1000, 2000].getD k 0
  | _ => [0, 0, 0, 50].getD k 0

/-- A wake fails (R615): a crew whose supply or PLL does not come up fails; any other domain enters FAULT, and what its
gateways hold is answered with a bus error. -/
def wakeFail (d : Nat) (s : State) : State :=
  let x := dom s d
  match x.trans with
  | some (.wake src k since) =>
    if s.now < since + 4 * readyTime d src k then s
    else
      let s := raise 0x3102 uPOWER d 2 [BitVec.ofNat 8 d, BitVec.ofNat 8 k] s
      let s := powerEnd d .run stHW_FAULT uPOWER 0 s
      let s := match x.pend with
        | some p => powerEnd d p stHW_FAULT uPOWER 0 s
        | none => s
      let x := { x with trans := none, pend := none, wakeNext := false }
      powerComplete (
        if d < 12 ∧ k < 2 then crewFailureOp d (crewFatalOp d (1 - k) (domPut d x s))
        else deliverHeld d (domPut d { x with fault := true } s))
  | _ => s

/-- A wake source of R613 asks for RUN. -/
def wakeSource (d : Nat) (w : WakeSource) (s : State) : State :=
  match w with
  | .node n => if (nodeDomains n).contains d ∧ !gwEmpty s n then wakeRequestBase d uWEFT n s else s
  | .shuttle =>
    if s.shuttle.staged.any (fun e => e.1 / 8 == d && d < 12) ||
        s.shuttle.engines.any fun e => domainOf (engineUnit e.1).1 (engineUnit e.1).2 == some d
    then wakeRequestBase d uSHUTTLE 0 s else s
  | .irq c => if c.val / 8 = d then wakeWfi c s else s
  | .lane n => if 33 + n.val / 12 = d then wakeRequestBase d uLANE n s else s
  | .hsp p => if d = 24 then wakeRequestBase d uHSP p s else s

/-- A write of CREW_RETENTION_ACK by an initiator: accepted for every named bank or for none (R619). -/
def retentionAck (i : Initiator) (n v : Nat) (s : State) : Bool × State :=
  let may := fun (b : Nat) =>
    let o := bankOwner s n b
    match coreOf i with
    | some c => (c / 8 == n && (o == c % 8 || o == 0x08 || (0x10 ≤ o && o ≤ 0x4F))) || (c / 8 != n && o == 0x50 + c)
    | none => i.unit.toNat == uPCIE || i.unit.toNat == uSYS
  if (List.range 32).all fun b => !bit v b || may b then
    (true, regPut (uCREW + n) crewCtl 0x024
      (regGet s (uCREW + n) crewCtl 0x024 &&& ~~~(BitVec.ofNat 32 v)) s)
  else (false, s)

/-! ### Rails and PFAIL_N (R621 to R626) -/

/-- A rail's counts after a sample. -/
def railCount (x : RailCount) (now v warn uv ov : Nat) : RailCount :=
  let up := fun (c : Bool) (n : Nat) => if c then min 5 (n + 1) else 0
  { uvWarn := up (v < warn) x.uvWarn, uvFault := up (v < uv) x.uvFault, ovFault := up (ov < v) x.ovFault
    goodSince := if warn < v then some (x.goodSince.getD now) else none }

/-- A sample of a rail monitor; a threshold is crossed with the fourth consecutive sample beyond it (R621). The resets of
R622 have a command of their own. -/
def monitorSample (m v : Nat) (s : State) : State :=
  let b := supply s
  let x := railCount (spGet {} s.power.rails m) s.now v (fld b (24 + 8 * m) 2) (fld b (26 + 8 * m) 2) (fld b (28 + 8 * m) 2)
  let s := powerMod (fun (p : Power) => { p with rails := spSet {} p.rails m x }) s
  if s.sec.held ≠ .no then s
  else
    let s := regPutF uPOWER 0 (0x400 + 4 * m) 15 0 v s
    let data := [BitVec.ofNat 8 m, 0] ++ leBytes 2 v
    let s := if x.uvWarn = 4 then raiseLim second m 0x3103 uPOWER m 1 data (regPutF uPOWER 0 (0x400 + 4 * m) 31 31 1 s) else s
    let s := if x.ovFault = 4 then raise 0x3104 uPOWER m 3 data (regPutF uPOWER 0 (0x400 + 4 * m) 29 29 1 s) else s
    if x.uvFault = 4 then
      let s := regPutF uPOWER 0 (0x400 + 4 * m) 30 30 1 s
      if m = 2 ∨ m = 3 then
        (List.range 6).foldl (fun s k => crewFailureOp (6 * (m - 2) + k) (crewFatalOp (6 * (m - 2) + k) 1 s)) s
      else s
    else s

/-- A monitor among some has reported UV_FAULT and its rail has not recovered. -/
def railFault (s : State) (ms : List Nat) : Bool := ms.any fun m => 4 ≤ (spGet {} s.power.rails m).uvFault

/-- Every rail of some has stayed above UV_WARN for 10 ms. -/
def railsGood (s : State) (ms : List Nat) : Bool :=
  ms.all fun m => ((spGet {} s.power.rails m).goodSince).any fun t => t + 10000000 ≤ s.now

/-- The domains a PFAIL holds in DOZE. -/
def shedDomains (s : State) : List Nat :=
  (List.range 38).filter fun d => bit (fld (policy s d) 1 1) 1 && !domainAbsent s.part d

/-- A domain held in DOZE: one in RUN has its clocks gated whatever it does, a wake in progress stops (R623). -/
def shedOne (d : Nat) (s : State) : State :=
  let x := dom s d
  match x.trans with
  | some (.entry t n) =>
    if n < 6 then putBack d (if x.st = .hold then [] else x.retained)
        (domPut d { x with shed := true, st := if x.st = .run then .doze else x.st, trans := none
                           retained := if x.st = .hold then x.retained else [] } (powerEnd d t 0x0702 uPOWER 0 s))
    else domPut d { x with shed := true } s
  | some (.wake _ _ _) => domPut d { x with shed := true, trans := none, wakeNext := true } s
  | none => domPut d { x with shed := true, st := if x.st = .run then .doze else x.st } s

/-- PFAIL_N has stayed low for PFAIL_FILTER_US (R623 to R625). -/
def pfailOp (s : State) : State :=
  let b := supply s
  let fl := fld b 1 1
  let s := powerMod (fun (p : Power) => { p with pfailPin := false }) s
  if !bit fl 0 ∨ regF s uPOWER 0 0x000 31 31 = 1 ∨ s.sec.held ≠ .no then s
  else
    let ds := shedDomains s
    let mgmt := bit fl 1 && fld b 8 16 != 0
    let links := bit fl 2
    let s := regPutF uPOWER 0 0x000 31 30 3 (powerMod (fun (p : Power) => { p with pfailAt := some s.now }) s)
    let e : Event := { code := 0x3105, unit := uPOWER, inst := 0, sev := 2,
                       data := fit 16 ([BitVec.ofNat 8 (b2n mgmt + 2 * b2n links), 0] ++ leBytes 2 ds.length) }
    let rec_ := eventBytes s e
    let s := deliver e s
    let s := ds.foldl (fun s d => shedOne d s) (regPutF uPOWER 0 0x000 29 29 (b2n (!ds.isEmpty)) s)
    let s := if mgmt then
        (List.range 3).foldl (fun s k => emit (.eth 48 "last-gasp"
          (sub b 8 16 ++ leBytes 2 (fld b 2 2) ++ [0x59, 0x44, 0x4C, 0x47] ++ leBytes 2 1 ++ leBytes 2 k ++
            leBytes 8 Config.serial.toNat ++ rec_)) s) s
      else s
    powerComplete (if links then
        (upLinks s).foldl (fun s l => linkSend l 0 "last-gasp" (partnerFrame s l "last-gasp" 0 0 ([0x10, 0] ++ leBytes 2 (deviceId s))) s) s
      else s)

/-- A LAST_GASP frame received (R625). -/
def lastGasp (l sender : Nat) (s : State) : State :=
  if linkUp s l ∧ !linkDeaf s l then raise 0x2A08 uBUPEX l 0 (leBytes 2 sender) s else s

/-- A shed domain released: it wakes for what has asked for it or still has work (R626). -/
def release (d : Nat) (s : State) : State :=
  let x := dom s d
  let s := domPut d { x with shed := false } s
  if x.trans.isNone ∧ x.st ≠ .run ∧ (x.wakeNext || !isIdle s d) then beginWake d s
  else if x.trans.isNone then startPending d s else s

/-- PFAIL_N has stayed high for 10 ms (R626). -/
def powerRestored (s : State) : State :=
  let s := powerMod (fun (p : Power) => { p with pfailPin := true }) s
  match s.power.pfailAt with
  | none => s
  | some t =>
    if s.now < t + 10000000 then s
    else
      let s := regPutF uPOWER 0 0x000 31 31 0 (regPutF uPOWER 0 0x000 29 29 0 s)
      let s := powerMod (fun (p : Power) => { p with pfailAt := none }) s
      let s := ((List.range 38).filter fun d => (dom s d).shed).foldl (fun s d => release d s) s
      raise 0x3106 uPOWER 0 0 (leBytes 8 (s.now - t)) (powerComplete s)

/-! ### Commands and registers (R630, R631) -/

/-- POWER_SET. -/
def powerSetOp (r : Request) (s : State) : State :=
  let p := r.params
  let d := fld p 0 1
  let t := fld p 1 1
  runLong 0x0740 r
    (firstFail [targetCheck s r uPOWER 0, need (p.length == 8) stBAD_LENGTH, need (d < 38 && t < 4 && rsv p 2 6) stBAD_PARAM,
      need (!domainAbsent s.part d) stUNIT_ABSENT, need (t ≤ deepest s d) 0x0704])
    0 none true
    (fun s => if (dom s d).fault then powerEnd d (ofDepth t) stHW_FAULT uPOWER 0 s else powerRequest d (ofDepth t) s) s

/-- POWER_STATUS. -/
def powerStatusOp (r : Request) (s : State) : State :=
  runCmd 0x0741 r (firstFail [targetCheck s r uPOWER 0, need (r.params.length == 0) stBAD_LENGTH])
    (fun s => (stDONE, (List.range 38).flatMap fun d =>
      let x := dom s d
      let absent := domainAbsent s.part d
      let acct := (regGet s uPOWER 0 (0x108 + 0x10 * d)).toNat
      let last := (regGet s uPOWER 0 (0x10C + 0x10 * d)).toNat
      [BitVec.ofNat 8 (if absent then 3 else depth x.st),
       BitVec.ofNat 8 (b2n x.trans.isSome + 2 * b2n x.pend.isSome + 4 * b2n x.fault + 8 * b2n absent)] ++
        leBytes 2 (bits acct 31 16) ++ leBytes 2 (bits acct 15 0) ++
        [BitVec.ofNat 8 (bits last 23 16), BitVec.ofNat 8 (bits last 15 8)], s)) s

/-- POWER_SET ended by CANCEL before its point of no return: its pending request is withdrawn, or its entry ends (R55). -/
def powerCancel (l : Long) (s : State) : Bool × State :=
  let d := fld l.params 0 1
  let t := ofDepth (fld l.params 1 1)
  let x := dom s d
  if x.pend = some t then (true, domPut d { x with pend := none } s)
  else match x.trans with
  | some (.entry dest n) =>
    if dest ≠ t then (true, s)
    else if dest = .doze ∨ n < 6 then
      (true, if x.st = .hold then domPut d { x with trans := none } s
        else putBack d x.retained (domPut d { x with st := .run, trans := none, retained := [] } s))
    else (false, s)
  | _ => (true, s)

/-- A write of POWER_DOM_CTRL_n; one that R630 refuses changes nothing. -/
def domCtrlWrite (d v : Nat) (s : State) : State :=
  if !bit v 2 ∨ domainAbsent s.part d ∨ (dom s d).fault ∨ deepest s d < v % 4 then s
  else powerComplete (powerRequest d (ofDepth (v % 4)) s)

/-- POWER_DOM_STATE_n as it reads. -/
def domStateRead (s : State) (d : Nat) : Nat :=
  let x := dom s d
  if domainAbsent s.part d then 3 * 2 ^ 30 + 2 ^ 22
  else
    let (aim, ready) := match x.trans with
      | some (.entry t _) => (depth t, match x.st with | .run => 15 | .doze => 7 | _ => 0)
      | some (.wake _ k _) => (0, 2 ^ k - 1)
      | none => (0, match x.st with | .run => 15 | .doze => 7 | _ => 0)
    depth x.st * 2 ^ 30 + b2n x.trans.isSome * 2 ^ 29 + aim * 2 ^ 27 + b2n x.pend.isSome * 2 ^ 26 +
      depth (x.pend.getD .run) * 2 ^ 24 + b2n x.fault * 2 ^ 23 + ready

/-- A policy applied: a LIMIT shallower than the present state is a wake request for it (R613, R628). -/
def policyApplied (d : Nat) (s : State) : State :=
  let lim := fld (policy s d) 0 1
  if lim < depth (dom s d).st ∧ !(dom s d).fault then powerComplete (powerRequest d (ofDepth lim) s) else s

/-! ### Temperature (R664) -/

/-- A sensor's reading. -/
def tempUpdate (k v : Nat) (s : State) : State :=
  if s.sec.held ≠ .no then s
  else
    let s := regPut uPOWER 0 (0x500 + 4 * k) (BitVec.ofNat 32 (2 ^ 31 + v % 2 ^ 13)) s
    if toS 13 (regF s uPOWER 0 0x540 12 0) < toS 13 v then regPut uPOWER 0 0x540 (BitVec.ofNat 32 (v % 2 ^ 13)) s else s

end Sys2Proof.Machine
end

