-- ==== Sys2Proof/Machine/Cycle.lean ====
section
/-!
DEFINITION. What a clock cycle does when no command waits (12_cox_time.md, R417; 17_jortanu_fabric.md, R599;
18_power.md, R607).
-/
namespace Sys2Proof.Machine
open Sys2Proof

/-- One cycle of the Cox PLL, 1 ns nominal: the counter advances, serial ports shift, input filters and idle timers run,
launched messages, link blocks, DMA transfers and Weft flits move, write-backs that wait are tried again, and a stopping carrier's last slot may end. While the device
is held in reset only time passes. -/
def cycle (s : State) : Res :=
  if s.sec.held = .no then done (writesTick (idleTick (carrierTick (weftTick (dmaTick (linksTick (launchTick (fabricTick (coxTick s))))))))) else .next { s with now := s.now + 1 }

end Sys2Proof.Machine
end

