-- ==== Sys2Proof/Machine/AudioRows.lean ====
section
/-!
DEFINITION. The commands of the audio bridge and the headset ports (10_audio_bridge.md).
-/
namespace Sys2Proof.Machine
open Sys2Proof

/-- BRIDGE_GROUP_RUNNING: an admitted bridge group reaches RUNNING (R349). -/
def execBridgeGroupRunning (g : Fin 512) (s : State) : Res :=
  done (bridgeRunning g s)

/-- BRIDGE_GROUP_STOPPED: a stopping bridge group reaches STOPPED (R65, R350). -/
def execBridgeGroupStopped (g : Fin 512) (s : State) : Res :=
  done (bridgeStopped g s)

/-- INPUT_FRAME: the head of a group's IN_Q is taken (R345, R346, R351 to R354). -/
def execInputFrame (g : Fin 512) (s : State) : Res :=
  done (inputFrame g s)

/-- BLOCK_COMPUTE: the block in progress is computed; `mic0` and `mic1` are the 48 samples of the last millisecond at each headset port and `took` the time taken in 10 ns (R355 to R371). -/
def execBlockCompute (mic0 : List (BitVec 24)) (mic1 : List (BitVec 24)) (took : BitVec 16) (s : State) : Res :=
  done (blockCompute [mic0.map (·.toInt), mic1.map (·.toInt)] took.toNat s)

/-- AUDIO_BLOCK_OVERRUN: the block in progress is not computed by B + 400 µs (R357). -/
def execAudioBlockOverrun (s : State) : Res :=
  done (blockOverrun s)

/-- SUBSUM_RECEIVED: a remote sub-sum of the block that begins at `block` arrives (R371). -/
def execSubsumReceived (g : Fin 512) (device : BitVec 12) (block : BitVec 64) (samples : List (BitVec 64)) (s : State) : Res :=
  done (subsumReceived g device.toNat block.toNat (samples.map (·.toInt)) s)

/-- PARAM_DESCRIPTOR: the head of AUDIO_PARAM_Q is taken (R366, R367, R370). -/
def execParamDescriptor (s : State) : Res :=
  done (paramDescriptor s)

/-- LEG_ADD: adds a leg (R374, R375). -/
def execLegAdd (r : Request) (s : State) : Res :=
  done (legAddOp r s)

/-- LEG_REMOVE: removes a leg (R374, R376). -/
def execLegRemove (r : Request) (s : State) : Res :=
  done (legRemoveOp r s)

/-- LEG_PARAM: queues a parameter descriptor (R366, R367, R376). -/
def execLegParam (r : Request) (s : State) : Res :=
  done (legParamOp r s)

/-- LEG_STATS: a leg's counters (R374). -/
def execLegStats (r : Request) (s : State) : Res :=
  done (legStatsOp r s)

/-- LEG_KEY_SET: writes a leg's key slot (R313, R377). -/
def execLegKeySet (r : Request) (s : State) : Res :=
  done (legKeyOp r s)

/-- AUDIO_CLEAR_ALL: CLEAR_ALL of AUDIO_CTRL (R383). -/
def execAudioClearAll (s : State) : Res :=
  done (audioClear s)

/-- HSP_INSERTION: a plug insertion; `stable` is the time in ms for which it has been in (R379). -/
def execHspInsertion (plug : PlugHeld) (s : State) : Res :=
  done (hspInsert plug.port plug.stable.toNat s)

/-- ACCESSORY_DETECTION: detection ends: ear loads on T and R1, R2 to S, and the contacts on S and R2 under bias, in ohms (R379, R382). -/
def execAccessoryDetection (n : Fin 2) (t : BitVec 32) (r1 : BitVec 32) (short : BitVec 32) (onS : BitVec 32) (onR2 : BitVec 32) (s : State) : Res :=
  done (hspDetect n t.toNat r1.toNat short.toNat onS.toNat onR2.toNat s)

/-- HSP_REMOVAL: a removal; `stable` is the time in ms for which it has been out (R378, R379). -/
def execHspRemoval (plug : PlugHeld) (s : State) : Res :=
  done (hspRemove plug.port plug.stable.toNat s)

/-- MIC_MEASUREMENT: the microphone contact is measured, in ohms (R380). -/
def execMicMeasurement (n : Fin 2) (ohms : BitVec 32) (s : State) : Res :=
  done (micMeasure n ohms.toNat s)

end Sys2Proof.Machine
end

