-- ==== Sys2Proof/Machine/BasebandRows.lean ====
section
/-!
DEFINITION. The commands of the baseband (04_baseband.md).
-/
namespace Sys2Proof.Machine
open Sys2Proof

/-- CARRIER_RUNNING: an admitted carrier reaches RUNNING at its frame boundary (R129). -/
def execCarrierRunning (c : Fin 64) (s : State) : Res :=
  done (carrierRunning c s)

/-- CARRIER_STOPPED: a stopping carrier reaches STOPPED (R65, R130). -/
def execCarrierStopped (c : Fin 64) (s : State) : Res :=
  done (carrierStopped c s)

/-- UPLANE_MESSAGE: blocks of a symbol of slot `slot` arrive on an eAxC of a port (R133 to R137, R140). -/
def execUplaneMessage (port : Fin 48) (eaxc : BitVec 16) (seq : BitVec 8) (slot : BitVec 48) (sym : Fin 14) (first : Fin 273) (prbs : List Prb) (s : State) : Res :=
  done (uplaneMessage port eaxc.toNat seq.toNat slot.toNat sym first prbs s)

/-- RECEIVE_WINDOW_CLOSE: a symbol's receive window closes (R136). -/
def execReceiveWindowClose (c : Fin 64) (slot : BitVec 48) (sym : Fin 14) (s : State) : Res :=
  done (windowClose c slot.toNat sym s)

/-- DL_SYMBOL_SEND: a downlink symbol is complete in Spool, one packet handle for each antenna of `iq`, or its time has come (R133, R138). -/
def execDlSymbolSend (c : Fin 64) (slot : BitVec 48) (sym : Fin 14) (iq : List (Fin 128 × BitVec 32)) (s : State) : Res :=
  done (dlSymbolSend c slot.toNat sym (iq.map fun e => (e.1.val, e.2.toNat)) s)

/-- CPLANE_SEND: the C-plane messages of a slot are ready on their ports, or its time has come (R139). -/
def execCplaneSend (c : Fin 64) (slot : BitVec 48) (msgs : List (Fin 48 × List (BitVec 8))) (s : State) : Res :=
  done (cplaneSend c slot.toNat (msgs.map fun e => (e.1.val, e.2)) s)

/-- ECPRI_DELAY_MEASUREMENT: a one-way delay measurement on a port: a request received is answered, or the device's own is sent (R132). -/
def execEcpriDelayMeasurement (port : Fin 48) (received : Bool) (id : BitVec 8) (s : State) : Res :=
  done (delayMeasurement port received id.toNat s)

/-- FRONTHAUL_CLEAR_ALL: CLEAR_ALL of FRONTHAUL_CNT_CTRL (R140). -/
def execFronthaulClearAll (s : State) : Res :=
  done (fhClearAll s)

/-- MAC_SCHEDULING: the scheduling stage of the slot now due, with what it finds and decides for its handsets and the carrier (R141 to R148, R151 to R156). -/
def execMacScheduling (c : Fin 64) (figs : List SlotFigure) (air : CarrierFigure) (s : State) : Res :=
  done (macScheduling c figs air s)

/-- DECODE_DEADLINE_MISS: the decoding of a handset's HARQ process, of UCI or of data, misses its deadline (R144). -/
def execDecodeDeadlineMiss (c : Fin 64) (block : MissedBlock) (s : State) : Res :=
  done (decodeMiss c block.uci block.handset.toNat block.proc s)

/-- STATS_PERIOD: the records of R155 that are due. -/
def execStatsPeriod (c : Fin 64) (s : State) : Res :=
  done (statsPeriod c s)

/-- HANDSET_ADD: creates a handset context (R150, R151). -/
def execHandsetAdd (r : Request) (s : State) : Res :=
  done (handsetAddOp r s)

/-- HANDSET_MODIFY: replaces a handset context (R150, R152). -/
def execHandsetModify (r : Request) (s : State) : Res :=
  done (handsetModifyOp r s)

/-- HANDSET_REMOVE: discards a handset context (R153). -/
def execHandsetRemove (r : Request) (s : State) : Res :=
  done (handsetRemoveOp r s)

/-- HANDSET_STATS: a handset's link-quality record (R155). -/
def execHandsetStats (r : Request) (s : State) : Res :=
  done (handsetStatsOp r s)

/-- CARRIER_STATS: a carrier's record (R155). -/
def execCarrierStats (r : Request) (s : State) : Res :=
  done (carrierStatsOp r s)

end Sys2Proof.Machine
end

