-- ==== Sys2Proof/Machine/Chirp.lean ====
section
/-!
DEFINITION. The CSS unit: channel groups, the frame code, reception, the tag registry and transmission
(09_chirp_radio.md, R317 to R344).
-/
namespace Sys2Proof.Machine
open Sys2Proof

/-- The object ID of a channel group. -/
def chirpObj (g : Nat) : Nat := objId 3 1 g

/-- A channel entry of a group body. -/
structure ChirpEntry where
  channel : Nat
  bw : Nat
  mask : Nat
  sync : Nat
  offset : Int
  preambleMin : Nat
  deriving DecidableEq, Repr

/-- The channel entries of a group body. -/
def chirpEntries (b : Bytes) : List ChirpEntry :=
  (List.range (fld b 23 1)).map fun k =>
    let e := b.drop (32 + 8 * k)
    { channel := fld e 0 1, bw := fld e 1 1, mask := fld e 2 1, sync := fld e 3 1, offset := toS 16 (fld e 4 2),
      preambleMin := fld e 6 1 }

/-- A symbol's duration in nanoseconds: 2^SO / BW. -/
def chirpTs (so bw : Nat) : Nat := 2 ^ so * 10000 / 2 ^ bw

/-- A group's fields. -/
def chirpFlag (b : Bytes) (k : Nat) : Bool := bit (fld b 1 1) k
def rxDelay (b : Bytes) : Nat := fld b 8 4
def txDelay (b : Bytes) : Nat := fld b 12 4

/-- A channel entry lies in its band (R317): in units of 50 kHz / 4. -/
def inBand (b : Bytes) (e : ChirpEntry) : Bool := e.offset.natAbs * 12500 + 50000 * 2 ^ e.bw ≤ 640000 * 2 ^ fld b 6 1

/-- The ranges of a group body (R318, R319). -/
def chirpRanges (b : Bytes) : Bool :=
  let es := chirpEntries b
  32 ≤ b.length && b.length == 32 + 8 * fld b 23 1 && fld b 0 1 ≤ 47 && fld b 1 1 < 8 && fld b 6 1 ≤ 2 && fld b 7 1 ≤ 15 &&
    rxDelay b ≤ 10000000 && txDelay b ≤ 10000000 && 1 ≤ fld b 23 1 && fld b 23 1 ≤ 64 && 500 ≤ fld b 24 2 &&
    txDelay b + 300000 ≤ fld b 24 2 * 1000 && rsv b 26 6 &&
    (es.all fun e => e.bw ≤ 3 && 1 ≤ e.mask && e.mask < 128 && 1 ≤ e.sync / 16 && 1 ≤ e.sync % 16 &&
      4 ≤ e.preambleMin && e.preambleMin ≤ 16) &&
    ((List.range es.length).all fun k => rsv b (32 + 8 * k + 7) 1) && (es.map (·.channel)).eraseDups.length == es.length

/-- A channel or the port of a group is absent from the part (R58, R319). -/
def chirpAbsent (s : State) (b : Bytes) : Bool :=
  ((chirpEntries b).any fun e => cssChannels s.part ≤ e.channel) || (fld b 0 1 ≤ 48 && !unitPresent s.part uETH (fld b 0 1))

/-- OBJ_SET's check of a group body (R317 to R319). -/
def chirpCheck (s : State) (id : Nat) (b : Bytes) : Nat :=
  let others := ((objsOf s 3 1).filter (·.1 != id)).flatMap fun e => (chirpEntries e.2.body).map (·.channel)
  firstFail [need (chirpRanges b && eaxcOk s (id, { body := b })) stBAD_PARAM,
    need ((chirpEntries b).all (inBand b)) 0x0303,
    need ((chirpEntries b).all fun e => !others.contains e.channel) 0x0301]

/-- The crew cost of a group (R320). -/
def chirpCost (b : Bytes) : Nat := ceilDiv (fld b 23 1) 4

/-- The admission checks of a group's START (R320, R321, R205, R206). -/
def chirpAdmit (s : State) (id : Nat) (o : Object) : Nat :=
  firstFail [need (s.cox.st != .unset) stTIME_UNSET, need (ledgerOk s (chirpCost o.body)) stADMISSION_REFUSED,
    need (taskRoom s (id, o)) stNO_RESOURCE, fronthaulCheck s (id, o),
    need (c0Admit s (functionC0 id o.body)) stADMISSION_REFUSED]

/-- A channel, a modulator and a group's run-time state. -/
def chirpCh (s : State) (ch : Nat) : ChirpCh := spGet {} s.chirp ch
def chirpPut (ch : Nat) (x : ChirpCh) (s : State) : State := { s with chirp := spSet {} s.chirp ch x }
def chirpGroup (s : State) (g : Nat) : ChirpGroup := spGet {} s.chirpGroups g
def chirpGroupPut (g : Nat) (x : ChirpGroup) (s : State) : State :=
  { s with chirpGroups := spSet {} s.chirpGroups g x }

/-- A counter of a channel raised unless FREEZE holds it. -/
def cssCount (ch k : Nat) (s : State) : State :=
  if regF s uCSS ch 0x018 1 1 = 1 then s else cntBump (cntKey uCSS ch k) 1 s

/-- An event of R344 with a counter's value; while FREEZE holds the counter it does not increment and nothing is raised. -/
def cssEvent (code ch k : Nat) (s : State) : State :=
  if regF s uCSS ch 0x018 1 1 = 1 then s else raiseLim second ch code uCSS ch 1 (leBytes 4 (cntGet s (cntKey uCSS ch k))) s

/-- CHIRP_TX_LATE, with both of its counters. -/
def txLateEvent (ch : Nat) (s : State) : State :=
  if regF s uCSS ch 0x018 1 1 = 1 then s else raiseLim second ch 0x2304 uCSS ch 1
    (leBytes 4 (cntGet s (cntKey uCSS ch 13)) ++ leBytes 4 (cntGet s (cntKey uCSS ch 15))) s

/-- Every counter of a channel set to zero. -/
def cssClear (ch : Nat) (s : State) : State :=
  (List.range 16).foldl (fun s k => cntZero (cntKey uCSS ch k) s) s

/-- An admitted group begins to start (R322, R336). -/
def chirpBegin (id : Nat) (s : State) : State :=
  match objFind s id with
  | none => s
  | some o =>
    let s := fhRefresh (taskTake (id, o) (c0Set id (functionC0 id o.body) s))
    (chirpEntries o.body).foldl (fun s e =>
      regPutF uCSS e.channel 0x004 31 16 0x8000 (cssClear e.channel (chirpPut e.channel { floorAt := s.now, noiseAt := s.now } s)))
      (chirpGroupPut (id % 0x10000) {} s)

/-- The group that holds a channel, with its ID, object and entry. -/
def chirpOf (s : State) (ch : Nat) : Option (Nat × Object × ChirpEntry) :=
  (objsOf s 3 1).findSome? fun e => ((chirpEntries e.2.body).find? (·.channel == ch)).map fun x => (e.1, e.2, x)

/-- A running group that holds a channel. -/
def chirpRunning (s : State) (ch : Nat) : Option (Nat × Bytes × ChirpEntry) :=
  match chirpOf s ch with
  | some (id, o, e) => if o.st = some .running then some (id, o.body, e) else none
  | none => none

/-- The band of a group is blanked (R334). -/
def blanked (s : State) (g : Nat) : Bool := shortNow s < (chirpGroup s g).blankUntil

/-- The messages that follow on what has been received or replaced, 100 µs each, taken up (R335). -/
def bandAdvance : Nat → ChirpGroup → ChirpGroup
  | 0, x => x
  | n + 1, x =>
    match x.seen with
    | none => { x with seen := x.got.head?, got := x.got.drop 1 }
    | some t =>
      if x.got.contains (t + 100000) then
        bandAdvance n { x with seen := some (t + 100000), got := x.got.filter fun g => t + 100000 < g }
      else x

/-- A band sample message, by the antenna time of its last sample (R321, R335); one for an eAxC identifier that nothing
active maps is counted against its port (R136). -/
def bandMessage (port eaxc last : Nat) (s : State) : State :=
  match (objsOf s 3 1).find? fun e =>
      (e.2.st == some .starting || e.2.st == some .running || e.2.st == some .stopping) && fld e.2.body 0 1 == port && fld e.2.body 2 2 == eaxc with
  | none => if (eaxcFind s port eaxc 1).isSome then s else fhCount port fhUNKNOWN 1 s
  | some (id, o) =>
    let g := id % 0x10000
    let x := chirpGroup s g
    if o.st = some .starting then fhRefresh (chirpGroupPut g { x with seen := some last } (reachRunning id s))
    else if o.st ≠ some .running ∨ last + 2000000 < shortNow s ∨ x.seen.any (fun t => last ≤ t) then s
    else chirpGroupPut g (bandAdvance (x.got.length + 1) { x with got := x.got ++ [last] }) s

/-- A message missing 2 ms after its last sample's antenna time is replaced by zeros (R335). -/
def bandGap (g : Nat) (s : State) : State :=
  match objFind s (chirpObj g), (chirpGroup s g).seen with
  | some o, some t =>
    if o.st = some .running ∧ t + 100000 + 2000000 ≤ shortNow s ∧ !(chirpGroup s g).got.contains (t + 100000) then
      (chirpEntries o.body).foldl (fun s e => cssEvent 0x2301 e.channel 11 (cssCount e.channel 11 s))
        (chirpGroupPut g (bandAdvance ((chirpGroup s g).got.length + 1)
          { chirpGroup s g with seen := some (t + 100000), got := (chirpGroup s g).got.filter fun m => t + 100000 < m }) s)
    else s
  | _, _ => s

/-! ### The frame code (R323 to R326) -/

/-- The code word of a nibble, first bit most significant (R325). -/
def hamEncode (n : Nat) : Nat :=
  let d := fun k => n / 2 ^ k % 2
  let x := fun a b c => (d a + d b + d c) % 2
  d 3 * 128 + d 2 * 64 + d 1 * 32 + d 0 * 16 + x 0 1 3 * 8 + x 0 2 3 * 4 + x 1 2 3 * 2 + x 0 1 2

/-- The number of ones among the low 8 bits. -/
def ones8 (v : Nat) : Nat := ((List.range 8).filter fun k => bit v k).length

/-- The nibble of a received code word, with the number of corrections; none when uncorrectable (R325). -/
def hamDecode (w : Nat) : Option (Nat × Nat) :=
  ((List.range 16).find? fun n => ones8 (Nat.xor (hamEncode n) w) ≤ 1).map fun n => (n, ones8 (Nat.xor (hamEncode n) w))

/-- The bits of a byte string, most significant first, and of coded bytes. -/
def bitsOf (bs : Bytes) : List Bool := bs.flatMap fun b => (List.range 8).map fun k => bit b.toNat (7 - k)
def codedBits (bs : Bytes) : List Bool :=
  bs.flatMap fun b => bitsOf [BitVec.ofNat 8 (hamEncode (b.toNat / 16)), BitVec.ofNat 8 (hamEncode (b.toNat % 16))]

/-- A number from bits, first bit most significant. -/
def natOfBits (l : List Bool) : Nat := l.foldl (fun v b => 2 * v + b2n b) 0

/-- Symbol values from bits (R326). -/
def symbolsOf (so : Nat) : Nat → List Bool → List Nat
  | 0, _ => []
  | f + 1, l =>
    if l = [] then []
    else
      let u := natOfBits (l.take so ++ List.replicate (so - (l.take so).length) false)
      Nat.xor u (u / 2) :: symbolsOf so f (l.drop so)

/-- The integer a symbol value stands for: the inverse of u XOR (u >> 1). -/
def ungray (so v : Nat) : Nat := (List.range so).foldl (fun u k => Nat.xor u (v / 2 ^ k)) 0

/-- The bits of received symbols. -/
def bitsOfSymbols (so : Nat) (l : List (BitVec 11)) : List Bool :=
  l.flatMap fun v => (List.range so).map fun k => bit (ungray so (v.toNat % 2 ^ so)) (so - 1 - k)

/-- The whitening sequence w(0), w(1), … (R324), by its last nine terms. -/
def whiteSeq : Nat → List Bool → List Bool
  | 0, _ => []
  | n + 1, r =>
    match r with
    | a :: t => a :: whiteSeq n (t ++ [xor (t.getD 4 false) a])
    | [] => []

/-- A byte string whitened (R324). -/
def whiten (bs : Bytes) : Bytes :=
  let w := whiteSeq (8 * bs.length) (List.replicate 9 true)
  (List.range bs.length).map fun j =>
    BitVec.ofNat 8 (Nat.xor (bs.getD j 0).toNat (natOfBits ((w.drop (8 * j)).take 8)))

/-- Code words decoded from bits: nibbles, with an uncorrectable one marked. -/
def nibblesOf : Nat → List Bool → List (Option (Nat × Nat))
  | 0, _ => []
  | n + 1, l => hamDecode (natOfBits (l.take 8)) :: nibblesOf n (l.drop 8)

/-- Header and payload symbols (Frame format). -/
def headerSymbols (so : Nat) : Nat := ceilDiv 96 so
def payloadSymbols (so len : Nat) (code : Bool) : Nat := ceilDiv ((if code then 16 else 8) * (len + 3)) so

/-- The header's CRC and the payload's (R323). -/
def crc8 (bs : Bytes) : Nat := crcMsb 8 0x07 0 bs
def crc24 (bs : Bytes) : Nat := crcMsb 24 0x864CFB 0xB704CE bs

/-- The fields of header bytes (big-endian): length, tag, sequence number and CODE. -/
def hdrLen (h : Bytes) : Nat := (h.getD 0 0).toNat
def hdrTag (h : Bytes) : Nat := beNat (sub h 0 5) / 2 ^ 14 % 2 ^ 18
def hdrSeq (h : Bytes) : Nat := beNat (sub h 0 5) / 2 ^ 8 % 64
def hdrCode (h : Bytes) : Bool := bit (beNat (sub h 0 5)) 4

/-- The header bytes that received header symbols decode to, with the corrections; none when a code word is
uncorrectable or the CRC fails (R329). -/
def decodeHeader (so : Nat) (l : List (BitVec 11)) : Option (Bytes × Nat) :=
  let ns := nibblesOf 12 (bitsOfSymbols so (l.take (headerSymbols so)))
  if l.length < headerSymbols so ∨ ns.any Option.isNone then none
  else
    let v := ns.map fun n => (n.getD (0, 0)).1
    let bs := (List.range 6).map fun k => BitVec.ofNat 8 (16 * v.getD (2 * k) 0 + v.getD (2 * k + 1) 0)
    if crc8 (bs.take 5) = (bs.getD 5 0).toNat then some (bs.take 5, sumL (ns.map fun n => (n.getD (0, 0)).2)) else none

/-- The bytes of a payload and its CRC from nibbles; an uncorrectable code word's nibble is a free value. -/
def freeNibbles : List (Option (Nat × Nat)) → State → List Nat × State
  | [], s => ([], s)
  | some (n, _) :: r, s =>
    let (t, s) := freeNibbles r s
    (n :: t, s)
  | none :: r, s =>
    let (v, s) := draw s
    let (t, s) := freeNibbles r s
    (v % 16 :: t, s)

/-- Whole bytes decoded from payload symbols, dewhitened, with the corrections (R324, R325, R331). -/
def decodePayload (so : Nat) (h : Bytes) (l : List (BitVec 11)) (s : State) : Bytes × Nat × State :=
  let bs := bitsOfSymbols so l
  if hdrCode h then
    let n := min (bs.length / 16) (hdrLen h + 3)
    let ns := nibblesOf (2 * n) bs
    let (v, s) := freeNibbles ns s
    (whiten ((List.range n).map fun k => BitVec.ofNat 8 (16 * v.getD (2 * k) 0 + v.getD (2 * k + 1) 0)),
      sumL (ns.map fun x => (x.getD (0, 0)).2), s)
  else
    let n := min (bs.length / 8) (hdrLen h + 3)
    (whiten ((List.range n).map fun k => BitVec.ofNat 8 (natOfBits ((bs.drop (8 * k)).take 8))), 0, s)

/-- All symbols of a frame to send (Frame format): preamble of `p` up-chirps, sync word, and the coded parts; a
down-chirp of the marker is written 2^SO. -/
def frameSymbols (so p sync : Nat) (h payload : Bytes) : List Nat :=
  let body := whiten (payload ++ beBytes 3 (crc24 (h ++ payload)))
  let pb := if hdrCode h then codedBits body else bitsOf body
  let hb := codedBits (h ++ [BitVec.ofNat 8 (crc8 h)])
  List.replicate p 0 ++ [sync / 16 * 2 ^ (so - 4), sync % 16 * 2 ^ (so - 4)] ++ List.replicate 3 (2 ^ so) ++
    symbolsOf so hb.length hb ++ symbolsOf so pb.length pb

/-! ### Reception -/

/-- Circular distance modulo `m`. -/
def circDist (m a b : Nat) : Nat := let d := (a % m + m - b % m) % m; min d (m - d)

/-- A registry entry, zero when nothing was set. -/
def tagEntry (s : State) (t : Nat) : Bytes := (spFind s.tags t).getD (zeros 32)
def tagRegistered (s : State) (t : Nat) : Bool := bit (fld (tagEntry s t) 0 4) 31

/-- A reception's place removed. -/
def dropDemod (ch d : Nat) (s : State) : State :=
  chirpPut ch { chirpCh s ch with demods := spDel (chirpCh s ch).demods d, busyAt := s.now } s

/-- The registry update of a frame with outcome OK (R338, R339); whether it is marked DUPLICATE. A frame whose END, or on
equal END whose channel, comes before that of the last one applied only counts: the later one's values stay. -/
def tagUpdate (b h : Bytes) (ch last : Nat) (x : RxData) (s : State) : Bool × State :=
  let t := hdrTag h
  let e := tagEntry s t
  if !tagRegistered s t then (false, s)
  else
    let late := bit (fld e 4 1) 7 && (last < fld e 8 8 || (last == fld e 8 8 && ch < fld e 5 1))
    let dup := fld b 22 1 != 0 && fld e 4 1 == 0x80 + hdrSeq h && last ≤ fld e 8 8 + fld b 22 1 * second &&
      fld e 8 8 ≤ last + fld b 22 1 * second
    let n := satN 0xFFFFFFFF (fld e 20 4 + 1)
    let m := satN 0xFFFFFFFF (fld e 24 4 + b2n dup)
    let e := (if late then sub e 0 20
      else sub e 0 4 ++ [BitVec.ofNat 8 (0x80 + hdrSeq h), BitVec.ofNat 8 ch] ++ leBytes 2 x.rssi.toNat ++ leBytes 8 last ++
        leBytes 2 x.snr.toNat ++ zeros 2) ++ leBytes 4 n ++ leBytes 4 m ++ zeros 4
    (dup, { s with tags := spPut s.tags t e })

/-- Outcomes of a record. -/
abbrev outOK : Nat := 0
abbrev outCRC : Nat := 1
abbrev outCAPTURED : Nat := 2
abbrev outBLANKED : Nat := 3

/-- A reception record written to RX_Q (R337). `known` is whether the header was confirmed and its tag registered or
not (none: never confirmed). -/
def rxRecord (b : Bytes) (ch d outcome : Nat) (known : Option Bool) (dup : Bool) (so time last floor corr crc : Nat)
    (h payload : Bytes) (x : RxData) (s : State) : State :=
  let s := if known = some false then cssCount ch 8 s else s
  if known = some false ∧ chirpFlag b 1 then s
  else
    let rec0 := leBytes 8 time ++ [BitVec.ofNat 8 ch, BitVec.ofNat 8 d, BitVec.ofNat 8 outcome,
        BitVec.ofNat 8 (b2n (known == some false) + 2 * b2n dup)] ++ fit 5 h ++
      [BitVec.ofNat 8 payload.length, BitVec.ofNat 8 so, BitVec.ofNat 8 (satN 255 x.symbols.length)] ++
      leBytes 2 x.rssi.toNat ++ leBytes 2 x.snr.toNat ++ leBytes 2 x.evm.toNat ++ leBytes 2 floor ++
      leBytes 4 x.freqOffset.toNat ++ leBytes 2 x.drift.toNat ++ leBytes 2 corr ++ beBytes 3 crc ++ [0] ++ leBytes 8 last ++ zeros 16
    match unitSend .unit (fld b 16 2) (rec0 ++ payload) (unitInit uCSS ch) s with
    | (some _, s) => s
    | (none, s) => cssEvent 0x2303 ch 10 (cssCount ch 10 s)

/-- A confirmed reception that ends before its payload does, captured or blanked (R331, R334). -/
def endEarly (b : Bytes) (e : ChirpEntry) (ch d outcome : Nat) (r : Reception) (x : RxData) (s : State) : State :=
  let s := cssCount ch (if outcome = outCAPTURED then 5 else 7) (dropDemod ch d s)
  match r.header with
  | some h =>
    let (bs, c, s) := decodePayload r.so h x.symbols s
    let (v, s) := draw s
    let pay := bs.take (hdrLen h)
    let last := r.time + (headerSymbols r.so + x.symbols.length) * chirpTs r.so e.bw
    rxRecord b ch d outcome (some r.registered) false r.so r.time last r.floor (r.corrections + c) (v % 2 ^ 24) h pay x s
  | none =>
    let (v, s) := draw s
    let (t, s) := draw s
    let (w, s) := draw s
    rxRecord b ch d outcome none false r.so (t % 2 ^ 64) (w % 2 ^ 64) r.floor 0 (v % 2 ^ 24) (leBytes 5 (v / 2 ^ 24)) [] x s

/-- The demodulator of a channel whose confirmed frame a detection captures (R328 step 2). -/
def captureOf (b : Bytes) (x : ChirpCh) (so : Nat) (strength : Int) (frames : List (BitVec 16)) : Option Nat :=
  let cand := x.demods.filter fun e => e.2.so == so && e.2.header.isSome &&
    (frames.getD e.1 0).toInt + 10 * fld b 7 1 ≤ strength
  (cand.foldl (fun acc e =>
    let p := (frames.getD e.1 0).toInt
    match acc with
    | some (k, q) => if p < q ∨ (p = q ∧ e.1 < k) then some (e.1, p) else some (k, q)
    | none => some (e.1, p)) (none : Option (Nat × Int))).map (·.1)

/-- A detection taken by a demodulator. -/
def takeDetection (ch d so at_ bin : Nat) (s : State) : State :=
  let x := chirpCh s ch
  let r : Reception := { so := so, at_ := at_, bin := bin, floor := regF s uCSS ch 0x004 31 16 }
  cssCount ch 0 (chirpPut ch { x with demods := spPut x.demods d r } s)

/-- The last PREAMBLE_MIN of a run of up-chirps, when they agree on bin and on timing modulo the symbol (R327). -/
def agreeing (e : ChirpEntry) (so : Nat) (l : List UpChirp) : Option (List UpChirp) :=
  let run := l.drop (l.length - e.preambleMin)
  match run with
  | [] => none
  | c :: _ =>
    if run.length = e.preambleMin ∧
        run.all (fun u => u.bin == c.bin && circDist (chirpTs so e.bw) u.timing.toNat c.timing.toNat == 0) then some run
    else none

/-- The strength of a detection: the mean dechirped peak power over its up-chirps, in 0.1 dBFS (R327). -/
def strengthOf (run : List UpChirp) : Int := (Config.powerDb (sumL (run.map (·.power.toNat)) / run.length)).toInt

/-- What a detection does when the steps 1 and 2 of R328 do not apply: the lowest idle demodulator takes it, or none is free
and it is counted. -/
def takeIdle (ch so at_ bin : Nat) (s : State) : State :=
  match (List.range 8).find? fun d => (spFind (chirpCh s ch).demods d).isNone with
  | some d => takeDetection ch d so at_ bin s
  | none => cssEvent 0x2302 ch 6 (cssCount ch 6 s)

/-- A searcher's detection handled by R328: its order, strength in 0.1 dBFS, timing and bin, the frame strengths of the
channel's demodulators, and what the captured one has received. `failed`: a header check of the same symbol has failed
(R330). -/
def detected (b : Bytes) (e : ChirpEntry) (ch so : Nat) (strength : Int) (at_ bin : Nat) (failed : Bool)
    (frames : List (BitVec 16)) (part : RxData) (s : State) : State :=
  let x := chirpCh s ch
  let ts := chirpTs so e.bw
  let same := fun (r : Reception) => r.so == so && 4 * circDist ts r.at_ at_ ≤ ts && circDist (2 ^ so) r.bin bin ≤ 2
  let s := chirpPut ch { x with busyAt := s.now } s
  if x.demods.any (fun r => same r.2) then s
  else if failed then takeIdle ch so at_ bin s
  else match x.demods.find? fun r => r.2.so == so && r.2.header.isNone with
  | some (d, _) => takeDetection ch d so at_ bin (cssCount ch 4 (dropDemod ch d s))
  | none =>
    match captureOf b x so strength frames with
    | some d =>
      let s := match spFind x.demods d with
        | some r => endEarly b e ch d outCAPTURED r part s
        | none => s
      takeDetection ch d so at_ bin s
    | none => takeIdle ch so at_ bin s

/-- A time quantised to the band's sample period, 625 / 2^RATE ns. -/
def quantise (b : Bytes) (t : Nat) : Nat := t * 2 ^ fld b 6 1 / 625 * 625 / 2 ^ fld b 6 1

/-- What follows a detection is a frame's: a preamble of at least PREAMBLE_MIN + 2 up-chirps, the channel's sync word within
64 symbols of the detection, and the marker (R327, R329). -/
def frameFollows (e : ChirpEntry) (p : SyncSeen) : Bool :=
  e.preambleMin + 2 ≤ p.upChirps.toNat && p.sync == some (BitVec.ofNat 8 e.sync) && p.after.toNat ≤ 64 && p.marker

/-- A reception's header is checked as its last symbol ends (R329, R338): what followed the detection, and the header
symbols. -/
def headerCheck (ch d : Nat) (pre : SyncSeen) (symbols : List (BitVec 11)) (s : State) : State :=
  match chirpRunning s ch, spFind (chirpCh s ch).demods d with
  | some (_, b, e), some r =>
    if r.header.isSome then s
    else match (if frameFollows e pre then decodeHeader r.so symbols else none) with
    | none => cssCount ch 3 (dropDemod ch d s)
    | some (h, c) =>
      let t := quantise b (shortNow s - rxDelay b - headerSymbols r.so * chirpTs r.so e.bw)
      let x := chirpCh s ch
      let known := tagRegistered s (hdrTag h)
      let r := { r with header := some h, time := t, registered := known, entry := known, corrections := c }
      chirpPut ch { x with demods := spPut x.demods d r } s
  | _, _ => s

/-- Consecutive up-chirps that a searcher finds (R327), with the header checks that fall in the same symbol, which are made
first (R330). -/
def detection (ch so : Nat) (chirps : List UpChirp) (checks : List (Nat × SyncSeen × List (BitVec 11)))
    (frames : List (BitVec 16)) (part : RxData) (s : State) : State :=
  match chirpRunning s ch with
  | none => s
  | some (id, b, e) =>
    if so < 5 ∨ !bit e.mask (so - 5) ∨ blanked s (id % 0x10000) then s
    else match agreeing e so chirps with
    | none => s
    | some run =>
      let due := checks.filter fun k => (spFind (chirpCh s ch).demods k.1).any fun r => r.so == so && r.header.isNone
      let s := due.foldl (fun s k => headerCheck ch k.1 k.2.1 k.2.2 s) s
      let last := run.getLast?.getD ⟨0, 0, 0⟩
      detected b e ch so (strengthOf run) last.timing.toNat last.bin.toNat
        (due.any fun k => (spFind (chirpCh s ch).demods k.1).isNone) frames part s

/-- A reception ends with its last payload symbol (R332, R337 to R339). -/
def receptionEnd (ch d : Nat) (x : RxData) (s : State) : State :=
  match chirpRunning s ch, spFind (chirpCh s ch).demods d with
  | some (_, b, _), some r =>
    match r.header with
    | none => s
    | some h =>
      if x.symbols.length < payloadSymbols r.so (hdrLen h) (hdrCode h) then s
      else
        let s := dropDemod ch d s
        let (bs, c, s) := decodePayload r.so h x.symbols s
        let pay := bs.take (hdrLen h)
        let crc := beNat (bs.drop (hdrLen h))
        let last := shortNow s - rxDelay b
        let ok := crc24 (h ++ pay) == crc
        if ok then
          let (dup, s) := if r.entry then tagUpdate b h ch last x (cssCount ch 1 s) else (false, cssCount ch 1 s)
          let s := if dup then cssCount ch 9 s else s
          rxRecord b ch d outOK (some r.registered) dup r.so r.time last r.floor (r.corrections + c) crc h pay x s
        else
          rxRecord b ch d outCRC (some r.registered) false r.so r.time last r.floor (r.corrections + c) crc h pay x
            (cssCount ch 2 s)
  | _, _ => s

/-- The symbol of the smallest enabled SO of a channel. -/
def leastTs (e : ChirpEntry) : Nat := chirpTs (((List.range 7).find? fun k => bit e.mask k).getD 0 + 5) e.bw

/-- A symbol period of the smallest enabled SO that has just ended, with its mean power: it enters the mean when it follows
the last one and no reception, detection or blanking fell in it (R336). -/
def noisePeriod (ch power : Nat) (s : State) : State :=
  match chirpRunning s ch with
  | none => s
  | some (id, _, e) =>
    let x := chirpCh s ch
    if x.demods ≠ [] ∨ s.now < x.busyAt + leastTs e ∨ s.now < x.noiseAt + leastTs e ∨
        shortNow s < (chirpGroup s (id % 0x10000)).blankUntil + leastTs e then s
    else
      let l := (x.noise ++ [power]).drop (x.noise.length - 63)
      let f := (Config.powerDb (sumL l / l.length)).toNat
      let at_ := if regF s uCSS ch 0x004 31 16 = f then x.floorAt else s.now
      regPutF uCSS ch 0x004 31 16 f (chirpPut ch { x with noise := l, floorAt := at_, noiseAt := s.now } s)

/-! ### Transmission -/

/-- Outcomes of a transmission. -/
abbrev txLAUNCHED : Nat := 0
abbrev txLATE : Nat := 1
abbrev txCONFLICT : Nat := 2
abbrev txNO_MOD : Nat := 3
abbrev txBAD_DESC : Nat := 4
abbrev txSTOPPED : Nat := 5

/-- A transmit result written to TXR_Q. -/
def txResult (b : Bytes) (launch ch m outcome cookie stop : Nat) (s : State) : State :=
  (unitSend .unit (fld b 18 2)
    (leBytes 8 launch ++ [BitVec.ofNat 8 ch, BitVec.ofNat 8 m, BitVec.ofNat 8 outcome, 0] ++ leBytes 4 cookie ++
      leBytes 8 stop ++ zeros 8) (unitInit uCSS ch) s).2

/-- The ranges of a transmit descriptor. -/
def txDescOk (b d : Bytes) : Bool :=
  chirpFlag b 2 && 32 ≤ d.length && d.length == 32 + fld d 16 1 &&
    ((chirpEntries b).any fun e => e.channel == fld d 8 1 && 5 ≤ fld d 9 1 && fld d 9 1 ≤ 11 && bit e.mask (fld d 9 1 - 5)) &&
    6 ≤ fld d 10 1 && fld d 10 1 ≤ 64 && fld d 11 1 < 4 && fld d 12 4 < 2 ^ 27 && fld d 17 1 ≤ 31 && rsv d 18 2 && rsv d 24 8

/-- The header bytes of a descriptor; DIR is sent as 1. -/
def txHeader (d : Bytes) : Bytes :=
  let i := fld d 12 4
  beBytes 5 (fld d 16 1 * 2 ^ 32 + i % 2 ^ 18 * 2 ^ 14 + i / 2 ^ 18 % 64 * 2 ^ 8 + i / 2 ^ 24 % 8 * 2 ^ 5 +
    fld d 11 1 % 2 * 16 + fld d 11 1 / 2 % 2 * 8 + 4)

/-- The head of TX_Q dequeued when its time has come (R340, R341); one the queue does not give stays or goes as the queue's
own rules say (R487, R566), and nothing is booked. -/
def txDequeue (g : Nat) (s : State) : State :=
  match objFind s (chirpObj g) with
  | none => s
  | some o =>
    let b := o.body
    let q := fld b 20 2
    match (queue s q).items with
    | [] => s
    | h :: _ =>
      let now := shortNow s
      if o.st ≠ some .running ∨ (chirpFlag b 2 ∧ now + fld b 24 2 * 1000 < fld (packetBytes s h) 0 8) then s
      else
        match takePacket (unitInit uCSS 0) q s with
        | (none, s) => s
        | (some d, s) =>
        let launch := fld d 0 8
        let ch := fld d 8 1
        let so := fld d 9 1
        let cookie := fld d 20 4
        let end0 := fun out s => txResult b launch ch 0xFF out cookie 0 s
        if !txDescOk b d then end0 txBAD_DESC s
        else if launch < now + txDelay b + 300000 then txLateEvent ch (cssCount ch 13 (end0 txLATE s))
        else
          let e := ((chirpEntries b).find? (·.channel == ch)).getD ⟨0, 0, 0, 0, 0, 0⟩
          let syms := frameSymbols so (fld d 10 1) e.sync (txHeader d) (d.drop 32)
          let stop := launch + syms.length * chirpTs so e.bw
          if s.chirpMods.any fun m => m.2.channel == ch && m.2.launch < stop && launch < m.2.stop then
            cssCount ch 14 (end0 txCONFLICT s)
          else match (List.range 64).find? fun m => (spFind s.chirpMods m).isNone with
          | none => txLateEvent ch (cssCount ch 15 (end0 txNO_MOD s))
          | some m =>
            let x : ChirpMod := { group := g, channel := ch, launch := launch, stop := stop, cookie := cookie,
                                  symbols := syms, so := so, atten := fld d 17 1 }
            { s with chirpMods := spPut s.chirpMods m x }

/-- A booked frame's first sample leaves the port (R334, R342); a frame whose instant is already past by more than a
band sample period is not sent, and its result is LATE. -/
def txLaunch (m : Nat) (parts : List (Nat × Nat × RxData)) (s : State) : State :=
  match spFind s.chirpMods m with
  | none => s
  | some x =>
    match objFind s (chirpObj x.group) with
    | none => s
    | some o =>
      let b := o.body
      let due := x.launch - txDelay b
      if x.started ∨ shortNow s < due then s
      else if 625 < (shortNow s - due) * 2 ^ fld b 6 1 then
        txLateEvent x.channel (cssCount x.channel 13
          (txResult b x.launch x.channel m txLATE x.cookie 0 { s with chirpMods := spDel s.chirpMods m }))
      else
        let s := { s with chirpMods := spPut s.chirpMods m { x with started := true } }
        let s := cssCount x.channel 12 (regBump uCSS m 0x8004 31 0 1 s)
        let s := emit (.eth (fld b 0 1) "chirp-tx" (leBytes 2 (fld b 4 2) ++ leBytes 8 x.launch ++
          [BitVec.ofNat 8 x.channel, BitVec.ofNat 8 x.so, BitVec.ofNat 8 x.atten] ++ x.symbols.flatMap (leBytes 2))) s
        if chirpFlag b 0 then
          let s := chirpGroupPut x.group { chirpGroup s x.group with
            blankUntil := max (chirpGroup s x.group).blankUntil (x.stop + 100000) } s
          (chirpEntries b).foldl (fun s e =>
            (chirpCh s e.channel).demods.foldl (fun s r =>
              let part := ((parts.find? fun p => p.1 == e.channel && p.2.1 == r.1).map (·.2.2)).getD {}
              endEarly b e e.channel r.1 outBLANKED r.2 part s) s) s
        else s

/-- A launched frame ends: its modulator frees and its result is written (R341). -/
def txEnd (m : Nat) (s : State) : State :=
  match spFind s.chirpMods m with
  | none => s
  | some x =>
    if x.started ∧ x.stop ≤ shortNow s then
      let s := { s with chirpMods := spDel s.chirpMods m }
      match objFind s (chirpObj x.group) with
      | some o => txResult o.body x.launch x.channel m txLAUNCHED x.cookie x.stop s
      | none => s
    else s

/-- The queued descriptors of a stopping group end with STOPPED (R322). -/
def stopQueued (b : Bytes) : Nat → State → State
  | 0, s => s
  | n + 1, s =>
    match takePacket (unitInit uCSS 0) (fld b 20 2) s with
    | (none, s) => s
    | (some d, s) => stopQueued b n (txResult b (fld d 0 8) (fld d 8 1) 0xFF txSTOPPED (fld d 20 4) 0 s)

/-- STOP of a group (R322): receptions discarded, booked and queued transmissions ended with STOPPED. -/
def chirpStopping (id : Nat) (s : State) : State :=
  match objFind s id with
  | none => s
  | some o =>
    let b := o.body
    let g := id % 0x10000
    let s := (chirpEntries b).foldl (fun s e => chirpPut e.channel { chirpCh s e.channel with demods := [] } s) s
    let s := (s.chirpMods.filter fun m => m.2.group == g && !m.2.started).foldl (fun s m =>
      txResult b m.2.launch m.2.channel m.1 txSTOPPED m.2.cookie 0 { s with chirpMods := spDel s.chirpMods m.1 }) s
    stopQueued b (queue s (fld b 20 2)).items.length s

/-- A stopping group reaches STOPPED once no frame of it is being emitted (R65, R322). -/
def chirpStopped (g : Nat) (s : State) : State :=
  let id := chirpObj g
  match objFind s id with
  | none => s
  | some o =>
    if o.st ≠ some .stopping ∨ s.chirpMods.any fun m => m.2.group == g then s
    else
      let s := (chirpEntries o.body).foldl (fun s e => chirpPut e.channel { floorAt := (chirpCh s e.channel).floorAt } s) s
      fhRefresh (reachStopped id (c0Set id [] { taskGive id s with chirpGroups := spDel s.chirpGroups g }))

/-! ### Commands (R343) -/

/-- The checks of a registry command. -/
def tagCheck (s : State) (r : Request) (known : Bool) : Nat :=
  let t := fld r.params 0 4
  firstFail [targetCheck s r uCSS 0, need (r.params.length == 4) stBAD_LENGTH, need (t < 2 ^ 18) stBAD_PARAM,
    need (!known || tagRegistered s t) 0x0302]

/-- TAG_SET, TAG_REMOVE and TAG_GET. -/
def tagSetOp (r : Request) (s : State) : State :=
  let t := fld r.params 0 4
  runCmd 0x0340 r (tagCheck s r false) (fun s =>
    (stDONE, [], { s with tags := spPut s.tags t (leBytes 4 (2 ^ 31 + t) ++ zeros 28) })) s
def tagRemoveOp (r : Request) (s : State) : State :=
  runCmd 0x0341 r (tagCheck s r true) (fun s =>
    let t := fld r.params 0 4
    let gone := fun (x : Reception) => if x.header.any fun h => hdrTag h == t then { x with entry := false } else x
    (stDONE, [], { s with
      tags := spDel s.tags t
      chirp := s.chirp.map fun e => (e.1, { e.2 with demods := e.2.demods.map fun d => (d.1, gone d.2) }) })) s
def tagGetOp (r : Request) (s : State) : State :=
  runCmd 0x0342 r (tagCheck s r true) (fun s => (stDONE, tagEntry s (fld r.params 0 4), s)) s

/-- CHIRP_STATS. -/
def chirpStatsOp (r : Request) (s : State) : State :=
  runCmd 0x0343 r (firstFail [targetCheck s r uCSS r.inst.toNat, need (r.params.length == 0) stBAD_LENGTH]) (fun s =>
    (stDONE, (List.range 16).flatMap fun k => leBytes 4 (cntGet s (cntKey uCSS r.inst.toNat k)), s)) s

end Sys2Proof.Machine
end

