-- ==== Sys2Proof/Machine/Objects.lean ====
section
/-!
DEFINITION. Configuration objects and functions: the object types, the checks and effects of each, and the generic
commands OBJ_SET to OBJ_LIST (02_commands.md, R54, R57 to R75, R667; 05_shuttle.md, R207 to R209).
-/
namespace Sys2Proof.Machine
open Sys2Proof

/-! ### Object types -/

/-- Family, type and index of an object ID. -/
def idFamily (id : Nat) : Nat := id / 0x1000000
def idType (id : Nat) : Nat := id / 0x10000 % 256
def idIndex (id : Nat) : Nat := id % 0x10000

/-- Families that have objects. -/
def hasObjects (family : Nat) : Bool := (1 ≤ family && family ≤ 7) || family == 0x0A || family == 0x0B

/-- The type is one of functions; none for a type the table does not assign (Object types). -/
def typeKind (family type : Nat) : Option Bool :=
  if family = 1 then (if type = 1 ∨ type = 2 then some false else none)
  else if family = 2 ∨ family = 4 then (if type = 1 ∨ type = 2 then some true else none)
  else if family = 3 ∨ family = 6 ∨ family = 0x0B then (if type = 1 then some true else none)
  else if family = 5 ∨ family = 7 then (if type = 1 then some false else none)
  else if family = 0x0A then (if type = 1 then some true else if type = 2 then some false else none)
  else none

/-- The index lies in the type's range; power policies have one for each domain, and the supply settings at 255
(R628, R629). -/
def indexOk (family type index : Nat) : Bool :=
  if family = 2 then index < 64
  else if family = 3 then index < 256
  else if family = 4 then index < (if type = 1 then 512 else 4096)
  else if family = 6 then index < 96
  else if family = 7 then index < 38 || index == 255
  else if family = 0x0A ∧ type = 1 then index < 6
  else if family = 0x0B then index < 1024
  else index == 0

/-- An object ID of an opcode's family that the table assigns (R57). -/
def idOk (family id : Nat) : Bool :=
  idFamily id == family && (typeKind family (idType id)).isSome && indexOk family (idType id) (idIndex id)

/-- An object ID of a function. -/
def isFn (id : Nat) : Bool := typeKind (idFamily id) (idType id) == some true

/-- The start of a function depends on time of day (R75). -/
def needsTime (id : Nat) : Bool := 2 ≤ idFamily id && idFamily id ≤ 4

/-- The unit of an object is absent from the part, by its ID (R58). -/
def idAbsent (s : State) (id : Nat) : Bool :=
  if idFamily id = 3 then cssChannels s.part == 0
  else if idFamily id = 6 then !hasLogicArray s.part
  else if idFamily id = 7 then idIndex id < 38 && domainAbsent s.part (idIndex id)
  else false

/-- The units an object body names are absent from the part (R58). -/
def bodyAbsent (s : State) (id : Nat) (b : Bytes) : Bool :=
  if idFamily id = 2 then carrierAbsent s b
  else if idFamily id = 3 then chirpAbsent s b
  else if idFamily id = 4 ∧ idType id = 2 then videoAbsent s b
  else if idFamily id = 0x0A ∧ idType id = 1 then linkAbsent s b
  else false

/-! ### Firmware task sets (R207 to R209) -/

/-- The class-0 traffic entries of a task set. -/
def taskSetC0 (b : Bytes) : List C0Entry :=
  (List.range (fld b 13 1)).map fun k =>
    let e := b.drop (24 + 16 * k)
    { src := fld e 0 1, dsts := [fld e 1 1], rate := fld e 4 4, burst := fld e 8 4 }

/-- The body of a task set (R207). -/
def taskSetCheck (b : Bytes) : Nat :=
  let n := fld b 13 1
  firstFail [
    need (24 ≤ b.length && b.length == 24 + 16 * n) stBAD_LENGTH,
    need (fld b 0 2 ≤ 768 && fld b 2 2 ≤ 32767 && 1 ≤ fld b 4 2 && fld b 2 2 + fld b 4 2 ≤ 32768 && fld b 6 2 ≤ 2047 &&
      fld b 6 2 + fld b 8 2 ≤ 2048 && fld b 10 2 < 4096 && fld b 12 1 < 2 && n ≤ 16 && (fld b 12 1 == 1 || n == 0) &&
      rsv b 14 2 && fld b 16 8 < 2 ^ 48 &&
      (List.range n).all fun k =>
        let e := b.drop (24 + 16 * k)
        fld e 0 1 < 64 && fld e 1 1 < 64 && rsv e 2 2 && rsv e 12 4) stBAD_PARAM]

/-- Two ranges share a number. -/
def rangesMeet (a n b m : Nat) : Bool := n != 0 && m != 0 && a < b + m && b < a + n

/-- The flow table of a task set as read: DEST_Q, WINDOW and TIMEOUT of each flow. -/
def flowTable (s : State) (b : Bytes) : Option (List (Nat × Nat × Nat)) :=
  if fld b 8 2 = 0 then some []
  else match readBytes (unitInit uSYS 0) (fld b 16 8) (8 * fld b 8 2) s with
  | (.ok, bs, _, _) => some ((List.range (fld b 8 2)).map fun k => (fld bs (8 * k) 2, fld bs (8 * k + 2) 2, fld bs (8 * k + 4) 4))
  | _ => none

/-- The checks of a task set's START, in order (R208). -/
def taskSetAdmit (s : State) (id : Nat) (o : Object) : Nat :=
  let b := o.body
  firstFail [need (ledgerOk s (fld b 0 2)) stADMISSION_REFUSED,
    need (s.shuttle.owned.all fun w => w.obj == id ||
      (!rangesMeet w.tFirst w.tCount (fld b 2 2) (fld b 4 2) && !rangesMeet w.fFirst w.fCount (fld b 6 2) (fld b 8 2))) 0x0B01,
    match flowTable s b with
    | none => stHW_FAULT
    | some t =>
      need (t.all (fun e => e.2.1 ≤ 1024) &&
        sumL (s.shuttle.flows.map fun e => e.2.window) + sumL (t.map fun e => e.2.1) ≤ 65536) stNO_RESOURCE,
    need (c0Admit s (taskSetC0 b)) stADMISSION_REFUSED]

/-- An admitted task set takes its ranges and its flows (R206, R208). -/
def taskSetBegin (id : Nat) (s : State) : State :=
  match objFind s id with
  | none => s
  | some o =>
    let b := o.body
    let w : Owned := { obj := id, tFirst := fld b 2 2, tCount := fld b 4 2, fFirst := fld b 6 2, fCount := fld b 8 2, mask := fld b 10 2 % 4096
                       class0 := bit (fld b 12 1) 0 }
    let s := c0Set id (taskSetC0 b) { s with shuttle := { s.shuttle with owned := s.shuttle.owned ++ [w] } }
    let t := (flowTable s b).getD []
    (List.range t.length).foldl (fun s k =>
      match t[k]? with
      | some e => flowPut (fld b 6 2 + k) { destQ := e.1, window := e.2.1, timeoutUs := e.2.2 } s
      | none => s) s

/-! ### What a START does to a function -/

/-- The checks of a function's body and attributes (R61). -/
def fnCheck (s : State) (id attrs : Nat) (b : Bytes) : Nat :=
  if idFamily id = 2 then carrierCheck s id b
  else if idFamily id = 3 then chirpCheck s id b
  else if idFamily id = 4 then (if idType id = 1 then bridgeCheck b else videoCheck b)
  else if idFamily id = 6 then regionCheck s (idIndex id) attrs b
  else if idFamily id = 0x0A then linkCheck b
  else taskSetCheck b

/-- The crew cost of a function (R24). -/
def fnCost (id : Nat) (b : Bytes) : Nat :=
  if idFamily id = 2 then carrierCost id b
  else if idFamily id = 3 then chirpCost b
  else if idFamily id = 4 ∧ idType id = 1 then fld b 0 2
  else if idFamily id = 0x0B then fld b 0 2
  else 0

/-- The state and admission checks of a START on a STOPPED function (R62, R68). -/
def fnAdmit (s : State) (id : Nat) (o : Object) : Nat :=
  if idFamily id = 2 then carrierAdmit s id o
  else if idFamily id = 3 then chirpAdmit s id o
  else if idFamily id = 4 then (if idType id = 1 then bridgeAdmit s id o else videoAdmit s o.body)
  else if idFamily id = 0x0A then linkAdmit s o
  else if idFamily id = 0x0B then taskSetAdmit s id o
  else 0

/-- What an admitted function takes as it begins to start. -/
def fnBegin (id : Nat) (s : State) : State :=
  if idFamily id = 2 then carrierBegin id s
  else if idFamily id = 3 then chirpBegin id s
  else if idFamily id = 4 then (if idType id = 1 then bridgeBegin id s else videoBegin id s)
  else if idFamily id = 0x0A then linkBegin id s
  else if idFamily id = 0x0B then taskSetBegin id s
  else s

/-- A function admitted: its cost is committed and it is STARTING (R62). -/
def fnStart (id : Nat) (s : State) : State :=
  match objFind s id with
  | none => s
  | some o =>
    let c := fnCost id o.body
    fnBegin id (setCommitted (committed s + c)
      (objPut id { o with st := some .starting, cost := c, changed := shortNow s } s))

/-- What a function holds given back when its start fails (R63). -/
def fnAbandon (id : Nat) (s : State) : State :=
  let s := match objFind s id with
    | some o => objPut id { o with pool := 0 } s
    | none => s
  let s := c0Set id [] s
  if idFamily id = 2 then fhRefresh { taskGive id (carrierDiscard (idIndex id) s) with carriers := spDel s.carriers (idIndex id) }
  else if idFamily id = 3 then fhRefresh { taskGive id s with chirpGroups := spDel s.chirpGroups (idIndex id) }
  else if idFamily id = 4 then
    (if idType id = 1 then audioMod (fun (a : Audio) => { a with groups := spDel a.groups (idIndex id) }) (taskGive id s)
     else videoMod (fun (v : VideoState) => { v with sessions := spDel v.sessions (idIndex id) }) s)
  else if idFamily id = 0x0A then (lanesOwned s 2 (idIndex id)).foldl (fun s n => laneDrop n s) s
  else if idFamily id = 0x0B then dropOwner id s
  else s

/-- A STARTING function that cannot reach RUNNING gives up what it took, and is STOPPED (R63). -/
def fnAborted (id status : Nat) (s : State) : State :=
  if (objFind s id).any fun o => o.st == some .starting then fhRefresh (startFailed id status (fnAbandon id s)) else s

/-- The INIT field of the descriptor of a set's root is 0 (R208); one that cannot be read is for the arm to refuse. -/
def rootOk (s : State) (t : Nat) : Bool :=
  match readBytes (unitInit uSHUTTLE 0) (taskBase s + 64 * t) 64 s with
  | (.ok, b, _, _) => (parseDesc b).init == 0
  | _ => true

/-- A starting task set arms its root, whose INIT is 0, and reaches RUNNING (R208), once the descriptor can be read. -/
def taskSetRun (id : Nat) (s : State) : State :=
  match objFind s id with
  | none => s
  | some o =>
    let t := fld o.body 2 2
    if o.st ≠ some .starting then s
    else if armWaits t s then armOp t s
    else
      let s := if rootOk s t then armOp t s else armRefused t 2 s
      if (slot s t).st = .free then fnAborted id stHW_FAULT s else reachRunning id s

/-- STOP accepted: the function is STOPPING and ends its work as its chapter states (R65, R209). -/
def fnStopping (id : Nat) (s : State) : State :=
  let s := setFn id .stopping s
  if idFamily id = 3 then chirpStopping id s
  else if idFamily id = 4 then (if idType id = 1 then bridgeStopping id s else videoStopping id s)
  else if idFamily id = 0x0B then c0Set id [] (stopOwner id s)
  else s

/-! ### Setting objects (R67, R69, R70, R667) -/

/-- The body of the system settings (R69) and of the management port's settings (R70). -/
def sysCheck (b : Bytes) : Nat :=
  firstFail [need (b.length == 8) stBAD_LENGTH, need (fld b 0 1 ≤ 1 && rsv b 1 7) stBAD_PARAM]
def mgmtCheck (b : Bytes) : Nat :=
  let fl := fld b 1 1
  firstFail [need (b.length == 56) stBAD_LENGTH,
    need (1 ≤ fld b 0 1 && fld b 0 1 ≤ 2 && fl < 16 && (bit fl 0 || bit fl 1) &&
      (if bit fl 2 then fld b 2 2 < 4096 else fld b 2 2 == 0) &&
      (if bit fl 0 then 1 ≤ fld b 10 1 && fld b 10 1 ≤ 32 else fld b 10 1 == 0) &&
      (if bit fl 1 then 1 ≤ fld b 11 1 && fld b 11 1 ≤ 128 else fld b 11 1 == 0) && rsv b 20 4) stBAD_PARAM]

/-- The parameter checks of a setting's body (R61). -/
def settingCheck (id : Nat) (b : Bytes) : Nat :=
  if idFamily id = 1 then (if idType id = 1 then sysCheck b else mgmtCheck b)
  else if idFamily id = 5 then need (timeBodyOk b) stBAD_PARAM
  else if idFamily id = 7 then
    (if idIndex id = 255 then firstFail [need (b.length == 88) stBAD_LENGTH, need (supplyOk b) stBAD_PARAM]
     else firstFail [need (b.length == 16) stBAD_LENGTH, need (policyOk (idIndex id) b) stBAD_PARAM])
  else mdCheck b

/-- The state and admission checks of a setting (R28, R569). -/
def settingState (s : State) (id : Nat) (b : Bytes) : Nat :=
  if id = 0x01010000 then need (fld b 0 1 == 0 || committed s + 64 ≤ crewCapacity s) stADMISSION_REFUSED
  else if id = 0x0A020000 then need (linksStopped s) stFUNCTION_RUNNING
  else 0

/-- The management port takes its MODE and AN_EN from its settings; a change of either retrains it (R70). -/
def mgmtApplied (old : Bytes) (s : State) : State :=
  match objFind s 0x01020000 with
  | none => s
  | some o =>
    let b := o.body
    let s := if fld old 0 1 = fld b 0 1 ∧ bit (fld old 1 1) 3 = bit (fld b 1 1) 3 then s else ethDown 48 1 s
    regPutF uETH 48 0x000 31 31 1 (regPutF uETH 48 0x000 27 27 (b2n (bit (fld b 1 1) 3))
      (regPutF uETH 48 0x000 19 16 (fld b 0 1) s))

/-- A setting that has been put, or deleted, takes effect; `old` is the body before, empty when it was unset. -/
def settingApplied (id : Nat) (old : Bytes) (s : State) : State :=
  let now := ((objFind s id).map (·.body)).getD []
  if id = 0x01010000 then setSpare (64 * fld now 0 1) s
  else if id = 0x01020000 then mgmtApplied old s
  else if idFamily id = 5 then timeApplied (if old = [] then timeUnset else old) s
  else if idFamily id = 7 then (if idIndex id = 255 then s else policyApplied (idIndex id) s)
  else mdApplied s

/-! ### The generic commands -/

/-- A command that names a deferred function takes it off the deferred list once its target and parameters have passed
(R75). An OBJ_SET refused with CHANNEL_IN_USE, BAND_SPAN or CARRIER_CONFLICT counts as one whose parameters fail, which the
spec leaves open (DESIGN CHOICE, log 108). -/
def undefer (r : Request) (chk id : Nat) (s : State) : State :=
  if headed r chk = 0 ∧ !dryRun r then { s with cmd := { s.cmd with deferred := s.cmd.deferred.filter (· != id) } } else s

/-- The target and parameter checks of a command whose parameters begin with an object ID and are `n` bytes long: the unit
of the object it names comes before the length (R40, R58). -/
def idCheck (s : State) (family : Nat) (r : Request) (n : Nat) : Nat :=
  let id := fld r.params 0 4
  firstFail [
    need (!(4 ≤ r.params.length && idOk family id && (idAbsent s id ||
      (objFind s id).any fun o => bodyAbsent s id o.body))) stUNIT_ABSENT, targetCheck s r uSYS 0,
    need (r.params.length == n) stBAD_LENGTH, need (idOk family id) stBAD_PARAM]

/-- A generic command of a family without objects is unassigned (Opcodes). -/
def generic (family low : Nat) (r : Request) (f : State → State) (s : State) : State :=
  if hasObjects family then f s else reply (family * 256 + low) r stBAD_OPCODE [] s

/-- The state check of a command that changes an object (R54, R60, R67). -/
def changeState (s : State) (id : Nat) : Nat :=
  match objFind s id with
  | some o => match o.st with
    | some .running => stFUNCTION_RUNNING
    | some .starting => stBUSY
    | some .stopping => stBUSY
    | _ => need (!objBusy s id) stBUSY
  | none => 0

/-- The parameter checks of OBJ_SET on a record. -/
def recordCheck (s : State) (id attrs : Nat) (b : Bytes) : Nat :=
  firstFail [need (attrs < 4) stBAD_PARAM, if isFn id then fnCheck s id attrs b else settingCheck id b]

/-- An object created or replaced; a setting takes effect (R61, R66, R67). -/
def setObject (id attrs : Nat) (b : Bytes) (s : State) : State :=
  let old := objFind s id
  let st : Option FnState := if isFn id then some .stopped else none
  let new : Object := { st := st, changed := if isFn id then shortNow s else 0 }
  let o : Object := { (old.getD new) with attrs := attrs, body := b }
  let s := objPut id o s
  if isFn id then s else settingApplied id ((old.map (·.body)).getD []) s

/-- OBJ_SET (R60, R61, R66, R67). -/
def objSetOp (family : Nat) (r : Request) (s : State) : State :=
  let p := r.params
  let id := fld p 0 4
  let n := fld p 6 2
  let b := sub p 8 n
  let whole := 8 ≤ p.length && p.length == 8 + n && n % 4 == 0 && n ≤ 4072
  let chk := firstFail [
    need (!(4 ≤ p.length && idOk family id && (idAbsent s id || (whole && bodyAbsent s id b)))) stUNIT_ABSENT,
    targetCheck s r uSYS 0,
    need whole stBAD_LENGTH, need (idOk family id) stBAD_PARAM, recordCheck s id (fld p 4 2) b]
  let s := undefer r chk id s
  runCmd (family * 256 + 1) r (firstFail [chk, changeState s id, if isFn id then 0 else settingState s id b])
    (fun s => (stDONE, [], setObject id (fld p 4 2) b s)) s

/-- An object's record (Generic parameter layouts); empty for an object that does not exist. -/
def objRecord (s : State) (id : Nat) : Bytes :=
  match objFind s id with
  | some o => leBytes 4 id ++ leBytes 2 o.attrs ++ leBytes 2 o.body.length ++ o.body
  | none => []

/-- The checks of OBJ_GET (R59, R66, R666). -/
def objGetCheck (s : State) (family : Nat) (r : Request) : Nat :=
  let p := r.params
  let a := fld p 8 8
  let b := objRecord s (fld p 0 4)
  firstFail [headed r (firstFail [idCheck s family r 16,
      need (rsv p 4 4 && (a == 0 || (a < 2 ^ 48 && a % 32 == 0 && (b == [] || writable s a b.length)))) stBAD_PARAM]),
    need (objFind s (fld p 0 4)).isSome stOBJECT_UNKNOWN, need (a != 0 || b.length ≤ 4080) stBAD_LENGTH]

/-- OBJ_GET (R59, R66, R666). -/
def objGetOp (family : Nat) (r : Request) (s : State) : State :=
  let a := fld r.params 8 8
  let b := objRecord s (fld r.params 0 4)
  let chk := objGetCheck s family r
  if chk ≠ 0 then reply (family * 256 + 2) r chk [] s
  else if dryRun r then reply (family * 256 + 2) r stDONE [] s
  else if a = 0 then reply (family * 256 + 2) r stDONE b s
  else match commandWrite a b s with
  | (.ok, s) => reply (family * 256 + 2) r stDONE (leBytes 4 b.length) s
  | (.wait, s) => s
  | (_, s) => reply (family * 256 + 2) r stHW_FAULT [] s

/-- OBJ_DELETE; a setting returns to its unset values (R60, R591, R667). -/
def objDeleteOp (family : Nat) (r : Request) (s : State) : State :=
  let id := fld r.params 0 4
  let chk := firstFail [idCheck s family r 4, need (family != 6) stBAD_PARAM]
  let s := undefer r chk id s
  runCmd (family * 256 + 5) r
    (firstFail [chk, need (objFind s id).isSome stOBJECT_UNKNOWN, changeState s id,
      if isFn id then 0 else settingState s id []])
    (fun s =>
      let old := ((objFind s id).map (·.body)).getD []
      let s := objDel id s
      (stDONE, [], if isFn id then s else settingApplied id old s)) s

/-- The number of a function's state. -/
def stateCode : Option FnState → Nat
  | none => 0xFF
  | some .stopped => 0
  | some .starting => 1
  | some .running => 2
  | some .stopping => 3

/-- OBJ_STATE. -/
def objStateOp (family : Nat) (r : Request) (s : State) : State :=
  let id := fld r.params 0 4
  runCmd (family * 256 + 6) r (firstFail [idCheck s family r 4, need (objFind s id).isSome stOBJECT_UNKNOWN])
    (fun s => match objFind s id with
      | some o => (stDONE, [BitVec.ofNat 8 (stateCode o.st), 0] ++ leBytes 2 o.cost ++ leBytes 2 o.last ++ [0, 0] ++
          leBytes 8 o.changed, s)
      | none => (stOBJECT_UNKNOWN, [], s)) s

/-- OBJ_LIST: the objects of a type from an index on, at most 1,000. -/
def objListOp (family : Nat) (r : Request) (s : State) : State :=
  let id := fld r.params 0 4
  runCmd (family * 256 + 7) r
    (firstFail [need (!(4 ≤ r.params.length && idOk family id && idAbsent s id)) stUNIT_ABSENT, targetCheck s r uSYS 0,
      need (r.params.length == 4) stBAD_LENGTH, need (idOk family id) stBAD_PARAM])
    (fun s =>
      let ids := (((objsOf s family (idType id)).map (·.1)).filter fun k => id ≤ k).take 1000
      (stDONE, leBytes 4 ids.length ++ ids.flatMap (leBytes 4), s)) s

/-- The state in which a task set's flow table, or with `root` the descriptor of its root, is still to be read from a
memory that is asleep (R208, R537). -/
def taskSetWait (id : Nat) (root : Bool) (s : State) : Option State :=
  match objFind s id with
  | none => none
  | some o =>
    let b := o.body
    if idFamily id ≠ 0x0B then none
    else match readBytes (unitInit uSYS 0) (fld b 16 8) (8 * fld b 8 2) s with
    | (.wait, _, _, s1) => some (waitAt s s1)
    | (_, _, _, s) => if root ∧ armWaits (fld b 2 2) s then some (armOp (fld b 2 2) s) else none

/-- A request whose work needs a memory that is asleep: it stays where it is until the memory wakes (R537). -/
def requestWait (op : Nat) (r : Request) (s : State) : Option State :=
  let id := fld r.params 0 4
  if op % 256 = 2 ∧ hasObjects (op / 256) then
    (if objGetCheck s (op / 256) r = 0 ∧ !dryRun r ∧ fld r.params 8 8 ≠ 0 then
       match commandWrite (fld r.params 8 8) (objRecord s id) s with
       | (.wait, s) => some s
       | _ => none
     else none)
  else if op = 0x0B03 ∧ headed r (idCheck s 0x0B r 4) = 0 then
    (if (objFind s id).any fun o => o.st == some .stopped then taskSetWait id false s else none)
  else none

/-- START (R62, R64, R66, R68). -/
def startOp (family : Nat) (r : Request) (s : State) : State :=
  match requestWait (family * 256 + 3) r s with
  | some s => s
  | none =>
  let id := fld r.params 0 4
  let chk := firstFail [idCheck s family r 4, need (isFn id) stBAD_PARAM]
  let s := undefer r chk id s
  let st := match objFind s id with
    | none => stOBJECT_UNKNOWN
    | some o => match o.st with
      | some .running => stFUNCTION_RUNNING
      | some .stopped => need (!objBusy s id) stBUSY
      | _ => stBUSY
  let adm := match objFind s id with
    | some o => fnAdmit s id o
    | none => 0
  runLong (family * 256 + 3) r chk (if st = 0 then adm else st) (some id) false (fnStart id) s

/-- STOP (R64, R65, R66). -/
def stopOp (family : Nat) (r : Request) (s : State) : State :=
  let id := fld r.params 0 4
  let chk := firstFail [idCheck s family r 4, need (isFn id) stBAD_PARAM]
  let s := undefer r chk id s
  let st := match objFind s id with
    | none => stOBJECT_UNKNOWN
    | some o => match o.st with
      | some .running => need (!objBusy s id) stBUSY
      | some .stopped => stFUNCTION_STOPPED
      | _ => stBUSY
  runLong (family * 256 + 4) r chk st (some id) false (fnStopping id) s

/-! ### AUTOSTART (R74, R75) -/

/-- A function started by boot: admitted as though the host had issued its START; a refusal leaves it STOPPED and raises
AUTOSTART_REFUSED. A task set whose flow table or root lies in a memory that is asleep waits on the deferred list. -/
def autoStart (id : Nat) (s : State) : State :=
  match objFind s id with
  | none => s
  | some o =>
    if o.st ≠ some .stopped then s
    else match taskSetWait id true s with
    | some s => { s with cmd := { s.cmd with deferred := s.cmd.deferred ++ [id] } }
    | none =>
      let st := fnAdmit s id o
      if st ≠ 0 then raise 0x0102 uSYS 0 1 (leBytes 4 id ++ leBytes 2 st) s
      else
        let s := fnStart id s
        if idFamily id = 0x0B then taskSetRun id s else s

/-- The functions of the running set whose AUTOSTART attribute is 1, in ascending object ID order: those that need time
of day are deferred while it is UNSET. -/
def autoStartAll (s : State) : State :=
  (s.objs.filter fun e => isFn e.1 && bit e.2.attrs 1).foldl (fun s e =>
    if needsTime e.1 && s.cox.st == .unset then { s with cmd := { s.cmd with deferred := s.cmd.deferred ++ [e.1] } }
    else autoStart e.1 s) s

/-- The deferred functions started: those that need time of day once the time state has left UNSET. -/
def deferredStart (s : State) : State :=
  let held := fun id => needsTime id && s.cox.st == .unset
  (s.cmd.deferred.filter fun id => !held id).foldl (fun s id => autoStart id s)
    { s with cmd := { s.cmd with deferred := s.cmd.deferred.filter held } }

end Sys2Proof.Machine
end

