-- ==== Sys2Proof/Machine/Security.lean ====
section
/-!
DEFINITION. Configuration images and their consistency check, installs, anti-rollback, identity, attestation and owner
keys: the commands CONFIG_EXPORT and CONFIG_INSTALL and those of family 0x08 (02_commands.md, R71 to R73; 03_boot_identity.md,
R92, R95 to R98, R103, R105 to R110).
-/
namespace Sys2Proof.Machine
open Sys2Proof

/-- SEC_BOOT_STATUS fields. -/
def bootState (s : State) : Nat := regF s uSEC 0 0x000 23 20
def bootReason (s : State) : Nat := regF s uSEC 0 0x000 15 8
def setBoot (st : Nat) (s : State) : State := regPutF uSEC 0 0x000 23 20 st s

/-- An image in memory as the security island reads it; a read of a memory that is asleep waits (R537). -/
def imageIn (a n : Nat) (s : State) : Bus × Bytes × State :=
  match readBytes (unitInit uSYS 0) a n s with
  | (.ok, bs, _, s) => (.ok, bs, s)
  | (.wait, _, _, s1) => (.wait, [], waitAt s s1)
  | (_, _, _, s) => (.busError, [], s)

/-- The bytes of an image: header, payload and signature block. -/
def wholeImage (b : Bytes) : Bytes := sub b 0 (128 + imgLen b + 3376)

/-! ### Configuration images (R71, R103) -/

/-- An object record: object ID, attributes and body. -/
abbrev ObjRecord := Nat × Nat × Bytes

/-- The records of a configuration payload; none when one does not parse. -/
def parseRecords : Nat → Bytes → Option (List ObjRecord)
  | 0, b => if b = [] then some [] else none
  | n + 1, b =>
    let len := fld b 6 2
    if b = [] then some []
    else if b.length < 8 + len ∨ len % 4 ≠ 0 ∨ 4072 < len then none
    else match parseRecords n (b.drop (8 + len)) with
    | none => none
    | some r => some ((fld b 0 4, fld b 4 2, sub b 8 len) :: r)

/-- The running set with nothing in it but the regions, as CFG_LOAD finds it. -/
def emptySet (s : State) : State :=
  setCommitted 0 (setSpare 0 { s with objs := s.objs.filter fun e => idFamily e.1 == 6 })

/-- A record passes the checks of its OBJ_SET (R103). -/
def recordOk (s : State) (x : ObjRecord) : Bool :=
  idOk (idFamily x.1) x.1 && !idAbsent s x.1 && !bodyAbsent s x.1 x.2.2 && recordCheck s x.1 x.2.1 x.2.2 == 0 &&
    (isFn x.1 || settingState s x.1 x.2.2 == 0)

/-- Every record passes, each after those before it. -/
def recordsOk : List ObjRecord → State → Bool
  | [], _ => true
  | x :: r, s => recordOk s x && recordsOk r (setObject x.1 x.2.1 x.2.2 s)

/-- The objects a record references exist among some object IDs: a video session's SOURCE and the joint entries'
LOCAL_CARRIER. -/
def refsOk (ids : List Nat) (x : ObjRecord) : Bool :=
  let b := x.2.2
  if x.1 / 0x10000 = 0x0402 then
    !(vKind b == 1 || vKind b == 3) || 0x8000 ≤ vSource b || ids.contains (objId 4 2 (vSource b % 4096))
  else if x.1 = 0x0A020000 then
    (List.range (fld b 7 1)).all fun k =>
      let c := fld b (16 + 4 * fld b 4 2 + 8 * fld b 6 1 + 8 * k) 1
      ids.contains (objId 2 1 c) || ids.contains (objId 2 2 c)
  else true

/-- The records of a configuration payload that passes the consistency check. -/
def configRecords (s : State) (p : Bytes) : Option (List ObjRecord) :=
  match parseRecords (p.length / 8 + 1) p with
  | none => none
  | some rs =>
    let ids := rs.map (·.1)
    if ((ids.zip (ids.drop 1)).all fun e => e.1 < e.2) && recordsOk rs (emptySet s) && rs.all (refsOk ids) then some rs
    else none

/-- The unsigned image body: the records of the objects that persist, in ascending order. -/
def exportBody (s : State) : Bytes :=
  (s.objs.filter fun e => bit e.2.attrs 0).flatMap fun e =>
    leBytes 4 e.1 ++ leBytes 2 e.2.attrs ++ leBytes 2 e.2.body.length ++ e.2.body

/-- CONFIG_EXPORT: the running set as it stands when the command is accepted. -/
def configExportOp (r : Request) (s : State) : State :=
  let p := r.params
  let body := exportBody s
  runLong 0x0144 { r with params := p ++ body }
    (firstFail [targetCheck s r uSYS 0, need (p.length == 16) stBAD_LENGTH,
      need (rsv p 12 4 && fld p 0 8 < 2 ^ 48 && writable s (fld p 0 8) body.length) stBAD_PARAM])
    (need (roundUp body.length 32 ≤ fld p 8 4) stNO_RESOURCE) none true id s

/-- The body of a CONFIG_EXPORT written; a write that has to wait leaves the command outstanding. -/
def exportDone (l : Long) (s : State) : State :=
  let body := l.params.drop 16
  match commandWrite (fld l.params 0 8) body s with
  | (.ok, s) => completeLong l stDONE (leBytes 4 body.length) s
  | (.wait, s) => s
  | (_, s) => completeLong l stHW_FAULT [] s

/-- A CONFIG_EXPORT ended before its end has written a free number of its code words. -/
def exportCut (l : Long) (s : State) : State :=
  let (v, s) := draw s
  let body := fit (roundUp (l.params.length - 16) 32) (l.params.drop 16)
  (commandWrite (fld l.params 0 8) (body.take (v % (body.length / 32 + 1) * 32)) s).2

/-! ### Installs (R72, R92, R95) -/

/-- An install is outstanding (R95). -/
def installOn (s : State) : Bool := s.cmd.longs.any fun l => l.opcode == 0x0145 || l.opcode == 0x0841

/-- CONFIG_INSTALL. -/
def configInstallOp (r : Request) (s : State) : State :=
  let p := r.params
  runLong 0x0145 r
    (firstFail [targetCheck s r uSYS 0, need (p.length == 16) stBAD_LENGTH,
      need (rsv p 12 4 && fld p 0 8 < 2 ^ 48) stBAD_PARAM])
    (firstFail [need (!installOn s) stBUSY, need (fld p 8 4 ≤ slotSize .nv 2) stNO_RESOURCE]) none true id s

/-- IMAGE_INSTALL. -/
def imageInstallOp (r : Request) (s : State) : State :=
  let p := r.params
  let type := fld p 0 1
  let w : Store := if fld p 1 1 = 1 then .spi else .nv
  runLong 0x0841 r
    (firstFail [targetCheck s r uSEC 0, need (p.length == 16) stBAD_LENGTH,
      need ((type == 1 || type == 3 || type == 4) && fld p 1 1 ≤ 1 && (w == .nv || type == 1) && rsv p 2 2 &&
        fld p 8 8 < 2 ^ 48) stBAD_PARAM])
    (firstFail [need (!installOn s) stBUSY, need (fld p 4 4 ≤ slotSize w type) stNO_RESOURCE]) none true id s

/-- The store and type an install writes, the address and length of its image. -/
def installStore (l : Long) : Store := if l.opcode = 0x0841 ∧ fld l.params 1 1 = 1 then .spi else .nv
def installType (l : Long) : Nat := if l.opcode = 0x0841 then fld l.params 0 1 else 2
def installAddr (l : Long) : Nat := fld l.params (if l.opcode = 0x0841 then 8 else 0) 8
def installLen (l : Long) : Nat := fld l.params (if l.opcode = 0x0841 then 4 else 8) 4

/-- The image of an install read and verified: its status, DONE when it may be written; none while its read waits. -/
def installVerify (l : Long) (s : State) : Option Nat × Bytes × State :=
  match imageIn (installAddr l) (installLen l) s with
  | (.wait, _, s) => (none, [], s)
  | (.ok, b, s) =>
    let (v, s) := verifyImage (installType l) b s
    if v ≠ .valid then (some (verdictStatus v), [], s)
    else if installType l = 2 ∧ (configRecords s (imgPayload b)).isNone then (some stCONFIG_INVALID, [], s)
    else (some stDONE, wholeImage b, s)
  | (_, _, s) => (some stHW_FAULT, [], s)

/-- No further unit of the NV store is started while PFAIL is set (R623). -/
def nvPaused (s : State) : Bool := regF s uPOWER 0 0x000 31 31 == 1

/-- An install's work done. -/
def installDone (l : Long) (s : State) : State :=
  if installStore l = .nv ∧ nvPaused s then s
  else match installVerify l s with
  | (some 0, b, s) =>
    let (n, s) := installImage (installStore l) (installType l) b s
    completeLong l stDONE [BitVec.ofNat 8 n, 0, 0, 0] s
  | (some st, _, s) => completeLong l st [] s
  | (none, _, s) => s

/-- An install that CANCEL ends before its commit record (R55, R92). -/
def installCancelled (l : Long) (s : State) : State :=
  match installVerify l s with
  | (some 0, b, s) => installCut (installStore l) (installType l) b s
  | (_, _, s) => s

/-- An install that a reset or a power loss interrupts: cut short, or committed. -/
def installInterrupted (l : Long) (s : State) : State :=
  let (v, s) := draw s
  match installVerify l s with
  | (some 0, b, s) =>
    if v % 2 = 1 then (installImage (installStore l) (installType l) b s).2
    else installCut (installStore l) (installType l) b s
  | (_, _, s) => s

/-! ### Firmware (R101) -/

/-- Firmware copied to SDRAM from address 0, with its entry point in every crew's CREW_BOOT_VEC (R260); the bytes that
complete its last code word are free. -/
def loadFirmware (img : Bytes) (s : State) : Bool × State :=
  let p := imgPayload img
  let (v, s) := draw s
  let e := fld img 20 4
  let s := (List.range 12).foldl (fun s n =>
    regPut (uCREW + n) crewCtl 0x00C (BitVec.ofNat 32 (e / 4 * 4)) (regPut (uCREW + n) crewCtl 0x010 0 s)) s
  match writeBytes (unitInit uSEC 0) 0 (p ++ leBytes (roundUp p.length 32 - p.length) v) s with
  | (.ok, _, s) => (true, s)
  | (_, _, s) => (false, s)

/-- The header of an image booted since reset is kept. -/
def booted (type : Nat) (img : Bytes) (s : State) : State :=
  secMod (fun (x : Sec) => { x with booted := spPut x.booted type (sub img 0 128) }) s

/-- The device waits for firmware: WAIT_HOST, or CONFIG_INVALID with a reason of FW_LOAD. -/
def wantsFirmware (s : State) : Bool := bootState s == 8 || (bootState s == 9 && 1 ≤ bootReason s && bootReason s ≤ 4)

/-- IMAGE_PUSH. -/
def imagePushOp (r : Request) (s : State) : State :=
  let p := r.params
  runLong 0x0840 r
    (firstFail [targetCheck s r uSEC 0, need (p.length == 16) stBAD_LENGTH,
      need (fld p 0 1 == 1 && rsv p 1 3 && fld p 8 8 < 2 ^ 48) stBAD_PARAM])
    (need (wantsFirmware s) 0x0801) none true id s

/-- Pushed firmware verified and loaded; boot resumes at PIN_TABLE. -/
def pushDone (l : Long) (s : State) : State :=
  if !wantsFirmware s then completeLong l 0x0801 [] s
  else match imageIn (fld l.params 8 8) (fld l.params 4 4) s with
  | (.wait, _, s) => s
  | (.ok, b, s) =>
    let (v, s) := verifyImage 1 b s
    if v ≠ .valid then completeLong l (verdictStatus v) [] s
    else match loadFirmware b s with
    | (false, s) => completeLong l stHW_FAULT [] s
    | (true, s) =>
      let s := regPutF uSEC 0 0x000 19 16 3 (regPutF uSEC 0 0x000 15 8 0 (setBoot 3 s))
      completeLong l stDONE [] (booted 1 b s)
  | (_, _, s) => completeLong l stHW_FAULT [] s

/-! ### Anti-rollback (R96 to R98) -/

/-- A rollback counter, by image type. -/
def rollbackOf (s : State) (type : Nat) : Nat := s.sec.rollback.getD (type - 1) 0
def setRollback (type v : Nat) (s : State) : State :=
  secMod (fun (x : Sec) => { x with rollback := x.rollback.set (type - 1) v }) s

/-- ROLLBACK_ADVANCE. -/
def rollbackOp (r : Request) (s : State) : State :=
  let p := r.params
  let type := fld p 0 1
  let target := fld p 1 1
  let now := rollbackOf s type
  let limit := match spFind s.sec.booted type with
    | some h => max now (imgVersion h)
    | none => now
  runLong 0x0843 r
    (firstFail [targetCheck s r uSEC 0, need (p.length == 4) stBAD_LENGTH,
      need (1 ≤ type && type ≤ 4 && rsv p 2 2 && now ≤ target && (target == now || target ≤ limit)) stBAD_PARAM])
    0 none false id s

/-- The fuse bits of a ROLLBACK_ADVANCE blown; none is blown while PFAIL is set (R623). -/
def rollbackDone (l : Long) (s : State) : State :=
  let type := fld l.params 0 1
  if nvPaused s then s
  else
    let v := max (rollbackOf s type) (fld l.params 1 1)
    completeLong l stDONE [BitVec.ofNat 8 v] (setRollback type v s)

/-- A ROLLBACK_ADVANCE that a reset interrupts: the counter is somewhere up to the target (R98). -/
def rollbackCut (l : Long) (s : State) : State :=
  let type := fld l.params 0 1
  let (v, s) := draw s
  let now := rollbackOf s type
  setRollback type (now + v % (fld l.params 1 1 - now + 1)) s

/-! ### Identity and attestation (R105 to R109) -/

/-- IDENTITY_GET. -/
def identityOp (r : Request) (s : State) : State :=
  runCmd 0x0844 r (firstFail [targetCheck s r uSEC 0, need (r.params.length == 0) stBAD_LENGTH])
    (fun s => (stDONE, leBytes 8 Config.serial.toNat ++ fit 32 Config.deviceEd ++ fit 1952 Config.deviceMldsa, s)) s

/-- A DER element: its tag, its length in the shortest form, its contents. -/
def der (tag : BitVec 8) (b : Bytes) : Bytes :=
  let n := b.length
  let len : Bytes := if n < 0x80 then [BitVec.ofNat 8 n] else if n < 0x100 then [0x81, BitVec.ofNat 8 n]
    else [0x82, BitVec.ofNat 8 (n / 256), BitVec.ofNat 8 n]
  tag :: len ++ b

/-- The algorithm identifier of the Ed25519 certificates (RFC 8410) and of the ML-DSA-65 certificates,
2.16.840.1.101.3.4.3.18 (R106). -/
def certAlgorithm (k : Nat) : Bytes :=
  der 0x30 (der 0x06 (if k % 2 = 0 then [0x2B, 0x65, 0x70] else [0x60, 0x86, 0x48, 0x01, 0x65, 0x03, 0x04, 0x03, 0x12]))

/-- A 64-bit number in 16 hexadecimal digits. -/
def hexDigits (v : Nat) : Bytes :=
  (List.range 16).map fun k =>
    let d := v / 16 ^ (15 - k) % 16
    BitVec.ofNat 8 (if d < 10 then 0x30 + d else 0x37 + d)

/-- The subject of a certificate: a device certificate's serial number (2.5.4.5) is the device serial in hexadecimal
(R106). -/
def certSubject (k : Nat) : Bytes :=
  let device := der 0x31 (der 0x30 (der 0x06 [0x55, 0x04, 0x05] ++ der 0x13 (hexDigits Config.serial.toNat)))
  der 0x30 (Config.certSubject k ++ (if k < 2 then device else []))

/-- The public key a certificate certifies. -/
def certKey (k : Nat) : Bytes :=
  if k = 0 then fit 32 Config.deviceEd else if k = 1 then fit 1952 Config.deviceMldsa else Config.authorityKey k

/-- The X.509 v3 certificate `k` as CERT_GET numbers them (R106, RFC 5280): version 2 for v3, and an issuer of the same
algorithm. -/
def certificate (k : Nat) : Bytes :=
  let tbs := der 0xA0 (der 0x02 [2]) ++ der 0x02 (Config.certNumber k) ++ certAlgorithm k ++ der 0x30 (Config.certIssuer k) ++
    der 0x30 (Config.certValidity k) ++ certSubject k ++ der 0x30 (certAlgorithm k ++ der 0x03 (0 :: certKey k)) ++
    der 0xA3 (der 0x30 (Config.certExtensions k))
  der 0x30 (der 0x30 tbs ++ certAlgorithm k ++ der 0x03 (0 :: Config.certSignature k))

/-- CERT_GET; its parameters end in two bytes that complete their last word. -/
def certOp (r : Request) (s : State) : State :=
  let p := r.params
  runCmd 0x0845 r
    (firstFail [targetCheck s r uSEC 0, need (p.length == 8) stBAD_LENGTH,
      need (fld p 0 1 ≤ 3 && rsv p 1 1 && fld p 4 2 ≤ 4076 && rsv p 6 2) stBAD_PARAM])
    (fun s =>
      let c := certificate (fld p 0 1)
      let d := (c.drop (fld p 2 2)).take (fld p 4 2)
      (stDONE, leBytes 2 c.length ++ leBytes 2 d.length ++ d, s)) s

/-- SHA-512 of the booted header of a type; zero where none was booted. -/
def headerDigest (s : State) (type : Nat) : Bytes :=
  match spFind s.sec.booted type with
  | some h => fit 64 (Config.sha512 h)
  | none => zeros 64

/-- An owner slot is programmed. -/
def programmed (s : State) (n : Nat) : Bool := (ownerSlot s n).ed.isSome

/-- The 384 bytes of an attestation report (R109). -/
def reportBytes (nonce : Bytes) (s : State) : Bytes :=
  let st := (regGet s uSEC 0 0x000).toNat
  [0x59, 0x44, 0x41, 0x54] ++ leBytes 2 1 ++ leBytes 2 (capReg s 0x000 / 0x10000) ++ leBytes 8 Config.serial.toNat ++
    leBytes 1 (b2n (programmed s 0 || programmed s 1)) ++ leBytes 1 (bits st 31 29) ++ leBytes 1 (bits st 19 16) ++
    leBytes 1 (bits st 3 0) ++ [1, 2, 3, 4].flatMap (fun t => leBytes 1 (rollbackOf s t)) ++ leBytes 8 (shortNow s) ++
    leBytes 1 (timeCode s.cox.st) ++ zeros 7 ++ fit 32 nonce ++ headerDigest s 1 ++ headerDigest s 4 ++ headerDigest s 3 ++
    headerDigest s 2 ++ zeros 56

/-- ATTEST. -/
def attestOp (r : Request) (s : State) : State :=
  runLong 0x0846 r (firstFail [targetCheck s r uSEC 0, need (r.params.length == 32) stBAD_LENGTH]) 0 none false id s

/-- An attestation report made and signed by both device keys. -/
def attestDone (l : Long) (s : State) : State :=
  let b := reportBytes l.params s
  completeLong l stDONE (b ++ sub (Config.signReport b) 0 3373 ++ zeros 3) s

/-! ### Owner keys (R89, R107, R108) -/

/-- A change to an owner slot. -/
def ownerMod (n : Nat) (f : OwnerSlot → OwnerSlot) (s : State) : State :=
  if n = 0 then secMod (fun (x : Sec) => { x with owner0 := f x.owner0 }) s
  else secMod (fun (x : Sec) => { x with owner1 := f x.owner1 }) s

/-- OWNER_KEYS_SET. -/
def ownerSetOp (r : Request) (s : State) : State :=
  let p := r.params
  runLong 0x0847 r
    (firstFail [targetCheck s r uSEC 0, need (p.length == 1988) stBAD_LENGTH,
      need (fld p 0 1 ≤ 1 && rsv p 1 3) stBAD_PARAM])
    (need (!programmed s (fld p 0 1)) 0x0802) none false id s

/-- The keys of an owner slot stored, and its fuses blown. -/
def ownerProgram (l : Long) (s : State) : State :=
  let n := fld l.params 0 1
  let ed := sub l.params 4 32
  let ml := sub l.params 36 1952
  ownerMod n (fun (o : OwnerSlot) => { o with ed := some (Config.sha512 ed), ml := Config.sha512 ml })
    (storeWrite .nv (0x1000 * (n + 1)) (ed ++ ml) s)

/-- OWNER_KEYS_SET done. -/
def ownerSetDone (l : Long) (s : State) : State :=
  if nvPaused s then s
  else if programmed s (fld l.params 0 1) then completeLong l 0x0802 [] s
  else completeLong l stDONE [] (ownerProgram l s)

/-- OWNER_KEY_REVOKE. -/
def ownerRevokeOp (r : Request) (s : State) : State :=
  let p := r.params
  let n := fld p 0 1
  runLong 0x0848 r
    (firstFail [targetCheck s r uSEC 0, need (p.length == 3392) stBAD_LENGTH,
      need (n ≤ 1 && rsv p 1 7 && fld p 8 8 == Config.serial.toNat) stBAD_PARAM])
    (need (programmed s (1 - n) && !(ownerSlot s (1 - n)).revoked) 0x0803) none false id s

/-- The other slot's signatures over the request's message verify (R108). -/
def revokeSigned (l : Long) (s : State) : Bool :=
  let k := sigCheck (keysOf s (3 - fld l.params 0 1)) (leBytes 2 0x0848 ++ sub l.params 0 16) (sub l.params 16 3376)
  k.1 && k.2

/-- The revoke fuse blown. -/
def revokeFuse (l : Long) (s : State) : State :=
  ownerMod (fld l.params 0 1) (fun (o : OwnerSlot) => { o with revoked := true }) s

/-- OWNER_KEY_REVOKE done. -/
def ownerRevokeDone (l : Long) (s : State) : State :=
  if nvPaused s then s
  else if revokeSigned l s then completeLong l stDONE [] (revokeFuse l s)
  else completeLong l 0x0803 [] s

/-- OWNER_KEYS_SET or OWNER_KEY_REVOKE interrupted by a reset: its work is done, or it is not. -/
def ownerInterrupted (l : Long) (s : State) : State :=
  let (v, s) := draw s
  if v % 2 = 0 then s
  else if l.opcode = 0x0847 then (if programmed s (fld l.params 0 1) then s else ownerProgram l s)
  else if revokeSigned l s then revokeFuse l s else s

end Sys2Proof.Machine
end

