-- ==== Sys2Proof/Machine/Boot.lean ====
section
/-!
DEFINITION. The resets of the device and the phases of boot (03_boot_identity.md, R76 to R104; 02_commands.md, R56, R74;
13_memory_ecc.md, R452 to R455; 16_lanes_bupex.md, R576; 17_jortanu_fabric.md, R582 to R589; 18_power.md, R622;
20_electrical.md, R651, R652, R659, R664).
-/
namespace Sys2Proof.Machine
open Sys2Proof

/-! ### Resets -/

/-- What a reset leaves of a long command that was writing the NV store, the SPI flash, memory or fuses. -/
def interrupted (l : Long) (s : State) : State :=
  if l.opcode = 0x0144 then exportCut l s
  else if l.opcode = 0x0145 ∨ l.opcode = 0x0841 then installInterrupted l s
  else if l.opcode = 0x0641 then nvCut l s
  else if l.opcode = 0x0843 then rollbackCut l s
  else if l.opcode = 0x0847 ∨ l.opcode = 0x0848 then ownerInterrupted l s
  else s

/-- A byte of memory keeps its contents through a reset: SDRAM and Spool cell memory, unless power was lost (R242,
R455). -/
def survives (power : Bool) (a : Nat) : Bool :=
  match regionOf a with
  | .sdram => !power
  | .cell => !power
  | _ => false

/-- A reset: every request, reply, long command and function is gone and the time state is UNSET (R6, R56). What lies
outside the device's logic stays: stores, fuses, rails, pins, and memory that power keeps. `cause` is RESET_CAUSE. -/
def resetAll (cause : Nat) (power : Bool) (held : Held) (s : State) : State :=
  let s := s.cmd.longs.foldl (fun s l => interrupted l s) s
  let sec : Sec := { held := held, nv := s.sec.nv, spi := s.sec.spi, rollback := s.sec.rollback, owner0 := s.sec.owner0
                     owner1 := s.sec.owner1 }
  let pw : Power := { rails := s.power.rails, pfailPin := s.power.pfailPin, thermtrip := s.power.thermtrip }
  let cox : Cox := { osc := s.cox.osc }
  let t : State := { part := s.part, now := s.now, free := s.free, out := s.out, pending := s.pending
                     mem := s.mem.filter fun e => survives power e.1
                     ecc := s.ecc.filter fun e => survives power e.1
                     sec := sec, power := pw, cox := cox }
  regPutF uPOWER 0 0x000 25 24 cause
    (if power then t else regPutF uSEC 0 0x000 31 29 (regF s uSEC 0 0x000 31 29) t)

/-- The device is no longer held, or held otherwise. -/
def setHeld (h : Held) (s : State) : State := secMod (fun (x : Sec) => { x with held := h }) s

/-- The straps sampled (R76). -/
def sampleStraps (v : Nat) (s : State) : State := regPutF uSEC 0 0x000 31 29 v s

/-- RESET_N rises. -/
def resetRise (straps : Nat) (s : State) : State :=
  match s.sec.held with
  | .resetN => sampleStraps straps (setHeld .no s)
  | .powerOn _ => setHeld (.powerOn true) s
  | .brownout _ => sampleStraps straps (setHeld (.brownout false) s)
  | .no => s

/-- RESET_N falls. -/
def resetFall (s : State) : State :=
  match s.sec.held with
  | .powerOn _ => setHeld (.powerOn false) s
  | .brownout _ => setHeld (.brownout true) s
  | .resetN => s
  | .no => resetAll 1 false .resetN s

/-- Power-on reset ends; COX_OSC has been measured, and a rising edge that waited takes effect (R651, R659). -/
def powerOnEnd (straps : Nat) (osc : Bool) (s : State) : State :=
  match s.sec.held with
  | .powerOn edge =>
    if s.power.thermtrip ∨ !railsGood s (List.range 8) then s
    else
      let s := coxMod (fun (c : Cox) => { c with osc := osc }) s
      if edge then sampleStraps straps (setHeld .no s) else setHeld .resetN s
  | _ => s

/-- The monitors whose UV_FAULT is a brownout (R622). -/
def brownoutRails : List Nat := [1, 4, 5, 6, 7]

/-- UV_FAULT of VDD_AON is a power-on reset, which ends THERMTRIP_N; of a core rail, a brownout (R622, R664). -/
def brownoutOp (s : State) : State :=
  if railFault s [0] then
    let s := resetAll 0 true (.powerOn false) s
    powerMod (fun (p : Power) => { p with thermtrip := false }) s
  else if railFault s brownoutRails then
    match s.sec.held with
    | .powerOn _ => s
    | .brownout _ => s
    | .resetN => resetAll 3 false (.brownout true) s
    | .no => resetAll 3 false (.brownout false) s
  else s

/-- The brownout reset ends. -/
def brownoutEnd (s : State) : State :=
  match s.sec.held with
  | .brownout low => if railsGood s brownoutRails then setHeld (if low then .resetN else .no) s else s
  | _ => s

/-- A sensor reads 135 °C or more: the device is reset until its power has been removed (R664). -/
def thermtripOp (s : State) : State :=
  let hot := (List.range 16).any fun k =>
    bit (regGet s uPOWER 0 (0x500 + 4 * k)).toNat 31 && decide (2160 ≤ toS 13 (regF s uPOWER 0 (0x500 + 4 * k) 12 0))
  if hot then
    let s := resetAll 0 false (.powerOn false) s
    powerMod (fun (p : Power) => { p with thermtrip := true }) s
  else s

/-- DEVICE_RESET: the reply, then the reset. -/
def deviceResetOp (r : Request) (s : State) : State :=
  let chk := firstFail [targetCheck s r uSYS 0, need (r.params.length == 4) stBAD_LENGTH,
    need (fld r.params 0 4 == 0x52535444) stBAD_PARAM]
  let chk := headed r chk
  if chk = 0 ∧ !dryRun r then resetAll 2 false .no (reply 0x0146 r stDONE [] s)
  else runCmd 0x0146 r chk (fun s => (stDONE, [], s)) s

/-! ### Phases -/

/-- The device is in a phase of boot and not held in reset. -/
def inPhase (s : State) (st : Nat) : Bool := s.sec.held == .no && bootState s == st

/-- BOOT_MODE as sampled. -/
def strapOf (s : State) : Nat := regF s uSEC 0 0x000 31 29

/-- The lane of a boot transfer returns to electrical idle (R80). -/
def transferOver (s : State) : State :=
  if s.sec.trained.isSome then laneDrop 0 (linkPut 0 {} (secMod (fun (x : Sec) => { x with trained := none }) s)) else s

/-- A function that is not STOPPED ends as every output goes off. -/
def fnHalt (id : Nat) (s : State) : State :=
  match objFind s id with
  | some o =>
    if o.st = some .starting then fnAborted id stHW_FAULT s
    else if o.st = some .running ∨ o.st = some .stopping then
      (if idFamily id = 0x0A then linkStopped (idIndex id) s else reachStopped id (fnAbandon id s))
    else s
  | none => s

/-- Every output off (R99): no function runs, no port or link is up, the fabric is unconfigured, the headset ports are
muted. -/
def outputsDown (s : State) : State :=
  let s := (s.objs.map (·.1)).foldl (fun s id => if isFn id then fnHalt id s else s) s
  let s := (List.range 48).foldl (fun s n => ethDown n 1 s) s
  [0, 1].foldl (fun s p => regPutF uHSP p 0x004 1 0 3 s) (fabricOff s)

/-- The running set emptied after a failed or absent configuration; settings are unset (R102, R667). -/
def emptyRunning (s : State) : State :=
  let old := s.objs.filter fun e => !isFn e.1
  old.foldl (fun s e => settingApplied e.1 e.2.body s) (setCommitted 0 { s with objs := [] })

/-- WAIT_HOST entered (R99). -/
def enterWait (s : State) : State := outputsDown (setBoot 8 s)

/-- CONFIG_INVALID entered: every output off, and with a failed or absent configuration an empty running set (R99, R102,
R104). -/
def enterInvalid (reason slot : Nat) (s : State) : State :=
  let s := outputsDown (transferOver s)
  let s := if 7 ≤ reason ∧ reason ≤ 0x0A then emptyRunning s else s
  raise 0x0203 uSEC 0 2 [BitVec.ofNat 8 reason, BitVec.ofNat 8 slot] (regPutF uSEC 0 0x000 15 8 reason (setBoot 9 s))

/-- ROM: fuses and straps are read and PCI Express trains (R77, R81). -/
def romOp (up : Bool) (gen width : Nat) (s : State) : State :=
  if !inPhase s 0 then s
  else
    let v := strapOf s
    let s := setBoot 1 (pcieLink up gen width false s)
    if 5 ≤ v then raise 0x0201 uSEC 0 1 [BitVec.ofNat 8 v] s else s

/-- The capacity of a channel as fitted, in GiB; 0 for a population that is not supported (R451). -/
def channelGib (c : ChannelTraining) : Nat :=
  if c.die = 1 then 16 * c.ranks.val else if c.die = 2 ∧ c.ranks = 1 then 32 else 0

/-- A channel trained. -/
def channelUp (c : ChannelTraining) : Bool := c.rate != 0 && channelGib c != 0

/-- The largest power of two that is at most `n` channels. -/
def powerOfTwo (n : Nat) : Nat := if 8 ≤ n then 8 else if 4 ≤ n then 4 else if 2 ≤ n then 2 else n

/-- MEM_INIT (R452 to R455). -/
def memInitOp (cs : List ChannelTraining) (s : State) : State :=
  if !inPhase s 1 then s
  else
    let ch := fun n => cs.getD n {}
    let up := (List.range 8).filter fun n => channelUp (ch n)
    let used := up.take (powerOfTwo up.length)
    let gib := (used.map fun n => channelGib (ch n)).foldl min 32
    let s := (List.range 8).foldl (fun s n =>
      let c := ch n
      let on := used.contains n
      regPut uMEM n 0x000 (BitVec.ofNat 32 (b2n on * 2 ^ 31 + b2n (channelUp c) * 2 ^ 30 +
        (if channelUp c then c.rate.val else 0) * 2 ^ 28 + (if on then gib else 0) * 2 ^ 16 + c.ranks.val * 2 ^ 8 + c.die.val)) s) s
    let s := (up.drop used.length).foldl (fun s n =>
      raise 0x0804 uMEM n 1 [BitVec.ofNat 8 (ch n).rate.val, BitVec.ofNat 8 (channelGib (ch n))] s) s
    if used = [] then enterInvalid 0x0B 0xFF s
    else setBoot 2 { s with memChans := used, memGib := gib, keys := [], tags := [] }

/-- The stores that hold firmware, in the order of the straps (R77). -/
def fwStores (strap : Nat) : List Store :=
  if strap = 0 then [.nv, .spi] else if strap = 1 then [.spi, .nv] else if strap = 3 then [.nv] else []

/-- The reason of FW_LOAD for a verdict (R102). -/
def fwReason : Verdict → Nat
  | .rollback => 3
  | .wrongPart => 4
  | _ => 2

/-- A firmware image from a source and slot verified and loaded, or CONFIG_INVALID (R93). -/
def fwTake (source slot : Nat) (img : Bytes) (s : State) : State :=
  let (v, s) := verifyImage 1 img s
  if v ≠ .valid then enterInvalid (fwReason v) slot s
  else match loadFirmware img s with
  | (false, s) => enterInvalid 2 slot s
  | (true, s) =>
    booted 1 img (regPutF uSEC 0 0x000 2 2 (if slot = 0xFF then 0 else slot) (regPutF uSEC 0 0x000 19 16 source (setBoot 3 s)))

/-- The first of some stores that holds a committed firmware image. -/
def fwSearch : List Store → State → State
  | [], s => enterInvalid 1 0xFF s
  | w :: r, s =>
    let s := uncommitted w 1 (slotReads w 1 s)
    match newestSlot s w 1 with
    | some (n, _, img) => fwTake (storeNo w + 1) n img s
    | none => fwSearch r s

/-- FW_LOAD (R77, R80, R83, R93). -/
def fwLoadOp (s : State) : State :=
  if !inPhase s 2 then s
  else
    let v := strapOf s
    if v = 4 then
      (if s.sec.rxDone then
         match s.sec.rx with
         | some (_, img) => fwTake 4 0xFF img s
         | none => enterWait s
       else if s.sec.trained.isSome then s
       else enterWait s)
    else if fwStores v = [] then enterWait s
    else fwSearch (fwStores v) s

/-- PIN_TABLE (R83, R584). -/
def pinTableOp (s : State) : State :=
  if !inPhase s 3 then s
  else
    let s := uncommitted .nv 4 s
    match newestSlot s .nv 4 with
    | none => setBoot 4 s
    | some (n, _, img) =>
      let (v, s) := verifyImage 4 img s
      if v = .valid ∧ pinTableOk (imgPayload img) then
        booted 4 img (regPutF uSEC 0 0x000 0 0 n (setBoot 4 (takeTable (imgPayload img) s)))
      else enterInvalid 5 n s

/-- FABRIC_LOAD (R83, R582, R586, R588). -/
def fabricLoadOp (s : State) : State :=
  if !inPhase s 4 then s
  else if !hasLogicArray s.part then setBoot 5 s
  else
    let s := uncommitted .nv 3 s
    match newestSlot s .nv 3 with
    | none => setBoot 5 s
    | some (n, _, img) =>
      let (v, s) := verifyImage 3 img s
      let p := imgPayload img
      if v = .valid ∧ bitstreamOk p ∧ tapsOk ((mapBlocks p).map fun b => (b, frameOf p b)) then
        booted 3 img (regPutF uSEC 0 0x000 1 1 n (setBoot 5 (releaseBoot p s)))
      else enterInvalid 6 n s

/-- CFG_LOAD (R83, R93, R103). -/
def cfgLoadOp (s : State) : State :=
  if !inPhase s 5 then s
  else
    let s := uncommitted .nv 2 s
    match newestSlot s .nv 2 with
    | none => enterInvalid 7 0xFF s
    | some (n, _, img) =>
      let (v, s) := verifyImage 2 img s
      if v = .rollback then enterInvalid 9 n s
      else if v ≠ .valid then enterInvalid 8 n s
      else match configRecords s (imgPayload img) with
      | none => enterInvalid 0x0A n s
      | some rs =>
        booted 2 img (regPutF uSEC 0 0x000 3 3 n (setBoot 6 (rs.foldl (fun s x => setObject x.1 x.2.1 x.2.2 s) s)))

/-- AUTOSTART: crew cores are released, functions start, and boot is complete (R74, R75, R82, R260). -/
def autostartOp (s : State) : State :=
  if !inPhase s 6 then s
  else
    let s := (List.range 96).foldl (fun s c => if crewUsable s (c / 8) then startCore c s else s) s
    let s := setBoot 7 (releaseToReg (autoStartAll s))
    let st := (regGet s uSEC 0 0x000).toNat
    raise 0x0204 uSEC 0 0 [BitVec.ofNat 8 (bits st 19 16), BitVec.ofNat 8 (bits st 3 0)] s

/-- The deferred functions start (R75). -/
def deferredOp (s : State) : State := if inPhase s 7 then deferredStart s else s

/-- BOOT_CONTINUE (R102). -/
def bootContinueOp (r : Request) (s : State) : State :=
  let why := bootReason s
  let st := if bootState s ≠ 9 then 0x0801 else if why = 0x0B then stHW_FAULT else if why ≤ 4 then stCONFIG_INVALID else 0
  runCmd 0x0842 r (firstFail [targetCheck s r uSEC 0, need (r.params.length == 0) stBAD_LENGTH, st])
    (fun s => (stDONE, [], regPutF uSEC 0 0x000 15 8 0 (setBoot (if why = 5 then 4 else if why = 6 then 5 else 6) s))) s

/-! ### Boot transfer (R80, R576) -/

/-- LANE_0 has trained as Bupex link 0 of a target strapped 0b100. -/
def bootReadyOp (s : State) : State :=
  if inPhase s 2 && strapOf s == 4 && s.sec.trained.isNone && !s.sec.rxDone then
    emit (bootOut 0 "boot-ready" 0 0xFFFF []) (laneTake 2 0 4 false 0 (secMod (fun (x : Sec) => { x with trained := some s.now }) s))
  else s

/-- No image has begun within 2 s of training: host push. -/
def bootTimeoutOp (s : State) : State :=
  match s.sec.trained with
  | some t => if inPhase s 2 && s.sec.rx.isNone && t + 2 * second ≤ s.now then enterWait (transferOver s) else s
  | none => s

/-- A frame of a boot transfer in order: the image's first bytes with its length, more of them, its end. -/
def bootBody (b : BupexBody) (s : State) : State :=
  match b, s.sec.rx with
  | .bootFirst n d, none =>
    if n.toNat ≤ 0x2000000 ∧ d.length ≤ n.toNat then
      secMod (fun (x : Sec) => { x with rx := some (n.toNat, d) }) s else s
  | .bootNext d, some (n, bs) =>
    if bs.length + d.length ≤ n then secMod (fun (x : Sec) => { x with rx := some (n, bs ++ d) }) s else s
  | .bootEnd, some _ => transferOver (secMod (fun (x : Sec) => { x with rxDone := true }) s)
  | _, _ => s

/-- A frame arrives on LANE_0 during a boot transfer, under the replay of R557. -/
def bootFrame (f : BupexFrame) (s : State) : State :=
  let x := linkRun s 0
  if !f.crc then emit (bootOut 0 "replay-request" 0 x.lack []) s
  else if f.lseq.toNat = (x.lack + 1) % 65536 then
    bootBody f.body (emit (bootOut 0 "ack" 0 f.lseq.toNat []) (linkMod 0 (fun x => { x with lack := f.lseq.toNat }) s))
  else s

/-- A Bupex frame arrives on a link. -/
def frameOp (l : Nat) (f : BupexFrame) (s : State) : State :=
  if l = 0 ∧ s.sec.trained.isSome then bootFrame f s else bupexFrame l f s

/-! ### Long commands that finish, and CANCEL (R50, R55) -/

/-- What an ended long command leaves undone. -/
def cutShort (l : Long) (s : State) : State :=
  if l.opcode = 0x0144 then exportCut l s
  else if l.opcode = 0x0145 ∨ l.opcode = 0x0841 then installCancelled l s
  else if l.opcode = 0x0641 then nvCut l s
  else if l.opcode = 0x0843 then rollbackCut l s
  else if l.opcode = 0x0540 then coxMod (fun (c : Cox) => { c with nextPps := none }) s
  else if l.opcode = 0x0740 then (powerCancel l s).2
  else if l.opcode = 0x0A42 then laneDrop (fld l.params 0 1) s
  else if l.opcode = 0x0B60 then
    { s with weft := { s.weft with
        drains := s.weft.drains.filter fun d => !(fld l.params 0 1 == d.router && fld l.params 8 8 == d.start) } }
  else s

/-- The work of a long command done. -/
def workDone (l : Long) (s : State) : State :=
  if l.opcode = 0x0144 then exportDone l s
  else if l.opcode = 0x0145 ∨ l.opcode = 0x0841 then installDone l s
  else if l.opcode = 0x0640 ∨ l.opcode = 0x0641 then nvDone l s
  else if l.opcode = 0x0840 then pushDone l s
  else if l.opcode = 0x0843 then rollbackDone l s
  else if l.opcode = 0x0846 then attestDone l s
  else if l.opcode = 0x0847 then ownerSetDone l s
  else if l.opcode = 0x0848 then ownerRevokeDone l s
  else if l.opcode = 0x0B50 then queueReclaimed l s
  else s

/-- A long command whose completion another event brings: an edge, a crew's evacuation, a drain window. -/
def ownEvent (op : Nat) : Bool := op == 0x0540 || op == 0x0B41 || op == 0x0B60

/-- A START or STOP finishes: a START that has failed, a task set's start, a link's or a region's stop; the other
functions have events of their own. -/
def functionDone (l : Long) (id : Nat) (ok : Bool) (s : State) : State :=
  if l.opcode % 256 = 3 then
    (if !ok then fnAborted id stHW_FAULT s else if idFamily id = 0x0B then taskSetRun id s else s)
  else if idFamily id = 0x0A then linkStopped (idIndex id) s
  else if idFamily id = 6 then regionStopped (idIndex id) s
  else s

/-- A long command finishes; `ok` is that no unit failed, and for a boot transfer that BOOT_READY came. -/
def longDone (t : Transport) (q : BitVec 16) (ok : Bool) (s : State) : State :=
  match s.cmd.longs.find? fun l => l.transport == t && l.sequence == q with
  | none => s
  | some l =>
    match l.obj with
    | some id => functionDone l id ok s
    | none =>
      if l.opcode = 0x0740 then powerComplete s
      else if l.opcode = 0x0A42 then bootSent l ok s
      else if ownEvent l.opcode then s
      else if ok then workDone l s
      else completeLong l stHW_FAULT [] (cutShort l s)

/-- CANCEL (R55): its reply, then the completion of the command it ends. -/
def cancelOp (r : Request) (s : State) : State :=
  let chk := firstFail [queryCheck s r, match queried s r.params with
    | none => stBAD_PARAM
    | some l => need (l.cancellable && (l.opcode != 0x0740 || (powerCancel l s).1)) stBUSY]
  let chk := headed r chk
  match queried s r.params with
  | some l =>
    if chk = 0 ∧ !dryRun r then completeLong l stCANCELLED [] (cutShort l (reply 0x0143 r stDONE [] s))
    else runCmd 0x0143 r chk (fun s => (stDONE, [], s)) s
  | none => runCmd 0x0143 r chk (fun s => (stDONE, [], s)) s

end Sys2Proof.Machine
end

