-- ==== Sys2Proof/Machine/BootRows.lean ====
section
/-!
DEFINITION. The resets, the phases of boot, the mailbox, the transports and the commands of the system and security families
(02_commands.md, 03_boot_identity.md).
-/
namespace Sys2Proof.Machine
open Sys2Proof

/-- A device that is not held in reset receives what arrives at its command interface. -/
def unheld (f : State → State) (s : State) : State := if s.sec.held = .no then f s else s

/-- RESET_N_RISE: the rising edge of RESET_N samples the straps (R76). -/
def execResetNRise (straps : Fin 8) (s : State) : Res :=
  done (resetRise straps s)

/-- POWER_ON_RESET_END: power-on reset ends: the straps at that moment, and whether a usable COX_OSC was measured (R651, R659). -/
def execPowerOnResetEnd (straps : Fin 8) (osc : Bool) (s : State) : Res :=
  done (powerOnEnd straps osc s)

/-- DEVICE_RESET: resets the device after its reply (R56). -/
def execDeviceReset (r : Request) (s : State) : Res :=
  done (deviceResetOp r s)

/-- ROM: fuses and straps are read and PCI Express trains, with the generation and width it reaches (R81). -/
def execRomPhase (up : Bool) (gen : Fin 8) (width : Fin 32) (s : State) : Res :=
  done (romOp up gen width s)

/-- MEM_INIT: memory initialisation, with what each channel trains to (R452). -/
def execMemInit (channels : List ChannelTraining) (s : State) : Res :=
  done (memInitOp channels s)

/-- FW_LOAD: selects a source and slot, copies the firmware and verifies it (R93). -/
def execFwLoad (s : State) : Res :=
  done (fwLoadOp s)

/-- PIN_TABLE: verifies the pin-default table and drives its safe levels (R584). -/
def execPinTable (s : State) : Res :=
  done (pinTableOp s)

/-- FABRIC_LOAD: verifies the bitstream, counts its taps, configures the array and releases it (R582). -/
def execFabricLoad (s : State) : Res :=
  done (fabricLoadOp s)

/-- CFG_LOAD: verifies the configuration image, checks it and creates its objects (R103). -/
def execCfgLoad (s : State) : Res :=
  done (cfgLoadOp s)

/-- AUTOSTART: releases the crew cores and starts the AUTOSTART functions (R74). -/
def execAutostart (s : State) : Res :=
  done (autostartOp s)

/-- DEFERRED_AUTOSTART: starts the deferred functions once the time state has left UNSET (R75). -/
def execDeferredAutostart (s : State) : Res :=
  done (deferredOp s)

/-- CMD_DOORBELL: a write of SYS_CMD_DOORBELL with LENGTH (R36, R37). -/
def execCmdDoorbell (length : BitVec 11) (s : State) : Res :=
  done (unheld (doorbellOp length.toNat) s)

/-- MGMT_DATAGRAM: a UDP datagram on the management port, from a source address and port (R34). -/
def execMgmtDatagram (source : Nat) (data : List (BitVec 8)) (s : State) : Res :=
  done (unheld (datagramOp source data) s)

/-- UART_FRAME: a frame on the UART console, without its closing 0x00; the console serves from the end of the ROM phase (R34). -/
def execUartFrame (data : List (BitVec 8)) (s : State) : Res :=
  done (unheld (fun s => if bootState s = 0 then s else uartOp data s) s)

/-- SYS_CMD_RPL_POP: a read of SYS_CMD_RPL_POP (R46 to R48). -/
def execSysCmdRplPop (s : State) : Res :=
  done (unheld rplPopOp s)

/-- FLUSH_PCIE: discards the transport's queued requests and waiting replies (R38). -/
def execFlushPcie (s : State) : Res :=
  done (flushOp .pcie s)

/-- FLUSH_ETH: discards the transport's queued requests and waiting replies (R38). -/
def execFlushEth (s : State) : Res :=
  done (flushOp .eth s)

/-- FLUSH_UART: discards the transport's queued requests and waiting replies (R38). -/
def execFlushUart (s : State) : Res :=
  done (flushOp .uart s)

/-- LONG_COMMAND_COMPLETION: a long command finishes; `ok` is that no unit failed, and for a boot transfer that BOOT_READY came (R50). -/
def execLongCommandCompletion (transport : Transport) (sequence : BitVec 16) (ok : Bool) (s : State) : Res :=
  done (longDone transport sequence ok s)

/-- OBJ_SET: creates or replaces an object as a whole (R61). -/
def execObjSet (family : BitVec 8) (r : Request) (s : State) : Res :=
  done (generic family.toNat 1 r (objSetOp family.toNat r) s)

/-- OBJ_GET: reads an object (R59, R666). -/
def execObjGet (family : BitVec 8) (r : Request) (s : State) : Res :=
  done (generic family.toNat 2 r (objGetOp family.toNat r) s)

/-- START: starts a function (R62). -/
def execStartFn (family : BitVec 8) (r : Request) (s : State) : Res :=
  done (generic family.toNat 3 r (startOp family.toNat r) s)

/-- STOP: stops a function (R65). -/
def execStopFn (family : BitVec 8) (r : Request) (s : State) : Res :=
  done (generic family.toNat 4 r (stopOp family.toNat r) s)

/-- OBJ_DELETE: removes an object (R60, R667). -/
def execObjDelete (family : BitVec 8) (r : Request) (s : State) : Res :=
  done (generic family.toNat 5 r (objDeleteOp family.toNat r) s)

/-- OBJ_STATE: reads a function's state and cost. -/
def execObjState (family : BitVec 8) (r : Request) (s : State) : Res :=
  done (generic family.toNat 6 r (objStateOp family.toNat r) s)

/-- OBJ_LIST: lists the objects of a type. -/
def execObjList (family : BitVec 8) (r : Request) (s : State) : Res :=
  done (generic family.toNat 7 r (objListOp family.toNat r) s)

/-- CAPS: the capability and budget registers (R22). -/
def execCapsCmd (r : Request) (s : State) : Res :=
  done (capsOp r s)

/-- ECHO: returns its parameters. -/
def execEchoCmd (r : Request) (s : State) : Res :=
  done (echoOp r s)

/-- CMD_QUERY: whether a sequence has a long command outstanding (R54). -/
def execCmdQuery (r : Request) (s : State) : Res :=
  done (cmdQueryOp r s)

/-- CANCEL: ends a cancellable long command (R55). -/
def execCancelCmd (r : Request) (s : State) : Res :=
  done (cancelOp r s)

/-- CONFIG_EXPORT: writes the persistent running set to a buffer (R71). -/
def execConfigExport (r : Request) (s : State) : Res :=
  done (configExportOp r s)

/-- CONFIG_INSTALL: installs a configuration image (R72). -/
def execConfigInstall (r : Request) (s : State) : Res :=
  done (configInstallOp r s)

/-- IMAGE_PUSH: pushed firmware resumes boot (R101). -/
def execImagePush (r : Request) (s : State) : Res :=
  done (imagePushOp r s)

/-- IMAGE_INSTALL: installs an image (R92). -/
def execImageInstall (r : Request) (s : State) : Res :=
  done (imageInstallOp r s)

/-- BOOT_CONTINUE: resumes boot after a failed phase (R102). -/
def execBootContinue (r : Request) (s : State) : Res :=
  done (bootContinueOp r s)

/-- ROLLBACK_ADVANCE: blows rollback fuse bits (R97). -/
def execRollbackAdvance (r : Request) (s : State) : Res :=
  done (rollbackOp r s)

/-- IDENTITY_GET: the device serial and public keys (R110). -/
def execIdentityGet (r : Request) (s : State) : Res :=
  done (identityOp r s)

/-- CERT_GET: a certificate (R110). -/
def execCertGet (r : Request) (s : State) : Res :=
  done (certOp r s)

/-- ATTEST: a signed report (R109). -/
def execAttest (r : Request) (s : State) : Res :=
  done (attestOp r s)

/-- OWNER_KEYS_SET: programs an owner key slot (R107). -/
def execOwnerKeysSet (r : Request) (s : State) : Res :=
  done (ownerSetOp r s)

/-- OWNER_KEY_REVOKE: revokes an owner key slot (R108). -/
def execOwnerKeyRevoke (r : Request) (s : State) : Res :=
  done (ownerRevokeOp r s)

/-- BUPEX_FRAME: a frame arrives on a link (R557). -/
def execBupexFrame (l : Fin 6) (f : BupexFrame) (s : State) : Res :=
  done (frameOp l f s)

/-- BOOT_READY: LANE_0 of a target strapped 0b100 has trained (R576). -/
def execBootReady (s : State) : Res :=
  done (bootReadyOp s)

/-- BROWNOUT: UV_FAULT on a core rail or on VDD_AON resets the device (R622). -/
def execBrownout (s : State) : Res :=
  done (brownoutOp s)

/-- THERMTRIP: a sensor at 135 °C resets the device and drives THERMTRIP_N low (R664). -/
def execThermtrip (s : State) : Res :=
  done (thermtripOp s)

/-- RESET_N_ASSERT: RESET_N driven low resets the device (R56). -/
def execResetNAssert (s : State) : Res :=
  done (resetFall s)

/-- BROWNOUT_RESET_END: the brownout reset ends (R622). -/
def execBrownoutResetEnd (s : State) : Res :=
  done (brownoutEnd s)

/-- BOOT_TRANSFER_TIMEOUT: no image has begun within 2 s of training (R576). -/
def execBootTransferTimeout (s : State) : Res :=
  done (bootTimeoutOp s)

end Sys2Proof.Machine
end

