-- ==== Sys2Proof/Machine/ChirpRows.lean ====
section
/-!
DEFINITION. The commands of the CSS unit (09_chirp_radio.md).
-/
namespace Sys2Proof.Machine
open Sys2Proof

/-- BAND_SAMPLE_MESSAGE: samples of a band arrive, the last of them taken at the antenna at `last` (R321, R335). -/
def execBandSampleMessage (port : Fin 48) (eaxc : BitVec 16) (last : BitVec 64) (s : State) : Res :=
  done (bandMessage port eaxc.toNat last.toNat s)

/-- BAND_GAP: a sample message of a group is missing 2 ms after its last sample time (R335). -/
def execBandGap (g : Fin 256) (s : State) : Res :=
  done (bandGap g s)

/-- CHIRP_GROUP_STOPPED: a stopping group reaches STOPPED (R65, R322). -/
def execChirpGroupStopped (g : Fin 256) (s : State) : Res :=
  done (chirpStopped g s)

/-- DETECTION: a searcher of a channel has found consecutive up-chirps of an order, the newest of them just ended: the up-chirps before it, oldest first, the newest, the header checks that fall in the same symbol, the frame strengths of the demodulators and what a captured one has received (R327, R328, R330, R331). -/
def execDetection (ch : Fin 256) (so : Fin 12) (chirps : List UpChirp) (newest : UpChirp) (checks : List (Fin 8 × SyncSeen × List (BitVec 11))) (frames : List (BitVec 16)) (part : RxData) (s : State) : Res :=
  done (detection ch so (chirps ++ [newest]) (checks.map fun k => (k.1.val, k.2.1, k.2.2)) frames part s)

/-- HEADER_CHECK: the last header symbol of a reception has ended: what followed the detection, and the header symbols (R329, R330, R338). -/
def execHeaderCheck (ch : Fin 256) (d : Fin 8) (pre : SyncSeen) (symbols : List (BitVec 11)) (s : State) : Res :=
  done (headerCheck ch d pre symbols s)

/-- RECEPTION_END: the last payload symbol of a confirmed reception has ended (R332, R337 to R339). -/
def execReceptionEnd (ch : Fin 256) (d : Fin 8) (data : RxData) (s : State) : Res :=
  done (receptionEnd ch d data s)

/-- NOISE_FLOOR_PERIOD: a quiet symbol period with its mean power (R336). -/
def execNoiseFloorPeriod (ch : Fin 256) (power : BitVec 32) (s : State) : Res :=
  done (noisePeriod ch power.toNat s)

/-- TX_DEQUEUE: the head of TX_Q is dequeued when its time has come (R340, R341). -/
def execTxDequeue (g : Fin 256) (s : State) : Res :=
  done (txDequeue g s)

/-- TX_FRAME_LAUNCH: a booked frame leaves the port; `parts` is what blanked receptions have received, by channel and demodulator (R334, R342). -/
def execTxFrameLaunch (m : Fin 64) (parts : List (Fin 256 × Fin 8 × RxData)) (s : State) : Res :=
  done (txLaunch m (parts.map fun p => (p.1.val, p.2.1.val, p.2.2)) s)

/-- TX_FRAME_END: a launched frame ends (R341). -/
def execTxFrameEnd (m : Fin 64) (s : State) : Res :=
  done (txEnd m s)

/-- TAG_SET: registers a tag (R343). -/
def execTagSet (r : Request) (s : State) : Res :=
  done (tagSetOp r s)

/-- TAG_REMOVE: clears a registry entry (R343). -/
def execTagRemove (r : Request) (s : State) : Res :=
  done (tagRemoveOp r s)

/-- TAG_GET: returns a registry entry (R343). -/
def execTagGet (r : Request) (s : State) : Res :=
  done (tagGetOp r s)

/-- CHIRP_STATS: a channel's counters (R343). -/
def execChirpStats (r : Request) (s : State) : Res :=
  done (chirpStatsOp r s)

/-- CSS_CNT_CLEAR: CLEAR of CSS_CNT_CTRL of a channel (R344). -/
def execCssCntClear (ch : Fin 256) (s : State) : Res :=
  done (cssClear ch s)

end Sys2Proof.Machine
end

