-- ==== Sys2Proof/Machine/CpuAlu.lean ====
section
/-!
DEFINITION. The scalar integer, control-transfer and multiply-accumulate instructions of a crew core (06_crew_cores.md,
Scalar instructions; R212 to R224).
-/
namespace Sys2Proof.Machine
open Sys2Proof

/-- An integer instruction on two registers. -/
def alu2 (c : Fin 96) (rd rs1 rs2 : Fin 32) (f : Word → Word → Word) (s : State) : Res :=
  onCore c (fun x s => writeS c rd (f (getS x rs1) (getS x rs2)) s) s

/-- An integer instruction on one register. -/
def alu1 (c : Fin 96) (rd rs1 : Fin 32) (f : Word → Word) (s : State) : Res :=
  onCore c (fun x s => writeS c rd (f (getS x rs1)) s) s

/-- A conditional branch. -/
def branch (c : Fin 96) (rs1 rs2 : Fin 32) (imm : BitVec 16) (p : Word → Word → Bool) (s : State) : Res :=
  onCore c (fun x s =>
    branchTo c (p (getS x rs1) (getS x rs2)) (branchTarget x imm) s) s

/-- A search with index: the pair takes rs1 and rs2 when the comparison with rd holds (R223, R224). -/
def search (c : Fin 96) (rd rs1 rs2 : Fin 32) (p : Word → Word → Bool) (s : State) : Res :=
  onCore c (fun x s =>
    if !pairOk rd then exception c exILLEGAL 0 s
    else if p (getS x rs1) (getS x rd) then
      corePut c (retire (setS (setS x rd (getS x rs1)) (pairOf rd) (getS x rs2))) s
    else corePut c (retire x) s) s

/-- A truth value as a register's 0 or 1. -/
def w01 (b : Bool) : Word := if b then 1 else 0

/-- Signed division, rounded toward zero, with the results of R216. -/
def divS (a b : Word) : Word := if b = 0 then BitVec.allOnes 64 else a.sdiv b

/-- Unsigned division with the results of R216. -/
def divU (a b : Word) : Word := if b = 0 then BitVec.allOnes 64 else a.udiv b

/-- The signed remainder, with the sign of rs1 and the results of R216. -/
def remS (a b : Word) : Word := if b = 0 then a else a.srem b

/-- The unsigned remainder with the results of R216. -/
def remU (a b : Word) : Word := if b = 0 then a else a.umod b

/-- Leading zeros of a 64-bit word, 0 to 64. -/
def clz64 (a : Word) : Nat := ((List.range 64).find? fun k => a.getLsbD (63 - k)).getD 64

/-- Set bits of a 64-bit word. -/
def popc64 (a : Word) : Nat := ((List.range 64).filter fun k => a.getLsbD k).length

/-- ADD: rd := rs1 + rs2 (R212). -/
def execAdd (c : Fin 96) (rd : Fin 32) (rs1 : Fin 32) (rs2 : Fin 32) (s : State) : Res :=
  alu2 c rd rs1 rs2 (· + ·) s

/-- SUB: rd := rs1 − rs2 (R212). -/
def execSub (c : Fin 96) (rd : Fin 32) (rs1 : Fin 32) (rs2 : Fin 32) (s : State) : Res :=
  alu2 c rd rs1 rs2 (· - ·) s

/-- AND: bitwise (R212). -/
def execAndOp (c : Fin 96) (rd : Fin 32) (rs1 : Fin 32) (rs2 : Fin 32) (s : State) : Res :=
  alu2 c rd rs1 rs2 (· &&& ·) s

/-- OR: bitwise (R212). -/
def execOrOp (c : Fin 96) (rd : Fin 32) (rs1 : Fin 32) (rs2 : Fin 32) (s : State) : Res :=
  alu2 c rd rs1 rs2 (· ||| ·) s

/-- XOR: bitwise (R212). -/
def execXorOp (c : Fin 96) (rd : Fin 32) (rs1 : Fin 32) (rs2 : Fin 32) (s : State) : Res :=
  alu2 c rd rs1 rs2 (· ^^^ ·) s

/-- SLL: rs1 shifted left by rs2[5:0]. -/
def execSll (c : Fin 96) (rd : Fin 32) (rs1 : Fin 32) (rs2 : Fin 32) (s : State) : Res :=
  alu2 c rd rs1 rs2 (fun a b => a <<< (b.toNat % 64)) s

/-- SRL: rs1 shifted right by rs2[5:0], zeros entering. -/
def execSrl (c : Fin 96) (rd : Fin 32) (rs1 : Fin 32) (rs2 : Fin 32) (s : State) : Res :=
  alu2 c rd rs1 rs2 (fun a b => a >>> (b.toNat % 64)) s

/-- SRA: rs1 shifted right by rs2[5:0], the sign entering. -/
def execSra (c : Fin 96) (rd : Fin 32) (rs1 : Fin 32) (rs2 : Fin 32) (s : State) : Res :=
  alu2 c rd rs1 rs2 (fun a b => a.sshiftRight (b.toNat % 64)) s

/-- SLT: 1 if rs1 < rs2 signed. -/
def execSlt (c : Fin 96) (rd : Fin 32) (rs1 : Fin 32) (rs2 : Fin 32) (s : State) : Res :=
  alu2 c rd rs1 rs2 (fun a b => w01 (a.slt b)) s

/-- SLTU: 1 if rs1 < rs2 unsigned. -/
def execSltu (c : Fin 96) (rd : Fin 32) (rs1 : Fin 32) (rs2 : Fin 32) (s : State) : Res :=
  alu2 c rd rs1 rs2 (fun a b => w01 (a.ult b)) s

/-- MUL: the low 64 bits of rs1 × rs2. -/
def execMul (c : Fin 96) (rd : Fin 32) (rs1 : Fin 32) (rs2 : Fin 32) (s : State) : Res :=
  alu2 c rd rs1 rs2 (· * ·) s

/-- MULH: the high 64 bits of the signed 128-bit product. -/
def execMulh (c : Fin 96) (rd : Fin 32) (rs1 : Fin 32) (rs2 : Fin 32) (s : State) : Res :=
  alu2 c rd rs1 rs2 (fun a b => ((a.signExtend 128 * b.signExtend 128) >>> 64).setWidth 64) s

/-- MULHU: the high 64 bits of the unsigned 128-bit product. -/
def execMulhu (c : Fin 96) (rd : Fin 32) (rs1 : Fin 32) (rs2 : Fin 32) (s : State) : Res :=
  alu2 c rd rs1 rs2 (fun a b => ((a.setWidth 128 * b.setWidth 128) >>> 64).setWidth 64) s

/-- DIV: signed, rounded toward zero (R216). -/
def execDiv (c : Fin 96) (rd : Fin 32) (rs1 : Fin 32) (rs2 : Fin 32) (s : State) : Res :=
  alu2 c rd rs1 rs2 divS s

/-- DIVU: unsigned (R216). -/
def execDivu (c : Fin 96) (rd : Fin 32) (rs1 : Fin 32) (rs2 : Fin 32) (s : State) : Res :=
  alu2 c rd rs1 rs2 divU s

/-- REM: the remainder with the sign of rs1 (R216). -/
def execRem (c : Fin 96) (rd : Fin 32) (rs1 : Fin 32) (rs2 : Fin 32) (s : State) : Res :=
  alu2 c rd rs1 rs2 remS s

/-- REMU: the unsigned remainder (R216). -/
def execRemu (c : Fin 96) (rd : Fin 32) (rs1 : Fin 32) (rs2 : Fin 32) (s : State) : Res :=
  alu2 c rd rs1 rs2 remU s

/-- CLZ: leading zeros of rs1, 0 to 64. -/
def execClz (c : Fin 96) (rd : Fin 32) (rs1 : Fin 32) (s : State) : Res :=
  alu1 c rd rs1 (fun a => BitVec.ofNat 64 (clz64 a)) s

/-- POPC: set bits of rs1. -/
def execPopc (c : Fin 96) (rd : Fin 32) (rs1 : Fin 32) (s : State) : Res :=
  alu1 c rd rs1 (fun a => BitVec.ofNat 64 (popc64 a)) s

/-- ADDI: rd := rs1 + sext(imm16). -/
def execAddi (c : Fin 96) (rd : Fin 32) (rs1 : Fin 32) (imm : BitVec 16) (s : State) : Res :=
  alu1 c rd rs1 (fun a => a + sext16 imm) s

/-- ANDI: rd := rs1 and zext(imm16). -/
def execAndi (c : Fin 96) (rd : Fin 32) (rs1 : Fin 32) (imm : BitVec 16) (s : State) : Res :=
  alu1 c rd rs1 (fun a => a &&& zext16 imm) s

/-- ORI: rd := rs1 or zext(imm16). -/
def execOri (c : Fin 96) (rd : Fin 32) (rs1 : Fin 32) (imm : BitVec 16) (s : State) : Res :=
  alu1 c rd rs1 (fun a => a ||| zext16 imm) s

/-- XORI: rd := rs1 xor zext(imm16). -/
def execXori (c : Fin 96) (rd : Fin 32) (rs1 : Fin 32) (imm : BitVec 16) (s : State) : Res :=
  alu1 c rd rs1 (fun a => a ^^^ zext16 imm) s

/-- SLTI: 1 if rs1 < sext(imm16) signed. -/
def execSlti (c : Fin 96) (rd : Fin 32) (rs1 : Fin 32) (imm : BitVec 16) (s : State) : Res :=
  alu1 c rd rs1 (fun a => w01 (a.slt (sext16 imm))) s

/-- SLTIU: 1 if rs1 < sext(imm16) unsigned. -/
def execSltiu (c : Fin 96) (rd : Fin 32) (rs1 : Fin 32) (imm : BitVec 16) (s : State) : Res :=
  alu1 c rd rs1 (fun a => w01 (a.ult (sext16 imm))) s

/-- SLLI: shift left by the immediate amount. -/
def execSlli (c : Fin 96) (rd : Fin 32) (rs1 : Fin 32) (amount : BitVec 6) (s : State) : Res :=
  alu1 c rd rs1 (fun a => a <<< amount.toNat) s

/-- SRLI: shift right by the immediate amount, zeros entering. -/
def execSrli (c : Fin 96) (rd : Fin 32) (rs1 : Fin 32) (amount : BitVec 6) (s : State) : Res :=
  alu1 c rd rs1 (fun a => a >>> amount.toNat) s

/-- SRAI: shift right by the immediate amount, the sign entering. -/
def execSrai (c : Fin 96) (rd : Fin 32) (rs1 : Fin 32) (amount : BitVec 6) (s : State) : Res :=
  alu1 c rd rs1 (fun a => a.sshiftRight amount.toNat) s

/-- LUI: rd := sext(imm16 × 2^16). -/
def execLui (c : Fin 96) (rd : Fin 32) (imm : BitVec 16) (s : State) : Res :=
  alu1 c rd 0 (fun _ => ((imm.setWidth 32) <<< 16).signExtend 64) s

/-- SHORI: rd := (rs1 × 2^16) or zext(imm16). -/
def execShori (c : Fin 96) (rd : Fin 32) (rs1 : Fin 32) (imm : BitVec 16) (s : State) : Res :=
  alu1 c rd rs1 (fun a => (a <<< 16) ||| zext16 imm) s

/-- BEQ: taken when rs1 = rs2. -/
def execBeq (c : Fin 96) (rs1 : Fin 32) (rs2 : Fin 32) (imm : BitVec 16) (s : State) : Res :=
  branch c rs1 rs2 imm (fun a b => a == b) s

/-- BNE: taken when rs1 ≠ rs2. -/
def execBne (c : Fin 96) (rs1 : Fin 32) (rs2 : Fin 32) (imm : BitVec 16) (s : State) : Res :=
  branch c rs1 rs2 imm (fun a b => a != b) s

/-- BLT: taken when rs1 < rs2 signed. -/
def execBlt (c : Fin 96) (rs1 : Fin 32) (rs2 : Fin 32) (imm : BitVec 16) (s : State) : Res :=
  branch c rs1 rs2 imm (fun a b => a.slt b) s

/-- BGE: taken when rs1 ≥ rs2 signed. -/
def execBge (c : Fin 96) (rs1 : Fin 32) (rs2 : Fin 32) (imm : BitVec 16) (s : State) : Res :=
  branch c rs1 rs2 imm (fun a b => b.sle a) s

/-- BLTU: taken when rs1 < rs2 unsigned. -/
def execBltu (c : Fin 96) (rs1 : Fin 32) (rs2 : Fin 32) (imm : BitVec 16) (s : State) : Res :=
  branch c rs1 rs2 imm (fun a b => a.ult b) s

/-- BGEU: taken when rs1 ≥ rs2 unsigned. -/
def execBgeu (c : Fin 96) (rs1 : Fin 32) (rs2 : Fin 32) (imm : BitVec 16) (s : State) : Res :=
  branch c rs1 rs2 imm (fun a b => b.ule a) s

/-- J: pc := pc + 4 × sext(imm26). -/
def execJmp (c : Fin 96) (imm : BitVec 26) (s : State) : Res :=
  onCore c (fun x s => corePut c (jumpTo x (jumpTarget x imm)) s) s

/-- JAL: s31 := pc + 4, then as J. -/
def execJal (c : Fin 96) (imm : BitVec 26) (s : State) : Res :=
  onCore c (fun x s => corePut c (jumpTo (setS x 31 (link x)) (jumpTarget x imm)) s) s

/-- JALR: t := rs1 + sext(imm16); rd := pc + 4; pc := t. A target with bits [1:0] or [63:48] set raises FETCH_ERROR and
writes nothing (R219). -/
def execJalr (c : Fin 96) (rd : Fin 32) (rs1 : Fin 32) (imm : BitVec 16) (s : State) : Res :=
  onCore c (fun x s =>
    let t := effAddr x rs1 imm
    if t.toNat % 4 ≠ 0 ∨ 2 ^ 48 ≤ t.toNat then exception c exFETCH t.toNat s
    else corePut c (jumpTo (setS x rd (link x)) (t.setWidth 48)) s) s

/-- MAC: acc := wrap56(acc + p), AOV when it wraps (R220). -/
def execMac (c : Fin 96) (acc : Fin 4) (rs1 : Fin 32) (rs2 : Fin 32) (s : State) : Res :=
  onCore c (fun x s =>
    corePut c (retire (accWrap x acc (x.a[acc].toInt + product24 (getS x rs1) (getS x rs2)))) s) s

/-- MSU: acc := wrap56(acc − p), AOV when it wraps (R220). -/
def execMsu (c : Fin 96) (acc : Fin 4) (rs1 : Fin 32) (rs2 : Fin 32) (s : State) : Res :=
  onCore c (fun x s =>
    corePut c (retire (accWrap x acc (x.a[acc].toInt - product24 (getS x rs1) (getS x rs2)))) s) s

/-- MULA: acc := p. -/
def execMula (c : Fin 96) (acc : Fin 4) (rs1 : Fin 32) (rs2 : Fin 32) (s : State) : Res :=
  onCore c (fun x s =>
    corePut c (retire { x with a := x.a.set acc (BitVec.ofInt 56 (product24 (getS x rs1) (getS x rs2))) }) s) s

/-- ACCLD: acc := rs1[55:0]. -/
def execAccld (c : Fin 96) (acc : Fin 4) (rs1 : Fin 32) (s : State) : Res :=
  onCore c (fun x s =>
    corePut c (retire { x with a := x.a.set acc ((getS x rs1).setWidth 56) }) s) s

/-- ACCX: rd := acc shifted right arithmetically, truncating (R221); a shift of 56 to 63 is illegal (R222). -/
def execAccx (c : Fin 96) (rd : Fin 32) (acc : Fin 4) (shift : BitVec 6) (s : State) : Res :=
  onCore c (fun x s =>
    if 56 ≤ shift.toNat then exception c exILLEGAL 0 s
    else writeS c rd ((x.a[acc].signExtend 64).sshiftRight shift.toNat) s) s

/-- ACCXS: as ACCX, then saturated to 24 bits, SAT set when it clips (R221, R222). -/
def execAccxs (c : Fin 96) (rd : Fin 32) (acc : Fin 4) (shift : BitVec 6) (s : State) : Res :=
  onCore c (fun x s =>
    if 56 ≤ shift.toNat then exception c exILLEGAL 0 s
    else
      let v := clip24 ((x.a[acc].signExtend 64).sshiftRight shift.toNat).toInt
      corePut c (retire { setS x rd (BitVec.ofInt 64 v.1) with sat := x.sat || v.2 }) s) s

/-- MAXI: the running signed maximum and its index (R223, R224). -/
def execMaxi (c : Fin 96) (rd : Fin 32) (rs1 : Fin 32) (rs2 : Fin 32) (s : State) : Res :=
  search c rd rs1 rs2 (fun a b => b.slt a) s

/-- MINI: the running signed minimum and its index (R223, R224). -/
def execMini (c : Fin 96) (rd : Fin 32) (rs1 : Fin 32) (rs2 : Fin 32) (s : State) : Res :=
  search c rd rs1 rs2 (fun a b => a.slt b) s

/-- MAXIU: the running unsigned maximum and its index (R223, R224). -/
def execMaxiu (c : Fin 96) (rd : Fin 32) (rs1 : Fin 32) (rs2 : Fin 32) (s : State) : Res :=
  search c rd rs1 rs2 (fun a b => b.ult a) s

/-- MINIU: the running unsigned minimum and its index (R223, R224). -/
def execMiniu (c : Fin 96) (rd : Fin 32) (rs1 : Fin 32) (rs2 : Fin 32) (s : State) : Res :=
  search c rd rs1 rs2 (fun a b => a.ult b) s

end Sys2Proof.Machine
end

