-- ==== Sys2Proof/Machine/CpuCop.lean ====
section
/-!
DEFINITION. The coprocessor instructions and the commands the coprocessors run (08_coprocessors.md, Encodings; R287 to R305).
-/
namespace Sys2Proof.Machine
open Sys2Proof

/-- CPISS: checks and issues the command in s(4q) to s(4q + 3) on a tag (R291). -/
def execCpiss (c : Fin 96) (tag : Fin 32) (unit : Fin 8) (q : Fin 8) (s : State) : Res :=
  onCoreR c (fun _ x s => cpissOp c tag unit q x s) s

/-- CPRES: waits for a tag, returns its result and status and frees it (R299). -/
def execCpres (c : Fin 96) (rd : Fin 32) (tag : Fin 32) (s : State) : Res :=
  onCoreR c (fun _ x s =>
    let t := tagOf x tag
    if !pairOk rd then (true, exception c exILLEGAL 0 s)
    else match t.st with
    | .free => (true, exception c exTAG_STATE 0 s)
    | .live => (false, s)
    | .done =>
      (true, corePut c (retire (freeTag tag (setS (setS x rd t.result) (pairOf rd) (BitVec.ofNat 64 t.status)))) s)) s

/-- CPB: branches on a tag: 0 LIVE, 1 not LIVE, 2 DONE with an error. -/
def execCpb (c : Fin 96) (tag : Fin 32) (cond : Fin 32) (imm : BitVec 16) (s : State) : Res :=
  onCore c (fun x s =>
    let t := tagOf x tag
    if 3 ≤ cond.val then exception c exILLEGAL 0 s
    else
      let take := if cond.val = 0 then t.st == .live else if cond.val = 1 then t.st != .live
        else t.st == .done && t.status != cpOK
      branchTo c take (branchTarget x imm) s) s

/-- CPWAIT: waits until no tag set in rs1[31:0] is LIVE. -/
def execCpwait (c : Fin 96) (rs1 : Fin 32) (s : State) : Res :=
  onCoreR c (fun _ x s =>
    if (List.range 32).any fun t => (getS x rs1).getLsbD t && (tagOf x t).st == .live then (false, s)
    else (true, corePut c (retire x) s)) s

/-- CPFREE: frees the tags set in rs1[31:0], discarding live results (R301). -/
def execCpfree (c : Fin 96) (rs1 : Fin 32) (s : State) : Res :=
  onCore c (fun x s =>
    corePut c (retire ((List.range 32).foldl (fun y t => if (getS x rs1).getLsbD t then freeTag t y else y) x)) s) s

/-- CPTST: the state of tag rs1[4:0]: 0 FREE, 1 LIVE, 2 DONE with OK, 3 DONE with an error. -/
def execCptst (c : Fin 96) (rd : Fin 32) (rs1 : Fin 32) (s : State) : Res :=
  onCore c (fun x s =>
    let t := tagOf x ((getS x rs1).toNat % 32)
    writeS c rd (match t.st with
      | .free => 0
      | .live => 1
      | .done => if t.status = cpOK then 2 else 3) s) s

/-- FFT: the head command of an FFT engine, a forward FFT; `coll` is a code word whose write loses a collision (R292, R296). -/
def execFft (crew : Fin 12) (engine : Fin 2) (coll : Option (BitVec 48)) (s : State) : Res :=
  done (runCop crew (engine) 1 (coll.map (·.toNat)) true transformResult s)

/-- IFFT: the head command of an FFT engine, an inverse FFT (R292). -/
def execIfft (crew : Fin 12) (engine : Fin 2) (coll : Option (BitVec 48)) (s : State) : Res :=
  done (runCop crew (engine) 2 (coll.map (·.toNat)) true transformResult s)

/-- FFT_PEAK: the head command of an FFT engine, a REG-class search for the peak bin (R289). -/
def execFftPeak (crew : Fin 12) (engine : Fin 2) (s : State) : Res :=
  done (runCop crew (engine) 3 none false peakResult s)

/-- DFT: the head command of an FFT engine, a forward DFT (R292). -/
def execDft (crew : Fin 12) (engine : Fin 2) (coll : Option (BitVec 48)) (s : State) : Res :=
  done (runCop crew (engine) 4 (coll.map (·.toNat)) true transformResult s)

/-- IDFT: the head command of an FFT engine, an inverse DFT (R292). -/
def execIdft (crew : Fin 12) (engine : Fin 2) (coll : Option (BitVec 48)) (s : State) : Res :=
  done (runCop crew (engine) 5 (coll.map (·.toNat)) true transformResult s)

/-- CHEST: the head command of a CEMD engine, a channel estimate (R292). -/
def execChest (crew : Fin 12) (engine : Fin 2) (coll : Option (BitVec 48)) (s : State) : Res :=
  done (runCop crew (2 + engine) 16 (coll.map (·.toNat)) true chestResult s)

/-- MIMO_DET: the head command of a CEMD engine, a detection (R292). -/
def execMimoDet (crew : Fin 12) (engine : Fin 2) (coll : Option (BitVec 48)) (s : State) : Res :=
  done (runCop crew (2 + engine) 17 (coll.map (·.toNat)) true (fun b i => (Config.copResult b i).toNat) s)

/-- POWER: the head command of a CEMD engine, a REG-class power sum (R289). -/
def execPower (crew : Fin 12) (engine : Fin 2) (s : State) : Res :=
  done (runCop crew (2 + engine) 18 none false (fun _ i => powerSum (i.length / 4) i) s)

/-- BW_WEIGHTS: the head command of BW_0, weight matrices (R292). -/
def execBwWeights (crew : Fin 12) (coll : Option (BitVec 48)) (s : State) : Res :=
  done (runCop crew 4 0x20 (coll.map (·.toNat)) true (fun b i => (Config.copResult b i).toNat) s)

/-- BW_APPLY: the head command of BW_0, weights applied to samples; its result is the count of saturated outputs (R292). -/
def execBwApply (crew : Fin 12) (coll : Option (BitVec 48)) (s : State) : Res :=
  done (runCop crew 4 0x21 (coll.map (·.toNat)) true satCount s)

/-- HANDOVER: a hand-over drains and cleans its ranges and sends one decrement (R303). -/
def execHandover (c : Fin 96) (tag : Fin 32) (s : State) : Res :=
  done (handoverOp c tag s)

end Sys2Proof.Machine
end

