-- ==== Sys2Proof/Machine/Faults.lean ====
section
/-!
DEFINITION. The single-fault guarantee and fault injection (19_faults.md, R642 to R646).
-/
namespace Sys2Proof.Machine
open Sys2Proof

/-! ### The clauses of R642 -/

/-- The number of the first condition that fails, 0 when all hold (R644). -/
def firstCond (cs : List Bool) : Nat := ((cs.findIdx? (· == false)).map (· + 1)).getD 0

/-- What a reference that is not selected last differed from Cox by, in units of 2^-16 ns. -/
def refOffset (s : State) (r : Nat) : Int :=
  if r < 16 then
    match (ptpPort s r).sync with
    | some (t1, t2) => t2 - t1 - (ptpPort s r).meanPathDelay - portAsym s r * 256
    | none => 0
  else (ppsIn s (r - 16)).base - nearestSecond (ppsIn s (r - 16)).base

/-- The valid references: the PTP reference counts once. -/
def validRefs (s : State) : List Nat :=
  ((List.range 16).filter (refValid s)).take 1 ++ ((List.range 4).map (16 + ·)).filter (refValid s)

/-- Armed class-0 tasks that run on cores. -/
def class0Tasks (s : State) : List TaskDesc :=
  (s.shuttle.slots.filter fun e => e.2.st != .free && e.2.desc.cls == 0 && e.2.desc.target == 0).map (·.2.desc)

/-- The five clause bytes of SFG_STATUS. -/
def clauseBytes (s : State) : List Nat :=
  let ports := (List.range 48).filter fun n => regF s uETH n 0x000 31 31 == 1
  let links := (List.range 6).filter fun l => isRunning s (linkObj l)
  [ firstCond [s.memc.all fun e => e.2.suspect.isEmpty],
    firstCond [isRing s && links.all (linkUp s), (upLinks s).all fun l => linkFlag s l 3,
      (proxies s).all fun e => e.cls == 0, true],
    firstCond [s.cox.st == .locked, 2 ≤ (validRefs s).length,
      (validRefs s).all fun r => r == s.cox.ref || (refOffset s r).natAbs ≤ lockNs s * 65536, lockNs s ≤ 100],
    firstCond [(ports.all fun n => regF s uETH n 0x000 26 26 == 1) && links.all fun l => linkFlag s l 0,
      (List.range 48).all fun n => regF s uLANE n 0x000 27 27 == 0],
    firstCond [spare s == 64, (class0Tasks s).all (·.replay),
      (class0Tasks s).all fun d => 2 ≤ ((List.range 12).filter fun n => bit d.crewMask n && crewUsable s n).length, true, true] ]

/-- SFG_STATUS (R644, R646). -/
def sfgStatusOp (r : Request) (s : State) : State :=
  runCmd 0x0940 r (firstFail [targetCheck s r uSYS 0, need (r.params.length == 0) stBAD_LENGTH])
    (fun s => (stDONE, (clauseBytes s).map (BitVec.ofNat 8) ++ zeros 3, s)) s

/-! ### Fault injection (R645, R646) -/

/-- TARGET and SUB in the range of a KIND. -/
def injectRange (kind target sub : Nat) : Bool :=
  if kind = 1 then target < 8 && sub < 64 && sub % 32 < 20
  else if kind = 2 then target < 48 && sub == 0
  else if kind = 3 then target < 6 && sub == 0
  else if kind = 4 then target < 20 && sub == 0
  else if kind = 5 then target < 12 && sub == 0
  else if kind = 6 then target < 64 && sub < 5
  else kind == 7 && sub == 0

/-- The target is absent from the part. -/
def injectAbsent (s : State) (kind target : Nat) : Bool :=
  (kind == 2 && laneCount s.part ≤ target) || (kind == 5 && !crewPresent s target)

/-- The checks of FAULT_INJECT. -/
def injectCheck (s : State) (r : Request) : Nat :=
  let p := r.params
  firstFail [need (r.transport == .pcie) stNOT_AUTHORISED, targetCheck s r uSYS 0, need (p.length == 12) stBAD_LENGTH,
    need (injectRange (fld p 0 1) (fld p 2 2) (fld p 4 2) && rsv p 1 1 && rsv p 6 2) stBAD_PARAM,
    need (!injectAbsent s (fld p 0 1) (fld p 2 2)) stUNIT_ABSENT, need (s.power.injections.length < 4) stBUSY]

/-- An injected fault begins: a lost lane and a crew fault act at once, the others on what they meet. -/
def injectBegin (kind target sub us : Nat) (s : State) : State :=
  let i : Injection := { kind := kind, target := target, sub := sub
                         until_ := if us = 0 ∨ kind = 5 then none else some (s.now + us * 1000) }
  let s := powerMod (fun (p : Power) => { p with injections := p.injections ++ [i] }) s
  let s := raise 0x0103 uSYS 0 1
    ([BitVec.ofNat 8 kind, 0] ++ leBytes 2 target ++ leBytes 2 sub ++ [0, 0] ++ leBytes 4 us) s
  if kind = 2 then laneLost target s
  else if kind = 5 then crewFailureOp target (crewFatalOp target 2 s) else s

/-- FAULT_INJECT. -/
def faultInjectOp (r : Request) (s : State) : State :=
  let p := r.params
  runCmd 0x0941 r (injectCheck s r)
    (fun s => (stDONE, leBytes 8 (shortNow s), injectBegin (fld p 0 1) (fld p 2 2) (fld p 4 2) (fld p 8 4) s)) s

/-- Active injections of a kind and target. -/
def injected (s : State) (kind target : Nat) : Bool := s.power.injections.any fun i => i.kind == kind && i.target == target

/-- FAULT_CLEAR. -/
def faultClearOp (r : Request) (s : State) : State :=
  let p := r.params
  let k := fld p 0 1
  let t := fld p 2 2
  runCmd 0x0942 r (firstFail [targetCheck s r uSYS 0, need (p.length == 8) stBAD_LENGTH,
      need (rsv p 1 1 && rsv p 4 4 && k != 5 && injected s k t) stBAD_PARAM])
    (fun s => (stDONE, [], powerMod (fun (p : Power) => { p with
      injections := p.injections.filter fun i => !(i.kind == k && i.target == t) }) s)) s

/-- Injections whose DURATION_US has passed end. -/
def injectionExpiry (s : State) : State :=
  powerMod (fun (p : Power) => { p with injections := p.injections.filter fun i => !(i.until_.any fun t => t ≤ s.now) }) s

end Sys2Proof.Machine
end

