-- ==== Sys2Proof/Machine/MemRows.lean ====
section
/-!
DEFINITION. The commands of the memory controllers (13_memory_ecc.md, R462, R470 to R473).
-/
namespace Sys2Proof.Machine
open Sys2Proof

/-- A read of MEM_DEV_CE: the selected count, cleared, its event re-armed (R462). -/
def memDevRead (ch : Nat) (s : State) : State :=
  let k := regF s uMEM ch 0x010 5 5 * 32 + regF s uMEM ch 0x010 4 0
  let c := memCh s ch
  answer (spGet 0 c.devCe k)
    { s with memc := spSet {} s.memc ch { devCe := spDel c.devCe k, recent := spDel c.recent k,
                                          suspect := c.suspect.filter (· != k) } }

/-- A channel taken out of service (R470): cause 1 training lost, 2 command-bus parity. -/
def memChannelDown (ch cause : Nat) (s : State) : State :=
  if regF s uMEM ch 0x000 31 31 = 0 then s
  else raise 0x0805 uMEM ch 3 [BitVec.ofNat 8 cause]
    (regPutF uMEM ch 0x000 23 16 0 (regPutF uMEM ch 0x000 31 31 0 s))

/-- The words of a burst read, corrected and rewritten by a repair; the worst outcome so far (R471). -/
def repairWords (ch rank : Nat) : List Nat → Nat → State → Nat × State
  | [], r, s => (r, s)
  | w :: ws, r, s =>
    let p := seenPat s w ch rank
    if p = {} then repairWords ch rank ws r (sdramStore ch w (memBytes s.mem w 32) s)
    else match decodeD p with
    | .good x => repairWords ch rank ws r (sdramStore ch w (xorWord (memBytes s.mem w 32) x) s)
    | .corrected x pos =>
      repairWords ch rank ws (max r 1) (sdramStore ch w (xorWord (memBytes s.mem w 32) x) (memCe ch rank pos w s))
    | .bad => repairWords ch rank ws 2 (memUe ch rank w false (unitInit uMEM ch) s)

/-- A write of MEM_REPAIR_LO (R471). -/
def memRepairOp (ch lo : Nat) (s : State) : State :=
  let s := regPut uMEM ch 0x028 (BitVec.ofNat 32 (lo / 128 * 128)) s
  let a := regF s uMEM ch 0x02C 15 0 * 2 ^ 32 + lo / 128 * 128
  let set := fun r s => regPutF uMEM ch 0x02C 29 28 r s
  match sdramAt s a with
  | some (c, _, rank) =>
    if c ≠ ch ∨ regF s uMEM ch 0x000 31 31 = 0 then set 3 s
    else
      let (r, s) := repairWords ch rank ((List.range 4).map fun k => a + 32 * k) 0 s
      set r s
  | none => set 3 s

/-- ARM of a controller's or a bank group's flip masks set (R472, R473); a write to an absent crew is ignored (R3). -/
def flipArm (t : FlipTarget) (axor : Nat) (s : State) : State :=
  let (u, i, o) := match t with
    | .mem ch => (uMEM, ch.val, 0x070)
    | .spm crew g => (uCREW + crew.val, crewCtl, 0x228 + 0x40 * g.val)
  if !unitPresent s.part u i ∨ regF s u i o 31 31 = 1 then s else regPut u i o (BitVec.ofNat 32 (0x80000000 + axor % 0x10000)) s

/-- MEM_DEV_CE: a read of MEM_DEV_CE (R462). -/
def execMemDevCe (ch : Fin 8) (s : State) : Res :=
  done (memDevRead ch s)

/-- MEM_CHANNEL_DOWN: a channel interface failing beyond 1 ms of retraining, for lost training or command-bus parity (R470). -/
def execMemChannelDown (ch : Fin 8) (parity : Bool) (s : State) : Res :=
  done (memChannelDown ch (if parity then 2 else 1) s)

/-- MEM_REPAIR: a write of MEM_REPAIR_LO (R471). -/
def execMemRepair (ch : Fin 8) (lo : BitVec 32) (s : State) : Res :=
  done (memRepairOp ch lo.toNat s)

/-- MEM_FLIP_ARM: ARM set, with the AXOR written beside it (R472, R473). -/
def execMemFlipArm (target : FlipTarget) (axor : BitVec 16) (s : State) : Res :=
  done (flipArm target axor.toNat s)

end Sys2Proof.Machine
end

