-- ==== Sys2Proof/Machine/RegRead.lean ====
section
/-!
DEFINITION. Reads of unit registers (01_architecture.md, Address map; the register tables of every chapter). A register
that holds what was written or recorded is read through its row; the others are computed here. An offset without a
register reads zero.
-/
namespace Sys2Proof.Machine
open Sys2Proof

/-- A register read through its row, its RC bits cleared. -/
def rowRead (u inst off : Nat) (s : State) : State :=
  match regRow u inst off with
  | none => answer 0 s
  | some r =>
    let v := regGet s u inst off
    answer v.toNat (if r.rc = 0 then s else regPut u inst off (regAfterRead r v) s)

/-- A selected counter read, which clears it. -/
def cntRead (k : Nat) (s : State) : State := answer (cntGet s k) (cntZero k s)

/-- SYS: capabilities, the mailbox, the event routes and the down-spread. Words of the reply window beyond the reply's
length read 0, which the spec leaves open (R49; DESIGN CHOICE, log 107). -/
def sysRead (off : Nat) (s : State) : State :=
  if off ≤ 0x020 then answer (capReg s off) s
  else if off = 0x104 then
    answer (regF s uSYS 0 0x104 31 31 * 2 ^ 31 + s.cmd.replies.length * 2 ^ 16 + s.cmd.longs.length * 2 ^ 8 +
      (16 - s.cmd.reqPcie.length)) s
  else if off = 0x108 then rplPopOp s
  else if off = 0x240 then
    answer (regF s uSYS 0 0x240 31 16 * 2 ^ 16 + s.evSeq % 2 ^ 16) (regPutF uSYS 0 0x240 31 16 0 s)
  else if 0x1000 ≤ off ∧ off < 0x2000 then answer (spGet 0 s.cmd.reqWindow ((off - 0x1000) / 4)).toNat s
  else if 0x2000 ≤ off ∧ off < 0x3000 then answer (fld s.cmd.replyWindow (off - 0x2000) 4) s
  else rowRead uSYS 0 off s

/-- SEC_LIFECYCLE. -/
def lifecycleReg (s : State) : Nat :=
  let p0 := s.sec.owner0.ed.isSome
  let p1 := s.sec.owner1.ed.isSome
  b2n s.sec.owner1.revoked * 32 + b2n s.sec.owner0.revoked * 16 + b2n p1 * 8 + b2n p0 * 4 + b2n (p0 || p1)

/-- SEC. -/
def secRead (off : Nat) (s : State) : State :=
  if off = 0x008 then answer (lifecycleReg s) s
  else if off = 0x00C then answer (sumL ((List.range 4).map fun k => s.sec.rollback.getD k 0 * 2 ^ (8 * k))) s
  else if off = 0x010 then answer (Config.serial.toNat % 2 ^ 32) s
  else if off = 0x014 then answer (Config.serial.toNat / 2 ^ 32) s
  else rowRead uSEC 0 off s

/-- COX. -/
def coxRead (off : Nat) (s : State) : State :=
  if off = 0x000 then answer (coxStatus s) s
  else if off = 0x004 then answer (coxOffset s) s
  else if off = 0x008 then answer (coxFreq s) s
  else if off = 0x00C then answer (coxLeft s) s
  else if 0x100 ≤ off ∧ off < 0x180 ∧ off % 0x20 = 0 then coxLatch ((off - 0x100) / 0x20) s
  else if 0x200 ≤ off ∧ off < 0x240 ∧ off % 0x10 = 0 then ppsTsRead ((off - 0x200) / 0x10) s
  else if 0x200 ≤ off ∧ off < 0x240 ∧ off % 0x10 = 0xC then
    answer (b2n (ppsIn s ((off - 0x200) / 0x10)).valid * 2 ^ 31 + regF s uCOX 0 off 15 0) (regPutF uCOX 0 off 15 0 0 s)
  else rowRead uCOX 0 off s

/-- WEFT: router and gateway `n`. -/
def weftRead (n off : Nat) (s : State) : State :=
  let x := router s n
  if off = 0x000 then answer ((match x.st with | .run => 0 | .draining => 1 | .drained => 2) * 2 ^ 30 + satN 0xFFFF (routerHeld s n)) s
  else if off = 0x008 then answer (availMask s n) s
  else if off = 0x014 then answer (regF s uWEFT n 0x014 31 31 * 2 ^ 31 + routeMask s n (regF s uWEFT n 0x010 5 0)) s
  else if 0x020 ≤ off ∧ off < 0x034 then
    let l := c0Load (c0Entries s) n ((off - 0x020) / 4)
    answer (satN 0xFFFF l.2.1 * 2 ^ 16 + satN 0xFFFF l.1) s
  else if off = 0x044 then cntRead (cntKey uWEFT n (regF s uWEFT n 0x040 3 0)) s
  else if off = 0x080 then
    answer (b2n (gwEmpty s n) * 2 ^ 31 + regF s uWEFT n 0x080 30 30 * 2 ^ 30 + satN 0xFFFF (gwResOut s n)) s
  else if off = 0x088 then answer (window s n (regF s uWEFT n 0x084 5 0)) s
  else if off = 0x08C then answer (satN 0xFFFF (shaper s n).2 * 2 ^ 16 + satN 0xFFFF (shaper s n).1) s
  else rowRead uWEFT n off s

/-- SPOOL, as initiator `i` reads it (R486). -/
def spoolRead (i : Initiator) (off : Nat) (s : State) : State :=
  let c := ctx s i
  let q := queue s (regF s uSPOOL 0 0x080 15 0)
  let cq := compat s (regF s uSPOOL 0 0x0A0 9 0)
  if off = 0x000 then answer (freeCells s) s
  else if off = 0x004 then answer (quarantinedCells s) s
  else if off = 0x040 then answer c.queue s
  else if off = 0x044 then answer c.len s
  else if off = 0x048 then answer (b2n c.badHandle * 8 + b2n c.noCells * 4 + b2n c.full * 2 + b2n c.idle) s
  else if off = 0x04C then answer (b2n c.notifyValid * 2 ^ 31 + c.notifyTask) s
  else if off = 0x050 then spoolAllocOp i s
  else if off = 0x058 then spoolDeqOp i s
  else if off = 0x060 then answer c.cell s
  else if off = 0x064 then spoolNextOp i s
  else if off = 0x084 then answer (b2n q.en * 2 ^ 31 + q.maxCells) s
  else if off = 0x088 then answer (q.notifyKind * 2 ^ 30 + q.notifyTarget) s
  else if off = 0x08C then answer (queueCells s (regF s uSPOOL 0 0x080 15 0)) s
  else if off = 0x090 then answer (q.items.head?.getD noHandle) s
  else if off = 0x094 then answer (q.items.getLast?.getD noHandle) s
  else if off = 0x0A4 then answer (b2n cq.en * 2 ^ 31 + b2n cq.noSpace * 2 ^ 30 + cq.depthLog2) s
  else if off = 0x0A8 then answer (b2n cq.overflow * 2 ^ 31 + cq.items.length) s
  else if 0x8000 ≤ off then
    let k := (off - 0x8000) / 0x20
    let w := off % 0x20
    let l := (compat s k).latch
    if w = 0x10 then cqPopOp k s
    else if w = 0x14 then answer l.w1.toNat s
    else if w = 0x18 then answer l.w2.toNat s
    else if w = 0x1C then answer l.w3.toNat s
    else answer 0 s
  else rowRead uSPOOL 0 off s

/-- SHUTTLE. -/
def shuttleRead (off : Nat) (s : State) : State :=
  let h := s.shuttle
  if off = 0x004 then
    answer (sumL (h.crewRescue.map fun n => 2 ^ (16 + n)) + b2n h.deviceRescue * 2 ^ 12 + serviceCode h.service) s
  else if off = 0x034 then
    let x := slot s (regF s uSHUTTLE 0 0x030 15 0)
    let st := match x.st with | .free => 0 | .waiting => 1 | .ready => 2 | .staged => 3 | .running => 4 | .armedTemplate => 5
    answer (st * 2 ^ 28 + x.count * 2 ^ 16 + x.pending) s
  else if off = 0x044 then
    let x := flow s (regF s uSHUTTLE 0 0x040 11 0)
    answer (x.destQ * 2 ^ 16 + x.window) s
  else if off = 0x048 then
    let x := flow s (regF s uSHUTTLE 0 0x040 11 0)
    answer (x.head % 2 ^ 16 * 2 ^ 16 + (match x.lastCore with | some c => 2 ^ 7 + c | none => 0)) s
  else if off = 0x074 then
    cntRead (cntKey uSHUTTLE (regF s uSHUTTLE 0 0x070 11 8) (regF s uSHUTTLE 0 0x070 3 0)) s
  else rowRead uSHUTTLE 0 off s

/-- A DMA complex, with the reads its channels have in flight and the shared staging they hold (R510, R511). -/
def dmaRead (inst off : Nat) (s : State) : State :=
  if off < 0x1000 then (if off = 0x000 then answer (dmaShared s inst * 2 ^ 16 + sumL ((dmaReads s inst).map (·.2))) s else rowRead uDMA inst off s)
  else if 0x2000 ≤ off then answer 0 s
  else
    let x := dmaCh s (16 * inst + (off - 0x1000) / 0x100)
    let r := off % 0x100
    answer (
      if r = 0x00 then x.maxReads * 2 ^ 16 + b2n x.tasksEn * 16 + x.cls
      else if r = 0x04 then
        x.handoverSeq * 2 ^ 24 + b2n x.shadowLocked * 2 ^ 23 + b2n x.programError * 2 ^ 22 + x.error * 2 ^ 19 +
          x.source * 2 ^ 17 + (match x.run with | .idle => 0 | .run => 1 | .wait => 2 | .drain => 3) * 2 ^ 14 +
          (((dmaReads s inst).find? fun e => e.1 == 16 * inst + (off - 0x1000) / 0x100).map (·.2)).getD 0
      else if r = 0x08 then b2n x.armed * 2 ^ 31
      else if r = 0x0C then x.pc % 2 ^ 32 / 32 * 32
      else if r = 0x10 then x.pc / 2 ^ 32 % 2 ^ 16
      else if r = 0x14 then (match x.work with | some w => 2 ^ 16 + w.task | none => 0)
      else if r = 0x20 then x.shProg % 2 ^ 32
      else if r = 0x24 then x.shProg / 2 ^ 32
      else if r = 0x28 then x.shBase % 2 ^ 32
      else if r = 0x2C then x.shBase / 2 ^ 32
      else if r = 0x30 then b2n x.shSignalValid * 2 ^ 31 + x.shSignalTask
      else 0) s

/-- MEM. RESERVED_MIB shows what memory initialisation reserved (R454). -/
def memRead (ch off : Nat) (s : State) : State :=
  if off = 0x014 then memDevRead ch s
  else if off = 0x080 ∧ ch = 0 then
    answer ((if s.memChans.isEmpty then 0 else if cssChannels s.part = 0 then 16 else 24) * 2 ^ 24 + regF s uMEM 0 0x080 8 0) s
  else rowRead uMEM ch off s

/-- CREW_STATUS. -/
def crewStatus (s : State) (n : Nat) : Nat :=
  sumL ((List.range 8).map fun k =>
    let x := core s (8 * n + k)
    b2n x.task * 2 ^ (16 + k) + b2n (x.run == .wfi || x.run == .taskWait) * 2 ^ (8 + k) + b2n (x.run == .reset) * 2 ^ k) +
  b2n (bit (failedMask s) n) * 2 ^ 31

/-- A crew: its control block (instance 8) and its cores. -/
def crewRead (n inst off : Nat) (s : State) : State :=
  if inst = crewCtl then
    if off = 0x004 then answer (crewStatus s n) s
    else if 0x100 ≤ off ∧ off < 0x180 then
      let b := (off - 0x100) / 4
      let v := (regGet s (uCREW + n) crewCtl off).toNat
      let s := regPutF (uCREW + n) crewCtl off 23 16 0 s
      match spFind s.bankPend (32 * n + b) with
      | some p => answer (2 ^ 31 + bits v 23 16 * 2 ^ 16 + p) s
      | none => answer (bits v 23 16 * 2 ^ 16 + v % 256) s
    else rowRead (uCREW + n) crewCtl off s
  else
    let x := core s (8 * n + inst)
    answer (
      if off = 0x000 then x.lastPc.toNat % 2 ^ 32
      else if off = 0x004 then x.lastPc.toNat / 2 ^ 32
      else if off = 0x008 then
        match x.run with
        | .reset => 0 | .taskWait => 1 | .run => if x.exc then 3 else 2 | .wfi => 4 | .drain => 5 | .held => 6
      else 0) s

/-- FEC and CIPHER: engine `k` of the device-wide engines. -/
def engineRead32 (u inst off : Nat) (s : State) : State :=
  let k := if u = uFEC then inst else 40 + inst
  if off = 0x000 then
    let busy := (spFind s.shuttle.engines k).isSome || (spFind s.shuttle.lent k).isSome
    answer (b2n busy * 2 ^ 31 + b2n (regF s u inst 0x004 0 0 == 1 && !busy) * 2 ^ 30 + regF s u inst 0x000 15 0) s
  else rowRead u inst off s

/-- CSS: channel `n`, and modulator `n` below 64. -/
def cssRead (n off : Nat) (s : State) : State :=
  if off = 0x000 then
    match chirpRunning s n with
    | some (id, _, _) =>
      let d := (chirpCh s n).demods
      answer (2 ^ 31 + sumL (d.map fun e => 2 ^ (16 + e.1)) +
        sumL ((d.filter fun e => e.2.header.isNone).map fun e => 2 ^ (8 + e.1)) + id % 256) s
    | none => answer 0 s
  else if off = 0x004 then
    let age := match spFind s.chirp n with
      | some x => satN 255 ((s.now - x.floorAt) / 100000000)
      | none => 0
    answer (regF s uCSS n 0x004 31 16 * 2 ^ 16 + age) s
  else if off = 0x008 then
    match (activeOf s 3 1).findSome? fun e => ((chirpEntries e.2.body).find? (·.channel == n)).map fun x => (e.2.body, x) with
    | some (b, e) => answer (fld b 7 1 % 16 * 2 ^ 24 + e.sync * 2 ^ 16 + e.mask % 128 * 2 ^ 8 + e.bw % 4) s
    | none => answer 0 s
  else if off = 0x014 then cntRead (cntKey uCSS n (regF s uCSS n 0x010 3 0)) s
  else if off = 0x8000 ∧ n < 64 then
    match spFind s.chirpMods n with
    | some m => answer (2 ^ 31 + m.channel * 2 ^ 8) s
    | none => answer 0 s
  else rowRead uCSS n off s

/-- FRONTHAUL. -/
def fhRead (off : Nat) (s : State) : State :=
  if off = 0x014 then
    cntRead (cntKey uFRONTHAUL (regF s uFRONTHAUL 0 0x010 13 8) (regF s uFRONTHAUL 0 0x010 3 0)) s
  else rowRead uFRONTHAUL 0 off s

/-- AUDIO. -/
def audioRead (off : Nat) (s : State) : State :=
  if off = 0x000 then
    answer (s.audio.legs.length * 2 ^ 16 + ((objsOf s 4 1).filter fun e => e.2.st == some .running).length) s
  else if off = 0x014 then cntRead (cntKey uAUDIO (regF s uAUDIO 0 0x010 27 16) (regF s uAUDIO 0 0x010 3 0)) s
  else rowRead uAUDIO 0 off s

/-- VIDEO, engine `n`. -/
def videoRead (n off : Nat) (s : State) : State :=
  if off = 0x000 then
    let k := ((activeVideo s).filter fun e => (videoRun s e.1).engine == some n).length
    answer (k % 256 * 2 ^ 24 + (engineLoad s n).1 * 2 ^ 16 + (engineLoad s n).2 * 2 ^ 8) s
  else rowRead uVIDEO n off s

/-- FWD. -/
def fwdRead (off : Nat) (s : State) : State :=
  let f := s.video.fwd
  if off = 0x00C then
    answer (f.legs.length * 2 ^ 16 + (f.streams.filter fun e => e.2.window.any fun p => s.now < p.1 + second).length) s
  else if off = 0x018 then cntRead (cntKey uFWD (regF s uFWD 0 0x014 27 16) (regF s uFWD 0 0x014 3 0)) s
  else if off = 0x01C then answer (fwdLegState s (regF s uFWD 0 0x014 27 16)) s
  else rowRead uFWD 0 off s

/-- COMPOSE. -/
def composeRead (off : Nat) (s : State) : State :=
  if off = 0x000 then
    answer (sumL (s.video.layouts.map fun e => layoutUnits e.2.cur) * 2 ^ 16 +
      sumL ((s.video.layouts.filter fun e => layTiles e.2.cur != 0).map fun e => 2 ^ e.1)) s
  else rowRead uCOMPOSE 0 off s

/-- LANE. Until PIN_TABLE completes, and in WAIT_HOST and CONFIG_INVALID, no lane leaves electrical idle, except LANE_0 of
a boot transfer (R80, R82, R99). -/
def laneRead (n off : Nat) (s : State) : State :=
  if off = 0x000 then
    let v := (regGet s uLANE n 0x000).toNat
    answer (if lanesOff s ∧ !(n = 0 ∧ s.sec.trained.isSome) then setBits v 26 26 1 else v) s
  else if off = 0x00C then prbsRead n true s
  else if off = 0x014 then prbsRead n false s
  else if off = 0x024 then eqRead n s
  else rowRead uLANE n off s

/-- ETH. -/
def ethRead (n off : Nat) (s : State) : State :=
  if off = 0x00C then cntRead (cntKey uETH n (regF s uETH n 0x008 2 0)) s else rowRead uETH n off s

/-- BUPEX. -/
def bupexRead (l off : Nat) (s : State) : State :=
  if off = 0x008 then cntRead (cntKey uBUPEX l (regF s uBUPEX l 0x004 3 0)) s
  else if off = 0x100 ∧ l = 0 then
    answer (s.serial.md.role * 2 ^ 30 + s.serial.md.leader % 2 ^ 12 * 2 ^ 16 + deviceId s) s
  else if off = 0x104 ∧ l = 0 then
    answer (votesOf s ((members s).map (·.1)) * 2 ^ 16 + votesOf s (reachable s)) s
  else rowRead uBUPEX l off s

/-- FABRIC, its pins and ports. -/
def fabricRead (off : Nat) (s : State) : State :=
  if off = 0x000 then
    answer (s.fabric.st * 2 ^ 30 + b2n (hasLogicArray s.part) * 2 ^ 29 + s.fabric.regions.length) s
  else if off = 0x008 then
    let r := regF s uFABRIC 0 0x004 6 0
    let st := match (objFind s (regionObj r)).bind (·.st) with
      | some .starting => 1 | some .running => 2 | some .stopping => 3 | _ => 0
    answer (st * 2 ^ 30 + (regionBlocks s r).length) s
  else if 0x040 ≤ off ∧ off < 0x050 then answer (oscRead s ((off - 0x040) / 4)) s
  else if 0x0800 ≤ off ∧ off < 0x0810 then
    answer (sumL ((List.range 32).map fun i => b2n (pinIn s (8 * (off - 0x0800) + i)) * 2 ^ i)) s
  else if 0x1000 ≤ off ∧ off < 0x1200 then answer (pinCfgRead s ((off - 0x1000) / 4)) s
  else if 0x2000 ≤ off ∧ off < 0x2180 ∧ off % 0x20 = 0x04 then answer (spStatusRead s ((off - 0x2000) / 0x20)) s
  else if 0x2000 ≤ off ∧ off < 0x2180 ∧ off % 0x20 = 0x0C then spRx ((off - 0x2000) / 0x20) s
  else rowRead uFABRIC 0 off s

/-- POWER. -/
def powerRead (off : Nat) (s : State) : State :=
  if 0x100 ≤ off ∧ off < 0x360 ∧ off % 0x10 = 0 then answer (domStateRead s ((off - 0x100) / 0x10)) s
  else rowRead uPOWER 0 off s

/-- A register of a present unit read by initiator `i`; the value is answered in `rdata`. -/
def unitRead (i : Initiator) (u inst off : Nat) (s : State) : State :=
  if u = uSYS then sysRead off s
  else if u = uSEC then secRead off s
  else if u = uCOX then coxRead off s
  else if u = uWEFT then weftRead inst off s
  else if u = uSPOOL then spoolRead i off s
  else if u = uSHUTTLE then shuttleRead off s
  else if u = uDMA then dmaRead inst off s
  else if u = uMEM then memRead inst off s
  else if 0x10 ≤ u ∧ u ≤ 0x1B then crewRead (u - 0x10) inst off s
  else if u = uFEC ∨ u = uCIPHER then engineRead32 u inst off s
  else if u = uFRONTHAUL then fhRead off s
  else if u = uCSS then cssRead inst off s
  else if u = uAUDIO then audioRead off s
  else if u = uVIDEO then videoRead inst off s
  else if u = uFWD then fwdRead off s
  else if u = uCOMPOSE then composeRead off s
  else if u = uLANE then laneRead inst off s
  else if u = uETH then ethRead inst off s
  else if u = uBUPEX then bupexRead inst off s
  else if u = uFABRIC then fabricRead off s
  else if u = uPOWER then powerRead off s
  else rowRead u inst off s

/-- The domain of a unit: a Bupex link's is that of its lanes while it is not STOPPED (R602). -/
def unitDomain (s : State) (u inst : Nat) : Option Nat :=
  if u = uBUPEX then
    (if isActive s (linkObj inst) then some (33 + fld (linkBody s inst) 0 1 / 12) else none)
  else domainOf u inst

/-- A read of a register by an initiator: a bus error for a unit or instance that is not listed (R20), zero for an absent
one (R3), otherwise the register once its domain lets the access through. -/
def regRead (i : Initiator) (u inst off : Nat) (s : State) : Bus × State :=
  if unitInstances u ≤ inst ∨ off % 4 ≠ 0 then (.busError, s)
  else if !unitPresent s.part u inst then (.ok, answer 0 s)
  else match reach (unitDomain s u inst) s with
  | (.err, s) => (.busError, s)
  | (.wait, s) => (.wait, s)
  | (.go, s) => (.ok, unitRead i u inst off s)

end Sys2Proof.Machine
end

