-- ==== Sys2Proof/Machine/RegWrite.lean ====
section
/-!
DEFINITION. Writes of unit registers, and how a bus error reaches the initiator of an access (01_architecture.md, Address
map; R243 to R247; R640, R641; the register tables of every chapter). A write to a register with no behaviour of its own
replaces its writable fields; an offset without a register ignores writes.
-/
namespace Sys2Proof.Machine
open Sys2Proof

/-- A register written through its row. -/
def rowWrite (u inst off v : Nat) (s : State) : State :=
  match regRow u inst off with
  | none => s
  | some r => regPut u inst off (regMerge r (regGet s u inst off) (BitVec.ofNat 32 v)) s

/-- A write of SYS_CMD_CTRL: the enables under LOCK, LOCK itself, the flushes (R38). -/
def cmdCtrlWrite (v : Nat) (s : State) : State :=
  let locked := regF s uSYS 0 0x110 31 31 = 1
  let s := if locked then s else regPutF uSYS 0 0x110 2 1 (bits v 2 1) s
  let s := if bit v 31 then regPutF uSYS 0 0x110 31 31 1 s else s
  let s := if bit v 3 then flushOp .pcie s else s
  let s := if bit v 4 then flushOp .eth s else s
  if bit v 5 then flushOp .uart s else s

/-- A write of SYS_PLL_SSC_k (R662). -/
def sscWrite (k v : Nat) (s : State) : State :=
  let off := 0x300 + 4 * k
  let old := (regGet s uSYS 0 off).toNat
  let f := bits v 24 16
  let d := bits v 6 0
  if f < 300 ∨ 330 < f ∨ 100 < d ∨ (bit old 31 ∧ (f ≠ bits old 24 16 ∨ d ≠ bits old 6 0)) then s
  else rowWrite uSYS 0 off v s

/-- SYS. -/
def sysWrite (off v : Nat) (s : State) : State :=
  if off = 0x100 then doorbellOp (v % 2048) s
  else if off = 0x110 then cmdCtrlWrite v s
  else if 0x114 ≤ off ∧ off ≤ 0x11C ∧ regF s uSYS 0 0x110 31 31 = 1 then s
  else if 0x300 ≤ off ∧ off < 0x310 then sscWrite ((off - 0x300) / 4) v s
  else if 0x1000 ≤ off ∧ off < 0x2000 then
    { s with cmd := { s.cmd with reqWindow := spSet 0 s.cmd.reqWindow ((off - 0x1000) / 4) (BitVec.ofNat 32 v) } }
  else rowWrite uSYS 0 off v s

/-- WEFT. The result of a self-test is a free value. -/
def weftWrite (n off v : Nat) (s : State) : State :=
  if off = 0x004 then
    let s := rtrCfgWrite n v s
    if bit v 0 then
      let (f, s) := draw s
      bistOp n (bit f 0) s
    else s
  else if off = 0x014 then routeOp n v s
  else if off = 0x088 then gwWinWrite n v s
  else rowWrite uWEFT n off v s

/-- Extension cells are neither allocated, queued nor quarantined (R476). -/
def extFree (s : State) : Bool := usedExt s == 0

/-- SPOOL, as initiator `i` writes it. -/
def spoolWrite (i : Initiator) (off v : Nat) (s : State) : State :=
  let c := ctx s i
  let qn := regF s uSPOOL 0 0x080 15 0
  let cn := regF s uSPOOL 0 0x0A0 9 0
  if off = 0x008 ∨ off = 0x00C then (if extFree s then rowWrite uSPOOL 0 off v s else s)
  else if off = 0x010 then (if extFree s ∧ v % 2 ^ 28 ≤ 268173312 then rowWrite uSPOOL 0 off v s else s)
  else if off = 0x040 then ctxPut i { c with queue := v % 2 ^ 16 } s
  else if off = 0x044 then ctxPut i { c with len := v % 2 ^ 24 } s
  else if off = 0x04C then ctxPut i { c with notifyValid := bit v 31, notifyTask := v % 2 ^ 16 } s
  else if off = 0x054 then spoolEnqOp i v s
  else if off = 0x05C then spoolFreeOp i v s
  else if off = 0x060 then ctxPut i { c with cell := v % 2 ^ 28 } s
  else if off = 0x084 then queuePut qn { queue s qn with en := bit v 31, maxCells := v % 2 ^ 28 } s
  else if off = 0x088 then
    (if bits v 31 30 = 3 then s else queuePut qn { queue s qn with notifyKind := bits v 31 30, notifyTarget := v % 2 ^ 16 } s)
  else if off = 0x0A4 then
    let x := compat s cn
    let d := v % 32
    let s := if x.en ∨ d < 4 ∨ 16 < d then s else compatPut cn { x with depthLog2 := d } s
    cqEnableOp cn (bit v 31) (poolHeld s) s
  else if off = 0x0A8 then (if bit v 31 then compatPut cn { compat s cn with overflow := false } s else s)
  else if 0x8000 ≤ off then
    let k := (off - 0x8000) / 0x20
    let w := off % 0x20
    let x := compat s k
    let v32 : W32 := BitVec.ofNat 32 v
    if w = 0x00 then compatPut k { x with push := { x.push with w0 := v32 } } s
    else if w = 0x04 then compatPut k { x with push := { x.push with w1 := v32 } } s
    else if w = 0x08 then compatPut k { x with push := { x.push with w2 := v32 } } s
    else if w = 0x0C then cqPushOp k v32 s
    else s
  else rowWrite uSPOOL 0 off v s

/-- Every task slot is FREE. -/
def slotsFree (s : State) : Bool := s.shuttle.slots.all fun e => e.2.st == .free

/-- SHUTTLE; the table base holds while a slot is not FREE, a RETURN_SLACK below MARGIN is not taken, and a write of
SHUTTLE_BEAM_PUT waits while Beam is full (R198). -/
def shuttleWrite (i : Initiator) (off v : Nat) (s : State) : Bus × State :=
  if off = 0x000 then (.ok, serviceReqOp (v % 4) (rowWrite uSHUTTLE 0 off v s))
  else if off = 0x008 ∨ off = 0x00C then (.ok, if slotsFree s then rowWrite uSHUTTLE 0 off v s else s)
  else if off = 0x010 then (.ok, if bits v 31 16 < bits v 15 0 then s else rowWrite uSHUTTLE 0 off v s)
  else if off = 0x014 then
    let s := if bits v 31 24 < 2 then s else regPutF uSHUTTLE 0 0x014 31 24 (bits v 31 24) s
    (.ok, if bits v 15 0 = 0 then s else regPutF uSHUTTLE 0 0x014 15 0 (bits v 15 0) s)
  else if off = 0x020 then (if armWaits (v % 2 ^ 16) s then .wait else .ok, armOp (v % 2 ^ 16) s)
  else if off = 0x024 then (.ok, if bits v 27 16 = 0 then s else notify (v % 2 ^ 16) (bits v 27 16) i s)
  else if off = 0x028 then
    match beamPutOp i v s with
    | (true, s) => (.ok, s)
    | (false, s) => (.wait, s)
  else (.ok, rowWrite uSHUTTLE 0 off v s)

/-- A write of a DMA channel's configuration, each field by its own rule. -/
def dmaCfgWrite (ch v : Nat) (s : State) : State :=
  let x := dmaCh s ch
  let m := bits v 26 16
  dmaPut ch { x with
    maxReads := if m = 0 ∨ 1024 < m then x.maxReads else m
    tasksEn := bit v 4
    cls := if v % 4 = 0 then x.cls else v % 4 } s

/-- A DMA complex. -/
def dmaWrite (inst off v : Nat) (s : State) : State :=
  if off < 0x1000 then rowWrite uDMA inst off v s
  else if 0x2000 ≤ off then s
  else
    let ch := 16 * inst + (off - 0x1000) / 0x100
    let r := off % 0x100
    let x := dmaCh s ch
    if r = 0x00 then dmaCfgWrite ch v s
    else if r = 0x04 then
      dmaPut ch { x with shadowLocked := x.shadowLocked && !bit v 23, programError := x.programError && !bit v 22 } s
    else if r = 0x08 then
      let s := if bit v 31 then dmaPut ch { x with armed := true } s else s
      if bit v 30 then dmaAbort ch s else s
    else if 0x20 ≤ r ∧ r ≤ 0x30 ∧ r % 4 = 0 then dmaShadow ch ((r - 0x20) / 4) v s
    else s

/-- A write of MEM_POOL (R454, R494). -/
def memPoolWrite (v : Nat) (s : State) : State :=
  let n := v % 512
  let busy := [(2, 1), (2, 2), (4, 1), (4, 2)].any fun t => !(activeOf s t.1 t.2).isEmpty
  if busy ∨ tagRegBase s < n * 2 ^ 30 ∨ n * 2 ^ 30 < ringBytes s then s else rowWrite uMEM 0 0x080 v s

/-- MEM. A flip register ignores writes while its flip is armed (R473). -/
def memWrite (ch off v : Nat) (s : State) : State :=
  if off = 0x010 then
    let s := regPutF uMEM ch 0x010 5 0 (bits v 5 0) s
    if bits v 31 24 = 0 then s else regPutF uMEM ch 0x010 31 24 (bits v 31 24) s
  else if off = 0x028 then memRepairOp ch v s
  else if off = 0x080 ∧ ch = 0 then memPoolWrite v s
  else if 0x040 ≤ off ∧ off ≤ 0x070 ∧ regF s uMEM ch 0x070 31 31 = 1 then s
  else rowWrite uMEM ch off v s

/-- DOORBELL set in the named cores of a crew (R230). -/
def doorbellRing (n mask : Nat) (s : State) : State :=
  (List.range 8).foldl (fun s k =>
    if bit mask k then wakeWfi (8 * n + k) (corePut (8 * n + k) { core s (8 * n + k) with doorbell := true } s) else s) s

/-- A core of a crew reset by CORE_RESET (R261); a core held in reset stays so (R82, R263). -/
def coreResetBit (c : Nat) (s : State) : State := if (core s c).run = .reset then s else coreResetOp c false id s

/-- The cores of a crew that a write of CREW_CTRL resets. -/
def resetCores (n v : Nat) (s : State) : List Nat :=
  ((List.range 8).filter fun k => bit v (8 + k)).map (8 * n + ·) |>.filter fun c => (core s c).run != .reset

/-- An initiator that may write CREW_BANK_OWNER_b (R244). -/
def mayHandOver (i : Initiator) (n : Nat) : Bool :=
  match coreOf i with
  | some c => c / 8 == n
  | none => i.unit.toNat == uPCIE || i.unit.toNat == uSYS

/-- An owner code that crew `n` may be given (R244). -/
def ownerOk (n v : Nat) : Bool :=
  v ≤ 0x08 || (0x10 ≤ v && v ≤ 0x4F) || (0x50 ≤ v && v ≤ 0xAF && (v - 0x50) / 8 != n) || v == 0xC0 || v == 0xFF

/-- The pending owner of a bank takes effect, and the writes of it return their responses (R245). -/
def bankCommit (n b : Nat) (s : State) : State :=
  match spFind s.bankPend (32 * n + b) with
  | some p => regPutF (uCREW + n) crewCtl (0x100 + 4 * b) 7 0 p
      { s with bankPend := spDel s.bankPend (32 * n + b)
               cores := s.cores.map fun e => (e.1, { e.2 with
                 regWait := if e.2.regWait = some (32 * n + b) then none else e.2.regWait }) }
  | none => s

/-- A write of CREW_BANK_OWNER_b (R244 to R247); `outstanding` when the old owner still has accesses under way. A core's
write that waits has not returned its response (R238, R245). -/
def bankOwnerWrite (i : Initiator) (n b v : Nat) (outstanding : Bool) (s : State) : Bus × State :=
  let code := v % 256
  if !mayHandOver i n ∨ !ownerOk n code then (.busError, s)
  else
    let pending := (spFind s.bankPend (32 * n + b)).isSome
    let s := { s with bankPend := spPut s.bankPend (32 * n + b) code }
    (.ok, if outstanding ∨ pending then
        match coreOf i with
        | some c => corePut c { core s c with regWait := some (32 * n + b) } s
        | none => s
      else bankCommit n b s)

/-- A crew's control block; the cores' debug registers are read only. CREW_BOOT_VEC has its copy in always-on storage
(R605); a bank group's flip registers ignore writes while armed (R473). -/
def crewWrite (i : Initiator) (n inst off v : Nat) (s : State) : Bus × State :=
  let u := uCREW + n
  if inst ≠ crewCtl then (.ok, s)
  else if off = 0x000 then
    if (resetCores n v s).any fun c => resetWaits c s then (.wait, (resetCores n v s).foldl (fun s c => resetFlush c s) s)
    else (.ok, (resetCores n v s).foldl (fun s c => coreResetBit c s) s)
  else if off = 0x00C ∨ off = 0x010 then
    let s := rowWrite u crewCtl off v s
    (.ok, powerMod (fun (p : Power) => { p with bootVec := spSet 0 p.bootVec n (bootVec s n).toNat }) s)
  else if off = 0x014 then (.ok, doorbellRing n (v % 256) s)
  else if off = 0x028 then
    match retentionAck i n v s with
    | (true, s) => (.ok, s)
    | (false, s) => (.busError, s)
  else if 0x100 ≤ off ∧ off < 0x180 then bankOwnerWrite i n ((off - 0x100) / 4) v false s
  else if 0x200 ≤ off ∧ off < 0x300 ∧ regF s u crewCtl (0x228 + (off - 0x200) / 0x40 * 0x40) 31 31 = 1 then (.ok, s)
  else (.ok, rowWrite u crewCtl off v s)

/-- AUDIO; QUEUE of AUDIO_PARAM_Q holds while EN is 1. -/
def audioWrite (off v : Nat) (s : State) : State :=
  if off = 0x004 ∧ regF s uAUDIO 0 0x004 31 31 = 1 then regPutF uAUDIO 0 0x004 31 31 (bits v 31 31) s
  else
    let s := rowWrite uAUDIO 0 off v s
    if off = 0x00C ∧ bit v 0 then audioClear s else s

/-- FWD; a queue holds while its EN is 1, the stream base while a leg exists or an encoder runs. -/
def fwdWrite (off v : Nat) (s : State) : State :=
  if off = 0x000 then
    if 65024 < v % 2 ^ 16 ∨ !s.video.fwd.legs.isEmpty ∨ (activeVideo s).any (fun e => vKind e.2 == 1) then s
    else rowWrite uFWD 0 0x000 v s
  else if (off = 0x004 ∨ off = 0x008) ∧ regF s uFWD 0 off 31 31 = 1 then regPutF uFWD 0 off 31 31 (bits v 31 31) s
  else
    let s := rowWrite uFWD 0 off v s
    if off = 0x010 ∧ bit v 0 then fwdClear s else s

/-- HSP: writes that clear a mute are ignored while every output is off (R378), a debounce of 0 is ignored. -/
def hspWrite (p off v : Nat) (s : State) : State :=
  if off = 0x004 then
    let old := (regGet s uHSP p 0x004).toNat
    let v := if outputsOff s then Nat.lor v (old % 4) else v
    rowWrite uHSP p 0x004 v s
  else if off = 0x008 then
    [(31, 24), (23, 16), (15, 8)].foldl (fun s f =>
      if bits v f.1 f.2 = 0 then s else regPutF uHSP p 0x008 f.1 f.2 (bits v f.1 f.2) s) s
  else rowWrite uHSP p off v s

/-- FABRIC, its pins and ports. -/
def fabricWrite (off v : Nat) (s : State) : State :=
  if 0x040 ≤ off ∧ off < 0x050 then oscWrite ((off - 0x040) / 4) v s
  else if off = 0x050 then coxClkWrite v s
  else if 0x0810 ≤ off ∧ off < 0x0820 then pinSetClr ((off - 0x0810) / 4) v true s
  else if 0x0820 ≤ off ∧ off < 0x0830 then pinSetClr ((off - 0x0820) / 4) v false s
  else if 0x1000 ≤ off ∧ off < 0x1200 then pinCfgWrite ((off - 0x1000) / 4) v s
  else if 0x2000 ≤ off ∧ off < 0x2180 ∧ off % 0x20 = 0x00 then spCfgWrite ((off - 0x2000) / 0x20) v s
  else if 0x2000 ≤ off ∧ off < 0x2180 ∧ off % 0x20 = 0x08 then spTx ((off - 0x2000) / 0x20) v s
  else rowWrite uFABRIC 0 off v s

/-- A register of a present unit written by initiator `i`. -/
def unitWrite (i : Initiator) (u inst off v : Nat) (s : State) : Bus × State :=
  if u = uSYS then (.ok, sysWrite off v s)
  else if u = uWEFT then (.ok, weftWrite inst off v s)
  else if u = uSPOOL then (.ok, spoolWrite i off v s)
  else if u = uSHUTTLE then shuttleWrite i off v s
  else if u = uDMA then (.ok, dmaWrite inst off v s)
  else if u = uMEM then (.ok, memWrite inst off v s)
  else if 0x10 ≤ u ∧ u ≤ 0x1B then crewWrite i (u - 0x10) inst off v s
  else if u = uFRONTHAUL then
    (.ok, if off = 0x008 ∧ bit v 0 then fhClearAll (rowWrite uFRONTHAUL 0 off v s) else rowWrite uFRONTHAUL 0 off v s)
  else if u = uCSS then
    (.ok, if off = 0x018 ∧ bit v 0 then cssClear inst (rowWrite uCSS inst off v s) else rowWrite uCSS inst off v s)
  else if u = uAUDIO then (.ok, audioWrite off v s)
  else if u = uFWD then (.ok, fwdWrite off v s)
  else if u = uLANE then
    (.ok, if off = 0x004 then laneCtrlWrite inst v s else if off = 0x024 then eqWrite inst v s else rowWrite uLANE inst off v s)
  else if u = uETH then (.ok, if off = 0x000 then ethCfgWrite inst v s else rowWrite uETH inst off v s)
  else if u = uFABRIC then (.ok, fabricWrite off v s)
  else if u = uPOWER then
    (.ok, if 0x100 ≤ off ∧ off < 0x360 ∧ off % 0x10 = 4 then domCtrlWrite ((off - 0x100) / 0x10) v s
      else rowWrite uPOWER 0 off v s)
  else if u = uHSP then (.ok, hspWrite inst off v s)
  else (.ok, rowWrite u inst off v s)

/-- A write of a register by an initiator (R3, R20). -/
def regWrite (i : Initiator) (u inst off v : Nat) (s : State) : Bus × State :=
  if unitInstances u ≤ inst ∨ off % 4 ≠ 0 then (.busError, s)
  else if !unitPresent s.part u inst then (.ok, s)
  else match reach (unitDomain s u inst) s with
  | (.err, s) => (.busError, s)
  | (.wait, s) => (.wait, s)
  | (.go, s) => unitWrite i u inst off v s

/-- A bus error that answers a write goes to its initiator alone: a core's store after it has retired (R232), a posted
write of the host (R641). -/
def writeError (i : Initiator) (a : Nat) (s : State) : State :=
  match coreOf i with
  | some c => storeErrorOp c a s
  | none =>
    if i.unit.toNat = uPCIE then raiseLim second 0 0x2B01 uPCIE 0 1 (zeros 8 ++ leBytes 8 a) s else s

/-- The address of a register. -/
def regAddr (u inst off : Nat) : Nat := regBase + regKey u inst off

/-- A write of a register as an access of its own; one whose access waits has not happened. -/
def registerWrite (i : Initiator) (u inst off v : Nat) (s : State) : State :=
  match regWrite i u inst off v s with
  | (.ok, s) => s
  | (.wait, s) => s
  | (_, s) => writeError i (regAddr u inst off) s

end Sys2Proof.Machine
end

