-- ==== Sys2Proof/Machine/CpuMem.lean ====
section
/-!
DEFINITION. The loads and stores of a crew core (06_crew_cores.md, Loads, stores and control transfer; Caches and ordering;
R217, R218, R232 to R241, R257, R259).
-/
namespace Sys2Proof.Machine
open Sys2Proof

/-- A dirty line of the core's data cache holds the address. -/
def dirtyAt (s : State) (c a : Nat) : Bool := (core s c).dcache.any fun l => l.addr == a / 64 * 64 && l.dirty

/-- A load goes through the data cache: its address is cacheable, or the core's own cache holds a later store to it
(R234, R236). -/
def loadCached (s : State) (c a : Nat) : Bool := cacheable (core s c) c a || dirtyAt s c a

/-- Bytes stored through the data cache: a hit writes the line, a miss or a clean line under R240 first reads the whole
line (R233); a bus error of the fill stores nothing. -/
def cacheStore (c a : Nat) (bs : Bytes) (s : State) : Bus × State :=
  if dirtyAt s c a then (.ok, lineStore c a bs s)
  else match fillLine c (a / 64 * 64) s with
  | (.ok, s) => (.ok, lineStore c a bs s)
  | (r, s) => (r, s)

/-- What a store that went past the cache leaves in it: later loads of the core see the stored bytes (R236). -/
def lineSync (c a : Nat) (bs : Bytes) (s : State) : State :=
  if dirtyAt s c a then lineStore c a bs s else invalLine c (a / 64 * 64) s

/-- The `n` bytes a core's load finds at an aligned address. It waits for a write-back of the line under way (R236), and a
register access for the response of the register write before it (R238). -/
def dataRead (c a n : Nat) (s : State) : Bus × Bytes × State :=
  match regionOf a with
  | .nothing => (.busError, [], s)
  | .aliasW _ _ _ => (.busError, [], s)
  | .reg u inst off =>
    if (core s c).regWait.isSome then (.wait, [], s)
    else if n = 4 then
      match regRead (coreInit c) u inst off s with
      | (.ok, s) => (.ok, leBytes 4 s.rdata, s)
      | (r, s) => (r, [], s)
    else (.busError, [], s)
  | _ =>
    if loadCached s c a then
      match fillLine c (a / 64 * 64) s with
      | (.ok, s) => (.ok, lineBytes s c a n, s)
      | (r, s) => (r, [], s)
    else if lineWaits s c a then (.wait, [], s)
    else
      match readBytes (coreInit c) a n s with
      | (r, b, _, s) => (r, b, s)

/-- A scalar load of `n` bytes. -/
def loadOp (c : Fin 96) (rd rs1 : Fin 32) (imm : BitVec 16) (n : Nat) (signed : Bool) (s : State) : Res :=
  onCoreR c (fun _ x s =>
    let a := (effAddr x rs1 imm).toNat
    if a % n ≠ 0 then (true, exception c exMISALIGNED a s)
    else match dataRead c a n s with
    | (.ok, b, s) => (true, writeS c rd (loadValue signed b) s)
    | (.wait, _, s) => (false, s)
    | (_, _, s) => (true, exception c exLOAD a s)) s

/-- A store retired whose write is answered with a bus error (R232). -/
def storeFailed (c a : Nat) (s : State) : State := storeErrorOp c a (corePut c (retire (core s c)) s)

/-- A store ended as its write was answered. -/
def storeEnd (c a : Nat) (r : Bus) (s : State) : Bool × State :=
  match r with
  | .ok => (true, corePut c (retire (core s c)) s)
  | .wait => (false, s)
  | _ => (true, storeFailed c a s)

/-- A scalar store of the low `n` bytes of rs2. A store waits for the hand-overs before it (R304), and one to register
space or the outbound window for the response of the register write before it (R238). -/
def storeOp (c : Fin 96) (rs2 rs1 : Fin 32) (imm : BitVec 16) (n : Nat) (s : State) : Res :=
  onCoreR c (fun _ x s =>
    let a := (effAddr x rs1 imm).toNat
    let bs := leBytes n (getS x rs2).toNat
    if a % n ≠ 0 then (true, exception c exMISALIGNED a s)
    else match regionOf a with
    | .nothing => (true, exception c exSTORE_ADDR a s)
    | .aliasW set crew off =>
      if storeHeld x || lineWaits s c (a - (if set then setAlias else clrAlias)) then (false, s)
      else
        let (r, s) := aliasStore (coreInit c) set crew off bs s
        storeEnd c a r s
    | .reg u inst off =>
      if storeHeld x || x.regWait.isSome then (false, s)
      else if n = 4 then
        match regWrite (coreInit c) u inst off (leNat bs) (corePut c (retire x) s) with
        | (.ok, s) => (true, s)
        | (.wait, s) => (false, corePut c { core s c with pc := x.pc, lastPc := x.lastPc } s)
        | (_, s) => (true, storeErrorOp c a s)
      else storeEnd c a .busError s
    | .outbound _ =>
      if storeHeld x || x.regWait.isSome then (false, s)
      else
        let (r, _, s) := writeBytes (coreInit c) a bs s
        storeEnd c a r s
    | _ =>
      if !cacheable x c a then (true, exception c exNARROW a s)
      else if storeHeld x then (false, s)
      else match cacheStore c a bs s with
      | (.ok, s) => (true, corePut c (retire (core s c)) s)
      | (.wait, s) => (false, s)
      | (_, s) => (true, exception c exLOAD a s)) s

/-- LB: rd := one byte, sign-extended at rs1 + sext(imm16) (R217, R218). -/
def execLb (c : Fin 96) (rd : Fin 32) (rs1 : Fin 32) (imm : BitVec 16) (s : State) : Res :=
  loadOp c rd rs1 imm 1 true s

/-- LBU: rd := one byte, zero-extended at rs1 + sext(imm16) (R217, R218). -/
def execLbu (c : Fin 96) (rd : Fin 32) (rs1 : Fin 32) (imm : BitVec 16) (s : State) : Res :=
  loadOp c rd rs1 imm 1 false s

/-- LH: rd := two bytes, sign-extended at rs1 + sext(imm16) (R217, R218). -/
def execLh (c : Fin 96) (rd : Fin 32) (rs1 : Fin 32) (imm : BitVec 16) (s : State) : Res :=
  loadOp c rd rs1 imm 2 true s

/-- LHU: rd := two bytes, zero-extended at rs1 + sext(imm16) (R217, R218). -/
def execLhu (c : Fin 96) (rd : Fin 32) (rs1 : Fin 32) (imm : BitVec 16) (s : State) : Res :=
  loadOp c rd rs1 imm 2 false s

/-- LW: rd := four bytes, sign-extended at rs1 + sext(imm16) (R217, R218). -/
def execLw (c : Fin 96) (rd : Fin 32) (rs1 : Fin 32) (imm : BitVec 16) (s : State) : Res :=
  loadOp c rd rs1 imm 4 true s

/-- LWU: rd := four bytes, zero-extended at rs1 + sext(imm16) (R217, R218). -/
def execLwu (c : Fin 96) (rd : Fin 32) (rs1 : Fin 32) (imm : BitVec 16) (s : State) : Res :=
  loadOp c rd rs1 imm 4 false s

/-- LD: rd := eight bytes at rs1 + sext(imm16) (R217, R218). -/
def execLd (c : Fin 96) (rd : Fin 32) (rs1 : Fin 32) (imm : BitVec 16) (s : State) : Res :=
  loadOp c rd rs1 imm 8 false s

/-- SB: stores the low 1 byte of rs2 at rs1 + sext(imm16) (R217, R259). -/
def execSb (c : Fin 96) (rs2 : Fin 32) (rs1 : Fin 32) (imm : BitVec 16) (s : State) : Res :=
  storeOp c rs2 rs1 imm 1 s

/-- SH: stores the low 2 bytes of rs2 at rs1 + sext(imm16) (R217, R259). -/
def execSh (c : Fin 96) (rs2 : Fin 32) (rs1 : Fin 32) (imm : BitVec 16) (s : State) : Res :=
  storeOp c rs2 rs1 imm 2 s

/-- SW: stores the low 4 bytes of rs2 at rs1 + sext(imm16) (R217, R259). -/
def execSw (c : Fin 96) (rs2 : Fin 32) (rs1 : Fin 32) (imm : BitVec 16) (s : State) : Res :=
  storeOp c rs2 rs1 imm 4 s

/-- SD: stores the low 8 bytes of rs2 at rs1 + sext(imm16) (R217, R259). -/
def execSd (c : Fin 96) (rs2 : Fin 32) (rs1 : Fin 32) (imm : BitVec 16) (s : State) : Res :=
  storeOp c rs2 rs1 imm 8 s

end Sys2Proof.Machine
end

