-- ==== Sys2Proof/Machine/Fp.lean ====
section
/-!
DEFINITION. Binary32 arithmetic of the vector unit: rounding by RMODE with no round-to-nearest, FTZ, and the sticky
conditions of VSTAT (07_vector.md, R271, R274, R275).
-/
namespace Sys2Proof.Machine
open Sys2Proof

/-- VSTAT's sticky bits. -/
abbrev fSAT : Nat := 0x40
abbrev fAOV : Nat := 0x20
abbrev fNV : Nat := 8
abbrev fOF : Nat := 4
abbrev fUF : Nat := 2
abbrev fNX : Nat := 1

/-- The rounding modes of VFXM.RMODE. -/
inductive RMode where
  | rdn | rtz | rup | rod
  deriving DecidableEq, Repr

/-- RMODE's codes. -/
def rmodeOf : Nat → RMode
  | 0 => .rdn | 1 => .rtz | 2 => .rup | _ => .rod

/-- A binary32 value: a NaN (signalling or not), an infinity, or (−1)^neg × m × 2^e. -/
inductive Fv where
  | nan (signalling : Bool)
  | inf (neg : Bool)
  | fin (neg : Bool) (m : Nat) (e : Int)
  deriving DecidableEq, Repr

/-- The value of a binary32 word; under FTZ a subnormal input is a zero of its sign. -/
def fpDecode (ftz : Bool) (w : Nat) : Fv :=
  let neg := bit w 31
  let ex := bits w 30 23
  let fr := bits w 22 0
  if ex = 255 then (if fr = 0 then .inf neg else .nan (!bit fr 22))
  else if ex = 0 then .fin neg (if ftz then 0 else fr) (-149)
  else .fin neg (2 ^ 23 + fr) ((ex : Int) - 150)

/-- The NaN an operation generates (R274). -/
abbrev genNan : Nat := 0x7FC00000

/-- The quiet NaN an operation with a NaN operand returns; its sign and payload are left open. -/
def passNan (a b d : Nat) : Nat := Nat.lor (Config.nanPayload a b d).toNat genNan

/-- A zero of a sign. -/
def fpZero (neg : Bool) : Nat := if neg then 0x80000000 else 0

/-- An infinity of a sign. -/
def fpInf (neg : Bool) : Nat := fpZero neg + 0x7F800000

/-- Whether a magnitude `mant` with a non-zero remainder is rounded away from zero. ROD rounds to the odd neighbour. -/
def roundsAway (rm : RMode) (neg : Bool) (mant : Nat) : Bool :=
  match rm with
  | .rdn => neg
  | .rtz => false
  | .rup => !neg
  | .rod => mant % 2 == 0

/-- `num × 2^e`, `num` not 0, rounded to `q`'s multiple 2^q: the multiple and whether it is inexact. -/
def quantize (rm : RMode) (neg : Bool) (num : Nat) (sticky : Bool) (e q : Int) : Nat × Bool :=
  let (mant, inexact) :=
    if q ≤ e then (num * 2 ^ (e - q).toNat, sticky)
    else (num / 2 ^ (q - e).toNat, sticky || num % 2 ^ (q - e).toNat != 0)
  (if inexact && roundsAway rm neg mant then mant + 1 else mant, inexact)

/-- A non-zero exact value (plus an amount below one unit of `num` when `sticky`) as a binary32 word and its
conditions. -/
def fpRound (rm : RMode) (ftz neg : Bool) (num : Nat) (sticky : Bool) (e : Int) : Nat × Nat :=
  let len : Int := Nat.log2 num + 1
  let q : Int := if len + e - 24 < -149 then -149 else len + e - 24
  let (m0, inexact) := quantize rm neg num sticky e q
  let (m, q) := if m0 = 2 ^ 24 then (2 ^ 23, q + 1) else (m0, q)
  let tinyBefore := decide (len + e ≤ -126)
  let tinyAfter := tinyBefore &&
    !(decide (len + e = -126) && (quantize rm neg num sticky e (len + e - 24)).1 == 2 ^ 24)
  let tiny := if Config.tinyAfterRounding then tinyAfter else tinyBefore
  if q > 104 then
    let toInf := match rm with
      | .rup => !neg
      | .rdn => neg
      | _ => false
    (if toInf then fpInf neg else fpZero neg + 0x7F7FFFFF, fOF + fNX)
  else if m < 2 ^ 23 then
    if ftz then (fpZero neg, fUF + fNX)
    else (fpZero neg + m, if tiny && inexact then fUF + fNX else b2n inexact * fNX)
  else
    (fpZero neg + (q + 150).toNat * 2 ^ 23 + (m - 2 ^ 23),
      if tiny && inexact then fUF + fNX else b2n inexact * fNX)

/-- The sign of an exact zero sum of terms of both signs: minus when rounding toward minus infinity, and under ROD,
which is computed as RDN. -/
def zeroSign (rm : RMode) : Bool :=
  match rm with
  | .rdn => true | .rod => true | _ => false

/-- The exact product of two values; `none` for an invalid one (0 × ∞). -/
def fpProd (a b : Fv) : Option Fv :=
  match a, b with
  | .nan x, .nan y => some (.nan (x || y))
  | .nan x, _ => some (.nan x)
  | _, .nan y => some (.nan y)
  | .inf p, .inf q => some (.inf (p != q))
  | .inf p, .fin q m _ => if m = 0 then none else some (.inf (p != q))
  | .fin p m _, .inf q => if m = 0 then none else some (.inf (p != q))
  | .fin p m e, .fin q n f => some (.fin (p != q) (m * n) (e + f))

/-- The exact sum of finite terms as an integer multiple of 2^lo. -/
def finSum (lo : Int) (ts : List Fv) : Int :=
  ts.foldl (fun acc t => match t with
    | .fin neg m e => acc + (if neg then -1 else 1) * ((m : Int) * (2 : Int) ^ (e - lo).toNat)
    | _ => acc) 0

/-- The least exponent among finite terms. -/
def lowExp (ts : List Fv) : Int :=
  ts.foldl (fun acc t => match t with
    | .fin _ _ e => if e < acc then e else acc
    | _ => acc) 200

/-- The sum of exact terms rounded once. `bad`: a term was invalid. `nan` is what a NaN operand makes of the result. -/
def fpSum (rm : RMode) (ftz : Bool) (nan : Nat) (bad : Bool) (ts : List Fv) : Nat × Nat :=
  let isNan := ts.any fun t => match t with
    | .nan _ => true
    | _ => false
  let isSig := ts.any fun t => match t with
    | .nan g => g
    | _ => false
  let pInf := ts.contains (.inf false)
  let nInf := ts.contains (.inf true)
  if isNan then (nan, if isSig || bad then fNV else 0)
  else if bad || (pInf && nInf) then (genNan, fNV)
  else if pInf then (fpInf false, 0)
  else if nInf then (fpInf true, 0)
  else
    let lo := lowExp ts
    let v := finSum lo ts
    if v = 0 then
      let neg := fun t => match t with
        | Fv.fin n _ _ => n
        | _ => false
      let zeros := ts.all fun t => match t with
        | .fin _ m _ => m == 0
        | _ => false
      (fpZero (if zeros && ts.all neg then true
               else if zeros && ts.all (fun t => !neg t) then false else zeroSign rm), 0)
    else fpRound rm ftz (v < 0) v.natAbs false lo

/-- A value with its sign changed. -/
def fpNeg : Fv → Fv
  | .nan g => .nan g
  | .inf n => .inf (!n)
  | .fin n m e => .fin (!n) m e

/-- A sum of products of words, some negated, and further terms, rounded once. -/
def fpDot (rm : RMode) (ftz : Bool) (nan : Nat) (prods : List (Bool × Nat × Nat)) (terms : List Nat) : Nat × Nat :=
  let ps := prods.map fun p => (p.1, fpProd (fpDecode ftz p.2.1) (fpDecode ftz p.2.2))
  let bad := ps.any fun p => p.2.isNone
  let ts := ps.filterMap fun p => match p.2 with
    | some v => some (if p.1 then fpNeg v else v)
    | none => none
  fpSum rm ftz nan bad (ts ++ terms.map (fpDecode ftz))

/-- a + b. -/
def fpAdd (rm : RMode) (ftz : Bool) (a b : Nat) : Nat × Nat := fpDot rm ftz (passNan a b 0) [] [a, b]

/-- a − b. -/
def fpSub (rm : RMode) (ftz : Bool) (a b : Nat) : Nat × Nat :=
  fpSum rm ftz (passNan a b 0) false [fpDecode ftz a, fpNeg (fpDecode ftz b)]

/-- a × b. -/
def fpMul (rm : RMode) (ftz : Bool) (a b : Nat) : Nat × Nat := fpDot rm ftz (passNan a b 0) [(false, a, b)] []

/-- d + a × b, rounded once. -/
def fpFma (rm : RMode) (ftz : Bool) (d a b : Nat) : Nat × Nat := fpDot rm ftz (passNan a b d) [(false, a, b)] [d]

/-- An ordering of non-NaN values: −1, 0 or 1; the two zeros compare equal. -/
def fpCmp (a b : Fv) : Int :=
  let s := fun (v : Int) => if v < 0 then -1 else if v = 0 then 0 else (1 : Int)
  match a, b with
  | .inf p, .inf q => if p = q then 0 else if p then -1 else 1
  | .inf p, _ => if p then -1 else 1
  | _, .inf q => if q then 1 else -1
  | a, b => s (finSum (lowExp [a, b]) [a] - finSum (lowExp [a, b]) [b])

/-- A value is a NaN, and whether it signals. -/
def fpIsNan (v : Fv) : Option Bool :=
  match v with
  | .nan g => some g
  | _ => none

/-- A word as FTZ leaves an operand that is returned. -/
def fpFlush (ftz : Bool) (w : Nat) : Nat :=
  if ftz && bits w 30 23 == 0 then fpZero (bit w 31) else w

/-- The lesser (or greater) of two words; −0 lies below +0 (R274). -/
def fpMinMax (max ftz : Bool) (a b : Nat) : Nat × Nat :=
  let x := fpDecode ftz a
  let y := fpDecode ftz b
  match fpIsNan x, fpIsNan y with
  | some g, some h => (passNan a b 0, if g || h then fNV else 0)
  | some g, none => (fpFlush ftz b, if g then fNV else 0)
  | none, some h => (fpFlush ftz a, if h then fNV else 0)
  | none, none =>
    let k := fpCmp x y
    let aLow := k < 0 || (k == 0 && bit a 31)
    (fpFlush ftz (if aLow != max then a else b), 0)

/-- a = b; only a signalling NaN sets NV. -/
def fpEq (ftz : Bool) (a b : Nat) : Bool × Nat :=
  let x := fpDecode ftz a
  let y := fpDecode ftz b
  match fpIsNan x, fpIsNan y with
  | none, none => (fpCmp x y == 0, 0)
  | g, h => (false, if g == some true || h == some true then fNV else 0)

/-- a < b; any NaN sets NV. -/
def fpLt (ftz : Bool) (a b : Nat) : Bool × Nat :=
  let x := fpDecode ftz a
  let y := fpDecode ftz b
  match fpIsNan x, fpIsNan y with
  | none, none => (fpCmp x y == -1, 0)
  | _, _ => (false, fNV)

/-- Binary32 to int32 (R275). -/
def fpToInt (rm : RMode) (ftz : Bool) (a : Nat) : Nat × Nat :=
  match fpDecode ftz a with
  | .nan _ => (0, fNV)
  | .inf neg => (if neg then 0x80000000 else 0x7FFFFFFF, fNV)
  | .fin neg m e =>
    if m = 0 then (0, 0)
    else
      let (k, inexact) := quantize rm neg m false e 0
      let v : Int := if neg then -(k : Int) else k
      if satS 32 v ≠ v then (ofS 32 (satS 32 v), fNV) else (ofS 32 v, b2n inexact * fNX)

/-- Int32 to binary32, rounded by RMODE. -/
def fpOfInt (rm : RMode) (a : Nat) : Nat × Nat :=
  let v := toS 32 a
  if v = 0 then (0, 0) else fpRound rm false (v < 0) v.natAbs false 0

/-- An integer square root by bits. -/
def isqrtGo : Nat → Nat → Nat → Nat
  | 0, _, r => r
  | k + 1, n, r => isqrtGo k n (if (r + 2 ^ k) * (r + 2 ^ k) ≤ n then r + 2 ^ k else r)

/-- The integer square root of a number below 2^128. -/
def isqrt (n : Nat) : Nat := isqrtGo 64 n 0

/-- A finite positive word `w` lies within 2^−12 of 1/(m × 2^e), relative: |w × m × 2^e − 1| < 2^−12. -/
def recipNear (w m : Nat) (e : Int) : Bool :=
  match fpDecode false w with
  | .fin false n f =>
    let p := n * m
    let x := e + f
    let k := (if x < 0 then -x else 0).toNat
    let one := 2 ^ (k + 12)
    let v := p * 2 ^ ((x + k).toNat + 12)
    decide ((if v < one then one - v else v - one) < 2 ^ k)
  | _ => false

/-- A finite positive word `w` lies within 2^−12 of 1/√(m × 2^e), relative: w² × m × 2^e between (1 − 2^−12)² and
(1 + 2^−12)². -/
def rsqrtNear (w m : Nat) (e : Int) : Bool :=
  match fpDecode false w with
  | .fin false n f =>
    let p := n * n * m
    let x := e + f + f
    let k := (if x < 0 then -x else 0).toNat
    let v := p * 2 ^ ((x + k).toNat + 24)
    decide (4095 * 4095 * 2 ^ k < v ∧ v < 4097 * 4097 * 2 ^ k)
  | _ => false

/-- VFRECE: an estimate of 1/a with a relative error below 2^−12. The estimate is left open within that bound; where
the device's choice would lie outside it, the rounded quotient stands. -/
def fpRece (rm : RMode) (ftz : Bool) (a : Nat) : Nat × Nat :=
  match fpDecode ftz a with
  | .nan g => (passNan a 0 0, if g then fNV else 0)
  | .inf neg => (fpZero neg, 0)
  | .fin neg m e =>
    if m = 0 then (fpInf neg, 0)
    else
      let q := 2 ^ 60 / m
      let (r, fl) := fpRound rm ftz neg q (2 ^ 60 % m != 0) (-60 - e)
      let est := (Config.recipEstimate (BitVec.ofNat 32 a)).toNat
      if bits r 30 23 != 0 && bits r 30 23 != 255 && bit est 31 == neg && recipNear (est % 2 ^ 31) m e then (est, fNX)
      else (r, fl)

/-- VFRSQE: an estimate of 1/√a with a relative error below 2^−12, left open within that bound. -/
def fpRsqe (rm : RMode) (ftz : Bool) (a : Nat) : Nat × Nat :=
  match fpDecode ftz a with
  | .nan g => (passNan a 0 0, if g then fNV else 0)
  | .inf neg => if neg then (genNan, fNV) else (0, 0)
  | .fin neg m e =>
    if m = 0 then (fpInf neg, 0)
    else if neg then (genNan, fNV)
    else
      let (m, e) := if e % 2 = 0 then (m, e) else (2 * m, e - 1)
      let q := isqrt (2 ^ 100 / m)
      let (r, fl) := fpRound rm ftz false q (q * q * m != 2 ^ 100) (-50 - e / 2)
      let est := (Config.rsqrtEstimate (BitVec.ofNat 32 a)).toNat
      if rsqrtNear est m e then (est, fNX) else (r, fl)

end Sys2Proof.Machine
end

