-- ==== Sys2Proof/Machine/Vec.lean ====
section
/-!
DEFINITION. The vector unit's shapes, groups, masks and element loop, and the operand and exception checks of its
arithmetic (07_vector.md, R265 to R273).
-/
namespace Sys2Proof.Machine
open Sys2Proof

abbrev exVSHAPE : Nat := 0x10
abbrev exVREG : Nat := 0x11
abbrev exVSPACE : Nat := 0x12

/-- What VSHAPE, VCOUNT and VFXM say of one instruction. -/
structure Shape where
  et : Nat
  /-- element width in bits -/
  ew : Nat
  /-- registers in a group -/
  grp : Nat
  count : Nat
  vlmax : Nat
  tailZero : Bool
  maskZero : Bool
  rm : RMode
  ftz : Bool
  deriving DecidableEq, Repr

/-- EW of an element type. -/
def ewOf (et : Nat) : Nat :=
  if et = 0 then 8 else if et = 1 then 16 else if et = 2 ∨ et = 4 ∨ et = 6 then 32 else 64

/-- VLMAX of a VSHAPE value: GROUP × 512 / EW. -/
def vlmaxOf (vshape : Nat) : Nat := 2 ^ bits vshape 7 6 * 512 / ewOf (bits vshape 5 3)

/-- The shape in force at a core. -/
def shapeOf (x : Core) : Shape :=
  let v := x.vshape.toNat
  { et := bits v 5 3, ew := ewOf (bits v 5 3), grp := 2 ^ bits v 7 6, count := x.vcount.toNat, vlmax := vlmaxOf v
    tailZero := bit v 2, maskZero := bit v 1, rm := rmodeOf (bits x.vfxm.toNat 1 0), ftz := bit x.vfxm.toNat 2 }

def isIntT (et : Nat) : Bool := et < 4
def isCintT (et : Nat) : Bool := et == 4 || et == 5
def isCplxT (et : Nat) : Bool := et == 4 || et == 5 || et == 7

/-- The width of one part of an element: half of EW for a complex type. -/
def partW (h : Shape) : Nat := if isCplxT h.et then h.ew / 2 else h.ew

/-- `n` registers from `r` as one number, element 0 lowest (R265). -/
def getGroup (x : Core) (r n : Nat) : Nat :=
  (List.range n).foldr (fun k acc => (x.v.toArray.getD (r + k) 0).toNat + 2 ^ 512 * acc) 0

/-- `n` registers from `r` set from one number. -/
def putGroup (r v : Nat) : Nat → Core → Core
  | 0, x => x
  | n + 1, x => putGroup (r + 1) (v / 2 ^ 512) n { x with v := x.v.setIfInBounds r (BitVec.ofNat 512 v) }

/-- Element `i` of width `w` of a group. -/
def elemAt (g w i : Nat) : Nat := g / 2 ^ (w * i) % 2 ^ w

/-- A group from its elements of width `w`. -/
def fromElems (w : Nat) (es : List Nat) : Nat := es.foldr (fun e acc => e % 2 ^ w + 2 ^ w * acc) 0

/-- Bit `i` of mask register `m`. -/
def maskBit (x : Core) (m : Fin 8) (i : Nat) : Bool := x.m[m].getLsbD i

/-- Element `i` is active under MEN and MSEL. -/
def activeAt (x : Core) (men : Bool) (msel : Fin 8) (i : Nat) : Bool := !men || maskBit x msel i

/-- The generic element loop over `n` elements of width `w` of an old group: active elements take `op`, masked-off ones
below VCOUNT and tail elements up to VLMAX follow their policies; the conditions of active elements gather. -/
def elemLoop (h : Shape) (act : Nat → Bool) (w old : Nat) (op : Nat → Nat × Nat) : Nat × Nat :=
  let rs := (List.range h.vlmax).map fun i =>
    if i < h.count then
      if act i then op i else (if h.maskZero then 0 else elemAt old w i, 0)
    else (if h.tailZero then 0 else elemAt old w i, 0)
  (fromElems w (rs.map (·.1)) + old / 2 ^ (w * h.vlmax) * 2 ^ (w * h.vlmax),
   rs.foldl (fun acc r => Nat.lor acc r.2) 0)

/-- The second operand's element `i`, of width EW: a vector element, the low EW bits of a scalar, or the immediate
sign-extended (with Q = 0) or, for a shift, zero-extended. -/
def secondOp (x : Core) (h : Shape) (b : VOperand) (shift : Bool) (i : Nat) : Nat :=
  match b with
  | .vv r => elemAt (getGroup x r h.grp) h.ew i
  | .vs r => (getS x r).toNat % 2 ^ h.ew
  | .vi imm => if shift then imm.toNat else ofS (partW h) imm.toInt

/-- Two register ranges overlap. -/
def overlaps (a n b m : Nat) : Bool := a < b + m && b < a + n

/-- The register number of a vector second operand is a multiple of its group. -/
def secondOk (b : VOperand) (grp : Nat) : Bool :=
  match b with
  | .vv r => r.val % grp == 0
  | _ => true

/-- A vector second operand overlaps a range. -/
def secondOver (b : VOperand) (grp d n : Nat) : Bool :=
  match b with
  | .vv r => overlaps r grp d n
  | _ => false

/-- Sticky conditions gathered in VSTAT. -/
def stick (fl : Nat) (x : Core) : Core := { x with vstat := x.vstat ||| BitVec.ofNat 64 fl }

/-- How the destination or first source differs in width. -/
inductive VKind where
  | same | widen | narrow
  deriving DecidableEq, Repr

/-- A vector arithmetic instruction (R265 to R269): the type and group checks, then the element loop. `op` gets the
shape, the old destination element, the first and the second source elements. -/
def vArith (c : Fin 96) (f : VArith) (types : Nat → Bool) (kind : VKind) (shift : Bool)
    (op : Shape → Nat → Nat → Nat → Nat × Nat) (s : State) : Res :=
  onCore c (fun x s =>
    let h := shapeOf x
    let dg := if kind = .widen then 2 * h.grp else h.grp
    let ag := if kind = .narrow then 2 * h.grp else h.grp
    let dw := if kind = .widen then 2 * h.ew else h.ew
    let aw := if kind = .narrow then 2 * h.ew else h.ew
    if !types h.et || 8 < dg || 8 < ag then exception c exVSHAPE 0 s
    else if f.vd.val % dg != 0 || f.vs1.val % ag != 0 || !secondOk f.b h.grp ||
        (kind == .widen && (overlaps f.vs1 ag f.vd dg || secondOver f.b h.grp f.vd dg)) then exception c exVREG 0 s
    else
      let old := getGroup x f.vd dg
      let ga := getGroup x f.vs1 ag
      let (r, fl) := elemLoop h (activeAt x f.men f.msel) dw old fun i =>
        op h (elemAt old dw i) (elemAt ga aw i) (secondOp x h f.b shift i)
      corePut c (retire (stick fl (putGroup f.vd r dg x))) s) s

/-- The second operand field of an instruction with one source holds 0. -/
def noSecond (b : VOperand) : Bool :=
  match b with
  | .vv r => r == 0
  | .vs r => r == 0
  | .vi imm => imm == 0

/-- An estimate instruction: its second operand field must be 0, or it raises ILLEGAL_INSTR (R215; Encodings). -/
def vEstimate (c : Fin 96) (f : VArith) (op : Shape → Nat → Nat × Nat) (s : State) : Res :=
  if noSecond f.b then vArith c f (fun t => t == 6) .same false (fun h _ a _ => op h a) s
  else onCore c (fun _ s => exception c exILLEGAL 0 s) s

/-- An operation on each part of an element: `w` the width of an operand's part, `dw` of the result's. -/
def byParts (h : Shape) (w dw : Nat) (op : Nat → Nat → Nat × Nat) (a b : Nat) : Nat × Nat :=
  if isCplxT h.et then
    let (i, f) := op (a % 2 ^ w) (b % 2 ^ w)
    let (q, g) := op (a / 2 ^ w % 2 ^ w) (b / 2 ^ w % 2 ^ w)
    (i % 2 ^ dw + q % 2 ^ dw * 2 ^ dw, Nat.lor f g)
  else op a b

/-- An integer saturated to `w` bits, with SAT when it clips (R272). -/
def satFlag (w : Nat) (v : Int) : Nat × Nat := (ofS w (satS w v), if satS w v = v then 0 else fSAT)

/-- An integer divided by 2^k, rounded by RMODE (R271). -/
def rndShift (rm : RMode) (v : Int) (k : Nat) : Int :=
  let d : Int := (2 : Int) ^ k
  let fl := Int.fdiv v d
  let inexact := decide (fl * d ≠ v)
  if !inexact then fl
  else match rm with
  | .rdn => fl
  | .rtz => if v < 0 then fl + 1 else fl
  | .rup => fl + 1
  | .rod => if fl % 2 = 0 then fl + 1 else fl

/-- An exact sum at `w` bits, wrapped, with AOV when it lies outside the range (R273). -/
def accFlag (w : Nat) (v : Int) : Nat × Nat := (ofS w v, if satS w v = v then 0 else fAOV)

/-- A compare instruction (R270). -/
def vCompare (c : Fin 96) (f : VArith) (types : Nat → Bool) (op : Shape → Nat → Nat → Bool × Nat) (s : State) : Res :=
  onCore c (fun x s =>
    let h := shapeOf x
    if 8 ≤ f.vd.val then exception c exILLEGAL 0 s
    else if !types h.et then exception c exVSHAPE 0 s
    else if f.vs1.val % h.grp != 0 || !secondOk f.b h.grp then exception c exVREG 0 s
    else
      let md : Fin 8 := Fin.ofNat 8 f.vd.val
      let ga := getGroup x f.vs1 h.grp
      let (r, fl) := elemLoop h (activeAt x f.men f.msel) 1 (x.m[md]).toNat fun i =>
        let (t, g) := op h (elemAt ga h.ew i) (secondOp x h f.b false i)
        (b2n t, g)
      corePut c (retire (stick fl { x with m := x.m.set md (BitVec.ofNat 512 r) })) s) s

/-- An integer comparison on signed or unsigned elements. -/
def vCmpInt (c : Fin 96) (f : VArith) (signed : Bool) (p : Int → Int → Bool) (s : State) : Res :=
  vCompare c f isIntT (fun h a b =>
    let v := fun (n : Nat) => if signed then toS h.ew n else (n : Int)
    (p (v a) (v b), 0)) s

/-- A reduction to an extreme: rd and rd + 1 take the extreme of the active elements and its lowest index. -/
def vExtreme (c : Fin 96) (rd vs1 : Fin 32) (men : Bool) (msel : Fin 8) (none0 : Word) (better : Int → Int → Bool)
    (s : State) : Res :=
  onCore c (fun x s =>
    let h := shapeOf x
    if !pairOk rd then exception c exILLEGAL 0 s
    else if !isIntT h.et then exception c exVSHAPE 0 s
    else if vs1.val % h.grp != 0 then exception c exVREG 0 s
    else
      let g := getGroup x vs1 h.grp
      let best := (List.range h.count).foldl (fun acc i =>
        if activeAt x men msel i then
          let v := toS h.ew (elemAt g h.ew i)
          match acc with
          | none => some (v, i)
          | some (w, j) => if better v w then some (v, i) else some (w, j)
        else acc) (none : Option (Int × Nat))
      let (v, i) := match best with
        | some (v, i) => (BitVec.ofInt 64 v, BitVec.ofNat 64 i)
        | none => (none0, BitVec.allOnes 64)
      corePut c (retire (setS (setS x rd v) (pairOf rd) i)) s) s

/-- A mask operation over all 512 bits. -/
def vMask (c : Fin 96) (md ms1 ms2 : Fin 8) (op : BitVec 512 → BitVec 512 → BitVec 512) (s : State) : Res :=
  onCore c (fun x s => corePut c (retire { x with m := x.m.set md (op x.m[ms1] x.m[ms2]) }) s) s

/-- The bits below VCOUNT. -/
def belowCount (x : Core) : BitVec 512 := BitVec.ofNat 512 (2 ^ x.vcount.toNat - 1)

end Sys2Proof.Machine
end

