-- ==== Sys2Proof/Machine/CpuSys.lean ====
section
/-!
DEFINITION. The system and CSR instructions of a crew core, interrupts and the accesses of other initiators
(06_crew_cores.md, Control and status registers, System and CSR instructions, Exceptions and interrupts, Crew control;
R214, R225 to R241, R244 to R247, R261, R268, R464, R547, R619, R641).
-/
namespace Sys2Proof.Machine
open Sys2Proof

/-- CORE_STATUS as read. -/
def coreStatus (x : Core) : Nat :=
  b2n x.task * 128 + b2n x.sat * 64 + b2n x.aov * 32 + b2n x.exc * 8 + b2n x.pie * 4 + b2n x.ie

/-- The tags of a core in a state, as a mask (CP_LIVE, CP_DONE). -/
def tagMask (x : Core) (st : TagSt) : Nat :=
  (List.range 32).foldl (fun acc t => acc + (if (tagOf x t).st = st then 2 ^ t else 0)) 0

/-- CORE_CYCLE: 0 as the core leaves reset, and never more than 1.6 cycles for each nanosecond since. -/
def coreCycle (s : State) (c : Nat) (x : Core) : Nat :=
  Config.crewCycles (c / 8) x.since s.now % ((s.now - x.since) * 16 / 10 + 1)

/-- The value of a CSR; none for a number that is not listed (R214). -/
def csrGet (s : State) (c : Nat) (x : Core) (n : Nat) : Option Word :=
  if n = 0x000 then some (BitVec.ofNat 64 (coreStatus x))
  else if n = 0x001 then some x.evec
  else if n = 0x002 then some x.epc
  else if n = 0x003 then some x.ecause
  else if n = 0x004 then some x.eaddr
  else if n = 0x005 then some x.escratch
  else if n = 0x008 then some x.irqEn
  else if n = 0x009 then some (BitVec.ofNat 64 (irqPend s x))
  else if n = 0x00A then some x.irqAddr
  else if n = 0x010 then some (BitVec.ofNat 64 (deviceId s * 256 + c / 8 * 8 + c % 8))
  else if n = 0x011 then some (BitVec.ofNat 64 (coreCycle s c x))
  else if n = 0x012 then some (BitVec.ofNat 64 (shortNow s))
  else if n = 0x013 then some x.timerCmp
  else if n = 0x018 then some x.spmCached
  else if n = 0x019 then some x.ucBase
  else if n = 0x01A then some x.ucLimit
  else if n = 0x100 then some x.vshape
  else if n = 0x101 then some x.vcount
  else if n = 0x102 then some x.vfxm
  else if n = 0x103 then some x.vstat
  else if n = 0x104 then some x.eri
  else if n = 0x105 then some (BitVec.ofNat 64 (vlmaxOf x.vshape.toNat))
  else if n = 0x200 then some (BitVec.ofNat 64 (tagMask x .live))
  else if n = 0x201 then some (BitVec.ofNat 64 (tagMask x .done))
  else if n = 0x202 then some (x.cpLate.setWidth 64)
  else if n = 0x203 then
    some (BitVec.ofNat 64 ((List.range 5).foldl (fun acc e => acc + (copQueue s (c / 8) e).length * 32 ^ e) 0))
  else none

/-- The bits of a CSR whose access is RO; all of them for a CSR that is RO. -/
def csrRo (n : Nat) : Word :=
  if n = 0x000 then ~~~0x65#64
  else if n = 0x008 then ~~~0x1F#64
  else if n = 0x009 then ~~~0x1A#64
  else if n = 0x100 then ~~~0xFE#64
  else if n = 0x101 then ~~~0x3FF#64
  else if n = 0x102 then ~~~0x7#64
  else if n = 0x103 then ~~~0xEF#64
  else if n = 0x104 then ~~~0x80000000000001FF#64
  else if n = 0x003 ∨ n = 0x004 ∨ n = 0x00A ∨ n = 0x010 ∨ n = 0x011 ∨ n = 0x012 ∨ n = 0x105 ∨ 0x200 ≤ n then
    BitVec.allOnes 64
  else 0

/-- A CSR that is RO as a whole. -/
def csrReadOnly (n : Nat) : Bool := csrRo n == BitVec.allOnes 64

/-- A write of `v` to a CSR that reads `old` writes an RO field: it would change one. In CORE_IRQ_PEND a 0 writes
nothing (R214). -/
def csrRoWritten (n : Nat) (old v : Word) : Bool :=
  csrReadOnly n || (if n = 0x009 then v &&& ~~~old &&& csrRo n != 0 else (v ^^^ old) &&& csrRo n != 0)

/-- A CSR written (R268 for VSHAPE and VCOUNT). -/
def csrPut (n : Nat) (v : Word) (x : Core) : Core :=
  let b := fun k => v.getLsbD k
  if n = 0x000 then { x with sat := b 6, aov := b 5, pie := b 2, ie := b 0 }
  else if n = 0x001 then { x with evec := v &&& 0xFFFFFFFFFFFC#64 }
  else if n = 0x002 then { x with epc := v }
  else if n = 0x005 then { x with escratch := v }
  else if n = 0x008 then { x with irqEn := v }
  else if n = 0x009 then
    { x with dataLost := x.dataLost && !b 4, doorbell := x.doorbell && !b 3, storeError := x.storeError && !b 1
             irqAddr := if b 1 then 0 else x.irqAddr }
  else if n = 0x013 then { x with timerCmp := v }
  else if n = 0x018 then { x with spmCached := v }
  else if n = 0x019 then { x with ucBase := v &&& ~~~0xFFFF#64 }
  else if n = 0x01A then { x with ucLimit := v &&& ~~~0xFFFF#64 }
  else if n = 0x100 then { x with vshape := v, vcount := BitVec.ofNat 64 (min x.vcount.toNat (vlmaxOf v.toNat)) }
  else if n = 0x101 then { x with vcount := BitVec.ofNat 64 (min v.toNat (vlmaxOf x.vshape.toNat)) }
  else if n = 0x102 then { x with vfxm := v }
  else if n = 0x103 then { x with vstat := v }
  else if n = 0x104 then { x with eri := v }
  else x

/-- A CSR instruction that writes: rd takes the old value, the CSR takes `f` of it and rs1. -/
def csrOp (c : Fin 96) (rd rs1 : Fin 32) (csr : BitVec 12) (f : Word → Word → Word) (s : State) : Res :=
  onCore c (fun x s =>
    match csrGet s c x csr.toNat with
    | none => exception c exILLEGAL 0 s
    | some old =>
      let v := f old (getS x rs1)
      if csrRoWritten csr.toNat old v then exception c exILLEGAL 0 s
      else corePut c (retire (setS (csrPut csr.toNat v x) rd old)) s) s

/-- A cache-maintenance instruction on the line holding rs1, or on a range. -/
def lineOp (c : Fin 96) (lines : Core → State → List Nat) (f : Nat → State → State) (s : State) : Res :=
  onCore c (fun x s =>
    let s := (lines x s).foldl (fun s a => f a s) s
    corePut c (retire (core s c)) s) s

/-- The line holding rs1. -/
def lineOf (rs1 : Fin 32) (x : Core) : List Nat := [(getS x rs1).toNat / 64 * 64]

/-- The lines overlapping rs1 to rs1 + rs2 - 1; none where rs2 is 0. -/
def linesOf (c : Nat) (rs1 rs2 : Fin 32) (x : Core) (s : State) : List Nat :=
  if getS x rs2 = 0 then [] else linesIn s c (getS x rs1).toNat (getS x rs2).toNat

/-- An instruction with no effect but its completion: what it waits for, or the instruction cache, is not held by the
model. -/
def nopOp (c : Fin 96) (s : State) : Res := onCore c (fun x s => corePut c (retire x) s) s

/-- An interrupt taken at an instruction boundary, in a blocked TASK_WAIT too (R226, R229, R230). CORE_EADDR of an
interrupt is not given. -/
def interruptEntry (c : Nat) (s : State) : State :=
  let x := core s c
  let p := irqReady s x
  if crewUsable s (c / 8) ∧ awake s (some (c / 8)) ∧ (x.run = .run ∨ x.run = .taskWait) ∧ irqTakes s x then
    let (v, s) := draw s
    corePut c (enterHandler x x.pc (BitVec.ofNat 64 (2 ^ 63 + lowestBit p)) (BitVec.ofNat 64 v)) s
  else s

/-- TASK_WAIT (R172, R173, R225); with an interrupt to take in the same cycle, the interrupt wins and the task stays staged
(R226). -/
def taskWaitOp (c : Nat) (x : Core) (s : State) : State :=
  if x.task then exception c exTASK_STATE 0 s
  else if (spFind s.shuttle.staged c).isSome && !irqTakes s x then takeStaged c s
  else corePut c { x with run := .taskWait } s

/-- TASK_DONE: its dirty range is cleaned and its status kept for the completion (R175, R177, R225). -/
def taskDoneOp (c : Nat) (status : Word) (x : Core) (s : State) : State :=
  if !x.task then exception c exTASK_STATE 0 s
  else
    match spFind s.shuttle.running c with
    | none => corePut c { x with run := .drain } s
    | some r =>
      let d := (slot s r.work.task).desc
      let s := if d.dirtyBase = 0 ∨ d.dirtyLen = 0 then s
        else (linesIn s c d.dirtyBase (d.dirtyLen * 32)).foldl (fun s a => cleanLine c a s) s
      let s := corePut c { core s c with run := .drain } s
      let r2 : Running := { r with done := some (if status = 0 then 0 else 1) }
      { s with shuttle := { s.shuttle with running := spPut s.shuttle.running c r2 } }

/-- CREW_BANK_OWNER_b written; `outstanding` when accesses accepted from the old owner are still under way
(R244 to R247). -/
def bankOwnerOp (i : Initiator) (n b v : Nat) (outstanding : Bool) (s : State) : State :=
  if !unitPresent s.part (uCREW + n) crewCtl then s
  else match reach (domainOf (uCREW + n) crewCtl) s with
  | (.err, s) => writeError i (regAddr (uCREW + n) crewCtl (0x100 + 4 * b)) s
  | (.wait, s) => s
  | (.go, s) =>
    match bankOwnerWrite i n b v outstanding s with
    | (.ok, s) => s
    | (_, s) => writeError i (regAddr (uCREW + n) crewCtl (0x100 + 4 * b)) s

/-- The device address of an inbound request; none outside every BAR (R546). -/
def inboundAddr (s : State) (t : PcieTarget) : Option Nat :=
  match t with
  | .bar0 off => some (regAddr uSYS 0 off.toNat)
  | .bar2 off => some ((regGet s uPCIE 0 0x014).toNat * 2 ^ 32 + (regGet s uPCIE 0 0x010).toNat + off.toNat)
  | .bar4 off => some (regBase + off.toNat)
  | .outside => none

/-- The host link is up. -/
def pcieUp (s : State) : Bool := regF s uPCIE 0 0x000 31 31 == 1

/-- A narrow inbound write discarded (R464). -/
def narrowWrite (a : Nat) (s : State) : State :=
  raiseLim second (uMEM * 256 + 6) 0x0806 uPCIE 0 1 (zeros 8 ++ leBytes 8 a) (regBump uMEM 0 0x00C 31 0 1 s)

/-- An inbound posted write at a device address; `whole` when every byte is enabled (R464, R518, R547, R641). -/
def inboundWrite (a : Nat) (bs : Bytes) (whole : Bool) (s : State) : State :=
  let fail := writeError hostInit a
  match regionOf a with
  | .reg u inst off =>
    if whole ∧ bs.length = 4 then
      match regWrite hostInit u inst off (leNat bs) s with
      | (.ok, s) => s
      | (.wait, s) => s
      | (_, s) => fail s
    else fail s
  | .aliasW set crew off =>
    if whole then
      match aliasStore hostInit set crew off bs s with
      | (.ok, s) => s
      | (.wait, s) => s
      | (_, s) => fail s
    else fail s
  | .outbound _ => fail s
  | .nothing => fail s
  | _ =>
    if !whole ∨ bs = [] ∨ a % 32 ≠ 0 ∨ bs.length % 32 ≠ 0 then narrowWrite a s
    else match writeBytes hostInit a bs s with
    | (.ok, _, s) => s
    | (.wait, _, s1) => waitAt s s1
    | (_, _, s) => fail s

/-- An inbound read of `n` bytes at a device address, answered by a completion (R547, R641). -/
def inboundRead (a n : Nat) (s : State) : State :=
  let abort := emit (.completion 1 [])
  match regionOf a with
  | .reg u inst off =>
    if n = 4 then
      match regRead hostInit u inst off s with
      | (.ok, s) => emit (.completion 0 (leBytes 4 s.rdata)) s
      | (.wait, s) => s
      | (_, s) => abort s
    else abort s
  | .outbound _ => abort s
  | .aliasW _ _ _ => abort s
  | .nothing => abort s
  | _ =>
    match readBytes hostInit a n s with
    | (.ok, b, _, s) => emit (.completion 0 b) s
    | (.wait, _, _, s) => s
    | (_, _, _, s) => abort s

/-- ECALL: raises ECALL (R229). -/
def execEcall (c : Fin 96) (s : State) : Res :=
  onCore c (fun _ s => exception c exECALL 0 s) s

/-- EBREAK: raises EBREAK (R229). -/
def execEbreak (c : Fin 96) (s : State) : Res :=
  onCore c (fun _ s => exception c exEBREAK 0 s) s

/-- ERET: IE := PIE; EXC_ACTIVE := 0; pc := CORE_EPC, a multiple of 4 of 48 bits (R213). -/
def execEret (c : Fin 96) (s : State) : Res :=
  onCore c (fun x s =>
    corePut c { x with ie := x.pie, exc := false, lastPc := x.pc, pc := BitVec.ofNat 48 (x.epc.toNat / 4 * 4) } s) s

/-- WFI: waits until CORE_IRQ_PEND and CORE_IRQ_EN share a set bit (R230). -/
def execWfi (c : Fin 96) (s : State) : Res :=
  onCore c (fun x s =>
    corePut c (if irqReady s x = 0 then { x with run := .wfi } else retire x) s) s

/-- A fence: it completes when every earlier write of the core has returned its response (R237). -/
def fenceOp (c : Fin 96) (s : State) : Res :=
  onCoreR c (fun _ _ s =>
    let s := drainWrites c s
    if drained s c then (true, corePut c (retire (core s c)) s) else (false, s)) s

/-- FENCE: every earlier write has its response and every earlier load its data (R237); no load is under way. -/
def execFence (c : Fin 96) (s : State) : Res :=
  fenceOp c s

/-- FENCE_W: every earlier write has returned its response, line write-backs included (R237). -/
def execFenceW (c : Fin 96) (s : State) : Res :=
  fenceOp c s

/-- CCLEAN: cleans the data-cache line holding rs1 (R239). -/
def execCclean (c : Fin 96) (rs1 : Fin 32) (s : State) : Res :=
  lineOp c (fun x _ => lineOf rs1 x) (fun a s => cleanLine c a s) s

/-- CINVAL: invalidates the data-cache line holding rs1 (R239). -/
def execCinval (c : Fin 96) (rs1 : Fin 32) (s : State) : Res :=
  lineOp c (fun x _ => lineOf rs1 x) (fun a s => invalLine c a s) s

/-- CFLUSH: cleans, then invalidates the data-cache line holding rs1 (R239). -/
def execCflush (c : Fin 96) (rs1 : Fin 32) (s : State) : Res :=
  lineOp c (fun x _ => lineOf rs1 x) (fun a s => flushLine c a s) s

/-- CCLEAN_R: CCLEAN of every line overlapping rs1 to rs1 + rs2 - 1 (R239). -/
def execCcleanR (c : Fin 96) (rs1 : Fin 32) (rs2 : Fin 32) (s : State) : Res :=
  lineOp c (fun x s => linesOf c rs1 rs2 x s) (fun a s => cleanLine c a s) s

/-- CINVAL_R: CINVAL of every line overlapping rs1 to rs1 + rs2 - 1 (R239). -/
def execCinvalR (c : Fin 96) (rs1 : Fin 32) (rs2 : Fin 32) (s : State) : Res :=
  lineOp c (fun x s => linesOf c rs1 rs2 x s) (fun a s => invalLine c a s) s

/-- CFLUSH_R: CFLUSH of every line overlapping rs1 to rs1 + rs2 - 1 (R239). -/
def execCflushR (c : Fin 96) (rs1 : Fin 32) (rs2 : Fin 32) (s : State) : Res :=
  lineOp c (fun x s => linesOf c rs1 rs2 x s) (fun a s => flushLine c a s) s

/-- CCLEAN_ALL: cleans every line of the data cache (R239). -/
def execCcleanAll (c : Fin 96) (s : State) : Res :=
  onCore c (fun _ s =>
    let s := cleanAll c s
    corePut c (retire (core s c)) s) s

/-- CFLUSH_ALL: cleans and invalidates every line of the data cache (R239). -/
def execCflushAll (c : Fin 96) (s : State) : Res :=
  onCore c (fun _ s =>
    let s := flushAll c s
    corePut c (retire (core s c)) s) s

/-- IINVAL: invalidates an instruction-cache line and the fetch buffer, which the model does not hold (R239). -/
def execIinval (c : Fin 96) (rs1 : Fin 32) (s : State) : Res :=
  onCore c (fun x s =>
    let _ := getS x rs1
    corePut c (retire x) s) s

/-- IINVAL_ALL: invalidates the instruction cache and the fetch buffer (R239). -/
def execIinvalAll (c : Fin 96) (s : State) : Res :=
  nopOp c s

/-- TASK_WAIT: obtains a task, or blocks until one is staged (R173, R225, R226). -/
def execTaskWait (c : Fin 96) (s : State) : Res :=
  onCore c (fun x s => taskWaitOp c x s) s

/-- TASK_DONE: completes the held task with status rs1 once drained and cleaned (R175, R177, R225). -/
def execTaskDone (c : Fin 96) (rs1 : Fin 32) (s : State) : Res :=
  onCore c (fun x s => taskDoneOp c (getS x rs1) x s) s

/-- DOORBELL: sets DOORBELL in the cores of this crew named by rs1[7:0] (R230). -/
def execDoorbell (c : Fin 96) (rs1 : Fin 32) (s : State) : Res :=
  onCore c (fun x s => doorbellRing (c / 8) ((getS x rs1).toNat % 256) (corePut c (retire x) s)) s

/-- CSRR: rd := csr (R214). -/
def execCsrr (c : Fin 96) (rd : Fin 32) (csr : BitVec 12) (s : State) : Res :=
  onCore c (fun x s =>
    match csrGet s c x csr.toNat with
    | none => exception c exILLEGAL 0 s
    | some v => writeS c rd v s) s

/-- CSRW: rd := csr; csr := rs1 (R214). -/
def execCsrw (c : Fin 96) (rd : Fin 32) (rs1 : Fin 32) (csr : BitVec 12) (s : State) : Res :=
  csrOp c rd rs1 csr (fun _ v => v) s

/-- CSRS: rd := csr; csr := csr or rs1 (R214). -/
def execCsrs (c : Fin 96) (rd : Fin 32) (rs1 : Fin 32) (csr : BitVec 12) (s : State) : Res :=
  csrOp c rd rs1 csr (fun old v => old ||| v) s

/-- CSRC: rd := csr; csr := csr and not rs1 (R214). -/
def execCsrc (c : Fin 96) (rd : Fin 32) (rs1 : Fin 32) (csr : BitVec 12) (s : State) : Res :=
  csrOp c rd rs1 csr (fun old v => old &&& ~~~v) s

/-- INTERRUPT_ENTRY: the core takes its lowest pending enabled interrupt (R226, R229, R230). -/
def execInterruptEntry (c : Fin 96) (s : State) : Res :=
  done (interruptEntry c s)

/-- STORE_ERROR: a retired store of a core is answered with a bus error (R232). -/
def execStoreError (c : Fin 96) (addr : BitVec 48) (s : State) : Res :=
  done (if crewUsable s (c / 8) ∧ (core s c).run ≠ .reset then storeErrorOp c addr.toNat s else s)

/-- CORE_RESET: a core reset by its bit of CREW_CTRL (R261). -/
def execCoreReset (c : Fin 96) (s : State) : Res :=
  done (registerWrite hostInit (uCREW + c / 8) crewCtl 0x000 (2 ^ (8 + c.val % 8)) s)

/-- CREW_DOORBELL: a write of CREW_DOORBELL (R230). -/
def execCrewDoorbell (i : Initiator) (crew : Fin 12) (ring : BitVec 8) (s : State) : Res :=
  done (registerWrite i (uCREW + crew) crewCtl 0x014 ring.toNat s)

/-- CREW_BANK_OWNER: a write of CREW_BANK_OWNER_b (R244 to R247); `outstanding` when accesses of the old owner are under way. -/
def execCrewBankOwner (i : Initiator) (crew : Fin 12) (bank : Fin 32) (owner : BitVec 8) (outstanding : Bool) (s : State) : Res :=
  done (bankOwnerOp i crew bank owner.toNat outstanding s)

/-- BANK_OWNER_COMMIT: the pending owner takes effect, the old owner's accesses having completed (R245), and the
write-backs that waited for it are performed (R246). -/
def execBankOwnerCommit (crew : Fin 12) (bank : Fin 32) (s : State) : Res :=
  done (if crewUsable s crew then drainCrew crew (bankCommit crew bank s) else s)

/-- CREW_RETENTION_ACK: a write of CREW_RETENTION_ACK (R619). -/
def execCrewRetentionAck (i : Initiator) (crew : Fin 12) (banks : BitVec 32) (s : State) : Res :=
  done (registerWrite i (uCREW + crew) crewCtl 0x028 banks.toNat s)

/-- REGISTER_WRITE: a write of a register by an initiator (R3, R20, R238). -/
def execRegisterWrite (i : Initiator) (unit : BitVec 8) (inst : BitVec 8) (off : BitVec 16) (value : BitVec 32) (s : State) : Res :=
  done (registerWrite i unit.toNat inst.toNat off.toNat value.toNat s)

/-- INBOUND_PCIE_WRITE: an inbound posted write TLP, `whole` when every byte is enabled (R464, R547, R641). -/
def execInboundPcieWrite (target : PcieTarget) (data : List (BitVec 8)) (whole : Bool) (s : State) : Res :=
  done (match inboundAddr s target with
    | some a => if pcieUp s then inboundWrite a data whole s else s
    | none => s)

/-- INBOUND_PCIE_READ: an inbound read request of `len` bytes (R547, R641). -/
def execInboundPcieRead (target : PcieTarget) (len : BitVec 13) (s : State) : Res :=
  done (if !pcieUp s then s
    else match inboundAddr s target with
    | some a => inboundRead a len.toNat s
    | none => emit (.completion 2 []) s)

end Sys2Proof.Machine
end

