-- ==== Sys2Proof/Machine/DmaRows.lean ====
section
/-!
DEFINITION. The commands of the DMA channels (14_spool_dma.md, R495 to R512).
-/
namespace Sys2Proof.Machine
open Sys2Proof

/-- MOVE: transfers LEN bytes and writes its status record (R495 to R500); the channel's next instruction, when it is one. -/
def execMoveProg (ch : Fin 64) (s : State) : Res :=
  done (dmaInstr ch 1 (dmaMove ch) s)

/-- LOOP: opens a loop of COUNT iterations (R503); the channel's next instruction, when it is one. -/
def execLoopProg (ch : Fin 64) (s : State) : Res :=
  done (dmaInstr ch 2 (dmaLoopOp ch) s)

/-- ENDLOOP: repeats or closes the innermost loop (R503); the channel's next instruction, when it is one. -/
def execEndloop (ch : Fin 64) (s : State) : Res :=
  done (dmaInstr ch 3 (dmaEndLoop ch) s)

/-- WAIT: holds the program until a time or a word condition (R502); the channel's next instruction, when it is one. -/
def execWaitProg (ch : Fin 64) (s : State) : Res :=
  done (dmaInstr ch 4 (dmaWaitOp ch) s)

/-- SIGNAL: decrements a task, sends a vector or enqueues a packet (R501); the channel's next instruction, when it is one. -/
def execSignalProg (ch : Fin 64) (s : State) : Res :=
  done (dmaInstr ch 5 (dmaSignal ch) s)

/-- DMA_FENCE: waits for all earlier reads and writes of the program (R498); the channel's next instruction, when it is one. -/
def execDmaFence (ch : Fin 64) (s : State) : Res :=
  done (dmaInstr ch 6 (dmaFenceOp ch) s)

/-- END: completes the program (R507, R508); the channel's next instruction, when it is one. -/
def execEndProg (ch : Fin 64) (s : State) : Res :=
  done (dmaInstr ch 7 (dmaEnd ch) s)

/-- WAIT_TIMEOUT: a WAIT past its TIMEOUT ends the program (R502). -/
def execWaitTimeout (ch : Fin 64) (s : State) : Res :=
  done (dmaTimeoutOp ch s)

/-- WAIT_CONTINUE: a waiting program's condition is looked at (R502). -/
def execWaitContinue (ch : Fin 64) (s : State) : Res :=
  done (dmaContinue ch s)

/-- HANDOVER_CYCLE: at a program boundary the armed shadow program or the staged task starts (R504). -/
def execHandoverCycle (ch : Fin 64) (s : State) : Res :=
  done (dmaHandover ch s)

/-- DMA_ARM: ARM is set (R505). -/
def execDmaArm (ch : Fin 64) (s : State) : Res :=
  done (dmaPut ch { dmaCh s ch with armed := true } s)

/-- ABORT: stops the running program with ERROR ABORTED (R509). -/
def execAbortCh (ch : Fin 64) (s : State) : Res :=
  done (dmaAbort ch s)

/-- SHADOW_WRITE: a write of a shadow register: 0 PROG_LO, 1 PROG_HI, 2 BASE_LO, 3 BASE_HI, 4 SIGNAL (R506). -/
def execShadowWrite (ch : Fin 64) (reg : Fin 5) (value : BitVec 32) (s : State) : Res :=
  done (dmaShadow ch reg value.toNat s)

end Sys2Proof.Machine
end

