-- ==== Sys2Proof/Machine/FabricRows.lean ====
section
/-!
DEFINITION. The commands of the Jortanu fabric, its pins and ports, and of the NV store's user area (17_jortanu_fabric.md).
-/
namespace Sys2Proof.Machine
open Sys2Proof

/-- FABRIC_CONTENTION: the comparator of a long line has seen another level than the enabled tap's for more than 4 ns (R583). -/
def execFabricContention (row : Fin 6) (line : Fin 16) (s : State) : Res :=
  done (contention row line s)

/-- CFG_READBACK: the 10 µs of one block: its frame is read back, changed or not (R590). -/
def execCfgReadback (upset : Bool) (s : State) : Res :=
  done (readback upset s)

/-- REGION_START_LOAD: a starting region checks and loads its image (R582, R587, R588, R592). -/
def execRegionStartLoad (r : Fin 96) (s : State) : Res :=
  done (regionLoad r s)

/-- REGION_STOP: a stopping region is off (R593). -/
def execRegionStop (r : Fin 96) (s : State) : Res :=
  done (regionStopped r s)

/-- FABRIC_PIN_SET: a write of FABRIC_PIN_SET_k (R594). -/
def execFabricPinSet (k : Fin 4) (value : BitVec 32) (s : State) : Res :=
  done (pinSetClr k value.toNat true s)

/-- FABRIC_PIN_CLR: a write of FABRIC_PIN_CLR_k (R594). -/
def execFabricPinClr (k : Fin 4) (value : BitVec 32) (s : State) : Res :=
  done (pinSetClr k value.toNat false s)

/-- FABRIC_SP_TX: a write of FABRIC_SP_TX_p (R599). -/
def execFabricSpTx (p : Fin 12) (value : BitVec 32) (s : State) : Res :=
  done (spTx p value.toNat s)

/-- FABRIC_SP_RX: a read of FABRIC_SP_RX_p (R599). -/
def execFabricSpRx (p : Fin 12) (s : State) : Res :=
  done (spRx p s)

/-- OSC_ENABLE: a write of FABRIC_OSC_n (R597). -/
def execOscEnable (n : Fin 4) (value : BitVec 32) (s : State) : Res :=
  done (oscWrite n value.toNat s)

/-- SERIAL_PORT_BYTE_RECEIVED: a byte or an error arrives at a hard serial port (R599). -/
def execSerialPortByteReceived (p : Fin 12) (e : SpEvent) (s : State) : Res :=
  done (spReceived p e s)

/-- NV_READ: copies user-area data to a buffer (R600). -/
def execNvRead (r : Request) (s : State) : Res :=
  done (nvOp false r s)

/-- NV_WRITE: writes units of the user area (R600). -/
def execNvWrite (r : Request) (s : State) : Res :=
  done (nvOp true r s)

end Sys2Proof.Machine
end

