-- ==== Sys2Proof/Machine/LaneRows.lean ====
section
/-!
DEFINITION. The commands of lanes, Ethernet ports, Bupex links and the system of devices (16_lanes_bupex.md), but for received Bupex frames.
-/
namespace Sys2Proof.Machine
open Sys2Proof

/-- ETH_PORT_ENABLE: a write of ETH_PORT_CFG (R543 to R545). -/
def execEthPortEnable (n : Fin 49) (value : BitVec 32) (s : State) : Res :=
  done (if unitPresent s.part uETH n then ethCfgWrite n value.toNat s else s)

/-- ETH_LINK_UP: an enabled port comes up (R549). -/
def execEthLinkUp (n : Fin 49) (s : State) : Res :=
  done (ethUp n s)

/-- ETH_LINK_DOWN: a port goes down, its signal lost or its alignment lost (R545). -/
def execEthLinkDown (n : Fin 49) (signal : Bool) (s : State) : Res :=
  done (ethDown n (if signal then 1 else 2) s)

/-- ETH_FRAME_RECEIVED: a frame of `len` bytes arrives, its FCS right or not, a pause frame or not, with the FEC code words corrected and lost since the last and the partner's clock (R70, R132, R146, R434, R545, R548). -/
def execEthFrameReceived (n : Fin 49) (len : BitVec 16) (fcs : Bool) (pause : Bool) (fec : FecCount) (clock : RxClock) (frame : EthFrame) (s : State) : Res :=
  done (ethReceive n len.toNat fcs pause fec.fixed.toNat fec.lost.toNat clock frame s)

/-- LANE_PARITY_ACTIVE: a lane is lost (R553, R554). -/
def execLaneParityActive (lane : Fin 48) (s : State) : Res :=
  done (laneLost lane s)

/-- PRBS_SYNC_LOST: the checker of a lane has lost synchronisation and regained it, or holds it, with the bits in error and in all since the last (R550). -/
def execPrbsSyncLost (lane : Fin 48) (lost : Bool) (errs : BitVec 48) (total : BitVec 48) (s : State) : Res :=
  done (prbsCheck lane lost errs.toNat total.toNat s)

/-- LANE_PRBS_ERR_LO: a read of the LO half of the error or the bit counter (R550). -/
def execLanePrbsErrLo (lane : Fin 48) (errors : Bool) (s : State) : Res :=
  done (prbsRead lane errors s)

/-- BUPEX_LINK_RUNNING: an admitted link reaches RUNNING (R568). -/
def execBupexLinkRunning (l : Fin 6) (s : State) : Res :=
  done (linkRunning l s)

/-- HELLO: the 10 µs of a running link: its HELLO, and the partner's DEVICE_ID, digest and round trip if one has come (R563). -/
def execHello (l : Fin 6) (rx : Option (BitVec 12 × BitVec 64 × BitVec 16)) (s : State) : Res :=
  done (helloOp l (rx.map fun x => (x.1.toNat, x.2.1.toNat, x.2.2.toNat)) s)

/-- BUPEX_LINK_UP: a link comes up on equal digests (R563). -/
def execBupexLinkUp (l : Fin 6) (s : State) : Res :=
  done (linkUpOp l s)

/-- BUPEX_LINK_DOWN: a link has received no valid HELLO in time (R559, R564). -/
def execBupexLinkDown (l : Fin 6) (s : State) : Res :=
  done (linkTimeout l s)

/-- BUPEX_IDLE_ENTRY: a link enters electrical idle (R552). -/
def execBupexIdleEntry (l : Fin 6) (s : State) : Res :=
  done (idleEntry l s)

/-- BUPEX_IDLE_EXIT: a link leaves electrical idle; `valid` when data flows within 1 µs (R552, R564). -/
def execBupexIdleExit (l : Fin 6) (valid : Bool) (s : State) : Res :=
  done (idleExit l valid s)

/-- PARTITIONED: members have been unreachable for PARTITION_HOLD (R570 to R573). -/
def execPartitioned (s : State) : Res :=
  done (partitionOp s)

/-- REJOINED: members are reachable again (R574). -/
def execRejoined (s : State) : Res :=
  done (rejoinOp s)

/-- PROXY_ENQUEUE: the head of a proxy queue is carried to its home device (R566). -/
def execProxyEnqueue (q : BitVec 16) (s : State) : Res :=
  done (proxyEnqueue q.toNat s)

/-- MD_STATUS: the device's role and the members it sees (R573, R577). -/
def execMdStatus (r : Request) (s : State) : Res :=
  done (mdStatusOp r s)

/-- BUPEX_LINK_STATS: a link's counters (R577). -/
def execBupexLinkStats (r : Request) (s : State) : Res :=
  done (linkStatsOp r s)

/-- BUPEX_BOOT_SEND: sends a firmware image to a target in boot mode 0b100 (R575). -/
def execBupexBootSend (r : Request) (s : State) : Res :=
  done (bootSendOp r s)

/-- PCIE_LINK_CHANGE: the host link trains, goes down, or enters or leaves L1 (R546). -/
def execPcieLinkChange (up : Bool) (gen : Fin 6) (width : Fin 17) (l1 : Bool) (s : State) : Res :=
  done (pcieLink up gen width l1 s)

end Sys2Proof.Machine
end

