-- ==== Sys2Proof/Machine/PowerRows.lean ====
section
/-!
DEFINITION. The commands of the power controller, the rails, the sensors and of fault injection (18_power.md, 19_faults.md, 20_electrical.md).
-/
namespace Sys2Proof.Machine
open Sys2Proof

/-- The zero crossing at which a change of SYS_PLL_SSC_k.EN takes effect (R662). -/
def sscTakes (k : Nat) (s : State) : State :=
  powerMod (fun (p : Power) => { p with ssc := setBits p.ssc k k (regF s uSYS 0 (0x300 + 4 * k) 31 31) }) s

/-- CORE_TIME has reached CORE_TIMER_CMP of a core (R230, R613); TIMER stays pending while it has. -/
def timerReached (c : Nat) (s : State) : State :=
  if (core s c).timerCmp.toNat ≤ shortNow s then wakeWfi c s else s

/-- IDLE_TIMER_EXPIRY: a domain's idle timer has reached DOZE_US, HOLD_US or OFF_MS (R607). -/
def execIdleTimerExpiry (d : Fin 38) (which : Fin 3) (s : State) : Res :=
  done (idleExpiry d which s)

/-- DOZE_ENTRY: the clocks of a domain entering DOZE are gated (R610). -/
def execDozeEntry (d : Fin 38) (s : State) : Res :=
  done (powerComplete (dozeEntry d s))

/-- DOMAIN_ENTRY: the steps of R609 of an entry into HOLD or OFF, up to `upto`; step 6 is the point of no return. -/
def execDomainEntry (d : Fin 38) (upto : Fin 7) (s : State) : Res :=
  done (powerComplete (entrySteps d upto 6 s))

/-- DOMAIN_ENTRY_COMPLETE: the supply has reached retention level or is off (R609, step 7). -/
def execDomainEntryComplete (d : Fin 38) (s : State) : Res :=
  done (powerComplete (entryComplete d s))

/-- WAKE_REQUEST: a wake source of R613 that is no command (R612). -/
def execWakeRequest (d : Fin 38) (w : WakeSource) (s : State) : Res :=
  done (powerComplete (wakeSource d w s))

/-- WAKE_READY_STEP: a wake asserts its next ready signal (R614). -/
def execWakeReadyStep (d : Fin 38) (s : State) : Res :=
  done (wakeStep d s)

/-- WAKE_FAIL: a ready signal has not asserted within four times its time (R615). -/
def execWakeFail (d : Fin 38) (s : State) : Res :=
  done (wakeFail d s)

/-- MONITOR_SAMPLE: a rail monitor takes a sample, in 0.1 % of nominal (R621). -/
def execMonitorSample (m : Fin 8) (level : BitVec 16) (s : State) : Res :=
  done (monitorSample m level.toNat s)

/-- PFAIL: PFAIL_N has stayed low for PFAIL_FILTER_US (R623 to R625). -/
def execPfail (s : State) : Res :=
  done (pfailOp s)

/-- LAST_GASP_RECEIVED: a LAST_GASP frame from `sender` arrives on a link (R625). -/
def execLastGaspReceived (l : Fin 6) (sender : BitVec 12) (s : State) : Res :=
  done (lastGasp l sender.toNat s)

/-- POWER_RESTORED: PFAIL_N has stayed high for 10 ms (R626). -/
def execPowerRestored (s : State) : Res :=
  done (powerRestored s)

/-- POWER_SET: requests a state for a domain (R630). -/
def execPowerSet (r : Request) (s : State) : Res :=
  done (powerSetOp r s)

/-- POWER_STATUS: returns every domain's state and counts (R630). -/
def execPowerStatus (r : Request) (s : State) : Res :=
  done (powerStatusOp r s)

/-- POWER_DOM_CTRL: a write of POWER_DOM_CTRL_n (R612, R630). -/
def execPowerDomCtrl (d : Fin 38) (value : BitVec 32) (s : State) : Res :=
  done (domCtrlWrite d value.toNat s)

/-- CORE_TIMER_CMP_REACHED: CORE_TIME reaches CORE_TIMER_CMP of a core (R230, R613). -/
def execCoreTimerCmpReached (c : Fin 96) (s : State) : Res :=
  done (timerReached c s)

/-- TEMP_SENSOR_UPDATE: a sensor takes a reading (R664). -/
def execTempSensorUpdate (k : Fin 16) (v : BitVec 13) (s : State) : Res :=
  done (tempUpdate k v.toNat s)

/-- SFG_STATUS: returns the state of each clause of the single-fault guarantee (R644). -/
def execSfgStatus (r : Request) (s : State) : Res :=
  done (sfgStatusOp r s)

/-- FAULT_INJECT: starts an injected fault (R645). -/
def execFaultInject (r : Request) (s : State) : Res :=
  done (faultInjectOp r s)

/-- FAULT_CLEAR: ends an active injection (R646). -/
def execFaultClear (r : Request) (s : State) : Res :=
  done (faultClearOp r s)

/-- INJECTION_EXPIRY: injections end once DURATION_US has passed (R645). -/
def execInjectionExpiry (s : State) : Res :=
  done (injectionExpiry s)

/-- SSC_ENABLE: a change of SYS_PLL_SSC_k.EN takes effect (R662). -/
def execSscEnable (k : Fin 4) (s : State) : Res :=
  done (sscTakes k s)

end Sys2Proof.Machine
end

