-- ==== Sys2Proof/Machine/Engines.lean ====
section
/-!
DEFINITION. The device-wide engines: descriptors, decoding, encoding, ciphering and status records (08_coprocessors.md,
R306 to R316), and dispatch to their pools.
-/
namespace Sys2Proof.Machine
open Sys2Proof

/-- Engine ERROR codes. -/
abbrev enDESC : Nat := 1
abbrev enBUS : Nat := 2
abbrev enUNCORR : Nat := 3
abbrev enKEY : Nat := 4
/-- no ERROR code: an access has to wait, and the work is not done yet -/
abbrev enWAIT : Nat := 0x100

/-- The identity of an engine. -/
def engineInit (k : Nat) : Initiator := unitInit (engineUnit k).1 (engineUnit k).2

/-- How an engine's memory access fails, as its ERROR code. -/
def enError : Bus → Nat
  | .uncorrectable => enUNCORR
  | .wait => enWAIT
  | _ => enBUS

/-- A lifting size of TS 38.212 Table 5.3.2-1. -/
def liftSize (z : Nat) : Bool :=
  z ≤ 384 && [2, 3, 5, 7, 9, 11, 13, 15].any fun a => (List.range 8).any fun j => z == a * 2 ^ j

/-- The descriptor checks of the LDPC engines (R306). -/
def ldpcOk (b : Bytes) : Bool :=
  let one := fun o => fld b o 1
  let two := fun o => fld b o 2
  let dec := one 0 == 1
  (one 1 == 1 || one 1 == 2) && liftSize (two 2) &&
    (if dec then 1 ≤ one 4 && one 4 ≤ 32 && one 5 < 4 else one 4 == 0 && one 5 == 0) &&
    1 ≤ one 6 && one 6 ≤ 8 && [1, 2, 4, 6, 8].contains (one 7) && 1 ≤ two 8 && two 8 ≤ 256 &&
    two 12 == (if one 1 = 1 then 22 else 10) * two 2 && two 10 ≤ two 12 && one 14 ≤ 3 && rsv b 15 1 &&
    two 28 ≤ two 8 && rsv b 30 2 && rsv b 38 2 && rsv b 46 2 &&
    ((dec && bit (one 5) 0) || fld b 48 6 == 0) && rsv b 54 2 && fld b 56 6 % 32 == 0 && rsv b 62 2

/-- The descriptor checks of the polar engines. -/
def polarOk (b : Bytes) : Bool :=
  let one := fun o => fld b o 1
  let two := fun o => fld b o 2
  (if one 0 = 4 then [1, 2, 4, 8].contains (one 1) else one 1 == 0) && 32 ≤ two 2 && two 2 ≤ 1024 &&
    two 2 == 2 ^ Nat.log2 (two 2) && 12 ≤ two 4 && two 4 ≤ two 2 && one 6 ≤ 3 && one 7 < 4 && two 4 ≤ two 8 &&
    two 8 ≤ 8192 && 1 ≤ two 12 && two 12 ≤ 64 && rsv b 14 2 && rsv b 22 2 && rsv b 30 2 && fld b 32 6 % 32 == 0 &&
    rsv b 38 26

/-- The descriptor checks of the cipher engines. -/
def cipherOk (b : Bytes) : Bool :=
  rsv b 1 1 && 1 ≤ fld b 2 2 && fld b 2 2 ≤ 256 && rsv b 4 4 && rsv b 14 2 && fld b 16 6 % 32 == 0 && rsv b 22 42

/-- The checks of one packet entry of a cipher list. -/
def entryOk (e : Bytes) : Bool :=
  let one := fun o => fld e o 1
  1 ≤ fld e 6 2 && fld e 6 2 ≤ 16384 && fld e 14 2 ≤ fld e 6 2 && fld e 16 4 < 0x40000 &&
    [0, 1, 2, 3, 0x10, 0x11].contains (one 20) && one 21 < 16 && one 22 < 64 && rsv e 23 1 && rsv e 28 4

/-- The result of an engine's work. -/
structure EngineRun where
  error : Nat := 0
  addr : Nat := 0
  failed : Nat := 0
  iters : Nat := 0
  instances : Nat := 1
  pass : Nat := 0
  deriving DecidableEq, Repr

/-- The 64-byte status record. -/
def statusRecord (s : State) (count : Nat) (r : EngineRun) : Bytes :=
  leBytes 8 (shortNow s) ++ leBytes 2 count ++ leBytes 2 r.failed ++ leBytes 2 r.iters ++
    [BitVec.ofNat 8 r.error, BitVec.ofNat 8 r.instances] ++ leBytes 8 r.addr ++ zeros 8 ++ leBytes 32 r.pass

/-- An engine's work ended, its record written at STATUS_ADDR (R308). -/
def engineRecord (k status count : Nat) (r : EngineRun) (s : State) : State :=
  let put := fun (e : EngineEnd) (s : State) =>
    { s with shuttle := { s.shuttle with engineEnds := spPut s.shuttle.engineEnds k e } }
  match writeBytes (engineInit k) status (statusRecord s count r) s with
  | (.ok, _, s) => put { error := r.error, addr := r.addr } s
  | (.wait, _, s) => s
  | (_, a, s) => put { error := if r.error = 0 then enBUS else r.error, addr := if r.error = 0 then a else r.addr, recorded := false } s

/-- Work that ended before its STATUS_ADDR was known (R306). -/
def engineNoRecord (k error entry : Nat) (s : State) : State :=
  { s with shuttle := { s.shuttle with
      engineEnds := spPut s.shuttle.engineEnds k { error := error, addr := entry, recorded := false } } }

/-- An engine's work on its task: the descriptor read and checked, then `act`. `ops` are the operations of the pool and
`mine` the one this command carries out; a descriptor of another pool's operation ends the task whichever is asked. -/
def engineWork (k mine : Nat) (ops : List Nat) (ok : Bytes → Bool) (statusAt countAt : Nat)
    (act : Bytes → State → EngineRun × State) (s : State) : State :=
  match spFind s.shuttle.engines k with
  | none => s
  | some r =>
    if (spFind s.shuttle.engineEnds k).isSome ∨ !awake s (domainOf (engineUnit k).1 (engineUnit k).2) then s
    else
      let entry := (descOf s r.work).entry
      if entry % 32 ≠ 0 then engineNoRecord k enDESC entry s
      else match readBytes (engineInit k) entry 64 s with
      | (.ok, b, _, s) =>
        let op := fld b 0 1
        if ops.contains op && op != mine then s
        else if !ops.contains op || !ok b then
          (if fld b statusAt 6 % 32 = 0 then engineRecord k (fld b statusAt 6) (fld b countAt 2) { error := enDESC } s
           else engineNoRecord k enDESC 0 s)
        else
          let (run, s2) := act b s
          if run.error = enWAIT then waitAt s s2
          else engineRecord k (fld b statusAt 6) (fld b countAt 2) run s2
      | (.wait, _, _, s) => s
      | (e, _, _, s) => engineNoRecord k (enError e) entry s

/-- Ranges read one after another, with the failing access when one fails. -/
def engineRead (i : Initiator) : List (Nat × Nat) → State → Except (Nat × Nat) Bytes × State
  | [], s => (.ok [], s)
  | (a, n) :: r, s =>
    match readBytes i a n s with
    | (.ok, b, _, s) =>
      match engineRead i r s with
      | (.ok bs, s) => (.ok (b ++ bs), s)
      | (.error e, s) => (.error e, s)
    | (e, _, at_, s) => (.error (enError e, at_), s)

/-- Buffers written one after another. -/
def engineWrite (i : Initiator) : List (Nat × Bytes) → State → Option (Nat × Nat) × State
  | [], s => (none, s)
  | (a, bs) :: r, s =>
    match writeBytes i a bs s with
    | (.ok, _, s) => engineWrite i r s
    | (e, at_, s) => (some (enError e, at_), s)

/-- The open output bytes of an engine from the byte numbered `o`. -/
def engineBytes (b input : Bytes) (o n : Nat) : Bytes := (List.range n).map fun k => Config.engineByte b input (o + k)

/-- An engine's run that failed at an access. -/
def engineBad (e : Nat × Nat) : EngineRun := { error := e.1, addr := e.2 }

/-- An engine's input as it uses it: a task that received INPUT_FAILED takes its input as erased, all zeros (R167). -/
def engineInput (k : Nat) (bs : Bytes) (s : State) : Bytes :=
  if (spFind s.shuttle.engines k).any (·.work.inputFailed) then zeros bs.length else bs

/-- The instances a lead hands code blocks to: up to SPREAD − 1, and no more than there are blocks, of those free, lowest
first (R309). -/
def lendTo (k : Nat) (pool : List Nat) (spread blocks : Nat) (s : State) : List Nat :=
  (pool.filter fun q => q != k && engineFree s q).take (min spread blocks - 1)

/-- Code blocks lent by the lead `k` to instances, whose BUSY shows it until the task completes (R309). -/
def lend (k : Nat) (qs : List Nat) (s : State) : State :=
  { s with shuttle := { s.shuttle with lent := qs.foldl (fun m q => spPut m q k) s.shuttle.lent } }

/-- The code bits that a block's `e` LLRs stand for, in the order of transmission: rate matching starts at the place RV
names and skips filler, and the bits are interleaved by QM (PRESUMED from TS 38.212, 5.4.2, log 115). -/
def codeOrder (b : Bytes) (e : Nat) : List Nat :=
  let bg := fld b 1 1
  let zc := fld b 2 2
  let ncb := fld b 16 4
  let f := fld b 10 2
  let kp := fld b 12 2 - 2 * zc
  let n := if bg = 1 then 66 else 50
  let a := [0, if bg = 1 then 17 else 13, if bg = 1 then 33 else 25, if bg = 1 then 56 else 43].getD (fld b 14 1) 0
  let k0 := a * ncb / (n * zc) * zc
  let free := ((List.range ncb).map fun j => (k0 + j) % ncb).filter fun j => !(kp - f ≤ j && j < kp)
  let seq := (List.range e).map fun j => free.getD (j % free.length) 0
  let qm := fld b 7 1
  (List.range e).map fun j => seq.getD (j % qm * (e / qm) + j / qm) 0

/-- New LLRs added to a block's soft buffer, each sum saturated at ±127 (R311). -/
def combineLlr (old : Bytes) : List (Nat × Byte) → Bytes
  | [] => old
  | (j, v) :: r =>
    combineLlr (old.set j (BitVec.ofInt 8 (max (-127) (min 127 (toS 8 (fld old j 1) + toS 8 v.toNat))))) r

/-- LDPC decoding (R310, R311). -/
def ldpcDecode (k : Nat) (b : Bytes) (s : State) : EngineRun × State :=
  let n := fld b 8 2
  let e := fun i => if i < fld b 28 2 then fld b 20 4 else fld b 24 4
  let ncb := fld b 16 4
  let soft := (List.range n).map fun i => (fld b 48 6 + 32 * i * ceilDiv ncb 32, ncb)
  let combine := bit (fld b 5 1) 0
  let i := engineInit k
  match engineRead i ((fld b 32 6, sumL ((List.range n).map e)) :: (if combine then soft else [])) s with
  | (.error x, s) => (engineBad x, s)
  | (.ok read, s) =>
    let size := sumL ((List.range n).map e)
    let llr := engineInput k (read.take size) s
    let input := llr ++ read.drop size
    let stride := 32 * ceilDiv (fld b 12 2 - fld b 10 2) 256
    let outs := (List.range n).map fun j => (fld b 40 6 + j * stride, engineBytes b input (j * stride) stride)
    let back := if combine && bit (fld b 5 1) 1 then
        (List.range n).map fun j =>
          let new := sub llr (sumL ((List.range j).map e)) (e j)
          (fld b 48 6 + 32 * j * ceilDiv ncb 32,
           fit (roundUp ncb 32) (combineLlr (sub read (size + j * ncb) ncb) ((codeOrder b (e j)).zip new)))
      else []
    match engineWrite i (outs ++ back) s with
    | (some x, s) => (engineBad x, s)
    | (none, s) =>
      let ok := fun j => Config.engineValue b input (2 * j) % 2 == 1
      let it := fun j => if ok j then 1 + Config.engineValue b input (2 * j + 1) % fld b 4 1 else fld b 4 1
      let qs := lendTo k (List.range 24) (fld b 6 1) n s
      ({ failed := ((List.range n).filter fun j => !ok j).length
         iters := sumL ((List.range n).map it)
         instances := 1 + qs.length
         pass := sumL (((List.range n).filter ok).map fun j => 2 ^ j) }, lend k qs s)

/-- LDPC encoding. -/
def ldpcEncode (k : Nat) (b : Bytes) (s : State) : EngineRun × State :=
  let n := fld b 8 2
  let e := fun i => if i < fld b 28 2 then fld b 20 4 else fld b 24 4
  let stride := 32 * ceilDiv (fld b 12 2 - fld b 10 2) 256
  let i := engineInit k
  match engineRead i [(fld b 32 6, n * stride)] s with
  | (.error x, s) => (engineBad x, s)
  | (.ok read, s) =>
    let input := engineInput k read s
    let size := 32 * ceilDiv (sumL ((List.range n).map e)) 256
    match engineWrite i [(fld b 40 6, engineBytes b input 0 size)] s with
    | (some x, s) => (engineBad x, s)
    | (none, s) =>
      let qs := lendTo k ((List.range 8).map (24 + ·)) (fld b 6 1) n s
      ({ instances := 1 + qs.length }, lend k qs s)

/-- A polar engine's work; `dec` for decoding. -/
def polarRun (dec : Bool) (k : Nat) (b : Bytes) (s : State) : EngineRun × State :=
  let n := fld b 12 2
  let llr := 32 * ceilDiv (fld b 8 2) 32
  let bitsN := 32 * ceilDiv (fld b 4 2) 256
  let (inS, outS) := if dec then (llr, bitsN) else (bitsN, llr)
  let i := engineInit k
  match engineRead i [(fld b 16 6, n * inS)] s with
  | (.error x, s) => (engineBad x, s)
  | (.ok read, s) =>
    let input := engineInput k read s
    match engineWrite i [(fld b 24 6, engineBytes b input 0 (n * outS))] s with
    | (some x, s) => (engineBad x, s)
    | (none, s) =>
      let ok := fun j => Config.engineValue b input j % 2 == 1
      if dec then
        ({ failed := ((List.range n).filter fun j => !ok j).length
           pass := sumL (((List.range n).filter ok).map fun j => 2 ^ j) }, s)
      else ({}, s)

/-- The keystream of an entry's algorithm: none for the null algorithm. -/
def streamByte (alg : Nat) (key ctx : Bytes) (n : Nat) : Byte := if alg = 0 then 0 else Config.keystream alg key ctx n

/-- A packet's authentication code: zeros for the null algorithm, 16 bytes under GCM and else 4. -/
def macOf (alg : Nat) (key ctx data : Bytes) : Bytes :=
  let n := if 0x10 ≤ alg then 16 else 4
  (List.range n).map fun k => if alg = 0 then 0 else Config.macByte alg key ctx data k

/-- Bytes written inside code words whose other bytes are written back as read (R314). -/
def mergeWrite (i : Initiator) (a : Nat) (bs : Bytes) (s : State) : Option (Nat × Nat) × State :=
  let lo := wordOf a
  let n := ceilDiv (a % 32 + bs.length) 32
  match readBytes i lo (32 * n) s with
  | (.ok, old, _, s) =>
    engineWrite i [(lo, old.take (a % 32) ++ bs ++ old.drop (a % 32 + bs.length))] s
  | (e, _, at_, s) => (some (enError e, at_), s)

/-- The key of slot `n` for the task of engine `k`: an audio leg's as it stood at dispatch, while the slot is not cleared
(R312, R313, R377). -/
def keyFor (k n : Nat) (s : State) : Option KeySlot :=
  match spFind s.keys n with
  | none => none
  | some key =>
    if 131072 ≤ n ∧ n < 139264 then (spFind s.shuttle.engines k).bind fun r => spFind r.keys n else some key

/-- The packets of a cipher list processed in order from number `j`: how many checks failed and which passed. -/
def cipherLoop (k : Nat) : List Bytes → Nat → EngineRun → State → EngineRun × State
  | [], _, r, s => (r, s)
  | e :: es, j, r, s =>
    if !entryOk e then ({ r with error := enDESC }, s)
    else match keyFor k (fld e 16 4) s with
    | none => ({ r with error := enKEY }, s)
    | some key =>
      let alg := fld e 20 1
      let ops := fld e 21 1
      let len := fld e 6 2
      let check := bit ops 2
      let macLen := if 0x10 ≤ alg then 16 else 4
      match engineRead (engineInit k) [(fld e 0 6, len + (if check then macLen else 0))] s with
      | (.error x, s) => ({ r with error := x.1, addr := x.2 }, s)
      | (.ok read, s) =>
        let src := engineInput k read s
        let data := src.take len
        let off := fld e 14 2
        let gcm := decide (0x10 ≤ alg)
        let ckey := key.first ++ (if gcm then key.second else [])
        let ctx := e.drop 20 ++ (if gcm then sub data 2 2 ++ sub data 8 4 else [])
        let out := if bit ops 0 then
            data.take off ++ (data.drop off).mapIdx fun n x => x ^^^ streamByte alg ckey ctx n
          else data
        let mac := macOf alg (if gcm then ckey else key.second) ctx (if gcm && !bit ops 3 then out else data)
        let ok := !check || src.drop len == mac
        match mergeWrite (engineInit k) (fld e 8 6) (out ++ (if bit ops 1 then mac else [])) s with
        | (some x, s) => ({ r with error := x.1, addr := x.2 }, s)
        | (none, s) =>
          cipherLoop k es (j + 1)
            { r with failed := r.failed + b2n (!ok), pass := r.pass + (if ok then 2 ^ j else 0) } s

/-- A cipher engine's work (R313, R314). -/
def cipherRun (k : Nat) (b : Bytes) (s : State) : EngineRun × State :=
  let n := fld b 2 2
  match engineRead (engineInit k) [(fld b 8 6, 32 * n)] s with
  | (.error x, s) => (engineBad x, s)
  | (.ok list, s) => cipherLoop k ((List.range n).map fun j => sub list (32 * j) 32) 0 {} s

/-- A ready engine task dispatched to the lowest-numbered free instance of its pool (R178, R309, R315). -/
def dispatchPool (target : Nat) (s : State) : State :=
  let ok := s.shuttle.ready.filter fun w => (descOf s w).target == target && !lateCancel s w
  match leastBy (edfKey s) ok, (poolKeys target).find? (engineFree s) with
  | some w, some k => startEngine k w s
  | _, _ => s

/-- A core's next task staged (R173, R181, R195). -/
def dispatchCore (c : Nat) (s : State) : State :=
  let s := failUnrunnable s
  if !crewUsable s (c / 8) || (spFind s.shuttle.staged c).isSome || (core s c).run == .reset then s
  else match chooseFor s c with
  | none => s
  | some w => stageOn c w s

end Sys2Proof.Machine
end

