-- ==== Sys2Proof/Machine/ShuttleRows.lean ====
section
/-!
DEFINITION. The commands of Shuttle, Beam, the crews' failure and the device-wide engines (05_shuttle.md; 08_coprocessors.md, R306 to R316).
-/
namespace Sys2Proof.Machine
open Sys2Proof

/-- SHUTTLE_ARM: a write of SHUTTLE_ARM (R159). -/
def execShuttleArm (task : BitVec 16) (s : State) : Res :=
  done (armOp task.toNat s)

/-- SHUTTLE_DEC: a write of SHUTTLE_DEC by an initiator (R162, R165, R166). -/
def execShuttleDec (i : Initiator) (task : BitVec 16) (count : BitVec 12) (s : State) : Res :=
  done (notify task.toNat count.toNat i s)

/-- PENDING_INSTANCE_CREATE: instances of pending notices are created in order as room appears (R170). -/
def execPendingInstanceCreate (task : BitVec 16) (s : State) : Res :=
  done (drainPending task.toNat 4095 s)

/-- TASK_READY: a slot whose counter is zero and whose release has come becomes READY (R163). -/
def execTaskReady (task : BitVec 16) (s : State) : Res :=
  done (rescueEval (readyOp task.toNat s))

/-- TASK_DISPATCH: Shuttle chooses a ready task for a core's staged entry, an engine pool or a DMA channel (R178, R181). -/
def execTaskDispatch (to_ : DispatchTo) (s : State) : Res :=
  done (rescueEval (match to_ with
    | .core c => dispatchCore c s
    | .pool t => dispatchPool t s
    | .dma ch => dmaStage ch s))

/-- SHUTTLE_BEAM_PUT: a write of SHUTTLE_BEAM_PUT by an initiator (R198, R199). -/
def execShuttleBeamPut (i : Initiator) (handle : BitVec 32) (s : State) : Res :=
  done (beamPutOp i handle.toNat s).2

/-- TASK_COMPLETION: a core task's completion after its drain and clean (R175). -/
def execTaskCompletion (c : Fin 96) (s : State) : Res :=
  done (taskCompletionOp c s)

/-- BEAM_TIMEOUT: a head sequence waiting longer than TIMEOUT is skipped (R202). -/
def execBeamTimeout (flow : Fin 4096) (s : State) : Res :=
  done (beamTimeoutOp flow s)

/-- ENGINE_COMPLETION: a device-wide engine completes its task (R308); engines 0 to 39 are FEC, 40 to 43 CIPHER. -/
def execEngineCompletion (engine : Fin 44) (s : State) : Res :=
  done (engineCompletionOp engine s)

/-- RESCUE_EVALUATION: the projections are evaluated (R184 to R189, R194). -/
def execRescueEvaluation (s : State) : Res :=
  done (rescueEval s)

/-- TASK_WATCHDOG: a core task past start + WDOG × COST is ended (R190). -/
def execTaskWatchdog (c : Fin 96) (s : State) : Res :=
  done (watchdogOp c s)

/-- CANCEL_LATE: a CANCEL_LATE task or instance not dispatched by its deadline is cancelled (R191). -/
def execCancelLate (task : BitVec 16) (inst : Fin 16384) (s : State) : Res :=
  done (cancelLateOp task.toNat inst s)

/-- CREW_FAILURE: a crew with a fault bit set fails under R193. -/
def execCrewFailure (crew : Fin 12) (s : State) : Res :=
  done (crewFailureOp crew s)

/-- CREW_FATAL: a CREW_FAULT bit (0 PLL_UNLOCK, 1 SUPPLY_LOW, 2 CTRL_UE) sets; the crew raises CREW_FATAL and fails (R262). -/
def execCrewFatal (crew : Fin 12) (fault : Fin 3) (s : State) : Res :=
  done (crewFailureOp crew (crewFatalOp crew fault s))

/-- SERVICE_REQ: a write of SHUTTLE_CTRL.SERVICE_REQ (R180). -/
def execServiceReq (value : BitVec 2) (s : State) : Res :=
  done (serviceReqOp value.toNat s)

/-- SERVICE_SET: selects NORMAL or TEST service (R180, R210). -/
def execServiceSet (r : Request) (s : State) : Res :=
  done (serviceSetOp r s)

/-- CREW_RETIRE: retires a crew, which then fails under R193 (R210, R262). -/
def execCrewRetire (r : Request) (s : State) : Res :=
  done (crewRetireOp r s)

/-- SHUTTLE_STATS: the Shuttle counters of a crew or the device (R210). -/
def execShuttleStats (r : Request) (s : State) : Res :=
  done (shuttleStatsOp r s)

/-- TASK_SET_STOPPED: a stopping task set reaches STOPPED when its last running task has ended (R209). -/
def execTaskSetStopped (index : BitVec 16) (s : State) : Res :=
  done (taskSetStoppedOp index.toNat s)

/-- LDPC_DECODE: an LDPC decoder decodes its task's code blocks and writes its status record (R310). -/
def execLdpcDecode (engine : Fin 24) (s : State) : Res :=
  done (engineWork engine 1 [1] ldpcOk 56 8 (ldpcDecode engine) s)

/-- LDPC_ENCODE: an LDPC encoder encodes its task's code blocks (R309). -/
def execLdpcEncode (engine : Fin 8) (s : State) : Res :=
  done (engineWork (24 + engine) 2 [2] ldpcOk 56 8 (ldpcEncode (24 + engine)) s)

/-- POLAR_DECODE: a polar engine decodes its task's candidates (R306). -/
def execPolarDecode (engine : Fin 8) (s : State) : Res :=
  done (engineWork (32 + engine) 4 [3, 4] polarOk 32 12 (polarRun true (32 + engine)) s)

/-- POLAR_ENCODE: a polar engine encodes its task's candidates (R306). -/
def execPolarEncode (engine : Fin 8) (s : State) : Res :=
  done (engineWork (32 + engine) 3 [3, 4] polarOk 32 12 (polarRun false (32 + engine)) s)

/-- CIPHER_TASK: a cipher engine processes its task's packet list (R313). -/
def execCipherTask (engine : Fin 4) (s : State) : Res :=
  done (engineWork (40 + engine) 5 [5] cipherOk 16 2 (cipherRun (40 + engine)) s)

end Sys2Proof.Machine
end

