-- ==== Sys2Proof/Machine/VideoRows.lean ====
section
/-!
DEFINITION. The commands of the video bridge and the forwarder (11_video_bridge.md).
-/
namespace Sys2Proof.Machine
open Sys2Proof

/-- VIDEO_SESSION_RUNNING: an admitted session reaches RUNNING (R390). -/
def execVideoSessionRunning (k : Fin 4096) (s : State) : Res :=
  done (videoRunning k s)

/-- VIDEO_SESSION_STOPPED: a stopping session reaches STOPPED (R65, R390). -/
def execVideoSessionStopped (k : Fin 4096) (s : State) : Res :=
  done (videoStopped k s)

/-- ACCESS_UNIT: the head of a DECODE session's IN_Q is taken (R392). -/
def execAccessUnit (k : Fin 4096) (s : State) : Res :=
  done (accessUnit k s)

/-- PICTURE_DECODE: a session's oldest decode completes (R387, R391). -/
def execPictureDecode (k : Fin 4096) (s : State) : Res :=
  done (pictureDecode k s)

/-- PICTURE_ENCODE: a session's encode completes (R387, R391, R400). -/
def execPictureEncode (k : Fin 4096) (s : State) : Res :=
  done (pictureEncode k s)

/-- COMPOSE_FRAME: the frame of a layout at its boundary (R394 to R396). -/
def execComposeFrame (layout : Fin 8) (s : State) : Res :=
  done (composeFrame layout s)

/-- ST2110_PACKET: a packet of an RX_2110 session: its port, RTP sequence number, timestamp, SSRC and payload type, and its line segments as line, offset and bytes (R397 to R399). -/
def execSt2110Packet (k : Fin 4096) (port : Fin 48) (seq : BitVec 16) (ts : BitVec 32) (ssrc : BitVec 32) (pt : BitVec 7) (segs : List (Fin 4096 × Fin 16384 × List (BitVec 8))) (s : State) : Res :=
  done (st2110Packet k port seq.toNat ts.toNat ssrc.toNat pt.toNat (segs.map fun g => (g.1.val, g.2.1.val, g.2.2)) s)

/-- ST2110_PICTURE_ELIGIBLE: a received picture becomes eligible (R387, R399). -/
def execSt2110PictureEligible (k : Fin 4096) (s : State) : Res :=
  done (st2110Eligible k s)

/-- TX_2110_PICTURE: a TX_2110 session sends a picture (R387). -/
def execTx2110Picture (k : Fin 4096) (s : State) : Res :=
  done (tx2110 k s)

/-- STREAM_PACKET: the head of a stream's queue reaches the forwarder (R400, R408 to R413). -/
def execStreamPacket (n : Fin 512) (s : State) : Res :=
  done (streamPacket n s)

/-- LAYER_RATE_MEASURE: layer rates are measured and targets recomputed (R406, R407). -/
def execLayerRateMeasure (s : State) : Res :=
  done (layerRates s)

/-- FORECAST_RECORD: the head of a carrier's FC_Q is taken (R401 to R403). -/
def execForecastRecord (c : Fin 64) (s : State) : Res :=
  done (forecastRecordOp c s)

/-- FORECAST_RELAY: a relayed record of 32 bytes arrives from a device (R403). -/
def execForecastRelay (device : BitVec 12) (record : List (BitVec 8)) (s : State) : Res :=
  done (forecastRelay device.toNat (fit 32 record) s)

/-- FORECAST_STALE: a HANDSET leg has had no record for STALE_MS (R404). -/
def execForecastStale (l : Fin 4096) (s : State) : Res :=
  done (forecastStale l s)

/-- FEEDBACK_RECORD: the head of FWD_FB_Q is taken (R405, R409). -/
def execFeedbackRecord (s : State) : Res :=
  done (feedbackRecord s)

/-- UP_HOLD_EXPIRY: a higher target has been held for UP_HOLD (R407). -/
def execUpHoldExpiry (l : Fin 4096) (s : State) : Res :=
  done (upHold l s)

/-- KEY_REQUEST: no KEY has arrived within KEY_WAIT (R409). -/
def execKeyRequest (l : Fin 4096) (s : State) : Res :=
  done (keyRequest l s)

/-- STREAM_PACKET_EXPIRY: packets of a stream have been held 200 ms (R412). -/
def execStreamPacketExpiry (n : Fin 512) (s : State) : Res :=
  done (streamExpiry n s)

/-- LAYOUT_SET: sets a layout (R393, R396, R414). -/
def execLayoutSet (r : Request) (s : State) : Res :=
  done (layoutSetOp r s)

/-- LAYOUT_GET: returns a layout. -/
def execLayoutGet (r : Request) (s : State) : Res :=
  done (layoutGetOp r s)

/-- FWD_LEG_ADD: adds a video leg (R403, R414, R415). -/
def execFwdLegAdd (r : Request) (s : State) : Res :=
  done (fwdAddOp r s)

/-- FWD_LEG_REMOVE: removes a video leg (R415). -/
def execFwdLegRemove (r : Request) (s : State) : Res :=
  done (fwdRemoveOp r s)

/-- FWD_LEG_STATS: a video leg's counters (R415). -/
def execFwdLegStats (r : Request) (s : State) : Res :=
  done (fwdStatsOp r s)

/-- FWD_CLEAR_ALL: CLEAR_ALL of FWD_CTRL (R416). -/
def execFwdClearAll (s : State) : Res :=
  done (fwdClear s)

end Sys2Proof.Machine
end

