-- ==== Sys2Proof/Machine/WeftRows.lean ====
section
/-!
DEFINITION. The commands of Weft (15_weft_network.md).
-/
namespace Sys2Proof.Machine
open Sys2Proof

/-- CREDIT: a CREDIT packet returns the credits of flits that left the request buffer of `dst` to `src` (R521, R523). -/
def execCredit (src : Fin 64) (dst : Fin 64) (flits : Fin 1025) (s : State) : Res :=
  done (creditOp src dst flits s)

/-- GATEWAY_HEAD_FLIT: a packet is sent and its head flit reaches the gateway of its destination, at once where it meets no other packet and no draining router (R515, R516, R519 to R522, R526, R530, R536, R537). `bad` and `corrected` name a router and input port at which the link found an uncorrectable or a correctable error. -/
def execGatewayHeadFlit (src : Fin 64) (dst : Fin 64) (vc : Fin 4) (pkt : WeftPacket) (bad : Option (Fin 64 × Fin 5)) (corrected : Option (Fin 64 × Fin 5)) (s : State) : Res :=
  done (headFlit { src := src, dst := dst, vc := vc, kind := pkt.kind, len := pkt.len, tag := pkt.tag, bodyBad := pkt.bodyBad }
    (bad.map fun e => (e.1.val, e.2.val)) (corrected.map fun e => (e.1.val, e.2.val)) s)

/-- REQUEST_TIMEOUT: a request without a response in 10 ms (R524). -/
def execRequestTimeout (i : Initiator) (src : Fin 64) (dst : Fin 64) (req : WeftRequest) (s : State) : Res :=
  done (requestTimeout i src dst req.tag.toNat req.addr.toNat s)

/-- CREDIT_SYNC: a CREDIT_SYNC is answered with the credits the source holds (R524). -/
def execCreditSync (src : Fin 64) (dst : Fin 64) (s : State) : Res :=
  done (creditSync src dst s)

/-- WEFT_ROUTE: a write of WEFT_ROUTE of a router (R527, R528). -/
def execWeftRoute (node : Fin 64) (value : BitVec 32) (s : State) : Res :=
  done (routeOp node value.toNat s)

/-- WEFT_DRAIN: schedules a drain window (R533, R541). -/
def execWeftDrain (r : Request) (s : State) : Res :=
  done (weftDrainOp r s)

/-- DRAIN_START: START of a router's drain window (R529, R533). -/
def execDrainStart (node : Fin 64) (s : State) : Res :=
  done (drainStart node s)

/-- DRAINED: the draining router holds no flit (R531). -/
def execDrained (node : Fin 64) (s : State) : Res :=
  done (drainedOp node s)

/-- DRAIN_END: END of a router's drain window (R532). -/
def execDrainEnd (node : Fin 64) (s : State) : Res :=
  done (drainEnd node s)

/-- WEFT_BIST: BIST written in DRAINED: the self-test runs, and passes or fails (R531). -/
def execWeftBist (node : Fin 64) (pass : Bool) (s : State) : Res :=
  done (bistOp node pass s)

/-- WEFT_LINK_LOAD: an output's admitted class-0 load (R541). -/
def execWeftLinkLoad (r : Request) (s : State) : Res :=
  done (linkLoadOp r s)

/-- WEFT_PATH: a path's router count and class-0 bound (R541). -/
def execWeftPath (r : Request) (s : State) : Res :=
  done (weftPathOp r s)

end Sys2Proof.Machine
end

