-- ==== Sys2Proof/Machine/TakeRows.lean ====
section
/-!
DEFINITION. The command interface takes a request: the transports in turn, the checks of R40 that come before the command's own,
and the command of each opcode (02_commands.md, R40 to R44; 03_boot_identity.md, R100).
-/
namespace Sys2Proof.Machine
open Sys2Proof

/-- A command by its opcode. -/
abbrev OpRow := Nat × (Request → State → Res)

/-- The specific opcodes of the system family and of time, fabric and power. -/
def systemOps : List OpRow :=
  [
    (0x0140, execCapsCmd), (0x0141, execEchoCmd), (0x0142, execCmdQuery),
    (0x0143, execCancelCmd), (0x0144, execConfigExport), (0x0145, execConfigInstall),
    (0x0146, execDeviceReset), (0x0540, execTimeSet), (0x0541, execTimeAdjust),
    (0x0542, execTimeGet), (0x0543, execPtpPortStats), (0x0640, execNvRead),
    (0x0641, execNvWrite), (0x0740, execPowerSet), (0x0741, execPowerStatus) ]

/-- The specific opcodes of carriers, chirp and media. -/
def radioOps : List OpRow :=
  [
    (0x0240, execHandsetAdd), (0x0241, execHandsetModify), (0x0242, execHandsetRemove),
    (0x0243, execHandsetStats), (0x0244, execCarrierStats), (0x0340, execTagSet),
    (0x0341, execTagRemove), (0x0342, execTagGet), (0x0343, execChirpStats),
    (0x0440, execLegAdd), (0x0441, execLegRemove), (0x0442, execLegParam),
    (0x0443, execLegStats), (0x0444, execLegKeySet), (0x0450, execLayoutSet),
    (0x0451, execLayoutGet), (0x0452, execFwdLegAdd), (0x0453, execFwdLegRemove),
    (0x0454, execFwdLegStats) ]

/-- The specific opcodes of security, diagnosis, Bupex, queues and tasks. -/
def otherOps : List OpRow :=
  [
    (0x0840, execImagePush), (0x0841, execImageInstall), (0x0842, execBootContinue),
    (0x0843, execRollbackAdvance), (0x0844, execIdentityGet), (0x0845, execCertGet),
    (0x0846, execAttest), (0x0847, execOwnerKeysSet), (0x0848, execOwnerKeyRevoke),
    (0x0940, execSfgStatus), (0x0941, execFaultInject), (0x0942, execFaultClear),
    (0x0A40, execMdStatus), (0x0A41, execBupexLinkStats), (0x0A42, execBupexBootSend),
    (0x0B40, execServiceSet), (0x0B41, execCrewRetire), (0x0B42, execShuttleStats),
    (0x0B50, execQueueReclaim), (0x0B51, execQueueStats), (0x0B60, execWeftDrain),
    (0x0B61, execWeftLinkLoad), (0x0B62, execWeftPath) ]

/-- The generic commands 0x01 to 0x07 of a family that has objects. -/
def genericOp (family low : Nat) : Option (Request → State → Res) :=
  let f := BitVec.ofNat 8 family
  if !hasObjects family then none
  else match low with
  | 1 => some (execObjSet f)
  | 2 => some (execObjGet f)
  | 3 => some (execStartFn f)
  | 4 => some (execStopFn f)
  | 5 => some (execObjDelete f)
  | 6 => some (execObjState f)
  | 7 => some (execObjList f)
  | _ => none

/-- The command of an opcode; none for one that is unassigned (Opcodes). -/
def commandOf (op : Nat) : Option (Request → State → Res) :=
  match genericOp (op / 256) (op % 256) with
  | some f => some f
  | none => ((systemOps ++ radioOps ++ otherOps).find? fun e => e.1 == op).map (·.2)

/-- A family is accepted on a transport (SYS_CMD_FAMILY_MASK). -/
def familyAllowed (s : State) (t : Transport) (family : Nat) : Bool :=
  bit (regGet s uSYS 0 (0x114 + 4 * transportNo t)).toNat family && family < 16

/-- The commands that WAIT_HOST and CONFIG_INVALID execute (R100). -/
def gateOpen (op : Nat) : Bool :=
  [0x0140, 0x0141, 0x0142, 0x0143, 0x0145, 0x0146, 0x0940].contains op || op / 256 == 8

/-- The status the boot state refuses a command with (R100). -/
def gateStatus (s : State) (op : Nat) : Nat :=
  if gateOpen op then 0 else if bootState s = 8 then 0x0801 else if bootState s = 9 then stCONFIG_INVALID else 0

/-- The request of a packet, as its command sees it. -/
def packetRequest (t : Transport) (q : RawReq) : Request :=
  let d := q.data
  { transport := t, source := q.source
    sequence := if d.length < 4 then 0 else BitVec.ofNat 16 (fld d 2 2)
    unit := BitVec.ofNat 8 (fld d 6 1), inst := BitVec.ofNat 8 (fld d 7 1), flags := BitVec.ofNat 8 (fld d 8 1)
    reserved := !rsv d 10 6
    params := d.drop 16 }

/-- The checks of R40 that come before the command's target: length, version, flags, opcode, family mask and boot state. -/
def packetCheck (s : State) (t : Transport) (q : RawReq) : Nat :=
  let d := q.data
  let op := fld d 0 2
  firstFail [
    need (4 ≤ fld d 4 2 && fld d 4 2 ≤ 1024 && q.words == some (fld d 4 2)) stBAD_LENGTH,
    need (fld d 9 1 == 1) stVERSION_UNSUPPORTED,
    need (fld d 8 1 < 4) stBAD_PARAM,
    need (commandOf op).isSome stBAD_OPCODE,
    need (familyAllowed s t (op / 256)) stNOT_AUTHORISED,
    gateStatus s op]

/-- A request taken: its checks, its effect and its immediate reply (R40, R44). -/
def runRequest (t : Transport) (q : RawReq) (s : State) : State :=
  let op := fld q.data 0 2
  let r := packetRequest t q
  let st := packetCheck s t q
  if st ≠ 0 then reply op r st [] s
  else match commandOf op with
  | none => reply op r stBAD_OPCODE [] s
  | some f => match f r s with
    | .next s => s
    | .fault _ => s
    | .refused _ => s

/-- The queue of a transport that waits and has room for two replies (R43). -/
def waitingOn (s : State) (t : Transport) : List RawReq :=
  match t with
  | .pcie => if s.cmd.replies.length ≤ 62 then s.cmd.reqPcie else []
  | .eth => s.cmd.reqEth
  | .uart => s.cmd.reqUart

/-- The rest of a transport's queue. -/
def takeOff (t : Transport) (rest : List RawReq) (c : CmdIf) : CmdIf :=
  let c := { c with turn := (transportNo t + 1) % 3 }
  match t with
  | .pcie => { c with reqPcie := rest }
  | .eth => { c with reqEth := rest }
  | .uart => { c with reqUart := rest }

/-- The next request of the first of some transports that has one (R42); one that needs a memory that is asleep waits in
its queue. -/
def takeFrom : List Transport → State → State
  | [], s => s
  | t :: ts, s =>
    match waitingOn s t with
    | [] => takeFrom ts s
    | q :: rest =>
      match (if packetCheck s t q = 0 then requestWait (fld q.data 0 2) (packetRequest t q) s else none) with
      | some s => s
      | none => runRequest t q { s with cmd := takeOff t rest s.cmd }

/-- The command interface takes the next request in the rotation. -/
def requestTaken (s : State) : State :=
  takeFrom ((List.range 3).map fun k => transportOf ((s.cmd.turn + k) % 3)) s

/-- REQUEST_TAKEN: the command interface takes the next request in transport rotation (R42). -/
def execRequestTaken (s : State) : Res :=
  done (unheld requestTaken s)

end Sys2Proof.Machine
end

