-- ==== Sys2Proof/Machine/VecAlu.lean ====
section
/-!
DEFINITION. The vector arithmetic, compare, reduction, permute, mask and shape instructions (07_vector.md, Encodings;
R268 to R275).
-/
namespace Sys2Proof.Machine
open Sys2Proof

/-- VADD: elements added, wrapping. -/
def execVadd (c : Fin 96) (f : VArith) (s : State) : Res :=
  vArith c f (fun t => isIntT t || isCintT t) .same false (fun h _ a b => byParts h (partW h) (partW h) (fun a b => (a + b, 0)) a b) s

/-- VSUB: elements subtracted, wrapping. -/
def execVsub (c : Fin 96) (f : VArith) (s : State) : Res :=
  vArith c f (fun t => isIntT t || isCintT t) .same false (fun h _ a b => byParts h (partW h) (partW h) (fun a b => (a + 2 ^ partW h - b, 0)) a b) s

/-- VADDS: elements added with saturation (R272). -/
def execVadds (c : Fin 96) (f : VArith) (s : State) : Res :=
  vArith c f (fun t => isIntT t || isCintT t) .same false (fun h _ a b => byParts h (partW h) (partW h) (fun a b => satFlag (partW h) (toS (partW h) a + toS (partW h) b)) a b) s

/-- VSUBS: elements subtracted with saturation (R272). -/
def execVsubs (c : Fin 96) (f : VArith) (s : State) : Res :=
  vArith c f (fun t => isIntT t || isCintT t) .same false (fun h _ a b => byParts h (partW h) (partW h) (fun a b => satFlag (partW h) (toS (partW h) a - toS (partW h) b)) a b) s

/-- VAND: bitwise on element bits. -/
def execVand (c : Fin 96) (f : VArith) (s : State) : Res :=
  vArith c f (fun _ => true) .same false (fun _ _ a b => (Nat.land a b, 0)) s

/-- VOR: bitwise on element bits. -/
def execVor (c : Fin 96) (f : VArith) (s : State) : Res :=
  vArith c f (fun _ => true) .same false (fun _ _ a b => (Nat.lor a b, 0)) s

/-- VXOR: bitwise on element bits. -/
def execVxor (c : Fin 96) (f : VArith) (s : State) : Res :=
  vArith c f (fun _ => true) .same false (fun _ _ a b => (Nat.xor a b, 0)) s

/-- VMIN: the signed minimum. -/
def execVmin (c : Fin 96) (f : VArith) (s : State) : Res :=
  vArith c f isIntT .same false (fun h _ a b => (if toS h.ew b < toS h.ew a then b else a, 0)) s

/-- VMAX: the signed maximum. -/
def execVmax (c : Fin 96) (f : VArith) (s : State) : Res :=
  vArith c f isIntT .same false (fun h _ a b => (if toS h.ew a < toS h.ew b then b else a, 0)) s

/-- VMINU: the unsigned minimum. -/
def execVminu (c : Fin 96) (f : VArith) (s : State) : Res :=
  vArith c f isIntT .same false (fun _ _ a b => (if b < a then b else a, 0)) s

/-- VMAXU: the unsigned maximum. -/
def execVmaxu (c : Fin 96) (f : VArith) (s : State) : Res :=
  vArith c f isIntT .same false (fun _ _ a b => (if a < b then b else a, 0)) s

/-- VSLL: shifted left by b mod EW, no rounding. -/
def execVsll (c : Fin 96) (f : VArith) (s : State) : Res :=
  vArith c f isIntT .same true (fun h _ a b => (a * 2 ^ (b % h.ew), 0)) s

/-- VSRL: shifted right logically by b mod EW, no rounding. -/
def execVsrl (c : Fin 96) (f : VArith) (s : State) : Res :=
  vArith c f isIntT .same true (fun h _ a b => (a / 2 ^ (b % h.ew), 0)) s

/-- VSRA: shifted right arithmetically by b mod EW, no rounding. -/
def execVsra (c : Fin 96) (f : VArith) (s : State) : Res :=
  vArith c f isIntT .same true (fun h _ a b => (ofS h.ew (Int.fdiv (toS h.ew a) ((2 : Int) ^ (b % h.ew))), 0)) s

/-- VNSRA: a narrowing right shift, rounded and wrapped (R271). -/
def execVnsra (c : Fin 96) (f : VArith) (s : State) : Res :=
  vArith c f (fun t => (isIntT t || isCintT t) && t != 0) .narrow true
    (fun h _ a b => byParts h (2 * partW h) (partW h)
      (fun a _ => (ofS (partW h) (rndShift h.rm (toS (2 * partW h) a) (b % (2 * h.ew))), 0)) a 0) s

/-- VNSRAS: a narrowing right shift, rounded and saturated (R271, R272). -/
def execVnsras (c : Fin 96) (f : VArith) (s : State) : Res :=
  vArith c f (fun t => (isIntT t || isCintT t) && t != 0) .narrow true
    (fun h _ a b => byParts h (2 * partW h) (partW h)
      (fun a _ => satFlag (partW h) (rndShift h.rm (toS (2 * partW h) a) (b % (2 * h.ew)))) a 0) s

/-- VMUL: the low EW bits of the product. -/
def execVmul (c : Fin 96) (f : VArith) (s : State) : Res :=
  vArith c f isIntT .same false (fun _ _ a b => (a * b, 0)) s

/-- VMULQ: a rounded, saturated Q-format product (R271, R272). -/
def execVmulq (c : Fin 96) (f : VArith) (s : State) : Res :=
  vArith c f (fun t => t == 1 || t == 2) .same false
    (fun h _ a b => satFlag h.ew (rndShift h.rm (toS h.ew a * toS h.ew b) (h.ew - 1))) s

/-- VMACW: the widened product added to the destination (R273). -/
def execVmacw (c : Fin 96) (f : VArith) (s : State) : Res :=
  vArith c f (fun t => isIntT t && t != 3) .widen false
    (fun h d a b => accFlag (2 * h.ew) (toS (2 * h.ew) d + toS h.ew a * toS h.ew b)) s

/-- VMSUW: the widened product subtracted from the destination (R273). -/
def execVmsuw (c : Fin 96) (f : VArith) (s : State) : Res :=
  vArith c f (fun t => isIntT t && t != 3) .widen false
    (fun h d a b => accFlag (2 * h.ew) (toS (2 * h.ew) d - toS h.ew a * toS h.ew b)) s

/-- The exact complex product of two cint16 elements, its second factor conjugated when asked. -/
def cprod (conj : Bool) (a b : Nat) : Int × Int :=
  let p := fun (n : Nat) => toS 16 n
  let q := fun (n : Nat) => toS 16 (n / 2 ^ 16)
  let bq := if conj then -(q b) else q b
  (p a * p b - q a * bq, p a * bq + q a * p b)

/-- A cint32 element from its parts, with AOV when one lies outside its range. -/
def caccFlag (i q : Int) : Nat × Nat :=
  ((accFlag 32 i).1 + 2 ^ 32 * (accFlag 32 q).1, Nat.lor (accFlag 32 i).2 (accFlag 32 q).2)

/-- VCMULW: the exact widened complex product. -/
def execVcmulw (c : Fin 96) (f : VArith) (s : State) : Res :=
  vArith c f (fun t => t == 4) .widen false
    (fun _ _ a b => (ofS 32 (cprod false a b).1 + 2 ^ 32 * ofS 32 (cprod false a b).2, 0)) s

/-- VCMACW: a widened complex product accumulated (R273). -/
def execVcmacw (c : Fin 96) (f : VArith) (s : State) : Res :=
  vArith c f (fun t => t == 4) .widen false
    (fun _ d a b => caccFlag (toS 32 d + (cprod false a b).1) (toS 32 (d / 2 ^ 32) + (cprod false a b).2)) s

/-- VCMACJW: a widened complex product with the conjugate of b accumulated (R273). -/
def execVcmacjw (c : Fin 96) (f : VArith) (s : State) : Res :=
  vArith c f (fun t => t == 4) .widen false
    (fun _ d a b => caccFlag (toS 32 d + (cprod true a b).1) (toS 32 (d / 2 ^ 32) + (cprod true a b).2)) s

/-- VCMULQ: a complex Q15 product, rounded and saturated per part (R271, R272). -/
def execVcmulq (c : Fin 96) (f : VArith) (s : State) : Res :=
  vArith c f (fun t => t == 4) .same false
    (fun h _ a b =>
      let i := satFlag 16 (rndShift h.rm (cprod false a b).1 15)
      let q := satFlag 16 (rndShift h.rm (cprod false a b).2 15)
      (i.1 + 2 ^ 16 * q.1, Nat.lor i.2 q.2)) s

/-- VFADD: binary32 addition (R274). -/
def execVfadd (c : Fin 96) (f : VArith) (s : State) : Res :=
  vArith c f (fun t => t == 6 || t == 7) .same false
    (fun h _ a b => byParts h 32 32 (fpAdd h.rm h.ftz) a b) s

/-- VFSUB: binary32 subtraction (R274). -/
def execVfsub (c : Fin 96) (f : VArith) (s : State) : Res :=
  vArith c f (fun t => t == 6 || t == 7) .same false
    (fun h _ a b => byParts h 32 32 (fpSub h.rm h.ftz) a b) s

/-- The complex product of two cfp32 elements added to `d` (none for a plain product), each part from exact products and
rounded once. -/
def cfpFma (h : Shape) (d : Option Nat) (a b : Nat) : Nat × Nat :=
  let lo := fun (n : Nat) => n % 2 ^ 32
  let hi := fun (n : Nat) => n / 2 ^ 32 % 2 ^ 32
  let term := fun (g : Nat → Nat) => match d with
    | some v => [g v]
    | none => []
  let i := fpDot h.rm h.ftz (passNan a b ((d.getD 0) * 2)) [(false, lo a, lo b), (true, hi a, hi b)] (term lo)
  let q := fpDot h.rm h.ftz (passNan a b ((d.getD 0) * 2 + 1)) [(false, lo a, hi b), (false, hi a, lo b)] (term hi)
  (i.1 + 2 ^ 32 * q.1, Nat.lor i.2 q.2)

/-- VFMUL: binary32 multiplication; a cfp32 product from exact part products (R274). -/
def execVfmul (c : Fin 96) (f : VArith) (s : State) : Res :=
  vArith c f (fun t => t == 6 || t == 7) .same false
    (fun h _ a b => if h.et = 7 then cfpFma h none a b else fpMul h.rm h.ftz a b) s

/-- VFMA: d + a × b, rounded once (R274). -/
def execVfma (c : Fin 96) (f : VArith) (s : State) : Res :=
  vArith c f (fun t => t == 6 || t == 7) .same false
    (fun h d a b => if h.et = 7 then cfpFma h (some d) a b else fpFma h.rm h.ftz d a b) s

/-- VFMIN: the binary32 minimum (R274). -/
def execVfmin (c : Fin 96) (f : VArith) (s : State) : Res :=
  vArith c f (fun t => t == 6) .same false (fun h _ a b => fpMinMax false h.ftz a b) s

/-- VFMAX: the binary32 maximum (R274). -/
def execVfmax (c : Fin 96) (f : VArith) (s : State) : Res :=
  vArith c f (fun t => t == 6) .same false (fun h _ a b => fpMinMax true h.ftz a b) s

/-- VFRECE: an estimate of 1/a (R274). -/
def execVfrece (c : Fin 96) (f : VArith) (s : State) : Res :=
  vEstimate c f (fun h a => fpRece h.rm h.ftz a) s

/-- VFRSQE: an estimate of 1/√a (R274). -/
def execVfrsqe (c : Fin 96) (f : VArith) (s : State) : Res :=
  vEstimate c f (fun h a => fpRsqe h.rm h.ftz a) s

/-- VFCVT.I: binary32 to saturated int32 (R275). -/
def execVfcvtI (c : Fin 96) (f : VArith) (s : State) : Res :=
  vArith c f (fun t => t == 6) .same false (fun h _ a _ => fpToInt h.rm h.ftz a) s

/-- VFCVT.F: int32 to binary32, rounded by RMODE (R271). -/
def execVfcvtF (c : Fin 96) (f : VArith) (s : State) : Res :=
  vArith c f (fun t => t == 6) .same false (fun h _ a _ => fpOfInt h.rm a) s

/-- VCMPEQ: mask bits from an integer comparison (R270). -/
def execVcmpeq (c : Fin 96) (f : VArith) (s : State) : Res :=
  vCmpInt c f true (fun a b => a == b) s

/-- VCMPNE: mask bits from an integer comparison (R270). -/
def execVcmpne (c : Fin 96) (f : VArith) (s : State) : Res :=
  vCmpInt c f true (fun a b => a != b) s

/-- VCMPLT: mask bits from an integer comparison (R270). -/
def execVcmplt (c : Fin 96) (f : VArith) (s : State) : Res :=
  vCmpInt c f true (fun a b => decide (a < b)) s

/-- VCMPLTU: mask bits from an integer comparison (R270). -/
def execVcmpltu (c : Fin 96) (f : VArith) (s : State) : Res :=
  vCmpInt c f false (fun a b => decide (a < b)) s

/-- VCMPLE: mask bits from an integer comparison (R270). -/
def execVcmple (c : Fin 96) (f : VArith) (s : State) : Res :=
  vCmpInt c f true (fun a b => decide (a ≤ b)) s

/-- VCMPLEU: mask bits from an integer comparison (R270). -/
def execVcmpleu (c : Fin 96) (f : VArith) (s : State) : Res :=
  vCmpInt c f false (fun a b => decide (a ≤ b)) s

/-- VFCMPEQ: mask bits from binary32 equality; a NaN compares false (R270). -/
def execVfcmpeq (c : Fin 96) (f : VArith) (s : State) : Res :=
  vCompare c f (fun t => t == 6) (fun h a b => fpEq h.ftz a b) s

/-- VFCMPLT: mask bits from binary32 less-than; a NaN compares false (R270). -/
def execVfcmplt (c : Fin 96) (f : VArith) (s : State) : Res :=
  vCompare c f (fun t => t == 6) (fun h a b => fpLt h.ftz a b) s

/-- VMERGE: b where the mask bit is 1, else a; requires MEN = 1. -/
def execVmerge (c : Fin 96) (f : VArith) (s : State) : Res :=
  onCore c (fun x s =>
    let h := shapeOf x
    if !f.men then exception c exILLEGAL 0 s
    else if f.vd.val % h.grp != 0 || f.vs1.val % h.grp != 0 || !secondOk f.b h.grp then exception c exVREG 0 s
    else
      let ga := getGroup x f.vs1 h.grp
      let (r, _) := elemLoop h (fun _ => true) h.ew (getGroup x f.vd h.grp) fun i =>
        (if maskBit x f.msel i then secondOp x h f.b false i else elemAt ga h.ew i, 0)
      corePut c (retire (putGroup f.vd r h.grp x)) s) s

/-- VREDSUM: the wrapped sum of the active elements, sign-extended; nothing is written with VCOUNT = 0 (R269). -/
def execVredsum (c : Fin 96) (rd : Fin 32) (vs1 : Fin 32) (men : Bool) (msel : Fin 8) (s : State) : Res :=
  onCore c (fun x s =>
    let h := shapeOf x
    if !isIntT h.et then exception c exVSHAPE 0 s
    else if vs1.val % h.grp != 0 then exception c exVREG 0 s
    else if h.count = 0 then corePut c (retire x) s
    else
      let g := getGroup x vs1 h.grp
      let v := (List.range h.count).foldl (fun acc i =>
        if activeAt x men msel i then acc + toS h.ew (elemAt g h.ew i) else acc) (0 : Int)
      writeS c rd (BitVec.ofInt 64 v) s) s

/-- VREDMAX: the greatest active element and its lowest index. -/
def execVredmax (c : Fin 96) (rd : Fin 32) (vs1 : Fin 32) (men : Bool) (msel : Fin 8) (s : State) : Res :=
  vExtreme c rd vs1 men msel (BitVec.ofInt 64 (-(2 ^ 63))) (fun v w => decide (v > w)) s

/-- VREDMIN: the least active element and its lowest index. -/
def execVredmin (c : Fin 96) (rd : Fin 32) (vs1 : Fin 32) (men : Bool) (msel : Fin 8) (s : State) : Res :=
  vExtreme c rd vs1 men msel (BitVec.ofInt 64 (2 ^ 63 - 1)) (fun v w => decide (v < w)) s

/-- A permute under the element loop: element `i` of the result from the source group and the old element. -/
def vPermute (c : Fin 96) (vd vs1 : Fin 32) (men : Bool) (msel : Fin 8) (bad : Shape → Bool)
    (op : Core → Shape → Nat → Nat → Nat → Nat) (s : State) : Res :=
  onCore c (fun x s =>
    let h := shapeOf x
    if vd.val % h.grp != 0 || vs1.val % h.grp != 0 || bad h then exception c exVREG 0 s
    else
      let old := getGroup x vd h.grp
      let g := getGroup x vs1 h.grp
      let (r, _) := elemLoop h (activeAt x men msel) h.ew old fun i => (op x h g i (elemAt old h.ew i), 0)
      corePut c (retire (putGroup vd r h.grp x)) s) s

/-- VSLIDEDN: vd[i] := vs1[i + rs2], or 0 past VLMAX. -/
def execVslidedn (c : Fin 96) (vd : Fin 32) (vs1 : Fin 32) (rs2 : Fin 32) (men : Bool) (msel : Fin 8) (s : State) : Res :=
  vPermute c vd vs1 men msel (fun _ => false)
    (fun x h g i _ => if i + (getS x rs2).toNat < h.vlmax then elemAt g h.ew (i + (getS x rs2).toNat) else 0) s

/-- VSLIDEUP: vd[i] := vs1[i − rs2] for i ≥ rs2; lower elements unchanged. -/
def execVslideup (c : Fin 96) (vd : Fin 32) (vs1 : Fin 32) (rs2 : Fin 32) (men : Bool) (msel : Fin 8) (s : State) : Res :=
  vPermute c vd vs1 men msel (fun h => overlaps vd h.grp vs1 h.grp)
    (fun x h g i d => if (getS x rs2).toNat ≤ i then elemAt g h.ew (i - (getS x rs2).toNat) else d) s

/-- VGATHERR: vd[i] := vs1[vs2[i]], or 0 past VLMAX. -/
def execVgatherr (c : Fin 96) (vd : Fin 32) (vs1 : Fin 32) (vs2 : Fin 32) (men : Bool) (msel : Fin 8) (s : State) : Res :=
  vPermute c vd vs1 men msel
    (fun h => vs2.val % h.grp != 0 || overlaps vd h.grp vs1 h.grp || overlaps vd h.grp vs2 h.grp)
    (fun x h g i _ =>
      let j := elemAt (getGroup x vs2 h.grp) h.ew i
      if j < h.vlmax then elemAt g h.ew j else 0) s

/-- VEXT: one element to a scalar register, whatever the mask and VCOUNT. -/
def execVext (c : Fin 96) (rd : Fin 32) (vs1 : Fin 32) (rs2 : Fin 32) (s : State) : Res :=
  onCore c (fun x s =>
    let h := shapeOf x
    let j := (getS x rs2).toNat
    if vs1.val % h.grp != 0 then exception c exVREG 0 s
    else
      let e := elemAt (getGroup x vs1 h.grp) h.ew j
      writeS c rd (if h.vlmax ≤ j then 0 else if isIntT h.et then BitVec.ofInt 64 (toS h.ew e) else BitVec.ofNat 64 e) s) s

/-- VINS: the low EW bits of rs1 into one element, whatever the mask and VCOUNT. -/
def execVins (c : Fin 96) (vd : Fin 32) (rs1 : Fin 32) (rs2 : Fin 32) (s : State) : Res :=
  onCore c (fun x s =>
    let h := shapeOf x
    let j := (getS x rs2).toNat
    if vd.val % h.grp != 0 then exception c exVREG 0 s
    else if h.vlmax ≤ j then corePut c (retire x) s
    else
      let old := getGroup x vd h.grp
      let r := fromElems h.ew ((List.range h.vlmax).map fun i =>
        if i = j then (getS x rs1).toNat % 2 ^ h.ew else elemAt old h.ew i)
      corePut c (retire (putGroup vd r h.grp x)) s) s

/-- VMAND: over all 512 bits. -/
def execVmand (c : Fin 96) (md : Fin 8) (ms1 : Fin 8) (ms2 : Fin 8) (s : State) : Res :=
  vMask c md ms1 ms2 (fun a b => a &&& b) s

/-- VMOR: over all 512 bits. -/
def execVmor (c : Fin 96) (md : Fin 8) (ms1 : Fin 8) (ms2 : Fin 8) (s : State) : Res :=
  vMask c md ms1 ms2 (fun a b => a ||| b) s

/-- VMXOR: over all 512 bits. -/
def execVmxor (c : Fin 96) (md : Fin 8) (ms1 : Fin 8) (ms2 : Fin 8) (s : State) : Res :=
  vMask c md ms1 ms2 (fun a b => a ^^^ b) s

/-- VMANDN: over all 512 bits. -/
def execVmandn (c : Fin 96) (md : Fin 8) (ms1 : Fin 8) (ms2 : Fin 8) (s : State) : Res :=
  vMask c md ms1 ms2 (fun a b => a &&& ~~~b) s

/-- VMSET: bits below VCOUNT set, other bits 0. -/
def execVmset (c : Fin 96) (md : Fin 8) (s : State) : Res :=
  onCore c (fun x s => corePut c (retire { x with m := x.m.set md (belowCount x) }) s) s

/-- VMCLR: every bit 0. -/
def execVmclr (c : Fin 96) (md : Fin 8) (s : State) : Res :=
  onCore c (fun x s => corePut c (retire { x with m := x.m.set md 0 }) s) s

/-- VMPOPC: set bits below VCOUNT. -/
def execVmpopc (c : Fin 96) (rd : Fin 32) (ms1 : Fin 8) (s : State) : Res :=
  onCore c (fun x s =>
    writeS c rd (BitVec.ofNat 64 ((List.range x.vcount.toNat).filter fun i => maskBit x ms1 i).length) s) s

/-- VMFIRST: the lowest set bit below VCOUNT, or all ones. -/
def execVmfirst (c : Fin 96) (rd : Fin 32) (ms1 : Fin 8) (s : State) : Res :=
  onCore c (fun x s =>
    writeS c rd (match (List.range x.vcount.toNat).find? fun i => maskBit x ms1 i with
      | some i => BitVec.ofNat 64 i
      | none => BitVec.allOnes 64) s) s

/-- VSET: VSHAPE := imm; VCOUNT := VLMAX, or min(rs1, VLMAX) unless the rs1 field is 0; rd := VCOUNT (R268). -/
def execVset (c : Fin 96) (rd : Fin 32) (rs1 : Fin 32) (shape : BitVec 8) (s : State) : Res :=
  onCore c (fun x s =>
    if shape.getLsbD 0 then exception c exILLEGAL 0 s
    else
      let m := vlmaxOf shape.toNat
      let n := if rs1 = 0 then m else min (getS x rs1).toNat m
      let x := { x with vshape := shape.setWidth 64, vcount := BitVec.ofNat 64 n }
      corePut c (retire (setS x rd (BitVec.ofNat 64 n))) s) s

end Sys2Proof.Machine
end

