-- ==== Sys2Proof/Machine/VecMem.lean ====
section
/-!
DEFINITION. The vector loads and stores of a crew core (07_vector.md, Memory access, Element faults and resume, First-fault
loads; R276 to R286).
-/
namespace Sys2Proof.Machine
open Sys2Proof

/-- How one element's access ends. -/
inductive ElemEnd where
  | ok | fault (code : Nat) | wait
  deriving DecidableEq, Repr

/-- The registers of the index group of a gather or scatter (R266). -/
def indexGroup (h : Shape) : Nat := max 1 (h.grp * 32 / h.ew)

/-- The address of element `i` (Memory access). -/
def vAddr (x : Core) (h : Shape) (f : VMem) (i : Nat) : Nat :=
  let base := (getS x f.rs1).toNat
  match f.mode with
  | .unit => (base + i * (h.ew / 8)) % 2 ^ 64
  | .strided rs2 => (base + i * (getS x rs2).toNat) % 2 ^ 64
  | .indexed vs2 => (base + elemAt (getGroup x vs2 (indexGroup h)) 32 i) % 2 ^ 64
  | .mode3 => base

/-- The exception a vector load or store raises before any element: MODE 3, an index group of more than 8 registers, a
register that is not a multiple of its group, and for a load an overlap of the destination with its index group. -/
def vMemCheck (h : Shape) (f : VMem) (load : Bool) : Option Nat :=
  match f.mode with
  | .mode3 => some exILLEGAL
  | .indexed vs2 =>
    if 8 < indexGroup h then some exVSHAPE
    else if f.v.val % h.grp ≠ 0 ∨ vs2.val % indexGroup h ≠ 0 ∨ (load ∧ overlaps f.v h.grp vs2 (indexGroup h)) then
      some exVREG
    else none
  | _ => if f.v.val % h.grp ≠ 0 then some exVREG else none

/-- The fault of an element of `n` bytes at address `a` that needs no access (R276). -/
def elemFault (store : Bool) (a align : Nat) : Option Nat :=
  if a % align ≠ 0 then some exMISALIGNED
  else match regionOf a with
  | .nothing => some (if store then exSTORE_ADDR else exLOAD)
  | .reg _ _ _ => some exVSPACE
  | _ => none

/-- The element a vector load or store starts at (R282). -/
def vStart (resumed : Bool) (x : Core) : Nat := if resumed then bits x.eri.toNat 8 0 else 0

/-- An element fault taken: ERI armed with its element, then the precise exception (R283). -/
def vFault (c k code a : Nat) (s : State) : State :=
  exception c code a (corePut c { core s c with eri := BitVec.ofNat 64 (2 ^ 63 + k) } s)

/-- Elements `i` to `i + n - 1` loaded: the values of those that completed (none where masked off), and how the first
that did not ended. -/
def vLoadFrom (c : Nat) (x : Core) (h : Shape) (f : VMem) (i : Nat) : Nat → State → List (Option Nat) × ElemEnd × State
  | 0, s => ([], .ok, s)
  | n + 1, s =>
    if !activeAt x f.men f.msel i then
      match vLoadFrom c x h f (i + 1) n s with
      | (vs, e, s) => (none :: vs, e, s)
    else match elemFault false (vAddr x h f i) (h.ew / 8) with
    | some k => ([], .fault k, s)
    | none =>
      match dataRead c (vAddr x h f i) (h.ew / 8) s with
      | (.ok, b, s) =>
        match vLoadFrom c x h f (i + 1) n s with
        | (vs, e, s) => (some (leNat b) :: vs, e, s)
      | (.wait, _, s) => ([], .wait, s)
      | (_, _, s) => ([], .fault exLOAD, s)

/-- The destination group with the loaded values from element `start`; the tail follows its policy only when the
instruction completes (R283). -/
def vLoaded (h : Shape) (old start : Nat) (vs : List (Option Nat)) (whole : Bool) : Nat :=
  let es := (List.range h.vlmax).map fun i =>
    if i < start then elemAt old h.ew i
    else match vs[i - start]? with
    | some (some v) => v
    | some none => if h.maskZero then 0 else elemAt old h.ew i
    | none => if whole && h.count ≤ i && h.tailZero then 0 else elemAt old h.ew i
  fromElems h.ew es + old / 2 ^ (h.ew * h.vlmax) * 2 ^ (h.ew * h.vlmax)

/-- A vector load; `ff` for a first-fault load. -/
def vLoad (c : Fin 96) (f : VMem) (ff : Bool) (s : State) : Res :=
  onCoreR c (fun resumed x s =>
    let h := shapeOf x
    if ff && f.men then (true, exception c exILLEGAL 0 s)
    else match vMemCheck h f true with
    | some k => (true, exception c k 0 s)
    | none =>
      let start := if ff then 0 else vStart resumed x
      if resumed ∧ !ff ∧ h.count ≤ start then (true, corePut c (retire x) s)
      else
        let old := getGroup x f.v h.grp
        match vLoadFrom c x h f start (h.count - start) s with
        | (_, .wait, s1) => (false, waitAt s s1)
        | (vs, .ok, s1) =>
          let y := putGroup f.v (vLoaded h old start vs true) h.grp (core s1 c)
          let y := if ff then { y with vstat := BitVec.ofNat 64 (setBits y.vstat.toNat 7 7 0) } else y
          (true, corePut c (retire y) s1)
        | (vs, .fault code, s1) =>
          let k := start + vs.length
          let y := putGroup f.v (vLoaded h old start vs false) h.grp (core s1 c)
          if ff ∧ k ≠ 0 then
            (true, corePut c (retire { y with vcount := BitVec.ofNat 64 k
                                              vstat := BitVec.ofNat 64 (setBits y.vstat.toNat 7 7 1) }) s1)
          else (true, vFault c k code (vAddr x h f k) (corePut c y s1))) s

/-- A word of bytes waiting to be written whole: which bytes, and their values. -/
abbrev WordPart := Nat × Nat

/-- An address of memory that takes only whole code words from a store past the cache (R259, R463). -/
def wordMemory (x : Core) (c a : Nat) : Bool :=
  match regionOf a with
  | .sdram => !cacheable x c a
  | .spm _ _ => !cacheable x c a
  | .cell => true
  | _ => false

/-- `n` bytes of value `v` at `a` put into the words they lie in. -/
def putPart (a v : Nat) : Nat → Sparse WordPart → Sparse WordPart
  | 0, m => m
  | n + 1, m =>
    let p := spGet (0, 0) m (wordOf a)
    let k := a % 32
    putPart (a + 1) (v / 256) n
      (spPut m (wordOf a) (Nat.lor p.1 (2 ^ k), setBits p.2 (8 * k + 7) (8 * k) (v % 256)))

/-- The code words the active elements of a store touch past the cache (R280). -/
def touched (c : Nat) (x : Core) (h : Shape) (f : VMem) (i n : Nat) : Sparse WordPart :=
  (List.range n).foldl (fun m k =>
    let a := vAddr x h f (i + k)
    if activeAt x f.men f.msel (i + k) && wordMemory x c a then putPart a 0 (h.ew / 8) m else m) []

/-- The lowest code word a store would write only in part (R280). -/
def partWord (m : Sparse WordPart) : Option Nat := (m.find? fun e => e.2.1 != 2 ^ 32 - 1).map (·.1)

/-- One element stored: past the cache its bytes join their word, elsewhere the store is performed (R277, R278); a bus
error returned after the store retired sets STORE_ERROR (R281). -/
def elemStore (c : Nat) (x : Core) (a n v : Nat) (m : Sparse WordPart) (s : State) :
    ElemEnd × Sparse WordPart × State :=
  if wordMemory x c a then (.ok, putPart a v n m, s)
  else match regionOf a with
  | .aliasW set crew off =>
    if lineWaits s c (a - (if set then setAlias else clrAlias)) then (.wait, m, s)
    else match aliasStore (coreInit c) set crew off (leBytes n v) s with
    | (.ok, s) => (.ok, m, s)
    | (.wait, s) => (.wait, m, s)
    | (_, s) => (.ok, m, storeErrorOp c a s)
  | .outbound _ =>
    if (core s c).regWait.isSome then (.wait, m, s)
    else match writeBytes (coreInit c) a (leBytes n v) s with
    | (.ok, _, s) => (.ok, m, s)
    | (.wait, _, s) => (.wait, m, s)
    | (_, _, s) => (.ok, m, storeErrorOp c a s)
  | _ =>
    match cacheStore c a (leBytes n v) s with
    | (.ok, s) => (.ok, m, s)
    | (.wait, s) => (.wait, m, s)
    | (_, s) => (.fault exLOAD, m, s)

/-- Elements `i` to `i + n - 1` stored in order: how the first that did not complete ended, and its number. -/
def vStoreFrom (c : Nat) (x : Core) (h : Shape) (f : VMem) (data i : Nat) :
    Nat → Sparse WordPart → State → ElemEnd × Nat × Sparse WordPart × State
  | 0, m, s => (.ok, i, m, s)
  | n + 1, m, s =>
    if !activeAt x f.men f.msel i then vStoreFrom c x h f data (i + 1) n m s
    else match elemFault true (vAddr x h f i) (h.ew / 8) with
    | some k => (.fault k, i, m, s)
    | none =>
      match elemStore c x (vAddr x h f i) (h.ew / 8) (elemAt data h.ew i) m s with
      | (.ok, m, s) => vStoreFrom c x h f data (i + 1) n m s
      | (e, m, s) => (e, i, m, s)

/-- The whole words of a store written; a word only partly covered, when a fault has cut the store short, is refused
where it is written (R463). -/
def writeParts (c : Nat) : Sparse WordPart → State → Bool × State
  | [], s => (true, s)
  | (w, p) :: r, s =>
    if p.1 ≠ 2 ^ 32 - 1 then writeParts c r (storeErrorOp c w s)
    else if lineWaits s c w then (false, s)
    else match writeBytes (coreInit c) w (leBytes 32 p.2) s with
    | (.ok, _, s) => writeParts c r (lineSync c w (leBytes 32 p.2) s)
    | (.wait, _, s) => (false, s)
    | (_, _, s) => writeParts c r (storeErrorOp c w s)

/-- A vector store. A store waits for the hand-overs before it (R304). -/
def vStore (c : Fin 96) (f : VMem) (s : State) : Res :=
  onCoreR c (fun resumed x s =>
    let h := shapeOf x
    match vMemCheck h f false with
    | some k => (true, exception c k 0 s)
    | none =>
      let start := vStart resumed x
      if resumed ∧ h.count ≤ start then (true, corePut c (retire x) s)
      else match partWord (touched c x h f start (h.count - start)) with
      | some w => (true, exception c exNARROW w s)
      | none =>
        if storeHeld x ∧ start < h.count then (false, s)
        else match vStoreFrom c x h f (getGroup x f.v h.grp) start (h.count - start) [] s with
        | (.wait, _, _, s1) => (false, waitAt s s1)
        | (e, k, m, s1) =>
          match writeParts c m s1 with
          | (false, s1) => (false, waitAt s s1)
          | (true, s1) =>
            match e with
            | .fault code => (true, vFault c k code (vAddr x h f k) s1)
            | _ => (true, corePut c (retire (core s1 c)) s1)) s

/-- A mask transfer (MREG = 1) that moves nothing: it has the one element 0, which a resume may be past (R282), and which
VCOUNT = 0 leaves out (R269). -/
def maskSkipped (resumed : Bool) (x : Core) : Bool := x.vcount == 0 || (resumed && vStart resumed x != 0)

/-- The code words a mask store touches past the cache (R280). -/
def maskTouched (c : Nat) (x : Core) (a : Nat) : Sparse WordPart :=
  (List.range 64).foldl (fun m k =>
    if wordMemory x c ((a + k) % 2 ^ 64) then putPart ((a + k) % 2 ^ 64) 0 1 m else m) []

/-- The cache lines of both halves of a mask store filled before either is written, so that a fault of either leaves the
mask's element unwritten (R283). -/
def maskFill (c : Nat) (x : Core) (a : Nat) (s : State) : Bus × State :=
  let fill := fun a s => if cacheable x c a && !dirtyAt s c a then fillLine c (a / 64 * 64) s else (.ok, s)
  match fill a s with
  | (.ok, s) => fill ((a + 32) % 2 ^ 64) s
  | r => r

/-- The fault of a mask transfer at `a`, which must be a multiple of 32. -/
def maskFault (store : Bool) (a : Nat) : Option Nat :=
  match elemFault store a 32 with
  | some k => some k
  | none => elemFault store ((a + 32) % 2 ^ 64) 32

/-- One mask register loaded from 64 bytes. -/
def maskLoad (c : Fin 96) (md : Fin 8) (rs1 : Fin 32) (s : State) : Res :=
  onCoreR c (fun resumed x s =>
    let a := (getS x rs1).toNat
    if maskSkipped resumed x then (true, corePut c (retire x) s)
    else match maskFault false a with
    | some k => (true, vFault c 0 k a s)
    | none =>
      match dataRead c a 32 s with
      | (.ok, b, s1) =>
        match dataRead c ((a + 32) % 2 ^ 64) 32 s1 with
        | (.ok, b2, s1) =>
          let y := core s1 c
          (true, corePut c (retire { y with m := y.m.set md (BitVec.ofNat 512 (leNat (b ++ b2))) }) s1)
        | (.wait, _, s1) => (false, waitAt s s1)
        | (_, _, s1) => (true, vFault c 0 exLOAD a s1)
      | (.wait, _, s1) => (false, waitAt s s1)
      | (_, _, s1) => (true, vFault c 0 exLOAD a s1)) s

/-- One mask register stored to 64 bytes. -/
def maskStore (c : Fin 96) (ms : Fin 8) (rs1 : Fin 32) (s : State) : Res :=
  onCoreR c (fun resumed x s =>
    let a := (getS x rs1).toNat
    let v := x.m[ms].toNat
    if maskSkipped resumed x then (true, corePut c (retire x) s)
    else match partWord (maskTouched c x a) with
    | some w => (true, exception c exNARROW w s)
    | none =>
    match maskFault true a with
    | some k => (true, vFault c 0 k a s)
    | none =>
      if storeHeld x then (false, s)
      else match maskFill c x a s with
      | (.wait, s1) => (false, waitAt s s1)
      | (.busError, s1) => (true, vFault c 0 exLOAD a s1)
      | (.uncorrectable, s1) => (true, vFault c 0 exLOAD a s1)
      | (.ok, s0) =>
      match elemStore c x a 32 (v % 2 ^ 256) [] s0 with
      | (.wait, _, s1) => (false, waitAt s s1)
      | (.fault k, _, s1) => (true, vFault c 0 k a s1)
      | (.ok, m, s1) =>
        match elemStore c x ((a + 32) % 2 ^ 64) 32 (v / 2 ^ 256) m s1 with
        | (.wait, _, s1) => (false, waitAt s s1)
        | (.fault k, _, s1) => (true, vFault c 0 k a s1)
        | (.ok, m, s1) =>
          match writeParts c m s1 with
          | (false, s1) => (false, waitAt s s1)
          | (true, s1) => (true, corePut c (retire (core s1 c)) s1)) s

/-- VLD: loads the active elements from memory (R276 to R284). -/
def execVld (c : Fin 96) (f : VMem) (s : State) : Res :=
  vLoad c f false s

/-- VLDFF: loads elements up to the first that faults (R285, R286). -/
def execVldff (c : Fin 96) (f : VMem) (s : State) : Res :=
  vLoad c f true s

/-- VST: stores the active elements in increasing order (R278 to R284). -/
def execVst (c : Fin 96) (f : VMem) (s : State) : Res :=
  vStore c f s

/-- VLD_M: loads one mask register from 64 bytes (Memory access, MREG). -/
def execVldM (c : Fin 96) (md : Fin 8) (rs1 : Fin 32) (s : State) : Res :=
  maskLoad c md rs1 s

/-- VST_M: stores one mask register to 64 bytes. -/
def execVstM (c : Fin 96) (ms : Fin 8) (rs1 : Fin 32) (s : State) : Res :=
  maskStore c ms rs1 s

end Sys2Proof.Machine
end

