-- ==== Sys2Proof/Machine/Dispatch.lean ====
section
/-!
DEFINITION. The meaning of every command: one arm per constructor of `Instr`, each a direct call of its meaning.
-/
namespace Sys2Proof.Machine
open Sys2Proof

def exec (i : Instr) (s : State) : Host.Outcome State Fault Refusal :=
  match i with
  | .resetNRise straps => Sys2Proof.Machine.execResetNRise straps s
  | .powerOnResetEnd straps osc => Sys2Proof.Machine.execPowerOnResetEnd straps osc s
  | .deviceReset r => Sys2Proof.Machine.execDeviceReset r s
  | .romPhase up gen width => Sys2Proof.Machine.execRomPhase up gen width s
  | .memInit channels => Sys2Proof.Machine.execMemInit channels s
  | .fwLoad => Sys2Proof.Machine.execFwLoad s
  | .pinTable => Sys2Proof.Machine.execPinTable s
  | .fabricLoad => Sys2Proof.Machine.execFabricLoad s
  | .cfgLoad => Sys2Proof.Machine.execCfgLoad s
  | .autostart => Sys2Proof.Machine.execAutostart s
  | .deferredAutostart => Sys2Proof.Machine.execDeferredAutostart s
  | .cmdDoorbell length => Sys2Proof.Machine.execCmdDoorbell length s
  | .mgmtDatagram source data => Sys2Proof.Machine.execMgmtDatagram source data s
  | .uartFrame data => Sys2Proof.Machine.execUartFrame data s
  | .requestTaken => Sys2Proof.Machine.execRequestTaken s
  | .sysCmdRplPop => Sys2Proof.Machine.execSysCmdRplPop s
  | .flushPcie => Sys2Proof.Machine.execFlushPcie s
  | .flushEth => Sys2Proof.Machine.execFlushEth s
  | .flushUart => Sys2Proof.Machine.execFlushUart s
  | .longCommandCompletion transport sequence ok => Sys2Proof.Machine.execLongCommandCompletion transport sequence ok s
  | .objSet family r => Sys2Proof.Machine.execObjSet family r s
  | .objGet family r => Sys2Proof.Machine.execObjGet family r s
  | .startFn family r => Sys2Proof.Machine.execStartFn family r s
  | .stopFn family r => Sys2Proof.Machine.execStopFn family r s
  | .objDelete family r => Sys2Proof.Machine.execObjDelete family r s
  | .objState family r => Sys2Proof.Machine.execObjState family r s
  | .objList family r => Sys2Proof.Machine.execObjList family r s
  | .capsCmd r => Sys2Proof.Machine.execCapsCmd r s
  | .echoCmd r => Sys2Proof.Machine.execEchoCmd r s
  | .cmdQuery r => Sys2Proof.Machine.execCmdQuery r s
  | .cancelCmd r => Sys2Proof.Machine.execCancelCmd r s
  | .configExport r => Sys2Proof.Machine.execConfigExport r s
  | .configInstall r => Sys2Proof.Machine.execConfigInstall r s
  | .imagePush r => Sys2Proof.Machine.execImagePush r s
  | .imageInstall r => Sys2Proof.Machine.execImageInstall r s
  | .bootContinue r => Sys2Proof.Machine.execBootContinue r s
  | .rollbackAdvance r => Sys2Proof.Machine.execRollbackAdvance r s
  | .identityGet r => Sys2Proof.Machine.execIdentityGet r s
  | .certGet r => Sys2Proof.Machine.execCertGet r s
  | .attest r => Sys2Proof.Machine.execAttest r s
  | .ownerKeysSet r => Sys2Proof.Machine.execOwnerKeysSet r s
  | .ownerKeyRevoke r => Sys2Proof.Machine.execOwnerKeyRevoke r s
  | .registerWrite who unit inst off value => Sys2Proof.Machine.execRegisterWrite who unit inst off value s
  | .carrierRunning c => Sys2Proof.Machine.execCarrierRunning c s
  | .carrierStopped c => Sys2Proof.Machine.execCarrierStopped c s
  | .uplaneMessage port eaxc seq slot sym first prbs => Sys2Proof.Machine.execUplaneMessage port eaxc seq slot sym first prbs s
  | .receiveWindowClose c slot sym => Sys2Proof.Machine.execReceiveWindowClose c slot sym s
  | .dlSymbolSend c slot sym iq => Sys2Proof.Machine.execDlSymbolSend c slot sym iq s
  | .cplaneSend c slot msgs => Sys2Proof.Machine.execCplaneSend c slot msgs s
  | .ecpriDelayMeasurement port received id => Sys2Proof.Machine.execEcpriDelayMeasurement port received id s
  | .fronthaulClearAll => Sys2Proof.Machine.execFronthaulClearAll s
  | .macScheduling c figs air => Sys2Proof.Machine.execMacScheduling c figs air s
  | .decodeDeadlineMiss c block => Sys2Proof.Machine.execDecodeDeadlineMiss c block s
  | .statsPeriod c => Sys2Proof.Machine.execStatsPeriod c s
  | .handsetAdd r => Sys2Proof.Machine.execHandsetAdd r s
  | .handsetModify r => Sys2Proof.Machine.execHandsetModify r s
  | .handsetRemove r => Sys2Proof.Machine.execHandsetRemove r s
  | .handsetStats r => Sys2Proof.Machine.execHandsetStats r s
  | .carrierStats r => Sys2Proof.Machine.execCarrierStats r s
  | .shuttleArm task => Sys2Proof.Machine.execShuttleArm task s
  | .shuttleDec who task count => Sys2Proof.Machine.execShuttleDec who task count s
  | .pendingInstanceCreate task => Sys2Proof.Machine.execPendingInstanceCreate task s
  | .taskReady task => Sys2Proof.Machine.execTaskReady task s
  | .taskDispatch to_ => Sys2Proof.Machine.execTaskDispatch to_ s
  | .shuttleBeamPut who handle => Sys2Proof.Machine.execShuttleBeamPut who handle s
  | .taskCompletion c => Sys2Proof.Machine.execTaskCompletion c s
  | .beamTimeout flow => Sys2Proof.Machine.execBeamTimeout flow s
  | .engineCompletion engine => Sys2Proof.Machine.execEngineCompletion engine s
  | .rescueEvaluation => Sys2Proof.Machine.execRescueEvaluation s
  | .taskWatchdog c => Sys2Proof.Machine.execTaskWatchdog c s
  | .cancelLate task inst => Sys2Proof.Machine.execCancelLate task inst s
  | .crewFailure crew => Sys2Proof.Machine.execCrewFailure crew s
  | .serviceReq value => Sys2Proof.Machine.execServiceReq value s
  | .serviceSet r => Sys2Proof.Machine.execServiceSet r s
  | .crewRetire r => Sys2Proof.Machine.execCrewRetire r s
  | .shuttleStats r => Sys2Proof.Machine.execShuttleStats r s
  | .taskSetStopped index => Sys2Proof.Machine.execTaskSetStopped index s
  | .add c rd rs1 rs2 => Sys2Proof.Machine.execAdd c rd rs1 rs2 s
  | .sub c rd rs1 rs2 => Sys2Proof.Machine.execSub c rd rs1 rs2 s
  | .andOp c rd rs1 rs2 => Sys2Proof.Machine.execAndOp c rd rs1 rs2 s
  | .orOp c rd rs1 rs2 => Sys2Proof.Machine.execOrOp c rd rs1 rs2 s
  | .xorOp c rd rs1 rs2 => Sys2Proof.Machine.execXorOp c rd rs1 rs2 s
  | .sll c rd rs1 rs2 => Sys2Proof.Machine.execSll c rd rs1 rs2 s
  | .srl c rd rs1 rs2 => Sys2Proof.Machine.execSrl c rd rs1 rs2 s
  | .sra c rd rs1 rs2 => Sys2Proof.Machine.execSra c rd rs1 rs2 s
  | .slt c rd rs1 rs2 => Sys2Proof.Machine.execSlt c rd rs1 rs2 s
  | .sltu c rd rs1 rs2 => Sys2Proof.Machine.execSltu c rd rs1 rs2 s
  | .mul c rd rs1 rs2 => Sys2Proof.Machine.execMul c rd rs1 rs2 s
  | .mulh c rd rs1 rs2 => Sys2Proof.Machine.execMulh c rd rs1 rs2 s
  | .mulhu c rd rs1 rs2 => Sys2Proof.Machine.execMulhu c rd rs1 rs2 s
  | .div c rd rs1 rs2 => Sys2Proof.Machine.execDiv c rd rs1 rs2 s
  | .divu c rd rs1 rs2 => Sys2Proof.Machine.execDivu c rd rs1 rs2 s
  | .rem c rd rs1 rs2 => Sys2Proof.Machine.execRem c rd rs1 rs2 s
  | .remu c rd rs1 rs2 => Sys2Proof.Machine.execRemu c rd rs1 rs2 s
  | .clz c rd rs1 => Sys2Proof.Machine.execClz c rd rs1 s
  | .popc c rd rs1 => Sys2Proof.Machine.execPopc c rd rs1 s
  | .addi c rd rs1 imm => Sys2Proof.Machine.execAddi c rd rs1 imm s
  | .andi c rd rs1 imm => Sys2Proof.Machine.execAndi c rd rs1 imm s
  | .ori c rd rs1 imm => Sys2Proof.Machine.execOri c rd rs1 imm s
  | .xori c rd rs1 imm => Sys2Proof.Machine.execXori c rd rs1 imm s
  | .slti c rd rs1 imm => Sys2Proof.Machine.execSlti c rd rs1 imm s
  | .sltiu c rd rs1 imm => Sys2Proof.Machine.execSltiu c rd rs1 imm s
  | .slli c rd rs1 amount => Sys2Proof.Machine.execSlli c rd rs1 amount s
  | .srli c rd rs1 amount => Sys2Proof.Machine.execSrli c rd rs1 amount s
  | .srai c rd rs1 amount => Sys2Proof.Machine.execSrai c rd rs1 amount s
  | .lui c rd imm => Sys2Proof.Machine.execLui c rd imm s
  | .shori c rd rs1 imm => Sys2Proof.Machine.execShori c rd rs1 imm s
  | .lb c rd rs1 imm => Sys2Proof.Machine.execLb c rd rs1 imm s
  | .lbu c rd rs1 imm => Sys2Proof.Machine.execLbu c rd rs1 imm s
  | .lh c rd rs1 imm => Sys2Proof.Machine.execLh c rd rs1 imm s
  | .lhu c rd rs1 imm => Sys2Proof.Machine.execLhu c rd rs1 imm s
  | .lw c rd rs1 imm => Sys2Proof.Machine.execLw c rd rs1 imm s
  | .lwu c rd rs1 imm => Sys2Proof.Machine.execLwu c rd rs1 imm s
  | .ld c rd rs1 imm => Sys2Proof.Machine.execLd c rd rs1 imm s
  | .sb c rs2 rs1 imm => Sys2Proof.Machine.execSb c rs2 rs1 imm s
  | .sh c rs2 rs1 imm => Sys2Proof.Machine.execSh c rs2 rs1 imm s
  | .sw c rs2 rs1 imm => Sys2Proof.Machine.execSw c rs2 rs1 imm s
  | .sd c rs2 rs1 imm => Sys2Proof.Machine.execSd c rs2 rs1 imm s
  | .beq c rs1 rs2 imm => Sys2Proof.Machine.execBeq c rs1 rs2 imm s
  | .bne c rs1 rs2 imm => Sys2Proof.Machine.execBne c rs1 rs2 imm s
  | .blt c rs1 rs2 imm => Sys2Proof.Machine.execBlt c rs1 rs2 imm s
  | .bge c rs1 rs2 imm => Sys2Proof.Machine.execBge c rs1 rs2 imm s
  | .bltu c rs1 rs2 imm => Sys2Proof.Machine.execBltu c rs1 rs2 imm s
  | .bgeu c rs1 rs2 imm => Sys2Proof.Machine.execBgeu c rs1 rs2 imm s
  | .jmp c imm => Sys2Proof.Machine.execJmp c imm s
  | .jal c imm => Sys2Proof.Machine.execJal c imm s
  | .jalr c rd rs1 imm => Sys2Proof.Machine.execJalr c rd rs1 imm s
  | .mac c acc rs1 rs2 => Sys2Proof.Machine.execMac c acc rs1 rs2 s
  | .msu c acc rs1 rs2 => Sys2Proof.Machine.execMsu c acc rs1 rs2 s
  | .mula c acc rs1 rs2 => Sys2Proof.Machine.execMula c acc rs1 rs2 s
  | .accld c acc rs1 => Sys2Proof.Machine.execAccld c acc rs1 s
  | .accx c rd acc shift => Sys2Proof.Machine.execAccx c rd acc shift s
  | .accxs c rd acc shift => Sys2Proof.Machine.execAccxs c rd acc shift s
  | .maxi c rd rs1 rs2 => Sys2Proof.Machine.execMaxi c rd rs1 rs2 s
  | .mini c rd rs1 rs2 => Sys2Proof.Machine.execMini c rd rs1 rs2 s
  | .maxiu c rd rs1 rs2 => Sys2Proof.Machine.execMaxiu c rd rs1 rs2 s
  | .miniu c rd rs1 rs2 => Sys2Proof.Machine.execMiniu c rd rs1 rs2 s
  | .ecall c => Sys2Proof.Machine.execEcall c s
  | .ebreak c => Sys2Proof.Machine.execEbreak c s
  | .eret c => Sys2Proof.Machine.execEret c s
  | .wfi c => Sys2Proof.Machine.execWfi c s
  | .fence c => Sys2Proof.Machine.execFence c s
  | .fenceW c => Sys2Proof.Machine.execFenceW c s
  | .cclean c rs1 => Sys2Proof.Machine.execCclean c rs1 s
  | .cinval c rs1 => Sys2Proof.Machine.execCinval c rs1 s
  | .cflush c rs1 => Sys2Proof.Machine.execCflush c rs1 s
  | .ccleanR c rs1 rs2 => Sys2Proof.Machine.execCcleanR c rs1 rs2 s
  | .cinvalR c rs1 rs2 => Sys2Proof.Machine.execCinvalR c rs1 rs2 s
  | .cflushR c rs1 rs2 => Sys2Proof.Machine.execCflushR c rs1 rs2 s
  | .ccleanAll c => Sys2Proof.Machine.execCcleanAll c s
  | .cflushAll c => Sys2Proof.Machine.execCflushAll c s
  | .iinval c rs1 => Sys2Proof.Machine.execIinval c rs1 s
  | .iinvalAll c => Sys2Proof.Machine.execIinvalAll c s
  | .taskWait c => Sys2Proof.Machine.execTaskWait c s
  | .taskDone c rs1 => Sys2Proof.Machine.execTaskDone c rs1 s
  | .doorbell c rs1 => Sys2Proof.Machine.execDoorbell c rs1 s
  | .csrr c rd csr => Sys2Proof.Machine.execCsrr c rd csr s
  | .csrw c rd rs1 csr => Sys2Proof.Machine.execCsrw c rd rs1 csr s
  | .csrs c rd rs1 csr => Sys2Proof.Machine.execCsrs c rd rs1 csr s
  | .csrc c rd rs1 csr => Sys2Proof.Machine.execCsrc c rd rs1 csr s
  | .interruptEntry c => Sys2Proof.Machine.execInterruptEntry c s
  | .storeError c addr => Sys2Proof.Machine.execStoreError c addr s
  | .coreReset c => Sys2Proof.Machine.execCoreReset c s
  | .crewDoorbell who crew ring => Sys2Proof.Machine.execCrewDoorbell who crew ring s
  | .crewBankOwner who crew bank owner outstanding => Sys2Proof.Machine.execCrewBankOwner who crew bank owner outstanding s
  | .bankOwnerCommit crew bank => Sys2Proof.Machine.execBankOwnerCommit crew bank s
  | .crewFatal crew fault => Sys2Proof.Machine.execCrewFatal crew fault s
  | .crewRetentionAck who crew banks => Sys2Proof.Machine.execCrewRetentionAck who crew banks s
  | .vset c rd rs1 shape => Sys2Proof.Machine.execVset c rd rs1 shape s
  | .vld c f => Sys2Proof.Machine.execVld c f s
  | .vldff c f => Sys2Proof.Machine.execVldff c f s
  | .vst c f => Sys2Proof.Machine.execVst c f s
  | .vldM c md rs1 => Sys2Proof.Machine.execVldM c md rs1 s
  | .vstM c ms rs1 => Sys2Proof.Machine.execVstM c ms rs1 s
  | .vadd c f => Sys2Proof.Machine.execVadd c f s
  | .vsub c f => Sys2Proof.Machine.execVsub c f s
  | .vadds c f => Sys2Proof.Machine.execVadds c f s
  | .vsubs c f => Sys2Proof.Machine.execVsubs c f s
  | .vand c f => Sys2Proof.Machine.execVand c f s
  | .vor c f => Sys2Proof.Machine.execVor c f s
  | .vxor c f => Sys2Proof.Machine.execVxor c f s
  | .vmin c f => Sys2Proof.Machine.execVmin c f s
  | .vmax c f => Sys2Proof.Machine.execVmax c f s
  | .vminu c f => Sys2Proof.Machine.execVminu c f s
  | .vmaxu c f => Sys2Proof.Machine.execVmaxu c f s
  | .vsll c f => Sys2Proof.Machine.execVsll c f s
  | .vsrl c f => Sys2Proof.Machine.execVsrl c f s
  | .vsra c f => Sys2Proof.Machine.execVsra c f s
  | .vnsra c f => Sys2Proof.Machine.execVnsra c f s
  | .vnsras c f => Sys2Proof.Machine.execVnsras c f s
  | .vmul c f => Sys2Proof.Machine.execVmul c f s
  | .vmulq c f => Sys2Proof.Machine.execVmulq c f s
  | .vmacw c f => Sys2Proof.Machine.execVmacw c f s
  | .vmsuw c f => Sys2Proof.Machine.execVmsuw c f s
  | .vcmulw c f => Sys2Proof.Machine.execVcmulw c f s
  | .vcmacw c f => Sys2Proof.Machine.execVcmacw c f s
  | .vcmacjw c f => Sys2Proof.Machine.execVcmacjw c f s
  | .vcmulq c f => Sys2Proof.Machine.execVcmulq c f s
  | .vfadd c f => Sys2Proof.Machine.execVfadd c f s
  | .vfsub c f => Sys2Proof.Machine.execVfsub c f s
  | .vfmul c f => Sys2Proof.Machine.execVfmul c f s
  | .vfma c f => Sys2Proof.Machine.execVfma c f s
  | .vfmin c f => Sys2Proof.Machine.execVfmin c f s
  | .vfmax c f => Sys2Proof.Machine.execVfmax c f s
  | .vfrece c f => Sys2Proof.Machine.execVfrece c f s
  | .vfrsqe c f => Sys2Proof.Machine.execVfrsqe c f s
  | .vfcvtI c f => Sys2Proof.Machine.execVfcvtI c f s
  | .vfcvtF c f => Sys2Proof.Machine.execVfcvtF c f s
  | .vcmpeq c f => Sys2Proof.Machine.execVcmpeq c f s
  | .vcmpne c f => Sys2Proof.Machine.execVcmpne c f s
  | .vcmplt c f => Sys2Proof.Machine.execVcmplt c f s
  | .vcmpltu c f => Sys2Proof.Machine.execVcmpltu c f s
  | .vcmple c f => Sys2Proof.Machine.execVcmple c f s
  | .vcmpleu c f => Sys2Proof.Machine.execVcmpleu c f s
  | .vfcmpeq c f => Sys2Proof.Machine.execVfcmpeq c f s
  | .vfcmplt c f => Sys2Proof.Machine.execVfcmplt c f s
  | .vmerge c f => Sys2Proof.Machine.execVmerge c f s
  | .vredsum c rd vs1 men msel => Sys2Proof.Machine.execVredsum c rd vs1 men msel s
  | .vredmax c rd vs1 men msel => Sys2Proof.Machine.execVredmax c rd vs1 men msel s
  | .vredmin c rd vs1 men msel => Sys2Proof.Machine.execVredmin c rd vs1 men msel s
  | .vslidedn c vd vs1 rs2 men msel => Sys2Proof.Machine.execVslidedn c vd vs1 rs2 men msel s
  | .vslideup c vd vs1 rs2 men msel => Sys2Proof.Machine.execVslideup c vd vs1 rs2 men msel s
  | .vgatherr c vd vs1 vs2 men msel => Sys2Proof.Machine.execVgatherr c vd vs1 vs2 men msel s
  | .vext c rd vs1 rs2 => Sys2Proof.Machine.execVext c rd vs1 rs2 s
  | .vins c vd rs1 rs2 => Sys2Proof.Machine.execVins c vd rs1 rs2 s
  | .vmand c md ms1 ms2 => Sys2Proof.Machine.execVmand c md ms1 ms2 s
  | .vmor c md ms1 ms2 => Sys2Proof.Machine.execVmor c md ms1 ms2 s
  | .vmxor c md ms1 ms2 => Sys2Proof.Machine.execVmxor c md ms1 ms2 s
  | .vmandn c md ms1 ms2 => Sys2Proof.Machine.execVmandn c md ms1 ms2 s
  | .vmset c md => Sys2Proof.Machine.execVmset c md s
  | .vmclr c md => Sys2Proof.Machine.execVmclr c md s
  | .vmpopc c rd ms1 => Sys2Proof.Machine.execVmpopc c rd ms1 s
  | .vmfirst c rd ms1 => Sys2Proof.Machine.execVmfirst c rd ms1 s
  | .cpiss c tag unit q => Sys2Proof.Machine.execCpiss c tag unit q s
  | .cpres c rd tag => Sys2Proof.Machine.execCpres c rd tag s
  | .cpb c tag cond imm => Sys2Proof.Machine.execCpb c tag cond imm s
  | .cpwait c rs1 => Sys2Proof.Machine.execCpwait c rs1 s
  | .cpfree c rs1 => Sys2Proof.Machine.execCpfree c rs1 s
  | .cptst c rd rs1 => Sys2Proof.Machine.execCptst c rd rs1 s
  | .fft crew engine coll => Sys2Proof.Machine.execFft crew engine coll s
  | .ifft crew engine coll => Sys2Proof.Machine.execIfft crew engine coll s
  | .fftPeak crew engine => Sys2Proof.Machine.execFftPeak crew engine s
  | .dft crew engine coll => Sys2Proof.Machine.execDft crew engine coll s
  | .idft crew engine coll => Sys2Proof.Machine.execIdft crew engine coll s
  | .chest crew engine coll => Sys2Proof.Machine.execChest crew engine coll s
  | .mimoDet crew engine coll => Sys2Proof.Machine.execMimoDet crew engine coll s
  | .power crew engine => Sys2Proof.Machine.execPower crew engine s
  | .bwWeights crew coll => Sys2Proof.Machine.execBwWeights crew coll s
  | .bwApply crew coll => Sys2Proof.Machine.execBwApply crew coll s
  | .handover c tag => Sys2Proof.Machine.execHandover c tag s
  | .ldpcDecode engine => Sys2Proof.Machine.execLdpcDecode engine s
  | .ldpcEncode engine => Sys2Proof.Machine.execLdpcEncode engine s
  | .polarDecode engine => Sys2Proof.Machine.execPolarDecode engine s
  | .polarEncode engine => Sys2Proof.Machine.execPolarEncode engine s
  | .cipherTask engine => Sys2Proof.Machine.execCipherTask engine s
  | .bandSampleMessage port eaxc last => Sys2Proof.Machine.execBandSampleMessage port eaxc last s
  | .bandGap g => Sys2Proof.Machine.execBandGap g s
  | .chirpGroupStopped g => Sys2Proof.Machine.execChirpGroupStopped g s
  | .detection ch so chirps newest checks frames part => Sys2Proof.Machine.execDetection ch so chirps newest checks frames part s
  | .headerCheck ch d pre symbols => Sys2Proof.Machine.execHeaderCheck ch d pre symbols s
  | .receptionEnd ch d data => Sys2Proof.Machine.execReceptionEnd ch d data s
  | .noiseFloorPeriod ch power => Sys2Proof.Machine.execNoiseFloorPeriod ch power s
  | .txDequeue g => Sys2Proof.Machine.execTxDequeue g s
  | .txFrameLaunch m parts => Sys2Proof.Machine.execTxFrameLaunch m parts s
  | .txFrameEnd m => Sys2Proof.Machine.execTxFrameEnd m s
  | .tagSet r => Sys2Proof.Machine.execTagSet r s
  | .tagRemove r => Sys2Proof.Machine.execTagRemove r s
  | .tagGet r => Sys2Proof.Machine.execTagGet r s
  | .chirpStats r => Sys2Proof.Machine.execChirpStats r s
  | .cssCntClear ch => Sys2Proof.Machine.execCssCntClear ch s
  | .bridgeGroupRunning g => Sys2Proof.Machine.execBridgeGroupRunning g s
  | .bridgeGroupStopped g => Sys2Proof.Machine.execBridgeGroupStopped g s
  | .inputFrame g => Sys2Proof.Machine.execInputFrame g s
  | .blockCompute mic0 mic1 took => Sys2Proof.Machine.execBlockCompute mic0 mic1 took s
  | .audioBlockOverrun => Sys2Proof.Machine.execAudioBlockOverrun s
  | .subsumReceived g device block samples => Sys2Proof.Machine.execSubsumReceived g device block samples s
  | .paramDescriptor => Sys2Proof.Machine.execParamDescriptor s
  | .legAdd r => Sys2Proof.Machine.execLegAdd r s
  | .legRemove r => Sys2Proof.Machine.execLegRemove r s
  | .legParam r => Sys2Proof.Machine.execLegParam r s
  | .legStats r => Sys2Proof.Machine.execLegStats r s
  | .legKeySet r => Sys2Proof.Machine.execLegKeySet r s
  | .audioClearAll => Sys2Proof.Machine.execAudioClearAll s
  | .hspInsertion plug => Sys2Proof.Machine.execHspInsertion plug s
  | .accessoryDetection n t r1 short onS onR2 => Sys2Proof.Machine.execAccessoryDetection n t r1 short onS onR2 s
  | .hspRemoval plug => Sys2Proof.Machine.execHspRemoval plug s
  | .micMeasurement n ohms => Sys2Proof.Machine.execMicMeasurement n ohms s
  | .videoSessionRunning k => Sys2Proof.Machine.execVideoSessionRunning k s
  | .videoSessionStopped k => Sys2Proof.Machine.execVideoSessionStopped k s
  | .accessUnit k => Sys2Proof.Machine.execAccessUnit k s
  | .pictureDecode k => Sys2Proof.Machine.execPictureDecode k s
  | .pictureEncode k => Sys2Proof.Machine.execPictureEncode k s
  | .composeFrame layout => Sys2Proof.Machine.execComposeFrame layout s
  | .st2110Packet k port seq ts ssrc pt segs => Sys2Proof.Machine.execSt2110Packet k port seq ts ssrc pt segs s
  | .st2110PictureEligible k => Sys2Proof.Machine.execSt2110PictureEligible k s
  | .tx2110Picture k => Sys2Proof.Machine.execTx2110Picture k s
  | .streamPacket n => Sys2Proof.Machine.execStreamPacket n s
  | .layerRateMeasure => Sys2Proof.Machine.execLayerRateMeasure s
  | .forecastRecord c => Sys2Proof.Machine.execForecastRecord c s
  | .forecastRelay device record => Sys2Proof.Machine.execForecastRelay device record s
  | .forecastStale l => Sys2Proof.Machine.execForecastStale l s
  | .feedbackRecord => Sys2Proof.Machine.execFeedbackRecord s
  | .upHoldExpiry l => Sys2Proof.Machine.execUpHoldExpiry l s
  | .keyRequest l => Sys2Proof.Machine.execKeyRequest l s
  | .streamPacketExpiry n => Sys2Proof.Machine.execStreamPacketExpiry n s
  | .layoutSet r => Sys2Proof.Machine.execLayoutSet r s
  | .layoutGet r => Sys2Proof.Machine.execLayoutGet r s
  | .fwdLegAdd r => Sys2Proof.Machine.execFwdLegAdd r s
  | .fwdLegRemove r => Sys2Proof.Machine.execFwdLegRemove r s
  | .fwdLegStats r => Sys2Proof.Machine.execFwdLegStats r s
  | .fwdClearAll => Sys2Proof.Machine.execFwdClearAll s
  | .ptpSync p msg corr => Sys2Proof.Machine.execPtpSync p msg corr s
  | .delayResp p msg corr => Sys2Proof.Machine.execDelayResp p msg corr s
  | .announce p a => Sys2Proof.Machine.execAnnounce p a s
  | .ptpMessageSend p m => Sys2Proof.Machine.execPtpMessageSend p m s
  | .ptpTimeout p m => Sys2Proof.Machine.execPtpTimeout p m s
  | .ppsEdge n => Sys2Proof.Machine.execPpsEdge n s
  | .ppsInputInvalid n => Sys2Proof.Machine.execPpsInputInvalid n s
  | .referencePromotion ref => Sys2Proof.Machine.execReferencePromotion ref s
  | .holdoverExpiry => Sys2Proof.Machine.execHoldoverExpiry s
  | .strobe strobe => Sys2Proof.Machine.execStrobe strobe s
  | .timeSet r => Sys2Proof.Machine.execTimeSet r s
  | .ppsNoEdge => Sys2Proof.Machine.execPpsNoEdge s
  | .timeAdjust r => Sys2Proof.Machine.execTimeAdjust r s
  | .timeGet r => Sys2Proof.Machine.execTimeGet r s
  | .ptpPortStats r => Sys2Proof.Machine.execPtpPortStats r s
  | .coxLatchShortLo k => Sys2Proof.Machine.execCoxLatchShortLo k s
  | .coxPpsInTsLo n => Sys2Proof.Machine.execCoxPpsInTsLo n s
  | .memDevCe ch => Sys2Proof.Machine.execMemDevCe ch s
  | .memChannelDown ch parity => Sys2Proof.Machine.execMemChannelDown ch parity s
  | .memRepair ch lo => Sys2Proof.Machine.execMemRepair ch lo s
  | .memFlipArm target axor => Sys2Proof.Machine.execMemFlipArm target axor s
  | .inboundPcieWrite target data whole => Sys2Proof.Machine.execInboundPcieWrite target data whole s
  | .inboundPcieRead target len => Sys2Proof.Machine.execInboundPcieRead target len s
  | .spoolAlloc who => Sys2Proof.Machine.execSpoolAlloc who s
  | .spoolEnq who handle => Sys2Proof.Machine.execSpoolEnq who handle s
  | .spoolDeq who => Sys2Proof.Machine.execSpoolDeq who s
  | .spoolFree who handle => Sys2Proof.Machine.execSpoolFree who handle s
  | .spoolNext who => Sys2Proof.Machine.execSpoolNext who s
  | .packetJoin handle => Sys2Proof.Machine.execPacketJoin handle s
  | .spoolCqPush q word => Sys2Proof.Machine.execSpoolCqPush q word s
  | .spoolCqPop q => Sys2Proof.Machine.execSpoolCqPop q s
  | .spoolCqEnable q en => Sys2Proof.Machine.execSpoolCqEnable q en s
  | .queueReclaim r => Sys2Proof.Machine.execQueueReclaim r s
  | .queueStats r => Sys2Proof.Machine.execQueueStats r s
  | .handoverCycle ch => Sys2Proof.Machine.execHandoverCycle ch s
  | .moveProg ch => Sys2Proof.Machine.execMoveProg ch s
  | .loopProg ch => Sys2Proof.Machine.execLoopProg ch s
  | .endloop ch => Sys2Proof.Machine.execEndloop ch s
  | .waitProg ch => Sys2Proof.Machine.execWaitProg ch s
  | .waitTimeout ch => Sys2Proof.Machine.execWaitTimeout ch s
  | .signalProg ch => Sys2Proof.Machine.execSignalProg ch s
  | .dmaFence ch => Sys2Proof.Machine.execDmaFence ch s
  | .endProg ch => Sys2Proof.Machine.execEndProg ch s
  | .dmaArm ch => Sys2Proof.Machine.execDmaArm ch s
  | .abortCh ch => Sys2Proof.Machine.execAbortCh ch s
  | .shadowWrite ch reg value => Sys2Proof.Machine.execShadowWrite ch reg value s
  | .credit src dst flits => Sys2Proof.Machine.execCredit src dst flits s
  | .gatewayHeadFlit src dst vc pkt bad corrected => Sys2Proof.Machine.execGatewayHeadFlit src dst vc pkt bad corrected s
  | .requestTimeout who src dst req => Sys2Proof.Machine.execRequestTimeout who src dst req s
  | .creditSync src dst => Sys2Proof.Machine.execCreditSync src dst s
  | .weftRoute node value => Sys2Proof.Machine.execWeftRoute node value s
  | .weftDrain r => Sys2Proof.Machine.execWeftDrain r s
  | .drainStart node => Sys2Proof.Machine.execDrainStart node s
  | .drained node => Sys2Proof.Machine.execDrained node s
  | .drainEnd node => Sys2Proof.Machine.execDrainEnd node s
  | .weftBist node pass => Sys2Proof.Machine.execWeftBist node pass s
  | .weftLinkLoad r => Sys2Proof.Machine.execWeftLinkLoad r s
  | .weftPath r => Sys2Proof.Machine.execWeftPath r s
  | .ethPortEnable n value => Sys2Proof.Machine.execEthPortEnable n value s
  | .ethLinkUp n => Sys2Proof.Machine.execEthLinkUp n s
  | .ethLinkDown n signal => Sys2Proof.Machine.execEthLinkDown n signal s
  | .ethFrameReceived n len fcs pause fec clock frame => Sys2Proof.Machine.execEthFrameReceived n len fcs pause fec clock frame s
  | .laneParityActive lane => Sys2Proof.Machine.execLaneParityActive lane s
  | .prbsSyncLost lane lost errs total => Sys2Proof.Machine.execPrbsSyncLost lane lost errs total s
  | .lanePrbsErrLo lane errors => Sys2Proof.Machine.execLanePrbsErrLo lane errors s
  | .bupexLinkRunning l => Sys2Proof.Machine.execBupexLinkRunning l s
  | .bupexFrame l f => Sys2Proof.Machine.execBupexFrame l f s
  | .hello l rx => Sys2Proof.Machine.execHello l rx s
  | .bupexLinkDown l => Sys2Proof.Machine.execBupexLinkDown l s
  | .bupexLinkUp l => Sys2Proof.Machine.execBupexLinkUp l s
  | .bupexIdleEntry l => Sys2Proof.Machine.execBupexIdleEntry l s
  | .bupexIdleExit l valid => Sys2Proof.Machine.execBupexIdleExit l valid s
  | .partitioned => Sys2Proof.Machine.execPartitioned s
  | .rejoined => Sys2Proof.Machine.execRejoined s
  | .proxyEnqueue q => Sys2Proof.Machine.execProxyEnqueue q s
  | .mdStatus r => Sys2Proof.Machine.execMdStatus r s
  | .bupexLinkStats r => Sys2Proof.Machine.execBupexLinkStats r s
  | .bupexBootSend r => Sys2Proof.Machine.execBupexBootSend r s
  | .bootReady => Sys2Proof.Machine.execBootReady s
  | .fabricContention row line => Sys2Proof.Machine.execFabricContention row line s
  | .cfgReadback upset => Sys2Proof.Machine.execCfgReadback upset s
  | .regionStartLoad r => Sys2Proof.Machine.execRegionStartLoad r s
  | .regionStop r => Sys2Proof.Machine.execRegionStop r s
  | .fabricPinSet k value => Sys2Proof.Machine.execFabricPinSet k value s
  | .fabricPinClr k value => Sys2Proof.Machine.execFabricPinClr k value s
  | .fabricSpTx p value => Sys2Proof.Machine.execFabricSpTx p value s
  | .fabricSpRx p => Sys2Proof.Machine.execFabricSpRx p s
  | .oscEnable n value => Sys2Proof.Machine.execOscEnable n value s
  | .nvRead r => Sys2Proof.Machine.execNvRead r s
  | .nvWrite r => Sys2Proof.Machine.execNvWrite r s
  | .idleTimerExpiry d which => Sys2Proof.Machine.execIdleTimerExpiry d which s
  | .dozeEntry d => Sys2Proof.Machine.execDozeEntry d s
  | .domainEntry d upto => Sys2Proof.Machine.execDomainEntry d upto s
  | .domainEntryComplete d => Sys2Proof.Machine.execDomainEntryComplete d s
  | .wakeRequest d w => Sys2Proof.Machine.execWakeRequest d w s
  | .wakeReadyStep d => Sys2Proof.Machine.execWakeReadyStep d s
  | .wakeFail d => Sys2Proof.Machine.execWakeFail d s
  | .monitorSample m level => Sys2Proof.Machine.execMonitorSample m level s
  | .brownout => Sys2Proof.Machine.execBrownout s
  | .pfail => Sys2Proof.Machine.execPfail s
  | .lastGaspReceived l sender => Sys2Proof.Machine.execLastGaspReceived l sender s
  | .powerRestored => Sys2Proof.Machine.execPowerRestored s
  | .powerSet r => Sys2Proof.Machine.execPowerSet r s
  | .powerStatus r => Sys2Proof.Machine.execPowerStatus r s
  | .powerDomCtrl d value => Sys2Proof.Machine.execPowerDomCtrl d value s
  | .thermtrip => Sys2Proof.Machine.execThermtrip s
  | .sfgStatus r => Sys2Proof.Machine.execSfgStatus r s
  | .faultInject r => Sys2Proof.Machine.execFaultInject r s
  | .faultClear r => Sys2Proof.Machine.execFaultClear r s
  | .injectionExpiry => Sys2Proof.Machine.execInjectionExpiry s
  | .sscEnable k => Sys2Proof.Machine.execSscEnable k s
  | .resetNAssert => Sys2Proof.Machine.execResetNAssert s
  | .brownoutResetEnd => Sys2Proof.Machine.execBrownoutResetEnd s
  | .coreTimerCmpReached c => Sys2Proof.Machine.execCoreTimerCmpReached c s
  | .waitContinue ch => Sys2Proof.Machine.execWaitContinue ch s
  | .bootTransferTimeout => Sys2Proof.Machine.execBootTransferTimeout s
  | .serialPortByteReceived p e => Sys2Proof.Machine.execSerialPortByteReceived p e s
  | .pcieLinkChange up gen width l1 => Sys2Proof.Machine.execPcieLinkChange up gen width l1 s
  | .tempSensorUpdate k v => Sys2Proof.Machine.execTempSensorUpdate k v s

end Sys2Proof.Machine
end

