-- ==== Sys2Proof/Machine/Step.lean ====
section
/-!
DEFINITION. One step: the command at the front of the queue, or a clock cycle when none waits.
-/
namespace Sys2Proof.Machine
open Sys2Proof

/-- With no command waiting, one cycle of the Cox PLL passes: `cycle` says what it does. -/
def step (s : State) : Host.Outcome State Fault Refusal :=
  match s.pending with
  | [] => cycle s
  | c :: rest => exec c { s with pending := rest }

/-- `s` with the command that a word spells at the front of its queue. No row of the table has bits, so no word spells
one, and the state stays as it is. -/
def State.withFetchWord (s : State) (nbits w : Nat) : State :=
  match decodeTableWord nbits w with
  | some c => { s with pending := c :: s.pending }
  | none => s

end Sys2Proof.Machine
end

