-- ==== Sys2Proof/Safety.lean ====
section
/-!
DEFINITION. What the claims call a good state, a completed command and a command's own effect.
-/
namespace Sys2Proof.Machine
open Sys2Proof

/-- A command completes: it answers a next state. -/
def Completes (i : Instr) (s : State) : Prop := ∃ t, exec i s = .next t

/-- What a command does of itself: `exec` answers the state `u` that `P` describes, carried on by the delivery of the
events and decrements that wait in `u`. Where none wait, the answer is `u` itself. -/
def Effect (i : Instr) (s : State) (P : State → Prop) : Prop := ∃ u, exec i s = .next (settle 4096 u) ∧ P u

/-- The memory of a state is in canonical form. -/
def MemoryOk (s : State) : Prop := Memory.wf s.mem = true

/-- Nothing a step raised is left undelivered, and no projection is due. -/
def Quiet (s : State) : Prop := s.evq = [] ∧ s.notices = [] ∧ s.shuttle.evalDue = false

/-- No message waits to leave at a set time, and no frame is held back for one (R439, R440). -/
def NoLaunch (s : State) : Prop := s.cox.launches = [] ∧ s.cox.held = []

/-- Core `c` executes instructions: it runs, and its program counter lies in memory. -/
def Ready (s : State) (c : Fin 96) : Prop := runs s c = true ∧ fetchable (core s c) = true

/-- A core as its instruction begins: a pending resume is consumed (R282). -/
def begun (x : Core) : Core := if !x.exc && eriPending x then { x with eri := eriClear x.eri } else x

/-- `u` is `s` but for core `c`, which is now `x`: no other core and nothing else of the state differs. -/
def CoreBecomes (c : Nat) (x : Core) (s u : State) : Prop :=
  core u c = x ∧ (∀ d, d ≠ c → core u d = core s d) ∧ { u with cores := s.cores } = s

/-- The instruction writes `v` to `rd` (nothing where `rd` is s0) and goes on at the next word; nothing else changes. -/
def Writes (i : Instr) (s : State) (c : Fin 96) (rd : Fin 32) (v : Word) : Prop :=
  Effect i s (CoreBecomes c (retire (setS (begun (core s c)) rd v)) s)

/-- The instruction leaves core `c` as `x` (from the core as the instruction began); nothing else changes. -/
def Leaves (i : Instr) (s : State) (c : Fin 96) (x : Core) : Prop := Effect i s (CoreBecomes c x s)

/-- The instruction enters the handler with a cause code and CORE_EADDR (R229); nothing else changes. -/
def Traps (i : Instr) (s : State) (c : Fin 96) (code eaddr : Nat) : Prop :=
  Effect i s (CoreBecomes c
    (enterHandler (core s c) (core s c).pc (BitVec.ofNat 64 code) (BitVec.ofNat 64 eaddr)) s)

/-- Element `k` under the element loop (07_vector.md, Active, masked and tail elements): an active element takes `op`, a
masked-off one 0 or its old value by MASK_ZERO, a tail element 0 or its old value by TAIL_ZERO. -/
def loopElem (h : Shape) (act : Nat → Bool) (old op : Nat → Nat) (k : Nat) : Nat :=
  if k < h.count then (if act k then op k else if h.maskZero then 0 else old k) else if h.tailZero then 0 else old k

/-- The conditions that the active elements gather; no other element sets one (R269). -/
def gathered (h : Shape) (act : Nat → Bool) (fl : Nat → Nat) : Nat :=
  ((List.range (min h.count h.vlmax)).filter act).foldl (fun acc k => Nat.lor acc (fl k)) 0

/-- The instruction writes element `e k` of width `w` to each place `k` of the `n` registers from `vd`, sets the conditions
`fl` in VSTAT and goes on at the next word; nothing else changes. -/
def WritesGroup (i : Instr) (s : State) (c : Fin 96) (vd : Fin 32) (n w : Nat) (e : Nat → Nat) (fl : Nat) : Prop :=
  ∃ r, Leaves i s c (retire (stick fl (putGroup vd r n (begun (core s c))))) ∧ ∀ k, k < n * 512 / w → elemAt r w k = e k

/-- A request names a unit and instance, sets no reserved byte of its header and does not only ask for its checks (R40). -/
def Addressed (r : Request) (unit inst : Nat) : Prop :=
  r.unit.toNat = unit ∧ r.inst.toNat = inst ∧ r.reserved = false ∧ dryRun r = false

/-- A request is answered: its one immediate reply, with a status and results, is queued on its transport in state `w`. -/
def Replies (i : Instr) (s : State) (opcode : Nat) (r : Request) (status : Nat) (results : Bytes) (w : State) : Prop :=
  Effect i s fun u => u = reply opcode r status results w

/-- The record of a long command a request begins. -/
def longOf (opcode : Nat) (r : Request) (obj : Option Nat) (cancellable : Bool) : Long :=
  { transport := r.transport, source := r.source, opcode := opcode, sequence := r.sequence, unit := r.unit,
    inst := r.inst, flags := r.flags, params := r.params, obj := obj, cancellable := cancellable }

/-- A long command is accepted: it is outstanding, with one immediate reply ACCEPTED, and `act` is what it begins with. -/
def Accepts (i : Instr) (s : State) (opcode : Nat) (r : Request) (obj : Option Nat) (cancellable : Bool)
    (act : State → State) : Prop :=
  Replies i s opcode r 0x0001 [] (act { s with cmd := { s.cmd with longs := s.cmd.longs ++ [longOf opcode r obj cancellable] } })

/-- There is room for a long command with the request's sequence (R52, R53). -/
def LongRoom (s : State) (r : Request) : Prop := seqInUse s r.transport r.sequence = false ∧ s.cmd.longs.length < 32

end Sys2Proof.Machine
end

