-- ==== Sys2Proof/Certificates/Slice0/Obligations.lean ====
section
/-!
DEFINITION. The statements for the provers, in the order of the spec's files. A statement that takes several parts together
names them; each part stands before it as a definition of its own.
-/
open Sys2Proof hiding core
open Sys2Proof.Machine

/-! ### The whole block -/

/-- A step takes the command at the front of the queue and does what that command does, with the queue's rest; with no command waiting
one clock cycle passes (the model's choice, log entry 3). -/
def Obligations.StepRunsTheFrontCommand : Prop :=
  ∀ (s : State) (c : Instr) (rest : List Instr),
    step { s with pending := c :: rest } = exec c { s with pending := rest } ∧
    (s.pending = [] → step s = cycle s)

/-- Memory stays in canonical form: addresses rise, and no listed byte is the one an unlisted address reads as. No step breaks
it, whatever the command. -/
def Obligations.EveryStepKeepsMemoryCanonical : Prop :=
  ∀ (s t : State), MemoryOk s → step s = .next t → MemoryOk t

/-- Every command completes in every state, whoever sends it: it answers a next state, takes no command from the queue and puts none in,
and leaves the part as it is. -/
def Obligations.EveryCommandCompletes : Prop :=
  ∀ (i : Instr) (s : State), ∃ t, exec i s = .next t ∧ t.pending = s.pending ∧ t.part = s.part ∧
    ∃ u, step s = .next u ∧ u.pending = s.pending.tail ∧ u.part = s.part

/-! ### Resets and boot (02_commands.md, R56; 03_boot_identity.md; 18_power.md, R622; 20_electrical.md, R651, R664) -/

/-- The reset value of the machine: held with RESET_N low, no time, no object, no command, no memory written, and both of its
invariants hold (R6, R17, R56, R76). -/
def Obligations.ResetState : Prop :=
  let s := State.reset
  s.sec.held = .resetN ∧ s.coxCount = 0 ∧ s.cox.st = .unset ∧ s.objs = [] ∧ s.cmd = {} ∧ s.pending = [] ∧ s.out = [] ∧
  s.mem = [] ∧ bootState s = 0 ∧ regF s uPOWER 0 0x000 25 24 = 0 ∧ committed s = 0 ∧ MemoryOk s ∧ Quiet s

/-- The resets (R56, R76, R622, R651, R659, R664): what holds the device, the straps sampled at a rising RESET_N, RESET_CAUSE,
and that every request, reply, long command, object and core's state is gone while SDRAM keeps its bytes where power was kept. -/
def Obligations.ResetsOfTheDevice : Prop :=
  ∀ (s : State) (straps : Fin 8) (osc : Bool) (r : Request),
    let cleared := fun (u : State) (cause : Nat) (h : Held) => u.sec.held = h ∧ regF u uPOWER 0 0x000 25 24 = cause ∧
      u.cmd = {} ∧ u.objs = [] ∧ u.cores = [] ∧ u.keys = [] ∧ u.cox.st = .unset ∧ bootState u = 0 ∧ u.part = s.part
    let keeps := fun (u : State) => s.cmd.longs = [] → ∀ a, regionOf a = .sdram → memByte u.mem a = memByte s.mem a
    let sampled := fun (u : State) => strapOf u = straps.val
    let only := fun (u : State) => { u with sec := { u.sec with held := s.sec.held }, regs := s.regs } = s
    (s.sec.held = .resetN → Effect (.resetNRise straps) s fun u => u.sec.held = .no ∧ sampled u ∧ only u) ∧
    (∀ b, s.sec.held = .powerOn b → Effect (.resetNRise straps) s fun u => u.sec.held = .powerOn true ∧ only u) ∧
    (s.sec.held = .no → Effect .resetNAssert s fun u => cleared u 1 .resetN ∧ keeps u) ∧
    (s.sec.held = .powerOn true → s.power.thermtrip = false → railsGood s (List.range 8) = true →
      Effect (.powerOnResetEnd straps osc) s fun u => u.sec.held = .no ∧ sampled u ∧ u.cox.osc = osc ∧ u.mem = s.mem) ∧
    (s.sec.held = .powerOn false → s.power.thermtrip = false → railsGood s (List.range 8) = true →
      Effect (.powerOnResetEnd straps osc) s fun u => u.sec.held = .resetN ∧ u.cox.osc = osc ∧ u.regs = s.regs) ∧
    (railsGood s (List.range 8) = false → Effect (.powerOnResetEnd straps osc) s fun u => u = s) ∧
    (Addressed r uSYS 0 → r.params.length = 4 → fld r.params 0 4 = 0x52535444 →
      Effect (.deviceReset r) s fun u => cleared u 2 .no ∧ keeps u) ∧
    (railFault s [0] = true → Effect .brownout s fun u => cleared u 0 (.powerOn false) ∧ u.power.thermtrip = false) ∧
    (railFault s [0] = false → railFault s brownoutRails = true → s.sec.held = .no →
      Effect .brownout s fun u => cleared u 3 (.brownout false) ∧ keeps u) ∧
    (railFault s [0] = false → railFault s brownoutRails = false → Effect .brownout s fun u => u = s) ∧
    (∀ low, s.sec.held = .brownout low → railsGood s brownoutRails = true →
      Effect .brownoutResetEnd s fun u => u.sec.held = (if low then .resetN else .no) ∧ only u) ∧
    ((∃ k, k < 16 ∧ bit (regGet s uPOWER 0 (0x500 + 4 * k)).toNat 31 = true ∧
        2160 ≤ toS 13 (regF s uPOWER 0 (0x500 + 4 * k) 12 0)) →
      Effect .thermtrip s fun u => cleared u 0 (.powerOn false) ∧ u.power.thermtrip = true ∧ keeps u)

/-- The phases of boot (R74 to R84, R93, R99 to R104, R452 to R455, R576): each acts in its own state of SEC_BOOT_STATUS and
leaves the next, WAIT_HOST, or CONFIG_INVALID with its reason. -/
def Obligations.PhasesOfBoot : Prop :=
  ∀ (s : State) (up : Bool) (gen : Fin 8) (width : Fin 32) (cs : List ChannelTraining),
    let at_ := fun n => s.sec.held = .no ∧ bootState s = n
    let down := fun (u : State) => outputsOff u = true ∧ u.fabric.frames = [] ∧ u.fabric.pinOwner = [] ∧
      regF u uHSP 0 0x004 1 0 = 3 ∧ regF u uHSP 1 0x004 1 0 = 3
    let invalid := fun (u : State) (why : Nat) => bootState u = 9 ∧ bootReason u = why ∧ down u
    let trained := (List.range 8).filter fun n => channelUp (cs.getD n {})
    (at_ 0 → Effect (.romPhase up gen width) s fun u => bootState u = 1 ∧ u.mem = s.mem ∧ u.objs = s.objs ∧
      regF u uPCIE 0 0x000 31 31 = b2n up ∧ (up = true → regF u uPCIE 0 0x000 30 28 = gen.val ∧
        regF u uPCIE 0 0x000 27 23 = width.val)) ∧
    (at_ 1 → trained ≠ [] → Effect (.memInit cs) s fun u => bootState u = 2 ∧ u.keys = [] ∧
      u.memChans = trained.take (powerOfTwo trained.length)) ∧
    (at_ 1 → trained = [] → Effect (.memInit cs) s fun u => invalid u 0x0B) ∧
    (at_ 2 → fwStores (strapOf s) = [] → strapOf s ≠ 4 →
      Effect .fwLoad s fun u => bootState u = 8 ∧ down u ∧ u.mem = s.mem) ∧
    (at_ 2 → strapOf s = 3 → newestSlot s .nv 1 = none → Effect .fwLoad s fun u => invalid u 1) ∧
    (at_ 2 → strapOf s = 3 → ∀ n ser img, newestSlot s .nv 1 = some (n, ser, img) →
      ((verifyImage 1 img (uncommitted .nv 1 s)).1 ≠ .valid →
        Effect .fwLoad s fun u => bootState u = 9 ∧ 2 ≤ bootReason u ∧ bootReason u ≤ 4) ∧
      ((verifyImage 1 img (uncommitted .nv 1 s)).1 = .valid →
        (loadFirmware img (verifyImage 1 img (uncommitted .nv 1 s)).2).1 = true →
        Effect .fwLoad s fun u => bootState u = 3 ∧ regF u uSEC 0 0x000 19 16 = 1 ∧ regF u uSEC 0 0x000 2 2 = n)) ∧
    (at_ 3 → newestSlot s .nv 4 = none → Effect .pinTable s fun u => bootState u = 4 ∧ u.fabric = s.fabric) ∧
    (at_ 3 → ∀ n ser img, newestSlot s .nv 4 = some (n, ser, img) →
      ((verifyImage 4 img s).1 ≠ .valid → Effect .pinTable s fun u => invalid u 5) ∧
      ((verifyImage 4 img s).1 = .valid → pinTableOk (imgPayload img) = true → Effect .pinTable s fun u => bootState u = 4)) ∧
    (at_ 4 → hasLogicArray s.part = false → Effect .fabricLoad s fun u => bootState u = 5 ∧ u.fabric = s.fabric) ∧
    (at_ 4 → hasLogicArray s.part = true → ∀ n ser img, newestSlot s .nv 3 = some (n, ser, img) →
      ((verifyImage 3 img s).1 ≠ .valid → Effect .fabricLoad s fun u => invalid u 6) ∧
      (let p := imgPayload img
       (verifyImage 3 img s).1 = .valid → bitstreamOk p = true →
        tapsOk ((mapBlocks p).map fun b => (b, frameOf p b)) = true → Effect .fabricLoad s fun u =>
          bootState u = 5 ∧ u.fabric.st = 2 ∧ u.fabric.clocks = sub p 392 32 ∧ regF u uSEC 0 0x000 1 1 = n)) ∧
    (at_ 4 → hasLogicArray s.part = true → newestSlot s .nv 3 = none → Effect .fabricLoad s fun u =>
      bootState u = 5 ∧ u.fabric = s.fabric) ∧
    (at_ 5 → newestSlot s .nv 2 = none → Effect .cfgLoad s fun u => invalid u 7) ∧
    (at_ 5 → ∀ n ser img, newestSlot s .nv 2 = some (n, ser, img) →
      ((verifyImage 2 img s).1 = .rollback → Effect .cfgLoad s fun u => invalid u 9) ∧
      ((verifyImage 2 img s).1 = .valid → parseRecords ((imgPayload img).length / 8 + 1) (imgPayload img) = none →
        Effect .cfgLoad s fun u => invalid u 0x0A) ∧
      ((verifyImage 2 img s).1 = .valid → imgPayload img = [] → Effect .cfgLoad s fun u => bootState u = 6 ∧ u.objs = s.objs)) ∧
    (at_ 6 → Effect .autostart s fun u => bootState u = 7 ∧ ∃ e, e ∈ u.evq ∧ e.code = 0x0204) ∧
    (at_ 7 → s.cox.st ≠ .unset → ∀ id o, s.cmd.deferred = [id] → objFind s id = some o → o.st = some .stopped →
      idFamily id ≠ 0x0B → let w := { s with cmd := { s.cmd with deferred := [] } }
      (fnAdmit w id o = 0 → Effect .deferredAutostart s fun u => u = fnStart id w ∧ u.cmd.deferred = []) ∧
      (fnAdmit w id o ≠ 0 → Effect .deferredAutostart s fun u =>
        u.cmd.deferred = [] ∧ u.objs = s.objs ∧ ∃ e, e ∈ u.evq ∧ e.code = 0x0102)) ∧
    (at_ 7 → s.cox.st = .unset → Effect .deferredAutostart s fun u => u = s) ∧
    (at_ 2 → strapOf s = 4 → s.sec.trained = none → s.sec.rxDone = false →
      Effect .bootReady s fun u => u.sec.trained = some s.now ∧ u.mem = s.mem ∧
        ∃ b, u.out = s.out ++ [.boot 0 "boot-ready" b] ∧ fld b 0 1 % 16 = 4 ∧ fld b 1 3 = 0xFFFFFF) ∧
    (at_ 2 → ∀ t, s.sec.trained = some t → s.sec.rx = none → t + 2 * second ≤ s.now →
      Effect .bootTransferTimeout s fun u => bootState u = 8 ∧ u.sec.trained = none ∧ u.mem = s.mem) ∧
    (s.sec.trained = none → Effect .bootTransferTimeout s fun u => u = s)

/-! ### The command interface (02_commands.md, R33 to R56) -/

/-- R34, R36 to R38, R46, R47: what arrives is queued while its queue has room and else counted; a UART frame is queued as
the COBS encoding of a packet with its CRC, and discarded and counted when it is not COBS, its CRC fails or the queue is full;
a pop takes the oldest reply, or the idle reply with the sequence of the last one consumed; a flush empties its transport and
mutes its long commands. -/
def Obligations.TransportQueues : Prop :=
  ∀ (s : State) (len : BitVec 11) (source : Nat) (p : Bytes) (rest : List Bytes), s.sec.held = .no →
    let words := fun (d : Bytes) => if d.length % 4 = 0 then some (d.length / 4) else none
    let muted := fun (t : Transport) (u : State) =>
      u.cmd.longs = s.cmd.longs.map (fun l => if l.transport = t then { l with muted := true } else l)
    (s.cmd.reqPcie.length < 16 → Effect (.cmdDoorbell len) s fun u => (∃ q, q.words = some len.toNat ∧
      (∀ k, k < min len.toNat 1024 → fld q.data (4 * k) 4 = (spGet 0 s.cmd.reqWindow k).toNat) ∧
      u.cmd = { s.cmd with reqPcie := s.cmd.reqPcie ++ [q] }) ∧ { u with cmd := s.cmd } = s) ∧
    (16 ≤ s.cmd.reqPcie.length → Effect (.cmdDoorbell len) s fun u =>
      regF u uSYS 0 0x104 31 31 = 1 ∧ { u with regs := s.regs } = s) ∧
    (regF s uSYS 0 0x110 1 1 = 1 → mgmtAddressed s = true → regF s uETH 48 0x004 31 31 = 1 → s.cmd.reqEth.length < 16 →
      Effect (.mgmtDatagram source p) s fun u => { u with cmd := s.cmd } = s ∧
        u.cmd = { s.cmd with reqEth := s.cmd.reqEth ++ [{ data := p, words := words p, source := source }] }) ∧
    (regF s uSYS 0 0x110 1 1 = 1 → mgmtAddressed s = true → regF s uETH 48 0x004 31 31 = 1 → 16 ≤ s.cmd.reqEth.length →
      Effect (.mgmtDatagram source p) s fun u => { u with regs := s.regs } = s ∧
        regF u uSYS 0 0x120 15 0 = min 0xFFFF (regF s uSYS 0 0x120 15 0 + 1)) ∧
    (bootState s ≠ 0 → regF s uSYS 0 0x110 2 2 = 1 → s.cmd.reqUart.length < 16 →
      Effect (.uartFrame (cobsGo (p ++ leBytes 2 (crc16 p)) [])) s fun u => { u with cmd := s.cmd } = s ∧
        u.cmd = { s.cmd with reqUart := s.cmd.reqUart ++ [{ data := p, words := words p }] }) ∧
    (bootState s ≠ 0 → regF s uSYS 0 0x110 2 2 = 1 → (cobsDecode (p.length + 1) p).all (fun d =>
        d.length < 2 || fld d (d.length - 2) 2 != crc16 (d.take (d.length - 2)) || 16 ≤ s.cmd.reqUart.length) = true →
      Effect (.uartFrame p) s fun u => { u with regs := s.regs } = s ∧
        regF u uSYS 0 0x120 31 16 = min 0xFFFF (regF s uSYS 0 0x120 31 16 + 1)) ∧
    (s.cmd.replies = p :: rest → s.cmd.backlog = [] → Effect .sysCmdRplPop s fun u => u.rdata = fld p 0 4 ∧
      u.cmd = { s.cmd with replies := rest, replyWindow := p, lastSeq := BitVec.ofNat 16 (fld p 2 2) } ∧
      { u with cmd := s.cmd, rdata := s.rdata } = s) ∧
    (∀ d note more, s.cmd.replies = p :: rest → s.cmd.backlog = (d, note) :: more → Effect .sysCmdRplPop s fun u =>
      u.rdata = fld p 0 4 ∧ u.cmd = { s.cmd with replies := rest ++ [d], backlog := more, replyWindow := p
                                                 lastSeq := BitVec.ofNat 16 (fld p 2 2) }) ∧
    (s.cmd.replies = [] → Effect .sysCmdRplPop s fun u => let w := u.cmd.replyWindow
      w.length = 16 ∧ fld w 0 2 = 0 ∧ fld w 2 2 = s.cmd.lastSeq.toNat ∧ fld w 4 2 = 4 ∧ fld w 8 1 = 0x40 ∧ fld w 10 2 = 2 ∧
      u.rdata = fld w 0 4 ∧ { u with cmd := { u.cmd with replyWindow := s.cmd.replyWindow }, rdata := s.rdata } = s) ∧
    Effect .flushPcie s (fun u => muted .pcie u ∧ u.cmd.reqPcie = [] ∧ u.cmd.replies = [] ∧
      u.cmd.backlog = [] ∧ u.cmd.lastSeq = 0 ∧
      u.cmd.reqEth = s.cmd.reqEth ∧ u.cmd.reqUart = s.cmd.reqUart ∧ { u with cmd := s.cmd } = s) ∧
    Effect .flushEth s (fun u => muted .eth u ∧ { u.cmd with longs := s.cmd.longs } = { s.cmd with reqEth := [] } ∧
      { u with cmd := s.cmd } = s) ∧
    Effect .flushUart s (fun u => muted .uart u ∧ { u.cmd with longs := s.cmd.longs } = { s.cmd with reqUart := [] } ∧
      { u with cmd := s.cmd } = s)

/-- R40, R42, R100: the interface takes the next request of the first transport in turn that waits; the first check that fails,
in the order length, version, flags, opcode, family mask and boot state, is its reply's status and nothing else changes; a
request that passes them acts as its command's own row does, or stays in its queue while a memory it needs is asleep (R537). -/
def Sys2Proof.Machine.Claims.RequestsAreTakenInTurn : Prop :=
  ∀ (s : State) (t : Transport) (q : RawReq) (rest : List RawReq), s.sec.held = .no → s.cmd.turn < 3 →
    waitingOn s t = q :: rest →
    (∀ t', (transportNo t' + 3 - s.cmd.turn) % 3 < (transportNo t + 3 - s.cmd.turn) % 3 → waitingOn s t' = []) →
    let w := { s with cmd := takeOff t rest s.cmd }
    let d := q.data
    let op := fld d 0 2
    let r := packetRequest t q
    let refused := fun (st : Nat) => Effect .requestTaken s fun u => u = reply op r st [] w
    let whole := 4 ≤ fld d 4 2 ∧ fld d 4 2 ≤ 1024 ∧ q.words = some (fld d 4 2)
    (¬ whole → refused 0x0011) ∧
    (whole → fld d 9 1 ≠ 1 → refused 0x0101) ∧
    (whole → fld d 9 1 = 1 → 4 ≤ fld d 8 1 → refused 0x0012) ∧
    (whole → fld d 9 1 = 1 → fld d 8 1 < 4 → commandOf op = none → refused 0x0010) ∧
    (∀ f, whole → fld d 9 1 = 1 → fld d 8 1 < 4 → commandOf op = some f →
      (familyAllowed s t (op / 256) = false → refused 0x0023) ∧
      (familyAllowed s t (op / 256) = true →
        (gateOpen op = false → bootState s = 8 → refused 0x0801) ∧
        (gateOpen op = false → bootState s = 9 → refused 0x0024) ∧
        ((gateOpen op = true ∨ bootState s < 8) →
          (requestWait op r s = none → ∃ u, f r w = .next u ∧ exec .requestTaken s = .next (settle 4096 u)) ∧
          (∀ v, requestWait op r s = some v → Effect .requestTaken s fun u => u = v))))

/-- The commands of the system family that act on nothing else (R22, R54, R55): CAPS answers the nine registers with the
ledger as it stands, ECHO its parameters, CMD_QUERY whether a sequence is outstanding; CANCEL ends a cancellable command
with a CANCELLED completion after its own DONE, and is BUSY or BAD_PARAM else. -/
def Sys2Proof.Machine.Claims.QueriesAndCancel : Prop :=
  ∀ (s : State) (r : Request) (l : Long), Addressed r uSYS 0 →
    (r.params = [] → ∃ res, Replies (.capsCmd r) s 0x0140 r 0 res s ∧ res.length = 36 ∧
      fld res 2 2 = (match s.part with | .yd4460 => 0x4460 | .yd4440 => 0x4440 | .yd4420 => 0x4420) ∧
      fld res 12 2 = 2 ^ crewCount s.part - 1 ∧
      fld res 32 4 = committed s * 2 ^ 20 + spare s * 2 ^ 10 + available s) ∧
    Replies (.echoCmd r) s 0x0141 r 0 r.params s ∧
    (r.params.length = 4 → fld r.params 2 1 < 3 → fld r.params 3 1 = 0 →
      (queried s r.params = none →
        Replies (.cmdQuery r) s 0x0142 r 0 (zeros 4) s ∧ Replies (.cancelCmd r) s 0x0143 r 0x0012 [] s) ∧
      (queried s r.params = some l →
        Replies (.cmdQuery r) s 0x0142 r 0 ([1, BitVec.ofNat 8 (b2n l.cancellable)] ++ leBytes 2 l.opcode) s ∧
        (l.cancellable = false → Replies (.cancelCmd r) s 0x0143 r 0x0017 [] s) ∧
        (l.cancellable = true → l.opcode = 0x0640 ∨ l.opcode = 0x0840 →
          Effect (.cancelCmd r) s fun u => u = completeLong l 0x0104 [] (reply 0x0143 r 0 [] s)))) ∧
    (∀ t q ok, (∀ l ∈ s.cmd.longs, l.transport = t → l.sequence ≠ q) →
      Effect (.longCommandCompletion t q ok) s fun u => u = s) ∧
    (∀ q ok, s.cmd.longs = [l] → l.transport = .pcie → l.sequence = q → l.obj = none → l.opcode = 0x0846 → l.muted = false →
      s.cmd.replies.length < 64 → bit l.flags.toNat 1 = false → regF s uSYS 0 0x10C 31 31 = 0 →
      Effect (.longCommandCompletion .pcie q ok) s fun u => u.cmd.longs = [] ∧ ∃ p, u.cmd.replies = s.cmd.replies ++ [p] ∧
        fld p 0 2 = 0x0846 ∧ fld p 2 2 = q.toNat ∧ fld p 8 1 = 0x80 + l.flags.toNat % 4 ∧ fld p 10 2 = (if ok then 0 else 0x0040))

/-- Requests are taken in turn and checked in order; the queries and CANCEL answer. -/
def Obligations.RequestsAndQueries : Prop :=
  Claims.RequestsAreTakenInTurn ∧ Claims.QueriesAndCancel

/-- R40 and R55, over every request of the opcode table: a DRY_RUN request of any of them queues its one reply and changes
nothing, and a request without DRY_RUN on which its checks find a failure answers that status and changes nothing
either. The premise on deferred starts is R75's own exception, the other that no memory the request needs is asleep (R537). -/
def Obligations.RefusedRequestsChangeNothing : Prop :=
  ∀ (s : State) (r : Request), s.cmd.deferred = [] → dryRun r = false → ∀ fam : BitVec 8,
    let rows : List (Nat × (Request → Instr)) :=
      [(fam.toNat * 256 + 1, .objSet fam), (fam.toNat * 256 + 2, .objGet fam), (fam.toNat * 256 + 3, .startFn fam),
       (fam.toNat * 256 + 4, .stopFn fam), (fam.toNat * 256 + 5, .objDelete fam), (fam.toNat * 256 + 6, .objState fam),
       (fam.toNat * 256 + 7, .objList fam), (0x0140, .capsCmd), (0x0141, .echoCmd), (0x0142, .cmdQuery), (0x0143, .cancelCmd),
       (0x0144, .configExport), (0x0145, .configInstall), (0x0146, .deviceReset), (0x0240, .handsetAdd),
       (0x0241, .handsetModify), (0x0242, .handsetRemove), (0x0243, .handsetStats), (0x0244, .carrierStats),
       (0x0340, .tagSet), (0x0341, .tagRemove), (0x0342, .tagGet), (0x0343, .chirpStats), (0x0440, .legAdd),
       (0x0441, .legRemove), (0x0442, .legParam), (0x0443, .legStats), (0x0444, .legKeySet), (0x0450, .layoutSet),
       (0x0451, .layoutGet), (0x0452, .fwdLegAdd), (0x0453, .fwdLegRemove), (0x0454, .fwdLegStats), (0x0540, .timeSet),
       (0x0541, .timeAdjust), (0x0542, .timeGet), (0x0543, .ptpPortStats), (0x0640, .nvRead), (0x0641, .nvWrite),
       (0x0740, .powerSet), (0x0741, .powerStatus), (0x0840, .imagePush), (0x0841, .imageInstall), (0x0842, .bootContinue),
       (0x0843, .rollbackAdvance), (0x0844, .identityGet), (0x0845, .certGet), (0x0846, .attest), (0x0847, .ownerKeysSet),
       (0x0848, .ownerKeyRevoke), (0x0940, .sfgStatus), (0x0941, .faultInject), (0x0942, .faultClear), (0x0A40, .mdStatus),
       (0x0A41, .bupexLinkStats), (0x0A42, .bupexBootSend), (0x0B40, .serviceSet), (0x0B41, .crewRetire),
       (0x0B42, .shuttleStats), (0x0B50, .queueReclaim), (0x0B51, .queueStats), (0x0B60, .weftDrain),
       (0x0B61, .weftLinkLoad), (0x0B62, .weftPath)]
    ∀ e ∈ rows, let dry := { r with flags := r.flags ||| 1 }
      requestWait e.1 dry s = none → ∃ st, Replies (e.2 dry) s e.1 dry st [] s ∧ (st ≠ 0 → Replies (e.2 r) s e.1 r st [] s)

/-! ### Objects and functions (02_commands.md, R54, R57 to R68) -/

/-- R59 to R61, R66: OBJ_GET answers an object's record, OBJ_STATE its state, cost and last status, OBJ_LIST the identifiers of
a type from an index on, each changing nothing else; OBJ_SET replaces a stopped function's whole object and OBJ_DELETE
removes it, but neither touches one that runs, starts or stops; an object that does not exist is OBJECT_UNKNOWN. -/
def Sys2Proof.Machine.Claims.ObjectCommands : Prop :=
  ∀ (s : State) (r : Request) (fam : BitVec 8) (o : Object), s.cmd.deferred = [] → Addressed r uSYS 0 →
    let f := fam.toNat
    let op := fun low => f * 256 + low
    let id := fld r.params 0 4
    hasObjects f = true → idOk f id = true → idAbsent s id = false →
    (r.params.length = 16 → fld r.params 4 4 = 0 → fld r.params 8 8 = 0 → objFind s id = some o → bodyAbsent s id o.body = false →
      (o.body.length ≤ 4072 → Replies (.objGet fam r) s (op 2) r 0
        (leBytes 4 id ++ leBytes 2 o.attrs ++ leBytes 2 o.body.length ++ o.body) s) ∧
      (4072 < o.body.length → Replies (.objGet fam r) s (op 2) r 0x0011 [] s)) ∧
    (r.params.length = 4 → objFind s id = some o → bodyAbsent s id o.body = false →
      Replies (.objState fam r) s (op 6) r 0
        ([BitVec.ofNat 8 (stateCode o.st), 0] ++ leBytes 2 o.cost ++ leBytes 2 o.last ++ [0, 0] ++ leBytes 8 o.changed) s) ∧
    (r.params.length = 4 → objFind s id = none → Replies (.objState fam r) s (op 6) r 0x0102 [] s ∧
      (f ≠ 6 → Replies (.objDelete fam r) s (op 5) r 0x0102 [] s) ∧
      (isFn id = true → LongRoom s r → Replies (.startFn fam r) s (op 3) r 0x0102 [] s ∧
        Replies (.stopFn fam r) s (op 4) r 0x0102 [] s)) ∧
    (r.params.length = 4 → ∀ ids, ids = (s.objs.map (·.1)).filter (fun k => k / 0x10000 = id / 0x10000 ∧ id ≤ k) →
      ids.length ≤ 1000 → Replies (.objList fam r) s (op 7) r 0 (leBytes 4 ids.length ++ ids.flatMap (leBytes 4)) s) ∧
    (r.params.length = 4 → f ≠ 6 → objFind s id = some o → bodyAbsent s id o.body = false → isFn id = true →
      (o.st = some .stopped → objBusy s id = false → Effect (.objDelete fam r) s fun u => ∃ w, u = reply (op 5) r 0 [] w ∧
        objFind w id = none ∧ (∀ k, k ≠ id → objFind w k = objFind s k) ∧ { w with objs := s.objs } = s) ∧
      (o.st = some .running → Replies (.objDelete fam r) s (op 5) r 0x0014 [] s) ∧
      (o.st = some .starting ∨ o.st = some .stopping → Replies (.objDelete fam r) s (op 5) r 0x0017 [] s)) ∧
    (∀ b : Bytes, r.params.length = 8 + b.length → b = sub r.params 8 b.length → fld r.params 6 2 = b.length →
      b.length % 4 = 0 → b.length ≤ 4072 → isFn id = true → bodyAbsent s id b = false → fld r.params 4 2 < 4 →
      fnCheck s id (fld r.params 4 2) b = 0 →
      (objFind s id = none → Effect (.objSet fam r) s fun u => ∃ w, u = reply (op 1) r 0 [] w ∧
        objFind w id = some { attrs := fld r.params 4 2, body := b, st := some .stopped, changed := shortNow s } ∧
        (∀ k, k ≠ id → objFind w k = objFind s k) ∧ { w with objs := s.objs } = s) ∧
      (objFind s id = some o → o.st = some .stopped → objBusy s id = false → Effect (.objSet fam r) s fun u =>
        ∃ w, u = reply (op 1) r 0 [] w ∧ objFind w id = some { o with attrs := fld r.params 4 2, body := b } ∧
        (∀ k, k ≠ id → objFind w k = objFind s k) ∧ { w with objs := s.objs } = s) ∧
      (objFind s id = some o → o.st = some .running → Replies (.objSet fam r) s (op 1) r 0x0014 [] s) ∧
      (objFind s id = some o → o.st = some .starting ∨ o.st = some .stopping →
        Replies (.objSet fam r) s (op 1) r 0x0017 [] s))

/-- R62 to R65: START of a stopped function that its checks admit makes it STARTING and commits its cost (exactly so for a
fabric region, which takes nothing else), and a refusal leaves it; STOP of a running one makes it STOPPING; either is
refused in the other states. A region's STOP ends it: STOPPED, its cost given back, and one completion. -/
def Sys2Proof.Machine.Claims.StartAndStop : Prop :=
  ∀ (s : State) (r : Request) (fam : BitVec 8) (o : Object), s.cmd.deferred = [] → Addressed r uSYS 0 →
    let f := fam.toNat
    let id := fld r.params 0 4
    hasObjects f = true → idOk f id = true → idAbsent s id = false → isFn id = true → r.params.length = 4 →
    objFind s id = some o → bodyAbsent s id o.body = false → LongRoom s r → requestWait (f * 256 + 3) r s = none →
    let start := fun st => Replies (.startFn fam r) s (f * 256 + 3) r st [] s
    let stop := fun st => Replies (.stopFn fam r) s (f * 256 + 4) r st [] s
    (o.st = some .stopped → objBusy s id = false →
      (fnAdmit s id o = 0 → Accepts (.startFn fam r) s (f * 256 + 3) r (some id) false (fnStart id)) ∧
      (fnAdmit s id o ≠ 0 → start (fnAdmit s id o))) ∧
    (o.st = some .stopped → stop 0x0015) ∧
    (o.st = some .running → start 0x0014) ∧
    (o.st = some .running → objBusy s id = false →
      Accepts (.stopFn fam r) s (f * 256 + 4) r (some id) false (fnStopping id)) ∧
    (o.st = some .starting ∨ o.st = some .stopping → start 0x0017 ∧ stop 0x0017) ∧
    (f = 6 →
      let u := fnStart id s
      objFind u id = some { o with st := some .starting, cost := fnCost id o.body, changed := shortNow s } ∧
      committed u = committed s + fnCost id o.body ∧ (∀ k, k ≠ id → objFind u k = objFind s k) ∧
      { u with objs := s.objs, regs := s.regs } = s) ∧
    (∀ l ok, f = 6 → o.st = some .stopping → s.cmd.longs = [l] → l.obj = some id → l.opcode = 0x0604 → l.muted = false →
      s.cmd.replies.length < 64 → l.transport = .pcie → o.cost ≤ committed s → Effect (.longCommandCompletion .pcie l.sequence ok) s fun u =>
        (∃ x, objFind u id = some x ∧ x.st = some .stopped ∧ x.cost = 0 ∧ x.last = 0) ∧
        committed u = committed s - o.cost ∧ u.cmd.longs = [] ∧
        ∃ p, u.cmd.replies = s.cmd.replies ++ [p] ∧ fld p 0 2 = 0x0604 ∧ fld p 10 2 = 0)

/-- Objects are set, read, listed and deleted; functions start and stop by their state. -/
def Obligations.ObjectsAndFunctions : Prop :=
  Claims.ObjectCommands ∧ Claims.StartAndStop

/-! ### Images, identity and owner keys (03_boot_identity.md, R86 to R110; 02_commands.md, R71, R72; 17_jortanu_fabric.md, R600) -/

/-- The security and image commands as they are taken (R71, R72, R95 to R97, R102, R105 to R110, R600): IDENTITY_GET and CERT_GET answer
what manufacture put in; the long commands are accepted where their own conditions hold, and refused with the status of the
first that does not; BOOT_CONTINUE resumes boot where the reason allows. -/
def Obligations.SecurityCommands : Prop :=
  ∀ (s : State) (r : Request),
    let p := r.params
    let sec := Addressed r uSEC 0
    let why := bootReason s
    (sec → p = [] → ∃ res, Replies (.identityGet r) s 0x0844 r 0 res s ∧ res.length = 1992 ∧
      fld res 0 8 = Config.serial.toNat) ∧
    (sec → p.length = 8 → fld p 0 1 ≤ 3 → fld p 1 1 = 0 → fld p 4 2 ≤ 4076 → fld p 6 2 = 0 →
      let c := certificate (fld p 0 1)
      let d := (c.drop (fld p 2 2)).take (fld p 4 2)
      Replies (.certGet r) s 0x0845 r 0 (leBytes 2 c.length ++ leBytes 2 d.length ++ d) s) ∧
    (sec → p = [] →
      (bootState s ≠ 9 → Replies (.bootContinue r) s 0x0842 r 0x0801 [] s) ∧
      (bootState s = 9 → why ≤ 4 → Replies (.bootContinue r) s 0x0842 r 0x0024 [] s) ∧
      (bootState s = 9 → why = 0x0B → Replies (.bootContinue r) s 0x0842 r 0x0040 [] s) ∧
      (bootState s = 9 → 5 ≤ why → why ≤ 0x0A → Effect (.bootContinue r) s fun u => ∃ w, u = reply 0x0842 r 0 [] w ∧
        bootState w = (if why = 5 then 4 else if why = 6 then 5 else 6) ∧ bootReason w = 0 ∧ { w with regs := s.regs } = s)) ∧
    (LongRoom s r →
      (sec → p.length = 32 → Accepts (.attest r) s 0x0846 r none false id) ∧
      (sec → p.length = 16 → fld p 0 1 = 1 → fld p 1 3 = 0 → fld p 8 8 < 2 ^ 48 →
        (wantsFirmware s = true → Accepts (.imagePush r) s 0x0840 r none true id) ∧
        (wantsFirmware s = false → Replies (.imagePush r) s 0x0840 r 0x0801 [] s)) ∧
      (sec → p.length = 16 → fld p 0 1 = 1 ∨ fld p 0 1 = 3 ∨ fld p 0 1 = 4 → fld p 1 1 = 0 → fld p 2 2 = 0 →
        fld p 8 8 < 2 ^ 48 →
        (installOn s = false → fld p 4 4 ≤ slotSize .nv (fld p 0 1) → Accepts (.imageInstall r) s 0x0841 r none true id) ∧
        (installOn s = false → slotSize .nv (fld p 0 1) < fld p 4 4 → Replies (.imageInstall r) s 0x0841 r 0x0016 [] s) ∧
        (installOn s = true → Replies (.imageInstall r) s 0x0841 r 0x0017 [] s)) ∧
      (Addressed r uSYS 0 → p.length = 16 → fld p 12 4 = 0 → fld p 0 8 < 2 ^ 48 →
        (installOn s = false → fld p 8 4 ≤ 0x40000 → Accepts (.configInstall r) s 0x0145 r none true id) ∧
        (installOn s = true → Replies (.configInstall r) s 0x0145 r 0x0017 [] s) ∧
        (writable s (fld p 0 8) (exportBody s).length = true →
          (roundUp (exportBody s).length 32 ≤ fld p 8 4 →
            Accepts (.configExport r) s 0x0144 { r with params := p ++ exportBody s } none true id) ∧
          (fld p 8 4 < roundUp (exportBody s).length 32 → Replies (.configExport r) s 0x0144 r 0x0016 [] s))) ∧
      (sec → p.length = 4 → 1 ≤ fld p 0 1 → fld p 0 1 ≤ 4 → fld p 2 2 = 0 →
        let now := rollbackOf s (fld p 0 1)
        (now ≤ fld p 1 1 → (∃ h, spFind s.sec.booted (fld p 0 1) = some h ∧ fld p 1 1 ≤ imgVersion h) →
          Accepts (.rollbackAdvance r) s 0x0843 r none false id) ∧
        (fld p 1 1 < now → Replies (.rollbackAdvance r) s 0x0843 r 0x0012 [] s) ∧
        (now < fld p 1 1 → spFind s.sec.booted (fld p 0 1) = none → Replies (.rollbackAdvance r) s 0x0843 r 0x0012 [] s)) ∧
      (sec → p.length = 1988 → fld p 0 1 ≤ 1 → fld p 1 3 = 0 →
        (programmed s (fld p 0 1) = false → Accepts (.ownerKeysSet r) s 0x0847 r none false id) ∧
        (programmed s (fld p 0 1) = true → Replies (.ownerKeysSet r) s 0x0847 r 0x0802 [] s)) ∧
      (sec → p.length = 3392 → fld p 0 1 ≤ 1 → fld p 1 7 = 0 → fld p 8 8 = Config.serial.toNat →
        (programmed s (1 - fld p 0 1) = true → (ownerSlot s (1 - fld p 0 1)).revoked = false →
          Accepts (.ownerKeyRevoke r) s 0x0848 r none false id) ∧
        (programmed s (1 - fld p 0 1) = false → Replies (.ownerKeyRevoke r) s 0x0848 r 0x0803 [] s)) ∧
      (Addressed r uFABRIC 0 → p.length = 16 →
        (nvRange (fld p 0 4) (fld p 4 4) = true → Accepts (.nvWrite r) s 0x0641 r none true id ∧
          (writable s (fld p 8 8) (fld p 4 4) = true → Accepts (.nvRead r) s 0x0640 r none true id)) ∧
        (nvRange (fld p 0 4) (fld p 4 4) = false → Replies (.nvWrite r) s 0x0641 r 0x0604 [] s ∧
          Replies (.nvRead r) s 0x0640 r 0x0604 [] s)))

/-- What the long commands of the security family leave when they complete (R90 to R92, R97, R107, R108, R600): an install that
verifies becomes the newest slot with a serial one above the largest, the rollback counter never falls, an owner slot
takes its keys' digests once, a revoke fuse is blown only under the other slot's signatures, NV_WRITE stores its bytes, and
a verdict that is not valid writes nothing. While PFAIL is set none of them starts (R623). -/
def Obligations.SecurityCompletions : Prop :=
  ∀ (s : State) (l : Long) (b : Bytes) (w : State), s.cmd.longs = [l] → l.obj = none → l.muted = false →
    let n := fld l.params 0 1
    let ends := fun (P : State → Nat → Prop) => Effect (.longCommandCompletion l.transport l.sequence true) s fun u =>
      u.cmd.longs = [] ∧ ∃ st v res, u = completeLong l st res v ∧ P u st
    let stores := fun (u : State) => (u.sec.nv, u.sec.spi, u.sec.rollback, u.sec.owner0, u.sec.owner1)
    (nvPaused s = true → l.opcode = 0x0843 ∨ l.opcode = 0x0847 ∨ l.opcode = 0x0848 ∨ l.opcode = 0x0641 ∨ l.opcode = 0x0145 →
      Effect (.longCommandCompletion l.transport l.sequence true) s fun u => u = s) ∧
    (nvPaused s = false →
      (l.opcode = 0x0843 → ends fun u st => st = 0 ∧ u.sec.rollback = s.sec.rollback.set (n - 1)
        (max (rollbackOf s n) (fld l.params 1 1)) ∧ u.sec.nv = s.sec.nv) ∧
      (l.opcode = 0x0847 → programmed s n = false → n ≤ 1 → ends fun u st => st = 0 ∧
        (ownerSlot u n).ed = some (Config.sha512 (sub l.params 4 32)) ∧
        (ownerSlot u n).ml = Config.sha512 (sub l.params 36 1952) ∧ ownerSlot u (1 - n) = ownerSlot s (1 - n)) ∧
      (l.opcode = 0x0847 → programmed s n = true → ends fun u st => st = 0x0802 ∧ stores u = stores s) ∧
      (l.opcode = 0x0848 → n ≤ 1 → revokeSigned l s = true → ends fun u st => st = 0 ∧ (ownerSlot u n).revoked = true ∧
        ownerSlot u (1 - n) = ownerSlot s (1 - n)) ∧
      (l.opcode = 0x0848 → revokeSigned l s = false → ends fun u st => st = 0x0803 ∧ stores u = stores s) ∧
      (∀ e, l.opcode = 0x0641 → readBytes (unitInit uSYS 0) (fld l.params 8 8) (fld l.params 4 4) s = (.ok, b, e, s) →
        ends fun u st => st = 0 ∧ storeBytes u.sec.nv (fld l.params 0 4) b.length = b) ∧
      (l.opcode = 0x0145 ∨ l.opcode = 0x0841 → installVerify l s = (some 0, b, w) → 1 ≤ installType l → installType l ≤ 4 →
        (installStore l = .spi → installType l = 1) → b.length ≤ slotSize (installStore l) (installType l) →
        (∀ k ser img, newestSlot s (installStore l) (installType l) = some (k, ser, img) → ser < 2 ^ 64 - 1) →
        ends fun u st => st = 0 ∧ newestSlot u (installStore l) (installType l) =
          some (installSlot s (installStore l) (installType l),
            1 + ((newestSlot s (installStore l) (installType l)).map fun x => x.2.1).getD 0, b)) ∧
      (∀ no, l.opcode = 0x0145 ∨ l.opcode = 0x0841 → (installVerify l s).1 = some no → no ≠ 0 → ends fun u st =>
        st = no ∧ stores u = stores s)) ∧
    (l.opcode = 0x0846 → ends fun u st => st = 0 ∧ stores u = stores s ∧ bootState u = bootState s)

/-! ### Baseband (04_baseband.md) -/

/-- Carriers and the fronthaul (R129, R130, R132 to R140, R144): a starting carrier runs from its frame boundary and a stopping
one ends with its handsets and symbols; U-plane blocks are counted unknown, early or late outside their window and taken
within it; a window's close completes its symbol; downlink symbols, where reading their packet finds no error, and C-plane
messages go out while their time lasts and are counted late after it; CLEAR_ALL clears the unit's counters. Counting assumes FREEZE clear. -/
def Obligations.CarriersAndFronthaul : Prop :=
  ∀ (s : State) (c : Fin 64) (id : Nat) (o : Object) (port : Fin 48) (eaxc : BitVec 16) (seq : BitVec 8) (slot : BitVec 48)
    (k : Fin 14) (first : Fin 273) (prbs : List Prb) (a : AntEntry) (x : UlSymbol) (h : BitVec 32) (data : Bytes),
    regF s uFRONTHAUL 0 0x008 1 1 = 0 → carrierFind s c = some (id, o) →
    let b := o.body
    let run := carrierRun s c
    let now : Int := shortNow s
    let n := slot.toNat
    let count := fun (u : State) (item j m : Nat) =>
      cntGet u (cntKey uFRONTHAUL item j) = min 0xFFFFFFFF (cntGet s (cntKey uFRONTHAUL item j) + m)
    let message := Instr.uplaneMessage port eaxc seq slot k first prbs
    let ant := a.ant + (if bit a.dir 2 then 64 else 0)
    let blocks := (List.range prbs.length).map (· + first.val)
    let served := slotServed s c n = true
    (o.st = some .starting →
      (carrierStartAt b run.admitted ≤ now → Effect (.carrierRunning c) s fun u =>
        (∃ y, objFind u id = some y ∧ y.st = some .running ∧ y.body = b) ∧ (∀ j, j ≠ id → objFind u j = objFind s j)) ∧
      (now < carrierStartAt b run.admitted → Effect (.carrierRunning c) s fun u => u = s)) ∧
    (o.st = some .stopping → carrierStopAt s c id b ≤ now → Effect (.carrierStopped c) s fun u =>
      (∃ y, objFind u id = some y ∧ y.st = some .stopped ∧ y.cost = 0 ∧ y.pool = 0) ∧ carrierRun u c = {} ∧
      (∀ e ∈ u.handsets, handsetCarrier e.2 ≠ c) ∧ (∀ e ∈ s.handsets, handsetCarrier e.2 ≠ c → e ∈ u.handsets)) ∧
    (eaxcFind s port eaxc.toNat 1 = none → Effect message s fun u => count u port fhUNKNOWN 1 ∧
      { u with counters := s.counters } = s) ∧
    (eaxcFind s port eaxc.toNat 1 = some (c.val, id, b, a) → served → spFind s.fhSeq (port.val * 65536 + eaxc.toNat) = none →
      (now < symbolStart id b n k → Effect message s fun u => count u c fhEARLY 1 ∧ u.carriers = s.carriers) ∧
      (symbolStart id b n (k.val + 1) + carUlWindowNs b < now → Effect message s fun u => count u c fhLATE 1 ∧
        (carrierRun u c).ulLost = run.ulLost + 1 ∧ (carrierRun u c).symbols = run.symbols) ∧
      (symbolStart id b n k ≤ now → now ≤ symbolStart id b n (k.val + 1) + carUlWindowNs b →
        (∀ p ∈ blocks, p < carRb id b 4) → run.dropped.contains (ulKey n k ant) = false →
        ulFind s c n k ant = some x → x.complete = false →
        ((∀ p ∈ blocks, p ∉ x.got) → Effect message s fun u => count u c fhACCEPTED 1 ∧
          (carrierRun u c).symbols = run.symbols.map fun y => if y.slot = n ∧ y.sym = k.val ∧ y.ant = ant then
            (if x.got.length + blocks.length = carRb id b 4 then
               { y with got := y.got ++ blocks, complete := true, doneAt := shortNow s, missing := false }
             else { y with got := y.got ++ blocks }) else y) ∧
        ((∃ p ∈ blocks, p ∈ x.got) → Effect message s fun u => count u c fhDUPLICATE 1 ∧ u.carriers = s.carriers ∧
          u.mem = s.mem))) ∧
    (served → isUplink id b n k = true → carUlAnt b = 1 → isLte id = false → joints s = [] →
      ulFind s c n k 0 = some x → x.complete = false →
      (symbolStart id b n (k.val + 1) + carUlWindowNs b < now → Effect (.receiveWindowClose c slot k) s fun u =>
        (carrierRun u c).symbols = ((run.symbols.map fun y => if y.slot = n ∧ y.sym = k.val ∧ y.ant = 0 then
          { y with complete := true, doneAt := shortNow s, missing := decide (x.got.length < carRb id b 4) } else y).filter
            fun y => (n < y.slot || (y.slot == n && k.val < y.sym)) || (pkt s y.handle).any (·.fronthaul)) ∧
        (x.got.length < carRb id b 4 → count u c fhMISSING (carRb id b 4 - x.got.length) ∧
          (carrierRun u c).ulLost = run.ulLost + 1)) ∧
      (now ≤ symbolStart id b n (k.val + 1) + carUlWindowNs b → Effect (.receiveWindowClose c slot k) s fun u => u = s)) ∧
    (served → now ≤ symbolStart id b n k - carDlAdvance b - 10000 → NoLaunch s → ∀ t : Fin 128, holdable s h.toNat = true →
      ((antMap b).filter fun e => bit e.dir 0 && e.ant + (if bit e.dir 2 then 64 else 0) == t.val) = [a] → a.port < 48 →
      (readPacket (unitInit uFRONTHAUL 0) h.toNat s).2 = s →
      Effect (.dlSymbolSend c slot k [(t, h)]) s fun u => (∃ d, u.out = s.out ++ [.eth a.port "uplane" d]) ∧
        count u c fhDL_SENT 1 ∧ pkt u h.toNat = none) ∧
    (served → symbolStart id b n k - carDlAdvance b - 10000 < now → run.lateSymbols.contains (14 * n + k.val) = false →
      Effect (.dlSymbolSend c slot k []) s fun u => count u c fhDL_LATE 1 ∧ (carrierRun u c).dlLate = run.dlLate + 1 ∧
        u.out = s.out) ∧
    (served → now ≤ slotStart id b n - carDlAdvance b - 125000 → NoLaunch s → Effect (.cplaneSend c slot [(port, data)]) s fun u =>
      u.out = s.out ++ [.eth port "cplane" data] ∧ count u c fhCP_SENT 1) ∧
    (served → slotStart id b n - carDlAdvance b - 125000 < now → run.lateSlots.contains n = false →
      Effect (.cplaneSend c slot [(port, data)]) s fun u => count u c fhCP_LATE 1 ∧ u.out = s.out) ∧
    (∀ rec i, NoLaunch s → Effect (.ecpriDelayMeasurement port rec i) s fun u => (∃ t, u.out = s.out ++
      [.eth port (if rec then "delay-response" else "delay-request") (i :: t)]) ∧ { u with out := s.out, counters := s.counters } = s) ∧
    Effect .fronthaulClearAll s (fun u => (∀ j, cntGet u j = if j / 0x100000000 = uFRONTHAUL then 0 else cntGet s j) ∧
      { u with counters := s.counters } = s) ∧
    (∀ uci (hs : BitVec 14) (proc : Fin 16) y q, o.st = some .running → spFind s.handsets hs.toNat = some y →
      handsetCarrier y = c → harqFind y (!uci) proc = some q → q.failed = false →
      (slotStart id b (q.slot + 2) ≤ now → Effect (.decodeDeadlineMiss c ⟨uci, hs, proc⟩) s fun u =>
        count u c (if uci then fhHARQ_DL else fhHARQ_UL) 1 ∧ (carrierRun u c).harqMiss = run.harqMiss + 1 ∧ u.objs = s.objs ∧
        ∃ z, spFind u.handsets hs.toNat = some z ∧ z.dtx = y.dtx + b2n uci ∧
          harqFind z (!uci) proc = some { q with failed := true }) ∧
      (now < slotStart id b (q.slot + 2) → Effect (.decodeDeadlineMiss c ⟨uci, hs, proc⟩) s fun u => u = s))

/-- Handset contexts, scheduling and statistics (R141, R149 to R156): HANDSET_ADD puts a context in force with its keys in the key
store, HANDSET_MODIFY leaves a replacement for its slot, HANDSET_REMOVE discards queue and HARQ processes and leaves context and
keys to the next release; the scheduling stage releases a slot once, adopts the replacements due and takes the removed contexts
out; a period's end restarts its counts, records or none. -/
def Obligations.HandsetsAndScheduling : Prop :=
  ∀ (s : State) (r : Request) (c : Fin 64) (id : Nat) (o : Object) (x : Handset) (air : CarrierFigure) (n : Nat),
    carrierFind s c = some (id, o) → o.st = some .running →
    let b := o.body
    let run := carrierRun s c
    let p := r.params
    let h := fld p 0 2
    let keysOff := fun (u : State) => ∀ k, k < 8 → spFind u.keys (h * 8 + k) = none
    (dueSlot id b (shortNow s) = some n → (∀ m, run.released = some m → m < n) → run.first ≤ n →
      (queue s (fld b 58 2)).items = [] → run.items = [] →
      (carFlag b 1 = false → (∀ e ∈ s.handsets, e.2.next = none ∧ e.2.removed = none) →
        Effect (.macScheduling c [] air) s fun u => (carrierRun u c).released = some n ∧
          (carrierRun u c).dlPrb = run.dlPrb + air.dlPrb.toNat ∧ { u with carriers := s.carriers } = s) ∧
      (∀ t q, carFlag b 1 = false → s.handsets = [(h, x)] → handsetCarrier x = c.val → x.removed = none → x.next = some (q, t) →
        (slotAt id b t).getD 0 ≤ n → Effect (.macScheduling c [] air) s fun u => (carrierRun u c).released = some n ∧
          ∃ y, spFind u.handsets h = some y ∧ y.ctx = stripKeys q ∧ y.next = none ∧ y.queue = x.queue) ∧
      (∀ m, s.handsets = [(h, x)] → handsetCarrier x = c.val → x.removed = some m → m ≤ n → bit (fld x.ctx 9 1) 0 = false →
        Effect (.macScheduling c [] air) s fun u => (carrierRun u c).released = some n ∧ u.handsets = [] ∧ keysOff u)) ∧
    (∀ m, run.released = some m → dueSlot id b (shortNow s) = some n → n ≤ m →
      Effect (.macScheduling c [] air) s fun u => u = s) ∧
    (slotAt id b (shortNow s) = some n → s.handsets = [] → run.statsSlot < n → run.period + 1000 ≤ n →
      Effect (.statsPeriod c) s fun u => let y := carrierRun u c
        y.period = n ∧ y.statsSlot = n ∧ y.dlLate = 0 ∧ y.ulLost = 0 ∧ y.harqMiss = 0 ∧ y.air = {} ∧ y.dlPrb = 0 ∧ y.ulPrb = 0 ∧
        y.symbols = run.symbols ∧ (carFlag b 2 = false → { u with carriers := s.carriers } = s)) ∧
    (slotAt id b (shortNow s) = some n → n ≤ run.statsSlot → Effect (.statsPeriod c) s fun u => u = s) ∧
    (dryRun r = false → r.reserved = false → fld p 2 1 = c.val →
      (contextCheck s r false = 0 →
        (spFind s.handsets h = none → s.handsets.length < 16384 → (handsetsOf s c).length < 4096 →
          Effect (.handsetAdd r) s fun u => ∃ w res, u = reply 0x0240 r 0 res w ∧ res.length = 8 ∧
            (∃ y, spFind w.handsets h = some y ∧ y.ctx = stripKeys p ∧ y.queue = [] ∧ y.next = none ∧
              y.first = nextSlot s c id b) ∧
            (∀ j, j ≠ h → spFind w.handsets j = spFind s.handsets j) ∧
            (∀ k, k < fld p 10 2 → k < 8 → spFind w.keys (h * 8 + k) =
              some { first := sub p (56 + 64 * k) 16, second := sub p (72 + 64 * k) 16 }) ∧
            { w with handsets := s.handsets, keys := s.keys } = s) ∧
        (spFind s.handsets h = some x → Replies (.handsetAdd r) s 0x0240 r 0x0204 [] s)) ∧
      (r.transport ≠ .pcie → Replies (.handsetAdd r) s 0x0240 r 0x0023 [] s ∧ Replies (.handsetModify r) s 0x0241 r 0x0023 [] s) ∧
      (contextCheck s r true = 0 → spFind s.handsets h = some x → handsetCarrier x = c.val → x.removed = none → fld p 16 8 = 0 →
        Effect (.handsetModify r) s fun u => ∃ w res, u = reply 0x0241 r 0 res w ∧ res.length = 8 ∧
          spFind w.handsets h = some { x with next := some (p, (slotStart id b (nextSlot s c id b)).toNat) } ∧
          (∀ j, j ≠ h → spFind w.handsets j = spFind s.handsets j) ∧ { w with handsets := s.handsets } = s) ∧
      (contextCheck s r true = 0 → spFind s.handsets h = none → Replies (.handsetModify r) s 0x0241 r 0x0205 [] s)) ∧
    (Addressed r uSYS 0 → p.length = 8 → h < 0x4000 → fld p 2 6 = 0 →
      (spFind s.handsets h = some x → handsetCarrier x = c.val → x.removed = none →
        (Effect (.handsetRemove r) s fun u => ∃ w, u = reply 0x0242 r 0 (leBytes 4 x.queue.length) w ∧
          spFind w.handsets h = some { x with removed := some (nextSlot s c id b), queue := [], harq := [], next := none } ∧
          (∀ j, j ≠ h → spFind w.handsets j = spFind s.handsets j) ∧ { w with handsets := s.handsets } = s) ∧
        (∃ res, Replies (.handsetStats r) s 0x0243 r 0 res s ∧ res.length = 32 ∧ fld res 0 8 = shortNow s % 2 ^ 64 ∧
          fld res 8 2 = h ∧ fld res 10 1 = c.val ∧ fld res 11 1 = x.link.rank.toNat ∧ fld res 14 2 = evmOf x.air % 65536 ∧
          fld res 24 4 = x.air.dlBits / 8 % 2 ^ 32 ∧ fld res 28 4 = x.air.ulBits / 8 % 2 ^ 32)) ∧
      (spFind s.handsets h = none → Replies (.handsetRemove r) s 0x0242 r 0x0205 [] s ∧
        Replies (.handsetStats r) s 0x0243 r 0x0205 [] s)) ∧
    (Addressed r uSYS 0 → p.length = 8 → fld p 0 1 = c.val → fld p 1 7 = 0 → ∃ res,
      Replies (.carrierStats r) s 0x0244 r 0 res s ∧ res.length = 64 ∧ fld res 0 8 = shortNow s % 2 ^ 64 ∧
        fld res 8 1 = c.val ∧ fld res 26 2 = (handsetsOf s c).length % 65536 ∧ fld res 28 4 = run.dlLate % 2 ^ 32 ∧ fld res 32 4 = run.ulLost % 2 ^ 32 ∧
        fld res 36 4 = run.harqMiss % 2 ^ 32)

/-! ### Shuttle and Beam (05_shuttle.md) -/

/-- R158, R159, R162, R163 and R168: arming a slot that nothing refuses makes it WAITING with INIT sources to come, or an
armed template; a refused arm leaves every slot as it was and counts; a decrement lowers a waiting slot's counter; a slot
at zero whose RELEASE has come becomes READY, a join node completing at once. -/
def Sys2Proof.Machine.Claims.ArmingAndDependences : Prop :=
  ∀ (s : State) (task : BitVec 16) (b : Bytes) (n1 : Nat) (i : Initiator) (n : BitVec 12),
    let t := task.toNat
    let x := slot s t
    let d := ownedDesc s t b
    let read := readBytes (unitInit uSHUTTLE 0) (taskBase s + 64 * t) 64 s = (.ok, b, n1, s)
    (read → armReason t .ok b s = 0 → d.template = false → d.ordered = false →
      Effect (.shuttleArm task) s fun u => u = slotPut t { st := .waiting, desc := d, count := d.init } s) ∧
    (read → armReason t .ok b s = 0 → d.template = true → d.bindQ ≠ 0xFFFF →
      Effect (.shuttleArm task) s fun u => u = slotPut t { st := .armedTemplate, desc := d, count := 1 }
        (queuePut d.bindQ { queue s d.bindQ with notifyKind := 1, notifyTarget := t } s)) ∧
    (read → x.st ≠ .free → Effect (.shuttleArm task) s fun u =>
      (∀ k, slot u k = slot s k) ∧ cntGet u (cntKey uSHUTTLE 15 7) = min 0xFFFFFFFF (cntGet s (cntKey uSHUTTLE 15 7) + 1) ∧
      u.evq = s.evq ++ [{ code := 0x0601, unit := uSHUTTLE, inst := 0, sev := 1
                          data := leBytes 2 t ++ [1] ++ zeros 13 }]) ∧
    (Quiet s → x.st = .waiting → 0 < n.toNat → n.toNat ≤ x.count →
      exec (.shuttleDec i task n) s = .next (slotPut t { x with count := x.count - n.toNat } s)) ∧
    (x.st = .waiting → x.count = 0 → x.desc.release ≤ shortNow s → x.desc.cancelLate = false →
      let w : Work := { task := t, deadline := x.desc.deadline, inputFailed := x.inputFailed, seq := x.seq }
      (x.desc.target = 6 → Effect (.taskReady task) s fun u => u = rescueEval (completeWork w (!x.inputFailed) 15 s)) ∧
      (x.desc.target ≠ 6 → x.desc.template = false → noCrew s x.desc = false →
        Effect (.taskReady task) s fun u => u = rescueEval (addReady w (slotPut t { x with st := .ready } s)))) ∧
    (x.st = .waiting → (x.count ≠ 0 ∨ shortNow s < x.desc.release) →
      Effect (.taskReady task) s fun u => u = rescueEval s) ∧
    (x.st = .armedTemplate → x.pending = 1 → canCreate s x.desc = true → x.desc.template = true → x.desc.target = 1 →
      x.desc.bindQ = 0xFFFF → x.desc.ordered = false →
      Effect (.pendingInstanceCreate task) s fun u => (slot u t).pending = 0 ∧
        ∃ w, u.shuttle.ready = s.shuttle.ready ++ [w] ∧ w.task = t ∧ w.order = s.shuttle.order)

/-- R160 to R162 and R175: a task that is neither a template, nor ordered, nor of class 0 completes: its slot becomes FREE
and one decrement is on its way to each successor, marked when the task failed. A core task completes after TASK_DONE and
its drain, every write of it having returned its response: the core goes on at the next word with TASK clear. -/
def Sys2Proof.Machine.Claims.TaskCompletes : Prop :=
  ∀ (s : State) (c : Fin 96) (r : Running) (w : Work) (ok : Bool) (crew : Nat),
    (let d := (slot s w.task).desc
     d.template = false → d.ordered = false → d.cls ≠ 0 → ownerOfTask s w.task = none →
      completeWork w ok crew s = { evalNext (slotPut w.task {} s) with notices := s.notices ++ d.succ.map fun t =>
        { task := t, count := 1, source := unitInit uSHUTTLE 0, failed := !ok } }) ∧
    (spFind s.shuttle.running c = some r → r.done = none → (core s c).writes = [] →
      Effect (.taskCompletion c) s fun u => u = s) ∧
    (spFind s.shuttle.running c = some r → (core s c).writes = [] → (core s c).regWait ≠ none →
      Effect (.taskCompletion c) s fun u => u = s) ∧
    (spFind s.shuttle.running c = some r → drained s c = true → ∀ st, r.done = some st → (core s c).run = .drain →
      Effect (.taskCompletion c) s fun u => u = rescueEval (completeWork r.work (st == 0) (c / 8)
        { corePut c (retire { core s c with run := .run, task := false }) s with
          shuttle := { s.shuttle with running := spDel s.shuttle.running c } }))

/-- Arming a task, its dependences, and the completion that releases its successors. -/
def Obligations.ArmingAndCompletion : Prop :=
  Claims.ArmingAndDependences ∧ Claims.TaskCompletes

/-- R178, R181, R183 and R186: work is dispatched only to a core that is usable and has nothing staged, to a free engine of
the pool, or to a DMA channel with nothing staged; outside NORMAL service the least in EDF order among the ready tasks the
place may take goes first. Nothing else is dispatched. -/
def Obligations.DispatchChoosesByDeadline : Prop :=
  ∀ (s : State) (c : Fin 96) (target : Fin 5) (ch : Fin 64) (w : Work), failUnrunnable s = s →
    let least := fun (may : Work → Bool) => w ∈ s.shuttle.ready ∧ may w = true ∧
      ∀ v ∈ s.shuttle.ready, may v = true → edfKey s w ≤ edfKey s v
    let mayCore := fun (v : Work) => (descOf s v).target == 0 && !lateCancel s v && bit (descOf s v).crewMask (c / 8)
    let mayPool := fun (v : Work) => (descOf s v).target == target.val && !lateCancel s v
    let mayDma := fun (v : Work) => (descOf s v).target == 5 && (descOf s v).arg % 64 == ch.val && !lateCancel s v
    (crewUsable s (c / 8) = true → (core s c).run ≠ .reset → spFind s.shuttle.staged c = none → chooseFor s c = some w →
      Effect (.taskDispatch (.core c)) s (fun u => u = rescueEval (stageOn c w s)) ∧ mayCore w = true ∧
      (s.shuttle.service ≠ .normal → spFind s.shuttle.running c = none ∧ least mayCore)) ∧
    (∀ v, spFind s.shuttle.staged c = some v → Effect (.taskDispatch (.core c)) s fun u => u = rescueEval s) ∧
    (∀ k, (poolKeys target).find? (engineFree s) = some k →
      leastBy (edfKey s) (s.shuttle.ready.filter mayPool) = some w →
      Effect (.taskDispatch (.pool target)) s (fun u => u = rescueEval (startEngine k w s)) ∧ least mayPool) ∧
    ((dmaCh s ch).staged = none → leastBy (edfKey s) (s.shuttle.ready.filter mayDma) = some w →
      Effect (.taskDispatch (.dma ch)) s (fun u => ∃ v, u = rescueEval v ∧ (dmaCh v ch).staged = some w ∧
        v.shuttle.ready = s.shuttle.ready.erase w) ∧ least mayDma)

/-- R184, R190, R191, R198, R202 and R209: the evaluation counts each running task past its declared cost once; a core task
past its watchdog limit is ended by a core reset; a CANCEL_LATE task whose deadline has come is cancelled; an output joins
its task's Beam sequence; a head sequence past its TIMEOUT is skipped; a stopping task set with nothing running stops. -/
def Obligations.ShuttleDeadlinesAndOrder : Prop :=
  ∀ (s : State) (c : Fin 96) (r : Running) (task index : BitVec 16) (inst : Fin 16384) (w : Work) (f : Fin 4096)
    (h : BitVec 32) (q : BeamSeq) (rest : List BeamSeq),
    let x := flow s f
    (s.shuttle.service = .startup ∨ s.shuttle.service = .test → s.shuttle.running = [] →
      Effect .rescueEvaluation s fun u => u = { s with shuttle := { s.shuttle with evalDue := false } }) ∧
    (s.shuttle.service = .test → s.shuttle.running = [(c.val, r)] → r.overrun = false →
      r.start + (descOf s r.work).cost ≤ s.now → Effect .rescueEvaluation s fun u =>
        u.shuttle.running = [(c.val, { r with overrun := true })] ∧
        cntGet u (cntKey uSHUTTLE 15 3) = min 0xFFFFFFFF (cntGet s (cntKey uSHUTTLE 15 3) + 1)) ∧
    (spFind s.shuttle.running c = some r →
      let limit := r.start + regF s uSHUTTLE 0 0x014 31 24 * (descOf s r.work).cost
      (s.now < limit → Effect (.taskWatchdog c) s fun u => u = s) ∧
      (limit ≤ s.now → r.done = none → Effect (.taskWatchdog c) s fun u => u = rescueEval (coreResetOp c true
        (raise 0x0604 uSHUTTLE 0 2 (leBytes 2 r.work.task ++ [BitVec.ofNat 8 (c / 8), BitVec.ofNat 8 (c % 8)] ++
          leBytes 4 (descOf s r.work).cost)) s)) ∧
      (r.done ≠ none → drained s c = true → Effect (.taskWatchdog c) s fun u => u = s)) ∧
    (s.shuttle.ready = [w] → w.task = task.toNat → w.inst = inst.val → lateCancel s w = true →
      Effect (.cancelLate task inst) s fun u => u = cancelWork w { s with shuttle := { s.shuttle with ready := [] } }) ∧
    (spFind s.shuttle.running c = some r → (descOf s r.work).ordered = true → (descOf s r.work).flow = f.val →
      x.seqs = q :: rest → x.skipped = [] → q.num = r.work.seq → (∀ p ∈ rest, p.num ≠ q.num) → q.outs.length < 64 →
      beamHeld s < 131072 → Effect (.shuttleBeamPut (coreInit c) h) s fun u =>
        u = flowPut f { x with seqs := { q with outs := q.outs ++ [h.toNat] } :: rest } s) ∧
    (x.seqs = [q] → x.timeoutUs ≠ 0 → q.taken + x.timeoutUs * 1000 < s.now → q.closed = none →
      beamEnding s f q.num = false → Effect (.beamTimeout f) s fun u =>
        flow u f = { x with seqs := [], head := (q.num + 1) % 65536, skipped := x.skipped ++ [q] } ∧
        (∀ g, g ≠ f.val → flow u g = flow s g)) ∧
    (∀ o, objFind s (objId 0x0B 0x01 index.toNat) = some o → o.st = some .stopping →
      ownerIdle s (objId 0x0B 0x01 index.toNat) = true → Effect (.taskSetStopped index) s fun u =>
        u = reachStopped (objId 0x0B 0x01 index.toNat) (dropOwner (objId 0x0B 0x01 index.toNat) s))

/-- R180, R193, R210, R262 and R263: service requests outside RECOVERY select NORMAL or TEST, and SERVICE_SET answers the
mode before it; a crew with a fault bit set fails: FAILED gains its bit, its cores are held in reset and its queues are
emptied, no other crew's core changes; CREW_FATAL is raised before that; CREW_RETIRE sets RETIRED and is accepted. -/
def Obligations.ServiceAndCrewFailure : Prop :=
  ∀ (s : State) (crew : Fin 12) (fault : Fin 3) (r : Request),
    let failed := fun (u : State) => bit (failedMask u) crew = true ∧ (∀ k < 8, core u (8 * crew + k) = {}) ∧
      (∀ j, j / 8 ≠ crew.val → core u j = core s j) ∧ (∀ e < 8, copQueue u crew e = [])
    (s.shuttle.service ≠ .recovery →
      Effect (.serviceReq 1) s (fun u => u = setService .normal s ∧ u.shuttle.service = .normal) ∧
      Effect (.serviceReq 2) s (fun u => u = setService .test s ∧ u.shuttle.service = .test)) ∧
    (s.shuttle.service = .recovery → ∀ v, Effect (.serviceReq v) s fun u => u = s) ∧
    (crewUsable s crew = true → regF s (0x10 + crew) 8 0x008 3 0 ≠ 0 → Effect (.crewFailure crew) s failed) ∧
    (crewUsable s crew = true → regF s (0x10 + crew) 8 0x008 3 0 = 0 → Effect (.crewFailure crew) s fun u => u = s) ∧
    (crewUsable s crew = true → Effect (.crewFatal crew fault) s fun u => failed u ∧
      bit (regF u (0x10 + crew) 8 0x008 3 0) fault = true ∧
      ∃ d es, u.evq = s.evq ++ { code := 0x1005, unit := 0x10 + crew, inst := 8, sev := 2, data := d } :: es) ∧
    (Addressed r uSHUTTLE 0 → r.params = [1, 0, 0, 0] → s.shuttle.service ≠ .recovery →
      Replies (.serviceSet r) s 0x0B40 r 0 (leBytes 4 (serviceCode s.shuttle.service)) (setService .normal s)) ∧
    (Addressed r uSHUTTLE 0 → r.params.length = 4 → (fld r.params 0 1 < 12 ∨ fld r.params 0 1 = 15) → fld r.params 1 3 = 0 →
      Replies (.shuttleStats r) s 0x0B42 r 0
        ((List.range 16).flatMap fun k => leBytes 4 (cntGet s (cntKey uSHUTTLE (fld r.params 0 1) k))) s) ∧
    (Addressed r uSHUTTLE 0 → r.params = [BitVec.ofNat 8 crew, 0, 0, 0] → crewWhole s crew = true → LongRoom s r →
      ((List.range 12).filter (crewWhole s)).length ≠ 1 →
      Accepts (.crewRetire r) s 0x0B41 r none false (regPutF (0x10 + crew) 8 0x008 3 3 1))

/-! ### The scalar unit of a crew core (06_crew_cores.md) -/

/-- R212: s0 reads as zero and a write to it is discarded; any other register reads what was last written to it, and
writing one register changes no other piece of the core. -/
def Sys2Proof.Machine.Claims.ScalarRegisterFile : Prop :=
  ∀ (x : Core) (r q : Fin 32) (v : Word),
    getS x 0 = 0 ∧ setS x 0 v = x ∧ (r ≠ 0 → getS (setS x r v) r = v) ∧
    (q ≠ r → getS (setS x r v) q = getS x q) ∧ { setS x r v with s := x.s } = x

/-- The instructions on two registers (Scalar instructions; R212): rd takes the result, the program counter the next
word, and nothing else of the machine changes. -/
def Sys2Proof.Machine.Claims.ScalarTwoRegisterResults : Prop :=
  ∀ (s : State) (c : Fin 96) (rd rs1 rs2 : Fin 32), Ready s c →
    let a := getS (core s c) rs1
    let b := getS (core s c) rs2
    Writes (.add c rd rs1 rs2) s c rd (a + b) ∧
    Writes (.sub c rd rs1 rs2) s c rd (a - b) ∧
    Writes (.andOp c rd rs1 rs2) s c rd (a &&& b) ∧
    Writes (.orOp c rd rs1 rs2) s c rd (a ||| b) ∧
    Writes (.xorOp c rd rs1 rs2) s c rd (a ^^^ b) ∧
    Writes (.sll c rd rs1 rs2) s c rd (a <<< (b.toNat % 64)) ∧
    Writes (.srl c rd rs1 rs2) s c rd (a >>> (b.toNat % 64)) ∧
    Writes (.sra c rd rs1 rs2) s c rd (a.sshiftRight (b.toNat % 64)) ∧
    Writes (.slt c rd rs1 rs2) s c rd (if a.toInt < b.toInt then 1 else 0) ∧
    Writes (.sltu c rd rs1 rs2) s c rd (if a.toNat < b.toNat then 1 else 0) ∧
    Writes (.mul c rd rs1 rs2) s c rd (a * b) ∧
    Writes (.mulh c rd rs1 rs2) s c rd (BitVec.ofInt 64 (a.toInt * b.toInt / 2 ^ 64)) ∧
    Writes (.mulhu c rd rs1 rs2) s c rd (BitVec.ofNat 64 (a.toNat * b.toNat / 2 ^ 64))

/-- The instructions with an immediate, and CLZ and POPC (Scalar instructions; R212). CLZ counts the zeros above the
highest one, 64 for zero. -/
def Sys2Proof.Machine.Claims.ScalarImmediateResults : Prop :=
  ∀ (s : State) (c : Fin 96) (rd rs1 : Fin 32) (imm : BitVec 16) (n : BitVec 6), Ready s c →
    let a := getS (core s c) rs1
    let sx : Word := imm.signExtend 64
    let zx : Word := imm.setWidth 64
    Writes (.addi c rd rs1 imm) s c rd (a + sx) ∧
    Writes (.andi c rd rs1 imm) s c rd (a &&& zx) ∧
    Writes (.ori c rd rs1 imm) s c rd (a ||| zx) ∧
    Writes (.xori c rd rs1 imm) s c rd (a ^^^ zx) ∧
    Writes (.slti c rd rs1 imm) s c rd (if a.toInt < sx.toInt then 1 else 0) ∧
    Writes (.sltiu c rd rs1 imm) s c rd (if a.toNat < sx.toNat then 1 else 0) ∧
    Writes (.slli c rd rs1 n) s c rd (a <<< n.toNat) ∧
    Writes (.srli c rd rs1 n) s c rd (a >>> n.toNat) ∧
    Writes (.srai c rd rs1 n) s c rd (a.sshiftRight n.toNat) ∧
    Writes (.lui c rd imm) s c rd (BitVec.ofInt 64 (imm.toInt * 2 ^ 16)) ∧
    Writes (.shori c rd rs1 imm) s c rd ((a <<< 16) ||| zx) ∧
    (∃ k ≤ 64, Writes (.clz c rd rs1) s c rd (BitVec.ofNat 64 k) ∧ (∀ j < k, a.getLsbD (63 - j) = false) ∧
      (k < 64 → a.getLsbD (63 - k) = true)) ∧
    Writes (.popc c rd rs1) s c rd (BitVec.ofNat 64 ((List.range 64).countP fun k => a.getLsbD k))

/-- The scalar instructions write their result to rd and change nothing else. -/
def Obligations.ScalarResults : Prop :=
  Claims.ScalarRegisterFile ∧ Claims.ScalarTwoRegisterResults ∧ Claims.ScalarImmediateResults

/-- R216: division by zero raises no exception: DIV and DIVU return all ones, REM and REMU return rs1; DIV of −2^63 by −1
returns −2^63 and REM of those operands 0. Any other division rounds toward zero, and REM has the sign of rs1. -/
def Sys2Proof.Machine.Claims.ScalarDivision : Prop :=
  ∀ (s : State) (c : Fin 96) (rd rs1 rs2 : Fin 32), Ready s c →
    let a := getS (core s c) rs1
    let b := getS (core s c) rs2
    (b = 0 → Writes (.div c rd rs1 rs2) s c rd (BitVec.allOnes 64) ∧ Writes (.divu c rd rs1 rs2) s c rd (BitVec.allOnes 64) ∧
      Writes (.rem c rd rs1 rs2) s c rd a ∧ Writes (.remu c rd rs1 rs2) s c rd a) ∧
    (a = BitVec.ofInt 64 (-(2 ^ 63)) ∧ b = BitVec.ofInt 64 (-1) →
      Writes (.div c rd rs1 rs2) s c rd (BitVec.ofInt 64 (-(2 ^ 63))) ∧ Writes (.rem c rd rs1 rs2) s c rd 0) ∧
    (b ≠ 0 → Writes (.div c rd rs1 rs2) s c rd (BitVec.ofInt 64 (a.toInt.tdiv b.toInt)) ∧
      Writes (.divu c rd rs1 rs2) s c rd (BitVec.ofNat 64 (a.toNat / b.toNat)) ∧
      Writes (.rem c rd rs1 rs2) s c rd (BitVec.ofInt 64 (a.toInt.tmod b.toInt)) ∧
      Writes (.remu c rd rs1 rs2) s c rd (BitVec.ofNat 64 (a.toNat % b.toNat)))

/-- R219: a JALR target with bits [1:0] or [63:48] set raises FETCH_ERROR with CORE_EADDR the target and CORE_EPC the
JALR, and rd is not written. -/
def Sys2Proof.Machine.Claims.JalrBadTarget : Prop :=
  ∀ (s : State) (c : Fin 96) (rd rs1 : Fin 32) (imm : BitVec 16), Ready s c → (core s c).exc = false →
    let t := getS (core s c) rs1 + imm.signExtend 64
    (t.toNat % 4 ≠ 0 ∨ 2 ^ 48 ≤ t.toNat) → Traps (.jalr c rd rs1 imm) s c 0x02 t.toNat

/-- Division by zero and of the most negative number; a bad JALR target. -/
def Obligations.ScalarCornerCases : Prop :=
  Claims.ScalarDivision ∧ Claims.JalrBadTarget

/-- The branches and jumps (Loads, stores and control transfer): a taken transfer goes on at pc + 4 × the immediate
(JALR at rs1 + the immediate), an untaken branch at the next word; JAL and JALR write pc + 4. Where a REG-class CPISS stands
first on the path a branch does not take, its command may have been issued and squashed (R290), which is left open: then the
core's count of commands and the coprocessors' queues may differ too. -/
def Obligations.BranchesAndJumps : Prop :=
  ∀ (s : State) (c : Fin 96) (rd rs1 rs2 : Fin 32) (imm : BitVec 16) (wide : BitVec 26), Ready s c →
    let x := begun (core s c)
    let a := getS x rs1
    let b := getS x rs2
    let near := x.pc + imm.signExtend 48 * 4
    let far := x.pc + wide.signExtend 48 * 4
    let ret : Word := (x.pc + 4).setWidth 64
    let taken := fun (p : Bool) => if p then jumpTo x near else retire x
    let branch := fun (i : Instr) (p : Bool) =>
      let spec := specIssue (beginInstr c s) c (if p then x.pc + 4 else near)
      (spec = none → Leaves i s c (taken p)) ∧
      (∀ e d, spec = some (e, d) → Effect i s fun u => (core u c = taken p ∨ core u c = { taken p with cpGen := d.gen }) ∧
        (∀ j, j ≠ c.val → core u j = core s j) ∧ { u with cores := s.cores, cops := s.cops, free := s.free } = s)
    branch (.beq c rs1 rs2 imm) (a == b) ∧
    branch (.bne c rs1 rs2 imm) (a != b) ∧
    branch (.blt c rs1 rs2 imm) (decide (a.toInt < b.toInt)) ∧
    branch (.bge c rs1 rs2 imm) (decide (b.toInt ≤ a.toInt)) ∧
    branch (.bltu c rs1 rs2 imm) (decide (a.toNat < b.toNat)) ∧
    branch (.bgeu c rs1 rs2 imm) (decide (b.toNat ≤ a.toNat)) ∧
    Leaves (.jmp c wide) s c (jumpTo x far) ∧
    Leaves (.jal c wide) s c (jumpTo (setS x 31 ret) far) ∧
    (let t := a + imm.signExtend 64
     t.toNat % 4 = 0 → t.toNat < 2 ^ 48 → Leaves (.jalr c rd rs1 imm) s c (jumpTo (setS x rd ret) (t.setWidth 48)))

/-- The accumulators (R220 to R222): MAC and MSU wrap modulo 2^56 and set AOV when the exact result lies outside the
range; ACCX and ACCXS shift right rounding toward minus infinity, ACCXS then clips to 24 bits and sets SAT. -/
def Sys2Proof.Machine.Claims.AccumulatorResults : Prop :=
  ∀ (s : State) (c : Fin 96) (rd rs1 rs2 : Fin 32) (acc : Fin 4) (n : BitVec 6), Ready s c →
    let x := begun (core s c)
    let p := ((getS x rs1).setWidth 24).toInt * ((getS x rs2).setWidth 24).toInt
    let put := fun (v : Int) => { x with a := x.a.set acc (BitVec.ofInt 56 v) }
    let outside := fun (v : Int) => decide (v < -(2 ^ 55)) || decide (2 ^ 55 - 1 < v)
    let moved := x.a[acc].toInt / 2 ^ n.toNat
    let clipped := max (-(2 ^ 23)) (min (2 ^ 23 - 1) moved)
    Leaves (.mac c acc rs1 rs2) s c
      (retire { put (x.a[acc].toInt + p) with aov := x.aov || outside (x.a[acc].toInt + p) }) ∧
    Leaves (.msu c acc rs1 rs2) s c
      (retire { put (x.a[acc].toInt - p) with aov := x.aov || outside (x.a[acc].toInt - p) }) ∧
    Leaves (.mula c acc rs1 rs2) s c (retire (put p)) ∧
    Leaves (.accld c acc rs1) s c (retire { x with a := x.a.set acc ((getS x rs1).setWidth 56) }) ∧
    (n.toNat < 56 → Writes (.accx c rd acc n) s c rd (BitVec.ofInt 64 moved)) ∧
    (n.toNat < 56 → Leaves (.accxs c rd acc n) s c
      (retire { setS x rd (BitVec.ofInt 64 clipped) with sat := x.sat || decide (clipped ≠ moved) }))

/-- The searches (R223, R224): when the strict comparison of rs1 with rd holds, the pair takes rs1 and rs2; on equal
values it keeps what it holds. -/
def Sys2Proof.Machine.Claims.SearchResults : Prop :=
  ∀ (s : State) (c : Fin 96) (rd rs1 rs2 : Fin 32), Ready s c → rd.val % 2 = 0 → rd ≠ 0 →
    let x := begun (core s c)
    let a := getS x rs1
    let b := getS x rd
    let pair := fun (p : Bool) => if p then retire (setS (setS x rd a) (rd + 1) (getS x rs2)) else retire x
    Leaves (.maxi c rd rs1 rs2) s c (pair (decide (b.toInt < a.toInt))) ∧
    Leaves (.mini c rd rs1 rs2) s c (pair (decide (a.toInt < b.toInt))) ∧
    Leaves (.maxiu c rd rs1 rs2) s c (pair (decide (b.toNat < a.toNat))) ∧
    Leaves (.miniu c rd rs1 rs2) s c (pair (decide (a.toNat < b.toNat)))

/-- R222 and R223: a shift of 56 to 63, and an odd rd or rd = 0 of a search, raise ILLEGAL_INSTR. -/
def Sys2Proof.Machine.Claims.ScalarIllegalOperands : Prop :=
  ∀ (s : State) (c : Fin 96) (rd rs1 rs2 : Fin 32) (acc : Fin 4) (n : BitVec 6), Ready s c → (core s c).exc = false →
    (56 ≤ n.toNat → Traps (.accx c rd acc n) s c 0x01 0 ∧ Traps (.accxs c rd acc n) s c 0x01 0) ∧
    (rd.val % 2 = 1 ∨ rd = 0 → Traps (.maxi c rd rs1 rs2) s c 0x01 0 ∧ Traps (.mini c rd rs1 rs2) s c 0x01 0 ∧
      Traps (.maxiu c rd rs1 rs2) s c 0x01 0 ∧ Traps (.miniu c rd rs1 rs2) s c 0x01 0)

/-- The accumulators and the searches, with the operands they refuse. -/
def Obligations.AccumulatorsAndSearches : Prop :=
  Claims.AccumulatorResults ∧ Claims.SearchResults ∧ Claims.ScalarIllegalOperands

/-! ### Memory access and system instructions of a crew core -/

/-- A load that hits a good line of the core's data cache (R218, R233, R234, R236): rd takes the bytes of the line,
sign- or zero-extended. A load to s0 discards the value; nothing else changes. -/
def Sys2Proof.Machine.Claims.CachedLoads : Prop :=
  ∀ (s : State) (c : Fin 96) (rd rs1 : Fin 32) (imm : BitVec 16) (l : Line), Ready s c →
    let a := (getS (core s c) rs1 + imm.signExtend 64).toNat
    cacheable (core s c) c a = true → (core s c).dcache.find? (·.addr == a / 64 * 64) = some l →
    l.bad = false → l.ce = false →
    let v := fun (n : Nat) => leNat (sub l.data (a % 64) n)
    let loads := fun (i : Instr) (n : Nat) (w : Word) => a % n = 0 → Writes i s c rd w
    loads (.lb c rd rs1 imm) 1 (BitVec.ofInt 64 (toS 8 (v 1))) ∧ loads (.lbu c rd rs1 imm) 1 (BitVec.ofNat 64 (v 1)) ∧
    loads (.lh c rd rs1 imm) 2 (BitVec.ofInt 64 (toS 16 (v 2))) ∧ loads (.lhu c rd rs1 imm) 2 (BitVec.ofNat 64 (v 2)) ∧
    loads (.lw c rd rs1 imm) 4 (BitVec.ofInt 64 (toS 32 (v 4))) ∧ loads (.lwu c rd rs1 imm) 4 (BitVec.ofNat 64 (v 4)) ∧
    loads (.ld c rd rs1 imm) 8 (BitVec.ofNat 64 (v 8))

/-- A store that hits a dirty line of the core's data cache (R233, R236), with no hand-over waiting (R304): the low bytes
of rs2 replace those at the address in the line, and nothing else changes: no byte of memory, no other line. -/
def Sys2Proof.Machine.Claims.CachedStores : Prop :=
  ∀ (s : State) (c : Fin 96) (rs2 rs1 : Fin 32) (imm : BitVec 16), Ready s c →
    let x := begun (core s c)
    let a := (getS x rs1 + imm.signExtend 64).toNat
    cacheable x c a = true → dirtyAt s c a = true → storeHeld x = false →
    let stored := fun (n : Nat) (l : Line) =>
      if l.addr = a / 64 * 64 then
        { l with data := sub l.data 0 (a % 64) ++ leBytes n (getS x rs2).toNat ++ l.data.drop (a % 64 + n), dirty := true }
      else l
    let stores := fun (i : Instr) (n : Nat) =>
      a % n = 0 → Leaves i s c (retire { x with dcache := x.dcache.map (stored n) })
    stores (.sb c rs2 rs1 imm) 1 ∧ stores (.sh c rs2 rs1 imm) 2 ∧ stores (.sw c rs2 rs1 imm) 4 ∧ stores (.sd c rs2 rs1 imm) 8

/-- Loads that hit and stores that hit a dirty line. -/
def Obligations.CachedLoadsAndStores : Prop :=
  Claims.CachedLoads ∧ Claims.CachedStores

/-- R217: a load or store whose address is not a multiple of its width raises MISALIGNED; one whose address lies in no
region of the address map raises LOAD_BUS_ERROR or STORE_ADDR. Neither reaches memory: only the core's exception
registers, IE, PIE, EXC_ACTIVE and program counter change. -/
def Sys2Proof.Machine.Claims.LoadAndStoreAddressTraps : Prop :=
  ∀ (s : State) (c : Fin 96) (rd rs1 : Fin 32) (imm : BitVec 16), Ready s c → (core s c).exc = false →
    let a := (getS (core s c) rs1 + imm.signExtend 64).toNat
    let load := fun (i : Instr) (n : Nat) =>
      (a % n ≠ 0 → Traps i s c 0x03 a) ∧
      (a % n = 0 → regionOf a = .nothing → Traps i s c 0x04 a)
    let store := fun (i : Instr) (n : Nat) =>
      (a % n ≠ 0 → Traps i s c 0x03 a) ∧ (a % n = 0 → regionOf a = .nothing → Traps i s c 0x06 a)
    load (.lb c rd rs1 imm) 1 ∧ load (.lbu c rd rs1 imm) 1 ∧ load (.lh c rd rs1 imm) 2 ∧ load (.lhu c rd rs1 imm) 2 ∧
    load (.lw c rd rs1 imm) 4 ∧ load (.lwu c rd rs1 imm) 4 ∧ load (.ld c rd rs1 imm) 8 ∧
    store (.sb c rd rs1 imm) 1 ∧ store (.sh c rd rs1 imm) 2 ∧ store (.sw c rd rs1 imm) 4 ∧ store (.sd c rd rs1 imm) 8

/-- R259: an uncached store by a core narrower than 32 bytes to SDRAM, scratchpad or Spool cell memory raises
NARROW_STORE and does not reach memory. -/
def Sys2Proof.Machine.Claims.NarrowStoresTrap : Prop :=
  ∀ (s : State) (c : Fin 96) (rs2 rs1 : Fin 32) (imm : BitVec 16), Ready s c → (core s c).exc = false →
    let a := (getS (core s c) rs1 + imm.signExtend 64).toNat
    cacheable (core s c) c a = false → (regionOf a = .sdram ∨ (∃ crew off, regionOf a = .spm crew off) ∨ regionOf a = .cell) →
    (Traps (.sb c rs2 rs1 imm) s c 0x05 a) ∧ (a % 2 = 0 → Traps (.sh c rs2 rs1 imm) s c 0x05 a) ∧
    (a % 4 = 0 → Traps (.sw c rs2 rs1 imm) s c 0x05 a) ∧ (a % 8 = 0 → Traps (.sd c rs2 rs1 imm) s c 0x05 a)

/-- Misaligned, unmapped and narrow accesses trap and do not reach memory. -/
def Obligations.AddressTraps : Prop :=
  Claims.LoadAndStoreAddressTraps ∧ Claims.NarrowStoresTrap

/-- R229: ECALL and EBREAK enter the handler: CORE_EPC takes their own address, CORE_ECAUSE the code, CORE_EADDR 0, PIE
the old IE, IE 0, EXC_ACTIVE 1, and the core goes on at CORE_EVEC. ERET takes IE from PIE, clears EXC_ACTIVE and goes on
at CORE_EPC, a multiple of 4 (R213). -/
def Sys2Proof.Machine.Claims.ExceptionEntryAndReturn : Prop :=
  ∀ (s : State) (c : Fin 96), Ready s c →
    let x := core s c
    let entered := fun (code : Nat) =>
      { x with epc := x.pc.setWidth 64, ecause := BitVec.ofNat 64 code, eaddr := 0, pie := x.ie, ie := false, exc := true
               pc := x.evec.setWidth 48 }
    let y := begun x
    (x.exc = false → Leaves (.ecall c) s c (entered 0x07) ∧ Leaves (.ebreak c) s c (entered 0x08)) ∧
    Leaves (.eret c) s c
      { y with ie := y.pie, exc := false, lastPc := y.pc, pc := BitVec.ofNat 48 (y.epc.toNat / 4 * 4) }

/-- R229, R230 and R232: an interrupt is taken by a core whose IE is 1 and EXC_ACTIVE 0: the lowest pending enabled one,
with CORE_ECAUSE 2^63 plus its bit; CORE_EADDR is left open. A core that may not take one is unchanged. A store's bus error
sets STORE_ERROR with the address, or bit 63 of the address register when one is already held. -/
def Sys2Proof.Machine.Claims.InterruptsOfACore : Prop :=
  ∀ (s : State) (c : Fin 96) (addr : BitVec 48), crewUsable s (c / 8) = true → awake s (some (c / 8)) = true →
    let x := core s c
    let ready := irqReady s x
    ((x.run = .run ∨ x.run = .taskWait) → x.ie = true → x.exc = false → ready ≠ 0 →
      Effect (.interruptEntry c) s fun u => ∃ k v, bit ready k = true ∧ (∀ j < k, bit ready j = false) ∧
        core u c = enterHandler x x.pc (BitVec.ofNat 64 (2 ^ 63 + k)) v ∧
        (∀ j, j ≠ c.val → core u j = core s j) ∧ { u with cores := s.cores, free := s.free } = s) ∧
    (x.ie = false ∨ x.exc = true ∨ ready = 0 → Effect (.interruptEntry c) s fun u => u = s) ∧
    (x.run ≠ .reset → Effect (.storeError c addr) s fun u =>
      (core u c).storeError = true ∧
      (core u c).irqAddr = (if x.storeError then x.irqAddr ||| (1 <<< 63) else addr.setWidth 64) ∧
      (core u c).s = x.s ∧ (∀ j, j ≠ c.val → core u j = core s j) ∧ { u with cores := s.cores } = s)

/-- The handler is entered by ECALL, EBREAK and interrupts, and left by ERET. -/
def Obligations.ExceptionsAndInterrupts : Prop :=
  Claims.ExceptionEntryAndReturn ∧ Claims.InterruptsOfACore

/-- The instructions that only let the core go on: the fences, once every earlier write of the core has returned its response,
and the instruction-cache instructions (R237, R239); and WFI, which goes on where an enabled interrupt is pending and else
waits for one (System instructions). A fence waits while an ownership write of the core has not returned its response. -/
def Sys2Proof.Machine.Claims.FencesAndWaits : Prop :=
  ∀ (s : State) (c : Fin 96) (rs1 : Fin 32), Ready s c →
    let x := begun (core s c)
    (drained s c = true → Leaves (.fence c) s c (retire x) ∧ Leaves (.fenceW c) s c (retire x)) ∧
    (x.writes = [] → x.regWait ≠ none → Leaves (.fence c) s c (core s c) ∧ Leaves (.fenceW c) s c (core s c)) ∧
    Leaves (.iinval c rs1) s c (retire x) ∧
    Leaves (.iinvalAll c) s c (retire x) ∧
    Leaves (.wfi c) s c (if irqReady s x = 0 then { x with run := .wfi } else retire x)

/-- The cache-maintenance instructions on a cache whose lines are clean (R239): CINVAL and CFLUSH drop the line holding
rs1, the range forms every line overlapping rs1 to rs1 + rs2 − 1, CFLUSH_ALL every line; the CCLEAN forms drop none. Memory
is unchanged, there being nothing to write back. -/
def Sys2Proof.Machine.Claims.CacheMaintenanceOfCleanLines : Prop :=
  ∀ (s : State) (c : Fin 96) (rs1 rs2 : Fin 32), Ready s c → (∀ l ∈ (core s c).dcache, l.dirty = false) →
    let x := begun (core s c)
    let a := (getS x rs1).toNat
    let keeps := fun (p : Line → Bool) => retire { x with dcache := x.dcache.filter p }
    let off := fun (l : Line) => l.addr != a / 64 * 64
    let out := fun (l : Line) => !(a < l.addr + 64 && l.addr < a + (getS x rs2).toNat && getS x rs2 != 0)
    Leaves (.cclean c rs1) s c (retire x) ∧ Leaves (.ccleanR c rs1 rs2) s c (retire x) ∧
    Leaves (.ccleanAll c) s c (retire x) ∧ Leaves (.cinval c rs1) s c (keeps off) ∧
    Leaves (.cflush c rs1) s c (keeps off) ∧ Leaves (.cinvalR c rs1 rs2) s c (keeps out) ∧
    Leaves (.cflushR c rs1 rs2) s c (keeps out) ∧ Leaves (.cflushAll c) s c (keeps fun _ => false)

/-- The CSR instructions (R214) on a CSR that is listed: rd takes its old value, and CSRW, CSRS and CSRC write the CSR
where they change no read-only field. One that names an unlisted CSR, or would change a read-only field, raises
ILLEGAL_INSTR. -/
def Sys2Proof.Machine.Claims.CsrInstructions : Prop :=
  ∀ (s : State) (c : Fin 96) (rd rs1 : Fin 32) (csr : BitVec 12), Ready s c →
    let x := begun (core s c)
    let n := csr.toNat
    let writes := fun (i : Instr) (f : Word → Word) =>
      (∀ old, csrGet s c x n = some old → csrRoWritten n old (f old) = false →
        Leaves i s c (retire (setS (csrPut n (f old) x) rd old))) ∧
      ((core s c).exc = false →
        (csrGet s c x n = none ∨ ∃ old, csrGet s c x n = some old ∧ csrRoWritten n old (f old) = true) → Traps i s c 0x01 0)
    (∀ old, csrGet s c x n = some old → Writes (.csrr c rd csr) s c rd old) ∧
    ((core s c).exc = false → csrGet s c x n = none → Traps (.csrr c rd csr) s c 0x01 0) ∧
    writes (.csrw c rd rs1 csr) (fun _ => getS x rs1) ∧
    writes (.csrs c rd rs1 csr) (fun old => old ||| getS x rs1) ∧
    writes (.csrc c rd rs1 csr) (fun old => old &&& ~~~getS x rs1)

/-- Fences, waits, cache maintenance of clean lines and the CSR instructions. -/
def Obligations.FencesCachesAndCsrs : Prop :=
  Claims.FencesAndWaits ∧ Claims.CacheMaintenanceOfCleanLines ∧ Claims.CsrInstructions

/-! ### Tasks on a core and the events of a core (05_shuttle.md, 06_crew_cores.md) -/

/-- TASK_WAIT, TASK_DONE and DOORBELL (R172, R173, R175, R225, R230). A core that holds no task takes the staged task with
its parameters in s1 to s6, or blocks in TASK_WAIT while none is staged or an interrupt is to be taken (R226); a core that holds one raises TASK_STATE. TASK_DONE, its cache holding
nothing to clean, leaves the core draining with the status kept; without a task it raises TASK_STATE. DOORBELL sets the
DOORBELL bit of the named cores of its own crew and of no other core. -/
def Obligations.TaskInstructions : Prop :=
  ∀ (s : State) (c : Fin 96) (rs1 : Fin 32), Ready s c →
    let x := begun (core s c)
    (x.task = false → irqTakes s x = false → ∀ w, spFind s.shuttle.staged c = some w →
      Effect (.taskWait c) s fun u =>
        let y := core u c
        let d := (slot s w.task).desc
        getS y 1 = BitVec.ofNat 64 (w.task + w.inst * 0x10000) ∧ getS y 2 = BitVec.ofNat 64 d.arg ∧
        getS y 3 = BitVec.ofNat 64 (w.handle.getD noHandle) ∧ getS y 4 = BitVec.ofNat 64 d.entry ∧
        getS y 5 = BitVec.ofNat 64 w.deadline ∧ (getS y 6).getLsbD 0 = w.inputFailed ∧ (getS y 6).getLsbD 1 = w.replayed ∧
        (∀ r : Fin 32, 6 < r.val → getS y r = getS x r) ∧ y.task = true ∧ y.pc = x.pc + 4 ∧
        spFind u.shuttle.staged c = none ∧ spFind u.shuttle.running c = some { work := w, start := s.now } ∧
        (d.template = false → (slot u w.task).st = .running) ∧ { u with cores := s.cores, shuttle := s.shuttle } = s) ∧
    (x.task = false → spFind s.shuttle.staged c = none ∨ irqTakes s x = true →
      Leaves (.taskWait c) s c { x with run := .taskWait }) ∧
    (x.task = true → (core s c).exc = false → Traps (.taskWait c) s c 0x09 0) ∧
    (x.task = true → x.dcache = [] → ∀ r, spFind s.shuttle.running c = some r →
      Effect (.taskDone c rs1) s fun u => core u c = { x with run := .drain } ∧
        spFind u.shuttle.running c = some { r with done := some (if getS x rs1 = 0 then 0 else 1) } ∧
        { u with cores := s.cores, shuttle := s.shuttle } = s) ∧
    (x.task = false → (core s c).exc = false → Traps (.taskDone c rs1) s c 0x09 0) ∧
    (awake s (some (c / 8)) = true → Effect (.doorbell c rs1) s fun u =>
      (∀ k < 8, (core u (c / 8 * 8 + k)).doorbell = ((core s (c / 8 * 8 + k)).doorbell || (getS x rs1).getLsbD k)) ∧
      (∀ j, j / 8 ≠ c.val / 8 → core u j = core s j) ∧ (core u c).s = x.s ∧ { u with cores := s.cores } = s)

/-- R231 and R261: CORE_RESET, and an exception inside the handler (a double fault), restart the core at CREW_BOOT_VEC with
every register at its reset value; a double fault first raises CORE_DOUBLE_FAULT with the cause and CORE_EPC. Stated for a
core with no cached line, no write-back that waits, no staged and no held task. -/
def Sys2Proof.Machine.Claims.CoreResets : Prop :=
  ∀ (s : State) (c : Fin 96), crewUsable s (c / 8) = true → awake s (some (c / 8)) = true → (core s c).dcache = [] →
    (core s c).writes = [] → spFind s.shuttle.staged c = none → spFind s.shuttle.running c = none →
    let restarted := fun (u : State) =>
      core u c = { run := .run, pc := bootVec s (c / 8), since := s.now } ∧ (∀ j, j ≠ c.val → core u j = core s j) ∧
      (∀ e < 5, copQueue u (c / 8) e = (copQueue s (c / 8) e).filter fun d => d.core != c.val) ∧
      { u with cores := s.cores, cops := s.cops, evq := s.evq } = s
    ((core s c).run ≠ .reset → Effect (.coreReset c) s fun u => restarted u ∧ u.evq = s.evq) ∧
    ((core s c).run = .reset → Effect (.coreReset c) s fun u => u = s) ∧
    (Ready s c → (core s c).exc = true → Effect (.ecall c) s fun u => restarted u ∧
      u.evq = s.evq ++ [{ code := 0x1001, unit := 0x10 + c / 8, inst := c % 8, sev := 2
                          data := [7] ++ zeros 7 ++ leBytes 8 (core s c).epc.toNat }])

/-- The crew control's commands (R230, R244, R245, R619): a ring of CREW_DOORBELL sets the named cores' bits; a write
of CREW_BANK_OWNER takes effect at once, or pends while the old owner's accesses are under way, until BANK_OWNER_COMMIT,
which also lets the cores' writes of it go on; while it pends a core that wrote it has not got its response; a retention
acknowledgement by the host clears POISONED of the named banks. The commit is stated for a crew with no write-back that
waits. -/
def Sys2Proof.Machine.Claims.CrewControlCommands : Prop :=
  ∀ (s : State) (crew : Fin 12) (bank : Fin 32) (ring code : BitVec 8) (banks : BitVec 32),
    crewUsable s crew = true → awake s (some crew) = true → (dom s crew).fault = false →
    let u0 := 0x10 + crew.val
    let owner := fun (u : State) => regF u u0 8 (0x100 + 4 * bank) 7 0
    let key := 32 * crew.val + bank
    let released := fun (u : State) => ∀ j, core u j =
      { core s j with regWait := if (core s j).regWait = some key then none else (core s j).regWait }
    Effect (.crewDoorbell hostInit crew ring) s (fun u =>
      (∀ k < 8, (core u (8 * crew + k)).doorbell = ((core s (8 * crew + k)).doorbell || ring.getLsbD k)) ∧
      (∀ j, j / 8 ≠ crew.val → core u j = core s j) ∧ { u with cores := s.cores } = s) ∧
    (ownerOk crew code.toNat = true → spFind s.bankPend key = none →
      Effect (.crewBankOwner hostInit crew bank code false) s (fun u =>
        owner u = code.toNat ∧ spFind u.bankPend key = none ∧ released u ∧
        { u with regs := s.regs, bankPend := s.bankPend, cores := s.cores } = s) ∧
      (∀ c : Fin 96, c / 8 = crew.val → Effect (.crewBankOwner (coreInit c) crew bank code true) s fun u =>
        owner u = owner s ∧ spFind u.bankPend key = some code.toNat ∧ core u c = { core s c with regWait := some key } ∧
        (∀ j, j ≠ c.val → core u j = core s j) ∧ { u with cores := s.cores, bankPend := s.bankPend } = s) ∧
      Effect (.crewBankOwner hostInit crew bank code true) s (fun u =>
        owner u = owner s ∧ spFind u.bankPend key = some code.toNat ∧ { u with bankPend := s.bankPend } = s)) ∧
    (∀ p < 256, spFind s.bankPend key = some p → (∀ k < 8, (core s (8 * crew + k)).writes = []) →
      Effect (.bankOwnerCommit crew bank) s fun u =>
        owner u = p ∧ spFind u.bankPend key = none ∧ released u ∧
        { u with regs := s.regs, bankPend := s.bankPend, cores := s.cores } = s) ∧
    Effect (.crewRetentionAck hostInit crew banks) s (fun u =>
      regGet u u0 8 0x024 = (regGet s u0 8 0x024 &&& ~~~banks) ∧ { u with regs := s.regs } = s)

/-- Core resets and double faults; doorbells, bank owners and retention of a crew. -/
def Obligations.CoreResetsAndCrewControl : Prop :=
  Claims.CoreResets ∧ Claims.CrewControlCommands

/-! ### The vector unit (07_vector.md) -/

/-- R271 on integers: a shift that discards bits rounds toward minus infinity under RDN, toward zero under RTZ, toward plus
infinity under RUP, and to the odd neighbour under ROD; an exact result stays. -/
def Sys2Proof.Machine.Claims.RoundingOfDiscardedBits : Prop :=
  ∀ (v : Int) (k : Nat),
    rndShift .rdn v k = Int.fdiv v (2 ^ k) ∧ rndShift .rtz v k = Int.tdiv v (2 ^ k) ∧
    rndShift .rup v k = -Int.fdiv (-v) (2 ^ k) ∧
    (v % 2 ^ k = 0 → ∀ rm, rndShift rm v k * 2 ^ k = v) ∧
    (v % 2 ^ k ≠ 0 → rndShift .rod v k % 2 = 1 ∧
      (rndShift .rod v k = Int.fdiv v (2 ^ k) ∨ rndShift .rod v k = Int.fdiv v (2 ^ k) + 1))

/-- The integer instructions that wrap (Arithmetic and compare; R265 to R269, R271): each active element takes its result,
masked-off and tail elements follow MASK_ZERO and TAIL_ZERO, and no condition is set. Complex integers work part by part. -/
def Sys2Proof.Machine.Claims.VectorWrappingResults : Prop :=
  ∀ (s : State) (c : Fin 96) (f : VArith), Ready s c →
    let x := begun (core s c)
    let h := shapeOf x
    let w := partW h
    let old := elemAt (getGroup x f.vd h.grp) h.ew
    let a := elemAt (getGroup x f.vs1 h.grp) h.ew
    let a2 := elemAt (getGroup x f.vs1 (2 * h.grp)) (2 * h.ew)
    let b := secondOp x h f.b false
    let n := secondOp x h f.b true
    let parts := fun (v : Nat) (op : Nat → Nat → Nat) (p q : Nat) =>
      if h.et = 4 ∨ h.et = 5 then op (p % 2 ^ v) (q % 2 ^ w) + 2 ^ w * op (p / 2 ^ v % 2 ^ v) (q / 2 ^ w % 2 ^ w) else op p q
    let signed := toS h.ew
    let gives := fun (i : Instr) (e : Nat → Nat) =>
      WritesGroup i s c f.vd h.grp h.ew (loopElem h (activeAt x f.men f.msel) old e) 0
    f.vd.val % h.grp = 0 → secondOk f.b h.grp = true →
    (f.vs1.val % h.grp = 0 →
      (h.et < 6 → gives (.vadd c f) fun k => parts w (fun p q => (p + q) % 2 ^ w) (a k) (b k)) ∧
      (h.et < 6 → gives (.vsub c f) fun k => parts w (fun p q => (p + 2 ^ w - q) % 2 ^ w) (a k) (b k)) ∧
      gives (.vand c f) (fun k => a k &&& b k) ∧ gives (.vor c f) (fun k => a k ||| b k) ∧
      gives (.vxor c f) (fun k => a k ^^^ b k) ∧
      (h.et < 4 → gives (.vmin c f) fun k => if signed (b k) < signed (a k) then b k else a k) ∧
      (h.et < 4 → gives (.vmax c f) fun k => if signed (a k) < signed (b k) then b k else a k) ∧
      (h.et < 4 → gives (.vminu c f) fun k => min (a k) (b k)) ∧ (h.et < 4 → gives (.vmaxu c f) fun k => max (a k) (b k)) ∧
      (h.et < 4 → gives (.vsll c f) fun k => a k * 2 ^ (n k % h.ew) % 2 ^ h.ew) ∧
      (h.et < 4 → gives (.vsrl c f) fun k => a k / 2 ^ (n k % h.ew)) ∧
      (h.et < 4 → gives (.vsra c f) fun k => ofS h.ew (Int.fdiv (signed (a k)) (2 ^ (n k % h.ew)))) ∧
      (h.et < 4 → gives (.vmul c f) fun k => a k * b k % 2 ^ h.ew)) ∧
    (f.vs1.val % (2 * h.grp) = 0 → h.grp ≤ 4 → h.et < 6 → h.et ≠ 0 →
      gives (.vnsra c f) fun k =>
        parts (2 * w) (fun p _ => ofS w (rndShift h.rm (toS (2 * w) p) (n k % (2 * h.ew)))) (a2 k) 0)

/-- The vector instructions that wrap, and the rounding of discarded bits. -/
def Obligations.WrappingAndRounding : Prop :=
  Claims.RoundingOfDiscardedBits ∧ Claims.VectorWrappingResults

/-- R272: the saturating instructions replace a result outside the range of the destination part by the nearest limit, and
set SAT when a part of an active element clips. -/
def Sys2Proof.Machine.Claims.VectorSaturatingResults : Prop :=
  ∀ (s : State) (c : Fin 96) (f : VArith), Ready s c →
    let x := begun (core s c)
    let h := shapeOf x
    let w := partW h
    let act := activeAt x f.men f.msel
    let a := elemAt (getGroup x f.vs1 h.grp) h.ew
    let a2 := elemAt (getGroup x f.vs1 (2 * h.grp)) (2 * h.ew)
    let b := secondOp x h f.b false
    let n := secondOp x h f.b true
    let cplx := h.et = 4 ∨ h.et = 5
    let limited := fun (v : Int) => max (-(2 ^ (w - 1))) (min (2 ^ (w - 1) - 1) v)
    let gives := fun (i : Instr) (lo hi : Nat → Int) =>
      WritesGroup i s c f.vd h.grp h.ew
        (loopElem h act (elemAt (getGroup x f.vd h.grp) h.ew) fun k =>
          if cplx then ofS w (limited (lo k)) + 2 ^ w * ofS w (limited (hi k)) else ofS w (limited (lo k)))
        (gathered h act fun k => if limited (lo k) = lo k ∧ (cplx → limited (hi k) = hi k) then 0 else 0x40)
    let re := fun (v p : Nat) => toS v p
    let im := fun (v p : Nat) => toS v (p / 2 ^ v)
    f.vd.val % h.grp = 0 → secondOk f.b h.grp = true →
    (f.vs1.val % h.grp = 0 →
      (h.et < 6 → gives (.vadds c f) (fun k => re w (a k) + re w (b k)) (fun k => im w (a k) + im w (b k))) ∧
      (h.et < 6 → gives (.vsubs c f) (fun k => re w (a k) - re w (b k)) (fun k => im w (a k) - im w (b k))) ∧
      (h.et = 1 ∨ h.et = 2 →
        gives (.vmulq c f) (fun k => rndShift h.rm (re w (a k) * re w (b k)) (w - 1)) (fun _ => 0)) ∧
      (h.et = 4 → gives (.vcmulq c f)
        (fun k => rndShift h.rm (re 16 (a k) * re 16 (b k) - im 16 (a k) * im 16 (b k)) 15)
        (fun k => rndShift h.rm (re 16 (a k) * im 16 (b k) + im 16 (a k) * re 16 (b k)) 15))) ∧
    (f.vs1.val % (2 * h.grp) = 0 → h.grp ≤ 4 → h.et < 6 → h.et ≠ 0 →
      gives (.vnsras c f) (fun k => rndShift h.rm (re (2 * w) (a2 k)) (n k % (2 * h.ew)))
        (fun k => rndShift h.rm (im (2 * w) (a2 k)) (n k % (2 * h.ew))))

/-- R273: the widening instructions write elements of twice the width to a group of twice the registers; a
multiply-accumulate adds the exact product to the old element, wraps, and sets AOV when an exact sum lies outside the range. -/
def Sys2Proof.Machine.Claims.VectorWideningResults : Prop :=
  ∀ (s : State) (c : Fin 96) (f : VArith), Ready s c →
    let x := begun (core s c)
    let h := shapeOf x
    let act := activeAt x f.men f.msel
    let dw := 2 * h.ew
    let old := elemAt (getGroup x f.vd (2 * h.grp)) dw
    let a := elemAt (getGroup x f.vs1 h.grp) h.ew
    let b := secondOp x h f.b false
    let inside := fun (w : Nat) (v : Int) => -(2 ^ (w - 1)) ≤ v ∧ v ≤ 2 ^ (w - 1) - 1
    let re := fun (p : Nat) => toS 16 p
    let im := fun (p : Nat) => toS 16 (p / 2 ^ 16)
    let gives := fun (i : Instr) (e : Nat → Int) =>
      WritesGroup i s c f.vd (2 * h.grp) dw (loopElem h act old fun k => ofS dw (e k))
        (gathered h act fun k => if inside dw (e k) then 0 else 0x20)
    let complex := fun (i : Instr) (p q : Nat → Int) =>
      WritesGroup i s c f.vd (2 * h.grp) dw (loopElem h act old fun k => ofS 32 (p k) + 2 ^ 32 * ofS 32 (q k))
        (gathered h act fun k => if inside 32 (p k) ∧ inside 32 (q k) then 0 else 0x20)
    h.grp ≤ 4 → f.vd.val % (2 * h.grp) = 0 → f.vs1.val % h.grp = 0 → secondOk f.b h.grp = true →
    overlaps f.vs1 h.grp f.vd (2 * h.grp) = false → secondOver f.b h.grp f.vd (2 * h.grp) = false →
    (h.et < 3 →
      gives (.vmacw c f) (fun k => toS dw (old k) + toS h.ew (a k) * toS h.ew (b k)) ∧
      gives (.vmsuw c f) (fun k => toS dw (old k) - toS h.ew (a k) * toS h.ew (b k))) ∧
    (h.et = 4 →
      WritesGroup (.vcmulw c f) s c f.vd (2 * h.grp) dw (loopElem h act old fun k =>
        ofS 32 (re (a k) * re (b k) - im (a k) * im (b k)) + 2 ^ 32 * ofS 32 (re (a k) * im (b k) + im (a k) * re (b k))) 0 ∧
      complex (.vcmacw c f) (fun k => toS 32 (old k) + (re (a k) * re (b k) - im (a k) * im (b k)))
        (fun k => toS 32 (old k / 2 ^ 32) + (re (a k) * im (b k) + im (a k) * re (b k))) ∧
      complex (.vcmacjw c f) (fun k => toS 32 (old k) + (re (a k) * re (b k) + im (a k) * im (b k)))
        (fun k => toS 32 (old k / 2 ^ 32) + (im (a k) * re (b k) - re (a k) * im (b k))))

/-- The vector instructions that saturate or widen. -/
def Obligations.SaturatingAndWidening : Prop :=
  Claims.VectorSaturatingResults ∧ Claims.VectorWideningResults

/-- R265 to R267: an arithmetic instruction on an element type it is not defined for, or one that needs a group of more than
8 registers, raises VSHAPE_INVALID; one with a register that is no multiple of its group, or a widening destination that
overlaps a source, raises VREG_INVALID. Neither writes an element. VFRECE and VFRSQE with a second operand field other than
0 raise ILLEGAL_INSTR (R215). -/
def Sys2Proof.Machine.Claims.VectorOperandTraps : Prop :=
  ∀ (s : State) (c : Fin 96) (f : VArith), Ready s c → (core s c).exc = false →
    let h := shapeOf (core s c)
    let traps := fun (types : List Nat) (dest src : Nat) (i : Instr) =>
      (h.et ∉ types ∨ 8 < dest * h.grp ∨ 8 < src * h.grp → Traps i s c 0x10 0) ∧
      (h.et ∈ types → dest * h.grp ≤ 8 → src * h.grp ≤ 8 →
        (f.vd.val % (dest * h.grp) ≠ 0 ∨ f.vs1.val % (src * h.grp) ≠ 0 ∨ secondOk f.b h.grp = false ∨
          (dest = 2 ∧ (overlaps f.vs1 h.grp f.vd (2 * h.grp) = true ∨ secondOver f.b h.grp f.vd (2 * h.grp) = true))) →
        Traps i s c 0x11 0)
    (∀ i ∈ [.vadd c f, .vsub c f, .vadds c f, .vsubs c f], traps [0, 1, 2, 3, 4, 5] 1 1 i) ∧
    (∀ i ∈ [.vand c f, .vor c f, .vxor c f], traps [0, 1, 2, 3, 4, 5, 6, 7] 1 1 i) ∧
    (∀ i ∈ [.vmin c f, .vmax c f, .vminu c f, .vmaxu c f, .vsll c f, .vsrl c f, .vsra c f, .vmul c f],
      traps [0, 1, 2, 3] 1 1 i) ∧
    (∀ i ∈ [.vnsra c f, .vnsras c f], traps [1, 2, 3, 4, 5] 1 2 i) ∧ traps [1, 2] 1 1 (.vmulq c f) ∧
    (∀ i ∈ [.vmacw c f, .vmsuw c f], traps [0, 1, 2] 2 1 i) ∧
    (∀ i ∈ [.vcmulw c f, .vcmacw c f, .vcmacjw c f], traps [4] 2 1 i) ∧ traps [4] 1 1 (.vcmulq c f) ∧
    (∀ i ∈ [.vfadd c f, .vfsub c f, .vfmul c f, .vfma c f], traps [6, 7] 1 1 i) ∧
    (∀ i ∈ [.vfmin c f, .vfmax c f, .vfcvtI c f, .vfcvtF c f], traps [6] 1 1 i) ∧
    (noSecond f.b = true → traps [6] 1 1 (.vfrece c f) ∧ traps [6] 1 1 (.vfrsqe c f)) ∧
    (noSecond f.b = false → Traps (.vfrece c f) s c 0x01 0 ∧ Traps (.vfrsqe c f) s c 0x01 0)

/-- The vector memory traps (Encodings; R266, R276, R280, R283, R286): MODE 3, and VLDFF with MEN = 1, raise ILLEGAL_INSTR;
a register that is no multiple of its group raises VREG_INVALID; a misaligned element 0 raises MISALIGNED with ERI armed at
that element and CORE_EADDR its address (a store with no hand-over waiting); a mask store that would write part of a code
word past the cache raises NARROW_STORE with ERI unchanged. None writes a register or memory. -/
def Sys2Proof.Machine.Claims.VectorMemoryTraps : Prop :=
  ∀ (s : State) (c : Fin 96) (f : VMem) (ms : Fin 8), Ready s c → (core s c).exc = false →
    let x := core s c
    let h := shapeOf x
    let a := (getS x f.rs1).toNat
    let e := { x with eri := BitVec.ofNat 64 (2 ^ 63) }
    let faults := fun (i : Instr) => Leaves i s c (enterHandler e x.pc 0x03 (BitVec.ofNat 64 a))
    (f.men = true → Traps (.vldff c f) s c 0x01 0) ∧
    (eriPending x = false → x.vcount ≠ 0 → a % 32 ≠ 0 → a + 64 ≤ 2 ^ 64 →
      (∀ k < 64, wordMemory x c (a + k) = true) → Traps (.vstM c ms f.rs1) s c 0x05 (a / 32 * 32)) ∧
    (f.mode = .mode3 → Traps (.vld c f) s c 0x01 0 ∧ Traps (.vldff c f) s c 0x01 0 ∧ Traps (.vst c f) s c 0x01 0) ∧
    (f.mode = .unit → f.v.val % h.grp ≠ 0 → Traps (.vld c f) s c 0x11 0 ∧ Traps (.vst c f) s c 0x11 0) ∧
    (f.mode = .unit → f.v.val % h.grp = 0 → f.men = false → 0 < h.count → eriPending x = false → a % (h.ew / 8) ≠ 0 →
      faults (.vld c f) ∧ faults (.vldff c f) ∧
      (regionOf a = .nothing → (∀ k < h.count, regionOf (vAddr x h f k) = .nothing) → storeHeld x = false →
        faults (.vst c f)))

/-- The operands and shapes that the vector instructions refuse. -/
def Obligations.VectorTraps : Prop :=
  Claims.VectorOperandTraps ∧ Claims.VectorMemoryTraps

/-- The binary32 instructions (R274, R275) on fp32 and, part by part, on cfp32: each active element takes the operation's
result under RMODE and FTZ, and its conditions gather in VSTAT. No operation traps. -/
def Sys2Proof.Machine.Claims.VectorFloatResults : Prop :=
  ∀ (s : State) (c : Fin 96) (f : VArith), Ready s c →
    let x := begun (core s c)
    let h := shapeOf x
    let act := activeAt x f.men f.msel
    let old := elemAt (getGroup x f.vd h.grp) h.ew
    let a := elemAt (getGroup x f.vs1 h.grp) h.ew
    let b := secondOp x h f.b false
    let gives := fun (i : Instr) (r : Nat → Nat × Nat) =>
      WritesGroup i s c f.vd h.grp h.ew (loopElem h act old fun k => (r k).1) (gathered h act fun k => (r k).2)
    let parts := fun (op : Nat → Nat → Nat × Nat) (p q : Nat) =>
      ((op (p % 2 ^ 32) (q % 2 ^ 32)).1 + 2 ^ 32 * (op (p / 2 ^ 32) (q / 2 ^ 32)).1,
        (op (p % 2 ^ 32) (q % 2 ^ 32)).2 ||| (op (p / 2 ^ 32) (q / 2 ^ 32)).2)
    f.vd.val % h.grp = 0 → f.vs1.val % h.grp = 0 → secondOk f.b h.grp = true →
    (h.et = 6 →
      gives (.vfadd c f) (fun k => fpAdd h.rm h.ftz (a k) (b k)) ∧ gives (.vfsub c f) (fun k => fpSub h.rm h.ftz (a k) (b k)) ∧
      gives (.vfmul c f) (fun k => fpMul h.rm h.ftz (a k) (b k)) ∧
      gives (.vfma c f) (fun k => fpFma h.rm h.ftz (old k) (a k) (b k)) ∧
      gives (.vfmin c f) (fun k => fpMinMax false h.ftz (a k) (b k)) ∧
      gives (.vfmax c f) (fun k => fpMinMax true h.ftz (a k) (b k)) ∧
      gives (.vfcvtI c f) (fun k => fpToInt h.rm h.ftz (a k)) ∧ gives (.vfcvtF c f) (fun k => fpOfInt h.rm (a k)) ∧
      (noSecond f.b = true → gives (.vfrece c f) (fun k => fpRece h.rm h.ftz (a k)) ∧
        gives (.vfrsqe c f) (fun k => fpRsqe h.rm h.ftz (a k)))) ∧
    (h.et = 7 →
      gives (.vfadd c f) (fun k => parts (fpAdd h.rm h.ftz) (a k) (b k)) ∧
      gives (.vfsub c f) (fun k => parts (fpSub h.rm h.ftz) (a k) (b k)) ∧
      gives (.vfmul c f) (fun k => cfpFma h none (a k) (b k)) ∧
      gives (.vfma c f) (fun k => cfpFma h (some (old k)) (a k) (b k)))

/-- R274 and R275 on special operands: ∞ − ∞ and 0 × ∞ generate 0x7FC0_0000 with NV; a minimum or maximum with one NaN
returns the other operand; VFCVT.I converts a NaN to 0 and an out-of-range value to the limit, with NV in both cases and
never SAT; adding +0 to itself, or multiplying by 1, is exact. -/
def Sys2Proof.Machine.Claims.BinarySpecialOperands : Prop :=
  ∀ (rm : RMode) (ftz : Bool) (w : Nat), w < 2 ^ 32 →
    let ex := w / 2 ^ 23 % 256
    let fr := w % 2 ^ 23
    let nan := ex = 255 ∧ fr ≠ 0
    fpAdd rm ftz 0x7F800000 0xFF800000 = (0x7FC00000, 8) ∧ fpSub rm ftz 0x7F800000 0x7F800000 = (0x7FC00000, 8) ∧
    fpMul rm ftz 0 0x7F800000 = (0x7FC00000, 8) ∧ fpAdd rm ftz 0 0 = (0, 0) ∧
    (nan → ∀ v, v < 2 ^ 32 → v / 2 ^ 23 % 256 ≠ 255 → v / 2 ^ 23 % 256 ≠ 0 → ∀ mx,
      (fpMinMax mx ftz w v).1 = v ∧ (fpMinMax mx ftz v w).1 = v) ∧
    (nan → fpToInt rm ftz w = (0, 8)) ∧
    (158 ≤ ex → ¬ nan → w ≠ 0xCF000000 → fpToInt rm ftz w = (if w < 2 ^ 31 then 0x7FFFFFFF else 0x80000000, 8)) ∧
    (1 ≤ ex → ex < 255 → fpMul rm ftz w 0x3F800000 = (w, 0) ∧ fpMul rm ftz 0x3F800000 w = (w, 0))

/-- The binary32 vector instructions and their special operands. -/
def Obligations.VectorFloats : Prop :=
  Claims.VectorFloatResults ∧ Claims.BinarySpecialOperands

/-- The compare instructions (R270): an active element's mask bit takes the comparison, masked-off and tail bits follow
MASK_ZERO and TAIL_ZERO, and mask bits from VLMAX on stay. A NaN compares false. A mask register above m7 raises
ILLEGAL_INSTR. -/
def Obligations.VectorCompareResults : Prop :=
  ∀ (s : State) (c : Fin 96) (f : VArith), Ready s c →
    let x := begun (core s c)
    let h := shapeOf x
    let act := activeAt x f.men f.msel
    let a := elemAt (getGroup x f.vs1 h.grp) h.ew
    let b := secondOp x h f.b false
    let md : Fin 8 := Fin.ofNat 8 f.vd.val
    let gives := fun (i : Instr) (p : Nat → Bool) (fl : Nat) =>
      ∃ m : BitVec 512, Leaves i s c (retire (stick fl { x with m := x.m.set md m })) ∧
        (∀ k, k < h.vlmax → m.getLsbD k =
          (if k < h.count then (if act k then p k else !h.maskZero && x.m[md].getLsbD k)
           else !h.tailZero && x.m[md].getLsbD k)) ∧
        (∀ k, h.vlmax ≤ k → m.getLsbD k = x.m[md].getLsbD k)
    let all := [.vcmpeq c f, .vcmpne c f, .vcmplt c f, .vcmpltu c f, .vcmple c f, .vcmpleu c f, .vfcmpeq c f, .vfcmplt c f]
    (f.vd.val < 8 → f.vs1.val % h.grp = 0 → secondOk f.b h.grp = true →
      (h.et < 4 →
        gives (.vcmpeq c f) (fun k => a k == b k) 0 ∧ gives (.vcmpne c f) (fun k => a k != b k) 0 ∧
        gives (.vcmplt c f) (fun k => decide (toS h.ew (a k) < toS h.ew (b k))) 0 ∧
        gives (.vcmpltu c f) (fun k => decide (a k < b k)) 0 ∧
        gives (.vcmple c f) (fun k => decide (toS h.ew (a k) ≤ toS h.ew (b k))) 0 ∧
        gives (.vcmpleu c f) (fun k => decide (a k ≤ b k)) 0) ∧
      (h.et = 6 →
        gives (.vfcmpeq c f) (fun k => (fpEq h.ftz (a k) (b k)).1) (gathered h act fun k => (fpEq h.ftz (a k) (b k)).2) ∧
        gives (.vfcmplt c f) (fun k => (fpLt h.ftz (a k) (b k)).1) (gathered h act fun k => (fpLt h.ftz (a k) (b k)).2))) ∧
    (∀ v w : Nat, v / 2 ^ 23 % 256 = 255 → v % 2 ^ 23 ≠ 0 → ∀ z : Bool,
      (fpEq z v w).1 = false ∧ (fpEq z w v).1 = false ∧ (fpLt z v w).1 = false ∧ (fpLt z w v).1 = false) ∧
    ((core s c).exc = false → 8 ≤ f.vd.val → ∀ i ∈ all, Traps i s c 0x01 0)

/-- The permutes (Reductions and permutes; R269): VMERGE, the slides and VGATHERR move elements under the element loop;
VEXT and VINS reach one element whatever the mask and VCOUNT. -/
def Obligations.VectorPermutes : Prop :=
  ∀ (s : State) (c : Fin 96) (f : VArith) (rd rs2 vs2 : Fin 32), Ready s c →
    let x := begun (core s c)
    let h := shapeOf x
    let old := elemAt (getGroup x f.vd h.grp) h.ew
    let a := elemAt (getGroup x f.vs1 h.grp) h.ew
    let n := (getS x rs2).toNat
    let gives := fun (i : Instr) (act : Nat → Bool) (e : Nat → Nat) =>
      WritesGroup i s c f.vd h.grp h.ew (loopElem h act old e) 0
    f.vd.val % h.grp = 0 → f.vs1.val % h.grp = 0 →
    (f.men = true → secondOk f.b h.grp = true →
      gives (.vmerge c f) (fun _ => true) fun k => if maskBit x f.msel k then secondOp x h f.b false k else a k) ∧
    gives (.vslidedn c f.vd f.vs1 rs2 f.men f.msel) (activeAt x f.men f.msel)
      (fun k => if k + n < h.vlmax then a (k + n) else 0) ∧
    (overlaps f.vd h.grp f.vs1 h.grp = false →
      gives (.vslideup c f.vd f.vs1 rs2 f.men f.msel) (activeAt x f.men f.msel)
        (fun k => if n ≤ k then a (k - n) else old k) ∧
      (vs2.val % h.grp = 0 → overlaps f.vd h.grp vs2 h.grp = false →
        gives (.vgatherr c f.vd f.vs1 vs2 f.men f.msel) (activeAt x f.men f.msel)
          (fun k => let j := elemAt (getGroup x vs2 h.grp) h.ew k; if j < h.vlmax then a j else 0))) ∧
    Writes (.vext c rd f.vs1 rs2) s c rd
      (if h.vlmax ≤ n then 0 else if h.et < 4 then BitVec.ofInt 64 (toS h.ew (a n)) else BitVec.ofNat 64 (a n)) ∧
    (h.vlmax ≤ n → Leaves (.vins c f.vd rd rs2) s c (retire x)) ∧
    (n < h.vlmax → WritesGroup (.vins c f.vd rd rs2) s c f.vd h.grp h.ew
      (fun k => if k = n then (getS x rd).toNat % 2 ^ h.ew else old k) 0)

/-- The reductions and the mask operations (Reductions and permutes; Mask operations): VREDSUM wraps to 64 bits, and with
VCOUNT 0 writes nothing (R269); VREDMAX and
VREDMIN give the extreme of the active elements and its lowest index; VMAND to VMCLR work on all 512 bits; VMPOPC and
VMFIRST look below VCOUNT. -/
def Sys2Proof.Machine.Claims.VectorReductionsAndMasks : Prop :=
  ∀ (s : State) (c : Fin 96) (rd vs1 : Fin 32) (men : Bool) (msel md ms1 ms2 : Fin 8), Ready s c →
    let x := begun (core s c)
    let h := shapeOf x
    let active := (List.range h.count).filter (activeAt x men msel)
    let v := fun (k : Nat) => toS h.ew (elemAt (getGroup x vs1 h.grp) h.ew k)
    let below := (List.range x.vcount.toNat).filter fun k => x.m[ms1].getLsbD k
    let pair := fun (i : Instr) (a b : Word) => Leaves i s c (retire (setS (setS x rd a) (rd + 1) b))
    let mask := fun (i : Instr) (m : BitVec 512) => Leaves i s c (retire { x with m := x.m.set md m })
    (h.et < 4 → vs1.val % h.grp = 0 →
      (0 < h.count → Writes (.vredsum c rd vs1 men msel) s c rd (BitVec.ofInt 64 (active.map v).sum)) ∧
      (h.count = 0 → Leaves (.vredsum c rd vs1 men msel) s c (retire x)) ∧
      (rd.val % 2 = 0 → rd ≠ 0 →
        (active = [] → pair (.vredmax c rd vs1 men msel) (BitVec.ofInt 64 (-(2 ^ 63))) (BitVec.allOnes 64) ∧
          pair (.vredmin c rd vs1 men msel) (BitVec.ofInt 64 (2 ^ 63 - 1)) (BitVec.allOnes 64)) ∧
        (active ≠ [] →
          (∃ j ∈ active, (∀ k ∈ active, v k < v j ∨ (v k = v j ∧ j ≤ k)) ∧
            pair (.vredmax c rd vs1 men msel) (BitVec.ofInt 64 (v j)) (BitVec.ofNat 64 j)) ∧
          (∃ j ∈ active, (∀ k ∈ active, v j < v k ∨ (v k = v j ∧ j ≤ k)) ∧
            pair (.vredmin c rd vs1 men msel) (BitVec.ofInt 64 (v j)) (BitVec.ofNat 64 j))))) ∧
    mask (.vmand c md ms1 ms2) (x.m[ms1] &&& x.m[ms2]) ∧ mask (.vmor c md ms1 ms2) (x.m[ms1] ||| x.m[ms2]) ∧
    mask (.vmxor c md ms1 ms2) (x.m[ms1] ^^^ x.m[ms2]) ∧ mask (.vmandn c md ms1 ms2) (x.m[ms1] &&& ~~~x.m[ms2]) ∧
    mask (.vmset c md) (BitVec.ofNat 512 (2 ^ x.vcount.toNat - 1)) ∧ mask (.vmclr c md) 0 ∧
    Writes (.vmpopc c rd ms1) s c rd (BitVec.ofNat 64 below.length) ∧
    Writes (.vmfirst c rd ms1) s c rd (match below with | [] => BitVec.allOnes 64 | k :: _ => BitVec.ofNat 64 k)

/-- VSET (R268): VSHAPE takes the immediate, VCOUNT VLMAX, or rs1 up to VLMAX where the rs1 field is not 0, and rd VCOUNT. A
shape with bit 0 set raises ILLEGAL_INSTR. -/
def Sys2Proof.Machine.Claims.VsetShape : Prop :=
  ∀ (s : State) (c : Fin 96) (rd rs1 : Fin 32) (shape : BitVec 8), Ready s c →
    let x := begun (core s c)
    let vlmax := 2 ^ (shape.toNat / 64) * 512 / ([8, 16, 32, 64, 32, 64, 32, 64].getD (shape.toNat / 8 % 8) 0)
    let n : Word := BitVec.ofNat 64 (if rs1 = 0 then vlmax else min (getS x rs1).toNat vlmax)
    (shape.toNat % 2 = 0 →
      Leaves (.vset c rd rs1 shape) s c (retire (setS { x with vshape := shape.setWidth 64, vcount := n } rd n))) ∧
    (shape.toNat % 2 = 1 → (core s c).exc = false → Traps (.vset c rd rs1 shape) s c 0x01 0)

/-- The reductions, the mask operations and VSET. -/
def Obligations.VectorReductionsAndShape : Prop :=
  Claims.VectorReductionsAndMasks ∧ Claims.VsetShape

/-- Vector loads that hit good lines of the data cache, with no resume pending (Memory access; R276 to R278, R286): VLD and
VLDFF give each active element the bytes at its address, masked-off and tail elements follow their policies, and VLDFF
clears FAULTED. VLD.M loads one mask register from 64 bytes, and with VCOUNT 0 nothing (R269). -/
def Sys2Proof.Machine.Claims.VectorLoads : Prop :=
  ∀ (s : State) (c : Fin 96) (f : VMem) (md : Fin 8), Ready s c → ((core s c).exc || !eriPending (core s c)) = true →
    let x := core s c
    let h := shapeOf x
    let act := activeAt x f.men f.msel
    let at_ := vAddr x h f
    let hit := fun (a : Nat) => cacheable x c a = true ∧
      ∃ l, x.dcache.find? (·.addr == a / 64 * 64) = some l ∧ l.bad = false ∧ l.ce = false
    let bytes := fun (a n : Nat) => leNat (lineBytes s c a n)
    let result := fun (e : Core) => retire e
    (vMemCheck h f true = none → (∀ k < h.count, act k = true → at_ k % (h.ew / 8) = 0 ∧ hit (at_ k)) → h.count ≤ h.vlmax →
      let loaded := loopElem h act (elemAt (getGroup x f.v h.grp) h.ew) fun k => bytes (at_ k) (h.ew / 8)
      (∃ r, Leaves (.vld c f) s c (result (putGroup f.v r h.grp x)) ∧ ∀ k, k < h.vlmax → elemAt r h.ew k = loaded k) ∧
      (f.men = false → ∃ r,
        Leaves (.vldff c f) s c (result
          { putGroup f.v r h.grp x with vstat := BitVec.ofNat 64 (setBits x.vstat.toNat 7 7 0) }) ∧
        ∀ k, k < h.vlmax → elemAt r h.ew k = loaded k)) ∧
    (x.vcount = 0 → Leaves (.vldM c md f.rs1) s c (retire x)) ∧
    (let a := (getS x f.rs1).toNat
     x.vcount ≠ 0 → a % 32 = 0 → a + 64 ≤ 2 ^ 64 → hit a → hit (a + 32) →
      Leaves (.vldM c md f.rs1) s c (result
        { x with m := x.m.set md (BitVec.ofNat 512 (bytes a 32 + 2 ^ 256 * bytes (a + 32) 32)) }))

/-- Vector stores that hit dirty lines of the data cache, with no resume pending and no hand-over waiting (R278, R304): each
byte an active element covers takes that element's byte, the highest such element's where several cover it; no other byte
of the cache, no byte of memory and no register changes. VST.M stores the 64 bytes of a mask register, and with VCOUNT 0
nothing (R269). -/
def Sys2Proof.Machine.Claims.VectorStores : Prop :=
  ∀ (s : State) (c : Fin 96) (f : VMem) (ms : Fin 8), Ready s c → ((core s c).exc || !eriPending (core s c)) = true →
    storeHeld (core s c) = false → (∀ l ∈ (core s c).dcache, l.data.length = 64) →
    let x := core s c
    let h := shapeOf x
    let eb := h.ew / 8
    let act := activeAt x f.men f.msel
    let at_ := vAddr x h f
    let hit := fun (a : Nat) => cacheable x c a = true ∧ dirtyAt s c a = true
    let byteIn := fun (ls : List Line) (a : Nat) => (ls.find? (·.addr == a / 64 * 64)).map fun l => l.data.getD (a % 64) 0
    let stores := fun (i : Instr) (new : Nat → Option (BitVec 8)) =>
      ∃ ls, Leaves i s c (retire { x with dcache := ls }) ∧
        ∀ a, byteIn ls a = match new a with
          | some b => (byteIn x.dcache a).map fun _ => b
          | none => byteIn x.dcache a
    (vMemCheck h f false = none → (∀ k < h.count, act k = true → at_ k % eb = 0 ∧ hit (at_ k)) →
      stores (.vst c f) fun a =>
        (((List.range h.count).filter fun k => act k && at_ k ≤ a && a < at_ k + eb).getLast?).map fun k =>
          BitVec.ofNat 8 (elemAt (getGroup x f.v h.grp) h.ew k / 256 ^ (a - at_ k))) ∧
    (x.vcount = 0 → Leaves (.vstM c ms f.rs1) s c (retire x)) ∧
    (let a := (getS x f.rs1).toNat
     x.vcount ≠ 0 → a % 32 = 0 → a + 64 ≤ 2 ^ 64 → (∀ k < 64, cacheable x c (a + k) = true) →
      dirtyAt s c a = true → dirtyAt s c (a + 32) = true →
      stores (.vstM c ms f.rs1) fun b =>
        if a ≤ b ∧ b < a + 64 then some (BitVec.ofNat 8 (x.m[ms].toNat / 256 ^ (b - a))) else none)

/-- Vector loads that hit and vector stores that hit dirty lines. -/
def Obligations.VectorLoadsAndStores : Prop :=
  Claims.VectorLoads ∧ Claims.VectorStores

/-! ### The coprocessors of a crew (08_coprocessors.md) -/

/-- The coprocessor instructions (R288, R291 to R293, R299 to R301): CPISS puts a checked command on a free tag at the end
of its engine's queue, or with the hand-overs of its core; CPRES returns a DONE tag's result and status and frees it; CPB
branches and CPTST reads on a tag's state (a branch against a REG-class CPISS leaves the core's count of commands and the
queues open, R290); CPWAIT goes on when no named tag is LIVE; CPFREE frees the named tags and no other. -/
def Sys2Proof.Machine.Claims.CoprocessorInstructions : Prop :=
  ∀ (s : State) (c : Fin 96) (rd rs1 tag cond : Fin 32) (unit q : Fin 8) (imm : BitVec 16), Ready s c →
    let x := begun (core s c)
    let t := tagOf x tag
    let cmd := copBytes x q
    (q ≠ 0 → unit ≠ 7 → t.st = .free → copParamOk unit cmd = true → copAddrOk (c / 8) unit cmd = true →
      (fld cmd 1 1) / 128 % 2 = 0 → (copQueue s (c / 8) (copEngine s (c / 8) unit)).length < 16 →
      Effect (.cpiss c tag unit q) s fun u =>
        let e := copEngine s (c / 8) unit
        let d : CopCmd := { core := c, tag := tag, gen := x.cpGen + 1, data := cmd }
        copQueue u (c / 8) e = copQueue s (c / 8) e ++ [d] ∧ (tagOf (core u c) tag).st = .live ∧
        (∀ v, v ≠ tag.val → tagOf (core u c) v = tagOf x v) ∧ (core u c).pc = x.pc + 4 ∧ (core u c).s = x.s ∧
        { u with cores := s.cores, cops := s.cops } = s) ∧
    (q ≠ 0 → t.st = .free → copParamOk 7 cmd = true → copAddrOk (c / 8) 7 cmd = true → (fld cmd 1 1) / 128 % 2 = 0 →
      Effect (.cpiss c tag 7 q) s fun u =>
        (core u c).hand = x.hand ++ [{ core := c, tag := tag, gen := x.cpGen + 1, data := cmd }] ∧
        (tagOf (core u c) tag).st = .live ∧ (∀ v, v ≠ tag.val → tagOf (core u c) v = tagOf x v) ∧
        (core u c).pc = x.pc + 4 ∧ (core u c).s = x.s ∧ { u with cores := s.cores } = s) ∧
    (q ≠ 0 → t.st ≠ .free → (core s c).exc = false → Traps (.cpiss c tag unit q) s c 0x20 0) ∧
    (q ≠ 0 → t.st = .free → copParamOk unit cmd = false → (core s c).exc = false → Traps (.cpiss c tag unit q) s c 0x21 0) ∧
    (rd.val % 2 = 0 → rd ≠ 0 → t.st = .done → Leaves (.cpres c rd tag) s c
      (retire (freeTag tag (setS (setS x rd t.result) (rd + 1) (BitVec.ofNat 64 t.status))))) ∧
    (rd.val % 2 = 0 → rd ≠ 0 → t.st = .free → (core s c).exc = false → Traps (.cpres c rd tag) s c 0x23 0) ∧
    (cond.val < 3 →
      let near := x.pc + imm.signExtend 48 * 4
      let take := (cond = 0 ∧ t.st = .live) ∨ (cond = 1 ∧ t.st ≠ .live) ∨ (cond = 2 ∧ t.st = .done ∧ t.status ≠ 0)
      let went := if take then jumpTo x near else retire x
      let spec := specIssue (beginInstr c s) c (if take then x.pc + 4 else near)
      (spec = none → Leaves (.cpb c tag cond imm) s c went) ∧
      (∀ e d, spec = some (e, d) → Effect (.cpb c tag cond imm) s fun u =>
        (core u c = went ∨ core u c = { went with cpGen := d.gen }) ∧
        (∀ j, j ≠ c.val → core u j = core s j) ∧ { u with cores := s.cores, cops := s.cops, free := s.free } = s)) ∧
    (3 ≤ cond.val → (core s c).exc = false → Traps (.cpb c tag cond imm) s c 0x01 0) ∧
    ((∀ k < 32, (getS x rs1).getLsbD k = true → (tagOf x k).st ≠ .live) → Leaves (.cpwait c rs1) s c (retire x)) ∧
    (∃ y, Leaves (.cpfree c rs1) s c (retire y) ∧ y.s = x.s ∧ ∀ k < 32,
      tagOf y k = if (getS x rs1).getLsbD k then {} else tagOf x k) ∧
    (let p := tagOf x ((getS x rs1).toNat % 32)
     Writes (.cptst c rd rs1) s c rd (match p.st with | .free => 0 | .live => 1 | .done => if p.status = 0 then 2 else 3))

/-- A coprocessor command at the head of its queue, with nothing to wait for (R289, R292, R296, R299): it leaves the queue,
its inputs are read and its outputs written, and its tag becomes DONE with status OK and its result. Bytes outside its
output code words stay. FFT_PEAK and POWER write no memory; POWER's result is the exact power sum. -/
def Sys2Proof.Machine.Claims.CoprocessorCommands : Prop :=
  ∀ (s : State) (crew : Fin 12) (e : Fin 2) (coll : Option (BitVec 48)) (d : CopCmd) (q : List CopCmd) (input : Bytes)
    (s1 s2 : State), crewUsable s crew = true → d.after = none → (tagOf (core s d.core) d.tag).st = .live →
    (tagOf (core s d.core) d.tag).gen = d.gen → d.core / 8 = crew.val →
    let outs := copOutputs d.data
    let runs_ := fun (i : Instr) (engine code : Nat) (mem : Bool) (coll : Option Nat) (result : Nat → Prop) =>
      copQueue s crew engine = d :: q → fld d.data 0 1 = code → core s2 d.core = core s d.core → awake s2 (some crew.val) = true →
      copReadAll d.core mem (copInputs d.data) s = (.ok, input, s1) →
      copWriteAll d.core (engine + 1) coll outs (copOut d.data input (sumL (outs.map (·.2)))) s1 = (.ok, s2) →
      Effect i s fun u => copQueue u crew engine = q ∧
        (∃ r, result r ∧ tagOf (core u d.core) d.tag =
          { st := .done, result := BitVec.ofNat 64 r, status := 0, gen := d.gen }) ∧
        u.mem = s2.mem
    let any := fun (_ : Nat) => True
    runs_ (.fft crew e coll) e 1 true (coll.map (·.toNat)) any ∧ runs_ (.ifft crew e coll) e 2 true (coll.map (·.toNat)) any ∧
    runs_ (.fftPeak crew e) e 3 false none (fun r => 0 < fld d.data 4 2 → r % 2 ^ 16 < fld d.data 4 2) ∧
    runs_ (.dft crew e coll) e 4 true (coll.map (·.toNat)) any ∧ runs_ (.idft crew e coll) e 5 true (coll.map (·.toNat)) any ∧
    runs_ (.chest crew e coll) (2 + e) 0x10 true (coll.map (·.toNat)) any ∧
    runs_ (.mimoDet crew e coll) (2 + e) 0x11 true (coll.map (·.toNat)) any ∧
    runs_ (.power crew e) (2 + e) 0x12 false none (fun r => r = powerSum (input.length / 4) input) ∧
    runs_ (.bwWeights crew coll) 4 0x20 true (coll.map (·.toNat)) any ∧
    runs_ (.bwApply crew coll) 4 0x21 true (coll.map (·.toNat)) (fun r => r < 0x10000)

/-- A hand-over of a core with an empty cache and no write of it under way (R303, R305): one decrement is sent to its
Shuttle slot, and its tag becomes DONE, with status OK, or ORPHAN where the slot is FREE. Its AFTER command having ended in
error, it sends nothing and ends with DEP_FAILED. Ending with an error, it lets the hand-overs that wait for it fail. -/
def Sys2Proof.Machine.Claims.HandoverSendsOneDecrement : Prop :=
  ∀ (s : State) (c : Fin 96) (tag : Fin 32) (d : CopCmd), crewUsable s (c / 8) = true → (core s c).dcache = [] →
    (core s c).hand.find? (·.tag == tag.val) = some d → awake s (some (c / 8)) = true → d.core = c.val → d.tag = tag.val →
    (tagOf (core s c) tag).st = .live → (tagOf (core s c) tag).gen = d.gen →
    let t := fld d.data 2 2
    let told := fun (e : CopCmd) =>
      if e.core = c.val ∧ e.after = some (tag.val, d.gen) then { e with depFailed := true } else e
    let ended := fun (u : State) (status : Nat) => tagOf (core u c) tag =
      { st := .done, result := 0, status := status, gen := d.gen } ∧
      (core u c).hand = (if status = 0 then (core s c).hand.erase d else ((core s c).hand.erase d).map told)
    (d.after = none → drained s c = true → Effect (.handover c tag) s fun u =>
      u.notices = s.notices ++ [{ task := t, count := 1, source := coreInit c }] ∧
      ended u (if (slot s t).st = .free then 5 else 0) ∧ u.mem = s.mem) ∧
    (afterState s d = some true → Effect (.handover c tag) s fun u => u.notices = s.notices ∧ ended u 4 ∧ u.mem = s.mem)

/-- The coprocessor instructions, commands and hand-overs. -/
def Obligations.Coprocessors : Prop :=
  Claims.CoprocessorInstructions ∧ Claims.CoprocessorCommands ∧ Claims.HandoverSendsOneDecrement

/-! ### The device-wide engines (08_coprocessors.md, R306 to R316) -/

/-- R306 and R308: an engine with a task reads the descriptor at its ENTRY, carries out the operation it names and writes
the status record at STATUS_ADDR; its end is kept for the completion. An ENTRY that is not 32-byte aligned ends the task
with ERROR 1 and no record, and reaches no memory. Stated for a run that waits for no sleeping memory (R537, 0x100). -/
def Sys2Proof.Machine.Claims.EngineRuns : Prop :=
  ∀ (s s1 s2 s3 : State) (r : Running) (b : Bytes) (run : EngineRun) (n1 n2 : Nat),
    let entry := (slot s r.work.task).desc.entry
    let works := fun (i : Instr) (k op statusAt countAt : Nat) (ok : Bytes → Bool) (act : Bytes → State → EngineRun × State) =>
      spFind s.shuttle.engines k = some r → spFind s.shuttle.engineEnds k = none →
      awake s (domainOf (engineUnit k).1 (engineUnit k).2) = true →
      (entry % 32 ≠ 0 → Effect i s fun u =>
        spFind u.shuttle.engineEnds k = some { error := 1, addr := entry, recorded := false } ∧
        { u with shuttle := s.shuttle } = s) ∧
      (entry % 32 = 0 → readBytes (engineInit k) entry 64 s = (.ok, b, n1, s1) → fld b 0 1 = op → ok b = true →
        act b s1 = (run, s2) → run.error ≠ 0x100 →
        writeBytes (engineInit k) (fld b statusAt 6) (statusRecord s2 (fld b countAt 2) run) s2 = (.ok, n2, s3) →
        Effect i s fun u => spFind u.shuttle.engineEnds k = some { error := run.error, addr := run.addr, recorded := true } ∧
          { u with shuttle := s3.shuttle } = s3)
    (∀ e : Fin 24, works (.ldpcDecode e) e 1 56 8 ldpcOk (ldpcDecode e)) ∧
    (∀ e : Fin 8, works (.ldpcEncode e) (24 + e) 2 56 8 ldpcOk (ldpcEncode (24 + e))) ∧
    (∀ e : Fin 8, works (.polarDecode e) (32 + e) 4 32 12 polarOk (polarRun true (32 + e))) ∧
    (∀ e : Fin 8, works (.polarEncode e) (32 + e) 3 32 12 polarOk (polarRun false (32 + e))) ∧
    (∀ e : Fin 4, works (.cipherTask e) (40 + e) 5 16 2 cipherOk (cipherRun (40 + e)))

/-- R308: an engine's completion frees the engine, with the instances it handed code blocks to (R309), and counts its task; the task completes with OK when its record was
written without an error, else with FAIL, an error count and ENGINE_ERROR. An engine whose work has not ended is unchanged. -/
def Sys2Proof.Machine.Claims.EngineCompletes : Prop :=
  ∀ (s : State) (k : Fin 44) (r : Running) (e : EngineEnd), spFind s.shuttle.engines k = some r →
    let u0 := (engineUnit k).1
    let i0 := (engineUnit k).2
    let freed := { s with shuttle := { s.shuttle with
      engines := spDel s.shuttle.engines k, engineEnds := spDel s.shuttle.engineEnds k
      lent := s.shuttle.lent.filter fun e => e.2 ≠ k.val } }
    let counted := regBump u0 i0 0x008 31 0 1 freed
    (spFind s.shuttle.engineEnds k = none → Effect (.engineCompletion k) s fun u => u = s) ∧
    (spFind s.shuttle.engineEnds k = some e → e.error = 0 → e.recorded = true →
      Effect (.engineCompletion k) s fun u => u = rescueEval (completeWork r.work true 15 counted)) ∧
    (spFind s.shuttle.engineEnds k = some e → e.error ≠ 0 ∨ e.recorded = false →
      Effect (.engineCompletion k) s fun u => ∃ w, u = rescueEval (completeWork r.work false 15 w) ∧
        regF w u0 i0 0x00C 31 0 = min (2 ^ 32 - 1) (regF s u0 i0 0x00C 31 0 + 1) ∧ w.shuttle = freed.shuttle)

/-- An engine runs its task, writes its record and completes it. -/
def Obligations.Engines : Prop :=
  Claims.EngineRuns ∧ Claims.EngineCompletes

/-! ### Chirp radio (09_chirp_radio.md) -/

/-- R323 to R326, R331, for every symbol order: the symbols of a header decode to that header with no correction, and the symbols of a
payload with its CRC decode to both. -/
def Obligations.FrameCodeRoundTrip : Prop :=
  ∀ (s : State) (so : Nat) (h pay : Bytes), 5 ≤ so → so ≤ 11 → h.length = 5 →
    let hb := codedBits (h ++ [BitVec.ofNat 8 (crc8 h)])
    let crc := beBytes 3 (crc24 (h ++ pay))
    let pb := if hdrCode h then codedBits (whiten (pay ++ crc)) else bitsOf (whiten (pay ++ crc))
    let symbols := fun (l : List Bool) => (symbolsOf so l.length l).map (BitVec.ofNat 11)
    decodeHeader so (symbols hb) = some (h, 0) ∧ (symbols hb).length = headerSymbols so ∧
    (pay.length = hdrLen h → decodePayload so h (symbols pb) s = (pay ++ crc, 0, s) ∧
      (symbols pb).length = payloadSymbols so (hdrLen h) (hdrCode h))

/-- Reception and transmission of chirp channels (R321, R322, R327 to R344), counted with FREEZE clear: a band starts and follows its
samples, kept where they come out of order, and a message missing 2 ms after its time is replaced; a detection, an agreeing
run of PREAMBLE_MIN up-chirps, takes a demodulator of a free channel; a header that fails, or follows no preamble, sync word
and marker of its channel, drops it and one that decodes confirms it;
a reception ends OK or CRC by its CRC-24; a quiet symbol period enters the noise floor; a descriptor that can be sent books a
modulator, one the queue does not give books none, its frame leaves at its time, or within a band sample period of it, else
ends LATE, and its end frees the modulator. -/
def Sys2Proof.Machine.Claims.ChirpChannels : Prop :=
  ∀ (s : State) (g ch : Fin 256) (id : Nat) (o : Object) (e : ChirpEntry) (port : Fin 48) (eaxc : BitVec 16) (last : BitVec 64)
    (so : Fin 12) (chirps : List UpChirp) (newest : UpChirp)
    (checks : List (Fin 8 × SyncSeen × List (BitVec 11))) (pre : SyncSeen)
    (frames : List (BitVec 16)) (part : RxData)
    (d : Fin 8) (symbols : List (BitVec 11)) (power : BitVec 32) (m : Fin 64) (r : Reception) (x : ChirpMod),
    let b := o.body
    let now := shortNow s
    let fails := fun (i : Instr) => Effect i s fun u => u = s
    let counts := fun (u : State) (c k : Nat) =>
      cntGet u (cntKey uCSS c k) = min 0xFFFFFFFF (cntGet s (cntKey uCSS c k) + 1)
    let message := Instr.bandSampleMessage port eaxc last
    let detect := Instr.detection ch so chirps newest checks frames part
    let follows := e.preambleMin + 2 ≤ pre.upChirps.toNat ∧ pre.sync = some (BitVec.ofNat 8 e.sync) ∧
      pre.after.toNat ≤ 64 ∧ pre.marker = true
    let x0 := chirpCh s ch
    let ts := leastTs e
    let demods := fun (u : State) => (chirpCh u ch).demods
    (objsOf s 3 1 = [(id, o)] → fld b 0 1 = port.val → fld b 2 2 = eaxc.toNat →
      (o.st = some .starting → Effect message s fun u => (∃ y, objFind u id = some y ∧ y.st = some .running ∧ y.body = b) ∧
        (chirpGroup u (id % 0x10000)).seen = some last.toNat) ∧
      (o.st = some .running → now ≤ last.toNat + 2000000 → (chirpGroup s (id % 0x10000)).got = [] →
        ((chirpGroup s (id % 0x10000)).seen = none → Effect message s fun u =>
          (chirpGroup u (id % 0x10000)).seen = some last.toNat ∧ { u with chirpGroups := s.chirpGroups } = s) ∧
        (∀ t, (chirpGroup s (id % 0x10000)).seen = some t →
          (last.toNat = t + 100000 → Effect message s fun u => (chirpGroup u (id % 0x10000)).seen = some last.toNat ∧
            (chirpGroup u (id % 0x10000)).got = [] ∧ { u with chirpGroups := s.chirpGroups } = s) ∧
          (t < last.toNat → last.toNat ≠ t + 100000 → Effect message s fun u => (chirpGroup u (id % 0x10000)).seen = some t ∧
            (chirpGroup u (id % 0x10000)).got = [last.toNat] ∧ { u with chirpGroups := s.chirpGroups } = s) ∧
          (last.toNat ≤ t → fails message))) ∧
      (o.st = some .running → last.toNat + 2000000 < now → fails message)) ∧
    (objFind s (chirpObj g) = some o → o.st = some .running → ∀ t, (chirpGroup s g).seen = some t →
      (t + 2100000 ≤ now → (chirpGroup s g).got = [] → Effect (.bandGap g) s fun u =>
        (chirpGroup u g).seen = some (t + 100000) ∧
        (regF s uCSS ch 0x018 1 1 = 0 → chirpEntries b = [e] → e.channel = ch.val → counts u ch 11)) ∧
      ((chirpGroup s g).got.contains (t + 100000) = true → fails (.bandGap g)) ∧
      (now < t + 2100000 → fails (.bandGap g))) ∧
    (objFind s (chirpObj g) = some o → o.st = some .stopping →
      ((∀ y ∈ s.chirpMods, y.2.group ≠ g.val) → Effect (.chirpGroupStopped g) s fun u =>
        (∃ y, objFind u (chirpObj g) = some y ∧ y.st = some .stopped ∧ y.cost = 0) ∧ chirpGroup u g = {}) ∧
      ((∃ y ∈ s.chirpMods, y.2.group = g.val) → fails (.chirpGroupStopped g))) ∧
    (chirpRunning s ch = some (id, b, e) → regF s uCSS ch 0x018 1 1 = 0 →
      (∀ run, agreeing e so (chirps ++ [newest]) = some run → run.length = e.preambleMin ∧ run <:+ chirps ++ [newest] ∧ (∀ p ∈ run, ∀ q ∈ run, p.bin = q.bin) ∧
        ∀ c, run.getLast? = some c → 5 ≤ so.val → bit e.mask (so.val - 5) = true → blanked s (id % 0x10000) = false →
          demods s = [] → Effect detect s fun u =>
            demods u = [(0, { so := so, at_ := c.timing.toNat, bin := c.bin.toNat, floor := regF s uCSS ch 0x004 31 16 })] ∧
            counts u ch 0 ∧ { u with chirp := s.chirp, counters := s.counters } = s) ∧
      (so.val < 5 ∨ bit e.mask (so.val - 5) = false ∨ blanked s (id % 0x10000) = true ∨ agreeing e so (chirps ++ [newest]) = none →
        fails detect) ∧
      (spFind (demods s) d = some r → r.header = none →
        (¬ follows ∨ decodeHeader r.so symbols = none → Effect (.headerCheck ch d pre symbols) s fun u =>
          spFind (demods u) d = none ∧ counts u ch 3 ∧ { u with chirp := s.chirp, counters := s.counters } = s) ∧
        (∀ h c, follows → decodeHeader r.so symbols = some (h, c) → Effect (.headerCheck ch d pre symbols) s fun u =>
          (∃ y, spFind (demods u) d = some y ∧ y.header = some h ∧ y.corrections = c ∧
            y.registered = tagRegistered s (hdrTag h)) ∧ { u with chirp := s.chirp } = s) ∧
        fails (.receptionEnd ch d part)) ∧
      (∀ h, spFind (demods s) d = some r → r.header = some h →
        (part.symbols.length < payloadSymbols r.so (hdrLen h) (hdrCode h) → fails (.receptionEnd ch d part)) ∧
        (payloadSymbols r.so (hdrLen h) (hdrCode h) ≤ part.symbols.length →
          let bs := (decodePayload r.so h part.symbols s).1
          let ok := crc24 (h ++ bs.take (hdrLen h)) = beNat (bs.drop (hdrLen h))
          Effect (.receptionEnd ch d part) s fun u => spFind (demods u) d = none ∧ (ok → counts u ch 1) ∧
            (¬ ok → counts u ch 2 ∧ u.tags = s.tags))) ∧
      (demods s = [] → x0.busyAt + ts ≤ s.now → x0.noiseAt + ts ≤ s.now →
        (chirpGroup s (id % 0x10000)).blankUntil + ts ≤ now → Effect (.noiseFloorPeriod ch power) s fun u =>
          (chirpCh u ch).noise = (x0.noise ++ [power.toNat]).drop (x0.noise.length - 63) ∧ u.counters = s.counters) ∧
      (demods s ≠ [] ∨ s.now < x0.busyAt + ts ∨ s.now < x0.noiseAt + ts ∨ now < (chirpGroup s (id % 0x10000)).blankUntil + ts →
        fails (.noiseFloorPeriod ch power))) ∧
    (objFind s (chirpObj g) = some o →
      ((queue s (fld b 20 2)).items = [] → fails (.txDequeue g)) ∧
      (∀ h t w, o.st = some .running → (queue s (fld b 20 2)).items.head? = some h →
        fld (packetBytes s h) 0 8 ≤ now + fld b 24 2 * 1000 → takePacket (unitInit uCSS 0) (fld b 20 2) s = (some t, w) →
        txDescOk b t = true → now + txDelay b + 300000 ≤ fld t 0 8 → w.chirpMods = [] →
        Effect (.txDequeue g) s fun u => ∃ y, u.chirpMods = [(0, y)] ∧ y.group = g.val ∧ y.channel = fld t 8 1 ∧
          y.launch = fld t 0 8 ∧ y.so = fld t 9 1 ∧ y.cookie = fld t 20 4 ∧ y.started = false ∧ y.launch ≤ y.stop) ∧
      (∀ h w, o.st = some .running → (queue s (fld b 20 2)).items.head? = some h →
        takePacket (unitInit uCSS 0) (fld b 20 2) s = (none, w) →
        fld (packetBytes s h) 0 8 ≤ now + fld b 24 2 * 1000 → Effect (.txDequeue g) s fun u => u = w)) ∧
    (spFind s.chirpMods m = some x → objFind s (chirpObj x.group) = some o →
      (x.started = false → x.launch - txDelay b ≤ now → 625 < (now - (x.launch - txDelay b)) * 2 ^ fld b 6 1 →
        Effect (.txFrameLaunch m []) s fun u => spFind u.chirpMods m = none ∧
          (regF s uCSS x.channel 0x018 1 1 = 0 → counts u x.channel 13)) ∧
      (x.started = false → x.launch - txDelay b ≤ now → (now - (x.launch - txDelay b)) * 2 ^ fld b 6 1 ≤ 625 →
        chirpFlag b 0 = false → NoLaunch s →
        Effect (.txFrameLaunch m []) s fun u => (∃ t, u.out = s.out ++ [.eth (fld b 0 1) "chirp-tx" t]) ∧
          spFind u.chirpMods m = some { x with started := true } ∧ u.mem = s.mem ∧
          regF u uCSS m 0x8004 31 0 = min 0xFFFFFFFF (regF s uCSS m 0x8004 31 0 + 1)) ∧
      (now < x.launch - txDelay b → fails (.txFrameLaunch m [])) ∧
      (x.started = true → x.stop ≤ now → Effect (.txFrameEnd m) s fun u => spFind u.chirpMods m = none ∧
        ∀ k, k ≠ m.val → spFind u.chirpMods k = spFind s.chirpMods k) ∧
      (now < x.stop → fails (.txFrameEnd m))) ∧
    Effect (.cssCntClear ch) s (fun u => (∀ k, k < 16 → cntGet u (cntKey uCSS ch k) = 0) ∧
      { u with counters := s.counters } = s)

/-- The tag registry and CHIRP_STATS (R343): TAG_SET registers a tag with nothing received, TAG_GET answers its entry, TAG_REMOVE
clears it, and a tag that is not registered is refused; CHIRP_STATS answers a channel's sixteen counters. -/
def Sys2Proof.Machine.Claims.TagRegistry : Prop :=
  ∀ (s : State) (r : Request), cssChannels s.part ≠ 0 → dryRun r = false →
    let t := fld r.params 0 4
    (Addressed r uCSS 0 → r.params.length = 4 → t < 2 ^ 18 →
      Effect (.tagSet r) s (fun u => ∃ w, u = reply 0x0340 r 0 [] w ∧ tagEntry w t = leBytes 4 (2 ^ 31 + t) ++ zeros 28 ∧
        tagRegistered w t = true ∧ (∀ k, k ≠ t → tagEntry w k = tagEntry s k) ∧ { w with tags := s.tags } = s) ∧
      (tagRegistered s t = true → Replies (.tagGet r) s 0x0342 r 0 (tagEntry s t) s ∧
        Effect (.tagRemove r) s fun u => ∃ w, u = reply 0x0341 r 0 [] w ∧ tagRegistered w t = false ∧
          (∀ k, k ≠ t → tagEntry w k = tagEntry s k) ∧ { w with tags := s.tags, chirp := s.chirp } = s) ∧
      (tagRegistered s t = false → Replies (.tagGet r) s 0x0342 r 0x0302 [] s ∧ Replies (.tagRemove r) s 0x0341 r 0x0302 [] s)) ∧
    (Addressed r uCSS r.inst.toNat → r.inst.toNat < cssChannels s.part → r.params = [] → ∃ res, res.length = 64 ∧
      (∀ k, k < 16 → fld res (4 * k) 4 = cntGet s (cntKey uCSS r.inst.toNat k) % 2 ^ 32) ∧
      Replies (.chirpStats r) s 0x0343 r 0 res s)

/-- Reception and transmission of chirp channels, and the tag registry. -/
def Obligations.ChirpRadio : Prop :=
  Claims.ChirpChannels ∧ Claims.TagRegistry

/-! ### Audio bridge and headset ports (10_audio_bridge.md) -/

/-- Bridge groups, input frames, blocks, sub-sums and parameter descriptors (R345, R346, R349, R350, R355 to R357, R367, R370, R371);
and the N-1 term is exact (R362, R363) and no output of the limiter passes LIMIT (R365). -/
def Obligations.AudioGroupsAndBlocks : Prop :=
  ∀ (s : State) (g : Fin 512) (o : Object) (mic0 mic1 : List (BitVec 24)) (took : BitVec 16) (device : BitVec 12)
    (block : BitVec 64) (samples : List (BitVec 64)),
    let now := shortNow s
    let b := blockNow s
    let fails := fun (i : Instr) => Effect i s fun u => u = s
    let counts := fun (w u : State) (l k : Nat) => regF s uAUDIO 0 0x00C 1 1 = 0 →
      cntGet u (cntKey uAUDIO l k) = min 0xFFFFFFFF (cntGet w (cntKey uAUDIO l k) + 1)
    let begun := s.cox.st ≠ .unset ∧ ∀ m, s.audio.last = some m → m < b
    (objFind s (bridgeObj g) = some o →
      (o.st = some .starting →
        (ceilDiv ((audioGroup s g).admitted + 2000000) 1000000 * 1000000 ≤ now → Effect (.bridgeGroupRunning g) s fun u =>
          ∃ y, objFind u (bridgeObj g) = some y ∧ y.st = some .running ∧ y.body = o.body ∧ y.cost = o.cost) ∧
        (now < ceilDiv ((audioGroup s g).admitted + 2000000) 1000000 * 1000000 → fails (.bridgeGroupRunning g))) ∧
      (o.st = some .stopping →
        (legsOf s g = [] → Effect (.bridgeGroupStopped g) s fun u =>
          (∃ y, objFind u (bridgeObj g) = some y ∧ y.st = some .stopped ∧ y.cost = 0) ∧ audioGroup u g = {}) ∧
        (legsOf s g ≠ [] → fails (.bridgeGroupStopped g))) ∧
      (o.st = some .running → ∀ d v x, takePacket (unitInit uAUDIO 0) (fld o.body 4 2) s = (some d, v) →
        let l := fld d 8 2 % 4096
        legFind v l = some x →
        (x.group ≠ g.val ∨ x.source ≠ 0 ∨ d.length < 32 → Effect (.inputFrame g) s fun u => u = legCount l 12 1 v ∧
          u.audio = v.audio) ∧
        (x.group = g.val → x.source = 0 → fld d 8 2 < 4096 → fld d 10 1 < 6 → fld d 11 1 < 2 → 1 ≤ fld d 12 2 →
          fld d 12 2 ≤ maxCount (fld d 10 1) → fld d 14 1 < 4 → rsv d 15 17 = true →
          d.length = 32 + fld d 12 2 * (if fld d 11 1 = 0 then 2 else 4) →
          fld d 0 8 + x.p.playout * 1000 + (fld d 12 2 - 1) * second / rateHz (fld d 10 1) < blockNow v * 1000000 + 256000000 →
          Effect (.inputFrame g) s fun u => ∃ y, legFind u l = some y ∧ y.heard = true ∧ y.rate = fld d 10 1 ∧ y.p = x.p ∧
            y.srcEnd = some (fld d 0 8 + fld d 12 2 * second / rateHz (fld d 10 1)) ∧
            ∀ k, k ≠ l → legFind u k = legFind v k))) ∧
    (isRunning s (bridgeObj g) = false → fails (.inputFrame g)) ∧
    (begun →
      (now ≤ b * 1000000 + 400000 → Effect (.blockCompute mic0 mic1 took) s fun u => u.audio.last = some b ∧
        (s.audio.legs = [] →
          regF u uAUDIO 0 0x008 15 0 = max took.toNat (regF s uAUDIO 0 0x008 15 0) ∧
          (liveGroups s = [] → { u with regs := s.regs, audio := s.audio } = s) ∧
          (g.val ∈ liveGroups s → bridgeSpan s g = false →
            (audioGroup u g).sums.head? = some (b, List.replicate 48 0)))) ∧
      (b * 1000000 + 400000 < now → fails (.blockCompute mic0 mic1 took)) ∧
      (b * 1000000 + 400000 ≤ now → liveGroups s ≠ [] → Effect .audioBlockOverrun s fun u => u.audio.last = some b ∧
        (s.audio.legs = [] → regF u uAUDIO 0 0x008 31 16 = min 0xFFFF (regF s uAUDIO 0 0x008 31 16 + 1))) ∧
      (now < b * 1000000 + 400000 → fails .audioBlockOverrun)) ∧
    (∀ m, s.audio.last = some m → b ≤ m → fails (.blockCompute mic0 mic1 took) ∧ fails .audioBlockOverrun) ∧
    (groupLive s g = true → bridgeSpan s g = true → device.toNat ∈ bridgeRemotes (bridgeBody s g) →
      Effect (.subsumReceived g device block samples) s fun u =>
        (audioGroup u g).subs = (audioGroup s g).subs ++ [(device.toNat, block.toNat / 1000000, samples.map (·.toInt))] ∧
        { u with audio := s.audio } = s) ∧
    (device.toNat ∉ bridgeRemotes (bridgeBody s g) → fails (.subsumReceived g device block samples)) ∧
    (regF s uAUDIO 0 0x004 31 31 = 1 → ∀ d v, takePacket (unitInit uAUDIO 0) (regF s uAUDIO 0 0x004 15 0) s = (some d, v) →
      let l := fld d 8 2 % 4096
      (legFind v l = none → Effect .paramDescriptor s fun u => u.audio = v.audio ∧ counts v u l 11) ∧
      (∀ x, legFind v l = some x → descWf x.group d = true → applyNear v d = true → v.audio.pend.length < 1024 →
        Effect .paramDescriptor s fun u => u.audio = { v.audio with pend := v.audio.pend ++
          [{ time := if fld d 0 8 = 0 ∨ sampleAt (fld d 0 8) < 48 * nextBlock v then nextBlock v * 1000000 else fld d 0 8,
             leg := l, data := d, came := v.now }] })) ∧
    (regF s uAUDIO 0 0x004 31 31 = 0 → fails .paramDescriptor) ∧
    (∀ (pre post : List (List MixSample)) (own : List MixSample) (m : MixSample) (k : Nat), own[k]? = some m → k < 48 →
      m.n % 48 = k → m.p.receive = true → m.p.contribute = true → m.p.listens = [] → m.p.muteOut = false →
      m.p.outGain = 65536 → outValue s b (sumOf (pre ++ [own] ++ post)) m = (sumOf (pre ++ post)).getD k 0) ∧
    ∀ (xs : List MixSample) (n gain : Nat), gain ≤ 2 ^ 23 → ∀ (i : Nat) (m : MixSample) (e : Nat × Nat × Int × Bool),
      xs[i]? = some m → (limitRun n xs gain).1[i]? = some e → e.1 = m.n ∧ e.2.2.1.natAbs ≤ m.p.limit ∧
        (e.2.2.2 = false → e.2.2.1 = m.v)

/-- The leg commands (R366, R367, R374 to R377, R383): LEG_ADD puts a leg in its group from the next block, its counters 0; LEG_REMOVE
ends it there and discards its frames in IN_Q; LEG_PARAM queues a descriptor, before the queue's of the same cycle (R369);
LEG_STATS answers its counters; LEG_KEY_SET fills its key slot; each refuses
a leg that is not there; and CLEAR_ALL zeroes the counters. -/
def Sys2Proof.Machine.Claims.LegCommands : Prop :=
  ∀ (s : State) (r : Request) (x : Leg),
    let p := r.params
    let l := fld p 0 2
    let here := fun (k : Nat) => legFind s k = some x ∧ isRunning s (bridgeObj x.group) = true
    (Addressed r uAUDIO 0 →
      (p.length = 16 → l < 4096 → fld p 2 2 < 512 → fld p 4 1 < 4 → fld p 5 1 < 4 → fld p 6 1 < 5 → fld p 7 1 < 4 →
        fld p 8 4 ≤ 200000 → (fld p 4 1 = 1 ∨ fld p 4 1 = 2 → 1000 ≤ fld p 8 4) → rsv p 12 4 = true →
        isRunning s (bridgeObj (fld p 2 2)) = true →
        (legFind s l = none → (legsOf s (fld p 2 2)).length < fld (bridgeBody s (fld p 2 2)) 2 2 →
          (∀ e ∈ s.audio.legs, ∀ k, k = 1 ∨ k = 2 → fld p 4 1 = k ∨ fld p 5 1 = k → e.2.source ≠ k ∧ e.2.sink ≠ k) →
          Effect (.legAdd r) s fun u => ∃ w y, u = reply 0x0440 r 0 (leBytes 8 (nextBlock s * 1000000)) w ∧
            legFind w l = some y ∧ y.group = fld p 2 2 ∧ y.source = fld p 4 1 ∧ y.sink = fld p 5 1 ∧
            y.frame = [48, 120, 240, 480, 960].getD (fld p 6 1) 0 ∧ y.start = nextBlock s ∧ y.stopAt = none ∧
            y.p.contribute = bit (fld p 7 1) 0 ∧ y.p.receive = bit (fld p 7 1) 1 ∧ y.p.playout = fld p 8 4 ∧
            (∀ k, k < 16 → cntGet w (cntKey uAUDIO l k) = 0) ∧ (∀ k, k ≠ l → legFind w k = legFind s k) ∧
            { w with audio := { w.audio with legs := s.audio.legs }, counters := s.counters } = s) ∧
        (legFind s l ≠ none → Replies (.legAdd r) s 0x0440 r 0x0401 [] s)) ∧
      (p.length = 8 → l < 4096 → rsv p 2 6 = true →
        (here l →
          let q := fld (bridgeBody s x.group) 4 2
          (Effect (.legRemove r) s fun u => ∃ w, u = reply 0x0441 r 0
              (leBytes 4 ((queue s q).items.countP fun h => fld (packetBytes s h) 8 2 == l)) w ∧
            legFind w l = some { x with stopAt := some (nextBlock s) } ∧ (∀ k, k ≠ l → legFind w k = legFind s k) ∧
            (∀ e ∈ w.audio.pend, e.leg ≠ l) ∧ spFind w.keys (131072 + 2 * l) = none ∧
            spFind w.keys (131073 + 2 * l) = none ∧
            (queue w q).items = (queue s q).items.filter (fun h => fld (packetBytes s h) 8 2 != l) ∧
            (∀ h ∈ (queue s q).items, fld (packetBytes s h) 8 2 = l → pkt w h = none) ∧
            { w with audio := s.audio, keys := s.keys, spool := s.spool } = s) ∧
          ∃ res, Replies (.legStats r) s 0x0443 r 0 res s ∧ res.length = 64 ∧
            ∀ k, k < 16 → fld res (4 * k) 4 = cntGet s (cntKey uAUDIO l k) % 2 ^ 32) ∧
        (legFind s l = none → Replies (.legRemove r) s 0x0441 r 0x0402 [] s ∧ Replies (.legStats r) s 0x0443 r 0x0402 [] s)) ∧
      (here (fld p 8 2) → descWf x.group p = true → applyNear s p = true →
        (s.audio.pend.length < 1024 → Effect (.legParam r) s fun u => ∃ w, u = reply 0x0442 r 0 [] w ∧
          let after := fun (e : ParamPend) => !e.cmd && e.came == s.now
          w.audio = { s.audio with pend := s.audio.pend.filter (fun e => !after e) ++
            { time := if fld p 0 8 = 0 ∨ sampleAt (fld p 0 8) < 48 * nextBlock s then nextBlock s * 1000000 else fld p 0 8,
              leg := fld p 8 2, data := p, came := s.now, cmd := true } :: s.audio.pend.filter after } ∧ { w with audio := s.audio, counters := s.counters } = s) ∧
        (1024 ≤ s.audio.pend.length → Replies (.legParam r) s 0x0442 r 0x0016 [] s)) ∧
      (r.transport = .pcie → p.length = 56 → l < 4096 → fld p 2 1 < 2 → fld p 3 1 = 0x10 ∨ fld p 3 1 = 0x11 →
        rsv p 4 4 = true → rsv p 52 4 = true → here l →
        let k := 131072 + 2 * l + fld p 2 1
        Effect (.legKeySet r) s fun u => ∃ w, u = reply 0x0444 r 0 (leBytes 4 k) w ∧
          spFind w.keys k = some { first := sub p 8 (if fld p 3 1 = 0x10 then 16 else 32), second := sub p 40 12 } ∧
          (∀ j, j ≠ k → spFind w.keys j = spFind s.keys j) ∧ { w with keys := s.keys } = s)) ∧
    (r.transport ≠ .pcie → r.reserved = false → Replies (.legKeySet r) s 0x0444 r 0x0023 [] s) ∧
    Effect .audioClearAll s fun u => (∀ i k, i < 0x10000000 → k < 16 → cntGet u (cntKey uAUDIO i k) = 0) ∧
      { u with counters := s.counters } = s

/-- The headset ports (R378 to R380, R382): an insertion stable for INSERT_MS starts detection, the load and microphone resistances
classify the accessory 15 ms later, a removal stable for REMOVE_MS clears the plug and mutes, and a button reads after its reading has been stable for BUTTON_MS. -/
def Sys2Proof.Machine.Claims.HeadsetPorts : Prop :=
  ∀ (s : State) (n : Fin 2) (stable : BitVec 16) (t r1 short onS onR2 ohms : BitVec 32),
    let plug := fun (u : State) (hi lo : Nat) => regF u uHSP n 0x000 hi lo
    let detect := Instr.accessoryDetection n t r1 short onS onR2
    let fails := fun (i : Instr) => Effect i s fun u => u = s
    let ears := 8 ≤ t.toNat ∧ t.toNat ≤ 600 ∧ 8 ≤ r1.toNat ∧ r1.toNat ≤ 600
    let mic := fun (v : BitVec 32) => 600 ≤ v.toNat ∧ v.toNat ≤ 5000
    let becomes := fun (k : Nat) => Effect detect s fun u => plug u 30 28 = k ∧ plug u 31 31 = plug s 31 31 ∧ u.hsp = s.hsp
    let inMs := regF s uHSP n 0x008 31 24
    let outMs := regF s uHSP n 0x008 23 16
    (plug s 31 31 = 0 → inMs ≤ stable.toNat → awake s (some 24) = true → Effect (.hspInsertion ⟨n, stable⟩) s fun u => plug u 31 31 = 1 ∧
      plug u 30 28 = 6 ∧ regF u uHSP n 0x00C 0 0 = 1 ∧ (hsp u n).inserted = some s.now ∧
      { u with regs := s.regs, hsp := s.hsp } = s) ∧
    (plug s 31 31 = 1 ∨ stable.toNat < inMs → fails (.hspInsertion ⟨n, stable⟩)) ∧
    (∀ at_, (hsp s n).inserted = some at_ → plug s 30 28 = 6 →
      (s.now < at_ + 15000000 → fails detect) ∧
      (at_ + 15000000 ≤ s.now →
        (ears → short.toNat < 10 → becomes 1) ∧
        (ears → 10 ≤ short.toNat → mic onS → becomes 2) ∧
        (ears → 10 ≤ short.toNat → ¬ mic onS → mic onR2 → becomes 3) ∧
        (ears → 10 ≤ short.toNat → ¬ mic onS → ¬ mic onR2 → becomes 5) ∧
        (5000 < t.toNat → 5000 < r1.toNat → becomes 4) ∧
        (t.toNat < 4 → Effect detect s fun u => plug u 30 28 = 5 ∧ regF u uHSP n 0x004 1 1 = 1 ∧
          regF u uHSP n 0x00C 3 3 = 1))) ∧
    ((hsp s n).inserted = none → fails detect) ∧
    (plug s 31 31 = 1 → outMs ≤ stable.toNat → Effect (.hspRemoval ⟨n, stable⟩) s fun u => plug u 31 16 = 0 ∧ regF u uHSP n 0x004 1 0 = 3 ∧
      regF u uHSP n 0x00C 1 1 = 1 ∧ hsp u n = {}) ∧
    (plug s 31 31 = 0 ∨ stable.toNat < outMs → fails (.hspRemoval ⟨n, stable⟩)) ∧
    (plug s 30 28 = 2 ∨ plug s 30 28 = 3 → regF s uHSP n 0x004 4 4 = 1 →
      let k := buttonOf ohms.toNat
      (k ≠ (hsp s n).reading → Effect (.micMeasurement n ohms) s fun u => (hsp u n).reading = k ∧ (hsp u n).since = s.now ∧
        plug u 15 0 = min 0xFFFF ohms.toNat ∧ plug u 19 16 = plug s 19 16) ∧
      (k = (hsp s n).reading → (hsp s n).since + regF s uHSP n 0x008 15 8 * 1000000 ≤ s.now → awake s (some 24) = true →
        Effect (.micMeasurement n ohms) s fun u => plug u 19 16 = (if k = 0 then 0 else 2 ^ (k - 1)) ∧
          plug u 15 0 = min 0xFFFF ohms.toNat)) ∧
    (regF s uHSP n 0x004 4 4 = 0 → fails (.micMeasurement n ohms))

/-- The leg commands and the headset ports. -/
def Obligations.LegsAndHeadsetPorts : Prop :=
  Claims.LegCommands ∧ Claims.HeadsetPorts

/-! ### Video bridge and forwarder (11_video_bridge.md) -/

/-- Video sessions (R385, R387, R389 to R392, R397 to R400): a session runs from a frame boundary and stops when its picture in
progress is done; an access unit is taken and decoded, late or in time, and one that does not decode cleanly is counted; an encoder takes the newest picture of its source; ST 2110 packets build a picture that
becomes eligible after its delay, and a picture is sent. -/
def Obligations.VideoSessions : Prop :=
  ∀ (s : State) (k : Fin 4096) (o : Object) (port : Fin 48) (seq : BitVec 16) (ts ssrc : BitVec 32) (pt : BitVec 7)
    (segs : List (Fin 4096 × Fin 16384 × List (BitVec 8))) (p : Picture), objFind s (videoObj k) = some o →
    let b := o.body
    let now := shortNow s
    let x := videoRun s k
    let e := x.engine.getD 0
    let fails := fun (i : Instr) => Effect i s fun u => u = s
    let packet := Instr.st2110Packet k port seq ts ssrc pt segs
    let only := fun (u : State) => { u with video := s.video } = s
    let keeps := fun (n : Nat) (ps : List Picture) => ps.drop (ps.length - n)
    (o.st = some .starting →
      (boundaryFrom (vRate b) (x.admitted + 2000000) ≤ now → Effect (.videoSessionRunning k) s fun u =>
        (∃ y, objFind u (videoObj k) = some y ∧ y.st = some .running ∧ y.body = b) ∧ u.video = s.video) ∧
      (now < boundaryFrom (vRate b) (x.admitted + 2000000) → fails (.videoSessionRunning k))) ∧
    (o.st = some .stopping →
      (x.decoding = [] → x.rx = [] → (vKind b = 1 ∨ vKind b = 3 → x.stopAt ≤ now) → Effect (.videoSessionStopped k) s fun u =>
        (∃ y, objFind u (videoObj k) = some y ∧ y.st = some .stopped ∧ y.cost = 0 ∧ y.pool = 0) ∧ videoRun u k = {}) ∧
      (x.decoding ≠ [] ∨ x.rx ≠ [] ∨ ((vKind b = 1 ∨ vKind b = 3) ∧ now < x.stopAt) → fails (.videoSessionStopped k))) ∧
    (o.st = some .running → vKind b = 0 → ∀ d v,
      takePacket (unitInit uVIDEO ((videoRun s k).engine.getD 0)) (fld b 8 2) s = (some d, v) →
      (d.length < 16 ∨ fld d 8 2 ≠ k.val → Effect (.accessUnit k) s fun u => u = v) ∧
      (16 ≤ d.length → fld d 8 2 = k.val → fld d 10 1 < 4 → rsv d 11 5 = true →
        bit (fld d 10 1) 1 = true ∨ Config.decodesCleanly (vCodec b) (d.drop 16) = false → Effect (.accessUnit k) s fun u =>
          let n := (videoRun v k).engine.getD 0
          regF u uVIDEO n 0x004 31 16 = min 0xFFFF (regF v uVIDEO n 0x004 31 16 + 1) ∧
          (videoRun u k).damaged = true ∧ (videoRun u k).decoding.length = (videoRun v k).decoding.length + 1) ∧
      (16 ≤ d.length → fld d 8 2 = k.val → fld d 10 1 < 2 → rsv d 11 5 = true →
        Config.decodesCleanly (vCodec b) (d.drop 16) = true → Effect (.accessUnit k) s fun u => { u with video := v.video } = v ∧
          ∃ y, (videoRun u k).decoding = (videoRun v k).decoding ++ [y] ∧ y.time = fld d 0 8 ∧
            y.elig = fld d 0 8 + vDelay b ∧ (bit (fld d 10 1) 0 = true → y.damaged = false))) ∧
    (o.st = some .running → vKind b ≠ 0 → fails (.accessUnit k)) ∧
    (vKind b = 0 → o.st = some .running → ∀ q, x.decoding = p :: q →
      (now ≤ p.elig → Effect (.pictureDecode k) s fun u => only u ∧
        videoRun u k = { x with decoding := q, pictures := keeps 6 (x.pictures ++ [p]) }) ∧
      (p.elig < now → Effect (.pictureDecode k) s fun u =>
        videoRun u k = { x with decoding := q, pictures := keeps 6 (x.pictures ++ [{ p with elig := now }]) } ∧
        regF u uVIDEO e 0x004 15 0 = min 0xFFFF (regF s uVIDEO e 0x004 15 0 + 1))) ∧
    (x.decoding = [] → fails (.pictureDecode k)) ∧
    (vKind b = 1 → o.st = some .running →
      (sourcePicture s (vSource b) x.lastTime = some p → Effect (.pictureEncode k) s fun u =>
        (videoRun u k).frame = x.frame + 1 ∧ (videoRun u k).wantKey = false ∧ (videoRun u k).lastTime = some p.time ∧
        (videoRun u k).lastKey = (if x.wantKey = true ∨ x.lastKey.all (fun t => t + fld b 15 1 * second ≤ p.time) = true
          then some p.time else x.lastKey)) ∧
      (sourcePicture s (vSource b) x.lastTime = none → fails (.pictureEncode k))) ∧
    (vKind b = 2 → o.st = some .running →
      (port.val = fld b 32 1 → pt.toNat = fld b 34 1 → fld b 40 4 = 0 ∨ fld b 40 4 = ssrc.toNat → seq.toNat ∉ x.seqs →
        let t := rtpTime now ts.toNat
        (now < t + vDelay b → (∀ y ∈ x.pictures, y.time ≠ t) → x.rx = [] → Effect packet s fun u => only u ∧ ∃ y,
          (videoRun u k).rx = [y] ∧ y.time = t ∧ (videoRun u k).seqs.head? = some seq.toNat ∧
          (∀ g, segs = [g] → spFind y.parts (g.1.val * 16384 + g.2.1.val) = some g.2.2)) ∧
        (t + vDelay b ≤ now → Effect packet s fun u => only u ∧ (videoRun u k).rx = x.rx)) ∧
      (pt.toNat ≠ fld b 34 1 ∨ seq.toNat ∈ x.seqs → fails packet) ∧
      (∀ y q, x.rx = y :: q →
        (y.time + vDelay b ≤ now → Effect (.st2110PictureEligible k) s fun u => (videoRun u k).rx = q ∧
          ∃ z, (videoRun u k).pictures.getLast? = some z ∧ z.time = y.time ∧ z.elig = y.time + vDelay b ∧
            ((∀ n, n < vHeight b → vWidth b * 5 / 2 ≤ rxLineBytes y n) → only u)) ∧
        (now < y.time + vDelay b → fails (.st2110PictureEligible k)))) ∧
    (vKind b = 3 → o.st = some .running →
      (sourcePicture s (vSource b) x.lastTime = some p → NoLaunch s → Effect (.tx2110Picture k) s fun u =>
        videoRun u k = { x with lastTime := some p.time } ∧ ∃ d, u.out = s.out ++ [.eth (fld b 32 1) "st2110" d]) ∧
      (sourcePicture s (vSource b) x.lastTime = none → fails (.tx2110Picture k)))

/-- The compositor (R393 to R396, R414): a frame is composed once at its boundary and eligible one frame later, a replacement takes
effect at its time, those of later times waiting on, LAYOUT_SET holds one until then, and LAYOUT_GET answers the layout in
force. That LAYOUT_SET needs no Cox time is the model's choice (log 117). -/
def Sys2Proof.Machine.Claims.ComposedLayouts : Prop :=
  ∀ (s : State) (r : Request) (k : Fin 8) (l next : Bytes) (t : Nat) (rest : List (Bytes × Nat)),
    let x := layoutRun s k
    let b := boundaryAt (layRate l) (shortNow s)
    let compose := Instr.composeFrame k
    (s.cox.st ≠ .unset → x.cur = l → l ≠ [] → x.waiting = [] →
      (layTiles l ≠ 0 → (∀ m, x.last = some m → m < b) → Effect compose s fun u =>
        (layoutRun u k).last = some b ∧ (layoutRun u k).cur = l ∧ { u with video := s.video, regs := s.regs } = s ∧
        ∃ y, (layoutRun u k).outs.getLast? = some y ∧ y.time = b ∧ y.elig = b + framePeriod (layRate l)) ∧
      (∀ m, x.last = some m → b ≤ m → Effect compose s fun u => layoutRun u k = x ∧ { u with video := s.video } = s)) ∧
    (s.cox.st ≠ .unset → x.cur = l → x.waiting = (next, t) :: rest → next ≠ [] →
      (∀ e ∈ rest, boundaryAt (layRate e.1) (shortNow s) < e.2) →
      let c := boundaryAt (layRate next) (shortNow s)
      t ≤ c → (∀ m, x.last = some m → m < c) → Effect compose s fun u =>
        (layoutRun u k).cur = next ∧ (layoutRun u k).waiting = rest) ∧
    (s.cox.st = .unset → Effect compose s fun u => u = s) ∧
    (Addressed r uCOMPOSE 0 → fld r.params 0 1 = k.val →
      (24 ≤ r.params.length → r.params.length = 24 + 24 * layTiles r.params → layoutOk r.params = true →
        (∀ e ∈ activeVideo s, vSource e.2 ≠ 0x8000 + k) →
        let units := sumL ((s.video.layouts.filter (·.1 != k.val)).map fun e => layoutMost e.2) +
          layoutUnits r.params
        let from_ := nextFrame s x (layRate r.params) (fld r.params 16 8)
        (units ≤ 128 → Effect (.layoutSet r) s fun u => ∃ w, u = reply 0x0450 r 0 (leBytes 8 from_) w ∧
          layoutRun w k = { x with
            waiting := x.waiting.filter (·.2 ≤ from_) ++ (r.params, from_) :: x.waiting.filter fun e => from_ < e.2 } ∧
          { w with video := s.video } = s) ∧
        (128 < units → Replies (.layoutSet r) s 0x0450 r 0x0018 [] s)) ∧
      (r.params.length = 8 → rsv r.params 1 7 = true → Replies (.layoutGet r) s 0x0451 r 0
        (if x.cur = [] then leBytes 24 k else x.cur) s))

/-- The forwarder's commands (R403, R405, R414 to R416). -/
def Sys2Proof.Machine.Claims.ForwarderLegCommands : Prop :=
  ∀ (s : State) (r : Request),
    let p := r.params
    let l := fld p 0 2
    let others := fun (w : State) => ∀ k, k ≠ l → fwdLeg w k = fwdLeg s k
    (Addressed r uFWD 0 →
      (p.length = 128 → fwdLegOk p = true → bit (fld p 7 1) 2 = false ∨ r.transport = .pcie →
        s.video.fwd.legs.length < 4096 →
        (fwdLeg s l = none → Effect (.fwdLegAdd r) s fun u => ∃ w y, u = reply 0x0452 r 0 (leBytes 8 (shortNow s)) w ∧
          fwdLeg w l = some y ∧ y.body = p.take 80 ∧ y.seq = fld p 20 2 ∧ y.started = false ∧ others w ∧
          y.budget = (if fld p 4 1 = 1 then fld p 44 4 else 0) ∧ (∀ k, k < 16 → cntGet w (cntKey uFWD l k) = 0) ∧
          (bit (fld p 7 1) 2 = true → ∃ z, spFind w.keys (139264 + l) = some z ∧ z.second = sub p 112 12 ∧
            z.first = sub p 80 (if bit (fld p 7 1) 3 then 32 else 16))) ∧
        (fwdLeg s l ≠ none → Replies (.fwdLegAdd r) s 0x0452 r 0x0405 [] s)) ∧
      (p.length = 8 → l < 4096 → rsv p 2 6 = true →
        (fwdLeg s l ≠ none →
          (Effect (.fwdLegRemove r) s fun u => ∃ w,
            u = reply 0x0453 r 0 (leBytes 4 (cntGet s (cntKey uFWD l 0))) w ∧ fwdLeg w l = none ∧ others w ∧
            spFind w.keys (139264 + l) = none ∧ { w with video := s.video, keys := s.keys } = s) ∧
          ∃ res, Replies (.fwdLegStats r) s 0x0454 r 0 res s ∧ res.length = 48 ∧
            ∀ k, k < 12 → fld res (4 * k) 4 = cntGet s (cntKey uFWD l k) % 2 ^ 32) ∧
        (fwdLeg s l = none → Replies (.fwdLegRemove r) s 0x0453 r 0x0406 [] s ∧
          Replies (.fwdLegStats r) s 0x0454 r 0x0406 [] s))) ∧
    (bit (fld p 7 1) 2 = true → r.transport ≠ .pcie → r.reserved = false → Replies (.fwdLegAdd r) s 0x0452 r 0x0023 [] s) ∧
    Effect .fwdClearAll s fun u => (∀ i k, i < 0x10000000 → k < 16 → cntGet u (cntKey uFWD i k) = 0) ∧
      { u with counters := s.counters } = s

/-- The compositor's frames and layouts, and the forwarder's leg commands. -/
def Obligations.LayoutsAndForwarderCommands : Prop :=
  Claims.ComposedLayouts ∧ Claims.ForwarderLegCommands

/-- The layered forwarder (R401 to R413): the packets of a new frame wait until its selection can be decided, those of a selected
layer are held and sent by a leg's port, rates are measured over the last second, records and feedback set budgets, a leg without records falls back to the base layer, a held target is adopted
and a key picture asked for, and held packets expire. -/
def Obligations.LayeredForwarding : Prop :=
  ∀ (s : State) (n : Fin 512) (l : Fin 4096) (c : Fin 64) (device : BitVec 12) (rec : List (BitVec 8)) (x : FwdLeg),
    let counts := fun (w u : State) (k m : Nat) => regF s uFWD 0 0x010 1 1 = 0 →
      cntGet u (cntKey uFWD l k) = min 0xFFFFFFFF (cntGet w (cntKey uFWD l k) + m)
    let fails := fun (i : Instr) => Effect i s fun u => u = s
    let target := fun (u : State) (P : FwdLeg → Prop) => ∃ y, fwdLeg u l = some y ∧ P y
    let taken := fun (u : State) (d : Bytes) (now : Nat) => target u fun y => y.lastRec = s.now ∧ y.stale = false ∧
      (let budget := (if flFlag x 0 then fld d 16 4 else fld d 12 4) * fld x.body 14 1 / 100
       (x.stale = false → now < fld d 0 8 → y = { x with
         recs := [{ time := fld d 0 8, budget := budget, flags := fld d 11 1 }], lastRec := s.now, stale := false }) ∧
       (fld d 0 8 ≤ now → y.budget = budget ∧ y.recs = [] ∧ y.suspect = bit (fld d 11 1) 1))
    let named := fun (d : Bytes) (dev : Nat) => flIp x = false ∧ fld x.body 24 2 = dev ∧ fld x.body 26 1 = fld d 10 1 ∧
      fld x.body 22 2 = fld d 8 2
    (∀ d v, takePacket (unitInit uFWD 0) (streamQueue s n) s = (some d, v) →
      let len := fld d 14 2
      let a := fld d 12 1 % 4
      let t := fld d 12 1 / 4
      (len < 1 ∨ 1200 < len ∨ d.length ≠ 32 + len → Effect (.streamPacket n) s fun u => u = fwdAdvance v) ∧
      (d.length = 32 + len → fld d 8 2 = n.val → a < 3 → t < 3 → fld d 13 1 < 8 → 1 ≤ len → len ≤ 1200 → fld d 16 2 = 0 →
        shortNow v ≤ fld d 0 8 → Effect (.streamPacket n) s fun u =>
          (fwdStream u n).window = (fwdStream v n).window ++ [(v.now, 8 * (len + 40), a, t)] ∧
          (v.video.fwd.legs = [(l.val, x)] → flStream x = n.val → x.recs = [] → x.waiting = [] → x.frame ≠ some (fld d 10 2) →
            a < keyLayer false x → bit (fld d 13 1) 0 = false → u.out = v.out ∧
              target u fun y => y = { x with frame := some (fld d 10 2), waiting := [(v.now, d)] }) ∧
          (v.video.fwd.legs = [(l.val, x)] → flStream x = n.val → x.recs = [] → x.held = [] → x.waiting = [] →
            x.started = true → x.paused = false → x.suspended = false → x.broken = false → x.dropping = false →
            x.frame = some (fld d 10 2) →
            ((x.cur.1 < a ∨ x.cur.2 < t → target u (fun y => y = x) ∧ u.out = v.out ∧ counts v u 1 1) ∧
            (a ≤ x.cur.1 → t ≤ x.cur.2 → bit (fld d 13 1) 0 = false → u.out = v.out ∧
              target u fun y => y = { x with held := [(fld d 10 2, v.now, d)] }) ∧
            (a ≤ x.cur.1 → t ≤ x.cur.2 → bit (fld d 13 1) 0 = true → flIp x = true → regF v uETH (fld x.body 27 1) 0x004 31 31 = 1 →
              NoLaunch v →
              (target u fun y => y =
                { x with seq := (x.seq + 1) % 65536, roc := (x.roc + (x.seq + 1) / 65536) % 2 ^ 32 }) ∧
              (∃ e, u.out = v.out ++ [.eth (fld x.body 27 1) "rtp" e]) ∧ counts v u 0 1))))) ∧
    (s.video.fwd.measuredAt + 10000000 ≤ s.now → Effect .layerRateMeasure s fun u => u.video.fwd.measuredAt = s.now ∧
      (let w := (fwdStream s n).window.filter fun p => s.now < p.1 + second
       (fwdStream u n).window = w ∧ ((fwdStream s n).simulcast = false → ∀ a t, a < 3 → t < 3 →
        spGet 0 (fwdStream u n).rates (4 * a + t) =
          sumL ((w.filter fun p => p.2.2.1 ≤ a && p.2.2.2 ≤ t).map (·.2.1)) / 1000))) ∧
    (s.now < s.video.fwd.measuredAt + 10000000 → fails .layerRateMeasure) ∧
    (∀ i b d v, carrierIn s c .running = some (i, b) → carFlag b 1 = true →
      takePacket (unitInit uFWD 0) (fld b 54 2) s = (some d, v) →
      (v.video.fwd.legs = [] → v.video.fwd.subs = [] → Effect (.forecastRecord c) s fun u => u = v) ∧
      (v.video.fwd.legs = [(l.val, x)] → x.recs = [] → named d (deviceId v) →
        Effect (.forecastRecord c) s fun u => taken u d (shortNow v) ∧ counts v u 7 1)) ∧
    (s.video.fwd.legs = [(l.val, x)] → x.recs = [] → rec.length = 32 → named rec device.toNat →
      Effect (.forecastRelay device rec) s fun u => taken u rec (shortNow s) ∧ counts s u 7 1) ∧
    (fwdLeg s l = some x →
      (flIp x = false → x.stale = false →
        (x.lastRec + fld x.body 12 2 * 1000000 ≤ s.now → Effect (.forecastStale l) s fun u => counts s u 6 1 ∧
          target u fun y => y.stale = true ∧ y.tgt = (0, 0)) ∧
        (s.now < x.lastRec + fld x.body 12 2 * 1000000 → fails (.forecastStale l))) ∧
      (flIp x = true → fails (.forecastStale l)) ∧
      (∀ t since, x.cand = some (t, since) →
        (since + fld x.body 8 2 * 1000000 ≤ s.now → Effect (.upHoldExpiry l) s fun u =>
          target u (fun y => y.tgt = t ∧ y.cand = none ∧ y.cur = x.cur) ∧ { u with video := s.video } = s) ∧
        (s.now < since + fld x.body 8 2 * 1000000 → fails (.upHoldExpiry l))) ∧
      let layered := (fwdStream s (flStream x)).simulcast = false
      (x.cur.1 < x.tgt.1 ∨ (¬ layered ∧ x.tgt.1 < x.cur.1) → x.asked = false → x.adoptAt + fld x.body 10 2 * 1000000 ≤ s.now →
        Effect (.keyRequest l) s fun u => (target u fun y => y = { x with asked := true }) ∧ counts s u 5 1 ∧
          ∀ k, encoderOf s (flStream x) = some k → (fwdStream s (flStream x)).lastReq = none →
            (videoRun u k).wantKey = true ∧ (fwdStream u (flStream x)).lastReq = some s.now) ∧
      (x.tgt.1 = x.cur.1 ∨ (layered ∧ x.tgt.1 < x.cur.1) ∨ x.asked = true → fails (.keyRequest l)) ∧
      (regF s uFWD 0 0x004 31 31 = 1 → ∀ d v, takePacket (unitInit uFWD 0) (regF s uFWD 0 0x004 15 0) s = (some d, v) →
        let loss := fld d 10 1
        let b1 := if 25 < loss then x.budget - x.budget * loss / 512
          else if loss < 5 then x.budget + x.budget * 8 / 100 else x.budget
        let b2 := if bit (fld d 11 1) 0 then min (fld d 12 4) b1 else b1
        fld d 8 2 = l.val → fwdLeg v l = some x → Effect .feedbackRecord s fun u => counts v u 8 1 ∧
          target u fun y => y.budget = (if flIp x then max (fld x.body 36 4) (min (fld x.body 40 4) b2) else x.budget))) ∧
    (regF s uFWD 0 0x004 31 31 = 0 → fails .feedbackRecord) ∧
    (s.video.fwd.legs = [(l.val, x)] → flStream x = n.val →
      let old := fun (at_ : Nat) => at_ + 200000000 ≤ s.now
      ((∃ e ∈ x.held, old e.2.1) ∨ (∃ e ∈ x.waiting, old e.1) → Effect (.streamPacketExpiry n) s fun u =>
        (target u fun y => y = { x with held := x.held.filter fun e => ¬ old e.2.1, waiting := x.waiting.filter fun e => ¬ old e.1 }) ∧
        counts s u 2 (x.held.countP (fun e => old e.2.1) + x.waiting.countP fun e => old e.1)) ∧
      ((∀ e ∈ x.held, ¬ old e.2.1) → (∀ e ∈ x.waiting, ¬ old e.1) → fails (.streamPacketExpiry n)))

/-! ### Time (12_cox_time.md; 20_electrical.md, R662) -/

/-- References and time states (R417 to R445): a Sync from the port's parent notes its origin and arrival, and sets the time while
it is UNSET; a Delay_Resp from it gives the mean path delay and makes its port valid while Sync is recent; a master port sends,
a one-step Sync 10 µs ahead; Announce, PPS edges and their absence keep their records; a better reference is promoted after 10 s and holdover ends in FREERUN; a strobe is asserted at its boundary and at no
other time. -/
def Obligations.ReferencesAndStrobes : Prop :=
  ∀ (s : State) (p : Fin 16) (domain : BitVec 8) (sender : BitVec 80) (t1 t4 corr : Int) (a : Announce) (n : Fin 4)
    (ref : Fin 20) (st : Strobe),
    let x := ptpPort s p
    let q := ppsIn s n
    let e := portEntry s p
    let fails := fun (i : Instr) => Effect i s fun u => u = s
    let sync := Instr.ptpSync p ⟨domain, sender, t1⟩ corr
    let resp := Instr.delayResp p ⟨domain, sender, t4⟩ corr
    let ours := domain.toNat = ptpDomain s ∧ ∃ m, x.parent = some m ∧ m.sender = sender
    let ts := coxFine s - ppsDelay s n * 256
    let streak := if q.fresh = true ∧ s.now < q.lastAt + 1500000000 ∧ (ts - q.base - 65536 * 1000000000).natAbs ≤ 6553600000
      then q.streak + 1 else 1
    (portRuns s p = true → x.st = 9 → refLost s p = false →
      (¬ ours → fails sync ∧ fails resp) ∧
      (ours → s.cox.st ≠ .unset → Effect sync s fun u => let y := ptpPort u p
        y.sync = some (t1 + corr, coxFine s - portAdj s p true) ∧ y.syncAt = s.now ∧ y.valid = x.valid ∧
        (∀ j, j ≠ p.val → ptpPort u j = ptpPort s j) ∧ { u with cox := { u.cox with ports := s.cox.ports } } = s) ∧
      (ours → s.cox.st = .unset → s.cox.osc = true → s.cox.epochSet = false → Effect sync s fun u =>
        u.coxCount = ((t1 + corr + portAdj s p true) * 2 ^ 32).toNat ∧ u.cox.st = .locking ∧ u.cox.ref = p.val ∧
        u.cox.epochSet = true ∧ ∃ ev, ev ∈ u.evq ∧ ev.code = 0x0302) ∧
      (∀ o t2 t3, ours → x.sync = some (o, t2) → x.t3 = some t3 → Effect resp s fun u => let y := ptpPort u p
        y.meanPathDelay = (t2 - o + (t4 - t3 - corr)) / 2 ∧ y.t3 = none ∧ y.respAt = s.now ∧
        y.valid = (x.valid || decide (s.now ≤ x.syncAt + 3 * logNs (fld e 4 1)))) ∧
      (x.t3 = none → fails resp) ∧
      (x.syncAt + 3 * logNs (fld e 4 1) < s.now → Effect (.ptpTimeout p .sync) s fun u => (ptpPort u p).valid = false) ∧
      (s.now ≤ x.syncAt + 3 * logNs (fld e 4 1) → fails (.ptpTimeout p .sync)) ∧
      (fld e 0 1 = 0 → portLinkUp s p = true → NoLaunch s → Effect (.ptpMessageSend p .delay) s fun u =>
        u.out = s.out ++ [.eth (fld e 1 1) "delay_req" []] ∧ (ptpPort u p).t3 = some (coxFine s + portAdj s p false)) ∧
      fails (.ptpMessageSend p .sync)) ∧
    (portRuns s p = true → x.st = 6 →
      (portFlag s p 2 = true → Effect (.ptpMessageSend p .sync) s fun u => (∃ d, u.cox.launches = s.cox.launches ++
          [{ bupex := fld e 0 1 == 1, inst := fld e 1 1, port := p, at_ := shortNow s + 10000, data := d }]) ∧
        { u with cox := { u.cox with launches := s.cox.launches } } = s) ∧
      (portFlag s p 2 = false → fld e 0 1 = 0 → portLinkUp s p = true → NoLaunch s → Effect (.ptpMessageSend p .sync) s fun u =>
        ∃ d d', u.out = s.out ++ [.eth (fld e 1 1) "sync" d, .eth (fld e 1 1) "follow_up" d']) ∧
      (fld e 0 1 = 0 → portLinkUp s p = true → NoLaunch s → fld (timeBody s) 1 1 ≠ 2 → Effect (.ptpMessageSend p .announce) s fun u =>
        ∃ d, u.out = s.out ++ [.eth (fld e 1 1) "announce" d])) ∧
    (portRuns s p = true → refLost s p = false → portFlag s p 0 = false →
      (a.domain.toNat = ptpDomain s → a.steps.toNat < 255 → a.sender.toNat / 2 ^ 16 ≠ Config.clockIdentity.toNat →
        Effect (.announce p a) s fun u =>
          (ptpPort u p).announceAt = s.now ∧ ∃ f ∈ (ptpPort u p).foreign, f.msg = a ∧ f.at_ = s.now) ∧
      (a.domain.toNat ≠ ptpDomain s → fails (.announce p a))) ∧
    (portRuns s p = false → fails sync ∧ fails resp ∧ fails (.announce p a) ∧
      ∀ m, fails (.ptpMessageSend p m) ∧ fails (.ptpTimeout p m)) ∧
    (refLost s (16 + n.val) = false → s.cox.nextPps = none → s.cox.st = .unset → Effect (.ppsEdge n) s fun u =>
      ppsIn u n = { q with streak := streak, ts := ts, base := ts, fresh := true, lastAt := s.now
                           valid := q.valid || decide (3 ≤ streak)
                           since := if q.valid then q.since else s.now } ∧
      regF u uCOX 0 (0x20C + 0x10 * n.val) 15 0 = min 0xFFFF (regF s uCOX 0 (0x20C + 0x10 * n.val) 15 0 + 1) ∧
      (∀ j, j ≠ n.val → ppsIn u j = ppsIn s j) ∧ u.coxCount = s.coxCount) ∧
    (refLost s (16 + n.val) = true → fails (.ppsEdge n)) ∧
    (q.fresh = true → q.lastAt + 1500000000 ≤ s.now → Effect (.ppsInputInvalid n) s fun u =>
      (ppsIn u n).valid = false ∧ (ppsIn u n).streak = 0 ∧ (ppsIn u n).fresh = false) ∧
    (s.now < q.lastAt + 1500000000 → fails (.ppsInputInvalid n)) ∧
    (s.cox.st ≠ .unset → s.cox.ref < 31 → refValid s ref = true → refRank s ref < refRank s s.cox.ref →
      (if ref.val < 16 then (ptpPort s ref).since else (ppsIn s (ref.val - 16)).since) + 10 * second ≤ s.now →
      Effect (.referencePromotion ref) s fun u => u.cox.ref = ref.val ∧ u.cox.st = s.cox.st ∧ u.coxCount = s.coxCount) ∧
    (refValid s ref = false → fails (.referencePromotion ref)) ∧
    (s.cox.st = .holdover → holdoverS s ≠ 0 → s.cox.holdSince + holdoverS s * second ≤ s.now →
      Effect .holdoverExpiry s fun u => u.cox.st = .freerun ∧ u.coxCount = s.coxCount) ∧
    (s.cox.st ≠ .holdover → fails .holdoverExpiry) ∧
    (strobeDue st s = true → Effect (.strobe st) s fun u => { u with out := s.out } = s ∧ ∃ name i, u.out = s.out ++
      .edge name i (shortNow s) :: match st with
        | .frame c => (carrierFind s c).toList.map fun k =>
            .sfn c (sfn k.1 k.2.body (((shortNow s : Int) - frame0 k.2.body).toNat / slotNs (carMu k.1 k.2.body)))
        | _ => []) ∧
    (strobeDue st s = false → fails (.strobe st)) ∧
    (strobeDue .second s = true ↔ s.cox.st ≠ .unset ∧ shortNow s % 1000000000 = 0)

/-- The time commands, the latches, and what a clock cycle does (R417, R420, R421, R428, R429, R443, R449, R662): TIME_SET sets the
counter or waits for its edge, TIME_ADJUST slews or steps, each refused while a reference is followed or time is unset;
the reads answer the counter as it stands; a cycle with no command waiting adds 1 ns and the correction to the counter, and
with nothing on its way in Weft and no write-back waiting leaves memory and the cores; while the device is held in reset only
time passes. -/
def Obligations.TimeCommandsAndCycles : Prop :=
  ∀ (s : State) (r : Request) (l : Long) (k n : Fin 4),
    let p := r.params
    let cox := Addressed r uCOX 0
    let d := toS 64 (fld p 8 8)
    let free := nextPpsLong s = none
    let followed := s.cox.st = .locking ∨ s.cox.st = .locked
    (cox → p.length = 16 → fld p 1 1 < 4 → fld p 2 2 = 0 → free →
      (fld p 0 1 = 0 → fld p 4 4 < second →
        (s.cox.st = .unset ∨ (s.cox.st ≠ .locking ∧ s.cox.st ≠ .locked ∧ anyCarrierRunning s = false) →
          Effect (.timeSet r) s fun u => ∃ w, u = reply 0x0540 r 0 (leBytes 8 (fld p 8 8 * second + fld p 4 4)) w ∧
            w.coxCount = (fld p 8 8 * second + fld p 4 4) * 2 ^ 48 ∧ w.cox.epochSet = true ∧ w.cox.st ≠ .unset) ∧
        (followed → Replies (.timeSet r) s 0x0540 r 0x0501 [] s)) ∧
      (fld p 0 1 = 1 → fld p 4 4 = 0 → LongRoom s r → s.cox.st = .unset → Accepts (.timeSet r) s 0x0540 r none true
        (fun w => { w with cox := { w.cox with nextPps := some (fld p 1 1, fld p 8 8, s.now) } }))) ∧
    (∀ i secs taken, s.cox.nextPps = some (i, secs, taken) → s.cmd.longs = [l] → l.opcode = 0x0540 →
      (taken + 2 * second ≤ s.now → Effect .ppsNoEdge s fun u =>
        u = completeLong l 0x0502 [] { s with cox := { s.cox with nextPps := none } }) ∧
      (s.now < taken + 2 * second → Effect .ppsNoEdge s fun u => u = s) ∧
      (i = n.val → taken < s.now → refLost s (16 + n.val) = false → s.cox.st = .unset → Effect (.ppsEdge n) s fun u =>
        u.cox.nextPps = none ∧ u.cmd.longs = [] ∧ u.cox.epochSet = true ∧ u.cox.st ≠ .unset)) ∧
    (cox → p.length = 16 → fld p 1 7 = 0 → free →
      (s.cox.st = .unset → fld p 0 1 < 2 → Replies (.timeAdjust r) s 0x0541 r 0x0030 [] s) ∧
      (followed → fld p 0 1 < 2 → Replies (.timeAdjust r) s 0x0541 r 0x0501 [] s) ∧
      (s.cox.st = .freerun ∨ s.cox.st = .holdover →
        (fld p 0 1 = 1 → Effect (.timeAdjust r) s fun u => ∃ w, u = reply 0x0541 r 0 (leBytes 8 (shortNow s)) w ∧
          w.cox.slew = s.cox.slew + d * 2 ^ 48 ∧ { w with cox := { w.cox with slew := s.cox.slew } } = s) ∧
        (fld p 0 1 = 0 → anyCarrierRunning s = false → Effect (.timeAdjust r) s fun u => ∃ w res, u = reply 0x0541 r 0 res w ∧
          w.coxCount = ((s.coxCount : Int) + d * 2 ^ 48).toNat))) ∧
    (cox → p = [] → ∃ res, Replies (.timeGet r) s 0x0542 r 0 res s ∧ res.length = 40 ∧ fld res 0 1 = timeCode s.cox.st ∧
      fld res 8 8 = shortNow s / 1000000000 % 2 ^ 64 ∧ fld res 16 4 = shortNow s % 1000000000 ∧
      fld res 24 8 = shortNow s % 2 ^ 64) ∧
    (cox → p.length = 8 → fld p 1 7 = 0 →
      (fld p 0 1 < timePorts s → ∃ res, Replies (.ptpPortStats r) s 0x0543 r 0 res s ∧
        fld res 0 1 = (ptpPort s (fld p 0 1)).st % 256) ∧
      (timePorts s ≤ fld p 0 1 → Replies (.ptpPortStats r) s 0x0543 r 0x0012 [] s)) ∧
    Effect (.coxLatchShortLo k) s (fun u => u.rdata = shortNow s % 2 ^ 32 ∧
      (regGet u uCOX 0 (0x104 + 0x20 * k.val)).toNat = shortNow s / 2 ^ 32 % 2 ^ 32 ∧
      { u with regs := s.regs, rdata := s.rdata } = s) ∧
    Effect (.coxPpsInTsLo n) s (fun u => u.rdata = (ppsIn s n).ts.toNat / 65536 % 2 ^ 32 ∧
      (regGet u uCOX 0 (0x208 + 0x10 * n.val)).toNat = (ppsIn s n).ts.toNat % 65536 ∧
      { u with regs := s.regs, rdata := s.rdata } = s) ∧
    Effect (.sscEnable k) s (fun u => bit u.power.ssc k = bit (regGet s uSYS 0 (0x300 + 4 * k.val)).toNat 31 ∧
      (∀ j, j ≠ k.val → bit u.power.ssc j = bit s.power.ssc j) ∧ { u with power := { u.power with ssc := s.power.ssc } } = s) ∧
    (∀ c : Fin 96, awake s (some (c / 8)) = true →
      ((core s c).timerCmp.toNat ≤ shortNow s → (core s c).run = .wfi → irqReady s (core s c) ≠ 0 →
        Effect (.coreTimerCmpReached c) s (CoreBecomes c (retire { core s c with run := .run }) s)) ∧
      (shortNow s < (core s c).timerCmp.toNat → Effect (.coreTimerCmpReached c) s fun u => u = s)) ∧
    (s.pending = [] →
      (s.sec.held ≠ .no → step s = .next { s with now := s.now + 1 }) ∧
      (s.sec.held = .no → ∃ u, step s = .next (settle 4096 u) ∧ u.now = s.now + 1 ∧ u.objs = s.objs ∧
        u.coxCount = ((s.coxCount : Int) + 2 ^ 48 + clampFreq (s.cox.freq + slewStep s)).toNat ∧
        (s.weft.hops = [] → s.weft.waiting = [] → (∀ e ∈ s.dma, e.2.moves = []) → (∀ c, (core s c).writes = []) →
          u.mem = s.mem ∧ u.cores = s.cores)))

/-! ### Spool (14_spool_dma.md, R475 to R494, R513, R514) -/

/-- R477, R479, R481 to R484 and R486: an allocation finds a packet of CTX_LEN bytes in free cells, or reports NO_CELLS; a
held packet enqueued on a queue with room joins its tail, and a queue that is full refuses it and counts; a dequeue takes
the head; a free gives back every cell; a bad handle is counted and changes no packet; SPOOL_NEXT walks a packet's cells;
a unit's packet joins its queue with the last write. -/
def Obligations.SpoolOperations : Prop :=
  ∀ (s : State) (i : Initiator) (handle : BitVec 32) (p : Packet) (h : Nat) (items : List Nat),
    let x := ctx s i
    let q := x.queue
    let n := handle.toNat
    let flags := fun (u : State) => let y := ctx u i; (y.badHandle, y.noCells, y.full, y.idle)
    let plain := (proxies s).all (fun e => e.localQ != q) && !ptrBad s q
    (∀ w, alloc .unit x.len s = (some h, w) → Effect (.spoolAlloc i) s fun u =>
      u.rdata = h ∧ pkt u h = pkt w h ∧ flags u = (false, false, false, false) ∧ u.spool.queues = w.spool.queues) ∧
    (alloc .unit x.len s = (none, s) → Effect (.spoolAlloc i) s fun u =>
      u.rdata = 0xFFFFFFFF ∧ flags u = (false, true, false, false) ∧ u.spool.packets = s.spool.packets) ∧
    (x.len = 0 ∨ onChip - usedOnChip s + extCells s < ceilDiv x.len 256 → (alloc .unit x.len s).1 = none) ∧
    (holdable s n = true → pkt s n = some p → ptrBad s q = false → isFull s q p.cells.length = false →
      Effect (.spoolEnq i handle) s fun u => (queue u q).items = (queue s q).items ++ [n] ∧
        pkt u n = some { p with st := .queued, queue := q } ∧ (∀ k, k ≠ n → pkt u k = pkt s k) ∧
        (∀ k, k ≠ q → queue u k = queue s k) ∧ flags u = (false, false, false, false) ∧ u.mem = s.mem) ∧
    (holdable s n = true → pkt s n = some p → ptrBad s q = false → isFull s q p.cells.length = true →
      Effect (.spoolEnq i handle) s fun u => (queue u q).items = (queue s q).items ∧ u.spool.packets = s.spool.packets ∧
        (queue u q).refused = min 0xFFFFFFFF ((queue s q).refused + 1) ∧ flags u = (false, false, true, false)) ∧
    (holdable s n = false → Effect (.spoolEnq i handle) s fun u => u.spool.packets = s.spool.packets ∧
        u.spool.queues = s.spool.queues ∧ regF u uSPOOL 0 0x014 31 0 = min 0xFFFFFFFF (regF s uSPOOL 0 0x014 31 0 + 1) ∧
        flags u = (true, false, false, false)) ∧
    (plain = true → (queue s q).items = h :: items → pkt s h = some p → Effect (.spoolDeq i) s fun u =>
      u.rdata = h ∧ (queue u q).items = items ∧ pkt u h = some { p with st := .held } ∧ (ctx u i).len = p.len ∧
        flags u = (false, false, false, false) ∧ (∀ k, k ≠ q → queue u k = queue s k)) ∧
    (plain = true → (queue s q).items = [] → Effect (.spoolDeq i) s fun u =>
      u.rdata = 0xFFFFFFFF ∧ flags u = (false, false, false, true) ∧ u.spool.packets = s.spool.packets) ∧
    (holdable s n = true → Effect (.spoolFree i handle) s fun u => pkt u n = none ∧
      (∀ k, k ≠ n → pkt u k = pkt s k) ∧ u.spool.queues = s.spool.queues ∧ flags u = (false, false, false, false)) ∧
    (holdable s n = false → Effect (.spoolFree i handle) s fun u => u.spool.packets = s.spool.packets ∧
      flags u = (true, false, false, false)) ∧
    (∀ a b rest, s.spool.packets = [(h, p)] → p.st ≠ .quarantined → p.cells = a :: b :: rest → x.cell = a →
      Effect (.spoolNext i) s fun u => u.rdata = b ∧ (ctx u i).cell = b ∧ flags u = (false, false, false, false)) ∧
    (pkt s n = some p → p.st = .opened → ptrBad s p.queue = false → isFull s p.queue p.cells.length = false →
      Effect (.packetJoin handle) s fun u => (queue u p.queue).items = (queue s p.queue).items ++ [n] ∧
        pkt u n = some { p with st := .queued }) ∧
    (pkt s n = some p → p.st ≠ .opened → Effect (.packetJoin handle) s fun u => u = s)

/-- R492 to R494: a push on an enabled compatibility queue with room appends the item with bit 31 of word 1 cleared, and on
one that is full or disabled sets OVERFLOW and stores nothing; a pop removes the oldest item, or reads the idle item;
enabling takes the ring's bytes from the pool, or sets NO_SPACE; disabling empties the queue. -/
def Sys2Proof.Machine.Claims.CompatibilityQueues : Prop :=
  ∀ (s : State) (q : Fin 1024) (word : BitVec 32) (it : CqItem) (rest : List CqItem),
    let x := compat s q
    let others := fun (u : State) => (∀ k, k ≠ q.val → compat u k = compat s k) ∧ u.spool.queues = s.spool.queues ∧ u.mem = s.mem
    x.mismatch = false →
    (x.en = true → x.items.length < 2 ^ x.depthLog2 → Effect (.spoolCqPush q word) s fun u =>
      (compat u q).items = x.items ++ [{ x.push with w1 := x.push.w1 &&& 0x7FFFFFFF, w3 := word }] ∧
      (compat u q).overflow = x.overflow ∧ others u) ∧
    (x.en = false ∨ 2 ^ x.depthLog2 ≤ x.items.length → Effect (.spoolCqPush q word) s fun u =>
      (compat u q).items = x.items ∧ (compat u q).overflow = true ∧ others u) ∧
    (x.en = true → x.items = it :: rest → Effect (.spoolCqPop q) s fun u =>
      u.rdata = it.w0.toNat ∧ (compat u q).latch = it ∧ (compat u q).items = rest ∧ others u) ∧
    (x.en = false ∨ x.items = [] → Effect (.spoolCqPop q) s fun u =>
      u.rdata = 0xFFFFFFFF ∧ (compat u q).latch = { w0 := 0xFFFFFFFF, w1 := 0x80000000 } ∧ others u) ∧
    (x.en = false → 4 ≤ x.depthLog2 → x.depthLog2 ≤ 16 → poolHeld s + ringBytes s + 2 ^ x.depthLog2 * 16 ≤ poolBytes s →
      Effect (.spoolCqEnable q true) s fun u => (compat u q).en = true ∧ (compat u q).noSpace = false ∧ others u) ∧
    (x.en = false → poolBytes s < poolHeld s + ringBytes s + 2 ^ x.depthLog2 * 16 →
      Effect (.spoolCqEnable q true) s fun u => (compat u q).en = false ∧ (compat u q).noSpace = true ∧ others u) ∧
    (x.en = true → Effect (.spoolCqEnable q false) s fun u => (compat u q).en = false ∧ (compat u q).items = [] ∧ others u)

/-- R489 and R513: QUEUE_RECLAIM, when none is under way, is accepted and notes the handles quarantined from its queue; its
completion frees them and reports the cells; QUEUE_STATS answers the queue's counts and changes nothing else. -/
def Sys2Proof.Machine.Claims.QueueRequests : Prop :=
  ∀ (s : State) (r : Request), Addressed r uSPOOL 0 → r.params.length = 8 → fld r.params 2 6 = 0 →
    let q := fld r.params 0 2
    (LongRoom s r → (∀ l ∈ s.cmd.longs, l.opcode ≠ 0x0B50) →
      Accepts (.queueReclaim r) s 0x0B50 r none false
        (fun w => { w with spool := { w.spool with reclaim := some (q, quarantinedOf s q) } })) ∧
    (LongRoom s r → (∃ l ∈ s.cmd.longs, l.opcode = 0x0B50) → Replies (.queueReclaim r) s 0x0B50 r 0x0017 [] s) ∧
    (∀ c ≤ 0xFFFFFFFF, (queue s q).enqueued = c → ∃ res, res.length = 28 ∧ fld res 0 4 = c ∧
      Replies (.queueStats r) s 0x0B51 r 0 res s)

/-- Compatibility queues and the queue requests. -/
def Obligations.CompatibilityAndQueueRequests : Prop :=
  Claims.CompatibilityQueues ∧ Claims.QueueRequests

/-! ### DMA channels (14_spool_dma.md, R495 to R512) -/

/-- The DMA program instructions that move no data (R495, R498, R501 to R503, R507, R508): LOOP opens a loop, ENDLOOP repeats or
closes it, WAIT goes on when its condition holds or else waits. Once no MOVE is under way, SIGNAL decrements a task or sends a
vector, FENCE goes on and END completes the program; before that SIGNAL and FENCE wait and END drains. Each goes on at the next word but where it says otherwise; memory is unchanged. -/
def Sys2Proof.Machine.Claims.DmaControlInstructions : Prop :=
  ∀ (s : State) (ch : Fin 64) (b : Bytes), readWord (dmaInit ch) (dmaCh s ch).pc s = (.ok, b, s) → (dmaCh s ch).run = .run →
    let x := dmaCh s ch
    let becomes := fun (i : Instr) (y : DmaCh) => Effect i s fun u =>
      dmaCh u ch = y ∧ (∀ k, k ≠ ch.val → dmaCh u k = dmaCh s k) ∧ { u with dma := s.dma } = s
    let on := { x with pc := x.pc + 32 }
    let resumes := { x with run := .run, wait := none, deadline := none, pc := x.pc + 32 }
    let zeros_ := fun (o n : Nat) => fld b o n = 0
    (fld b 0 1 = 2 → zeros_ 1 3 → zeros_ 8 24 → fld b 4 4 ≠ 0 → x.loops.length < 4 →
      becomes (.loopProg ch) { on with loops := { start := x.pc, count := fld b 4 4, i := 0 } :: x.loops }) ∧
    (fld b 0 1 = 3 → zeros_ 1 31 → ∀ l rest, x.loops = l :: rest →
      (l.i + 1 < l.count →
        becomes (.endloop ch) { x with loops := { l with i := l.i + 1 } :: rest, pc := l.start + 32 }) ∧
      (l.count ≤ l.i + 1 → becomes (.endloop ch) { on with loops := rest })) ∧
    (fld b 0 1 = 4 → zeros_ 1 1 → zeros_ 2 6 → zeros_ 16 8 → zeros_ 28 4 →
      (fld b 8 8 ≤ shortNow s → becomes (.waitProg ch) resumes) ∧
      (shortNow s < fld b 8 8 → zeros_ 24 4 →
        becomes (.waitProg ch) { x with run := .wait, wait := some (.time (fld b 8 8)), deadline := none })) ∧
    (x.moves = [] → fld b 0 1 = 5 → fld b 1 1 = 0 → zeros_ 6 26 → Effect (.signalProg ch) s fun u => dmaCh u ch = on ∧
      u.notices = s.notices ++ [{ task := fld b 4 2, count := fld b 2 2, source := dmaInit ch }] ∧
      { u with dma := s.dma, notices := s.notices } = s) ∧
    (x.moves = [] → fld b 0 1 = 5 → fld b 1 1 = 1 → zeros_ 4 28 → fld b 2 2 < 16 → Effect (.signalProg ch) s fun u => dmaCh u ch = on ∧
      u.out = s.out ++ [.msix (fld b 2 2)] ∧ { u with dma := s.dma, out := s.out } = s) ∧
    (x.moves ≠ [] → fld b 0 1 = 5 → fld b 1 1 = 0 → zeros_ 6 26 → Effect (.signalProg ch) s fun u => u = s) ∧
    (fld b 0 1 = 6 → zeros_ 1 31 → becomes (.dmaFence ch) (if x.moves = [] then on else x)) ∧
    (fld b 0 1 = 7 → zeros_ 1 31 → x.moves ≠ [] → becomes (.endProg ch) { x with run := .drain, ending := some !x.bad }) ∧
    (fld b 0 1 = 7 → zeros_ 1 31 → x.moves = [] → x.work = none → x.signal = none → x.frees = [] →
      becomes (.endProg ch) { x with run := .idle, source := 0, work := none, signal := none, loops := [], bad := false
                                     frees := [], wait := none, deadline := none, ending := none }) ∧
    (fld b 0 1 = 0 ∨ 7 < fld b 0 1 → ∀ i ∈ [.moveProg ch, .loopProg ch, .endloop ch, .waitProg ch, .signalProg ch,
        .dmaFence ch, .endProg ch], Effect i s fun u => u = dmaError ch 1 s)

/-- MOVE between addresses (R495 to R500) of one code word, both in Spool cell memory and free of errors, with no status
record and none under way: the destination word takes the source's bytes, no other byte of memory changes, and the program goes
on with the MOVE under way, which holds what the destination held. -/
def Sys2Proof.Machine.Claims.DmaMovesAWord : Prop :=
  ∀ (s : State) (ch : Fin 64) (b data : Bytes), readWord (dmaInit ch) (dmaCh s ch).pc s = (.ok, b, s) →
    (dmaCh s ch).run = .run → (dmaCh s ch).loops = [] → (dmaCh s ch).moves = [] →
    let x := dmaCh s ch
    let src := fld b 8 6
    let dst := fld b 16 6
    fld b 0 1 = 1 → fld b 1 1 = 0 → fld b 2 3 = 32 → fld b 5 1 = 0 → fld b 22 2 = 0 → fld b 24 6 = 0 → fld b 30 2 = 0 →
    src % 32 = 0 → dst % 32 = 0 → regionOf src = .cell → regionOf dst = .cell → errPat s src = {} →
    data = memBytes s.mem src 32 →
    Effect (.moveProg ch) s fun u => memBytes u.mem dst 32 = data ∧
      (∀ a, (a < dst ∨ dst + 32 ≤ a) → memByte u.mem a = memByte s.mem a) ∧
      dmaCh u ch = { x with pc := x.pc + 32, moves := [{ at_ := s.now, left := 32, old := [(dst, memBytes s.mem dst 32)] }] } ∧
      (∀ k, k ≠ ch.val → dmaCh u k = dmaCh s k) ∧ { u with mem := s.mem, ecc := s.ecc, dma := s.dma } = s

/-- The engines of a complex (R511, R512): they serve a channel with MOVEs under way, one of class 0 while there is one, and of the
same kind the one served longest ago; 64 bytes of its oldest MOVE go, and its program completes with the last of them once it
has ended; the reads in flight keep to MAX_READS and to 1,024. -/
def Sys2Proof.Machine.Claims.DmaEngines : Prop :=
  ∀ (s : State) (n ch : Nat),
    let x := dmaCh s ch
    (dmaTurn s n = some ch → ch ∈ dmaBusy s n ∧
      (∀ k ∈ dmaBusy s n, dmaClass s (dmaCh s k) = 0 → dmaClass s x = 0) ∧
      ∀ k ∈ dmaBusy s n, (dmaClass s x = 0 → dmaClass s (dmaCh s k) = 0) → x.served ≤ (dmaCh s k).served) ∧
    (dmaTurn s n = none ↔ dmaBusy s n = []) ∧
    (∀ m rest, x.moves = m :: rest → x.ending = none →
      dmaServe ch s = dmaPut ch { x with served := s.now, moves :=
        if m.left ≤ 64 then rest else { m with left := m.left - 64 } :: rest } s) ∧
    (∀ m ok, x.moves = [m] → m.left ≤ 64 → x.ending = some ok →
      dmaServe ch s = dmaComplete ch ok (dmaPut ch { x with served := s.now, moves := [] } s)) ∧
    (∀ e ∈ dmaReads s n, e.2 ≤ (dmaCh s e.1).maxReads) ∧ sumL ((dmaReads s n).map (·.2)) ≤ 1024

/-- The DMA instructions, with MOVE of a word, and the engines. -/
def Obligations.DmaPrograms : Prop :=
  Claims.DmaControlInstructions ∧ Claims.DmaMovesAWord ∧ Claims.DmaEngines

/-- The commands on a channel (R502, R504 to R506, R509): ARM arms the shadow; at a program boundary the armed shadow program
starts, and else a staged task where tasks are enabled; a shadow register takes its fields unless the channel is armed,
when SHADOW_LOCKED is set; ABORT ends a running program with ABORTED; a WAIT past its TIMEOUT ends with TIMEOUT, and one
whose time has come goes on. -/
def Obligations.DmaChannelCommands : Prop :=
  ∀ (s : State) (ch : Fin 64) (value : BitVec 32) (t : Nat),
    let x := dmaCh s ch
    let v := value.toNat
    let becomes := fun (i : Instr) (y : DmaCh) => Effect i s fun u =>
      dmaCh u ch = y ∧ (∀ k, k ≠ ch.val → dmaCh u k = dmaCh s k) ∧ { u with dma := s.dma } = s
    becomes (.dmaArm ch) { x with armed := true } ∧
    (x.run = .idle → x.armed = true → x.shProg % 32 = 0 → becomes (.handoverCycle ch)
      { x with armed := false, handoverSeq := (x.handoverSeq + 1) % 256, source := 2, pc := x.shProg, base := x.shBase
               work := none, signal := if x.shSignalValid then some x.shSignalTask else none, run := .run, loops := []
               bad := false, frees := [], wait := none, deadline := none }) ∧
    (x.run = .idle → x.armed = false → x.staged = none → becomes (.handoverCycle ch) x) ∧
    (x.run ≠ .idle → becomes (.handoverCycle ch) x) ∧
    (x.run = .idle → x.armed = false → ∀ w, x.staged = some w → x.tasksEn = true → (descOf s w).entry % 32 = 0 →
      Effect (.handoverCycle ch) s fun u => let y := dmaCh u ch
        y.run = .run ∧ y.pc = (descOf s w).entry ∧ y.base = (descOf s w).arg / 0x10000 ∧ y.work = some w ∧
        y.staged = none ∧ u.mem = s.mem) ∧
    (x.armed = true → ∀ k, becomes (.shadowWrite ch k value) { x with shadowLocked := true }) ∧
    (x.armed = false →
      becomes (.shadowWrite ch 0 value) { x with shProg := x.shProg / 2 ^ 32 * 2 ^ 32 + v / 32 * 32 } ∧
      becomes (.shadowWrite ch 4 value) { x with shSignalValid := bit v 31, shSignalTask := v % 2 ^ 16 }) ∧
    (x.run ≠ .idle → Effect (.abortCh ch) s fun u => u = dmaError ch 6 s) ∧
    (x.run = .idle → Effect (.abortCh ch) s fun u => u = s) ∧
    (x.run = .wait → x.deadline = some t → t ≤ s.now → Effect (.waitTimeout ch) s fun u => u = dmaError ch 5 s) ∧
    (x.run ≠ .wait ∨ x.deadline = none → Effect (.waitTimeout ch) s fun u => u = s) ∧
    (x.run = .wait → x.wait = some (.time t) → t ≤ shortNow s →
      becomes (.waitContinue ch) { x with run := .run, wait := none, deadline := none, pc := x.pc + 32 }) ∧
    (x.run = .wait → x.wait = some (.time t) → shortNow s < t → becomes (.waitContinue ch) x)

/-! ### Registers, memory controllers and the host's accesses (01_architecture.md, 13_memory_ecc.md, 16_lanes_bupex.md) -/

/-- Register writes and what the host does on its own link (R3, R20, R464, R471 to R473, R462, R470, R518, R545 to R547, R641): a
write takes the fields that the register's row makes writable, and is ignored at an absent unit; a host write is of whole
code words or is discarded and counted; a host read answers data or an abort; a memory controller's own commands. -/
def Obligations.RegistersAndHostAccesses : Prop :=
  ∀ (s : State) (i : Initiator) (unit inst : BitVec 8) (off : BitVec 16) (v lo : BitVec 32) (ch : Fin 8) (axor : BitVec 16)
    (data : Bytes) (len : BitVec 13) (off2 : BitVec 36) (row : RegRow),
    let a := (regGet s uPCIE 0 0x014).toNat * 2 ^ 32 + (regGet s uPCIE 0 0x010).toNat + off2.toNat
    let k := regF s uMEM ch 0x010 5 5 * 32 + regF s uMEM ch 0x010 4 0
    let at_ := regF s uMEM ch 0x02C 15 0 * 2 ^ 32 + lo.toNat / 128 * 128
    (unit.toNat = uBUPEX → inst.toNat < unitInstances uBUPEX → awake s (unitDomain s uBUPEX inst.toNat) = true →
      off.toNat % 4 = 0 → regRow uBUPEX inst.toNat off.toNat = some row →
      Effect (.registerWrite i unit inst off v) s fun u => { u with regs := s.regs } = s ∧
        regGet u uBUPEX inst.toNat off.toNat = regMerge row (regGet s uBUPEX inst.toNat off.toNat) v ∧
        ∀ U I O, regKey U I O ≠ regKey uBUPEX inst.toNat off.toNat → regGet u U I O = regGet s U I O) ∧
    (unitPresent s.part unit.toNat inst.toNat = false → inst.toNat < unitInstances unit.toNat → off.toNat % 4 = 0 →
      Effect (.registerWrite i unit inst off v) s fun u => u = s) ∧
    (off.toNat % 4 ≠ 0 → coreOf i = none → i.unit.toNat ≠ uPCIE →
      Effect (.registerWrite i unit inst off v) s fun u => u = s) ∧
    (∀ whole, pcieUp s = false → Effect (.inboundPcieWrite (.bar2 off2) data whole) s fun u => u = s) ∧
    (∀ e w, pcieUp s = true → regionOf a = .sdram → data ≠ [] → a % 32 = 0 → data.length % 32 = 0 →
      writeBytes hostInit a data s = (.ok, e, w) →
      Effect (.inboundPcieWrite (.bar2 off2) data true) s fun u => u = w) ∧
    (pcieUp s = true → regionOf a = .sdram → a % 32 ≠ 0 ∨ data.length % 32 ≠ 0 →
      Effect (.inboundPcieWrite (.bar2 off2) data true) s fun u => u.mem = s.mem ∧
        regF u uMEM 0 0x00C 31 0 = min 0xFFFFFFFF (regF s uMEM 0 0x00C 31 0 + 1)) ∧
    (∀ b e, pcieUp s = true → regionOf a = .sdram → readBytes hostInit a len.toNat s = (.ok, b, e, s) →
      Effect (.inboundPcieRead (.bar2 off2) len) s fun u => u.out = s.out ++ [.completion 0 b] ∧ { u with out := s.out } = s) ∧
    (pcieUp s = true → regionOf a = .nothing →
      Effect (.inboundPcieRead (.bar2 off2) len) s fun u => u.out = s.out ++ [.completion 1 []] ∧ { u with out := s.out } = s) ∧
    (pcieUp s = true → Effect (.inboundPcieRead .outside len) s fun u =>
      u.out = s.out ++ [.completion 2 []] ∧ { u with out := s.out } = s) ∧
    (∀ up gen width l1, Effect (.pcieLinkChange up gen width l1) s fun u => pcieUp u = up ∧ u.serial.pcieL1 = (up && l1) ∧
      (up = true → regF u uPCIE 0 0x000 30 28 = gen.val ∧ regF u uPCIE 0 0x000 27 23 = width.val) ∧
      { u with regs := s.regs, serial := s.serial } = s) ∧
    Effect (.memDevCe ch) s (fun u => u.rdata = spGet 0 (memCh s ch).devCe k ∧ spGet 0 (memCh u ch).devCe k = 0 ∧
      (∀ j, j ≠ k → spGet 0 (memCh u ch).devCe j = spGet 0 (memCh s ch).devCe j) ∧ k ∉ (memCh u ch).suspect ∧
      { u with memc := s.memc, rdata := s.rdata } = s) ∧
    (∀ parity, regF s uMEM ch 0x000 31 31 = 1 → Effect (.memChannelDown ch parity) s fun u =>
      regF u uMEM ch 0x000 31 31 = 0 ∧ regF u uMEM ch 0x000 23 16 = 0 ∧ u.mem = s.mem ∧ ∃ e, u.evq = s.evq ++ [e] ∧
        e.code = 0x0805 ∧ e.inst = ch.val ∧ e.data.take 1 = [if parity then 2 else 1]) ∧
    (∀ parity, regF s uMEM ch 0x000 31 31 = 0 → Effect (.memChannelDown ch parity) s fun u => u = s) ∧
    (sdramAt s at_ = none → Effect (.memRepair ch lo) s fun u => regF u uMEM ch 0x02C 29 28 = 3 ∧ u.mem = s.mem ∧
      u.ecc = s.ecc) ∧
    (∀ loc rank, sdramAt s at_ = some (ch.val, loc, rank) → regF s uMEM ch 0x000 31 31 = 1 →
      (∀ j, j < 4 → seenPat s (at_ + 32 * j) ch rank = {}) → regF s uMEM ch 0x070 31 31 = 0 →
      Effect (.memRepair ch lo) s fun u => regF u uMEM ch 0x02C 29 28 = 0 ∧
        ∀ b, memByte u.mem b = memByte s.mem b) ∧
    (regF s uMEM ch 0x070 31 31 = 0 → Effect (.memFlipArm (.mem ch) axor) s fun u =>
      regF u uMEM ch 0x070 31 31 = 1 ∧ regF u uMEM ch 0x070 15 0 = axor.toNat ∧ { u with regs := s.regs } = s) ∧
    (regF s uMEM ch 0x070 31 31 = 1 → Effect (.memFlipArm (.mem ch) axor) s fun u => u = s)

/-! ### Weft (15_weft_network.md) -/

/-- Gateways and routes (R515, R516, R521, R522, R524, R527 to R529, R538, R645): a packet that finds its window's credits, response
space, its router and its shaper spends them and reaches its gateway through a clear mesh, where a write with a spoilt body flit is
answered UNCORRECTABLE, or meets an injected fault there, or enters a mesh that is not clear, and one
that does not waits at its source; a response releases the space reserved for it; a credit returns credits; CREDIT_SYNC leaves
spent only the flits still held; a request timeout is reported and synchronises; an uncorrectable head flit is discarded, counted and reported; a route that stays
minimal and complete is taken, and one that leaves the minimal directions is rejected. -/
def Sys2Proof.Machine.Claims.WeftCreditsAndRoutes : Prop :=
  ∀ (s : State) (src dst node : Fin 64) (h : WeftHead) (fl : Fin 1025) (i : Initiator) (tag : BitVec 16) (addr : BitVec 48)
    (v : BitVec 32) (n : Fin 64) (p : Fin 5), h.src = src → h.dst = dst →
    let sp := spentAt s dst src
    let others := fun (u : State) => (∀ d k, (d, k) ≠ (dst.val, src.val) → spentAt u d k = spentAt s d k)
    let head := fun (bad : Option (Fin 64 × Fin 5)) => Instr.gatewayHeadFlit src dst h.vc ⟨h.kind, h.len, h.tag, h.bodyBad⟩ bad none
    let f := headFlits h
    let way := if meshClear s then clearPath s h 15 src 4 else none
    let sound := ∀ w, way = some w → ∀ e ∈ w, linkFault s e.1 e.2 = none
    let goes := maySend s h = true ∧ ∀ k ∈ s.weft.waiting, k.src = src → k.vc ≠ h.vc
    let d := regF s uWEFT node 0x010 5 0
    let m := v.toNat % 16
    Effect (.credit src dst fl) s (fun u => spentAt u dst src = sp - fl.val ∧ others u ∧ { u with weft := s.weft } = s) ∧
    Effect (.creditSync src dst) s (fun u => spentAt u dst src = spGet 0 (router s dst).held src ∧ others u ∧
      { u with weft := s.weft } = s) ∧
    (maySend s h = true ↔ (isResponse h = true ∨ sp + f ≤ window s dst src) ∧
      (answerFlits h = 0 ∨ reservedAt s src + answerFlits h ≤ 1024) ∧ (router s src).hidden = false ∧
      (h.vc = 0 → (router s src).debt + 64000 * f ≤ 1000 * (shaper s src).2)) ∧
    (∀ bad, ¬ goes → Effect (head bad) s fun u =>
      u = { s with weft := { s.weft with waiting := s.weft.waiting ++ [h] } }) ∧
    (goes → isResponse h = false → h.bodyBad = false → way ≠ none → sound → nodeDomains dst = [] →
      Effect (head none) s fun u => spentAt u dst src = sp + f ∧ others u ∧
        (answerFlits h ≠ 0 → spGet 0 (router u src).reserved h.tag.toNat = answerFlits h) ∧ u.weft.hops = [] ∧
        { u with weft := s.weft, counters := s.counters } = s) ∧
    (goes → h.kind = .writeReq → h.bodyBad = true → way ≠ none → sound → nodeDomains dst = [] →
      Effect (head none) s fun u => spentAt u dst src = sp + f ∧ ∃ b, u.out = s.out ++ [.weft src "write-rsp" b] ∧ fld b 3 1 = 2) ∧
    (goes → way ≠ none → ¬ sound → Effect (head none) s fun u => u.out = s.out ∧ (router u dst).held = (router s dst).held ∧
      u.power.injections.length + 1 = s.power.injections.length ∧ ∃ e, u.evq = s.evq ++ [e] ∧ e.code = 0x0402) ∧
    (goes → isResponse h = true → h.bodyBad = false → way ≠ none → sound → Effect (head none) s fun u =>
      (router u dst).reserved = spDel (router s dst).reserved h.tag.toNat ∧ spentAt u dst src = sp ∧
        { u with weft := s.weft, counters := s.counters } = s) ∧
    (goes → way = none → Effect (head none) s fun u => (∃ x, u.weft.hops = s.weft.hops ++ [x] ∧
      x.head = h ∧ x.node = src.val ∧ x.here + x.behind = f) ∧ { u with weft := s.weft } = s) ∧
    (goes → isResponse h = false → Effect (head (some (n, p))) s fun u => spentAt u dst src = sp + f ∧
      cntGet u (cntKey uWEFT n 5) = min 0xFFFFFFFF (cntGet s (cntKey uWEFT n 5) + 1) ∧ (router u dst).held = (router s dst).held ∧
      ∃ e, u.evq = s.evq ++ [e] ∧ e.code = 0x0402 ∧ e.inst = n.val) ∧
    Effect (.requestTimeout i src dst ⟨tag, addr⟩) s (fun u => (router u src).reserved = spDel (router s src).reserved tag.toNat ∧ spentAt u dst src = spGet 0 (router s dst).held src ∧
      cntGet u (cntKey uWEFT src 10) = min 0xFFFFFFFF (cntGet s (cntKey uWEFT src 10) + 1) ∧
      ∃ e, u.evq = s.evq ++ [e] ∧ e.code = 0x0403 ∧ fld e.data 8 8 = addr.toNat) ∧
    (bit v.toNat 31 = false → m = minimalMask node d → Effect (.weftRoute node v) s fun u => routeMask u node d = m ∧
      (∀ k e, (k, e) ≠ (node.val, d) → routeMask u k e = routeMask s k e) ∧ u.regs = s.regs) ∧
    (Nat.lor m (minimalMask node d) ≠ minimalMask node d → node.val ≠ d → Effect (.weftRoute node v) s fun u =>
      regF u uWEFT node 0x014 31 31 = 1 ∧ u.weft = s.weft)

/-- Routing and arbitration (R519, R520, R525, R526): at its destination a head leaves by LOCAL; VC0 follows XY; another VC takes
the direction of A with the most free credits, E or W where the counts are equal, and none while A is empty. An output offers
a VC the packet already begun there, and no other with it, else the one whose head arrived first, in port order where two
came together; VC0 goes before VC1 to VC3. -/
def Sys2Proof.Machine.Claims.WeftArbitration : Prop :=
  ∀ (s : State) (h : Hop) (n out vc : Nat),
    let a := directions s h.node h.inp h.head.dst
    let free := fun (o : Nat) => freeBeyond s h.node o h.head.vc
    let wants := fun (q : Hop) => q ∈ s.weft.hops ∧ q.node = n ∧ q.out = some out ∧ q.head.vc.val = vc
    (h.node = h.head.dst.val → chooseOut s h = some 4) ∧
    (h.node ≠ h.head.dst.val → h.head.vc = 0 → chooseOut s h = some (xyOut h.node h.head.dst)) ∧
    (h.node ≠ h.head.dst.val → h.head.vc ≠ 0 → (chooseOut s h = none ↔ a = []) ∧
      ∀ o, chooseOut s h = some o → o ∈ a ∧ ∀ q ∈ a, free q < free o ∨ (free q = free o ∧ (q % 2 = 1 → o % 2 = 1))) ∧
    (offered s n out vc = some h → wants h ∧ canCross s h out = true ∧
      (h.sent = 0 → ∀ q, wants q → q.sent = 0 ∧ (canCross s q out = true → 8 * h.seen + h.inp ≤ 8 * q.seen + q.inp))) ∧
    (∀ k, arbitrate s n out = some (h, k) → offered s n out h.head.vc = some h ∧
      (h.head.vc ≠ 0 → offered s n out 0 = none))

/-- Drain windows and the Weft requests (R529 to R533, R541): WEFT_DRAIN is accepted, BUSY or refused by its own conditions;
START makes the router DRAINING, DRAINED holds once it is empty, END returns it to RUN and completes the command; a
self-test runs only in DRAINED; the load and path requests answer from the admitted entries. -/
def Sys2Proof.Machine.Claims.WeftDrainsAndRequests : Prop :=
  ∀ (s : State) (r : Request) (node : Fin 64) (d : Drain) (l : Long) (pass : Bool),
    let p := r.params
    let mine := Addressed r uWEFT 63
    let n := fld p 0 1
    let start := fld p 8 8
    let stop := fld p 16 8
    (mine → p.length = 24 → n < 64 → fld p 1 1 < 2 → fld p 2 6 = 0 → shortNow s + 10000 ≤ start → start < stop →
      stop ≤ start + 10000000 → LongRoom s r →
      ((∀ x ∈ s.weft.drains, stop ≤ x.start ∨ x.stop ≤ start) → onC0Path s n = false ∨ fld p 1 1 = 1 →
        Accepts (.weftDrain r) s 0x0B60 r none true (fun w =>
          { w with weft := { w.weft with drains := w.weft.drains ++ [{ router := n, start := start, stop := stop }] } })) ∧
      ((∃ x ∈ s.weft.drains, x.start < stop ∧ start < x.stop) → Replies (.weftDrain r) s 0x0B60 r 0x0017 [] s) ∧
      (s.weft.drains = [] → onC0Path s n = true → fld p 1 1 = 0 → Replies (.weftDrain r) s 0x0B60 r 0x0B03 [] s)) ∧
    (s.weft.drains = [d] → d.router = node.val →
      (d.started = false → d.start ≤ shortNow s → Effect (.drainStart node) s fun u =>
        (router u node).st = .draining ∧ u.weft.drains = [{ d with started := true }] ∧
        (∀ k, k ≠ node.val → router u k = router s k)) ∧
      (d.started = false → shortNow s < d.start → Effect (.drainStart node) s fun u => u = s) ∧
      (d.started = true → (router s node).st = .draining → (∃ h ∈ s.weft.hops, h.node = node.val) →
        Effect (.drained node) s fun u => u = s) ∧
      (d.started = true → (router s node).st = .draining → (∀ h ∈ s.weft.hops, h.node ≠ node.val) →
        Effect (.drained node) s fun u =>
        (router u node).st = .drained ∧ u.weft.drains = [{ d with drainedAt := some (shortNow s) }] ∧
        { u with weft := s.weft } = s) ∧
      (d.started = true → d.stop ≤ shortNow s → s.cmd.longs = [l] → l.opcode = 0x0B60 → fld l.params 0 1 = d.router →
        fld l.params 8 8 = d.start → Effect (.drainEnd node) s fun u => (router u node).st = .run ∧ u.weft.drains = [] ∧
          u.cmd.longs = [] ∧ (d.drainedAt = none → ∃ e, e ∈ u.evq ∧ e.code = 0x0405))) ∧
    ((router s node).st = .drained → Effect (.weftBist node pass) s fun u =>
      regF u uWEFT node 0x004 1 1 = (if pass then 0 else 1) ∧ { u with regs := s.regs } = s) ∧
    ((router s node).st ≠ .drained → Effect (.weftBist node pass) s fun u => u = s) ∧
    (mine → p.length = 8 → n < 64 → fld p 2 6 = 0 →
      (fld p 1 1 < 5 → ∃ res, Replies (.weftLinkLoad r) s 0x0B61 r 0 res s ∧ res.length = 12 ∧
        fld res 0 4 = sumL (((c0Entries s).filter fun e => crosses e n (fld p 1 1)).map (·.rate)) % 2 ^ 32 ∧
        fld res 4 4 = sumL (((c0Entries s).filter fun e => crosses e n (fld p 1 1)).map (·.burst)) % 2 ^ 32) ∧
      (fld p 1 1 < 64 → ∃ res, Replies (.weftPath r) s 0x0B62 r 0 res s ∧ res.length = 4 ∧
        fld res 0 1 = (max (n % 8) (fld p 1 1 % 8) - min (n % 8) (fld p 1 1 % 8)) +
          (max (n / 8) (fld p 1 1 / 8) - min (n / 8) (fld p 1 1 / 8)) + 1 ∧
        ((∃ q ∈ pathOf n (fld p 1 1), (router s q.1).st ≠ .run) → fld res 2 2 = 0xFFFF)))

/-- Gateways, credits, routes, arbitration and drain windows. -/
def Obligations.Weft : Prop :=
  Claims.WeftCreditsAndRoutes ∧ Claims.WeftArbitration ∧ Claims.WeftDrainsAndRequests

/-! ### Lanes, Ethernet ports and Bupex (16_lanes_bupex.md) -/

/-- Ethernet ports and lanes (R543 to R545, R548 to R550, R553, R554): enabling a port takes its lanes or marks a conflict, disabling it gives
them up, a port comes up and goes down, its frames are counted and its idle follows the partner's clock, a lost lane is rebuilt once from the parity lane, and the
pattern checker counts and clears on a read. -/
def Obligations.LanesAndPorts : Prop :=
  ∀ (s : State) (n : Fin 49) (lane : Fin 48) (value fixed lost : BitVec 32) (len : BitVec 16) (data : Bytes) (slip : Bool)
    (errs total : BitVec 48) (clock : RxClock),
    let v := value.toNat
    let old := (regGet s uETH n 0x000).toNat
    let up := fun (u : State) (p : Nat) => regF u uETH p 0x004 31 31
    let fails := fun (i : Instr) => Effect i s fun u => u = s
    let owns := fun (u : State) (l kind who : Nat) => laneOwner u l = kind ∧ spGet 0 u.serial.owner l = who
    let counts := fun (u : State) (p k m : Nat) =>
      cntGet u (cntKey uETH p k) = min 0xFFFFFFFF (cntGet s (cntKey uETH p k) + m)
    let kept := fun (u : State) (k : Nat) => cntGet u (cntKey uETH n k) = cntGet s (cntKey uETH n k)
    let comes := fun (good pause : Bool) (f : EthFrame) (P : State → Prop) =>
      Effect (.ethFrameReceived n len good pause ⟨fixed, lost⟩ clock f) s P
    let only := fun (u : State) => { u with counters := s.counters, serial := { u.serial with idle := s.serial.idle } } = s ∧
      spGet 0 u.serial.idle n = max 0 (spGet 0 s.serial.idle n + clock.ahead - clock.spare.toNat)
    (unitPresent s.part uETH n = true → bit old 31 = false → bit v 31 = true →
      (portAllowed s n v = true → (∀ l ∈ portLanes n v, laneOwner s l = 0) → Effect (.ethPortEnable n value) s fun u =>
        regF u uETH n 0x000 31 31 = 1 ∧ regF u uETH n 0x000 29 26 = bits v 29 26 ∧ regF u uETH n 0x000 19 16 = bits v 19 16 ∧
        regF u uETH n 0x000 13 0 = bits v 13 0 ∧
        (∀ l, l < 48 → if l ∈ portLanes n v then owns u l 1 n else laneOwner u l = laneOwner s l)) ∧
      (portAllowed s n v = false ∨ (∃ l ∈ portLanes n v, laneOwner s l ≠ 0) → Effect (.ethPortEnable n value) s fun u =>
        regF u uETH n 0x000 31 30 = 1 ∧ (∀ l, l < 48 → laneOwner u l = laneOwner s l) ∧ { u with regs := s.regs } = s)) ∧
    (unitPresent s.part uETH n = true → bit old 31 = true → bit v 31 = false → Effect (.ethPortEnable n value) s fun u =>
      regF u uETH n 0x000 31 31 = 0 ∧ up u n = 0 ∧ ∀ l ∈ portLanes n old, l < 48 → laneOwner u l = 0) ∧
    (up s n = 0 →
      (bit old 31 = true → n.val = 48 ∨ lanesOff s = false → (∀ l ∈ lanesOwned s 1 n, laneInjected s l = false) →
        Effect (.ethLinkUp n) s fun u => up u n = 1 ∧ regF u uETH n 0x004 30 30 = (if bits old 29 28 = 0 then 0 else 1) ∧
          ∀ l ∈ lanesOwned s 1 n, regF u uLANE l 0x000 31 30 = 3) ∧
      (bit old 31 = false → fails (.ethLinkUp n)) ∧ fails (.ethLinkDown n slip) ∧
      ∀ good pause f, comes good pause f fun u => u = s) ∧
    (up s n = 1 →
      (Effect (.ethLinkDown n slip) s fun u => up u n = 0 ∧ counts u n 5 1 ∧ u.mem = s.mem ∧ u.objs = s.objs) ∧
      (64 ≤ len.toNat → len.toNat ≤ regF s uETH n 0x000 13 0 →
        (comes true false .other fun u => counts u n 0 1 ∧ kept u 2 ∧ counts u n 3 fixed.toNat ∧
          counts u n 4 lost.toNat ∧ only u) ∧
        (n.val ≠ 48 → NoLaunch s → comes true false (.gtpuEcho data) fun u => counts u n 0 1 ∧
          u.out = s.out ++ [.eth n "gtpu-echo-response" data]) ∧
        (n.val = 48 → comes true false (.gtpuEcho data) fun u => counts u n 0 1 ∧ only u)) ∧
      ∀ good pause f, good = false ∨ pause = true ∨ len.toNat < 64 ∨ regF s uETH n 0x000 13 0 < len.toNat →
        comes good pause f fun u => kept u 0 ∧ counts u n 2 1 ∧ only u) ∧
    (∀ p, owns s lane 1 p → p < 48 → up s p = 1 → regF s uLANE lane 0x000 27 27 = 0 →
      (regF s uETH p 0x000 26 26 = 1 → (∀ l ∈ lanesOwned s 1 p, regF s uLANE l 0x000 27 27 = 0) →
        Effect (.laneParityActive lane) s fun u => regF u uLANE lane 0x000 27 27 = 1 ∧ counts u p 6 1 ∧ up u p = 1) ∧
      (regF s uETH p 0x000 26 26 = 0 ∨ (∃ l ∈ lanesOwned s 1 p, regF s uLANE l 0x000 27 27 = 1) →
        Effect (.laneParityActive lane) s fun u => up u p = 0 ∧ counts u p 5 1)) ∧
    (∀ k, k < 6 → owns s lane 2 k → linkUp s k = true → regF s uLANE lane 0x000 27 27 = 0 → linkFlag s k 0 = true →
      ((∀ l ∈ lanesOwned s 2 k, regF s uLANE l 0x000 27 27 = 0) → Effect (.laneParityActive lane) s fun u =>
        regF u uLANE lane 0x000 27 27 = 1 ∧ regF u uBUPEX k 0x000 30 30 = 1 ∧ linkUp u k = true) ∧
      ((∃ l ∈ lanesOwned s 2 k, regF s uLANE l 0x000 27 27 = 1) → Effect (.laneParityActive lane) s fun u => linkUp u k = false)) ∧
    (laneOwner s lane = 0 → fails (.laneParityActive lane)) ∧
    (prbsOn s lane = true → Effect (.prbsSyncLost lane slip errs total) s fun u =>
      (let c := spGet (0, 0) s.serial.prbs lane
       spGet (0, 0) u.serial.prbs lane = (min (2 ^ 48 - 1) (c.1 + errs.toNat), min (2 ^ 48 - 1) (c.2 + total.toNat))) ∧
      regF u uLANE lane 0x008 31 31 = 1 ∧ (slip = true → regF u uLANE lane 0x008 30 30 = 1)) ∧
    (prbsOn s lane = false → fails (.prbsSyncLost lane slip errs total)) ∧
    ∀ errors, Effect (.lanePrbsErrLo lane errors) s fun u =>
      let c := spGet (0, 0) s.serial.prbs lane
      let q := if errors then c.1 else c.2
      u.rdata = q % 2 ^ 32 ∧ regGet u uLANE lane (if errors then 0x010 else 0x018) = BitVec.ofNat 32 (q / 2 ^ 32) ∧
      spGet (0, 0) u.serial.prbs lane = if errors then (0, c.2) else (c.1, 0)

/-- Frames and the transmitter (R548, R555 to R557): a frame on the wire is its header and body, their CRC-32 and zeros up to a
multiple of 8 bytes; a message's payload goes in frames of at most 256 bytes that give it back; a block of a class-0 frame
interrupts the frame in hand; a first block takes LSEQ and LACK; a frame for which the replay buffer has no room waits; and a FILL
block goes after 1,024 others and when there is nothing else. -/
def Sys2Proof.Machine.Claims.BupexTransmitter : Prop :=
  ∀ (b : Bytes) (room : Option Nat) (x : LinkRun) (f : TxFrame) (rest : List TxFrame),
    ((wireFrame b).length % 8 = 0 ∧ sub (wireFrame b) 0 b.length = b ∧ fld (wireFrame b) b.length 4 = crc32 b % 2 ^ 32) ∧
    ((∀ q ∈ pieces b, q.length ≤ 256) ∧ (pieces b).flatten = b) ∧
    (1024 ≤ x.blocks → sendBlock room x = ({ x with blocks := 0 }, none)) ∧
    (x.tx0 = [] → x.tx = [] → sendBlock room x = ({ x with blocks := 0 }, none)) ∧
    (x.blocks < 1024 → x.tx0 = f :: rest → mayBegin room x f = true → 1 < f.left →
      sendBlock room x = ({ x with blocks := x.blocks + 1, tx0 := afterBlock x.lack f :: rest }, none)) ∧
    (x.blocks < 1024 → x.tx0 = f :: rest → mayBegin room x f = true → f.left ≤ 1 →
      sendBlock room x = ({ x with blocks := x.blocks + 1, tx0 := rest }, some (afterBlock x.lack f))) ∧
    (x.blocks < 1024 → x.tx0 = [] → x.tx = f :: rest → f.begun = true → 1 < f.left →
      sendBlock room x = ({ x with blocks := x.blocks + 1, tx := { f with left := f.left - 1 } :: rest }, none)) ∧
    (f.begun = false → f.lseq.isSome = true → 65536 < replayHeld x + 8 * f.left → mayBegin room x f = false) ∧
    (f.begun = false → 12 ≤ f.data.length → let g := afterBlock x.lack f
      fld g.data 8 2 = f.lseq.getD 0 % 65536 ∧ fld g.data 10 2 = x.lack % 65536 ∧ g.data.length = f.data.length)

/-- Bupex links and their frames (R548, R552, R557 to R559, R563, R564, R568): a link runs once lanes may leave electrical idle,
exchanges HELLO, comes up on equal digests, goes down on silence, idles once it has nothing to send, and wakes; its frames go to
its transmitter; a frame with a wrong CRC-32, or that overruns the elastic buffer (log 128), is replaced or counted, one out of
order waits for its replay, which a request brings, one that has come before is dropped, and one for another device is passed
on until its TTL ends. -/
def Sys2Proof.Machine.Claims.BupexLinksAndFrames : Prop :=
  ∀ (s : State) (l : Fin 6) (peer : BitVec 12) (dig : BitVec 64) (rtt : BitVec 16) (f : BupexFrame) (o : Object),
    let x := linkRun s l
    let me := deviceId s
    let fails := fun (i : Instr) => Effect i s fun u => u = s
    let heard := Instr.hello l (some (peer, dig, rtt))
    let counts := fun (u : State) (k : Nat) => cntGet u (cntKey uBUPEX l k) = min 0xFFFFFFFF (cntGet s (cntKey uBUPEX l k) + 1)
    let idleLane := fun (u : State) (v : Nat) => ∀ n ∈ lanesOwned s 2 l, regF u uLANE n 0x000 26 26 = v
    let level := elasticLevel x.elastic f.clock
    let held := { x with elastic := min level.toNat 8 }
    let header := leBytes 3 (linkPeer s l % 4096 + me % 4096 * 4096) ++ [0, 0, 255] ++ zeros 5
    let control := fun (kind : String) (type : BitVec 8) (body : Bytes) (n : Nat) =>
      ({ kind := kind, data := [type] ++ header ++ body, left := n } : TxFrame)
    (objFind s (linkObj l) = some o →
      (o.st = some .starting → lanesOff s = false → Effect (.bupexLinkRunning l) s fun u =>
        (∃ y, objFind u (linkObj l) = some y ∧ y.st = some .running ∧ y.body = o.body) ∧
        ∀ n ∈ linkLanes o.body, regF u uLANE n 0x000 26 26 = 0) ∧
      (o.st ≠ some .starting ∨ lanesOff s = true → fails (.bupexLinkRunning l))) ∧
    (isRunning s (linkObj l) = true →
      (Effect (.hello l none) s fun u =>
        linkRun u l = { x with tx := x.tx ++ [control "hello" 0x32 (leBytes 2 me ++ digest s) 4] } ∧
        (∀ k, k ≠ l.val → linkRun u k = linkRun s k) ∧ { u with serial := s.serial } = s) ∧
      (linkDeaf s l = false →
        let same := dig.toNat = leNat (digest s)
        (peer.toNat ≠ me → same → Effect heard s fun u =>
          (linkRun u l).hello = some (peer.toNat, true, s.now) ∧ linkPeer u l = peer.toNat ∧
          regF u uBUPEX l 0x000 15 0 = rtt.toNat ∧ linkUp u l = linkUp s l) ∧
        (peer.toNat = me ∨ ¬ same → Effect heard s fun u => linkUp u l = false ∧ linkPeer u l = peer.toNat))) ∧
    (isRunning s (linkObj l) = false → fails (.hello l none)) ∧
    (∀ p t, x.hello = some (p, true, t) → isRunning s (linkObj l) = true →
      (linkUp s l = false → p ≠ me → s.now < t + 30000 → Effect (.bupexLinkUp l) s fun u => linkUp u l = true ∧
        ∀ n ∈ lanesOwned s 2 l, regF u uLANE n 0x000 31 30 = 3) ∧
      (t + 30000 ≤ s.now → fails (.bupexLinkUp l)) ∧
      (let limit := if linkIdle s l then 3000000 else 30000
       (linkUp s l = true → t + limit ≤ s.now → Effect (.bupexLinkDown l) s fun u => linkUp u l = false ∧ counts u 7 ∧
         ∀ n ∈ lanesOwned s 2 l, regF u uLANE n 0x000 31 30 = 0) ∧
       (s.now < t + limit → fails (.bupexLinkDown l)))) ∧
    (linkUp s l = true →
      (linkIdle s l = false →
        (bit (fld (linkBody s l) 3 1) 2 = true → x.waiting = [] → x.tx0 = [] → x.tx = [] →
            x.lastTx + fld (linkBody s l) 4 2 * 1000 ≤ s.now →
          Effect (.bupexIdleEntry l) s fun u => linkIdle u l = true ∧ idleLane u 1 ∧ { u with regs := s.regs } = s) ∧
        (s.now < x.lastTx + fld (linkBody s l) 4 2 * 1000 ∨ x.waiting ≠ [] ∨ x.tx0 ≠ [] ∨ x.tx ≠ [] → fails (.bupexIdleEntry l)) ∧
        fails (.bupexIdleExit l true)) ∧
      (linkIdle s l = true → (∀ n ∈ lanesOwned s 2 l, awake s (some (33 + n / 12)) = true) → linkDeaf s l = false →
        (Effect (.bupexIdleExit l true) s fun u => linkIdle u l = false ∧ linkUp u l = true ∧ idleLane u 0 ∧
          (linkRun u l).waiting = [] ∧ counts u 9) ∧
        (Effect (.bupexIdleExit l false) s fun u => linkUp u l = false ∧ counts u 7 ∧ counts u 9)) ∧
      (linkDeaf s l = false → l.val ≠ 0 ∨ s.sec.trained = none →
        (f.crc = false ∨ 8 < level →
          (f.cls.val = 0 → Effect (.bupexFrame l f) s fun u => counts u 2 ∧ counts u 4 ∧ u.video = s.video ∧
            linkRun u l = held ∧ u.serial.md = s.serial.md) ∧
          (f.cls.val ≠ 0 → Effect (.bupexFrame l f) s fun u => counts u 2 ∧ u.video = s.video ∧ u.serial.md = s.serial.md ∧
            linkRun u l = { held with tx := x.tx ++ [control "replay-request" 0x32 [] 2] })) ∧
        (f.crc = true → level ≤ 8 →
          (f.body = .replayRequest → Effect (.bupexFrame l f) s fun u => counts u 3 ∧
            (let left := x.unacked.filter fun q => 32768 ≤ (f.lack.toNat + 65536 - q.lseq) % 65536
             linkRun u l = { held with
               unacked := left
               tx := (x.tx.filter fun q => q.lseq.isNone) ++ left.map fun q =>
                 { lseq := some q.lseq, kind := q.kind, data := q.data, left := frameBlocks q.data } })) ∧
          (f.body = .ack → Effect (.bupexFrame l f) s fun u => counts u 1 ∧ (linkRun u l).unacked =
            x.unacked.filter fun q => 32768 ≤ (f.lack.toNat + 65536 - q.lseq) % 65536) ∧
          (∀ h, f.body = .subscribe h →
            (f.cls.val ≠ 0 → f.lseq.toNat ≠ (x.lack + 1) % 65536 → Effect (.bupexFrame l f) s fun u => counts u 1 ∧
              u.video = s.video ∧ (linkRun u l).tx = x.tx ∧ (linkRun u l).lack = x.lack) ∧
            (f.cls.val ≠ 0 → f.lseq.toNat = (x.lack + 1) % 65536 → f.dst.toNat = me →
              spFind s.serial.md.filters f.src.toNat = none → Effect (.bupexFrame l f) s fun u =>
                (f.src.toNat, h.toNat) ∈ u.video.fwd.subs ∧ (linkRun u l).lack = f.lseq.toNat ∧
                (linkRun u l).tx = x.tx ++ [control "ack" 0x31 [] 2] ∧
                spFind u.serial.md.filters f.src.toNat = some { high := f.seq.toNat }) ∧
            (f.cls.val = 0 → f.dst.toNat = me → ∀ d, spFind s.serial.md.filters f.src.toNat = some d →
              (d.high = f.seq.toNat ∨ ((f.seq.toNat + 65536 - d.high) % 65536 ≥ 61440 ∧ f.seq.toNat ∈ d.seen) →
                Effect (.bupexFrame l f) s fun u => counts u 5 ∧ u.video = s.video ∧ u.serial.md = s.serial.md) ∧
              (32768 ≤ (f.seq.toNat + 65536 - d.high) % 65536 → (f.seq.toNat + 65536 - d.high) % 65536 < 61440 →
                d.high ≠ f.seq.toNat → Effect (.bupexFrame l f) s fun u => counts u 6 ∧ u.video = s.video ∧
                  u.serial.md = s.serial.md)) ∧
            (f.cls.val = 0 → f.dst.toNat ≠ me →
              (f.ttl.toNat ≤ 1 → Effect (.bupexFrame l f) s fun u => counts u 8 ∧ u.video = s.video ∧
                ∀ k, (linkRun u k).tx0 = (linkRun s k).tx0 ∧ (linkRun u k).tx = (linkRun s k).tx) ∧
              (∀ k, 1 < f.ttl.toNat → f.dup = false → routeTo s f.dst.toNat 0 = some k → linkIdle s k = false →
                Effect (.bupexFrame l f) s fun u => u.video = s.video ∧ ∃ g, (linkRun u k).tx0 = (linkRun s k).tx0 ++ [g] ∧
                  g.kind = "forecast-subscribe" ∧ fld g.data 0 1 % 16 = 0 ∧ fld g.data 1 3 = f.dst.toNat + f.src.toNat * 4096 ∧
                  fld g.data 6 1 = f.ttl.toNat - 1)))))) ∧
    (linkUp s l = false → (l.val ≠ 0 ∨ s.sec.trained = none → fails (.bupexFrame l f)) ∧ fails (.bupexLinkDown l) ∧ fails (.bupexIdleEntry l))

/-- Bupex links, their frames and their transmitters. -/
def Obligations.BupexLinks : Prop :=
  Claims.BupexLinksAndFrames ∧ Claims.BupexTransmitter

/-- The system of devices (R566, R570 to R577): a packet on a proxy queue goes to its home device, a partition held for PARTITION_HOLD
gives this side its role by the votes, a rejoin restores it, and MD_STATUS, BUPEX_LINK_STATS and BUPEX_BOOT_SEND answer. -/
def Obligations.SystemOfDevices : Prop :=
  ∀ (s : State) (r : Request) (q : BitVec 16),
    let m := s.serial.md
    let side := reachable s
    let mine := votesOf s side
    let all := votesOf s ((members s).map (·.1))
    let fails := fun (i : Instr) => Effect i s fun u => u = s
    let due := fun (e : Nat × Nat) => e.1 ∉ m.cut ∧ e.2 + fld (mdBody s) 2 2 * 1000000 ≤ s.now
    (deviceId s ≠ 0xFFF → (∃ e ∈ m.gone, due e) → Effect .partitioned s fun u =>
      u.serial.md.cut = m.gone.map (·.1) ∧ u.serial.md.leader = leaderOf side ∧
      (all < 2 * mine → u.serial.md.role = 2) ∧ (2 * mine < all → u.serial.md.role = 3) ∧
      (2 * mine = all → u.serial.md.role = if ∃ e ∈ members s, e.1 ∈ side ∧ e.2.2 = true then 2 else 3)) ∧
    ((∀ e ∈ m.gone, ¬ due e) → fails .partitioned) ∧
    (∀ t, m.cut ≠ [] → m.allSince = some t →
      (t + fld (mdBody s) 2 2 * 1000000 ≤ s.now → Effect .rejoined s fun u => u.serial.md.role = 1 ∧ u.serial.md.cut = [] ∧
        u.serial.md.leader = leaderOf ((members s).map (·.1))) ∧
      (s.now < t + fld (mdBody s) 2 2 * 1000000 → fails .rejoined)) ∧
    (m.cut = [] → fails .rejoined) ∧
    (∀ e h t, (proxies s).find? (fun e => e.localQ == q.toNat) = some e → (queue s q.toNat).items = h :: t →
      (routeTo s e.home e.cls ≠ none → Effect (.proxyEnqueue q) s fun u => (queue u q.toNat).items = t ∧
        u.serial.md.carried = m.carried ++ [h]) ∧
      (routeTo s e.home e.cls = none → fails (.proxyEnqueue q))) ∧
    ((proxies s).find? (fun e => e.localQ == q.toNat) = none → fails (.proxyEnqueue q)) ∧
    (r.params = [] → dryRun r = false →
      (Addressed r uBUPEX 0 → Replies (.mdStatus r) s 0x0A40 r 0 ([BitVec.ofNat 8 m.role, 0] ++ leBytes 2 m.leader ++
        leBytes 2 (votesOf s (sortBy id side)) ++ leBytes 2 all ++ leBytes 8 m.changedAt ++ leBytes 2 (sortBy id side).length ++
        [0, 0] ++ (sortBy id side).flatMap (leBytes 2)) s) ∧
      (Addressed r uBUPEX r.inst.toNat → r.inst.toNat < 6 → ∃ res, Replies (.bupexLinkStats r) s 0x0A41 r 0 res s ∧ res.length = 40 ∧
        ∀ k, k < 10 → fld res (4 * k) 4 = cntGet s (cntKey uBUPEX r.inst.toNat k) % 2 ^ 32)) ∧
    (Addressed r uBUPEX 0 → LongRoom s r → r.params.length = 16 → fld r.params 0 1 < laneCount s.part → rsv r.params 1 3 = true →
      1 ≤ fld r.params 4 4 → fld r.params 4 4 ≤ 0x2000000 →
      (laneOwner s (fld r.params 0 1) = 0 → Accepts (.bupexBootSend r) s 0x0A42 r none true
        (laneTake 2 0xFF 4 false (fld r.params 0 1))) ∧
      (laneOwner s (fld r.params 0 1) ≠ 0 → Replies (.bupexBootSend r) s 0x0A42 r 0x0A01 [] s))

/-! ### Jortanu fabric (17_jortanu_fabric.md) -/

/-- Regions and configuration (R582, R583, R587, R588, R590, R592, R593): a starting region whose image passes its checks is loaded and runs
with its pins, one that fails returns to STOPPED, one whose memory has to wake waits, a stopping region stops, a frame that reads back changed stops its
region, and a line in contention is forced off. -/
def Sys2Proof.Machine.Claims.FabricRegions : Prop :=
  ∀ (s : State) (r : Fin 96) (o : Object) (row : Fin 6) (line : Fin 16) (upset : Bool),
    let fails := fun (i : Instr) => Effect i s fun u => u = s
    let state := fun (u : State) (k : Nat) (f : FnState) => ∃ y, objFind u (regionObj k) = some y ∧ y.st = some f
    (objFind s (regionObj r) = some o →
      (o.st = some .starting →
        (∀ img w v, regionImage o.body s = (.ok, img, w) → regionVerify r o.body img w = (0, v) →
          Effect (.regionStartLoad r) s fun u => state u r .running ∧
            (∀ b ∈ regionBlocks v r, spFind u.fabric.frames b = some (frameOf (imgPayload img) b)) ∧
            (∀ b, b ∉ regionBlocks v r → spFind u.fabric.frames b = spFind v.fabric.frames b) ∧
            (∀ n, n < 128 → fld (imgPayload img) (112 + 2 * n) 1 = r.val → spGet 0xFF u.fabric.pinOwner n = r.val) ∧
            (∀ n, n < 12 → fld (imgPayload img) (368 + 2 * n) 1 = r.val → spGet 0xFF u.fabric.portOwner n = r.val)) ∧
        (∀ img w v st, regionImage o.body s = (.ok, img, w) → regionVerify r o.body img w = (st, v) → st ≠ 0 →
          Effect (.regionStartLoad r) s fun u => state u r .stopped ∧ u.fabric = v.fabric) ∧
        (∀ img w, regionImage o.body s = (.busError, img, w) → Effect (.regionStartLoad r) s fun u => state u r .stopped) ∧
        (∀ img w, regionImage o.body s = (.wait, img, w) → Effect (.regionStartLoad r) s fun u => u = w)) ∧
      (o.st ≠ some .starting → fails (.regionStartLoad r)) ∧
      (o.st = some .stopping → Effect (.regionStop r) s fun u => state u r .stopped ∧ u.fabric = s.fabric) ∧
      (o.st ≠ some .stopping → fails (.regionStop r))) ∧
    (let b := s.fabric.check
     let next := fun (u : State) => u.fabric = { s.fabric with check := (b + 1) % 96 }
     (upset = false ∨ blockRegion s b = none → Effect (.cfgReadback upset) s fun u => next u ∧ { u with fabric := s.fabric } = s) ∧
     (∀ g y, blockRegion s b = some g → spFind s.fabric.frames b ≠ none → objFind s (regionObj g) = some y →
       y.st = some .running → Effect (.cfgReadback true) s fun u => next u ∧ state u g .stopped ∧
         (∃ e ∈ u.evq, e.code = 0x3002 ∧ e.data.take 2 = [BitVec.ofNat 8 b, BitVec.ofNat 8 g]) ∧
         regF u uFABRIC 0 0x030 31 0 = min 0xFFFFFFFF (regF s uFABRIC 0 0x030 31 0 + 1))) ∧
    (let forced := fun (u : State) (k : Nat) => regF u uFABRIC 0 (0x010 + 4 * row) k k
     let tap := (liveFrames s 0xFF).find? fun e => e.1 / 16 == row.val && (Config.tapEnables e.2).getLsbD line
     (tap ≠ none → forced s line = 0 → Effect (.fabricContention row line) s fun u => forced u line = 1 ∧
       (∀ k, k < 16 → k ≠ line.val → forced u k = forced s k) ∧ ∃ e ∈ u.evq, e.code = 0x3001 ∧
         e.data.take 2 = [BitVec.ofNat 8 row, BitVec.ofNat 8 line]) ∧
     (tap = none ∨ forced s line = 1 → fails (.fabricContention row line)))

/-- Pins, oscillators and serial ports (R589, R594, R597, R599): SET and CLR change the pins that a register owns and no others, DIV of an
oscillator is kept while it runs and outside 2 to 50, and a port's FIFOs hold 64 bytes each. -/
def Sys2Proof.Machine.Claims.FabricPinsAndPorts : Prop :=
  ∀ (s : State) (k n : Fin 4) (p : Fin 12) (value : BitVec 32) (byte : BitVec 8),
    let v := value.toNat
    let pin := fun (u : State) (i : Nat) => regGet u uFABRIC 0 (0x1000 + 4 * i)
    let pinOut := fun (u : State) (i : Nat) => regF u uFABRIC 0 (0x1000 + 4 * i) 2 2
    let osc := fun (u : State) (hi lo : Nat) => regF u uFABRIC 0 (0x040 + 4 * n) hi lo
    let port := serialPort s p
    let fails := fun (i : Instr) => Effect i s fun u => u = s
    let sets := fun (i : Instr) (on : Nat) => Effect i s fun u => { u with regs := s.regs } = s ∧ ∀ j, j < 128 →
      (j / 32 = k.val → bit v (j % 32) = true → pinReg s j = true → pinOut u j = on) ∧
      (j / 32 ≠ k.val ∨ bit v (j % 32) = false ∨ pinReg s j = false → pin u j = pin s j)
    let error := fun (e : SpEvent) (b : Nat) => Effect (.serialPortByteReceived p e) s fun u =>
      regF u uFABRIC 0 (0x2004 + 0x20 * p) b b = 1 ∧ (serialPort u p).rx = port.rx
    sets (.fabricPinSet k value) 1 ∧ sets (.fabricPinClr k value) 0 ∧
    (Effect (.oscEnable n value) s fun u => osc u 31 31 = b2n (bit v 31) ∧
      osc u 5 0 = (if osc s 31 31 = 1 ∨ bits v 5 0 < 2 ∨ 50 < bits v 5 0 then osc s 5 0 else bits v 5 0) ∧
      (bit v 31 = true → osc s 31 31 = 0 → spFind u.fabric.oscAt n = some s.now)) ∧
    (portReg s p = true →
      (port.tx.length < 64 → Effect (.fabricSpTx p value) s fun u =>
        serialPort u p = { port with tx := port.tx ++ [v % 1024] } ∧ { u with fabric := s.fabric } = s) ∧
      (64 ≤ port.tx.length → fails (.fabricSpTx p value)) ∧
      (∀ b q, port.rx = b :: q → Effect (.fabricSpRx p) s fun u => u.rdata = 2 ^ 31 + b ∧
        serialPort u p = { port with rx := q } ∧ { u with fabric := s.fabric, rdata := s.rdata } = s) ∧
      (port.rx = [] → Effect (.fabricSpRx p) s fun u => u = { s with rdata := 0 }) ∧
      (regF s uFABRIC 0 (0x2000 + 0x20 * p) 31 31 = 1 →
        (port.rx.length < 64 → Effect (.serialPortByteReceived p (.byte byte)) s fun u =>
          serialPort u p = { port with rx := port.rx ++ [byte.toNat] } ∧ { u with fabric := s.fabric } = s) ∧
        (64 ≤ port.rx.length → error (.byte byte) 29) ∧
        (1 ≤ p.val → p.val ≤ 3 → error .framing 27) ∧ (8 ≤ p.val → error .nack 28)) ∧
      (regF s uFABRIC 0 (0x2000 + 0x20 * p) 31 31 = 0 → fails (.serialPortByteReceived p (.byte byte)))) ∧
    (portReg s p = false → fails (.fabricSpTx p value) ∧ fails (.serialPortByteReceived p (.byte byte)) ∧
      Effect (.fabricSpRx p) s fun u => u = { s with rdata := 0 })

/-- Fabric regions and configuration, pins, oscillators and serial ports. -/
def Obligations.Fabric : Prop :=
  Claims.FabricRegions ∧ Claims.FabricPinsAndPorts

/-! ### Power, rails, sensors and fault injection (18_power.md, 19_faults.md, 20_electrical.md) -/

/-- Domains (R606, R607, R609 to R616, R620): an idle timer or a register asks for a deeper state, entry runs its steps and is refused
while the domain is not idle, HOLD keeps a sentinel for each of a crew's banks, a request for RUN wakes the domain step by
step, and a wake that does not come up leaves it in FAULT. -/
def Obligations.PowerDomains : Prop :=
  ∀ (s : State) (d : Fin 38) (which : Fin 3) (upto : Fin 7) (value : BitVec 32) (lane : Fin 48) (t : PState) (k since : Nat),
    let x := dom s d
    let b := policy s d
    let fails := fun (i : Instr) => Effect i s fun u => u = s
    let becomes := fun (i : Instr) (y : Domain) => Effect i s fun u => dom u d = y ∧ ∀ e, e ≠ d.val → dom u e = dom s e
    let well := domainAbsent s.part d = false ∧ x.fault = false ∧ x.shed = false
    let ns := if which.val = 0 then fld b 4 4 * 1000 else if which.val = 1 then fld b 8 4 * 1000 else fld b 12 4 * 1000000
    let ctrl := Instr.powerDomCtrl d value
    let lanes := 33 + lane.val / 12 = d.val
    s.power.ended = [] →
    (∀ t0, x.idleSince = some t0 →
      (well → x.trans = none → ns ≠ 0 → t0 + ns ≤ s.now → isIdle s d = true → which.val + 1 ≤ deepest s d →
        depth x.st < which.val + 1 →
        becomes (.idleTimerExpiry d which) { x with trans := some (.entry (ofDepth (which.val + 1)) 0) }) ∧
      (s.now < t0 + ns → fails (.idleTimerExpiry d which))) ∧
    (well → x.trans = none → bit value.toNat 2 = true → value.toNat % 4 ≤ deepest s d →
      (depth x.st < value.toNat % 4 → isIdle s d = true → becomes ctrl
        { x with trans := some (.entry (ofDepth (value.toNat % 4)) 0) }) ∧
      (value.toNat % 4 = 1 → x.st = .run → isIdle s d = false → Effect ctrl s fun u => dom u d = x ∧
        regF u uPOWER 0 (0x108 + 0x10 * d) 31 16 = min 0xFFFF (regF s uPOWER 0 (0x108 + 0x10 * d) 31 16 + 1)) ∧
      (value.toNat % 4 = 0 → x.st ≠ .run → becomes ctrl { x with
        trans := some (.wake x.st 0 s.now), wakeNext := false, idleSince := none })) ∧
    (bit value.toNat 2 = false ∨ deepest s d < value.toNat % 4 → fails ctrl) ∧
    (x.trans = some (.entry .doze k) → x.pend = none → becomes (.dozeEntry d) { x with st := .doze, trans := none }) ∧
    (x.trans = none → fails (.dozeEntry d) ∧ fails (.domainEntry d upto) ∧ fails (.domainEntryComplete d) ∧
      fails (.wakeReadyStep d) ∧ fails (.wakeFail d)) ∧
    (x.trans = some (.entry t k) → t ≠ .doze →
      (12 ≤ d.val → isIdle s d = true → k ≤ upto.val →
        becomes (.domainEntry d upto) { x with trans := some (.entry t upto) }) ∧
      (isIdle s d = false → k = 0 → upto.val ≠ 0 → x.st = .run → x.pend = none → Effect (.domainEntry d upto) s fun u =>
        dom u d = { x with trans := none, idleSince := none, retained := [] } ∧
        regF u uPOWER 0 (0x108 + 0x10 * d) 31 16 = min 0xFFFF (regF s uPOWER 0 (0x108 + 0x10 * d) 31 16 + 1)) ∧
      (d.val < 12 → k = 2 → upto.val = 3 → t = .hold → Effect (.domainEntry d upto) s fun u =>
        (dom u d).trans = some (.entry .hold 3) ∧ (dom u d).retained.length = x.retained.length + 32) ∧
      (6 ≤ k →
        (x.wakeNext = false → x.pend = none → becomes (.domainEntryComplete d)
          { x with st := t, trans := none, retained := if t = .off then [] else x.retained }) ∧
        (x.wakeNext = true → x.shed = false → Effect (.domainEntryComplete d) s fun u =>
          (dom u d).st = t ∧ (dom u d).trans = some (.wake t 0 s.now))) ∧
      (k < 6 → fails (.domainEntryComplete d) ∧ (lanes → well → x.st = .run → x.pend = none → Effect (.wakeRequest d (.lane lane)) s
        fun u => dom u d = { x with trans := none, idleSince := none, retained := [] } ∧
          regF u uPOWER 0 (0x108 + 0x10 * d) 15 0 = min 0xFFFF (regF s uPOWER 0 (0x108 + 0x10 * d) 15 0 + 1)))) ∧
    (lanes → well → x.trans = none →
      (x.st ≠ .run → becomes (.wakeRequest d (.lane lane)) { x with
        trans := some (.wake x.st 0 s.now), wakeNext := false, idleSince := none }) ∧
      (x.st = .run → fails (.wakeRequest d (.lane lane)))) ∧
    (¬ lanes → fails (.wakeRequest d (.lane lane))) ∧
    (x.trans = some (.wake t k since) →
      (k < 3 → (k = 2 → 12 ≤ d.val) → becomes (.wakeReadyStep d) { x with trans := some (.wake t (k + 1) s.now) }) ∧
      (3 ≤ k → 12 ≤ d.val → x.pend = none → becomes (.wakeReadyStep d)
        { x with st := .run, trans := none, idleSince := none, retained := [] }) ∧
      (since + 4 * readyTime d t k ≤ s.now → 12 ≤ d.val → Effect (.wakeFail d) s fun u =>
        dom u d = { x with fault := true, trans := none, pend := none, wakeNext := false } ∧
        ∃ e ∈ u.evq, e.code = 0x3102 ∧ e.data.take 2 = [BitVec.ofNat 8 d, BitVec.ofNat 8 k]) ∧
      (s.now < since + 4 * readyTime d t k → fails (.wakeFail d)))

/-- Fault injection and the single-fault guarantee (R642, R644 to R646): SFG_STATUS answers the clauses, an injection begins at once, is
refused without authority or a fifth time, ends with FAULT_CLEAR or with its duration, and a crew's cannot be cleared. -/
def Obligations.FaultInjections : Prop :=
  ∀ (s : State) (r : Request),
    let p := r.params
    let kind := fld p 0 1
    let target := fld p 2 2
    let us := fld p 8 4
    let old := s.power.injections
    let one : Injection := { kind := kind, target := target, sub := fld p 4 2
                             until_ := if us = 0 ∨ kind = 5 then none else some (s.now + us * 1000) }
    (Effect .injectionExpiry s fun u => u =
      { s with power := { s.power with injections := old.filter fun i => !(i.until_.any fun t => t ≤ s.now) } }) ∧
    (r.transport ≠ .pcie → r.reserved = false → Replies (.faultInject r) s 0x0941 r 0x0023 [] s) ∧
    (Addressed r uSYS 0 →
      (p = [] → ∃ res, Replies (.sfgStatus r) s 0x0940 r 0 res s ∧ res.length = 8 ∧
        (fld res 0 1 = 0 ↔ ∀ e ∈ s.memc, e.2.suspect = []) ∧ fld res 5 3 = 0) ∧
      (r.transport = .pcie → p.length = 12 → injectRange kind target (fld p 4 2) = true → rsv p 1 1 = true → rsv p 6 2 = true →
        injectAbsent s kind target = false →
        (old.length < 4 → (kind ≠ 2 ∧ kind ≠ 5 → Effect (.faultInject r) s fun u => ∃ w,
            u = reply 0x0941 r 0 (leBytes 8 (shortNow s)) w ∧ w.power.injections = old ++ [one] ∧
            (∃ e ∈ w.evq, e.code = 0x0103) ∧ { w with power := s.power, evq := s.evq } = s) ∧
          (kind = 5 → crewUsable s target = true → Effect (.faultInject r) s fun u => ∃ w,
            u = reply 0x0941 r 0 (leBytes 8 (shortNow s)) w ∧ w.power.injections = old ++ [one] ∧ crewUsable w target = false)) ∧
        (4 ≤ old.length → Replies (.faultInject r) s 0x0941 r 0x0017 [] s)) ∧
      (p.length = 8 → rsv p 1 1 = true → rsv p 4 4 = true →
        (kind ≠ 5 → (∃ i ∈ old, i.kind = kind ∧ i.target = target) → Replies (.faultClear r) s 0x0942 r 0 []
          { s with power := { s.power with injections := old.filter fun i => !(i.kind == kind && i.target == target) } }) ∧
        (kind = 5 ∨ (∀ i ∈ old, i.kind = kind → i.target ≠ target) → Replies (.faultClear r) s 0x0942 r 0x0012 [] s)))

/-- Rails, power failure, its commands and the sensors (R621, R623, R625, R626, R630, R664): a threshold is crossed with the fourth
sample beyond it, PFAIL holds the shed domains until power has returned, LAST_GASP is reported, POWER_SET is accepted down
to the deepest state allowed, POWER_STATUS answers every domain, and a sensor keeps its highest reading. -/
def Obligations.RailsAndPowerFailure : Prop :=
  ∀ (s : State) (m : Fin 8) (level : BitVec 16) (l : Fin 6) (sender : BitVec 12) (k : Fin 16) (v : BitVec 13) (r : Request),
    let c := spGet {} s.power.rails m
    let b := supply s
    let bound := fun (o : Nat) => fld b (o + 8 * m.val) 2
    let rail := fun (u : State) => spGet {} u.power.rails m
    let reg := fun (u : State) (hi lo : Nat) => regF u uPOWER 0 (0x400 + 4 * m) hi lo
    let sample := Instr.monitorSample m level
    let p := r.params
    let d := fld p 0 1
    let up := fun (beyond : Prop) [Decidable beyond] (n : Nat) => if beyond then min 5 (n + 1) else 0
    (s.sec.held = .no →
      (m.val ≠ 2 → m.val ≠ 3 → Effect sample s fun u => reg u 15 0 = level.toNat ∧
        (rail u).uvWarn = up (level.toNat < bound 24) c.uvWarn ∧ (rail u).uvFault = up (level.toNat < bound 26) c.uvFault ∧
        (rail u).ovFault = up (bound 28 < level.toNat) c.ovFault ∧
        ((rail u).uvWarn = 4 → reg u 31 31 = 1) ∧ ((rail u).uvFault = 4 → reg u 30 30 = 1) ∧ ((rail u).ovFault = 4 → reg u 29 29 = 1) ∧
        ((rail u).uvWarn ≠ 4 → (rail u).uvFault ≠ 4 → (rail u).ovFault ≠ 4 → reg u 31 29 = reg s 31 29)) ∧
      (m.val = 2 ∨ m.val = 3 → c.uvFault = 3 → level.toNat < bound 26 → Effect sample s fun u => reg u 30 30 = 1 ∧
        ∀ j, j < 6 → crewUsable u (6 * (m.val - 2) + j) = false) ∧
      (Effect (.tempSensorUpdate k v) s fun u => regF u uPOWER 0 (0x500 + 4 * k) 31 31 = 1 ∧
        regF u uPOWER 0 (0x500 + 4 * k) 12 0 = v.toNat ∧ regF u uPOWER 0 0x540 12 0 =
          (if toS 13 (regF s uPOWER 0 0x540 12 0) < v.toInt then v.toNat else regF s uPOWER 0 0x540 12 0)) ∧
      (bit (fld b 1 1) 0 = true → regF s uPOWER 0 0x000 31 31 = 0 → Effect .pfail s fun u => regF u uPOWER 0 0x000 31 31 = 1 ∧
        u.power.pfailAt = some s.now ∧ ∀ e ∈ shedDomains s, (dom u e).shed = true)) ∧
    (bit (fld b 1 1) 0 = false ∨ regF s uPOWER 0 0x000 31 31 = 1 →
      Effect .pfail s fun u => u = { s with power := { s.power with pfailPin := false } }) ∧
    (linkUp s l = true → linkDeaf s l = false → Effect (.lastGaspReceived l sender) s fun u => { u with evq := s.evq } = s ∧
      ∃ e ∈ u.evq, e.code = 0x2A08 ∧ e.data.take 2 = leBytes 2 sender.toNat) ∧
    (linkUp s l = false → Effect (.lastGaspReceived l sender) s fun u => u = s) ∧
    (∀ t, s.power.pfailAt = some t →
      (t + 10000000 ≤ s.now → Effect .powerRestored s fun u => u.power.pfailAt = none ∧ regF u uPOWER 0 0x000 31 31 = 0 ∧
        (∀ e, e < 38 → (dom u e).shed = false) ∧ ∃ e ∈ u.evq, e.code = 0x3106) ∧
      (s.now < t + 10000000 → Effect .powerRestored s fun u => u = { s with power := { s.power with pfailPin := true } })) ∧
    (Addressed r uPOWER 0 →
      (LongRoom s r → p.length = 8 → d < 38 → fld p 1 1 < 4 → rsv p 2 6 = true → domainAbsent s.part d = false →
        (fld p 1 1 ≤ deepest s d → Accepts (.powerSet r) s 0x0740 r none true fun w =>
          if (dom w d).fault then powerEnd d (ofDepth (fld p 1 1)) 0x0040 uPOWER 0 w else powerRequest d (ofDepth (fld p 1 1)) w) ∧
        (deepest s d < fld p 1 1 → Replies (.powerSet r) s 0x0740 r 0x0704 [] s)) ∧
      (p = [] → ∃ res, Replies (.powerStatus r) s 0x0741 r 0 res s ∧ res.length = 304 ∧ ∀ e, e < 38 →
        fld res (8 * e) 1 = (if domainAbsent s.part e then 3 else depth (dom s e).st) ∧
        fld res (8 * e + 2) 2 = regF s uPOWER 0 (0x108 + 0x10 * e) 31 16 ∧
        fld res (8 * e + 4) 2 = regF s uPOWER 0 (0x108 + 0x10 * e) 15 0))
end

