-- ==== Sys2Proof/Laws/State.lean ====
section
/-!
SUPPORT. What each update of one piece of state leaves in every field: one lemma per field and update, true by rfl.
-/
namespace Sys2Proof.Machine
open Sys2Proof

variable (s : State) (u i o n : Nat) (v : W32) (b : Bytes) (w : Initiator) (ob : Object) (er : ErrPat) (co : Core) (sl : Slot)
  (fl : Flow) (qu : Queue) (pk : Packet) (cx : Ctx) (dm : Domain) (ro : Router) (ca : CarrierRun) (ha : Handset) (dc : DmaCh)
  (cq : List CopCmd) (fpow : Power → Power) (fcox : Cox → Cox) (faud : Audio → Audio) (fvid : VideoState → VideoState)
  (fsec : Sec → Sec) (ffab : Fabric → Fabric)

/-! ### regPut -/

@[simp] theorem regPut_part : (regPut u i o v s).part = s.part := rfl
@[simp] theorem regPut_now : (regPut u i o v s).now = s.now := rfl
@[simp] theorem regPut_coxCount : (regPut u i o v s).coxCount = s.coxCount := rfl
@[simp] theorem regPut_free : (regPut u i o v s).free = s.free := rfl
@[simp] theorem regPut_counters : (regPut u i o v s).counters = s.counters := rfl
@[simp] theorem regPut_mem : (regPut u i o v s).mem = s.mem := rfl
@[simp] theorem regPut_ecc : (regPut u i o v s).ecc = s.ecc := rfl
@[simp] theorem regPut_rdata : (regPut u i o v s).rdata = s.rdata := rfl
@[simp] theorem regPut_out : (regPut u i o v s).out = s.out := rfl
@[simp] theorem regPut_evq : (regPut u i o v s).evq = s.evq := rfl
@[simp] theorem regPut_notices : (regPut u i o v s).notices = s.notices := rfl
@[simp] theorem regPut_raised : (regPut u i o v s).raised = s.raised := rfl
@[simp] theorem regPut_evSeq : (regPut u i o v s).evSeq = s.evSeq := rfl
@[simp] theorem regPut_objs : (regPut u i o v s).objs = s.objs := rfl
@[simp] theorem regPut_cmd : (regPut u i o v s).cmd = s.cmd := rfl
@[simp] theorem regPut_memc : (regPut u i o v s).memc = s.memc := rfl
@[simp] theorem regPut_bankPend : (regPut u i o v s).bankPend = s.bankPend := rfl
@[simp] theorem regPut_spool : (regPut u i o v s).spool = s.spool := rfl
@[simp] theorem regPut_dma : (regPut u i o v s).dma = s.dma := rfl
@[simp] theorem regPut_shuttle : (regPut u i o v s).shuttle = s.shuttle := rfl
@[simp] theorem regPut_power : (regPut u i o v s).power = s.power := rfl
@[simp] theorem regPut_cox : (regPut u i o v s).cox = s.cox := rfl
@[simp] theorem regPut_weft : (regPut u i o v s).weft = s.weft := rfl
@[simp] theorem regPut_carriers : (regPut u i o v s).carriers = s.carriers := rfl
@[simp] theorem regPut_handsets : (regPut u i o v s).handsets = s.handsets := rfl
@[simp] theorem regPut_fhSeq : (regPut u i o v s).fhSeq = s.fhSeq := rfl
@[simp] theorem regPut_chirp : (regPut u i o v s).chirp = s.chirp := rfl
@[simp] theorem regPut_chirpMods : (regPut u i o v s).chirpMods = s.chirpMods := rfl
@[simp] theorem regPut_chirpGroups : (regPut u i o v s).chirpGroups = s.chirpGroups := rfl
@[simp] theorem regPut_tags : (regPut u i o v s).tags = s.tags := rfl
@[simp] theorem regPut_audio : (regPut u i o v s).audio = s.audio := rfl
@[simp] theorem regPut_hsp : (regPut u i o v s).hsp = s.hsp := rfl
@[simp] theorem regPut_video : (regPut u i o v s).video = s.video := rfl
@[simp] theorem regPut_serial : (regPut u i o v s).serial = s.serial := rfl
@[simp] theorem regPut_sec : (regPut u i o v s).sec = s.sec := rfl
@[simp] theorem regPut_fabric : (regPut u i o v s).fabric = s.fabric := rfl
@[simp] theorem regPut_cores : (regPut u i o v s).cores = s.cores := rfl
@[simp] theorem regPut_cops : (regPut u i o v s).cops = s.cops := rfl
@[simp] theorem regPut_keys : (regPut u i o v s).keys = s.keys := rfl
@[simp] theorem regPut_memChans : (regPut u i o v s).memChans = s.memChans := rfl
@[simp] theorem regPut_memGib : (regPut u i o v s).memGib = s.memGib := rfl
@[simp] theorem regPut_pending : (regPut u i o v s).pending = s.pending := rfl

/-! ### raise -/

@[simp] theorem raise_part : (raise u i o n b s).part = s.part := rfl
@[simp] theorem raise_now : (raise u i o n b s).now = s.now := rfl
@[simp] theorem raise_coxCount : (raise u i o n b s).coxCount = s.coxCount := rfl
@[simp] theorem raise_free : (raise u i o n b s).free = s.free := rfl
@[simp] theorem raise_regs : (raise u i o n b s).regs = s.regs := rfl
@[simp] theorem raise_counters : (raise u i o n b s).counters = s.counters := rfl
@[simp] theorem raise_mem : (raise u i o n b s).mem = s.mem := rfl
@[simp] theorem raise_ecc : (raise u i o n b s).ecc = s.ecc := rfl
@[simp] theorem raise_rdata : (raise u i o n b s).rdata = s.rdata := rfl
@[simp] theorem raise_out : (raise u i o n b s).out = s.out := rfl
@[simp] theorem raise_notices : (raise u i o n b s).notices = s.notices := rfl
@[simp] theorem raise_raised : (raise u i o n b s).raised = s.raised := rfl
@[simp] theorem raise_evSeq : (raise u i o n b s).evSeq = s.evSeq := rfl
@[simp] theorem raise_objs : (raise u i o n b s).objs = s.objs := rfl
@[simp] theorem raise_cmd : (raise u i o n b s).cmd = s.cmd := rfl
@[simp] theorem raise_memc : (raise u i o n b s).memc = s.memc := rfl
@[simp] theorem raise_bankPend : (raise u i o n b s).bankPend = s.bankPend := rfl
@[simp] theorem raise_spool : (raise u i o n b s).spool = s.spool := rfl
@[simp] theorem raise_dma : (raise u i o n b s).dma = s.dma := rfl
@[simp] theorem raise_shuttle : (raise u i o n b s).shuttle = s.shuttle := rfl
@[simp] theorem raise_power : (raise u i o n b s).power = s.power := rfl
@[simp] theorem raise_cox : (raise u i o n b s).cox = s.cox := rfl
@[simp] theorem raise_weft : (raise u i o n b s).weft = s.weft := rfl
@[simp] theorem raise_carriers : (raise u i o n b s).carriers = s.carriers := rfl
@[simp] theorem raise_handsets : (raise u i o n b s).handsets = s.handsets := rfl
@[simp] theorem raise_fhSeq : (raise u i o n b s).fhSeq = s.fhSeq := rfl
@[simp] theorem raise_chirp : (raise u i o n b s).chirp = s.chirp := rfl
@[simp] theorem raise_chirpMods : (raise u i o n b s).chirpMods = s.chirpMods := rfl
@[simp] theorem raise_chirpGroups : (raise u i o n b s).chirpGroups = s.chirpGroups := rfl
@[simp] theorem raise_tags : (raise u i o n b s).tags = s.tags := rfl
@[simp] theorem raise_audio : (raise u i o n b s).audio = s.audio := rfl
@[simp] theorem raise_hsp : (raise u i o n b s).hsp = s.hsp := rfl
@[simp] theorem raise_video : (raise u i o n b s).video = s.video := rfl
@[simp] theorem raise_serial : (raise u i o n b s).serial = s.serial := rfl
@[simp] theorem raise_sec : (raise u i o n b s).sec = s.sec := rfl
@[simp] theorem raise_fabric : (raise u i o n b s).fabric = s.fabric := rfl
@[simp] theorem raise_cores : (raise u i o n b s).cores = s.cores := rfl
@[simp] theorem raise_cops : (raise u i o n b s).cops = s.cops := rfl
@[simp] theorem raise_keys : (raise u i o n b s).keys = s.keys := rfl
@[simp] theorem raise_memChans : (raise u i o n b s).memChans = s.memChans := rfl
@[simp] theorem raise_memGib : (raise u i o n b s).memGib = s.memGib := rfl
@[simp] theorem raise_pending : (raise u i o n b s).pending = s.pending := rfl

/-! ### cntBump -/

@[simp] theorem cntBump_part : (cntBump u i s).part = s.part := rfl
@[simp] theorem cntBump_now : (cntBump u i s).now = s.now := rfl
@[simp] theorem cntBump_coxCount : (cntBump u i s).coxCount = s.coxCount := rfl
@[simp] theorem cntBump_free : (cntBump u i s).free = s.free := rfl
@[simp] theorem cntBump_regs : (cntBump u i s).regs = s.regs := rfl
@[simp] theorem cntBump_mem : (cntBump u i s).mem = s.mem := rfl
@[simp] theorem cntBump_ecc : (cntBump u i s).ecc = s.ecc := rfl
@[simp] theorem cntBump_rdata : (cntBump u i s).rdata = s.rdata := rfl
@[simp] theorem cntBump_out : (cntBump u i s).out = s.out := rfl
@[simp] theorem cntBump_evq : (cntBump u i s).evq = s.evq := rfl
@[simp] theorem cntBump_notices : (cntBump u i s).notices = s.notices := rfl
@[simp] theorem cntBump_raised : (cntBump u i s).raised = s.raised := rfl
@[simp] theorem cntBump_evSeq : (cntBump u i s).evSeq = s.evSeq := rfl
@[simp] theorem cntBump_objs : (cntBump u i s).objs = s.objs := rfl
@[simp] theorem cntBump_cmd : (cntBump u i s).cmd = s.cmd := rfl
@[simp] theorem cntBump_memc : (cntBump u i s).memc = s.memc := rfl
@[simp] theorem cntBump_bankPend : (cntBump u i s).bankPend = s.bankPend := rfl
@[simp] theorem cntBump_spool : (cntBump u i s).spool = s.spool := rfl
@[simp] theorem cntBump_dma : (cntBump u i s).dma = s.dma := rfl
@[simp] theorem cntBump_shuttle : (cntBump u i s).shuttle = s.shuttle := rfl
@[simp] theorem cntBump_power : (cntBump u i s).power = s.power := rfl
@[simp] theorem cntBump_cox : (cntBump u i s).cox = s.cox := rfl
@[simp] theorem cntBump_weft : (cntBump u i s).weft = s.weft := rfl
@[simp] theorem cntBump_carriers : (cntBump u i s).carriers = s.carriers := rfl
@[simp] theorem cntBump_handsets : (cntBump u i s).handsets = s.handsets := rfl
@[simp] theorem cntBump_fhSeq : (cntBump u i s).fhSeq = s.fhSeq := rfl
@[simp] theorem cntBump_chirp : (cntBump u i s).chirp = s.chirp := rfl
@[simp] theorem cntBump_chirpMods : (cntBump u i s).chirpMods = s.chirpMods := rfl
@[simp] theorem cntBump_chirpGroups : (cntBump u i s).chirpGroups = s.chirpGroups := rfl
@[simp] theorem cntBump_tags : (cntBump u i s).tags = s.tags := rfl
@[simp] theorem cntBump_audio : (cntBump u i s).audio = s.audio := rfl
@[simp] theorem cntBump_hsp : (cntBump u i s).hsp = s.hsp := rfl
@[simp] theorem cntBump_video : (cntBump u i s).video = s.video := rfl
@[simp] theorem cntBump_serial : (cntBump u i s).serial = s.serial := rfl
@[simp] theorem cntBump_sec : (cntBump u i s).sec = s.sec := rfl
@[simp] theorem cntBump_fabric : (cntBump u i s).fabric = s.fabric := rfl
@[simp] theorem cntBump_cores : (cntBump u i s).cores = s.cores := rfl
@[simp] theorem cntBump_cops : (cntBump u i s).cops = s.cops := rfl
@[simp] theorem cntBump_keys : (cntBump u i s).keys = s.keys := rfl
@[simp] theorem cntBump_memChans : (cntBump u i s).memChans = s.memChans := rfl
@[simp] theorem cntBump_memGib : (cntBump u i s).memGib = s.memGib := rfl
@[simp] theorem cntBump_pending : (cntBump u i s).pending = s.pending := rfl

/-! ### cntZero -/

@[simp] theorem cntZero_part : (cntZero u s).part = s.part := rfl
@[simp] theorem cntZero_now : (cntZero u s).now = s.now := rfl
@[simp] theorem cntZero_coxCount : (cntZero u s).coxCount = s.coxCount := rfl
@[simp] theorem cntZero_free : (cntZero u s).free = s.free := rfl
@[simp] theorem cntZero_regs : (cntZero u s).regs = s.regs := rfl
@[simp] theorem cntZero_mem : (cntZero u s).mem = s.mem := rfl
@[simp] theorem cntZero_ecc : (cntZero u s).ecc = s.ecc := rfl
@[simp] theorem cntZero_rdata : (cntZero u s).rdata = s.rdata := rfl
@[simp] theorem cntZero_out : (cntZero u s).out = s.out := rfl
@[simp] theorem cntZero_evq : (cntZero u s).evq = s.evq := rfl
@[simp] theorem cntZero_notices : (cntZero u s).notices = s.notices := rfl
@[simp] theorem cntZero_raised : (cntZero u s).raised = s.raised := rfl
@[simp] theorem cntZero_evSeq : (cntZero u s).evSeq = s.evSeq := rfl
@[simp] theorem cntZero_objs : (cntZero u s).objs = s.objs := rfl
@[simp] theorem cntZero_cmd : (cntZero u s).cmd = s.cmd := rfl
@[simp] theorem cntZero_memc : (cntZero u s).memc = s.memc := rfl
@[simp] theorem cntZero_bankPend : (cntZero u s).bankPend = s.bankPend := rfl
@[simp] theorem cntZero_spool : (cntZero u s).spool = s.spool := rfl
@[simp] theorem cntZero_dma : (cntZero u s).dma = s.dma := rfl
@[simp] theorem cntZero_shuttle : (cntZero u s).shuttle = s.shuttle := rfl
@[simp] theorem cntZero_power : (cntZero u s).power = s.power := rfl
@[simp] theorem cntZero_cox : (cntZero u s).cox = s.cox := rfl
@[simp] theorem cntZero_weft : (cntZero u s).weft = s.weft := rfl
@[simp] theorem cntZero_carriers : (cntZero u s).carriers = s.carriers := rfl
@[simp] theorem cntZero_handsets : (cntZero u s).handsets = s.handsets := rfl
@[simp] theorem cntZero_fhSeq : (cntZero u s).fhSeq = s.fhSeq := rfl
@[simp] theorem cntZero_chirp : (cntZero u s).chirp = s.chirp := rfl
@[simp] theorem cntZero_chirpMods : (cntZero u s).chirpMods = s.chirpMods := rfl
@[simp] theorem cntZero_chirpGroups : (cntZero u s).chirpGroups = s.chirpGroups := rfl
@[simp] theorem cntZero_tags : (cntZero u s).tags = s.tags := rfl
@[simp] theorem cntZero_audio : (cntZero u s).audio = s.audio := rfl
@[simp] theorem cntZero_hsp : (cntZero u s).hsp = s.hsp := rfl
@[simp] theorem cntZero_video : (cntZero u s).video = s.video := rfl
@[simp] theorem cntZero_serial : (cntZero u s).serial = s.serial := rfl
@[simp] theorem cntZero_sec : (cntZero u s).sec = s.sec := rfl
@[simp] theorem cntZero_fabric : (cntZero u s).fabric = s.fabric := rfl
@[simp] theorem cntZero_cores : (cntZero u s).cores = s.cores := rfl
@[simp] theorem cntZero_cops : (cntZero u s).cops = s.cops := rfl
@[simp] theorem cntZero_keys : (cntZero u s).keys = s.keys := rfl
@[simp] theorem cntZero_memChans : (cntZero u s).memChans = s.memChans := rfl
@[simp] theorem cntZero_memGib : (cntZero u s).memGib = s.memGib := rfl
@[simp] theorem cntZero_pending : (cntZero u s).pending = s.pending := rfl

/-! ### answer -/

@[simp] theorem answer_part : (answer u s).part = s.part := rfl
@[simp] theorem answer_now : (answer u s).now = s.now := rfl
@[simp] theorem answer_coxCount : (answer u s).coxCount = s.coxCount := rfl
@[simp] theorem answer_free : (answer u s).free = s.free := rfl
@[simp] theorem answer_regs : (answer u s).regs = s.regs := rfl
@[simp] theorem answer_counters : (answer u s).counters = s.counters := rfl
@[simp] theorem answer_mem : (answer u s).mem = s.mem := rfl
@[simp] theorem answer_ecc : (answer u s).ecc = s.ecc := rfl
@[simp] theorem answer_out : (answer u s).out = s.out := rfl
@[simp] theorem answer_evq : (answer u s).evq = s.evq := rfl
@[simp] theorem answer_notices : (answer u s).notices = s.notices := rfl
@[simp] theorem answer_raised : (answer u s).raised = s.raised := rfl
@[simp] theorem answer_evSeq : (answer u s).evSeq = s.evSeq := rfl
@[simp] theorem answer_objs : (answer u s).objs = s.objs := rfl
@[simp] theorem answer_cmd : (answer u s).cmd = s.cmd := rfl
@[simp] theorem answer_memc : (answer u s).memc = s.memc := rfl
@[simp] theorem answer_bankPend : (answer u s).bankPend = s.bankPend := rfl
@[simp] theorem answer_spool : (answer u s).spool = s.spool := rfl
@[simp] theorem answer_dma : (answer u s).dma = s.dma := rfl
@[simp] theorem answer_shuttle : (answer u s).shuttle = s.shuttle := rfl
@[simp] theorem answer_power : (answer u s).power = s.power := rfl
@[simp] theorem answer_cox : (answer u s).cox = s.cox := rfl
@[simp] theorem answer_weft : (answer u s).weft = s.weft := rfl
@[simp] theorem answer_carriers : (answer u s).carriers = s.carriers := rfl
@[simp] theorem answer_handsets : (answer u s).handsets = s.handsets := rfl
@[simp] theorem answer_fhSeq : (answer u s).fhSeq = s.fhSeq := rfl
@[simp] theorem answer_chirp : (answer u s).chirp = s.chirp := rfl
@[simp] theorem answer_chirpMods : (answer u s).chirpMods = s.chirpMods := rfl
@[simp] theorem answer_chirpGroups : (answer u s).chirpGroups = s.chirpGroups := rfl
@[simp] theorem answer_tags : (answer u s).tags = s.tags := rfl
@[simp] theorem answer_audio : (answer u s).audio = s.audio := rfl
@[simp] theorem answer_hsp : (answer u s).hsp = s.hsp := rfl
@[simp] theorem answer_video : (answer u s).video = s.video := rfl
@[simp] theorem answer_serial : (answer u s).serial = s.serial := rfl
@[simp] theorem answer_sec : (answer u s).sec = s.sec := rfl
@[simp] theorem answer_fabric : (answer u s).fabric = s.fabric := rfl
@[simp] theorem answer_cores : (answer u s).cores = s.cores := rfl
@[simp] theorem answer_cops : (answer u s).cops = s.cops := rfl
@[simp] theorem answer_keys : (answer u s).keys = s.keys := rfl
@[simp] theorem answer_memChans : (answer u s).memChans = s.memChans := rfl
@[simp] theorem answer_memGib : (answer u s).memGib = s.memGib := rfl
@[simp] theorem answer_pending : (answer u s).pending = s.pending := rfl

/-! ### notify -/

@[simp] theorem notify_part : (notify u i w s).part = s.part := rfl
@[simp] theorem notify_now : (notify u i w s).now = s.now := rfl
@[simp] theorem notify_coxCount : (notify u i w s).coxCount = s.coxCount := rfl
@[simp] theorem notify_free : (notify u i w s).free = s.free := rfl
@[simp] theorem notify_regs : (notify u i w s).regs = s.regs := rfl
@[simp] theorem notify_counters : (notify u i w s).counters = s.counters := rfl
@[simp] theorem notify_mem : (notify u i w s).mem = s.mem := rfl
@[simp] theorem notify_ecc : (notify u i w s).ecc = s.ecc := rfl
@[simp] theorem notify_rdata : (notify u i w s).rdata = s.rdata := rfl
@[simp] theorem notify_out : (notify u i w s).out = s.out := rfl
@[simp] theorem notify_evq : (notify u i w s).evq = s.evq := rfl
@[simp] theorem notify_raised : (notify u i w s).raised = s.raised := rfl
@[simp] theorem notify_evSeq : (notify u i w s).evSeq = s.evSeq := rfl
@[simp] theorem notify_objs : (notify u i w s).objs = s.objs := rfl
@[simp] theorem notify_cmd : (notify u i w s).cmd = s.cmd := rfl
@[simp] theorem notify_memc : (notify u i w s).memc = s.memc := rfl
@[simp] theorem notify_bankPend : (notify u i w s).bankPend = s.bankPend := rfl
@[simp] theorem notify_spool : (notify u i w s).spool = s.spool := rfl
@[simp] theorem notify_dma : (notify u i w s).dma = s.dma := rfl
@[simp] theorem notify_shuttle : (notify u i w s).shuttle = s.shuttle := rfl
@[simp] theorem notify_power : (notify u i w s).power = s.power := rfl
@[simp] theorem notify_cox : (notify u i w s).cox = s.cox := rfl
@[simp] theorem notify_weft : (notify u i w s).weft = s.weft := rfl
@[simp] theorem notify_carriers : (notify u i w s).carriers = s.carriers := rfl
@[simp] theorem notify_handsets : (notify u i w s).handsets = s.handsets := rfl
@[simp] theorem notify_fhSeq : (notify u i w s).fhSeq = s.fhSeq := rfl
@[simp] theorem notify_chirp : (notify u i w s).chirp = s.chirp := rfl
@[simp] theorem notify_chirpMods : (notify u i w s).chirpMods = s.chirpMods := rfl
@[simp] theorem notify_chirpGroups : (notify u i w s).chirpGroups = s.chirpGroups := rfl
@[simp] theorem notify_tags : (notify u i w s).tags = s.tags := rfl
@[simp] theorem notify_audio : (notify u i w s).audio = s.audio := rfl
@[simp] theorem notify_hsp : (notify u i w s).hsp = s.hsp := rfl
@[simp] theorem notify_video : (notify u i w s).video = s.video := rfl
@[simp] theorem notify_serial : (notify u i w s).serial = s.serial := rfl
@[simp] theorem notify_sec : (notify u i w s).sec = s.sec := rfl
@[simp] theorem notify_fabric : (notify u i w s).fabric = s.fabric := rfl
@[simp] theorem notify_cores : (notify u i w s).cores = s.cores := rfl
@[simp] theorem notify_cops : (notify u i w s).cops = s.cops := rfl
@[simp] theorem notify_keys : (notify u i w s).keys = s.keys := rfl
@[simp] theorem notify_memChans : (notify u i w s).memChans = s.memChans := rfl
@[simp] theorem notify_memGib : (notify u i w s).memGib = s.memGib := rfl
@[simp] theorem notify_pending : (notify u i w s).pending = s.pending := rfl

/-! ### objPut -/

@[simp] theorem objPut_part : (objPut u ob s).part = s.part := rfl
@[simp] theorem objPut_now : (objPut u ob s).now = s.now := rfl
@[simp] theorem objPut_coxCount : (objPut u ob s).coxCount = s.coxCount := rfl
@[simp] theorem objPut_free : (objPut u ob s).free = s.free := rfl
@[simp] theorem objPut_regs : (objPut u ob s).regs = s.regs := rfl
@[simp] theorem objPut_counters : (objPut u ob s).counters = s.counters := rfl
@[simp] theorem objPut_mem : (objPut u ob s).mem = s.mem := rfl
@[simp] theorem objPut_ecc : (objPut u ob s).ecc = s.ecc := rfl
@[simp] theorem objPut_rdata : (objPut u ob s).rdata = s.rdata := rfl
@[simp] theorem objPut_out : (objPut u ob s).out = s.out := rfl
@[simp] theorem objPut_evq : (objPut u ob s).evq = s.evq := rfl
@[simp] theorem objPut_notices : (objPut u ob s).notices = s.notices := rfl
@[simp] theorem objPut_raised : (objPut u ob s).raised = s.raised := rfl
@[simp] theorem objPut_evSeq : (objPut u ob s).evSeq = s.evSeq := rfl
@[simp] theorem objPut_cmd : (objPut u ob s).cmd = s.cmd := rfl
@[simp] theorem objPut_memc : (objPut u ob s).memc = s.memc := rfl
@[simp] theorem objPut_bankPend : (objPut u ob s).bankPend = s.bankPend := rfl
@[simp] theorem objPut_spool : (objPut u ob s).spool = s.spool := rfl
@[simp] theorem objPut_dma : (objPut u ob s).dma = s.dma := rfl
@[simp] theorem objPut_shuttle : (objPut u ob s).shuttle = s.shuttle := rfl
@[simp] theorem objPut_power : (objPut u ob s).power = s.power := rfl
@[simp] theorem objPut_cox : (objPut u ob s).cox = s.cox := rfl
@[simp] theorem objPut_weft : (objPut u ob s).weft = s.weft := rfl
@[simp] theorem objPut_carriers : (objPut u ob s).carriers = s.carriers := rfl
@[simp] theorem objPut_handsets : (objPut u ob s).handsets = s.handsets := rfl
@[simp] theorem objPut_fhSeq : (objPut u ob s).fhSeq = s.fhSeq := rfl
@[simp] theorem objPut_chirp : (objPut u ob s).chirp = s.chirp := rfl
@[simp] theorem objPut_chirpMods : (objPut u ob s).chirpMods = s.chirpMods := rfl
@[simp] theorem objPut_chirpGroups : (objPut u ob s).chirpGroups = s.chirpGroups := rfl
@[simp] theorem objPut_tags : (objPut u ob s).tags = s.tags := rfl
@[simp] theorem objPut_audio : (objPut u ob s).audio = s.audio := rfl
@[simp] theorem objPut_hsp : (objPut u ob s).hsp = s.hsp := rfl
@[simp] theorem objPut_video : (objPut u ob s).video = s.video := rfl
@[simp] theorem objPut_serial : (objPut u ob s).serial = s.serial := rfl
@[simp] theorem objPut_sec : (objPut u ob s).sec = s.sec := rfl
@[simp] theorem objPut_fabric : (objPut u ob s).fabric = s.fabric := rfl
@[simp] theorem objPut_cores : (objPut u ob s).cores = s.cores := rfl
@[simp] theorem objPut_cops : (objPut u ob s).cops = s.cops := rfl
@[simp] theorem objPut_keys : (objPut u ob s).keys = s.keys := rfl
@[simp] theorem objPut_memChans : (objPut u ob s).memChans = s.memChans := rfl
@[simp] theorem objPut_memGib : (objPut u ob s).memGib = s.memGib := rfl
@[simp] theorem objPut_pending : (objPut u ob s).pending = s.pending := rfl

/-! ### objDel -/

@[simp] theorem objDel_part : (objDel u s).part = s.part := rfl
@[simp] theorem objDel_now : (objDel u s).now = s.now := rfl
@[simp] theorem objDel_coxCount : (objDel u s).coxCount = s.coxCount := rfl
@[simp] theorem objDel_free : (objDel u s).free = s.free := rfl
@[simp] theorem objDel_regs : (objDel u s).regs = s.regs := rfl
@[simp] theorem objDel_counters : (objDel u s).counters = s.counters := rfl
@[simp] theorem objDel_mem : (objDel u s).mem = s.mem := rfl
@[simp] theorem objDel_ecc : (objDel u s).ecc = s.ecc := rfl
@[simp] theorem objDel_rdata : (objDel u s).rdata = s.rdata := rfl
@[simp] theorem objDel_out : (objDel u s).out = s.out := rfl
@[simp] theorem objDel_evq : (objDel u s).evq = s.evq := rfl
@[simp] theorem objDel_notices : (objDel u s).notices = s.notices := rfl
@[simp] theorem objDel_raised : (objDel u s).raised = s.raised := rfl
@[simp] theorem objDel_evSeq : (objDel u s).evSeq = s.evSeq := rfl
@[simp] theorem objDel_cmd : (objDel u s).cmd = s.cmd := rfl
@[simp] theorem objDel_memc : (objDel u s).memc = s.memc := rfl
@[simp] theorem objDel_bankPend : (objDel u s).bankPend = s.bankPend := rfl
@[simp] theorem objDel_spool : (objDel u s).spool = s.spool := rfl
@[simp] theorem objDel_dma : (objDel u s).dma = s.dma := rfl
@[simp] theorem objDel_shuttle : (objDel u s).shuttle = s.shuttle := rfl
@[simp] theorem objDel_power : (objDel u s).power = s.power := rfl
@[simp] theorem objDel_cox : (objDel u s).cox = s.cox := rfl
@[simp] theorem objDel_weft : (objDel u s).weft = s.weft := rfl
@[simp] theorem objDel_carriers : (objDel u s).carriers = s.carriers := rfl
@[simp] theorem objDel_handsets : (objDel u s).handsets = s.handsets := rfl
@[simp] theorem objDel_fhSeq : (objDel u s).fhSeq = s.fhSeq := rfl
@[simp] theorem objDel_chirp : (objDel u s).chirp = s.chirp := rfl
@[simp] theorem objDel_chirpMods : (objDel u s).chirpMods = s.chirpMods := rfl
@[simp] theorem objDel_chirpGroups : (objDel u s).chirpGroups = s.chirpGroups := rfl
@[simp] theorem objDel_tags : (objDel u s).tags = s.tags := rfl
@[simp] theorem objDel_audio : (objDel u s).audio = s.audio := rfl
@[simp] theorem objDel_hsp : (objDel u s).hsp = s.hsp := rfl
@[simp] theorem objDel_video : (objDel u s).video = s.video := rfl
@[simp] theorem objDel_serial : (objDel u s).serial = s.serial := rfl
@[simp] theorem objDel_sec : (objDel u s).sec = s.sec := rfl
@[simp] theorem objDel_fabric : (objDel u s).fabric = s.fabric := rfl
@[simp] theorem objDel_cores : (objDel u s).cores = s.cores := rfl
@[simp] theorem objDel_cops : (objDel u s).cops = s.cops := rfl
@[simp] theorem objDel_keys : (objDel u s).keys = s.keys := rfl
@[simp] theorem objDel_memChans : (objDel u s).memChans = s.memChans := rfl
@[simp] theorem objDel_memGib : (objDel u s).memGib = s.memGib := rfl
@[simp] theorem objDel_pending : (objDel u s).pending = s.pending := rfl

/-! ### storeRaw -/

@[simp] theorem storeRaw_part : (storeRaw u b s).part = s.part := rfl
@[simp] theorem storeRaw_now : (storeRaw u b s).now = s.now := rfl
@[simp] theorem storeRaw_coxCount : (storeRaw u b s).coxCount = s.coxCount := rfl
@[simp] theorem storeRaw_free : (storeRaw u b s).free = s.free := rfl
@[simp] theorem storeRaw_regs : (storeRaw u b s).regs = s.regs := rfl
@[simp] theorem storeRaw_counters : (storeRaw u b s).counters = s.counters := rfl
@[simp] theorem storeRaw_ecc : (storeRaw u b s).ecc = s.ecc := rfl
@[simp] theorem storeRaw_rdata : (storeRaw u b s).rdata = s.rdata := rfl
@[simp] theorem storeRaw_out : (storeRaw u b s).out = s.out := rfl
@[simp] theorem storeRaw_evq : (storeRaw u b s).evq = s.evq := rfl
@[simp] theorem storeRaw_notices : (storeRaw u b s).notices = s.notices := rfl
@[simp] theorem storeRaw_raised : (storeRaw u b s).raised = s.raised := rfl
@[simp] theorem storeRaw_evSeq : (storeRaw u b s).evSeq = s.evSeq := rfl
@[simp] theorem storeRaw_objs : (storeRaw u b s).objs = s.objs := rfl
@[simp] theorem storeRaw_cmd : (storeRaw u b s).cmd = s.cmd := rfl
@[simp] theorem storeRaw_memc : (storeRaw u b s).memc = s.memc := rfl
@[simp] theorem storeRaw_bankPend : (storeRaw u b s).bankPend = s.bankPend := rfl
@[simp] theorem storeRaw_spool : (storeRaw u b s).spool = s.spool := rfl
@[simp] theorem storeRaw_dma : (storeRaw u b s).dma = s.dma := rfl
@[simp] theorem storeRaw_shuttle : (storeRaw u b s).shuttle = s.shuttle := rfl
@[simp] theorem storeRaw_power : (storeRaw u b s).power = s.power := rfl
@[simp] theorem storeRaw_cox : (storeRaw u b s).cox = s.cox := rfl
@[simp] theorem storeRaw_weft : (storeRaw u b s).weft = s.weft := rfl
@[simp] theorem storeRaw_carriers : (storeRaw u b s).carriers = s.carriers := rfl
@[simp] theorem storeRaw_handsets : (storeRaw u b s).handsets = s.handsets := rfl
@[simp] theorem storeRaw_fhSeq : (storeRaw u b s).fhSeq = s.fhSeq := rfl
@[simp] theorem storeRaw_chirp : (storeRaw u b s).chirp = s.chirp := rfl
@[simp] theorem storeRaw_chirpMods : (storeRaw u b s).chirpMods = s.chirpMods := rfl
@[simp] theorem storeRaw_chirpGroups : (storeRaw u b s).chirpGroups = s.chirpGroups := rfl
@[simp] theorem storeRaw_tags : (storeRaw u b s).tags = s.tags := rfl
@[simp] theorem storeRaw_audio : (storeRaw u b s).audio = s.audio := rfl
@[simp] theorem storeRaw_hsp : (storeRaw u b s).hsp = s.hsp := rfl
@[simp] theorem storeRaw_video : (storeRaw u b s).video = s.video := rfl
@[simp] theorem storeRaw_serial : (storeRaw u b s).serial = s.serial := rfl
@[simp] theorem storeRaw_sec : (storeRaw u b s).sec = s.sec := rfl
@[simp] theorem storeRaw_fabric : (storeRaw u b s).fabric = s.fabric := rfl
@[simp] theorem storeRaw_cores : (storeRaw u b s).cores = s.cores := rfl
@[simp] theorem storeRaw_cops : (storeRaw u b s).cops = s.cops := rfl
@[simp] theorem storeRaw_keys : (storeRaw u b s).keys = s.keys := rfl
@[simp] theorem storeRaw_memChans : (storeRaw u b s).memChans = s.memChans := rfl
@[simp] theorem storeRaw_memGib : (storeRaw u b s).memGib = s.memGib := rfl
@[simp] theorem storeRaw_pending : (storeRaw u b s).pending = s.pending := rfl

/-! ### putErr -/

@[simp] theorem putErr_part : (putErr u er s).part = s.part := rfl
@[simp] theorem putErr_now : (putErr u er s).now = s.now := rfl
@[simp] theorem putErr_coxCount : (putErr u er s).coxCount = s.coxCount := rfl
@[simp] theorem putErr_free : (putErr u er s).free = s.free := rfl
@[simp] theorem putErr_regs : (putErr u er s).regs = s.regs := rfl
@[simp] theorem putErr_counters : (putErr u er s).counters = s.counters := rfl
@[simp] theorem putErr_mem : (putErr u er s).mem = s.mem := rfl
@[simp] theorem putErr_rdata : (putErr u er s).rdata = s.rdata := rfl
@[simp] theorem putErr_out : (putErr u er s).out = s.out := rfl
@[simp] theorem putErr_evq : (putErr u er s).evq = s.evq := rfl
@[simp] theorem putErr_notices : (putErr u er s).notices = s.notices := rfl
@[simp] theorem putErr_raised : (putErr u er s).raised = s.raised := rfl
@[simp] theorem putErr_evSeq : (putErr u er s).evSeq = s.evSeq := rfl
@[simp] theorem putErr_objs : (putErr u er s).objs = s.objs := rfl
@[simp] theorem putErr_cmd : (putErr u er s).cmd = s.cmd := rfl
@[simp] theorem putErr_memc : (putErr u er s).memc = s.memc := rfl
@[simp] theorem putErr_bankPend : (putErr u er s).bankPend = s.bankPend := rfl
@[simp] theorem putErr_spool : (putErr u er s).spool = s.spool := rfl
@[simp] theorem putErr_dma : (putErr u er s).dma = s.dma := rfl
@[simp] theorem putErr_shuttle : (putErr u er s).shuttle = s.shuttle := rfl
@[simp] theorem putErr_power : (putErr u er s).power = s.power := rfl
@[simp] theorem putErr_cox : (putErr u er s).cox = s.cox := rfl
@[simp] theorem putErr_weft : (putErr u er s).weft = s.weft := rfl
@[simp] theorem putErr_carriers : (putErr u er s).carriers = s.carriers := rfl
@[simp] theorem putErr_handsets : (putErr u er s).handsets = s.handsets := rfl
@[simp] theorem putErr_fhSeq : (putErr u er s).fhSeq = s.fhSeq := rfl
@[simp] theorem putErr_chirp : (putErr u er s).chirp = s.chirp := rfl
@[simp] theorem putErr_chirpMods : (putErr u er s).chirpMods = s.chirpMods := rfl
@[simp] theorem putErr_chirpGroups : (putErr u er s).chirpGroups = s.chirpGroups := rfl
@[simp] theorem putErr_tags : (putErr u er s).tags = s.tags := rfl
@[simp] theorem putErr_audio : (putErr u er s).audio = s.audio := rfl
@[simp] theorem putErr_hsp : (putErr u er s).hsp = s.hsp := rfl
@[simp] theorem putErr_video : (putErr u er s).video = s.video := rfl
@[simp] theorem putErr_serial : (putErr u er s).serial = s.serial := rfl
@[simp] theorem putErr_sec : (putErr u er s).sec = s.sec := rfl
@[simp] theorem putErr_fabric : (putErr u er s).fabric = s.fabric := rfl
@[simp] theorem putErr_cores : (putErr u er s).cores = s.cores := rfl
@[simp] theorem putErr_cops : (putErr u er s).cops = s.cops := rfl
@[simp] theorem putErr_keys : (putErr u er s).keys = s.keys := rfl
@[simp] theorem putErr_memChans : (putErr u er s).memChans = s.memChans := rfl
@[simp] theorem putErr_memGib : (putErr u er s).memGib = s.memGib := rfl
@[simp] theorem putErr_pending : (putErr u er s).pending = s.pending := rfl

/-! ### corePut -/

@[simp] theorem corePut_part : (corePut u co s).part = s.part := rfl
@[simp] theorem corePut_now : (corePut u co s).now = s.now := rfl
@[simp] theorem corePut_coxCount : (corePut u co s).coxCount = s.coxCount := rfl
@[simp] theorem corePut_free : (corePut u co s).free = s.free := rfl
@[simp] theorem corePut_regs : (corePut u co s).regs = s.regs := rfl
@[simp] theorem corePut_counters : (corePut u co s).counters = s.counters := rfl
@[simp] theorem corePut_mem : (corePut u co s).mem = s.mem := rfl
@[simp] theorem corePut_ecc : (corePut u co s).ecc = s.ecc := rfl
@[simp] theorem corePut_rdata : (corePut u co s).rdata = s.rdata := rfl
@[simp] theorem corePut_out : (corePut u co s).out = s.out := rfl
@[simp] theorem corePut_evq : (corePut u co s).evq = s.evq := rfl
@[simp] theorem corePut_notices : (corePut u co s).notices = s.notices := rfl
@[simp] theorem corePut_raised : (corePut u co s).raised = s.raised := rfl
@[simp] theorem corePut_evSeq : (corePut u co s).evSeq = s.evSeq := rfl
@[simp] theorem corePut_objs : (corePut u co s).objs = s.objs := rfl
@[simp] theorem corePut_cmd : (corePut u co s).cmd = s.cmd := rfl
@[simp] theorem corePut_memc : (corePut u co s).memc = s.memc := rfl
@[simp] theorem corePut_bankPend : (corePut u co s).bankPend = s.bankPend := rfl
@[simp] theorem corePut_spool : (corePut u co s).spool = s.spool := rfl
@[simp] theorem corePut_dma : (corePut u co s).dma = s.dma := rfl
@[simp] theorem corePut_shuttle : (corePut u co s).shuttle = s.shuttle := rfl
@[simp] theorem corePut_power : (corePut u co s).power = s.power := rfl
@[simp] theorem corePut_cox : (corePut u co s).cox = s.cox := rfl
@[simp] theorem corePut_weft : (corePut u co s).weft = s.weft := rfl
@[simp] theorem corePut_carriers : (corePut u co s).carriers = s.carriers := rfl
@[simp] theorem corePut_handsets : (corePut u co s).handsets = s.handsets := rfl
@[simp] theorem corePut_fhSeq : (corePut u co s).fhSeq = s.fhSeq := rfl
@[simp] theorem corePut_chirp : (corePut u co s).chirp = s.chirp := rfl
@[simp] theorem corePut_chirpMods : (corePut u co s).chirpMods = s.chirpMods := rfl
@[simp] theorem corePut_chirpGroups : (corePut u co s).chirpGroups = s.chirpGroups := rfl
@[simp] theorem corePut_tags : (corePut u co s).tags = s.tags := rfl
@[simp] theorem corePut_audio : (corePut u co s).audio = s.audio := rfl
@[simp] theorem corePut_hsp : (corePut u co s).hsp = s.hsp := rfl
@[simp] theorem corePut_video : (corePut u co s).video = s.video := rfl
@[simp] theorem corePut_serial : (corePut u co s).serial = s.serial := rfl
@[simp] theorem corePut_sec : (corePut u co s).sec = s.sec := rfl
@[simp] theorem corePut_fabric : (corePut u co s).fabric = s.fabric := rfl
@[simp] theorem corePut_cops : (corePut u co s).cops = s.cops := rfl
@[simp] theorem corePut_keys : (corePut u co s).keys = s.keys := rfl
@[simp] theorem corePut_memChans : (corePut u co s).memChans = s.memChans := rfl
@[simp] theorem corePut_memGib : (corePut u co s).memGib = s.memGib := rfl
@[simp] theorem corePut_pending : (corePut u co s).pending = s.pending := rfl

/-! ### slotPut -/

@[simp] theorem slotPut_part : (slotPut u sl s).part = s.part := rfl
@[simp] theorem slotPut_now : (slotPut u sl s).now = s.now := rfl
@[simp] theorem slotPut_coxCount : (slotPut u sl s).coxCount = s.coxCount := rfl
@[simp] theorem slotPut_free : (slotPut u sl s).free = s.free := rfl
@[simp] theorem slotPut_regs : (slotPut u sl s).regs = s.regs := rfl
@[simp] theorem slotPut_counters : (slotPut u sl s).counters = s.counters := rfl
@[simp] theorem slotPut_mem : (slotPut u sl s).mem = s.mem := rfl
@[simp] theorem slotPut_ecc : (slotPut u sl s).ecc = s.ecc := rfl
@[simp] theorem slotPut_rdata : (slotPut u sl s).rdata = s.rdata := rfl
@[simp] theorem slotPut_out : (slotPut u sl s).out = s.out := rfl
@[simp] theorem slotPut_evq : (slotPut u sl s).evq = s.evq := rfl
@[simp] theorem slotPut_notices : (slotPut u sl s).notices = s.notices := rfl
@[simp] theorem slotPut_raised : (slotPut u sl s).raised = s.raised := rfl
@[simp] theorem slotPut_evSeq : (slotPut u sl s).evSeq = s.evSeq := rfl
@[simp] theorem slotPut_objs : (slotPut u sl s).objs = s.objs := rfl
@[simp] theorem slotPut_cmd : (slotPut u sl s).cmd = s.cmd := rfl
@[simp] theorem slotPut_memc : (slotPut u sl s).memc = s.memc := rfl
@[simp] theorem slotPut_bankPend : (slotPut u sl s).bankPend = s.bankPend := rfl
@[simp] theorem slotPut_spool : (slotPut u sl s).spool = s.spool := rfl
@[simp] theorem slotPut_dma : (slotPut u sl s).dma = s.dma := rfl
@[simp] theorem slotPut_power : (slotPut u sl s).power = s.power := rfl
@[simp] theorem slotPut_cox : (slotPut u sl s).cox = s.cox := rfl
@[simp] theorem slotPut_weft : (slotPut u sl s).weft = s.weft := rfl
@[simp] theorem slotPut_carriers : (slotPut u sl s).carriers = s.carriers := rfl
@[simp] theorem slotPut_handsets : (slotPut u sl s).handsets = s.handsets := rfl
@[simp] theorem slotPut_fhSeq : (slotPut u sl s).fhSeq = s.fhSeq := rfl
@[simp] theorem slotPut_chirp : (slotPut u sl s).chirp = s.chirp := rfl
@[simp] theorem slotPut_chirpMods : (slotPut u sl s).chirpMods = s.chirpMods := rfl
@[simp] theorem slotPut_chirpGroups : (slotPut u sl s).chirpGroups = s.chirpGroups := rfl
@[simp] theorem slotPut_tags : (slotPut u sl s).tags = s.tags := rfl
@[simp] theorem slotPut_audio : (slotPut u sl s).audio = s.audio := rfl
@[simp] theorem slotPut_hsp : (slotPut u sl s).hsp = s.hsp := rfl
@[simp] theorem slotPut_video : (slotPut u sl s).video = s.video := rfl
@[simp] theorem slotPut_serial : (slotPut u sl s).serial = s.serial := rfl
@[simp] theorem slotPut_sec : (slotPut u sl s).sec = s.sec := rfl
@[simp] theorem slotPut_fabric : (slotPut u sl s).fabric = s.fabric := rfl
@[simp] theorem slotPut_cores : (slotPut u sl s).cores = s.cores := rfl
@[simp] theorem slotPut_cops : (slotPut u sl s).cops = s.cops := rfl
@[simp] theorem slotPut_keys : (slotPut u sl s).keys = s.keys := rfl
@[simp] theorem slotPut_memChans : (slotPut u sl s).memChans = s.memChans := rfl
@[simp] theorem slotPut_memGib : (slotPut u sl s).memGib = s.memGib := rfl
@[simp] theorem slotPut_pending : (slotPut u sl s).pending = s.pending := rfl

/-! ### flowPut -/

@[simp] theorem flowPut_part : (flowPut u fl s).part = s.part := rfl
@[simp] theorem flowPut_now : (flowPut u fl s).now = s.now := rfl
@[simp] theorem flowPut_coxCount : (flowPut u fl s).coxCount = s.coxCount := rfl
@[simp] theorem flowPut_free : (flowPut u fl s).free = s.free := rfl
@[simp] theorem flowPut_regs : (flowPut u fl s).regs = s.regs := rfl
@[simp] theorem flowPut_counters : (flowPut u fl s).counters = s.counters := rfl
@[simp] theorem flowPut_mem : (flowPut u fl s).mem = s.mem := rfl
@[simp] theorem flowPut_ecc : (flowPut u fl s).ecc = s.ecc := rfl
@[simp] theorem flowPut_rdata : (flowPut u fl s).rdata = s.rdata := rfl
@[simp] theorem flowPut_out : (flowPut u fl s).out = s.out := rfl
@[simp] theorem flowPut_evq : (flowPut u fl s).evq = s.evq := rfl
@[simp] theorem flowPut_notices : (flowPut u fl s).notices = s.notices := rfl
@[simp] theorem flowPut_raised : (flowPut u fl s).raised = s.raised := rfl
@[simp] theorem flowPut_evSeq : (flowPut u fl s).evSeq = s.evSeq := rfl
@[simp] theorem flowPut_objs : (flowPut u fl s).objs = s.objs := rfl
@[simp] theorem flowPut_cmd : (flowPut u fl s).cmd = s.cmd := rfl
@[simp] theorem flowPut_memc : (flowPut u fl s).memc = s.memc := rfl
@[simp] theorem flowPut_bankPend : (flowPut u fl s).bankPend = s.bankPend := rfl
@[simp] theorem flowPut_spool : (flowPut u fl s).spool = s.spool := rfl
@[simp] theorem flowPut_dma : (flowPut u fl s).dma = s.dma := rfl
@[simp] theorem flowPut_power : (flowPut u fl s).power = s.power := rfl
@[simp] theorem flowPut_cox : (flowPut u fl s).cox = s.cox := rfl
@[simp] theorem flowPut_weft : (flowPut u fl s).weft = s.weft := rfl
@[simp] theorem flowPut_carriers : (flowPut u fl s).carriers = s.carriers := rfl
@[simp] theorem flowPut_handsets : (flowPut u fl s).handsets = s.handsets := rfl
@[simp] theorem flowPut_fhSeq : (flowPut u fl s).fhSeq = s.fhSeq := rfl
@[simp] theorem flowPut_chirp : (flowPut u fl s).chirp = s.chirp := rfl
@[simp] theorem flowPut_chirpMods : (flowPut u fl s).chirpMods = s.chirpMods := rfl
@[simp] theorem flowPut_chirpGroups : (flowPut u fl s).chirpGroups = s.chirpGroups := rfl
@[simp] theorem flowPut_tags : (flowPut u fl s).tags = s.tags := rfl
@[simp] theorem flowPut_audio : (flowPut u fl s).audio = s.audio := rfl
@[simp] theorem flowPut_hsp : (flowPut u fl s).hsp = s.hsp := rfl
@[simp] theorem flowPut_video : (flowPut u fl s).video = s.video := rfl
@[simp] theorem flowPut_serial : (flowPut u fl s).serial = s.serial := rfl
@[simp] theorem flowPut_sec : (flowPut u fl s).sec = s.sec := rfl
@[simp] theorem flowPut_fabric : (flowPut u fl s).fabric = s.fabric := rfl
@[simp] theorem flowPut_cores : (flowPut u fl s).cores = s.cores := rfl
@[simp] theorem flowPut_cops : (flowPut u fl s).cops = s.cops := rfl
@[simp] theorem flowPut_keys : (flowPut u fl s).keys = s.keys := rfl
@[simp] theorem flowPut_memChans : (flowPut u fl s).memChans = s.memChans := rfl
@[simp] theorem flowPut_memGib : (flowPut u fl s).memGib = s.memGib := rfl
@[simp] theorem flowPut_pending : (flowPut u fl s).pending = s.pending := rfl

/-! ### queuePut -/

@[simp] theorem queuePut_part : (queuePut u qu s).part = s.part := rfl
@[simp] theorem queuePut_now : (queuePut u qu s).now = s.now := rfl
@[simp] theorem queuePut_coxCount : (queuePut u qu s).coxCount = s.coxCount := rfl
@[simp] theorem queuePut_free : (queuePut u qu s).free = s.free := rfl
@[simp] theorem queuePut_regs : (queuePut u qu s).regs = s.regs := rfl
@[simp] theorem queuePut_counters : (queuePut u qu s).counters = s.counters := rfl
@[simp] theorem queuePut_mem : (queuePut u qu s).mem = s.mem := rfl
@[simp] theorem queuePut_ecc : (queuePut u qu s).ecc = s.ecc := rfl
@[simp] theorem queuePut_rdata : (queuePut u qu s).rdata = s.rdata := rfl
@[simp] theorem queuePut_out : (queuePut u qu s).out = s.out := rfl
@[simp] theorem queuePut_evq : (queuePut u qu s).evq = s.evq := rfl
@[simp] theorem queuePut_notices : (queuePut u qu s).notices = s.notices := rfl
@[simp] theorem queuePut_raised : (queuePut u qu s).raised = s.raised := rfl
@[simp] theorem queuePut_evSeq : (queuePut u qu s).evSeq = s.evSeq := rfl
@[simp] theorem queuePut_objs : (queuePut u qu s).objs = s.objs := rfl
@[simp] theorem queuePut_cmd : (queuePut u qu s).cmd = s.cmd := rfl
@[simp] theorem queuePut_memc : (queuePut u qu s).memc = s.memc := rfl
@[simp] theorem queuePut_bankPend : (queuePut u qu s).bankPend = s.bankPend := rfl
@[simp] theorem queuePut_dma : (queuePut u qu s).dma = s.dma := rfl
@[simp] theorem queuePut_shuttle : (queuePut u qu s).shuttle = s.shuttle := rfl
@[simp] theorem queuePut_power : (queuePut u qu s).power = s.power := rfl
@[simp] theorem queuePut_cox : (queuePut u qu s).cox = s.cox := rfl
@[simp] theorem queuePut_weft : (queuePut u qu s).weft = s.weft := rfl
@[simp] theorem queuePut_carriers : (queuePut u qu s).carriers = s.carriers := rfl
@[simp] theorem queuePut_handsets : (queuePut u qu s).handsets = s.handsets := rfl
@[simp] theorem queuePut_fhSeq : (queuePut u qu s).fhSeq = s.fhSeq := rfl
@[simp] theorem queuePut_chirp : (queuePut u qu s).chirp = s.chirp := rfl
@[simp] theorem queuePut_chirpMods : (queuePut u qu s).chirpMods = s.chirpMods := rfl
@[simp] theorem queuePut_chirpGroups : (queuePut u qu s).chirpGroups = s.chirpGroups := rfl
@[simp] theorem queuePut_tags : (queuePut u qu s).tags = s.tags := rfl
@[simp] theorem queuePut_audio : (queuePut u qu s).audio = s.audio := rfl
@[simp] theorem queuePut_hsp : (queuePut u qu s).hsp = s.hsp := rfl
@[simp] theorem queuePut_video : (queuePut u qu s).video = s.video := rfl
@[simp] theorem queuePut_serial : (queuePut u qu s).serial = s.serial := rfl
@[simp] theorem queuePut_sec : (queuePut u qu s).sec = s.sec := rfl
@[simp] theorem queuePut_fabric : (queuePut u qu s).fabric = s.fabric := rfl
@[simp] theorem queuePut_cores : (queuePut u qu s).cores = s.cores := rfl
@[simp] theorem queuePut_cops : (queuePut u qu s).cops = s.cops := rfl
@[simp] theorem queuePut_keys : (queuePut u qu s).keys = s.keys := rfl
@[simp] theorem queuePut_memChans : (queuePut u qu s).memChans = s.memChans := rfl
@[simp] theorem queuePut_memGib : (queuePut u qu s).memGib = s.memGib := rfl
@[simp] theorem queuePut_pending : (queuePut u qu s).pending = s.pending := rfl

/-! ### pktPut -/

@[simp] theorem pktPut_part : (pktPut u pk s).part = s.part := rfl
@[simp] theorem pktPut_now : (pktPut u pk s).now = s.now := rfl
@[simp] theorem pktPut_coxCount : (pktPut u pk s).coxCount = s.coxCount := rfl
@[simp] theorem pktPut_free : (pktPut u pk s).free = s.free := rfl
@[simp] theorem pktPut_regs : (pktPut u pk s).regs = s.regs := rfl
@[simp] theorem pktPut_counters : (pktPut u pk s).counters = s.counters := rfl
@[simp] theorem pktPut_mem : (pktPut u pk s).mem = s.mem := rfl
@[simp] theorem pktPut_ecc : (pktPut u pk s).ecc = s.ecc := rfl
@[simp] theorem pktPut_rdata : (pktPut u pk s).rdata = s.rdata := rfl
@[simp] theorem pktPut_out : (pktPut u pk s).out = s.out := rfl
@[simp] theorem pktPut_evq : (pktPut u pk s).evq = s.evq := rfl
@[simp] theorem pktPut_notices : (pktPut u pk s).notices = s.notices := rfl
@[simp] theorem pktPut_raised : (pktPut u pk s).raised = s.raised := rfl
@[simp] theorem pktPut_evSeq : (pktPut u pk s).evSeq = s.evSeq := rfl
@[simp] theorem pktPut_objs : (pktPut u pk s).objs = s.objs := rfl
@[simp] theorem pktPut_cmd : (pktPut u pk s).cmd = s.cmd := rfl
@[simp] theorem pktPut_memc : (pktPut u pk s).memc = s.memc := rfl
@[simp] theorem pktPut_bankPend : (pktPut u pk s).bankPend = s.bankPend := rfl
@[simp] theorem pktPut_dma : (pktPut u pk s).dma = s.dma := rfl
@[simp] theorem pktPut_shuttle : (pktPut u pk s).shuttle = s.shuttle := rfl
@[simp] theorem pktPut_power : (pktPut u pk s).power = s.power := rfl
@[simp] theorem pktPut_cox : (pktPut u pk s).cox = s.cox := rfl
@[simp] theorem pktPut_weft : (pktPut u pk s).weft = s.weft := rfl
@[simp] theorem pktPut_carriers : (pktPut u pk s).carriers = s.carriers := rfl
@[simp] theorem pktPut_handsets : (pktPut u pk s).handsets = s.handsets := rfl
@[simp] theorem pktPut_fhSeq : (pktPut u pk s).fhSeq = s.fhSeq := rfl
@[simp] theorem pktPut_chirp : (pktPut u pk s).chirp = s.chirp := rfl
@[simp] theorem pktPut_chirpMods : (pktPut u pk s).chirpMods = s.chirpMods := rfl
@[simp] theorem pktPut_chirpGroups : (pktPut u pk s).chirpGroups = s.chirpGroups := rfl
@[simp] theorem pktPut_tags : (pktPut u pk s).tags = s.tags := rfl
@[simp] theorem pktPut_audio : (pktPut u pk s).audio = s.audio := rfl
@[simp] theorem pktPut_hsp : (pktPut u pk s).hsp = s.hsp := rfl
@[simp] theorem pktPut_video : (pktPut u pk s).video = s.video := rfl
@[simp] theorem pktPut_serial : (pktPut u pk s).serial = s.serial := rfl
@[simp] theorem pktPut_sec : (pktPut u pk s).sec = s.sec := rfl
@[simp] theorem pktPut_fabric : (pktPut u pk s).fabric = s.fabric := rfl
@[simp] theorem pktPut_cores : (pktPut u pk s).cores = s.cores := rfl
@[simp] theorem pktPut_cops : (pktPut u pk s).cops = s.cops := rfl
@[simp] theorem pktPut_keys : (pktPut u pk s).keys = s.keys := rfl
@[simp] theorem pktPut_memChans : (pktPut u pk s).memChans = s.memChans := rfl
@[simp] theorem pktPut_memGib : (pktPut u pk s).memGib = s.memGib := rfl
@[simp] theorem pktPut_pending : (pktPut u pk s).pending = s.pending := rfl

/-! ### ctxPut -/

@[simp] theorem ctxPut_part : (ctxPut w cx s).part = s.part := rfl
@[simp] theorem ctxPut_now : (ctxPut w cx s).now = s.now := rfl
@[simp] theorem ctxPut_coxCount : (ctxPut w cx s).coxCount = s.coxCount := rfl
@[simp] theorem ctxPut_free : (ctxPut w cx s).free = s.free := rfl
@[simp] theorem ctxPut_regs : (ctxPut w cx s).regs = s.regs := rfl
@[simp] theorem ctxPut_counters : (ctxPut w cx s).counters = s.counters := rfl
@[simp] theorem ctxPut_mem : (ctxPut w cx s).mem = s.mem := rfl
@[simp] theorem ctxPut_ecc : (ctxPut w cx s).ecc = s.ecc := rfl
@[simp] theorem ctxPut_rdata : (ctxPut w cx s).rdata = s.rdata := rfl
@[simp] theorem ctxPut_out : (ctxPut w cx s).out = s.out := rfl
@[simp] theorem ctxPut_evq : (ctxPut w cx s).evq = s.evq := rfl
@[simp] theorem ctxPut_notices : (ctxPut w cx s).notices = s.notices := rfl
@[simp] theorem ctxPut_raised : (ctxPut w cx s).raised = s.raised := rfl
@[simp] theorem ctxPut_evSeq : (ctxPut w cx s).evSeq = s.evSeq := rfl
@[simp] theorem ctxPut_objs : (ctxPut w cx s).objs = s.objs := rfl
@[simp] theorem ctxPut_cmd : (ctxPut w cx s).cmd = s.cmd := rfl
@[simp] theorem ctxPut_memc : (ctxPut w cx s).memc = s.memc := rfl
@[simp] theorem ctxPut_bankPend : (ctxPut w cx s).bankPend = s.bankPend := rfl
@[simp] theorem ctxPut_dma : (ctxPut w cx s).dma = s.dma := rfl
@[simp] theorem ctxPut_shuttle : (ctxPut w cx s).shuttle = s.shuttle := rfl
@[simp] theorem ctxPut_power : (ctxPut w cx s).power = s.power := rfl
@[simp] theorem ctxPut_cox : (ctxPut w cx s).cox = s.cox := rfl
@[simp] theorem ctxPut_weft : (ctxPut w cx s).weft = s.weft := rfl
@[simp] theorem ctxPut_carriers : (ctxPut w cx s).carriers = s.carriers := rfl
@[simp] theorem ctxPut_handsets : (ctxPut w cx s).handsets = s.handsets := rfl
@[simp] theorem ctxPut_fhSeq : (ctxPut w cx s).fhSeq = s.fhSeq := rfl
@[simp] theorem ctxPut_chirp : (ctxPut w cx s).chirp = s.chirp := rfl
@[simp] theorem ctxPut_chirpMods : (ctxPut w cx s).chirpMods = s.chirpMods := rfl
@[simp] theorem ctxPut_chirpGroups : (ctxPut w cx s).chirpGroups = s.chirpGroups := rfl
@[simp] theorem ctxPut_tags : (ctxPut w cx s).tags = s.tags := rfl
@[simp] theorem ctxPut_audio : (ctxPut w cx s).audio = s.audio := rfl
@[simp] theorem ctxPut_hsp : (ctxPut w cx s).hsp = s.hsp := rfl
@[simp] theorem ctxPut_video : (ctxPut w cx s).video = s.video := rfl
@[simp] theorem ctxPut_serial : (ctxPut w cx s).serial = s.serial := rfl
@[simp] theorem ctxPut_sec : (ctxPut w cx s).sec = s.sec := rfl
@[simp] theorem ctxPut_fabric : (ctxPut w cx s).fabric = s.fabric := rfl
@[simp] theorem ctxPut_cores : (ctxPut w cx s).cores = s.cores := rfl
@[simp] theorem ctxPut_cops : (ctxPut w cx s).cops = s.cops := rfl
@[simp] theorem ctxPut_keys : (ctxPut w cx s).keys = s.keys := rfl
@[simp] theorem ctxPut_memChans : (ctxPut w cx s).memChans = s.memChans := rfl
@[simp] theorem ctxPut_memGib : (ctxPut w cx s).memGib = s.memGib := rfl
@[simp] theorem ctxPut_pending : (ctxPut w cx s).pending = s.pending := rfl

/-! ### domPut -/

@[simp] theorem domPut_part : (domPut u dm s).part = s.part := rfl
@[simp] theorem domPut_now : (domPut u dm s).now = s.now := rfl
@[simp] theorem domPut_coxCount : (domPut u dm s).coxCount = s.coxCount := rfl
@[simp] theorem domPut_free : (domPut u dm s).free = s.free := rfl
@[simp] theorem domPut_regs : (domPut u dm s).regs = s.regs := rfl
@[simp] theorem domPut_counters : (domPut u dm s).counters = s.counters := rfl
@[simp] theorem domPut_mem : (domPut u dm s).mem = s.mem := rfl
@[simp] theorem domPut_ecc : (domPut u dm s).ecc = s.ecc := rfl
@[simp] theorem domPut_rdata : (domPut u dm s).rdata = s.rdata := rfl
@[simp] theorem domPut_out : (domPut u dm s).out = s.out := rfl
@[simp] theorem domPut_evq : (domPut u dm s).evq = s.evq := rfl
@[simp] theorem domPut_notices : (domPut u dm s).notices = s.notices := rfl
@[simp] theorem domPut_raised : (domPut u dm s).raised = s.raised := rfl
@[simp] theorem domPut_evSeq : (domPut u dm s).evSeq = s.evSeq := rfl
@[simp] theorem domPut_objs : (domPut u dm s).objs = s.objs := rfl
@[simp] theorem domPut_cmd : (domPut u dm s).cmd = s.cmd := rfl
@[simp] theorem domPut_memc : (domPut u dm s).memc = s.memc := rfl
@[simp] theorem domPut_bankPend : (domPut u dm s).bankPend = s.bankPend := rfl
@[simp] theorem domPut_spool : (domPut u dm s).spool = s.spool := rfl
@[simp] theorem domPut_dma : (domPut u dm s).dma = s.dma := rfl
@[simp] theorem domPut_shuttle : (domPut u dm s).shuttle = s.shuttle := rfl
@[simp] theorem domPut_cox : (domPut u dm s).cox = s.cox := rfl
@[simp] theorem domPut_weft : (domPut u dm s).weft = s.weft := rfl
@[simp] theorem domPut_carriers : (domPut u dm s).carriers = s.carriers := rfl
@[simp] theorem domPut_handsets : (domPut u dm s).handsets = s.handsets := rfl
@[simp] theorem domPut_fhSeq : (domPut u dm s).fhSeq = s.fhSeq := rfl
@[simp] theorem domPut_chirp : (domPut u dm s).chirp = s.chirp := rfl
@[simp] theorem domPut_chirpMods : (domPut u dm s).chirpMods = s.chirpMods := rfl
@[simp] theorem domPut_chirpGroups : (domPut u dm s).chirpGroups = s.chirpGroups := rfl
@[simp] theorem domPut_tags : (domPut u dm s).tags = s.tags := rfl
@[simp] theorem domPut_audio : (domPut u dm s).audio = s.audio := rfl
@[simp] theorem domPut_hsp : (domPut u dm s).hsp = s.hsp := rfl
@[simp] theorem domPut_video : (domPut u dm s).video = s.video := rfl
@[simp] theorem domPut_serial : (domPut u dm s).serial = s.serial := rfl
@[simp] theorem domPut_sec : (domPut u dm s).sec = s.sec := rfl
@[simp] theorem domPut_fabric : (domPut u dm s).fabric = s.fabric := rfl
@[simp] theorem domPut_cores : (domPut u dm s).cores = s.cores := rfl
@[simp] theorem domPut_cops : (domPut u dm s).cops = s.cops := rfl
@[simp] theorem domPut_keys : (domPut u dm s).keys = s.keys := rfl
@[simp] theorem domPut_memChans : (domPut u dm s).memChans = s.memChans := rfl
@[simp] theorem domPut_memGib : (domPut u dm s).memGib = s.memGib := rfl
@[simp] theorem domPut_pending : (domPut u dm s).pending = s.pending := rfl

/-! ### powerMod -/

@[simp] theorem powerMod_part : (powerMod fpow s).part = s.part := rfl
@[simp] theorem powerMod_now : (powerMod fpow s).now = s.now := rfl
@[simp] theorem powerMod_coxCount : (powerMod fpow s).coxCount = s.coxCount := rfl
@[simp] theorem powerMod_free : (powerMod fpow s).free = s.free := rfl
@[simp] theorem powerMod_regs : (powerMod fpow s).regs = s.regs := rfl
@[simp] theorem powerMod_counters : (powerMod fpow s).counters = s.counters := rfl
@[simp] theorem powerMod_mem : (powerMod fpow s).mem = s.mem := rfl
@[simp] theorem powerMod_ecc : (powerMod fpow s).ecc = s.ecc := rfl
@[simp] theorem powerMod_rdata : (powerMod fpow s).rdata = s.rdata := rfl
@[simp] theorem powerMod_out : (powerMod fpow s).out = s.out := rfl
@[simp] theorem powerMod_evq : (powerMod fpow s).evq = s.evq := rfl
@[simp] theorem powerMod_notices : (powerMod fpow s).notices = s.notices := rfl
@[simp] theorem powerMod_raised : (powerMod fpow s).raised = s.raised := rfl
@[simp] theorem powerMod_evSeq : (powerMod fpow s).evSeq = s.evSeq := rfl
@[simp] theorem powerMod_objs : (powerMod fpow s).objs = s.objs := rfl
@[simp] theorem powerMod_cmd : (powerMod fpow s).cmd = s.cmd := rfl
@[simp] theorem powerMod_memc : (powerMod fpow s).memc = s.memc := rfl
@[simp] theorem powerMod_bankPend : (powerMod fpow s).bankPend = s.bankPend := rfl
@[simp] theorem powerMod_spool : (powerMod fpow s).spool = s.spool := rfl
@[simp] theorem powerMod_dma : (powerMod fpow s).dma = s.dma := rfl
@[simp] theorem powerMod_shuttle : (powerMod fpow s).shuttle = s.shuttle := rfl
@[simp] theorem powerMod_cox : (powerMod fpow s).cox = s.cox := rfl
@[simp] theorem powerMod_weft : (powerMod fpow s).weft = s.weft := rfl
@[simp] theorem powerMod_carriers : (powerMod fpow s).carriers = s.carriers := rfl
@[simp] theorem powerMod_handsets : (powerMod fpow s).handsets = s.handsets := rfl
@[simp] theorem powerMod_fhSeq : (powerMod fpow s).fhSeq = s.fhSeq := rfl
@[simp] theorem powerMod_chirp : (powerMod fpow s).chirp = s.chirp := rfl
@[simp] theorem powerMod_chirpMods : (powerMod fpow s).chirpMods = s.chirpMods := rfl
@[simp] theorem powerMod_chirpGroups : (powerMod fpow s).chirpGroups = s.chirpGroups := rfl
@[simp] theorem powerMod_tags : (powerMod fpow s).tags = s.tags := rfl
@[simp] theorem powerMod_audio : (powerMod fpow s).audio = s.audio := rfl
@[simp] theorem powerMod_hsp : (powerMod fpow s).hsp = s.hsp := rfl
@[simp] theorem powerMod_video : (powerMod fpow s).video = s.video := rfl
@[simp] theorem powerMod_serial : (powerMod fpow s).serial = s.serial := rfl
@[simp] theorem powerMod_sec : (powerMod fpow s).sec = s.sec := rfl
@[simp] theorem powerMod_fabric : (powerMod fpow s).fabric = s.fabric := rfl
@[simp] theorem powerMod_cores : (powerMod fpow s).cores = s.cores := rfl
@[simp] theorem powerMod_cops : (powerMod fpow s).cops = s.cops := rfl
@[simp] theorem powerMod_keys : (powerMod fpow s).keys = s.keys := rfl
@[simp] theorem powerMod_memChans : (powerMod fpow s).memChans = s.memChans := rfl
@[simp] theorem powerMod_memGib : (powerMod fpow s).memGib = s.memGib := rfl
@[simp] theorem powerMod_pending : (powerMod fpow s).pending = s.pending := rfl

/-! ### coxMod -/

@[simp] theorem coxMod_part : (coxMod fcox s).part = s.part := rfl
@[simp] theorem coxMod_now : (coxMod fcox s).now = s.now := rfl
@[simp] theorem coxMod_coxCount : (coxMod fcox s).coxCount = s.coxCount := rfl
@[simp] theorem coxMod_free : (coxMod fcox s).free = s.free := rfl
@[simp] theorem coxMod_regs : (coxMod fcox s).regs = s.regs := rfl
@[simp] theorem coxMod_counters : (coxMod fcox s).counters = s.counters := rfl
@[simp] theorem coxMod_mem : (coxMod fcox s).mem = s.mem := rfl
@[simp] theorem coxMod_ecc : (coxMod fcox s).ecc = s.ecc := rfl
@[simp] theorem coxMod_rdata : (coxMod fcox s).rdata = s.rdata := rfl
@[simp] theorem coxMod_out : (coxMod fcox s).out = s.out := rfl
@[simp] theorem coxMod_evq : (coxMod fcox s).evq = s.evq := rfl
@[simp] theorem coxMod_notices : (coxMod fcox s).notices = s.notices := rfl
@[simp] theorem coxMod_raised : (coxMod fcox s).raised = s.raised := rfl
@[simp] theorem coxMod_evSeq : (coxMod fcox s).evSeq = s.evSeq := rfl
@[simp] theorem coxMod_objs : (coxMod fcox s).objs = s.objs := rfl
@[simp] theorem coxMod_cmd : (coxMod fcox s).cmd = s.cmd := rfl
@[simp] theorem coxMod_memc : (coxMod fcox s).memc = s.memc := rfl
@[simp] theorem coxMod_bankPend : (coxMod fcox s).bankPend = s.bankPend := rfl
@[simp] theorem coxMod_spool : (coxMod fcox s).spool = s.spool := rfl
@[simp] theorem coxMod_dma : (coxMod fcox s).dma = s.dma := rfl
@[simp] theorem coxMod_shuttle : (coxMod fcox s).shuttle = s.shuttle := rfl
@[simp] theorem coxMod_power : (coxMod fcox s).power = s.power := rfl
@[simp] theorem coxMod_weft : (coxMod fcox s).weft = s.weft := rfl
@[simp] theorem coxMod_carriers : (coxMod fcox s).carriers = s.carriers := rfl
@[simp] theorem coxMod_handsets : (coxMod fcox s).handsets = s.handsets := rfl
@[simp] theorem coxMod_fhSeq : (coxMod fcox s).fhSeq = s.fhSeq := rfl
@[simp] theorem coxMod_chirp : (coxMod fcox s).chirp = s.chirp := rfl
@[simp] theorem coxMod_chirpMods : (coxMod fcox s).chirpMods = s.chirpMods := rfl
@[simp] theorem coxMod_chirpGroups : (coxMod fcox s).chirpGroups = s.chirpGroups := rfl
@[simp] theorem coxMod_tags : (coxMod fcox s).tags = s.tags := rfl
@[simp] theorem coxMod_audio : (coxMod fcox s).audio = s.audio := rfl
@[simp] theorem coxMod_hsp : (coxMod fcox s).hsp = s.hsp := rfl
@[simp] theorem coxMod_video : (coxMod fcox s).video = s.video := rfl
@[simp] theorem coxMod_serial : (coxMod fcox s).serial = s.serial := rfl
@[simp] theorem coxMod_sec : (coxMod fcox s).sec = s.sec := rfl
@[simp] theorem coxMod_fabric : (coxMod fcox s).fabric = s.fabric := rfl
@[simp] theorem coxMod_cores : (coxMod fcox s).cores = s.cores := rfl
@[simp] theorem coxMod_cops : (coxMod fcox s).cops = s.cops := rfl
@[simp] theorem coxMod_keys : (coxMod fcox s).keys = s.keys := rfl
@[simp] theorem coxMod_memChans : (coxMod fcox s).memChans = s.memChans := rfl
@[simp] theorem coxMod_memGib : (coxMod fcox s).memGib = s.memGib := rfl
@[simp] theorem coxMod_pending : (coxMod fcox s).pending = s.pending := rfl

/-! ### routerPut -/

@[simp] theorem routerPut_part : (routerPut u ro s).part = s.part := rfl
@[simp] theorem routerPut_now : (routerPut u ro s).now = s.now := rfl
@[simp] theorem routerPut_coxCount : (routerPut u ro s).coxCount = s.coxCount := rfl
@[simp] theorem routerPut_free : (routerPut u ro s).free = s.free := rfl
@[simp] theorem routerPut_regs : (routerPut u ro s).regs = s.regs := rfl
@[simp] theorem routerPut_counters : (routerPut u ro s).counters = s.counters := rfl
@[simp] theorem routerPut_mem : (routerPut u ro s).mem = s.mem := rfl
@[simp] theorem routerPut_ecc : (routerPut u ro s).ecc = s.ecc := rfl
@[simp] theorem routerPut_rdata : (routerPut u ro s).rdata = s.rdata := rfl
@[simp] theorem routerPut_out : (routerPut u ro s).out = s.out := rfl
@[simp] theorem routerPut_evq : (routerPut u ro s).evq = s.evq := rfl
@[simp] theorem routerPut_notices : (routerPut u ro s).notices = s.notices := rfl
@[simp] theorem routerPut_raised : (routerPut u ro s).raised = s.raised := rfl
@[simp] theorem routerPut_evSeq : (routerPut u ro s).evSeq = s.evSeq := rfl
@[simp] theorem routerPut_objs : (routerPut u ro s).objs = s.objs := rfl
@[simp] theorem routerPut_cmd : (routerPut u ro s).cmd = s.cmd := rfl
@[simp] theorem routerPut_memc : (routerPut u ro s).memc = s.memc := rfl
@[simp] theorem routerPut_bankPend : (routerPut u ro s).bankPend = s.bankPend := rfl
@[simp] theorem routerPut_spool : (routerPut u ro s).spool = s.spool := rfl
@[simp] theorem routerPut_dma : (routerPut u ro s).dma = s.dma := rfl
@[simp] theorem routerPut_shuttle : (routerPut u ro s).shuttle = s.shuttle := rfl
@[simp] theorem routerPut_power : (routerPut u ro s).power = s.power := rfl
@[simp] theorem routerPut_cox : (routerPut u ro s).cox = s.cox := rfl
@[simp] theorem routerPut_carriers : (routerPut u ro s).carriers = s.carriers := rfl
@[simp] theorem routerPut_handsets : (routerPut u ro s).handsets = s.handsets := rfl
@[simp] theorem routerPut_fhSeq : (routerPut u ro s).fhSeq = s.fhSeq := rfl
@[simp] theorem routerPut_chirp : (routerPut u ro s).chirp = s.chirp := rfl
@[simp] theorem routerPut_chirpMods : (routerPut u ro s).chirpMods = s.chirpMods := rfl
@[simp] theorem routerPut_chirpGroups : (routerPut u ro s).chirpGroups = s.chirpGroups := rfl
@[simp] theorem routerPut_tags : (routerPut u ro s).tags = s.tags := rfl
@[simp] theorem routerPut_audio : (routerPut u ro s).audio = s.audio := rfl
@[simp] theorem routerPut_hsp : (routerPut u ro s).hsp = s.hsp := rfl
@[simp] theorem routerPut_video : (routerPut u ro s).video = s.video := rfl
@[simp] theorem routerPut_serial : (routerPut u ro s).serial = s.serial := rfl
@[simp] theorem routerPut_sec : (routerPut u ro s).sec = s.sec := rfl
@[simp] theorem routerPut_fabric : (routerPut u ro s).fabric = s.fabric := rfl
@[simp] theorem routerPut_cores : (routerPut u ro s).cores = s.cores := rfl
@[simp] theorem routerPut_cops : (routerPut u ro s).cops = s.cops := rfl
@[simp] theorem routerPut_keys : (routerPut u ro s).keys = s.keys := rfl
@[simp] theorem routerPut_memChans : (routerPut u ro s).memChans = s.memChans := rfl
@[simp] theorem routerPut_memGib : (routerPut u ro s).memGib = s.memGib := rfl
@[simp] theorem routerPut_pending : (routerPut u ro s).pending = s.pending := rfl

/-! ### carrierPut -/

@[simp] theorem carrierPut_part : (carrierPut u ca s).part = s.part := rfl
@[simp] theorem carrierPut_now : (carrierPut u ca s).now = s.now := rfl
@[simp] theorem carrierPut_coxCount : (carrierPut u ca s).coxCount = s.coxCount := rfl
@[simp] theorem carrierPut_free : (carrierPut u ca s).free = s.free := rfl
@[simp] theorem carrierPut_regs : (carrierPut u ca s).regs = s.regs := rfl
@[simp] theorem carrierPut_counters : (carrierPut u ca s).counters = s.counters := rfl
@[simp] theorem carrierPut_mem : (carrierPut u ca s).mem = s.mem := rfl
@[simp] theorem carrierPut_ecc : (carrierPut u ca s).ecc = s.ecc := rfl
@[simp] theorem carrierPut_rdata : (carrierPut u ca s).rdata = s.rdata := rfl
@[simp] theorem carrierPut_out : (carrierPut u ca s).out = s.out := rfl
@[simp] theorem carrierPut_evq : (carrierPut u ca s).evq = s.evq := rfl
@[simp] theorem carrierPut_notices : (carrierPut u ca s).notices = s.notices := rfl
@[simp] theorem carrierPut_raised : (carrierPut u ca s).raised = s.raised := rfl
@[simp] theorem carrierPut_evSeq : (carrierPut u ca s).evSeq = s.evSeq := rfl
@[simp] theorem carrierPut_objs : (carrierPut u ca s).objs = s.objs := rfl
@[simp] theorem carrierPut_cmd : (carrierPut u ca s).cmd = s.cmd := rfl
@[simp] theorem carrierPut_memc : (carrierPut u ca s).memc = s.memc := rfl
@[simp] theorem carrierPut_bankPend : (carrierPut u ca s).bankPend = s.bankPend := rfl
@[simp] theorem carrierPut_spool : (carrierPut u ca s).spool = s.spool := rfl
@[simp] theorem carrierPut_dma : (carrierPut u ca s).dma = s.dma := rfl
@[simp] theorem carrierPut_shuttle : (carrierPut u ca s).shuttle = s.shuttle := rfl
@[simp] theorem carrierPut_power : (carrierPut u ca s).power = s.power := rfl
@[simp] theorem carrierPut_cox : (carrierPut u ca s).cox = s.cox := rfl
@[simp] theorem carrierPut_weft : (carrierPut u ca s).weft = s.weft := rfl
@[simp] theorem carrierPut_handsets : (carrierPut u ca s).handsets = s.handsets := rfl
@[simp] theorem carrierPut_fhSeq : (carrierPut u ca s).fhSeq = s.fhSeq := rfl
@[simp] theorem carrierPut_chirp : (carrierPut u ca s).chirp = s.chirp := rfl
@[simp] theorem carrierPut_chirpMods : (carrierPut u ca s).chirpMods = s.chirpMods := rfl
@[simp] theorem carrierPut_chirpGroups : (carrierPut u ca s).chirpGroups = s.chirpGroups := rfl
@[simp] theorem carrierPut_tags : (carrierPut u ca s).tags = s.tags := rfl
@[simp] theorem carrierPut_audio : (carrierPut u ca s).audio = s.audio := rfl
@[simp] theorem carrierPut_hsp : (carrierPut u ca s).hsp = s.hsp := rfl
@[simp] theorem carrierPut_video : (carrierPut u ca s).video = s.video := rfl
@[simp] theorem carrierPut_serial : (carrierPut u ca s).serial = s.serial := rfl
@[simp] theorem carrierPut_sec : (carrierPut u ca s).sec = s.sec := rfl
@[simp] theorem carrierPut_fabric : (carrierPut u ca s).fabric = s.fabric := rfl
@[simp] theorem carrierPut_cores : (carrierPut u ca s).cores = s.cores := rfl
@[simp] theorem carrierPut_cops : (carrierPut u ca s).cops = s.cops := rfl
@[simp] theorem carrierPut_keys : (carrierPut u ca s).keys = s.keys := rfl
@[simp] theorem carrierPut_memChans : (carrierPut u ca s).memChans = s.memChans := rfl
@[simp] theorem carrierPut_memGib : (carrierPut u ca s).memGib = s.memGib := rfl
@[simp] theorem carrierPut_pending : (carrierPut u ca s).pending = s.pending := rfl

/-! ### handsetPut -/

@[simp] theorem handsetPut_part : (handsetPut u ha s).part = s.part := rfl
@[simp] theorem handsetPut_now : (handsetPut u ha s).now = s.now := rfl
@[simp] theorem handsetPut_coxCount : (handsetPut u ha s).coxCount = s.coxCount := rfl
@[simp] theorem handsetPut_free : (handsetPut u ha s).free = s.free := rfl
@[simp] theorem handsetPut_regs : (handsetPut u ha s).regs = s.regs := rfl
@[simp] theorem handsetPut_counters : (handsetPut u ha s).counters = s.counters := rfl
@[simp] theorem handsetPut_mem : (handsetPut u ha s).mem = s.mem := rfl
@[simp] theorem handsetPut_ecc : (handsetPut u ha s).ecc = s.ecc := rfl
@[simp] theorem handsetPut_rdata : (handsetPut u ha s).rdata = s.rdata := rfl
@[simp] theorem handsetPut_out : (handsetPut u ha s).out = s.out := rfl
@[simp] theorem handsetPut_evq : (handsetPut u ha s).evq = s.evq := rfl
@[simp] theorem handsetPut_notices : (handsetPut u ha s).notices = s.notices := rfl
@[simp] theorem handsetPut_raised : (handsetPut u ha s).raised = s.raised := rfl
@[simp] theorem handsetPut_evSeq : (handsetPut u ha s).evSeq = s.evSeq := rfl
@[simp] theorem handsetPut_objs : (handsetPut u ha s).objs = s.objs := rfl
@[simp] theorem handsetPut_cmd : (handsetPut u ha s).cmd = s.cmd := rfl
@[simp] theorem handsetPut_memc : (handsetPut u ha s).memc = s.memc := rfl
@[simp] theorem handsetPut_bankPend : (handsetPut u ha s).bankPend = s.bankPend := rfl
@[simp] theorem handsetPut_spool : (handsetPut u ha s).spool = s.spool := rfl
@[simp] theorem handsetPut_dma : (handsetPut u ha s).dma = s.dma := rfl
@[simp] theorem handsetPut_shuttle : (handsetPut u ha s).shuttle = s.shuttle := rfl
@[simp] theorem handsetPut_power : (handsetPut u ha s).power = s.power := rfl
@[simp] theorem handsetPut_cox : (handsetPut u ha s).cox = s.cox := rfl
@[simp] theorem handsetPut_weft : (handsetPut u ha s).weft = s.weft := rfl
@[simp] theorem handsetPut_carriers : (handsetPut u ha s).carriers = s.carriers := rfl
@[simp] theorem handsetPut_fhSeq : (handsetPut u ha s).fhSeq = s.fhSeq := rfl
@[simp] theorem handsetPut_chirp : (handsetPut u ha s).chirp = s.chirp := rfl
@[simp] theorem handsetPut_chirpMods : (handsetPut u ha s).chirpMods = s.chirpMods := rfl
@[simp] theorem handsetPut_chirpGroups : (handsetPut u ha s).chirpGroups = s.chirpGroups := rfl
@[simp] theorem handsetPut_tags : (handsetPut u ha s).tags = s.tags := rfl
@[simp] theorem handsetPut_audio : (handsetPut u ha s).audio = s.audio := rfl
@[simp] theorem handsetPut_hsp : (handsetPut u ha s).hsp = s.hsp := rfl
@[simp] theorem handsetPut_video : (handsetPut u ha s).video = s.video := rfl
@[simp] theorem handsetPut_serial : (handsetPut u ha s).serial = s.serial := rfl
@[simp] theorem handsetPut_sec : (handsetPut u ha s).sec = s.sec := rfl
@[simp] theorem handsetPut_fabric : (handsetPut u ha s).fabric = s.fabric := rfl
@[simp] theorem handsetPut_cores : (handsetPut u ha s).cores = s.cores := rfl
@[simp] theorem handsetPut_cops : (handsetPut u ha s).cops = s.cops := rfl
@[simp] theorem handsetPut_keys : (handsetPut u ha s).keys = s.keys := rfl
@[simp] theorem handsetPut_memChans : (handsetPut u ha s).memChans = s.memChans := rfl
@[simp] theorem handsetPut_memGib : (handsetPut u ha s).memGib = s.memGib := rfl
@[simp] theorem handsetPut_pending : (handsetPut u ha s).pending = s.pending := rfl

/-! ### dmaPut -/

@[simp] theorem dmaPut_part : (dmaPut u dc s).part = s.part := rfl
@[simp] theorem dmaPut_now : (dmaPut u dc s).now = s.now := rfl
@[simp] theorem dmaPut_coxCount : (dmaPut u dc s).coxCount = s.coxCount := rfl
@[simp] theorem dmaPut_free : (dmaPut u dc s).free = s.free := rfl
@[simp] theorem dmaPut_regs : (dmaPut u dc s).regs = s.regs := rfl
@[simp] theorem dmaPut_counters : (dmaPut u dc s).counters = s.counters := rfl
@[simp] theorem dmaPut_mem : (dmaPut u dc s).mem = s.mem := rfl
@[simp] theorem dmaPut_ecc : (dmaPut u dc s).ecc = s.ecc := rfl
@[simp] theorem dmaPut_rdata : (dmaPut u dc s).rdata = s.rdata := rfl
@[simp] theorem dmaPut_out : (dmaPut u dc s).out = s.out := rfl
@[simp] theorem dmaPut_evq : (dmaPut u dc s).evq = s.evq := rfl
@[simp] theorem dmaPut_notices : (dmaPut u dc s).notices = s.notices := rfl
@[simp] theorem dmaPut_raised : (dmaPut u dc s).raised = s.raised := rfl
@[simp] theorem dmaPut_evSeq : (dmaPut u dc s).evSeq = s.evSeq := rfl
@[simp] theorem dmaPut_objs : (dmaPut u dc s).objs = s.objs := rfl
@[simp] theorem dmaPut_cmd : (dmaPut u dc s).cmd = s.cmd := rfl
@[simp] theorem dmaPut_memc : (dmaPut u dc s).memc = s.memc := rfl
@[simp] theorem dmaPut_bankPend : (dmaPut u dc s).bankPend = s.bankPend := rfl
@[simp] theorem dmaPut_spool : (dmaPut u dc s).spool = s.spool := rfl
@[simp] theorem dmaPut_shuttle : (dmaPut u dc s).shuttle = s.shuttle := rfl
@[simp] theorem dmaPut_power : (dmaPut u dc s).power = s.power := rfl
@[simp] theorem dmaPut_cox : (dmaPut u dc s).cox = s.cox := rfl
@[simp] theorem dmaPut_weft : (dmaPut u dc s).weft = s.weft := rfl
@[simp] theorem dmaPut_carriers : (dmaPut u dc s).carriers = s.carriers := rfl
@[simp] theorem dmaPut_handsets : (dmaPut u dc s).handsets = s.handsets := rfl
@[simp] theorem dmaPut_fhSeq : (dmaPut u dc s).fhSeq = s.fhSeq := rfl
@[simp] theorem dmaPut_chirp : (dmaPut u dc s).chirp = s.chirp := rfl
@[simp] theorem dmaPut_chirpMods : (dmaPut u dc s).chirpMods = s.chirpMods := rfl
@[simp] theorem dmaPut_chirpGroups : (dmaPut u dc s).chirpGroups = s.chirpGroups := rfl
@[simp] theorem dmaPut_tags : (dmaPut u dc s).tags = s.tags := rfl
@[simp] theorem dmaPut_audio : (dmaPut u dc s).audio = s.audio := rfl
@[simp] theorem dmaPut_hsp : (dmaPut u dc s).hsp = s.hsp := rfl
@[simp] theorem dmaPut_video : (dmaPut u dc s).video = s.video := rfl
@[simp] theorem dmaPut_serial : (dmaPut u dc s).serial = s.serial := rfl
@[simp] theorem dmaPut_sec : (dmaPut u dc s).sec = s.sec := rfl
@[simp] theorem dmaPut_fabric : (dmaPut u dc s).fabric = s.fabric := rfl
@[simp] theorem dmaPut_cores : (dmaPut u dc s).cores = s.cores := rfl
@[simp] theorem dmaPut_cops : (dmaPut u dc s).cops = s.cops := rfl
@[simp] theorem dmaPut_keys : (dmaPut u dc s).keys = s.keys := rfl
@[simp] theorem dmaPut_memChans : (dmaPut u dc s).memChans = s.memChans := rfl
@[simp] theorem dmaPut_memGib : (dmaPut u dc s).memGib = s.memGib := rfl
@[simp] theorem dmaPut_pending : (dmaPut u dc s).pending = s.pending := rfl

/-! ### copPut -/

@[simp] theorem copPut_part : (copPut u i cq s).part = s.part := rfl
@[simp] theorem copPut_now : (copPut u i cq s).now = s.now := rfl
@[simp] theorem copPut_coxCount : (copPut u i cq s).coxCount = s.coxCount := rfl
@[simp] theorem copPut_free : (copPut u i cq s).free = s.free := rfl
@[simp] theorem copPut_regs : (copPut u i cq s).regs = s.regs := rfl
@[simp] theorem copPut_counters : (copPut u i cq s).counters = s.counters := rfl
@[simp] theorem copPut_mem : (copPut u i cq s).mem = s.mem := rfl
@[simp] theorem copPut_ecc : (copPut u i cq s).ecc = s.ecc := rfl
@[simp] theorem copPut_rdata : (copPut u i cq s).rdata = s.rdata := rfl
@[simp] theorem copPut_out : (copPut u i cq s).out = s.out := rfl
@[simp] theorem copPut_evq : (copPut u i cq s).evq = s.evq := rfl
@[simp] theorem copPut_notices : (copPut u i cq s).notices = s.notices := rfl
@[simp] theorem copPut_raised : (copPut u i cq s).raised = s.raised := rfl
@[simp] theorem copPut_evSeq : (copPut u i cq s).evSeq = s.evSeq := rfl
@[simp] theorem copPut_objs : (copPut u i cq s).objs = s.objs := rfl
@[simp] theorem copPut_cmd : (copPut u i cq s).cmd = s.cmd := rfl
@[simp] theorem copPut_memc : (copPut u i cq s).memc = s.memc := rfl
@[simp] theorem copPut_bankPend : (copPut u i cq s).bankPend = s.bankPend := rfl
@[simp] theorem copPut_spool : (copPut u i cq s).spool = s.spool := rfl
@[simp] theorem copPut_dma : (copPut u i cq s).dma = s.dma := rfl
@[simp] theorem copPut_shuttle : (copPut u i cq s).shuttle = s.shuttle := rfl
@[simp] theorem copPut_power : (copPut u i cq s).power = s.power := rfl
@[simp] theorem copPut_cox : (copPut u i cq s).cox = s.cox := rfl
@[simp] theorem copPut_weft : (copPut u i cq s).weft = s.weft := rfl
@[simp] theorem copPut_carriers : (copPut u i cq s).carriers = s.carriers := rfl
@[simp] theorem copPut_handsets : (copPut u i cq s).handsets = s.handsets := rfl
@[simp] theorem copPut_fhSeq : (copPut u i cq s).fhSeq = s.fhSeq := rfl
@[simp] theorem copPut_chirp : (copPut u i cq s).chirp = s.chirp := rfl
@[simp] theorem copPut_chirpMods : (copPut u i cq s).chirpMods = s.chirpMods := rfl
@[simp] theorem copPut_chirpGroups : (copPut u i cq s).chirpGroups = s.chirpGroups := rfl
@[simp] theorem copPut_tags : (copPut u i cq s).tags = s.tags := rfl
@[simp] theorem copPut_audio : (copPut u i cq s).audio = s.audio := rfl
@[simp] theorem copPut_hsp : (copPut u i cq s).hsp = s.hsp := rfl
@[simp] theorem copPut_video : (copPut u i cq s).video = s.video := rfl
@[simp] theorem copPut_serial : (copPut u i cq s).serial = s.serial := rfl
@[simp] theorem copPut_sec : (copPut u i cq s).sec = s.sec := rfl
@[simp] theorem copPut_fabric : (copPut u i cq s).fabric = s.fabric := rfl
@[simp] theorem copPut_cores : (copPut u i cq s).cores = s.cores := rfl
@[simp] theorem copPut_keys : (copPut u i cq s).keys = s.keys := rfl
@[simp] theorem copPut_memChans : (copPut u i cq s).memChans = s.memChans := rfl
@[simp] theorem copPut_memGib : (copPut u i cq s).memGib = s.memGib := rfl
@[simp] theorem copPut_pending : (copPut u i cq s).pending = s.pending := rfl

/-! ### audioMod -/

@[simp] theorem audioMod_part : (audioMod faud s).part = s.part := rfl
@[simp] theorem audioMod_now : (audioMod faud s).now = s.now := rfl
@[simp] theorem audioMod_coxCount : (audioMod faud s).coxCount = s.coxCount := rfl
@[simp] theorem audioMod_free : (audioMod faud s).free = s.free := rfl
@[simp] theorem audioMod_regs : (audioMod faud s).regs = s.regs := rfl
@[simp] theorem audioMod_counters : (audioMod faud s).counters = s.counters := rfl
@[simp] theorem audioMod_mem : (audioMod faud s).mem = s.mem := rfl
@[simp] theorem audioMod_ecc : (audioMod faud s).ecc = s.ecc := rfl
@[simp] theorem audioMod_rdata : (audioMod faud s).rdata = s.rdata := rfl
@[simp] theorem audioMod_out : (audioMod faud s).out = s.out := rfl
@[simp] theorem audioMod_evq : (audioMod faud s).evq = s.evq := rfl
@[simp] theorem audioMod_notices : (audioMod faud s).notices = s.notices := rfl
@[simp] theorem audioMod_raised : (audioMod faud s).raised = s.raised := rfl
@[simp] theorem audioMod_evSeq : (audioMod faud s).evSeq = s.evSeq := rfl
@[simp] theorem audioMod_objs : (audioMod faud s).objs = s.objs := rfl
@[simp] theorem audioMod_cmd : (audioMod faud s).cmd = s.cmd := rfl
@[simp] theorem audioMod_memc : (audioMod faud s).memc = s.memc := rfl
@[simp] theorem audioMod_bankPend : (audioMod faud s).bankPend = s.bankPend := rfl
@[simp] theorem audioMod_spool : (audioMod faud s).spool = s.spool := rfl
@[simp] theorem audioMod_dma : (audioMod faud s).dma = s.dma := rfl
@[simp] theorem audioMod_shuttle : (audioMod faud s).shuttle = s.shuttle := rfl
@[simp] theorem audioMod_power : (audioMod faud s).power = s.power := rfl
@[simp] theorem audioMod_cox : (audioMod faud s).cox = s.cox := rfl
@[simp] theorem audioMod_weft : (audioMod faud s).weft = s.weft := rfl
@[simp] theorem audioMod_carriers : (audioMod faud s).carriers = s.carriers := rfl
@[simp] theorem audioMod_handsets : (audioMod faud s).handsets = s.handsets := rfl
@[simp] theorem audioMod_fhSeq : (audioMod faud s).fhSeq = s.fhSeq := rfl
@[simp] theorem audioMod_chirp : (audioMod faud s).chirp = s.chirp := rfl
@[simp] theorem audioMod_chirpMods : (audioMod faud s).chirpMods = s.chirpMods := rfl
@[simp] theorem audioMod_chirpGroups : (audioMod faud s).chirpGroups = s.chirpGroups := rfl
@[simp] theorem audioMod_tags : (audioMod faud s).tags = s.tags := rfl
@[simp] theorem audioMod_hsp : (audioMod faud s).hsp = s.hsp := rfl
@[simp] theorem audioMod_video : (audioMod faud s).video = s.video := rfl
@[simp] theorem audioMod_serial : (audioMod faud s).serial = s.serial := rfl
@[simp] theorem audioMod_sec : (audioMod faud s).sec = s.sec := rfl
@[simp] theorem audioMod_fabric : (audioMod faud s).fabric = s.fabric := rfl
@[simp] theorem audioMod_cores : (audioMod faud s).cores = s.cores := rfl
@[simp] theorem audioMod_cops : (audioMod faud s).cops = s.cops := rfl
@[simp] theorem audioMod_keys : (audioMod faud s).keys = s.keys := rfl
@[simp] theorem audioMod_memChans : (audioMod faud s).memChans = s.memChans := rfl
@[simp] theorem audioMod_memGib : (audioMod faud s).memGib = s.memGib := rfl
@[simp] theorem audioMod_pending : (audioMod faud s).pending = s.pending := rfl

/-! ### videoMod -/

@[simp] theorem videoMod_part : (videoMod fvid s).part = s.part := rfl
@[simp] theorem videoMod_now : (videoMod fvid s).now = s.now := rfl
@[simp] theorem videoMod_coxCount : (videoMod fvid s).coxCount = s.coxCount := rfl
@[simp] theorem videoMod_free : (videoMod fvid s).free = s.free := rfl
@[simp] theorem videoMod_regs : (videoMod fvid s).regs = s.regs := rfl
@[simp] theorem videoMod_counters : (videoMod fvid s).counters = s.counters := rfl
@[simp] theorem videoMod_mem : (videoMod fvid s).mem = s.mem := rfl
@[simp] theorem videoMod_ecc : (videoMod fvid s).ecc = s.ecc := rfl
@[simp] theorem videoMod_rdata : (videoMod fvid s).rdata = s.rdata := rfl
@[simp] theorem videoMod_out : (videoMod fvid s).out = s.out := rfl
@[simp] theorem videoMod_evq : (videoMod fvid s).evq = s.evq := rfl
@[simp] theorem videoMod_notices : (videoMod fvid s).notices = s.notices := rfl
@[simp] theorem videoMod_raised : (videoMod fvid s).raised = s.raised := rfl
@[simp] theorem videoMod_evSeq : (videoMod fvid s).evSeq = s.evSeq := rfl
@[simp] theorem videoMod_objs : (videoMod fvid s).objs = s.objs := rfl
@[simp] theorem videoMod_cmd : (videoMod fvid s).cmd = s.cmd := rfl
@[simp] theorem videoMod_memc : (videoMod fvid s).memc = s.memc := rfl
@[simp] theorem videoMod_bankPend : (videoMod fvid s).bankPend = s.bankPend := rfl
@[simp] theorem videoMod_spool : (videoMod fvid s).spool = s.spool := rfl
@[simp] theorem videoMod_dma : (videoMod fvid s).dma = s.dma := rfl
@[simp] theorem videoMod_shuttle : (videoMod fvid s).shuttle = s.shuttle := rfl
@[simp] theorem videoMod_power : (videoMod fvid s).power = s.power := rfl
@[simp] theorem videoMod_cox : (videoMod fvid s).cox = s.cox := rfl
@[simp] theorem videoMod_weft : (videoMod fvid s).weft = s.weft := rfl
@[simp] theorem videoMod_carriers : (videoMod fvid s).carriers = s.carriers := rfl
@[simp] theorem videoMod_handsets : (videoMod fvid s).handsets = s.handsets := rfl
@[simp] theorem videoMod_fhSeq : (videoMod fvid s).fhSeq = s.fhSeq := rfl
@[simp] theorem videoMod_chirp : (videoMod fvid s).chirp = s.chirp := rfl
@[simp] theorem videoMod_chirpMods : (videoMod fvid s).chirpMods = s.chirpMods := rfl
@[simp] theorem videoMod_chirpGroups : (videoMod fvid s).chirpGroups = s.chirpGroups := rfl
@[simp] theorem videoMod_tags : (videoMod fvid s).tags = s.tags := rfl
@[simp] theorem videoMod_audio : (videoMod fvid s).audio = s.audio := rfl
@[simp] theorem videoMod_hsp : (videoMod fvid s).hsp = s.hsp := rfl
@[simp] theorem videoMod_serial : (videoMod fvid s).serial = s.serial := rfl
@[simp] theorem videoMod_sec : (videoMod fvid s).sec = s.sec := rfl
@[simp] theorem videoMod_fabric : (videoMod fvid s).fabric = s.fabric := rfl
@[simp] theorem videoMod_cores : (videoMod fvid s).cores = s.cores := rfl
@[simp] theorem videoMod_cops : (videoMod fvid s).cops = s.cops := rfl
@[simp] theorem videoMod_keys : (videoMod fvid s).keys = s.keys := rfl
@[simp] theorem videoMod_memChans : (videoMod fvid s).memChans = s.memChans := rfl
@[simp] theorem videoMod_memGib : (videoMod fvid s).memGib = s.memGib := rfl
@[simp] theorem videoMod_pending : (videoMod fvid s).pending = s.pending := rfl

/-! ### secMod -/

@[simp] theorem secMod_part : (secMod fsec s).part = s.part := rfl
@[simp] theorem secMod_now : (secMod fsec s).now = s.now := rfl
@[simp] theorem secMod_coxCount : (secMod fsec s).coxCount = s.coxCount := rfl
@[simp] theorem secMod_free : (secMod fsec s).free = s.free := rfl
@[simp] theorem secMod_regs : (secMod fsec s).regs = s.regs := rfl
@[simp] theorem secMod_counters : (secMod fsec s).counters = s.counters := rfl
@[simp] theorem secMod_mem : (secMod fsec s).mem = s.mem := rfl
@[simp] theorem secMod_ecc : (secMod fsec s).ecc = s.ecc := rfl
@[simp] theorem secMod_rdata : (secMod fsec s).rdata = s.rdata := rfl
@[simp] theorem secMod_out : (secMod fsec s).out = s.out := rfl
@[simp] theorem secMod_evq : (secMod fsec s).evq = s.evq := rfl
@[simp] theorem secMod_notices : (secMod fsec s).notices = s.notices := rfl
@[simp] theorem secMod_raised : (secMod fsec s).raised = s.raised := rfl
@[simp] theorem secMod_evSeq : (secMod fsec s).evSeq = s.evSeq := rfl
@[simp] theorem secMod_objs : (secMod fsec s).objs = s.objs := rfl
@[simp] theorem secMod_cmd : (secMod fsec s).cmd = s.cmd := rfl
@[simp] theorem secMod_memc : (secMod fsec s).memc = s.memc := rfl
@[simp] theorem secMod_bankPend : (secMod fsec s).bankPend = s.bankPend := rfl
@[simp] theorem secMod_spool : (secMod fsec s).spool = s.spool := rfl
@[simp] theorem secMod_dma : (secMod fsec s).dma = s.dma := rfl
@[simp] theorem secMod_shuttle : (secMod fsec s).shuttle = s.shuttle := rfl
@[simp] theorem secMod_power : (secMod fsec s).power = s.power := rfl
@[simp] theorem secMod_cox : (secMod fsec s).cox = s.cox := rfl
@[simp] theorem secMod_weft : (secMod fsec s).weft = s.weft := rfl
@[simp] theorem secMod_carriers : (secMod fsec s).carriers = s.carriers := rfl
@[simp] theorem secMod_handsets : (secMod fsec s).handsets = s.handsets := rfl
@[simp] theorem secMod_fhSeq : (secMod fsec s).fhSeq = s.fhSeq := rfl
@[simp] theorem secMod_chirp : (secMod fsec s).chirp = s.chirp := rfl
@[simp] theorem secMod_chirpMods : (secMod fsec s).chirpMods = s.chirpMods := rfl
@[simp] theorem secMod_chirpGroups : (secMod fsec s).chirpGroups = s.chirpGroups := rfl
@[simp] theorem secMod_tags : (secMod fsec s).tags = s.tags := rfl
@[simp] theorem secMod_audio : (secMod fsec s).audio = s.audio := rfl
@[simp] theorem secMod_hsp : (secMod fsec s).hsp = s.hsp := rfl
@[simp] theorem secMod_video : (secMod fsec s).video = s.video := rfl
@[simp] theorem secMod_serial : (secMod fsec s).serial = s.serial := rfl
@[simp] theorem secMod_fabric : (secMod fsec s).fabric = s.fabric := rfl
@[simp] theorem secMod_cores : (secMod fsec s).cores = s.cores := rfl
@[simp] theorem secMod_cops : (secMod fsec s).cops = s.cops := rfl
@[simp] theorem secMod_keys : (secMod fsec s).keys = s.keys := rfl
@[simp] theorem secMod_memChans : (secMod fsec s).memChans = s.memChans := rfl
@[simp] theorem secMod_memGib : (secMod fsec s).memGib = s.memGib := rfl
@[simp] theorem secMod_pending : (secMod fsec s).pending = s.pending := rfl

/-! ### fabMod -/

@[simp] theorem fabMod_part : (fabMod ffab s).part = s.part := rfl
@[simp] theorem fabMod_now : (fabMod ffab s).now = s.now := rfl
@[simp] theorem fabMod_coxCount : (fabMod ffab s).coxCount = s.coxCount := rfl
@[simp] theorem fabMod_free : (fabMod ffab s).free = s.free := rfl
@[simp] theorem fabMod_regs : (fabMod ffab s).regs = s.regs := rfl
@[simp] theorem fabMod_counters : (fabMod ffab s).counters = s.counters := rfl
@[simp] theorem fabMod_mem : (fabMod ffab s).mem = s.mem := rfl
@[simp] theorem fabMod_ecc : (fabMod ffab s).ecc = s.ecc := rfl
@[simp] theorem fabMod_rdata : (fabMod ffab s).rdata = s.rdata := rfl
@[simp] theorem fabMod_out : (fabMod ffab s).out = s.out := rfl
@[simp] theorem fabMod_evq : (fabMod ffab s).evq = s.evq := rfl
@[simp] theorem fabMod_notices : (fabMod ffab s).notices = s.notices := rfl
@[simp] theorem fabMod_raised : (fabMod ffab s).raised = s.raised := rfl
@[simp] theorem fabMod_evSeq : (fabMod ffab s).evSeq = s.evSeq := rfl
@[simp] theorem fabMod_objs : (fabMod ffab s).objs = s.objs := rfl
@[simp] theorem fabMod_cmd : (fabMod ffab s).cmd = s.cmd := rfl
@[simp] theorem fabMod_memc : (fabMod ffab s).memc = s.memc := rfl
@[simp] theorem fabMod_bankPend : (fabMod ffab s).bankPend = s.bankPend := rfl
@[simp] theorem fabMod_spool : (fabMod ffab s).spool = s.spool := rfl
@[simp] theorem fabMod_dma : (fabMod ffab s).dma = s.dma := rfl
@[simp] theorem fabMod_shuttle : (fabMod ffab s).shuttle = s.shuttle := rfl
@[simp] theorem fabMod_power : (fabMod ffab s).power = s.power := rfl
@[simp] theorem fabMod_cox : (fabMod ffab s).cox = s.cox := rfl
@[simp] theorem fabMod_weft : (fabMod ffab s).weft = s.weft := rfl
@[simp] theorem fabMod_carriers : (fabMod ffab s).carriers = s.carriers := rfl
@[simp] theorem fabMod_handsets : (fabMod ffab s).handsets = s.handsets := rfl
@[simp] theorem fabMod_fhSeq : (fabMod ffab s).fhSeq = s.fhSeq := rfl
@[simp] theorem fabMod_chirp : (fabMod ffab s).chirp = s.chirp := rfl
@[simp] theorem fabMod_chirpMods : (fabMod ffab s).chirpMods = s.chirpMods := rfl
@[simp] theorem fabMod_chirpGroups : (fabMod ffab s).chirpGroups = s.chirpGroups := rfl
@[simp] theorem fabMod_tags : (fabMod ffab s).tags = s.tags := rfl
@[simp] theorem fabMod_audio : (fabMod ffab s).audio = s.audio := rfl
@[simp] theorem fabMod_hsp : (fabMod ffab s).hsp = s.hsp := rfl
@[simp] theorem fabMod_video : (fabMod ffab s).video = s.video := rfl
@[simp] theorem fabMod_serial : (fabMod ffab s).serial = s.serial := rfl
@[simp] theorem fabMod_sec : (fabMod ffab s).sec = s.sec := rfl
@[simp] theorem fabMod_cores : (fabMod ffab s).cores = s.cores := rfl
@[simp] theorem fabMod_cops : (fabMod ffab s).cops = s.cops := rfl
@[simp] theorem fabMod_keys : (fabMod ffab s).keys = s.keys := rfl
@[simp] theorem fabMod_memChans : (fabMod ffab s).memChans = s.memChans := rfl
@[simp] theorem fabMod_memGib : (fabMod ffab s).memGib = s.memGib := rfl
@[simp] theorem fabMod_pending : (fabMod ffab s).pending = s.pending := rfl

/-! ### A free value drawn -/

@[simp] theorem draw_part : (draw s).2.part = s.part := rfl
@[simp] theorem draw_now : (draw s).2.now = s.now := rfl
@[simp] theorem draw_coxCount : (draw s).2.coxCount = s.coxCount := rfl
@[simp] theorem draw_regs : (draw s).2.regs = s.regs := rfl
@[simp] theorem draw_counters : (draw s).2.counters = s.counters := rfl
@[simp] theorem draw_mem : (draw s).2.mem = s.mem := rfl
@[simp] theorem draw_ecc : (draw s).2.ecc = s.ecc := rfl
@[simp] theorem draw_rdata : (draw s).2.rdata = s.rdata := rfl
@[simp] theorem draw_out : (draw s).2.out = s.out := rfl
@[simp] theorem draw_evq : (draw s).2.evq = s.evq := rfl
@[simp] theorem draw_notices : (draw s).2.notices = s.notices := rfl
@[simp] theorem draw_raised : (draw s).2.raised = s.raised := rfl
@[simp] theorem draw_evSeq : (draw s).2.evSeq = s.evSeq := rfl
@[simp] theorem draw_objs : (draw s).2.objs = s.objs := rfl
@[simp] theorem draw_cmd : (draw s).2.cmd = s.cmd := rfl
@[simp] theorem draw_memc : (draw s).2.memc = s.memc := rfl
@[simp] theorem draw_bankPend : (draw s).2.bankPend = s.bankPend := rfl
@[simp] theorem draw_spool : (draw s).2.spool = s.spool := rfl
@[simp] theorem draw_dma : (draw s).2.dma = s.dma := rfl
@[simp] theorem draw_shuttle : (draw s).2.shuttle = s.shuttle := rfl
@[simp] theorem draw_power : (draw s).2.power = s.power := rfl
@[simp] theorem draw_cox : (draw s).2.cox = s.cox := rfl
@[simp] theorem draw_weft : (draw s).2.weft = s.weft := rfl
@[simp] theorem draw_carriers : (draw s).2.carriers = s.carriers := rfl
@[simp] theorem draw_handsets : (draw s).2.handsets = s.handsets := rfl
@[simp] theorem draw_fhSeq : (draw s).2.fhSeq = s.fhSeq := rfl
@[simp] theorem draw_chirp : (draw s).2.chirp = s.chirp := rfl
@[simp] theorem draw_chirpMods : (draw s).2.chirpMods = s.chirpMods := rfl
@[simp] theorem draw_chirpGroups : (draw s).2.chirpGroups = s.chirpGroups := rfl
@[simp] theorem draw_tags : (draw s).2.tags = s.tags := rfl
@[simp] theorem draw_audio : (draw s).2.audio = s.audio := rfl
@[simp] theorem draw_hsp : (draw s).2.hsp = s.hsp := rfl
@[simp] theorem draw_video : (draw s).2.video = s.video := rfl
@[simp] theorem draw_serial : (draw s).2.serial = s.serial := rfl
@[simp] theorem draw_sec : (draw s).2.sec = s.sec := rfl
@[simp] theorem draw_fabric : (draw s).2.fabric = s.fabric := rfl
@[simp] theorem draw_cores : (draw s).2.cores = s.cores := rfl
@[simp] theorem draw_cops : (draw s).2.cops = s.cops := rfl
@[simp] theorem draw_keys : (draw s).2.keys = s.keys := rfl
@[simp] theorem draw_memChans : (draw s).2.memChans = s.memChans := rfl
@[simp] theorem draw_memGib : (draw s).2.memGib = s.memGib := rfl
@[simp] theorem draw_pending : (draw s).2.pending = s.pending := rfl
@[simp] theorem draw_free : (draw s).2.free = s.free + 1 := rfl

end Sys2Proof.Machine
end

