-- ==== Sys2Proof/Laws/Table.lean ====
section
/-!
SUPPORT. Sparse tables: reading after writing, and the rising form that every write keeps.
-/
namespace Sys2Proof.Machine
open Sys2Proof

theorem spFind_spDel_same {α : Type} (m : Sparse α) (k : Nat) : spFind (spDel m k) k = none := by
  induction m with
  | nil => rfl
  | cons e r ih => obtain ⟨j, v⟩ := e; by_cases h : j = k <;> simp [spDel, spFind, h, ih]

theorem spFind_spDel_ne {α : Type} (m : Sparse α) {j k : Nat} (h : j ≠ k) : spFind (spDel m k) j = spFind m j := by
  induction m with
  | nil => rfl
  | cons e r ih =>
    obtain ⟨i, v⟩ := e
    by_cases hk : i = k
    · subst hk; simp [spDel, spFind, ih, Ne.symm h]
    · simp only [spDel, hk, if_false, spFind, ih]

theorem spFind_spPut_same {α : Type} (m : Sparse α) (k : Nat) (v : α) : spFind (spPut m k v) k = some v := by
  induction m with
  | nil => simp [spPut, spFind]
  | cons e r ih =>
    obtain ⟨j, w⟩ := e
    by_cases h1 : k < j
    · simp [spPut, spFind, h1]
    · by_cases h2 : k = j
      · simp [spPut, spFind, h2]
      · simp [spPut, spFind, h1, h2, Ne.symm h2, ih]

theorem spFind_spPut_ne {α : Type} (m : Sparse α) {j k : Nat} (v : α) (h : j ≠ k) :
    spFind (spPut m k v) j = spFind m j := by
  induction m with
  | nil => simp [spPut, spFind, Ne.symm h]
  | cons e r ih =>
    obtain ⟨i, w⟩ := e
    by_cases h1 : k < i
    · simp [spPut, spFind, h1, Ne.symm h]
    · by_cases h2 : k = i
      · subst h2; simp [spPut, spFind, Ne.symm h]
      · simp only [spPut, h1, h2, if_false, spFind, ih]

/-- An entry just set reads back. -/
theorem spSet_eq {α : Type} [DecidableEq α] (d : α) (m : Sparse α) (k : Nat) (v : α) :
    spSet d m k v = if v = d then spDel m k else spPut m k v := by
  cases m <;> rfl

@[simp] theorem spGet_spSet_same {α : Type} [DecidableEq α] (d : α) (m : Sparse α) (k : Nat) (v : α) :
    spGet d (spSet d m k v) k = v := by
  rw [spSet_eq]
  unfold spGet
  by_cases h : v = d <;> simp [h, spFind_spDel_same, spFind_spPut_same]

/-- Setting an entry leaves every other one alone. -/
theorem spGet_spSet_ne {α : Type} [DecidableEq α] (d : α) (m : Sparse α) {j k : Nat} (v : α) (h : j ≠ k) :
    spGet d (spSet d m k v) j = spGet d m j := by
  rw [spSet_eq]
  unfold spGet
  by_cases h' : v = d <;> simp [h', spFind_spDel_ne m h, spFind_spPut_ne m _ h]

@[simp] theorem spGet_spPut_same {α : Type} (d : α) (m : Sparse α) (k : Nat) (v : α) : spGet d (spPut m k v) k = v := by
  simp [spGet, spFind_spPut_same]

theorem spGet_spPut_ne {α : Type} (d : α) (m : Sparse α) {j k : Nat} (v : α) (h : j ≠ k) :
    spGet d (spPut m k v) j = spGet d m j := by
  simp [spGet, spFind_spPut_ne m v h]

/-- The numbers of a table rise strictly. -/
def rising {α : Type} (m : Sparse α) : Prop := List.Pairwise (fun a b => a.1 < b.1) m

theorem mem_spDel {α : Type} {m : Sparse α} {k : Nat} {e : Nat × α} (h : e ∈ spDel m k) : e ∈ m ∧ e.1 ≠ k := by
  induction m with
  | nil => simp [spDel] at h
  | cons x r ih =>
    obtain ⟨j, v⟩ := x
    by_cases hj : j = k
    · simp only [spDel, hj, if_true] at h
      exact ⟨List.mem_cons_of_mem _ (ih h).1, (ih h).2⟩
    · simp only [spDel, hj, if_false, List.mem_cons] at h
      rcases h with h | h
      · subst h; exact ⟨by simp, hj⟩
      · exact ⟨List.mem_cons_of_mem _ (ih h).1, (ih h).2⟩

theorem mem_spPut {α : Type} {m : Sparse α} {k : Nat} {v : α} {e : Nat × α} (h : e ∈ spPut m k v) :
    e = (k, v) ∨ e ∈ m := by
  induction m with
  | nil => simp [spPut] at h; exact .inl h
  | cons x r ih =>
    obtain ⟨j, w⟩ := x
    unfold spPut at h
    split at h
    · simp only [List.mem_cons] at h ⊢; tauto
    · split at h
      · simp only [List.mem_cons] at h ⊢; tauto
      · simp only [List.mem_cons] at h ⊢
        rcases h with h | h
        · exact .inr (.inl h)
        · rcases ih h with h | h
          · exact .inl h
          · exact .inr (.inr h)

theorem rising_spDel {α : Type} {m : Sparse α} (h : rising m) (k : Nat) : rising (spDel m k) := by
  induction m with
  | nil => exact h
  | cons x r ih =>
    obtain ⟨j, v⟩ := x
    unfold rising at h ih ⊢
    rw [List.pairwise_cons] at h
    by_cases hj : j = k
    · simpa [spDel, hj] using ih h.2
    · simp only [spDel, hj, if_false, List.pairwise_cons]
      exact ⟨fun e he => h.1 e (mem_spDel he).1, ih h.2⟩

theorem rising_spPut {α : Type} {m : Sparse α} (h : rising m) (k : Nat) (v : α) : rising (spPut m k v) := by
  induction m with
  | nil => simp [spPut, rising]
  | cons x r ih =>
    obtain ⟨j, w⟩ := x
    unfold rising at h ih ⊢
    have h' := List.pairwise_cons.1 h
    unfold spPut
    split
    · rename_i hk
      rw [List.pairwise_cons]
      refine ⟨fun e he => ?_, h⟩
      rcases List.mem_cons.1 he with he | he
      · subst he; exact hk
      · exact lt_trans hk (h'.1 e he)
    · split
      · rename_i hk; subst hk
        rw [List.pairwise_cons]; exact ⟨fun e he => h'.1 e he, h'.2⟩
      · rename_i h1 h2
        rw [List.pairwise_cons]
        refine ⟨fun e he => ?_, ih h'.2⟩
        rcases mem_spPut he with he | he
        · subst he; show j < k; omega
        · exact h'.1 e he

end Sys2Proof.Machine
end

