-- ==== Sys2Proof/Laws/Ops.lean ====
section
/-!
SUPPORT. What is read back after it was put: registers, cores, slots, packets and the other tables; and the delivery of
what a step raised.
-/
namespace Sys2Proof.Machine
open Sys2Proof

@[simp] theorem core_corePut_same (c : Nat) (x : Core) (s : State) : core (corePut c x s) c = x := spGet_spSet_same _ _ _ _
theorem core_corePut_ne {c j : Nat} (x : Core) (s : State) (h : j ≠ c) : core (corePut c x s) j = core s j :=
  spGet_spSet_ne _ _ _ h

@[simp] theorem slot_slotPut_same (t : Nat) (x : Slot) (s : State) : slot (slotPut t x s) t = x := spGet_spSet_same _ _ _ _
theorem slot_slotPut_ne {t j : Nat} (x : Slot) (s : State) (h : j ≠ t) : slot (slotPut t x s) j = slot s j :=
  spGet_spSet_ne _ _ _ h

@[simp] theorem flow_flowPut_same (f : Nat) (x : Flow) (s : State) : flow (flowPut f x s) f = x := spGet_spSet_same _ _ _ _
theorem flow_flowPut_ne {f j : Nat} (x : Flow) (s : State) (h : j ≠ f) : flow (flowPut f x s) j = flow s j :=
  spGet_spSet_ne _ _ _ h

@[simp] theorem queue_queuePut_same (q : Nat) (x : Queue) (s : State) : queue (queuePut q x s) q = x := spGet_spSet_same _ _ _ _
theorem queue_queuePut_ne {q j : Nat} (x : Queue) (s : State) (h : j ≠ q) : queue (queuePut q x s) j = queue s j :=
  spGet_spSet_ne _ _ _ h

@[simp] theorem dom_domPut_same (d : Nat) (x : Domain) (s : State) : dom (domPut d x s) d = x := spGet_spSet_same _ _ _ _
theorem dom_domPut_ne {d j : Nat} (x : Domain) (s : State) (h : j ≠ d) : dom (domPut d x s) j = dom s j :=
  spGet_spSet_ne _ _ _ h

@[simp] theorem router_routerPut_same (n : Nat) (x : Router) (s : State) : router (routerPut n x s) n = x := spGet_spSet_same _ _ _ _
theorem router_routerPut_ne {n j : Nat} (x : Router) (s : State) (h : j ≠ n) : router (routerPut n x s) j = router s j :=
  spGet_spSet_ne _ _ _ h

@[simp] theorem dmaCh_dmaPut_same (n : Nat) (x : DmaCh) (s : State) : dmaCh (dmaPut n x s) n = x := spGet_spSet_same _ _ _ _
theorem dmaCh_dmaPut_ne {n j : Nat} (x : DmaCh) (s : State) (h : j ≠ n) : dmaCh (dmaPut n x s) j = dmaCh s j :=
  spGet_spSet_ne _ _ _ h

@[simp] theorem carrierRun_carrierPut_same (n : Nat) (x : CarrierRun) (s : State) : carrierRun (carrierPut n x s) n = x := spGet_spSet_same _ _ _ _
theorem carrierRun_carrierPut_ne {n j : Nat} (x : CarrierRun) (s : State) (h : j ≠ n) : carrierRun (carrierPut n x s) j = carrierRun s j :=
  spGet_spSet_ne _ _ _ h

@[simp] theorem pkt_pktPut_same (h : Nat) (x : Packet) (s : State) : pkt (pktPut h x s) h = some x := spFind_spPut_same _ _ _
theorem pkt_pktPut_ne {h j : Nat} (x : Packet) (s : State) (n : j ≠ h) : pkt (pktPut h x s) j = pkt s j :=
  spFind_spPut_ne _ _ n

@[simp] theorem objFind_objPut_same (id : Nat) (o : Object) (s : State) : objFind (objPut id o s) id = some o :=
  spFind_spPut_same _ _ _
theorem objFind_objPut_ne {id j : Nat} (o : Object) (s : State) (n : j ≠ id) : objFind (objPut id o s) j = objFind s j :=
  spFind_spPut_ne _ _ n
@[simp] theorem objFind_objDel_same (id : Nat) (s : State) : objFind (objDel id s) id = none := spFind_spDel_same _ _
theorem objFind_objDel_ne {id j : Nat} (s : State) (n : j ≠ id) : objFind (objDel id s) j = objFind s j :=
  spFind_spDel_ne _ n

@[simp] theorem regGet_regPut_same (u i o : Nat) (v : W32) (s : State) : regGet (regPut u i o v s) u i o = v :=
  spGet_spSet_same _ _ _ _

theorem spGet_spSet_ne_other {α : Type} [DecidableEq α] (d e : α) (m : Sparse α) {j k : Nat} (v : α) (h : j ≠ k) :
    spGet e (spSet d m k v) j = spGet e m j := by
  rw [spSet_eq]
  unfold spGet
  by_cases h' : v = d <;> simp [h', spFind_spDel_ne m h, spFind_spPut_ne m _ h]

/-- Registers with another key are untouched. -/
theorem regGet_regPut_ne {u i o u' i' o' : Nat} (v : W32) (s : State) (h : regKey u' i' o' ≠ regKey u i o) :
    regGet (regPut u i o v s) u' i' o' = regGet s u' i' o' :=
  by unfold regGet regPut; exact spGet_spSet_ne_other _ _ _ _ h

/-! ### Scalar registers -/

@[simp] theorem getS_zero (x : Core) : getS x 0 = 0 := rfl
@[simp] theorem setS_zero (x : Core) (v : Word) : setS x 0 v = x := rfl

theorem getS_setS_same (x : Core) {r : Fin 32} (v : Word) (h : r ≠ 0) : getS (setS x r v) r = v := by
  simp [getS, setS, h]

theorem getS_setS_ne (x : Core) {r q : Fin 32} (v : Word) (h : q ≠ r) : getS (setS x r v) q = getS x q := by
  unfold getS setS
  by_cases hr : r = 0
  · simp [hr]
  · have : (r : Nat) ≠ q := fun e => h (Fin.ext e.symm)
    simp [hr, this]

/-! ### Delivery -/

/-- With nothing raised and no projection due there is nothing to deliver. -/
theorem settle_quiet {s : State} (n : Nat) (he : s.evq = []) (hn : s.notices = []) (hd : s.shuttle.evalDue = false) :
    settle n s = s := by
  cases n with
  | zero => rfl
  | succ n => unfold settle; rw [hn, he]; simp [sortBy, hd]

theorem done_quiet {s : State} (he : s.evq = []) (hn : s.notices = []) (hd : s.shuttle.evalDue = false) :
    done s = .next s := by
  rw [done, settle_quiet _ he hn hd]

/-- A word of an on-chip cell without an error is read as it was written, and nothing else happens. -/
theorem cellWord_good {i : Initiator} {w : Nat} {s : State} (hr : regionOf w ≠ .sdram) (he : errPat s w = {}) :
    cellWord i w s = (memBytes s.mem w 32, s) := by
  unfold cellWord
  have hs : sramRead uSPOOL 0 i w s = (.ok, memBytes s.mem w 32, s) := by simp [sramRead, he]
  cases hw : regionOf w <;> simp_all

/-- A packet in on-chip cells without an error is read as it was written, and nothing else happens. -/
theorem readPacket_good {i : Initiator} {h : Nat} {s : State}
    (hg : ∀ w ∈ packetWords s h, regionOf w ≠ .sdram ∧ errPat s w = {}) :
    readPacket i h s =
      (((packetWords s h).flatMap fun w => memBytes s.mem w 32).take (((pkt s h).map (·.len)).getD 0), s) := by
  have go : ∀ ws : List Nat, (∀ w ∈ ws, regionOf w ≠ .sdram ∧ errPat s w = {}) →
      cellsRead i ws s = (ws.flatMap fun w => memBytes s.mem w 32, s) := by
    intro ws
    induction ws with
    | nil => intro _; rfl
    | cons w r ih =>
      intro hw
      have h1 := hw w (by simp)
      simp [cellsRead, cellWord_good h1.1 h1.2, ih fun v hv => hw v (by simp [hv])]
  simp [readPacket, go _ hg]

end Sys2Proof.Machine
end

