-- ==== Sys2Proof/Laws/Cpu.lean ====
section
/-!
SUPPORT. What an instruction of a core does as a whole: how it begins, retires or traps.
-/
namespace Sys2Proof.Machine
open Sys2Proof

/-- One core put in place changes nothing else. -/
theorem coreBecomes_corePut (c : Nat) (x : Core) (s : State) : CoreBecomes c x s (corePut c x s) :=
  ⟨core_corePut_same c x s, fun _ h => core_corePut_ne x s h, rfl⟩

theorem CoreBecomes.trans {c : Nat} {x y : Core} {s t u : State} (h : CoreBecomes c x s t) (k : CoreBecomes c y t u) :
    CoreBecomes c y s u := by
  obtain ⟨-, h2, h3⟩ := h
  obtain ⟨k1, k2, k3⟩ := k
  refine ⟨k1, fun d n => (k2 d n).trans (h2 d n), ?_⟩
  calc { u with cores := s.cores } = { ({ u with cores := t.cores } : State) with cores := s.cores } := rfl
    _ = s := by rw [k3]; exact h3

theorem coreBecomes_refl (c : Nat) (s : State) : CoreBecomes c (core s c) s s := ⟨rfl, fun _ _ => rfl, rfl⟩

theorem coreBecomes_beginInstr (c : Nat) (s : State) : CoreBecomes c (begun (core s c)) s (beginInstr c s) := by
  unfold beginInstr begun
  dsimp only
  split
  · exact coreBecomes_corePut _ _ _
  · exact coreBecomes_refl c s

@[simp] theorem core_beginInstr (c : Nat) (s : State) : core (beginInstr c s) c = begun (core s c) :=
  (coreBecomes_beginInstr c s).1

@[simp] theorem begun_exc (x : Core) : (begun x).exc = x.exc := by unfold begun; split <;> rfl
@[simp] theorem begun_pc (x : Core) : (begun x).pc = x.pc := by unfold begun; split <;> rfl
@[simp] theorem begun_s (x : Core) : (begun x).s = x.s := by unfold begun; split <;> rfl
@[simp] theorem getS_begun (x : Core) (r : Fin 32) : getS (begun x) r = getS x r := by simp [getS]

theorem eriPending_begun (x : Core) (h : x.exc = false) : eriPending (begun x) = false := by
  unfold begun
  split
  · simp [eriPending, eriClear, bit]
    omega
  · next k => simpa [h] using k

@[simp] theorem exc_setS (x : Core) (r : Fin 32) (v : Word) : (setS x r v).exc = x.exc := by
  unfold setS; split <;> rfl
@[simp] theorem exc_retire (x : Core) : (retire x).exc = x.exc := rfl
@[simp] theorem exc_jumpTo (x : Core) (t : BitVec 48) : (jumpTo x t).exc = x.exc := rfl

/-- The effect of a command whose outcome is `done u`. -/
theorem effect_done {i : Instr} {s u : State} {P : State → Prop} (h : exec i s = done u) (hp : P u) : Effect i s P :=
  ⟨u, h, hp⟩

/-- An instruction of a core that can execute, whose work answers `true`. -/
theorem effect_onCoreR {i : Instr} {c : Fin 96} {f : Bool → Core → State → Bool × State} {s t : State} {P : State → Prop}
    (hi : exec i s = onCoreR c f s) (h : Ready s c)
    (hf : f (!(core s c).exc && eriPending (core s c)) (begun (core s c)) (beginInstr c s) = (true, t))
    (hp : P (endInstr c (core s c) t)) : Effect i s P := by
  refine ⟨endInstr c (core s c) t, ?_, hp⟩
  rw [hi]
  unfold onCoreR done
  simp [h.1, h.2, hf]

theorem endInstr_same {c : Nat} {x : Core} {t : State} (h : x.exc = false → (core t c).exc = false) :
    endInstr c x t = t := by
  unfold endInstr
  dsimp only
  cases hx : x.exc
  · rw [h hx]; rfl
  · rfl

/-- An instruction of a core that can execute and that only changes its own core, to `y`, without a trap. -/
theorem effect_onCore {i : Instr} {c : Fin 96} {f : Core → State → State} {s : State} {y : Core}
    (hi : exec i s = onCore c f s) (h : Ready s c)
    (hf : f (begun (core s c)) (beginInstr c s) = corePut c y (beginInstr c s))
    (he : (core s c).exc = false → y.exc = false) : Leaves i s c y := by
  have hb : CoreBecomes c y s (corePut c y (beginInstr c s)) :=
    (coreBecomes_beginInstr c s).trans (coreBecomes_corePut _ _ _)
  refine effect_onCoreR (f := fun _ x s => (true, f x s)) hi h (by rw [hf]) ?_
  rw [endInstr_same (by rw [hb.1]; exact he)]
  exact hb

theorem leaves_onCoreR {i : Instr} {c : Fin 96} {f : Bool → Core → State → Bool × State} {s : State} {y : Core}
    (hi : exec i s = onCoreR c f s) (h : Ready s c)
    (hf : f (!(core s c).exc && eriPending (core s c)) (begun (core s c)) (beginInstr c s) =
      (true, corePut c y (beginInstr c s)))
    (he : (core s c).exc = false → y.exc = false) : Leaves i s c y := by
  have hb : CoreBecomes c y s (corePut c y (beginInstr c s)) :=
    (coreBecomes_beginInstr c s).trans (coreBecomes_corePut _ _ _)
  refine effect_onCoreR hi h hf ?_
  rw [endInstr_same (by rw [hb.1]; exact he)]
  exact hb

/-- An instruction that traps while no handler is active. -/
theorem traps_onCoreR {i : Instr} {c : Fin 96} {f : Bool → Core → State → Bool × State} {s : State} {code eaddr : Nat}
    (hi : exec i s = onCoreR c f s) (h : Ready s c) (hx : (core s c).exc = false)
    (hf : f (!(core s c).exc && eriPending (core s c)) (begun (core s c)) (beginInstr c s) =
      (true, exception c code eaddr (beginInstr c s))) : Traps i s c code eaddr := by
  refine effect_onCoreR hi h hf ?_
  have hb := coreBecomes_beginInstr c s
  unfold exception
  simp only [hb.1, begun_exc, hx, Bool.false_eq_true, if_false]
  refine hb.trans ((coreBecomes_corePut c (enterHandler (begun (core s c)) (begun (core s c)).pc (BitVec.ofNat 64 code)
    (BitVec.ofNat 64 eaddr)) (beginInstr c s)).trans ?_)
  generalize beginInstr c s = t
  unfold endInstr
  simp only [core_corePut_same, hx]
  have hp : eriPending (enterHandler (begun (core s c)) (begun (core s c)).pc (BitVec.ofNat 64 code)
      (BitVec.ofNat 64 eaddr)) = false := eriPending_begun (core s c) hx
  rw [hp]
  have he : { enterHandler (begun (core s c)) (begun (core s c)).pc (BitVec.ofNat 64 code) (BitVec.ofNat 64 eaddr) with
      eri := (core s c).eri } =
      enterHandler (core s c) (core s c).pc (BitVec.ofNat 64 code) (BitVec.ofNat 64 eaddr) := by
    unfold begun
    split <;> rfl
  rw [← he]
  exact coreBecomes_corePut _ _ _

theorem traps_onCore {i : Instr} {c : Fin 96} {f : Core → State → State} {s : State} {code eaddr : Nat}
    (hi : exec i s = onCore c f s) (h : Ready s c) (hx : (core s c).exc = false)
    (hf : f (begun (core s c)) (beginInstr c s) = exception c code eaddr (beginInstr c s)) : Traps i s c code eaddr :=
  traps_onCoreR (f := fun _ x s => (true, f x s)) hi h hx (by rw [hf])

/-! ### The beginning of an instruction changes nothing but a consumed resume -/

@[simp] theorem beginInstr_part (c : Nat) (s : State) : (beginInstr c s).part = s.part := by
  unfold beginInstr; dsimp only; split <;> rfl
@[simp] theorem beginInstr_now (c : Nat) (s : State) : (beginInstr c s).now = s.now := by
  unfold beginInstr; dsimp only; split <;> rfl
@[simp] theorem beginInstr_coxCount (c : Nat) (s : State) : (beginInstr c s).coxCount = s.coxCount := by
  unfold beginInstr; dsimp only; split <;> rfl
@[simp] theorem beginInstr_free (c : Nat) (s : State) : (beginInstr c s).free = s.free := by
  unfold beginInstr; dsimp only; split <;> rfl
@[simp] theorem beginInstr_regs (c : Nat) (s : State) : (beginInstr c s).regs = s.regs := by
  unfold beginInstr; dsimp only; split <;> rfl
@[simp] theorem beginInstr_counters (c : Nat) (s : State) : (beginInstr c s).counters = s.counters := by
  unfold beginInstr; dsimp only; split <;> rfl
@[simp] theorem beginInstr_mem (c : Nat) (s : State) : (beginInstr c s).mem = s.mem := by
  unfold beginInstr; dsimp only; split <;> rfl
@[simp] theorem beginInstr_ecc (c : Nat) (s : State) : (beginInstr c s).ecc = s.ecc := by
  unfold beginInstr; dsimp only; split <;> rfl
@[simp] theorem beginInstr_rdata (c : Nat) (s : State) : (beginInstr c s).rdata = s.rdata := by
  unfold beginInstr; dsimp only; split <;> rfl
@[simp] theorem beginInstr_out (c : Nat) (s : State) : (beginInstr c s).out = s.out := by
  unfold beginInstr; dsimp only; split <;> rfl
@[simp] theorem beginInstr_evq (c : Nat) (s : State) : (beginInstr c s).evq = s.evq := by
  unfold beginInstr; dsimp only; split <;> rfl
@[simp] theorem beginInstr_notices (c : Nat) (s : State) : (beginInstr c s).notices = s.notices := by
  unfold beginInstr; dsimp only; split <;> rfl
@[simp] theorem beginInstr_raised (c : Nat) (s : State) : (beginInstr c s).raised = s.raised := by
  unfold beginInstr; dsimp only; split <;> rfl
@[simp] theorem beginInstr_evSeq (c : Nat) (s : State) : (beginInstr c s).evSeq = s.evSeq := by
  unfold beginInstr; dsimp only; split <;> rfl
@[simp] theorem beginInstr_objs (c : Nat) (s : State) : (beginInstr c s).objs = s.objs := by
  unfold beginInstr; dsimp only; split <;> rfl
@[simp] theorem beginInstr_cmd (c : Nat) (s : State) : (beginInstr c s).cmd = s.cmd := by
  unfold beginInstr; dsimp only; split <;> rfl
@[simp] theorem beginInstr_memc (c : Nat) (s : State) : (beginInstr c s).memc = s.memc := by
  unfold beginInstr; dsimp only; split <;> rfl
@[simp] theorem beginInstr_bankPend (c : Nat) (s : State) : (beginInstr c s).bankPend = s.bankPend := by
  unfold beginInstr; dsimp only; split <;> rfl
@[simp] theorem beginInstr_spool (c : Nat) (s : State) : (beginInstr c s).spool = s.spool := by
  unfold beginInstr; dsimp only; split <;> rfl
@[simp] theorem beginInstr_dma (c : Nat) (s : State) : (beginInstr c s).dma = s.dma := by
  unfold beginInstr; dsimp only; split <;> rfl
@[simp] theorem beginInstr_shuttle (c : Nat) (s : State) : (beginInstr c s).shuttle = s.shuttle := by
  unfold beginInstr; dsimp only; split <;> rfl
@[simp] theorem beginInstr_power (c : Nat) (s : State) : (beginInstr c s).power = s.power := by
  unfold beginInstr; dsimp only; split <;> rfl
@[simp] theorem beginInstr_cox (c : Nat) (s : State) : (beginInstr c s).cox = s.cox := by
  unfold beginInstr; dsimp only; split <;> rfl
@[simp] theorem beginInstr_weft (c : Nat) (s : State) : (beginInstr c s).weft = s.weft := by
  unfold beginInstr; dsimp only; split <;> rfl
@[simp] theorem beginInstr_carriers (c : Nat) (s : State) : (beginInstr c s).carriers = s.carriers := by
  unfold beginInstr; dsimp only; split <;> rfl
@[simp] theorem beginInstr_handsets (c : Nat) (s : State) : (beginInstr c s).handsets = s.handsets := by
  unfold beginInstr; dsimp only; split <;> rfl
@[simp] theorem beginInstr_fhSeq (c : Nat) (s : State) : (beginInstr c s).fhSeq = s.fhSeq := by
  unfold beginInstr; dsimp only; split <;> rfl
@[simp] theorem beginInstr_chirp (c : Nat) (s : State) : (beginInstr c s).chirp = s.chirp := by
  unfold beginInstr; dsimp only; split <;> rfl
@[simp] theorem beginInstr_chirpMods (c : Nat) (s : State) : (beginInstr c s).chirpMods = s.chirpMods := by
  unfold beginInstr; dsimp only; split <;> rfl
@[simp] theorem beginInstr_chirpGroups (c : Nat) (s : State) : (beginInstr c s).chirpGroups = s.chirpGroups := by
  unfold beginInstr; dsimp only; split <;> rfl
@[simp] theorem beginInstr_tags (c : Nat) (s : State) : (beginInstr c s).tags = s.tags := by
  unfold beginInstr; dsimp only; split <;> rfl
@[simp] theorem beginInstr_audio (c : Nat) (s : State) : (beginInstr c s).audio = s.audio := by
  unfold beginInstr; dsimp only; split <;> rfl
@[simp] theorem beginInstr_hsp (c : Nat) (s : State) : (beginInstr c s).hsp = s.hsp := by
  unfold beginInstr; dsimp only; split <;> rfl
@[simp] theorem beginInstr_video (c : Nat) (s : State) : (beginInstr c s).video = s.video := by
  unfold beginInstr; dsimp only; split <;> rfl
@[simp] theorem beginInstr_serial (c : Nat) (s : State) : (beginInstr c s).serial = s.serial := by
  unfold beginInstr; dsimp only; split <;> rfl
@[simp] theorem beginInstr_sec (c : Nat) (s : State) : (beginInstr c s).sec = s.sec := by
  unfold beginInstr; dsimp only; split <;> rfl
@[simp] theorem beginInstr_fabric (c : Nat) (s : State) : (beginInstr c s).fabric = s.fabric := by
  unfold beginInstr; dsimp only; split <;> rfl
@[simp] theorem beginInstr_cops (c : Nat) (s : State) : (beginInstr c s).cops = s.cops := by
  unfold beginInstr; dsimp only; split <;> rfl
@[simp] theorem beginInstr_keys (c : Nat) (s : State) : (beginInstr c s).keys = s.keys := by
  unfold beginInstr; dsimp only; split <;> rfl
@[simp] theorem beginInstr_memChans (c : Nat) (s : State) : (beginInstr c s).memChans = s.memChans := by
  unfold beginInstr; dsimp only; split <;> rfl
@[simp] theorem beginInstr_memGib (c : Nat) (s : State) : (beginInstr c s).memGib = s.memGib := by
  unfold beginInstr; dsimp only; split <;> rfl
@[simp] theorem beginInstr_pending (c : Nat) (s : State) : (beginInstr c s).pending = s.pending := by
  unfold beginInstr; dsimp only; split <;> rfl
@[simp] theorem begun_run (x : Core) : (begun x).run = x.run := by unfold begun; split <;> rfl
@[simp] theorem begun_a (x : Core) : (begun x).a = x.a := by unfold begun; split <;> rfl
@[simp] theorem begun_task (x : Core) : (begun x).task = x.task := by unfold begun; split <;> rfl
@[simp] theorem begun_sat (x : Core) : (begun x).sat = x.sat := by unfold begun; split <;> rfl
@[simp] theorem begun_aov (x : Core) : (begun x).aov = x.aov := by unfold begun; split <;> rfl
@[simp] theorem begun_pie (x : Core) : (begun x).pie = x.pie := by unfold begun; split <;> rfl
@[simp] theorem begun_ie (x : Core) : (begun x).ie = x.ie := by unfold begun; split <;> rfl
@[simp] theorem begun_evec (x : Core) : (begun x).evec = x.evec := by unfold begun; split <;> rfl
@[simp] theorem begun_epc (x : Core) : (begun x).epc = x.epc := by unfold begun; split <;> rfl
@[simp] theorem begun_ecause (x : Core) : (begun x).ecause = x.ecause := by unfold begun; split <;> rfl
@[simp] theorem begun_eaddr (x : Core) : (begun x).eaddr = x.eaddr := by unfold begun; split <;> rfl
@[simp] theorem begun_escratch (x : Core) : (begun x).escratch = x.escratch := by unfold begun; split <;> rfl
@[simp] theorem begun_irqEn (x : Core) : (begun x).irqEn = x.irqEn := by unfold begun; split <;> rfl
@[simp] theorem begun_dataLost (x : Core) : (begun x).dataLost = x.dataLost := by unfold begun; split <;> rfl
@[simp] theorem begun_doorbell (x : Core) : (begun x).doorbell = x.doorbell := by unfold begun; split <;> rfl
@[simp] theorem begun_storeError (x : Core) : (begun x).storeError = x.storeError := by unfold begun; split <;> rfl
@[simp] theorem begun_irqAddr (x : Core) : (begun x).irqAddr = x.irqAddr := by unfold begun; split <;> rfl
@[simp] theorem begun_since (x : Core) : (begun x).since = x.since := by unfold begun; split <;> rfl
@[simp] theorem begun_timerCmp (x : Core) : (begun x).timerCmp = x.timerCmp := by unfold begun; split <;> rfl
@[simp] theorem begun_spmCached (x : Core) : (begun x).spmCached = x.spmCached := by unfold begun; split <;> rfl
@[simp] theorem begun_ucBase (x : Core) : (begun x).ucBase = x.ucBase := by unfold begun; split <;> rfl
@[simp] theorem begun_ucLimit (x : Core) : (begun x).ucLimit = x.ucLimit := by unfold begun; split <;> rfl
@[simp] theorem begun_lastPc (x : Core) : (begun x).lastPc = x.lastPc := by unfold begun; split <;> rfl
@[simp] theorem begun_dcache (x : Core) : (begun x).dcache = x.dcache := by unfold begun; split <;> rfl
@[simp] theorem begun_v (x : Core) : (begun x).v = x.v := by unfold begun; split <;> rfl
@[simp] theorem begun_m (x : Core) : (begun x).m = x.m := by unfold begun; split <;> rfl
@[simp] theorem begun_vshape (x : Core) : (begun x).vshape = x.vshape := by unfold begun; split <;> rfl
@[simp] theorem begun_vcount (x : Core) : (begun x).vcount = x.vcount := by unfold begun; split <;> rfl
@[simp] theorem begun_vfxm (x : Core) : (begun x).vfxm = x.vfxm := by unfold begun; split <;> rfl
@[simp] theorem begun_vstat (x : Core) : (begun x).vstat = x.vstat := by unfold begun; split <;> rfl
@[simp] theorem begun_tags (x : Core) : (begun x).tags = x.tags := by unfold begun; split <;> rfl
@[simp] theorem begun_cpLate (x : Core) : (begun x).cpLate = x.cpLate := by unfold begun; split <;> rfl
@[simp] theorem begun_cpGen (x : Core) : (begun x).cpGen = x.cpGen := by unfold begun; split <;> rfl
@[simp] theorem begun_hand (x : Core) : (begun x).hand = x.hand := by unfold begun; split <;> rfl

end Sys2Proof.Machine
end

