-- ==== Sys2Proof/Laws/Dispatch.lean ====
section
/-!
SUPPORT. The meaning of each command: one lemma per arm of exec, true by rfl.
-/
namespace Sys2Proof.Machine
open Sys2Proof

@[simp] theorem exec_resetNRise (straps : Fin 8) (s : State) : exec (.resetNRise straps) s = execResetNRise straps s
    := rfl
@[simp] theorem exec_powerOnResetEnd (straps : Fin 8) (osc : Bool) (s : State) : exec (.powerOnResetEnd straps osc) s
    = execPowerOnResetEnd straps osc s := rfl
@[simp] theorem exec_deviceReset (r : Request) (s : State) : exec (.deviceReset r) s = execDeviceReset r s := rfl
@[simp] theorem exec_romPhase (up : Bool) (gen : Fin 8) (width : Fin 32) (s : State) : exec (.romPhase up gen width)
    s = execRomPhase up gen width s := rfl
@[simp] theorem exec_memInit (channels : List ChannelTraining) (s : State) : exec (.memInit channels) s = execMemInit
    channels s := rfl
@[simp] theorem exec_fwLoad (s : State) : exec (.fwLoad) s = execFwLoad s := rfl
@[simp] theorem exec_pinTable (s : State) : exec (.pinTable) s = execPinTable s := rfl
@[simp] theorem exec_fabricLoad (s : State) : exec (.fabricLoad) s = execFabricLoad s := rfl
@[simp] theorem exec_cfgLoad (s : State) : exec (.cfgLoad) s = execCfgLoad s := rfl
@[simp] theorem exec_autostart (s : State) : exec (.autostart) s = execAutostart s := rfl
@[simp] theorem exec_deferredAutostart (s : State) : exec (.deferredAutostart) s = execDeferredAutostart s := rfl
@[simp] theorem exec_cmdDoorbell (length : BitVec 11) (s : State) : exec (.cmdDoorbell length) s = execCmdDoorbell
    length s := rfl
@[simp] theorem exec_mgmtDatagram (source : Nat) (data : List (BitVec 8)) (s : State) : exec (.mgmtDatagram source
    data) s = execMgmtDatagram source data s := rfl
@[simp] theorem exec_uartFrame (data : List (BitVec 8)) (s : State) : exec (.uartFrame data) s = execUartFrame data s
    := rfl
@[simp] theorem exec_requestTaken (s : State) : exec (.requestTaken) s = execRequestTaken s := rfl
@[simp] theorem exec_sysCmdRplPop (s : State) : exec (.sysCmdRplPop) s = execSysCmdRplPop s := rfl
@[simp] theorem exec_flushPcie (s : State) : exec (.flushPcie) s = execFlushPcie s := rfl
@[simp] theorem exec_flushEth (s : State) : exec (.flushEth) s = execFlushEth s := rfl
@[simp] theorem exec_flushUart (s : State) : exec (.flushUart) s = execFlushUart s := rfl
@[simp] theorem exec_longCommandCompletion (transport : Transport) (sequence : BitVec 16) (ok : Bool) (s : State) :
    exec (.longCommandCompletion transport sequence ok) s = execLongCommandCompletion transport sequence ok s := rfl
@[simp] theorem exec_objSet (family : BitVec 8) (r : Request) (s : State) : exec (.objSet family r) s = execObjSet
    family r s := rfl
@[simp] theorem exec_objGet (family : BitVec 8) (r : Request) (s : State) : exec (.objGet family r) s = execObjGet
    family r s := rfl
@[simp] theorem exec_startFn (family : BitVec 8) (r : Request) (s : State) : exec (.startFn family r) s = execStartFn
    family r s := rfl
@[simp] theorem exec_stopFn (family : BitVec 8) (r : Request) (s : State) : exec (.stopFn family r) s = execStopFn
    family r s := rfl
@[simp] theorem exec_objDelete (family : BitVec 8) (r : Request) (s : State) : exec (.objDelete family r) s =
    execObjDelete family r s := rfl
@[simp] theorem exec_objState (family : BitVec 8) (r : Request) (s : State) : exec (.objState family r) s =
    execObjState family r s := rfl
@[simp] theorem exec_objList (family : BitVec 8) (r : Request) (s : State) : exec (.objList family r) s = execObjList
    family r s := rfl
@[simp] theorem exec_capsCmd (r : Request) (s : State) : exec (.capsCmd r) s = execCapsCmd r s := rfl
@[simp] theorem exec_echoCmd (r : Request) (s : State) : exec (.echoCmd r) s = execEchoCmd r s := rfl
@[simp] theorem exec_cmdQuery (r : Request) (s : State) : exec (.cmdQuery r) s = execCmdQuery r s := rfl
@[simp] theorem exec_cancelCmd (r : Request) (s : State) : exec (.cancelCmd r) s = execCancelCmd r s := rfl
@[simp] theorem exec_configExport (r : Request) (s : State) : exec (.configExport r) s = execConfigExport r s := rfl
@[simp] theorem exec_configInstall (r : Request) (s : State) : exec (.configInstall r) s = execConfigInstall r s :=
    rfl
@[simp] theorem exec_imagePush (r : Request) (s : State) : exec (.imagePush r) s = execImagePush r s := rfl
@[simp] theorem exec_imageInstall (r : Request) (s : State) : exec (.imageInstall r) s = execImageInstall r s := rfl
@[simp] theorem exec_bootContinue (r : Request) (s : State) : exec (.bootContinue r) s = execBootContinue r s := rfl
@[simp] theorem exec_rollbackAdvance (r : Request) (s : State) : exec (.rollbackAdvance r) s = execRollbackAdvance r
    s := rfl
@[simp] theorem exec_identityGet (r : Request) (s : State) : exec (.identityGet r) s = execIdentityGet r s := rfl
@[simp] theorem exec_certGet (r : Request) (s : State) : exec (.certGet r) s = execCertGet r s := rfl
@[simp] theorem exec_attest (r : Request) (s : State) : exec (.attest r) s = execAttest r s := rfl
@[simp] theorem exec_ownerKeysSet (r : Request) (s : State) : exec (.ownerKeysSet r) s = execOwnerKeysSet r s := rfl
@[simp] theorem exec_ownerKeyRevoke (r : Request) (s : State) : exec (.ownerKeyRevoke r) s = execOwnerKeyRevoke r s
    := rfl
@[simp] theorem exec_registerWrite (who : Initiator) (unit : BitVec 8) (inst : BitVec 8) (off : BitVec 16) (value :
    BitVec 32) (s : State) : exec (.registerWrite who unit inst off value) s = execRegisterWrite who unit inst off
    value s := rfl
@[simp] theorem exec_carrierRunning (c : Fin 64) (s : State) : exec (.carrierRunning c) s = execCarrierRunning c s :=
    rfl
@[simp] theorem exec_carrierStopped (c : Fin 64) (s : State) : exec (.carrierStopped c) s = execCarrierStopped c s :=
    rfl
@[simp] theorem exec_uplaneMessage (port : Fin 48) (eaxc : BitVec 16) (seq : BitVec 8) (slot : BitVec 48) (sym : Fin
    14) (first : Fin 273) (prbs : List Prb) (s : State) : exec (.uplaneMessage port eaxc seq slot sym first prbs) s =
    execUplaneMessage port eaxc seq slot sym first prbs s := rfl
@[simp] theorem exec_receiveWindowClose (c : Fin 64) (slot : BitVec 48) (sym : Fin 14) (s : State) : exec
    (.receiveWindowClose c slot sym) s = execReceiveWindowClose c slot sym s := rfl
@[simp] theorem exec_dlSymbolSend (c : Fin 64) (slot : BitVec 48) (sym : Fin 14) (iq : List (Fin 128 × BitVec 32)) (s
    : State) : exec (.dlSymbolSend c slot sym iq) s = execDlSymbolSend c slot sym iq s := rfl
@[simp] theorem exec_cplaneSend (c : Fin 64) (slot : BitVec 48) (msgs : List (Fin 48 × List (BitVec 8))) (s : State)
    : exec (.cplaneSend c slot msgs) s = execCplaneSend c slot msgs s := rfl
@[simp] theorem exec_ecpriDelayMeasurement (port : Fin 48) (received : Bool) (id : BitVec 8) (s : State) : exec
    (.ecpriDelayMeasurement port received id) s = execEcpriDelayMeasurement port received id s := rfl
@[simp] theorem exec_fronthaulClearAll (s : State) : exec (.fronthaulClearAll) s = execFronthaulClearAll s := rfl
@[simp] theorem exec_macScheduling (c : Fin 64) (figs : List SlotFigure) (air : CarrierFigure) (s : State) : exec
    (.macScheduling c figs air) s = execMacScheduling c figs air s := rfl
@[simp] theorem exec_decodeDeadlineMiss (c : Fin 64) (block : MissedBlock) (s : State) :
    exec (.decodeDeadlineMiss c block) s = execDecodeDeadlineMiss c block s := rfl
@[simp] theorem exec_statsPeriod (c : Fin 64) (s : State) : exec (.statsPeriod c) s = execStatsPeriod c s := rfl
@[simp] theorem exec_handsetAdd (r : Request) (s : State) : exec (.handsetAdd r) s = execHandsetAdd r s := rfl
@[simp] theorem exec_handsetModify (r : Request) (s : State) : exec (.handsetModify r) s = execHandsetModify r s :=
    rfl
@[simp] theorem exec_handsetRemove (r : Request) (s : State) : exec (.handsetRemove r) s = execHandsetRemove r s :=
    rfl
@[simp] theorem exec_handsetStats (r : Request) (s : State) : exec (.handsetStats r) s = execHandsetStats r s := rfl
@[simp] theorem exec_carrierStats (r : Request) (s : State) : exec (.carrierStats r) s = execCarrierStats r s := rfl
@[simp] theorem exec_shuttleArm (task : BitVec 16) (s : State) : exec (.shuttleArm task) s = execShuttleArm task s :=
    rfl
@[simp] theorem exec_shuttleDec (who : Initiator) (task : BitVec 16) (count : BitVec 12) (s : State) : exec
    (.shuttleDec who task count) s = execShuttleDec who task count s := rfl
@[simp] theorem exec_pendingInstanceCreate (task : BitVec 16) (s : State) : exec (.pendingInstanceCreate task) s =
    execPendingInstanceCreate task s := rfl
@[simp] theorem exec_taskReady (task : BitVec 16) (s : State) : exec (.taskReady task) s = execTaskReady task s := rfl
@[simp] theorem exec_taskDispatch (to_ : DispatchTo) (s : State) : exec (.taskDispatch to_) s = execTaskDispatch to_
    s := rfl
@[simp] theorem exec_shuttleBeamPut (who : Initiator) (handle : BitVec 32) (s : State) : exec (.shuttleBeamPut who
    handle) s = execShuttleBeamPut who handle s := rfl
@[simp] theorem exec_taskCompletion (c : Fin 96) (s : State) : exec (.taskCompletion c) s = execTaskCompletion c s :=
    rfl
@[simp] theorem exec_beamTimeout (flow : Fin 4096) (s : State) : exec (.beamTimeout flow) s = execBeamTimeout flow s
    := rfl
@[simp] theorem exec_engineCompletion (engine : Fin 44) (s : State) : exec (.engineCompletion engine) s =
    execEngineCompletion engine s := rfl
@[simp] theorem exec_rescueEvaluation (s : State) : exec (.rescueEvaluation) s = execRescueEvaluation s := rfl
@[simp] theorem exec_taskWatchdog (c : Fin 96) (s : State) : exec (.taskWatchdog c) s = execTaskWatchdog c s := rfl
@[simp] theorem exec_cancelLate (task : BitVec 16) (inst : Fin 16384) (s : State) : exec (.cancelLate task inst) s =
    execCancelLate task inst s := rfl
@[simp] theorem exec_crewFailure (crew : Fin 12) (s : State) : exec (.crewFailure crew) s = execCrewFailure crew s :=
    rfl
@[simp] theorem exec_serviceReq (value : BitVec 2) (s : State) : exec (.serviceReq value) s = execServiceReq value s
    := rfl
@[simp] theorem exec_serviceSet (r : Request) (s : State) : exec (.serviceSet r) s = execServiceSet r s := rfl
@[simp] theorem exec_crewRetire (r : Request) (s : State) : exec (.crewRetire r) s = execCrewRetire r s := rfl
@[simp] theorem exec_shuttleStats (r : Request) (s : State) : exec (.shuttleStats r) s = execShuttleStats r s := rfl
@[simp] theorem exec_taskSetStopped (index : BitVec 16) (s : State) : exec (.taskSetStopped index) s =
    execTaskSetStopped index s := rfl
@[simp] theorem exec_add (c : Fin 96) (rd : Fin 32) (rs1 : Fin 32) (rs2 : Fin 32) (s : State) : exec (.add c rd rs1
    rs2) s = execAdd c rd rs1 rs2 s := rfl
@[simp] theorem exec_sub (c : Fin 96) (rd : Fin 32) (rs1 : Fin 32) (rs2 : Fin 32) (s : State) : exec (.sub c rd rs1
    rs2) s = execSub c rd rs1 rs2 s := rfl
@[simp] theorem exec_andOp (c : Fin 96) (rd : Fin 32) (rs1 : Fin 32) (rs2 : Fin 32) (s : State) : exec (.andOp c rd
    rs1 rs2) s = execAndOp c rd rs1 rs2 s := rfl
@[simp] theorem exec_orOp (c : Fin 96) (rd : Fin 32) (rs1 : Fin 32) (rs2 : Fin 32) (s : State) : exec (.orOp c rd rs1
    rs2) s = execOrOp c rd rs1 rs2 s := rfl
@[simp] theorem exec_xorOp (c : Fin 96) (rd : Fin 32) (rs1 : Fin 32) (rs2 : Fin 32) (s : State) : exec (.xorOp c rd
    rs1 rs2) s = execXorOp c rd rs1 rs2 s := rfl
@[simp] theorem exec_sll (c : Fin 96) (rd : Fin 32) (rs1 : Fin 32) (rs2 : Fin 32) (s : State) : exec (.sll c rd rs1
    rs2) s = execSll c rd rs1 rs2 s := rfl
@[simp] theorem exec_srl (c : Fin 96) (rd : Fin 32) (rs1 : Fin 32) (rs2 : Fin 32) (s : State) : exec (.srl c rd rs1
    rs2) s = execSrl c rd rs1 rs2 s := rfl
@[simp] theorem exec_sra (c : Fin 96) (rd : Fin 32) (rs1 : Fin 32) (rs2 : Fin 32) (s : State) : exec (.sra c rd rs1
    rs2) s = execSra c rd rs1 rs2 s := rfl
@[simp] theorem exec_slt (c : Fin 96) (rd : Fin 32) (rs1 : Fin 32) (rs2 : Fin 32) (s : State) : exec (.slt c rd rs1
    rs2) s = execSlt c rd rs1 rs2 s := rfl
@[simp] theorem exec_sltu (c : Fin 96) (rd : Fin 32) (rs1 : Fin 32) (rs2 : Fin 32) (s : State) : exec (.sltu c rd rs1
    rs2) s = execSltu c rd rs1 rs2 s := rfl
@[simp] theorem exec_mul (c : Fin 96) (rd : Fin 32) (rs1 : Fin 32) (rs2 : Fin 32) (s : State) : exec (.mul c rd rs1
    rs2) s = execMul c rd rs1 rs2 s := rfl
@[simp] theorem exec_mulh (c : Fin 96) (rd : Fin 32) (rs1 : Fin 32) (rs2 : Fin 32) (s : State) : exec (.mulh c rd rs1
    rs2) s = execMulh c rd rs1 rs2 s := rfl
@[simp] theorem exec_mulhu (c : Fin 96) (rd : Fin 32) (rs1 : Fin 32) (rs2 : Fin 32) (s : State) : exec (.mulhu c rd
    rs1 rs2) s = execMulhu c rd rs1 rs2 s := rfl
@[simp] theorem exec_div (c : Fin 96) (rd : Fin 32) (rs1 : Fin 32) (rs2 : Fin 32) (s : State) : exec (.div c rd rs1
    rs2) s = execDiv c rd rs1 rs2 s := rfl
@[simp] theorem exec_divu (c : Fin 96) (rd : Fin 32) (rs1 : Fin 32) (rs2 : Fin 32) (s : State) : exec (.divu c rd rs1
    rs2) s = execDivu c rd rs1 rs2 s := rfl
@[simp] theorem exec_rem (c : Fin 96) (rd : Fin 32) (rs1 : Fin 32) (rs2 : Fin 32) (s : State) : exec (.rem c rd rs1
    rs2) s = execRem c rd rs1 rs2 s := rfl
@[simp] theorem exec_remu (c : Fin 96) (rd : Fin 32) (rs1 : Fin 32) (rs2 : Fin 32) (s : State) : exec (.remu c rd rs1
    rs2) s = execRemu c rd rs1 rs2 s := rfl
@[simp] theorem exec_clz (c : Fin 96) (rd : Fin 32) (rs1 : Fin 32) (s : State) : exec (.clz c rd rs1) s = execClz c
    rd rs1 s := rfl
@[simp] theorem exec_popc (c : Fin 96) (rd : Fin 32) (rs1 : Fin 32) (s : State) : exec (.popc c rd rs1) s = execPopc
    c rd rs1 s := rfl
@[simp] theorem exec_addi (c : Fin 96) (rd : Fin 32) (rs1 : Fin 32) (imm : BitVec 16) (s : State) : exec (.addi c rd
    rs1 imm) s = execAddi c rd rs1 imm s := rfl
@[simp] theorem exec_andi (c : Fin 96) (rd : Fin 32) (rs1 : Fin 32) (imm : BitVec 16) (s : State) : exec (.andi c rd
    rs1 imm) s = execAndi c rd rs1 imm s := rfl
@[simp] theorem exec_ori (c : Fin 96) (rd : Fin 32) (rs1 : Fin 32) (imm : BitVec 16) (s : State) : exec (.ori c rd
    rs1 imm) s = execOri c rd rs1 imm s := rfl
@[simp] theorem exec_xori (c : Fin 96) (rd : Fin 32) (rs1 : Fin 32) (imm : BitVec 16) (s : State) : exec (.xori c rd
    rs1 imm) s = execXori c rd rs1 imm s := rfl
@[simp] theorem exec_slti (c : Fin 96) (rd : Fin 32) (rs1 : Fin 32) (imm : BitVec 16) (s : State) : exec (.slti c rd
    rs1 imm) s = execSlti c rd rs1 imm s := rfl
@[simp] theorem exec_sltiu (c : Fin 96) (rd : Fin 32) (rs1 : Fin 32) (imm : BitVec 16) (s : State) : exec (.sltiu c
    rd rs1 imm) s = execSltiu c rd rs1 imm s := rfl
@[simp] theorem exec_slli (c : Fin 96) (rd : Fin 32) (rs1 : Fin 32) (amount : BitVec 6) (s : State) : exec (.slli c
    rd rs1 amount) s = execSlli c rd rs1 amount s := rfl
@[simp] theorem exec_srli (c : Fin 96) (rd : Fin 32) (rs1 : Fin 32) (amount : BitVec 6) (s : State) : exec (.srli c
    rd rs1 amount) s = execSrli c rd rs1 amount s := rfl
@[simp] theorem exec_srai (c : Fin 96) (rd : Fin 32) (rs1 : Fin 32) (amount : BitVec 6) (s : State) : exec (.srai c
    rd rs1 amount) s = execSrai c rd rs1 amount s := rfl
@[simp] theorem exec_lui (c : Fin 96) (rd : Fin 32) (imm : BitVec 16) (s : State) : exec (.lui c rd imm) s = execLui
    c rd imm s := rfl
@[simp] theorem exec_shori (c : Fin 96) (rd : Fin 32) (rs1 : Fin 32) (imm : BitVec 16) (s : State) : exec (.shori c
    rd rs1 imm) s = execShori c rd rs1 imm s := rfl
@[simp] theorem exec_lb (c : Fin 96) (rd : Fin 32) (rs1 : Fin 32) (imm : BitVec 16) (s : State) : exec (.lb c rd rs1
    imm) s = execLb c rd rs1 imm s := rfl
@[simp] theorem exec_lbu (c : Fin 96) (rd : Fin 32) (rs1 : Fin 32) (imm : BitVec 16) (s : State) : exec (.lbu c rd
    rs1 imm) s = execLbu c rd rs1 imm s := rfl
@[simp] theorem exec_lh (c : Fin 96) (rd : Fin 32) (rs1 : Fin 32) (imm : BitVec 16) (s : State) : exec (.lh c rd rs1
    imm) s = execLh c rd rs1 imm s := rfl
@[simp] theorem exec_lhu (c : Fin 96) (rd : Fin 32) (rs1 : Fin 32) (imm : BitVec 16) (s : State) : exec (.lhu c rd
    rs1 imm) s = execLhu c rd rs1 imm s := rfl
@[simp] theorem exec_lw (c : Fin 96) (rd : Fin 32) (rs1 : Fin 32) (imm : BitVec 16) (s : State) : exec (.lw c rd rs1
    imm) s = execLw c rd rs1 imm s := rfl
@[simp] theorem exec_lwu (c : Fin 96) (rd : Fin 32) (rs1 : Fin 32) (imm : BitVec 16) (s : State) : exec (.lwu c rd
    rs1 imm) s = execLwu c rd rs1 imm s := rfl
@[simp] theorem exec_ld (c : Fin 96) (rd : Fin 32) (rs1 : Fin 32) (imm : BitVec 16) (s : State) : exec (.ld c rd rs1
    imm) s = execLd c rd rs1 imm s := rfl
@[simp] theorem exec_sb (c : Fin 96) (rs2 : Fin 32) (rs1 : Fin 32) (imm : BitVec 16) (s : State) : exec (.sb c rs2
    rs1 imm) s = execSb c rs2 rs1 imm s := rfl
@[simp] theorem exec_sh (c : Fin 96) (rs2 : Fin 32) (rs1 : Fin 32) (imm : BitVec 16) (s : State) : exec (.sh c rs2
    rs1 imm) s = execSh c rs2 rs1 imm s := rfl
@[simp] theorem exec_sw (c : Fin 96) (rs2 : Fin 32) (rs1 : Fin 32) (imm : BitVec 16) (s : State) : exec (.sw c rs2
    rs1 imm) s = execSw c rs2 rs1 imm s := rfl
@[simp] theorem exec_sd (c : Fin 96) (rs2 : Fin 32) (rs1 : Fin 32) (imm : BitVec 16) (s : State) : exec (.sd c rs2
    rs1 imm) s = execSd c rs2 rs1 imm s := rfl
@[simp] theorem exec_beq (c : Fin 96) (rs1 : Fin 32) (rs2 : Fin 32) (imm : BitVec 16) (s : State) : exec (.beq c rs1
    rs2 imm) s = execBeq c rs1 rs2 imm s := rfl
@[simp] theorem exec_bne (c : Fin 96) (rs1 : Fin 32) (rs2 : Fin 32) (imm : BitVec 16) (s : State) : exec (.bne c rs1
    rs2 imm) s = execBne c rs1 rs2 imm s := rfl
@[simp] theorem exec_blt (c : Fin 96) (rs1 : Fin 32) (rs2 : Fin 32) (imm : BitVec 16) (s : State) : exec (.blt c rs1
    rs2 imm) s = execBlt c rs1 rs2 imm s := rfl
@[simp] theorem exec_bge (c : Fin 96) (rs1 : Fin 32) (rs2 : Fin 32) (imm : BitVec 16) (s : State) : exec (.bge c rs1
    rs2 imm) s = execBge c rs1 rs2 imm s := rfl
@[simp] theorem exec_bltu (c : Fin 96) (rs1 : Fin 32) (rs2 : Fin 32) (imm : BitVec 16) (s : State) : exec (.bltu c
    rs1 rs2 imm) s = execBltu c rs1 rs2 imm s := rfl
@[simp] theorem exec_bgeu (c : Fin 96) (rs1 : Fin 32) (rs2 : Fin 32) (imm : BitVec 16) (s : State) : exec (.bgeu c
    rs1 rs2 imm) s = execBgeu c rs1 rs2 imm s := rfl
@[simp] theorem exec_jmp (c : Fin 96) (imm : BitVec 26) (s : State) : exec (.jmp c imm) s = execJmp c imm s := rfl
@[simp] theorem exec_jal (c : Fin 96) (imm : BitVec 26) (s : State) : exec (.jal c imm) s = execJal c imm s := rfl
@[simp] theorem exec_jalr (c : Fin 96) (rd : Fin 32) (rs1 : Fin 32) (imm : BitVec 16) (s : State) : exec (.jalr c rd
    rs1 imm) s = execJalr c rd rs1 imm s := rfl
@[simp] theorem exec_mac (c : Fin 96) (acc : Fin 4) (rs1 : Fin 32) (rs2 : Fin 32) (s : State) : exec (.mac c acc rs1
    rs2) s = execMac c acc rs1 rs2 s := rfl
@[simp] theorem exec_msu (c : Fin 96) (acc : Fin 4) (rs1 : Fin 32) (rs2 : Fin 32) (s : State) : exec (.msu c acc rs1
    rs2) s = execMsu c acc rs1 rs2 s := rfl
@[simp] theorem exec_mula (c : Fin 96) (acc : Fin 4) (rs1 : Fin 32) (rs2 : Fin 32) (s : State) : exec (.mula c acc
    rs1 rs2) s = execMula c acc rs1 rs2 s := rfl
@[simp] theorem exec_accld (c : Fin 96) (acc : Fin 4) (rs1 : Fin 32) (s : State) : exec (.accld c acc rs1) s =
    execAccld c acc rs1 s := rfl
@[simp] theorem exec_accx (c : Fin 96) (rd : Fin 32) (acc : Fin 4) (shift : BitVec 6) (s : State) : exec (.accx c rd
    acc shift) s = execAccx c rd acc shift s := rfl
@[simp] theorem exec_accxs (c : Fin 96) (rd : Fin 32) (acc : Fin 4) (shift : BitVec 6) (s : State) : exec (.accxs c
    rd acc shift) s = execAccxs c rd acc shift s := rfl
@[simp] theorem exec_maxi (c : Fin 96) (rd : Fin 32) (rs1 : Fin 32) (rs2 : Fin 32) (s : State) : exec (.maxi c rd rs1
    rs2) s = execMaxi c rd rs1 rs2 s := rfl
@[simp] theorem exec_mini (c : Fin 96) (rd : Fin 32) (rs1 : Fin 32) (rs2 : Fin 32) (s : State) : exec (.mini c rd rs1
    rs2) s = execMini c rd rs1 rs2 s := rfl
@[simp] theorem exec_maxiu (c : Fin 96) (rd : Fin 32) (rs1 : Fin 32) (rs2 : Fin 32) (s : State) : exec (.maxiu c rd
    rs1 rs2) s = execMaxiu c rd rs1 rs2 s := rfl
@[simp] theorem exec_miniu (c : Fin 96) (rd : Fin 32) (rs1 : Fin 32) (rs2 : Fin 32) (s : State) : exec (.miniu c rd
    rs1 rs2) s = execMiniu c rd rs1 rs2 s := rfl
@[simp] theorem exec_ecall (c : Fin 96) (s : State) : exec (.ecall c) s = execEcall c s := rfl
@[simp] theorem exec_ebreak (c : Fin 96) (s : State) : exec (.ebreak c) s = execEbreak c s := rfl
@[simp] theorem exec_eret (c : Fin 96) (s : State) : exec (.eret c) s = execEret c s := rfl
@[simp] theorem exec_wfi (c : Fin 96) (s : State) : exec (.wfi c) s = execWfi c s := rfl
@[simp] theorem exec_fence (c : Fin 96) (s : State) : exec (.fence c) s = execFence c s := rfl
@[simp] theorem exec_fenceW (c : Fin 96) (s : State) : exec (.fenceW c) s = execFenceW c s := rfl
@[simp] theorem exec_cclean (c : Fin 96) (rs1 : Fin 32) (s : State) : exec (.cclean c rs1) s = execCclean c rs1 s :=
    rfl
@[simp] theorem exec_cinval (c : Fin 96) (rs1 : Fin 32) (s : State) : exec (.cinval c rs1) s = execCinval c rs1 s :=
    rfl
@[simp] theorem exec_cflush (c : Fin 96) (rs1 : Fin 32) (s : State) : exec (.cflush c rs1) s = execCflush c rs1 s :=
    rfl
@[simp] theorem exec_ccleanR (c : Fin 96) (rs1 : Fin 32) (rs2 : Fin 32) (s : State) : exec (.ccleanR c rs1 rs2) s =
    execCcleanR c rs1 rs2 s := rfl
@[simp] theorem exec_cinvalR (c : Fin 96) (rs1 : Fin 32) (rs2 : Fin 32) (s : State) : exec (.cinvalR c rs1 rs2) s =
    execCinvalR c rs1 rs2 s := rfl
@[simp] theorem exec_cflushR (c : Fin 96) (rs1 : Fin 32) (rs2 : Fin 32) (s : State) : exec (.cflushR c rs1 rs2) s =
    execCflushR c rs1 rs2 s := rfl
@[simp] theorem exec_ccleanAll (c : Fin 96) (s : State) : exec (.ccleanAll c) s = execCcleanAll c s := rfl
@[simp] theorem exec_cflushAll (c : Fin 96) (s : State) : exec (.cflushAll c) s = execCflushAll c s := rfl
@[simp] theorem exec_iinval (c : Fin 96) (rs1 : Fin 32) (s : State) : exec (.iinval c rs1) s = execIinval c rs1 s :=
    rfl
@[simp] theorem exec_iinvalAll (c : Fin 96) (s : State) : exec (.iinvalAll c) s = execIinvalAll c s := rfl
@[simp] theorem exec_taskWait (c : Fin 96) (s : State) : exec (.taskWait c) s = execTaskWait c s := rfl
@[simp] theorem exec_taskDone (c : Fin 96) (rs1 : Fin 32) (s : State) : exec (.taskDone c rs1) s = execTaskDone c rs1
    s := rfl
@[simp] theorem exec_doorbell (c : Fin 96) (rs1 : Fin 32) (s : State) : exec (.doorbell c rs1) s = execDoorbell c rs1
    s := rfl
@[simp] theorem exec_csrr (c : Fin 96) (rd : Fin 32) (csr : BitVec 12) (s : State) : exec (.csrr c rd csr) s =
    execCsrr c rd csr s := rfl
@[simp] theorem exec_csrw (c : Fin 96) (rd : Fin 32) (rs1 : Fin 32) (csr : BitVec 12) (s : State) : exec (.csrw c rd
    rs1 csr) s = execCsrw c rd rs1 csr s := rfl
@[simp] theorem exec_csrs (c : Fin 96) (rd : Fin 32) (rs1 : Fin 32) (csr : BitVec 12) (s : State) : exec (.csrs c rd
    rs1 csr) s = execCsrs c rd rs1 csr s := rfl
@[simp] theorem exec_csrc (c : Fin 96) (rd : Fin 32) (rs1 : Fin 32) (csr : BitVec 12) (s : State) : exec (.csrc c rd
    rs1 csr) s = execCsrc c rd rs1 csr s := rfl
@[simp] theorem exec_interruptEntry (c : Fin 96) (s : State) : exec (.interruptEntry c) s = execInterruptEntry c s :=
    rfl
@[simp] theorem exec_storeError (c : Fin 96) (addr : BitVec 48) (s : State) : exec (.storeError c addr) s =
    execStoreError c addr s := rfl
@[simp] theorem exec_coreReset (c : Fin 96) (s : State) : exec (.coreReset c) s = execCoreReset c s := rfl
@[simp] theorem exec_crewDoorbell (who : Initiator) (crew : Fin 12) (ring : BitVec 8) (s : State) : exec
    (.crewDoorbell who crew ring) s = execCrewDoorbell who crew ring s := rfl
@[simp] theorem exec_crewBankOwner (who : Initiator) (crew : Fin 12) (bank : Fin 32) (owner : BitVec 8) (outstanding
    : Bool) (s : State) : exec (.crewBankOwner who crew bank owner outstanding) s = execCrewBankOwner who crew bank
    owner outstanding s := rfl
@[simp] theorem exec_bankOwnerCommit (crew : Fin 12) (bank : Fin 32) (s : State) : exec (.bankOwnerCommit crew bank)
    s = execBankOwnerCommit crew bank s := rfl
@[simp] theorem exec_crewFatal (crew : Fin 12) (fault : Fin 3) (s : State) : exec (.crewFatal crew fault) s =
    execCrewFatal crew fault s := rfl
@[simp] theorem exec_crewRetentionAck (who : Initiator) (crew : Fin 12) (banks : BitVec 32) (s : State) : exec
    (.crewRetentionAck who crew banks) s = execCrewRetentionAck who crew banks s := rfl
@[simp] theorem exec_vset (c : Fin 96) (rd : Fin 32) (rs1 : Fin 32) (shape : BitVec 8) (s : State) : exec (.vset c rd
    rs1 shape) s = execVset c rd rs1 shape s := rfl
@[simp] theorem exec_vld (c : Fin 96) (f : VMem) (s : State) : exec (.vld c f) s = execVld c f s := rfl
@[simp] theorem exec_vldff (c : Fin 96) (f : VMem) (s : State) : exec (.vldff c f) s = execVldff c f s := rfl
@[simp] theorem exec_vst (c : Fin 96) (f : VMem) (s : State) : exec (.vst c f) s = execVst c f s := rfl
@[simp] theorem exec_vldM (c : Fin 96) (md : Fin 8) (rs1 : Fin 32) (s : State) : exec (.vldM c md rs1) s = execVldM c
    md rs1 s := rfl
@[simp] theorem exec_vstM (c : Fin 96) (ms : Fin 8) (rs1 : Fin 32) (s : State) : exec (.vstM c ms rs1) s = execVstM c
    ms rs1 s := rfl
@[simp] theorem exec_vadd (c : Fin 96) (f : VArith) (s : State) : exec (.vadd c f) s = execVadd c f s := rfl
@[simp] theorem exec_vsub (c : Fin 96) (f : VArith) (s : State) : exec (.vsub c f) s = execVsub c f s := rfl
@[simp] theorem exec_vadds (c : Fin 96) (f : VArith) (s : State) : exec (.vadds c f) s = execVadds c f s := rfl
@[simp] theorem exec_vsubs (c : Fin 96) (f : VArith) (s : State) : exec (.vsubs c f) s = execVsubs c f s := rfl
@[simp] theorem exec_vand (c : Fin 96) (f : VArith) (s : State) : exec (.vand c f) s = execVand c f s := rfl
@[simp] theorem exec_vor (c : Fin 96) (f : VArith) (s : State) : exec (.vor c f) s = execVor c f s := rfl
@[simp] theorem exec_vxor (c : Fin 96) (f : VArith) (s : State) : exec (.vxor c f) s = execVxor c f s := rfl
@[simp] theorem exec_vmin (c : Fin 96) (f : VArith) (s : State) : exec (.vmin c f) s = execVmin c f s := rfl
@[simp] theorem exec_vmax (c : Fin 96) (f : VArith) (s : State) : exec (.vmax c f) s = execVmax c f s := rfl
@[simp] theorem exec_vminu (c : Fin 96) (f : VArith) (s : State) : exec (.vminu c f) s = execVminu c f s := rfl
@[simp] theorem exec_vmaxu (c : Fin 96) (f : VArith) (s : State) : exec (.vmaxu c f) s = execVmaxu c f s := rfl
@[simp] theorem exec_vsll (c : Fin 96) (f : VArith) (s : State) : exec (.vsll c f) s = execVsll c f s := rfl
@[simp] theorem exec_vsrl (c : Fin 96) (f : VArith) (s : State) : exec (.vsrl c f) s = execVsrl c f s := rfl
@[simp] theorem exec_vsra (c : Fin 96) (f : VArith) (s : State) : exec (.vsra c f) s = execVsra c f s := rfl
@[simp] theorem exec_vnsra (c : Fin 96) (f : VArith) (s : State) : exec (.vnsra c f) s = execVnsra c f s := rfl
@[simp] theorem exec_vnsras (c : Fin 96) (f : VArith) (s : State) : exec (.vnsras c f) s = execVnsras c f s := rfl
@[simp] theorem exec_vmul (c : Fin 96) (f : VArith) (s : State) : exec (.vmul c f) s = execVmul c f s := rfl
@[simp] theorem exec_vmulq (c : Fin 96) (f : VArith) (s : State) : exec (.vmulq c f) s = execVmulq c f s := rfl
@[simp] theorem exec_vmacw (c : Fin 96) (f : VArith) (s : State) : exec (.vmacw c f) s = execVmacw c f s := rfl
@[simp] theorem exec_vmsuw (c : Fin 96) (f : VArith) (s : State) : exec (.vmsuw c f) s = execVmsuw c f s := rfl
@[simp] theorem exec_vcmulw (c : Fin 96) (f : VArith) (s : State) : exec (.vcmulw c f) s = execVcmulw c f s := rfl
@[simp] theorem exec_vcmacw (c : Fin 96) (f : VArith) (s : State) : exec (.vcmacw c f) s = execVcmacw c f s := rfl
@[simp] theorem exec_vcmacjw (c : Fin 96) (f : VArith) (s : State) : exec (.vcmacjw c f) s = execVcmacjw c f s := rfl
@[simp] theorem exec_vcmulq (c : Fin 96) (f : VArith) (s : State) : exec (.vcmulq c f) s = execVcmulq c f s := rfl
@[simp] theorem exec_vfadd (c : Fin 96) (f : VArith) (s : State) : exec (.vfadd c f) s = execVfadd c f s := rfl
@[simp] theorem exec_vfsub (c : Fin 96) (f : VArith) (s : State) : exec (.vfsub c f) s = execVfsub c f s := rfl
@[simp] theorem exec_vfmul (c : Fin 96) (f : VArith) (s : State) : exec (.vfmul c f) s = execVfmul c f s := rfl
@[simp] theorem exec_vfma (c : Fin 96) (f : VArith) (s : State) : exec (.vfma c f) s = execVfma c f s := rfl
@[simp] theorem exec_vfmin (c : Fin 96) (f : VArith) (s : State) : exec (.vfmin c f) s = execVfmin c f s := rfl
@[simp] theorem exec_vfmax (c : Fin 96) (f : VArith) (s : State) : exec (.vfmax c f) s = execVfmax c f s := rfl
@[simp] theorem exec_vfrece (c : Fin 96) (f : VArith) (s : State) : exec (.vfrece c f) s = execVfrece c f s := rfl
@[simp] theorem exec_vfrsqe (c : Fin 96) (f : VArith) (s : State) : exec (.vfrsqe c f) s = execVfrsqe c f s := rfl
@[simp] theorem exec_vfcvtI (c : Fin 96) (f : VArith) (s : State) : exec (.vfcvtI c f) s = execVfcvtI c f s := rfl
@[simp] theorem exec_vfcvtF (c : Fin 96) (f : VArith) (s : State) : exec (.vfcvtF c f) s = execVfcvtF c f s := rfl
@[simp] theorem exec_vcmpeq (c : Fin 96) (f : VArith) (s : State) : exec (.vcmpeq c f) s = execVcmpeq c f s := rfl
@[simp] theorem exec_vcmpne (c : Fin 96) (f : VArith) (s : State) : exec (.vcmpne c f) s = execVcmpne c f s := rfl
@[simp] theorem exec_vcmplt (c : Fin 96) (f : VArith) (s : State) : exec (.vcmplt c f) s = execVcmplt c f s := rfl
@[simp] theorem exec_vcmpltu (c : Fin 96) (f : VArith) (s : State) : exec (.vcmpltu c f) s = execVcmpltu c f s := rfl
@[simp] theorem exec_vcmple (c : Fin 96) (f : VArith) (s : State) : exec (.vcmple c f) s = execVcmple c f s := rfl
@[simp] theorem exec_vcmpleu (c : Fin 96) (f : VArith) (s : State) : exec (.vcmpleu c f) s = execVcmpleu c f s := rfl
@[simp] theorem exec_vfcmpeq (c : Fin 96) (f : VArith) (s : State) : exec (.vfcmpeq c f) s = execVfcmpeq c f s := rfl
@[simp] theorem exec_vfcmplt (c : Fin 96) (f : VArith) (s : State) : exec (.vfcmplt c f) s = execVfcmplt c f s := rfl
@[simp] theorem exec_vmerge (c : Fin 96) (f : VArith) (s : State) : exec (.vmerge c f) s = execVmerge c f s := rfl
@[simp] theorem exec_vredsum (c : Fin 96) (rd : Fin 32) (vs1 : Fin 32) (men : Bool) (msel : Fin 8) (s : State) : exec
    (.vredsum c rd vs1 men msel) s = execVredsum c rd vs1 men msel s := rfl
@[simp] theorem exec_vredmax (c : Fin 96) (rd : Fin 32) (vs1 : Fin 32) (men : Bool) (msel : Fin 8) (s : State) : exec
    (.vredmax c rd vs1 men msel) s = execVredmax c rd vs1 men msel s := rfl
@[simp] theorem exec_vredmin (c : Fin 96) (rd : Fin 32) (vs1 : Fin 32) (men : Bool) (msel : Fin 8) (s : State) : exec
    (.vredmin c rd vs1 men msel) s = execVredmin c rd vs1 men msel s := rfl
@[simp] theorem exec_vslidedn (c : Fin 96) (vd : Fin 32) (vs1 : Fin 32) (rs2 : Fin 32) (men : Bool) (msel : Fin 8) (s
    : State) : exec (.vslidedn c vd vs1 rs2 men msel) s = execVslidedn c vd vs1 rs2 men msel s := rfl
@[simp] theorem exec_vslideup (c : Fin 96) (vd : Fin 32) (vs1 : Fin 32) (rs2 : Fin 32) (men : Bool) (msel : Fin 8) (s
    : State) : exec (.vslideup c vd vs1 rs2 men msel) s = execVslideup c vd vs1 rs2 men msel s := rfl
@[simp] theorem exec_vgatherr (c : Fin 96) (vd : Fin 32) (vs1 : Fin 32) (vs2 : Fin 32) (men : Bool) (msel : Fin 8) (s
    : State) : exec (.vgatherr c vd vs1 vs2 men msel) s = execVgatherr c vd vs1 vs2 men msel s := rfl
@[simp] theorem exec_vext (c : Fin 96) (rd : Fin 32) (vs1 : Fin 32) (rs2 : Fin 32) (s : State) : exec (.vext c rd vs1
    rs2) s = execVext c rd vs1 rs2 s := rfl
@[simp] theorem exec_vins (c : Fin 96) (vd : Fin 32) (rs1 : Fin 32) (rs2 : Fin 32) (s : State) : exec (.vins c vd rs1
    rs2) s = execVins c vd rs1 rs2 s := rfl
@[simp] theorem exec_vmand (c : Fin 96) (md : Fin 8) (ms1 : Fin 8) (ms2 : Fin 8) (s : State) : exec (.vmand c md ms1
    ms2) s = execVmand c md ms1 ms2 s := rfl
@[simp] theorem exec_vmor (c : Fin 96) (md : Fin 8) (ms1 : Fin 8) (ms2 : Fin 8) (s : State) : exec (.vmor c md ms1
    ms2) s = execVmor c md ms1 ms2 s := rfl
@[simp] theorem exec_vmxor (c : Fin 96) (md : Fin 8) (ms1 : Fin 8) (ms2 : Fin 8) (s : State) : exec (.vmxor c md ms1
    ms2) s = execVmxor c md ms1 ms2 s := rfl
@[simp] theorem exec_vmandn (c : Fin 96) (md : Fin 8) (ms1 : Fin 8) (ms2 : Fin 8) (s : State) : exec (.vmandn c md
    ms1 ms2) s = execVmandn c md ms1 ms2 s := rfl
@[simp] theorem exec_vmset (c : Fin 96) (md : Fin 8) (s : State) : exec (.vmset c md) s = execVmset c md s := rfl
@[simp] theorem exec_vmclr (c : Fin 96) (md : Fin 8) (s : State) : exec (.vmclr c md) s = execVmclr c md s := rfl
@[simp] theorem exec_vmpopc (c : Fin 96) (rd : Fin 32) (ms1 : Fin 8) (s : State) : exec (.vmpopc c rd ms1) s =
    execVmpopc c rd ms1 s := rfl
@[simp] theorem exec_vmfirst (c : Fin 96) (rd : Fin 32) (ms1 : Fin 8) (s : State) : exec (.vmfirst c rd ms1) s =
    execVmfirst c rd ms1 s := rfl
@[simp] theorem exec_cpiss (c : Fin 96) (tag : Fin 32) (unit : Fin 8) (q : Fin 8) (s : State) : exec (.cpiss c tag
    unit q) s = execCpiss c tag unit q s := rfl
@[simp] theorem exec_cpres (c : Fin 96) (rd : Fin 32) (tag : Fin 32) (s : State) : exec (.cpres c rd tag) s =
    execCpres c rd tag s := rfl
@[simp] theorem exec_cpb (c : Fin 96) (tag : Fin 32) (cond : Fin 32) (imm : BitVec 16) (s : State) : exec (.cpb c tag
    cond imm) s = execCpb c tag cond imm s := rfl
@[simp] theorem exec_cpwait (c : Fin 96) (rs1 : Fin 32) (s : State) : exec (.cpwait c rs1) s = execCpwait c rs1 s :=
    rfl
@[simp] theorem exec_cpfree (c : Fin 96) (rs1 : Fin 32) (s : State) : exec (.cpfree c rs1) s = execCpfree c rs1 s :=
    rfl
@[simp] theorem exec_cptst (c : Fin 96) (rd : Fin 32) (rs1 : Fin 32) (s : State) : exec (.cptst c rd rs1) s =
    execCptst c rd rs1 s := rfl
@[simp] theorem exec_fft (crew : Fin 12) (engine : Fin 2) (coll : Option (BitVec 48)) (s : State) : exec (.fft crew
    engine coll) s = execFft crew engine coll s := rfl
@[simp] theorem exec_ifft (crew : Fin 12) (engine : Fin 2) (coll : Option (BitVec 48)) (s : State) : exec (.ifft crew
    engine coll) s = execIfft crew engine coll s := rfl
@[simp] theorem exec_fftPeak (crew : Fin 12) (engine : Fin 2) (s : State) : exec (.fftPeak crew engine) s =
    execFftPeak crew engine s := rfl
@[simp] theorem exec_dft (crew : Fin 12) (engine : Fin 2) (coll : Option (BitVec 48)) (s : State) : exec (.dft crew
    engine coll) s = execDft crew engine coll s := rfl
@[simp] theorem exec_idft (crew : Fin 12) (engine : Fin 2) (coll : Option (BitVec 48)) (s : State) : exec (.idft crew
    engine coll) s = execIdft crew engine coll s := rfl
@[simp] theorem exec_chest (crew : Fin 12) (engine : Fin 2) (coll : Option (BitVec 48)) (s : State) : exec (.chest
    crew engine coll) s = execChest crew engine coll s := rfl
@[simp] theorem exec_mimoDet (crew : Fin 12) (engine : Fin 2) (coll : Option (BitVec 48)) (s : State) : exec
    (.mimoDet crew engine coll) s = execMimoDet crew engine coll s := rfl
@[simp] theorem exec_power (crew : Fin 12) (engine : Fin 2) (s : State) : exec (.power crew engine) s = execPower
    crew engine s := rfl
@[simp] theorem exec_bwWeights (crew : Fin 12) (coll : Option (BitVec 48)) (s : State) : exec (.bwWeights crew coll)
    s = execBwWeights crew coll s := rfl
@[simp] theorem exec_bwApply (crew : Fin 12) (coll : Option (BitVec 48)) (s : State) : exec (.bwApply crew coll) s =
    execBwApply crew coll s := rfl
@[simp] theorem exec_handover (c : Fin 96) (tag : Fin 32) (s : State) : exec (.handover c tag) s = execHandover c tag
    s := rfl
@[simp] theorem exec_ldpcDecode (engine : Fin 24) (s : State) : exec (.ldpcDecode engine) s = execLdpcDecode engine s
    := rfl
@[simp] theorem exec_ldpcEncode (engine : Fin 8) (s : State) : exec (.ldpcEncode engine) s = execLdpcEncode engine s
    := rfl
@[simp] theorem exec_polarDecode (engine : Fin 8) (s : State) : exec (.polarDecode engine) s = execPolarDecode engine
    s := rfl
@[simp] theorem exec_polarEncode (engine : Fin 8) (s : State) : exec (.polarEncode engine) s = execPolarEncode engine
    s := rfl
@[simp] theorem exec_cipherTask (engine : Fin 4) (s : State) : exec (.cipherTask engine) s = execCipherTask engine s
    := rfl
@[simp] theorem exec_bandSampleMessage (port : Fin 48) (eaxc : BitVec 16) (last : BitVec 64) (s : State) : exec
    (.bandSampleMessage port eaxc last) s = execBandSampleMessage port eaxc last s := rfl
@[simp] theorem exec_bandGap (g : Fin 256) (s : State) : exec (.bandGap g) s = execBandGap g s := rfl
@[simp] theorem exec_chirpGroupStopped (g : Fin 256) (s : State) : exec (.chirpGroupStopped g) s =
    execChirpGroupStopped g s := rfl
@[simp] theorem exec_detection (ch : Fin 256) (so : Fin 12) (chirps : List UpChirp) (newest : UpChirp)
    (checks : List (Fin 8 × SyncSeen × List (BitVec 11))) (frames : List (BitVec 16)) (part : RxData) (s : State) :
    exec (.detection ch so chirps newest checks frames part) s = execDetection ch so chirps newest checks frames part s := rfl
@[simp] theorem exec_headerCheck (ch : Fin 256) (d : Fin 8) (pre : SyncSeen) (symbols : List (BitVec 11)) (s : State)
    : exec (.headerCheck ch d pre symbols) s = execHeaderCheck ch d pre symbols s := rfl
@[simp] theorem exec_receptionEnd (ch : Fin 256) (d : Fin 8) (data : RxData) (s : State) : exec (.receptionEnd ch d
    data) s = execReceptionEnd ch d data s := rfl
@[simp] theorem exec_noiseFloorPeriod (ch : Fin 256) (power : BitVec 32) (s : State) : exec (.noiseFloorPeriod ch
    power) s = execNoiseFloorPeriod ch power s := rfl
@[simp] theorem exec_txDequeue (g : Fin 256) (s : State) : exec (.txDequeue g) s = execTxDequeue g s := rfl
@[simp] theorem exec_txFrameLaunch (m : Fin 64) (parts : List (Fin 256 × Fin 8 × RxData)) (s : State) : exec
    (.txFrameLaunch m parts) s = execTxFrameLaunch m parts s := rfl
@[simp] theorem exec_txFrameEnd (m : Fin 64) (s : State) : exec (.txFrameEnd m) s = execTxFrameEnd m s := rfl
@[simp] theorem exec_tagSet (r : Request) (s : State) : exec (.tagSet r) s = execTagSet r s := rfl
@[simp] theorem exec_tagRemove (r : Request) (s : State) : exec (.tagRemove r) s = execTagRemove r s := rfl
@[simp] theorem exec_tagGet (r : Request) (s : State) : exec (.tagGet r) s = execTagGet r s := rfl
@[simp] theorem exec_chirpStats (r : Request) (s : State) : exec (.chirpStats r) s = execChirpStats r s := rfl
@[simp] theorem exec_cssCntClear (ch : Fin 256) (s : State) : exec (.cssCntClear ch) s = execCssCntClear ch s := rfl
@[simp] theorem exec_bridgeGroupRunning (g : Fin 512) (s : State) : exec (.bridgeGroupRunning g) s =
    execBridgeGroupRunning g s := rfl
@[simp] theorem exec_bridgeGroupStopped (g : Fin 512) (s : State) : exec (.bridgeGroupStopped g) s =
    execBridgeGroupStopped g s := rfl
@[simp] theorem exec_inputFrame (g : Fin 512) (s : State) : exec (.inputFrame g) s = execInputFrame g s := rfl
@[simp] theorem exec_blockCompute (mic0 : List (BitVec 24)) (mic1 : List (BitVec 24)) (took : BitVec 16) (s : State)
    : exec (.blockCompute mic0 mic1 took) s = execBlockCompute mic0 mic1 took s := rfl
@[simp] theorem exec_audioBlockOverrun (s : State) : exec (.audioBlockOverrun) s = execAudioBlockOverrun s := rfl
@[simp] theorem exec_subsumReceived (g : Fin 512) (device : BitVec 12) (block : BitVec 64) (samples : List (BitVec
    64)) (s : State) : exec (.subsumReceived g device block samples) s = execSubsumReceived g device block samples s
    := rfl
@[simp] theorem exec_paramDescriptor (s : State) : exec (.paramDescriptor) s = execParamDescriptor s := rfl
@[simp] theorem exec_legAdd (r : Request) (s : State) : exec (.legAdd r) s = execLegAdd r s := rfl
@[simp] theorem exec_legRemove (r : Request) (s : State) : exec (.legRemove r) s = execLegRemove r s := rfl
@[simp] theorem exec_legParam (r : Request) (s : State) : exec (.legParam r) s = execLegParam r s := rfl
@[simp] theorem exec_legStats (r : Request) (s : State) : exec (.legStats r) s = execLegStats r s := rfl
@[simp] theorem exec_legKeySet (r : Request) (s : State) : exec (.legKeySet r) s = execLegKeySet r s := rfl
@[simp] theorem exec_audioClearAll (s : State) : exec (.audioClearAll) s = execAudioClearAll s := rfl
@[simp] theorem exec_hspInsertion (plug : PlugHeld) (s : State) :
    exec (.hspInsertion plug) s = execHspInsertion plug s := rfl
@[simp] theorem exec_accessoryDetection (n : Fin 2) (t : BitVec 32) (r1 : BitVec 32) (short : BitVec 32) (onS :
    BitVec 32) (onR2 : BitVec 32) (s : State) : exec (.accessoryDetection n t r1 short onS onR2) s =
    execAccessoryDetection n t r1 short onS onR2 s := rfl
@[simp] theorem exec_hspRemoval (plug : PlugHeld) (s : State) :
    exec (.hspRemoval plug) s = execHspRemoval plug s := rfl
@[simp] theorem exec_micMeasurement (n : Fin 2) (ohms : BitVec 32) (s : State) : exec (.micMeasurement n ohms) s =
    execMicMeasurement n ohms s := rfl
@[simp] theorem exec_videoSessionRunning (k : Fin 4096) (s : State) : exec (.videoSessionRunning k) s =
    execVideoSessionRunning k s := rfl
@[simp] theorem exec_videoSessionStopped (k : Fin 4096) (s : State) : exec (.videoSessionStopped k) s =
    execVideoSessionStopped k s := rfl
@[simp] theorem exec_accessUnit (k : Fin 4096) (s : State) : exec (.accessUnit k) s = execAccessUnit k s := rfl
@[simp] theorem exec_pictureDecode (k : Fin 4096) (s : State) : exec (.pictureDecode k) s = execPictureDecode k s :=
    rfl
@[simp] theorem exec_pictureEncode (k : Fin 4096) (s : State) : exec (.pictureEncode k) s = execPictureEncode k s :=
    rfl
@[simp] theorem exec_composeFrame (layout : Fin 8) (s : State) : exec (.composeFrame layout) s = execComposeFrame
    layout s := rfl
@[simp] theorem exec_st2110Packet (k : Fin 4096) (port : Fin 48) (seq : BitVec 16) (ts : BitVec 32) (ssrc : BitVec
    32) (pt : BitVec 7) (segs : List (Fin 4096 × Fin 16384 × List (BitVec 8))) (s : State) : exec (.st2110Packet k
    port seq ts ssrc pt segs) s = execSt2110Packet k port seq ts ssrc pt segs s := rfl
@[simp] theorem exec_st2110PictureEligible (k : Fin 4096) (s : State) : exec (.st2110PictureEligible k) s =
    execSt2110PictureEligible k s := rfl
@[simp] theorem exec_tx2110Picture (k : Fin 4096) (s : State) : exec (.tx2110Picture k) s = execTx2110Picture k s :=
    rfl
@[simp] theorem exec_streamPacket (n : Fin 512) (s : State) : exec (.streamPacket n) s = execStreamPacket n s := rfl
@[simp] theorem exec_layerRateMeasure (s : State) : exec (.layerRateMeasure) s = execLayerRateMeasure s := rfl
@[simp] theorem exec_forecastRecord (c : Fin 64) (s : State) : exec (.forecastRecord c) s = execForecastRecord c s :=
    rfl
@[simp] theorem exec_forecastRelay (device : BitVec 12) (record : List (BitVec 8)) (s : State) : exec (.forecastRelay
    device record) s = execForecastRelay device record s := rfl
@[simp] theorem exec_forecastStale (l : Fin 4096) (s : State) : exec (.forecastStale l) s = execForecastStale l s :=
    rfl
@[simp] theorem exec_feedbackRecord (s : State) : exec (.feedbackRecord) s = execFeedbackRecord s := rfl
@[simp] theorem exec_upHoldExpiry (l : Fin 4096) (s : State) : exec (.upHoldExpiry l) s = execUpHoldExpiry l s := rfl
@[simp] theorem exec_keyRequest (l : Fin 4096) (s : State) : exec (.keyRequest l) s = execKeyRequest l s := rfl
@[simp] theorem exec_streamPacketExpiry (n : Fin 512) (s : State) : exec (.streamPacketExpiry n) s =
    execStreamPacketExpiry n s := rfl
@[simp] theorem exec_layoutSet (r : Request) (s : State) : exec (.layoutSet r) s = execLayoutSet r s := rfl
@[simp] theorem exec_layoutGet (r : Request) (s : State) : exec (.layoutGet r) s = execLayoutGet r s := rfl
@[simp] theorem exec_fwdLegAdd (r : Request) (s : State) : exec (.fwdLegAdd r) s = execFwdLegAdd r s := rfl
@[simp] theorem exec_fwdLegRemove (r : Request) (s : State) : exec (.fwdLegRemove r) s = execFwdLegRemove r s := rfl
@[simp] theorem exec_fwdLegStats (r : Request) (s : State) : exec (.fwdLegStats r) s = execFwdLegStats r s := rfl
@[simp] theorem exec_fwdClearAll (s : State) : exec (.fwdClearAll) s = execFwdClearAll s := rfl
@[simp] theorem exec_ptpSync (p : Fin 16) (msg : PtpTimed) (corr : Int) (s : State) :
    exec (.ptpSync p msg corr) s = execPtpSync p msg corr s := rfl
@[simp] theorem exec_delayResp (p : Fin 16) (msg : PtpTimed) (corr : Int) (s : State) :
    exec (.delayResp p msg corr) s = execDelayResp p msg corr s := rfl
@[simp] theorem exec_announce (p : Fin 16) (a : Announce) (s : State) : exec (.announce p a) s = execAnnounce p a s
    := rfl
@[simp] theorem exec_ptpMessageSend (p : Fin 16) (m : PtpMessage) (s : State) : exec (.ptpMessageSend p m) s =
    execPtpMessageSend p m s := rfl
@[simp] theorem exec_ptpTimeout (p : Fin 16) (m : PtpMessage) (s : State) : exec (.ptpTimeout p m) s = execPtpTimeout
    p m s := rfl
@[simp] theorem exec_ppsEdge (n : Fin 4) (s : State) : exec (.ppsEdge n) s = execPpsEdge n s := rfl
@[simp] theorem exec_ppsInputInvalid (n : Fin 4) (s : State) : exec (.ppsInputInvalid n) s = execPpsInputInvalid n s
    := rfl
@[simp] theorem exec_referencePromotion (ref : Fin 20) (s : State) : exec (.referencePromotion ref) s =
    execReferencePromotion ref s := rfl
@[simp] theorem exec_holdoverExpiry (s : State) : exec (.holdoverExpiry) s = execHoldoverExpiry s := rfl
@[simp] theorem exec_strobe (strobe : Strobe) (s : State) : exec (.strobe strobe) s = execStrobe strobe s := rfl
@[simp] theorem exec_timeSet (r : Request) (s : State) : exec (.timeSet r) s = execTimeSet r s := rfl
@[simp] theorem exec_ppsNoEdge (s : State) : exec (.ppsNoEdge) s = execPpsNoEdge s := rfl
@[simp] theorem exec_timeAdjust (r : Request) (s : State) : exec (.timeAdjust r) s = execTimeAdjust r s := rfl
@[simp] theorem exec_timeGet (r : Request) (s : State) : exec (.timeGet r) s = execTimeGet r s := rfl
@[simp] theorem exec_ptpPortStats (r : Request) (s : State) : exec (.ptpPortStats r) s = execPtpPortStats r s := rfl
@[simp] theorem exec_coxLatchShortLo (k : Fin 4) (s : State) : exec (.coxLatchShortLo k) s = execCoxLatchShortLo k s
    := rfl
@[simp] theorem exec_coxPpsInTsLo (n : Fin 4) (s : State) : exec (.coxPpsInTsLo n) s = execCoxPpsInTsLo n s := rfl
@[simp] theorem exec_memDevCe (ch : Fin 8) (s : State) : exec (.memDevCe ch) s = execMemDevCe ch s := rfl
@[simp] theorem exec_memChannelDown (ch : Fin 8) (parity : Bool) (s : State) : exec (.memChannelDown ch parity) s =
    execMemChannelDown ch parity s := rfl
@[simp] theorem exec_memRepair (ch : Fin 8) (lo : BitVec 32) (s : State) : exec (.memRepair ch lo) s = execMemRepair
    ch lo s := rfl
@[simp] theorem exec_memFlipArm (target : FlipTarget) (axor : BitVec 16) (s : State) : exec (.memFlipArm target axor)
    s = execMemFlipArm target axor s := rfl
@[simp] theorem exec_inboundPcieWrite (target : PcieTarget) (data : List (BitVec 8)) (whole : Bool) (s : State) :
    exec (.inboundPcieWrite target data whole) s = execInboundPcieWrite target data whole s := rfl
@[simp] theorem exec_inboundPcieRead (target : PcieTarget) (len : BitVec 13) (s : State) : exec (.inboundPcieRead
    target len) s = execInboundPcieRead target len s := rfl
@[simp] theorem exec_spoolAlloc (who : Initiator) (s : State) : exec (.spoolAlloc who) s = execSpoolAlloc who s := rfl
@[simp] theorem exec_spoolEnq (who : Initiator) (handle : BitVec 32) (s : State) : exec (.spoolEnq who handle) s =
    execSpoolEnq who handle s := rfl
@[simp] theorem exec_spoolDeq (who : Initiator) (s : State) : exec (.spoolDeq who) s = execSpoolDeq who s := rfl
@[simp] theorem exec_spoolFree (who : Initiator) (handle : BitVec 32) (s : State) : exec (.spoolFree who handle) s =
    execSpoolFree who handle s := rfl
@[simp] theorem exec_spoolNext (who : Initiator) (s : State) : exec (.spoolNext who) s = execSpoolNext who s := rfl
@[simp] theorem exec_packetJoin (handle : BitVec 32) (s : State) : exec (.packetJoin handle) s = execPacketJoin
    handle s := rfl
@[simp] theorem exec_spoolCqPush (q : Fin 1024) (word : BitVec 32) (s : State) : exec (.spoolCqPush q word) s =
    execSpoolCqPush q word s := rfl
@[simp] theorem exec_spoolCqPop (q : Fin 1024) (s : State) : exec (.spoolCqPop q) s = execSpoolCqPop q s := rfl
@[simp] theorem exec_spoolCqEnable (q : Fin 1024) (en : Bool) (s : State) : exec (.spoolCqEnable q en) s =
    execSpoolCqEnable q en s := rfl
@[simp] theorem exec_queueReclaim (r : Request) (s : State) : exec (.queueReclaim r) s = execQueueReclaim r s := rfl
@[simp] theorem exec_queueStats (r : Request) (s : State) : exec (.queueStats r) s = execQueueStats r s := rfl
@[simp] theorem exec_handoverCycle (ch : Fin 64) (s : State) : exec (.handoverCycle ch) s = execHandoverCycle ch s :=
    rfl
@[simp] theorem exec_moveProg (ch : Fin 64) (s : State) : exec (.moveProg ch) s = execMoveProg ch s := rfl
@[simp] theorem exec_loopProg (ch : Fin 64) (s : State) : exec (.loopProg ch) s = execLoopProg ch s := rfl
@[simp] theorem exec_endloop (ch : Fin 64) (s : State) : exec (.endloop ch) s = execEndloop ch s := rfl
@[simp] theorem exec_waitProg (ch : Fin 64) (s : State) : exec (.waitProg ch) s = execWaitProg ch s := rfl
@[simp] theorem exec_waitTimeout (ch : Fin 64) (s : State) : exec (.waitTimeout ch) s = execWaitTimeout ch s := rfl
@[simp] theorem exec_signalProg (ch : Fin 64) (s : State) : exec (.signalProg ch) s = execSignalProg ch s := rfl
@[simp] theorem exec_dmaFence (ch : Fin 64) (s : State) : exec (.dmaFence ch) s = execDmaFence ch s := rfl
@[simp] theorem exec_endProg (ch : Fin 64) (s : State) : exec (.endProg ch) s = execEndProg ch s := rfl
@[simp] theorem exec_dmaArm (ch : Fin 64) (s : State) : exec (.dmaArm ch) s = execDmaArm ch s := rfl
@[simp] theorem exec_abortCh (ch : Fin 64) (s : State) : exec (.abortCh ch) s = execAbortCh ch s := rfl
@[simp] theorem exec_shadowWrite (ch : Fin 64) (reg : Fin 5) (value : BitVec 32) (s : State) : exec (.shadowWrite ch
    reg value) s = execShadowWrite ch reg value s := rfl
@[simp] theorem exec_credit (src : Fin 64) (dst : Fin 64) (flits : Fin 1025) (s : State) : exec (.credit src dst
    flits) s = execCredit src dst flits s := rfl
@[simp] theorem exec_gatewayHeadFlit (src dst : Fin 64) (vc : Fin 4) (pkt : WeftPacket) (bad corrected : Option (Fin 64 × Fin 5)) (s : State) :
    exec (.gatewayHeadFlit src dst vc pkt bad corrected) s = execGatewayHeadFlit src dst vc pkt bad corrected s := rfl
@[simp] theorem exec_requestTimeout (who : Initiator) (src dst : Fin 64) (req : WeftRequest) (s : State) :
    exec (.requestTimeout who src dst req) s = execRequestTimeout who src dst req s := rfl
@[simp] theorem exec_creditSync (src : Fin 64) (dst : Fin 64) (s : State) : exec (.creditSync src dst) s =
    execCreditSync src dst s := rfl
@[simp] theorem exec_weftRoute (node : Fin 64) (value : BitVec 32) (s : State) : exec (.weftRoute node value) s =
    execWeftRoute node value s := rfl
@[simp] theorem exec_weftDrain (r : Request) (s : State) : exec (.weftDrain r) s = execWeftDrain r s := rfl
@[simp] theorem exec_drainStart (node : Fin 64) (s : State) : exec (.drainStart node) s = execDrainStart node s := rfl
@[simp] theorem exec_drained (node : Fin 64) (s : State) : exec (.drained node) s = execDrained node s := rfl
@[simp] theorem exec_drainEnd (node : Fin 64) (s : State) : exec (.drainEnd node) s = execDrainEnd node s := rfl
@[simp] theorem exec_weftBist (node : Fin 64) (pass : Bool) (s : State) : exec (.weftBist node pass) s = execWeftBist
    node pass s := rfl
@[simp] theorem exec_weftLinkLoad (r : Request) (s : State) : exec (.weftLinkLoad r) s = execWeftLinkLoad r s := rfl
@[simp] theorem exec_weftPath (r : Request) (s : State) : exec (.weftPath r) s = execWeftPath r s := rfl
@[simp] theorem exec_ethPortEnable (n : Fin 49) (value : BitVec 32) (s : State) : exec (.ethPortEnable n value) s =
    execEthPortEnable n value s := rfl
@[simp] theorem exec_ethLinkUp (n : Fin 49) (s : State) : exec (.ethLinkUp n) s = execEthLinkUp n s := rfl
@[simp] theorem exec_ethLinkDown (n : Fin 49) (signal : Bool) (s : State) : exec (.ethLinkDown n signal) s =
    execEthLinkDown n signal s := rfl
@[simp] theorem exec_ethFrameReceived (n : Fin 49) (len : BitVec 16) (fcs pause : Bool) (fec : FecCount) (clock : RxClock)
    (frame : EthFrame) (s : State) :
    exec (.ethFrameReceived n len fcs pause fec clock frame) s = execEthFrameReceived n len fcs pause fec clock frame s := rfl
@[simp] theorem exec_laneParityActive (lane : Fin 48) (s : State) : exec (.laneParityActive lane) s =
    execLaneParityActive lane s := rfl
@[simp] theorem exec_prbsSyncLost (lane : Fin 48) (lost : Bool) (errs : BitVec 48) (total : BitVec 48) (s : State) :
    exec (.prbsSyncLost lane lost errs total) s = execPrbsSyncLost lane lost errs total s := rfl
@[simp] theorem exec_lanePrbsErrLo (lane : Fin 48) (errors : Bool) (s : State) : exec (.lanePrbsErrLo lane errors) s
    = execLanePrbsErrLo lane errors s := rfl
@[simp] theorem exec_bupexLinkRunning (l : Fin 6) (s : State) : exec (.bupexLinkRunning l) s = execBupexLinkRunning l
    s := rfl
@[simp] theorem exec_bupexFrame (l : Fin 6) (f : BupexFrame) (s : State) : exec (.bupexFrame l f) s = execBupexFrame
    l f s := rfl
@[simp] theorem exec_hello (l : Fin 6) (rx : Option (BitVec 12 × BitVec 64 × BitVec 16)) (s : State) : exec (.hello l
    rx) s = execHello l rx s := rfl
@[simp] theorem exec_bupexLinkDown (l : Fin 6) (s : State) : exec (.bupexLinkDown l) s = execBupexLinkDown l s := rfl
@[simp] theorem exec_bupexLinkUp (l : Fin 6) (s : State) : exec (.bupexLinkUp l) s = execBupexLinkUp l s := rfl
@[simp] theorem exec_bupexIdleEntry (l : Fin 6) (s : State) : exec (.bupexIdleEntry l) s = execBupexIdleEntry l s :=
    rfl
@[simp] theorem exec_bupexIdleExit (l : Fin 6) (valid : Bool) (s : State) : exec (.bupexIdleExit l valid) s =
    execBupexIdleExit l valid s := rfl
@[simp] theorem exec_partitioned (s : State) : exec (.partitioned) s = execPartitioned s := rfl
@[simp] theorem exec_rejoined (s : State) : exec (.rejoined) s = execRejoined s := rfl
@[simp] theorem exec_proxyEnqueue (q : BitVec 16) (s : State) : exec (.proxyEnqueue q) s = execProxyEnqueue q s := rfl
@[simp] theorem exec_mdStatus (r : Request) (s : State) : exec (.mdStatus r) s = execMdStatus r s := rfl
@[simp] theorem exec_bupexLinkStats (r : Request) (s : State) : exec (.bupexLinkStats r) s = execBupexLinkStats r s
    := rfl
@[simp] theorem exec_bupexBootSend (r : Request) (s : State) : exec (.bupexBootSend r) s = execBupexBootSend r s :=
    rfl
@[simp] theorem exec_bootReady (s : State) : exec (.bootReady) s = execBootReady s := rfl
@[simp] theorem exec_fabricContention (row : Fin 6) (line : Fin 16) (s : State) : exec (.fabricContention row line) s
    = execFabricContention row line s := rfl
@[simp] theorem exec_cfgReadback (upset : Bool) (s : State) : exec (.cfgReadback upset) s = execCfgReadback upset s
    := rfl
@[simp] theorem exec_regionStartLoad (r : Fin 96) (s : State) : exec (.regionStartLoad r) s = execRegionStartLoad r s
    := rfl
@[simp] theorem exec_regionStop (r : Fin 96) (s : State) : exec (.regionStop r) s = execRegionStop r s := rfl
@[simp] theorem exec_fabricPinSet (k : Fin 4) (value : BitVec 32) (s : State) : exec (.fabricPinSet k value) s =
    execFabricPinSet k value s := rfl
@[simp] theorem exec_fabricPinClr (k : Fin 4) (value : BitVec 32) (s : State) : exec (.fabricPinClr k value) s =
    execFabricPinClr k value s := rfl
@[simp] theorem exec_fabricSpTx (p : Fin 12) (value : BitVec 32) (s : State) : exec (.fabricSpTx p value) s =
    execFabricSpTx p value s := rfl
@[simp] theorem exec_fabricSpRx (p : Fin 12) (s : State) : exec (.fabricSpRx p) s = execFabricSpRx p s := rfl
@[simp] theorem exec_oscEnable (n : Fin 4) (value : BitVec 32) (s : State) : exec (.oscEnable n value) s =
    execOscEnable n value s := rfl
@[simp] theorem exec_nvRead (r : Request) (s : State) : exec (.nvRead r) s = execNvRead r s := rfl
@[simp] theorem exec_nvWrite (r : Request) (s : State) : exec (.nvWrite r) s = execNvWrite r s := rfl
@[simp] theorem exec_idleTimerExpiry (d : Fin 38) (which : Fin 3) (s : State) : exec (.idleTimerExpiry d which) s =
    execIdleTimerExpiry d which s := rfl
@[simp] theorem exec_dozeEntry (d : Fin 38) (s : State) : exec (.dozeEntry d) s = execDozeEntry d s := rfl
@[simp] theorem exec_domainEntry (d : Fin 38) (upto : Fin 7) (s : State) : exec (.domainEntry d upto) s =
    execDomainEntry d upto s := rfl
@[simp] theorem exec_domainEntryComplete (d : Fin 38) (s : State) : exec (.domainEntryComplete d) s =
    execDomainEntryComplete d s := rfl
@[simp] theorem exec_wakeRequest (d : Fin 38) (w : WakeSource) (s : State) : exec (.wakeRequest d w) s =
    execWakeRequest d w s := rfl
@[simp] theorem exec_wakeReadyStep (d : Fin 38) (s : State) : exec (.wakeReadyStep d) s = execWakeReadyStep d s := rfl
@[simp] theorem exec_wakeFail (d : Fin 38) (s : State) : exec (.wakeFail d) s = execWakeFail d s := rfl
@[simp] theorem exec_monitorSample (m : Fin 8) (level : BitVec 16) (s : State) : exec (.monitorSample m level) s =
    execMonitorSample m level s := rfl
@[simp] theorem exec_brownout (s : State) : exec (.brownout) s = execBrownout s := rfl
@[simp] theorem exec_pfail (s : State) : exec (.pfail) s = execPfail s := rfl
@[simp] theorem exec_lastGaspReceived (l : Fin 6) (sender : BitVec 12) (s : State) : exec (.lastGaspReceived l
    sender) s = execLastGaspReceived l sender s := rfl
@[simp] theorem exec_powerRestored (s : State) : exec (.powerRestored) s = execPowerRestored s := rfl
@[simp] theorem exec_powerSet (r : Request) (s : State) : exec (.powerSet r) s = execPowerSet r s := rfl
@[simp] theorem exec_powerStatus (r : Request) (s : State) : exec (.powerStatus r) s = execPowerStatus r s := rfl
@[simp] theorem exec_powerDomCtrl (d : Fin 38) (value : BitVec 32) (s : State) : exec (.powerDomCtrl d value) s =
    execPowerDomCtrl d value s := rfl
@[simp] theorem exec_thermtrip (s : State) : exec (.thermtrip) s = execThermtrip s := rfl
@[simp] theorem exec_sfgStatus (r : Request) (s : State) : exec (.sfgStatus r) s = execSfgStatus r s := rfl
@[simp] theorem exec_faultInject (r : Request) (s : State) : exec (.faultInject r) s = execFaultInject r s := rfl
@[simp] theorem exec_faultClear (r : Request) (s : State) : exec (.faultClear r) s = execFaultClear r s := rfl
@[simp] theorem exec_injectionExpiry (s : State) : exec (.injectionExpiry) s = execInjectionExpiry s := rfl
@[simp] theorem exec_sscEnable (k : Fin 4) (s : State) : exec (.sscEnable k) s = execSscEnable k s := rfl
@[simp] theorem exec_resetNAssert (s : State) : exec (.resetNAssert) s = execResetNAssert s := rfl
@[simp] theorem exec_brownoutResetEnd (s : State) : exec (.brownoutResetEnd) s = execBrownoutResetEnd s := rfl
@[simp] theorem exec_coreTimerCmpReached (c : Fin 96) (s : State) : exec (.coreTimerCmpReached c) s =
    execCoreTimerCmpReached c s := rfl
@[simp] theorem exec_waitContinue (ch : Fin 64) (s : State) : exec (.waitContinue ch) s = execWaitContinue ch s := rfl
@[simp] theorem exec_bootTransferTimeout (s : State) : exec (.bootTransferTimeout) s = execBootTransferTimeout s :=
    rfl
@[simp] theorem exec_serialPortByteReceived (p : Fin 12) (e : SpEvent) (s : State) : exec (.serialPortByteReceived p
    e) s = execSerialPortByteReceived p e s := rfl
@[simp] theorem exec_pcieLinkChange (up : Bool) (gen : Fin 6) (width : Fin 17) (l1 : Bool) (s : State) : exec
    (.pcieLinkChange up gen width l1) s = execPcieLinkChange up gen width l1 s := rfl
@[simp] theorem exec_tempSensorUpdate (k : Fin 16) (v : BitVec 13) (s : State) : exec (.tempSensorUpdate k v) s =
    execTempSensorUpdate k v s := rfl

end Sys2Proof.Machine
end

