-- ==== Sys2Proof/Laws/Memory.lean ====
section
/-!
SUPPORT. Memory: reading after writing, and the canonical form that every operation over memory keeps.
-/
namespace Sys2Proof.Machine
open Sys2Proof

/-- A byte just stored reads back, listed or not. -/
@[simp] theorem memByte_memPut_same (m : List Host.Cell) (a : Nat) (b : Byte) : memByte (memPut m a b) a = b := by
  unfold memByte memPut
  by_cases h : defaultByte a = some b
  · simp [h, spFind_spDel_same m a]
  · simp [h, spFind_spPut_same m a b]

/-- A store of one byte leaves every other byte alone. -/
theorem memByte_memPut_ne (m : List Host.Cell) {a c : Nat} (b : Byte) (h : c ≠ a) :
    memByte (memPut m a b) c = memByte m c := by
  unfold memByte memPut
  by_cases h' : defaultByte a = some b
  · simp [h', spFind_spDel_ne m h]
  · simp [h', spFind_spPut_ne m b h]

/-- A store of a byte string leaves every byte outside it alone. -/
theorem memByte_memPutAll_outside (m : List Host.Cell) (a : Nat) (bs : Bytes) {c : Nat}
    (h : c < a ∨ a + bs.length ≤ c) : memByte (memPutAll m a bs) c = memByte m c := by
  induction bs generalizing m a with
  | nil => rfl
  | cons b r ih =>
    have h2 : c ≠ a := by simp at h; omega
    have h1 : c < a + 1 ∨ a + 1 + r.length ≤ c := by simp at h; omega
    simp only [memPutAll]
    rw [ih _ _ h1, memByte_memPut_ne m b h2]

/-- Byte `k` of a string just stored reads back. -/
theorem memByte_memPutAll_inside (m : List Host.Cell) (a : Nat) (bs : Bytes) {k : Nat} (h : k < bs.length) :
    memByte (memPutAll m a bs) (a + k) = bs[k] := by
  induction bs generalizing m a k with
  | nil => simp at h
  | cons b r ih =>
    cases k with
    | zero => simp [memPutAll, memByte_memPutAll_outside (memPut m a b) (a + 1) r (c := a) (by omega)]
    | succ n =>
      have : n < r.length := by simpa using h
      have e : a + (n + 1) = a + 1 + n := by omega
      simp only [memPutAll, e, List.getElem_cons_succ]
      exact ih _ _ this

/-- The canonical form, as a rising table without redundant entries. -/
theorem memory_wf_iff (m : List Host.Cell) :
    Memory.wf m = true ↔ rising m ∧ ∀ e ∈ m, defaultByte e.1 ≠ some e.2 := by
  induction m with
  | nil => simp [Memory.wf, rising]
  | cons x r ih =>
    obtain ⟨a, b⟩ := x
    cases r with
    | nil => simp [Memory.wf, rising]
    | cons y r =>
      obtain ⟨c, d⟩ := y
      simp only [Memory.wf, Bool.and_eq_true, bne_iff_ne, decide_eq_true_eq, ih]
      unfold rising
      constructor
      · rintro ⟨⟨h1, h2⟩, h3, h4⟩
        refine ⟨List.pairwise_cons.2 ⟨fun e he => ?_, h3⟩, fun e he => ?_⟩
        · rcases List.mem_cons.1 he with he | he
          · subst he; exact h2
          · exact lt_trans h2 ((List.pairwise_cons.1 h3).1 e he)
        · rcases List.mem_cons.1 he with he | he
          · subst he; exact h1
          · exact h4 e he
      · rintro ⟨h1, h2⟩
        have h3 := List.pairwise_cons.1 h1
        exact ⟨⟨h2 (a, b) (by simp), h3.1 (c, d) (by simp)⟩, h3.2, fun e he => h2 e (List.mem_cons_of_mem _ he)⟩

/-- Storing a byte keeps the canonical form. -/
theorem memory_wf_memPut {m : List Host.Cell} (h : Memory.wf m = true) (a : Nat) (b : Byte) :
    Memory.wf (memPut m a b) = true := by
  rw [memory_wf_iff] at h ⊢
  unfold memPut
  split
  · exact ⟨rising_spDel h.1 a, fun e he => h.2 e (mem_spDel he).1⟩
  · rename_i hd
    refine ⟨rising_spPut h.1 a b, fun e he => ?_⟩
    rcases mem_spPut he with he | he
    · subst he; exact hd
    · exact h.2 e he

/-- Storing a byte string keeps the canonical form. -/
theorem memory_wf_memPutAll {m : List Host.Cell} (h : Memory.wf m = true) (a : Nat) (bs : Bytes) :
    Memory.wf (memPutAll m a bs) = true := by
  induction bs generalizing m a with
  | nil => exact h
  | cons b r ih => exact ih (memory_wf_memPut h a b) (a + 1)

/-- Dropping entries keeps the canonical form. -/
theorem memory_wf_filter {m : List Host.Cell} (h : Memory.wf m = true) (p : Host.Cell → Bool) :
    Memory.wf (m.filter p) = true := by
  rw [memory_wf_iff] at h ⊢
  exact ⟨List.Pairwise.filter p h.1, fun e he => h.2 e (List.mem_filter.1 he).1⟩

/-- A stored string keeps the canonical form of a state's memory. -/
theorem memory_wf_storeRaw {s : State} (h : Memory.wf s.mem = true) (a : Nat) (bs : Bytes) :
    Memory.wf (storeRaw a bs s).mem = true := memory_wf_memPutAll h a bs

end Sys2Proof.Machine
end

