-- ==== Sys2Proof/Laws/Keep.lean ====
section
/-!
SUPPORT. What commands keep (part, queue, canonical memory): the operations every unit shares.
-/
namespace Sys2Proof.Machine
open Sys2Proof

/-- What every command keeps: the part, the commands still waiting, and the canonical form of memory. -/
structure Keep (p s : State) : Prop where
  part : s.part = p.part
  pending : s.pending = p.pending
  mem : Memory.wf p.mem = true → Memory.wf s.mem = true

/-- The same of an outcome: it is a next state, and that state keeps them. -/
def KeepR (p : State) (r : Res) : Prop := ∃ t, r = .next t ∧ Keep p t

theorem Keep.refl (p : State) : Keep p p := ⟨rfl, rfl, id⟩
theorem Keep.id {p t : State} (h : Keep p t) : Keep p (id t) := h
theorem Keep.rec_of {p t : State} {x_part x_now x_coxCount x_free x_regs x_counters x_mem x_ecc x_rdata x_out x_evq
    x_notices x_raised x_evSeq x_objs x_cmd x_memc x_bankPend x_spool x_dma x_shuttle x_power x_cox x_weft x_carriers
    x_handsets x_fhSeq x_chirp x_chirpMods x_chirpGroups x_tags x_audio x_hsp x_video x_serial x_sec x_fabric x_cores
    x_cops x_keys x_memChans x_memGib x_pending}
    (h : Keep p t) (e1 : x_part = t.part) (e2 : x_pending = t.pending) (e3 : x_mem = t.mem) :
    Keep p (State.mk x_part x_now x_coxCount x_free x_regs x_counters x_mem x_ecc x_rdata x_out x_evq x_notices
    x_raised x_evSeq x_objs x_cmd x_memc x_bankPend x_spool x_dma x_shuttle x_power x_cox x_weft x_carriers x_handsets
    x_fhSeq x_chirp x_chirpMods x_chirpGroups x_tags x_audio x_hsp x_video x_serial x_sec x_fabric x_cores x_cops
    x_keys x_memChans x_memGib x_pending) :=
  ⟨e1.trans h.part, e2.trans h.pending, fun w => e3 ▸ h.mem w⟩

theorem Keep.pair {α : Type} {p t : State} {x : α × State} {a : α} (e : x = (a, t)) (h : Keep p x.2) : Keep p t := by
  subst e; exact h
theorem Keep.triple {α β : Type} {p t : State} {x : α × β × State} {a : α} {b : β} (e : x = (a, b, t))
    (h : Keep p x.2.2) : Keep p t := by
  subst e; exact h
theorem Keep.quad {α β γ : Type} {p t : State} {x : α × β × γ × State} {a : α} {b : β} {c : γ} (e : x = (a, b, c, t))
    (h : Keep p x.2.2.2) : Keep p t := by
  subst e; exact h
theorem Keep.ite {p s t : State} {c : Prop} [Decidable c] (h : Keep p s) (k : Keep p t) : Keep p (if c then s else t)
    := by
  split <;> assumption
theorem Keep.ite2 {α : Type} {p : State} {s t : α × State} {c : Prop} [Decidable c] (h : Keep p s.2) (k : Keep p t.2) :
    Keep p (if c then s else t).2 := by
  split <;> assumption
theorem Keep.ite3 {α β : Type} {p : State} {s t : α × β × State} {c : Prop} [Decidable c] (h : Keep p s.2.2)
    (k : Keep p t.2.2) : Keep p (if c then s else t).2.2 := by
  split <;> assumption
theorem KeepR.ite {p : State} {s t : Res} {c : Prop} [Decidable c] (h : KeepR p s) (k : KeepR p t) :
    KeepR p (if c then s else t) := by
  split <;> assumption
theorem KeepR.next {p t : State} (h : Keep p t) : KeepR p (.next t) := ⟨t, rfl, h⟩

theorem Keep.foldl {α : Type} {p s : State} {f : State → α → State} {l : List α} (h : Keep p s)
    (hf : ∀ t a, Keep p t → Keep p (f t a)) : Keep p (l.foldl f s) := by
  induction l generalizing s with
  | nil => exact h
  | cons a r ih => exact ih (hf s a h)
theorem Keep.foldl2 {α β : Type} {p : State} {x : β × State} {f : β × State → α → β × State} {l : List α} (h : Keep p
    x.2)
    (hf : ∀ t a, Keep p t.2 → Keep p (f t a).2) : Keep p (l.foldl f x).2 := by
  induction l generalizing x with
  | nil => exact h
  | cons a r ih => exact ih (hf x a h)
theorem Keep.foldl3 {α β γ : Type} {p : State} {x : β × γ × State} {f : β × γ × State → α → β × γ × State} {l : List α}
    (h : Keep p x.2.2) (hf : ∀ t a, Keep p t.2.2 → Keep p (f t a).2.2) : Keep p (l.foldl f x).2.2 := by
  induction l generalizing x with
  | nil => exact h
  | cons a r ih => exact ih (hf x a h)

theorem keep_queuePut {p : State} {q : Nat} {x : Queue} {s : State} (hk : Keep p s) :
    Keep p (queuePut q x s) := by
  unfold queuePut
  try dsimp only
  repeat' first
    | with_reducible assumption | with_reducible exact Keep.refl _
    | fail_if_no_progress with_reducible refine Keep.rec_of ?_ rfl rfl rfl

theorem keep_pktPut {p : State} {h : Nat} {p_ : Packet} {s : State} (hk : Keep p s) :
    Keep p (pktPut h p_ s) := by
  unfold pktPut
  try dsimp only
  repeat' first
    | with_reducible assumption | with_reducible exact Keep.refl _
    | fail_if_no_progress with_reducible refine Keep.rec_of ?_ rfl rfl rfl

theorem keep_raise {p : State} {code unit inst sev : Nat} {data : Bytes} {s : State} (hk : Keep p s) :
    Keep p (raise code unit inst sev data s) := by
  unfold raise
  try dsimp only
  repeat' first
    | with_reducible assumption | with_reducible exact Keep.refl _
    | fail_if_no_progress with_reducible refine Keep.rec_of ?_ rfl rfl rfl

theorem keep_quarantine {p : State} {q : Nat} {extra : List Nat} {s : State} (hk : Keep p s) :
    Keep p (quarantine q extra s) := by
  unfold quarantine
  try dsimp only
  repeat' first
    | with_reducible assumption | with_reducible exact Keep.refl _ | with_reducible apply keep_pktPut
    | with_reducible apply keep_raise | with_reducible apply keep_queuePut | with_reducible refine Keep.foldl ?_ ?_
    | intro _
    | split

theorem keep_endPtr {p : State} {q : Nat} {s : State} (hk : Keep p s) :
    Keep p (endPtr q s) := by
  unfold endPtr
  try dsimp only
  repeat' first
    | with_reducible assumption | with_reducible exact Keep.refl _
    | fail_if_no_progress with_reducible refine Keep.rec_of ?_ rfl rfl rfl

theorem keep_dequeue {p : State} {q : Nat} {s : State} (hk : Keep p s) :
    Keep p (dequeue q s).2 := by
  unfold dequeue
  try dsimp only
  repeat' first
    | with_reducible assumption | with_reducible exact Keep.refl _ | with_reducible apply keep_queuePut
    | with_reducible apply keep_quarantine | with_reducible apply keep_endPtr | with_reducible apply keep_pktPut | split

theorem keep_cntBump {p : State} {k n : Nat} {s : State} (hk : Keep p s) :
    Keep p (cntBump k n s) := by
  unfold cntBump
  try dsimp only
  repeat' first
    | with_reducible assumption | with_reducible exact Keep.refl _
    | fail_if_no_progress with_reducible refine Keep.rec_of ?_ rfl rfl rfl

theorem keep_sendOut {p : State} {o : Out} {s : State} (hk : Keep p s) :
    Keep p (sendOut o s) := by
  unfold sendOut
  try dsimp only
  repeat' first
    | with_reducible assumption | with_reducible exact Keep.refl _ | with_reducible apply keep_cntBump
    | with_reducible refine Keep.ite ?_ ?_ | with_reducible refine Keep.ite2 ?_ ?_
    | with_reducible refine Keep.ite3 ?_ ?_ | with_reducible refine KeepR.ite ?_ ?_
    | with_reducible refine KeepR.next ?_ | with_reducible refine Keep.foldl ?_ ?_
    | with_reducible refine Keep.foldl2 ?_ ?_ | with_reducible refine Keep.foldl3 ?_ ?_
    | with_reducible refine Keep.id ?_ | fail_if_no_progress with_reducible refine Keep.rec_of ?_ rfl rfl rfl | intro _
    | split

theorem keep_emit {p : State} {o : Out} {s : State} (hk : Keep p s) :
    Keep p (emit o s) := by
  unfold emit
  try dsimp only
  repeat' first
    | with_reducible assumption | with_reducible exact Keep.refl _ | with_reducible apply keep_sendOut
    | fail_if_no_progress with_reducible refine Keep.rec_of ?_ rfl rfl rfl | split

theorem keep_fifoPut {p : State} {p_ : Bytes} {note : Bool} {s : State} (hk : Keep p s) :
    Keep p (fifoPut p_ note s) := by
  unfold fifoPut
  try dsimp only
  repeat' first
    | with_reducible assumption | with_reducible exact Keep.refl _ | with_reducible apply keep_emit
    | with_reducible refine Keep.ite ?_ ?_ | with_reducible refine Keep.ite2 ?_ ?_
    | with_reducible refine Keep.ite3 ?_ ?_ | with_reducible refine KeepR.ite ?_ ?_
    | with_reducible refine KeepR.next ?_ | with_reducible refine Keep.foldl ?_ ?_
    | with_reducible refine Keep.foldl2 ?_ ?_ | with_reducible refine Keep.foldl3 ?_ ?_
    | with_reducible refine Keep.id ?_ | fail_if_no_progress with_reducible refine Keep.rec_of ?_ rfl rfl rfl

theorem keep_queueReply {p : State} {t : Transport} {source : Nat} {p_ : Bytes} {note : Bool} {s : State} (hk : Keep p
    s) :
    Keep p (queueReply t source p_ note s) := by
  unfold queueReply
  try dsimp only
  repeat' first
    | with_reducible assumption | with_reducible exact Keep.refl _ | with_reducible apply keep_fifoPut
    | with_reducible apply keep_emit | fail_if_no_progress with_reducible refine Keep.rec_of ?_ rfl rfl rfl | split

theorem keep_reply {p : State} {opcode : Nat} {r : Request} {status : Nat} {results : Bytes} {s : State} (hk : Keep p
    s) :
    Keep p (reply opcode r status results s) := by
  unfold reply
  try dsimp only
  repeat' first
    | with_reducible assumption | with_reducible exact Keep.refl _ | with_reducible apply keep_queueReply

theorem keep_runCmd {p : State} {opcode : Nat} {r : Request} {check : Nat} {act : State → Nat × Bytes × State} {s :
    State} (hk : Keep p s) (hf : ∀ t, Keep p t → Keep p (act t).2.2) :
    Keep p (runCmd opcode r check act s) := by
  unfold runCmd
  try dsimp only
  repeat' first
    | with_reducible assumption | with_reducible exact Keep.refl _ | with_reducible apply hf
    | with_reducible apply keep_reply | split

theorem keep_objDel {p : State} {id : Nat} {s : State} (hk : Keep p s) :
    Keep p (objDel id s) := by
  unfold objDel
  try dsimp only
  repeat' first
    | with_reducible assumption | with_reducible exact Keep.refl _
    | fail_if_no_progress with_reducible refine Keep.rec_of ?_ rfl rfl rfl

theorem keep_regPut {p : State} {unit inst off : Nat} {v : W32} {s : State} (hk : Keep p s) :
    Keep p (regPut unit inst off v s) := by
  unfold regPut
  try dsimp only
  repeat' first
    | with_reducible assumption | with_reducible exact Keep.refl _
    | fail_if_no_progress with_reducible refine Keep.rec_of ?_ rfl rfl rfl

theorem keep_regPutF {p : State} {unit inst off hi lo v : Nat} {s : State} (hk : Keep p s) :
    Keep p (regPutF unit inst off hi lo v s) := by
  unfold regPutF
  try dsimp only
  repeat' first
    | with_reducible assumption | with_reducible exact Keep.refl _ | with_reducible apply keep_regPut

theorem keep_setSpare {p : State} {v : Nat} {s : State} (hk : Keep p s) :
    Keep p (setSpare v s) := by
  unfold setSpare
  try dsimp only
  repeat' first
    | with_reducible assumption | with_reducible exact Keep.refl _ | with_reducible apply keep_regPutF

theorem keep_raiseLim {p : State} {ns key code unit inst sev : Nat} {data : Bytes} {s : State} (hk : Keep p s) :
    Keep p (raiseLim ns key code unit inst sev data s) := by
  unfold raiseLim
  try dsimp only
  repeat' first
    | with_reducible assumption | with_reducible exact Keep.refl _ | with_reducible apply keep_raise
    | fail_if_no_progress with_reducible refine Keep.rec_of ?_ rfl rfl rfl | split

theorem keep_completeLong {p : State} {l : Long} {status : Nat} {results : Bytes} {s : State} (hk : Keep p s) :
    Keep p (completeLong l status results s) := by
  unfold completeLong
  try dsimp only
  repeat' first
    | with_reducible assumption | with_reducible exact Keep.refl _ | with_reducible apply keep_queueReply
    | fail_if_no_progress with_reducible refine Keep.rec_of ?_ rfl rfl rfl | split

theorem keep_domPut {p : State} {d : Nat} {x : Domain} {s : State} (hk : Keep p s) :
    Keep p (domPut d x s) := by
  unfold domPut
  try dsimp only
  repeat' first
    | with_reducible assumption | with_reducible exact Keep.refl _
    | fail_if_no_progress with_reducible refine Keep.rec_of ?_ rfl rfl rfl

theorem keep_powerEnd {p : State} {d : Nat} {target : PState} {status unit inst : Nat} {s : State} (hk : Keep p s) :
    Keep p (powerEnd d target status unit inst s) := by
  unfold powerEnd
  try dsimp only
  repeat' first
    | with_reducible assumption | with_reducible exact Keep.refl _
    | fail_if_no_progress with_reducible refine Keep.rec_of ?_ rfl rfl rfl

theorem keep_regBump {p : State} {unit inst off hi lo n : Nat} {s : State} (hk : Keep p s) :
    Keep p (regBump unit inst off hi lo n s) := by
  unfold regBump
  try dsimp only
  repeat' first
    | with_reducible assumption | with_reducible exact Keep.refl _ | with_reducible apply keep_regPutF

theorem keep_domAccount {p : State} {d kind : Nat} {target : PState} {unit inst : Nat} {s : State} (hk : Keep p s) :
    Keep p (domAccount d kind target unit inst s) := by
  unfold domAccount
  try dsimp only
  repeat' first
    | with_reducible assumption | with_reducible exact Keep.refl _ | with_reducible apply keep_regBump
    | with_reducible apply keep_regPut | split

theorem keep_powerRefuse {p : State} {d : Nat} {target : PState} {unit inst : Nat} {s : State} (hk : Keep p s) :
    Keep p (powerRefuse d target unit inst s) := by
  unfold powerRefuse
  try dsimp only
  repeat' first
    | with_reducible assumption | with_reducible exact Keep.refl _ | with_reducible apply keep_powerEnd
    | with_reducible apply keep_domAccount

theorem keep_beginWake {p : State} {d : Nat} {s : State} (hk : Keep p s) :
    Keep p (beginWake d s) := by
  unfold beginWake
  try dsimp only
  repeat' first
    | with_reducible assumption | with_reducible exact Keep.refl _ | with_reducible apply keep_domPut

theorem keep_putErr {p : State} {w : Nat} {p_ : ErrPat} {s : State} (hk : Keep p s) :
    Keep p (putErr w p_ s) := by
  unfold putErr
  try dsimp only
  repeat' first
    | with_reducible assumption | with_reducible exact Keep.refl _
    | fail_if_no_progress with_reducible refine Keep.rec_of ?_ rfl rfl rfl

theorem keep_storeRaw {p : State} {a : Nat} {bs : Bytes} {s : State} (hk : Keep p s) : Keep p (storeRaw a bs s) :=
  ⟨hk.part, hk.pending, fun w => memory_wf_memPutAll (hk.mem w) a bs⟩

theorem keep_putBack {p : State} {crew : Nat} {rs : List Retained} {s : State} (hk : Keep p s) :
    Keep p (putBack crew rs s) := by
  unfold putBack
  try dsimp only
  repeat' first
    | with_reducible assumption | with_reducible exact Keep.refl _ | with_reducible apply keep_putErr
    | with_reducible apply keep_storeRaw | with_reducible refine Keep.foldl ?_ ?_ | intro _

theorem keep_abortEntry {p : State} {d unit inst : Nat} {s : State} (hk : Keep p s) :
    Keep p (abortEntry d unit inst s) := by
  unfold abortEntry
  try dsimp only
  repeat' first
    | with_reducible assumption | with_reducible exact Keep.refl _ | with_reducible apply keep_powerEnd
    | with_reducible apply keep_domAccount | with_reducible apply keep_beginWake | with_reducible apply keep_putBack
    | with_reducible apply keep_domPut | split

theorem keep_depError {p : State} {t kind : Nat} {i : Initiator} {s : State} (hk : Keep p s) :
    Keep p (depError t kind i s) := by
  unfold depError
  try dsimp only
  repeat' first
    | with_reducible assumption | with_reducible exact Keep.refl _ | with_reducible apply keep_raise

theorem keep_shCount {p : State} {idx n : Nat} {s : State} (hk : Keep p s) :
    Keep p (shCount idx n s) := by
  unfold shCount
  try dsimp only
  repeat' first
    | with_reducible assumption | with_reducible exact Keep.refl _ | with_reducible apply keep_cntBump

theorem keep_flowPut {p : State} {f : Nat} {x : Flow} {s : State} (hk : Keep p s) :
    Keep p (flowPut f x s) := by
  unfold flowPut
  try dsimp only
  repeat' first
    | with_reducible assumption | with_reducible exact Keep.refl _
    | fail_if_no_progress with_reducible refine Keep.rec_of ?_ rfl rfl rfl

theorem keep_takeSeq {p : State} {f : Nat} {s : State} (hk : Keep p s) :
    Keep p (takeSeq f s).2 := by
  unfold takeSeq
  try dsimp only
  repeat' first
    | with_reducible assumption | with_reducible exact Keep.refl _ | with_reducible apply keep_flowPut

theorem keep_shCountCrew {p : State} {crew idx n : Nat} {s : State} (hk : Keep p s) :
    Keep p (shCountCrew crew idx n s) := by
  unfold shCountCrew
  try dsimp only
  repeat' first
    | with_reducible assumption | with_reducible exact Keep.refl _ | with_reducible apply keep_shCount
    | with_reducible apply keep_cntBump

theorem keep_slotPut {p : State} {t : Nat} {x : Slot} {s : State} (hk : Keep p s) :
    Keep p (slotPut t x s) := by
  unfold slotPut
  try dsimp only
  repeat' first
    | with_reducible assumption | with_reducible exact Keep.refl _
    | fail_if_no_progress with_reducible refine Keep.rec_of ?_ rfl rfl rfl

theorem keep_decSuccessors {p : State} {d : TaskDesc} {task : Nat} {ok : Bool} {s : State} (hk : Keep p s) :
    Keep p (decSuccessors d task ok s) := by
  unfold decSuccessors
  try dsimp only
  repeat' first
    | with_reducible assumption | with_reducible exact Keep.refl _
    | fail_if_no_progress with_reducible refine Keep.rec_of ?_ rfl rfl rfl | split

theorem keep_evalNext {p : State} {s : State} (hk : Keep p s) :
    Keep p (evalNext s) := by
  unfold evalNext
  try dsimp only
  repeat' first
    | with_reducible assumption | with_reducible exact Keep.refl _ | with_reducible refine Keep.ite ?_ ?_
    | with_reducible refine Keep.ite2 ?_ ?_ | with_reducible refine Keep.ite3 ?_ ?_
    | with_reducible refine KeepR.ite ?_ ?_ | with_reducible refine KeepR.next ?_
    | with_reducible refine Keep.foldl ?_ ?_ | with_reducible refine Keep.foldl2 ?_ ?_
    | with_reducible refine Keep.foldl3 ?_ ?_ | with_reducible refine Keep.id ?_
    | fail_if_no_progress with_reducible refine Keep.rec_of ?_ rfl rfl rfl

theorem keep_pktFree {p : State} {h : Nat} {s : State} (hk : Keep p s) :
    Keep p (pktFree h s) := by
  unfold pktFree
  try dsimp only
  repeat' first
    | with_reducible assumption | with_reducible exact Keep.refl _
    | fail_if_no_progress with_reducible refine Keep.rec_of ?_ rfl rfl rfl

theorem keep_badHandle {p : State} {h q : Nat} {i : Initiator} {s : State} (hk : Keep p s) :
    Keep p (badHandle h q i s) := by
  unfold badHandle
  try dsimp only
  repeat' first
    | with_reducible assumption | with_reducible exact Keep.refl _ | with_reducible apply keep_raiseLim
    | with_reducible apply keep_regBump

theorem keep_beamFree {p : State} {h : Nat} {s : State} (hk : Keep p s) :
    Keep p (beamFree h s) := by
  unfold beamFree
  try dsimp only
  repeat' first
    | with_reducible assumption | with_reducible exact Keep.refl _ | with_reducible apply keep_pktFree
    | with_reducible apply keep_badHandle | with_reducible refine Keep.ite ?_ ?_

theorem keep_notify {p : State} {task count : Nat} {source : Initiator} {s : State} (hk : Keep p s) :
    Keep p (notify task count source s) := by
  unfold notify
  try dsimp only
  repeat' first
    | with_reducible assumption | with_reducible exact Keep.refl _
    | fail_if_no_progress with_reducible refine Keep.rec_of ?_ rfl rfl rfl

theorem keep_sendNotice {p : State} {q : Nat} {named : Option Nat} {wasEmpty : Bool} {i : Initiator} {s : State} (hk :
    Keep p s) :
    Keep p (sendNotice q named wasEmpty i s) := by
  unfold sendNotice
  try dsimp only
  repeat' first
    | with_reducible assumption | with_reducible exact Keep.refl _ | with_reducible apply keep_notify
    | with_reducible apply keep_emit | split

theorem keep_enqueue {p : State} {q h : Nat} {named : Option Nat} {i : Initiator} {s : State} (hk : Keep p s) :
    Keep p (enqueue q h named i s).2 := by
  unfold enqueue
  try dsimp only
  repeat' first
    | with_reducible assumption | with_reducible exact Keep.refl _ | with_reducible apply keep_badHandle
    | with_reducible apply keep_quarantine | with_reducible apply keep_endPtr | with_reducible apply keep_raiseLim
    | with_reducible apply keep_queuePut | with_reducible apply keep_pktPut | with_reducible apply keep_sendNotice
    | split

theorem keep_unitEnqueue {p : State} {q h : Nat} {named : Option Nat} {i : Initiator} {s : State} (hk : Keep p s) :
    Keep p (unitEnqueue q h named i s).2 := by
  unfold unitEnqueue
  try dsimp only
  repeat' first
    | with_reducible assumption | with_reducible exact Keep.refl _ | with_reducible apply keep_enqueue
    | with_reducible apply keep_pktFree | split | with_reducible refine Keep.pair ‹_ = (_, _)› ?_

theorem keep_beamRelease {p : State} {f y0 : Nat} {y1 : State} (hk : Keep p y1) :
    Keep p (beamRelease f y0 y1) := by
  induction y0 generalizing f y1 with
  | zero => unfold beamRelease; exact hk
  | succ n ih =>
    unfold beamRelease
    try dsimp only
    repeat' first
      | with_reducible assumption | with_reducible exact Keep.refl _ | with_reducible apply ih
      | with_reducible apply keep_flowPut | with_reducible apply keep_unitEnqueue | with_reducible apply keep_beamFree
      | with_reducible refine Keep.foldl ?_ ?_ | intro _ | split

theorem keep_closeSeq {p : State} {f num : Nat} {rel : Bool} {s : State} (hk : Keep p s) :
    Keep p (closeSeq f num rel s) := by
  unfold closeSeq
  try dsimp only
  repeat' first
    | with_reducible assumption | with_reducible exact Keep.refl _ | with_reducible apply keep_flowPut
    | with_reducible apply keep_beamFree | with_reducible apply keep_beamRelease
    | with_reducible refine Keep.foldl ?_ ?_ | intro _ | split

theorem keep_completeWork {p : State} {w : Work} {ok : Bool} {crew : Nat} {s : State} (hk : Keep p s) :
    Keep p (completeWork w ok crew s) := by
  unfold completeWork
  try dsimp only
  repeat' first
    | with_reducible assumption | with_reducible exact Keep.refl _ | with_reducible apply keep_raiseLim
    | with_reducible apply keep_shCount | with_reducible apply keep_shCountCrew | with_reducible apply keep_slotPut
    | with_reducible apply keep_decSuccessors | with_reducible apply keep_evalNext | with_reducible apply keep_closeSeq
    | split

theorem keep_failNoCrew {p : State} {w : Work} {s : State} (hk : Keep p s) :
    Keep p (failNoCrew w s) := by
  unfold failNoCrew
  try dsimp only
  repeat' first
    | with_reducible assumption | with_reducible exact Keep.refl _ | with_reducible apply keep_raise
    | with_reducible apply keep_completeWork

theorem keep_addReady {p : State} {w : Work} {s : State} (hk : Keep p s) :
    Keep p (addReady w s) := by
  unfold addReady
  try dsimp only
  repeat' first
    | with_reducible assumption | with_reducible exact Keep.refl _
    | fail_if_no_progress with_reducible refine Keep.rec_of ?_ rfl rfl rfl

theorem keep_becomeReady {p : State} {w : Work} {s : State} (hk : Keep p s) :
    Keep p (becomeReady w s) := by
  unfold becomeReady
  try dsimp only
  repeat' first
    | with_reducible assumption | with_reducible exact Keep.refl _ | with_reducible apply keep_completeWork
    | with_reducible apply keep_failNoCrew | with_reducible apply keep_slotPut | with_reducible apply keep_addReady
    | split

theorem keep_createInstance {p : State} {t : Nat} {failed : Bool} {s : State} (hk : Keep p s) :
    Keep p (createInstance t failed s) := by
  unfold createInstance
  try dsimp only
  repeat' first
    | with_reducible assumption | with_reducible exact Keep.refl _ | with_reducible apply keep_dequeue
    | with_reducible apply keep_takeSeq | with_reducible apply keep_becomeReady | split

theorem keep_noticeTemplate {p : State} {t : Nat} {failed : Bool} {y0 : Nat} {y1 : State} (hk : Keep p y1) :
    Keep p (noticeTemplate t failed y0 y1) := by
  induction y0 generalizing t failed y1 with
  | zero => unfold noticeTemplate; exact hk
  | succ n ih =>
    unfold noticeTemplate
    try dsimp only
    repeat' first
      | with_reducible assumption | with_reducible exact Keep.refl _ | with_reducible apply ih
      | with_reducible apply keep_createInstance | with_reducible apply keep_slotPut | with_reducible apply keep_raise
      | with_reducible apply keep_shCount | split

theorem keep_decrement {p : State} {n : Notice} {s : State} (hk : Keep p s) :
    Keep p (decrement n s) := by
  unfold decrement
  try dsimp only
  repeat' first
    | with_reducible assumption | with_reducible exact Keep.refl _ | with_reducible apply keep_depError
    | with_reducible apply keep_shCount | with_reducible apply keep_noticeTemplate | with_reducible apply keep_slotPut
    | split

theorem keep_draw {p : State} {s : State} (hk : Keep p s) :
    Keep p (draw s).2 := by
  unfold draw
  try dsimp only
  repeat' first
    | with_reducible assumption | with_reducible exact Keep.refl _
    | fail_if_no_progress with_reducible refine Keep.rec_of ?_ rfl rfl rfl

theorem keep_pickCells {p : State} {used : List Nat} {base size y0 : Nat} {y1 : State} (hk : Keep p y1) :
    Keep p (pickCells used base size y0 y1).2 := by
  induction y0 generalizing used base size y1 with
  | zero => unfold pickCells; exact hk
  | succ n ih =>
    unfold pickCells
    try dsimp only
    repeat' first
      | with_reducible assumption | with_reducible exact Keep.refl _ | with_reducible apply ih
      | with_reducible apply keep_draw

theorem keep_alloc {p : State} {who : Allocator} {len : Nat} {s : State} (hk : Keep p s) :
    Keep p (alloc who len s).2 := by
  unfold alloc
  try dsimp only
  repeat' first
    | with_reducible assumption | with_reducible exact Keep.refl _ | with_reducible apply keep_pickCells
    | with_reducible apply keep_pktPut | split

theorem keep_memFlip {p : State} {ch w : Nat} {s : State} (hk : Keep p s) :
    Keep p (memFlip ch w s).2 := by
  unfold memFlip
  try dsimp only
  repeat' first
    | with_reducible assumption | with_reducible exact Keep.refl _ | with_reducible apply keep_regPut
    | with_reducible refine Keep.foldl ?_ ?_ | intro _ | split

theorem keep_cellEncode {p : State} {w : Nat} {s : State} (hk : Keep p s) :
    Keep p (cellEncode w s) := by
  unfold cellEncode
  try dsimp only
  repeat' first
    | with_reducible assumption | with_reducible exact Keep.refl _ | with_reducible apply keep_memFlip
    | with_reducible apply keep_putErr | with_reducible refine Keep.ite ?_ ?_ | with_reducible refine Keep.ite2 ?_ ?_
    | with_reducible refine Keep.ite3 ?_ ?_ | with_reducible refine KeepR.ite ?_ ?_
    | with_reducible refine KeepR.next ?_ | with_reducible refine Keep.foldl ?_ ?_
    | with_reducible refine Keep.foldl2 ?_ ?_ | with_reducible refine Keep.foldl3 ?_ ?_
    | with_reducible refine Keep.id ?_ | fail_if_no_progress with_reducible refine Keep.rec_of ?_ rfl rfl rfl | intro _
    | split

theorem keep_touch {p : State} {d : Nat} {s : State} (hk : Keep p s) :
    Keep p (touch d s) := by
  unfold touch
  try dsimp only
  repeat' first
    | with_reducible assumption | with_reducible exact Keep.refl _ | with_reducible apply keep_domPut
    | split

theorem keep_wakeRequestBase {p : State} {d unit inst : Nat} {s : State} (hk : Keep p s) :
    Keep p (wakeRequestBase d unit inst s) := by
  unfold wakeRequestBase
  try dsimp only
  repeat' first
    | with_reducible assumption | with_reducible exact Keep.refl _ | with_reducible apply keep_abortEntry
    | with_reducible apply keep_powerRefuse | with_reducible apply keep_domPut | with_reducible apply keep_beginWake
    | split

theorem keep_reach {p : State} {d : Option Nat} {s : State} (hk : Keep p s) :
    Keep p (reach d s).2 := by
  unfold reach
  try dsimp only
  repeat' first
    | with_reducible assumption | with_reducible exact Keep.refl _ | with_reducible apply keep_touch
    | with_reducible apply keep_wakeRequestBase | with_reducible apply keep_regPut | split

theorem keep_memDevCount {p : State} {ch rank pos : Nat} {s : State} (hk : Keep p s) :
    Keep p (memDevCount ch rank pos s) := by
  unfold memDevCount
  try dsimp only
  repeat' first
    | with_reducible assumption | with_reducible exact Keep.refl _ | with_reducible apply keep_raise
    | fail_if_no_progress with_reducible refine Keep.rec_of ?_ rfl rfl rfl | split

theorem keep_memCe {p : State} {ch rank pos w : Nat} {s : State} (hk : Keep p s) :
    Keep p (memCe ch rank pos w s) := by
  unfold memCe
  try dsimp only
  repeat' first
    | with_reducible assumption | with_reducible exact Keep.refl _ | with_reducible apply keep_regBump
    | with_reducible apply keep_regPut | with_reducible apply keep_memDevCount | with_reducible apply keep_raiseLim

theorem keep_memUe {p : State} {ch rank w : Nat} {merge : Bool} {i : Initiator} {s : State} (hk : Keep p s) :
    Keep p (memUe ch rank w merge i s) := by
  unfold memUe
  try dsimp only
  repeat' first
    | with_reducible assumption | with_reducible exact Keep.refl _ | with_reducible apply keep_regBump
    | with_reducible apply keep_regPut | with_reducible apply keep_raise | split

theorem keep_sdramStore {p : State} {ch w : Nat} {b : Bytes} {s : State} (hk : Keep p s) :
    Keep p (sdramStore ch w b s) := by
  unfold sdramStore
  try dsimp only
  repeat' first
    | with_reducible assumption | with_reducible exact Keep.refl _ | with_reducible apply keep_memFlip
    | with_reducible apply keep_putErr | with_reducible apply keep_storeRaw

theorem keep_mergeWords {p : State} {i : Initiator} {ch rank : Nat} {y0 : List Nat} {y1 : State} (hk : Keep p y1) :
    Keep p (mergeWords i ch rank y0 y1) := by
  induction y0 generalizing i ch rank y1 with
  | nil => unfold mergeWords; exact hk
  | cons b r ih =>
    unfold mergeWords
    try dsimp only
    repeat' first
      | with_reducible assumption | with_reducible exact Keep.refl _ | with_reducible apply ih
      | with_reducible apply keep_sdramStore | with_reducible apply keep_memCe | with_reducible apply keep_memUe | split

theorem keep_cellMerge {p : State} {a n : Nat} {s : State} (hk : Keep p s) :
    Keep p (cellMerge a n s) := by
  unfold cellMerge
  try dsimp only
  repeat' first
    | with_reducible assumption | with_reducible exact Keep.refl _ | with_reducible apply keep_mergeWords | split

theorem keep_fillCells {p : State} {y0 : List Nat} {y1 : Bytes} {y2 : State} (hk : Keep p y2) :
    Keep p (fillCells y0 y1 y2) := by
  induction y0 generalizing y1 y2 with
  | nil => unfold fillCells; exact hk
  | cons b r ih =>
    unfold fillCells
    try dsimp only
    repeat' first
      | with_reducible assumption | with_reducible exact Keep.refl _ | with_reducible apply ih
      | with_reducible apply keep_cellEncode | with_reducible apply keep_cellMerge | with_reducible apply keep_storeRaw | with_reducible refine Keep.ite ?_ ?_
      | with_reducible refine Keep.ite2 ?_ ?_ | with_reducible refine Keep.ite3 ?_ ?_
      | with_reducible refine KeepR.ite ?_ ?_ | with_reducible refine KeepR.next ?_
      | with_reducible refine Keep.foldl ?_ ?_ | with_reducible refine Keep.foldl2 ?_ ?_
      | with_reducible refine Keep.foldl3 ?_ ?_ | with_reducible refine Keep.id ?_
      | fail_if_no_progress with_reducible refine Keep.rec_of ?_ rfl rfl rfl | intro _

theorem keep_fillPacket {p : State} {h : Nat} {bs : Bytes} {s : State} (hk : Keep p s) :
    Keep p (fillPacket h bs s) := by
  unfold fillPacket
  try dsimp only
  repeat' first
    | with_reducible assumption | with_reducible exact Keep.refl _ | with_reducible apply keep_fillCells
    | split

theorem keep_deliverTo {p : State} {q : Nat} {b : Bytes} {s : State} (hk : Keep p s) :
    Keep p (deliverTo q b s) := by
  unfold deliverTo
  try dsimp only
  repeat' first
    | with_reducible assumption | with_reducible exact Keep.refl _ | with_reducible apply keep_regBump
    | with_reducible apply keep_alloc | with_reducible apply keep_enqueue | with_reducible apply keep_fillPacket
    | with_reducible apply keep_pktFree | split | with_reducible refine Keep.pair ‹_ = (_, _)› ?_

theorem keep_deliver {p : State} {e : Event} {s : State} (hk : Keep p s) :
    Keep p (deliver e s) := by
  unfold deliver
  try dsimp only
  repeat' first
    | with_reducible assumption | with_reducible exact Keep.refl _ | with_reducible apply keep_deliverTo
    | with_reducible apply keep_emit | with_reducible refine Keep.foldl ?_ ?_
    | fail_if_no_progress with_reducible refine Keep.rec_of ?_ rfl rfl rfl | intro _ | split

theorem keep_countOverruns {p : State} {s : State} (hk : Keep p s) :
    Keep p (countOverruns s) := by
  unfold countOverruns
  try dsimp only
  repeat' first
    | with_reducible assumption | with_reducible exact Keep.refl _ | with_reducible apply keep_shCountCrew
    | with_reducible refine Keep.foldl ?_ ?_ | fail_if_no_progress with_reducible refine Keep.rec_of ?_ rfl rfl rfl
    | intro _
    | split

theorem keep_holdSlack {p : State} {k : Nat} {ok : Bool} {s : State} (hk : Keep p s) :
    Keep p (holdSlack k ok s).2 := by
  unfold holdSlack
  try dsimp only
  repeat' first
    | with_reducible assumption | with_reducible exact Keep.refl _
    | fail_if_no_progress with_reducible refine Keep.rec_of ?_ rfl rfl rfl | split

theorem keep_rescueEvent {p : State} {enter : Bool} {k : Nat} {s : State} (hk : Keep p s) :
    Keep p (rescueEvent enter k s) := by
  unfold rescueEvent
  try dsimp only
  repeat' first
    | with_reducible assumption | with_reducible exact Keep.refl _ | with_reducible apply keep_raise

theorem keep_evalCrew {p : State} {n : Nat} {s : State} (hk : Keep p s) :
    Keep p (evalCrew n s) := by
  unfold evalCrew
  try dsimp only
  repeat' first
    | with_reducible assumption | with_reducible exact Keep.refl _ | with_reducible apply keep_holdSlack
    | with_reducible apply keep_rescueEvent | with_reducible apply keep_shCountCrew
    | fail_if_no_progress with_reducible refine Keep.rec_of ?_ rfl rfl rfl | split

theorem keep_endRescues {p : State} {s : State} (hk : Keep p s) :
    Keep p (endRescues s) := by
  unfold endRescues
  try dsimp only
  repeat' first
    | with_reducible assumption | with_reducible exact Keep.refl _ | with_reducible apply keep_rescueEvent
    | with_reducible refine Keep.foldl ?_ ?_ | fail_if_no_progress with_reducible refine Keep.rec_of ?_ rfl rfl rfl
    | intro _
    | split

theorem keep_setService {p : State} {v : Service} {s : State} (hk : Keep p s) :
    Keep p (setService v s) := by
  unfold setService
  try dsimp only
  repeat' first
    | with_reducible assumption | with_reducible exact Keep.refl _ | with_reducible apply keep_endRescues
    | fail_if_no_progress with_reducible refine Keep.rec_of ?_ rfl rfl rfl | split

theorem keep_rescueEval {p : State} {s : State} (hk : Keep p s) :
    Keep p (rescueEval s) := by
  unfold rescueEval
  try dsimp only
  repeat' first
    | with_reducible assumption | with_reducible exact Keep.refl _ | with_reducible apply keep_countOverruns
    | with_reducible apply keep_evalCrew | with_reducible apply keep_holdSlack | with_reducible apply keep_rescueEvent
    | with_reducible apply keep_shCount | with_reducible apply keep_setService | with_reducible refine Keep.foldl ?_ ?_
    | fail_if_no_progress with_reducible refine Keep.rec_of ?_ rfl rfl rfl | intro _ | split

theorem keep_settle {p : State} {y0 : Nat} {y1 : State} (hk : Keep p y1) :
    Keep p (settle y0 y1) := by
  induction y0 generalizing y1 with
  | zero => unfold settle; exact hk
  | succ n ih =>
    unfold settle
    try dsimp only
    repeat' first
      | with_reducible assumption | with_reducible exact Keep.refl _ | with_reducible apply ih
      | with_reducible apply keep_decrement | with_reducible apply keep_deliver | with_reducible apply keep_rescueEval
      | fail_if_no_progress with_reducible refine Keep.rec_of ?_ rfl rfl rfl | split

theorem keep_done {p : State} {s : State} (hk : Keep p s) :
    KeepR p (done s) := by
  unfold done
  try dsimp only
  repeat' first
    | with_reducible assumption | with_reducible exact Keep.refl _ | with_reducible apply keep_settle
    | with_reducible refine KeepR.next ?_

theorem keep_cancelWork {p : State} {w : Work} {s : State} (hk : Keep p s) :
    Keep p (cancelWork w s) := by
  unfold cancelWork
  try dsimp only
  repeat' first
    | with_reducible assumption | with_reducible exact Keep.refl _ | with_reducible apply keep_shCount
    | with_reducible apply keep_slotPut | with_reducible apply keep_decSuccessors | with_reducible apply keep_evalNext
    | with_reducible apply keep_closeSeq | split

theorem keep_sdramRead {p : State} {i : Initiator} {w ch rank : Nat} {s : State} (hk : Keep p s) :
    Keep p (sdramRead i w ch rank s).2.2 := by
  unfold sdramRead
  try dsimp only
  repeat' first
    | with_reducible assumption | with_reducible exact Keep.refl _ | with_reducible apply keep_memCe
    | with_reducible apply keep_memUe | split

theorem keep_sramCe {p : State} {unit inst a : Nat} {s : State} (hk : Keep p s) :
    Keep p (sramCe unit inst a s) := by
  unfold sramCe
  try dsimp only
  repeat' first
    | with_reducible assumption | with_reducible exact Keep.refl _ | with_reducible apply keep_regBump
    | with_reducible apply keep_raiseLim | split

theorem keep_sramUe {p : State} {unit inst a : Nat} {i : Initiator} {s : State} (hk : Keep p s) :
    Keep p (sramUe unit inst a i s) := by
  unfold sramUe
  try dsimp only
  repeat' first
    | with_reducible assumption | with_reducible exact Keep.refl _ | with_reducible apply keep_regBump
    | with_reducible apply keep_raise | split

theorem keep_sramRead {p : State} {unit inst : Nat} {i : Initiator} {w : Nat} {s : State} (hk : Keep p s) :
    Keep p (sramRead unit inst i w s).2.2 := by
  unfold sramRead
  try dsimp only
  repeat' first
    | with_reducible assumption | with_reducible exact Keep.refl _ | with_reducible apply keep_sramCe
    | with_reducible apply keep_sramUe | split

theorem keep_cellWord {p : State} {i : Initiator} {w : Nat} {s : State} (hk : Keep p s) :
    Keep p (cellWord i w s).2 := by
  unfold cellWord
  try dsimp only
  repeat' first
    | with_reducible assumption | with_reducible exact Keep.refl _ | with_reducible apply keep_draw
    | with_reducible apply keep_sdramRead | with_reducible apply keep_reach | with_reducible apply keep_sramRead | split
    | with_reducible refine Keep.triple ‹_ = (_, _, _)› ?_

theorem keep_cellsRead {p : State} {i : Initiator} {y0 : List Nat} {y1 : State} (hk : Keep p y1) :
    Keep p (cellsRead i y0 y1).2 := by
  induction y0 generalizing y1 with
  | nil => unfold cellsRead; exact hk
  | cons b r ih =>
    unfold cellsRead
    try dsimp only
    repeat' first
      | with_reducible assumption | with_reducible exact Keep.refl _ | with_reducible apply ih
      | with_reducible apply keep_cellWord

theorem keep_readPacket {p : State} {i : Initiator} {h : Nat} {s : State} (hk : Keep p s) :
    Keep p (readPacket i h s).2 := by
  unfold readPacket
  exact keep_cellsRead hk

theorem keep_takePacket {p : State} {i : Initiator} {q : Nat} {s : State} (hk : Keep p s) :
    Keep p (takePacket i q s).2 := by
  unfold takePacket
  try dsimp only
  repeat' first
    | with_reducible assumption | with_reducible exact Keep.refl _ | with_reducible apply keep_dequeue
    | with_reducible apply keep_pktFree | with_reducible apply keep_readPacket | split
    | with_reducible refine Keep.pair ‹_ = (_, _)› ?_

theorem keep_bankDenied {p : State} {crew bank : Nat} {i : Initiator} {a : Nat} {s : State} (hk : Keep p s) :
    Keep p (bankDenied crew bank i a s) := by
  unfold bankDenied
  try dsimp only
  repeat' first
    | with_reducible assumption | with_reducible exact Keep.refl _ | with_reducible apply keep_raiseLim
    | with_reducible apply keep_regBump

theorem keep_spmRead {p : State} {i : Initiator} {code : Nat} {count : Bool} {w crew off : Nat} {s : State} (hk : Keep
    p s) :
    Keep p (spmRead i code count w crew off s).2.2 := by
  unfold spmRead
  try dsimp only
  repeat' first
    | with_reducible assumption | with_reducible exact Keep.refl _ | with_reducible apply keep_reach
    | with_reducible apply keep_sramRead | with_reducible apply keep_bankDenied | split
    | with_reducible refine Keep.pair ‹_ = (_, _)› ?_

theorem keep_readWord {p : State} {i : Initiator} {w : Nat} {s : State} (hk : Keep p s) :
    Keep p (readWord i w s).2.2 := by
  unfold readWord
  try dsimp only
  repeat' first
    | with_reducible assumption | with_reducible exact Keep.refl _ | with_reducible apply keep_reach
    | with_reducible apply keep_sdramRead | with_reducible apply keep_spmRead | with_reducible apply keep_sramRead
    | fail_if_no_progress with_reducible refine Keep.rec_of ?_ rfl rfl rfl | split
    | with_reducible refine Keep.pair ‹_ = (_, _)› ?_

theorem keep_readWords {p : State} {i : Initiator} {w y0 : Nat} {y1 : State} (hk : Keep p y1) :
    Keep p (readWords i w y0 y1).2.2.2 := by
  induction y0 generalizing i w y1 with
  | zero => unfold readWords; exact hk
  | succ n ih =>
    unfold readWords
    try dsimp only
    repeat' first
      | with_reducible assumption | with_reducible exact Keep.refl _ | with_reducible apply ih
      | with_reducible apply keep_readWord | split | with_reducible refine Keep.triple ‹_ = (_, _, _)› ?_

theorem keep_readBytes {p : State} {i : Initiator} {a n : Nat} {s : State} (hk : Keep p s) :
    Keep p (readBytes i a n s).2.2.2 := by
  unfold readBytes
  try dsimp only
  repeat' first
    | with_reducible assumption | with_reducible exact Keep.refl _ | with_reducible apply keep_readWords
    | split | with_reducible refine Keep.quad ‹_ = (_, _, _, _)› ?_

theorem keep_waitAt {p s0 s1 : State} (h0 : Keep p s0) : Keep p (waitAt s0 s1) := Keep.rec_of h0 rfl rfl rfl

theorem keep_armSlot {p : State} {t : Nat} {b : Bytes} {s : State} (hk : Keep p s) :
    Keep p (armSlot t b s) := by
  unfold armSlot
  try dsimp only
  repeat' first
    | with_reducible assumption | with_reducible exact Keep.refl _ | with_reducible apply keep_queuePut
    | with_reducible apply keep_slotPut | with_reducible apply keep_takeSeq | split

theorem keep_armRefused {p : State} {t reason : Nat} {s : State} (hk : Keep p s) :
    Keep p (armRefused t reason s) := by
  unfold armRefused
  try dsimp only
  repeat' first
    | with_reducible assumption | with_reducible exact Keep.refl _ | with_reducible apply keep_raise
    | with_reducible apply keep_shCount

theorem keep_armOp {p : State} {t : Nat} {s : State} (hk : Keep p s) :
    Keep p (armOp t s) := by
  unfold armOp
  try dsimp only
  repeat' first
    | with_reducible assumption | with_reducible exact Keep.refl _ | with_reducible apply keep_readBytes
    | with_reducible apply keep_waitAt | with_reducible apply keep_armSlot | with_reducible apply keep_armRefused
    | split

theorem keep_cntZeroAll {p : State} {p_ : Nat → Bool} {s : State} (hk : Keep p s) :
    Keep p (cntZeroAll p_ s) := by
  unfold cntZeroAll
  try dsimp only
  repeat' first
    | with_reducible assumption | with_reducible exact Keep.refl _
    | fail_if_no_progress with_reducible refine Keep.rec_of ?_ rfl rfl rfl

theorem keep_spmFlip {p : State} {crew off : Nat} {s : State} (hk : Keep p s) :
    Keep p (spmFlip crew off s).2 := by
  unfold spmFlip
  try dsimp only
  repeat' first
    | with_reducible assumption | with_reducible exact Keep.refl _ | with_reducible apply keep_regPut
    | with_reducible refine Keep.foldl ?_ ?_ | intro _ | split

theorem keep_spmStore {p : State} {crew off w : Nat} {b : Bytes} {s : State} (hk : Keep p s) :
    Keep p (spmStore crew off w b s) := by
  unfold spmStore
  try dsimp only
  repeat' first
    | with_reducible assumption | with_reducible exact Keep.refl _ | with_reducible apply keep_spmFlip
    | with_reducible apply keep_putErr | with_reducible apply keep_storeRaw

theorem keep_spmWrite {p : State} {i : Initiator} {code w crew off : Nat} {b : Bytes} {s : State} (hk : Keep p s) :
    Keep p (spmWrite i code w crew off b s).2 := by
  unfold spmWrite
  try dsimp only
  repeat' first
    | with_reducible assumption | with_reducible exact Keep.refl _ | with_reducible apply keep_reach
    | with_reducible apply keep_spmStore | with_reducible apply keep_bankDenied | split
    | with_reducible refine Keep.pair ‹_ = (_, _)› ?_

theorem keep_aliasStore {p : State} {i : Initiator} {set : Bool} {crew off : Nat} {bs : Bytes} {s : State} (hk : Keep p
    s) :
    Keep p (aliasStore i set crew off bs s).2 := by
  unfold aliasStore
  try dsimp only
  repeat' first
    | with_reducible assumption | with_reducible exact Keep.refl _ | with_reducible apply keep_reach
    | with_reducible apply keep_sramRead | with_reducible apply keep_spmStore | with_reducible apply keep_bankDenied
    | split | with_reducible refine Keep.pair ‹_ = (_, _)› ?_ | with_reducible refine Keep.triple ‹_ = (_, _, _)› ?_

theorem keep_writeWord {p : State} {i : Initiator} {w lo hi : Nat} {b : Bytes} {s : State} (hk : Keep p s) :
    Keep p (writeWord i w lo hi b s).2 := by
  unfold writeWord
  try dsimp only
  repeat' first
    | with_reducible assumption | with_reducible exact Keep.refl _ | with_reducible apply keep_reach
    | with_reducible apply keep_mergeWords | with_reducible apply keep_sdramStore | with_reducible apply keep_spmWrite
    | with_reducible apply keep_aliasStore | with_reducible apply keep_putErr | with_reducible apply keep_storeRaw
    | with_reducible apply keep_emit | split | with_reducible refine Keep.pair ‹_ = (_, _)› ?_

theorem keep_writeFrom {p : State} {i : Initiator} {lo hi w : Nat} {bs : Bytes} {y0 : Nat} {y1 : State} (hk : Keep p
    y1) :
    Keep p (writeFrom i lo hi w bs y0 y1).2.2 := by
  induction y0 generalizing i lo hi w bs y1 with
  | zero => unfold writeFrom; exact hk
  | succ n ih =>
    unfold writeFrom
    try dsimp only
    repeat' first
      | with_reducible assumption | with_reducible exact Keep.refl _ | with_reducible apply ih
      | with_reducible apply keep_writeWord | split | with_reducible refine Keep.pair ‹_ = (_, _)› ?_

theorem keep_writeBytes {p : State} {i : Initiator} {a : Nat} {bs : Bytes} {s : State} (hk : Keep p s) :
    Keep p (writeBytes i a bs s).2.2 := by
  unfold writeBytes
  try dsimp only
  repeat' first
    | with_reducible assumption | with_reducible exact Keep.refl _ | with_reducible apply keep_writeFrom
    | with_reducible apply keep_emit | split

theorem keep_runLong {p : State} {opcode : Nat} {r : Request} {pchk schk : Nat} {obj : Option Nat} {cancellable : Bool}
    {act : State → State} {s : State} (hk : Keep p s) (hf : ∀ t, Keep p t → Keep p (act t)) :
    Keep p (runLong opcode r pchk schk obj cancellable act s) := by
  unfold runLong
  try dsimp only
  repeat' first
    | with_reducible assumption | with_reducible exact Keep.refl _ | with_reducible apply hf
    | with_reducible apply keep_reply | fail_if_no_progress with_reducible refine Keep.rec_of ?_ rfl rfl rfl | split

theorem keep_noCells {p : State} {i : Initiator} {len : Nat} {s : State} (hk : Keep p s) :
    Keep p (noCells i len s) := by
  unfold noCells
  try dsimp only
  repeat' first
    | with_reducible assumption | with_reducible exact Keep.refl _ | with_reducible apply keep_raiseLim

theorem keep_unitSend {p : State} {who : Allocator} {q : Nat} {bs : Bytes} {i : Initiator} {s : State} (hk : Keep p s) :
    Keep p (unitSend who q bs i s).2 := by
  unfold unitSend
  try dsimp only
  repeat' first
    | with_reducible assumption | with_reducible exact Keep.refl _ | with_reducible apply keep_alloc
    | with_reducible apply keep_noCells | with_reducible apply keep_unitEnqueue | with_reducible apply keep_fillPacket
    | split | with_reducible refine Keep.pair ‹_ = (_, _)› ?_

theorem keep_objPut {p : State} {id : Nat} {o : Object} {s : State} (hk : Keep p s) :
    Keep p (objPut id o s) := by
  unfold objPut
  try dsimp only
  repeat' first
    | with_reducible assumption | with_reducible exact Keep.refl _
    | fail_if_no_progress with_reducible refine Keep.rec_of ?_ rfl rfl rfl

theorem keep_cntZero {p : State} {k : Nat} {s : State} (hk : Keep p s) :
    Keep p (cntZero k s) := by
  unfold cntZero
  try dsimp only
  repeat' first
    | with_reducible assumption | with_reducible exact Keep.refl _
    | fail_if_no_progress with_reducible refine Keep.rec_of ?_ rfl rfl rfl

theorem keep_ctxPut {p : State} {i : Initiator} {x : Ctx} {s : State} (hk : Keep p s) :
    Keep p (ctxPut i x s) := by
  unfold ctxPut
  try dsimp only
  repeat' first
    | with_reducible assumption | with_reducible exact Keep.refl _
    | fail_if_no_progress with_reducible refine Keep.rec_of ?_ rfl rfl rfl

theorem keep_ctxFlags {p : State} {i : Initiator} {bad noCell full idle : Bool} {s : State} (hk : Keep p s) :
    Keep p (ctxFlags i bad noCell full idle s) := by
  unfold ctxFlags
  try dsimp only
  repeat' first
    | with_reducible assumption | with_reducible exact Keep.refl _ | with_reducible apply keep_ctxPut

theorem keep_spoolEnqOp {p : State} {i : Initiator} {h : Nat} {s : State} (hk : Keep p s) :
    Keep p (spoolEnqOp i h s) := by
  unfold spoolEnqOp
  try dsimp only
  repeat' first
    | with_reducible assumption | with_reducible exact Keep.refl _ | with_reducible apply keep_enqueue
    | with_reducible apply keep_ctxPut | with_reducible apply keep_ctxFlags | split
    | with_reducible refine Keep.pair ‹_ = (_, _)› ?_

theorem keep_setCommitted {p : State} {v : Nat} {s : State} (hk : Keep p s) :
    Keep p (setCommitted v s) := by
  unfold setCommitted
  try dsimp only
  repeat' first
    | with_reducible assumption | with_reducible exact Keep.refl _ | with_reducible apply keep_regPutF

theorem keep_setFn {p : State} {id : Nat} {st : FnState} {s : State} (hk : Keep p s) :
    Keep p (setFn id st s) := by
  unfold setFn
  try dsimp only
  repeat' first
    | with_reducible assumption | with_reducible exact Keep.refl _ | with_reducible apply keep_objPut
    | split

theorem keep_releaseCost {p : State} {id : Nat} {s : State} (hk : Keep p s) :
    Keep p (releaseCost id s) := by
  unfold releaseCost
  try dsimp only
  repeat' first
    | with_reducible assumption | with_reducible exact Keep.refl _ | with_reducible apply keep_setCommitted
    | with_reducible apply keep_objPut | split

theorem keep_startFailed {p : State} {id status : Nat} {s : State} (hk : Keep p s) :
    Keep p (startFailed id status s) := by
  unfold startFailed
  try dsimp only
  repeat' first
    | with_reducible assumption | with_reducible exact Keep.refl _ | with_reducible apply keep_setFn
    | with_reducible apply keep_releaseCost | with_reducible apply keep_completeLong | with_reducible apply keep_objPut
    | split

theorem keep_reachRunning {p : State} {id : Nat} {s : State} (hk : Keep p s) :
    Keep p (reachRunning id s) := by
  unfold reachRunning
  try dsimp only
  repeat' first
    | with_reducible assumption | with_reducible exact Keep.refl _ | with_reducible apply keep_setFn
    | with_reducible apply keep_completeLong | with_reducible apply keep_objPut | split

theorem keep_scramble {p : State} {ok : State → Nat → Bool} {y0 : List Nat} {y1 : State} (hk : Keep p y1) :
    Keep p (scramble ok y0 y1) := by
  induction y0 generalizing ok y1 with
  | nil => unfold scramble; exact hk
  | cons b r ih =>
    unfold scramble
    try dsimp only
    repeat' first
      | with_reducible assumption | with_reducible exact Keep.refl _ | with_reducible apply ih
      | with_reducible apply keep_draw | with_reducible apply keep_putErr | with_reducible apply keep_storeRaw | split

theorem keep_answer {p : State} {v : Nat} {s : State} (hk : Keep p s) :
    Keep p (answer v s) := by
  unfold answer
  try dsimp only
  repeat' first
    | with_reducible assumption | with_reducible exact Keep.refl _
    | fail_if_no_progress with_reducible refine Keep.rec_of ?_ rfl rfl rfl

theorem keep_backlogIn {p : State} {s : State} (hk : Keep p s) :
    Keep p (backlogIn s) := by
  unfold backlogIn
  try dsimp only
  repeat' first
    | with_reducible assumption | with_reducible exact Keep.refl _ | with_reducible apply keep_fifoPut
    | with_reducible refine Keep.ite ?_ ?_ | with_reducible refine Keep.ite2 ?_ ?_
    | with_reducible refine Keep.ite3 ?_ ?_ | with_reducible refine KeepR.ite ?_ ?_
    | with_reducible refine KeepR.next ?_ | with_reducible refine Keep.foldl ?_ ?_
    | with_reducible refine Keep.foldl2 ?_ ?_ | with_reducible refine Keep.foldl3 ?_ ?_
    | with_reducible refine Keep.id ?_ | fail_if_no_progress with_reducible refine Keep.rec_of ?_ rfl rfl rfl | intro _
    | split

theorem keep_rplPopOp {p : State} {s : State} (hk : Keep p s) :
    Keep p (rplPopOp s) := by
  unfold rplPopOp
  try dsimp only
  repeat' first
    | with_reducible assumption | with_reducible exact Keep.refl _ | with_reducible apply keep_answer
    | with_reducible apply keep_backlogIn | fail_if_no_progress with_reducible refine Keep.rec_of ?_ rfl rfl rfl | split

theorem keep_spoolAllocOp {p : State} {i : Initiator} {s : State} (hk : Keep p s) :
    Keep p (spoolAllocOp i s) := by
  unfold spoolAllocOp
  try dsimp only
  repeat' first
    | with_reducible assumption | with_reducible exact Keep.refl _ | with_reducible apply keep_alloc
    | with_reducible apply keep_answer | with_reducible apply keep_ctxFlags | with_reducible apply keep_noCells | split
    | with_reducible refine Keep.pair ‹_ = (_, _)› ?_

theorem keep_spoolDeqOp {p : State} {i : Initiator} {s : State} (hk : Keep p s) :
    Keep p (spoolDeqOp i s) := by
  unfold spoolDeqOp
  try dsimp only
  repeat' first
    | with_reducible assumption | with_reducible exact Keep.refl _ | with_reducible apply keep_dequeue
    | with_reducible apply keep_ctxPut | with_reducible apply keep_answer | with_reducible apply keep_ctxFlags | split
    | with_reducible refine Keep.pair ‹_ = (_, _)› ?_

theorem keep_spoolNextOp {p : State} {i : Initiator} {s : State} (hk : Keep p s) :
    Keep p (spoolNextOp i s) := by
  unfold spoolNextOp
  try dsimp only
  repeat' first
    | with_reducible assumption | with_reducible exact Keep.refl _ | with_reducible apply keep_answer
    | with_reducible apply keep_ctxFlags | with_reducible apply keep_ctxPut | split

theorem keep_compatPut {p : State} {q : Nat} {x : CompatQ} {s : State} (hk : Keep p s) :
    Keep p (compatPut q x s) := by
  unfold compatPut
  try dsimp only
  repeat' first
    | with_reducible assumption | with_reducible exact Keep.refl _
    | fail_if_no_progress with_reducible refine Keep.rec_of ?_ rfl rfl rfl

theorem keep_compatCheck {p : State} {q : Nat} {s : State} (hk : Keep p s) :
    Keep p (compatCheck q s) := by
  unfold compatCheck
  try dsimp only
  repeat' first
    | with_reducible assumption | with_reducible exact Keep.refl _ | with_reducible apply keep_raise
    | with_reducible apply keep_compatPut | split

theorem keep_cqPopOp {p : State} {q : Nat} {s : State} (hk : Keep p s) :
    Keep p (cqPopOp q s) := by
  unfold cqPopOp
  try dsimp only
  repeat' first
    | with_reducible assumption | with_reducible exact Keep.refl _ | with_reducible apply keep_compatCheck
    | with_reducible apply keep_answer | with_reducible apply keep_compatPut | split

theorem keep_doorbellOp {p : State} {len : Nat} {s : State} (hk : Keep p s) :
    Keep p (doorbellOp len s) := by
  unfold doorbellOp
  try dsimp only
  repeat' first
    | with_reducible assumption | with_reducible exact Keep.refl _ | with_reducible apply keep_regPutF
    | fail_if_no_progress with_reducible refine Keep.rec_of ?_ rfl rfl rfl | split

theorem keep_flushOp {p : State} {t : Transport} {s : State} (hk : Keep p s) :
    Keep p (flushOp t s) := by
  unfold flushOp
  try dsimp only
  repeat' first
    | with_reducible assumption | with_reducible exact Keep.refl _
    | fail_if_no_progress with_reducible refine Keep.rec_of ?_ rfl rfl rfl

theorem keep_spoolFreeOp {p : State} {i : Initiator} {h : Nat} {s : State} (hk : Keep p s) :
    Keep p (spoolFreeOp i h s) := by
  unfold spoolFreeOp
  try dsimp only
  repeat' first
    | with_reducible assumption | with_reducible exact Keep.refl _ | with_reducible apply keep_ctxFlags
    | with_reducible apply keep_pktFree | with_reducible apply keep_badHandle | split

theorem keep_cqEnableOp {p : State} {q : Nat} {en : Bool} {held : Nat} {s : State} (hk : Keep p s) :
    Keep p (cqEnableOp q en held s) := by
  unfold cqEnableOp
  try dsimp only
  repeat' first
    | with_reducible assumption | with_reducible exact Keep.refl _ | with_reducible apply keep_compatPut
    | split

theorem keep_cqPushOp {p : State} {q : Nat} {w3 : W32} {s : State} (hk : Keep p s) :
    Keep p (cqPushOp q w3 s) := by
  unfold cqPushOp
  try dsimp only
  repeat' first
    | with_reducible assumption | with_reducible exact Keep.refl _ | with_reducible apply keep_compatCheck
    | with_reducible apply keep_compatPut | split

theorem keep_reachStopped {p : State} {id : Nat} {s : State} (hk : Keep p s) :
    Keep p (reachStopped id s) := by
  unfold reachStopped
  try dsimp only
  repeat' first
    | with_reducible assumption | with_reducible exact Keep.refl _ | with_reducible apply keep_setFn
    | with_reducible apply keep_releaseCost | with_reducible apply keep_completeLong | with_reducible apply keep_objPut
    | split

theorem keep_echoOp {p : State} {r : Request} {s : State} (hk : Keep p s) :
    Keep p (echoOp r s) := by
  unfold echoOp
  try dsimp only
  repeat' first
    | with_reducible assumption | with_reducible exact Keep.refl _ | with_reducible apply keep_runCmd
    | intro _

theorem keep_uartOp {p : State} {bs : Bytes} {s : State} (hk : Keep p s) :
    Keep p (uartOp bs s) := by
  unfold uartOp
  try dsimp only
  repeat' first
    | with_reducible assumption | with_reducible exact Keep.refl _ | with_reducible apply keep_regBump
    | fail_if_no_progress with_reducible refine Keep.rec_of ?_ rfl rfl rfl | split

theorem keep_capsOp {p : State} {r : Request} {s : State} (hk : Keep p s) :
    Keep p (capsOp r s) := by
  unfold capsOp
  try dsimp only
  repeat' first
    | with_reducible assumption | with_reducible exact Keep.refl _ | with_reducible apply keep_runCmd
    | intro _

theorem keep_cmdQueryOp {p : State} {r : Request} {s : State} (hk : Keep p s) :
    Keep p (cmdQueryOp r s) := by
  unfold cmdQueryOp
  try dsimp only
  repeat' first
    | with_reducible assumption | with_reducible exact Keep.refl _ | with_reducible apply keep_runCmd
    | intro _
    | split

theorem keep_drainPending {p : State} {t y0 : Nat} {y1 : State} (hk : Keep p y1) :
    Keep p (drainPending t y0 y1) := by
  induction y0 generalizing t y1 with
  | zero => unfold drainPending; exact hk
  | succ n ih =>
    unfold drainPending
    try dsimp only
    repeat' first
      | with_reducible assumption | with_reducible exact Keep.refl _ | with_reducible apply ih
      | with_reducible apply keep_createInstance | with_reducible apply keep_slotPut | split

theorem keep_readyOp {p : State} {t : Nat} {s : State} (hk : Keep p s) :
    Keep p (readyOp t s) := by
  unfold readyOp
  try dsimp only
  repeat' first
    | with_reducible assumption | with_reducible exact Keep.refl _ | with_reducible apply keep_cancelWork
    | with_reducible apply keep_becomeReady | split

theorem keep_datagramOp {p : State} {source : Nat} {bs : Bytes} {s : State} (hk : Keep p s) :
    Keep p (datagramOp source bs s) := by
  unfold datagramOp
  try dsimp only
  repeat' first
    | with_reducible assumption | with_reducible exact Keep.refl _ | with_reducible apply keep_regBump
    | fail_if_no_progress with_reducible refine Keep.rec_of ?_ rfl rfl rfl | split

end Sys2Proof.Machine
end

