-- ==== Sys2Proof/Laws/KeepCpu.lean ====
section
/-!
SUPPORT. What commands keep (part, queue, canonical memory): instructions that access no memory, and the vector
    coprocessor rows.
-/
namespace Sys2Proof.Machine
open Sys2Proof

theorem keep_corePut {p : State} {c : Nat} {x : Core} {s : State} (hk : Keep p s) :
    Keep p (corePut c x s) := by
  unfold corePut
  try dsimp only
  repeat' first
    | with_reducible assumption | with_reducible exact Keep.refl _
    | fail_if_no_progress with_reducible refine Keep.rec_of ?_ rfl rfl rfl

theorem keep_setLines {p : State} {c : Nat} {ls : List Line} {s : State} (hk : Keep p s) :
    Keep p (setLines c ls s) := by
  unfold setLines
  try dsimp only
  repeat' first
    | with_reducible assumption | with_reducible exact Keep.refl _ | with_reducible apply keep_corePut

theorem keep_invalLine {p : State} {c a : Nat} {s : State} (hk : Keep p s) :
    Keep p (invalLine c a s) := by
  unfold invalLine
  try dsimp only
  repeat' first
    | with_reducible assumption | with_reducible exact Keep.refl _ | with_reducible apply keep_setLines

theorem keep_wakeWfi {p : State} {c : Nat} {s : State} (hk : Keep p s) :
    Keep p (wakeWfi c s) := by
  unfold wakeWfi
  try dsimp only
  repeat' first
    | with_reducible assumption | with_reducible exact Keep.refl _
    | with_reducible apply keep_wakeRequestBase | with_reducible apply keep_corePut | split

theorem keep_cacheLost {p : State} {c a : Nat} {s : State} (hk : Keep p s) :
    Keep p (cacheLost c a s) := by
  unfold cacheLost
  try dsimp only
  repeat' first
    | with_reducible assumption | with_reducible exact Keep.refl _ | with_reducible apply keep_raise
    | with_reducible apply keep_wakeWfi | with_reducible apply keep_corePut

theorem keep_storeErrorOp {p : State} {c a : Nat} {s : State} (hk : Keep p s) :
    Keep p (storeErrorOp c a s) := by
  unfold storeErrorOp
  try dsimp only
  repeat' first
    | with_reducible assumption | with_reducible exact Keep.refl _ | with_reducible apply keep_wakeWfi
    | with_reducible apply keep_corePut

theorem keep_writeLine {p : State} {c a : Nat} {bs : Bytes} {s : State} (hk : Keep p s) :
    Keep p (writeLine c a bs s).2 := by
  unfold writeLine
  try dsimp only
  repeat' first
    | with_reducible assumption | with_reducible exact Keep.refl _ | with_reducible apply keep_writeBytes
    | with_reducible apply keep_waitAt | with_reducible apply keep_storeErrorOp | with_reducible refine Keep.ite ?_ ?_
    | with_reducible refine Keep.ite2 ?_ ?_ | with_reducible refine Keep.ite3 ?_ ?_
    | with_reducible refine KeepR.ite ?_ ?_ | with_reducible refine KeepR.next ?_
    | with_reducible refine Keep.foldl ?_ ?_ | with_reducible refine Keep.foldl2 ?_ ?_
    | with_reducible refine Keep.foldl3 ?_ ?_ | with_reducible refine Keep.id ?_
    | fail_if_no_progress with_reducible refine Keep.rec_of ?_ rfl rfl rfl | intro _ | split
    | with_reducible refine Keep.pair ‹_ = (_, _)› ?_ | with_reducible refine Keep.triple ‹_ = (_, _, _)› ?_

theorem keep_startWrites {p : State} {c : Nat} {y0 : List (Nat × Bytes)} {y1 : State} (hk : Keep p y1) :
    Keep p (startWrites c y0 y1) := by
  induction y0 generalizing c y1 with
  | nil => unfold startWrites; exact hk
  | cons b r ih =>
    unfold startWrites
    try dsimp only
    repeat' first
      | with_reducible assumption | with_reducible exact Keep.refl _ | with_reducible apply ih
      | with_reducible apply keep_writeLine | with_reducible apply keep_corePut | with_reducible refine Keep.ite ?_ ?_
      | with_reducible refine Keep.ite2 ?_ ?_ | with_reducible refine Keep.ite3 ?_ ?_
      | with_reducible refine KeepR.ite ?_ ?_ | with_reducible refine KeepR.next ?_
      | with_reducible refine Keep.foldl ?_ ?_ | with_reducible refine Keep.foldl2 ?_ ?_
      | with_reducible refine Keep.foldl3 ?_ ?_ | with_reducible refine Keep.id ?_
      | fail_if_no_progress with_reducible refine Keep.rec_of ?_ rfl rfl rfl | intro _ | split
      | with_reducible refine Keep.pair ‹_ = (_, _)› ?_

theorem keep_lineCorrect {p : State} {c : Nat} {l : Line} {s : State} (hk : Keep p s) :
    Keep p (lineCorrect c l s) := by
  unfold lineCorrect
  try dsimp only
  repeat' first
    | with_reducible assumption | with_reducible exact Keep.refl _ | with_reducible apply keep_sramCe
    | with_reducible refine Keep.ite ?_ ?_

theorem keep_writeBack {p : State} {c : Nat} {l : Line} {s : State} (hk : Keep p s) :
    Keep p (writeBack c l s) := by
  unfold writeBack
  try dsimp only
  repeat' first
    | with_reducible assumption | with_reducible exact Keep.refl _ | with_reducible apply keep_cacheLost
    | with_reducible apply keep_corePut | with_reducible apply keep_startWrites | with_reducible apply keep_lineCorrect
    | split

theorem keep_cleanLine {p : State} {c a : Nat} {s : State} (hk : Keep p s) :
    Keep p (cleanLine c a s) := by
  unfold cleanLine
  try dsimp only
  repeat' first
    | with_reducible assumption | with_reducible exact Keep.refl _ | with_reducible apply keep_writeBack
    | with_reducible apply keep_setLines | split

theorem keep_flushLine {p : State} {c a : Nat} {s : State} (hk : Keep p s) :
    Keep p (flushLine c a s) := by
  unfold flushLine
  try dsimp only
  repeat' first
    | with_reducible assumption | with_reducible exact Keep.refl _ | with_reducible apply keep_invalLine
    | with_reducible apply keep_cleanLine

theorem keep_flushAll {p : State} {c : Nat} {s : State} (hk : Keep p s) :
    Keep p (flushAll c s) := by
  unfold flushAll
  try dsimp only
  repeat' first
    | with_reducible assumption | with_reducible exact Keep.refl _ | with_reducible apply keep_flushLine
    | with_reducible refine Keep.foldl ?_ ?_ | intro _

theorem keep_drainWrites {p : State} {c : Nat} {s : State} (hk : Keep p s) :
    Keep p (drainWrites c s) := by
  unfold drainWrites
  try dsimp only
  repeat' first
    | with_reducible assumption | with_reducible exact Keep.refl _ | with_reducible apply keep_startWrites
    | with_reducible apply keep_corePut | with_reducible refine Keep.ite ?_ ?_

theorem keep_resetFlush {p : State} {c : Nat} {s : State} (hk : Keep p s) :
    Keep p (resetFlush c s) := by
  unfold resetFlush
  try dsimp only
  repeat' first
    | with_reducible assumption | with_reducible exact Keep.refl _ | with_reducible apply keep_flushAll
    | with_reducible apply keep_drainWrites

theorem keep_startCore {p : State} {c : Nat} {s : State} (hk : Keep p s) :
    Keep p (startCore c s) := by
  unfold startCore
  try dsimp only
  repeat' first
    | with_reducible assumption | with_reducible exact Keep.refl _ | with_reducible apply keep_corePut

theorem keep_dropCommands {p : State} {c : Nat} {s : State} (hk : Keep p s) :
    Keep p (dropCommands c s) := by
  unfold dropCommands
  try dsimp only
  repeat' first
    | with_reducible assumption | with_reducible exact Keep.refl _ | with_reducible refine Keep.foldl ?_ ?_
    | fail_if_no_progress with_reducible refine Keep.rec_of ?_ rfl rfl rfl | intro _

theorem keep_failHeld {p : State} {c : Nat} {watchdog : Bool} {s : State} (hk : Keep p s) :
    Keep p (failHeld c watchdog s) := by
  unfold failHeld
  try dsimp only
  repeat' first
    | with_reducible assumption | with_reducible exact Keep.refl _ | with_reducible apply keep_completeWork
    | with_reducible apply keep_shCountCrew | fail_if_no_progress with_reducible refine Keep.rec_of ?_ rfl rfl rfl
    | split

theorem keep_unstage {p : State} {c : Nat} {s : State} (hk : Keep p s) :
    Keep p (unstage c s) := by
  unfold unstage
  try dsimp only
  repeat' first
    | with_reducible assumption | with_reducible exact Keep.refl _ | with_reducible apply keep_slotPut
    | fail_if_no_progress with_reducible refine Keep.rec_of ?_ rfl rfl rfl | split

theorem keep_coreResetOp {p : State} {c : Nat} {watchdog : Bool} {ev : State → State} {s : State} (hk : Keep p s) (hf :
    ∀ t, Keep p t → Keep p (ev t)) :
    Keep p (coreResetOp c watchdog ev s) := by
  unfold coreResetOp
  try dsimp only
  repeat' first
    | with_reducible assumption | with_reducible exact Keep.refl _ | with_reducible apply hf
    | with_reducible apply keep_resetFlush | with_reducible apply keep_startCore
    | with_reducible apply keep_dropCommands | with_reducible apply keep_failHeld | with_reducible apply keep_unstage
    | split

theorem keep_exception {p : State} {c code eaddr : Nat} {s : State} (hk : Keep p s) :
    Keep p (exception c code eaddr s) := by
  unfold exception
  try dsimp only
  repeat' first
    | with_reducible assumption | with_reducible exact Keep.refl _ | with_reducible apply keep_coreResetOp
    | with_reducible apply keep_raise | with_reducible apply keep_corePut | split

theorem keep_beginInstr {p : State} {c : Nat} {s : State} (hk : Keep p s) :
    Keep p (beginInstr c s) := by
  unfold beginInstr
  try dsimp only
  repeat' first
    | with_reducible assumption | with_reducible exact Keep.refl _ | with_reducible apply keep_corePut
    | split

theorem keep_endInstr {p : State} {c : Nat} {before : Core} {s : State} (hk : Keep p s) :
    Keep p (endInstr c before s) := by
  unfold endInstr
  try dsimp only
  repeat' first
    | with_reducible assumption | with_reducible exact Keep.refl _ | with_reducible apply keep_corePut
    | split

theorem keep_onCoreR {p : State} {c : Fin 96} {f : Bool → Core → State → Bool × State} {s : State} (hk : Keep p s) (hf
    : ∀ b x t, Keep p t → Keep p (f b x t).2) :
    KeepR p (onCoreR c f s) := by
  unfold onCoreR
  try dsimp only
  repeat' first
    | with_reducible assumption | with_reducible exact Keep.refl _ | with_reducible apply hf
    | with_reducible apply keep_done | with_reducible apply keep_exception | with_reducible apply keep_beginInstr
    | with_reducible apply keep_endInstr | with_reducible apply keep_corePut | split
    | with_reducible refine Keep.pair ‹_ = (_, _)› ?_

theorem keep_onCore {p : State} {c : Fin 96} {f : Core → State → State} {s : State} (hk : Keep p s) (hf : ∀ x t, Keep p
    t → Keep p (f x t)) :
    KeepR p (onCore c f s) := by
  unfold onCore
  try dsimp only
  repeat' first
    | with_reducible assumption | with_reducible exact Keep.refl _ | with_reducible apply hf
    | with_reducible apply keep_onCoreR | intro _

theorem keep_copPut {p : State} {crew engine : Nat} {q : List CopCmd} {s : State} (hk : Keep p s) :
    Keep p (copPut crew engine q s) := by
  unfold copPut
  try dsimp only
  repeat' first
    | with_reducible assumption | with_reducible exact Keep.refl _
    | fail_if_no_progress with_reducible refine Keep.rec_of ?_ rfl rfl rfl

theorem keep_squash {p : State} {c : Nat} {a : BitVec 48} {s : State} (hk : Keep p s) :
    Keep p (squash c a s) := by
  unfold squash
  try dsimp only
  repeat' first
    | with_reducible assumption | with_reducible exact Keep.refl _ | with_reducible apply keep_draw
    | with_reducible apply keep_corePut | with_reducible apply keep_copPut | with_reducible refine Keep.ite ?_ ?_
    | with_reducible refine Keep.ite2 ?_ ?_ | with_reducible refine Keep.ite3 ?_ ?_
    | with_reducible refine KeepR.ite ?_ ?_ | with_reducible refine KeepR.next ?_
    | with_reducible refine Keep.foldl ?_ ?_ | with_reducible refine Keep.foldl2 ?_ ?_
    | with_reducible refine Keep.foldl3 ?_ ?_ | with_reducible refine Keep.id ?_
    | fail_if_no_progress with_reducible refine Keep.rec_of ?_ rfl rfl rfl | intro _ | split

theorem keep_branchTo {p : State} {c : Nat} {taken : Bool} {target : BitVec 48} {s : State} (hk : Keep p s) :
    Keep p (branchTo c taken target s) := by
  unfold branchTo
  try dsimp only
  repeat' first
    | with_reducible assumption | with_reducible exact Keep.refl _ | with_reducible apply keep_squash
    | with_reducible apply keep_corePut

theorem keep_execCpb {p : State} {c : Fin 96} {tag cond : Fin 32} {imm : BitVec 16} {s : State} (hk : Keep p s) :
    KeepR p (execCpb c tag cond imm s) := by
  unfold execCpb
  try dsimp only
  repeat' first
    | with_reducible assumption | with_reducible exact Keep.refl _ | with_reducible apply keep_onCore
    | with_reducible apply keep_exception | with_reducible apply keep_branchTo | intro _ | split

theorem keep_writeS {p : State} {c : Nat} {rd : Fin 32} {v : Word} {s : State} (hk : Keep p s) :
    Keep p (writeS c rd v s) := by
  unfold writeS
  try dsimp only
  repeat' first
    | with_reducible assumption | with_reducible exact Keep.refl _ | with_reducible apply keep_corePut

theorem keep_alu2 {p : State} {c : Fin 96} {rd rs1 rs2 : Fin 32} {f : Word → Word → Word} {s : State} (hk : Keep p s) :
    KeepR p (alu2 c rd rs1 rs2 f s) := by
  unfold alu2
  try dsimp only
  repeat' first
    | with_reducible assumption | with_reducible exact Keep.refl _ | with_reducible apply keep_onCore
    | with_reducible apply keep_writeS | intro _

theorem keep_execXorOp {p : State} {c : Fin 96} {rd rs1 rs2 : Fin 32} {s : State} (hk : Keep p s) :
    KeepR p (execXorOp c rd rs1 rs2 s) := by
  unfold execXorOp
  try dsimp only
  repeat' first
    | with_reducible assumption | with_reducible exact Keep.refl _ | with_reducible apply keep_alu2

theorem keep_execSltu {p : State} {c : Fin 96} {rd rs1 rs2 : Fin 32} {s : State} (hk : Keep p s) :
    KeepR p (execSltu c rd rs1 rs2 s) := by
  unfold execSltu
  try dsimp only
  repeat' first
    | with_reducible assumption | with_reducible exact Keep.refl _ | with_reducible apply keep_alu2

theorem keep_cleanAll {p : State} {c : Nat} {s : State} (hk : Keep p s) :
    Keep p (cleanAll c s) := by
  unfold cleanAll
  try dsimp only
  repeat' first
    | with_reducible assumption | with_reducible exact Keep.refl _ | with_reducible apply keep_cleanLine
    | with_reducible refine Keep.foldl ?_ ?_ | intro _

theorem keep_markWaiters {p : State} {d : CopCmd} {s : State} (hk : Keep p s) :
    Keep p (markWaiters d s) := by
  unfold markWaiters
  try dsimp only
  repeat' first
    | with_reducible assumption | with_reducible exact Keep.refl _ | with_reducible apply keep_corePut
    | with_reducible refine Keep.ite ?_ ?_ | with_reducible refine Keep.ite2 ?_ ?_
    | with_reducible refine Keep.ite3 ?_ ?_ | with_reducible refine KeepR.ite ?_ ?_
    | with_reducible refine KeepR.next ?_ | with_reducible refine Keep.foldl ?_ ?_
    | with_reducible refine Keep.foldl2 ?_ ?_ | with_reducible refine Keep.foldl3 ?_ ?_
    | with_reducible refine Keep.id ?_ | fail_if_no_progress with_reducible refine Keep.rec_of ?_ rfl rfl rfl

theorem keep_endCommand {p : State} {d : CopCmd} {result status : Nat} {s : State} (hk : Keep p s) :
    Keep p (endCommand d result status s) := by
  unfold endCommand
  try dsimp only
  repeat' first
    | with_reducible assumption | with_reducible exact Keep.refl _ | with_reducible apply keep_markWaiters
    | with_reducible apply keep_wakeWfi | with_reducible apply keep_corePut | split

theorem keep_copRead {p : State} {c : Nat} {count : Bool} {a y0 : Nat} {y1 : State} (hk : Keep p y1) :
    Keep p (copRead c count a y0 y1).2.2 := by
  induction y0 generalizing c count a y1 with
  | zero => unfold copRead; exact hk
  | succ n ih =>
    unfold copRead
    try dsimp only
    repeat' first
      | with_reducible assumption | with_reducible exact Keep.refl _ | with_reducible apply ih
      | with_reducible apply keep_spmRead | split | with_reducible refine Keep.triple ‹_ = (_, _, _)› ?_

theorem keep_copReadAll {p : State} {c : Nat} {count : Bool} {y0 : List (Nat × Nat)} {y1 : State} (hk : Keep p y1) :
    Keep p (copReadAll c count y0 y1).2.2 := by
  induction y0 generalizing c count y1 with
  | nil => unfold copReadAll; exact hk
  | cons b r ih =>
    unfold copReadAll
    try dsimp only
    repeat' first
      | with_reducible assumption | with_reducible exact Keep.refl _ | with_reducible apply ih
      | with_reducible apply keep_copRead | split | with_reducible refine Keep.triple ‹_ = (_, _, _)› ?_

theorem keep_copFail {p : State} {crew engine : Nat} {d : CopCmd} {q : List CopCmd} {lost : Option Nat} {st : Nat} {s :
    State} (hk : Keep p s) :
    Keep p (copFail crew engine d q lost st s) := by
  unfold copFail
  try dsimp only
  repeat' first
    | with_reducible assumption | with_reducible exact Keep.refl _ | with_reducible apply keep_endCommand
    | with_reducible apply keep_copPut | with_reducible apply keep_scramble

theorem keep_copWrite {p : State} {c port : Nat} {coll : Option Nat} {a : Nat} {bs : Bytes} {y0 : Nat} {y1 : State} (hk
    : Keep p y1) :
    Keep p (copWrite c port coll a bs y0 y1).2 := by
  induction y0 generalizing c port coll a bs y1 with
  | zero => unfold copWrite; exact hk
  | succ n ih =>
    unfold copWrite
    try dsimp only
    repeat' first
      | with_reducible assumption | with_reducible exact Keep.refl _ | with_reducible apply ih
      | with_reducible apply keep_raiseLim | with_reducible apply keep_regBump | with_reducible apply keep_spmWrite
      | split | with_reducible refine Keep.pair ‹_ = (_, _)› ?_

theorem keep_copWriteAll {p : State} {c port : Nat} {coll : Option Nat} {y0 : List (Nat × Nat)} {y1 : Bytes} {y2 :
    State} (hk : Keep p y2) :
    Keep p (copWriteAll c port coll y0 y1 y2).2 := by
  induction y0 generalizing c port coll y1 y2 with
  | nil => unfold copWriteAll; exact hk
  | cons b r ih =>
    unfold copWriteAll
    try dsimp only
    repeat' first
      | with_reducible assumption | with_reducible exact Keep.refl _ | with_reducible apply ih
      | with_reducible apply keep_copWrite | split | with_reducible refine Keep.pair ‹_ = (_, _)› ?_

theorem keep_runCop {p : State} {crew engine cmd : Nat} {coll : Option Nat} {mem : Bool} {result : Bytes → Bytes → Nat}
    {s : State} (hk : Keep p s) :
    Keep p (runCop crew engine cmd coll mem result s) := by
  unfold runCop
  try dsimp only
  repeat' first
    | with_reducible assumption | with_reducible exact Keep.refl _ | with_reducible apply keep_endCommand
    | with_reducible apply keep_copPut | with_reducible apply keep_copReadAll | with_reducible apply keep_waitAt
    | with_reducible apply keep_copFail | with_reducible apply keep_copWriteAll | split
    | with_reducible refine Keep.pair ‹_ = (_, _)› ?_ | with_reducible refine Keep.triple ‹_ = (_, _, _)› ?_

theorem keep_execIdft {p : State} {crew : Fin 12} {engine : Fin 2} {coll : Option (BitVec 48)} {s : State} (hk : Keep p
    s) :
    KeepR p (execIdft crew engine coll s) := by
  unfold execIdft
  try dsimp only
  repeat' first
    | with_reducible assumption | with_reducible exact Keep.refl _ | with_reducible apply keep_done
    | with_reducible apply keep_runCop

theorem keep_evict {p : State} {c a : Nat} {s : State} (hk : Keep p s) :
    Keep p (evict c a s) := by
  unfold evict
  try dsimp only
  repeat' first
    | with_reducible assumption | with_reducible exact Keep.refl _ | with_reducible apply keep_draw
    | with_reducible apply keep_flushLine | split

theorem keep_fillLine {p : State} {c a : Nat} {s : State} (hk : Keep p s) :
    Keep p (fillLine c a s).2 := by
  unfold fillLine
  try dsimp only
  repeat' first
    | with_reducible assumption | with_reducible exact Keep.refl _ | with_reducible apply keep_readBytes
    | with_reducible apply keep_invalLine | with_reducible apply keep_setLines | with_reducible apply keep_lineCorrect
    | with_reducible apply keep_evict | split | with_reducible refine Keep.quad ‹_ = (_, _, _, _)› ?_

theorem keep_execDft {p : State} {crew : Fin 12} {engine : Fin 2} {coll : Option (BitVec 48)} {s : State} (hk : Keep p
    s) :
    KeepR p (execDft crew engine coll s) := by
  unfold execDft
  try dsimp only
  repeat' first
    | with_reducible assumption | with_reducible exact Keep.refl _ | with_reducible apply keep_done
    | with_reducible apply keep_runCop

theorem keep_drainCrew {p : State} {n : Nat} {s : State} (hk : Keep p s) :
    Keep p (drainCrew n s) := by
  unfold drainCrew
  try dsimp only
  repeat' first
    | with_reducible assumption | with_reducible exact Keep.refl _ | with_reducible apply keep_drainWrites
    | with_reducible refine Keep.ite ?_ ?_ | with_reducible refine Keep.ite2 ?_ ?_
    | with_reducible refine Keep.ite3 ?_ ?_ | with_reducible refine KeepR.ite ?_ ?_
    | with_reducible refine KeepR.next ?_ | with_reducible refine Keep.foldl ?_ ?_
    | with_reducible refine Keep.foldl2 ?_ ?_ | with_reducible refine Keep.foldl3 ?_ ?_
    | with_reducible refine Keep.id ?_ | fail_if_no_progress with_reducible refine Keep.rec_of ?_ rfl rfl rfl | intro _

theorem keep_vArith {p : State} {c : Fin 96} {f : VArith} {types : Nat → Bool} {kind : VKind} {shift : Bool} {op :
    Shape → Nat → Nat → Nat → Nat × Nat} {s : State} (hk : Keep p s) :
    KeepR p (vArith c f types kind shift op s) := by
  unfold vArith
  try dsimp only
  repeat' first
    | with_reducible assumption | with_reducible exact Keep.refl _ | with_reducible apply keep_onCore
    | with_reducible apply keep_exception | with_reducible apply keep_corePut | intro _ | split

theorem keep_execVmax {p : State} {c : Fin 96} {f : VArith} {s : State} (hk : Keep p s) :
    KeepR p (execVmax c f s) := by
  unfold execVmax
  try dsimp only
  repeat' first
    | with_reducible assumption | with_reducible exact Keep.refl _ | with_reducible apply keep_vArith

theorem keep_lineStore {p : State} {c a : Nat} {bs : Bytes} {s : State} (hk : Keep p s) :
    Keep p (lineStore c a bs s) := by
  unfold lineStore
  try dsimp only
  repeat' first
    | with_reducible assumption | with_reducible exact Keep.refl _ | with_reducible apply keep_setLines

theorem keep_branch {p : State} {c : Fin 96} {rs1 rs2 : Fin 32} {imm : BitVec 16} {p_ : Word → Word → Bool} {s : State}
    (hk : Keep p s) :
    KeepR p (branch c rs1 rs2 imm p_ s) := by
  unfold branch
  try dsimp only
  repeat' first
    | with_reducible assumption | with_reducible exact Keep.refl _ | with_reducible apply keep_onCore
    | with_reducible apply keep_branchTo | intro _

theorem keep_execBne {p : State} {c : Fin 96} {rs1 rs2 : Fin 32} {imm : BitVec 16} {s : State} (hk : Keep p s) :
    KeepR p (execBne c rs1 rs2 imm s) := by
  unfold execBne
  try dsimp only
  repeat' first
    | with_reducible assumption | with_reducible exact Keep.refl _ | with_reducible apply keep_branch

theorem keep_execVfmin {p : State} {c : Fin 96} {f : VArith} {s : State} (hk : Keep p s) :
    KeepR p (execVfmin c f s) := by
  unfold execVfmin
  try dsimp only
  repeat' first
    | with_reducible assumption | with_reducible exact Keep.refl _ | with_reducible apply keep_vArith

theorem keep_cpissOp {p : State} {c tag unit q : Nat} {x : Core} {s : State} (hk : Keep p s) :
    Keep p (cpissOp c tag unit q x s).2 := by
  unfold cpissOp
  try dsimp only
  repeat' first
    | with_reducible assumption | with_reducible exact Keep.refl _ | with_reducible apply keep_exception
    | with_reducible apply keep_corePut | with_reducible apply keep_copPut | split

theorem keep_execVsll {p : State} {c : Fin 96} {f : VArith} {s : State} (hk : Keep p s) :
    KeepR p (execVsll c f s) := by
  unfold execVsll
  try dsimp only
  repeat' first
    | with_reducible assumption | with_reducible exact Keep.refl _ | with_reducible apply keep_vArith

theorem keep_execSll {p : State} {c : Fin 96} {rd rs1 rs2 : Fin 32} {s : State} (hk : Keep p s) :
    KeepR p (execSll c rd rs1 rs2 s) := by
  unfold execSll
  try dsimp only
  repeat' first
    | with_reducible assumption | with_reducible exact Keep.refl _ | with_reducible apply keep_alu2

theorem keep_execVfmax {p : State} {c : Fin 96} {f : VArith} {s : State} (hk : Keep p s) :
    KeepR p (execVfmax c f s) := by
  unfold execVfmax
  try dsimp only
  repeat' first
    | with_reducible assumption | with_reducible exact Keep.refl _ | with_reducible apply keep_vArith

theorem keep_execVnsras {p : State} {c : Fin 96} {f : VArith} {s : State} (hk : Keep p s) :
    KeepR p (execVnsras c f s) := by
  unfold execVnsras
  try dsimp only
  repeat' first
    | with_reducible assumption | with_reducible exact Keep.refl _ | with_reducible apply keep_vArith

theorem keep_execVmclr {p : State} {c : Fin 96} {md : Fin 8} {s : State} (hk : Keep p s) :
    KeepR p (execVmclr c md s) := by
  unfold execVmclr
  try dsimp only
  repeat' first
    | with_reducible assumption | with_reducible exact Keep.refl _ | with_reducible apply keep_onCore
    | with_reducible apply keep_corePut | intro _

theorem keep_execVmset {p : State} {c : Fin 96} {md : Fin 8} {s : State} (hk : Keep p s) :
    KeepR p (execVmset c md s) := by
  unfold execVmset
  try dsimp only
  repeat' first
    | with_reducible assumption | with_reducible exact Keep.refl _ | with_reducible apply keep_onCore
    | with_reducible apply keep_corePut | intro _

theorem keep_execMimoDet {p : State} {crew : Fin 12} {engine : Fin 2} {coll : Option (BitVec 48)} {s : State} (hk :
    Keep p s) :
    KeepR p (execMimoDet crew engine coll s) := by
  unfold execMimoDet
  try dsimp only
  repeat' first
    | with_reducible assumption | with_reducible exact Keep.refl _ | with_reducible apply keep_done
    | with_reducible apply keep_runCop

theorem keep_execVset {p : State} {c : Fin 96} {rd rs1 : Fin 32} {shape : BitVec 8} {s : State} (hk : Keep p s) :
    KeepR p (execVset c rd rs1 shape s) := by
  unfold execVset
  try dsimp only
  repeat' first
    | with_reducible assumption | with_reducible exact Keep.refl _ | with_reducible apply keep_onCore
    | with_reducible apply keep_exception | with_reducible apply keep_corePut | intro _ | split

theorem keep_execVadd {p : State} {c : Fin 96} {f : VArith} {s : State} (hk : Keep p s) :
    KeepR p (execVadd c f s) := by
  unfold execVadd
  try dsimp only
  repeat' first
    | with_reducible assumption | with_reducible exact Keep.refl _ | with_reducible apply keep_vArith

theorem keep_execRem {p : State} {c : Fin 96} {rd rs1 rs2 : Fin 32} {s : State} (hk : Keep p s) :
    KeepR p (execRem c rd rs1 rs2 s) := by
  unfold execRem
  try dsimp only
  repeat' first
    | with_reducible assumption | with_reducible exact Keep.refl _ | with_reducible apply keep_alu2

theorem keep_execBgeu {p : State} {c : Fin 96} {rs1 rs2 : Fin 32} {imm : BitVec 16} {s : State} (hk : Keep p s) :
    KeepR p (execBgeu c rs1 rs2 imm s) := by
  unfold execBgeu
  try dsimp only
  repeat' first
    | with_reducible assumption | with_reducible exact Keep.refl _ | with_reducible apply keep_branch

theorem keep_execVmpopc {p : State} {c : Fin 96} {rd : Fin 32} {ms1 : Fin 8} {s : State} (hk : Keep p s) :
    KeepR p (execVmpopc c rd ms1 s) := by
  unfold execVmpopc
  try dsimp only
  repeat' first
    | with_reducible assumption | with_reducible exact Keep.refl _ | with_reducible apply keep_onCore
    | with_reducible apply keep_writeS | intro _

theorem keep_execVredsum {p : State} {c : Fin 96} {rd vs1 : Fin 32} {men : Bool} {msel : Fin 8} {s : State} (hk : Keep
    p s) :
    KeepR p (execVredsum c rd vs1 men msel s) := by
  unfold execVredsum
  try dsimp only
  repeat' first
    | with_reducible assumption | with_reducible exact Keep.refl _ | with_reducible apply keep_onCore
    | with_reducible apply keep_exception | with_reducible apply keep_corePut | with_reducible apply keep_writeS
    | intro _
    | split

theorem keep_alu1 {p : State} {c : Fin 96} {rd rs1 : Fin 32} {f : Word → Word} {s : State} (hk : Keep p s) :
    KeepR p (alu1 c rd rs1 f s) := by
  unfold alu1
  try dsimp only
  repeat' first
    | with_reducible assumption | with_reducible exact Keep.refl _ | with_reducible apply keep_onCore
    | with_reducible apply keep_writeS | intro _

theorem keep_execSlti {p : State} {c : Fin 96} {rd rs1 : Fin 32} {imm : BitVec 16} {s : State} (hk : Keep p s) :
    KeepR p (execSlti c rd rs1 imm s) := by
  unfold execSlti
  try dsimp only
  repeat' first
    | with_reducible assumption | with_reducible exact Keep.refl _ | with_reducible apply keep_alu1

theorem keep_execVsrl {p : State} {c : Fin 96} {f : VArith} {s : State} (hk : Keep p s) :
    KeepR p (execVsrl c f s) := by
  unfold execVsrl
  try dsimp only
  repeat' first
    | with_reducible assumption | with_reducible exact Keep.refl _ | with_reducible apply keep_vArith

theorem keep_execMsu {p : State} {c : Fin 96} {acc : Fin 4} {rs1 rs2 : Fin 32} {s : State} (hk : Keep p s) :
    KeepR p (execMsu c acc rs1 rs2 s) := by
  unfold execMsu
  try dsimp only
  repeat' first
    | with_reducible assumption | with_reducible exact Keep.refl _ | with_reducible apply keep_onCore
    | with_reducible apply keep_corePut | intro _

theorem keep_vEstimate {p : State} {c : Fin 96} {f : VArith} {op : Shape → Nat → Nat × Nat} {s : State} (hk : Keep p s)
    :
    KeepR p (vEstimate c f op s) := by
  unfold vEstimate
  try dsimp only
  repeat' first
    | with_reducible assumption | with_reducible exact Keep.refl _ | with_reducible apply keep_vArith
    | with_reducible apply keep_onCore | with_reducible apply keep_exception | with_reducible refine Keep.ite ?_ ?_
    | with_reducible refine Keep.ite2 ?_ ?_ | with_reducible refine Keep.ite3 ?_ ?_
    | with_reducible refine KeepR.ite ?_ ?_ | with_reducible refine KeepR.next ?_
    | with_reducible refine Keep.foldl ?_ ?_ | with_reducible refine Keep.foldl2 ?_ ?_
    | with_reducible refine Keep.foldl3 ?_ ?_ | with_reducible refine Keep.id ?_
    | fail_if_no_progress with_reducible refine Keep.rec_of ?_ rfl rfl rfl | intro _

theorem keep_execVfrsqe {p : State} {c : Fin 96} {f : VArith} {s : State} (hk : Keep p s) :
    KeepR p (execVfrsqe c f s) := by
  unfold execVfrsqe
  try dsimp only
  repeat' first
    | with_reducible assumption | with_reducible exact Keep.refl _ | with_reducible apply keep_vEstimate

theorem keep_vCompare {p : State} {c : Fin 96} {f : VArith} {types : Nat → Bool} {op : Shape → Nat → Nat → Bool × Nat}
    {s : State} (hk : Keep p s) :
    KeepR p (vCompare c f types op s) := by
  unfold vCompare
  try dsimp only
  repeat' first
    | with_reducible assumption | with_reducible exact Keep.refl _ | with_reducible apply keep_onCore
    | with_reducible apply keep_exception | with_reducible apply keep_corePut | intro _ | split

theorem keep_vCmpInt {p : State} {c : Fin 96} {f : VArith} {signed : Bool} {p_ : Int → Int → Bool} {s : State} (hk :
    Keep p s) :
    KeepR p (vCmpInt c f signed p_ s) := by
  unfold vCmpInt
  try dsimp only
  repeat' first
    | with_reducible assumption | with_reducible exact Keep.refl _ | with_reducible apply keep_vCompare

theorem keep_execVcmplt {p : State} {c : Fin 96} {f : VArith} {s : State} (hk : Keep p s) :
    KeepR p (execVcmplt c f s) := by
  unfold execVcmplt
  try dsimp only
  repeat' first
    | with_reducible assumption | with_reducible exact Keep.refl _ | with_reducible apply keep_vCmpInt

theorem keep_execVminu {p : State} {c : Fin 96} {f : VArith} {s : State} (hk : Keep p s) :
    KeepR p (execVminu c f s) := by
  unfold execVminu
  try dsimp only
  repeat' first
    | with_reducible assumption | with_reducible exact Keep.refl _ | with_reducible apply keep_vArith

theorem keep_execPower {p : State} {crew : Fin 12} {engine : Fin 2} {s : State} (hk : Keep p s) :
    KeepR p (execPower crew engine s) := by
  unfold execPower
  try dsimp only
  repeat' first
    | with_reducible assumption | with_reducible exact Keep.refl _ | with_reducible apply keep_done
    | with_reducible apply keep_runCop

theorem keep_execMula {p : State} {c : Fin 96} {acc : Fin 4} {rs1 rs2 : Fin 32} {s : State} (hk : Keep p s) :
    KeepR p (execMula c acc rs1 rs2 s) := by
  unfold execMula
  try dsimp only
  repeat' first
    | with_reducible assumption | with_reducible exact Keep.refl _ | with_reducible apply keep_onCore
    | with_reducible apply keep_corePut | intro _

theorem keep_handoverOp {p : State} {c tag : Nat} {s : State} (hk : Keep p s) :
    Keep p (handoverOp c tag s) := by
  unfold handoverOp
  try dsimp only
  repeat' first
    | with_reducible assumption | with_reducible exact Keep.refl _ | with_reducible apply keep_corePut
    | with_reducible apply keep_endCommand | with_reducible apply keep_drainWrites | with_reducible apply keep_cleanLine
    | with_reducible apply keep_notify | with_reducible refine Keep.foldl ?_ ?_ | intro _ | split

theorem keep_execVcmulw {p : State} {c : Fin 96} {f : VArith} {s : State} (hk : Keep p s) :
    KeepR p (execVcmulw c f s) := by
  unfold execVcmulw
  try dsimp only
  repeat' first
    | with_reducible assumption | with_reducible exact Keep.refl _ | with_reducible apply keep_vArith

theorem keep_execVfcmpeq {p : State} {c : Fin 96} {f : VArith} {s : State} (hk : Keep p s) :
    KeepR p (execVfcmpeq c f s) := by
  unfold execVfcmpeq
  try dsimp only
  repeat' first
    | with_reducible assumption | with_reducible exact Keep.refl _ | with_reducible apply keep_vCompare

theorem keep_execSrli {p : State} {c : Fin 96} {rd rs1 : Fin 32} {amount : BitVec 6} {s : State} (hk : Keep p s) :
    KeepR p (execSrli c rd rs1 amount s) := by
  unfold execSrli
  try dsimp only
  repeat' first
    | with_reducible assumption | with_reducible exact Keep.refl _ | with_reducible apply keep_alu1

theorem keep_execVcmpleu {p : State} {c : Fin 96} {f : VArith} {s : State} (hk : Keep p s) :
    KeepR p (execVcmpleu c f s) := by
  unfold execVcmpleu
  try dsimp only
  repeat' first
    | with_reducible assumption | with_reducible exact Keep.refl _ | with_reducible apply keep_vCmpInt

theorem keep_execCptst {p : State} {c : Fin 96} {rd rs1 : Fin 32} {s : State} (hk : Keep p s) :
    KeepR p (execCptst c rd rs1 s) := by
  unfold execCptst
  try dsimp only
  repeat' first
    | with_reducible assumption | with_reducible exact Keep.refl _ | with_reducible apply keep_onCore
    | with_reducible apply keep_writeS | intro _

theorem keep_execVfadd {p : State} {c : Fin 96} {f : VArith} {s : State} (hk : Keep p s) :
    KeepR p (execVfadd c f s) := by
  unfold execVfadd
  try dsimp only
  repeat' first
    | with_reducible assumption | with_reducible exact Keep.refl _ | with_reducible apply keep_vArith

theorem keep_execFft {p : State} {crew : Fin 12} {engine : Fin 2} {coll : Option (BitVec 48)} {s : State} (hk : Keep p
    s) :
    KeepR p (execFft crew engine coll s) := by
  unfold execFft
  try dsimp only
  repeat' first
    | with_reducible assumption | with_reducible exact Keep.refl _ | with_reducible apply keep_done
    | with_reducible apply keep_runCop

theorem keep_execMul {p : State} {c : Fin 96} {rd rs1 rs2 : Fin 32} {s : State} (hk : Keep p s) :
    KeepR p (execMul c rd rs1 rs2 s) := by
  unfold execMul
  try dsimp only
  repeat' first
    | with_reducible assumption | with_reducible exact Keep.refl _ | with_reducible apply keep_alu2

theorem keep_search {p : State} {c : Fin 96} {rd rs1 rs2 : Fin 32} {p_ : Word → Word → Bool} {s : State} (hk : Keep p
    s) :
    KeepR p (search c rd rs1 rs2 p_ s) := by
  unfold search
  try dsimp only
  repeat' first
    | with_reducible assumption | with_reducible exact Keep.refl _ | with_reducible apply keep_onCore
    | with_reducible apply keep_exception | with_reducible apply keep_corePut | intro _ | split

theorem keep_execMiniu {p : State} {c : Fin 96} {rd rs1 rs2 : Fin 32} {s : State} (hk : Keep p s) :
    KeepR p (execMiniu c rd rs1 rs2 s) := by
  unfold execMiniu
  try dsimp only
  repeat' first
    | with_reducible assumption | with_reducible exact Keep.refl _ | with_reducible apply keep_search

theorem keep_execCpfree {p : State} {c : Fin 96} {rs1 : Fin 32} {s : State} (hk : Keep p s) :
    KeepR p (execCpfree c rs1 s) := by
  unfold execCpfree
  try dsimp only
  repeat' first
    | with_reducible assumption | with_reducible exact Keep.refl _ | with_reducible apply keep_onCore
    | with_reducible apply keep_corePut | intro _

theorem keep_execVfmul {p : State} {c : Fin 96} {f : VArith} {s : State} (hk : Keep p s) :
    KeepR p (execVfmul c f s) := by
  unfold execVfmul
  try dsimp only
  repeat' first
    | with_reducible assumption | with_reducible exact Keep.refl _ | with_reducible apply keep_vArith

theorem keep_execVnsra {p : State} {c : Fin 96} {f : VArith} {s : State} (hk : Keep p s) :
    KeepR p (execVnsra c f s) := by
  unfold execVnsra
  try dsimp only
  repeat' first
    | with_reducible assumption | with_reducible exact Keep.refl _ | with_reducible apply keep_vArith

theorem keep_execDiv {p : State} {c : Fin 96} {rd rs1 rs2 : Fin 32} {s : State} (hk : Keep p s) :
    KeepR p (execDiv c rd rs1 rs2 s) := by
  unfold execDiv
  try dsimp only
  repeat' first
    | with_reducible assumption | with_reducible exact Keep.refl _ | with_reducible apply keep_alu2

theorem keep_execVxor {p : State} {c : Fin 96} {f : VArith} {s : State} (hk : Keep p s) :
    KeepR p (execVxor c f s) := by
  unfold execVxor
  try dsimp only
  repeat' first
    | with_reducible assumption | with_reducible exact Keep.refl _ | with_reducible apply keep_vArith

theorem keep_execSrl {p : State} {c : Fin 96} {rd rs1 rs2 : Fin 32} {s : State} (hk : Keep p s) :
    KeepR p (execSrl c rd rs1 rs2 s) := by
  unfold execSrl
  try dsimp only
  repeat' first
    | with_reducible assumption | with_reducible exact Keep.refl _ | with_reducible apply keep_alu2

theorem keep_execVfcvtF {p : State} {c : Fin 96} {f : VArith} {s : State} (hk : Keep p s) :
    KeepR p (execVfcvtF c f s) := by
  unfold execVfcvtF
  try dsimp only
  repeat' first
    | with_reducible assumption | with_reducible exact Keep.refl _ | with_reducible apply keep_vArith

theorem keep_execVmul {p : State} {c : Fin 96} {f : VArith} {s : State} (hk : Keep p s) :
    KeepR p (execVmul c f s) := by
  unfold execVmul
  try dsimp only
  repeat' first
    | with_reducible assumption | with_reducible exact Keep.refl _ | with_reducible apply keep_vArith

theorem keep_execOrOp {p : State} {c : Fin 96} {rd rs1 rs2 : Fin 32} {s : State} (hk : Keep p s) :
    KeepR p (execOrOp c rd rs1 rs2 s) := by
  unfold execOrOp
  try dsimp only
  repeat' first
    | with_reducible assumption | with_reducible exact Keep.refl _ | with_reducible apply keep_alu2

theorem keep_execHandover {p : State} {c : Fin 96} {tag : Fin 32} {s : State} (hk : Keep p s) :
    KeepR p (execHandover c tag s) := by
  unfold execHandover
  try dsimp only
  repeat' first
    | with_reducible assumption | with_reducible exact Keep.refl _ | with_reducible apply keep_done
    | with_reducible apply keep_handoverOp

theorem keep_execVcmpeq {p : State} {c : Fin 96} {f : VArith} {s : State} (hk : Keep p s) :
    KeepR p (execVcmpeq c f s) := by
  unfold execVcmpeq
  try dsimp only
  repeat' first
    | with_reducible assumption | with_reducible exact Keep.refl _ | with_reducible apply keep_vCmpInt

theorem keep_vMask {p : State} {c : Fin 96} {md ms1 ms2 : Fin 8} {op : BitVec 512 → BitVec 512 → BitVec 512} {s :
    State} (hk : Keep p s) :
    KeepR p (vMask c md ms1 ms2 op s) := by
  unfold vMask
  try dsimp only
  repeat' first
    | with_reducible assumption | with_reducible exact Keep.refl _ | with_reducible apply keep_onCore
    | with_reducible apply keep_corePut | intro _

theorem keep_execAddi {p : State} {c : Fin 96} {rd rs1 : Fin 32} {imm : BitVec 16} {s : State} (hk : Keep p s) :
    KeepR p (execAddi c rd rs1 imm s) := by
  unfold execAddi
  try dsimp only
  repeat' first
    | with_reducible assumption | with_reducible exact Keep.refl _ | with_reducible apply keep_alu1

theorem keep_execChest {p : State} {crew : Fin 12} {engine : Fin 2} {coll : Option (BitVec 48)} {s : State} (hk : Keep
    p s) :
    KeepR p (execChest crew engine coll s) := by
  unfold execChest
  try dsimp only
  repeat' first
    | with_reducible assumption | with_reducible exact Keep.refl _ | with_reducible apply keep_done
    | with_reducible apply keep_runCop

theorem keep_execCpwait {p : State} {c : Fin 96} {rs1 : Fin 32} {s : State} (hk : Keep p s) :
    KeepR p (execCpwait c rs1 s) := by
  unfold execCpwait
  try dsimp only
  repeat' first
    | with_reducible assumption | with_reducible exact Keep.refl _ | with_reducible apply keep_onCoreR
    | with_reducible apply keep_corePut | intro _ | split

theorem keep_execVins {p : State} {c : Fin 96} {vd rs1 rs2 : Fin 32} {s : State} (hk : Keep p s) :
    KeepR p (execVins c vd rs1 rs2 s) := by
  unfold execVins
  try dsimp only
  repeat' first
    | with_reducible assumption | with_reducible exact Keep.refl _ | with_reducible apply keep_onCore
    | with_reducible apply keep_exception | with_reducible apply keep_corePut | intro _ | split

theorem keep_execMini {p : State} {c : Fin 96} {rd rs1 rs2 : Fin 32} {s : State} (hk : Keep p s) :
    KeepR p (execMini c rd rs1 rs2 s) := by
  unfold execMini
  try dsimp only
  repeat' first
    | with_reducible assumption | with_reducible exact Keep.refl _ | with_reducible apply keep_search

theorem keep_execVsra {p : State} {c : Fin 96} {f : VArith} {s : State} (hk : Keep p s) :
    KeepR p (execVsra c f s) := by
  unfold execVsra
  try dsimp only
  repeat' first
    | with_reducible assumption | with_reducible exact Keep.refl _ | with_reducible apply keep_vArith

theorem keep_execAdd {p : State} {c : Fin 96} {rd rs1 rs2 : Fin 32} {s : State} (hk : Keep p s) :
    KeepR p (execAdd c rd rs1 rs2 s) := by
  unfold execAdd
  try dsimp only
  repeat' first
    | with_reducible assumption | with_reducible exact Keep.refl _ | with_reducible apply keep_alu2

theorem keep_execIfft {p : State} {crew : Fin 12} {engine : Fin 2} {coll : Option (BitVec 48)} {s : State} (hk : Keep p
    s) :
    KeepR p (execIfft crew engine coll s) := by
  unfold execIfft
  try dsimp only
  repeat' first
    | with_reducible assumption | with_reducible exact Keep.refl _ | with_reducible apply keep_done
    | with_reducible apply keep_runCop

theorem keep_execSlt {p : State} {c : Fin 96} {rd rs1 rs2 : Fin 32} {s : State} (hk : Keep p s) :
    KeepR p (execSlt c rd rs1 rs2 s) := by
  unfold execSlt
  try dsimp only
  repeat' first
    | with_reducible assumption | with_reducible exact Keep.refl _ | with_reducible apply keep_alu2

theorem keep_execVsub {p : State} {c : Fin 96} {f : VArith} {s : State} (hk : Keep p s) :
    KeepR p (execVsub c f s) := by
  unfold execVsub
  try dsimp only
  repeat' first
    | with_reducible assumption | with_reducible exact Keep.refl _ | with_reducible apply keep_vArith

theorem keep_execMaxi {p : State} {c : Fin 96} {rd rs1 rs2 : Fin 32} {s : State} (hk : Keep p s) :
    KeepR p (execMaxi c rd rs1 rs2 s) := by
  unfold execMaxi
  try dsimp only
  repeat' first
    | with_reducible assumption | with_reducible exact Keep.refl _ | with_reducible apply keep_search

theorem keep_execShori {p : State} {c : Fin 96} {rd rs1 : Fin 32} {imm : BitVec 16} {s : State} (hk : Keep p s) :
    KeepR p (execShori c rd rs1 imm s) := by
  unfold execShori
  try dsimp only
  repeat' first
    | with_reducible assumption | with_reducible exact Keep.refl _ | with_reducible apply keep_alu1

theorem keep_vPermute {p : State} {c : Fin 96} {vd vs1 : Fin 32} {men : Bool} {msel : Fin 8} {bad : Shape → Bool} {op :
    Core → Shape → Nat → Nat → Nat → Nat} {s : State} (hk : Keep p s) :
    KeepR p (vPermute c vd vs1 men msel bad op s) := by
  unfold vPermute
  try dsimp only
  repeat' first
    | with_reducible assumption | with_reducible exact Keep.refl _ | with_reducible apply keep_onCore
    | with_reducible apply keep_exception | with_reducible apply keep_corePut | intro _ | split

theorem keep_execSltiu {p : State} {c : Fin 96} {rd rs1 : Fin 32} {imm : BitVec 16} {s : State} (hk : Keep p s) :
    KeepR p (execSltiu c rd rs1 imm s) := by
  unfold execSltiu
  try dsimp only
  repeat' first
    | with_reducible assumption | with_reducible exact Keep.refl _ | with_reducible apply keep_alu1

theorem keep_execSub {p : State} {c : Fin 96} {rd rs1 rs2 : Fin 32} {s : State} (hk : Keep p s) :
    KeepR p (execSub c rd rs1 rs2 s) := by
  unfold execSub
  try dsimp only
  repeat' first
    | with_reducible assumption | with_reducible exact Keep.refl _ | with_reducible apply keep_alu2

theorem keep_execVfsub {p : State} {c : Fin 96} {f : VArith} {s : State} (hk : Keep p s) :
    KeepR p (execVfsub c f s) := by
  unfold execVfsub
  try dsimp only
  repeat' first
    | with_reducible assumption | with_reducible exact Keep.refl _ | with_reducible apply keep_vArith

theorem keep_execVsubs {p : State} {c : Fin 96} {f : VArith} {s : State} (hk : Keep p s) :
    KeepR p (execVsubs c f s) := by
  unfold execVsubs
  try dsimp only
  repeat' first
    | with_reducible assumption | with_reducible exact Keep.refl _ | with_reducible apply keep_vArith

theorem keep_vExtreme {p : State} {c : Fin 96} {rd vs1 : Fin 32} {men : Bool} {msel : Fin 8} {none0 : Word} {better :
    Int → Int → Bool} {s : State} (hk : Keep p s) :
    KeepR p (vExtreme c rd vs1 men msel none0 better s) := by
  unfold vExtreme
  try dsimp only
  repeat' first
    | with_reducible assumption | with_reducible exact Keep.refl _ | with_reducible apply keep_onCore
    | with_reducible apply keep_exception | with_reducible apply keep_corePut | intro _ | split

theorem keep_execVredmin {p : State} {c : Fin 96} {rd vs1 : Fin 32} {men : Bool} {msel : Fin 8} {s : State} (hk : Keep
    p s) :
    KeepR p (execVredmin c rd vs1 men msel s) := by
  unfold execVredmin
  try dsimp only
  repeat' first
    | with_reducible assumption | with_reducible exact Keep.refl _ | with_reducible apply keep_vExtreme

theorem keep_execBwWeights {p : State} {crew : Fin 12} {coll : Option (BitVec 48)} {s : State} (hk : Keep p s) :
    KeepR p (execBwWeights crew coll s) := by
  unfold execBwWeights
  try dsimp only
  repeat' first
    | with_reducible assumption | with_reducible exact Keep.refl _ | with_reducible apply keep_done
    | with_reducible apply keep_runCop

theorem keep_execAndi {p : State} {c : Fin 96} {rd rs1 : Fin 32} {imm : BitVec 16} {s : State} (hk : Keep p s) :
    KeepR p (execAndi c rd rs1 imm s) := by
  unfold execAndi
  try dsimp only
  repeat' first
    | with_reducible assumption | with_reducible exact Keep.refl _ | with_reducible apply keep_alu1

theorem keep_execAccxs {p : State} {c : Fin 96} {rd : Fin 32} {acc : Fin 4} {shift : BitVec 6} {s : State} (hk : Keep p
    s) :
    KeepR p (execAccxs c rd acc shift s) := by
  unfold execAccxs
  try dsimp only
  repeat' first
    | with_reducible assumption | with_reducible exact Keep.refl _ | with_reducible apply keep_onCore
    | with_reducible apply keep_exception | with_reducible apply keep_corePut | intro _ | split

theorem keep_execSrai {p : State} {c : Fin 96} {rd rs1 : Fin 32} {amount : BitVec 6} {s : State} (hk : Keep p s) :
    KeepR p (execSrai c rd rs1 amount s) := by
  unfold execSrai
  try dsimp only
  repeat' first
    | with_reducible assumption | with_reducible exact Keep.refl _ | with_reducible apply keep_alu1

theorem keep_execVfcmplt {p : State} {c : Fin 96} {f : VArith} {s : State} (hk : Keep p s) :
    KeepR p (execVfcmplt c f s) := by
  unfold execVfcmplt
  try dsimp only
  repeat' first
    | with_reducible assumption | with_reducible exact Keep.refl _ | with_reducible apply keep_vCompare

theorem keep_execXori {p : State} {c : Fin 96} {rd rs1 : Fin 32} {imm : BitVec 16} {s : State} (hk : Keep p s) :
    KeepR p (execXori c rd rs1 imm s) := by
  unfold execXori
  try dsimp only
  repeat' first
    | with_reducible assumption | with_reducible exact Keep.refl _ | with_reducible apply keep_alu1

theorem keep_execSlli {p : State} {c : Fin 96} {rd rs1 : Fin 32} {amount : BitVec 6} {s : State} (hk : Keep p s) :
    KeepR p (execSlli c rd rs1 amount s) := by
  unfold execSlli
  try dsimp only
  repeat' first
    | with_reducible assumption | with_reducible exact Keep.refl _ | with_reducible apply keep_alu1

theorem keep_execAccx {p : State} {c : Fin 96} {rd : Fin 32} {acc : Fin 4} {shift : BitVec 6} {s : State} (hk : Keep p
    s) :
    KeepR p (execAccx c rd acc shift s) := by
  unfold execAccx
  try dsimp only
  repeat' first
    | with_reducible assumption | with_reducible exact Keep.refl _ | with_reducible apply keep_onCore
    | with_reducible apply keep_exception | with_reducible apply keep_writeS | intro _ | split

theorem keep_execMaxiu {p : State} {c : Fin 96} {rd rs1 rs2 : Fin 32} {s : State} (hk : Keep p s) :
    KeepR p (execMaxiu c rd rs1 rs2 s) := by
  unfold execMaxiu
  try dsimp only
  repeat' first
    | with_reducible assumption | with_reducible exact Keep.refl _ | with_reducible apply keep_search

theorem keep_execVmaxu {p : State} {c : Fin 96} {f : VArith} {s : State} (hk : Keep p s) :
    KeepR p (execVmaxu c f s) := by
  unfold execVmaxu
  try dsimp only
  repeat' first
    | with_reducible assumption | with_reducible exact Keep.refl _ | with_reducible apply keep_vArith

theorem keep_execVslidedn {p : State} {c : Fin 96} {vd vs1 rs2 : Fin 32} {men : Bool} {msel : Fin 8} {s : State} (hk :
    Keep p s) :
    KeepR p (execVslidedn c vd vs1 rs2 men msel s) := by
  unfold execVslidedn
  try dsimp only
  repeat' first
    | with_reducible assumption | with_reducible exact Keep.refl _ | with_reducible apply keep_vPermute

theorem keep_execVor {p : State} {c : Fin 96} {f : VArith} {s : State} (hk : Keep p s) :
    KeepR p (execVor c f s) := by
  unfold execVor
  try dsimp only
  repeat' first
    | with_reducible assumption | with_reducible exact Keep.refl _ | with_reducible apply keep_vArith

theorem keep_execVmin {p : State} {c : Fin 96} {f : VArith} {s : State} (hk : Keep p s) :
    KeepR p (execVmin c f s) := by
  unfold execVmin
  try dsimp only
  repeat' first
    | with_reducible assumption | with_reducible exact Keep.refl _ | with_reducible apply keep_vArith

theorem keep_execCpiss {p : State} {c : Fin 96} {tag : Fin 32} {unit q : Fin 8} {s : State} (hk : Keep p s) :
    KeepR p (execCpiss c tag unit q s) := by
  unfold execCpiss
  try dsimp only
  repeat' first
    | with_reducible assumption | with_reducible exact Keep.refl _ | with_reducible apply keep_onCoreR
    | with_reducible apply keep_cpissOp | intro _

theorem keep_execAccld {p : State} {c : Fin 96} {acc : Fin 4} {rs1 : Fin 32} {s : State} (hk : Keep p s) :
    KeepR p (execAccld c acc rs1 s) := by
  unfold execAccld
  try dsimp only
  repeat' first
    | with_reducible assumption | with_reducible exact Keep.refl _ | with_reducible apply keep_onCore
    | with_reducible apply keep_corePut | intro _

theorem keep_execJal {p : State} {c : Fin 96} {imm : BitVec 26} {s : State} (hk : Keep p s) :
    KeepR p (execJal c imm s) := by
  unfold execJal
  try dsimp only
  repeat' first
    | with_reducible assumption | with_reducible exact Keep.refl _ | with_reducible apply keep_onCore
    | with_reducible apply keep_corePut | intro _

theorem keep_execVmulq {p : State} {c : Fin 96} {f : VArith} {s : State} (hk : Keep p s) :
    KeepR p (execVmulq c f s) := by
  unfold execVmulq
  try dsimp only
  repeat' first
    | with_reducible assumption | with_reducible exact Keep.refl _ | with_reducible apply keep_vArith

theorem keep_execOri {p : State} {c : Fin 96} {rd rs1 : Fin 32} {imm : BitVec 16} {s : State} (hk : Keep p s) :
    KeepR p (execOri c rd rs1 imm s) := by
  unfold execOri
  try dsimp only
  repeat' first
    | with_reducible assumption | with_reducible exact Keep.refl _ | with_reducible apply keep_alu1

theorem keep_execVcmpltu {p : State} {c : Fin 96} {f : VArith} {s : State} (hk : Keep p s) :
    KeepR p (execVcmpltu c f s) := by
  unfold execVcmpltu
  try dsimp only
  repeat' first
    | with_reducible assumption | with_reducible exact Keep.refl _ | with_reducible apply keep_vCmpInt

theorem keep_execVslideup {p : State} {c : Fin 96} {vd vs1 rs2 : Fin 32} {men : Bool} {msel : Fin 8} {s : State} (hk :
    Keep p s) :
    KeepR p (execVslideup c vd vs1 rs2 men msel s) := by
  unfold execVslideup
  try dsimp only
  repeat' first
    | with_reducible assumption | with_reducible exact Keep.refl _ | with_reducible apply keep_vPermute

theorem keep_execMulhu {p : State} {c : Fin 96} {rd rs1 rs2 : Fin 32} {s : State} (hk : Keep p s) :
    KeepR p (execMulhu c rd rs1 rs2 s) := by
  unfold execMulhu
  try dsimp only
  repeat' first
    | with_reducible assumption | with_reducible exact Keep.refl _ | with_reducible apply keep_alu2

theorem keep_execVand {p : State} {c : Fin 96} {f : VArith} {s : State} (hk : Keep p s) :
    KeepR p (execVand c f s) := by
  unfold execVand
  try dsimp only
  repeat' first
    | with_reducible assumption | with_reducible exact Keep.refl _ | with_reducible apply keep_vArith

theorem keep_execCpres {p : State} {c : Fin 96} {rd tag : Fin 32} {s : State} (hk : Keep p s) :
    KeepR p (execCpres c rd tag s) := by
  unfold execCpres
  try dsimp only
  repeat' first
    | with_reducible assumption | with_reducible exact Keep.refl _ | with_reducible apply keep_onCoreR
    | with_reducible apply keep_exception | with_reducible apply keep_corePut | intro _ | split

theorem keep_execBwApply {p : State} {crew : Fin 12} {coll : Option (BitVec 48)} {s : State} (hk : Keep p s) :
    KeepR p (execBwApply crew coll s) := by
  unfold execBwApply
  try dsimp only
  repeat' first
    | with_reducible assumption | with_reducible exact Keep.refl _ | with_reducible apply keep_done
    | with_reducible apply keep_runCop

theorem keep_execVfcvtI {p : State} {c : Fin 96} {f : VArith} {s : State} (hk : Keep p s) :
    KeepR p (execVfcvtI c f s) := by
  unfold execVfcvtI
  try dsimp only
  repeat' first
    | with_reducible assumption | with_reducible exact Keep.refl _ | with_reducible apply keep_vArith

theorem keep_execVmxor {p : State} {c : Fin 96} {md ms1 ms2 : Fin 8} {s : State} (hk : Keep p s) :
    KeepR p (execVmxor c md ms1 ms2 s) := by
  unfold execVmxor
  try dsimp only
  repeat' first
    | with_reducible assumption | with_reducible exact Keep.refl _ | with_reducible apply keep_vMask

theorem keep_execBltu {p : State} {c : Fin 96} {rs1 rs2 : Fin 32} {imm : BitVec 16} {s : State} (hk : Keep p s) :
    KeepR p (execBltu c rs1 rs2 imm s) := by
  unfold execBltu
  try dsimp only
  repeat' first
    | with_reducible assumption | with_reducible exact Keep.refl _ | with_reducible apply keep_branch

theorem keep_execMulh {p : State} {c : Fin 96} {rd rs1 rs2 : Fin 32} {s : State} (hk : Keep p s) :
    KeepR p (execMulh c rd rs1 rs2 s) := by
  unfold execMulh
  try dsimp only
  repeat' first
    | with_reducible assumption | with_reducible exact Keep.refl _ | with_reducible apply keep_alu2

theorem keep_execVmacw {p : State} {c : Fin 96} {f : VArith} {s : State} (hk : Keep p s) :
    KeepR p (execVmacw c f s) := by
  unfold execVmacw
  try dsimp only
  repeat' first
    | with_reducible assumption | with_reducible exact Keep.refl _ | with_reducible apply keep_vArith

theorem keep_execVcmple {p : State} {c : Fin 96} {f : VArith} {s : State} (hk : Keep p s) :
    KeepR p (execVcmple c f s) := by
  unfold execVcmple
  try dsimp only
  repeat' first
    | with_reducible assumption | with_reducible exact Keep.refl _ | with_reducible apply keep_vCmpInt

theorem keep_execVext {p : State} {c : Fin 96} {rd vs1 rs2 : Fin 32} {s : State} (hk : Keep p s) :
    KeepR p (execVext c rd vs1 rs2 s) := by
  unfold execVext
  try dsimp only
  repeat' first
    | with_reducible assumption | with_reducible exact Keep.refl _ | with_reducible apply keep_onCore
    | with_reducible apply keep_exception | with_reducible apply keep_writeS | intro _ | split

theorem keep_execVmfirst {p : State} {c : Fin 96} {rd : Fin 32} {ms1 : Fin 8} {s : State} (hk : Keep p s) :
    KeepR p (execVmfirst c rd ms1 s) := by
  unfold execVmfirst
  try dsimp only
  repeat' first
    | with_reducible assumption | with_reducible exact Keep.refl _ | with_reducible apply keep_onCore
    | with_reducible apply keep_writeS | intro _

theorem keep_execClz {p : State} {c : Fin 96} {rd rs1 : Fin 32} {s : State} (hk : Keep p s) :
    KeepR p (execClz c rd rs1 s) := by
  unfold execClz
  try dsimp only
  repeat' first
    | with_reducible assumption | with_reducible exact Keep.refl _ | with_reducible apply keep_alu1

theorem keep_execVcmacw {p : State} {c : Fin 96} {f : VArith} {s : State} (hk : Keep p s) :
    KeepR p (execVcmacw c f s) := by
  unfold execVcmacw
  try dsimp only
  repeat' first
    | with_reducible assumption | with_reducible exact Keep.refl _ | with_reducible apply keep_vArith

theorem keep_execVredmax {p : State} {c : Fin 96} {rd vs1 : Fin 32} {men : Bool} {msel : Fin 8} {s : State} (hk : Keep
    p s) :
    KeepR p (execVredmax c rd vs1 men msel s) := by
  unfold execVredmax
  try dsimp only
  repeat' first
    | with_reducible assumption | with_reducible exact Keep.refl _ | with_reducible apply keep_vExtreme

theorem keep_execLui {p : State} {c : Fin 96} {rd : Fin 32} {imm : BitVec 16} {s : State} (hk : Keep p s) :
    KeepR p (execLui c rd imm s) := by
  unfold execLui
  try dsimp only
  repeat' first
    | with_reducible assumption | with_reducible exact Keep.refl _ | with_reducible apply keep_alu1

theorem keep_execVfrece {p : State} {c : Fin 96} {f : VArith} {s : State} (hk : Keep p s) :
    KeepR p (execVfrece c f s) := by
  unfold execVfrece
  try dsimp only
  repeat' first
    | with_reducible assumption | with_reducible exact Keep.refl _ | with_reducible apply keep_vEstimate

theorem keep_execJalr {p : State} {c : Fin 96} {rd rs1 : Fin 32} {imm : BitVec 16} {s : State} (hk : Keep p s) :
    KeepR p (execJalr c rd rs1 imm s) := by
  unfold execJalr
  try dsimp only
  repeat' first
    | with_reducible assumption | with_reducible exact Keep.refl _ | with_reducible apply keep_onCore
    | with_reducible apply keep_exception | with_reducible apply keep_corePut | intro _ | split

theorem keep_execFftPeak {p : State} {crew : Fin 12} {engine : Fin 2} {s : State} (hk : Keep p s) :
    KeepR p (execFftPeak crew engine s) := by
  unfold execFftPeak
  try dsimp only
  repeat' first
    | with_reducible assumption | with_reducible exact Keep.refl _ | with_reducible apply keep_done
    | with_reducible apply keep_runCop

theorem keep_execVadds {p : State} {c : Fin 96} {f : VArith} {s : State} (hk : Keep p s) :
    KeepR p (execVadds c f s) := by
  unfold execVadds
  try dsimp only
  repeat' first
    | with_reducible assumption | with_reducible exact Keep.refl _ | with_reducible apply keep_vArith

theorem keep_execBge {p : State} {c : Fin 96} {rs1 rs2 : Fin 32} {imm : BitVec 16} {s : State} (hk : Keep p s) :
    KeepR p (execBge c rs1 rs2 imm s) := by
  unfold execBge
  try dsimp only
  repeat' first
    | with_reducible assumption | with_reducible exact Keep.refl _ | with_reducible apply keep_branch

theorem keep_execVgatherr {p : State} {c : Fin 96} {vd vs1 vs2 : Fin 32} {men : Bool} {msel : Fin 8} {s : State} (hk :
    Keep p s) :
    KeepR p (execVgatherr c vd vs1 vs2 men msel s) := by
  unfold execVgatherr
  try dsimp only
  repeat' first
    | with_reducible assumption | with_reducible exact Keep.refl _ | with_reducible apply keep_vPermute

theorem keep_execVcmpne {p : State} {c : Fin 96} {f : VArith} {s : State} (hk : Keep p s) :
    KeepR p (execVcmpne c f s) := by
  unfold execVcmpne
  try dsimp only
  repeat' first
    | with_reducible assumption | with_reducible exact Keep.refl _ | with_reducible apply keep_vCmpInt

theorem keep_execVcmacjw {p : State} {c : Fin 96} {f : VArith} {s : State} (hk : Keep p s) :
    KeepR p (execVcmacjw c f s) := by
  unfold execVcmacjw
  try dsimp only
  repeat' first
    | with_reducible assumption | with_reducible exact Keep.refl _ | with_reducible apply keep_vArith

theorem keep_execVmerge {p : State} {c : Fin 96} {f : VArith} {s : State} (hk : Keep p s) :
    KeepR p (execVmerge c f s) := by
  unfold execVmerge
  try dsimp only
  repeat' first
    | with_reducible assumption | with_reducible exact Keep.refl _ | with_reducible apply keep_onCore
    | with_reducible apply keep_exception | with_reducible apply keep_corePut | intro _ | split

theorem keep_execJmp {p : State} {c : Fin 96} {imm : BitVec 26} {s : State} (hk : Keep p s) :
    KeepR p (execJmp c imm s) := by
  unfold execJmp
  try dsimp only
  repeat' first
    | with_reducible assumption | with_reducible exact Keep.refl _ | with_reducible apply keep_onCore
    | with_reducible apply keep_corePut | intro _

theorem keep_writesTick {p : State} {s : State} (hk : Keep p s) :
    Keep p (writesTick s) := by
  unfold writesTick
  try dsimp only
  repeat' first
    | with_reducible assumption | with_reducible exact Keep.refl _ | with_reducible apply keep_drainWrites
    | with_reducible refine Keep.ite ?_ ?_ | with_reducible refine Keep.ite2 ?_ ?_
    | with_reducible refine Keep.ite3 ?_ ?_ | with_reducible refine KeepR.ite ?_ ?_
    | with_reducible refine KeepR.next ?_ | with_reducible refine Keep.foldl ?_ ?_
    | with_reducible refine Keep.foldl2 ?_ ?_ | with_reducible refine Keep.foldl3 ?_ ?_
    | with_reducible refine Keep.id ?_ | fail_if_no_progress with_reducible refine Keep.rec_of ?_ rfl rfl rfl | intro _

theorem keep_execVmor {p : State} {c : Fin 96} {md ms1 ms2 : Fin 8} {s : State} (hk : Keep p s) :
    KeepR p (execVmor c md ms1 ms2 s) := by
  unfold execVmor
  try dsimp only
  repeat' first
    | with_reducible assumption | with_reducible exact Keep.refl _ | with_reducible apply keep_vMask

theorem keep_execVmsuw {p : State} {c : Fin 96} {f : VArith} {s : State} (hk : Keep p s) :
    KeepR p (execVmsuw c f s) := by
  unfold execVmsuw
  try dsimp only
  repeat' first
    | with_reducible assumption | with_reducible exact Keep.refl _ | with_reducible apply keep_vArith

theorem keep_execBlt {p : State} {c : Fin 96} {rs1 rs2 : Fin 32} {imm : BitVec 16} {s : State} (hk : Keep p s) :
    KeepR p (execBlt c rs1 rs2 imm s) := by
  unfold execBlt
  try dsimp only
  repeat' first
    | with_reducible assumption | with_reducible exact Keep.refl _ | with_reducible apply keep_branch

theorem keep_execVmandn {p : State} {c : Fin 96} {md ms1 ms2 : Fin 8} {s : State} (hk : Keep p s) :
    KeepR p (execVmandn c md ms1 ms2 s) := by
  unfold execVmandn
  try dsimp only
  repeat' first
    | with_reducible assumption | with_reducible exact Keep.refl _ | with_reducible apply keep_vMask

theorem keep_execMac {p : State} {c : Fin 96} {acc : Fin 4} {rs1 rs2 : Fin 32} {s : State} (hk : Keep p s) :
    KeepR p (execMac c acc rs1 rs2 s) := by
  unfold execMac
  try dsimp only
  repeat' first
    | with_reducible assumption | with_reducible exact Keep.refl _ | with_reducible apply keep_onCore
    | with_reducible apply keep_corePut | intro _

theorem keep_execPopc {p : State} {c : Fin 96} {rd rs1 : Fin 32} {s : State} (hk : Keep p s) :
    KeepR p (execPopc c rd rs1 s) := by
  unfold execPopc
  try dsimp only
  repeat' first
    | with_reducible assumption | with_reducible exact Keep.refl _ | with_reducible apply keep_alu1

theorem keep_execDivu {p : State} {c : Fin 96} {rd rs1 rs2 : Fin 32} {s : State} (hk : Keep p s) :
    KeepR p (execDivu c rd rs1 rs2 s) := by
  unfold execDivu
  try dsimp only
  repeat' first
    | with_reducible assumption | with_reducible exact Keep.refl _ | with_reducible apply keep_alu2

theorem keep_execVmand {p : State} {c : Fin 96} {md ms1 ms2 : Fin 8} {s : State} (hk : Keep p s) :
    KeepR p (execVmand c md ms1 ms2 s) := by
  unfold execVmand
  try dsimp only
  repeat' first
    | with_reducible assumption | with_reducible exact Keep.refl _ | with_reducible apply keep_vMask

theorem keep_execVfma {p : State} {c : Fin 96} {f : VArith} {s : State} (hk : Keep p s) :
    KeepR p (execVfma c f s) := by
  unfold execVfma
  try dsimp only
  repeat' first
    | with_reducible assumption | with_reducible exact Keep.refl _ | with_reducible apply keep_vArith

theorem keep_execBeq {p : State} {c : Fin 96} {rs1 rs2 : Fin 32} {imm : BitVec 16} {s : State} (hk : Keep p s) :
    KeepR p (execBeq c rs1 rs2 imm s) := by
  unfold execBeq
  try dsimp only
  repeat' first
    | with_reducible assumption | with_reducible exact Keep.refl _ | with_reducible apply keep_branch

theorem keep_execVcmulq {p : State} {c : Fin 96} {f : VArith} {s : State} (hk : Keep p s) :
    KeepR p (execVcmulq c f s) := by
  unfold execVcmulq
  try dsimp only
  repeat' first
    | with_reducible assumption | with_reducible exact Keep.refl _ | with_reducible apply keep_vArith

theorem keep_execRemu {p : State} {c : Fin 96} {rd rs1 rs2 : Fin 32} {s : State} (hk : Keep p s) :
    KeepR p (execRemu c rd rs1 rs2 s) := by
  unfold execRemu
  try dsimp only
  repeat' first
    | with_reducible assumption | with_reducible exact Keep.refl _ | with_reducible apply keep_alu2

theorem keep_execSra {p : State} {c : Fin 96} {rd rs1 rs2 : Fin 32} {s : State} (hk : Keep p s) :
    KeepR p (execSra c rd rs1 rs2 s) := by
  unfold execSra
  try dsimp only
  repeat' first
    | with_reducible assumption | with_reducible exact Keep.refl _ | with_reducible apply keep_alu2

theorem keep_execAndOp {p : State} {c : Fin 96} {rd rs1 rs2 : Fin 32} {s : State} (hk : Keep p s) :
    KeepR p (execAndOp c rd rs1 rs2 s) := by
  unfold execAndOp
  try dsimp only
  repeat' first
    | with_reducible assumption | with_reducible exact Keep.refl _ | with_reducible apply keep_alu2

end Sys2Proof.Machine
end

