-- ==== Sys2Proof/Laws/KeepRadio.lean ====
section
/-!
SUPPORT. What commands keep (part, queue, canonical memory): Weft, Cox, Spool, the baseband and chirp.
-/
namespace Sys2Proof.Machine
open Sys2Proof

theorem keep_carriersPortDown {p : State} {p_ : Nat} {s : State} (hk : Keep p s) :
    Keep p (carriersPortDown p_ s) := by
  unfold carriersPortDown
  try dsimp only
  repeat' first
    | with_reducible assumption | with_reducible exact Keep.refl _ | with_reducible apply keep_raiseLim
    | with_reducible refine Keep.foldl ?_ ?_ | intro _ | split

theorem keep_coxMod {p : State} {f : Cox → Cox} {s : State} (hk : Keep p s) :
    Keep p (coxMod f s) := by
  unfold coxMod
  try dsimp only
  repeat' first
    | with_reducible assumption | with_reducible exact Keep.refl _
    | fail_if_no_progress with_reducible refine Keep.rec_of ?_ rfl rfl rfl

theorem keep_switchRef {p : State} {new : Nat} {s : State} (hk : Keep p s) :
    Keep p (switchRef new s) := by
  unfold switchRef
  try dsimp only
  repeat' first
    | with_reducible assumption | with_reducible exact Keep.refl _ | with_reducible apply keep_raise
    | with_reducible apply keep_coxMod | split

theorem keep_carriersDegraded {p : State} {st : Nat} {s : State} (hk : Keep p s) :
    Keep p (carriersDegraded st s) := by
  unfold carriersDegraded
  try dsimp only
  repeat' first
    | with_reducible assumption | with_reducible exact Keep.refl _ | with_reducible apply keep_raiseLim
    | with_reducible refine Keep.foldl ?_ ?_ | intro _ | split

theorem keep_setTime {p : State} {new : TimeState} {s : State} (hk : Keep p s) :
    Keep p (setTime new s) := by
  unfold setTime
  try dsimp only
  repeat' first
    | with_reducible assumption | with_reducible exact Keep.refl _ | with_reducible apply keep_coxMod
    | with_reducible apply keep_raise | with_reducible apply keep_carriersDegraded | split

theorem keep_selectRef {p : State} {s : State} (hk : Keep p s) :
    Keep p (selectRef s) := by
  unfold selectRef
  try dsimp only
  repeat' first
    | with_reducible assumption | with_reducible exact Keep.refl _ | with_reducible apply keep_raiseLim
    | with_reducible apply keep_switchRef | with_reducible apply keep_setTime | split

theorem keep_ptpPut {p : State} {p_ : Nat} {x : PtpPort} {s : State} (hk : Keep p s) :
    Keep p (ptpPut p_ x s) := by
  unfold ptpPut
  try dsimp only
  repeat' first
    | with_reducible assumption | with_reducible exact Keep.refl _ | with_reducible apply keep_coxMod

theorem keep_portDemote {p : State} {p_ : Nat} {s : State} (hk : Keep p s) :
    Keep p (portDemote p_ s) := by
  unfold portDemote
  try dsimp only
  repeat' first
    | with_reducible assumption | with_reducible exact Keep.refl _ | with_reducible apply keep_ptpPut
    | with_reducible refine Keep.ite ?_ ?_

theorem keep_portRestart {p : State} {old : Bytes} {p_ : Nat} {s : State} (hk : Keep p s) :
    Keep p (portRestart old p_ s) := by
  unfold portRestart
  try dsimp only
  repeat' first
    | with_reducible assumption | with_reducible exact Keep.refl _ | with_reducible apply keep_ptpPut
    | split

theorem keep_timeApplied {p : State} {old : Bytes} {s : State} (hk : Keep p s) :
    Keep p (timeApplied old s) := by
  unfold timeApplied
  try dsimp only
  repeat' first
    | with_reducible assumption | with_reducible exact Keep.refl _ | with_reducible apply keep_selectRef
    | with_reducible apply keep_portDemote | with_reducible apply keep_portRestart
    | with_reducible refine Keep.foldl ?_ ?_ | intro _

theorem keep_serialMod {p : State} {f : Serial → Serial} {s : State} (hk : Keep p s) :
    Keep p (serialMod f s) := by
  unfold serialMod
  try dsimp only
  repeat' first
    | with_reducible assumption | with_reducible exact Keep.refl _
    | fail_if_no_progress with_reducible refine Keep.rec_of ?_ rfl rfl rfl

theorem keep_routerPut {p : State} {n : Nat} {x : Router} {s : State} (hk : Keep p s) :
    Keep p (routerPut n x s) := by
  unfold routerPut
  try dsimp only
  repeat' first
    | with_reducible assumption | with_reducible exact Keep.refl _
    | fail_if_no_progress with_reducible refine Keep.rec_of ?_ rfl rfl rfl

theorem keep_drainMod {p : State} {d : Drain} {f : Drain → List Drain} {s : State} (hk : Keep p s) :
    Keep p (drainMod d f s) := by
  unfold drainMod
  try dsimp only
  repeat' first
    | with_reducible assumption | with_reducible exact Keep.refl _
    | fail_if_no_progress with_reducible refine Keep.rec_of ?_ rfl rfl rfl

theorem keep_drainEnd {p : State} {n : Nat} {s : State} (hk : Keep p s) :
    Keep p (drainEnd n s) := by
  unfold drainEnd
  try dsimp only
  repeat' first
    | with_reducible assumption | with_reducible exact Keep.refl _ | with_reducible apply keep_routerPut
    | with_reducible apply keep_drainMod | with_reducible apply keep_raise | with_reducible apply keep_completeLong
    | split

theorem keep_carrierStatsOp {p : State} {r : Request} {s : State} (hk : Keep p s) :
    Keep p (carrierStatsOp r s) := by
  unfold carrierStatsOp
  try dsimp only
  repeat' first
    | with_reducible assumption | with_reducible exact Keep.refl _ | with_reducible apply keep_runCmd
    | with_reducible refine Keep.ite ?_ ?_ | with_reducible refine Keep.ite2 ?_ ?_
    | with_reducible refine Keep.ite3 ?_ ?_ | with_reducible refine KeepR.ite ?_ ?_
    | with_reducible refine KeepR.next ?_ | with_reducible refine Keep.foldl ?_ ?_
    | with_reducible refine Keep.foldl2 ?_ ?_ | with_reducible refine Keep.foldl3 ?_ ?_
    | with_reducible refine Keep.id ?_ | fail_if_no_progress with_reducible refine Keep.rec_of ?_ rfl rfl rfl | intro _
    | split

theorem keep_linkPut {p : State} {l : Nat} {x : LinkRun} {s : State} (hk : Keep p s) :
    Keep p (linkPut l x s) := by
  unfold linkPut
  try dsimp only
  repeat' first
    | with_reducible assumption | with_reducible exact Keep.refl _ | with_reducible apply keep_serialMod

theorem keep_chirpPut {p : State} {ch : Nat} {x : ChirpCh} {s : State} (hk : Keep p s) :
    Keep p (chirpPut ch x s) := by
  unfold chirpPut
  try dsimp only
  repeat' first
    | with_reducible assumption | with_reducible exact Keep.refl _
    | fail_if_no_progress with_reducible refine Keep.rec_of ?_ rfl rfl rfl

theorem keep_dropDemod {p : State} {ch d : Nat} {s : State} (hk : Keep p s) :
    Keep p (dropDemod ch d s) := by
  unfold dropDemod
  try dsimp only
  repeat' first
    | with_reducible assumption | with_reducible exact Keep.refl _ | with_reducible apply keep_chirpPut

theorem keep_freeNibbles {p : State} {y0 : List (Option (Nat × Nat))} {y1 : State} (hk : Keep p y1) :
    Keep p (freeNibbles y0 y1).2 := by
  induction y0 generalizing y1 with
  | nil => exact hk
  | cons b r ih =>
    cases b with
    | none => exact ih (keep_draw hk)
    | some x => exact ih hk

theorem keep_decodePayload {p : State} {so : Nat} {h : Bytes} {l : List (BitVec 11)} {s : State} (hk : Keep p s) :
    Keep p (decodePayload so h l s).2.2 := by
  unfold decodePayload
  try dsimp only
  repeat' first
    | with_reducible assumption | with_reducible exact Keep.refl _ | with_reducible apply keep_freeNibbles
    | split

theorem keep_tagUpdate {p : State} {b h : Bytes} {ch last : Nat} {x : RxData} {s : State} (hk : Keep p s) :
    Keep p (tagUpdate b h ch last x s).2 := by
  unfold tagUpdate
  try dsimp only
  repeat' first
    | with_reducible assumption | with_reducible exact Keep.refl _
    | fail_if_no_progress with_reducible refine Keep.rec_of ?_ rfl rfl rfl | split

theorem keep_cssCount {p : State} {ch k : Nat} {s : State} (hk : Keep p s) :
    Keep p (cssCount ch k s) := by
  unfold cssCount
  try dsimp only
  repeat' first
    | with_reducible assumption | with_reducible exact Keep.refl _ | with_reducible apply keep_cntBump
    | split

theorem keep_cssEvent {p : State} {code ch k : Nat} {s : State} (hk : Keep p s) :
    Keep p (cssEvent code ch k s) := by
  unfold cssEvent
  try dsimp only
  repeat' first
    | with_reducible assumption | with_reducible exact Keep.refl _ | with_reducible apply keep_raiseLim
    | with_reducible refine Keep.ite ?_ ?_

theorem keep_rxRecord {p : State} {b : Bytes} {ch d outcome : Nat} {known : Option Bool} {dup : Bool} {so time last
    floor corr crc : Nat} {h payload : Bytes} {x : RxData} {s : State} (hk : Keep p s) :
    Keep p (rxRecord b ch d outcome known dup so time last floor corr crc h payload x s) := by
  unfold rxRecord
  try dsimp only
  repeat' first
    | with_reducible assumption | with_reducible exact Keep.refl _ | with_reducible apply keep_cssCount
    | with_reducible apply keep_unitSend | with_reducible apply keep_cssEvent | split
    | with_reducible refine Keep.pair ‹_ = (_, _)› ?_

theorem keep_receptionEnd {p : State} {ch d : Nat} {x : RxData} {s : State} (hk : Keep p s) :
    Keep p (receptionEnd ch d x s) := by
  unfold receptionEnd
  try dsimp only
  repeat' first
    | with_reducible assumption | with_reducible exact Keep.refl _ | with_reducible apply keep_dropDemod
    | with_reducible apply keep_decodePayload | with_reducible apply keep_tagUpdate | with_reducible apply keep_cssCount
    | with_reducible apply keep_rxRecord | split

theorem keep_audioMod {p : State} {f : Audio → Audio} {s : State} (hk : Keep p s) :
    Keep p (audioMod f s) := by
  unfold audioMod
  try dsimp only
  repeat' first
    | with_reducible assumption | with_reducible exact Keep.refl _
    | fail_if_no_progress with_reducible refine Keep.rec_of ?_ rfl rfl rfl

theorem keep_legCount {p : State} {l k n : Nat} {s : State} (hk : Keep p s) :
    Keep p (legCount l k n s) := by
  unfold legCount
  try dsimp only
  repeat' first
    | with_reducible assumption | with_reducible exact Keep.refl _ | with_reducible apply keep_cntBump
    | split

theorem keep_audioStep {p : State} {d : Int} {running : Nat → Bool} {s : State} (hk : Keep p s) :
    Keep p (audioStep d running s) := by
  unfold audioStep
  try dsimp only
  repeat' first
    | with_reducible assumption | with_reducible exact Keep.refl _ | with_reducible apply keep_audioMod
    | with_reducible apply keep_legCount | with_reducible refine Keep.foldl ?_ ?_ | intro _ | split

theorem keep_shiftMedia {p : State} {d : Int} {s : State} (hk : Keep p s) :
    Keep p (shiftMedia d s) := by
  unfold shiftMedia
  try dsimp only
  repeat' first
    | with_reducible assumption | with_reducible exact Keep.refl _ | with_reducible apply keep_audioStep
    | fail_if_no_progress with_reducible refine Keep.rec_of ?_ rfl rfl rfl

theorem keep_shiftTasks {p : State} {d : Int} {s : State} (hk : Keep p s) :
    Keep p (shiftTasks d s) := by
  unfold shiftTasks
  try dsimp only
  repeat' first
    | with_reducible assumption | with_reducible exact Keep.refl _
    | fail_if_no_progress with_reducible refine Keep.rec_of ?_ rfl rfl rfl

theorem keep_coxSet {p : State} {count : Nat} {s : State} (hk : Keep p s) :
    Keep p (coxSet count s) := by
  unfold coxSet
  try dsimp only
  repeat' first
    | with_reducible assumption | with_reducible exact Keep.refl _ | with_reducible apply keep_coxMod
    | with_reducible apply keep_raise | with_reducible apply keep_shiftMedia | with_reducible apply keep_shiftTasks
    | fail_if_no_progress with_reducible refine Keep.rec_of ?_ rfl rfl rfl

theorem keep_setByCommand {p : State} {count : Nat} {first : TimeState} {s : State} (hk : Keep p s) :
    Keep p (setByCommand count first s) := by
  unfold setByCommand
  try dsimp only
  repeat' first
    | with_reducible assumption | with_reducible exact Keep.refl _ | with_reducible apply keep_coxSet
    | with_reducible apply keep_coxMod | with_reducible apply keep_setTime | split

theorem keep_applyNextPps {p : State} {n : Nat} {s : State} (hk : Keep p s) :
    Keep p (applyNextPps n s) := by
  unfold applyNextPps
  try dsimp only
  repeat' first
    | with_reducible assumption | with_reducible exact Keep.refl _ | with_reducible apply keep_coxMod
    | with_reducible apply keep_completeLong | with_reducible apply keep_setByCommand | split

theorem keep_ppsPut {p : State} {n : Nat} {x : PpsIn} {s : State} (hk : Keep p s) :
    Keep p (ppsPut n x s) := by
  unfold ppsPut
  try dsimp only
  repeat' first
    | with_reducible assumption | with_reducible exact Keep.refl _ | with_reducible apply keep_coxMod

theorem keep_ppsValidate {p : State} {n : Nat} {x : PpsIn} {s : State} (hk : Keep p s) :
    Keep p (ppsValidate n x s) := by
  unfold ppsValidate
  try dsimp only
  repeat' first
    | with_reducible assumption | with_reducible exact Keep.refl _ | with_reducible apply keep_selectRef
    | with_reducible apply keep_ppsPut

theorem keep_startSlew {p : State} {off : Int} {s : State} (hk : Keep p s) :
    Keep p (startSlew off s) := by
  unfold startSlew
  try dsimp only
  repeat' first
    | with_reducible assumption | with_reducible exact Keep.refl _ | with_reducible apply keep_coxMod

theorem keep_runServo {p : State} {off : Int} {s : State} (hk : Keep p s) :
    Keep p (runServo off s) := by
  unfold runServo
  try dsimp only
  repeat' first
    | with_reducible assumption | with_reducible exact Keep.refl _ | with_reducible apply keep_coxMod

theorem keep_measure {p : State} {r : Nat} {off : Int} {s : State} (hk : Keep p s) :
    Keep p (measure r off s) := by
  unfold measure
  try dsimp only
  repeat' first
    | with_reducible assumption | with_reducible exact Keep.refl _ | with_reducible apply keep_coxMod
    | with_reducible apply keep_setTime | with_reducible apply keep_coxSet | with_reducible apply keep_startSlew
    | with_reducible apply keep_runServo | split

theorem keep_ppsEdge {p : State} {n : Nat} {s : State} (hk : Keep p s) :
    Keep p (ppsEdge n s) := by
  unfold ppsEdge
  try dsimp only
  repeat' first
    | with_reducible assumption | with_reducible exact Keep.refl _ | with_reducible apply keep_applyNextPps
    | with_reducible apply keep_regBump | with_reducible apply keep_ppsValidate | with_reducible apply keep_measure
    | split

theorem keep_routeOp {p : State} {n v : Nat} {s : State} (hk : Keep p s) :
    Keep p (routeOp n v s) := by
  unfold routeOp
  try dsimp only
  repeat' first
    | with_reducible assumption | with_reducible exact Keep.refl _ | with_reducible apply keep_regPutF
    | with_reducible apply keep_cntBump | with_reducible apply keep_routerPut | split

theorem keep_taskTake {p : State} {e : Nat × Object} {s : State} (hk : Keep p s) :
    Keep p (taskTake e s) := by
  unfold taskTake
  try dsimp only
  repeat' first
    | with_reducible assumption | with_reducible exact Keep.refl _ | with_reducible refine Keep.ite ?_ ?_
    | with_reducible refine Keep.ite2 ?_ ?_ | with_reducible refine Keep.ite3 ?_ ?_
    | with_reducible refine KeepR.ite ?_ ?_ | with_reducible refine KeepR.next ?_
    | with_reducible refine Keep.foldl ?_ ?_ | with_reducible refine Keep.foldl2 ?_ ?_
    | with_reducible refine Keep.foldl3 ?_ ?_ | with_reducible refine Keep.id ?_
    | fail_if_no_progress with_reducible refine Keep.rec_of ?_ rfl rfl rfl | intro _ | split

theorem keep_c0Set {p : State} {obj : Nat} {es : List C0Entry} {s : State} (hk : Keep p s) :
    Keep p (c0Set obj es s) := by
  unfold c0Set
  try dsimp only
  repeat' first
    | with_reducible assumption | with_reducible exact Keep.refl _
    | fail_if_no_progress with_reducible refine Keep.rec_of ?_ rfl rfl rfl

theorem keep_fhRefresh {p : State} {s : State} (hk : Keep p s) :
    Keep p (fhRefresh s) := by
  unfold fhRefresh
  try dsimp only
  repeat' first
    | with_reducible assumption | with_reducible exact Keep.refl _ | with_reducible apply keep_regPut

theorem keep_carrierPut {p : State} {c : Nat} {x : CarrierRun} {s : State} (hk : Keep p s) :
    Keep p (carrierPut c x s) := by
  unfold carrierPut
  try dsimp only
  repeat' first
    | with_reducible assumption | with_reducible exact Keep.refl _
    | fail_if_no_progress with_reducible refine Keep.rec_of ?_ rfl rfl rfl

theorem keep_carrierBegin {p : State} {id : Nat} {s : State} (hk : Keep p s) :
    Keep p (carrierBegin id s) := by
  unfold carrierBegin
  try dsimp only
  repeat' first
    | with_reducible assumption | with_reducible exact Keep.refl _ | with_reducible apply keep_taskTake
    | with_reducible apply keep_c0Set | with_reducible apply keep_objPut | with_reducible apply keep_cntZeroAll
    | with_reducible apply keep_fhRefresh | with_reducible apply keep_carrierPut | split

theorem keep_cssClear {p : State} {ch : Nat} {s : State} (hk : Keep p s) :
    Keep p (cssClear ch s) := by
  unfold cssClear
  try dsimp only
  repeat' first
    | with_reducible assumption | with_reducible exact Keep.refl _ | with_reducible apply keep_cntZero
    | with_reducible refine Keep.foldl ?_ ?_ | intro _

theorem keep_chirpGroupPut {p : State} {g : Nat} {x : ChirpGroup} {s : State} (hk : Keep p s) :
    Keep p (chirpGroupPut g x s) := by
  unfold chirpGroupPut
  try dsimp only
  repeat' first
    | with_reducible assumption | with_reducible exact Keep.refl _
    | fail_if_no_progress with_reducible refine Keep.rec_of ?_ rfl rfl rfl

theorem keep_chirpBegin {p : State} {id : Nat} {s : State} (hk : Keep p s) :
    Keep p (chirpBegin id s) := by
  unfold chirpBegin
  try dsimp only
  repeat' first
    | with_reducible assumption | with_reducible exact Keep.refl _ | with_reducible apply keep_fhRefresh
    | with_reducible apply keep_taskTake | with_reducible apply keep_c0Set | with_reducible apply keep_regPutF
    | with_reducible apply keep_cssClear | with_reducible apply keep_chirpPut | with_reducible apply keep_chirpGroupPut
    | with_reducible refine Keep.foldl ?_ ?_ | intro _ | split

theorem keep_audioGroupPut {p : State} {g : Nat} {x : AudioGroup} {s : State} (hk : Keep p s) :
    Keep p (audioGroupPut g x s) := by
  unfold audioGroupPut
  try dsimp only
  repeat' first
    | with_reducible assumption | with_reducible exact Keep.refl _ | with_reducible apply keep_audioMod

theorem keep_execSpoolEnq {p : State} {i : Initiator} {handle : BitVec 32} {s : State} (hk : Keep p s) :
    KeepR p (execSpoolEnq i handle s) := by
  unfold execSpoolEnq
  try dsimp only
  repeat' first
    | with_reducible assumption | with_reducible exact Keep.refl _ | with_reducible apply keep_done
    | with_reducible apply keep_spoolEnqOp

theorem keep_gwWinWrite {p : State} {n v : Nat} {s : State} (hk : Keep p s) :
    Keep p (gwWinWrite n v s) := by
  unfold gwWinWrite
  try dsimp only
  repeat' first
    | with_reducible assumption | with_reducible exact Keep.refl _ | with_reducible apply keep_routerPut
    | split

theorem keep_taskGive {p : State} {id : Nat} {s : State} (hk : Keep p s) :
    Keep p (taskGive id s) := by
  unfold taskGive
  try dsimp only
  repeat' first
    | with_reducible assumption | with_reducible exact Keep.refl _ | with_reducible refine Keep.ite ?_ ?_
    | with_reducible refine Keep.ite2 ?_ ?_ | with_reducible refine Keep.ite3 ?_ ?_
    | with_reducible refine KeepR.ite ?_ ?_ | with_reducible refine KeepR.next ?_
    | with_reducible refine Keep.foldl ?_ ?_ | with_reducible refine Keep.foldl2 ?_ ?_
    | with_reducible refine Keep.foldl3 ?_ ?_ | with_reducible refine Keep.id ?_
    | fail_if_no_progress with_reducible refine Keep.rec_of ?_ rfl rfl rfl

theorem keep_carrierDiscard {p : State} {c : Nat} {s : State} (hk : Keep p s) :
    Keep p (carrierDiscard c s) := by
  unfold carrierDiscard
  try dsimp only
  repeat' first
    | with_reducible assumption | with_reducible exact Keep.refl _ | with_reducible refine Keep.ite ?_ ?_
    | with_reducible refine Keep.ite2 ?_ ?_ | with_reducible refine Keep.ite3 ?_ ?_
    | with_reducible refine KeepR.ite ?_ ?_ | with_reducible refine KeepR.next ?_
    | with_reducible refine Keep.foldl ?_ ?_ | with_reducible refine Keep.foldl2 ?_ ?_
    | with_reducible refine Keep.foldl3 ?_ ?_ | with_reducible refine Keep.id ?_
    | fail_if_no_progress with_reducible refine Keep.rec_of ?_ rfl rfl rfl

theorem keep_linkQueue {p : State} {l cls : Nat} {lseq : Option Nat} {kind : String} {data : Bytes} {s : State} (hk :
    Keep p s) :
    Keep p (linkQueue l cls lseq kind data s) := by
  unfold linkQueue
  try dsimp only
  repeat' first
    | with_reducible assumption | with_reducible exact Keep.refl _ | with_reducible apply keep_linkPut

theorem keep_linkSend {p : State} {l cls : Nat} {kind : String} {data : Bytes} {s : State} (hk : Keep p s) :
    Keep p (linkSend l cls kind data s) := by
  unfold linkSend
  try dsimp only
  repeat' first
    | with_reducible assumption | with_reducible exact Keep.refl _ | with_reducible apply keep_linkPut
    | with_reducible apply keep_linkQueue | split

theorem keep_seqTaken {p : State} {d : Nat} {s : State} (hk : Keep p s) :
    Keep p (seqTaken d s) := by
  unfold seqTaken
  try dsimp only
  repeat' first
    | with_reducible assumption | with_reducible exact Keep.refl _
    | with_reducible apply keep_serialMod

theorem keep_sendData {p : State} {d cls : Nat} {kind : String} {body : Bytes} {s : State} (hk : Keep p s) :
    Keep p (sendData d cls kind body s) := by
  unfold sendData
  try dsimp only
  repeat' first
    | with_reducible assumption | with_reducible exact Keep.refl _
    | with_reducible apply keep_seqTaken
    | with_reducible apply keep_linkSend
    | with_reducible refine Keep.foldl ?_ ?_ | intro _ | split

theorem keep_sendTo {p : State} {d cls : Nat} {kind : String} {select data : Bytes} {s : State} (hk : Keep p s) :
    Keep p (sendTo d cls kind select data s) := by
  unfold sendTo
  try dsimp only
  repeat' first
    | with_reducible assumption | with_reducible exact Keep.refl _
    | with_reducible apply keep_sendData
    | with_reducible refine Keep.foldl ?_ ?_ | intro _

theorem keep_legPut {p : State} {l : Nat} {x : Leg} {s : State} (hk : Keep p s) :
    Keep p (legPut l x s) := by
  unfold legPut
  try dsimp only
  repeat' first
    | with_reducible assumption | with_reducible exact Keep.refl _ | with_reducible apply keep_audioMod

theorem keep_audioLate {p : State} {l : Nat} {s : State} (hk : Keep p s) :
    Keep p (audioLate l s) := by
  unfold audioLate
  try dsimp only
  repeat' first
    | with_reducible assumption | with_reducible exact Keep.refl _ | with_reducible apply keep_raiseLim
    | with_reducible refine Keep.ite ?_ ?_

theorem keep_placeFrame {p : State} {l : Nat} {x : Leg} {h : Bytes} {s : State} (hk : Keep p s) :
    Keep p (placeFrame l x h s) := by
  unfold placeFrame
  try dsimp only
  repeat' first
    | with_reducible assumption | with_reducible exact Keep.refl _ | with_reducible apply keep_legCount
    | with_reducible apply keep_legPut | with_reducible apply keep_audioLate | split

theorem keep_bandGap {p : State} {g : Nat} {s : State} (hk : Keep p s) :
    Keep p (bandGap g s) := by
  unfold bandGap
  try dsimp only
  repeat' first
    | with_reducible assumption | with_reducible exact Keep.refl _ | with_reducible apply keep_cssEvent
    | with_reducible apply keep_cssCount | with_reducible apply keep_chirpGroupPut
    | with_reducible refine Keep.foldl ?_ ?_ | intro _ | split

theorem keep_coxLatch {p : State} {k : Nat} {s : State} (hk : Keep p s) :
    Keep p (coxLatch k s) := by
  unfold coxLatch
  try dsimp only
  repeat' first
    | with_reducible assumption | with_reducible exact Keep.refl _ | with_reducible apply keep_regPut
    | with_reducible apply keep_answer

theorem keep_ppsTsRead {p : State} {n : Nat} {s : State} (hk : Keep p s) :
    Keep p (ppsTsRead n s) := by
  unfold ppsTsRead
  try dsimp only
  repeat' first
    | with_reducible assumption | with_reducible exact Keep.refl _ | with_reducible apply keep_answer
    | with_reducible apply keep_regPut

theorem keep_sendBlocks {p : State} {l y0 : Nat} {y1 : Option Nat} {y2 : State} (hk : Keep p y2) :
    Keep p (sendBlocks l y0 y1 y2) := by
  induction y0 generalizing l y1 y2 with
  | zero => unfold sendBlocks; exact hk
  | succ n ih =>
    unfold sendBlocks
    try dsimp only
    repeat' first
      | with_reducible assumption | with_reducible exact Keep.refl _ | with_reducible apply ih
      | with_reducible apply keep_linkPut | with_reducible apply keep_sendOut | with_reducible refine Keep.ite ?_ ?_
      | with_reducible refine Keep.ite2 ?_ ?_ | with_reducible refine Keep.ite3 ?_ ?_
      | with_reducible refine KeepR.ite ?_ ?_ | with_reducible refine KeepR.next ?_
      | with_reducible refine Keep.foldl ?_ ?_ | with_reducible refine Keep.foldl2 ?_ ?_
      | with_reducible refine Keep.foldl3 ?_ ?_ | with_reducible refine Keep.id ?_
      | fail_if_no_progress with_reducible refine Keep.rec_of ?_ rfl rfl rfl | intro _ | split

theorem keep_linkTick {p : State} {l : Nat} {s : State} (hk : Keep p s) :
    Keep p (linkTick l s) := by
  unfold linkTick
  try dsimp only
  repeat' first
    | with_reducible assumption | with_reducible exact Keep.refl _ | with_reducible apply keep_linkPut
    | with_reducible apply keep_sendBlocks | with_reducible refine Keep.ite ?_ ?_

theorem keep_spentPut {p : State} {dst src n : Nat} {s : State} (hk : Keep p s) :
    Keep p (spentPut dst src n s) := by
  unfold spentPut
  try dsimp only
  repeat' first
    | with_reducible assumption | with_reducible exact Keep.refl _ | with_reducible apply keep_routerPut

theorem keep_creditSync {p : State} {src dst : Nat} {s : State} (hk : Keep p s) :
    Keep p (creditSync src dst s) := by
  unfold creditSync
  try dsimp only
  repeat' first
    | with_reducible assumption | with_reducible exact Keep.refl _ | with_reducible apply keep_spentPut

theorem keep_execSpoolDeq {p : State} {i : Initiator} {s : State} (hk : Keep p s) :
    KeepR p (execSpoolDeq i s) := by
  unfold execSpoolDeq
  try dsimp only
  repeat' first
    | with_reducible assumption | with_reducible exact Keep.refl _ | with_reducible apply keep_done
    | with_reducible apply keep_spoolDeqOp

theorem keep_weftPathOp {p : State} {r : Request} {s : State} (hk : Keep p s) :
    Keep p (weftPathOp r s) := by
  unfold weftPathOp
  try dsimp only
  repeat' first
    | with_reducible assumption | with_reducible exact Keep.refl _ | with_reducible apply keep_runCmd
    | intro _

theorem keep_jointSend {p : State} {c id : Nat} {b : Bytes} {n k ant : Nat} {s : State} (hk : Keep p s) :
    Keep p (jointSend c id b n k ant s) := by
  unfold jointSend
  try dsimp only
  repeat' first
    | with_reducible assumption | with_reducible exact Keep.refl _ | with_reducible apply keep_sendTo
    | with_reducible refine Keep.foldl ?_ ?_ | intro _ | split

theorem keep_fhEvent {p : State} {c code : Nat} {data : Bytes} {s : State} (hk : Keep p s) :
    Keep p (fhEvent c code data s) := by
  unfold fhEvent
  try dsimp only
  repeat' first
    | with_reducible assumption | with_reducible exact Keep.refl _ | with_reducible apply keep_raiseLim
    | with_reducible refine Keep.ite ?_ ?_

theorem keep_ulLostEvent {p : State} {c : Nat} {s : State} (hk : Keep p s) :
    Keep p (ulLostEvent c s) := by
  unfold ulLostEvent
  try dsimp only
  repeat' first
    | with_reducible assumption | with_reducible exact Keep.refl _ | with_reducible apply keep_fhEvent

theorem keep_fhCount {p : State} {c k n : Nat} {s : State} (hk : Keep p s) :
    Keep p (fhCount c k n s) := by
  unfold fhCount
  try dsimp only
  repeat' first
    | with_reducible assumption | with_reducible exact Keep.refl _ | with_reducible apply keep_cntBump
    | split

theorem keep_ulOpen {p : State} {c id : Nat} {b : Bytes} {n k ant : Nat} {s : State} (hk : Keep p s) :
    Keep p (ulOpen c id b n k ant s).2 := by
  unfold ulOpen
  try dsimp only
  repeat' first
    | with_reducible assumption | with_reducible exact Keep.refl _ | with_reducible apply keep_ulLostEvent
    | with_reducible apply keep_fhCount | with_reducible apply keep_carrierPut | with_reducible apply keep_alloc
    | with_reducible apply keep_fillPacket | fail_if_no_progress with_reducible refine Keep.rec_of ?_ rfl rfl rfl
    | split | with_reducible refine Keep.pair ‹_ = (_, _)› ?_

theorem keep_ulMod {p : State} {c n k ant : Nat} {f : UlSymbol → UlSymbol} {s : State} (hk : Keep p s) :
    Keep p (ulMod c n k ant f s) := by
  unfold ulMod
  try dsimp only
  repeat' first
    | with_reducible assumption | with_reducible exact Keep.refl _ | with_reducible apply keep_carrierPut

theorem keep_ulComplete {p : State} {c id : Nat} {b : Bytes} {n k ant : Nat} {missing : Bool} {s : State} (hk : Keep p
    s) :
    Keep p (ulComplete c id b n k ant missing s) := by
  unfold ulComplete
  try dsimp only
  repeat' first
    | with_reducible assumption | with_reducible exact Keep.refl _ | with_reducible apply keep_ulMod
    | with_reducible apply keep_carrierPut

theorem keep_closeAntenna {p : State} {c id : Nat} {b : Bytes} {n k ant : Nat} {s : State} (hk : Keep p s) :
    Keep p (closeAntenna c id b n k ant s) := by
  unfold closeAntenna
  try dsimp only
  repeat' first
    | with_reducible assumption | with_reducible exact Keep.refl _ | with_reducible apply keep_ulOpen
    | with_reducible apply keep_carrierPut | with_reducible apply keep_ulComplete
    | with_reducible apply keep_ulLostEvent | with_reducible apply keep_fhCount | split

theorem keep_windowClose {p : State} {c n k : Nat} {s : State} (hk : Keep p s) :
    Keep p (windowClose c n k s) := by
  unfold windowClose
  try dsimp only
  repeat' first
    | with_reducible assumption | with_reducible exact Keep.refl _ | with_reducible apply keep_jointSend
    | with_reducible apply keep_closeAntenna | with_reducible apply keep_carrierPut
    | with_reducible refine Keep.foldl ?_ ?_ | intro _ | split

theorem keep_txResult {p : State} {b : Bytes} {launch ch m outcome cookie stop : Nat} {s : State} (hk : Keep p s) :
    Keep p (txResult b launch ch m outcome cookie stop s) := by
  unfold txResult
  try dsimp only
  repeat' first
    | with_reducible assumption | with_reducible exact Keep.refl _ | with_reducible apply keep_unitSend

theorem keep_handsetPut {p : State} {h : Nat} {x : Handset} {s : State} (hk : Keep p s) :
    Keep p (handsetPut h x s) := by
  unfold handsetPut
  try dsimp only
  repeat' first
    | with_reducible assumption | with_reducible exact Keep.refl _
    | fail_if_no_progress with_reducible refine Keep.rec_of ?_ rfl rfl rfl

theorem keep_handsetModifyOp {p : State} {r : Request} {s : State} (hk : Keep p s) :
    Keep p (handsetModifyOp r s) := by
  unfold handsetModifyOp
  try dsimp only
  repeat' first
    | with_reducible assumption | with_reducible exact Keep.refl _ | with_reducible apply keep_runCmd
    | with_reducible apply keep_handsetPut | intro _ | split

theorem keep_ppsMissing {p : State} {n : Nat} {s : State} (hk : Keep p s) :
    Keep p (ppsMissing n s) := by
  unfold ppsMissing
  try dsimp only
  repeat' first
    | with_reducible assumption | with_reducible exact Keep.refl _ | with_reducible apply keep_ppsPut
    | with_reducible apply keep_raiseLim | with_reducible apply keep_selectRef | split

theorem keep_handsetStatsOp {p : State} {r : Request} {s : State} (hk : Keep p s) :
    Keep p (handsetStatsOp r s) := by
  unfold handsetStatsOp
  try dsimp only
  repeat' first
    | with_reducible assumption | with_reducible exact Keep.refl _ | with_reducible apply keep_runCmd
    | intro _
    | split

theorem keep_stopQueued {p : State} {b : Bytes} {y0 : Nat} {y1 : State} (hk : Keep p y1) :
    Keep p (stopQueued b y0 y1) := by
  induction y0 generalizing b y1 with
  | zero => unfold stopQueued; exact hk
  | succ n ih =>
    unfold stopQueued
    try dsimp only
    repeat' first
      | with_reducible assumption | with_reducible exact Keep.refl _ | with_reducible apply ih
      | with_reducible apply keep_dequeue | with_reducible apply keep_takePacket | with_reducible apply keep_txResult | with_reducible apply keep_pktFree
      | split | with_reducible refine Keep.pair ‹_ = (_, _)› ?_

theorem keep_chirpStopping {p : State} {id : Nat} {s : State} (hk : Keep p s) :
    Keep p (chirpStopping id s) := by
  unfold chirpStopping
  try dsimp only
  repeat' first
    | with_reducible assumption | with_reducible exact Keep.refl _ | with_reducible apply keep_chirpPut
    | with_reducible apply keep_txResult | with_reducible apply keep_stopQueued | with_reducible refine Keep.foldl ?_ ?_
    | fail_if_no_progress with_reducible refine Keep.rec_of ?_ rfl rfl rfl | intro _ | split

theorem keep_rtrCfgWrite {p : State} {n v : Nat} {s : State} (hk : Keep p s) :
    Keep p (rtrCfgWrite n v s) := by
  unfold rtrCfgWrite
  try dsimp only
  repeat' first
    | with_reducible assumption | with_reducible exact Keep.refl _ | with_reducible apply keep_regPutF
    | split

theorem keep_bistOp {p : State} {n : Nat} {pass : Bool} {s : State} (hk : Keep p s) :
    Keep p (bistOp n pass s) := by
  unfold bistOp
  try dsimp only
  repeat' first
    | with_reducible assumption | with_reducible exact Keep.refl _ | with_reducible apply keep_regPutF
    | split

theorem keep_fhClearAll {p : State} {s : State} (hk : Keep p s) :
    Keep p (fhClearAll s) := by
  unfold fhClearAll
  try dsimp only
  repeat' first
    | with_reducible assumption | with_reducible exact Keep.refl _ | with_reducible apply keep_cntZeroAll

theorem keep_requestTimeout {p : State} {i : Initiator} {src dst tag a : Nat} {s : State} (hk : Keep p s) :
    Keep p (requestTimeout i src dst tag a s) := by
  unfold requestTimeout
  try dsimp only
  repeat' first
    | with_reducible assumption | with_reducible exact Keep.refl _ | with_reducible apply keep_routerPut
    | with_reducible apply keep_creditSync | with_reducible apply keep_raise | with_reducible apply keep_cntBump

theorem keep_keysClear {p : State} {h : Nat} {s : State} (hk : Keep p s) :
    Keep p (keysClear h s) := by
  unfold keysClear
  try dsimp only
  repeat' first
    | with_reducible assumption | with_reducible exact Keep.refl _ | with_reducible refine Keep.foldl ?_ ?_
    | fail_if_no_progress with_reducible refine Keep.rec_of ?_ rfl rfl rfl | intro _

theorem keep_sendUplane {p : State} {c id : Nat} {b : Bytes} {n k ant : Nat} {iq : Bytes} {s : State} (hk : Keep p s) :
    Keep p (sendUplane c id b n k ant iq s) := by
  unfold sendUplane
  try dsimp only
  repeat' first
    | with_reducible assumption | with_reducible exact Keep.refl _ | with_reducible apply keep_fhCount
    | with_reducible apply keep_emit | with_reducible refine Keep.foldl ?_ ?_ | intro _

theorem keep_holdoverExpiry {p : State} {s : State} (hk : Keep p s) :
    Keep p (holdoverExpiry s) := by
  unfold holdoverExpiry
  try dsimp only
  repeat' first
    | with_reducible assumption | with_reducible exact Keep.refl _ | with_reducible apply keep_setTime
    | split

theorem keep_ptpCount {p : State} {p_ k : Nat} {s : State} (hk : Keep p s) :
    Keep p (ptpCount p_ k s) := by
  unfold ptpCount
  try dsimp only
  repeat' first
    | with_reducible assumption | with_reducible exact Keep.refl _ | with_reducible apply keep_ptpPut

theorem keep_launchMessage {p : State} {x : Launch} {s : State} (hk : Keep p s) :
    Keep p (launchMessage x s) := by
  unfold launchMessage
  try dsimp only
  repeat' first
    | with_reducible assumption | with_reducible exact Keep.refl _
    | with_reducible apply keep_seqTaken
    | with_reducible apply keep_coxMod
    | with_reducible apply keep_ptpCount | with_reducible apply keep_linkPut | with_reducible apply keep_sendOut
    | with_reducible apply keep_emit | with_reducible refine Keep.ite ?_ ?_ | with_reducible refine Keep.ite2 ?_ ?_
    | with_reducible refine Keep.ite3 ?_ ?_ | with_reducible refine KeepR.ite ?_ ?_
    | with_reducible refine KeepR.next ?_ | with_reducible refine Keep.foldl ?_ ?_
    | with_reducible refine Keep.foldl2 ?_ ?_ | with_reducible refine Keep.foldl3 ?_ ?_
    | with_reducible refine Keep.id ?_ | fail_if_no_progress with_reducible refine Keep.rec_of ?_ rfl rfl rfl | intro _

theorem keep_launchTick {p : State} {s : State} (hk : Keep p s) :
    Keep p (launchTick s) := by
  unfold launchTick
  try dsimp only
  repeat' first
    | with_reducible assumption | with_reducible exact Keep.refl _ | with_reducible apply keep_launchMessage
    | with_reducible refine Keep.ite ?_ ?_ | with_reducible refine Keep.ite2 ?_ ?_
    | with_reducible refine Keep.ite3 ?_ ?_ | with_reducible refine KeepR.ite ?_ ?_
    | with_reducible refine KeepR.next ?_ | with_reducible refine Keep.foldl ?_ ?_
    | with_reducible refine Keep.foldl2 ?_ ?_ | with_reducible refine Keep.foldl3 ?_ ?_
    | with_reducible refine Keep.id ?_ | fail_if_no_progress with_reducible refine Keep.rec_of ?_ rfl rfl rfl | intro _

theorem keep_linkCe {p : State} {n port : Nat} {s : State} (hk : Keep p s) :
    Keep p (linkCe n port s) := by
  unfold linkCe
  try dsimp only
  repeat' first
    | with_reducible assumption | with_reducible exact Keep.refl _ | with_reducible apply keep_cntBump
    | with_reducible apply keep_raiseLim

theorem keep_spendFor {p : State} {h : WeftHead} {s : State} (hk : Keep p s) :
    Keep p (spendFor h s) := by
  unfold spendFor
  try dsimp only
  repeat' first
    | with_reducible assumption | with_reducible exact Keep.refl _ | with_reducible apply keep_spentPut
    | with_reducible apply keep_routerPut | with_reducible refine Keep.ite ?_ ?_

theorem keep_linkUe {p : State} {n port src dst vc : Nat} {s : State} (hk : Keep p s) :
    Keep p (linkUe n port src dst vc s) := by
  unfold linkUe
  try dsimp only
  repeat' first
    | with_reducible assumption | with_reducible exact Keep.refl _ | with_reducible apply keep_raise
    | with_reducible apply keep_cntBump

theorem keep_bodyError {p : State} {h : WeftHead} {s : State} (hk : Keep p s) :
    Keep p (bodyError h s) := by
  unfold bodyError
  try dsimp only
  repeat' first
    | with_reducible assumption | with_reducible exact Keep.refl _
    | with_reducible apply keep_emit | split

theorem keep_spoilt {p : State} {h : WeftHead} {i : Injection} {s : State} (hk : Keep p s) :
    Keep p (spoilt h i s) := by
  unfold spoilt
  try dsimp only
  repeat' first
    | with_reducible assumption | with_reducible exact Keep.refl _
    | with_reducible apply keep_linkUe
    | fail_if_no_progress with_reducible refine Keep.rec_of ?_ rfl rfl rfl

theorem keep_gatewayHead {p : State} {h : WeftHead} {s : State} (hk : Keep p s) :
    Keep p (gatewayHead h s) := by
  unfold gatewayHead
  try dsimp only
  repeat' first
    | with_reducible assumption | with_reducible exact Keep.refl _
    | with_reducible apply keep_bodyError
    | with_reducible apply keep_routerPut
    | with_reducible apply keep_reach | with_reducible apply keep_cntBump | with_reducible refine Keep.ite ?_ ?_
    | with_reducible refine Keep.ite2 ?_ ?_ | with_reducible refine Keep.ite3 ?_ ?_
    | with_reducible refine KeepR.ite ?_ ?_ | with_reducible refine KeepR.next ?_
    | with_reducible refine Keep.foldl ?_ ?_ | with_reducible refine Keep.foldl2 ?_ ?_
    | with_reducible refine Keep.foldl3 ?_ ?_ | with_reducible refine Keep.id ?_
    | fail_if_no_progress with_reducible refine Keep.rec_of ?_ rfl rfl rfl | intro _ | split
    | with_reducible refine Keep.pair ‹_ = (_, _)› ?_

theorem keep_along {p : State} {h : WeftHead} {y : List (Nat × Nat)} {s : State} (hk : Keep p s) :
    Keep p (along h y s) := by
  induction y generalizing s with
  | nil => unfold along; exact keep_gatewayHead hk
  | cons e r ih =>
    unfold along
    try dsimp only
    repeat' first
      | with_reducible assumption | with_reducible apply keep_spoilt | with_reducible apply ih
      | with_reducible apply keep_cntBump | split

theorem keep_inject {p : State} {h : WeftHead} {s : State} (hk : Keep p s) :
    Keep p (inject h s) := by
  unfold inject
  try dsimp only
  repeat' first
    | with_reducible assumption | with_reducible exact Keep.refl _ | with_reducible refine Keep.ite ?_ ?_
    | with_reducible refine Keep.ite2 ?_ ?_ | with_reducible refine Keep.ite3 ?_ ?_
    | with_reducible refine KeepR.ite ?_ ?_ | with_reducible refine KeepR.next ?_
    | with_reducible refine Keep.foldl ?_ ?_ | with_reducible refine Keep.foldl2 ?_ ?_
    | with_reducible refine Keep.foldl3 ?_ ?_ | with_reducible refine Keep.id ?_
    | fail_if_no_progress with_reducible refine Keep.rec_of ?_ rfl rfl rfl

theorem keep_headFlit {p : State} {h : WeftHead} {bad good : Option (Nat × Nat)} {s : State} (hk : Keep p s) :
    Keep p (headFlit h bad good s) := by
  unfold headFlit
  try dsimp only
  repeat' first
    | with_reducible assumption | with_reducible exact Keep.refl _ | with_reducible apply keep_linkCe
    | with_reducible apply keep_spendFor | with_reducible apply keep_linkUe | with_reducible apply keep_gatewayHead
    | with_reducible apply keep_along | with_reducible apply keep_inject | with_reducible refine Keep.foldl ?_ ?_
    | fail_if_no_progress with_reducible refine Keep.rec_of ?_ rfl rfl rfl | intro _ | split

theorem keep_tagSetOp {p : State} {r : Request} {s : State} (hk : Keep p s) :
    Keep p (tagSetOp r s) := by
  unfold tagSetOp
  try dsimp only
  repeat' first
    | with_reducible assumption | with_reducible exact Keep.refl _ | with_reducible apply keep_runCmd
    | fail_if_no_progress with_reducible refine Keep.rec_of ?_ rfl rfl rfl | intro _

theorem keep_ptpEmit {p : State} {p_ : Nat} {kind : String} {b : Bytes} {s : State} (hk : Keep p s) :
    Keep p (ptpEmit p_ kind b s) := by
  unfold ptpEmit
  try dsimp only
  repeat' first
    | with_reducible assumption | with_reducible exact Keep.refl _
    | with_reducible apply keep_seqTaken
    | with_reducible apply keep_emit
    | with_reducible apply keep_linkQueue | split

theorem keep_ptpSend {p : State} {p_ : Nat} {m : PtpMessage} {s : State} (hk : Keep p s) :
    Keep p (ptpSend p_ m s) := by
  unfold ptpSend
  try dsimp only
  repeat' first
    | with_reducible assumption | with_reducible exact Keep.refl _ | with_reducible apply keep_coxMod
    | with_reducible apply keep_ptpEmit | with_reducible apply keep_ptpCount | with_reducible apply keep_ptpPut | split

theorem keep_execSpoolNext {p : State} {i : Initiator} {s : State} (hk : Keep p s) :
    KeepR p (execSpoolNext i s) := by
  unfold execSpoolNext
  try dsimp only
  repeat' first
    | with_reducible assumption | with_reducible exact Keep.refl _ | with_reducible apply keep_done
    | with_reducible apply keep_spoolNextOp

theorem keep_txEnd {p : State} {m : Nat} {s : State} (hk : Keep p s) :
    Keep p (txEnd m s) := by
  unfold txEnd
  try dsimp only
  repeat' first
    | with_reducible assumption | with_reducible exact Keep.refl _ | with_reducible apply keep_txResult
    | fail_if_no_progress with_reducible refine Keep.rec_of ?_ rfl rfl rfl | split

theorem keep_applyBmca {p : State} {p_ : Nat} {s : State} (hk : Keep p s) :
    Keep p (applyBmca p_ s) := by
  unfold applyBmca
  try dsimp only
  repeat' first
    | with_reducible assumption | with_reducible exact Keep.refl _ | with_reducible apply keep_ptpPut
    | split

theorem keep_runBmca {p : State} {s : State} (hk : Keep p s) :
    Keep p (runBmca s) := by
  unfold runBmca
  try dsimp only
  repeat' first
    | with_reducible assumption | with_reducible exact Keep.refl _ | with_reducible apply keep_selectRef
    | with_reducible apply keep_applyBmca | with_reducible refine Keep.foldl ?_ ?_ | intro _

theorem keep_ptpTimeout {p : State} {p_ : Nat} {m : PtpMessage} {s : State} (hk : Keep p s) :
    Keep p (ptpTimeout p_ m s) := by
  unfold ptpTimeout
  try dsimp only
  repeat' first
    | with_reducible assumption | with_reducible exact Keep.refl _ | with_reducible apply keep_selectRef
    | with_reducible apply keep_ptpPut | with_reducible apply keep_ptpCount | with_reducible apply keep_runBmca | split

theorem keep_timeSetOp {p : State} {r : Request} {s : State} (hk : Keep p s) :
    Keep p (timeSetOp r s) := by
  unfold timeSetOp
  try dsimp only
  repeat' first
    | with_reducible assumption | with_reducible exact Keep.refl _ | with_reducible apply keep_runCmd
    | with_reducible apply keep_selectRef | with_reducible apply keep_setByCommand | with_reducible apply keep_runLong
    | with_reducible apply keep_coxMod | intro _ | split

theorem keep_headerCheck {p : State} {ch d : Nat} {pre : SyncSeen} {symbols : List (BitVec 11)} {s : State} (hk : Keep
    p s) :
    Keep p (headerCheck ch d pre symbols s) := by
  unfold headerCheck
  try dsimp only
  repeat' first
    | with_reducible assumption | with_reducible exact Keep.refl _ | with_reducible apply keep_cssCount
    | with_reducible apply keep_dropDemod | with_reducible apply keep_chirpPut | split

theorem keep_fhSend {p : State} {q : Nat} {bs : Bytes} {s : State} (hk : Keep p s) :
    Keep p (fhSend q bs s) := by
  unfold fhSend
  try dsimp only
  repeat' first
    | with_reducible assumption | with_reducible exact Keep.refl _ | with_reducible apply keep_unitSend

theorem keep_creditOp {p : State} {src dst flits : Nat} {s : State} (hk : Keep p s) :
    Keep p (creditOp src dst flits s) := by
  unfold creditOp
  try dsimp only
  repeat' first
    | with_reducible assumption | with_reducible exact Keep.refl _ | with_reducible apply keep_spentPut

theorem keep_queueReclaimOp {p : State} {r : Request} {s : State} (hk : Keep p s) :
    Keep p (queueReclaimOp r s) := by
  unfold queueReclaimOp
  try dsimp only
  repeat' first
    | with_reducible assumption | with_reducible exact Keep.refl _ | with_reducible apply keep_runLong
    | fail_if_no_progress with_reducible refine Keep.rec_of ?_ rfl rfl rfl | intro _

theorem keep_execQueueReclaim {p : State} {r : Request} {s : State} (hk : Keep p s) :
    KeepR p (execQueueReclaim r s) := by
  unfold execQueueReclaim
  try dsimp only
  repeat' first
    | with_reducible assumption | with_reducible exact Keep.refl _ | with_reducible apply keep_done
    | with_reducible apply keep_queueReclaimOp

theorem keep_stageDone {p : State} {c n : Nat} {st : Stage} {s : State} (hk : Keep p s) :
    Keep p (stageDone c n st s) := by
  unfold stageDone
  try dsimp only
  repeat' first
    | with_reducible assumption | with_reducible exact Keep.refl _ | with_reducible apply keep_carrierPut

theorem keep_dlLateEvent {p : State} {c : Nat} {s : State} (hk : Keep p s) :
    Keep p (dlLateEvent c s) := by
  unfold dlLateEvent
  try dsimp only
  repeat' first
    | with_reducible assumption | with_reducible exact Keep.refl _ | with_reducible apply keep_fhEvent

theorem keep_dlSymbolSend {p : State} {c n k : Nat} {iq : List (Nat × Nat)} {s : State} (hk : Keep p s) :
    Keep p (dlSymbolSend c n k iq s) := by
  unfold dlSymbolSend
  try dsimp only
  repeat' first
    | with_reducible assumption | with_reducible exact Keep.refl _ | with_reducible apply keep_pktFree
    | with_reducible apply keep_stageDone | with_reducible apply keep_sendUplane | with_reducible apply keep_readPacket | with_reducible apply keep_carrierPut
    | with_reducible apply keep_dlLateEvent | with_reducible apply keep_fhCount | with_reducible refine Keep.foldl ?_ ?_
    | intro _
    | split

theorem keep_harqEvent {p : State} {c : Nat} {s : State} (hk : Keep p s) :
    Keep p (harqEvent c s) := by
  unfold harqEvent
  try dsimp only
  repeat' first
    | with_reducible assumption | with_reducible exact Keep.refl _ | with_reducible apply keep_fhEvent

theorem keep_gtpuPacket {p : State} {port teid : Nat} {data : Bytes} {s : State} (hk : Keep p s) :
    Keep p (gtpuPacket port teid data s) := by
  unfold gtpuPacket
  try dsimp only
  repeat' first
    | with_reducible assumption | with_reducible exact Keep.refl _ | with_reducible apply keep_handsetPut
    | with_reducible apply keep_emit | split

theorem keep_delayReqOp {p : State} {bupex : Bool} {inst domain : Nat} {requester : BitVec 80} {seq : BitVec 16} {corr
    : BitVec 64} {s : State} (hk : Keep p s) :
    Keep p (delayReqOp bupex inst domain requester seq corr s) := by
  unfold delayReqOp
  try dsimp only
  repeat' first
    | with_reducible assumption | with_reducible exact Keep.refl _ | with_reducible apply keep_ptpEmit
    | with_reducible refine Keep.ite ?_ ?_ | with_reducible refine Keep.ite2 ?_ ?_
    | with_reducible refine Keep.ite3 ?_ ?_ | with_reducible refine KeepR.ite ?_ ?_
    | with_reducible refine KeepR.next ?_ | with_reducible refine Keep.foldl ?_ ?_
    | with_reducible refine Keep.foldl2 ?_ ?_ | with_reducible refine Keep.foldl3 ?_ ?_
    | with_reducible refine Keep.id ?_ | fail_if_no_progress with_reducible refine Keep.rec_of ?_ rfl rfl rfl | intro _
    | split

theorem keep_ptpSync {p : State} {p_ domain : Nat} {sender : BitVec 80} {t1 corr : Int} {s : State} (hk : Keep p s) :
    Keep p (ptpSync p_ domain sender t1 corr s) := by
  unfold ptpSync
  try dsimp only
  repeat' first
    | with_reducible assumption | with_reducible exact Keep.refl _ | with_reducible apply keep_ptpCount
    | with_reducible apply keep_ptpPut | with_reducible apply keep_coxSet | with_reducible apply keep_setTime
    | with_reducible apply keep_switchRef | split

theorem keep_hopsPut {p : State} {hs : List Hop} {s : State} (hk : Keep p s) :
    Keep p (hopsPut hs s) := by
  unfold hopsPut
  try dsimp only
  repeat' first
    | with_reducible assumption | with_reducible exact Keep.refl _ | with_reducible refine Keep.ite ?_ ?_
    | with_reducible refine Keep.ite2 ?_ ?_ | with_reducible refine Keep.ite3 ?_ ?_
    | with_reducible refine KeepR.ite ?_ ?_ | with_reducible refine KeepR.next ?_
    | with_reducible refine Keep.foldl ?_ ?_ | with_reducible refine Keep.foldl2 ?_ ?_
    | with_reducible refine Keep.foldl3 ?_ ?_ | with_reducible refine Keep.id ?_
    | fail_if_no_progress with_reducible refine Keep.rec_of ?_ rfl rfl rfl

theorem keep_followFlits {p : State} {s : State} (hk : Keep p s) :
    Keep p (followFlits s) := by
  unfold followFlits
  try dsimp only
  repeat' first
    | with_reducible assumption | with_reducible exact Keep.refl _ | with_reducible apply keep_hopsPut

theorem keep_harqResult {p : State} {c h : Nat} {up good : Bool} {p_ : Nat} {s : State} (hk : Keep p s) :
    Keep p (harqResult c h up good p_ s) := by
  unfold harqResult
  try dsimp only
  repeat' first
    | with_reducible assumption | with_reducible exact Keep.refl _ | with_reducible apply keep_handsetPut
    | with_reducible apply keep_carrierPut | with_reducible refine Keep.ite ?_ ?_
    | with_reducible refine Keep.ite2 ?_ ?_ | with_reducible refine Keep.ite3 ?_ ?_
    | with_reducible refine KeepR.ite ?_ ?_ | with_reducible refine KeepR.next ?_
    | with_reducible refine Keep.foldl ?_ ?_ | with_reducible refine Keep.foldl2 ?_ ?_
    | with_reducible refine Keep.foldl3 ?_ ?_ | with_reducible refine Keep.id ?_
    | fail_if_no_progress with_reducible refine Keep.rec_of ?_ rfl rfl rfl | intro _ | split

theorem keep_coxTick {p : State} {s : State} (hk : Keep p s) :
    Keep p (coxTick s) := by
  unfold coxTick
  try dsimp only
  repeat' first
    | with_reducible assumption | with_reducible exact Keep.refl _ | with_reducible apply keep_coxMod
    | fail_if_no_progress with_reducible refine Keep.rec_of ?_ rfl rfl rfl

theorem keep_tagRemoveOp {p : State} {r : Request} {s : State} (hk : Keep p s) :
    Keep p (tagRemoveOp r s) := by
  unfold tagRemoveOp
  try dsimp only
  repeat' first
    | with_reducible assumption | with_reducible exact Keep.refl _ | with_reducible apply keep_runCmd
    | fail_if_no_progress with_reducible refine Keep.rec_of ?_ rfl rfl rfl | intro _

theorem keep_keysWrite {p : State} {h : Nat} {p_ : Bytes} {s : State} (hk : Keep p s) :
    Keep p (keysWrite h p_ s) := by
  unfold keysWrite
  try dsimp only
  repeat' first
    | with_reducible assumption | with_reducible exact Keep.refl _ | with_reducible refine Keep.foldl ?_ ?_
    | fail_if_no_progress with_reducible refine Keep.rec_of ?_ rfl rfl rfl | intro _ | split

theorem keep_adoptContext {p : State} {h : Nat} {x : Handset} {p_ : Bytes} {s : State} (hk : Keep p s) :
    Keep p (adoptContext h x p_ s) := by
  unfold adoptContext
  try dsimp only
  repeat' first
    | with_reducible assumption | with_reducible exact Keep.refl _ | with_reducible apply keep_handsetPut
    | with_reducible apply keep_keysWrite

theorem keep_handsetAddOp {p : State} {r : Request} {s : State} (hk : Keep p s) :
    Keep p (handsetAddOp r s) := by
  unfold handsetAddOp
  try dsimp only
  repeat' first
    | with_reducible assumption | with_reducible exact Keep.refl _ | with_reducible apply keep_runCmd
    | with_reducible apply keep_adoptContext | intro _ | split

theorem keep_queueStatsOp {p : State} {r : Request} {s : State} (hk : Keep p s) :
    Keep p (queueStatsOp r s) := by
  unfold queueStatsOp
  try dsimp only
  repeat' first
    | with_reducible assumption | with_reducible exact Keep.refl _ | with_reducible apply keep_runCmd
    | intro _

theorem keep_weftDrainOp {p : State} {r : Request} {s : State} (hk : Keep p s) :
    Keep p (weftDrainOp r s) := by
  unfold weftDrainOp
  try dsimp only
  repeat' first
    | with_reducible assumption | with_reducible exact Keep.refl _ | with_reducible apply keep_runLong
    | fail_if_no_progress with_reducible refine Keep.rec_of ?_ rfl rfl rfl | intro _

theorem keep_enterWaiting {p : State} {s : State} (hk : Keep p s) :
    Keep p (enterWaiting s) := by
  unfold enterWaiting
  try dsimp only
  repeat' first
    | with_reducible assumption | with_reducible exact Keep.refl _ | with_reducible apply keep_inject
    | with_reducible apply keep_spendFor | with_reducible refine Keep.ite ?_ ?_ | with_reducible refine Keep.ite2 ?_ ?_
    | with_reducible refine Keep.ite3 ?_ ?_ | with_reducible refine KeepR.ite ?_ ?_
    | with_reducible refine KeepR.next ?_ | with_reducible refine Keep.foldl ?_ ?_
    | with_reducible refine Keep.foldl2 ?_ ?_ | with_reducible refine Keep.foldl3 ?_ ?_
    | with_reducible refine Keep.id ?_ | fail_if_no_progress with_reducible refine Keep.rec_of ?_ rfl rfl rfl | intro _

theorem keep_sendFlit {p : State} {n out : Nat} {h : Hop} {next : Nat} {s : State} (hk : Keep p s) :
    Keep p (sendFlit n out h next s) := by
  unfold sendFlit
  try dsimp only
  repeat' first
    | with_reducible assumption | with_reducible exact Keep.refl _
    | with_reducible apply keep_spoilt
    | with_reducible apply keep_cntBump
    | with_reducible apply keep_hopsPut | with_reducible apply keep_routerPut | with_reducible apply keep_gatewayHead
    | with_reducible refine Keep.ite ?_ ?_ | with_reducible refine Keep.ite2 ?_ ?_
    | with_reducible refine Keep.ite3 ?_ ?_ | with_reducible refine KeepR.ite ?_ ?_
    | with_reducible refine KeepR.next ?_ | with_reducible refine Keep.foldl ?_ ?_
    | with_reducible refine Keep.foldl2 ?_ ?_ | with_reducible refine Keep.foldl3 ?_ ?_
    | with_reducible refine Keep.id ?_ | fail_if_no_progress with_reducible refine Keep.rec_of ?_ rfl rfl rfl | split

theorem keep_sendFlits {p : State} {s : State} (hk : Keep p s) :
    Keep p (sendFlits s) := by
  unfold sendFlits
  try dsimp only
  repeat' first
    | with_reducible assumption | with_reducible exact Keep.refl _ | with_reducible apply keep_sendFlit
    | with_reducible refine Keep.ite ?_ ?_ | with_reducible refine Keep.ite2 ?_ ?_
    | with_reducible refine Keep.ite3 ?_ ?_ | with_reducible refine KeepR.ite ?_ ?_
    | with_reducible refine KeepR.next ?_ | with_reducible refine Keep.foldl ?_ ?_
    | with_reducible refine Keep.foldl2 ?_ ?_ | with_reducible refine Keep.foldl3 ?_ ?_
    | with_reducible refine Keep.id ?_ | fail_if_no_progress with_reducible refine Keep.rec_of ?_ rfl rfl rfl | intro _

theorem keep_routeHeads {p : State} {s : State} (hk : Keep p s) :
    Keep p (routeHeads s) := by
  unfold routeHeads
  try dsimp only
  repeat' first
    | with_reducible assumption | with_reducible exact Keep.refl _ | with_reducible apply keep_cntBump
    | with_reducible apply keep_hopsPut | with_reducible refine Keep.ite ?_ ?_ | with_reducible refine Keep.ite2 ?_ ?_
    | with_reducible refine Keep.ite3 ?_ ?_ | with_reducible refine KeepR.ite ?_ ?_
    | with_reducible refine KeepR.next ?_ | with_reducible refine Keep.foldl ?_ ?_
    | with_reducible refine Keep.foldl2 ?_ ?_ | with_reducible refine Keep.foldl3 ?_ ?_
    | with_reducible refine Keep.id ?_ | fail_if_no_progress with_reducible refine Keep.rec_of ?_ rfl rfl rfl | intro _

theorem keep_showRouters {p : State} {s : State} (hk : Keep p s) :
    Keep p (showRouters s) := by
  unfold showRouters
  try dsimp only
  repeat' first
    | with_reducible assumption | with_reducible exact Keep.refl _ | with_reducible apply keep_routerPut
    | with_reducible refine Keep.ite ?_ ?_ | with_reducible refine Keep.ite2 ?_ ?_
    | with_reducible refine Keep.ite3 ?_ ?_ | with_reducible refine KeepR.ite ?_ ?_
    | with_reducible refine KeepR.next ?_ | with_reducible refine Keep.foldl ?_ ?_
    | with_reducible refine Keep.foldl2 ?_ ?_ | with_reducible refine Keep.foldl3 ?_ ?_
    | with_reducible refine Keep.id ?_ | fail_if_no_progress with_reducible refine Keep.rec_of ?_ rfl rfl rfl | intro _

theorem keep_meshCycle {p : State} {s : State} (hk : Keep p s) :
    Keep p (meshCycle s) := by
  unfold meshCycle
  try dsimp only
  repeat' first
    | with_reducible assumption | with_reducible exact Keep.refl _ | with_reducible apply keep_enterWaiting
    | with_reducible apply keep_followFlits | with_reducible apply keep_sendFlits | with_reducible apply keep_routeHeads
    | with_reducible apply keep_showRouters | with_reducible refine Keep.ite ?_ ?_
    | with_reducible refine Keep.ite2 ?_ ?_ | with_reducible refine Keep.ite3 ?_ ?_
    | with_reducible refine KeepR.ite ?_ ?_ | with_reducible refine KeepR.next ?_
    | with_reducible refine Keep.foldl ?_ ?_ | with_reducible refine Keep.foldl2 ?_ ?_
    | with_reducible refine Keep.foldl3 ?_ ?_ | with_reducible refine Keep.id ?_
    | fail_if_no_progress with_reducible refine Keep.rec_of ?_ rfl rfl rfl

theorem keep_deliverHeld {p : State} {d : Nat} {s : State} (hk : Keep p s) :
    Keep p (deliverHeld d s) := by
  unfold deliverHeld
  try dsimp only
  repeat' first
    | with_reducible assumption | with_reducible exact Keep.refl _ | with_reducible apply keep_regPut
    | with_reducible apply keep_routerPut | with_reducible refine Keep.foldl ?_ ?_ | intro _ | split

theorem keep_drainedOp {p : State} {n : Nat} {s : State} (hk : Keep p s) :
    Keep p (drainedOp n s) := by
  unfold drainedOp
  try dsimp only
  repeat' first
    | with_reducible assumption | with_reducible exact Keep.refl _ | with_reducible apply keep_drainMod
    | with_reducible apply keep_routerPut | split

theorem keep_drainStart {p : State} {n : Nat} {s : State} (hk : Keep p s) :
    Keep p (drainStart n s) := by
  unfold drainStart
  try dsimp only
  repeat' first
    | with_reducible assumption | with_reducible exact Keep.refl _ | with_reducible apply keep_drainMod
    | with_reducible apply keep_cntBump | with_reducible apply keep_routerPut | with_reducible apply keep_raise
    | fail_if_no_progress with_reducible refine Keep.rec_of ?_ rfl rfl rfl | split

theorem keep_promoteRef {p : State} {r : Nat} {s : State} (hk : Keep p s) :
    Keep p (promoteRef r s) := by
  unfold promoteRef
  try dsimp only
  repeat' first
    | with_reducible assumption | with_reducible exact Keep.refl _ | with_reducible apply keep_switchRef
    | split

theorem keep_fillBuckets {p : State} {s : State} (hk : Keep p s) :
    Keep p (fillBuckets s) := by
  unfold fillBuckets
  try dsimp only
  repeat' first
    | with_reducible assumption | with_reducible exact Keep.refl _ | with_reducible apply keep_routerPut
    | with_reducible refine Keep.ite ?_ ?_ | with_reducible refine Keep.ite2 ?_ ?_
    | with_reducible refine Keep.ite3 ?_ ?_ | with_reducible refine KeepR.ite ?_ ?_
    | with_reducible refine KeepR.next ?_ | with_reducible refine Keep.foldl ?_ ?_
    | with_reducible refine Keep.foldl2 ?_ ?_ | with_reducible refine Keep.foldl3 ?_ ?_
    | with_reducible refine Keep.id ?_ | fail_if_no_progress with_reducible refine Keep.rec_of ?_ rfl rfl rfl | intro _

theorem keep_announceOp {p : State} {p_ : Nat} {a : Announce} {s : State} (hk : Keep p s) :
    Keep p (announceOp p_ a s) := by
  unfold announceOp
  try dsimp only
  repeat' first
    | with_reducible assumption | with_reducible exact Keep.refl _ | with_reducible apply keep_runBmca
    | with_reducible apply keep_ptpPut | split

theorem keep_weftTick {p : State} {s : State} (hk : Keep p s) :
    Keep p (weftTick s) := by
  unfold weftTick
  try dsimp only
  repeat' first
    | with_reducible assumption | with_reducible exact Keep.refl _ | with_reducible apply keep_fillBuckets
    | with_reducible apply keep_showRouters | with_reducible apply keep_meshCycle | with_reducible refine Keep.ite ?_ ?_

theorem keep_seqCheck {p : State} {c port eaxc seq : Nat} {s : State} (hk : Keep p s) :
    Keep p (seqCheck c port eaxc seq s) := by
  unfold seqCheck
  try dsimp only
  repeat' first
    | with_reducible assumption | with_reducible exact Keep.refl _ | with_reducible apply keep_fhCount
    | fail_if_no_progress with_reducible refine Keep.rec_of ?_ rfl rfl rfl | split

theorem keep_patchPacket {p : State} {h off : Nat} {bs : Bytes} {s : State} (hk : Keep p s) :
    Keep p (patchPacket h off bs s) := by
  unfold patchPacket
  try dsimp only
  repeat' first
    | with_reducible assumption | with_reducible exact Keep.refl _ | with_reducible apply keep_fillPacket

theorem keep_uplaneMessage {p : State} {port eaxc seq n k first : Nat} {prbs : List Prb} {s : State} (hk : Keep p s) :
    Keep p (uplaneMessage port eaxc seq n k first prbs s) := by
  unfold uplaneMessage
  try dsimp only
  repeat' first
    | with_reducible assumption | with_reducible exact Keep.refl _ | with_reducible apply keep_fhCount
    | with_reducible apply keep_seqCheck | with_reducible apply keep_ulLostEvent | with_reducible apply keep_carrierPut
    | with_reducible apply keep_ulOpen | with_reducible apply keep_ulMod | with_reducible apply keep_patchPacket
    | with_reducible apply keep_ulComplete | split

theorem keep_hostItem {p : State} {bs : Bytes} {s : State} (hk : Keep p s) :
    Keep p (hostItem bs s) := by
  unfold hostItem
  try dsimp only
  repeat' first
    | with_reducible assumption | with_reducible exact Keep.refl _ | with_reducible apply keep_handsetPut
    | with_reducible apply keep_carrierPut | split

theorem keep_takeHostItems {p : State} {q y0 : Nat} {y1 : State} (hk : Keep p y1) :
    Keep p (takeHostItems q y0 y1) := by
  induction y0 generalizing q y1 with
  | zero => unfold takeHostItems; exact hk
  | succ n ih =>
    unfold takeHostItems
    try dsimp only
    repeat' first
      | with_reducible assumption | with_reducible exact Keep.refl _ | with_reducible apply ih
      | with_reducible apply keep_dequeue | with_reducible apply keep_takePacket | with_reducible apply keep_hostItem | with_reducible apply keep_pktFree
      | split | with_reducible refine Keep.pair ‹_ = (_, _)› ?_

theorem keep_handsetGone {p : State} {id : Nat} {b : Bytes} {n h : Nat} {s : State} (hk : Keep p s) :
    Keep p (handsetGone id b n h s) := by
  unfold handsetGone
  try dsimp only
  repeat' first
    | with_reducible assumption | with_reducible exact Keep.refl _ | with_reducible apply keep_keysClear
    | with_reducible apply keep_fhSend | with_reducible refine Keep.ite ?_ ?_ | with_reducible refine Keep.ite2 ?_ ?_
    | with_reducible refine Keep.ite3 ?_ ?_ | with_reducible refine KeepR.ite ?_ ?_
    | with_reducible refine KeepR.next ?_ | with_reducible refine Keep.foldl ?_ ?_
    | with_reducible refine Keep.foldl2 ?_ ?_ | with_reducible refine Keep.foldl3 ?_ ?_
    | with_reducible refine Keep.id ?_ | fail_if_no_progress with_reducible refine Keep.rec_of ?_ rfl rfl rfl | intro _
    | split

theorem keep_gtpuSend {p : State} {id : Nat} {b : Bytes} {x : Handset} {drb : Nat} {data : Bytes} {s : State} (hk :
    Keep p s) :
    Keep p (gtpuSend id b x drb data s) := by
  unfold gtpuSend
  try dsimp only
  repeat' first
    | with_reducible assumption | with_reducible exact Keep.refl _ | with_reducible apply keep_emit
    | with_reducible refine Keep.ite ?_ ?_ | with_reducible refine Keep.ite2 ?_ ?_
    | with_reducible refine Keep.ite3 ?_ ?_ | with_reducible refine KeepR.ite ?_ ?_
    | with_reducible refine KeepR.next ?_ | with_reducible refine Keep.foldl ?_ ?_
    | with_reducible refine Keep.foldl2 ?_ ?_ | with_reducible refine Keep.foldl3 ?_ ?_
    | with_reducible refine Keep.id ?_ | fail_if_no_progress with_reducible refine Keep.rec_of ?_ rfl rfl rfl | intro _
    | split

theorem keep_sendUp {p : State} {id : Nat} {b : Bytes} {f : SlotFigure} {s : State} (hk : Keep p s) :
    Keep p (sendUp id b f s) := by
  unfold sendUp
  try dsimp only
  repeat' first
    | with_reducible assumption | with_reducible exact Keep.refl _ | with_reducible apply keep_handsetPut
    | with_reducible apply keep_gtpuSend | with_reducible apply keep_fhSend | with_reducible refine Keep.ite ?_ ?_
    | with_reducible refine Keep.ite2 ?_ ?_ | with_reducible refine Keep.ite3 ?_ ?_
    | with_reducible refine KeepR.ite ?_ ?_ | with_reducible refine KeepR.next ?_
    | with_reducible refine Keep.foldl ?_ ?_ | with_reducible refine Keep.foldl2 ?_ ?_
    | with_reducible refine Keep.foldl3 ?_ ?_ | with_reducible refine Keep.id ?_
    | fail_if_no_progress with_reducible refine Keep.rec_of ?_ rfl rfl rfl | intro _ | split

theorem keep_scheduleHandset {p : State} {id : Nat} {b : Bytes} {n : Nat} {f : SlotFigure} {s : State} (hk : Keep p s) :
    Keep p (scheduleHandset id b n f s) := by
  unfold scheduleHandset
  try dsimp only
  repeat' first
    | with_reducible assumption | with_reducible exact Keep.refl _ | with_reducible apply keep_harqResult
    | with_reducible apply keep_sendUp | with_reducible apply keep_carrierPut | with_reducible apply keep_emit
    | with_reducible apply keep_handsetPut | with_reducible refine Keep.ite ?_ ?_
    | with_reducible refine Keep.ite2 ?_ ?_ | with_reducible refine Keep.ite3 ?_ ?_
    | with_reducible refine KeepR.ite ?_ ?_ | with_reducible refine KeepR.next ?_
    | with_reducible refine Keep.foldl ?_ ?_ | with_reducible refine Keep.foldl2 ?_ ?_
    | with_reducible refine Keep.foldl3 ?_ ?_ | with_reducible refine Keep.id ?_
    | fail_if_no_progress with_reducible refine Keep.rec_of ?_ rfl rfl rfl | intro _ | split

theorem keep_airItems {p : State} {c id : Nat} {b : Bytes} {n : Nat} {aired : List (Fin 6 × BitVec 8)} {s : State} (hk
    : Keep p s) :
    Keep p (airItems c id b n aired s) := by
  unfold airItems
  try dsimp only
  repeat' first
    | with_reducible assumption | with_reducible exact Keep.refl _ | with_reducible apply keep_emit
    | with_reducible refine Keep.ite ?_ ?_ | with_reducible refine Keep.ite2 ?_ ?_
    | with_reducible refine Keep.ite3 ?_ ?_ | with_reducible refine KeepR.ite ?_ ?_
    | with_reducible refine KeepR.next ?_ | with_reducible refine Keep.foldl ?_ ?_
    | with_reducible refine Keep.foldl2 ?_ ?_ | with_reducible refine Keep.foldl3 ?_ ?_
    | with_reducible refine Keep.id ?_ | fail_if_no_progress with_reducible refine Keep.rec_of ?_ rfl rfl rfl | intro _

theorem keep_publish {p : State} {id : Nat} {b : Bytes} {n h : Nat} {s : State} (hk : Keep p s) :
    Keep p (publish id b n h s) := by
  unfold publish
  try dsimp only
  repeat' first
    | with_reducible assumption | with_reducible exact Keep.refl _ | with_reducible apply keep_fhSend
    | with_reducible apply keep_handsetPut | with_reducible refine Keep.ite ?_ ?_
    | with_reducible refine Keep.ite2 ?_ ?_ | with_reducible refine Keep.ite3 ?_ ?_
    | with_reducible refine KeepR.ite ?_ ?_ | with_reducible refine KeepR.next ?_
    | with_reducible refine Keep.foldl ?_ ?_ | with_reducible refine Keep.foldl2 ?_ ?_
    | with_reducible refine Keep.foldl3 ?_ ?_ | with_reducible refine Keep.id ?_
    | fail_if_no_progress with_reducible refine Keep.rec_of ?_ rfl rfl rfl | intro _ | split

theorem keep_macScheduling {p : State} {c : Nat} {figs : List SlotFigure} {air : CarrierFigure} {s : State} (hk : Keep
    p s) :
    Keep p (macScheduling c figs air s) := by
  unfold macScheduling
  try dsimp only
  repeat' first
    | with_reducible assumption | with_reducible exact Keep.refl _ | with_reducible apply keep_takeHostItems
    | with_reducible apply keep_carrierPut | with_reducible apply keep_handsetGone
    | with_reducible apply keep_adoptContext | with_reducible apply keep_scheduleHandset
    | with_reducible apply keep_airItems | with_reducible apply keep_publish | with_reducible refine Keep.foldl ?_ ?_
    | intro _
    | split

theorem keep_timeAdjustOp {p : State} {r : Request} {s : State} (hk : Keep p s) :
    Keep p (timeAdjustOp r s) := by
  unfold timeAdjustOp
  try dsimp only
  repeat' first
    | with_reducible assumption | with_reducible exact Keep.refl _ | with_reducible apply keep_runCmd
    | with_reducible apply keep_coxSet | with_reducible apply keep_coxMod | intro _ | split

theorem keep_statsPeriod {p : State} {c : Nat} {s : State} (hk : Keep p s) :
    Keep p (statsPeriod c s) := by
  unfold statsPeriod
  try dsimp only
  repeat' first
    | with_reducible assumption | with_reducible exact Keep.refl _ | with_reducible apply keep_fhSend
    | with_reducible apply keep_handsetPut | with_reducible apply keep_carrierPut
    | with_reducible refine Keep.foldl ?_ ?_ | intro _ | split

theorem keep_ptpStatsOp {p : State} {r : Request} {s : State} (hk : Keep p s) :
    Keep p (ptpStatsOp r s) := by
  unfold ptpStatsOp
  try dsimp only
  repeat' first
    | with_reducible assumption | with_reducible exact Keep.refl _ | with_reducible apply keep_runCmd
    | intro _

theorem keep_takeDetection {p : State} {ch d so at_ bin : Nat} {s : State} (hk : Keep p s) :
    Keep p (takeDetection ch d so at_ bin s) := by
  unfold takeDetection
  try dsimp only
  repeat' first
    | with_reducible assumption | with_reducible exact Keep.refl _ | with_reducible apply keep_cssCount
    | with_reducible apply keep_chirpPut

theorem keep_takeIdle {p : State} {ch so at_ bin : Nat} {s : State} (hk : Keep p s) :
    Keep p (takeIdle ch so at_ bin s) := by
  unfold takeIdle
  try dsimp only
  repeat' first
    | with_reducible assumption | with_reducible exact Keep.refl _ | with_reducible apply keep_takeDetection
    | with_reducible apply keep_cssEvent | with_reducible apply keep_cssCount | with_reducible refine Keep.ite ?_ ?_
    | with_reducible refine Keep.ite2 ?_ ?_ | with_reducible refine Keep.ite3 ?_ ?_
    | with_reducible refine KeepR.ite ?_ ?_ | with_reducible refine KeepR.next ?_
    | with_reducible refine Keep.foldl ?_ ?_ | with_reducible refine Keep.foldl2 ?_ ?_
    | with_reducible refine Keep.foldl3 ?_ ?_ | with_reducible refine Keep.id ?_
    | fail_if_no_progress with_reducible refine Keep.rec_of ?_ rfl rfl rfl | intro _ | split

theorem keep_endEarly {p : State} {b : Bytes} {e : ChirpEntry} {ch d outcome : Nat} {r : Reception} {x : RxData} {s :
    State} (hk : Keep p s) :
    Keep p (endEarly b e ch d outcome r x s) := by
  unfold endEarly
  try dsimp only
  repeat' first
    | with_reducible assumption | with_reducible exact Keep.refl _ | with_reducible apply keep_cssCount
    | with_reducible apply keep_dropDemod | with_reducible apply keep_decodePayload | with_reducible apply keep_draw
    | with_reducible apply keep_rxRecord | split

theorem keep_detected {p : State} {b : Bytes} {e : ChirpEntry} {ch so : Nat} {strength : Int} {at_ bin : Nat} {failed :
    Bool} {frames : List (BitVec 16)} {part : RxData} {s : State} (hk : Keep p s) :
    Keep p (detected b e ch so strength at_ bin failed frames part s) := by
  unfold detected
  try dsimp only
  repeat' first
    | with_reducible assumption | with_reducible exact Keep.refl _ | with_reducible apply keep_chirpPut
    | with_reducible apply keep_takeIdle | with_reducible apply keep_takeDetection | with_reducible apply keep_cssCount
    | with_reducible apply keep_dropDemod | with_reducible apply keep_endEarly | with_reducible refine Keep.ite ?_ ?_
    | with_reducible refine Keep.ite2 ?_ ?_ | with_reducible refine Keep.ite3 ?_ ?_
    | with_reducible refine KeepR.ite ?_ ?_ | with_reducible refine KeepR.next ?_
    | with_reducible refine Keep.foldl ?_ ?_ | with_reducible refine Keep.foldl2 ?_ ?_
    | with_reducible refine Keep.foldl3 ?_ ?_ | with_reducible refine Keep.id ?_
    | fail_if_no_progress with_reducible refine Keep.rec_of ?_ rfl rfl rfl | intro _ | split

theorem keep_detection {p : State} {ch so : Nat} {chirps : List UpChirp} {checks : List (Nat × SyncSeen × List (BitVec
    11))} {frames : List (BitVec 16)} {part : RxData} {s : State} (hk : Keep p s) :
    Keep p (detection ch so chirps checks frames part s) := by
  unfold detection
  try dsimp only
  repeat' first
    | with_reducible assumption | with_reducible exact Keep.refl _ | with_reducible apply keep_headerCheck
    | with_reducible apply keep_detected | with_reducible refine Keep.ite ?_ ?_ | with_reducible refine Keep.ite2 ?_ ?_
    | with_reducible refine Keep.ite3 ?_ ?_ | with_reducible refine KeepR.ite ?_ ?_
    | with_reducible refine KeepR.next ?_ | with_reducible refine Keep.foldl ?_ ?_
    | with_reducible refine Keep.foldl2 ?_ ?_ | with_reducible refine Keep.foldl3 ?_ ?_
    | with_reducible refine Keep.id ?_ | fail_if_no_progress with_reducible refine Keep.rec_of ?_ rfl rfl rfl | intro _
    | split

theorem keep_carrierRunning {p : State} {c : Nat} {s : State} (hk : Keep p s) :
    Keep p (carrierRunning c s) := by
  unfold carrierRunning
  try dsimp only
  repeat' first
    | with_reducible assumption | with_reducible exact Keep.refl _ | with_reducible apply keep_fhRefresh
    | with_reducible apply keep_reachRunning | split

theorem keep_ppsNoEdge {p : State} {s : State} (hk : Keep p s) :
    Keep p (ppsNoEdge s) := by
  unfold ppsNoEdge
  try dsimp only
  repeat' first
    | with_reducible assumption | with_reducible exact Keep.refl _ | with_reducible apply keep_completeLong
    | with_reducible apply keep_coxMod | split

theorem keep_bandMessage {p : State} {port eaxc last : Nat} {s : State} (hk : Keep p s) :
    Keep p (bandMessage port eaxc last s) := by
  unfold bandMessage
  try dsimp only
  repeat' first
    | with_reducible assumption | with_reducible exact Keep.refl _ | with_reducible apply keep_fhCount
    | with_reducible apply keep_fhRefresh | with_reducible apply keep_chirpGroupPut
    | with_reducible apply keep_reachRunning | split

theorem keep_jointReceive {p : State} {dev c n k ant : Nat} {iq : Bytes} {s : State} (hk : Keep p s) :
    Keep p (jointReceive dev c n k ant iq s) := by
  unfold jointReceive
  try dsimp only
  repeat' first
    | with_reducible assumption | with_reducible exact Keep.refl _ | with_reducible apply keep_ulOpen
    | with_reducible apply keep_patchPacket | with_reducible apply keep_ulMod | split
    | with_reducible refine Keep.pair ‹_ = (_, _)› ?_

theorem keep_execSpoolCqPop {p : State} {q : Fin 1024} {s : State} (hk : Keep p s) :
    KeepR p (execSpoolCqPop q s) := by
  unfold execSpoolCqPop
  try dsimp only
  repeat' first
    | with_reducible assumption | with_reducible exact Keep.refl _ | with_reducible apply keep_done
    | with_reducible apply keep_cqPopOp

theorem keep_delayResp {p : State} {p_ domain : Nat} {sender : BitVec 80} {t4 corr : Int} {s : State} (hk : Keep p s) :
    Keep p (delayResp p_ domain sender t4 corr s) := by
  unfold delayResp
  try dsimp only
  repeat' first
    | with_reducible assumption | with_reducible exact Keep.refl _ | with_reducible apply keep_ptpPut
    | with_reducible apply keep_measure | with_reducible apply keep_selectRef | split

theorem keep_linkLoadOp {p : State} {r : Request} {s : State} (hk : Keep p s) :
    Keep p (linkLoadOp r s) := by
  unfold linkLoadOp
  try dsimp only
  repeat' first
    | with_reducible assumption | with_reducible exact Keep.refl _ | with_reducible apply keep_runCmd
    | intro _

theorem keep_delayMeasurement {p : State} {port : Nat} {received : Bool} {id : Nat} {s : State} (hk : Keep p s) :
    Keep p (delayMeasurement port received id s) := by
  unfold delayMeasurement
  try dsimp only
  repeat' first
    | with_reducible assumption | with_reducible exact Keep.refl _ | with_reducible apply keep_emit

theorem keep_execSpoolFree {p : State} {i : Initiator} {handle : BitVec 32} {s : State} (hk : Keep p s) :
    KeepR p (execSpoolFree i handle s) := by
  unfold execSpoolFree
  try dsimp only
  repeat' first
    | with_reducible assumption | with_reducible exact Keep.refl _ | with_reducible apply keep_done
    | with_reducible apply keep_spoolFreeOp

theorem keep_packetJoin {p : State} {h : Nat} {s : State} (hk : Keep p s) :
    Keep p (packetJoin h s) := by
  unfold packetJoin
  try dsimp only
  repeat' first
    | with_reducible assumption | with_reducible exact Keep.refl _ | with_reducible apply keep_unitEnqueue
    | with_reducible apply keep_pktPut | split

theorem keep_noisePeriod {p : State} {ch power : Nat} {s : State} (hk : Keep p s) :
    Keep p (noisePeriod ch power s) := by
  unfold noisePeriod
  try dsimp only
  repeat' first
    | with_reducible assumption | with_reducible exact Keep.refl _ | with_reducible apply keep_regPutF
    | with_reducible apply keep_chirpPut | split

theorem keep_txLateEvent {p : State} {ch : Nat} {s : State} (hk : Keep p s) :
    Keep p (txLateEvent ch s) := by
  unfold txLateEvent
  try dsimp only
  repeat' first
    | with_reducible assumption | with_reducible exact Keep.refl _ | with_reducible apply keep_raiseLim
    | with_reducible refine Keep.ite ?_ ?_

theorem keep_chirpStopped {p : State} {g : Nat} {s : State} (hk : Keep p s) :
    Keep p (chirpStopped g s) := by
  unfold chirpStopped
  try dsimp only
  repeat' first
    | with_reducible assumption | with_reducible exact Keep.refl _ | with_reducible apply keep_chirpPut
    | with_reducible apply keep_fhRefresh | with_reducible apply keep_reachStopped | with_reducible apply keep_c0Set
    | with_reducible apply keep_taskGive | with_reducible refine Keep.foldl ?_ ?_
    | fail_if_no_progress with_reducible refine Keep.rec_of ?_ rfl rfl rfl | intro _ | split

theorem keep_txDequeue {p : State} {g : Nat} {s : State} (hk : Keep p s) :
    Keep p (txDequeue g s) := by
  unfold txDequeue
  try dsimp only
  repeat' first
    | with_reducible assumption | with_reducible exact Keep.refl _ | with_reducible apply keep_dequeue | with_reducible apply keep_takePacket
    | with_reducible apply keep_pktFree | with_reducible apply keep_txResult | with_reducible apply keep_txLateEvent
    | with_reducible apply keep_cssCount | fail_if_no_progress with_reducible refine Keep.rec_of ?_ rfl rfl rfl | split
    | with_reducible refine Keep.pair ‹_ = (_, _)› ?_

theorem keep_carrierTick {p : State} {s : State} (hk : Keep p s) :
    Keep p (carrierTick s) := by
  unfold carrierTick
  try dsimp only
  repeat' first
    | with_reducible assumption | with_reducible exact Keep.refl _
    | with_reducible apply keep_carrierDiscard | with_reducible refine Keep.ite ?_ ?_
    | with_reducible refine Keep.ite2 ?_ ?_ | with_reducible refine Keep.ite3 ?_ ?_
    | with_reducible refine KeepR.ite ?_ ?_ | with_reducible refine KeepR.next ?_
    | with_reducible refine Keep.foldl ?_ ?_ | with_reducible refine Keep.foldl2 ?_ ?_
    | with_reducible refine Keep.foldl3 ?_ ?_ | with_reducible refine Keep.id ?_
    | fail_if_no_progress with_reducible refine Keep.rec_of ?_ rfl rfl rfl | intro _

theorem keep_decodeMiss {p : State} {c : Nat} {uci : Bool} {h p_ : Nat} {s : State} (hk : Keep p s) :
    Keep p (decodeMiss c uci h p_ s) := by
  unfold decodeMiss
  try dsimp only
  repeat' first
    | with_reducible assumption | with_reducible exact Keep.refl _ | with_reducible apply keep_harqEvent
    | with_reducible apply keep_fhCount | with_reducible apply keep_carrierPut | with_reducible apply keep_handsetPut
    | split

theorem keep_freeSymbols {p : State} {c : Nat} {s : State} (hk : Keep p s) :
    Keep p (freeSymbols c s) := by
  unfold freeSymbols
  try dsimp only
  repeat' first
    | with_reducible assumption | with_reducible exact Keep.refl _ | with_reducible apply keep_pktFree
    | with_reducible apply keep_carrierPut | with_reducible refine Keep.foldl ?_ ?_ | intro _

theorem keep_carrierStopped {p : State} {c : Nat} {s : State} (hk : Keep p s) :
    Keep p (carrierStopped c s) := by
  unfold carrierStopped
  try dsimp only
  repeat' first
    | with_reducible assumption | with_reducible exact Keep.refl _ | with_reducible apply keep_freeSymbols
    | with_reducible apply keep_carrierDiscard | with_reducible apply keep_objPut | with_reducible apply keep_fhRefresh
    | with_reducible apply keep_reachStopped | with_reducible apply keep_c0Set | with_reducible apply keep_taskGive
    | fail_if_no_progress with_reducible refine Keep.rec_of ?_ rfl rfl rfl | split

theorem keep_tagGetOp {p : State} {r : Request} {s : State} (hk : Keep p s) :
    Keep p (tagGetOp r s) := by
  unfold tagGetOp
  try dsimp only
  repeat' first
    | with_reducible assumption | with_reducible exact Keep.refl _ | with_reducible apply keep_runCmd
    | intro _

theorem keep_linksTick {p : State} {s : State} (hk : Keep p s) :
    Keep p (linksTick s) := by
  unfold linksTick
  try dsimp only
  repeat' first
    | with_reducible assumption | with_reducible exact Keep.refl _ | with_reducible apply keep_linkTick
    | with_reducible refine Keep.ite ?_ ?_ | with_reducible refine Keep.ite2 ?_ ?_
    | with_reducible refine Keep.ite3 ?_ ?_ | with_reducible refine KeepR.ite ?_ ?_
    | with_reducible refine KeepR.next ?_ | with_reducible refine Keep.foldl ?_ ?_
    | with_reducible refine Keep.foldl2 ?_ ?_ | with_reducible refine Keep.foldl3 ?_ ?_
    | with_reducible refine Keep.id ?_ | fail_if_no_progress with_reducible refine Keep.rec_of ?_ rfl rfl rfl | intro _

theorem keep_timeGetOp {p : State} {r : Request} {s : State} (hk : Keep p s) :
    Keep p (timeGetOp r s) := by
  unfold timeGetOp
  try dsimp only
  repeat' first
    | with_reducible assumption | with_reducible exact Keep.refl _ | with_reducible apply keep_runCmd
    | intro _

theorem keep_txLaunch {p : State} {m : Nat} {parts : List (Nat × Nat × RxData)} {s : State} (hk : Keep p s) :
    Keep p (txLaunch m parts s) := by
  unfold txLaunch
  try dsimp only
  repeat' first
    | with_reducible assumption | with_reducible exact Keep.refl _ | with_reducible apply keep_txLateEvent
    | with_reducible apply keep_cssCount | with_reducible apply keep_txResult | with_reducible apply keep_regBump
    | with_reducible apply keep_emit | with_reducible apply keep_chirpGroupPut | with_reducible apply keep_endEarly
    | with_reducible refine Keep.foldl ?_ ?_ | fail_if_no_progress with_reducible refine Keep.rec_of ?_ rfl rfl rfl
    | intro _
    | split

theorem keep_chirpStatsOp {p : State} {r : Request} {s : State} (hk : Keep p s) :
    Keep p (chirpStatsOp r s) := by
  unfold chirpStatsOp
  try dsimp only
  repeat' first
    | with_reducible assumption | with_reducible exact Keep.refl _ | with_reducible apply keep_runCmd
    | intro _

theorem keep_queueReclaimed {p : State} {l : Long} {s : State} (hk : Keep p s) :
    Keep p (queueReclaimed l s) := by
  unfold queueReclaimed
  try dsimp only
  repeat' first
    | with_reducible assumption | with_reducible exact Keep.refl _ | with_reducible apply keep_completeLong
    | with_reducible apply keep_pktFree | with_reducible refine Keep.foldl ?_ ?_
    | fail_if_no_progress with_reducible refine Keep.rec_of ?_ rfl rfl rfl | intro _ | split

theorem keep_execSpoolCqPush {p : State} {q : Fin 1024} {word : BitVec 32} {s : State} (hk : Keep p s) :
    KeepR p (execSpoolCqPush q word s) := by
  unfold execSpoolCqPush
  try dsimp only
  repeat' first
    | with_reducible assumption | with_reducible exact Keep.refl _ | with_reducible apply keep_done
    | with_reducible apply keep_cqPushOp

theorem keep_execPacketJoin {p : State} {handle : BitVec 32} {s : State} (hk : Keep p s) :
    KeepR p (execPacketJoin handle s) := by
  unfold execPacketJoin
  try dsimp only
  repeat' first
    | with_reducible assumption | with_reducible exact Keep.refl _ | with_reducible apply keep_done
    | with_reducible apply keep_packetJoin

theorem keep_cplaneSend {p : State} {c n : Nat} {msgs : List (Nat × Bytes)} {s : State} (hk : Keep p s) :
    Keep p (cplaneSend c n msgs s) := by
  unfold cplaneSend
  try dsimp only
  repeat' first
    | with_reducible assumption | with_reducible exact Keep.refl _ | with_reducible apply keep_stageDone
    | with_reducible apply keep_fhCount | with_reducible apply keep_emit | with_reducible apply keep_dlLateEvent
    | with_reducible apply keep_carrierPut | with_reducible refine Keep.foldl ?_ ?_ | intro _ | split

theorem keep_execSpoolAlloc {p : State} {i : Initiator} {s : State} (hk : Keep p s) :
    KeepR p (execSpoolAlloc i s) := by
  unfold execSpoolAlloc
  try dsimp only
  repeat' first
    | with_reducible assumption | with_reducible exact Keep.refl _ | with_reducible apply keep_done
    | with_reducible apply keep_spoolAllocOp

theorem keep_execQueueStats {p : State} {r : Request} {s : State} (hk : Keep p s) :
    KeepR p (execQueueStats r s) := by
  unfold execQueueStats
  try dsimp only
  repeat' first
    | with_reducible assumption | with_reducible exact Keep.refl _ | with_reducible apply keep_done
    | with_reducible apply keep_queueStatsOp

theorem keep_handsetRemoveOp {p : State} {r : Request} {s : State} (hk : Keep p s) :
    Keep p (handsetRemoveOp r s) := by
  unfold handsetRemoveOp
  try dsimp only
  repeat' first
    | with_reducible assumption | with_reducible exact Keep.refl _ | with_reducible apply keep_runCmd
    | with_reducible apply keep_handsetPut | fail_if_no_progress with_reducible refine Keep.rec_of ?_ rfl rfl rfl
    | intro _
    | split

theorem keep_execSpoolCqEnable {p : State} {q : Fin 1024} {en : Bool} {s : State} (hk : Keep p s) :
    KeepR p (execSpoolCqEnable q en s) := by
  unfold execSpoolCqEnable
  try dsimp only
  repeat' first
    | with_reducible assumption | with_reducible exact Keep.refl _ | with_reducible apply keep_done
    | with_reducible apply keep_cqEnableOp

end Sys2Proof.Machine
end

