-- ==== Sys2Proof/Laws/KeepSched.lean ====
section
/-!
SUPPORT. What commands keep (part, queue, canonical memory): the Shuttle, DMA, images and the fabric.
-/
namespace Sys2Proof.Machine
open Sys2Proof

theorem keep_unready {p : State} {w : Work} {s : State} (hk : Keep p s) :
    Keep p (unready w s) := by
  unfold unready
  try dsimp only
  repeat' first
    | with_reducible assumption | with_reducible exact Keep.refl _
    | fail_if_no_progress with_reducible refine Keep.rec_of ?_ rfl rfl rfl

theorem keep_cancelLateOp {p : State} {t inst : Nat} {s : State} (hk : Keep p s) :
    Keep p (cancelLateOp t inst s) := by
  unfold cancelLateOp
  try dsimp only
  repeat' first
    | with_reducible assumption | with_reducible exact Keep.refl _ | with_reducible apply keep_cancelWork
    | with_reducible apply keep_unready | split

theorem keep_serviceReqOp {p : State} {v : Nat} {s : State} (hk : Keep p s) :
    Keep p (serviceReqOp v s) := by
  unfold serviceReqOp
  try dsimp only
  repeat' first
    | with_reducible assumption | with_reducible exact Keep.refl _ | with_reducible apply keep_setService
    | split

theorem keep_beamDrop {p : State} {i : Initiator} {h : Nat} {s : State} (hk : Keep p s) :
    Keep p (beamDrop i h s) := by
  unfold beamDrop
  try dsimp only
  repeat' first
    | with_reducible assumption | with_reducible exact Keep.refl _ | with_reducible apply keep_shCount
    | with_reducible apply keep_pktFree | with_reducible apply keep_badHandle | split

theorem keep_beamPutOp {p : State} {i : Initiator} {h : Nat} {s : State} (hk : Keep p s) :
    Keep p (beamPutOp i h s).2 := by
  unfold beamPutOp
  try dsimp only
  repeat' first
    | with_reducible assumption | with_reducible exact Keep.refl _ | with_reducible apply keep_beamDrop
    | with_reducible apply keep_flowPut | split

theorem keep_contention {p : State} {row line : Nat} {s : State} (hk : Keep p s) :
    Keep p (contention row line s) := by
  unfold contention
  try dsimp only
  repeat' first
    | with_reducible assumption | with_reducible exact Keep.refl _ | with_reducible apply keep_raise
    | with_reducible apply keep_regPutF | split

theorem keep_fabMod {p : State} {f : Fabric → Fabric} {s : State} (hk : Keep p s) :
    Keep p (fabMod f s) := by
  unfold fabMod
  try dsimp only
  repeat' first
    | with_reducible assumption | with_reducible exact Keep.refl _
    | fail_if_no_progress with_reducible refine Keep.rec_of ?_ rfl rfl rfl

theorem keep_releaseToReg {p : State} {s : State} (hk : Keep p s) :
    Keep p (releaseToReg s) := by
  unfold releaseToReg
  try dsimp only
  repeat' first
    | with_reducible assumption | with_reducible exact Keep.refl _ | with_reducible apply keep_fabMod
    | split

theorem keep_freeFlow {p : State} {f : Nat} {s : State} (hk : Keep p s) :
    Keep p (freeFlow f s) := by
  unfold freeFlow
  try dsimp only
  repeat' first
    | with_reducible assumption | with_reducible exact Keep.refl _ | with_reducible apply keep_beamFree
    | with_reducible apply keep_flowPut | with_reducible refine Keep.foldl ?_ ?_ | intro _

theorem keep_dropOwner {p : State} {obj : Nat} {s : State} (hk : Keep p s) :
    Keep p (dropOwner obj s) := by
  unfold dropOwner
  try dsimp only
  repeat' first
    | with_reducible assumption | with_reducible exact Keep.refl _ | with_reducible apply keep_freeFlow
    | with_reducible refine Keep.ite ?_ ?_ | with_reducible refine Keep.ite2 ?_ ?_
    | with_reducible refine Keep.ite3 ?_ ?_ | with_reducible refine KeepR.ite ?_ ?_
    | with_reducible refine KeepR.next ?_ | with_reducible refine Keep.foldl ?_ ?_
    | with_reducible refine Keep.foldl2 ?_ ?_ | with_reducible refine Keep.foldl3 ?_ ?_
    | with_reducible refine Keep.id ?_ | fail_if_no_progress with_reducible refine Keep.rec_of ?_ rfl rfl rfl | intro _
    | split

theorem keep_secMod {p : State} {f : Sec → Sec} {s : State} (hk : Keep p s) :
    Keep p (secMod f s) := by
  unfold secMod
  try dsimp only
  repeat' first
    | with_reducible assumption | with_reducible exact Keep.refl _
    | fail_if_no_progress with_reducible refine Keep.rec_of ?_ rfl rfl rfl

theorem keep_commandWrite {p : State} {a : Nat} {bs : Bytes} {s : State} (hk : Keep p s) :
    Keep p (commandWrite a bs s).2 := by
  unfold commandWrite
  try dsimp only
  repeat' first
    | with_reducible assumption | with_reducible exact Keep.refl _ | with_reducible apply keep_writeBytes
    | with_reducible apply keep_waitAt | with_reducible apply keep_scramble | split
    | with_reducible refine Keep.triple ‹_ = (_, _, _)› ?_

theorem keep_serialPut {p : State} {p_ : Nat} {x : SerialPort} {s : State} (hk : Keep p s) :
    Keep p (serialPut p_ x s) := by
  unfold serialPut
  try dsimp only
  repeat' first
    | with_reducible assumption | with_reducible exact Keep.refl _ | with_reducible apply keep_fabMod

theorem keep_spRx {p : State} {p_ : Nat} {s : State} (hk : Keep p s) :
    Keep p (spRx p_ s) := by
  unfold spRx
  try dsimp only
  repeat' first
    | with_reducible assumption | with_reducible exact Keep.refl _ | with_reducible apply keep_answer
    | with_reducible apply keep_serialPut | split

theorem keep_dmaPut {p : State} {ch : Nat} {x : DmaCh} {s : State} (hk : Keep p s) :
    Keep p (dmaPut ch x s) := by
  unfold dmaPut
  try dsimp only
  repeat' first
    | with_reducible assumption | with_reducible exact Keep.refl _
    | fail_if_no_progress with_reducible refine Keep.rec_of ?_ rfl rfl rfl

theorem keep_dmaComplete {p : State} {ch : Nat} {ok : Bool} {s : State} (hk : Keep p s) :
    Keep p (dmaComplete ch ok s) := by
  unfold dmaComplete
  try dsimp only
  repeat' first
    | with_reducible assumption | with_reducible exact Keep.refl _
    | with_reducible apply keep_badHandle
    | with_reducible apply keep_pktFree
    | with_reducible apply keep_notify | with_reducible apply keep_dmaPut | with_reducible apply keep_rescueEval
    | with_reducible apply keep_completeWork | with_reducible refine Keep.foldl ?_ ?_ | intro _ | split

theorem keep_dmaFinish {p : State} {ch : Nat} {ok : Bool} {s : State} (hk : Keep p s) :
    Keep p (dmaFinish ch ok s) := by
  unfold dmaFinish
  try dsimp only
  repeat' first
    | with_reducible assumption | with_reducible exact Keep.refl _
    | with_reducible apply keep_dmaComplete
    | with_reducible apply keep_dmaPut | split

theorem keep_dmaError {p : State} {ch err : Nat} {s : State} (hk : Keep p s) :
    Keep p (dmaError ch err s) := by
  unfold dmaError
  try dsimp only
  repeat' first
    | with_reducible assumption | with_reducible exact Keep.refl _ | with_reducible apply keep_dmaPut
    | with_reducible apply keep_raise | with_reducible apply keep_regBump | with_reducible apply keep_dmaFinish

theorem keep_dmaInstr {p : State} {ch op : Nat} {act : Bytes → State → State} {s : State} (hk : Keep p s) (hf : ∀ b t,
    Keep p t → Keep p (act b t)) :
    Keep p (dmaInstr ch op act s) := by
  unfold dmaInstr
  try dsimp only
  repeat' first
    | with_reducible assumption | with_reducible exact Keep.refl _ | with_reducible apply hf
    | with_reducible apply keep_readWord | with_reducible apply keep_dmaError | split
    | with_reducible refine Keep.triple ‹_ = (_, _, _)› ?_

theorem keep_dmaNext {p : State} {ch : Nat} {s : State} (hk : Keep p s) :
    Keep p (dmaNext ch s) := by
  unfold dmaNext
  try dsimp only
  repeat' first
    | with_reducible assumption | with_reducible exact Keep.refl _ | with_reducible apply keep_dmaPut

theorem keep_dmaFenceOp {p : State} {ch : Nat} {b : Bytes} {s : State} (hk : Keep p s) :
    Keep p (dmaFenceOp ch b s) := by
  unfold dmaFenceOp
  try dsimp only
  repeat' first
    | with_reducible assumption | with_reducible exact Keep.refl _ | with_reducible apply keep_dmaNext
    | with_reducible apply keep_dmaError | split

theorem keep_spShift {p : State} {p_ : Nat} {s : State} (hk : Keep p s) :
    Keep p (spShift p_ s) := by
  unfold spShift
  try dsimp only
  repeat' first
    | with_reducible assumption | with_reducible exact Keep.refl _ | with_reducible apply keep_serialPut
    | with_reducible apply keep_emit | split

theorem keep_verifyImage {p : State} {type : Nat} {b : Bytes} {s : State} (hk : Keep p s) :
    Keep p (verifyImage type b s).2 := by
  unfold verifyImage
  try dsimp only
  repeat' first
    | with_reducible assumption | with_reducible exact Keep.refl _ | with_reducible apply keep_regPut
    | split

theorem keep_storeRead {p : State} {w : Store} {a n : Nat} {s : State} (hk : Keep p s) :
    Keep p (storeRead w a n s) := by
  unfold storeRead
  try dsimp only
  repeat' first
    | with_reducible assumption | with_reducible exact Keep.refl _ | with_reducible apply keep_emit
    | with_reducible refine Keep.ite ?_ ?_ | with_reducible refine Keep.ite2 ?_ ?_
    | with_reducible refine Keep.ite3 ?_ ?_ | with_reducible refine KeepR.ite ?_ ?_
    | with_reducible refine KeepR.next ?_ | with_reducible refine Keep.foldl ?_ ?_
    | with_reducible refine Keep.foldl2 ?_ ?_ | with_reducible refine Keep.foldl3 ?_ ?_
    | with_reducible refine Keep.id ?_ | fail_if_no_progress with_reducible refine Keep.rec_of ?_ rfl rfl rfl | intro _
    | split

theorem keep_slotReads {p : State} {w : Store} {type : Nat} {s : State} (hk : Keep p s) :
    Keep p (slotReads w type s) := by
  unfold slotReads
  try dsimp only
  repeat' first
    | with_reducible assumption | with_reducible exact Keep.refl _ | with_reducible apply keep_storeRead
    | with_reducible refine Keep.ite ?_ ?_ | with_reducible refine Keep.ite2 ?_ ?_
    | with_reducible refine Keep.ite3 ?_ ?_ | with_reducible refine KeepR.ite ?_ ?_
    | with_reducible refine KeepR.next ?_ | with_reducible refine Keep.foldl ?_ ?_
    | with_reducible refine Keep.foldl2 ?_ ?_ | with_reducible refine Keep.foldl3 ?_ ?_
    | with_reducible refine Keep.id ?_ | fail_if_no_progress with_reducible refine Keep.rec_of ?_ rfl rfl rfl | intro _

theorem keep_storeWrite {p : State} {w : Store} {a : Nat} {bs : Bytes} {s : State} (hk : Keep p s) :
    Keep p (storeWrite w a bs s) := by
  unfold storeWrite
  try dsimp only
  repeat' first
    | with_reducible assumption | with_reducible exact Keep.refl _ | with_reducible apply keep_secMod
    | split

theorem keep_installImage {p : State} {w : Store} {type : Nat} {img : Bytes} {s : State} (hk : Keep p s) :
    Keep p (installImage w type img s).2 := by
  unfold installImage
  try dsimp only
  repeat' first
    | with_reducible assumption | with_reducible exact Keep.refl _ | with_reducible apply keep_slotReads
    | with_reducible apply keep_storeWrite

theorem keep_installCut {p : State} {w : Store} {type : Nat} {img : Bytes} {s : State} (hk : Keep p s) :
    Keep p (installCut w type img s) := by
  unfold installCut
  try dsimp only
  repeat' first
    | with_reducible assumption | with_reducible exact Keep.refl _ | with_reducible apply keep_draw
    | with_reducible apply keep_storeWrite | split

theorem keep_nvCut {p : State} {l : Long} {s : State} (hk : Keep p s) :
    Keep p (nvCut l s) := by
  unfold nvCut
  try dsimp only
  repeat' first
    | with_reducible assumption | with_reducible exact Keep.refl _ | with_reducible apply keep_draw
    | with_reducible apply keep_readBytes | with_reducible apply keep_storeWrite | split
    | with_reducible refine Keep.quad ‹_ = (_, _, _, _)› ?_

theorem keep_slotState {p : State} {w : Work} {st : SlotState} {s : State} (hk : Keep p s) :
    Keep p (slotState w st s) := by
  unfold slotState
  try dsimp only
  repeat' first
    | with_reducible assumption | with_reducible exact Keep.refl _ | with_reducible apply keep_slotPut
    | split

theorem keep_requeue {p : State} {w : Work} {s : State} (hk : Keep p s) :
    Keep p (requeue w s) := by
  unfold requeue
  try dsimp only
  repeat' first
    | with_reducible assumption | with_reducible exact Keep.refl _ | with_reducible apply keep_slotState
    | fail_if_no_progress with_reducible refine Keep.rec_of ?_ rfl rfl rfl

theorem keep_failCoreWork {p : State} {c : Nat} {acc : Nat × Nat × State} (hk : Keep p acc.2.2) :
    Keep p (failCoreWork c acc).2.2 := by
  unfold failCoreWork
  try dsimp only
  repeat' first
    | with_reducible assumption | with_reducible exact Keep.refl _ | with_reducible apply keep_shCountCrew
    | with_reducible apply keep_requeue | with_reducible apply keep_completeWork | with_reducible refine Keep.ite ?_ ?_
    | with_reducible refine Keep.ite2 ?_ ?_ | with_reducible refine Keep.ite3 ?_ ?_
    | with_reducible refine KeepR.ite ?_ ?_ | with_reducible refine KeepR.next ?_
    | with_reducible refine Keep.foldl ?_ ?_ | with_reducible refine Keep.foldl2 ?_ ?_
    | with_reducible refine Keep.foldl3 ?_ ?_ | with_reducible refine Keep.id ?_
    | fail_if_no_progress with_reducible refine Keep.rec_of ?_ rfl rfl rfl | intro _ | split

theorem keep_failUnrunnable {p : State} {s : State} (hk : Keep p s) :
    Keep p (failUnrunnable s) := by
  unfold failUnrunnable
  try dsimp only
  repeat' first
    | with_reducible assumption | with_reducible exact Keep.refl _ | with_reducible apply keep_failNoCrew
    | with_reducible apply keep_unready | with_reducible refine Keep.foldl ?_ ?_ | intro _

theorem keep_crewFail {p : State} {n : Nat} {s : State} (hk : Keep p s) :
    Keep p (crewFail n s).2.2 := by
  unfold crewFail
  try dsimp only
  repeat' first
    | with_reducible assumption | with_reducible exact Keep.refl _ | with_reducible apply keep_regPutF
    | with_reducible apply keep_setSpare | with_reducible apply keep_raise | with_reducible apply keep_unstage
    | with_reducible apply keep_failCoreWork | with_reducible apply keep_setService
    | with_reducible apply keep_rescueEval | with_reducible apply keep_failUnrunnable
    | with_reducible refine Keep.foldl ?_ ?_ | with_reducible refine Keep.foldl3 ?_ ?_
    | fail_if_no_progress with_reducible refine Keep.rec_of ?_ rfl rfl rfl | intro _ | split

theorem keep_crewFailureOp {p : State} {n : Nat} {s : State} (hk : Keep p s) :
    Keep p (crewFailureOp n s) := by
  unfold crewFailureOp
  try dsimp only
  repeat' first
    | with_reducible assumption | with_reducible exact Keep.refl _ | with_reducible apply keep_crewFail
    | with_reducible apply keep_completeLong | with_reducible refine Keep.ite ?_ ?_
    | with_reducible refine Keep.ite2 ?_ ?_ | with_reducible refine Keep.ite3 ?_ ?_
    | with_reducible refine KeepR.ite ?_ ?_ | with_reducible refine KeepR.next ?_
    | with_reducible refine Keep.foldl ?_ ?_ | with_reducible refine Keep.foldl2 ?_ ?_
    | with_reducible refine Keep.foldl3 ?_ ?_ | with_reducible refine Keep.id ?_
    | fail_if_no_progress with_reducible refine Keep.rec_of ?_ rfl rfl rfl | intro _

theorem keep_crewFatalOp {p : State} {n b : Nat} {s : State} (hk : Keep p s) :
    Keep p (crewFatalOp n b s) := by
  unfold crewFatalOp
  try dsimp only
  repeat' first
    | with_reducible assumption | with_reducible exact Keep.refl _ | with_reducible apply keep_raise
    | with_reducible apply keep_regPutF | split

theorem keep_stopOwner {p : State} {obj : Nat} {s : State} (hk : Keep p s) :
    Keep p (stopOwner obj s) := by
  unfold stopOwner
  try dsimp only
  repeat' first
    | with_reducible assumption | with_reducible exact Keep.refl _ | with_reducible apply keep_freeFlow
    | with_reducible refine Keep.foldl ?_ ?_ | fail_if_no_progress with_reducible refine Keep.rec_of ?_ rfl rfl rfl
    | intro _
    | split

theorem keep_dmaAbort {p : State} {ch : Nat} {s : State} (hk : Keep p s) :
    Keep p (dmaAbort ch s) := by
  unfold dmaAbort
  try dsimp only
  repeat' first
    | with_reducible assumption | with_reducible exact Keep.refl _ | with_reducible apply keep_dmaError
    | split

theorem keep_dmaShadow {p : State} {ch k v : Nat} {s : State} (hk : Keep p s) :
    Keep p (dmaShadow ch k v s) := by
  unfold dmaShadow
  try dsimp only
  repeat' first
    | with_reducible assumption | with_reducible exact Keep.refl _ | with_reducible apply keep_dmaPut
    | split

theorem keep_oscWrite {p : State} {n v : Nat} {s : State} (hk : Keep p s) :
    Keep p (oscWrite n v s) := by
  unfold oscWrite
  try dsimp only
  repeat' first
    | with_reducible assumption | with_reducible exact Keep.refl _ | with_reducible apply keep_fabMod
    | with_reducible apply keep_regPut | split

theorem keep_coxClkWrite {p : State} {v : Nat} {s : State} (hk : Keep p s) :
    Keep p (coxClkWrite v s) := by
  unfold coxClkWrite
  try dsimp only
  repeat' first
    | with_reducible assumption | with_reducible exact Keep.refl _ | with_reducible apply keep_regPut

theorem keep_pinSetClr {p : State} {k v : Nat} {on : Bool} {s : State} (hk : Keep p s) :
    Keep p (pinSetClr k v on s) := by
  unfold pinSetClr
  try dsimp only
  repeat' first
    | with_reducible assumption | with_reducible exact Keep.refl _ | with_reducible apply keep_regPutF
    | with_reducible refine Keep.foldl ?_ ?_ | intro _ | split

theorem keep_pinCfgWrite {p : State} {n v : Nat} {s : State} (hk : Keep p s) :
    Keep p (pinCfgWrite n v s) := by
  unfold pinCfgWrite
  try dsimp only
  repeat' first
    | with_reducible assumption | with_reducible exact Keep.refl _ | with_reducible apply keep_fabMod
    | with_reducible apply keep_regPut | with_reducible refine Keep.ite ?_ ?_

theorem keep_spCfgWrite {p : State} {p_ v : Nat} {s : State} (hk : Keep p s) :
    Keep p (spCfgWrite p_ v s) := by
  unfold spCfgWrite
  try dsimp only
  repeat' first
    | with_reducible assumption | with_reducible exact Keep.refl _ | with_reducible apply keep_regPut
    | split

theorem keep_spTx {p : State} {p_ v : Nat} {s : State} (hk : Keep p s) :
    Keep p (spTx p_ v s) := by
  unfold spTx
  try dsimp only
  repeat' first
    | with_reducible assumption | with_reducible exact Keep.refl _ | with_reducible apply keep_serialPut
    | split

theorem keep_fabricOff {p : State} {s : State} (hk : Keep p s) :
    Keep p (fabricOff s) := by
  unfold fabricOff
  try dsimp only
  repeat' first
    | with_reducible assumption | with_reducible exact Keep.refl _ | with_reducible apply keep_fabMod
    | with_reducible apply keep_regPut | with_reducible apply keep_regPutF | with_reducible refine Keep.ite ?_ ?_
    | with_reducible refine Keep.ite2 ?_ ?_ | with_reducible refine Keep.ite3 ?_ ?_
    | with_reducible refine KeepR.ite ?_ ?_ | with_reducible refine KeepR.next ?_
    | with_reducible refine Keep.foldl ?_ ?_ | with_reducible refine Keep.foldl2 ?_ ?_
    | with_reducible refine Keep.foldl3 ?_ ?_ | with_reducible refine Keep.id ?_
    | fail_if_no_progress with_reducible refine Keep.rec_of ?_ rfl rfl rfl | intro _

theorem keep_uncommitted {p : State} {w : Store} {type : Nat} {s : State} (hk : Keep p s) :
    Keep p (uncommitted w type s) := by
  unfold uncommitted
  try dsimp only
  repeat' first
    | with_reducible assumption | with_reducible exact Keep.refl _ | with_reducible apply keep_raise
    | with_reducible refine Keep.foldl ?_ ?_ | intro _ | split

theorem keep_nvOp {p : State} {write : Bool} {r : Request} {s : State} (hk : Keep p s) :
    Keep p (nvOp write r s) := by
  unfold nvOp
  try dsimp only
  repeat' first
    | with_reducible assumption | with_reducible exact Keep.refl _ | with_reducible apply keep_runLong
    | with_reducible refine Keep.id ?_ | intro _

theorem keep_dmaPoll {p : State} {ch : Nat} {w : DmaWait} {s : State} (hk : Keep p s) :
    Keep p (dmaPoll ch w s) := by
  unfold dmaPoll
  try dsimp only
  repeat' first
    | with_reducible assumption | with_reducible exact Keep.refl _ | with_reducible apply keep_dmaNext
    | with_reducible apply keep_dmaPut | with_reducible apply keep_readWord | with_reducible apply keep_dmaError | split
    | with_reducible refine Keep.triple ‹_ = (_, _, _)› ?_

theorem keep_shuttleStatsOp {p : State} {r : Request} {s : State} (hk : Keep p s) :
    Keep p (shuttleStatsOp r s) := by
  unfold shuttleStatsOp
  try dsimp only
  repeat' first
    | with_reducible assumption | with_reducible exact Keep.refl _ | with_reducible apply keep_runCmd
    | intro _

theorem keep_regionImage {p : State} {b : Bytes} {s : State} (hk : Keep p s) :
    Keep p (regionImage b s).2.2 := by
  unfold regionImage
  try dsimp only
  repeat' first
    | with_reducible assumption | with_reducible exact Keep.refl _ | with_reducible apply keep_readBytes
    | with_reducible apply keep_waitAt | split | with_reducible refine Keep.quad ‹_ = (_, _, _, _)› ?_

theorem keep_regionVerify {p : State} {r : Nat} {b img : Bytes} {s : State} (hk : Keep p s) :
    Keep p (regionVerify r b img s).2 := by
  unfold regionVerify
  try dsimp only
  repeat' first
    | with_reducible assumption | with_reducible exact Keep.refl _ | with_reducible apply keep_verifyImage
    | split | with_reducible refine Keep.pair ‹_ = (_, _)› ?_

theorem keep_unforce {p : State} {bs : List Nat} {s : State} (hk : Keep p s) :
    Keep p (unforce bs s) := by
  unfold unforce
  try dsimp only
  repeat' first
    | with_reducible assumption | with_reducible exact Keep.refl _ | with_reducible apply keep_regPut
    | with_reducible refine Keep.foldl ?_ ?_ | intro _

theorem keep_pinOptions {p : State} {p_ : Bytes} {n : Nat} {s : State} (hk : Keep p s) :
    Keep p (pinOptions p_ n s) := by
  unfold pinOptions
  try dsimp only
  repeat' first
    | with_reducible assumption | with_reducible exact Keep.refl _ | with_reducible apply keep_regPutF

theorem keep_takePins {p : State} {p_ : Bytes} {only : Option Nat} {s : State} (hk : Keep p s) :
    Keep p (takePins p_ only s) := by
  unfold takePins
  try dsimp only
  repeat' first
    | with_reducible assumption | with_reducible exact Keep.refl _ | with_reducible apply keep_fabMod
    | with_reducible apply keep_pinOptions | with_reducible refine Keep.foldl ?_ ?_ | intro _ | split

theorem keep_loadFrames {p : State} {p_ : Bytes} {bs : List Nat} {s : State} (hk : Keep p s) :
    Keep p (loadFrames p_ bs s) := by
  unfold loadFrames
  try dsimp only
  repeat' first
    | with_reducible assumption | with_reducible exact Keep.refl _ | with_reducible apply keep_fabMod

theorem keep_regionLoad {p : State} {r : Nat} {s : State} (hk : Keep p s) :
    Keep p (regionLoad r s) := by
  unfold regionLoad
  try dsimp only
  repeat' first
    | with_reducible assumption | with_reducible exact Keep.refl _ | with_reducible apply keep_regionImage
    | with_reducible apply keep_regionVerify | with_reducible apply keep_unforce | with_reducible apply keep_takePins
    | with_reducible apply keep_loadFrames | with_reducible apply keep_reachRunning
    | with_reducible apply keep_startFailed | with_reducible refine Keep.ite ?_ ?_
    | with_reducible refine Keep.ite2 ?_ ?_ | with_reducible refine Keep.ite3 ?_ ?_
    | with_reducible refine KeepR.ite ?_ ?_ | with_reducible refine KeepR.next ?_
    | with_reducible refine Keep.foldl ?_ ?_ | with_reducible refine Keep.foldl2 ?_ ?_
    | with_reducible refine Keep.foldl3 ?_ ?_ | with_reducible refine Keep.id ?_
    | fail_if_no_progress with_reducible refine Keep.rec_of ?_ rfl rfl rfl | intro _ | split
    | with_reducible refine Keep.pair ‹_ = (_, _)› ?_ | with_reducible refine Keep.triple ‹_ = (_, _, _)› ?_

theorem keep_engineCompletionOp {p : State} {k : Nat} {s : State} (hk : Keep p s) :
    Keep p (engineCompletionOp k s) := by
  unfold engineCompletionOp
  try dsimp only
  repeat' first
    | with_reducible assumption | with_reducible exact Keep.refl _ | with_reducible apply keep_regBump
    | with_reducible apply keep_raiseLim | with_reducible apply keep_rescueEval | with_reducible apply keep_completeWork
    | fail_if_no_progress with_reducible refine Keep.rec_of ?_ rfl rfl rfl | split

theorem keep_dmaTimeoutOp {p : State} {ch : Nat} {s : State} (hk : Keep p s) :
    Keep p (dmaTimeoutOp ch s) := by
  unfold dmaTimeoutOp
  try dsimp only
  repeat' first
    | with_reducible assumption | with_reducible exact Keep.refl _ | with_reducible apply keep_dmaError
    | split

theorem keep_dmaEndLoop {p : State} {ch : Nat} {b : Bytes} {s : State} (hk : Keep p s) :
    Keep p (dmaEndLoop ch b s) := by
  unfold dmaEndLoop
  try dsimp only
  repeat' first
    | with_reducible assumption | with_reducible exact Keep.refl _ | with_reducible apply keep_dmaError
    | with_reducible apply keep_dmaPut | with_reducible apply keep_dmaNext | split

theorem keep_takeStaged {p : State} {c : Nat} {s : State} (hk : Keep p s) :
    Keep p (takeStaged c s) := by
  unfold takeStaged
  try dsimp only
  repeat' first
    | with_reducible assumption | with_reducible exact Keep.refl _ | with_reducible apply keep_corePut
    | with_reducible apply keep_slotState | fail_if_no_progress with_reducible refine Keep.rec_of ?_ rfl rfl rfl | split

theorem keep_regionStopped {p : State} {r : Nat} {s : State} (hk : Keep p s) :
    Keep p (regionStopped r s) := by
  unfold regionStopped
  try dsimp only
  repeat' first
    | with_reducible assumption | with_reducible exact Keep.refl _ | with_reducible apply keep_reachStopped
    | split

theorem keep_dmaMoveBad {p : State} {ch err addr : Nat} {s : State} (hk : Keep p s) :
    Keep p (dmaMoveBad ch err addr s) := by
  unfold dmaMoveBad
  try dsimp only
  repeat' first
    | with_reducible assumption | with_reducible exact Keep.refl _ | with_reducible apply keep_dmaPut
    | with_reducible apply keep_raiseLim | with_reducible apply keep_regBump

theorem keep_moveFinish {p : State} {ch status err bytes addr handle : Nat} {s0 s : State} (h0 : Keep p s0) (hk : Keep
    p s) :
    Keep p (moveFinish ch status err bytes addr handle s0 s) := by
  unfold moveFinish
  try dsimp only
  repeat' first
    | with_reducible assumption | with_reducible exact Keep.refl _ | with_reducible apply keep_dmaMoveBad
    | with_reducible apply keep_dmaNext | with_reducible apply keep_writeWord | with_reducible refine Keep.ite ?_ ?_
    | with_reducible refine Keep.ite2 ?_ ?_ | with_reducible refine Keep.ite3 ?_ ?_
    | with_reducible refine KeepR.ite ?_ ?_ | with_reducible refine KeepR.next ?_
    | with_reducible refine Keep.foldl ?_ ?_ | with_reducible refine Keep.foldl2 ?_ ?_
    | with_reducible refine Keep.foldl3 ?_ ?_ | with_reducible refine Keep.id ?_
    | fail_if_no_progress with_reducible refine Keep.rec_of ?_ rfl rfl rfl | intro _ | split
    | with_reducible refine Keep.pair ‹_ = (_, _)› ?_

theorem keep_startEngine {p : State} {k : Nat} {w : Work} {s : State} (hk : Keep p s) :
    Keep p (startEngine k w s) := by
  unfold startEngine
  try dsimp only
  repeat' first
    | with_reducible assumption | with_reducible exact Keep.refl _ | with_reducible apply keep_slotState
    | with_reducible apply keep_unready | with_reducible apply keep_regPutF | with_reducible apply keep_shCount
    | with_reducible apply keep_wakeRequestBase | fail_if_no_progress with_reducible refine Keep.rec_of ?_ rfl rfl rfl
    | split

theorem keep_dmaLoopOp {p : State} {ch : Nat} {b : Bytes} {s : State} (hk : Keep p s) :
    Keep p (dmaLoopOp ch b s) := by
  unfold dmaLoopOp
  try dsimp only
  repeat' first
    | with_reducible assumption | with_reducible exact Keep.refl _ | with_reducible apply keep_dmaError
    | with_reducible apply keep_dmaNext | with_reducible apply keep_dmaPut | split

theorem keep_earlyRead {p : State} {old : List (Nat × Bytes)} {a : Nat} {b : Bytes} {s : State} (hk : Keep p s) :
    Keep p (earlyRead old a b s).2 := by
  unfold earlyRead
  try dsimp only
  repeat' first
    | with_reducible assumption | with_reducible exact Keep.refl _
    | with_reducible apply keep_draw | split

theorem keep_moveLoop {p : State} {i : Initiator} {erased : Bool} {old : List (Nat × Bytes)} {span : Nat → Nat × Nat}
    {y0 y1 : List Nat} {y2 : Nat} {y3 : State} (hk : Keep p y3) : Keep p (moveLoop i erased old span y0 y1 y2 y3).2 := by
  induction y0 generalizing y1 y2 y3 with
  | nil => unfold moveLoop; exact hk
  | cons b r ih =>
    cases y1 with
    | nil => unfold moveLoop; exact hk
    | cons w ws =>
      unfold moveLoop
      repeat' first
        | with_reducible assumption | with_reducible exact Keep.refl _ | with_reducible apply ih
        | with_reducible apply keep_readWord | with_reducible apply keep_writeWord | with_reducible apply keep_earlyRead
        | with_reducible refine Keep.ite ?_ ?_ | with_reducible refine Keep.ite2 ?_ ?_
        | with_reducible refine Keep.ite3 ?_ ?_ | with_reducible refine KeepR.ite ?_ ?_
        | with_reducible refine KeepR.next ?_ | with_reducible refine Keep.foldl ?_ ?_
        | with_reducible refine Keep.foldl2 ?_ ?_ | with_reducible refine Keep.foldl3 ?_ ?_
        | with_reducible refine Keep.id ?_ | fail_if_no_progress with_reducible refine Keep.rec_of ?_ rfl rfl rfl
        | intro _
        | split | with_reducible refine Keep.pair ‹_ = (_, _)› ?_ | with_reducible refine Keep.triple ‹_ = (_, _, _)› ?_

theorem keep_dmaIssue {p : State} {ch bytes : Nat} {ws : List Nat} {before : State} {s : State} (hk : Keep p s) :
    Keep p (dmaIssue ch bytes ws before s) := by
  unfold dmaIssue
  try dsimp only
  repeat' first
    | with_reducible assumption | with_reducible exact Keep.refl _
    | with_reducible apply keep_dmaPut

theorem keep_dmaMove {p : State} {ch : Nat} {b : Bytes} {s : State} (hk : Keep p s) :
    Keep p (dmaMove ch b s) := by
  unfold dmaMove
  try dsimp only
  repeat' first
    | with_reducible assumption | with_reducible exact Keep.refl _
    | with_reducible apply keep_dmaIssue
    | with_reducible apply keep_dmaError
    | with_reducible apply keep_moveFinish | with_reducible apply keep_dmaPut | with_reducible apply keep_moveLoop
    | with_reducible apply keep_draw | with_reducible apply keep_scramble | with_reducible refine Keep.ite ?_ ?_ | split
    | with_reducible refine Keep.pair ‹_ = (_, _)› ?_

theorem keep_watchdogOp {p : State} {c : Nat} {s : State} (hk : Keep p s) :
    Keep p (watchdogOp c s) := by
  unfold watchdogOp
  try dsimp only
  repeat' first
    | with_reducible assumption | with_reducible exact Keep.refl _ | with_reducible apply keep_rescueEval
    | with_reducible apply keep_coreResetOp | with_reducible apply keep_raise | split

theorem keep_beamTimeoutOp {p : State} {f : Nat} {s : State} (hk : Keep p s) :
    Keep p (beamTimeoutOp f s) := by
  unfold beamTimeoutOp
  try dsimp only
  repeat' first
    | with_reducible assumption | with_reducible exact Keep.refl _ | with_reducible apply keep_flowPut
    | with_reducible apply keep_beamRelease | with_reducible apply keep_raise | with_reducible apply keep_shCount
    | split

theorem keep_readback {p : State} {upset : Bool} {s : State} (hk : Keep p s) :
    Keep p (readback upset s) := by
  unfold readback
  try dsimp only
  repeat' first
    | with_reducible assumption | with_reducible exact Keep.refl _ | with_reducible apply keep_fabMod
    | with_reducible apply keep_regPut | with_reducible apply keep_setFn | with_reducible apply keep_objPut
    | with_reducible apply keep_raise | split

theorem keep_dmaSignal {p : State} {ch : Nat} {b : Bytes} {s : State} (hk : Keep p s) :
    Keep p (dmaSignal ch b s) := by
  unfold dmaSignal
  try dsimp only
  repeat' first
    | with_reducible assumption | with_reducible exact Keep.refl _ | with_reducible apply keep_dmaError
    | with_reducible apply keep_dmaNext | with_reducible apply keep_notify | with_reducible apply keep_emit
    | with_reducible apply keep_unitEnqueue | split

theorem keep_crewRetireOp {p : State} {r : Request} {s : State} (hk : Keep p s) :
    Keep p (crewRetireOp r s) := by
  unfold crewRetireOp
  try dsimp only
  repeat' first
    | with_reducible assumption | with_reducible exact Keep.refl _ | with_reducible apply keep_runLong
    | with_reducible apply keep_regPutF

theorem keep_taskCompletionOp {p : State} {c : Nat} {s : State} (hk : Keep p s) :
    Keep p (taskCompletionOp c s) := by
  unfold taskCompletionOp
  try dsimp only
  repeat' first
    | with_reducible assumption | with_reducible exact Keep.refl _ | with_reducible apply keep_drainWrites
    | with_reducible apply keep_corePut | with_reducible apply keep_rescueEval | with_reducible apply keep_completeWork
    | fail_if_no_progress with_reducible refine Keep.rec_of ?_ rfl rfl rfl | split

theorem keep_takeTable {p : State} {p_ : Bytes} {s : State} (hk : Keep p s) :
    Keep p (takeTable p_ s) := by
  unfold takeTable
  try dsimp only
  repeat' first
    | with_reducible assumption | with_reducible exact Keep.refl _ | with_reducible apply keep_fabMod
    | with_reducible apply keep_regPutF | with_reducible refine Keep.foldl ?_ ?_ | intro _

theorem keep_stageOn {p : State} {c : Nat} {w : Work} {s : State} (hk : Keep p s) :
    Keep p (stageOn c w s) := by
  unfold stageOn
  try dsimp only
  repeat' first
    | with_reducible assumption | with_reducible exact Keep.refl _ | with_reducible apply keep_slotState
    | with_reducible apply keep_unready | with_reducible apply keep_flowPut | with_reducible apply keep_evalNext
    | with_reducible apply keep_shCountCrew | with_reducible apply keep_wakeRequestBase
    | with_reducible apply keep_takeStaged | fail_if_no_progress with_reducible refine Keep.rec_of ?_ rfl rfl rfl
    | split

theorem keep_spReceived {p : State} {p_ : Nat} {e : SpEvent} {s : State} (hk : Keep p s) :
    Keep p (spReceived p_ e s) := by
  unfold spReceived
  try dsimp only
  repeat' first
    | with_reducible assumption | with_reducible exact Keep.refl _ | with_reducible apply keep_regPutF
    | with_reducible apply keep_serialPut | split

theorem keep_dmaWaitOp {p : State} {ch : Nat} {b : Bytes} {s : State} (hk : Keep p s) :
    Keep p (dmaWaitOp ch b s) := by
  unfold dmaWaitOp
  try dsimp only
  repeat' first
    | with_reducible assumption | with_reducible exact Keep.refl _ | with_reducible apply keep_dmaError
    | with_reducible apply keep_dmaPut | with_reducible apply keep_dmaPoll | split

theorem keep_releaseBoot {p : State} {p_ : Bytes} {s : State} (hk : Keep p s) :
    Keep p (releaseBoot p_ s) := by
  unfold releaseBoot
  try dsimp only
  repeat' first
    | with_reducible assumption | with_reducible exact Keep.refl _ | with_reducible apply keep_fabMod
    | with_reducible apply keep_takePins | with_reducible apply keep_loadFrames | with_reducible apply keep_regPutF
    | with_reducible apply keep_regPut | with_reducible apply keep_objPut | with_reducible refine Keep.foldl ?_ ?_
    | intro _
    | split

theorem keep_dmaEnd {p : State} {ch : Nat} {b : Bytes} {s : State} (hk : Keep p s) :
    Keep p (dmaEnd ch b s) := by
  unfold dmaEnd
  try dsimp only
  repeat' first
    | with_reducible assumption | with_reducible exact Keep.refl _
    | with_reducible apply keep_dmaFinish
    | with_reducible apply keep_dmaComplete
    | with_reducible apply keep_dmaError | split

theorem keep_dmaStage {p : State} {ch : Nat} {s : State} (hk : Keep p s) :
    Keep p (dmaStage ch s) := by
  unfold dmaStage
  try dsimp only
  repeat' first
    | with_reducible assumption | with_reducible exact Keep.refl _ | with_reducible apply keep_shCount
    | with_reducible apply keep_slotState | with_reducible apply keep_unready | with_reducible apply keep_dmaPut | split

theorem keep_dmaStart {p : State} {ch : Nat} {x : DmaCh} {s : State} (hk : Keep p s) :
    Keep p (dmaStart ch x s) := by
  unfold dmaStart
  try dsimp only
  repeat' first
    | with_reducible assumption | with_reducible exact Keep.refl _ | with_reducible apply keep_dmaPut
    | with_reducible apply keep_dmaError | split

theorem keep_dmaHandover {p : State} {ch : Nat} {s : State} (hk : Keep p s) :
    Keep p (dmaHandover ch s) := by
  unfold dmaHandover
  try dsimp only
  repeat' first
    | with_reducible assumption | with_reducible exact Keep.refl _ | with_reducible apply keep_dmaStart
    | with_reducible apply keep_slotState | split

theorem keep_serviceSetOp {p : State} {r : Request} {s : State} (hk : Keep p s) :
    Keep p (serviceSetOp r s) := by
  unfold serviceSetOp
  try dsimp only
  repeat' first
    | with_reducible assumption | with_reducible exact Keep.refl _ | with_reducible apply keep_runCmd
    | with_reducible apply keep_setService

theorem keep_taskSetStoppedOp {p : State} {index : Nat} {s : State} (hk : Keep p s) :
    Keep p (taskSetStoppedOp index s) := by
  unfold taskSetStoppedOp
  try dsimp only
  repeat' first
    | with_reducible assumption | with_reducible exact Keep.refl _ | with_reducible apply keep_reachStopped
    | with_reducible apply keep_dropOwner | split

theorem keep_nvDone {p : State} {l : Long} {s : State} (hk : Keep p s) :
    Keep p (nvDone l s) := by
  unfold nvDone
  try dsimp only
  repeat' first
    | with_reducible assumption | with_reducible exact Keep.refl _ | with_reducible apply keep_commandWrite
    | with_reducible apply keep_completeLong | with_reducible apply keep_readBytes
    | with_reducible apply keep_storeWrite | with_reducible apply keep_waitAt | split
    | with_reducible refine Keep.pair ‹_ = (_, _)› ?_ | with_reducible refine Keep.quad ‹_ = (_, _, _, _)› ?_

theorem keep_dmaContinue {p : State} {ch : Nat} {s : State} (hk : Keep p s) :
    Keep p (dmaContinue ch s) := by
  unfold dmaContinue
  try dsimp only
  repeat' first
    | with_reducible assumption | with_reducible exact Keep.refl _ | with_reducible apply keep_dmaPoll
    | split

theorem keep_filterTick {p : State} {s : State} (hk : Keep p s) :
    Keep p (filterTick s) := by
  unfold filterTick
  try dsimp only
  repeat' first
    | with_reducible assumption | with_reducible exact Keep.refl _ | with_reducible apply keep_fabMod

theorem keep_coxClkTick {p : State} {s : State} (hk : Keep p s) :
    Keep p (coxClkTick s) := by
  unfold coxClkTick
  try dsimp only
  repeat' first
    | with_reducible assumption | with_reducible exact Keep.refl _
    | with_reducible apply keep_emit
    | with_reducible apply keep_fabMod | split

theorem keep_fabricTick {p : State} {s : State} (hk : Keep p s) :
    Keep p (fabricTick s) := by
  unfold fabricTick
  try dsimp only
  repeat' first
    | with_reducible assumption | with_reducible exact Keep.refl _
    | with_reducible apply keep_coxClkTick
    | with_reducible apply keep_filterTick
    | with_reducible apply keep_spShift | with_reducible refine Keep.foldl ?_ ?_ | intro _

theorem keep_dmaServe {p : State} {ch : Nat} {s : State} (hk : Keep p s) :
    Keep p (dmaServe ch s) := by
  unfold dmaServe
  try dsimp only
  repeat' first
    | with_reducible assumption | with_reducible exact Keep.refl _
    | with_reducible apply keep_dmaComplete
    | with_reducible apply keep_dmaPut | split

theorem keep_dmaTick {p : State} {s : State} (hk : Keep p s) :
    Keep p (dmaTick s) := by
  unfold dmaTick
  try dsimp only
  repeat' first
    | with_reducible assumption | with_reducible exact Keep.refl _
    | with_reducible apply keep_dmaServe
    | with_reducible refine Keep.foldl ?_ ?_ | intro _ | split

end Sys2Proof.Machine
end

