-- ==== Sys2Proof/Laws/KeepMedia.lean ====
section
/-!
SUPPORT. What commands keep (part, queue, canonical memory): audio, video, the forwarder, the lanes and Bupex.
-/
namespace Sys2Proof.Machine
open Sys2Proof

theorem keep_laneLock {p : State} {on : Bool} {ls : List Nat} {s : State} (hk : Keep p s) :
    Keep p (laneLock on ls s) := by
  unfold laneLock
  try dsimp only
  repeat' first
    | with_reducible assumption | with_reducible exact Keep.refl _ | with_reducible apply keep_regPutF
    | with_reducible refine Keep.foldl ?_ ?_ | intro _

theorem keep_ethDown {p : State} {n cause : Nat} {s : State} (hk : Keep p s) :
    Keep p (ethDown n cause s) := by
  unfold ethDown
  try dsimp only
  repeat' first
    | with_reducible assumption | with_reducible exact Keep.refl _ | with_reducible apply keep_laneLock
    | with_reducible apply keep_cntBump | with_reducible apply keep_regPut | with_reducible apply keep_carriersPortDown
    | with_reducible apply keep_raise | split

theorem keep_mdMod {p : State} {f : MultiDev → MultiDev} {s : State} (hk : Keep p s) :
    Keep p (mdMod f s) := by
  unfold mdMod
  try dsimp only
  repeat' first
    | with_reducible assumption | with_reducible exact Keep.refl _ | with_reducible apply keep_serialMod

theorem keep_watchMembers {p : State} {s : State} (hk : Keep p s) :
    Keep p (watchMembers s) := by
  unfold watchMembers
  try dsimp only
  repeat' first
    | with_reducible assumption | with_reducible exact Keep.refl _ | with_reducible apply keep_mdMod

theorem keep_mdApplied {p : State} {s : State} (hk : Keep p s) :
    Keep p (mdApplied s) := by
  unfold mdApplied
  try dsimp only
  repeat' first
    | with_reducible assumption | with_reducible exact Keep.refl _ | with_reducible apply keep_watchMembers
    | with_reducible apply keep_mdMod

theorem keep_pcieLink {p : State} {up : Bool} {gen width : Nat} {l1 : Bool} {s : State} (hk : Keep p s) :
    Keep p (pcieLink up gen width l1 s) := by
  unfold pcieLink
  try dsimp only
  repeat' first
    | with_reducible assumption | with_reducible exact Keep.refl _ | with_reducible apply keep_serialMod
    | with_reducible apply keep_regPut

theorem keep_audioClear {p : State} {s : State} (hk : Keep p s) :
    Keep p (audioClear s) := by
  unfold audioClear
  try dsimp only
  repeat' first
    | with_reducible assumption | with_reducible exact Keep.refl _ | with_reducible apply keep_cntZeroAll

theorem keep_linkMod {p : State} {l : Nat} {f : LinkRun → LinkRun} {s : State} (hk : Keep p s) :
    Keep p (linkMod l f s) := by
  unfold linkMod
  try dsimp only
  repeat' first
    | with_reducible assumption | with_reducible exact Keep.refl _ | with_reducible apply keep_linkPut

theorem keep_hspEvent {p : State} {n k : Nat} {s : State} (hk : Keep p s) :
    Keep p (hspEvent n k s) := by
  unfold hspEvent
  try dsimp only
  repeat' first
    | with_reducible assumption | with_reducible exact Keep.refl _ | with_reducible apply keep_regPutF

theorem keep_hspPut {p : State} {n : Nat} {x : Hsp} {s : State} (hk : Keep p s) :
    Keep p (hspPut n x s) := by
  unfold hspPut
  try dsimp only
  repeat' first
    | with_reducible assumption | with_reducible exact Keep.refl _
    | fail_if_no_progress with_reducible refine Keep.rec_of ?_ rfl rfl rfl

theorem keep_hspInsert {p : State} {n stable : Nat} {s : State} (hk : Keep p s) :
    Keep p (hspInsert n stable s) := by
  unfold hspInsert
  try dsimp only
  repeat' first
    | with_reducible assumption | with_reducible exact Keep.refl _
    | with_reducible apply keep_wakeRequestBase | with_reducible apply keep_regPutF | with_reducible apply keep_hspEvent
    | with_reducible apply keep_hspPut | split

theorem keep_fwdDropEvent {p : State} {l : Nat} {s : State} (hk : Keep p s) :
    Keep p (fwdDropEvent l s) := by
  unfold fwdDropEvent
  try dsimp only
  repeat' first
    | with_reducible assumption | with_reducible exact Keep.refl _ | with_reducible apply keep_raiseLim
    | with_reducible refine Keep.ite ?_ ?_

theorem keep_bridgeBegin {p : State} {id : Nat} {s : State} (hk : Keep p s) :
    Keep p (bridgeBegin id s) := by
  unfold bridgeBegin
  try dsimp only
  repeat' first
    | with_reducible assumption | with_reducible exact Keep.refl _ | with_reducible apply keep_audioGroupPut
    | with_reducible apply keep_taskTake | with_reducible apply keep_c0Set | with_reducible apply keep_objPut | split

theorem keep_videoMod {p : State} {f : VideoState → VideoState} {s : State} (hk : Keep p s) :
    Keep p (videoMod f s) := by
  unfold videoMod
  try dsimp only
  repeat' first
    | with_reducible assumption | with_reducible exact Keep.refl _
    | fail_if_no_progress with_reducible refine Keep.rec_of ?_ rfl rfl rfl

theorem keep_videoPut {p : State} {k : Nat} {x : VideoRun} {s : State} (hk : Keep p s) :
    Keep p (videoPut k x s) := by
  unfold videoPut
  try dsimp only
  repeat' first
    | with_reducible assumption | with_reducible exact Keep.refl _ | with_reducible apply keep_videoMod

theorem keep_videoBegin {p : State} {id : Nat} {s : State} (hk : Keep p s) :
    Keep p (videoBegin id s) := by
  unfold videoBegin
  try dsimp only
  repeat' first
    | with_reducible assumption | with_reducible exact Keep.refl _ | with_reducible apply keep_videoPut
    | with_reducible apply keep_objPut | split

theorem keep_laneTake {p : State} {kind who rate : Nat} {idle : Bool} {n : Nat} {s : State} (hk : Keep p s) :
    Keep p (laneTake kind who rate idle n s) := by
  unfold laneTake
  try dsimp only
  repeat' first
    | with_reducible assumption | with_reducible exact Keep.refl _ | with_reducible apply keep_serialMod
    | with_reducible apply keep_regPut

theorem keep_linkBegin {p : State} {id : Nat} {s : State} (hk : Keep p s) :
    Keep p (linkBegin id s) := by
  unfold linkBegin
  try dsimp only
  repeat' first
    | with_reducible assumption | with_reducible exact Keep.refl _ | with_reducible apply keep_linkPut
    | with_reducible apply keep_cntZeroAll | with_reducible apply keep_laneTake | with_reducible refine Keep.foldl ?_ ?_
    | intro _
    | split

theorem keep_laneDrop {p : State} {n : Nat} {s : State} (hk : Keep p s) :
    Keep p (laneDrop n s) := by
  unfold laneDrop
  try dsimp only
  repeat' first
    | with_reducible assumption | with_reducible exact Keep.refl _ | with_reducible apply keep_serialMod
    | with_reducible apply keep_regPut

theorem keep_prbsRead {p : State} {n : Nat} {errors : Bool} {s : State} (hk : Keep p s) :
    Keep p (prbsRead n errors s) := by
  unfold prbsRead
  try dsimp only
  repeat' first
    | with_reducible assumption | with_reducible exact Keep.refl _ | with_reducible apply keep_answer
    | with_reducible apply keep_regPut | with_reducible apply keep_serialMod

theorem keep_eqRead {p : State} {n : Nat} {s : State} (hk : Keep p s) :
    Keep p (eqRead n s) := by
  unfold eqRead
  try dsimp only
  repeat' first
    | with_reducible assumption | with_reducible exact Keep.refl _
    | with_reducible apply keep_serialMod
    | with_reducible apply keep_answer
    | with_reducible apply keep_draw | split

theorem keep_splitEvent {p : State} {g : Nat} {devs : List Nat} {s : State} (hk : Keep p s) :
    Keep p (splitEvent g devs s) := by
  unfold splitEvent
  try dsimp only
  repeat' first
    | with_reducible assumption | with_reducible exact Keep.refl _ | with_reducible apply keep_raiseLim
    | with_reducible refine Keep.ite ?_ ?_

theorem keep_audioPartition {p : State} {devs : List Nat} {s : State} (hk : Keep p s) :
    Keep p (audioPartition devs s) := by
  unfold audioPartition
  try dsimp only
  repeat' first
    | with_reducible assumption | with_reducible exact Keep.refl _ | with_reducible apply keep_audioMod
    | with_reducible apply keep_splitEvent | with_reducible refine Keep.foldl ?_ ?_ | intro _

theorem keep_audioRejoin {p : State} {devs : List Nat} {s : State} (hk : Keep p s) :
    Keep p (audioRejoin devs s) := by
  unfold audioRejoin
  try dsimp only
  repeat' first
    | with_reducible assumption | with_reducible exact Keep.refl _ | with_reducible apply keep_audioMod

theorem keep_proxyEn {p : State} {ds : List Nat} {on : Bool} {s : State} (hk : Keep p s) :
    Keep p (proxyEn ds on s) := by
  unfold proxyEn
  try dsimp only
  repeat' first
    | with_reducible assumption | with_reducible exact Keep.refl _ | with_reducible apply keep_queuePut
    | with_reducible apply keep_mdMod | with_reducible refine Keep.foldl ?_ ?_ | intro _ | split

theorem keep_takeRole {p : State} {role leader : Nat} {cut : List Nat} {s : State} (hk : Keep p s) :
    Keep p (takeRole role leader cut s) := by
  unfold takeRole
  try dsimp only
  repeat' first
    | with_reducible assumption | with_reducible exact Keep.refl _ | with_reducible apply keep_mdMod
    | with_reducible apply keep_audioPartition | with_reducible apply keep_audioRejoin
    | with_reducible apply keep_proxyEn | split

theorem keep_rejoinOp {p : State} {s : State} (hk : Keep p s) :
    Keep p (rejoinOp s) := by
  unfold rejoinOp
  try dsimp only
  repeat' first
    | with_reducible assumption | with_reducible exact Keep.refl _
    | with_reducible apply keep_coxMod
    | with_reducible apply keep_raise
    | with_reducible apply keep_takeRole | split

theorem keep_fwdMod {p : State} {f : Fwd → Fwd} {s : State} (hk : Keep p s) :
    Keep p (fwdMod f s) := by
  unfold fwdMod
  try dsimp only
  repeat' first
    | with_reducible assumption | with_reducible exact Keep.refl _ | with_reducible apply keep_videoMod

theorem keep_fwdAdvance {p : State} {s : State} (hk : Keep p s) :
    Keep p (fwdAdvance s) := by
  unfold fwdAdvance
  try dsimp only
  repeat' first
    | with_reducible assumption | with_reducible exact Keep.refl _ | with_reducible apply keep_fwdMod

theorem keep_layerRates {p : State} {s : State} (hk : Keep p s) :
    Keep p (layerRates s) := by
  unfold layerRates
  try dsimp only
  repeat' first
    | with_reducible assumption | with_reducible exact Keep.refl _ | with_reducible apply keep_fwdMod
    | with_reducible apply keep_fwdAdvance | split

theorem keep_linkCount {p : State} {l k n : Nat} {s : State} (hk : Keep p s) :
    Keep p (linkCount l k n s) := by
  unfold linkCount
  try dsimp only
  repeat' first
    | with_reducible assumption | with_reducible exact Keep.refl _ | with_reducible apply keep_cntBump

theorem keep_floodLinks {p : State} {s : State} (hk : Keep p s) :
    Keep p (floodLinks s) := by
  unfold floodLinks
  try dsimp only
  repeat' first
    | with_reducible assumption | with_reducible exact Keep.refl _ | with_reducible apply keep_linkSend
    | with_reducible refine Keep.foldl ?_ ?_ | intro _

theorem keep_topoChange {p : State} {s : State} (hk : Keep p s) :
    Keep p (topoChange s) := by
  unfold topoChange
  try dsimp only
  repeat' first
    | with_reducible assumption | with_reducible exact Keep.refl _ | with_reducible apply keep_watchMembers
    | with_reducible apply keep_floodLinks

theorem keep_resendAll {p : State} {fs : List (String × Bytes)} {s : State} (hk : Keep p s) :
    Keep p (resendAll fs s) := by
  unfold resendAll
  try dsimp only
  repeat' first
    | with_reducible assumption | with_reducible exact Keep.refl _ | with_reducible apply keep_linkSend
    | with_reducible refine Keep.foldl ?_ ?_ | intro _ | split

theorem keep_linkOff {p : State} {l : Nat} {s : State} (hk : Keep p s) :
    Keep p (linkOff l s) := by
  unfold linkOff
  try dsimp only
  repeat' first
    | with_reducible assumption | with_reducible exact Keep.refl _ | with_reducible apply keep_regPutF
    | with_reducible apply keep_linkPut | with_reducible apply keep_topoChange | with_reducible apply keep_resendAll

theorem keep_linkDown {p : State} {l cause : Nat} {s : State} (hk : Keep p s) :
    Keep p (linkDown l cause s) := by
  unfold linkDown
  try dsimp only
  repeat' first
    | with_reducible assumption | with_reducible exact Keep.refl _ | with_reducible apply keep_raise
    | with_reducible apply keep_linkCount | with_reducible apply keep_linkOff | with_reducible apply keep_laneLock
    | split

theorem keep_laneLost {p : State} {n : Nat} {s : State} (hk : Keep p s) :
    Keep p (laneLost n s) := by
  unfold laneLost
  try dsimp only
  repeat' first
    | with_reducible assumption | with_reducible exact Keep.refl _ | with_reducible apply keep_ethDown
    | with_reducible apply keep_linkDown | with_reducible apply keep_regPutF | with_reducible apply keep_cntBump
    | with_reducible apply keep_raise | split

theorem keep_drainQueue {p : State} {q y0 : Nat} {y1 : State} (hk : Keep p y1) :
    Keep p (drainQueue q y0 y1) := by
  induction y0 generalizing q y1 with
  | zero => unfold drainQueue; exact hk
  | succ n ih =>
    unfold drainQueue
    try dsimp only
    repeat' first
      | with_reducible assumption | with_reducible exact Keep.refl _ | with_reducible apply ih
      | with_reducible apply keep_dequeue | with_reducible apply keep_takePacket | with_reducible apply keep_pktFree | split
      | with_reducible refine Keep.pair ‹_ = (_, _)› ?_

theorem keep_legKeysClear {p : State} {l : Nat} {s : State} (hk : Keep p s) :
    Keep p (legKeysClear l s) := by
  unfold legKeysClear
  try dsimp only
  repeat' first
    | with_reducible assumption | with_reducible exact Keep.refl _
    | fail_if_no_progress with_reducible refine Keep.rec_of ?_ rfl rfl rfl

theorem keep_legRemove {p : State} {l : Nat} {s : State} (hk : Keep p s) :
    Keep p (legRemove l s) := by
  unfold legRemove
  try dsimp only
  repeat' first
    | with_reducible assumption | with_reducible exact Keep.refl _ | with_reducible apply keep_audioMod
    | with_reducible apply keep_legKeysClear | with_reducible apply keep_legPut | split

theorem keep_bridgeStopping {p : State} {id : Nat} {s : State} (hk : Keep p s) :
    Keep p (bridgeStopping id s) := by
  unfold bridgeStopping
  try dsimp only
  repeat' first
    | with_reducible assumption | with_reducible exact Keep.refl _ | with_reducible apply keep_drainQueue
    | with_reducible apply keep_legRemove | with_reducible refine Keep.foldl ?_ ?_ | intro _ | split

theorem keep_videoStopping {p : State} {id : Nat} {s : State} (hk : Keep p s) :
    Keep p (videoStopping id s) := by
  unfold videoStopping
  try dsimp only
  repeat' first
    | with_reducible assumption | with_reducible exact Keep.refl _ | with_reducible apply keep_videoPut
    | split

theorem keep_fwdClear {p : State} {s : State} (hk : Keep p s) :
    Keep p (fwdClear s) := by
  unfold fwdClear
  try dsimp only
  repeat' first
    | with_reducible assumption | with_reducible exact Keep.refl _ | with_reducible apply keep_cntZeroAll

theorem keep_laneCtrlWrite {p : State} {n v : Nat} {s : State} (hk : Keep p s) :
    Keep p (laneCtrlWrite n v s) := by
  unfold laneCtrlWrite
  try dsimp only
  repeat' first
    | with_reducible assumption | with_reducible exact Keep.refl _
    | with_reducible apply keep_serialMod
    | with_reducible apply keep_regPut
    | with_reducible apply keep_laneTake | with_reducible apply keep_laneDrop | split

theorem keep_eqWrite {p : State} {n v : Nat} {s : State} (hk : Keep p s) :
    Keep p (eqWrite n v s) := by
  unfold eqWrite
  try dsimp only
  repeat' first
    | with_reducible assumption | with_reducible exact Keep.refl _ | with_reducible apply keep_serialMod
    | split

theorem keep_ethCfgWrite {p : State} {n v : Nat} {s : State} (hk : Keep p s) :
    Keep p (ethCfgWrite n v s) := by
  unfold ethCfgWrite
  try dsimp only
  repeat' first
    | with_reducible assumption | with_reducible exact Keep.refl _ | with_reducible apply keep_regPut
    | with_reducible apply keep_laneDrop | with_reducible apply keep_ethDown | with_reducible apply keep_laneTake
    | with_reducible refine Keep.foldl ?_ ?_ | intro _ | split

theorem keep_linkStopped {p : State} {l : Nat} {s : State} (hk : Keep p s) :
    Keep p (linkStopped l s) := by
  unfold linkStopped
  try dsimp only
  repeat' first
    | with_reducible assumption | with_reducible exact Keep.refl _ | with_reducible apply keep_linkOff
    | with_reducible apply keep_laneDrop | with_reducible apply keep_reachStopped | with_reducible apply keep_linkPut
    | with_reducible apply keep_regPut | with_reducible refine Keep.foldl ?_ ?_ | intro _ | split

theorem keep_bootSent {p : State} {l : Long} {ready : Bool} {s : State} (hk : Keep p s) :
    Keep p (bootSent l ready s) := by
  unfold bootSent
  try dsimp only
  repeat' first
    | with_reducible assumption | with_reducible exact Keep.refl _ | with_reducible apply keep_completeLong
    | with_reducible apply keep_laneDrop | with_reducible apply keep_readBytes | with_reducible apply keep_emit
    | with_reducible apply keep_waitAt | with_reducible refine Keep.foldl ?_ ?_ | intro _ | split
    | with_reducible refine Keep.quad ‹_ = (_, _, _, _)› ?_

theorem keep_streamPut {p : State} {n : Nat} {x : FwdStream} {s : State} (hk : Keep p s) :
    Keep p (streamPut n x s) := by
  unfold streamPut
  try dsimp only
  repeat' first
    | with_reducible assumption | with_reducible exact Keep.refl _ | with_reducible apply keep_fwdMod

theorem keep_linkStatsOp {p : State} {r : Request} {s : State} (hk : Keep p s) :
    Keep p (linkStatsOp r s) := by
  unfold linkStatsOp
  try dsimp only
  repeat' first
    | with_reducible assumption | with_reducible exact Keep.refl _ | with_reducible apply keep_runCmd
    | intro _

theorem keep_dupFilter {p : State} {src seq : Nat} {s : State} (hk : Keep p s) :
    Keep p (dupFilter src seq s).2 := by
  unfold dupFilter
  try dsimp only
  repeat' first
    | with_reducible assumption | with_reducible exact Keep.refl _ | with_reducible apply keep_mdMod | split

theorem keep_linkTimeout {p : State} {l : Nat} {s : State} (hk : Keep p s) :
    Keep p (linkTimeout l s) := by
  unfold linkTimeout
  try dsimp only
  repeat' first
    | with_reducible assumption | with_reducible exact Keep.refl _ | with_reducible apply keep_linkDown
    | split

theorem keep_bootSendOp {p : State} {r : Request} {s : State} (hk : Keep p s) :
    Keep p (bootSendOp r s) := by
  unfold bootSendOp
  try dsimp only
  repeat' first
    | with_reducible assumption | with_reducible exact Keep.refl _ | with_reducible apply keep_runLong
    | with_reducible apply keep_laneTake

theorem keep_mdStatusOp {p : State} {r : Request} {s : State} (hk : Keep p s) :
    Keep p (mdStatusOp r s) := by
  unfold mdStatusOp
  try dsimp only
  repeat' first
    | with_reducible assumption | with_reducible exact Keep.refl _ | with_reducible apply keep_runCmd
    | intro _

theorem keep_fwdPut {p : State} {l : Nat} {x : FwdLeg} {s : State} (hk : Keep p s) :
    Keep p (fwdPut l x s) := by
  unfold fwdPut
  try dsimp only
  repeat' first
    | with_reducible assumption | with_reducible exact Keep.refl _ | with_reducible apply keep_fwdMod

theorem keep_fwdCount {p : State} {l k n : Nat} {s : State} (hk : Keep p s) :
    Keep p (fwdCount l k n s) := by
  unfold fwdCount
  try dsimp only
  repeat' first
    | with_reducible assumption | with_reducible exact Keep.refl _ | with_reducible apply keep_cntBump
    | split

theorem keep_requestKey {p : State} {l : Nat} {s : State} (hk : Keep p s) :
    Keep p (requestKey l s) := by
  unfold requestKey
  try dsimp only
  repeat' first
    | with_reducible assumption | with_reducible exact Keep.refl _ | with_reducible apply keep_fwdCount
    | with_reducible apply keep_streamPut | with_reducible apply keep_videoPut | with_reducible apply keep_unitSend
    | split

theorem keep_legBreak {p : State} {l : Nat} {s : State} (hk : Keep p s) :
    Keep p (legBreak l s) := by
  unfold legBreak
  try dsimp only
  repeat' first
    | with_reducible assumption | with_reducible exact Keep.refl _ | with_reducible apply keep_fwdCount
    | with_reducible apply keep_fwdDropEvent | with_reducible apply keep_requestKey | with_reducible apply keep_fwdPut
    | split

theorem keep_legSend {p : State} {l : Nat} {d : Bytes} {marker : Bool} {s : State} (hk : Keep p s) :
    Keep p (legSend l d marker s) := by
  unfold legSend
  try dsimp only
  repeat' first
    | with_reducible assumption | with_reducible exact Keep.refl _ | with_reducible apply keep_fwdCount
    | with_reducible apply keep_fwdPut | with_reducible apply keep_emit | with_reducible apply keep_legBreak
    | with_reducible apply keep_unitSend | split | with_reducible refine Keep.pair ‹_ = (_, _)› ?_

theorem keep_flushHeld {p : State} {l f : Nat} {ended : Bool} {s : State} (hk : Keep p s) :
    Keep p (flushHeld l f ended s) := by
  unfold flushHeld
  try dsimp only
  repeat' first
    | with_reducible assumption | with_reducible exact Keep.refl _ | with_reducible apply keep_fwdPut
    | with_reducible apply keep_legSend | with_reducible refine Keep.foldl ?_ ?_ | intro _ | split

theorem keep_legDeliver {p : State} {l : Nat} {st : FwdStream} {s : State} {e : Nat × Bytes} (hk : Keep p s) :
    Keep p (legDeliver l st s e) := by
  unfold legDeliver
  try dsimp only
  repeat' first
    | with_reducible assumption | with_reducible exact Keep.refl _ | with_reducible apply keep_flushHeld
    | with_reducible apply keep_fwdPut | with_reducible apply keep_fwdCount | with_reducible refine Keep.ite ?_ ?_
    | with_reducible refine Keep.ite2 ?_ ?_ | with_reducible refine Keep.ite3 ?_ ?_
    | with_reducible refine KeepR.ite ?_ ?_ | with_reducible refine KeepR.next ?_
    | with_reducible refine Keep.foldl ?_ ?_ | with_reducible refine Keep.foldl2 ?_ ?_
    | with_reducible refine Keep.foldl3 ?_ ?_ | with_reducible refine Keep.id ?_
    | fail_if_no_progress with_reducible refine Keep.rec_of ?_ rfl rfl rfl | intro _ | split

theorem keep_decideFrame {p : State} {l : Nat} {st : FwdStream} {s : State} (hk : Keep p s) :
    Keep p (decideFrame l st s) := by
  unfold decideFrame
  try dsimp only
  repeat' first
    | with_reducible assumption | with_reducible exact Keep.refl _ | with_reducible apply keep_fwdPut
    | with_reducible apply keep_fwdCount | with_reducible refine Keep.ite ?_ ?_ | with_reducible refine Keep.ite2 ?_ ?_
    | with_reducible refine Keep.ite3 ?_ ?_ | with_reducible refine KeepR.ite ?_ ?_
    | with_reducible refine KeepR.next ?_ | with_reducible refine Keep.foldl ?_ ?_
    | with_reducible refine Keep.foldl2 ?_ ?_ | with_reducible refine Keep.foldl3 ?_ ?_
    | with_reducible refine Keep.id ?_ | fail_if_no_progress with_reducible refine Keep.rec_of ?_ rfl rfl rfl | intro _
    | split

theorem keep_releaseFrame {p : State} {l : Nat} {st : FwdStream} {s : State} (hk : Keep p s) :
    Keep p (releaseFrame l st s) := by
  unfold releaseFrame
  try dsimp only
  repeat' first
    | with_reducible assumption | with_reducible exact Keep.refl _ | with_reducible apply keep_legDeliver
    | with_reducible apply keep_decideFrame | with_reducible refine Keep.ite ?_ ?_
    | with_reducible refine Keep.ite2 ?_ ?_ | with_reducible refine Keep.ite3 ?_ ?_
    | with_reducible refine KeepR.ite ?_ ?_ | with_reducible refine KeepR.next ?_
    | with_reducible refine Keep.foldl ?_ ?_ | with_reducible refine Keep.foldl2 ?_ ?_
    | with_reducible refine Keep.foldl3 ?_ ?_ | with_reducible refine Keep.id ?_
    | fail_if_no_progress with_reducible refine Keep.rec_of ?_ rfl rfl rfl | intro _ | split

theorem keep_sendFrame {p : State} {l : Nat} {x : Leg} {split : Bool} {s : State} (hk : Keep p s) :
    Keep p (sendFrame l x split s) := by
  unfold sendFrame
  try dsimp only
  repeat' first
    | with_reducible assumption | with_reducible exact Keep.refl _ | with_reducible apply keep_unitSend
    | with_reducible apply keep_legCount | with_reducible apply keep_raiseLim | split
    | with_reducible refine Keep.pair ‹_ = (_, _)› ?_

theorem keep_linksReceived {p : State} {l : Nat} {f : BupexFrame} {peers : List Nat} {s : State} (hk : Keep p s) :
    Keep p (linksReceived l f peers s) := by
  unfold linksReceived
  try dsimp only
  repeat' first
    | with_reducible assumption | with_reducible exact Keep.refl _
    | with_reducible apply keep_linkCount
    | with_reducible apply keep_mdMod
    | with_reducible apply keep_watchMembers | with_reducible apply keep_linkSend
    | with_reducible refine Keep.foldl ?_ ?_ | intro _ | split

theorem keep_ethUp {p : State} {n : Nat} {s : State} (hk : Keep p s) :
    Keep p (ethUp n s) := by
  unfold ethUp
  try dsimp only
  repeat' first
    | with_reducible assumption | with_reducible exact Keep.refl _ | with_reducible apply keep_draw
    | with_reducible apply keep_serialMod | with_reducible apply keep_raise | with_reducible apply keep_laneLock
    | with_reducible apply keep_regPut | with_reducible refine Keep.foldl ?_ ?_ | intro _ | split

theorem keep_videoRunning {p : State} {k : Nat} {s : State} (hk : Keep p s) :
    Keep p (videoRunning k s) := by
  unfold videoRunning
  try dsimp only
  repeat' first
    | with_reducible assumption | with_reducible exact Keep.refl _ | with_reducible apply keep_reachRunning
    | split

theorem keep_pictureDecode {p : State} {k : Nat} {s : State} (hk : Keep p s) :
    Keep p (pictureDecode k s) := by
  unfold pictureDecode
  try dsimp only
  repeat' first
    | with_reducible assumption | with_reducible exact Keep.refl _ | with_reducible apply keep_videoPut
    | with_reducible apply keep_regBump | with_reducible apply keep_raiseLim | split

theorem keep_helloReceived {p : State} {l peer dig rtt : Nat} {s : State} (hk : Keep p s) :
    Keep p (helloReceived l peer dig rtt s) := by
  unfold helloReceived
  try dsimp only
  repeat' first
    | with_reducible assumption | with_reducible exact Keep.refl _ | with_reducible apply keep_linkMod
    | with_reducible apply keep_regPutF | with_reducible apply keep_raise | with_reducible apply keep_linkOff | split

theorem keep_helloOp {p : State} {l : Nat} {rx : Option (Nat × Nat × Nat)} {s : State} (hk : Keep p s) :
    Keep p (helloOp l rx s) := by
  unfold helloOp
  try dsimp only
  repeat' first
    | with_reducible assumption | with_reducible exact Keep.refl _ | with_reducible apply keep_linkQueue
    | with_reducible apply keep_helloReceived | with_reducible apply keep_linkCount | split

theorem keep_linkRunning {p : State} {l : Nat} {s : State} (hk : Keep p s) :
    Keep p (linkRunning l s) := by
  unfold linkRunning
  try dsimp only
  repeat' first
    | with_reducible assumption | with_reducible exact Keep.refl _ | with_reducible apply keep_reachRunning
    | with_reducible apply keep_regPutF | with_reducible refine Keep.foldl ?_ ?_ | intro _ | split

theorem keep_acknowledge {p : State} {l : Nat} {f : BupexFrame} {s : State} (hk : Keep p s) :
    Keep p (acknowledge l f s) := by
  unfold acknowledge
  try dsimp only
  repeat' first
    | with_reducible assumption | with_reducible exact Keep.refl _ | with_reducible apply keep_linkPut
    | with_reducible apply keep_linkMod | with_reducible apply keep_linkCount | with_reducible refine Keep.foldl ?_ ?_
    | intro _
    | split

theorem keep_streamExpiry {p : State} {n : Nat} {s : State} (hk : Keep p s) :
    Keep p (streamExpiry n s) := by
  unfold streamExpiry
  try dsimp only
  repeat' first
    | with_reducible assumption | with_reducible exact Keep.refl _ | with_reducible apply keep_fwdDropEvent
    | with_reducible apply keep_fwdCount | with_reducible apply keep_fwdPut | with_reducible refine Keep.foldl ?_ ?_
    | intro _
    | split

theorem keep_placeMics {p : State} {b : Nat} {mics : List (List Int)} {s : State} (hk : Keep p s) :
    Keep p (placeMics b mics s) := by
  unfold placeMics
  try dsimp only
  repeat' first
    | with_reducible assumption | with_reducible exact Keep.refl _ | with_reducible apply keep_legPut
    | with_reducible refine Keep.foldl ?_ ?_ | intro _ | split

theorem keep_legBlock {p : State} {b l : Nat} {silent : Bool} {x : Leg} {s : State} (hk : Keep p s) :
    Keep p (legBlock b l silent x s).2 := by
  unfold legBlock
  try dsimp only
  repeat' first
    | with_reducible assumption | with_reducible exact Keep.refl _ | with_reducible apply keep_legPut
    | with_reducible apply keep_audioMod | with_reducible apply keep_legCount | with_reducible apply keep_audioLate
    | split

theorem keep_localGroup {p : State} {b g : Nat} {silent : Bool} {s : State} (hk : Keep p s) :
    Keep p (localGroup b g silent s).2 := by
  unfold localGroup
  try dsimp only
  repeat' first
    | with_reducible assumption | with_reducible exact Keep.refl _ | with_reducible apply keep_legBlock
    | with_reducible refine Keep.foldl2 ?_ ?_ | intro _

theorem keep_spanTotal {p : State} {g m : Nat} {loc : List Int} {s : State} (hk : Keep p s) :
    Keep p (spanTotal g m loc s).2 := by
  unfold spanTotal
  try dsimp only
  repeat' first
    | with_reducible assumption | with_reducible exact Keep.refl _ | with_reducible apply keep_audioGroupPut
    | with_reducible apply keep_legCount | with_reducible refine Keep.foldl ?_ ?_ | intro _

theorem keep_formed {p : State} {g b : Nat} {sum : List Int} {s : State} (hk : Keep p s) :
    Keep p (formed g b sum s) := by
  unfold formed
  try dsimp only
  repeat' first
    | with_reducible assumption | with_reducible exact Keep.refl _ | with_reducible apply keep_audioGroupPut

theorem keep_groupBlock {p : State} {b g : Nat} {silent : Bool} {s : State} (hk : Keep p s) :
    Keep p (groupBlock b g silent s).2 := by
  unfold groupBlock
  try dsimp only
  repeat' first
    | with_reducible assumption | with_reducible exact Keep.refl _ | with_reducible apply keep_localGroup
    | with_reducible apply keep_sendTo | with_reducible apply keep_legPut | with_reducible apply keep_spanTotal
    | with_reducible apply keep_formed | with_reducible apply keep_audioGroupPut
    | with_reducible refine Keep.foldl ?_ ?_ | intro _ | split

theorem keep_presentSample {p : State} {x : Leg} {n delay : Nat} {v : Int} {s : State} (hk : Keep p s) :
    Keep p (presentSample x n delay v s) := by
  unfold presentSample
  try dsimp only
  repeat' first
    | with_reducible assumption | with_reducible exact Keep.refl _ | with_reducible apply keep_emit

theorem keep_assemble {p : State} {l : Nat} {split : Bool} {y0 : List (Nat × Nat × Int × Bool)} {y1 : State} (hk : Keep
    p y1) :
    Keep p (assemble l split y0 y1) := by
  induction y0 generalizing l split y1 with
  | nil => unfold assemble; exact hk
  | cons b r ih =>
    unfold assemble
    try dsimp only
    repeat' first
      | with_reducible assumption | with_reducible exact Keep.refl _ | with_reducible apply ih
      | with_reducible apply keep_legCount | with_reducible apply keep_presentSample | with_reducible apply keep_legPut
      | with_reducible apply keep_sendFrame | split

theorem keep_legOutput {p : State} {b l m : Nat} {silent : Bool} {sum : List Int} {ms : List MixSample} {s : State} (hk
    : Keep p s) :
    Keep p (legOutput b l m silent sum ms s) := by
  unfold legOutput
  try dsimp only
  repeat' first
    | with_reducible assumption | with_reducible exact Keep.refl _ | with_reducible apply keep_legPut
    | with_reducible apply keep_assemble | fail_if_no_progress with_reducible refine Keep.rec_of ?_ rfl rfl rfl | split

theorem keep_computeBlock {p : State} {b : Nat} {mics : List (List Int)} {silent : Bool} {s : State} (hk : Keep p s) :
    Keep p (computeBlock b mics silent s) := by
  unfold computeBlock
  try dsimp only
  repeat' first
    | with_reducible assumption | with_reducible exact Keep.refl _ | with_reducible apply keep_placeMics
    | with_reducible apply keep_groupBlock | with_reducible apply keep_legOutput | with_reducible apply keep_audioMod
    | with_reducible refine Keep.foldl ?_ ?_ | with_reducible refine Keep.foldl2 ?_ ?_ | intro _ | split

theorem keep_blockOverrun {p : State} {s : State} (hk : Keep p s) :
    Keep p (blockOverrun s) := by
  unfold blockOverrun
  try dsimp only
  repeat' first
    | with_reducible assumption | with_reducible exact Keep.refl _ | with_reducible apply keep_computeBlock
    | with_reducible apply keep_regBump | with_reducible apply keep_raiseLim | split

theorem keep_ethAccept {p : State} {n : Nat} {f : EthFrame} {s : State} (hk : Keep p s) :
    Keep p (ethAccept n f s) := by
  unfold ethAccept
  try dsimp only
  repeat' first
    | with_reducible assumption | with_reducible exact Keep.refl _ | with_reducible apply keep_cntBump
    | with_reducible apply keep_gtpuPacket | with_reducible apply keep_emit | with_reducible apply keep_delayReqOp
    | split

theorem keep_ethReceive {p : State} {n len : Nat} {fcs pause : Bool} {fixed lost : Nat} {clock : RxClock} {f :
    EthFrame} {s : State} (hk : Keep p s) :
    Keep p (ethReceive n len fcs pause fixed lost clock f s) := by
  unfold ethReceive
  try dsimp only
  repeat' first
    | with_reducible assumption | with_reducible exact Keep.refl _ | with_reducible apply keep_serialMod
    | with_reducible apply keep_cntBump | with_reducible apply keep_ethAccept | split

theorem keep_fwdAddOp {p : State} {r : Request} {s : State} (hk : Keep p s) :
    Keep p (fwdAddOp r s) := by
  unfold fwdAddOp
  try dsimp only
  repeat' first
    | with_reducible assumption | with_reducible exact Keep.refl _ | with_reducible apply keep_runCmd
    | with_reducible apply keep_cntZero | with_reducible apply keep_sendTo | with_reducible apply keep_fwdPut
    | with_reducible refine Keep.foldl ?_ ?_ | fail_if_no_progress with_reducible refine Keep.rec_of ?_ rfl rfl rfl
    | intro _
    | split

theorem keep_layoutPut {p : State} {k : Nat} {x : LayoutRun} {s : State} (hk : Keep p s) :
    Keep p (layoutPut k x s) := by
  unfold layoutPut
  try dsimp only
  repeat' first
    | with_reducible assumption | with_reducible exact Keep.refl _ | with_reducible apply keep_videoMod

theorem keep_composeFrame {p : State} {k : Nat} {s : State} (hk : Keep p s) :
    Keep p (composeFrame k s) := by
  unfold composeFrame
  try dsimp only
  repeat' first
    | with_reducible assumption | with_reducible exact Keep.refl _ | with_reducible apply keep_layoutPut
    | with_reducible apply keep_regBump | split

theorem keep_subsumReceived {p : State} {g dev t : Nat} {vs : List Int} {s : State} (hk : Keep p s) :
    Keep p (subsumReceived g dev t vs s) := by
  unfold subsumReceived
  try dsimp only
  repeat' first
    | with_reducible assumption | with_reducible exact Keep.refl _ | with_reducible apply keep_audioGroupPut
    | split

theorem keep_videoStopped {p : State} {k : Nat} {s : State} (hk : Keep p s) :
    Keep p (videoStopped k s) := by
  unfold videoStopped
  try dsimp only
  repeat' first
    | with_reducible assumption | with_reducible exact Keep.refl _ | with_reducible apply keep_reachStopped
    | with_reducible apply keep_videoMod | with_reducible apply keep_objPut | split

theorem keep_linkUpOp {p : State} {l : Nat} {s : State} (hk : Keep p s) :
    Keep p (linkUpOp l s) := by
  unfold linkUpOp
  try dsimp only
  repeat' first
    | with_reducible assumption | with_reducible exact Keep.refl _ | with_reducible apply keep_laneLock
    | with_reducible apply keep_regPutF | with_reducible apply keep_linkMod | with_reducible apply keep_topoChange
    | with_reducible apply keep_raise | split

theorem keep_idleEntry {p : State} {l : Nat} {s : State} (hk : Keep p s) :
    Keep p (idleEntry l s) := by
  unfold idleEntry
  try dsimp only
  repeat' first
    | with_reducible assumption | with_reducible exact Keep.refl _ | with_reducible apply keep_regPutF
    | with_reducible refine Keep.foldl ?_ ?_ | intro _ | split

theorem keep_legPacket {p : State} {l : Nat} {st : FwdStream} {d : Bytes} {s : State} (hk : Keep p s) :
    Keep p (legPacket l st d s) := by
  unfold legPacket
  try dsimp only
  repeat' first
    | with_reducible assumption | with_reducible exact Keep.refl _ | with_reducible apply keep_legDeliver
    | with_reducible apply keep_releaseFrame | with_reducible apply keep_fwdPut | split

theorem keep_streamPacket {p : State} {n : Nat} {s : State} (hk : Keep p s) :
    Keep p (streamPacket n s) := by
  unfold streamPacket
  try dsimp only
  repeat' first
    | with_reducible assumption | with_reducible exact Keep.refl _ | with_reducible apply keep_dequeue | with_reducible apply keep_takePacket
    | with_reducible apply keep_fwdAdvance | with_reducible apply keep_pktFree | with_reducible apply keep_streamPut
    | with_reducible apply keep_raiseLim | with_reducible apply keep_fwdCount | with_reducible apply keep_legPacket
    | with_reducible refine Keep.foldl ?_ ?_ | intro _ | split | with_reducible refine Keep.pair ‹_ = (_, _)› ?_

theorem keep_legRetarget {p : State} {l : Nat} {s : State} (hk : Keep p s) :
    Keep p (legRetarget l s) := by
  unfold legRetarget
  try dsimp only
  repeat' first
    | with_reducible assumption | with_reducible exact Keep.refl _ | with_reducible apply keep_fwdPut
    | split

theorem keep_feedbackRecord {p : State} {s : State} (hk : Keep p s) :
    Keep p (feedbackRecord s) := by
  unfold feedbackRecord
  try dsimp only
  repeat' first
    | with_reducible assumption | with_reducible exact Keep.refl _ | with_reducible apply keep_dequeue | with_reducible apply keep_takePacket
    | with_reducible apply keep_pktFree | with_reducible apply keep_fwdCount | with_reducible apply keep_legRetarget
    | with_reducible apply keep_fwdPut | with_reducible apply keep_requestKey | split
    | with_reducible refine Keep.pair ‹_ = (_, _)› ?_

theorem keep_st2110Eligible {p : State} {k : Nat} {s : State} (hk : Keep p s) :
    Keep p (st2110Eligible k s) := by
  unfold st2110Eligible
  try dsimp only
  repeat' first
    | with_reducible assumption | with_reducible exact Keep.refl _ | with_reducible apply keep_videoPut
    | with_reducible apply keep_raiseLim | split

theorem keep_prbsCheck {p : State} {n : Nat} {lost : Bool} {errs total : Nat} {s : State} (hk : Keep p s) :
    Keep p (prbsCheck n lost errs total s) := by
  unfold prbsCheck
  try dsimp only
  repeat' first
    | with_reducible assumption | with_reducible exact Keep.refl _ | with_reducible apply keep_serialMod
    | with_reducible apply keep_regPutF | split

theorem keep_partitionOp {p : State} {s : State} (hk : Keep p s) :
    Keep p (partitionOp s) := by
  unfold partitionOp
  try dsimp only
  repeat' first
    | with_reducible assumption | with_reducible exact Keep.refl _ | with_reducible apply keep_takeRole
    | with_reducible apply keep_raise | split

theorem keep_keyRequest {p : State} {l : Nat} {s : State} (hk : Keep p s) :
    Keep p (keyRequest l s) := by
  unfold keyRequest
  try dsimp only
  repeat' first
    | with_reducible assumption | with_reducible exact Keep.refl _ | with_reducible apply keep_requestKey
    | with_reducible apply keep_fwdPut | split

theorem keep_discardFrames {p : State} {l : Nat} {s : State} (hk : Keep p s) :
    Keep p (discardFrames l s).2 := by
  unfold discardFrames
  try dsimp only
  repeat' first
    | with_reducible assumption | with_reducible exact Keep.refl _ | with_reducible apply keep_queuePut
    | with_reducible apply keep_pktFree | with_reducible refine Keep.ite ?_ ?_ | with_reducible refine Keep.ite2 ?_ ?_
    | with_reducible refine Keep.ite3 ?_ ?_ | with_reducible refine KeepR.ite ?_ ?_
    | with_reducible refine KeepR.next ?_ | with_reducible refine Keep.foldl ?_ ?_
    | with_reducible refine Keep.foldl2 ?_ ?_ | with_reducible refine Keep.foldl3 ?_ ?_
    | with_reducible refine Keep.id ?_ | fail_if_no_progress with_reducible refine Keep.rec_of ?_ rfl rfl rfl | intro _

theorem keep_hspRemove {p : State} {n stable : Nat} {s : State} (hk : Keep p s) :
    Keep p (hspRemove n stable s) := by
  unfold hspRemove
  try dsimp only
  repeat' first
    | with_reducible assumption | with_reducible exact Keep.refl _ | with_reducible apply keep_raiseLim
    | with_reducible apply keep_hspEvent | with_reducible apply keep_regPutF | with_reducible apply keep_hspPut | split

theorem keep_legStatsOp {p : State} {r : Request} {s : State} (hk : Keep p s) :
    Keep p (legStatsOp r s) := by
  unfold legStatsOp
  try dsimp only
  repeat' first
    | with_reducible assumption | with_reducible exact Keep.refl _ | with_reducible apply keep_runCmd
    | intro _

theorem keep_legRemoveOp {p : State} {r : Request} {s : State} (hk : Keep p s) :
    Keep p (legRemoveOp r s) := by
  unfold legRemoveOp
  try dsimp only
  repeat' first
    | with_reducible assumption | with_reducible exact Keep.refl _ | with_reducible apply keep_runCmd
    | with_reducible apply keep_discardFrames | with_reducible apply keep_legRemove
    | with_reducible refine Keep.ite ?_ ?_ | with_reducible refine Keep.ite2 ?_ ?_
    | with_reducible refine Keep.ite3 ?_ ?_ | with_reducible refine KeepR.ite ?_ ?_
    | with_reducible refine KeepR.next ?_ | with_reducible refine Keep.foldl ?_ ?_
    | with_reducible refine Keep.foldl2 ?_ ?_ | with_reducible refine Keep.foldl3 ?_ ?_
    | with_reducible refine Keep.id ?_ | fail_if_no_progress with_reducible refine Keep.rec_of ?_ rfl rfl rfl | intro _

theorem keep_fwdStatsOp {p : State} {r : Request} {s : State} (hk : Keep p s) :
    Keep p (fwdStatsOp r s) := by
  unfold fwdStatsOp
  try dsimp only
  repeat' first
    | with_reducible assumption | with_reducible exact Keep.refl _ | with_reducible apply keep_runCmd
    | intro _

theorem keep_recordFor {p : State} {l : Nat} {d : Bytes} {s : State} (hk : Keep p s) :
    Keep p (recordFor l d s) := by
  unfold recordFor
  try dsimp only
  repeat' first
    | with_reducible assumption | with_reducible exact Keep.refl _ | with_reducible apply keep_fwdAdvance
    | with_reducible apply keep_fwdPut | with_reducible apply keep_fwdCount | with_reducible apply keep_legRetarget
    | split

theorem keep_forecastRecordOp {p : State} {c : Nat} {s : State} (hk : Keep p s) :
    Keep p (forecastRecordOp c s) := by
  unfold forecastRecordOp
  try dsimp only
  repeat' first
    | with_reducible assumption | with_reducible exact Keep.refl _ | with_reducible apply keep_dequeue | with_reducible apply keep_takePacket
    | with_reducible apply keep_pktFree | with_reducible apply keep_recordFor | with_reducible apply keep_sendTo
    | with_reducible refine Keep.foldl ?_ ?_ | intro _ | split | with_reducible refine Keep.pair ‹_ = (_, _)› ?_

theorem keep_accessUnit {p : State} {k : Nat} {s : State} (hk : Keep p s) :
    Keep p (accessUnit k s) := by
  unfold accessUnit
  try dsimp only
  repeat' first
    | with_reducible assumption | with_reducible exact Keep.refl _ | with_reducible apply keep_dequeue | with_reducible apply keep_takePacket
    | with_reducible apply keep_pktFree | with_reducible apply keep_videoPut | with_reducible apply keep_regBump
    | with_reducible apply keep_raiseLim | split | with_reducible refine Keep.pair ‹_ = (_, _)› ?_

theorem keep_queueParam {p : State} {cmd : Bool} {l : Nat} {d : Bytes} {s : State} (hk : Keep p s) :
    Keep p (queueParam cmd l d s) := by
  unfold queueParam
  try dsimp only
  repeat' first
    | with_reducible assumption | with_reducible exact Keep.refl _ | with_reducible apply keep_audioMod
    | with_reducible apply keep_legCount | split

theorem keep_proxyEnqueue {p : State} {q : Nat} {s : State} (hk : Keep p s) :
    Keep p (proxyEnqueue q s) := by
  unfold proxyEnqueue
  try dsimp only
  repeat' first
    | with_reducible assumption | with_reducible exact Keep.refl _ | with_reducible apply keep_queuePut
    | with_reducible apply keep_pktPut | with_reducible apply keep_mdMod | with_reducible apply keep_sendTo | with_reducible apply keep_readPacket | split

theorem keep_blockCompute {p : State} {mics : List (List Int)} {took : Nat} {s : State} (hk : Keep p s) :
    Keep p (blockCompute mics took s) := by
  unfold blockCompute
  try dsimp only
  repeat' first
    | with_reducible assumption | with_reducible exact Keep.refl _ | with_reducible apply keep_regPutF
    | with_reducible apply keep_computeBlock | split

theorem keep_st2110Packet {p : State} {k port seq ts ssrc pt : Nat} {segs : List (Nat × Nat × Bytes)} {s : State} (hk :
    Keep p s) :
    Keep p (st2110Packet k port seq ts ssrc pt segs s) := by
  unfold st2110Packet
  try dsimp only
  repeat' first
    | with_reducible assumption | with_reducible exact Keep.refl _ | with_reducible apply keep_videoPut
    | split

theorem keep_legParamOp {p : State} {r : Request} {s : State} (hk : Keep p s) :
    Keep p (legParamOp r s) := by
  unfold legParamOp
  try dsimp only
  repeat' first
    | with_reducible assumption | with_reducible exact Keep.refl _ | with_reducible apply keep_runCmd
    | with_reducible apply keep_queueParam

theorem keep_legKeyOp {p : State} {r : Request} {s : State} (hk : Keep p s) :
    Keep p (legKeyOp r s) := by
  unfold legKeyOp
  try dsimp only
  repeat' first
    | with_reducible assumption | with_reducible exact Keep.refl _ | with_reducible apply keep_runCmd
    | fail_if_no_progress with_reducible refine Keep.rec_of ?_ rfl rfl rfl | intro _

theorem keep_bupexForward {p : State} {l : Nat} {f : BupexFrame} {s : State} (hk : Keep p s) :
    Keep p (bupexForward l f s) := by
  unfold bupexForward
  try dsimp only
  repeat' first
    | with_reducible assumption | with_reducible exact Keep.refl _ | with_reducible apply keep_linkCount
    | with_reducible apply keep_linkSend | split

theorem keep_bupexDeliver {p : State} {l : Nat} {f : BupexFrame} {s : State} (hk : Keep p s) :
    Keep p (bupexDeliver l f s) := by
  unfold bupexDeliver
  try dsimp only
  repeat' first
    | with_reducible assumption | with_reducible exact Keep.refl _ | with_reducible apply keep_unitSend
    | with_reducible apply keep_sendTo | with_reducible apply keep_pktFree | with_reducible apply keep_mdMod
    | with_reducible apply keep_fwdMod | with_reducible apply keep_jointReceive | with_reducible apply keep_delayReqOp
    | split

theorem keep_bupexFrame {p : State} {l : Nat} {f : BupexFrame} {s : State} (hk : Keep p s) :
    Keep p (bupexFrame l f s) := by
  unfold bupexFrame
  try dsimp only
  repeat' first
    | with_reducible assumption | with_reducible exact Keep.refl _ | with_reducible apply keep_linkMod
    | with_reducible apply keep_linkCount | with_reducible apply keep_raiseLim | with_reducible apply keep_linkQueue
    | with_reducible apply keep_acknowledge | with_reducible apply keep_linksReceived
    | with_reducible apply keep_bupexForward | with_reducible apply keep_dupFilter
    | with_reducible apply keep_bupexDeliver | split | with_reducible refine Keep.pair ‹_ = (_, _)› ?_

theorem keep_upHold {p : State} {l : Nat} {s : State} (hk : Keep p s) :
    Keep p (upHold l s) := by
  unfold upHold
  try dsimp only
  repeat' first
    | with_reducible assumption | with_reducible exact Keep.refl _ | with_reducible apply keep_fwdPut
    | split

theorem keep_pictureEncode {p : State} {k : Nat} {s : State} (hk : Keep p s) :
    Keep p (pictureEncode k s) := by
  unfold pictureEncode
  try dsimp only
  repeat' first
    | with_reducible assumption | with_reducible exact Keep.refl _ | with_reducible apply keep_videoPut
    | with_reducible apply keep_unitSend | with_reducible refine Keep.foldl ?_ ?_ | intro _ | split

theorem keep_layoutGetOp {p : State} {r : Request} {s : State} (hk : Keep p s) :
    Keep p (layoutGetOp r s) := by
  unfold layoutGetOp
  try dsimp only
  repeat' first
    | with_reducible assumption | with_reducible exact Keep.refl _ | with_reducible apply keep_runCmd
    | intro _

theorem keep_hspFault {p : State} {n contact load : Nat} {s : State} (hk : Keep p s) :
    Keep p (hspFault n contact load s) := by
  unfold hspFault
  try dsimp only
  repeat' first
    | with_reducible assumption | with_reducible exact Keep.refl _ | with_reducible apply keep_raiseLim
    | with_reducible apply keep_hspEvent | with_reducible apply keep_regPutF

theorem keep_hspDetect {p : State} {n t r1 short onS onR2 : Nat} {s : State} (hk : Keep p s) :
    Keep p (hspDetect n t r1 short onS onR2 s) := by
  unfold hspDetect
  try dsimp only
  repeat' first
    | with_reducible assumption | with_reducible exact Keep.refl _ | with_reducible apply keep_regPutF
    | with_reducible apply keep_raiseLim | with_reducible apply keep_hspFault | split

theorem keep_fwdRemoveOp {p : State} {r : Request} {s : State} (hk : Keep p s) :
    Keep p (fwdRemoveOp r s) := by
  unfold fwdRemoveOp
  try dsimp only
  repeat' first
    | with_reducible assumption | with_reducible exact Keep.refl _ | with_reducible apply keep_runCmd
    | with_reducible apply keep_fwdMod | fail_if_no_progress with_reducible refine Keep.rec_of ?_ rfl rfl rfl | intro _

theorem keep_layoutSetOp {p : State} {r : Request} {s : State} (hk : Keep p s) :
    Keep p (layoutSetOp r s) := by
  unfold layoutSetOp
  try dsimp only
  repeat' first
    | with_reducible assumption | with_reducible exact Keep.refl _ | with_reducible apply keep_runCmd
    | with_reducible apply keep_layoutPut | with_reducible refine Keep.ite ?_ ?_ | with_reducible refine Keep.ite2 ?_ ?_
    | with_reducible refine Keep.ite3 ?_ ?_ | with_reducible refine KeepR.ite ?_ ?_
    | with_reducible refine KeepR.next ?_ | with_reducible refine Keep.foldl ?_ ?_
    | with_reducible refine Keep.foldl2 ?_ ?_ | with_reducible refine Keep.foldl3 ?_ ?_
    | with_reducible refine Keep.id ?_ | fail_if_no_progress with_reducible refine Keep.rec_of ?_ rfl rfl rfl | intro _

theorem keep_paramDrop {p : State} {l reason : Nat} {s : State} (hk : Keep p s) :
    Keep p (paramDrop l reason s) := by
  unfold paramDrop
  try dsimp only
  repeat' first
    | with_reducible assumption | with_reducible exact Keep.refl _ | with_reducible apply keep_raiseLim
    | with_reducible apply keep_legCount

theorem keep_paramDescriptor {p : State} {s : State} (hk : Keep p s) :
    Keep p (paramDescriptor s) := by
  unfold paramDescriptor
  try dsimp only
  repeat' first
    | with_reducible assumption | with_reducible exact Keep.refl _ | with_reducible apply keep_dequeue | with_reducible apply keep_takePacket
    | with_reducible apply keep_pktFree | with_reducible apply keep_paramDrop | with_reducible apply keep_queueParam
    | split | with_reducible refine Keep.pair ‹_ = (_, _)› ?_

theorem keep_tx2110 {p : State} {k : Nat} {s : State} (hk : Keep p s) :
    Keep p (tx2110 k s) := by
  unfold tx2110
  try dsimp only
  repeat' first
    | with_reducible assumption | with_reducible exact Keep.refl _ | with_reducible apply keep_emit
    | with_reducible apply keep_videoPut | split

theorem keep_idleExit {p : State} {l : Nat} {valid : Bool} {s : State} (hk : Keep p s) :
    Keep p (idleExit l valid s) := by
  unfold idleExit
  try dsimp only
  repeat' first
    | with_reducible assumption | with_reducible exact Keep.refl _
    | with_reducible apply keep_emit
    | with_reducible apply keep_wakeRequestBase | with_reducible apply keep_linkCount
    | with_reducible apply keep_linkDown | with_reducible apply keep_regPutF | with_reducible apply keep_linkSend
    | with_reducible apply keep_linkPut | with_reducible refine Keep.foldl ?_ ?_ | intro _ | split

theorem keep_bridgeStopped {p : State} {g : Nat} {s : State} (hk : Keep p s) :
    Keep p (bridgeStopped g s) := by
  unfold bridgeStopped
  try dsimp only
  repeat' first
    | with_reducible assumption | with_reducible exact Keep.refl _ | with_reducible apply keep_audioMod
    | with_reducible apply keep_objPut | with_reducible apply keep_reachStopped | with_reducible apply keep_c0Set
    | with_reducible apply keep_taskGive | split

theorem keep_legAddOp {p : State} {r : Request} {s : State} (hk : Keep p s) :
    Keep p (legAddOp r s) := by
  unfold legAddOp
  try dsimp only
  repeat' first
    | with_reducible assumption | with_reducible exact Keep.refl _ | with_reducible apply keep_runCmd
    | with_reducible apply keep_cntZero | with_reducible apply keep_legPut | with_reducible refine Keep.foldl ?_ ?_
    | intro _

theorem keep_micMeasure {p : State} {n ohms : Nat} {s : State} (hk : Keep p s) :
    Keep p (micMeasure n ohms s) := by
  unfold micMeasure
  try dsimp only
  repeat' first
    | with_reducible assumption | with_reducible exact Keep.refl _ | with_reducible apply keep_regPutF
    | with_reducible apply keep_hspPut | with_reducible apply keep_raiseLim | with_reducible apply keep_wakeRequestBase
    | with_reducible apply keep_hspEvent | split

theorem keep_bridgeRunning {p : State} {g : Nat} {s : State} (hk : Keep p s) :
    Keep p (bridgeRunning g s) := by
  unfold bridgeRunning
  try dsimp only
  repeat' first
    | with_reducible assumption | with_reducible exact Keep.refl _ | with_reducible apply keep_splitEvent
    | with_reducible apply keep_reachRunning | split

theorem keep_forecastRelay {p : State} {dev : Nat} {d : Bytes} {s : State} (hk : Keep p s) :
    Keep p (forecastRelay dev d s) := by
  unfold forecastRelay
  try dsimp only
  repeat' first
    | with_reducible assumption | with_reducible exact Keep.refl _ | with_reducible apply keep_recordFor
    | with_reducible refine Keep.foldl ?_ ?_ | intro _

theorem keep_inputFrame {p : State} {g : Nat} {s : State} (hk : Keep p s) :
    Keep p (inputFrame g s) := by
  unfold inputFrame
  try dsimp only
  repeat' first
    | with_reducible assumption | with_reducible exact Keep.refl _ | with_reducible apply keep_dequeue | with_reducible apply keep_takePacket
    | with_reducible apply keep_pktFree | with_reducible apply keep_placeFrame | with_reducible apply keep_legCount
    | split | with_reducible refine Keep.pair ‹_ = (_, _)› ?_

theorem keep_forecastStale {p : State} {l : Nat} {s : State} (hk : Keep p s) :
    Keep p (forecastStale l s) := by
  unfold forecastStale
  try dsimp only
  repeat' first
    | with_reducible assumption | with_reducible exact Keep.refl _ | with_reducible apply keep_fwdCount
    | with_reducible apply keep_legRetarget | with_reducible apply keep_fwdPut | with_reducible apply keep_raiseLim
    | split

end Sys2Proof.Machine
end

