-- ==== Sys2Proof/Laws/KeepSystem.lean ====
section
/-!
SUPPORT. What commands keep (part, queue, canonical memory): power, faults, memory control and the register bus.
-/
namespace Sys2Proof.Machine
open Sys2Proof

theorem keep_powerMod {p : State} {f : Power → Power} {s : State} (hk : Keep p s) :
    Keep p (powerMod f s) := by
  unfold powerMod
  try dsimp only
  repeat' first
    | with_reducible assumption | with_reducible exact Keep.refl _
    | fail_if_no_progress with_reducible refine Keep.rec_of ?_ rfl rfl rfl

theorem keep_powerComplete {p : State} {s : State} (hk : Keep p s) :
    Keep p (powerComplete s) := by
  unfold powerComplete
  try dsimp only
  repeat' first
    | with_reducible assumption | with_reducible exact Keep.refl _ | with_reducible apply keep_completeLong
    | with_reducible apply keep_powerMod | with_reducible refine Keep.foldl ?_ ?_ | intro _

theorem keep_setPend {p : State} {d : Nat} {t : PState} {s : State} (hk : Keep p s) :
    Keep p (setPend d t s) := by
  unfold setPend
  try dsimp only
  repeat' first
    | with_reducible assumption | with_reducible exact Keep.refl _ | with_reducible apply keep_domPut
    | with_reducible apply keep_powerEnd | split

theorem keep_startEntry {p : State} {d : Nat} {t : PState} {s : State} (hk : Keep p s) :
    Keep p (startEntry d t s) := by
  unfold startEntry
  try dsimp only
  repeat' first
    | with_reducible assumption | with_reducible exact Keep.refl _ | with_reducible apply keep_domPut
    | with_reducible apply keep_powerRefuse | split

theorem keep_startPending {p : State} {d : Nat} {s : State} (hk : Keep p s) :
    Keep p (startPending d s) := by
  unfold startPending
  try dsimp only
  repeat' first
    | with_reducible assumption | with_reducible exact Keep.refl _ | with_reducible apply keep_domPut
    | with_reducible apply keep_powerEnd | with_reducible apply keep_beginWake | with_reducible apply keep_powerRefuse
    | with_reducible apply keep_startEntry | split

theorem keep_powerRequest {p : State} {d : Nat} {t : PState} {s : State} (hk : Keep p s) :
    Keep p (powerRequest d t s) := by
  unfold powerRequest
  try dsimp only
  repeat' first
    | with_reducible assumption | with_reducible exact Keep.refl _ | with_reducible apply keep_setPend
    | with_reducible apply keep_powerEnd | with_reducible apply keep_domPut | with_reducible apply keep_startEntry
    | with_reducible apply keep_beginWake | with_reducible apply keep_startPending
    | with_reducible apply keep_abortEntry | split

theorem keep_policyApplied {p : State} {d : Nat} {s : State} (hk : Keep p s) :
    Keep p (policyApplied d s) := by
  unfold policyApplied
  try dsimp only
  repeat' first
    | with_reducible assumption | with_reducible exact Keep.refl _ | with_reducible apply keep_powerComplete
    | with_reducible apply keep_powerRequest | split

theorem keep_repairWords {p : State} {ch rank : Nat} {y0 : List Nat} {y1 : Nat} {y2 : State} (hk : Keep p y2) :
    Keep p (repairWords ch rank y0 y1 y2).2 := by
  induction y0 generalizing ch rank y1 y2 with
  | nil => unfold repairWords; exact hk
  | cons b r ih =>
    unfold repairWords
    try dsimp only
    repeat' first
      | with_reducible assumption | with_reducible exact Keep.refl _ | with_reducible apply ih
      | with_reducible apply keep_sdramStore | with_reducible apply keep_memCe | with_reducible apply keep_memUe | split

theorem keep_memRepairOp {p : State} {ch lo : Nat} {s : State} (hk : Keep p s) :
    Keep p (memRepairOp ch lo s) := by
  unfold memRepairOp
  try dsimp only
  repeat' first
    | with_reducible assumption | with_reducible exact Keep.refl _ | with_reducible apply keep_regPut
    | with_reducible apply keep_regPutF | with_reducible apply keep_repairWords | split

theorem keep_rowWrite {p : State} {u inst off v : Nat} {s : State} (hk : Keep p s) :
    Keep p (rowWrite u inst off v s) := by
  unfold rowWrite
  try dsimp only
  repeat' first
    | with_reducible assumption | with_reducible exact Keep.refl _ | with_reducible apply keep_regPut
    | split

theorem keep_audioWrite {p : State} {off v : Nat} {s : State} (hk : Keep p s) :
    Keep p (audioWrite off v s) := by
  unfold audioWrite
  try dsimp only
  repeat' first
    | with_reducible assumption | with_reducible exact Keep.refl _ | with_reducible apply keep_regPutF
    | with_reducible apply keep_rowWrite | with_reducible apply keep_audioClear | split

theorem keep_shuttleWrite {p : State} {i : Initiator} {off v : Nat} {s : State} (hk : Keep p s) :
    Keep p (shuttleWrite i off v s).2 := by
  unfold shuttleWrite
  try dsimp only
  repeat' first
    | with_reducible assumption | with_reducible exact Keep.refl _ | with_reducible apply keep_serviceReqOp
    | with_reducible apply keep_rowWrite | with_reducible apply keep_regPutF | with_reducible apply keep_armOp
    | with_reducible apply keep_notify | with_reducible apply keep_beamPutOp | split
    | with_reducible refine Keep.pair ‹_ = (_, _)› ?_

theorem keep_rowRead {p : State} {u inst off : Nat} {s : State} (hk : Keep p s) :
    Keep p (rowRead u inst off s) := by
  unfold rowRead
  try dsimp only
  repeat' first
    | with_reducible assumption | with_reducible exact Keep.refl _ | with_reducible apply keep_answer
    | with_reducible apply keep_regPut | split

theorem keep_sysRead {p : State} {off : Nat} {s : State} (hk : Keep p s) :
    Keep p (sysRead off s) := by
  unfold sysRead
  try dsimp only
  repeat' first
    | with_reducible assumption | with_reducible exact Keep.refl _ | with_reducible apply keep_answer
    | with_reducible apply keep_rplPopOp | with_reducible apply keep_regPutF | with_reducible apply keep_rowRead | split

theorem keep_secRead {p : State} {off : Nat} {s : State} (hk : Keep p s) :
    Keep p (secRead off s) := by
  unfold secRead
  try dsimp only
  repeat' first
    | with_reducible assumption | with_reducible exact Keep.refl _ | with_reducible apply keep_answer
    | with_reducible apply keep_rowRead | split

theorem keep_coxRead {p : State} {off : Nat} {s : State} (hk : Keep p s) :
    Keep p (coxRead off s) := by
  unfold coxRead
  try dsimp only
  repeat' first
    | with_reducible assumption | with_reducible exact Keep.refl _ | with_reducible apply keep_answer
    | with_reducible apply keep_coxLatch | with_reducible apply keep_ppsTsRead | with_reducible apply keep_regPutF
    | with_reducible apply keep_rowRead | split

theorem keep_cntRead {p : State} {k : Nat} {s : State} (hk : Keep p s) :
    Keep p (cntRead k s) := by
  unfold cntRead
  try dsimp only
  repeat' first
    | with_reducible assumption | with_reducible exact Keep.refl _ | with_reducible apply keep_answer
    | with_reducible apply keep_cntZero

theorem keep_weftRead {p : State} {n off : Nat} {s : State} (hk : Keep p s) :
    Keep p (weftRead n off s) := by
  unfold weftRead
  try dsimp only
  repeat' first
    | with_reducible assumption | with_reducible exact Keep.refl _ | with_reducible apply keep_answer
    | with_reducible apply keep_cntRead | with_reducible apply keep_rowRead | split

theorem keep_spoolRead {p : State} {i : Initiator} {off : Nat} {s : State} (hk : Keep p s) :
    Keep p (spoolRead i off s) := by
  unfold spoolRead
  try dsimp only
  repeat' first
    | with_reducible assumption | with_reducible exact Keep.refl _ | with_reducible apply keep_answer
    | with_reducible apply keep_spoolAllocOp | with_reducible apply keep_spoolDeqOp
    | with_reducible apply keep_spoolNextOp | with_reducible apply keep_cqPopOp | with_reducible apply keep_rowRead
    | with_reducible refine Keep.ite ?_ ?_

theorem keep_shuttleRead {p : State} {off : Nat} {s : State} (hk : Keep p s) :
    Keep p (shuttleRead off s) := by
  unfold shuttleRead
  try dsimp only
  repeat' first
    | with_reducible assumption | with_reducible exact Keep.refl _ | with_reducible apply keep_answer
    | with_reducible apply keep_cntRead | with_reducible apply keep_rowRead | split

theorem keep_dmaRead {p : State} {inst off : Nat} {s : State} (hk : Keep p s) :
    Keep p (dmaRead inst off s) := by
  unfold dmaRead
  try dsimp only
  repeat' first
    | with_reducible assumption | with_reducible exact Keep.refl _ | with_reducible apply keep_answer
    | with_reducible apply keep_rowRead | with_reducible refine Keep.ite ?_ ?_

theorem keep_memDevRead {p : State} {ch : Nat} {s : State} (hk : Keep p s) :
    Keep p (memDevRead ch s) := by
  unfold memDevRead
  try dsimp only
  repeat' first
    | with_reducible assumption | with_reducible exact Keep.refl _ | with_reducible apply keep_answer
    | fail_if_no_progress with_reducible refine Keep.rec_of ?_ rfl rfl rfl

theorem keep_memRead {p : State} {ch off : Nat} {s : State} (hk : Keep p s) :
    Keep p (memRead ch off s) := by
  unfold memRead
  try dsimp only
  repeat' first
    | with_reducible assumption | with_reducible exact Keep.refl _ | with_reducible apply keep_memDevRead
    | with_reducible apply keep_answer | with_reducible apply keep_rowRead | split

theorem keep_crewRead {p : State} {n inst off : Nat} {s : State} (hk : Keep p s) :
    Keep p (crewRead n inst off s) := by
  unfold crewRead
  try dsimp only
  repeat' first
    | with_reducible assumption | with_reducible exact Keep.refl _ | with_reducible apply keep_answer
    | with_reducible apply keep_regPutF | with_reducible apply keep_rowRead | split

theorem keep_engineRead32 {p : State} {u inst off : Nat} {s : State} (hk : Keep p s) :
    Keep p (engineRead32 u inst off s) := by
  unfold engineRead32
  try dsimp only
  repeat' first
    | with_reducible assumption | with_reducible exact Keep.refl _ | with_reducible apply keep_answer
    | with_reducible apply keep_rowRead | split

theorem keep_fhRead {p : State} {off : Nat} {s : State} (hk : Keep p s) :
    Keep p (fhRead off s) := by
  unfold fhRead
  try dsimp only
  repeat' first
    | with_reducible assumption | with_reducible exact Keep.refl _ | with_reducible apply keep_cntRead
    | with_reducible apply keep_rowRead | split

theorem keep_cssRead {p : State} {n off : Nat} {s : State} (hk : Keep p s) :
    Keep p (cssRead n off s) := by
  unfold cssRead
  try dsimp only
  repeat' first
    | with_reducible assumption | with_reducible exact Keep.refl _ | with_reducible apply keep_answer
    | with_reducible apply keep_cntRead | with_reducible apply keep_rowRead | split

theorem keep_audioRead {p : State} {off : Nat} {s : State} (hk : Keep p s) :
    Keep p (audioRead off s) := by
  unfold audioRead
  try dsimp only
  repeat' first
    | with_reducible assumption | with_reducible exact Keep.refl _ | with_reducible apply keep_answer
    | with_reducible apply keep_cntRead | with_reducible apply keep_rowRead | split

theorem keep_videoRead {p : State} {n off : Nat} {s : State} (hk : Keep p s) :
    Keep p (videoRead n off s) := by
  unfold videoRead
  try dsimp only
  repeat' first
    | with_reducible assumption | with_reducible exact Keep.refl _ | with_reducible apply keep_answer
    | with_reducible apply keep_rowRead | split

theorem keep_fwdRead {p : State} {off : Nat} {s : State} (hk : Keep p s) :
    Keep p (fwdRead off s) := by
  unfold fwdRead
  try dsimp only
  repeat' first
    | with_reducible assumption | with_reducible exact Keep.refl _ | with_reducible apply keep_answer
    | with_reducible apply keep_cntRead | with_reducible apply keep_rowRead | split

theorem keep_composeRead {p : State} {off : Nat} {s : State} (hk : Keep p s) :
    Keep p (composeRead off s) := by
  unfold composeRead
  try dsimp only
  repeat' first
    | with_reducible assumption | with_reducible exact Keep.refl _ | with_reducible apply keep_answer
    | with_reducible apply keep_rowRead | split

theorem keep_laneRead {p : State} {n off : Nat} {s : State} (hk : Keep p s) :
    Keep p (laneRead n off s) := by
  unfold laneRead
  try dsimp only
  repeat' first
    | with_reducible assumption | with_reducible exact Keep.refl _ | with_reducible apply keep_answer
    | with_reducible apply keep_prbsRead | with_reducible apply keep_eqRead | with_reducible apply keep_rowRead | split

theorem keep_ethRead {p : State} {n off : Nat} {s : State} (hk : Keep p s) :
    Keep p (ethRead n off s) := by
  unfold ethRead
  try dsimp only
  repeat' first
    | with_reducible assumption | with_reducible exact Keep.refl _ | with_reducible apply keep_cntRead
    | with_reducible apply keep_rowRead | split

theorem keep_bupexRead {p : State} {l off : Nat} {s : State} (hk : Keep p s) :
    Keep p (bupexRead l off s) := by
  unfold bupexRead
  try dsimp only
  repeat' first
    | with_reducible assumption | with_reducible exact Keep.refl _ | with_reducible apply keep_cntRead
    | with_reducible apply keep_answer | with_reducible apply keep_rowRead | split

theorem keep_fabricRead {p : State} {off : Nat} {s : State} (hk : Keep p s) :
    Keep p (fabricRead off s) := by
  unfold fabricRead
  try dsimp only
  repeat' first
    | with_reducible assumption | with_reducible exact Keep.refl _ | with_reducible apply keep_answer
    | with_reducible apply keep_spRx | with_reducible apply keep_rowRead | split

theorem keep_powerRead {p : State} {off : Nat} {s : State} (hk : Keep p s) :
    Keep p (powerRead off s) := by
  unfold powerRead
  try dsimp only
  repeat' first
    | with_reducible assumption | with_reducible exact Keep.refl _ | with_reducible apply keep_answer
    | with_reducible apply keep_rowRead | split

theorem keep_unitRead {p : State} {i : Initiator} {u inst off : Nat} {s : State} (hk : Keep p s) :
    Keep p (unitRead i u inst off s) := by
  unfold unitRead
  try dsimp only
  repeat' first
    | with_reducible assumption | with_reducible exact Keep.refl _ | with_reducible apply keep_sysRead
    | with_reducible apply keep_secRead | with_reducible apply keep_coxRead | with_reducible apply keep_weftRead
    | with_reducible apply keep_spoolRead | with_reducible apply keep_shuttleRead | with_reducible apply keep_dmaRead
    | with_reducible apply keep_memRead | with_reducible apply keep_crewRead | with_reducible apply keep_engineRead32
    | with_reducible apply keep_fhRead | with_reducible apply keep_cssRead | with_reducible apply keep_audioRead
    | with_reducible apply keep_videoRead | with_reducible apply keep_fwdRead | with_reducible apply keep_composeRead
    | with_reducible apply keep_laneRead | with_reducible apply keep_ethRead | with_reducible apply keep_bupexRead
    | with_reducible apply keep_fabricRead | with_reducible apply keep_powerRead | with_reducible apply keep_rowRead
    | with_reducible refine Keep.ite ?_ ?_

theorem keep_regRead {p : State} {i : Initiator} {u inst off : Nat} {s : State} (hk : Keep p s) :
    Keep p (regRead i u inst off s).2 := by
  unfold regRead
  try dsimp only
  repeat' first
    | with_reducible assumption | with_reducible exact Keep.refl _ | with_reducible apply keep_answer
    | with_reducible apply keep_reach | with_reducible apply keep_unitRead | split
    | with_reducible refine Keep.pair ‹_ = (_, _)› ?_

theorem keep_sfgStatusOp {p : State} {r : Request} {s : State} (hk : Keep p s) :
    Keep p (sfgStatusOp r s) := by
  unfold sfgStatusOp
  try dsimp only
  repeat' first
    | with_reducible assumption | with_reducible exact Keep.refl _ | with_reducible apply keep_runCmd
    | intro _

theorem keep_bankCommit {p : State} {n b : Nat} {s : State} (hk : Keep p s) :
    Keep p (bankCommit n b s) := by
  unfold bankCommit
  try dsimp only
  repeat' first
    | with_reducible assumption | with_reducible exact Keep.refl _ | with_reducible apply keep_regPutF
    | fail_if_no_progress with_reducible refine Keep.rec_of ?_ rfl rfl rfl | split

theorem keep_lastGasp {p : State} {l sender : Nat} {s : State} (hk : Keep p s) :
    Keep p (lastGasp l sender s) := by
  unfold lastGasp
  try dsimp only
  repeat' first
    | with_reducible assumption | with_reducible exact Keep.refl _ | with_reducible apply keep_raise | split

theorem keep_injectBegin {p : State} {kind target sub us : Nat} {s : State} (hk : Keep p s) :
    Keep p (injectBegin kind target sub us s) := by
  unfold injectBegin
  try dsimp only
  repeat' first
    | with_reducible assumption | with_reducible exact Keep.refl _ | with_reducible apply keep_powerMod
    | with_reducible apply keep_raise | with_reducible apply keep_laneLost | with_reducible apply keep_crewFailureOp
    | with_reducible apply keep_crewFatalOp | split

theorem keep_faultInjectOp {p : State} {r : Request} {s : State} (hk : Keep p s) :
    Keep p (faultInjectOp r s) := by
  unfold faultInjectOp
  try dsimp only
  repeat' first
    | with_reducible assumption | with_reducible exact Keep.refl _ | with_reducible apply keep_runCmd
    | with_reducible apply keep_injectBegin

theorem keep_cmdCtrlWrite {p : State} {v : Nat} {s : State} (hk : Keep p s) :
    Keep p (cmdCtrlWrite v s) := by
  unfold cmdCtrlWrite
  try dsimp only
  repeat' first
    | with_reducible assumption | with_reducible exact Keep.refl _ | with_reducible apply keep_regPutF
    | with_reducible apply keep_flushOp | split

theorem keep_sscWrite {p : State} {k v : Nat} {s : State} (hk : Keep p s) :
    Keep p (sscWrite k v s) := by
  unfold sscWrite
  try dsimp only
  repeat' first
    | with_reducible assumption | with_reducible exact Keep.refl _ | with_reducible apply keep_rowWrite
    | split

theorem keep_sysWrite {p : State} {off v : Nat} {s : State} (hk : Keep p s) :
    Keep p (sysWrite off v s) := by
  unfold sysWrite
  try dsimp only
  repeat' first
    | with_reducible assumption | with_reducible exact Keep.refl _ | with_reducible apply keep_doorbellOp
    | with_reducible apply keep_cmdCtrlWrite | with_reducible apply keep_sscWrite | with_reducible apply keep_rowWrite
    | fail_if_no_progress with_reducible refine Keep.rec_of ?_ rfl rfl rfl | split

theorem keep_weftWrite {p : State} {n off v : Nat} {s : State} (hk : Keep p s) :
    Keep p (weftWrite n off v s) := by
  unfold weftWrite
  try dsimp only
  repeat' first
    | with_reducible assumption | with_reducible exact Keep.refl _ | with_reducible apply keep_rtrCfgWrite
    | with_reducible apply keep_draw | with_reducible apply keep_bistOp | with_reducible apply keep_routeOp
    | with_reducible apply keep_gwWinWrite | with_reducible apply keep_rowWrite | split

theorem keep_spoolWrite {p : State} {i : Initiator} {off v : Nat} {s : State} (hk : Keep p s) :
    Keep p (spoolWrite i off v s) := by
  unfold spoolWrite
  try dsimp only
  repeat' first
    | with_reducible assumption | with_reducible exact Keep.refl _ | with_reducible apply keep_rowWrite
    | with_reducible apply keep_ctxPut | with_reducible apply keep_spoolEnqOp | with_reducible apply keep_spoolFreeOp
    | with_reducible apply keep_queuePut | with_reducible apply keep_compatPut | with_reducible apply keep_cqEnableOp
    | with_reducible apply keep_cqPushOp | with_reducible refine Keep.ite ?_ ?_

theorem keep_dmaCfgWrite {p : State} {ch v : Nat} {s : State} (hk : Keep p s) :
    Keep p (dmaCfgWrite ch v s) := by
  unfold dmaCfgWrite
  try dsimp only
  repeat' first
    | with_reducible assumption | with_reducible exact Keep.refl _ | with_reducible apply keep_dmaPut

theorem keep_dmaWrite {p : State} {inst off v : Nat} {s : State} (hk : Keep p s) :
    Keep p (dmaWrite inst off v s) := by
  unfold dmaWrite
  try dsimp only
  repeat' first
    | with_reducible assumption | with_reducible exact Keep.refl _ | with_reducible apply keep_rowWrite
    | with_reducible apply keep_dmaCfgWrite | with_reducible apply keep_dmaPut | with_reducible apply keep_dmaAbort
    | with_reducible apply keep_dmaShadow | split

theorem keep_memPoolWrite {p : State} {v : Nat} {s : State} (hk : Keep p s) :
    Keep p (memPoolWrite v s) := by
  unfold memPoolWrite
  try dsimp only
  repeat' first
    | with_reducible assumption | with_reducible exact Keep.refl _ | with_reducible apply keep_rowWrite
    | split

theorem keep_memWrite {p : State} {ch off v : Nat} {s : State} (hk : Keep p s) :
    Keep p (memWrite ch off v s) := by
  unfold memWrite
  try dsimp only
  repeat' first
    | with_reducible assumption | with_reducible exact Keep.refl _ | with_reducible apply keep_regPutF
    | with_reducible apply keep_memRepairOp | with_reducible apply keep_memPoolWrite
    | with_reducible apply keep_rowWrite | split

theorem keep_coreResetBit {p : State} {c : Nat} {s : State} (hk : Keep p s) :
    Keep p (coreResetBit c s) := by
  unfold coreResetBit
  try dsimp only
  repeat' first
    | with_reducible assumption | with_reducible exact Keep.refl _ | with_reducible apply keep_coreResetOp
    | with_reducible refine Keep.ite ?_ ?_ | with_reducible refine Keep.ite2 ?_ ?_
    | with_reducible refine Keep.ite3 ?_ ?_ | with_reducible refine KeepR.ite ?_ ?_
    | with_reducible refine KeepR.next ?_ | with_reducible refine Keep.foldl ?_ ?_
    | with_reducible refine Keep.foldl2 ?_ ?_ | with_reducible refine Keep.foldl3 ?_ ?_
    | with_reducible refine Keep.id ?_ | fail_if_no_progress with_reducible refine Keep.rec_of ?_ rfl rfl rfl | intro _

theorem keep_doorbellRing {p : State} {n mask : Nat} {s : State} (hk : Keep p s) :
    Keep p (doorbellRing n mask s) := by
  unfold doorbellRing
  try dsimp only
  repeat' first
    | with_reducible assumption | with_reducible exact Keep.refl _ | with_reducible apply keep_wakeWfi
    | with_reducible apply keep_corePut | with_reducible refine Keep.foldl ?_ ?_ | intro _ | split

theorem keep_retentionAck {p : State} {i : Initiator} {n v : Nat} {s : State} (hk : Keep p s) :
    Keep p (retentionAck i n v s).2 := by
  unfold retentionAck
  try dsimp only
  repeat' first
    | with_reducible assumption | with_reducible exact Keep.refl _ | with_reducible apply keep_regPut
    | split

theorem keep_bankOwnerWrite {p : State} {i : Initiator} {n b v : Nat} {outstanding : Bool} {s : State} (hk : Keep p s) :
    Keep p (bankOwnerWrite i n b v outstanding s).2 := by
  unfold bankOwnerWrite
  try dsimp only
  repeat' first
    | with_reducible assumption | with_reducible exact Keep.refl _ | with_reducible apply keep_corePut
    | with_reducible apply keep_bankCommit | fail_if_no_progress with_reducible refine Keep.rec_of ?_ rfl rfl rfl
    | split

theorem keep_crewWrite {p : State} {i : Initiator} {n inst off v : Nat} {s : State} (hk : Keep p s) :
    Keep p (crewWrite i n inst off v s).2 := by
  unfold crewWrite
  try dsimp only
  repeat' first
    | with_reducible assumption | with_reducible exact Keep.refl _ | with_reducible apply keep_resetFlush
    | with_reducible apply keep_coreResetBit | with_reducible apply keep_rowWrite | with_reducible apply keep_powerMod
    | with_reducible apply keep_doorbellRing | with_reducible apply keep_retentionAck
    | with_reducible apply keep_bankOwnerWrite | with_reducible refine Keep.foldl ?_ ?_ | intro _ | split
    | with_reducible refine Keep.pair ‹_ = (_, _)› ?_

theorem keep_fwdWrite {p : State} {off v : Nat} {s : State} (hk : Keep p s) :
    Keep p (fwdWrite off v s) := by
  unfold fwdWrite
  try dsimp only
  repeat' first
    | with_reducible assumption | with_reducible exact Keep.refl _ | with_reducible apply keep_rowWrite
    | with_reducible apply keep_regPutF | with_reducible apply keep_fwdClear | split

theorem keep_fabricWrite {p : State} {off v : Nat} {s : State} (hk : Keep p s) :
    Keep p (fabricWrite off v s) := by
  unfold fabricWrite
  try dsimp only
  repeat' first
    | with_reducible assumption | with_reducible exact Keep.refl _ | with_reducible apply keep_oscWrite
    | with_reducible apply keep_coxClkWrite | with_reducible apply keep_pinSetClr
    | with_reducible apply keep_pinCfgWrite | with_reducible apply keep_spCfgWrite | with_reducible apply keep_spTx
    | with_reducible apply keep_rowWrite | split

theorem keep_domCtrlWrite {p : State} {d v : Nat} {s : State} (hk : Keep p s) :
    Keep p (domCtrlWrite d v s) := by
  unfold domCtrlWrite
  try dsimp only
  repeat' first
    | with_reducible assumption | with_reducible exact Keep.refl _ | with_reducible apply keep_powerComplete
    | with_reducible apply keep_powerRequest | split

theorem keep_hspWrite {p : State} {p_ off v : Nat} {s : State} (hk : Keep p s) :
    Keep p (hspWrite p_ off v s) := by
  unfold hspWrite
  try dsimp only
  repeat' first
    | with_reducible assumption | with_reducible exact Keep.refl _ | with_reducible apply keep_rowWrite
    | with_reducible apply keep_regPutF | with_reducible refine Keep.foldl ?_ ?_ | intro _ | split

theorem keep_unitWrite {p : State} {i : Initiator} {u inst off v : Nat} {s : State} (hk : Keep p s) :
    Keep p (unitWrite i u inst off v s).2 := by
  unfold unitWrite
  try dsimp only
  repeat' first
    | with_reducible assumption | with_reducible exact Keep.refl _ | with_reducible apply keep_sysWrite
    | with_reducible apply keep_weftWrite | with_reducible apply keep_spoolWrite
    | with_reducible apply keep_shuttleWrite | with_reducible apply keep_dmaWrite | with_reducible apply keep_memWrite
    | with_reducible apply keep_crewWrite | with_reducible apply keep_fhClearAll | with_reducible apply keep_rowWrite
    | with_reducible apply keep_cssClear | with_reducible apply keep_audioWrite | with_reducible apply keep_fwdWrite
    | with_reducible apply keep_laneCtrlWrite | with_reducible apply keep_eqWrite
    | with_reducible apply keep_ethCfgWrite | with_reducible apply keep_fabricWrite
    | with_reducible apply keep_domCtrlWrite | with_reducible apply keep_hspWrite
    | with_reducible refine Keep.ite2 ?_ ?_ | split

theorem keep_regWrite {p : State} {i : Initiator} {u inst off v : Nat} {s : State} (hk : Keep p s) :
    Keep p (regWrite i u inst off v s).2 := by
  unfold regWrite
  try dsimp only
  repeat' first
    | with_reducible assumption | with_reducible exact Keep.refl _ | with_reducible apply keep_reach
    | with_reducible apply keep_unitWrite | split | with_reducible refine Keep.pair ‹_ = (_, _)› ?_

theorem keep_injectionExpiry {p : State} {s : State} (hk : Keep p s) :
    Keep p (injectionExpiry s) := by
  unfold injectionExpiry
  try dsimp only
  repeat' first
    | with_reducible assumption | with_reducible exact Keep.refl _ | with_reducible apply keep_powerMod

theorem keep_clearBank {p : State} {n b : Nat} {s : State} (hk : Keep p s) : Keep p (clearBank n b s) :=
  ⟨hk.part, hk.pending, fun w => memory_wf_filter (hk.mem w) _⟩

theorem keep_powerStatusOp {p : State} {r : Request} {s : State} (hk : Keep p s) :
    Keep p (powerStatusOp r s) := by
  unfold powerStatusOp
  try dsimp only
  repeat' first
    | with_reducible assumption | with_reducible exact Keep.refl _ | with_reducible apply keep_runCmd
    | intro _

theorem keep_memChannelDown {p : State} {ch cause : Nat} {s : State} (hk : Keep p s) :
    Keep p (memChannelDown ch cause s) := by
  unfold memChannelDown
  try dsimp only
  repeat' first
    | with_reducible assumption | with_reducible exact Keep.refl _ | with_reducible apply keep_raise
    | with_reducible apply keep_regPutF | split

theorem keep_execMemChannelDown {p : State} {ch : Fin 8} {parity : Bool} {s : State} (hk : Keep p s) :
    KeepR p (execMemChannelDown ch parity s) := by
  unfold execMemChannelDown
  try dsimp only
  repeat' first
    | with_reducible assumption | with_reducible exact Keep.refl _ | with_reducible apply keep_done
    | with_reducible apply keep_memChannelDown

theorem keep_wakeSource {p : State} {d : Nat} {w : WakeSource} {s : State} (hk : Keep p s) :
    Keep p (wakeSource d w s) := by
  unfold wakeSource
  try dsimp only
  repeat' first
    | with_reducible assumption | with_reducible exact Keep.refl _
    | with_reducible apply keep_wakeRequestBase | with_reducible apply keep_wakeWfi | split

theorem keep_writeError {p : State} {i : Initiator} {a : Nat} {s : State} (hk : Keep p s) :
    Keep p (writeError i a s) := by
  unfold writeError
  try dsimp only
  repeat' first
    | with_reducible assumption | with_reducible exact Keep.refl _ | with_reducible apply keep_storeErrorOp
    | with_reducible apply keep_raiseLim | split

theorem keep_putSentinels {p : State} {crew : Nat} {sign : Bool} {s : State} (hk : Keep p s) :
    Keep p (putSentinels crew sign s) := by
  unfold putSentinels
  try dsimp only
  repeat' first
    | with_reducible assumption | with_reducible exact Keep.refl _ | with_reducible apply keep_draw
    | with_reducible apply keep_putErr | with_reducible apply keep_storeRaw | with_reducible apply keep_domPut
    | with_reducible refine Keep.foldl ?_ ?_ | intro _

theorem keep_execMemRepair {p : State} {ch : Fin 8} {lo : BitVec 32} {s : State} (hk : Keep p s) :
    KeepR p (execMemRepair ch lo s) := by
  unfold execMemRepair
  try dsimp only
  repeat' first
    | with_reducible assumption | with_reducible exact Keep.refl _ | with_reducible apply keep_done
    | with_reducible apply keep_memRepairOp

theorem keep_registerWrite {p : State} {i : Initiator} {u inst off v : Nat} {s : State} (hk : Keep p s) :
    Keep p (registerWrite i u inst off v s) := by
  unfold registerWrite
  try dsimp only
  repeat' first
    | with_reducible assumption | with_reducible exact Keep.refl _ | with_reducible apply keep_regWrite
    | with_reducible apply keep_writeError | split | with_reducible refine Keep.pair ‹_ = (_, _)› ?_

theorem keep_wakeFail {p : State} {d : Nat} {s : State} (hk : Keep p s) :
    Keep p (wakeFail d s) := by
  unfold wakeFail
  try dsimp only
  repeat' first
    | with_reducible assumption | with_reducible exact Keep.refl _ | with_reducible apply keep_raise
    | with_reducible apply keep_powerEnd | with_reducible apply keep_powerComplete
    | with_reducible apply keep_crewFailureOp | with_reducible apply keep_crewFatalOp | with_reducible apply keep_domPut
    | with_reducible apply keep_deliverHeld | split

theorem keep_powerSetOp {p : State} {r : Request} {s : State} (hk : Keep p s) :
    Keep p (powerSetOp r s) := by
  unfold powerSetOp
  try dsimp only
  repeat' first
    | with_reducible assumption | with_reducible exact Keep.refl _ | with_reducible apply keep_runLong
    | with_reducible apply keep_powerEnd | with_reducible apply keep_powerRequest | intro _ | split

theorem keep_shedOne {p : State} {d : Nat} {s : State} (hk : Keep p s) :
    Keep p (shedOne d s) := by
  unfold shedOne
  try dsimp only
  repeat' first
    | with_reducible assumption | with_reducible exact Keep.refl _ | with_reducible apply keep_putBack
    | with_reducible apply keep_domPut | with_reducible apply keep_powerEnd | split

theorem keep_pfailOp {p : State} {s : State} (hk : Keep p s) :
    Keep p (pfailOp s) := by
  unfold pfailOp
  try dsimp only
  repeat' first
    | with_reducible assumption | with_reducible exact Keep.refl _ | with_reducible apply keep_powerMod
    | with_reducible apply keep_regPutF | with_reducible apply keep_deliver | with_reducible apply keep_shedOne
    | with_reducible apply keep_emit | with_reducible apply keep_powerComplete | with_reducible apply keep_linkSend
    | with_reducible refine Keep.foldl ?_ ?_ | intro _ | split

theorem keep_retentionCheck {p : State} {crew : Nat} {r : Retained} {s : State} (hk : Keep p s) :
    Keep p (retentionCheck crew r s) := by
  unfold retentionCheck
  try dsimp only
  repeat' first
    | with_reducible assumption | with_reducible exact Keep.refl _ | with_reducible apply keep_sramCe
    | with_reducible apply keep_sramUe | with_reducible apply keep_putBack | with_reducible apply keep_raise
    | with_reducible apply keep_regPutF | with_reducible apply keep_clearBank | split

theorem keep_restoreBootVec {p : State} {n : Nat} {s : State} (hk : Keep p s) :
    Keep p (restoreBootVec n s) := by
  unfold restoreBootVec
  try dsimp only
  repeat' first
    | with_reducible assumption | with_reducible exact Keep.refl _ | with_reducible apply keep_regPut

theorem keep_resetUnits {p : State} {d : Nat} {s : State} (hk : Keep p s) :
    Keep p (resetUnits d s) := by
  unfold resetUnits
  try dsimp only
  repeat' first
    | with_reducible assumption | with_reducible exact Keep.refl _
    | with_reducible apply keep_cntZeroAll
    | with_reducible apply keep_cntZeroAll
    | with_reducible apply keep_serialMod | fail_if_no_progress with_reducible refine Keep.rec_of ?_ rfl rfl rfl | split

theorem keep_restartCrew {p : State} {n : Nat} {s : State} (hk : Keep p s) :
    Keep p (restartCrew n s) := by
  unfold restartCrew
  try dsimp only
  repeat' first
    | with_reducible assumption | with_reducible exact Keep.refl _ | with_reducible apply keep_startCore
    | with_reducible refine Keep.foldl ?_ ?_ | intro _ | split

theorem keep_wakeDone {p : State} {d : Nat} {src : PState} {s : State} (hk : Keep p s) :
    Keep p (wakeDone d src s) := by
  unfold wakeDone
  try dsimp only
  repeat' first
    | with_reducible assumption | with_reducible exact Keep.refl _
    | with_reducible apply keep_restoreBootVec | with_reducible apply keep_resetUnits
    | with_reducible apply keep_clearBank | with_reducible apply keep_restartCrew | with_reducible apply keep_domPut
    | with_reducible apply keep_deliverHeld | with_reducible apply keep_powerEnd | with_reducible apply keep_wakeWfi
    | with_reducible apply keep_takeStaged | with_reducible apply keep_startPending
    | with_reducible refine Keep.foldl ?_ ?_ | intro _ | split

theorem keep_wakeStep {p : State} {d : Nat} {s : State} (hk : Keep p s) :
    Keep p (wakeStep d s) := by
  unfold wakeStep
  try dsimp only
  repeat' first
    | with_reducible assumption | with_reducible exact Keep.refl _ | with_reducible apply keep_domPut
    | with_reducible apply keep_retentionCheck | with_reducible apply keep_powerComplete
    | with_reducible apply keep_wakeDone | with_reducible refine Keep.foldl ?_ ?_ | intro _ | split

theorem keep_flipArm {p : State} {t : FlipTarget} {axor : Nat} {s : State} (hk : Keep p s) :
    Keep p (flipArm t axor s) := by
  unfold flipArm
  try dsimp only
  repeat' first
    | with_reducible assumption | with_reducible exact Keep.refl _ | with_reducible apply keep_regPut
    | split

theorem keep_execMemFlipArm {p : State} {target : FlipTarget} {axor : BitVec 16} {s : State} (hk : Keep p s) :
    KeepR p (execMemFlipArm target axor s) := by
  unfold execMemFlipArm
  try dsimp only
  repeat' first
    | with_reducible assumption | with_reducible exact Keep.refl _ | with_reducible apply keep_done
    | with_reducible apply keep_flipArm

theorem keep_tempUpdate {p : State} {k v : Nat} {s : State} (hk : Keep p s) :
    Keep p (tempUpdate k v s) := by
  unfold tempUpdate
  try dsimp only
  repeat' first
    | with_reducible assumption | with_reducible exact Keep.refl _ | with_reducible apply keep_regPut
    | split

theorem keep_idleTick {p : State} {s : State} (hk : Keep p s) :
    Keep p (idleTick s) := by
  unfold idleTick
  try dsimp only
  repeat' first
    | with_reducible assumption | with_reducible exact Keep.refl _ | with_reducible apply keep_domPut
    | with_reducible refine Keep.foldl ?_ ?_ | intro _ | split

theorem keep_release {p : State} {d : Nat} {s : State} (hk : Keep p s) :
    Keep p (release d s) := by
  unfold release
  try dsimp only
  repeat' first
    | with_reducible assumption | with_reducible exact Keep.refl _ | with_reducible apply keep_domPut
    | with_reducible apply keep_beginWake | with_reducible apply keep_startPending | split

theorem keep_powerRestored {p : State} {s : State} (hk : Keep p s) :
    Keep p (powerRestored s) := by
  unfold powerRestored
  try dsimp only
  repeat' first
    | with_reducible assumption | with_reducible exact Keep.refl _ | with_reducible apply keep_powerMod
    | with_reducible apply keep_regPutF | with_reducible apply keep_release | with_reducible apply keep_raise
    | with_reducible apply keep_powerComplete | with_reducible refine Keep.foldl ?_ ?_ | intro _ | split

theorem keep_faultClearOp {p : State} {r : Request} {s : State} (hk : Keep p s) :
    Keep p (faultClearOp r s) := by
  unfold faultClearOp
  try dsimp only
  repeat' first
    | with_reducible assumption | with_reducible exact Keep.refl _ | with_reducible apply keep_runCmd
    | with_reducible apply keep_powerMod

theorem keep_refuseEntry {p : State} {d : Nat} {t : PState} {r : Nat × Nat} {s : State} (hk : Keep p s) :
    Keep p (refuseEntry d t r s) := by
  unfold refuseEntry
  try dsimp only
  repeat' first
    | with_reducible assumption | with_reducible exact Keep.refl _ | with_reducible apply keep_powerRefuse
    | with_reducible apply keep_beginWake | with_reducible apply keep_startPending | with_reducible apply keep_putBack
    | with_reducible apply keep_domPut | split

theorem keep_entryStep {p : State} {d : Nat} {t : PState} {k : Nat} {s : State} (hk : Keep p s) :
    Keep p (entryStep d t k s) := by
  unfold entryStep
  try dsimp only
  repeat' first
    | with_reducible assumption | with_reducible exact Keep.refl _ | with_reducible apply keep_domPut
    | with_reducible apply keep_refuseEntry | with_reducible apply keep_resetFlush
    | with_reducible apply keep_putSentinels | with_reducible refine Keep.foldl ?_ ?_ | intro _ | split

theorem keep_entryComplete {p : State} {d : Nat} {s : State} (hk : Keep p s) :
    Keep p (entryComplete d s) := by
  unfold entryComplete
  try dsimp only
  repeat' first
    | with_reducible assumption | with_reducible exact Keep.refl _ | with_reducible apply keep_powerEnd
    | with_reducible apply keep_domPut | with_reducible apply keep_beginWake | with_reducible apply keep_startPending
    | split

theorem keep_idleExpiry {p : State} {d which : Nat} {s : State} (hk : Keep p s) :
    Keep p (idleExpiry d which s) := by
  unfold idleExpiry
  try dsimp only
  repeat' first
    | with_reducible assumption | with_reducible exact Keep.refl _ | with_reducible apply keep_powerComplete
    | with_reducible apply keep_powerRequest | split

theorem keep_powerCancel {p : State} {l : Long} {s : State} (hk : Keep p s) :
    Keep p (powerCancel l s).2 := by
  unfold powerCancel
  try dsimp only
  repeat' first
    | with_reducible assumption | with_reducible exact Keep.refl _ | with_reducible apply keep_domPut
    | with_reducible apply keep_putBack | split

theorem keep_dozeEntry {p : State} {d : Nat} {s : State} (hk : Keep p s) :
    Keep p (dozeEntry d s) := by
  unfold dozeEntry
  try dsimp only
  repeat' first
    | with_reducible assumption | with_reducible exact Keep.refl _ | with_reducible apply keep_startPending
    | with_reducible apply keep_powerEnd | with_reducible apply keep_domPut | split

theorem keep_entrySteps {p : State} {d upto y0 : Nat} {y1 : State} (hk : Keep p y1) :
    Keep p (entrySteps d upto y0 y1) := by
  induction y0 generalizing d upto y1 with
  | zero => unfold entrySteps; exact hk
  | succ n ih =>
    unfold entrySteps
    try dsimp only
    repeat' first
      | with_reducible assumption | with_reducible exact Keep.refl _ | with_reducible apply ih
      | with_reducible apply keep_entryStep | split

theorem keep_monitorSample {p : State} {m v : Nat} {s : State} (hk : Keep p s) :
    Keep p (monitorSample m v s) := by
  unfold monitorSample
  try dsimp only
  repeat' first
    | with_reducible assumption | with_reducible exact Keep.refl _ | with_reducible apply keep_powerMod
    | with_reducible apply keep_regPutF | with_reducible apply keep_raiseLim | with_reducible apply keep_raise
    | with_reducible apply keep_crewFailureOp | with_reducible apply keep_crewFatalOp
    | with_reducible refine Keep.foldl ?_ ?_ | intro _ | split

theorem keep_execMemDevCe {p : State} {ch : Fin 8} {s : State} (hk : Keep p s) :
    KeepR p (execMemDevCe ch s) := by
  unfold execMemDevCe
  try dsimp only
  repeat' first
    | with_reducible assumption | with_reducible exact Keep.refl _ | with_reducible apply keep_done
    | with_reducible apply keep_memDevRead

end Sys2Proof.Machine
end

