-- ==== Sys2Proof/Laws/KeepCpuMem.lean ====
section
/-!
SUPPORT. What commands keep (part, queue, canonical memory): instructions that access memory, system instructions and
    the engines.
-/
namespace Sys2Proof.Machine
open Sys2Proof

theorem keep_execIinval {p : State} {c : Fin 96} {rs1 : Fin 32} {s : State} (hk : Keep p s) :
    KeepR p (execIinval c rs1 s) := by
  unfold execIinval
  try dsimp only
  repeat' first
    | with_reducible assumption | with_reducible exact Keep.refl _ | with_reducible apply keep_onCore
    | with_reducible apply keep_corePut | intro _

theorem keep_execCcleanAll {p : State} {c : Fin 96} {s : State} (hk : Keep p s) :
    KeepR p (execCcleanAll c s) := by
  unfold execCcleanAll
  try dsimp only
  repeat' first
    | with_reducible assumption | with_reducible exact Keep.refl _ | with_reducible apply keep_onCore
    | with_reducible apply keep_cleanAll | with_reducible apply keep_corePut | intro _

theorem keep_dataRead {p : State} {c a n : Nat} {s : State} (hk : Keep p s) :
    Keep p (dataRead c a n s).2.2 := by
  unfold dataRead
  try dsimp only
  repeat' first
    | with_reducible assumption | with_reducible exact Keep.refl _ | with_reducible apply keep_regRead
    | with_reducible apply keep_fillLine | with_reducible apply keep_readBytes | split
    | with_reducible refine Keep.pair ‹_ = (_, _)› ?_

theorem keep_vLoadFrom {p : State} {c : Nat} {x : Core} {h : Shape} {f : VMem} {i y0 : Nat} {y1 : State} (hk : Keep p
    y1) :
    Keep p (vLoadFrom c x h f i y0 y1).2.2 := by
  induction y0 generalizing c x h f i y1 with
  | zero => unfold vLoadFrom; exact hk
  | succ n ih =>
    unfold vLoadFrom
    try dsimp only
    repeat' first
      | with_reducible assumption | with_reducible exact Keep.refl _ | with_reducible apply ih
      | with_reducible apply keep_dataRead | split | with_reducible refine Keep.triple ‹_ = (_, _, _)› ?_

theorem keep_vFault {p : State} {c k code a : Nat} {s : State} (hk : Keep p s) :
    Keep p (vFault c k code a s) := by
  unfold vFault
  try dsimp only
  repeat' first
    | with_reducible assumption | with_reducible exact Keep.refl _ | with_reducible apply keep_exception
    | with_reducible apply keep_corePut

theorem keep_vLoad {p : State} {c : Fin 96} {f : VMem} {ff : Bool} {s : State} (hk : Keep p s) :
    KeepR p (vLoad c f ff s) := by
  unfold vLoad
  try dsimp only
  repeat' first
    | with_reducible assumption | with_reducible exact Keep.refl _ | with_reducible apply keep_onCoreR
    | with_reducible apply keep_exception | with_reducible apply keep_corePut | with_reducible apply keep_vLoadFrom
    | with_reducible apply keep_waitAt | with_reducible apply keep_vFault | intro _ | split
    | with_reducible refine Keep.triple ‹_ = (_, _, _)› ?_

theorem keep_execVldff {p : State} {c : Fin 96} {f : VMem} {s : State} (hk : Keep p s) :
    KeepR p (execVldff c f s) := by
  unfold execVldff
  try dsimp only
  repeat' first
    | with_reducible assumption | with_reducible exact Keep.refl _ | with_reducible apply keep_vLoad

theorem keep_execBankOwnerCommit {p : State} {crew : Fin 12} {bank : Fin 32} {s : State} (hk : Keep p s) :
    KeepR p (execBankOwnerCommit crew bank s) := by
  unfold execBankOwnerCommit
  try dsimp only
  repeat' first
    | with_reducible assumption | with_reducible exact Keep.refl _ | with_reducible apply keep_done
    | with_reducible apply keep_drainCrew | with_reducible apply keep_bankCommit | split

theorem keep_storeFailed {p : State} {c a : Nat} {s : State} (hk : Keep p s) :
    Keep p (storeFailed c a s) := by
  unfold storeFailed
  try dsimp only
  repeat' first
    | with_reducible assumption | with_reducible exact Keep.refl _ | with_reducible apply keep_storeErrorOp
    | with_reducible apply keep_corePut

theorem keep_storeEnd {p : State} {c a : Nat} {r : Bus} {s : State} (hk : Keep p s) :
    Keep p (storeEnd c a r s).2 := by
  unfold storeEnd
  try dsimp only
  repeat' first
    | with_reducible assumption | with_reducible exact Keep.refl _ | with_reducible apply keep_corePut
    | with_reducible apply keep_storeFailed | split

theorem keep_cacheStore {p : State} {c a : Nat} {bs : Bytes} {s : State} (hk : Keep p s) :
    Keep p (cacheStore c a bs s).2 := by
  unfold cacheStore
  try dsimp only
  repeat' first
    | with_reducible assumption | with_reducible exact Keep.refl _ | with_reducible apply keep_lineStore
    | with_reducible apply keep_fillLine | split | with_reducible refine Keep.pair ‹_ = (_, _)› ?_

theorem keep_storeOp {p : State} {c : Fin 96} {rs2 rs1 : Fin 32} {imm : BitVec 16} {n : Nat} {s : State} (hk : Keep p
    s) :
    KeepR p (storeOp c rs2 rs1 imm n s) := by
  unfold storeOp
  try dsimp only
  repeat' first
    | with_reducible assumption | with_reducible exact Keep.refl _ | with_reducible apply keep_onCoreR
    | with_reducible apply keep_exception | with_reducible apply keep_aliasStore | with_reducible apply keep_storeEnd
    | with_reducible apply keep_regWrite | with_reducible apply keep_corePut | with_reducible apply keep_storeErrorOp
    | with_reducible apply keep_writeBytes | with_reducible apply keep_cacheStore | intro _ | split
    | with_reducible refine Keep.pair ‹_ = (_, _)› ?_

theorem keep_execSb {p : State} {c : Fin 96} {rs2 rs1 : Fin 32} {imm : BitVec 16} {s : State} (hk : Keep p s) :
    KeepR p (execSb c rs2 rs1 imm s) := by
  unfold execSb
  try dsimp only
  repeat' first
    | with_reducible assumption | with_reducible exact Keep.refl _ | with_reducible apply keep_storeOp

theorem keep_loadOp {p : State} {c : Fin 96} {rd rs1 : Fin 32} {imm : BitVec 16} {n : Nat} {signed : Bool} {s : State}
    (hk : Keep p s) :
    KeepR p (loadOp c rd rs1 imm n signed s) := by
  unfold loadOp
  try dsimp only
  repeat' first
    | with_reducible assumption | with_reducible exact Keep.refl _ | with_reducible apply keep_onCoreR
    | with_reducible apply keep_exception | with_reducible apply keep_dataRead | with_reducible apply keep_writeS
    | intro _
    | split | with_reducible refine Keep.triple ‹_ = (_, _, _)› ?_

theorem keep_execLw {p : State} {c : Fin 96} {rd rs1 : Fin 32} {imm : BitVec 16} {s : State} (hk : Keep p s) :
    KeepR p (execLw c rd rs1 imm s) := by
  unfold execLw
  try dsimp only
  repeat' first
    | with_reducible assumption | with_reducible exact Keep.refl _ | with_reducible apply keep_loadOp

theorem keep_execEret {p : State} {c : Fin 96} {s : State} (hk : Keep p s) :
    KeepR p (execEret c s) := by
  unfold execEret
  try dsimp only
  repeat' first
    | with_reducible assumption | with_reducible exact Keep.refl _ | with_reducible apply keep_onCore
    | with_reducible apply keep_corePut | intro _

theorem keep_fenceOp {p : State} {c : Fin 96} {s : State} (hk : Keep p s) :
    KeepR p (fenceOp c s) := by
  unfold fenceOp
  try dsimp only
  repeat' first
    | with_reducible assumption | with_reducible exact Keep.refl _ | with_reducible apply keep_onCoreR
    | with_reducible apply keep_drainWrites | with_reducible apply keep_corePut | with_reducible refine Keep.ite ?_ ?_
    | with_reducible refine Keep.ite2 ?_ ?_ | with_reducible refine Keep.ite3 ?_ ?_
    | with_reducible refine KeepR.ite ?_ ?_ | with_reducible refine KeepR.next ?_
    | with_reducible refine Keep.foldl ?_ ?_ | with_reducible refine Keep.foldl2 ?_ ?_
    | with_reducible refine Keep.foldl3 ?_ ?_ | with_reducible refine Keep.id ?_
    | fail_if_no_progress with_reducible refine Keep.rec_of ?_ rfl rfl rfl | intro _

theorem keep_execFence {p : State} {c : Fin 96} {s : State} (hk : Keep p s) :
    KeepR p (execFence c s) := by
  unfold execFence
  try dsimp only
  repeat' first
    | with_reducible assumption | with_reducible exact Keep.refl _ | with_reducible apply keep_fenceOp

theorem keep_lineOp {p : State} {c : Fin 96} {lines : Core → State → List Nat} {f : Nat → State → State} {s : State}
    (hk : Keep p s) (hf : ∀ a t, Keep p t → Keep p (f a t)) :
    KeepR p (lineOp c lines f s) := by
  unfold lineOp
  try dsimp only
  repeat' first
    | with_reducible assumption | with_reducible exact Keep.refl _ | with_reducible apply hf
    | with_reducible apply keep_onCore | with_reducible apply keep_corePut | with_reducible refine Keep.foldl ?_ ?_
    | intro _

theorem keep_execCflushR {p : State} {c : Fin 96} {rs1 rs2 : Fin 32} {s : State} (hk : Keep p s) :
    KeepR p (execCflushR c rs1 rs2 s) := by
  unfold execCflushR
  try dsimp only
  repeat' first
    | with_reducible assumption | with_reducible exact Keep.refl _ | with_reducible apply keep_lineOp
    | with_reducible apply keep_flushLine

theorem keep_inboundRead {p : State} {a n : Nat} {s : State} (hk : Keep p s) :
    Keep p (inboundRead a n s) := by
  unfold inboundRead
  try dsimp only
  repeat' first
    | with_reducible assumption | with_reducible exact Keep.refl _ | with_reducible apply keep_emit
    | with_reducible apply keep_regRead | with_reducible apply keep_readBytes | split
    | with_reducible refine Keep.pair ‹_ = (_, _)› ?_ | with_reducible refine Keep.quad ‹_ = (_, _, _, _)› ?_

theorem keep_nopOp {p : State} {c : Fin 96} {s : State} (hk : Keep p s) :
    KeepR p (nopOp c s) := by
  unfold nopOp
  try dsimp only
  repeat' first
    | with_reducible assumption | with_reducible exact Keep.refl _ | with_reducible apply keep_onCore
    | with_reducible apply keep_corePut | intro _

theorem keep_execDoorbell {p : State} {c : Fin 96} {rs1 : Fin 32} {s : State} (hk : Keep p s) :
    KeepR p (execDoorbell c rs1 s) := by
  unfold execDoorbell
  try dsimp only
  repeat' first
    | with_reducible assumption | with_reducible exact Keep.refl _ | with_reducible apply keep_onCore
    | with_reducible apply keep_doorbellRing | with_reducible apply keep_corePut | intro _

theorem keep_execCflush {p : State} {c : Fin 96} {rs1 : Fin 32} {s : State} (hk : Keep p s) :
    KeepR p (execCflush c rs1 s) := by
  unfold execCflush
  try dsimp only
  repeat' first
    | with_reducible assumption | with_reducible exact Keep.refl _ | with_reducible apply keep_lineOp
    | with_reducible apply keep_flushLine

theorem keep_execCinval {p : State} {c : Fin 96} {rs1 : Fin 32} {s : State} (hk : Keep p s) :
    KeepR p (execCinval c rs1 s) := by
  unfold execCinval
  try dsimp only
  repeat' first
    | with_reducible assumption | with_reducible exact Keep.refl _ | with_reducible apply keep_lineOp
    | with_reducible apply keep_invalLine

theorem keep_execCflushAll {p : State} {c : Fin 96} {s : State} (hk : Keep p s) :
    KeepR p (execCflushAll c s) := by
  unfold execCflushAll
  try dsimp only
  repeat' first
    | with_reducible assumption | with_reducible exact Keep.refl _ | with_reducible apply keep_onCore
    | with_reducible apply keep_flushAll | with_reducible apply keep_corePut | intro _

theorem keep_engineWrite {p : State} {i : Initiator} {y0 : List (Nat × Bytes)} {y1 : State} (hk : Keep p y1) :
    Keep p (engineWrite i y0 y1).2 := by
  induction y0 generalizing i y1 with
  | nil => unfold engineWrite; exact hk
  | cons b r ih =>
    unfold engineWrite
    try dsimp only
    repeat' first
      | with_reducible assumption | with_reducible exact Keep.refl _ | with_reducible apply ih
      | with_reducible apply keep_writeBytes | split | with_reducible refine Keep.triple ‹_ = (_, _, _)› ?_

theorem keep_execLb {p : State} {c : Fin 96} {rd rs1 : Fin 32} {imm : BitVec 16} {s : State} (hk : Keep p s) :
    KeepR p (execLb c rd rs1 imm s) := by
  unfold execLb
  try dsimp only
  repeat' first
    | with_reducible assumption | with_reducible exact Keep.refl _ | with_reducible apply keep_loadOp

theorem keep_narrowWrite {p : State} {a : Nat} {s : State} (hk : Keep p s) :
    Keep p (narrowWrite a s) := by
  unfold narrowWrite
  try dsimp only
  repeat' first
    | with_reducible assumption | with_reducible exact Keep.refl _ | with_reducible apply keep_raiseLim
    | with_reducible apply keep_regBump

theorem keep_inboundWrite {p : State} {a : Nat} {bs : Bytes} {whole : Bool} {s : State} (hk : Keep p s) :
    Keep p (inboundWrite a bs whole s) := by
  unfold inboundWrite
  try dsimp only
  repeat' first
    | with_reducible assumption | with_reducible exact Keep.refl _ | with_reducible apply keep_writeError
    | with_reducible apply keep_regWrite | with_reducible apply keep_aliasStore | with_reducible apply keep_narrowWrite
    | with_reducible apply keep_writeBytes | with_reducible apply keep_waitAt | split
    | with_reducible refine Keep.pair ‹_ = (_, _)› ?_ | with_reducible refine Keep.triple ‹_ = (_, _, _)› ?_

theorem keep_execInboundPcieWrite {p : State} {target : PcieTarget} {data : List (BitVec 8)} {whole : Bool} {s : State}
    (hk : Keep p s) :
    KeepR p (execInboundPcieWrite target data whole s) := by
  unfold execInboundPcieWrite
  try dsimp only
  repeat' first
    | with_reducible assumption | with_reducible exact Keep.refl _ | with_reducible apply keep_done
    | with_reducible apply keep_inboundWrite | split

theorem keep_bankOwnerOp {p : State} {i : Initiator} {n b v : Nat} {outstanding : Bool} {s : State} (hk : Keep p s) :
    Keep p (bankOwnerOp i n b v outstanding s) := by
  unfold bankOwnerOp
  try dsimp only
  repeat' first
    | with_reducible assumption | with_reducible exact Keep.refl _ | with_reducible apply keep_reach
    | with_reducible apply keep_writeError | with_reducible apply keep_bankOwnerWrite | split
    | with_reducible refine Keep.pair ‹_ = (_, _)› ?_

theorem keep_execCrewBankOwner {p : State} {i : Initiator} {crew : Fin 12} {bank : Fin 32} {owner : BitVec 8}
    {outstanding : Bool} {s : State} (hk : Keep p s) :
    KeepR p (execCrewBankOwner i crew bank owner outstanding s) := by
  unfold execCrewBankOwner
  try dsimp only
  repeat' first
    | with_reducible assumption | with_reducible exact Keep.refl _ | with_reducible apply keep_done
    | with_reducible apply keep_bankOwnerOp

theorem keep_taskWaitOp {p : State} {c : Nat} {x : Core} {s : State} (hk : Keep p s) :
    Keep p (taskWaitOp c x s) := by
  unfold taskWaitOp
  try dsimp only
  repeat' first
    | with_reducible assumption | with_reducible exact Keep.refl _ | with_reducible apply keep_exception
    | with_reducible apply keep_takeStaged | with_reducible apply keep_corePut | split

theorem keep_csrOp {p : State} {c : Fin 96} {rd rs1 : Fin 32} {csr : BitVec 12} {f : Word → Word → Word} {s : State}
    (hk : Keep p s) :
    KeepR p (csrOp c rd rs1 csr f s) := by
  unfold csrOp
  try dsimp only
  repeat' first
    | with_reducible assumption | with_reducible exact Keep.refl _ | with_reducible apply keep_onCore
    | with_reducible apply keep_exception | with_reducible apply keep_corePut | intro _ | split

theorem keep_execCsrw {p : State} {c : Fin 96} {rd rs1 : Fin 32} {csr : BitVec 12} {s : State} (hk : Keep p s) :
    KeepR p (execCsrw c rd rs1 csr s) := by
  unfold execCsrw
  try dsimp only
  repeat' first
    | with_reducible assumption | with_reducible exact Keep.refl _ | with_reducible apply keep_csrOp

theorem keep_maskLoad {p : State} {c : Fin 96} {md : Fin 8} {rs1 : Fin 32} {s : State} (hk : Keep p s) :
    KeepR p (maskLoad c md rs1 s) := by
  unfold maskLoad
  try dsimp only
  repeat' first
    | with_reducible assumption | with_reducible exact Keep.refl _ | with_reducible apply keep_onCoreR
    | with_reducible apply keep_corePut | with_reducible apply keep_vFault | with_reducible apply keep_dataRead
    | with_reducible apply keep_waitAt | intro _ | split | with_reducible refine Keep.triple ‹_ = (_, _, _)› ?_

theorem keep_execEbreak {p : State} {c : Fin 96} {s : State} (hk : Keep p s) :
    KeepR p (execEbreak c s) := by
  unfold execEbreak
  try dsimp only
  repeat' first
    | with_reducible assumption | with_reducible exact Keep.refl _ | with_reducible apply keep_onCore
    | with_reducible apply keep_exception | intro _

theorem keep_dispatchPool {p : State} {target : Nat} {s : State} (hk : Keep p s) :
    Keep p (dispatchPool target s) := by
  unfold dispatchPool
  try dsimp only
  repeat' first
    | with_reducible assumption | with_reducible exact Keep.refl _ | with_reducible apply keep_startEngine
    | split

theorem keep_execEcall {p : State} {c : Fin 96} {s : State} (hk : Keep p s) :
    KeepR p (execEcall c s) := by
  unfold execEcall
  try dsimp only
  repeat' first
    | with_reducible assumption | with_reducible exact Keep.refl _ | with_reducible apply keep_onCore
    | with_reducible apply keep_exception | intro _

theorem keep_execSw {p : State} {c : Fin 96} {rs2 rs1 : Fin 32} {imm : BitVec 16} {s : State} (hk : Keep p s) :
    KeepR p (execSw c rs2 rs1 imm s) := by
  unfold execSw
  try dsimp only
  repeat' first
    | with_reducible assumption | with_reducible exact Keep.refl _ | with_reducible apply keep_storeOp

theorem keep_elemStore {p : State} {c : Nat} {x : Core} {a n v : Nat} {m : Sparse WordPart} {s : State} (hk : Keep p s)
    :
    Keep p (elemStore c x a n v m s).2.2 := by
  unfold elemStore
  try dsimp only
  repeat' first
    | with_reducible assumption | with_reducible exact Keep.refl _ | with_reducible apply keep_aliasStore
    | with_reducible apply keep_storeErrorOp | with_reducible apply keep_writeBytes
    | with_reducible apply keep_cacheStore | split | with_reducible refine Keep.pair ‹_ = (_, _)› ?_
    | with_reducible refine Keep.triple ‹_ = (_, _, _)› ?_

theorem keep_vStoreFrom {p : State} {c : Nat} {x : Core} {h : Shape} {f : VMem} {data i y0 : Nat} {y1 : Sparse
    WordPart} {y2 : State} (hk : Keep p y2) :
    Keep p (vStoreFrom c x h f data i y0 y1 y2).2.2.2 := by
  induction y0 generalizing c x h f data i y1 y2 with
  | zero => unfold vStoreFrom; exact hk
  | succ n ih =>
    unfold vStoreFrom
    try dsimp only
    repeat' first
      | with_reducible assumption | with_reducible exact Keep.refl _ | with_reducible apply ih
      | with_reducible apply keep_elemStore | split | with_reducible refine Keep.triple ‹_ = (_, _, _)› ?_

theorem keep_lineSync {p : State} {c a : Nat} {bs : Bytes} {s : State} (hk : Keep p s) :
    Keep p (lineSync c a bs s) := by
  unfold lineSync
  try dsimp only
  repeat' first
    | with_reducible assumption | with_reducible exact Keep.refl _ | with_reducible apply keep_lineStore
    | with_reducible apply keep_invalLine | split

theorem keep_writeParts {p : State} {c : Nat} {y0 : Sparse WordPart} {y1 : State} (hk : Keep p y1) :
    Keep p (writeParts c y0 y1).2 := by
  induction y0 generalizing c y1 with
  | nil => unfold writeParts; exact hk
  | cons b r ih =>
    unfold writeParts
    try dsimp only
    repeat' first
      | with_reducible assumption | with_reducible exact Keep.refl _ | with_reducible apply ih
      | with_reducible apply keep_storeErrorOp | with_reducible apply keep_writeBytes
      | with_reducible apply keep_lineSync | split | with_reducible refine Keep.triple ‹_ = (_, _, _)› ?_

theorem keep_vStore {p : State} {c : Fin 96} {f : VMem} {s : State} (hk : Keep p s) :
    KeepR p (vStore c f s) := by
  unfold vStore
  try dsimp only
  repeat' first
    | with_reducible assumption | with_reducible exact Keep.refl _ | with_reducible apply keep_onCoreR
    | with_reducible apply keep_exception | with_reducible apply keep_corePut | with_reducible apply keep_vStoreFrom
    | with_reducible apply keep_waitAt | with_reducible apply keep_writeParts | with_reducible apply keep_vFault
    | intro _
    | split | with_reducible refine Keep.pair ‹_ = (_, _)› ?_ | with_reducible refine Keep.quad ‹_ = (_, _, _, _)› ?_

theorem keep_execVst {p : State} {c : Fin 96} {f : VMem} {s : State} (hk : Keep p s) :
    KeepR p (execVst c f s) := by
  unfold execVst
  try dsimp only
  repeat' first
    | with_reducible assumption | with_reducible exact Keep.refl _ | with_reducible apply keep_vStore

theorem keep_interruptEntry {p : State} {c : Nat} {s : State} (hk : Keep p s) :
    Keep p (interruptEntry c s) := by
  unfold interruptEntry
  try dsimp only
  repeat' first
    | with_reducible assumption | with_reducible exact Keep.refl _ | with_reducible apply keep_draw
    | with_reducible apply keep_corePut | split

theorem keep_execTaskWait {p : State} {c : Fin 96} {s : State} (hk : Keep p s) :
    KeepR p (execTaskWait c s) := by
  unfold execTaskWait
  try dsimp only
  repeat' first
    | with_reducible assumption | with_reducible exact Keep.refl _ | with_reducible apply keep_onCore
    | with_reducible apply keep_taskWaitOp

theorem keep_engineRecord {p : State} {k status count : Nat} {r : EngineRun} {s : State} (hk : Keep p s) :
    Keep p (engineRecord k status count r s) := by
  unfold engineRecord
  try dsimp only
  repeat' first
    | with_reducible assumption | with_reducible exact Keep.refl _ | with_reducible apply keep_writeBytes
    | fail_if_no_progress with_reducible refine Keep.rec_of ?_ rfl rfl rfl | split
    | with_reducible refine Keep.triple ‹_ = (_, _, _)› ?_

theorem keep_execCrewDoorbell {p : State} {i : Initiator} {crew : Fin 12} {ring : BitVec 8} {s : State} (hk : Keep p s)
    :
    KeepR p (execCrewDoorbell i crew ring s) := by
  unfold execCrewDoorbell
  try dsimp only
  repeat' first
    | with_reducible assumption | with_reducible exact Keep.refl _ | with_reducible apply keep_done
    | with_reducible apply keep_registerWrite

theorem keep_execInterruptEntry {p : State} {c : Fin 96} {s : State} (hk : Keep p s) :
    KeepR p (execInterruptEntry c s) := by
  unfold execInterruptEntry
  try dsimp only
  repeat' first
    | with_reducible assumption | with_reducible exact Keep.refl _ | with_reducible apply keep_done
    | with_reducible apply keep_interruptEntry

theorem keep_execSh {p : State} {c : Fin 96} {rs2 rs1 : Fin 32} {imm : BitVec 16} {s : State} (hk : Keep p s) :
    KeepR p (execSh c rs2 rs1 imm s) := by
  unfold execSh
  try dsimp only
  repeat' first
    | with_reducible assumption | with_reducible exact Keep.refl _ | with_reducible apply keep_storeOp

theorem keep_execVldM {p : State} {c : Fin 96} {md : Fin 8} {rs1 : Fin 32} {s : State} (hk : Keep p s) :
    KeepR p (execVldM c md rs1 s) := by
  unfold execVldM
  try dsimp only
  repeat' first
    | with_reducible assumption | with_reducible exact Keep.refl _ | with_reducible apply keep_maskLoad

theorem keep_execIinvalAll {p : State} {c : Fin 96} {s : State} (hk : Keep p s) :
    KeepR p (execIinvalAll c s) := by
  unfold execIinvalAll
  try dsimp only
  repeat' first
    | with_reducible assumption | with_reducible exact Keep.refl _ | with_reducible apply keep_nopOp

theorem keep_execFenceW {p : State} {c : Fin 96} {s : State} (hk : Keep p s) :
    KeepR p (execFenceW c s) := by
  unfold execFenceW
  try dsimp only
  repeat' first
    | with_reducible assumption | with_reducible exact Keep.refl _ | with_reducible apply keep_fenceOp

theorem keep_engineNoRecord {p : State} {k error entry : Nat} {s : State} (hk : Keep p s) :
    Keep p (engineNoRecord k error entry s) := by
  unfold engineNoRecord
  try dsimp only
  repeat' first
    | with_reducible assumption | with_reducible exact Keep.refl _
    | fail_if_no_progress with_reducible refine Keep.rec_of ?_ rfl rfl rfl

theorem keep_engineWork {p : State} {k mine : Nat} {ops : List Nat} {ok : Bytes → Bool} {statusAt countAt : Nat} {act :
    Bytes → State → EngineRun × State} {s : State} (hk : Keep p s) (hf : ∀ b t, Keep p t → Keep p (act b t).2) :
    Keep p (engineWork k mine ops ok statusAt countAt act s) := by
  unfold engineWork
  try dsimp only
  repeat' first
    | with_reducible assumption | with_reducible exact Keep.refl _ | with_reducible apply hf
    | with_reducible apply keep_engineNoRecord | with_reducible apply keep_readBytes
    | with_reducible apply keep_engineRecord | with_reducible apply keep_waitAt | split
    | with_reducible refine Keep.quad ‹_ = (_, _, _, _)› ?_

theorem keep_engineRead {p : State} {i : Initiator} {y0 : List (Nat × Nat)} {y1 : State} (hk : Keep p y1) :
    Keep p (engineRead i y0 y1).2 := by
  induction y0 generalizing i y1 with
  | nil => unfold engineRead; exact hk
  | cons b r ih =>
    unfold engineRead
    try dsimp only
    repeat' first
      | with_reducible assumption | with_reducible exact Keep.refl _ | with_reducible apply ih
      | with_reducible apply keep_readBytes | split | with_reducible refine Keep.pair ‹_ = (_, _)› ?_
      | with_reducible refine Keep.quad ‹_ = (_, _, _, _)› ?_

theorem keep_polarRun {p : State} {dec : Bool} {k : Nat} {b : Bytes} {s : State} (hk : Keep p s) :
    Keep p (polarRun dec k b s).2 := by
  unfold polarRun
  try dsimp only
  repeat' first
    | with_reducible assumption | with_reducible exact Keep.refl _ | with_reducible apply keep_engineRead
    | with_reducible apply keep_engineWrite | split | with_reducible refine Keep.pair ‹_ = (_, _)› ?_

theorem keep_execCsrc {p : State} {c : Fin 96} {rd rs1 : Fin 32} {csr : BitVec 12} {s : State} (hk : Keep p s) :
    KeepR p (execCsrc c rd rs1 csr s) := by
  unfold execCsrc
  try dsimp only
  repeat' first
    | with_reducible assumption | with_reducible exact Keep.refl _ | with_reducible apply keep_csrOp

theorem keep_execCsrs {p : State} {c : Fin 96} {rd rs1 : Fin 32} {csr : BitVec 12} {s : State} (hk : Keep p s) :
    KeepR p (execCsrs c rd rs1 csr s) := by
  unfold execCsrs
  try dsimp only
  repeat' first
    | with_reducible assumption | with_reducible exact Keep.refl _ | with_reducible apply keep_csrOp

theorem keep_dispatchCore {p : State} {c : Nat} {s : State} (hk : Keep p s) :
    Keep p (dispatchCore c s) := by
  unfold dispatchCore
  try dsimp only
  repeat' first
    | with_reducible assumption | with_reducible exact Keep.refl _
    | with_reducible apply keep_failUnrunnable | with_reducible apply keep_stageOn | split

theorem keep_maskFill {p : State} {c : Nat} {x : Core} {a : Nat} {s : State} (hk : Keep p s) :
    Keep p (maskFill c x a s).2 := by
  unfold maskFill
  try dsimp only
  repeat' first
    | with_reducible assumption | with_reducible exact Keep.refl _ | with_reducible apply keep_fillLine
    | with_reducible refine Keep.ite ?_ ?_ | with_reducible refine Keep.ite2 ?_ ?_
    | with_reducible refine Keep.ite3 ?_ ?_ | with_reducible refine KeepR.ite ?_ ?_
    | with_reducible refine KeepR.next ?_ | with_reducible refine Keep.foldl ?_ ?_
    | with_reducible refine Keep.foldl2 ?_ ?_ | with_reducible refine Keep.foldl3 ?_ ?_
    | with_reducible refine Keep.id ?_ | fail_if_no_progress with_reducible refine Keep.rec_of ?_ rfl rfl rfl | intro _
    | split | with_reducible refine Keep.pair ‹_ = (_, _)› ?_

theorem keep_maskStore {p : State} {c : Fin 96} {ms : Fin 8} {rs1 : Fin 32} {s : State} (hk : Keep p s) :
    KeepR p (maskStore c ms rs1 s) := by
  unfold maskStore
  try dsimp only
  repeat' first
    | with_reducible assumption | with_reducible exact Keep.refl _ | with_reducible apply keep_onCoreR
    | with_reducible apply keep_corePut | with_reducible apply keep_exception | with_reducible apply keep_vFault
    | with_reducible apply keep_maskFill | with_reducible apply keep_waitAt | with_reducible apply keep_elemStore
    | with_reducible apply keep_writeParts | intro _ | split | with_reducible refine Keep.pair ‹_ = (_, _)› ?_
    | with_reducible refine Keep.triple ‹_ = (_, _, _)› ?_

theorem keep_execVstM {p : State} {c : Fin 96} {ms : Fin 8} {rs1 : Fin 32} {s : State} (hk : Keep p s) :
    KeepR p (execVstM c ms rs1 s) := by
  unfold execVstM
  try dsimp only
  repeat' first
    | with_reducible assumption | with_reducible exact Keep.refl _ | with_reducible apply keep_maskStore

theorem keep_taskDoneOp {p : State} {c : Nat} {status : Word} {x : Core} {s : State} (hk : Keep p s) :
    Keep p (taskDoneOp c status x s) := by
  unfold taskDoneOp
  try dsimp only
  repeat' first
    | with_reducible assumption | with_reducible exact Keep.refl _ | with_reducible apply keep_exception
    | with_reducible apply keep_corePut | with_reducible apply keep_cleanLine | with_reducible refine Keep.foldl ?_ ?_
    | fail_if_no_progress with_reducible refine Keep.rec_of ?_ rfl rfl rfl | intro _ | split

theorem keep_execSd {p : State} {c : Fin 96} {rs2 rs1 : Fin 32} {imm : BitVec 16} {s : State} (hk : Keep p s) :
    KeepR p (execSd c rs2 rs1 imm s) := by
  unfold execSd
  try dsimp only
  repeat' first
    | with_reducible assumption | with_reducible exact Keep.refl _ | with_reducible apply keep_storeOp

theorem keep_execTaskDone {p : State} {c : Fin 96} {rs1 : Fin 32} {s : State} (hk : Keep p s) :
    KeepR p (execTaskDone c rs1 s) := by
  unfold execTaskDone
  try dsimp only
  repeat' first
    | with_reducible assumption | with_reducible exact Keep.refl _ | with_reducible apply keep_onCore
    | with_reducible apply keep_taskDoneOp | intro _

theorem keep_mergeWrite {p : State} {i : Initiator} {a : Nat} {bs : Bytes} {s : State} (hk : Keep p s) :
    Keep p (mergeWrite i a bs s).2 := by
  unfold mergeWrite
  try dsimp only
  repeat' first
    | with_reducible assumption | with_reducible exact Keep.refl _ | with_reducible apply keep_readBytes
    | with_reducible apply keep_engineWrite | split | with_reducible refine Keep.quad ‹_ = (_, _, _, _)› ?_

theorem keep_cipherLoop {p : State} {k : Nat} {y0 : List Bytes} {y1 : Nat} {y2 : EngineRun} {y3 : State} (hk : Keep p
    y3) :
    Keep p (cipherLoop k y0 y1 y2 y3).2 := by
  induction y0 generalizing k y1 y2 y3 with
  | nil => unfold cipherLoop; exact hk
  | cons b r ih =>
    unfold cipherLoop
    try dsimp only
    repeat' first
      | with_reducible assumption | with_reducible exact Keep.refl _ | with_reducible apply ih
      | with_reducible apply keep_engineRead | with_reducible apply keep_mergeWrite | split
      | with_reducible refine Keep.pair ‹_ = (_, _)› ?_

theorem keep_cipherRun {p : State} {k : Nat} {b : Bytes} {s : State} (hk : Keep p s) :
    Keep p (cipherRun k b s).2 := by
  unfold cipherRun
  try dsimp only
  repeat' first
    | with_reducible assumption | with_reducible exact Keep.refl _ | with_reducible apply keep_engineRead
    | with_reducible apply keep_cipherLoop | split | with_reducible refine Keep.pair ‹_ = (_, _)› ?_

theorem keep_execCcleanR {p : State} {c : Fin 96} {rs1 rs2 : Fin 32} {s : State} (hk : Keep p s) :
    KeepR p (execCcleanR c rs1 rs2 s) := by
  unfold execCcleanR
  try dsimp only
  repeat' first
    | with_reducible assumption | with_reducible exact Keep.refl _ | with_reducible apply keep_lineOp
    | with_reducible apply keep_cleanLine

theorem keep_lend {p : State} {k : Nat} {qs : List Nat} {s : State} (hk : Keep p s) :
    Keep p (lend k qs s) := by
  unfold lend
  try dsimp only
  repeat' first
    | with_reducible assumption | with_reducible exact Keep.refl _ | with_reducible refine Keep.ite ?_ ?_
    | with_reducible refine Keep.ite2 ?_ ?_ | with_reducible refine Keep.ite3 ?_ ?_
    | with_reducible refine KeepR.ite ?_ ?_ | with_reducible refine KeepR.next ?_
    | with_reducible refine Keep.foldl ?_ ?_ | with_reducible refine Keep.foldl2 ?_ ?_
    | with_reducible refine Keep.foldl3 ?_ ?_ | with_reducible refine Keep.id ?_
    | fail_if_no_progress with_reducible refine Keep.rec_of ?_ rfl rfl rfl

theorem keep_ldpcEncode {p : State} {k : Nat} {b : Bytes} {s : State} (hk : Keep p s) :
    Keep p (ldpcEncode k b s).2 := by
  unfold ldpcEncode
  try dsimp only
  repeat' first
    | with_reducible assumption | with_reducible exact Keep.refl _ | with_reducible apply keep_engineRead
    | with_reducible apply keep_engineWrite | with_reducible apply keep_lend | split
    | with_reducible refine Keep.pair ‹_ = (_, _)› ?_

theorem keep_ldpcDecode {p : State} {k : Nat} {b : Bytes} {s : State} (hk : Keep p s) :
    Keep p (ldpcDecode k b s).2 := by
  unfold ldpcDecode
  try dsimp only
  repeat' first
    | with_reducible assumption | with_reducible exact Keep.refl _ | with_reducible apply keep_engineRead
    | with_reducible apply keep_engineWrite | with_reducible apply keep_lend | split
    | with_reducible refine Keep.pair ‹_ = (_, _)› ?_

theorem keep_execLd {p : State} {c : Fin 96} {rd rs1 : Fin 32} {imm : BitVec 16} {s : State} (hk : Keep p s) :
    KeepR p (execLd c rd rs1 imm s) := by
  unfold execLd
  try dsimp only
  repeat' first
    | with_reducible assumption | with_reducible exact Keep.refl _ | with_reducible apply keep_loadOp

theorem keep_execVld {p : State} {c : Fin 96} {f : VMem} {s : State} (hk : Keep p s) :
    KeepR p (execVld c f s) := by
  unfold execVld
  try dsimp only
  repeat' first
    | with_reducible assumption | with_reducible exact Keep.refl _ | with_reducible apply keep_vLoad

theorem keep_execCsrr {p : State} {c : Fin 96} {rd : Fin 32} {csr : BitVec 12} {s : State} (hk : Keep p s) :
    KeepR p (execCsrr c rd csr s) := by
  unfold execCsrr
  try dsimp only
  repeat' first
    | with_reducible assumption | with_reducible exact Keep.refl _ | with_reducible apply keep_onCore
    | with_reducible apply keep_exception | with_reducible apply keep_writeS | intro _ | split

theorem keep_execLh {p : State} {c : Fin 96} {rd rs1 : Fin 32} {imm : BitVec 16} {s : State} (hk : Keep p s) :
    KeepR p (execLh c rd rs1 imm s) := by
  unfold execLh
  try dsimp only
  repeat' first
    | with_reducible assumption | with_reducible exact Keep.refl _ | with_reducible apply keep_loadOp

theorem keep_execLwu {p : State} {c : Fin 96} {rd rs1 : Fin 32} {imm : BitVec 16} {s : State} (hk : Keep p s) :
    KeepR p (execLwu c rd rs1 imm s) := by
  unfold execLwu
  try dsimp only
  repeat' first
    | with_reducible assumption | with_reducible exact Keep.refl _ | with_reducible apply keep_loadOp

theorem keep_execWfi {p : State} {c : Fin 96} {s : State} (hk : Keep p s) :
    KeepR p (execWfi c s) := by
  unfold execWfi
  try dsimp only
  repeat' first
    | with_reducible assumption | with_reducible exact Keep.refl _ | with_reducible apply keep_onCore
    | with_reducible apply keep_corePut | intro _

theorem keep_execCoreReset {p : State} {c : Fin 96} {s : State} (hk : Keep p s) :
    KeepR p (execCoreReset c s) := by
  unfold execCoreReset
  try dsimp only
  repeat' first
    | with_reducible assumption | with_reducible exact Keep.refl _ | with_reducible apply keep_done
    | with_reducible apply keep_registerWrite

theorem keep_execLbu {p : State} {c : Fin 96} {rd rs1 : Fin 32} {imm : BitVec 16} {s : State} (hk : Keep p s) :
    KeepR p (execLbu c rd rs1 imm s) := by
  unfold execLbu
  try dsimp only
  repeat' first
    | with_reducible assumption | with_reducible exact Keep.refl _ | with_reducible apply keep_loadOp

theorem keep_execCrewRetentionAck {p : State} {i : Initiator} {crew : Fin 12} {banks : BitVec 32} {s : State} (hk :
    Keep p s) :
    KeepR p (execCrewRetentionAck i crew banks s) := by
  unfold execCrewRetentionAck
  try dsimp only
  repeat' first
    | with_reducible assumption | with_reducible exact Keep.refl _ | with_reducible apply keep_done
    | with_reducible apply keep_registerWrite

theorem keep_execCclean {p : State} {c : Fin 96} {rs1 : Fin 32} {s : State} (hk : Keep p s) :
    KeepR p (execCclean c rs1 s) := by
  unfold execCclean
  try dsimp only
  repeat' first
    | with_reducible assumption | with_reducible exact Keep.refl _ | with_reducible apply keep_lineOp
    | with_reducible apply keep_cleanLine

theorem keep_execRegisterWrite {p : State} {i : Initiator} {unit inst : BitVec 8} {off : BitVec 16} {value : BitVec 32}
    {s : State} (hk : Keep p s) :
    KeepR p (execRegisterWrite i unit inst off value s) := by
  unfold execRegisterWrite
  try dsimp only
  repeat' first
    | with_reducible assumption | with_reducible exact Keep.refl _ | with_reducible apply keep_done
    | with_reducible apply keep_registerWrite

theorem keep_execCinvalR {p : State} {c : Fin 96} {rs1 rs2 : Fin 32} {s : State} (hk : Keep p s) :
    KeepR p (execCinvalR c rs1 rs2 s) := by
  unfold execCinvalR
  try dsimp only
  repeat' first
    | with_reducible assumption | with_reducible exact Keep.refl _ | with_reducible apply keep_lineOp
    | with_reducible apply keep_invalLine

theorem keep_execInboundPcieRead {p : State} {target : PcieTarget} {len : BitVec 13} {s : State} (hk : Keep p s) :
    KeepR p (execInboundPcieRead target len s) := by
  unfold execInboundPcieRead
  try dsimp only
  repeat' first
    | with_reducible assumption | with_reducible exact Keep.refl _ | with_reducible apply keep_done
    | with_reducible apply keep_inboundRead | with_reducible apply keep_emit | split

theorem keep_execStoreError {p : State} {c : Fin 96} {addr : BitVec 48} {s : State} (hk : Keep p s) :
    KeepR p (execStoreError c addr s) := by
  unfold execStoreError
  try dsimp only
  repeat' first
    | with_reducible assumption | with_reducible exact Keep.refl _ | with_reducible apply keep_done
    | with_reducible apply keep_storeErrorOp | split

theorem keep_execLhu {p : State} {c : Fin 96} {rd rs1 : Fin 32} {imm : BitVec 16} {s : State} (hk : Keep p s) :
    KeepR p (execLhu c rd rs1 imm s) := by
  unfold execLhu
  try dsimp only
  repeat' first
    | with_reducible assumption | with_reducible exact Keep.refl _ | with_reducible apply keep_loadOp

end Sys2Proof.Machine
end

