-- ==== Sys2Proof/Laws/KeepRows.lean ====
section
/-!
SUPPORT. What commands keep (part, queue, canonical memory): the event rows of the units.
-/
namespace Sys2Proof.Machine
open Sys2Proof

theorem keep_execCancelLate {p : State} {task : BitVec 16} {inst : Fin 16384} {s : State} (hk : Keep p s) :
    KeepR p (execCancelLate task inst s) := by
  unfold execCancelLate
  try dsimp only
  repeat' first
    | with_reducible assumption | with_reducible exact Keep.refl _ | with_reducible apply keep_done
    | with_reducible apply keep_cancelLateOp

theorem keep_execRescueEvaluation {p : State} {s : State} (hk : Keep p s) :
    KeepR p (execRescueEvaluation s) := by
  unfold execRescueEvaluation
  try dsimp only
  repeat' first
    | with_reducible assumption | with_reducible exact Keep.refl _ | with_reducible apply keep_done
    | with_reducible apply keep_rescueEval

theorem keep_execDrainEnd {p : State} {node : Fin 64} {s : State} (hk : Keep p s) :
    KeepR p (execDrainEnd node s) := by
  unfold execDrainEnd
  try dsimp only
  repeat' first
    | with_reducible assumption | with_reducible exact Keep.refl _ | with_reducible apply keep_done
    | with_reducible apply keep_drainEnd

theorem keep_execCarrierStats {p : State} {r : Request} {s : State} (hk : Keep p s) :
    KeepR p (execCarrierStats r s) := by
  unfold execCarrierStats
  try dsimp only
  repeat' first
    | with_reducible assumption | with_reducible exact Keep.refl _ | with_reducible apply keep_done
    | with_reducible apply keep_carrierStatsOp

theorem keep_execPpsEdge {p : State} {n : Fin 4} {s : State} (hk : Keep p s) :
    KeepR p (execPpsEdge n s) := by
  unfold execPpsEdge
  try dsimp only
  repeat' first
    | with_reducible assumption | with_reducible exact Keep.refl _ | with_reducible apply keep_done
    | with_reducible apply keep_ppsEdge

theorem keep_execBandGap {p : State} {g : Fin 256} {s : State} (hk : Keep p s) :
    KeepR p (execBandGap g s) := by
  unfold execBandGap
  try dsimp only
  repeat' first
    | with_reducible assumption | with_reducible exact Keep.refl _ | with_reducible apply keep_done
    | with_reducible apply keep_bandGap

theorem keep_execWeftPath {p : State} {r : Request} {s : State} (hk : Keep p s) :
    KeepR p (execWeftPath r s) := by
  unfold execWeftPath
  try dsimp only
  repeat' first
    | with_reducible assumption | with_reducible exact Keep.refl _ | with_reducible apply keep_done
    | with_reducible apply keep_weftPathOp

theorem keep_execSfgStatus {p : State} {r : Request} {s : State} (hk : Keep p s) :
    KeepR p (execSfgStatus r s) := by
  unfold execSfgStatus
  try dsimp only
  repeat' first
    | with_reducible assumption | with_reducible exact Keep.refl _ | with_reducible apply keep_done
    | with_reducible apply keep_sfgStatusOp

theorem keep_execDmaFence {p : State} {ch : Fin 64} {s : State} (hk : Keep p s) :
    KeepR p (execDmaFence ch s) := by
  unfold execDmaFence
  try dsimp only
  repeat' first
    | with_reducible assumption | with_reducible exact Keep.refl _ | with_reducible apply keep_done
    | with_reducible apply keep_dmaInstr | with_reducible apply keep_dmaFenceOp

theorem keep_execHandsetStats {p : State} {r : Request} {s : State} (hk : Keep p s) :
    KeepR p (execHandsetStats r s) := by
  unfold execHandsetStats
  try dsimp only
  repeat' first
    | with_reducible assumption | with_reducible exact Keep.refl _ | with_reducible apply keep_done
    | with_reducible apply keep_handsetStatsOp

theorem keep_execBupexBootSend {p : State} {r : Request} {s : State} (hk : Keep p s) :
    KeepR p (execBupexBootSend r s) := by
  unfold execBupexBootSend
  try dsimp only
  repeat' first
    | with_reducible assumption | with_reducible exact Keep.refl _ | with_reducible apply keep_done
    | with_reducible apply keep_bootSendOp

theorem keep_execFabricContention {p : State} {row : Fin 6} {line : Fin 16} {s : State} (hk : Keep p s) :
    KeepR p (execFabricContention row line s) := by
  unfold execFabricContention
  try dsimp only
  repeat' first
    | with_reducible assumption | with_reducible exact Keep.refl _ | with_reducible apply keep_done
    | with_reducible apply keep_contention

theorem keep_execNvRead {p : State} {r : Request} {s : State} (hk : Keep p s) :
    KeepR p (execNvRead r s) := by
  unfold execNvRead
  try dsimp only
  repeat' first
    | with_reducible assumption | with_reducible exact Keep.refl _ | with_reducible apply keep_done
    | with_reducible apply keep_nvOp

theorem keep_execTxFrameEnd {p : State} {m : Fin 64} {s : State} (hk : Keep p s) :
    KeepR p (execTxFrameEnd m s) := by
  unfold execTxFrameEnd
  try dsimp only
  repeat' first
    | with_reducible assumption | with_reducible exact Keep.refl _ | with_reducible apply keep_done
    | with_reducible apply keep_txEnd

theorem keep_execTimeSet {p : State} {r : Request} {s : State} (hk : Keep p s) :
    KeepR p (execTimeSet r s) := by
  unfold execTimeSet
  try dsimp only
  repeat' first
    | with_reducible assumption | with_reducible exact Keep.refl _ | with_reducible apply keep_done
    | with_reducible apply keep_timeSetOp

theorem keep_execVideoSessionRunning {p : State} {k : Fin 4096} {s : State} (hk : Keep p s) :
    KeepR p (execVideoSessionRunning k s) := by
  unfold execVideoSessionRunning
  try dsimp only
  repeat' first
    | with_reducible assumption | with_reducible exact Keep.refl _ | with_reducible apply keep_done
    | with_reducible apply keep_videoRunning

theorem keep_execShuttleStats {p : State} {r : Request} {s : State} (hk : Keep p s) :
    KeepR p (execShuttleStats r s) := by
  unfold execShuttleStats
  try dsimp only
  repeat' first
    | with_reducible assumption | with_reducible exact Keep.refl _ | with_reducible apply keep_done
    | with_reducible apply keep_shuttleStatsOp

theorem keep_execHello {p : State} {l : Fin 6} {rx : Option (BitVec 12 × BitVec 64 × BitVec 16)} {s : State} (hk : Keep
    p s) :
    KeepR p (execHello l rx s) := by
  unfold execHello
  try dsimp only
  repeat' first
    | with_reducible assumption | with_reducible exact Keep.refl _ | with_reducible apply keep_done
    | with_reducible apply keep_helloOp

theorem keep_execBupexLinkRunning {p : State} {l : Fin 6} {s : State} (hk : Keep p s) :
    KeepR p (execBupexLinkRunning l s) := by
  unfold execBupexLinkRunning
  try dsimp only
  repeat' first
    | with_reducible assumption | with_reducible exact Keep.refl _ | with_reducible apply keep_done
    | with_reducible apply keep_linkRunning

theorem keep_execDlSymbolSend {p : State} {c : Fin 64} {slot : BitVec 48} {sym : Fin 14} {iq : List (Fin 128 × BitVec
    32)} {s : State} (hk : Keep p s) :
    KeepR p (execDlSymbolSend c slot sym iq s) := by
  unfold execDlSymbolSend
  try dsimp only
  repeat' first
    | with_reducible assumption | with_reducible exact Keep.refl _ | with_reducible apply keep_done
    | with_reducible apply keep_dlSymbolSend

theorem keep_execEthLinkDown {p : State} {n : Fin 49} {signal : Bool} {s : State} (hk : Keep p s) :
    KeepR p (execEthLinkDown n signal s) := by
  unfold execEthLinkDown
  try dsimp only
  repeat' first
    | with_reducible assumption | with_reducible exact Keep.refl _ | with_reducible apply keep_done
    | with_reducible apply keep_ethDown

theorem keep_execAudioBlockOverrun {p : State} {s : State} (hk : Keep p s) :
    KeepR p (execAudioBlockOverrun s) := by
  unfold execAudioBlockOverrun
  try dsimp only
  repeat' first
    | with_reducible assumption | with_reducible exact Keep.refl _ | with_reducible apply keep_done
    | with_reducible apply keep_blockOverrun

theorem keep_execStreamPacketExpiry {p : State} {n : Fin 512} {s : State} (hk : Keep p s) :
    KeepR p (execStreamPacketExpiry n s) := by
  unfold execStreamPacketExpiry
  try dsimp only
  repeat' first
    | with_reducible assumption | with_reducible exact Keep.refl _ | with_reducible apply keep_done
    | with_reducible apply keep_streamExpiry

theorem keep_execFabricSpTx {p : State} {p_ : Fin 12} {value : BitVec 32} {s : State} (hk : Keep p s) :
    KeepR p (execFabricSpTx p_ value s) := by
  unfold execFabricSpTx
  try dsimp only
  repeat' first
    | with_reducible assumption | with_reducible exact Keep.refl _ | with_reducible apply keep_done
    | with_reducible apply keep_spTx

theorem keep_execPowerStatus {p : State} {r : Request} {s : State} (hk : Keep p s) :
    KeepR p (execPowerStatus r s) := by
  unfold execPowerStatus
  try dsimp only
  repeat' first
    | with_reducible assumption | with_reducible exact Keep.refl _ | with_reducible apply keep_done
    | with_reducible apply keep_powerStatusOp

theorem keep_execWaitTimeout {p : State} {ch : Fin 64} {s : State} (hk : Keep p s) :
    KeepR p (execWaitTimeout ch s) := by
  unfold execWaitTimeout
  try dsimp only
  repeat' first
    | with_reducible assumption | with_reducible exact Keep.refl _ | with_reducible apply keep_done
    | with_reducible apply keep_dmaTimeoutOp

theorem keep_execPtpTimeout {p : State} {p_ : Fin 16} {m : PtpMessage} {s : State} (hk : Keep p s) :
    KeepR p (execPtpTimeout p_ m s) := by
  unfold execPtpTimeout
  try dsimp only
  repeat' first
    | with_reducible assumption | with_reducible exact Keep.refl _ | with_reducible apply keep_done
    | with_reducible apply keep_ptpTimeout

theorem keep_strobeOp {p : State} {st : Strobe} {s : State} (hk : Keep p s) :
    Keep p (strobeOp st s) := by
  unfold strobeOp
  try dsimp only
  repeat' first
    | with_reducible assumption | with_reducible exact Keep.refl _ | with_reducible apply keep_emit | split

theorem keep_execRegionStop {p : State} {r : Fin 96} {s : State} (hk : Keep p s) :
    KeepR p (execRegionStop r s) := by
  unfold execRegionStop
  try dsimp only
  repeat' first
    | with_reducible assumption | with_reducible exact Keep.refl _ | with_reducible apply keep_done
    | with_reducible apply keep_regionStopped

theorem keep_execPowerDomCtrl {p : State} {d : Fin 38} {value : BitVec 32} {s : State} (hk : Keep p s) :
    KeepR p (execPowerDomCtrl d value s) := by
  unfold execPowerDomCtrl
  try dsimp only
  repeat' first
    | with_reducible assumption | with_reducible exact Keep.refl _ | with_reducible apply keep_done
    | with_reducible apply keep_domCtrlWrite

theorem keep_execPcieLinkChange {p : State} {up : Bool} {gen : Fin 6} {width : Fin 17} {l1 : Bool} {s : State} (hk :
    Keep p s) :
    KeepR p (execPcieLinkChange up gen width l1 s) := by
  unfold execPcieLinkChange
  try dsimp only
  repeat' first
    | with_reducible assumption | with_reducible exact Keep.refl _ | with_reducible apply keep_done
    | with_reducible apply keep_pcieLink

theorem keep_execMdStatus {p : State} {r : Request} {s : State} (hk : Keep p s) :
    KeepR p (execMdStatus r s) := by
  unfold execMdStatus
  try dsimp only
  repeat' first
    | with_reducible assumption | with_reducible exact Keep.refl _ | with_reducible apply keep_done
    | with_reducible apply keep_mdStatusOp

theorem keep_execComposeFrame {p : State} {layout : Fin 8} {s : State} (hk : Keep p s) :
    KeepR p (execComposeFrame layout s) := by
  unfold execComposeFrame
  try dsimp only
  repeat' first
    | with_reducible assumption | with_reducible exact Keep.refl _ | with_reducible apply keep_done
    | with_reducible apply keep_composeFrame

theorem keep_execHoldoverExpiry {p : State} {s : State} (hk : Keep p s) :
    KeepR p (execHoldoverExpiry s) := by
  unfold execHoldoverExpiry
  try dsimp only
  repeat' first
    | with_reducible assumption | with_reducible exact Keep.refl _ | with_reducible apply keep_done
    | with_reducible apply keep_holdoverExpiry

theorem keep_execCrewFatal {p : State} {crew : Fin 12} {fault : Fin 3} {s : State} (hk : Keep p s) :
    KeepR p (execCrewFatal crew fault s) := by
  unfold execCrewFatal
  try dsimp only
  repeat' first
    | with_reducible assumption | with_reducible exact Keep.refl _ | with_reducible apply keep_done
    | with_reducible apply keep_crewFailureOp | with_reducible apply keep_crewFatalOp

theorem keep_timerReached {p : State} {c : Nat} {s : State} (hk : Keep p s) :
    Keep p (timerReached c s) := by
  unfold timerReached
  try dsimp only
  repeat' first
    | with_reducible assumption | with_reducible exact Keep.refl _ | with_reducible apply keep_wakeWfi
    | split

theorem keep_execVideoSessionStopped {p : State} {k : Fin 4096} {s : State} (hk : Keep p s) :
    KeepR p (execVideoSessionStopped k s) := by
  unfold execVideoSessionStopped
  try dsimp only
  repeat' first
    | with_reducible assumption | with_reducible exact Keep.refl _ | with_reducible apply keep_done
    | with_reducible apply keep_videoStopped

theorem keep_execFronthaulClearAll {p : State} {s : State} (hk : Keep p s) :
    KeepR p (execFronthaulClearAll s) := by
  unfold execFronthaulClearAll
  try dsimp only
  repeat' first
    | with_reducible assumption | with_reducible exact Keep.refl _ | with_reducible apply keep_done
    | with_reducible apply keep_fhClearAll

theorem keep_execLastGaspReceived {p : State} {l : Fin 6} {sender : BitVec 12} {s : State} (hk : Keep p s) :
    KeepR p (execLastGaspReceived l sender s) := by
  unfold execLastGaspReceived
  try dsimp only
  repeat' first
    | with_reducible assumption | with_reducible exact Keep.refl _ | with_reducible apply keep_done
    | with_reducible apply keep_lastGasp

theorem keep_sscTakes {p : State} {k : Nat} {s : State} (hk : Keep p s) :
    Keep p (sscTakes k s) := by
  unfold sscTakes
  try dsimp only
  repeat' first
    | with_reducible assumption | with_reducible exact Keep.refl _ | with_reducible apply keep_powerMod

theorem keep_execShadowWrite {p : State} {ch : Fin 64} {reg : Fin 5} {value : BitVec 32} {s : State} (hk : Keep p s) :
    KeepR p (execShadowWrite ch reg value s) := by
  unfold execShadowWrite
  try dsimp only
  repeat' first
    | with_reducible assumption | with_reducible exact Keep.refl _ | with_reducible apply keep_done
    | with_reducible apply keep_dmaShadow

theorem keep_execFabricPinSet {p : State} {k : Fin 4} {value : BitVec 32} {s : State} (hk : Keep p s) :
    KeepR p (execFabricPinSet k value s) := by
  unfold execFabricPinSet
  try dsimp only
  repeat' first
    | with_reducible assumption | with_reducible exact Keep.refl _ | with_reducible apply keep_done
    | with_reducible apply keep_pinSetClr

theorem keep_execBupexLinkUp {p : State} {l : Fin 6} {s : State} (hk : Keep p s) :
    KeepR p (execBupexLinkUp l s) := by
  unfold execBupexLinkUp
  try dsimp only
  repeat' first
    | with_reducible assumption | with_reducible exact Keep.refl _ | with_reducible apply keep_done
    | with_reducible apply keep_linkUpOp

theorem keep_execBupexIdleEntry {p : State} {l : Fin 6} {s : State} (hk : Keep p s) :
    KeepR p (execBupexIdleEntry l s) := by
  unfold execBupexIdleEntry
  try dsimp only
  repeat' first
    | with_reducible assumption | with_reducible exact Keep.refl _ | with_reducible apply keep_done
    | with_reducible apply keep_idleEntry

theorem keep_execPtpSync {p : State} {p_ : Fin 16} {msg : PtpTimed} {corr : Int} {s : State}
    (hk : Keep p s) :
    KeepR p (execPtpSync p_ msg corr s) := by
  unfold execPtpSync
  try dsimp only
  repeat' first
    | with_reducible assumption | with_reducible exact Keep.refl _ | with_reducible apply keep_done
    | with_reducible apply keep_ptpSync

theorem keep_execMoveProg {p : State} {ch : Fin 64} {s : State} (hk : Keep p s) :
    KeepR p (execMoveProg ch s) := by
  unfold execMoveProg
  try dsimp only
  repeat' first
    | with_reducible assumption | with_reducible exact Keep.refl _ | with_reducible apply keep_done
    | with_reducible apply keep_dmaInstr | with_reducible apply keep_dmaMove

theorem keep_execTaskWatchdog {p : State} {c : Fin 96} {s : State} (hk : Keep p s) :
    KeepR p (execTaskWatchdog c s) := by
  unfold execTaskWatchdog
  try dsimp only
  repeat' first
    | with_reducible assumption | with_reducible exact Keep.refl _ | with_reducible apply keep_done
    | with_reducible apply keep_watchdogOp

theorem keep_execFeedbackRecord {p : State} {s : State} (hk : Keep p s) :
    KeepR p (execFeedbackRecord s) := by
  unfold execFeedbackRecord
  try dsimp only
  repeat' first
    | with_reducible assumption | with_reducible exact Keep.refl _ | with_reducible apply keep_done
    | with_reducible apply keep_feedbackRecord

theorem keep_execDrained {p : State} {node : Fin 64} {s : State} (hk : Keep p s) :
    KeepR p (execDrained node s) := by
  unfold execDrained
  try dsimp only
  repeat' first
    | with_reducible assumption | with_reducible exact Keep.refl _ | with_reducible apply keep_done
    | with_reducible apply keep_drainedOp

theorem keep_execDrainStart {p : State} {node : Fin 64} {s : State} (hk : Keep p s) :
    KeepR p (execDrainStart node s) := by
  unfold execDrainStart
  try dsimp only
  repeat' first
    | with_reducible assumption | with_reducible exact Keep.refl _ | with_reducible apply keep_done
    | with_reducible apply keep_drainStart

theorem keep_execCoxLatchShortLo {p : State} {k : Fin 4} {s : State} (hk : Keep p s) :
    KeepR p (execCoxLatchShortLo k s) := by
  unfold execCoxLatchShortLo
  try dsimp only
  repeat' first
    | with_reducible assumption | with_reducible exact Keep.refl _ | with_reducible apply keep_done
    | with_reducible apply keep_coxLatch

theorem keep_execReferencePromotion {p : State} {ref : Fin 20} {s : State} (hk : Keep p s) :
    KeepR p (execReferencePromotion ref s) := by
  unfold execReferencePromotion
  try dsimp only
  repeat' first
    | with_reducible assumption | with_reducible exact Keep.refl _ | with_reducible apply keep_done
    | with_reducible apply keep_promoteRef

theorem keep_execCoreTimerCmpReached {p : State} {c : Fin 96} {s : State} (hk : Keep p s) :
    KeepR p (execCoreTimerCmpReached c s) := by
  unfold execCoreTimerCmpReached
  try dsimp only
  repeat' first
    | with_reducible assumption | with_reducible exact Keep.refl _ | with_reducible apply keep_done
    | with_reducible apply keep_timerReached

theorem keep_execSt2110PictureEligible {p : State} {k : Fin 4096} {s : State} (hk : Keep p s) :
    KeepR p (execSt2110PictureEligible k s) := by
  unfold execSt2110PictureEligible
  try dsimp only
  repeat' first
    | with_reducible assumption | with_reducible exact Keep.refl _ | with_reducible apply keep_done
    | with_reducible apply keep_st2110Eligible

theorem keep_execSscEnable {p : State} {k : Fin 4} {s : State} (hk : Keep p s) :
    KeepR p (execSscEnable k s) := by
  unfold execSscEnable
  try dsimp only
  repeat' first
    | with_reducible assumption | with_reducible exact Keep.refl _ | with_reducible apply keep_done
    | with_reducible apply keep_sscTakes

theorem keep_execShuttleBeamPut {p : State} {i : Initiator} {handle : BitVec 32} {s : State} (hk : Keep p s) :
    KeepR p (execShuttleBeamPut i handle s) := by
  unfold execShuttleBeamPut
  try dsimp only
  repeat' first
    | with_reducible assumption | with_reducible exact Keep.refl _ | with_reducible apply keep_done
    | with_reducible apply keep_beamPutOp

theorem keep_execEthLinkUp {p : State} {n : Fin 49} {s : State} (hk : Keep p s) :
    KeepR p (execEthLinkUp n s) := by
  unfold execEthLinkUp
  try dsimp only
  repeat' first
    | with_reducible assumption | with_reducible exact Keep.refl _ | with_reducible apply keep_done
    | with_reducible apply keep_ethUp

theorem keep_execBeamTimeout {p : State} {flow : Fin 4096} {s : State} (hk : Keep p s) :
    KeepR p (execBeamTimeout flow s) := by
  unfold execBeamTimeout
  try dsimp only
  repeat' first
    | with_reducible assumption | with_reducible exact Keep.refl _ | with_reducible apply keep_done
    | with_reducible apply keep_beamTimeoutOp

theorem keep_execMacScheduling {p : State} {c : Fin 64} {figs : List SlotFigure} {air : CarrierFigure} {s : State} (hk
    : Keep p s) :
    KeepR p (execMacScheduling c figs air s) := by
  unfold execMacScheduling
  try dsimp only
  repeat' first
    | with_reducible assumption | with_reducible exact Keep.refl _ | with_reducible apply keep_done
    | with_reducible apply keep_macScheduling

theorem keep_execTimeAdjust {p : State} {r : Request} {s : State} (hk : Keep p s) :
    KeepR p (execTimeAdjust r s) := by
  unfold execTimeAdjust
  try dsimp only
  repeat' first
    | with_reducible assumption | with_reducible exact Keep.refl _ | with_reducible apply keep_done
    | with_reducible apply keep_timeAdjustOp

theorem keep_execLoopProg {p : State} {ch : Fin 64} {s : State} (hk : Keep p s) :
    KeepR p (execLoopProg ch s) := by
  unfold execLoopProg
  try dsimp only
  repeat' first
    | with_reducible assumption | with_reducible exact Keep.refl _ | with_reducible apply keep_done
    | with_reducible apply keep_dmaInstr | with_reducible apply keep_dmaLoopOp

theorem keep_execCfgReadback {p : State} {upset : Bool} {s : State} (hk : Keep p s) :
    KeepR p (execCfgReadback upset s) := by
  unfold execCfgReadback
  try dsimp only
  repeat' first
    | with_reducible assumption | with_reducible exact Keep.refl _ | with_reducible apply keep_done
    | with_reducible apply keep_readback

theorem keep_execStatsPeriod {p : State} {c : Fin 64} {s : State} (hk : Keep p s) :
    KeepR p (execStatsPeriod c s) := by
  unfold execStatsPeriod
  try dsimp only
  repeat' first
    | with_reducible assumption | with_reducible exact Keep.refl _ | with_reducible apply keep_done
    | with_reducible apply keep_statsPeriod

theorem keep_execRequestTimeout {p : State} {i : Initiator} {src dst : Fin 64} {req : WeftRequest} {s
    : State} (hk : Keep p s) :
    KeepR p (execRequestTimeout i src dst req s) := by
  unfold execRequestTimeout
  try dsimp only
  repeat' first
    | with_reducible assumption | with_reducible exact Keep.refl _ | with_reducible apply keep_done
    | with_reducible apply keep_requestTimeout

theorem keep_execWeftDrain {p : State} {r : Request} {s : State} (hk : Keep p s) :
    KeepR p (execWeftDrain r s) := by
  unfold execWeftDrain
  try dsimp only
  repeat' first
    | with_reducible assumption | with_reducible exact Keep.refl _ | with_reducible apply keep_done
    | with_reducible apply keep_weftDrainOp

theorem keep_execReceiveWindowClose {p : State} {c : Fin 64} {slot : BitVec 48} {sym : Fin 14} {s : State} (hk : Keep p
    s) :
    KeepR p (execReceiveWindowClose c slot sym s) := by
  unfold execReceiveWindowClose
  try dsimp only
  repeat' first
    | with_reducible assumption | with_reducible exact Keep.refl _ | with_reducible apply keep_done
    | with_reducible apply keep_windowClose

theorem keep_execEthPortEnable {p : State} {n : Fin 49} {value : BitVec 32} {s : State} (hk : Keep p s) :
    KeepR p (execEthPortEnable n value s) := by
  unfold execEthPortEnable
  try dsimp only
  repeat' first
    | with_reducible assumption | with_reducible exact Keep.refl _ | with_reducible apply keep_done
    | with_reducible apply keep_ethCfgWrite | split

theorem keep_execWeftBist {p : State} {node : Fin 64} {pass : Bool} {s : State} (hk : Keep p s) :
    KeepR p (execWeftBist node pass s) := by
  unfold execWeftBist
  try dsimp only
  repeat' first
    | with_reducible assumption | with_reducible exact Keep.refl _ | with_reducible apply keep_done
    | with_reducible apply keep_bistOp

theorem keep_execPrbsSyncLost {p : State} {lane : Fin 48} {lost : Bool} {errs total : BitVec 48} {s : State} (hk : Keep
    p s) :
    KeepR p (execPrbsSyncLost lane lost errs total s) := by
  unfold execPrbsSyncLost
  try dsimp only
  repeat' first
    | with_reducible assumption | with_reducible exact Keep.refl _ | with_reducible apply keep_done
    | with_reducible apply keep_prbsCheck

theorem keep_execHspRemoval {p : State} {plug : PlugHeld} {s : State} (hk : Keep p s) :
    KeepR p (execHspRemoval plug s) := by
  unfold execHspRemoval
  try dsimp only
  repeat' first
    | with_reducible assumption | with_reducible exact Keep.refl _ | with_reducible apply keep_done
    | with_reducible apply keep_hspRemove

theorem keep_execPtpPortStats {p : State} {r : Request} {s : State} (hk : Keep p s) :
    KeepR p (execPtpPortStats r s) := by
  unfold execPtpPortStats
  try dsimp only
  repeat' first
    | with_reducible assumption | with_reducible exact Keep.refl _ | with_reducible apply keep_done
    | with_reducible apply keep_ptpStatsOp

theorem keep_execLegRemove {p : State} {r : Request} {s : State} (hk : Keep p s) :
    KeepR p (execLegRemove r s) := by
  unfold execLegRemove
  try dsimp only
  repeat' first
    | with_reducible assumption | with_reducible exact Keep.refl _ | with_reducible apply keep_done
    | with_reducible apply keep_legRemoveOp

theorem keep_execPfail {p : State} {s : State} (hk : Keep p s) :
    KeepR p (execPfail s) := by
  unfold execPfail
  try dsimp only
  repeat' first
    | with_reducible assumption | with_reducible exact Keep.refl _ | with_reducible apply keep_done
    | with_reducible apply keep_pfailOp

theorem keep_execPowerSet {p : State} {r : Request} {s : State} (hk : Keep p s) :
    KeepR p (execPowerSet r s) := by
  unfold execPowerSet
  try dsimp only
  repeat' first
    | with_reducible assumption | with_reducible exact Keep.refl _ | with_reducible apply keep_done
    | with_reducible apply keep_powerSetOp

theorem keep_execFwdLegStats {p : State} {r : Request} {s : State} (hk : Keep p s) :
    KeepR p (execFwdLegStats r s) := by
  unfold execFwdLegStats
  try dsimp only
  repeat' first
    | with_reducible assumption | with_reducible exact Keep.refl _ | with_reducible apply keep_done
    | with_reducible apply keep_fwdStatsOp

theorem keep_execTaskCompletion {p : State} {c : Fin 96} {s : State} (hk : Keep p s) :
    KeepR p (execTaskCompletion c s) := by
  unfold execTaskCompletion
  try dsimp only
  repeat' first
    | with_reducible assumption | with_reducible exact Keep.refl _ | with_reducible apply keep_done
    | with_reducible apply keep_taskCompletionOp

theorem keep_execWakeReadyStep {p : State} {d : Fin 38} {s : State} (hk : Keep p s) :
    KeepR p (execWakeReadyStep d s) := by
  unfold execWakeReadyStep
  try dsimp only
  repeat' first
    | with_reducible assumption | with_reducible exact Keep.refl _ | with_reducible apply keep_done
    | with_reducible apply keep_wakeStep

theorem keep_execFabricPinClr {p : State} {k : Fin 4} {value : BitVec 32} {s : State} (hk : Keep p s) :
    KeepR p (execFabricPinClr k value s) := by
  unfold execFabricPinClr
  try dsimp only
  repeat' first
    | with_reducible assumption | with_reducible exact Keep.refl _ | with_reducible apply keep_done
    | with_reducible apply keep_pinSetClr

theorem keep_execCredit {p : State} {src dst : Fin 64} {flits : Fin 1025} {s : State} (hk : Keep p s) :
    KeepR p (execCredit src dst flits s) := by
  unfold execCredit
  try dsimp only
  repeat' first
    | with_reducible assumption | with_reducible exact Keep.refl _ | with_reducible apply keep_done
    | with_reducible apply keep_creditOp

theorem keep_execBlockCompute {p : State} {mic0 mic1 : List (BitVec 24)} {took : BitVec 16} {s : State} (hk : Keep p s)
    :
    KeepR p (execBlockCompute mic0 mic1 took s) := by
  unfold execBlockCompute
  try dsimp only
  repeat' first
    | with_reducible assumption | with_reducible exact Keep.refl _ | with_reducible apply keep_done
    | with_reducible apply keep_blockCompute

theorem keep_execWakeFail {p : State} {d : Fin 38} {s : State} (hk : Keep p s) :
    KeepR p (execWakeFail d s) := by
  unfold execWakeFail
  try dsimp only
  repeat' first
    | with_reducible assumption | with_reducible exact Keep.refl _ | with_reducible apply keep_done
    | with_reducible apply keep_wakeFail

theorem keep_execSt2110Packet {p : State} {k : Fin 4096} {port : Fin 48} {seq : BitVec 16} {ts ssrc : BitVec 32} {pt :
    BitVec 7} {segs : List (Fin 4096 × Fin 16384 × List (BitVec 8))} {s : State} (hk : Keep p s) :
    KeepR p (execSt2110Packet k port seq ts ssrc pt segs s) := by
  unfold execSt2110Packet
  try dsimp only
  repeat' first
    | with_reducible assumption | with_reducible exact Keep.refl _ | with_reducible apply keep_done
    | with_reducible apply keep_st2110Packet

theorem keep_execLegParam {p : State} {r : Request} {s : State} (hk : Keep p s) :
    KeepR p (execLegParam r s) := by
  unfold execLegParam
  try dsimp only
  repeat' first
    | with_reducible assumption | with_reducible exact Keep.refl _ | with_reducible apply keep_done
    | with_reducible apply keep_legParamOp

theorem keep_execWeftRoute {p : State} {node : Fin 64} {value : BitVec 32} {s : State} (hk : Keep p s) :
    KeepR p (execWeftRoute node value s) := by
  unfold execWeftRoute
  try dsimp only
  repeat' first
    | with_reducible assumption | with_reducible exact Keep.refl _ | with_reducible apply keep_done
    | with_reducible apply keep_routeOp

theorem keep_execUpHoldExpiry {p : State} {l : Fin 4096} {s : State} (hk : Keep p s) :
    KeepR p (execUpHoldExpiry l s) := by
  unfold execUpHoldExpiry
  try dsimp only
  repeat' first
    | with_reducible assumption | with_reducible exact Keep.refl _ | with_reducible apply keep_done
    | with_reducible apply keep_upHold

theorem keep_execBupexLinkStats {p : State} {r : Request} {s : State} (hk : Keep p s) :
    KeepR p (execBupexLinkStats r s) := by
  unfold execBupexLinkStats
  try dsimp only
  repeat' first
    | with_reducible assumption | with_reducible exact Keep.refl _ | with_reducible apply keep_done
    | with_reducible apply keep_linkStatsOp

theorem keep_execWeftLinkLoad {p : State} {r : Request} {s : State} (hk : Keep p s) :
    KeepR p (execWeftLinkLoad r s) := by
  unfold execWeftLinkLoad
  try dsimp only
  repeat' first
    | with_reducible assumption | with_reducible exact Keep.refl _ | with_reducible apply keep_done
    | with_reducible apply keep_linkLoadOp

theorem keep_execPtpMessageSend {p : State} {p_ : Fin 16} {m : PtpMessage} {s : State} (hk : Keep p s) :
    KeepR p (execPtpMessageSend p_ m s) := by
  unfold execPtpMessageSend
  try dsimp only
  repeat' first
    | with_reducible assumption | with_reducible exact Keep.refl _ | with_reducible apply keep_done
    | with_reducible apply keep_ptpSend

theorem keep_execPictureEncode {p : State} {k : Fin 4096} {s : State} (hk : Keep p s) :
    KeepR p (execPictureEncode k s) := by
  unfold execPictureEncode
  try dsimp only
  repeat' first
    | with_reducible assumption | with_reducible exact Keep.refl _ | with_reducible apply keep_done
    | with_reducible apply keep_pictureEncode

theorem keep_execPolarEncode {p : State} {engine : Fin 8} {s : State} (hk : Keep p s) :
    KeepR p (execPolarEncode engine s) := by
  unfold execPolarEncode
  try dsimp only
  repeat' first
    | with_reducible assumption | with_reducible exact Keep.refl _ | with_reducible apply keep_done
    | with_reducible apply keep_engineWork | with_reducible apply keep_polarRun

theorem keep_execLayoutGet {p : State} {r : Request} {s : State} (hk : Keep p s) :
    KeepR p (execLayoutGet r s) := by
  unfold execLayoutGet
  try dsimp only
  repeat' first
    | with_reducible assumption | with_reducible exact Keep.refl _ | with_reducible apply keep_done
    | with_reducible apply keep_layoutGetOp

theorem keep_execHeaderCheck {p : State} {ch : Fin 256} {d : Fin 8} {pre : SyncSeen} {symbols : List (BitVec 11)} {s :
    State} (hk : Keep p s) :
    KeepR p (execHeaderCheck ch d pre symbols s) := by
  unfold execHeaderCheck
  try dsimp only
  repeat' first
    | with_reducible assumption | with_reducible exact Keep.refl _ | with_reducible apply keep_done
    | with_reducible apply keep_headerCheck

theorem keep_execCrewFailure {p : State} {crew : Fin 12} {s : State} (hk : Keep p s) :
    KeepR p (execCrewFailure crew s) := by
  unfold execCrewFailure
  try dsimp only
  repeat' first
    | with_reducible assumption | with_reducible exact Keep.refl _ | with_reducible apply keep_done
    | with_reducible apply keep_crewFailureOp

theorem keep_execInjectionExpiry {p : State} {s : State} (hk : Keep p s) :
    KeepR p (execInjectionExpiry s) := by
  unfold execInjectionExpiry
  try dsimp only
  repeat' first
    | with_reducible assumption | with_reducible exact Keep.refl _ | with_reducible apply keep_done
    | with_reducible apply keep_injectionExpiry

theorem keep_execNoiseFloorPeriod {p : State} {ch : Fin 256} {power : BitVec 32} {s : State} (hk : Keep p s) :
    KeepR p (execNoiseFloorPeriod ch power s) := by
  unfold execNoiseFloorPeriod
  try dsimp only
  repeat' first
    | with_reducible assumption | with_reducible exact Keep.refl _ | with_reducible apply keep_done
    | with_reducible apply keep_noisePeriod

theorem keep_execTaskReady {p : State} {task : BitVec 16} {s : State} (hk : Keep p s) :
    KeepR p (execTaskReady task s) := by
  unfold execTaskReady
  try dsimp only
  repeat' first
    | with_reducible assumption | with_reducible exact Keep.refl _ | with_reducible apply keep_done
    | with_reducible apply keep_rescueEval | with_reducible apply keep_readyOp

theorem keep_execCssCntClear {p : State} {ch : Fin 256} {s : State} (hk : Keep p s) :
    KeepR p (execCssCntClear ch s) := by
  unfold execCssCntClear
  try dsimp only
  repeat' first
    | with_reducible assumption | with_reducible exact Keep.refl _ | with_reducible apply keep_done
    | with_reducible apply keep_cssClear

theorem keep_execWaitProg {p : State} {ch : Fin 64} {s : State} (hk : Keep p s) :
    KeepR p (execWaitProg ch s) := by
  unfold execWaitProg
  try dsimp only
  repeat' first
    | with_reducible assumption | with_reducible exact Keep.refl _ | with_reducible apply keep_done
    | with_reducible apply keep_dmaInstr | with_reducible apply keep_dmaWaitOp

theorem keep_execFaultInject {p : State} {r : Request} {s : State} (hk : Keep p s) :
    KeepR p (execFaultInject r s) := by
  unfold execFaultInject
  try dsimp only
  repeat' first
    | with_reducible assumption | with_reducible exact Keep.refl _ | with_reducible apply keep_done
    | with_reducible apply keep_faultInjectOp

theorem keep_execFwdLegRemove {p : State} {r : Request} {s : State} (hk : Keep p s) :
    KeepR p (execFwdLegRemove r s) := by
  unfold execFwdLegRemove
  try dsimp only
  repeat' first
    | with_reducible assumption | with_reducible exact Keep.refl _ | with_reducible apply keep_done
    | with_reducible apply keep_fwdRemoveOp

theorem keep_execTxDequeue {p : State} {g : Fin 256} {s : State} (hk : Keep p s) :
    KeepR p (execTxDequeue g s) := by
  unfold execTxDequeue
  try dsimp only
  repeat' first
    | with_reducible assumption | with_reducible exact Keep.refl _ | with_reducible apply keep_done
    | with_reducible apply keep_txDequeue

theorem keep_execEthFrameReceived {p : State} {n : Fin 49} {len : BitVec 16} {fcs pause : Bool} {fec : FecCount} {clock : RxClock} {frame : EthFrame} {s : State} (hk : Keep p s) :
    KeepR p (execEthFrameReceived n len fcs pause fec clock frame s) := by
  unfold execEthFrameReceived
  try dsimp only
  repeat' first
    | with_reducible assumption | with_reducible exact Keep.refl _ | with_reducible apply keep_done
    | with_reducible apply keep_ethReceive

theorem keep_execLayoutSet {p : State} {r : Request} {s : State} (hk : Keep p s) :
    KeepR p (execLayoutSet r s) := by
  unfold execLayoutSet
  try dsimp only
  repeat' first
    | with_reducible assumption | with_reducible exact Keep.refl _ | with_reducible apply keep_done
    | with_reducible apply keep_layoutSetOp

theorem keep_execPpsInputInvalid {p : State} {n : Fin 4} {s : State} (hk : Keep p s) :
    KeepR p (execPpsInputInvalid n s) := by
  unfold execPpsInputInvalid
  try dsimp only
  repeat' first
    | with_reducible assumption | with_reducible exact Keep.refl _ | with_reducible apply keep_done
    | with_reducible apply keep_ppsMissing

theorem keep_execCrewRetire {p : State} {r : Request} {s : State} (hk : Keep p s) :
    KeepR p (execCrewRetire r s) := by
  unfold execCrewRetire
  try dsimp only
  repeat' first
    | with_reducible assumption | with_reducible exact Keep.refl _ | with_reducible apply keep_done
    | with_reducible apply keep_crewRetireOp

theorem keep_execTagSet {p : State} {r : Request} {s : State} (hk : Keep p s) :
    KeepR p (execTagSet r s) := by
  unfold execTagSet
  try dsimp only
  repeat' first
    | with_reducible assumption | with_reducible exact Keep.refl _ | with_reducible apply keep_done
    | with_reducible apply keep_tagSetOp

theorem keep_execRejoined {p : State} {s : State} (hk : Keep p s) :
    KeepR p (execRejoined s) := by
  unfold execRejoined
  try dsimp only
  repeat' first
    | with_reducible assumption | with_reducible exact Keep.refl _ | with_reducible apply keep_done
    | with_reducible apply keep_rejoinOp

theorem keep_execStreamPacket {p : State} {n : Fin 512} {s : State} (hk : Keep p s) :
    KeepR p (execStreamPacket n s) := by
  unfold execStreamPacket
  try dsimp only
  repeat' first
    | with_reducible assumption | with_reducible exact Keep.refl _ | with_reducible apply keep_done
    | with_reducible apply keep_streamPacket

theorem keep_execChirpGroupStopped {p : State} {g : Fin 256} {s : State} (hk : Keep p s) :
    KeepR p (execChirpGroupStopped g s) := by
  unfold execChirpGroupStopped
  try dsimp only
  repeat' first
    | with_reducible assumption | with_reducible exact Keep.refl _ | with_reducible apply keep_done
    | with_reducible apply keep_chirpStopped

theorem keep_execTx2110Picture {p : State} {k : Fin 4096} {s : State} (hk : Keep p s) :
    KeepR p (execTx2110Picture k s) := by
  unfold execTx2110Picture
  try dsimp only
  repeat' first
    | with_reducible assumption | with_reducible exact Keep.refl _ | with_reducible apply keep_done
    | with_reducible apply keep_tx2110

theorem keep_execCipherTask {p : State} {engine : Fin 4} {s : State} (hk : Keep p s) :
    KeepR p (execCipherTask engine s) := by
  unfold execCipherTask
  try dsimp only
  repeat' first
    | with_reducible assumption | with_reducible exact Keep.refl _ | with_reducible apply keep_done
    | with_reducible apply keep_engineWork | with_reducible apply keep_cipherRun

theorem keep_execLdpcEncode {p : State} {engine : Fin 8} {s : State} (hk : Keep p s) :
    KeepR p (execLdpcEncode engine s) := by
  unfold execLdpcEncode
  try dsimp only
  repeat' first
    | with_reducible assumption | with_reducible exact Keep.refl _ | with_reducible apply keep_done
    | with_reducible apply keep_engineWork | with_reducible apply keep_ldpcEncode

theorem keep_execBupexIdleExit {p : State} {l : Fin 6} {valid : Bool} {s : State} (hk : Keep p s) :
    KeepR p (execBupexIdleExit l valid s) := by
  unfold execBupexIdleExit
  try dsimp only
  repeat' first
    | with_reducible assumption | with_reducible exact Keep.refl _ | with_reducible apply keep_done
    | with_reducible apply keep_idleExit

theorem keep_execBridgeGroupStopped {p : State} {g : Fin 512} {s : State} (hk : Keep p s) :
    KeepR p (execBridgeGroupStopped g s) := by
  unfold execBridgeGroupStopped
  try dsimp only
  repeat' first
    | with_reducible assumption | with_reducible exact Keep.refl _ | with_reducible apply keep_done
    | with_reducible apply keep_bridgeStopped

theorem keep_execDomainEntryComplete {p : State} {d : Fin 38} {s : State} (hk : Keep p s) :
    KeepR p (execDomainEntryComplete d s) := by
  unfold execDomainEntryComplete
  try dsimp only
  repeat' first
    | with_reducible assumption | with_reducible exact Keep.refl _ | with_reducible apply keep_done
    | with_reducible apply keep_powerComplete | with_reducible apply keep_entryComplete

theorem keep_execBandSampleMessage {p : State} {port : Fin 48} {eaxc : BitVec 16} {last : BitVec 64} {s : State} (hk :
    Keep p s) :
    KeepR p (execBandSampleMessage port eaxc last s) := by
  unfold execBandSampleMessage
  try dsimp only
  repeat' first
    | with_reducible assumption | with_reducible exact Keep.refl _ | with_reducible apply keep_done
    | with_reducible apply keep_bandMessage

theorem keep_execTempSensorUpdate {p : State} {k : Fin 16} {v : BitVec 13} {s : State} (hk : Keep p s) :
    KeepR p (execTempSensorUpdate k v s) := by
  unfold execTempSensorUpdate
  try dsimp only
  repeat' first
    | with_reducible assumption | with_reducible exact Keep.refl _ | with_reducible apply keep_done
    | with_reducible apply keep_tempUpdate

theorem keep_execDmaArm {p : State} {ch : Fin 64} {s : State} (hk : Keep p s) :
    KeepR p (execDmaArm ch s) := by
  unfold execDmaArm
  try dsimp only
  repeat' first
    | with_reducible assumption | with_reducible exact Keep.refl _ | with_reducible apply keep_done
    | with_reducible apply keep_dmaPut

theorem keep_execAccessoryDetection {p : State} {n : Fin 2} {t r1 short onS onR2 : BitVec 32} {s : State} (hk : Keep p
    s) :
    KeepR p (execAccessoryDetection n t r1 short onS onR2 s) := by
  unfold execAccessoryDetection
  try dsimp only
  repeat' first
    | with_reducible assumption | with_reducible exact Keep.refl _ | with_reducible apply keep_done
    | with_reducible apply keep_hspDetect

theorem keep_execDetection {p : State} {ch : Fin 256} {so : Fin 12} {chirps : List UpChirp} {newest : UpChirp} {checks : List (Fin 8 ×
    SyncSeen × List (BitVec 11))} {frames : List (BitVec 16)} {part : RxData} {s : State} (hk : Keep p s) :
    KeepR p (execDetection ch so chirps newest checks frames part s) := by
  unfold execDetection
  try dsimp only
  repeat' first
    | with_reducible assumption | with_reducible exact Keep.refl _ | with_reducible apply keep_done
    | with_reducible apply keep_detection

theorem keep_execHandoverCycle {p : State} {ch : Fin 64} {s : State} (hk : Keep p s) :
    KeepR p (execHandoverCycle ch s) := by
  unfold execHandoverCycle
  try dsimp only
  repeat' first
    | with_reducible assumption | with_reducible exact Keep.refl _ | with_reducible apply keep_done
    | with_reducible apply keep_dmaHandover

theorem keep_execUplaneMessage {p : State} {port : Fin 48} {eaxc : BitVec 16} {seq : BitVec 8} {slot : BitVec 48} {sym
    : Fin 14} {first : Fin 273} {prbs : List Prb} {s : State} (hk : Keep p s) :
    KeepR p (execUplaneMessage port eaxc seq slot sym first prbs s) := by
  unfold execUplaneMessage
  try dsimp only
  repeat' first
    | with_reducible assumption | with_reducible exact Keep.refl _ | with_reducible apply keep_done
    | with_reducible apply keep_uplaneMessage

theorem keep_execPictureDecode {p : State} {k : Fin 4096} {s : State} (hk : Keep p s) :
    KeepR p (execPictureDecode k s) := by
  unfold execPictureDecode
  try dsimp only
  repeat' first
    | with_reducible assumption | with_reducible exact Keep.refl _ | with_reducible apply keep_done
    | with_reducible apply keep_pictureDecode

theorem keep_execTimeGet {p : State} {r : Request} {s : State} (hk : Keep p s) :
    KeepR p (execTimeGet r s) := by
  unfold execTimeGet
  try dsimp only
  repeat' first
    | with_reducible assumption | with_reducible exact Keep.refl _ | with_reducible apply keep_done
    | with_reducible apply keep_timeGetOp

theorem keep_execServiceSet {p : State} {r : Request} {s : State} (hk : Keep p s) :
    KeepR p (execServiceSet r s) := by
  unfold execServiceSet
  try dsimp only
  repeat' first
    | with_reducible assumption | with_reducible exact Keep.refl _ | with_reducible apply keep_done
    | with_reducible apply keep_serviceSetOp

theorem keep_execCarrierStopped {p : State} {c : Fin 64} {s : State} (hk : Keep p s) :
    KeepR p (execCarrierStopped c s) := by
  unfold execCarrierStopped
  try dsimp only
  repeat' first
    | with_reducible assumption | with_reducible exact Keep.refl _ | with_reducible apply keep_done
    | with_reducible apply keep_carrierStopped

theorem keep_execSignalProg {p : State} {ch : Fin 64} {s : State} (hk : Keep p s) :
    KeepR p (execSignalProg ch s) := by
  unfold execSignalProg
  try dsimp only
  repeat' first
    | with_reducible assumption | with_reducible exact Keep.refl _ | with_reducible apply keep_done
    | with_reducible apply keep_dmaInstr | with_reducible apply keep_dmaSignal

theorem keep_execAccessUnit {p : State} {k : Fin 4096} {s : State} (hk : Keep p s) :
    KeepR p (execAccessUnit k s) := by
  unfold execAccessUnit
  try dsimp only
  repeat' first
    | with_reducible assumption | with_reducible exact Keep.refl _ | with_reducible apply keep_done
    | with_reducible apply keep_accessUnit

theorem keep_execChirpStats {p : State} {r : Request} {s : State} (hk : Keep p s) :
    KeepR p (execChirpStats r s) := by
  unfold execChirpStats
  try dsimp only
  repeat' first
    | with_reducible assumption | with_reducible exact Keep.refl _ | with_reducible apply keep_done
    | with_reducible apply keep_chirpStatsOp

theorem keep_execHspInsertion {p : State} {plug : PlugHeld} {s : State} (hk : Keep p s) :
    KeepR p (execHspInsertion plug s) := by
  unfold execHspInsertion
  try dsimp only
  repeat' first
    | with_reducible assumption | with_reducible exact Keep.refl _ | with_reducible apply keep_done
    | with_reducible apply keep_hspInsert

theorem keep_execTagGet {p : State} {r : Request} {s : State} (hk : Keep p s) :
    KeepR p (execTagGet r s) := by
  unfold execTagGet
  try dsimp only
  repeat' first
    | with_reducible assumption | with_reducible exact Keep.refl _ | with_reducible apply keep_done
    | with_reducible apply keep_tagGetOp

theorem keep_execRegionStartLoad {p : State} {r : Fin 96} {s : State} (hk : Keep p s) :
    KeepR p (execRegionStartLoad r s) := by
  unfold execRegionStartLoad
  try dsimp only
  repeat' first
    | with_reducible assumption | with_reducible exact Keep.refl _ | with_reducible apply keep_done
    | with_reducible apply keep_regionLoad

theorem keep_execCreditSync {p : State} {src dst : Fin 64} {s : State} (hk : Keep p s) :
    KeepR p (execCreditSync src dst s) := by
  unfold execCreditSync
  try dsimp only
  repeat' first
    | with_reducible assumption | with_reducible exact Keep.refl _ | with_reducible apply keep_done
    | with_reducible apply keep_creditSync

theorem keep_execEcpriDelayMeasurement {p : State} {port : Fin 48} {received : Bool} {id : BitVec 8} {s : State} (hk :
    Keep p s) :
    KeepR p (execEcpriDelayMeasurement port received id s) := by
  unfold execEcpriDelayMeasurement
  try dsimp only
  repeat' first
    | with_reducible assumption | with_reducible exact Keep.refl _ | with_reducible apply keep_done
    | with_reducible apply keep_delayMeasurement

theorem keep_execLanePrbsErrLo {p : State} {lane : Fin 48} {errors : Bool} {s : State} (hk : Keep p s) :
    KeepR p (execLanePrbsErrLo lane errors s) := by
  unfold execLanePrbsErrLo
  try dsimp only
  repeat' first
    | with_reducible assumption | with_reducible exact Keep.refl _ | with_reducible apply keep_done
    | with_reducible apply keep_prbsRead

theorem keep_execAudioClearAll {p : State} {s : State} (hk : Keep p s) :
    KeepR p (execAudioClearAll s) := by
  unfold execAudioClearAll
  try dsimp only
  repeat' first
    | with_reducible assumption | with_reducible exact Keep.refl _ | with_reducible apply keep_done
    | with_reducible apply keep_audioClear

theorem keep_execShuttleDec {p : State} {i : Initiator} {task : BitVec 16} {count : BitVec 12} {s : State} (hk : Keep p
    s) :
    KeepR p (execShuttleDec i task count s) := by
  unfold execShuttleDec
  try dsimp only
  repeat' first
    | with_reducible assumption | with_reducible exact Keep.refl _ | with_reducible apply keep_done
    | with_reducible apply keep_notify

theorem keep_execFabricSpRx {p : State} {p_ : Fin 12} {s : State} (hk : Keep p s) :
    KeepR p (execFabricSpRx p_ s) := by
  unfold execFabricSpRx
  try dsimp only
  repeat' first
    | with_reducible assumption | with_reducible exact Keep.refl _ | with_reducible apply keep_done
    | with_reducible apply keep_spRx

theorem keep_execDozeEntry {p : State} {d : Fin 38} {s : State} (hk : Keep p s) :
    KeepR p (execDozeEntry d s) := by
  unfold execDozeEntry
  try dsimp only
  repeat' first
    | with_reducible assumption | with_reducible exact Keep.refl _ | with_reducible apply keep_done
    | with_reducible apply keep_powerComplete | with_reducible apply keep_dozeEntry

theorem keep_execPowerRestored {p : State} {s : State} (hk : Keep p s) :
    KeepR p (execPowerRestored s) := by
  unfold execPowerRestored
  try dsimp only
  repeat' first
    | with_reducible assumption | with_reducible exact Keep.refl _ | with_reducible apply keep_done
    | with_reducible apply keep_powerRestored

theorem keep_execCoxPpsInTsLo {p : State} {n : Fin 4} {s : State} (hk : Keep p s) :
    KeepR p (execCoxPpsInTsLo n s) := by
  unfold execCoxPpsInTsLo
  try dsimp only
  repeat' first
    | with_reducible assumption | with_reducible exact Keep.refl _ | with_reducible apply keep_done
    | with_reducible apply keep_ppsTsRead

theorem keep_execServiceReq {p : State} {value : BitVec 2} {s : State} (hk : Keep p s) :
    KeepR p (execServiceReq value s) := by
  unfold execServiceReq
  try dsimp only
  repeat' first
    | with_reducible assumption | with_reducible exact Keep.refl _ | with_reducible apply keep_done
    | with_reducible apply keep_serviceReqOp

theorem keep_execCplaneSend {p : State} {c : Fin 64} {slot : BitVec 48} {msgs : List (Fin 48 × List (BitVec 8))} {s :
    State} (hk : Keep p s) :
    KeepR p (execCplaneSend c slot msgs s) := by
  unfold execCplaneSend
  try dsimp only
  repeat' first
    | with_reducible assumption | with_reducible exact Keep.refl _ | with_reducible apply keep_done
    | with_reducible apply keep_cplaneSend

theorem keep_execBridgeGroupRunning {p : State} {g : Fin 512} {s : State} (hk : Keep p s) :
    KeepR p (execBridgeGroupRunning g s) := by
  unfold execBridgeGroupRunning
  try dsimp only
  repeat' first
    | with_reducible assumption | with_reducible exact Keep.refl _ | with_reducible apply keep_done
    | with_reducible apply keep_bridgeRunning

theorem keep_execLegKeySet {p : State} {r : Request} {s : State} (hk : Keep p s) :
    KeepR p (execLegKeySet r s) := by
  unfold execLegKeySet
  try dsimp only
  repeat' first
    | with_reducible assumption | with_reducible exact Keep.refl _ | with_reducible apply keep_done
    | with_reducible apply keep_legKeyOp

theorem keep_execNvWrite {p : State} {r : Request} {s : State} (hk : Keep p s) :
    KeepR p (execNvWrite r s) := by
  unfold execNvWrite
  try dsimp only
  repeat' first
    | with_reducible assumption | with_reducible exact Keep.refl _ | with_reducible apply keep_done
    | with_reducible apply keep_nvOp

theorem keep_execDecodeDeadlineMiss {p : State} {c : Fin 64} {block : MissedBlock} {s : State}
    (hk : Keep p s) :
    KeepR p (execDecodeDeadlineMiss c block s) := by
  unfold execDecodeDeadlineMiss
  try dsimp only
  repeat' first
    | with_reducible assumption | with_reducible exact Keep.refl _ | with_reducible apply keep_done
    | with_reducible apply keep_decodeMiss

theorem keep_execHandsetRemove {p : State} {r : Request} {s : State} (hk : Keep p s) :
    KeepR p (execHandsetRemove r s) := by
  unfold execHandsetRemove
  try dsimp only
  repeat' first
    | with_reducible assumption | with_reducible exact Keep.refl _ | with_reducible apply keep_done
    | with_reducible apply keep_handsetRemoveOp

theorem keep_execGatewayHeadFlit {p : State} {src dst : Fin 64} {vc : Fin 4} {pkt : WeftPacket} {bad corrected : Option (Fin 64 × Fin 5)} {s : State} (hk :
    Keep p s) :
    KeepR p (execGatewayHeadFlit src dst vc pkt bad corrected s) := by
  unfold execGatewayHeadFlit
  try dsimp only
  repeat' first
    | with_reducible assumption | with_reducible exact Keep.refl _ | with_reducible apply keep_done
    | with_reducible apply keep_headFlit

theorem keep_execEndloop {p : State} {ch : Fin 64} {s : State} (hk : Keep p s) :
    KeepR p (execEndloop ch s) := by
  unfold execEndloop
  try dsimp only
  repeat' first
    | with_reducible assumption | with_reducible exact Keep.refl _ | with_reducible apply keep_done
    | with_reducible apply keep_dmaInstr | with_reducible apply keep_dmaEndLoop

theorem keep_execShuttleArm {p : State} {task : BitVec 16} {s : State} (hk : Keep p s) :
    KeepR p (execShuttleArm task s) := by
  unfold execShuttleArm
  try dsimp only
  repeat' first
    | with_reducible assumption | with_reducible exact Keep.refl _ | with_reducible apply keep_done
    | with_reducible apply keep_armOp

theorem keep_execTagRemove {p : State} {r : Request} {s : State} (hk : Keep p s) :
    KeepR p (execTagRemove r s) := by
  unfold execTagRemove
  try dsimp only
  repeat' first
    | with_reducible assumption | with_reducible exact Keep.refl _ | with_reducible apply keep_done
    | with_reducible apply keep_tagRemoveOp

theorem keep_execCarrierRunning {p : State} {c : Fin 64} {s : State} (hk : Keep p s) :
    KeepR p (execCarrierRunning c s) := by
  unfold execCarrierRunning
  try dsimp only
  repeat' first
    | with_reducible assumption | with_reducible exact Keep.refl _ | with_reducible apply keep_done
    | with_reducible apply keep_carrierRunning

theorem keep_execForecastRelay {p : State} {device : BitVec 12} {record : List (BitVec 8)} {s : State} (hk : Keep p s) :
    KeepR p (execForecastRelay device record s) := by
  unfold execForecastRelay
  try dsimp only
  repeat' first
    | with_reducible assumption | with_reducible exact Keep.refl _ | with_reducible apply keep_done
    | with_reducible apply keep_forecastRelay

theorem keep_execTaskDispatch {p : State} {to_ : DispatchTo} {s : State} (hk : Keep p s) :
    KeepR p (execTaskDispatch to_ s) := by
  unfold execTaskDispatch
  try dsimp only
  repeat' first
    | with_reducible assumption | with_reducible exact Keep.refl _ | with_reducible apply keep_done
    | with_reducible apply keep_rescueEval | with_reducible apply keep_dispatchCore
    | with_reducible apply keep_dispatchPool | with_reducible apply keep_dmaStage | split

theorem keep_execPolarDecode {p : State} {engine : Fin 8} {s : State} (hk : Keep p s) :
    KeepR p (execPolarDecode engine s) := by
  unfold execPolarDecode
  try dsimp only
  repeat' first
    | with_reducible assumption | with_reducible exact Keep.refl _ | with_reducible apply keep_done
    | with_reducible apply keep_engineWork | with_reducible apply keep_polarRun

theorem keep_execForecastRecord {p : State} {c : Fin 64} {s : State} (hk : Keep p s) :
    KeepR p (execForecastRecord c s) := by
  unfold execForecastRecord
  try dsimp only
  repeat' first
    | with_reducible assumption | with_reducible exact Keep.refl _ | with_reducible apply keep_done
    | with_reducible apply keep_forecastRecordOp

theorem keep_execReceptionEnd {p : State} {ch : Fin 256} {d : Fin 8} {data : RxData} {s : State} (hk : Keep p s) :
    KeepR p (execReceptionEnd ch d data s) := by
  unfold execReceptionEnd
  try dsimp only
  repeat' first
    | with_reducible assumption | with_reducible exact Keep.refl _ | with_reducible apply keep_done
    | with_reducible apply keep_receptionEnd

theorem keep_execLegStats {p : State} {r : Request} {s : State} (hk : Keep p s) :
    KeepR p (execLegStats r s) := by
  unfold execLegStats
  try dsimp only
  repeat' first
    | with_reducible assumption | with_reducible exact Keep.refl _ | with_reducible apply keep_done
    | with_reducible apply keep_legStatsOp

theorem keep_execAbortCh {p : State} {ch : Fin 64} {s : State} (hk : Keep p s) :
    KeepR p (execAbortCh ch s) := by
  unfold execAbortCh
  try dsimp only
  repeat' first
    | with_reducible assumption | with_reducible exact Keep.refl _ | with_reducible apply keep_done
    | with_reducible apply keep_dmaAbort

theorem keep_execWaitContinue {p : State} {ch : Fin 64} {s : State} (hk : Keep p s) :
    KeepR p (execWaitContinue ch s) := by
  unfold execWaitContinue
  try dsimp only
  repeat' first
    | with_reducible assumption | with_reducible exact Keep.refl _ | with_reducible apply keep_done
    | with_reducible apply keep_dmaContinue

theorem keep_execEngineCompletion {p : State} {engine : Fin 44} {s : State} (hk : Keep p s) :
    KeepR p (execEngineCompletion engine s) := by
  unfold execEngineCompletion
  try dsimp only
  repeat' first
    | with_reducible assumption | with_reducible exact Keep.refl _ | with_reducible apply keep_done
    | with_reducible apply keep_engineCompletionOp

theorem keep_execTxFrameLaunch {p : State} {m : Fin 64} {parts : List (Fin 256 × Fin 8 × RxData)} {s : State} (hk :
    Keep p s) :
    KeepR p (execTxFrameLaunch m parts s) := by
  unfold execTxFrameLaunch
  try dsimp only
  repeat' first
    | with_reducible assumption | with_reducible exact Keep.refl _ | with_reducible apply keep_done
    | with_reducible apply keep_txLaunch

theorem keep_execAnnounce {p : State} {p_ : Fin 16} {a : Announce} {s : State} (hk : Keep p s) :
    KeepR p (execAnnounce p_ a s) := by
  unfold execAnnounce
  try dsimp only
  repeat' first
    | with_reducible assumption | with_reducible exact Keep.refl _ | with_reducible apply keep_done
    | with_reducible apply keep_announceOp

theorem keep_execDomainEntry {p : State} {d : Fin 38} {upto : Fin 7} {s : State} (hk : Keep p s) :
    KeepR p (execDomainEntry d upto s) := by
  unfold execDomainEntry
  try dsimp only
  repeat' first
    | with_reducible assumption | with_reducible exact Keep.refl _ | with_reducible apply keep_done
    | with_reducible apply keep_powerComplete | with_reducible apply keep_entrySteps

theorem keep_execLaneParityActive {p : State} {lane : Fin 48} {s : State} (hk : Keep p s) :
    KeepR p (execLaneParityActive lane s) := by
  unfold execLaneParityActive
  try dsimp only
  repeat' first
    | with_reducible assumption | with_reducible exact Keep.refl _ | with_reducible apply keep_done
    | with_reducible apply keep_laneLost

theorem keep_execInputFrame {p : State} {g : Fin 512} {s : State} (hk : Keep p s) :
    KeepR p (execInputFrame g s) := by
  unfold execInputFrame
  try dsimp only
  repeat' first
    | with_reducible assumption | with_reducible exact Keep.refl _ | with_reducible apply keep_done
    | with_reducible apply keep_inputFrame

theorem keep_execIdleTimerExpiry {p : State} {d : Fin 38} {which : Fin 3} {s : State} (hk : Keep p s) :
    KeepR p (execIdleTimerExpiry d which s) := by
  unfold execIdleTimerExpiry
  try dsimp only
  repeat' first
    | with_reducible assumption | with_reducible exact Keep.refl _ | with_reducible apply keep_done
    | with_reducible apply keep_idleExpiry

theorem keep_execProxyEnqueue {p : State} {q : BitVec 16} {s : State} (hk : Keep p s) :
    KeepR p (execProxyEnqueue q s) := by
  unfold execProxyEnqueue
  try dsimp only
  repeat' first
    | with_reducible assumption | with_reducible exact Keep.refl _ | with_reducible apply keep_done
    | with_reducible apply keep_proxyEnqueue

theorem keep_execMicMeasurement {p : State} {n : Fin 2} {ohms : BitVec 32} {s : State} (hk : Keep p s) :
    KeepR p (execMicMeasurement n ohms s) := by
  unfold execMicMeasurement
  try dsimp only
  repeat' first
    | with_reducible assumption | with_reducible exact Keep.refl _ | with_reducible apply keep_done
    | with_reducible apply keep_micMeasure

theorem keep_execFwdLegAdd {p : State} {r : Request} {s : State} (hk : Keep p s) :
    KeepR p (execFwdLegAdd r s) := by
  unfold execFwdLegAdd
  try dsimp only
  repeat' first
    | with_reducible assumption | with_reducible exact Keep.refl _ | with_reducible apply keep_done
    | with_reducible apply keep_fwdAddOp

theorem keep_execWakeRequest {p : State} {d : Fin 38} {w : WakeSource} {s : State} (hk : Keep p s) :
    KeepR p (execWakeRequest d w s) := by
  unfold execWakeRequest
  try dsimp only
  repeat' first
    | with_reducible assumption | with_reducible exact Keep.refl _ | with_reducible apply keep_done
    | with_reducible apply keep_powerComplete | with_reducible apply keep_wakeSource

theorem keep_execFaultClear {p : State} {r : Request} {s : State} (hk : Keep p s) :
    KeepR p (execFaultClear r s) := by
  unfold execFaultClear
  try dsimp only
  repeat' first
    | with_reducible assumption | with_reducible exact Keep.refl _ | with_reducible apply keep_done
    | with_reducible apply keep_faultClearOp

theorem keep_execTaskSetStopped {p : State} {index : BitVec 16} {s : State} (hk : Keep p s) :
    KeepR p (execTaskSetStopped index s) := by
  unfold execTaskSetStopped
  try dsimp only
  repeat' first
    | with_reducible assumption | with_reducible exact Keep.refl _ | with_reducible apply keep_done
    | with_reducible apply keep_taskSetStoppedOp

theorem keep_execOscEnable {p : State} {n : Fin 4} {value : BitVec 32} {s : State} (hk : Keep p s) :
    KeepR p (execOscEnable n value s) := by
  unfold execOscEnable
  try dsimp only
  repeat' first
    | with_reducible assumption | with_reducible exact Keep.refl _ | with_reducible apply keep_done
    | with_reducible apply keep_oscWrite

theorem keep_execPpsNoEdge {p : State} {s : State} (hk : Keep p s) :
    KeepR p (execPpsNoEdge s) := by
  unfold execPpsNoEdge
  try dsimp only
  repeat' first
    | with_reducible assumption | with_reducible exact Keep.refl _ | with_reducible apply keep_done
    | with_reducible apply keep_ppsNoEdge

theorem keep_execHandsetModify {p : State} {r : Request} {s : State} (hk : Keep p s) :
    KeepR p (execHandsetModify r s) := by
  unfold execHandsetModify
  try dsimp only
  repeat' first
    | with_reducible assumption | with_reducible exact Keep.refl _ | with_reducible apply keep_done
    | with_reducible apply keep_handsetModifyOp

theorem keep_execForecastStale {p : State} {l : Fin 4096} {s : State} (hk : Keep p s) :
    KeepR p (execForecastStale l s) := by
  unfold execForecastStale
  try dsimp only
  repeat' first
    | with_reducible assumption | with_reducible exact Keep.refl _ | with_reducible apply keep_done
    | with_reducible apply keep_forecastStale

theorem keep_execFwdClearAll {p : State} {s : State} (hk : Keep p s) :
    KeepR p (execFwdClearAll s) := by
  unfold execFwdClearAll
  try dsimp only
  repeat' first
    | with_reducible assumption | with_reducible exact Keep.refl _ | with_reducible apply keep_done
    | with_reducible apply keep_fwdClear

theorem keep_execDelayResp {p : State} {p_ : Fin 16} {msg : PtpTimed} {corr : Int} {s :
    State} (hk : Keep p s) :
    KeepR p (execDelayResp p_ msg corr s) := by
  unfold execDelayResp
  try dsimp only
  repeat' first
    | with_reducible assumption | with_reducible exact Keep.refl _ | with_reducible apply keep_done
    | with_reducible apply keep_delayResp

theorem keep_execEndProg {p : State} {ch : Fin 64} {s : State} (hk : Keep p s) :
    KeepR p (execEndProg ch s) := by
  unfold execEndProg
  try dsimp only
  repeat' first
    | with_reducible assumption | with_reducible exact Keep.refl _ | with_reducible apply keep_done
    | with_reducible apply keep_dmaInstr | with_reducible apply keep_dmaEnd

theorem keep_execHandsetAdd {p : State} {r : Request} {s : State} (hk : Keep p s) :
    KeepR p (execHandsetAdd r s) := by
  unfold execHandsetAdd
  try dsimp only
  repeat' first
    | with_reducible assumption | with_reducible exact Keep.refl _ | with_reducible apply keep_done
    | with_reducible apply keep_handsetAddOp

theorem keep_execMonitorSample {p : State} {m : Fin 8} {level : BitVec 16} {s : State} (hk : Keep p s) :
    KeepR p (execMonitorSample m level s) := by
  unfold execMonitorSample
  try dsimp only
  repeat' first
    | with_reducible assumption | with_reducible exact Keep.refl _ | with_reducible apply keep_done
    | with_reducible apply keep_monitorSample

theorem keep_execSubsumReceived {p : State} {g : Fin 512} {device : BitVec 12} {block : BitVec 64} {samples : List
    (BitVec 64)} {s : State} (hk : Keep p s) :
    KeepR p (execSubsumReceived g device block samples s) := by
  unfold execSubsumReceived
  try dsimp only
  repeat' first
    | with_reducible assumption | with_reducible exact Keep.refl _ | with_reducible apply keep_done
    | with_reducible apply keep_subsumReceived

theorem keep_execLdpcDecode {p : State} {engine : Fin 24} {s : State} (hk : Keep p s) :
    KeepR p (execLdpcDecode engine s) := by
  unfold execLdpcDecode
  try dsimp only
  repeat' first
    | with_reducible assumption | with_reducible exact Keep.refl _ | with_reducible apply keep_done
    | with_reducible apply keep_engineWork | with_reducible apply keep_ldpcDecode

theorem keep_execPartitioned {p : State} {s : State} (hk : Keep p s) :
    KeepR p (execPartitioned s) := by
  unfold execPartitioned
  try dsimp only
  repeat' first
    | with_reducible assumption | with_reducible exact Keep.refl _ | with_reducible apply keep_done
    | with_reducible apply keep_partitionOp

theorem keep_execLegAdd {p : State} {r : Request} {s : State} (hk : Keep p s) :
    KeepR p (execLegAdd r s) := by
  unfold execLegAdd
  try dsimp only
  repeat' first
    | with_reducible assumption | with_reducible exact Keep.refl _ | with_reducible apply keep_done
    | with_reducible apply keep_legAddOp

theorem keep_execParamDescriptor {p : State} {s : State} (hk : Keep p s) :
    KeepR p (execParamDescriptor s) := by
  unfold execParamDescriptor
  try dsimp only
  repeat' first
    | with_reducible assumption | with_reducible exact Keep.refl _ | with_reducible apply keep_done
    | with_reducible apply keep_paramDescriptor

theorem keep_execKeyRequest {p : State} {l : Fin 4096} {s : State} (hk : Keep p s) :
    KeepR p (execKeyRequest l s) := by
  unfold execKeyRequest
  try dsimp only
  repeat' first
    | with_reducible assumption | with_reducible exact Keep.refl _ | with_reducible apply keep_done
    | with_reducible apply keep_keyRequest

theorem keep_execSerialPortByteReceived {p : State} {p_ : Fin 12} {e : SpEvent} {s : State} (hk : Keep p s) :
    KeepR p (execSerialPortByteReceived p_ e s) := by
  unfold execSerialPortByteReceived
  try dsimp only
  repeat' first
    | with_reducible assumption | with_reducible exact Keep.refl _ | with_reducible apply keep_done
    | with_reducible apply keep_spReceived

theorem keep_execStrobe {p : State} {strobe : Strobe} {s : State} (hk : Keep p s) :
    KeepR p (execStrobe strobe s) := by
  unfold execStrobe
  try dsimp only
  repeat' first
    | with_reducible assumption | with_reducible exact Keep.refl _ | with_reducible apply keep_done
    | with_reducible apply keep_strobeOp

theorem keep_execPendingInstanceCreate {p : State} {task : BitVec 16} {s : State} (hk : Keep p s) :
    KeepR p (execPendingInstanceCreate task s) := by
  unfold execPendingInstanceCreate
  try dsimp only
  repeat' first
    | with_reducible assumption | with_reducible exact Keep.refl _ | with_reducible apply keep_done
    | with_reducible apply keep_drainPending

theorem keep_execBupexLinkDown {p : State} {l : Fin 6} {s : State} (hk : Keep p s) :
    KeepR p (execBupexLinkDown l s) := by
  unfold execBupexLinkDown
  try dsimp only
  repeat' first
    | with_reducible assumption | with_reducible exact Keep.refl _ | with_reducible apply keep_done
    | with_reducible apply keep_linkTimeout

theorem keep_execLayerRateMeasure {p : State} {s : State} (hk : Keep p s) :
    KeepR p (execLayerRateMeasure s) := by
  unfold execLayerRateMeasure
  try dsimp only
  repeat' first
    | with_reducible assumption | with_reducible exact Keep.refl _ | with_reducible apply keep_done
    | with_reducible apply keep_layerRates

end Sys2Proof.Machine
end

