-- ==== Sys2Proof/Laws/KeepBoot.lean ====
section
/-!
SUPPORT. What commands keep (part, queue, canonical memory): objects, security, boot and the request rows.
-/
namespace Sys2Proof.Machine
open Sys2Proof

theorem keep_undefer {p : State} {r : Request} {chk id : Nat} {s : State} (hk : Keep p s) :
    Keep p (undefer r chk id s) := by
  unfold undefer
  try dsimp only
  repeat' first
    | with_reducible assumption | with_reducible exact Keep.refl _
    | fail_if_no_progress with_reducible refine Keep.rec_of ?_ rfl rfl rfl | split

theorem keep_mgmtApplied {p : State} {old : Bytes} {s : State} (hk : Keep p s) :
    Keep p (mgmtApplied old s) := by
  unfold mgmtApplied
  try dsimp only
  repeat' first
    | with_reducible assumption | with_reducible exact Keep.refl _ | with_reducible apply keep_ethDown
    | with_reducible apply keep_regPutF | split

theorem keep_settingApplied {p : State} {id : Nat} {old : Bytes} {s : State} (hk : Keep p s) :
    Keep p (settingApplied id old s) := by
  unfold settingApplied
  try dsimp only
  repeat' first
    | with_reducible assumption | with_reducible exact Keep.refl _ | with_reducible apply keep_setSpare
    | with_reducible apply keep_mgmtApplied | with_reducible apply keep_timeApplied
    | with_reducible apply keep_policyApplied | with_reducible apply keep_mdApplied | split

theorem keep_objDeleteOp {p : State} {family : Nat} {r : Request} {s : State} (hk : Keep p s) :
    Keep p (objDeleteOp family r s) := by
  unfold objDeleteOp
  try dsimp only
  repeat' first
    | with_reducible assumption | with_reducible exact Keep.refl _ | with_reducible apply keep_undefer
    | with_reducible apply keep_runCmd | with_reducible apply keep_objDel | with_reducible apply keep_settingApplied
    | intro _
    | split

theorem keep_taskSetWait {p : State} {id : Nat} {root : Bool} {s t : State} (e : taskSetWait id root s = some t) (hk :
    Keep p s) :
    Keep p t := by
  unfold taskSetWait at e
  split at e
  · cases e
  · dsimp only at e
    split at e
    · cases e
    · split at e
      · injection e with e; subst e; exact keep_waitAt hk
      · rename_i h
        split at e
        · injection e with e; subst e
          exact keep_armOp (Keep.quad h (keep_readBytes hk))
        · cases e

theorem keep_configInstallOp {p : State} {r : Request} {s : State} (hk : Keep p s) :
    Keep p (configInstallOp r s) := by
  unfold configInstallOp
  try dsimp only
  repeat' first
    | with_reducible assumption | with_reducible exact Keep.refl _ | with_reducible apply keep_runLong
    | with_reducible refine Keep.id ?_ | intro _

theorem keep_taskSetBegin {p : State} {id : Nat} {s : State} (hk : Keep p s) :
    Keep p (taskSetBegin id s) := by
  unfold taskSetBegin
  try dsimp only
  repeat' first
    | with_reducible assumption | with_reducible exact Keep.refl _ | with_reducible apply keep_c0Set
    | with_reducible apply keep_flowPut | with_reducible refine Keep.foldl ?_ ?_
    | fail_if_no_progress with_reducible refine Keep.rec_of ?_ rfl rfl rfl | intro _ | split

theorem keep_fnBegin {p : State} {id : Nat} {s : State} (hk : Keep p s) :
    Keep p (fnBegin id s) := by
  unfold fnBegin
  try dsimp only
  repeat' first
    | with_reducible assumption | with_reducible exact Keep.refl _ | with_reducible apply keep_carrierBegin
    | with_reducible apply keep_chirpBegin | with_reducible apply keep_bridgeBegin
    | with_reducible apply keep_videoBegin | with_reducible apply keep_linkBegin
    | with_reducible apply keep_taskSetBegin | split

theorem keep_setBoot {p : State} {st : Nat} {s : State} (hk : Keep p s) :
    Keep p (setBoot st s) := by
  unfold setBoot
  try dsimp only
  repeat' first
    | with_reducible assumption | with_reducible exact Keep.refl _ | with_reducible apply keep_regPutF

theorem keep_fnStart {p : State} {id : Nat} {s : State} (hk : Keep p s) :
    Keep p (fnStart id s) := by
  unfold fnStart
  try dsimp only
  repeat' first
    | with_reducible assumption | with_reducible exact Keep.refl _ | with_reducible apply keep_fnBegin
    | with_reducible apply keep_setCommitted | with_reducible apply keep_objPut | split

theorem keep_fnAbandon {p : State} {id : Nat} {s : State} (hk : Keep p s) :
    Keep p (fnAbandon id s) := by
  unfold fnAbandon
  try dsimp only
  repeat' first
    | with_reducible assumption | with_reducible exact Keep.refl _ | with_reducible apply keep_objPut
    | with_reducible apply keep_c0Set | with_reducible apply keep_fhRefresh | with_reducible apply keep_taskGive
    | with_reducible apply keep_carrierDiscard | with_reducible apply keep_audioMod | with_reducible apply keep_videoMod
    | with_reducible apply keep_laneDrop | with_reducible apply keep_dropOwner | with_reducible refine Keep.foldl ?_ ?_
    | fail_if_no_progress with_reducible refine Keep.rec_of ?_ rfl rfl rfl | intro _ | split

theorem keep_fnAborted {p : State} {id status : Nat} {s : State} (hk : Keep p s) :
    Keep p (fnAborted id status s) := by
  unfold fnAborted
  try dsimp only
  repeat' first
    | with_reducible assumption | with_reducible exact Keep.refl _ | with_reducible apply keep_fhRefresh
    | with_reducible apply keep_startFailed | with_reducible apply keep_fnAbandon | split

theorem keep_taskSetRun {p : State} {id : Nat} {s : State} (hk : Keep p s) :
    Keep p (taskSetRun id s) := by
  unfold taskSetRun
  try dsimp only
  repeat' first
    | with_reducible assumption | with_reducible exact Keep.refl _ | with_reducible apply keep_armOp
    | with_reducible apply keep_armRefused | with_reducible apply keep_fnAborted
    | with_reducible apply keep_reachRunning | split

theorem keep_autoStart {p : State} {id : Nat} {s : State} (hk : Keep p s) :
    Keep p (autoStart id s) := by
  unfold autoStart
  try dsimp only
  repeat' first
    | with_reducible assumption | with_reducible exact Keep.refl _
    | exact keep_taskSetWait (by assumption) (by assumption) | with_reducible apply keep_raise
    | with_reducible apply keep_fnStart | with_reducible apply keep_taskSetRun | with_reducible refine Keep.ite ?_ ?_
    | with_reducible refine Keep.ite2 ?_ ?_ | with_reducible refine Keep.ite3 ?_ ?_
    | with_reducible refine KeepR.ite ?_ ?_ | with_reducible refine KeepR.next ?_
    | with_reducible refine Keep.foldl ?_ ?_ | with_reducible refine Keep.foldl2 ?_ ?_
    | with_reducible refine Keep.foldl3 ?_ ?_ | with_reducible refine Keep.id ?_
    | fail_if_no_progress with_reducible refine Keep.rec_of ?_ rfl rfl rfl | intro _ | split

theorem keep_autoStartAll {p : State} {s : State} (hk : Keep p s) :
    Keep p (autoStartAll s) := by
  unfold autoStartAll
  try dsimp only
  repeat' first
    | with_reducible assumption | with_reducible exact Keep.refl _ | with_reducible apply keep_autoStart
    | with_reducible refine Keep.foldl ?_ ?_ | fail_if_no_progress with_reducible refine Keep.rec_of ?_ rfl rfl rfl
    | intro _
    | split

theorem keep_autostartOp {p : State} {s : State} (hk : Keep p s) :
    Keep p (autostartOp s) := by
  unfold autostartOp
  try dsimp only
  repeat' first
    | with_reducible assumption | with_reducible exact Keep.refl _ | with_reducible apply keep_startCore
    | with_reducible apply keep_setBoot | with_reducible apply keep_releaseToReg
    | with_reducible apply keep_autoStartAll | with_reducible apply keep_raise | with_reducible refine Keep.foldl ?_ ?_
    | intro _
    | split

theorem keep_setRollback {p : State} {type v : Nat} {s : State} (hk : Keep p s) :
    Keep p (setRollback type v s) := by
  unfold setRollback
  try dsimp only
  repeat' first
    | with_reducible assumption | with_reducible exact Keep.refl _ | with_reducible apply keep_secMod

theorem keep_rollbackCut {p : State} {l : Long} {s : State} (hk : Keep p s) :
    Keep p (rollbackCut l s) := by
  unfold rollbackCut
  try dsimp only
  repeat' first
    | with_reducible assumption | with_reducible exact Keep.refl _ | with_reducible apply keep_draw
    | with_reducible apply keep_setRollback

theorem keep_generic {p : State} {family low : Nat} {r : Request} {f : State → State} {s : State} (hk : Keep p s) (hf :
    ∀ t, Keep p t → Keep p (f t)) :
    Keep p (generic family low r f s) := by
  unfold generic
  try dsimp only
  repeat' first
    | with_reducible assumption | with_reducible exact Keep.refl _ | with_reducible apply hf
    | with_reducible apply keep_reply | split

theorem keep_requestWait {p : State} {op : Nat} {r : Request} {s t : State} (e : requestWait op r s = some t) (hk :
    Keep p s) :
    Keep p t := by
  unfold requestWait at e
  dsimp only at e
  split at e
  · split at e
    · split at e
      · rename_i h; injection e with e; subst e
        exact Keep.pair h (keep_commandWrite hk)
      · cases e
    · cases e
  · split at e
    · split at e
      · exact keep_taskSetWait e hk
      · cases e
    · cases e

theorem keep_startOp {p : State} {family : Nat} {r : Request} {s : State} (hk : Keep p s) :
    Keep p (startOp family r s) := by
  unfold startOp
  try dsimp only
  repeat' first
    | with_reducible assumption | with_reducible exact Keep.refl _
    | exact keep_requestWait ‹requestWait _ _ _ = some _› ‹_› | with_reducible apply keep_undefer
    | with_reducible apply keep_runLong | with_reducible apply keep_fnStart | with_reducible refine Keep.ite ?_ ?_
    | with_reducible refine Keep.ite2 ?_ ?_ | with_reducible refine Keep.ite3 ?_ ?_
    | with_reducible refine KeepR.ite ?_ ?_ | with_reducible refine KeepR.next ?_
    | with_reducible refine Keep.foldl ?_ ?_ | with_reducible refine Keep.foldl2 ?_ ?_
    | with_reducible refine Keep.foldl3 ?_ ?_ | with_reducible refine Keep.id ?_
    | fail_if_no_progress with_reducible refine Keep.rec_of ?_ rfl rfl rfl | intro _ | split

theorem keep_execStartFn {p : State} {family : BitVec 8} {r : Request} {s : State} (hk : Keep p s) :
    KeepR p (execStartFn family r s) := by
  unfold execStartFn
  try dsimp only
  repeat' first
    | with_reducible assumption | with_reducible exact Keep.refl _ | with_reducible apply keep_done
    | with_reducible apply keep_generic | with_reducible apply keep_startOp

theorem keep_transferOver {p : State} {s : State} (hk : Keep p s) :
    Keep p (transferOver s) := by
  unfold transferOver
  try dsimp only
  repeat' first
    | with_reducible assumption | with_reducible exact Keep.refl _ | with_reducible apply keep_laneDrop
    | with_reducible apply keep_linkPut | with_reducible apply keep_secMod | split

theorem keep_bootBody {p : State} {b : BupexBody} {s : State} (hk : Keep p s) :
    Keep p (bootBody b s) := by
  unfold bootBody
  try dsimp only
  repeat' first
    | with_reducible assumption | with_reducible exact Keep.refl _ | with_reducible apply keep_secMod
    | with_reducible apply keep_transferOver | split

theorem keep_exportCut {p : State} {l : Long} {s : State} (hk : Keep p s) :
    Keep p (exportCut l s) := by
  unfold exportCut
  try dsimp only
  repeat' first
    | with_reducible assumption | with_reducible exact Keep.refl _ | with_reducible apply keep_draw
    | with_reducible apply keep_commandWrite

theorem keep_imageIn {p : State} {a n : Nat} {s : State} (hk : Keep p s) :
    Keep p (imageIn a n s).2.2 := by
  unfold imageIn
  try dsimp only
  repeat' first
    | with_reducible assumption | with_reducible exact Keep.refl _ | with_reducible apply keep_readBytes
    | with_reducible apply keep_waitAt | split | with_reducible refine Keep.quad ‹_ = (_, _, _, _)› ?_

theorem keep_installVerify {p : State} {l : Long} {s : State} (hk : Keep p s) :
    Keep p (installVerify l s).2.2 := by
  unfold installVerify
  try dsimp only
  repeat' first
    | with_reducible assumption | with_reducible exact Keep.refl _ | with_reducible apply keep_imageIn
    | with_reducible apply keep_verifyImage | with_reducible refine Keep.ite ?_ ?_
    | with_reducible refine Keep.ite2 ?_ ?_ | with_reducible refine Keep.ite3 ?_ ?_
    | with_reducible refine KeepR.ite ?_ ?_ | with_reducible refine KeepR.next ?_
    | with_reducible refine Keep.foldl ?_ ?_ | with_reducible refine Keep.foldl2 ?_ ?_
    | with_reducible refine Keep.foldl3 ?_ ?_ | with_reducible refine Keep.id ?_
    | fail_if_no_progress with_reducible refine Keep.rec_of ?_ rfl rfl rfl | intro _ | split
    | with_reducible refine Keep.pair ‹_ = (_, _)› ?_ | with_reducible refine Keep.triple ‹_ = (_, _, _)› ?_

theorem keep_installInterrupted {p : State} {l : Long} {s : State} (hk : Keep p s) :
    Keep p (installInterrupted l s) := by
  unfold installInterrupted
  try dsimp only
  repeat' first
    | with_reducible assumption | with_reducible exact Keep.refl _ | with_reducible apply keep_draw
    | with_reducible apply keep_installVerify | with_reducible apply keep_installImage
    | with_reducible apply keep_installCut | split | with_reducible refine Keep.triple ‹_ = (_, _, _)› ?_

theorem keep_ownerMod {p : State} {n : Nat} {f : OwnerSlot → OwnerSlot} {s : State} (hk : Keep p s) :
    Keep p (ownerMod n f s) := by
  unfold ownerMod
  try dsimp only
  repeat' first
    | with_reducible assumption | with_reducible exact Keep.refl _ | with_reducible apply keep_secMod
    | split

theorem keep_ownerProgram {p : State} {l : Long} {s : State} (hk : Keep p s) :
    Keep p (ownerProgram l s) := by
  unfold ownerProgram
  try dsimp only
  repeat' first
    | with_reducible assumption | with_reducible exact Keep.refl _ | with_reducible apply keep_ownerMod
    | with_reducible apply keep_storeWrite

theorem keep_revokeFuse {p : State} {l : Long} {s : State} (hk : Keep p s) :
    Keep p (revokeFuse l s) := by
  unfold revokeFuse
  try dsimp only
  repeat' first
    | with_reducible assumption | with_reducible exact Keep.refl _ | with_reducible apply keep_ownerMod

theorem keep_ownerInterrupted {p : State} {l : Long} {s : State} (hk : Keep p s) :
    Keep p (ownerInterrupted l s) := by
  unfold ownerInterrupted
  try dsimp only
  repeat' first
    | with_reducible assumption | with_reducible exact Keep.refl _ | with_reducible apply keep_draw
    | with_reducible apply keep_ownerProgram | with_reducible apply keep_revokeFuse | split

theorem keep_interrupted {p : State} {l : Long} {s : State} (hk : Keep p s) :
    Keep p (interrupted l s) := by
  unfold interrupted
  try dsimp only
  repeat' first
    | with_reducible assumption | with_reducible exact Keep.refl _ | with_reducible apply keep_exportCut
    | with_reducible apply keep_installInterrupted | with_reducible apply keep_nvCut
    | with_reducible apply keep_rollbackCut | with_reducible apply keep_ownerInterrupted | split

theorem keep_resetAll {p : State} {cause : Nat} {power : Bool} {held : Held} {s : State} (hk : Keep p s) :
    Keep p (resetAll cause power held s) := by
  have h : Keep p (s.cmd.longs.foldl (fun s l => interrupted l s) s) := Keep.foldl hk fun _ _ => keep_interrupted
  unfold resetAll
  generalize s.cmd.longs.foldl (fun s l => interrupted l s) s = t at h ⊢
  dsimp only
  repeat' first
    | with_reducible apply keep_regPutF | with_reducible refine Keep.ite ?_ ?_
  all_goals exact ⟨h.part, h.pending, fun w => memory_wf_filter (h.mem w) _⟩

theorem keep_thermtripOp {p : State} {s : State} (hk : Keep p s) :
    Keep p (thermtripOp s) := by
  unfold thermtripOp
  try dsimp only
  repeat' first
    | with_reducible assumption | with_reducible exact Keep.refl _ | with_reducible apply keep_resetAll
    | with_reducible apply keep_powerMod | split

theorem keep_execThermtrip {p : State} {s : State} (hk : Keep p s) :
    KeepR p (execThermtrip s) := by
  unfold execThermtrip
  try dsimp only
  repeat' first
    | with_reducible assumption | with_reducible exact Keep.refl _ | with_reducible apply keep_done
    | with_reducible apply keep_thermtripOp

theorem keep_fnStopping {p : State} {id : Nat} {s : State} (hk : Keep p s) :
    Keep p (fnStopping id s) := by
  unfold fnStopping
  try dsimp only
  repeat' first
    | with_reducible assumption | with_reducible exact Keep.refl _ | with_reducible apply keep_setFn
    | with_reducible apply keep_chirpStopping | with_reducible apply keep_bridgeStopping
    | with_reducible apply keep_videoStopping | with_reducible apply keep_c0Set | with_reducible apply keep_stopOwner
    | split

theorem keep_stopOp {p : State} {family : Nat} {r : Request} {s : State} (hk : Keep p s) :
    Keep p (stopOp family r s) := by
  unfold stopOp
  try dsimp only
  repeat' first
    | with_reducible assumption | with_reducible exact Keep.refl _ | with_reducible apply keep_undefer
    | with_reducible apply keep_runLong | with_reducible apply keep_fnStopping

theorem keep_execStopFn {p : State} {family : BitVec 8} {r : Request} {s : State} (hk : Keep p s) :
    KeepR p (execStopFn family r s) := by
  unfold execStopFn
  try dsimp only
  repeat' first
    | with_reducible assumption | with_reducible exact Keep.refl _ | with_reducible apply keep_done
    | with_reducible apply keep_generic | with_reducible apply keep_stopOp

theorem keep_attestOp {p : State} {r : Request} {s : State} (hk : Keep p s) :
    Keep p (attestOp r s) := by
  unfold attestOp
  try dsimp only
  repeat' first
    | with_reducible assumption | with_reducible exact Keep.refl _ | with_reducible apply keep_runLong
    | with_reducible refine Keep.id ?_ | intro _

theorem keep_execAttest {p : State} {r : Request} {s : State} (hk : Keep p s) :
    KeepR p (execAttest r s) := by
  unfold execAttest
  try dsimp only
  repeat' first
    | with_reducible assumption | with_reducible exact Keep.refl _ | with_reducible apply keep_done
    | with_reducible apply keep_attestOp

theorem keep_fnHalt {p : State} {id : Nat} {s : State} (hk : Keep p s) :
    Keep p (fnHalt id s) := by
  unfold fnHalt
  try dsimp only
  repeat' first
    | with_reducible assumption | with_reducible exact Keep.refl _ | with_reducible apply keep_fnAborted
    | with_reducible apply keep_linkStopped | with_reducible apply keep_reachStopped
    | with_reducible apply keep_fnAbandon | with_reducible refine Keep.ite ?_ ?_ | with_reducible refine Keep.ite2 ?_ ?_
    | with_reducible refine Keep.ite3 ?_ ?_ | with_reducible refine KeepR.ite ?_ ?_
    | with_reducible refine KeepR.next ?_ | with_reducible refine Keep.foldl ?_ ?_
    | with_reducible refine Keep.foldl2 ?_ ?_ | with_reducible refine Keep.foldl3 ?_ ?_
    | with_reducible refine Keep.id ?_ | fail_if_no_progress with_reducible refine Keep.rec_of ?_ rfl rfl rfl | intro _
    | split

theorem keep_outputsDown {p : State} {s : State} (hk : Keep p s) :
    Keep p (outputsDown s) := by
  unfold outputsDown
  try dsimp only
  repeat' first
    | with_reducible assumption | with_reducible exact Keep.refl _ | with_reducible apply keep_fnHalt
    | with_reducible apply keep_ethDown | with_reducible apply keep_regPutF | with_reducible apply keep_fabricOff
    | with_reducible refine Keep.ite ?_ ?_ | with_reducible refine Keep.ite2 ?_ ?_
    | with_reducible refine Keep.ite3 ?_ ?_ | with_reducible refine KeepR.ite ?_ ?_
    | with_reducible refine KeepR.next ?_ | with_reducible refine Keep.foldl ?_ ?_
    | with_reducible refine Keep.foldl2 ?_ ?_ | with_reducible refine Keep.foldl3 ?_ ?_
    | with_reducible refine Keep.id ?_ | fail_if_no_progress with_reducible refine Keep.rec_of ?_ rfl rfl rfl | intro _

theorem keep_emptyRunning {p : State} {s : State} (hk : Keep p s) :
    Keep p (emptyRunning s) := by
  unfold emptyRunning
  try dsimp only
  repeat' first
    | with_reducible assumption | with_reducible exact Keep.refl _
    | with_reducible apply keep_settingApplied | with_reducible apply keep_setCommitted
    | with_reducible refine Keep.ite ?_ ?_ | with_reducible refine Keep.ite2 ?_ ?_
    | with_reducible refine Keep.ite3 ?_ ?_ | with_reducible refine KeepR.ite ?_ ?_
    | with_reducible refine KeepR.next ?_ | with_reducible refine Keep.foldl ?_ ?_
    | with_reducible refine Keep.foldl2 ?_ ?_ | with_reducible refine Keep.foldl3 ?_ ?_
    | with_reducible refine Keep.id ?_ | fail_if_no_progress with_reducible refine Keep.rec_of ?_ rfl rfl rfl | intro _

theorem keep_enterInvalid {p : State} {reason slot : Nat} {s : State} (hk : Keep p s) :
    Keep p (enterInvalid reason slot s) := by
  unfold enterInvalid
  try dsimp only
  repeat' first
    | with_reducible assumption | with_reducible exact Keep.refl _ | with_reducible apply keep_outputsDown
    | with_reducible apply keep_transferOver | with_reducible apply keep_emptyRunning | with_reducible apply keep_raise
    | with_reducible apply keep_regPutF | with_reducible apply keep_setBoot | with_reducible refine Keep.ite ?_ ?_

theorem keep_memInitOp {p : State} {cs : List ChannelTraining} {s : State} (hk : Keep p s) :
    Keep p (memInitOp cs s) := by
  unfold memInitOp
  try dsimp only
  repeat' first
    | with_reducible assumption | with_reducible exact Keep.refl _ | with_reducible apply keep_regPut
    | with_reducible apply keep_raise | with_reducible apply keep_enterInvalid | with_reducible apply keep_setBoot
    | with_reducible refine Keep.foldl ?_ ?_ | fail_if_no_progress with_reducible refine Keep.rec_of ?_ rfl rfl rfl
    | intro _
    | split

theorem keep_execMemInit {p : State} {channels : List ChannelTraining} {s : State} (hk : Keep p s) :
    KeepR p (execMemInit channels s) := by
  unfold execMemInit
  try dsimp only
  repeat' first
    | with_reducible assumption | with_reducible exact Keep.refl _ | with_reducible apply keep_done
    | with_reducible apply keep_memInitOp

theorem keep_imageInstallOp {p : State} {r : Request} {s : State} (hk : Keep p s) :
    Keep p (imageInstallOp r s) := by
  unfold imageInstallOp
  try dsimp only
  repeat' first
    | with_reducible assumption | with_reducible exact Keep.refl _ | with_reducible apply keep_runLong
    | with_reducible refine Keep.id ?_ | intro _

theorem keep_installDone {p : State} {l : Long} {s : State} (hk : Keep p s) :
    Keep p (installDone l s) := by
  unfold installDone
  try dsimp only
  repeat' first
    | with_reducible assumption | with_reducible exact Keep.refl _ | with_reducible apply keep_installVerify
    | with_reducible apply keep_installImage | with_reducible apply keep_completeLong | split
    | with_reducible refine Keep.triple ‹_ = (_, _, _)› ?_

theorem keep_exportDone {p : State} {l : Long} {s : State} (hk : Keep p s) :
    Keep p (exportDone l s) := by
  unfold exportDone
  try dsimp only
  repeat' first
    | with_reducible assumption | with_reducible exact Keep.refl _ | with_reducible apply keep_commandWrite
    | with_reducible apply keep_completeLong | split | with_reducible refine Keep.pair ‹_ = (_, _)› ?_

theorem keep_configExportOp {p : State} {r : Request} {s : State} (hk : Keep p s) :
    Keep p (configExportOp r s) := by
  unfold configExportOp
  try dsimp only
  repeat' first
    | with_reducible assumption | with_reducible exact Keep.refl _ | with_reducible apply keep_runLong
    | with_reducible refine Keep.id ?_ | intro _

theorem keep_unheld {p : State} {f : State → State} {s : State} (hk : Keep p s) (hf : ∀ t, Keep p t → Keep p (f t)) :
    Keep p (unheld f s) := by
  unfold unheld
  try dsimp only
  repeat' first
    | with_reducible assumption | with_reducible exact Keep.refl _ | with_reducible apply hf | split

theorem keep_execUartFrame {p : State} {data : List (BitVec 8)} {s : State} (hk : Keep p s) :
    KeepR p (execUartFrame data s) := by
  unfold execUartFrame
  try dsimp only
  repeat' first
    | with_reducible assumption | with_reducible exact Keep.refl _ | with_reducible apply keep_done
    | with_reducible apply keep_unheld | with_reducible apply keep_uartOp | intro _ | split

theorem keep_setObject {p : State} {id attrs : Nat} {b : Bytes} {s : State} (hk : Keep p s) :
    Keep p (setObject id attrs b s) := by
  unfold setObject
  try dsimp only
  repeat' first
    | with_reducible assumption | with_reducible exact Keep.refl _ | with_reducible apply keep_objPut
    | with_reducible apply keep_settingApplied | split

theorem keep_objSetOp {p : State} {family : Nat} {r : Request} {s : State} (hk : Keep p s) :
    Keep p (objSetOp family r s) := by
  unfold objSetOp
  try dsimp only
  repeat' first
    | with_reducible assumption | with_reducible exact Keep.refl _ | with_reducible apply keep_undefer
    | with_reducible apply keep_runCmd | with_reducible apply keep_setObject

theorem keep_execObjSet {p : State} {family : BitVec 8} {r : Request} {s : State} (hk : Keep p s) :
    KeepR p (execObjSet family r s) := by
  unfold execObjSet
  try dsimp only
  repeat' first
    | with_reducible assumption | with_reducible exact Keep.refl _ | with_reducible apply keep_done
    | with_reducible apply keep_generic | with_reducible apply keep_objSetOp

theorem keep_deferredStart {p : State} {s : State} (hk : Keep p s) :
    Keep p (deferredStart s) := by
  unfold deferredStart
  try dsimp only
  repeat' first
    | with_reducible assumption | with_reducible exact Keep.refl _ | with_reducible apply keep_autoStart
    | with_reducible refine Keep.foldl ?_ ?_ | fail_if_no_progress with_reducible refine Keep.rec_of ?_ rfl rfl rfl
    | intro _

theorem keep_deferredOp {p : State} {s : State} (hk : Keep p s) :
    Keep p (deferredOp s) := by
  unfold deferredOp
  try dsimp only
  repeat' first
    | with_reducible assumption | with_reducible exact Keep.refl _ | with_reducible apply keep_deferredStart
    | split

theorem keep_execDeferredAutostart {p : State} {s : State} (hk : Keep p s) :
    KeepR p (execDeferredAutostart s) := by
  unfold execDeferredAutostart
  try dsimp only
  repeat' first
    | with_reducible assumption | with_reducible exact Keep.refl _ | with_reducible apply keep_done
    | with_reducible apply keep_deferredOp

theorem keep_execFlushPcie {p : State} {s : State} (hk : Keep p s) :
    KeepR p (execFlushPcie s) := by
  unfold execFlushPcie
  try dsimp only
  repeat' first
    | with_reducible assumption | with_reducible exact Keep.refl _ | with_reducible apply keep_done
    | with_reducible apply keep_flushOp

theorem keep_booted {p : State} {type : Nat} {img : Bytes} {s : State} (hk : Keep p s) :
    Keep p (booted type img s) := by
  unfold booted
  try dsimp only
  repeat' first
    | with_reducible assumption | with_reducible exact Keep.refl _ | with_reducible apply keep_secMod

theorem keep_execFlushEth {p : State} {s : State} (hk : Keep p s) :
    KeepR p (execFlushEth s) := by
  unfold execFlushEth
  try dsimp only
  repeat' first
    | with_reducible assumption | with_reducible exact Keep.refl _ | with_reducible apply keep_done
    | with_reducible apply keep_flushOp

theorem keep_objListOp {p : State} {family : Nat} {r : Request} {s : State} (hk : Keep p s) :
    Keep p (objListOp family r s) := by
  unfold objListOp
  try dsimp only
  repeat' first
    | with_reducible assumption | with_reducible exact Keep.refl _ | with_reducible apply keep_runCmd
    | intro _

theorem keep_imagePushOp {p : State} {r : Request} {s : State} (hk : Keep p s) :
    Keep p (imagePushOp r s) := by
  unfold imagePushOp
  try dsimp only
  repeat' first
    | with_reducible assumption | with_reducible exact Keep.refl _ | with_reducible apply keep_runLong
    | with_reducible refine Keep.id ?_ | intro _

theorem keep_deviceResetOp {p : State} {r : Request} {s : State} (hk : Keep p s) :
    Keep p (deviceResetOp r s) := by
  unfold deviceResetOp
  try dsimp only
  repeat' first
    | with_reducible assumption | with_reducible exact Keep.refl _ | with_reducible apply keep_resetAll
    | with_reducible apply keep_reply | with_reducible apply keep_runCmd | intro _ | split

theorem keep_execDeviceReset {p : State} {r : Request} {s : State} (hk : Keep p s) :
    KeepR p (execDeviceReset r s) := by
  unfold execDeviceReset
  try dsimp only
  repeat' first
    | with_reducible assumption | with_reducible exact Keep.refl _ | with_reducible apply keep_done
    | with_reducible apply keep_deviceResetOp

theorem keep_loadFirmware {p : State} {img : Bytes} {s : State} (hk : Keep p s) :
    Keep p (loadFirmware img s).2 := by
  unfold loadFirmware
  try dsimp only
  repeat' first
    | with_reducible assumption | with_reducible exact Keep.refl _ | with_reducible apply keep_draw
    | with_reducible apply keep_regPut | with_reducible apply keep_writeBytes | with_reducible refine Keep.foldl ?_ ?_
    | intro _
    | split | with_reducible refine Keep.triple ‹_ = (_, _, _)› ?_

theorem keep_fwTake {p : State} {source slot : Nat} {img : Bytes} {s : State} (hk : Keep p s) :
    Keep p (fwTake source slot img s) := by
  unfold fwTake
  try dsimp only
  repeat' first
    | with_reducible assumption | with_reducible exact Keep.refl _ | with_reducible apply keep_verifyImage
    | with_reducible apply keep_enterInvalid | with_reducible apply keep_loadFirmware | with_reducible apply keep_booted
    | with_reducible apply keep_regPutF | with_reducible apply keep_setBoot | split
    | with_reducible refine Keep.pair ‹_ = (_, _)› ?_

theorem keep_enterWait {p : State} {s : State} (hk : Keep p s) :
    Keep p (enterWait s) := by
  unfold enterWait
  try dsimp only
  repeat' first
    | with_reducible assumption | with_reducible exact Keep.refl _ | with_reducible apply keep_outputsDown
    | with_reducible apply keep_setBoot

theorem keep_fwSearch {p : State} {y0 : List Store} {y1 : State} (hk : Keep p y1) :
    Keep p (fwSearch y0 y1) := by
  induction y0 generalizing y1 with
  | nil => unfold fwSearch; exact keep_enterInvalid hk
  | cons b r ih =>
    unfold fwSearch
    try dsimp only
    repeat' first
      | with_reducible assumption | with_reducible exact Keep.refl _ | with_reducible apply ih
      | with_reducible apply keep_enterInvalid | with_reducible apply keep_uncommitted
      | with_reducible apply keep_slotReads | with_reducible apply keep_fwTake | with_reducible refine Keep.ite ?_ ?_
      | with_reducible refine Keep.ite2 ?_ ?_ | with_reducible refine Keep.ite3 ?_ ?_
      | with_reducible refine KeepR.ite ?_ ?_ | with_reducible refine KeepR.next ?_
      | with_reducible refine Keep.foldl ?_ ?_ | with_reducible refine Keep.foldl2 ?_ ?_
      | with_reducible refine Keep.foldl3 ?_ ?_ | with_reducible refine Keep.id ?_
      | fail_if_no_progress with_reducible refine Keep.rec_of ?_ rfl rfl rfl | intro _ | split

theorem keep_fwLoadOp {p : State} {s : State} (hk : Keep p s) :
    Keep p (fwLoadOp s) := by
  unfold fwLoadOp
  try dsimp only
  repeat' first
    | with_reducible assumption | with_reducible exact Keep.refl _ | with_reducible apply keep_fwTake
    | with_reducible apply keep_enterWait | with_reducible apply keep_fwSearch | split

theorem keep_execFwLoad {p : State} {s : State} (hk : Keep p s) :
    KeepR p (execFwLoad s) := by
  unfold execFwLoad
  try dsimp only
  repeat' first
    | with_reducible assumption | with_reducible exact Keep.refl _ | with_reducible apply keep_done
    | with_reducible apply keep_fwLoadOp

theorem keep_romOp {p : State} {up : Bool} {gen width : Nat} {s : State} (hk : Keep p s) :
    Keep p (romOp up gen width s) := by
  unfold romOp
  try dsimp only
  repeat' first
    | with_reducible assumption | with_reducible exact Keep.refl _ | with_reducible apply keep_setBoot
    | with_reducible apply keep_pcieLink | with_reducible apply keep_raise | split

theorem keep_execRomPhase {p : State} {up : Bool} {gen : Fin 8} {width : Fin 32} {s : State} (hk : Keep p s) :
    KeepR p (execRomPhase up gen width s) := by
  unfold execRomPhase
  try dsimp only
  repeat' first
    | with_reducible assumption | with_reducible exact Keep.refl _ | with_reducible apply keep_done
    | with_reducible apply keep_romOp

theorem keep_ownerSetOp {p : State} {r : Request} {s : State} (hk : Keep p s) :
    Keep p (ownerSetOp r s) := by
  unfold ownerSetOp
  try dsimp only
  repeat' first
    | with_reducible assumption | with_reducible exact Keep.refl _ | with_reducible apply keep_runLong
    | with_reducible refine Keep.id ?_ | intro _

theorem keep_execOwnerKeysSet {p : State} {r : Request} {s : State} (hk : Keep p s) :
    KeepR p (execOwnerKeysSet r s) := by
  unfold execOwnerKeysSet
  try dsimp only
  repeat' first
    | with_reducible assumption | with_reducible exact Keep.refl _ | with_reducible apply keep_done
    | with_reducible apply keep_ownerSetOp

theorem keep_objGetOp {p : State} {family : Nat} {r : Request} {s : State} (hk : Keep p s) :
    Keep p (objGetOp family r s) := by
  unfold objGetOp
  try dsimp only
  repeat' first
    | with_reducible assumption | with_reducible exact Keep.refl _ | with_reducible apply keep_reply
    | with_reducible apply keep_commandWrite | intro _ | split | with_reducible refine Keep.pair ‹_ = (_, _)› ?_

theorem keep_execObjGet {p : State} {family : BitVec 8} {r : Request} {s : State} (hk : Keep p s) :
    KeepR p (execObjGet family r s) := by
  unfold execObjGet
  try dsimp only
  repeat' first
    | with_reducible assumption | with_reducible exact Keep.refl _ | with_reducible apply keep_done
    | with_reducible apply keep_generic | with_reducible apply keep_objGetOp

theorem keep_bootContinueOp {p : State} {r : Request} {s : State} (hk : Keep p s) :
    Keep p (bootContinueOp r s) := by
  unfold bootContinueOp
  try dsimp only
  repeat' first
    | with_reducible assumption | with_reducible exact Keep.refl _ | with_reducible apply keep_runCmd
    | with_reducible apply keep_regPutF | with_reducible apply keep_setBoot | intro _

theorem keep_bootReadyOp {p : State} {s : State} (hk : Keep p s) :
    Keep p (bootReadyOp s) := by
  unfold bootReadyOp
  try dsimp only
  repeat' first
    | with_reducible assumption | with_reducible exact Keep.refl _ | with_reducible apply keep_emit
    | with_reducible apply keep_laneTake | with_reducible apply keep_secMod | split

theorem keep_rollbackOp {p : State} {r : Request} {s : State} (hk : Keep p s) :
    Keep p (rollbackOp r s) := by
  unfold rollbackOp
  try dsimp only
  repeat' first
    | with_reducible assumption | with_reducible exact Keep.refl _ | with_reducible apply keep_runLong
    | with_reducible refine Keep.id ?_ | intro _

theorem keep_pushDone {p : State} {l : Long} {s : State} (hk : Keep p s) :
    Keep p (pushDone l s) := by
  unfold pushDone
  try dsimp only
  repeat' first
    | with_reducible assumption | with_reducible exact Keep.refl _ | with_reducible apply keep_completeLong
    | with_reducible apply keep_imageIn | with_reducible apply keep_verifyImage | with_reducible apply keep_loadFirmware
    | with_reducible apply keep_regPutF | with_reducible apply keep_setBoot | with_reducible apply keep_booted
    | with_reducible refine Keep.ite ?_ ?_ | with_reducible refine Keep.ite2 ?_ ?_
    | with_reducible refine Keep.ite3 ?_ ?_ | with_reducible refine KeepR.ite ?_ ?_
    | with_reducible refine KeepR.next ?_ | with_reducible refine Keep.foldl ?_ ?_
    | with_reducible refine Keep.foldl2 ?_ ?_ | with_reducible refine Keep.foldl3 ?_ ?_
    | with_reducible refine Keep.id ?_ | fail_if_no_progress with_reducible refine Keep.rec_of ?_ rfl rfl rfl | intro _
    | split | with_reducible refine Keep.pair ‹_ = (_, _)› ?_ | with_reducible refine Keep.triple ‹_ = (_, _, _)› ?_

theorem keep_execImagePush {p : State} {r : Request} {s : State} (hk : Keep p s) :
    KeepR p (execImagePush r s) := by
  unfold execImagePush
  try dsimp only
  repeat' first
    | with_reducible assumption | with_reducible exact Keep.refl _ | with_reducible apply keep_done
    | with_reducible apply keep_imagePushOp

theorem keep_cfgLoadOp {p : State} {s : State} (hk : Keep p s) :
    Keep p (cfgLoadOp s) := by
  unfold cfgLoadOp
  try dsimp only
  repeat' first
    | with_reducible assumption | with_reducible exact Keep.refl _ | with_reducible apply keep_uncommitted
    | with_reducible apply keep_enterInvalid | with_reducible apply keep_verifyImage | with_reducible apply keep_booted
    | with_reducible apply keep_regPutF | with_reducible apply keep_setBoot | with_reducible apply keep_setObject
    | with_reducible refine Keep.foldl ?_ ?_ | intro _ | split

theorem keep_execCfgLoad {p : State} {s : State} (hk : Keep p s) :
    KeepR p (execCfgLoad s) := by
  unfold execCfgLoad
  try dsimp only
  repeat' first
    | with_reducible assumption | with_reducible exact Keep.refl _ | with_reducible apply keep_done
    | with_reducible apply keep_cfgLoadOp

theorem keep_certOp {p : State} {r : Request} {s : State} (hk : Keep p s) :
    Keep p (certOp r s) := by
  unfold certOp
  try dsimp only
  repeat' first
    | with_reducible assumption | with_reducible exact Keep.refl _ | with_reducible apply keep_runCmd
    | intro _

theorem keep_execCertGet {p : State} {r : Request} {s : State} (hk : Keep p s) :
    KeepR p (execCertGet r s) := by
  unfold execCertGet
  try dsimp only
  repeat' first
    | with_reducible assumption | with_reducible exact Keep.refl _ | with_reducible apply keep_done
    | with_reducible apply keep_certOp

theorem keep_attestDone {p : State} {l : Long} {s : State} (hk : Keep p s) :
    Keep p (attestDone l s) := by
  unfold attestDone
  try dsimp only
  repeat' first
    | with_reducible assumption | with_reducible exact Keep.refl _ | with_reducible apply keep_completeLong

theorem keep_rollbackDone {p : State} {l : Long} {s : State} (hk : Keep p s) :
    Keep p (rollbackDone l s) := by
  unfold rollbackDone
  try dsimp only
  repeat' first
    | with_reducible assumption | with_reducible exact Keep.refl _ | with_reducible apply keep_completeLong
    | with_reducible apply keep_setRollback | split

theorem keep_sampleStraps {p : State} {v : Nat} {s : State} (hk : Keep p s) :
    Keep p (sampleStraps v s) := by
  unfold sampleStraps
  try dsimp only
  repeat' first
    | with_reducible assumption | with_reducible exact Keep.refl _ | with_reducible apply keep_regPutF

theorem keep_ownerRevokeDone {p : State} {l : Long} {s : State} (hk : Keep p s) :
    Keep p (ownerRevokeDone l s) := by
  unfold ownerRevokeDone
  try dsimp only
  repeat' first
    | with_reducible assumption | with_reducible exact Keep.refl _ | with_reducible apply keep_completeLong
    | with_reducible apply keep_revokeFuse | split

theorem keep_bootFrame {p : State} {f : BupexFrame} {s : State} (hk : Keep p s) :
    Keep p (bootFrame f s) := by
  unfold bootFrame
  try dsimp only
  repeat' first
    | with_reducible assumption | with_reducible exact Keep.refl _ | with_reducible apply keep_emit
    | with_reducible apply keep_bootBody | with_reducible apply keep_linkMod | split

theorem keep_frameOp {p : State} {l : Nat} {f : BupexFrame} {s : State} (hk : Keep p s) :
    Keep p (frameOp l f s) := by
  unfold frameOp
  try dsimp only
  repeat' first
    | with_reducible assumption | with_reducible exact Keep.refl _ | with_reducible apply keep_bootFrame
    | with_reducible apply keep_bupexFrame | split

theorem keep_execBupexFrame {p : State} {l : Fin 6} {f : BupexFrame} {s : State} (hk : Keep p s) :
    KeepR p (execBupexFrame l f s) := by
  unfold execBupexFrame
  try dsimp only
  repeat' first
    | with_reducible assumption | with_reducible exact Keep.refl _ | with_reducible apply keep_done
    | with_reducible apply keep_frameOp

theorem keep_objStateOp {p : State} {family : Nat} {r : Request} {s : State} (hk : Keep p s) :
    Keep p (objStateOp family r s) := by
  unfold objStateOp
  try dsimp only
  repeat' first
    | with_reducible assumption | with_reducible exact Keep.refl _ | with_reducible apply keep_runCmd
    | intro _
    | split

theorem keep_execAutostart {p : State} {s : State} (hk : Keep p s) :
    KeepR p (execAutostart s) := by
  unfold execAutostart
  try dsimp only
  repeat' first
    | with_reducible assumption | with_reducible exact Keep.refl _ | with_reducible apply keep_done
    | with_reducible apply keep_autostartOp

theorem keep_bootTimeoutOp {p : State} {s : State} (hk : Keep p s) :
    Keep p (bootTimeoutOp s) := by
  unfold bootTimeoutOp
  try dsimp only
  repeat' first
    | with_reducible assumption | with_reducible exact Keep.refl _ | with_reducible apply keep_enterWait
    | with_reducible apply keep_transferOver | split

theorem keep_execBootTransferTimeout {p : State} {s : State} (hk : Keep p s) :
    KeepR p (execBootTransferTimeout s) := by
  unfold execBootTransferTimeout
  try dsimp only
  repeat' first
    | with_reducible assumption | with_reducible exact Keep.refl _ | with_reducible apply keep_done
    | with_reducible apply keep_bootTimeoutOp

theorem keep_pinTableOp {p : State} {s : State} (hk : Keep p s) :
    Keep p (pinTableOp s) := by
  unfold pinTableOp
  try dsimp only
  repeat' first
    | with_reducible assumption | with_reducible exact Keep.refl _ | with_reducible apply keep_uncommitted
    | with_reducible apply keep_setBoot | with_reducible apply keep_verifyImage | with_reducible apply keep_booted
    | with_reducible apply keep_regPutF | with_reducible apply keep_takeTable | with_reducible apply keep_enterInvalid
    | split

theorem keep_execImageInstall {p : State} {r : Request} {s : State} (hk : Keep p s) :
    KeepR p (execImageInstall r s) := by
  unfold execImageInstall
  try dsimp only
  repeat' first
    | with_reducible assumption | with_reducible exact Keep.refl _ | with_reducible apply keep_done
    | with_reducible apply keep_imageInstallOp

theorem keep_ownerSetDone {p : State} {l : Long} {s : State} (hk : Keep p s) :
    Keep p (ownerSetDone l s) := by
  unfold ownerSetDone
  try dsimp only
  repeat' first
    | with_reducible assumption | with_reducible exact Keep.refl _ | with_reducible apply keep_completeLong
    | with_reducible apply keep_ownerProgram | split

theorem keep_execConfigExport {p : State} {r : Request} {s : State} (hk : Keep p s) :
    KeepR p (execConfigExport r s) := by
  unfold execConfigExport
  try dsimp only
  repeat' first
    | with_reducible assumption | with_reducible exact Keep.refl _ | with_reducible apply keep_done
    | with_reducible apply keep_configExportOp

theorem keep_setHeld {p : State} {h : Held} {s : State} (hk : Keep p s) :
    Keep p (setHeld h s) := by
  unfold setHeld
  try dsimp only
  repeat' first
    | with_reducible assumption | with_reducible exact Keep.refl _ | with_reducible apply keep_secMod

theorem keep_brownoutEnd {p : State} {s : State} (hk : Keep p s) :
    Keep p (brownoutEnd s) := by
  unfold brownoutEnd
  try dsimp only
  repeat' first
    | with_reducible assumption | with_reducible exact Keep.refl _ | with_reducible apply keep_setHeld
    | split

theorem keep_execBrownoutResetEnd {p : State} {s : State} (hk : Keep p s) :
    KeepR p (execBrownoutResetEnd s) := by
  unfold execBrownoutResetEnd
  try dsimp only
  repeat' first
    | with_reducible assumption | with_reducible exact Keep.refl _ | with_reducible apply keep_done
    | with_reducible apply keep_brownoutEnd

theorem keep_execObjDelete {p : State} {family : BitVec 8} {r : Request} {s : State} (hk : Keep p s) :
    KeepR p (execObjDelete family r s) := by
  unfold execObjDelete
  try dsimp only
  repeat' first
    | with_reducible assumption | with_reducible exact Keep.refl _ | with_reducible apply keep_done
    | with_reducible apply keep_generic | with_reducible apply keep_objDeleteOp

theorem keep_fabricLoadOp {p : State} {s : State} (hk : Keep p s) :
    Keep p (fabricLoadOp s) := by
  unfold fabricLoadOp
  try dsimp only
  repeat' first
    | with_reducible assumption | with_reducible exact Keep.refl _ | with_reducible apply keep_setBoot
    | with_reducible apply keep_uncommitted | with_reducible apply keep_verifyImage | with_reducible apply keep_booted
    | with_reducible apply keep_regPutF | with_reducible apply keep_releaseBoot | with_reducible apply keep_enterInvalid
    | split

theorem keep_execSysCmdRplPop {p : State} {s : State} (hk : Keep p s) :
    KeepR p (execSysCmdRplPop s) := by
  unfold execSysCmdRplPop
  try dsimp only
  repeat' first
    | with_reducible assumption | with_reducible exact Keep.refl _ | with_reducible apply keep_done
    | with_reducible apply keep_unheld | with_reducible apply keep_rplPopOp

theorem keep_execRollbackAdvance {p : State} {r : Request} {s : State} (hk : Keep p s) :
    KeepR p (execRollbackAdvance r s) := by
  unfold execRollbackAdvance
  try dsimp only
  repeat' first
    | with_reducible assumption | with_reducible exact Keep.refl _ | with_reducible apply keep_done
    | with_reducible apply keep_rollbackOp

theorem keep_execEchoCmd {p : State} {r : Request} {s : State} (hk : Keep p s) :
    KeepR p (execEchoCmd r s) := by
  unfold execEchoCmd
  try dsimp only
  repeat' first
    | with_reducible assumption | with_reducible exact Keep.refl _ | with_reducible apply keep_done
    | with_reducible apply keep_echoOp

theorem keep_execObjState {p : State} {family : BitVec 8} {r : Request} {s : State} (hk : Keep p s) :
    KeepR p (execObjState family r s) := by
  unfold execObjState
  try dsimp only
  repeat' first
    | with_reducible assumption | with_reducible exact Keep.refl _ | with_reducible apply keep_done
    | with_reducible apply keep_generic | with_reducible apply keep_objStateOp

theorem keep_execConfigInstall {p : State} {r : Request} {s : State} (hk : Keep p s) :
    KeepR p (execConfigInstall r s) := by
  unfold execConfigInstall
  try dsimp only
  repeat' first
    | with_reducible assumption | with_reducible exact Keep.refl _ | with_reducible apply keep_done
    | with_reducible apply keep_configInstallOp

theorem keep_execObjList {p : State} {family : BitVec 8} {r : Request} {s : State} (hk : Keep p s) :
    KeepR p (execObjList family r s) := by
  unfold execObjList
  try dsimp only
  repeat' first
    | with_reducible assumption | with_reducible exact Keep.refl _ | with_reducible apply keep_done
    | with_reducible apply keep_generic | with_reducible apply keep_objListOp

theorem keep_execFlushUart {p : State} {s : State} (hk : Keep p s) :
    KeepR p (execFlushUart s) := by
  unfold execFlushUart
  try dsimp only
  repeat' first
    | with_reducible assumption | with_reducible exact Keep.refl _ | with_reducible apply keep_done
    | with_reducible apply keep_flushOp

theorem keep_execFabricLoad {p : State} {s : State} (hk : Keep p s) :
    KeepR p (execFabricLoad s) := by
  unfold execFabricLoad
  try dsimp only
  repeat' first
    | with_reducible assumption | with_reducible exact Keep.refl _ | with_reducible apply keep_done
    | with_reducible apply keep_fabricLoadOp

theorem keep_emptySet {p : State} {s : State} (hk : Keep p s) :
    Keep p (emptySet s) := by
  unfold emptySet
  try dsimp only
  repeat' first
    | with_reducible assumption | with_reducible exact Keep.refl _ | with_reducible apply keep_setCommitted
    | with_reducible apply keep_setSpare | fail_if_no_progress with_reducible refine Keep.rec_of ?_ rfl rfl rfl

theorem keep_execPinTable {p : State} {s : State} (hk : Keep p s) :
    KeepR p (execPinTable s) := by
  unfold execPinTable
  try dsimp only
  repeat' first
    | with_reducible assumption | with_reducible exact Keep.refl _ | with_reducible apply keep_done
    | with_reducible apply keep_pinTableOp

theorem keep_resetRise {p : State} {straps : Nat} {s : State} (hk : Keep p s) :
    Keep p (resetRise straps s) := by
  unfold resetRise
  try dsimp only
  repeat' first
    | with_reducible assumption | with_reducible exact Keep.refl _ | with_reducible apply keep_sampleStraps
    | with_reducible apply keep_setHeld | split

theorem keep_functionDone {p : State} {l : Long} {id : Nat} {ok : Bool} {s : State} (hk : Keep p s) :
    Keep p (functionDone l id ok s) := by
  unfold functionDone
  try dsimp only
  repeat' first
    | with_reducible assumption | with_reducible exact Keep.refl _ | with_reducible apply keep_fnAborted
    | with_reducible apply keep_taskSetRun | with_reducible apply keep_linkStopped
    | with_reducible apply keep_regionStopped | split

theorem keep_workDone {p : State} {l : Long} {s : State} (hk : Keep p s) :
    Keep p (workDone l s) := by
  unfold workDone
  try dsimp only
  repeat' first
    | with_reducible assumption | with_reducible exact Keep.refl _ | with_reducible apply keep_exportDone
    | with_reducible apply keep_installDone | with_reducible apply keep_nvDone | with_reducible apply keep_pushDone
    | with_reducible apply keep_rollbackDone | with_reducible apply keep_attestDone
    | with_reducible apply keep_ownerSetDone | with_reducible apply keep_ownerRevokeDone
    | with_reducible apply keep_queueReclaimed | split

theorem keep_installCancelled {p : State} {l : Long} {s : State} (hk : Keep p s) :
    Keep p (installCancelled l s) := by
  unfold installCancelled
  try dsimp only
  repeat' first
    | with_reducible assumption | with_reducible exact Keep.refl _ | with_reducible apply keep_installVerify
    | with_reducible apply keep_installCut | split | with_reducible refine Keep.triple ‹_ = (_, _, _)› ?_

theorem keep_cutShort {p : State} {l : Long} {s : State} (hk : Keep p s) :
    Keep p (cutShort l s) := by
  unfold cutShort
  try dsimp only
  repeat' first
    | with_reducible assumption | with_reducible exact Keep.refl _ | with_reducible apply keep_exportCut
    | with_reducible apply keep_installCancelled | with_reducible apply keep_nvCut
    | with_reducible apply keep_rollbackCut | with_reducible apply keep_coxMod | with_reducible apply keep_powerCancel
    | with_reducible apply keep_laneDrop | fail_if_no_progress with_reducible refine Keep.rec_of ?_ rfl rfl rfl | split

theorem keep_longDone {p : State} {t : Transport} {q : BitVec 16} {ok : Bool} {s : State} (hk : Keep p s) :
    Keep p (longDone t q ok s) := by
  unfold longDone
  try dsimp only
  repeat' first
    | with_reducible assumption | with_reducible exact Keep.refl _ | with_reducible apply keep_functionDone
    | with_reducible apply keep_powerComplete | with_reducible apply keep_bootSent | with_reducible apply keep_workDone
    | with_reducible apply keep_completeLong | with_reducible apply keep_cutShort | split

theorem keep_powerOnEnd {p : State} {straps : Nat} {osc : Bool} {s : State} (hk : Keep p s) :
    Keep p (powerOnEnd straps osc s) := by
  unfold powerOnEnd
  try dsimp only
  repeat' first
    | with_reducible assumption | with_reducible exact Keep.refl _ | with_reducible apply keep_coxMod
    | with_reducible apply keep_sampleStraps | with_reducible apply keep_setHeld | split

theorem keep_execPowerOnResetEnd {p : State} {straps : Fin 8} {osc : Bool} {s : State} (hk : Keep p s) :
    KeepR p (execPowerOnResetEnd straps osc s) := by
  unfold execPowerOnResetEnd
  try dsimp only
  repeat' first
    | with_reducible assumption | with_reducible exact Keep.refl _ | with_reducible apply keep_done
    | with_reducible apply keep_powerOnEnd

theorem keep_identityOp {p : State} {r : Request} {s : State} (hk : Keep p s) :
    Keep p (identityOp r s) := by
  unfold identityOp
  try dsimp only
  repeat' first
    | with_reducible assumption | with_reducible exact Keep.refl _ | with_reducible apply keep_runCmd
    | intro _

theorem keep_execIdentityGet {p : State} {r : Request} {s : State} (hk : Keep p s) :
    KeepR p (execIdentityGet r s) := by
  unfold execIdentityGet
  try dsimp only
  repeat' first
    | with_reducible assumption | with_reducible exact Keep.refl _ | with_reducible apply keep_done
    | with_reducible apply keep_identityOp

theorem keep_ownerRevokeOp {p : State} {r : Request} {s : State} (hk : Keep p s) :
    Keep p (ownerRevokeOp r s) := by
  unfold ownerRevokeOp
  try dsimp only
  repeat' first
    | with_reducible assumption | with_reducible exact Keep.refl _ | with_reducible apply keep_runLong
    | with_reducible refine Keep.id ?_ | intro _

theorem keep_execOwnerKeyRevoke {p : State} {r : Request} {s : State} (hk : Keep p s) :
    KeepR p (execOwnerKeyRevoke r s) := by
  unfold execOwnerKeyRevoke
  try dsimp only
  repeat' first
    | with_reducible assumption | with_reducible exact Keep.refl _ | with_reducible apply keep_done
    | with_reducible apply keep_ownerRevokeOp

theorem keep_resetFall {p : State} {s : State} (hk : Keep p s) :
    Keep p (resetFall s) := by
  unfold resetFall
  try dsimp only
  repeat' first
    | with_reducible assumption | with_reducible exact Keep.refl _ | with_reducible apply keep_setHeld
    | with_reducible apply keep_resetAll | split

theorem keep_execResetNAssert {p : State} {s : State} (hk : Keep p s) :
    KeepR p (execResetNAssert s) := by
  unfold execResetNAssert
  try dsimp only
  repeat' first
    | with_reducible assumption | with_reducible exact Keep.refl _ | with_reducible apply keep_done
    | with_reducible apply keep_resetFall

theorem keep_execCmdQuery {p : State} {r : Request} {s : State} (hk : Keep p s) :
    KeepR p (execCmdQuery r s) := by
  unfold execCmdQuery
  try dsimp only
  repeat' first
    | with_reducible assumption | with_reducible exact Keep.refl _ | with_reducible apply keep_done
    | with_reducible apply keep_cmdQueryOp

theorem keep_brownoutOp {p : State} {s : State} (hk : Keep p s) :
    Keep p (brownoutOp s) := by
  unfold brownoutOp
  try dsimp only
  repeat' first
    | with_reducible assumption | with_reducible exact Keep.refl _ | with_reducible apply keep_resetAll
    | with_reducible apply keep_powerMod | split

theorem keep_execBrownout {p : State} {s : State} (hk : Keep p s) :
    KeepR p (execBrownout s) := by
  unfold execBrownout
  try dsimp only
  repeat' first
    | with_reducible assumption | with_reducible exact Keep.refl _ | with_reducible apply keep_done
    | with_reducible apply keep_brownoutOp

theorem keep_execCmdDoorbell {p : State} {length : BitVec 11} {s : State} (hk : Keep p s) :
    KeepR p (execCmdDoorbell length s) := by
  unfold execCmdDoorbell
  try dsimp only
  repeat' first
    | with_reducible assumption | with_reducible exact Keep.refl _ | with_reducible apply keep_done
    | with_reducible apply keep_unheld | with_reducible apply keep_doorbellOp

theorem keep_execCapsCmd {p : State} {r : Request} {s : State} (hk : Keep p s) :
    KeepR p (execCapsCmd r s) := by
  unfold execCapsCmd
  try dsimp only
  repeat' first
    | with_reducible assumption | with_reducible exact Keep.refl _ | with_reducible apply keep_done
    | with_reducible apply keep_capsOp

theorem keep_execLongCommandCompletion {p : State} {transport : Transport} {sequence : BitVec 16} {ok : Bool} {s :
    State} (hk : Keep p s) :
    KeepR p (execLongCommandCompletion transport sequence ok s) := by
  unfold execLongCommandCompletion
  try dsimp only
  repeat' first
    | with_reducible assumption | with_reducible exact Keep.refl _ | with_reducible apply keep_done
    | with_reducible apply keep_longDone

theorem keep_cancelOp {p : State} {r : Request} {s : State} (hk : Keep p s) :
    Keep p (cancelOp r s) := by
  unfold cancelOp
  try dsimp only
  repeat' first
    | with_reducible assumption | with_reducible exact Keep.refl _ | with_reducible apply keep_powerCancel
    | with_reducible apply keep_completeLong | with_reducible apply keep_cutShort | with_reducible apply keep_reply
    | with_reducible apply keep_runCmd | intro _ | split

theorem keep_execCancelCmd {p : State} {r : Request} {s : State} (hk : Keep p s) :
    KeepR p (execCancelCmd r s) := by
  unfold execCancelCmd
  try dsimp only
  repeat' first
    | with_reducible assumption | with_reducible exact Keep.refl _ | with_reducible apply keep_done
    | with_reducible apply keep_cancelOp

theorem keep_execResetNRise {p : State} {straps : Fin 8} {s : State} (hk : Keep p s) :
    KeepR p (execResetNRise straps s) := by
  unfold execResetNRise
  try dsimp only
  repeat' first
    | with_reducible assumption | with_reducible exact Keep.refl _ | with_reducible apply keep_done
    | with_reducible apply keep_resetRise

theorem keep_execMgmtDatagram {p : State} {source : Nat} {data : List (BitVec 8)} {s : State} (hk : Keep p s) :
    KeepR p (execMgmtDatagram source data s) := by
  unfold execMgmtDatagram
  try dsimp only
  repeat' first
    | with_reducible assumption | with_reducible exact Keep.refl _ | with_reducible apply keep_done
    | with_reducible apply keep_unheld | with_reducible apply keep_datagramOp

theorem keep_execBootContinue {p : State} {r : Request} {s : State} (hk : Keep p s) :
    KeepR p (execBootContinue r s) := by
  unfold execBootContinue
  try dsimp only
  repeat' first
    | with_reducible assumption | with_reducible exact Keep.refl _ | with_reducible apply keep_done
    | with_reducible apply keep_bootContinueOp

theorem keep_execBootReady {p : State} {s : State} (hk : Keep p s) :
    KeepR p (execBootReady s) := by
  unfold execBootReady
  try dsimp only
  repeat' first
    | with_reducible assumption | with_reducible exact Keep.refl _ | with_reducible apply keep_done
    | with_reducible apply keep_bootReadyOp

theorem keep_systemOps {p s : State} (r : Request) (hk : Keep p s) : ∀ e ∈ systemOps, KeepR p (e.2 r s) := by
  unfold systemOps
  repeat' first
    | exact List.forall_mem_nil _
    | refine List.forall_mem_cons.mpr ⟨?_, ?_⟩
  · exact keep_execCapsCmd hk
  · exact keep_execEchoCmd hk
  · exact keep_execCmdQuery hk
  · exact keep_execCancelCmd hk
  · exact keep_execConfigExport hk
  · exact keep_execConfigInstall hk
  · exact keep_execDeviceReset hk
  · exact keep_execTimeSet hk
  · exact keep_execTimeAdjust hk
  · exact keep_execTimeGet hk
  · exact keep_execPtpPortStats hk
  · exact keep_execNvRead hk
  · exact keep_execNvWrite hk
  · exact keep_execPowerSet hk
  · exact keep_execPowerStatus hk

theorem keep_radioOps {p s : State} (r : Request) (hk : Keep p s) : ∀ e ∈ radioOps, KeepR p (e.2 r s) := by
  unfold radioOps
  repeat' first
    | exact List.forall_mem_nil _
    | refine List.forall_mem_cons.mpr ⟨?_, ?_⟩
  · exact keep_execHandsetAdd hk
  · exact keep_execHandsetModify hk
  · exact keep_execHandsetRemove hk
  · exact keep_execHandsetStats hk
  · exact keep_execCarrierStats hk
  · exact keep_execTagSet hk
  · exact keep_execTagRemove hk
  · exact keep_execTagGet hk
  · exact keep_execChirpStats hk
  · exact keep_execLegAdd hk
  · exact keep_execLegRemove hk
  · exact keep_execLegParam hk
  · exact keep_execLegStats hk
  · exact keep_execLegKeySet hk
  · exact keep_execLayoutSet hk
  · exact keep_execLayoutGet hk
  · exact keep_execFwdLegAdd hk
  · exact keep_execFwdLegRemove hk
  · exact keep_execFwdLegStats hk

theorem keep_otherOps {p s : State} (r : Request) (hk : Keep p s) : ∀ e ∈ otherOps, KeepR p (e.2 r s) := by
  unfold otherOps
  repeat' first
    | exact List.forall_mem_nil _
    | refine List.forall_mem_cons.mpr ⟨?_, ?_⟩
  · exact keep_execImagePush hk
  · exact keep_execImageInstall hk
  · exact keep_execBootContinue hk
  · exact keep_execRollbackAdvance hk
  · exact keep_execIdentityGet hk
  · exact keep_execCertGet hk
  · exact keep_execAttest hk
  · exact keep_execOwnerKeysSet hk
  · exact keep_execOwnerKeyRevoke hk
  · exact keep_execSfgStatus hk
  · exact keep_execFaultInject hk
  · exact keep_execFaultClear hk
  · exact keep_execMdStatus hk
  · exact keep_execBupexLinkStats hk
  · exact keep_execBupexBootSend hk
  · exact keep_execServiceSet hk
  · exact keep_execCrewRetire hk
  · exact keep_execShuttleStats hk
  · exact keep_execQueueReclaim hk
  · exact keep_execQueueStats hk
  · exact keep_execWeftDrain hk
  · exact keep_execWeftLinkLoad hk
  · exact keep_execWeftPath hk

theorem keep_genericOp {p s : State} {a b : Nat} {f : Request → State → Res} (e : genericOp a b = some f) (r : Request)
    (hk : Keep p s) : KeepR p (f r s) := by
  unfold genericOp at e
  dsimp only at e
  split at e
  · cases e
  · split at e <;> cases e
    · exact keep_execObjSet hk
    · exact keep_execObjGet hk
    · exact keep_execStartFn hk
    · exact keep_execStopFn hk
    · exact keep_execObjDelete hk
    · exact keep_execObjState hk
    · exact keep_execObjList hk

theorem keep_commandOf {p : State} {n : Nat} {f : Request → State → Res} (e : commandOf n = some f) (r : Request) {s :
    State}
    (hk : Keep p s) : KeepR p (f r s) := by
  unfold commandOf at e
  split at e
  · cases e
    exact keep_genericOp (by assumption) r hk
  · obtain ⟨x, hx, rfl⟩ := Option.map_eq_some_iff.mp e
    have h := List.mem_of_find?_eq_some hx
    rcases List.mem_append.mp h with h | h
    · rcases List.mem_append.mp h with h | h
      · exact keep_systemOps r hk x h
      · exact keep_radioOps r hk x h
    · exact keep_otherOps r hk x h

theorem keep_runRequest {p : State} {t : Transport} {q : RawReq} {s : State} (hk : Keep p s) : Keep p (runRequest t q
    s) := by
  unfold runRequest
  dsimp only
  split
  · exact keep_reply hk
  · split
    · exact keep_reply hk
    · obtain ⟨u, e, h⟩ := keep_commandOf ‹_› (packetRequest t q) hk
      rw [e]
      exact h

theorem keep_takeFrom {p : State} {y0 : List Transport} {y1 : State} (hk : Keep p y1) :
    Keep p (takeFrom y0 y1) := by
  induction y0 generalizing y1 with
  | nil => unfold takeFrom; exact hk
  | cons b r ih =>
    unfold takeFrom
    try dsimp only
    repeat' first
      | with_reducible assumption | with_reducible exact Keep.refl _ | with_reducible apply ih
      | (rename_i h; split at h <;> first | exact keep_requestWait h ‹_› | cases h)
      | exact keep_requestWait ‹requestWait _ _ _ = some _› ‹_› | with_reducible apply keep_runRequest
      | fail_if_no_progress with_reducible refine Keep.rec_of ?_ rfl rfl rfl | split

theorem keep_requestTaken {p : State} {s : State} (hk : Keep p s) :
    Keep p (requestTaken s) := by
  unfold requestTaken
  try dsimp only
  repeat' first
    | with_reducible assumption | with_reducible exact Keep.refl _ | with_reducible apply keep_takeFrom

theorem keep_execRequestTaken {p : State} {s : State} (hk : Keep p s) :
    KeepR p (execRequestTaken s) := by
  unfold execRequestTaken
  try dsimp only
  repeat' first
    | with_reducible assumption | with_reducible exact Keep.refl _ | with_reducible apply keep_done
    | with_reducible apply keep_unheld | with_reducible apply keep_requestTaken

end Sys2Proof.Machine
end

