-- ==== Sys2Proof/Laws/KeepExec.lean ====
section
/-!
SUPPORT. What every command and every clock cycle keeps.
-/
namespace Sys2Proof.Machine
open Sys2Proof

/-- A clock cycle keeps them. -/
theorem keep_cycle {p s : State} (hk : Keep p s) : KeepR p (cycle s) := by
  unfold cycle
  split
  · exact keep_done (keep_writesTick (keep_idleTick (keep_carrierTick
      (keep_weftTick (keep_dmaTick (keep_linksTick (keep_launchTick (keep_fabricTick (keep_coxTick hk)))))))))
  · exact ⟨_, rfl, ⟨hk.part, hk.pending, hk.mem⟩⟩

/-- Every command of the table answers a next state, and that state keeps them. -/
theorem keep_exec {p s : State} (i : Instr) (hk : Keep p s) : KeepR p (exec i s) := by
  cases i
  · exact keep_execResetNRise hk
  · exact keep_execPowerOnResetEnd hk
  · exact keep_execDeviceReset hk
  · exact keep_execRomPhase hk
  · exact keep_execMemInit hk
  · exact keep_execFwLoad hk
  · exact keep_execPinTable hk
  · exact keep_execFabricLoad hk
  · exact keep_execCfgLoad hk
  · exact keep_execAutostart hk
  · exact keep_execDeferredAutostart hk
  · exact keep_execCmdDoorbell hk
  · exact keep_execMgmtDatagram hk
  · exact keep_execUartFrame hk
  · exact keep_execRequestTaken hk
  · exact keep_execSysCmdRplPop hk
  · exact keep_execFlushPcie hk
  · exact keep_execFlushEth hk
  · exact keep_execFlushUart hk
  · exact keep_execLongCommandCompletion hk
  · exact keep_execObjSet hk
  · exact keep_execObjGet hk
  · exact keep_execStartFn hk
  · exact keep_execStopFn hk
  · exact keep_execObjDelete hk
  · exact keep_execObjState hk
  · exact keep_execObjList hk
  · exact keep_execCapsCmd hk
  · exact keep_execEchoCmd hk
  · exact keep_execCmdQuery hk
  · exact keep_execCancelCmd hk
  · exact keep_execConfigExport hk
  · exact keep_execConfigInstall hk
  · exact keep_execImagePush hk
  · exact keep_execImageInstall hk
  · exact keep_execBootContinue hk
  · exact keep_execRollbackAdvance hk
  · exact keep_execIdentityGet hk
  · exact keep_execCertGet hk
  · exact keep_execAttest hk
  · exact keep_execOwnerKeysSet hk
  · exact keep_execOwnerKeyRevoke hk
  · exact keep_execRegisterWrite hk
  · exact keep_execCarrierRunning hk
  · exact keep_execCarrierStopped hk
  · exact keep_execUplaneMessage hk
  · exact keep_execReceiveWindowClose hk
  · exact keep_execDlSymbolSend hk
  · exact keep_execCplaneSend hk
  · exact keep_execEcpriDelayMeasurement hk
  · exact keep_execFronthaulClearAll hk
  · exact keep_execMacScheduling hk
  · exact keep_execDecodeDeadlineMiss hk
  · exact keep_execStatsPeriod hk
  · exact keep_execHandsetAdd hk
  · exact keep_execHandsetModify hk
  · exact keep_execHandsetRemove hk
  · exact keep_execHandsetStats hk
  · exact keep_execCarrierStats hk
  · exact keep_execShuttleArm hk
  · exact keep_execShuttleDec hk
  · exact keep_execPendingInstanceCreate hk
  · exact keep_execTaskReady hk
  · exact keep_execTaskDispatch hk
  · exact keep_execShuttleBeamPut hk
  · exact keep_execTaskCompletion hk
  · exact keep_execBeamTimeout hk
  · exact keep_execEngineCompletion hk
  · exact keep_execRescueEvaluation hk
  · exact keep_execTaskWatchdog hk
  · exact keep_execCancelLate hk
  · exact keep_execCrewFailure hk
  · exact keep_execServiceReq hk
  · exact keep_execServiceSet hk
  · exact keep_execCrewRetire hk
  · exact keep_execShuttleStats hk
  · exact keep_execTaskSetStopped hk
  · exact keep_execAdd hk
  · exact keep_execSub hk
  · exact keep_execAndOp hk
  · exact keep_execOrOp hk
  · exact keep_execXorOp hk
  · exact keep_execSll hk
  · exact keep_execSrl hk
  · exact keep_execSra hk
  · exact keep_execSlt hk
  · exact keep_execSltu hk
  · exact keep_execMul hk
  · exact keep_execMulh hk
  · exact keep_execMulhu hk
  · exact keep_execDiv hk
  · exact keep_execDivu hk
  · exact keep_execRem hk
  · exact keep_execRemu hk
  · exact keep_execClz hk
  · exact keep_execPopc hk
  · exact keep_execAddi hk
  · exact keep_execAndi hk
  · exact keep_execOri hk
  · exact keep_execXori hk
  · exact keep_execSlti hk
  · exact keep_execSltiu hk
  · exact keep_execSlli hk
  · exact keep_execSrli hk
  · exact keep_execSrai hk
  · exact keep_execLui hk
  · exact keep_execShori hk
  · exact keep_execLb hk
  · exact keep_execLbu hk
  · exact keep_execLh hk
  · exact keep_execLhu hk
  · exact keep_execLw hk
  · exact keep_execLwu hk
  · exact keep_execLd hk
  · exact keep_execSb hk
  · exact keep_execSh hk
  · exact keep_execSw hk
  · exact keep_execSd hk
  · exact keep_execBeq hk
  · exact keep_execBne hk
  · exact keep_execBlt hk
  · exact keep_execBge hk
  · exact keep_execBltu hk
  · exact keep_execBgeu hk
  · exact keep_execJmp hk
  · exact keep_execJal hk
  · exact keep_execJalr hk
  · exact keep_execMac hk
  · exact keep_execMsu hk
  · exact keep_execMula hk
  · exact keep_execAccld hk
  · exact keep_execAccx hk
  · exact keep_execAccxs hk
  · exact keep_execMaxi hk
  · exact keep_execMini hk
  · exact keep_execMaxiu hk
  · exact keep_execMiniu hk
  · exact keep_execEcall hk
  · exact keep_execEbreak hk
  · exact keep_execEret hk
  · exact keep_execWfi hk
  · exact keep_execFence hk
  · exact keep_execFenceW hk
  · exact keep_execCclean hk
  · exact keep_execCinval hk
  · exact keep_execCflush hk
  · exact keep_execCcleanR hk
  · exact keep_execCinvalR hk
  · exact keep_execCflushR hk
  · exact keep_execCcleanAll hk
  · exact keep_execCflushAll hk
  · unfold exec; exact keep_execIinval hk
  · exact keep_execIinvalAll hk
  · exact keep_execTaskWait hk
  · exact keep_execTaskDone hk
  · exact keep_execDoorbell hk
  · exact keep_execCsrr hk
  · exact keep_execCsrw hk
  · exact keep_execCsrs hk
  · exact keep_execCsrc hk
  · exact keep_execInterruptEntry hk
  · exact keep_execStoreError hk
  · exact keep_execCoreReset hk
  · exact keep_execCrewDoorbell hk
  · exact keep_execCrewBankOwner hk
  · exact keep_execBankOwnerCommit hk
  · exact keep_execCrewFatal hk
  · exact keep_execCrewRetentionAck hk
  · exact keep_execVset hk
  · exact keep_execVld hk
  · exact keep_execVldff hk
  · exact keep_execVst hk
  · exact keep_execVldM hk
  · exact keep_execVstM hk
  · exact keep_execVadd hk
  · exact keep_execVsub hk
  · exact keep_execVadds hk
  · exact keep_execVsubs hk
  · exact keep_execVand hk
  · exact keep_execVor hk
  · exact keep_execVxor hk
  · exact keep_execVmin hk
  · exact keep_execVmax hk
  · exact keep_execVminu hk
  · exact keep_execVmaxu hk
  · exact keep_execVsll hk
  · exact keep_execVsrl hk
  · exact keep_execVsra hk
  · exact keep_execVnsra hk
  · exact keep_execVnsras hk
  · exact keep_execVmul hk
  · exact keep_execVmulq hk
  · exact keep_execVmacw hk
  · exact keep_execVmsuw hk
  · exact keep_execVcmulw hk
  · exact keep_execVcmacw hk
  · exact keep_execVcmacjw hk
  · exact keep_execVcmulq hk
  · exact keep_execVfadd hk
  · exact keep_execVfsub hk
  · exact keep_execVfmul hk
  · exact keep_execVfma hk
  · exact keep_execVfmin hk
  · exact keep_execVfmax hk
  · exact keep_execVfrece hk
  · exact keep_execVfrsqe hk
  · exact keep_execVfcvtI hk
  · exact keep_execVfcvtF hk
  · exact keep_execVcmpeq hk
  · exact keep_execVcmpne hk
  · exact keep_execVcmplt hk
  · exact keep_execVcmpltu hk
  · exact keep_execVcmple hk
  · exact keep_execVcmpleu hk
  · exact keep_execVfcmpeq hk
  · exact keep_execVfcmplt hk
  · exact keep_execVmerge hk
  · exact keep_execVredsum hk
  · exact keep_execVredmax hk
  · exact keep_execVredmin hk
  · exact keep_execVslidedn hk
  · exact keep_execVslideup hk
  · exact keep_execVgatherr hk
  · exact keep_execVext hk
  · exact keep_execVins hk
  · exact keep_execVmand hk
  · exact keep_execVmor hk
  · exact keep_execVmxor hk
  · exact keep_execVmandn hk
  · exact keep_execVmset hk
  · exact keep_execVmclr hk
  · exact keep_execVmpopc hk
  · exact keep_execVmfirst hk
  · exact keep_execCpiss hk
  · exact keep_execCpres hk
  · exact keep_execCpb hk
  · exact keep_execCpwait hk
  · exact keep_execCpfree hk
  · exact keep_execCptst hk
  · exact keep_execFft hk
  · exact keep_execIfft hk
  · exact keep_execFftPeak hk
  · exact keep_execDft hk
  · exact keep_execIdft hk
  · exact keep_execChest hk
  · exact keep_execMimoDet hk
  · exact keep_execPower hk
  · exact keep_execBwWeights hk
  · exact keep_execBwApply hk
  · exact keep_execHandover hk
  · exact keep_execLdpcDecode hk
  · exact keep_execLdpcEncode hk
  · exact keep_execPolarDecode hk
  · exact keep_execPolarEncode hk
  · exact keep_execCipherTask hk
  · exact keep_execBandSampleMessage hk
  · exact keep_execBandGap hk
  · exact keep_execChirpGroupStopped hk
  · exact keep_execDetection hk
  · exact keep_execHeaderCheck hk
  · exact keep_execReceptionEnd hk
  · exact keep_execNoiseFloorPeriod hk
  · exact keep_execTxDequeue hk
  · exact keep_execTxFrameLaunch hk
  · exact keep_execTxFrameEnd hk
  · exact keep_execTagSet hk
  · exact keep_execTagRemove hk
  · exact keep_execTagGet hk
  · exact keep_execChirpStats hk
  · exact keep_execCssCntClear hk
  · exact keep_execBridgeGroupRunning hk
  · exact keep_execBridgeGroupStopped hk
  · exact keep_execInputFrame hk
  · exact keep_execBlockCompute hk
  · exact keep_execAudioBlockOverrun hk
  · exact keep_execSubsumReceived hk
  · exact keep_execParamDescriptor hk
  · exact keep_execLegAdd hk
  · exact keep_execLegRemove hk
  · exact keep_execLegParam hk
  · exact keep_execLegStats hk
  · exact keep_execLegKeySet hk
  · exact keep_execAudioClearAll hk
  · exact keep_execHspInsertion hk
  · exact keep_execAccessoryDetection hk
  · exact keep_execHspRemoval hk
  · exact keep_execMicMeasurement hk
  · exact keep_execVideoSessionRunning hk
  · exact keep_execVideoSessionStopped hk
  · exact keep_execAccessUnit hk
  · exact keep_execPictureDecode hk
  · exact keep_execPictureEncode hk
  · exact keep_execComposeFrame hk
  · exact keep_execSt2110Packet hk
  · exact keep_execSt2110PictureEligible hk
  · exact keep_execTx2110Picture hk
  · exact keep_execStreamPacket hk
  · exact keep_execLayerRateMeasure hk
  · exact keep_execForecastRecord hk
  · exact keep_execForecastRelay hk
  · exact keep_execForecastStale hk
  · exact keep_execFeedbackRecord hk
  · exact keep_execUpHoldExpiry hk
  · exact keep_execKeyRequest hk
  · exact keep_execStreamPacketExpiry hk
  · exact keep_execLayoutSet hk
  · exact keep_execLayoutGet hk
  · exact keep_execFwdLegAdd hk
  · exact keep_execFwdLegRemove hk
  · exact keep_execFwdLegStats hk
  · exact keep_execFwdClearAll hk
  · exact keep_execPtpSync hk
  · exact keep_execDelayResp hk
  · exact keep_execAnnounce hk
  · exact keep_execPtpMessageSend hk
  · exact keep_execPtpTimeout hk
  · exact keep_execPpsEdge hk
  · exact keep_execPpsInputInvalid hk
  · exact keep_execReferencePromotion hk
  · exact keep_execHoldoverExpiry hk
  · exact keep_execStrobe hk
  · exact keep_execTimeSet hk
  · exact keep_execPpsNoEdge hk
  · exact keep_execTimeAdjust hk
  · exact keep_execTimeGet hk
  · exact keep_execPtpPortStats hk
  · exact keep_execCoxLatchShortLo hk
  · exact keep_execCoxPpsInTsLo hk
  · exact keep_execMemDevCe hk
  · exact keep_execMemChannelDown hk
  · exact keep_execMemRepair hk
  · exact keep_execMemFlipArm hk
  · exact keep_execInboundPcieWrite hk
  · exact keep_execInboundPcieRead hk
  · exact keep_execSpoolAlloc hk
  · exact keep_execSpoolEnq hk
  · exact keep_execSpoolDeq hk
  · exact keep_execSpoolFree hk
  · exact keep_execSpoolNext hk
  · exact keep_execPacketJoin hk
  · exact keep_execSpoolCqPush hk
  · exact keep_execSpoolCqPop hk
  · exact keep_execSpoolCqEnable hk
  · exact keep_execQueueReclaim hk
  · exact keep_execQueueStats hk
  · exact keep_execHandoverCycle hk
  · exact keep_execMoveProg hk
  · exact keep_execLoopProg hk
  · exact keep_execEndloop hk
  · exact keep_execWaitProg hk
  · exact keep_execWaitTimeout hk
  · exact keep_execSignalProg hk
  · exact keep_execDmaFence hk
  · exact keep_execEndProg hk
  · exact keep_execDmaArm hk
  · exact keep_execAbortCh hk
  · exact keep_execShadowWrite hk
  · exact keep_execCredit hk
  · exact keep_execGatewayHeadFlit hk
  · exact keep_execRequestTimeout hk
  · exact keep_execCreditSync hk
  · exact keep_execWeftRoute hk
  · exact keep_execWeftDrain hk
  · exact keep_execDrainStart hk
  · exact keep_execDrained hk
  · exact keep_execDrainEnd hk
  · exact keep_execWeftBist hk
  · exact keep_execWeftLinkLoad hk
  · exact keep_execWeftPath hk
  · exact keep_execEthPortEnable hk
  · exact keep_execEthLinkUp hk
  · exact keep_execEthLinkDown hk
  · exact keep_execEthFrameReceived hk
  · exact keep_execLaneParityActive hk
  · exact keep_execPrbsSyncLost hk
  · exact keep_execLanePrbsErrLo hk
  · exact keep_execBupexLinkRunning hk
  · exact keep_execBupexFrame hk
  · exact keep_execHello hk
  · exact keep_execBupexLinkDown hk
  · exact keep_execBupexLinkUp hk
  · exact keep_execBupexIdleEntry hk
  · exact keep_execBupexIdleExit hk
  · exact keep_execPartitioned hk
  · exact keep_execRejoined hk
  · exact keep_execProxyEnqueue hk
  · exact keep_execMdStatus hk
  · exact keep_execBupexLinkStats hk
  · exact keep_execBupexBootSend hk
  · exact keep_execBootReady hk
  · exact keep_execFabricContention hk
  · exact keep_execCfgReadback hk
  · exact keep_execRegionStartLoad hk
  · exact keep_execRegionStop hk
  · exact keep_execFabricPinSet hk
  · exact keep_execFabricPinClr hk
  · exact keep_execFabricSpTx hk
  · exact keep_execFabricSpRx hk
  · exact keep_execOscEnable hk
  · exact keep_execNvRead hk
  · exact keep_execNvWrite hk
  · exact keep_execIdleTimerExpiry hk
  · exact keep_execDozeEntry hk
  · exact keep_execDomainEntry hk
  · exact keep_execDomainEntryComplete hk
  · exact keep_execWakeRequest hk
  · exact keep_execWakeReadyStep hk
  · exact keep_execWakeFail hk
  · exact keep_execMonitorSample hk
  · exact keep_execBrownout hk
  · exact keep_execPfail hk
  · exact keep_execLastGaspReceived hk
  · exact keep_execPowerRestored hk
  · exact keep_execPowerSet hk
  · exact keep_execPowerStatus hk
  · exact keep_execPowerDomCtrl hk
  · exact keep_execThermtrip hk
  · exact keep_execSfgStatus hk
  · exact keep_execFaultInject hk
  · exact keep_execFaultClear hk
  · exact keep_execInjectionExpiry hk
  · exact keep_execSscEnable hk
  · exact keep_execResetNAssert hk
  · exact keep_execBrownoutResetEnd hk
  · exact keep_execCoreTimerCmpReached hk
  · exact keep_execWaitContinue hk
  · exact keep_execBootTransferTimeout hk
  · exact keep_execSerialPortByteReceived hk
  · exact keep_execPcieLinkChange hk
  · exact keep_execTempSensorUpdate hk

end Sys2Proof.Machine
end

