-- ==== Sys2Proof/Laws/Vector.lean ====
section
/-!
SUPPORT. The element loop of the vector unit: which element a result holds at each place, and what an arithmetic or compare
instruction does as a whole.
-/
namespace Sys2Proof.Machine
open Sys2Proof

theorem elemAt_lt (g w i : Nat) : elemAt g w i < 2 ^ w := Nat.mod_lt _ (Nat.two_pow_pos w)

/-- An element list read back. -/
theorem elemAt_fromElems (w : Nat) (hi n : Nat) (es : List Nat) (k : Nat) (hn : es.length = n) (h : k < es.length) :
    elemAt (fromElems w es + hi * 2 ^ (w * n)) w k = es[k] % 2 ^ w := by
  subst hn
  induction es generalizing k with
  | nil => simp at h
  | cons e es ih =>
    have e1 : fromElems w (e :: es) + hi * 2 ^ (w * (e :: es).length) =
        e % 2 ^ w + 2 ^ w * (fromElems w es + hi * 2 ^ (w * es.length)) := by
      simp only [fromElems, List.foldr_cons, List.length_cons, Nat.mul_add, Nat.mul_one, Nat.pow_add]
      ring
    have hp := Nat.two_pow_pos w
    cases k with
    | zero =>
      rw [e1]
      simp [elemAt, Nat.add_mul_mod_self_left]
    | succ k =>
      have := ih k (by simpa using h)
      rw [e1]
      unfold elemAt at this ⊢
      rw [Nat.mul_succ, Nat.add_comm (w * k), Nat.pow_add, ← Nat.div_div_eq_div_mul, Nat.add_mul_div_left _ _ hp,
        Nat.div_eq_of_lt (Nat.mod_lt _ hp), Nat.zero_add, this]
      rfl

/-- The element loop, element by element. -/
theorem elemAt_elemLoop (h : Shape) (act : Nat → Bool) (w old : Nat) (op : Nat → Nat × Nat) (k : Nat) (hk : k < h.vlmax) :
    elemAt (elemLoop h act w old op).1 w k = loopElem h act (elemAt old w) (fun i => (op i).1 % 2 ^ w) k := by
  unfold elemLoop
  dsimp only
  have hl : (((List.range h.vlmax).map fun i =>
    if i < h.count then
      if act i then op i else (if h.maskZero then 0 else elemAt old w i, 0)
    else (if h.tailZero then 0 else elemAt old w i, 0)).map (·.1)).length = h.vlmax := by simp
  rw [elemAt_fromElems w (old / 2 ^ (w * h.vlmax)) h.vlmax _ k hl (by rw [hl]; exact hk)]
  simp only [List.getElem_map, List.getElem_range, loopElem]
  have ho : elemAt old w k % 2 ^ w = elemAt old w k := Nat.mod_eq_of_lt (elemAt_lt _ _ _)
  split
  · split
    · rfl
    · split <;> simp [ho]
  · split <;> simp [ho]

theorem foldl_lor_acc {α : Type} (f : α → Nat) (l : List α) (a : Nat) :
    l.foldl (fun acc r => Nat.lor acc (f r)) a = Nat.lor a (l.foldl (fun acc r => Nat.lor acc (f r)) 0) := by
  induction l generalizing a with
  | nil => exact (Nat.or_zero a).symm
  | cons x l ih =>
    simp only [List.foldl_cons]
    rw [ih (Nat.lor a (f x)), ih (Nat.lor 0 (f x))]
    change (a ||| f x) ||| _ = a ||| ((0 ||| f x) ||| _)
    rw [Nat.zero_or, Nat.or_assoc]

theorem foldl_lor_filter {α : Type} (p : α → Bool) (f : α → Nat) (l : List α) :
    (l.filter p).foldl (fun acc r => Nat.lor acc (f r)) 0 = l.foldl (fun acc r => Nat.lor acc (if p r then f r else 0)) 0 := by
  induction l with
  | nil => rfl
  | cons x l ih =>
    rw [List.foldl_cons, foldl_lor_acc _ l, ← ih]
    cases h : p x
    · simp [h]
    · simp only [List.filter_cons, h, if_true, List.foldl_cons]
      exact foldl_lor_acc _ _ _

theorem range_filter_lt (n m : Nat) : (List.range n).filter (fun k => decide (k < m)) = List.range (min m n) := by
  induction n with
  | zero => simp
  | succ n ih =>
    rw [List.range_succ, List.filter_append, ih]
    by_cases h : n < m
    · have e1 : min m n = n := by omega
      simp [h, e1, List.range_succ]
    · have e1 : min m n = m := by omega
      have e2 : min m (n + 1) = m := by omega
      simp [h, e1, e2]

/-- The conditions the element loop gathers. -/
theorem elemLoop_flags (h : Shape) (act : Nat → Bool) (w old : Nat) (op : Nat → Nat × Nat) :
    (elemLoop h act w old op).2 = gathered h act (fun k => (op k).2) := by
  unfold elemLoop gathered
  dsimp only
  rw [← range_filter_lt, List.filter_filter, foldl_lor_filter, List.foldl_map]
  congr 1
  funext acc k
  by_cases h1 : k < h.count <;> cases act k <;> simp [h1]

theorem ewOf_pos (t : Nat) : 0 < ewOf t := by unfold ewOf; split_ifs <;> decide
theorem ewOf_dvd (t : Nat) : ewOf t ∣ 512 := by unfold ewOf; split_ifs <;> decide

theorem vlmax_shapeOf (x : Core) : (shapeOf x).vlmax = (shapeOf x).grp * 512 / (shapeOf x).ew := rfl

/-- The registers and the width an operand of an arithmetic instruction takes. -/
def wide (b : Bool) (n : Nat) : Nat := if b then 2 * n else n

theorem wide_vlmax (b : Bool) (x : Core) : wide b (shapeOf x).grp * 512 / wide b (shapeOf x).ew = (shapeOf x).vlmax := by
  rw [vlmax_shapeOf]
  cases b
  · rfl
  · simp only [wide, if_true]
    rw [Nat.mul_assoc, Nat.mul_div_mul_left _ _ (by decide)]

@[simp] theorem shapeOf_begun (x : Core) : shapeOf (begun x) = shapeOf x := by simp [shapeOf]
@[simp] theorem getGroup_begun (x : Core) (r n : Nat) : getGroup (begun x) r n = getGroup x r n := by simp only [getGroup, begun_v]

theorem exc_putGroup (r v n : Nat) (x : Core) : (putGroup r v n x).exc = x.exc := by
  induction n generalizing r v x with
  | zero => rfl
  | succ n ih => rw [putGroup, ih]

/-- A vector arithmetic instruction whose type, groups and registers are allowed. -/
theorem writesGroup_vArith {i : Instr} {s : State} {c : Fin 96} {f : VArith} {types : Nat → Bool} {kind : VKind} {shift : Bool}
    {op : Shape → Nat → Nat → Nat → Nat × Nat} (hi : exec i s = vArith c f types kind shift op s) (hr : Ready s c)
    (ht : types (shapeOf (core s c)).et = true)
    (hd : wide (kind == .widen) (shapeOf (core s c)).grp ≤ 8) (ha : wide (kind == .narrow) (shapeOf (core s c)).grp ≤ 8)
    (h1 : f.vd.val % wide (kind == .widen) (shapeOf (core s c)).grp = 0)
    (h2 : f.vs1.val % wide (kind == .narrow) (shapeOf (core s c)).grp = 0)
    (h3 : secondOk f.b (shapeOf (core s c)).grp = true)
    (h4 : kind = .widen → overlaps f.vs1 (shapeOf (core s c)).grp f.vd (2 * (shapeOf (core s c)).grp) = false ∧
      secondOver f.b (shapeOf (core s c)).grp f.vd (2 * (shapeOf (core s c)).grp) = false) :
    let x := begun (core s c)
    let h := shapeOf (core s c)
    let dw := wide (kind == .widen) h.ew
    let dg := wide (kind == .widen) h.grp
    let old := elemAt (getGroup x f.vd dg) dw
    let a := elemAt (getGroup x f.vs1 (wide (kind == .narrow) h.grp)) (wide (kind == .narrow) h.ew)
    WritesGroup i s c f.vd dg dw
      (loopElem h (activeAt x f.men f.msel) old (fun k => (op h (old k) (a k) (secondOp x h f.b shift k)).1 % 2 ^ dw))
      (gathered h (activeAt x f.men f.msel) fun k => (op h (old k) (a k) (secondOp x h f.b shift k)).2) := by
  intro x h dw dg old a
  refine ⟨(elemLoop h (activeAt x f.men f.msel) dw (getGroup x f.vd dg) fun k =>
    op h (old k) (a k) (secondOp x h f.b shift k)).1, ?_, ?_⟩
  · rw [← elemLoop_flags h (activeAt x f.men f.msel) dw (getGroup x f.vd dg)
      (fun k => op h (old k) (a k) (secondOp x h f.b shift k))]
    have hx : shapeOf x = h := shapeOf_begun _
    refine effect_onCore hi hr ?_ (by simp only [x, exc_retire, stick, exc_putGroup, begun_exc, imp_self])
    dsimp only
    change (if _ then _ else if _ then _ else _) = _
    rw [if_neg, if_neg]
    · rw [shapeOf_begun]
      cases kind <;> rfl
    · rw [shapeOf_begun]
      cases kind
      · simp_all [wide]
      · obtain ⟨q1, q2⟩ := h4 rfl
        simp_all [wide]
      · simp_all [wide]
    · rw [shapeOf_begun]
      cases kind <;> simp_all [wide]
  · intro k hk
    have hv : k < h.vlmax := by
      rw [wide_vlmax] at hk
      exact hk
    rw [elemAt_elemLoop _ _ _ _ _ _ hv]

end Sys2Proof.Machine
end

