-- ==== Sys2Proof/WellFormed.lean ====
section
/-!
DEFINITION. Well-formed commands: what the operands of a command keep to beyond their types, as the packet and frame
formats give them.
-/
namespace Sys2Proof

/-- A request as its command sees it (02_commands.md, Packet format): whole parameter words that fit a packet, no reserved
flag. -/
def requestWf (r : Request) : Bool := r.params.length % 4 == 0 && r.params.length ≤ 4080 && r.flags.toNat < 4

/-- A requester identity: its unit is not 0. -/
def initiatorWf (i : Initiator) : Bool := i.unit != 0

/-- A received Bupex frame: a boot transfer's frame carries at most 256 bytes of the image (R575). -/
def frameWf (f : BupexFrame) : Bool :=
  match f.body with
  | .bootFirst _ d => d.length ≤ 256
  | .bootNext d => d.length ≤ 256
  | _ => true

/-- The operands of a command keep to their formats. -/
def Instr.wf (i : Instr) : Bool :=
  match i with
  | .resetNRise _ => true
  | .powerOnResetEnd _ _ => true
  | .deviceReset r => requestWf r
  | .romPhase _ _ _ => true
  | .memInit channels => channels.length == 8
  | .fwLoad => true
  | .pinTable => true
  | .fabricLoad => true
  | .cfgLoad => true
  | .autostart => true
  | .deferredAutostart => true
  | .cmdDoorbell _ => true
  | .mgmtDatagram _ data => data.length ≤ 65507
  | .uartFrame data => data.all (· != 0)
  | .requestTaken => true
  | .sysCmdRplPop => true
  | .flushPcie => true
  | .flushEth => true
  | .flushUart => true
  | .longCommandCompletion _ _ _ => true
  | .objSet family r => family.toNat < 16 && requestWf r
  | .objGet family r => family.toNat < 16 && requestWf r
  | .startFn family r => family.toNat < 16 && requestWf r
  | .stopFn family r => family.toNat < 16 && requestWf r
  | .objDelete family r => family.toNat < 16 && requestWf r
  | .objState family r => family.toNat < 16 && requestWf r
  | .objList family r => family.toNat < 16 && requestWf r
  | .capsCmd r => requestWf r
  | .echoCmd r => requestWf r
  | .cmdQuery r => requestWf r
  | .cancelCmd r => requestWf r
  | .configExport r => requestWf r
  | .configInstall r => requestWf r
  | .imagePush r => requestWf r
  | .imageInstall r => requestWf r
  | .bootContinue r => requestWf r
  | .rollbackAdvance r => requestWf r
  | .identityGet r => requestWf r
  | .certGet r => requestWf r
  | .attest r => requestWf r
  | .ownerKeysSet r => requestWf r
  | .ownerKeyRevoke r => requestWf r
  | .registerWrite i _ _ _ _ => initiatorWf i
  | .carrierRunning _ => true
  | .carrierStopped _ => true
  | .uplaneMessage _ _ _ _ _ first prbs => (prbs.all fun p => p.mantissas.length == 24) && first.val + prbs.length ≤ 273
  | .receiveWindowClose _ _ _ => true
  | .dlSymbolSend _ _ _ _ => true
  | .cplaneSend _ _ _ => true
  | .ecpriDelayMeasurement _ _ _ => true
  | .fronthaulClearAll => true
  | .macScheduling _ _ _ => true
  | .decodeDeadlineMiss _ _ => true
  | .statsPeriod _ => true
  | .handsetAdd r => requestWf r
  | .handsetModify r => requestWf r
  | .handsetRemove r => requestWf r
  | .handsetStats r => requestWf r
  | .carrierStats r => requestWf r
  | .shuttleArm _ => true
  | .shuttleDec i _ _ => initiatorWf i
  | .pendingInstanceCreate _ => true
  | .taskReady _ => true
  | .taskDispatch _ => true
  | .shuttleBeamPut i _ => initiatorWf i
  | .taskCompletion _ => true
  | .beamTimeout _ => true
  | .engineCompletion _ => true
  | .rescueEvaluation => true
  | .taskWatchdog _ => true
  | .cancelLate _ _ => true
  | .crewFailure _ => true
  | .serviceReq _ => true
  | .serviceSet r => requestWf r
  | .crewRetire r => requestWf r
  | .shuttleStats r => requestWf r
  | .taskSetStopped _ => true
  | .add _ _ _ _ => true
  | .sub _ _ _ _ => true
  | .andOp _ _ _ _ => true
  | .orOp _ _ _ _ => true
  | .xorOp _ _ _ _ => true
  | .sll _ _ _ _ => true
  | .srl _ _ _ _ => true
  | .sra _ _ _ _ => true
  | .slt _ _ _ _ => true
  | .sltu _ _ _ _ => true
  | .mul _ _ _ _ => true
  | .mulh _ _ _ _ => true
  | .mulhu _ _ _ _ => true
  | .div _ _ _ _ => true
  | .divu _ _ _ _ => true
  | .rem _ _ _ _ => true
  | .remu _ _ _ _ => true
  | .clz _ _ _ => true
  | .popc _ _ _ => true
  | .addi _ _ _ _ => true
  | .andi _ _ _ _ => true
  | .ori _ _ _ _ => true
  | .xori _ _ _ _ => true
  | .slti _ _ _ _ => true
  | .sltiu _ _ _ _ => true
  | .slli _ _ _ _ => true
  | .srli _ _ _ _ => true
  | .srai _ _ _ _ => true
  | .lui _ _ _ => true
  | .shori _ _ _ _ => true
  | .lb _ _ _ _ => true
  | .lbu _ _ _ _ => true
  | .lh _ _ _ _ => true
  | .lhu _ _ _ _ => true
  | .lw _ _ _ _ => true
  | .lwu _ _ _ _ => true
  | .ld _ _ _ _ => true
  | .sb _ _ _ _ => true
  | .sh _ _ _ _ => true
  | .sw _ _ _ _ => true
  | .sd _ _ _ _ => true
  | .beq _ _ _ _ => true
  | .bne _ _ _ _ => true
  | .blt _ _ _ _ => true
  | .bge _ _ _ _ => true
  | .bltu _ _ _ _ => true
  | .bgeu _ _ _ _ => true
  | .jmp _ _ => true
  | .jal _ _ => true
  | .jalr _ _ _ _ => true
  | .mac _ _ _ _ => true
  | .msu _ _ _ _ => true
  | .mula _ _ _ _ => true
  | .accld _ _ _ => true
  | .accx _ _ _ _ => true
  | .accxs _ _ _ _ => true
  | .maxi _ _ _ _ => true
  | .mini _ _ _ _ => true
  | .maxiu _ _ _ _ => true
  | .miniu _ _ _ _ => true
  | .ecall _ => true
  | .ebreak _ => true
  | .eret _ => true
  | .wfi _ => true
  | .fence _ => true
  | .fenceW _ => true
  | .cclean _ _ => true
  | .cinval _ _ => true
  | .cflush _ _ => true
  | .ccleanR _ _ _ => true
  | .cinvalR _ _ _ => true
  | .cflushR _ _ _ => true
  | .ccleanAll _ => true
  | .cflushAll _ => true
  | .iinval _ _ => true
  | .iinvalAll _ => true
  | .taskWait _ => true
  | .taskDone _ _ => true
  | .doorbell _ _ => true
  | .csrr _ _ _ => true
  | .csrw _ _ _ _ => true
  | .csrs _ _ _ _ => true
  | .csrc _ _ _ _ => true
  | .interruptEntry _ => true
  | .storeError _ _ => true
  | .coreReset _ => true
  | .crewDoorbell i _ _ => initiatorWf i
  | .crewBankOwner i _ _ _ _ => initiatorWf i
  | .bankOwnerCommit _ _ => true
  | .crewFatal _ _ => true
  | .crewRetentionAck i _ _ => initiatorWf i
  | .vset _ _ _ _ => true
  | .vld _ _ => true
  | .vldff _ _ => true
  | .vst _ _ => true
  | .vldM _ _ _ => true
  | .vstM _ _ _ => true
  | .vadd _ _ => true
  | .vsub _ _ => true
  | .vadds _ _ => true
  | .vsubs _ _ => true
  | .vand _ _ => true
  | .vor _ _ => true
  | .vxor _ _ => true
  | .vmin _ _ => true
  | .vmax _ _ => true
  | .vminu _ _ => true
  | .vmaxu _ _ => true
  | .vsll _ _ => true
  | .vsrl _ _ => true
  | .vsra _ _ => true
  | .vnsra _ _ => true
  | .vnsras _ _ => true
  | .vmul _ _ => true
  | .vmulq _ _ => true
  | .vmacw _ _ => true
  | .vmsuw _ _ => true
  | .vcmulw _ _ => true
  | .vcmacw _ _ => true
  | .vcmacjw _ _ => true
  | .vcmulq _ _ => true
  | .vfadd _ _ => true
  | .vfsub _ _ => true
  | .vfmul _ _ => true
  | .vfma _ _ => true
  | .vfmin _ _ => true
  | .vfmax _ _ => true
  | .vfrece _ _ => true
  | .vfrsqe _ _ => true
  | .vfcvtI _ _ => true
  | .vfcvtF _ _ => true
  | .vcmpeq _ _ => true
  | .vcmpne _ _ => true
  | .vcmplt _ _ => true
  | .vcmpltu _ _ => true
  | .vcmple _ _ => true
  | .vcmpleu _ _ => true
  | .vfcmpeq _ _ => true
  | .vfcmplt _ _ => true
  | .vmerge _ _ => true
  | .vredsum _ _ _ _ _ => true
  | .vredmax _ _ _ _ _ => true
  | .vredmin _ _ _ _ _ => true
  | .vslidedn _ _ _ _ _ _ => true
  | .vslideup _ _ _ _ _ _ => true
  | .vgatherr _ _ _ _ _ _ => true
  | .vext _ _ _ _ => true
  | .vins _ _ _ _ => true
  | .vmand _ _ _ _ => true
  | .vmor _ _ _ _ => true
  | .vmxor _ _ _ _ => true
  | .vmandn _ _ _ _ => true
  | .vmset _ _ => true
  | .vmclr _ _ => true
  | .vmpopc _ _ _ => true
  | .vmfirst _ _ _ => true
  | .cpiss _ _ _ _ => true
  | .cpres _ _ _ => true
  | .cpb _ _ _ _ => true
  | .cpwait _ _ => true
  | .cpfree _ _ => true
  | .cptst _ _ _ => true
  | .fft _ _ _ => true
  | .ifft _ _ _ => true
  | .fftPeak _ _ => true
  | .dft _ _ _ => true
  | .idft _ _ _ => true
  | .chest _ _ _ => true
  | .mimoDet _ _ _ => true
  | .power _ _ => true
  | .bwWeights _ _ => true
  | .bwApply _ _ => true
  | .handover _ _ => true
  | .ldpcDecode _ => true
  | .ldpcEncode _ => true
  | .polarDecode _ => true
  | .polarEncode _ => true
  | .cipherTask _ => true
  | .bandSampleMessage _ _ _ => true
  | .bandGap _ => true
  | .chirpGroupStopped _ => true
  | .detection _ _ _ _ _ _ _ => true
  | .headerCheck _ _ _ _ => true
  | .receptionEnd _ _ _ => true
  | .noiseFloorPeriod _ _ => true
  | .txDequeue _ => true
  | .txFrameLaunch _ _ => true
  | .txFrameEnd _ => true
  | .tagSet r => requestWf r
  | .tagRemove r => requestWf r
  | .tagGet r => requestWf r
  | .chirpStats r => requestWf r
  | .cssCntClear _ => true
  | .bridgeGroupRunning _ => true
  | .bridgeGroupStopped _ => true
  | .inputFrame _ => true
  | .blockCompute mic0 mic1 _ => mic0.length == 48 && mic1.length == 48
  | .audioBlockOverrun => true
  | .subsumReceived _ _ _ samples => samples.length == 48
  | .paramDescriptor => true
  | .legAdd r => requestWf r
  | .legRemove r => requestWf r
  | .legParam r => requestWf r
  | .legStats r => requestWf r
  | .legKeySet r => requestWf r
  | .audioClearAll => true
  | .hspInsertion _ => true
  | .accessoryDetection _ _ _ _ _ _ => true
  | .hspRemoval _ => true
  | .micMeasurement _ _ => true
  | .videoSessionRunning _ => true
  | .videoSessionStopped _ => true
  | .accessUnit _ => true
  | .pictureDecode _ => true
  | .pictureEncode _ => true
  | .composeFrame _ => true
  | .st2110Packet _ _ _ _ _ _ _ => true
  | .st2110PictureEligible _ => true
  | .tx2110Picture _ => true
  | .streamPacket _ => true
  | .layerRateMeasure => true
  | .forecastRecord _ => true
  | .forecastRelay _ _ => true
  | .forecastStale _ => true
  | .feedbackRecord => true
  | .upHoldExpiry _ => true
  | .keyRequest _ => true
  | .streamPacketExpiry _ => true
  | .layoutSet r => requestWf r
  | .layoutGet r => requestWf r
  | .fwdLegAdd r => requestWf r
  | .fwdLegRemove r => requestWf r
  | .fwdLegStats r => requestWf r
  | .fwdClearAll => true
  | .ptpSync _ _ _ => true
  | .delayResp _ _ _ => true
  | .announce _ _ => true
  | .ptpMessageSend _ _ => true
  | .ptpTimeout _ _ => true
  | .ppsEdge _ => true
  | .ppsInputInvalid _ => true
  | .referencePromotion _ => true
  | .holdoverExpiry => true
  | .strobe _ => true
  | .timeSet r => requestWf r
  | .ppsNoEdge => true
  | .timeAdjust r => requestWf r
  | .timeGet r => requestWf r
  | .ptpPortStats r => requestWf r
  | .coxLatchShortLo _ => true
  | .coxPpsInTsLo _ => true
  | .memDevCe _ => true
  | .memChannelDown _ _ => true
  | .memRepair _ _ => true
  | .memFlipArm _ _ => true
  | .inboundPcieWrite _ data _ => 1 ≤ data.length && data.length ≤ 4096
  | .inboundPcieRead _ len => 1 ≤ len.toNat && len.toNat ≤ 4096
  | .spoolAlloc i => initiatorWf i
  | .spoolEnq i _ => initiatorWf i
  | .spoolDeq i => initiatorWf i
  | .spoolFree i _ => initiatorWf i
  | .spoolNext i => initiatorWf i
  | .packetJoin _ => true
  | .spoolCqPush _ _ => true
  | .spoolCqPop _ => true
  | .spoolCqEnable _ _ => true
  | .queueReclaim r => requestWf r
  | .queueStats r => requestWf r
  | .handoverCycle _ => true
  | .moveProg _ => true
  | .loopProg _ => true
  | .endloop _ => true
  | .waitProg _ => true
  | .waitTimeout _ => true
  | .signalProg _ => true
  | .dmaFence _ => true
  | .endProg _ => true
  | .dmaArm _ => true
  | .abortCh _ => true
  | .shadowWrite _ _ _ => true
  | .credit _ _ _ => true
  | .gatewayHeadFlit _ _ _ pkt _ _ => pkt.len.toNat ≤ 256
  | .requestTimeout i _ _ _ => initiatorWf i
  | .creditSync _ _ => true
  | .weftRoute _ _ => true
  | .weftDrain r => requestWf r
  | .drainStart _ => true
  | .drained _ => true
  | .drainEnd _ => true
  | .weftBist _ _ => true
  | .weftLinkLoad r => requestWf r
  | .weftPath r => requestWf r
  | .ethPortEnable _ _ => true
  | .ethLinkUp _ => true
  | .ethLinkDown _ _ => true
  | .ethFrameReceived _ _ _ _ _ _ _ => true
  | .laneParityActive _ => true
  | .prbsSyncLost _ _ _ _ => true
  | .lanePrbsErrLo _ _ => true
  | .bupexLinkRunning _ => true
  | .bupexFrame _ f => frameWf f
  | .hello _ _ => true
  | .bupexLinkDown _ => true
  | .bupexLinkUp _ => true
  | .bupexIdleEntry _ => true
  | .bupexIdleExit _ _ => true
  | .partitioned => true
  | .rejoined => true
  | .proxyEnqueue _ => true
  | .mdStatus r => requestWf r
  | .bupexLinkStats r => requestWf r
  | .bupexBootSend r => requestWf r
  | .bootReady => true
  | .fabricContention _ _ => true
  | .cfgReadback _ => true
  | .regionStartLoad _ => true
  | .regionStop _ => true
  | .fabricPinSet _ _ => true
  | .fabricPinClr _ _ => true
  | .fabricSpTx _ _ => true
  | .fabricSpRx _ => true
  | .oscEnable _ _ => true
  | .nvRead r => requestWf r
  | .nvWrite r => requestWf r
  | .idleTimerExpiry _ _ => true
  | .dozeEntry _ => true
  | .domainEntry _ _ => true
  | .domainEntryComplete _ => true
  | .wakeRequest _ _ => true
  | .wakeReadyStep _ => true
  | .wakeFail _ => true
  | .monitorSample _ _ => true
  | .brownout => true
  | .pfail => true
  | .lastGaspReceived _ _ => true
  | .powerRestored => true
  | .powerSet r => requestWf r
  | .powerStatus r => requestWf r
  | .powerDomCtrl _ _ => true
  | .thermtrip => true
  | .sfgStatus r => requestWf r
  | .faultInject r => requestWf r
  | .faultClear r => requestWf r
  | .injectionExpiry => true
  | .sscEnable _ => true
  | .resetNAssert => true
  | .brownoutResetEnd => true
  | .coreTimerCmpReached _ => true
  | .waitContinue _ => true
  | .bootTransferTimeout => true
  | .serialPortByteReceived _ _ => true
  | .pcieLinkChange _ _ _ _ => true
  | .tempSensorUpdate _ _ => true

end Sys2Proof
end

