-- ==== Sys2Proof/Tests/Slice0.lean ====
section
/-!
SUPPORT. The tests: ill-formed commands, one step of single commands on small states, and states that meet the
hypotheses of the statements.
-/
namespace Sys2Proof.Machine.Tests
open Sys2Proof

set_option Elab.async false

/-! ### Small states the tests are about -/

/-- The block out of reset, in a state of boot. -/
def boot (n : Nat) : State := setBoot n { State.reset with sec := { State.reset.sec with held := .no } }

/-- The block out of reset, its time locked and `ns` past the epoch. -/
def atTime (ns : Nat) (s : State) : State := { s with coxCount := ns * 2 ^ 48, cox := { s.cox with st := .locked } }

/-- A request on PCI Express to a unit's instance 0, its sequence 1. -/
def req (unit : Nat) (params : Bytes) : Request :=
  { transport := .pcie, sequence := 1, unit := BitVec.ofNat 8 unit, params := params }

/-- What a command's own effect makes of a state (the state itself where it answers none). -/
def after (i : Instr) (s : State) : State := match exec i s with | .next t => t | _ => s

/-- All eight supplies measured good. -/
def allGood (s : State) : State :=
  { s with power := { s.power with rails := (List.range 8).map fun k => (k, { goodSince := some 0 }) } }

/-- One SDRAM channel of 4 GiB in service. -/
def withMemory (s : State) : State := regPutF uMEM 0 0x000 31 31 1 { s with memChans := [0], memGib := 4 }

/-- The body of a bridge group of ten legs. -/
def groupBody : Bytes := leBytes 2 10 ++ leBytes 2 4 ++ leBytes 2 3 ++ leBytes 2 5 ++ zeros 8

/-! ### Well-formed commands: one ill-formed term for each check -/

theorem test_wf_request : (Instr.echoCmd (req 1 [0, 0, 0])).wf = false ∧ (Instr.echoCmd (req 1 (zeros 4084))).wf = false ∧
    (Instr.echoCmd { req 1 [] with flags := 4 }).wf = false ∧ (Instr.echoCmd (req 1 (zeros 4080))).wf = true := by decide +kernel

theorem test_wf_family : (Instr.objGet 16 (req 1 (zeros 16))).wf = false ∧ (Instr.objGet 15 (req 1 (zeros 16))).wf = true := by
  decide +kernel

theorem test_wf_initiator : (Instr.spoolAlloc { unit := 0, inst := 1 }).wf = false ∧
    (Instr.spoolAlloc { unit := 1, inst := 0 }).wf = true := by decide +kernel

theorem test_wf_memInit : (Instr.memInit (List.replicate 7 {})).wf = false ∧ (Instr.memInit (List.replicate 8 {})).wf = true := by
  decide +kernel

theorem test_wf_mgmtDatagram : (Instr.mgmtDatagram 0 (zeros 65508)).wf = false ∧ (Instr.mgmtDatagram 0 []).wf = true := by
  decide +kernel

theorem test_wf_uartFrame : (Instr.uartFrame [1, 0]).wf = false ∧ (Instr.uartFrame [1, 1]).wf = true := by decide +kernel

theorem test_wf_uplaneMessage : (Instr.uplaneMessage 0 0 0 0 0 272 (List.replicate 2 { mantissas := List.replicate 24 0 })).wf = false ∧
    (Instr.uplaneMessage 0 0 0 0 0 0 [{ mantissas := [] }]).wf = false ∧
    (Instr.uplaneMessage 0 0 0 0 0 272 [{ mantissas := List.replicate 24 0 }]).wf = true := by decide +kernel

theorem test_wf_audio : (Instr.subsumReceived 0 0 0 [0]).wf = false ∧
    (Instr.blockCompute (List.replicate 48 0) [] 0).wf = false ∧ (Instr.blockCompute [] (List.replicate 48 0) 0).wf = false ∧
    (Instr.blockCompute (List.replicate 48 0) (List.replicate 48 0) 0).wf = true := by decide +kernel

theorem test_wf_inboundPcie : (Instr.inboundPcieWrite .outside [] true).wf = false ∧
    (Instr.inboundPcieWrite .outside (zeros 4097) true).wf = false ∧ (Instr.inboundPcieRead .outside 0).wf = false ∧
    (Instr.inboundPcieRead .outside 4097).wf = false ∧ (Instr.inboundPcieRead .outside 4096).wf = true := by decide +kernel

theorem test_wf_bupexFrame :
    (Instr.bupexFrame 0 { cls := 0, dst := 0, src := 0, body := .bootFirst 300 (zeros 257) }).wf = false ∧
    (Instr.bupexFrame 0 { cls := 0, dst := 0, src := 0, body := .bootNext (zeros 257) }).wf = false ∧
    (Instr.bupexFrame 0 { cls := 0, dst := 0, src := 0, body := .bootNext (zeros 256) }).wf = true := by decide +kernel
/-! ### States that meet the hypotheses of the statements, clause by clause -/

theorem witness_EveryStepKeepsMemoryCanonical :
    MemoryOk { boot 7 with mem := [(0, 1), (5, 2)] } ∧ step { boot 7 with mem := [(0, 1), (5, 2)], pending := [.flushEth] } =
      .next (settle 4096 (flushOp .eth { boot 7 with mem := [(0, 1), (5, 2)] })) := by
  constructor
  · unfold MemoryOk; decide +kernel
  · rfl

/-- The states of the twelve clauses of ResetsOfTheDevice in turn. -/
theorem witness_ResetsOfTheDevice :
    State.reset.sec.held = .resetN ∧
    ({ boot 0 with sec := { (boot 0).sec with held := .powerOn true } } : State).sec.held = .powerOn true ∧
    (boot 3).sec.held = .no ∧
    (let s := allGood { boot 0 with now := 10000000, sec := { (boot 0).sec with held := .powerOn false } }
     s.sec.held = .powerOn false ∧ s.power.thermtrip = false ∧ railsGood s (List.range 8) = true) ∧
    railsGood (boot 0) (List.range 8) = false ∧
    (Addressed (req uSYS (leBytes 4 0x52535444)) uSYS 0 ∧ fld (req uSYS (leBytes 4 0x52535444)).params 0 4 = 0x52535444) ∧
    railFault { boot 0 with power := { (boot 0).power with rails := [(0, { uvFault := 4 })] } } [0] = true ∧
    (let s := { boot 0 with power := { (boot 0).power with rails := [(1, { uvFault := 4 })] } }
     railFault s [0] = false ∧ railFault s brownoutRails = true) ∧
    (let s := allGood { boot 0 with now := 10000000, sec := { (boot 0).sec with held := .brownout true } }
     s.sec.held = .brownout true ∧ railsGood s brownoutRails = true) ∧
    (let s := regPut uPOWER 0 (0x500 + 4 * 15) (BitVec.ofNat 32 (2 ^ 31 + 2160)) (boot 0)
     bit (regGet s uPOWER 0 (0x500 + 4 * 15)).toNat 31 = true ∧ 2160 ≤ toS 13 (regF s uPOWER 0 (0x500 + 4 * 15) 12 0)) := by
  unfold Addressed; decide +kernel

/-- The states of PhasesOfBoot: each phase's own state of boot, and the conditions on channels, straps and slots. What an
image's signatures verify to rests on functions of other standards (log entry 2), so a valid image is no concrete datum. -/
theorem witness_PhasesOfBoot :
    (∀ n < 8, (boot n).sec.held = .no ∧ bootState (boot n) = n) ∧
    (List.range 8).filter (fun n => channelUp (([{ rate := 1, ranks := 1, die := 1 }] : List ChannelTraining).getD n {})) = [0] ∧
    (List.range 8).filter (fun n => channelUp (([] : List ChannelTraining).getD n {})) = [] ∧
    (let s := regPutF uSEC 0 0x000 31 29 3 (boot 2); strapOf s = 3 ∧ newestSlot s .nv 1 = none) ∧
    (let s := regPutF uSEC 0 0x000 31 29 2 (boot 2); fwStores (strapOf s) = [] ∧ strapOf s ≠ 4) ∧
    newestSlot (boot 3) .nv 4 = none ∧ hasLogicArray ({ boot 4 with part := .yd4420 } : State).part = false ∧
    hasLogicArray (boot 4).part = true ∧ newestSlot (boot 4) .nv 3 = none ∧ newestSlot (boot 5) .nv 2 = none ∧
    (let id := bridgeObj 7
     let o : Object := { body := groupBody, st := some .stopped }
     let s := { setCommitted 768 (objPut id o (atTime 0 (boot 7))) with cmd := { (boot 7).cmd with deferred := [id] } }
     s.cox.st ≠ .unset ∧ s.cmd.deferred = [id] ∧ objFind s id = some o ∧
       fnAdmit { s with cmd := { s.cmd with deferred := [] } } id o ≠ 0) ∧
    (let id := 0x06010000
     let o : Object := { body := zeros 28, st := some .stopped }
     let s := { objPut id o (atTime 0 (boot 7)) with cmd := { (boot 7).cmd with deferred := [id] } }
     s.cmd.deferred = [id] ∧ objFind s id = some o ∧ idFamily id ≠ 0x0B ∧ fnAdmit { s with cmd := { s.cmd with deferred := [] } } id o = 0) ∧
    (boot 7).cox.st = .unset ∧
    (let s := regPutF uSEC 0 0x000 31 29 4 (boot 2)
     strapOf s = 4 ∧ s.sec.trained = none ∧ s.sec.rxDone = false) ∧
    (let s := { boot 2 with sec := { (boot 2).sec with trained := some 5 }, now := 5 + 2 * second }
     bootState s = 2 ∧ s.sec.rx = none ∧ 5 + 2 * second ≤ s.now) := by
  decide +kernel

/-- Queues with room and full, addressed datagrams, a frame that is no encoding, replies waiting and none. -/
theorem witness_TransportQueues :
    let full := List.replicate 16 ({ data := [], words := some 0 } : RawReq)
    let open_ := regPutF uETH 48 0x004 31 31 1 <| regPutF uSYS 0 0x110 1 1 1 (objPut 0x01020000 { body := zeros 4 ++ [1] ++ zeros 59 } (boot 1))
    (boot 1).sec.held = .no ∧ (boot 1).cmd.reqPcie.length < 16 ∧
    16 ≤ ({ boot 1 with cmd := { (boot 1).cmd with reqPcie := full } } : State).cmd.reqPcie.length ∧
    (regF open_ uSYS 0 0x110 1 1 = 1 ∧ mgmtAddressed open_ = true ∧ regF open_ uETH 48 0x004 31 31 = 1 ∧ open_.cmd.reqEth.length < 16) ∧
    (let s := { open_ with cmd := { open_.cmd with reqEth := full } }
     regF s uSYS 0 0x110 1 1 = 1 ∧ mgmtAddressed s = true ∧ regF s uETH 48 0x004 31 31 = 1 ∧ 16 ≤ s.cmd.reqEth.length) ∧
    (bootState (boot 1) ≠ 0 ∧ regF (boot 1) uSYS 0 0x110 2 2 = 1 ∧ (boot 1).cmd.reqUart.length < 16) ∧
    (cobsDecode 2 [5]).all (fun d => d.length < 2 || fld d (d.length - 2) 2 != crc16 (d.take (d.length - 2))) = true ∧
    (cobsDecode 5 [4, 1, 2, 3]).all (fun d => d.length < 2 || fld d (d.length - 2) 2 != crc16 (d.take (d.length - 2))) = true ∧
    (let c : CmdIf := { replies := [[1, 2, 3, 4]], backlog := [([5, 6, 7, 8], false)] }
     c.replies = [1, 2, 3, 4] :: [] ∧ c.backlog = ([5, 6, 7, 8], false) :: [] ∧ ({ c with backlog := [] } : CmdIf).backlog = []) ∧
    (boot 1).cmd.replies = [] := by
  decide +kernel

/-- A transport whose request waits: bad in each way the checks name, and good; the queries and a long command. -/
theorem witness_RequestsAndQueries :
    let packet := fun (op len ver flags : Nat) => leBytes 2 op ++ leBytes 2 7 ++ leBytes 2 len ++ [1, 0, BitVec.ofNat 8 flags,
      BitVec.ofNat 8 ver] ++ zeros 6
    let raw := fun (d : Bytes) => ({ data := d, words := some (d.length / 4) } : RawReq)
    let s := fun (d : Bytes) => { boot 8 with cmd := { (boot 8).cmd with reqUart := [raw d], turn := 2 } }
    let ok := packet 0x0141 4 1 0
    let l : Long := { transport := .pcie, opcode := 0x0640, sequence := 1, unit := 1, inst := 0, flags := 0, params := [],
                      cancellable := true }
    let m := { boot 7 with cmd := { (boot 7).cmd with longs := [l] } }
    (∀ d ∈ [packet 0x0141 3 1 0, packet 0x0141 4 2 0, packet 0x0141 4 1 4, packet 0x0140 4 1 0, ok],
      (s d).sec.held = .no ∧ (s d).cmd.turn < 3 ∧ waitingOn (s d) .uart = raw d :: []) ∧
    (∀ t', (transportNo t' + 3 - 2) % 3 < (transportNo .uart + 3 - 2) % 3 → waitingOn (s ok) t' = []) ∧
    ¬ (4 ≤ fld (packet 0x0141 3 1 0) 4 2) ∧ fld (packet 0x0141 4 2 0) 9 1 ≠ 1 ∧ 4 ≤ fld (packet 0x0141 4 1 4) 8 1 ∧
    (commandOf 0x01FF).isNone = true ∧ (commandOf 0x0141).isSome = true ∧
    (4 ≤ fld ok 4 2 ∧ fld ok 4 2 ≤ 1024 ∧ (raw ok).words = some (fld ok 4 2) ∧ fld ok 9 1 = 1 ∧ fld ok 8 1 < 4) ∧
    familyAllowed (s ok) .uart 1 = true ∧ familyAllowed (s ok) .uart 8 = false ∧ gateOpen 0x0141 = true ∧
    gateOpen 0x0240 = false ∧ bootState (s ok) = 8 ∧ bootState (boot 9) = 9 ∧ fld ok 10 6 = 0 ∧
    requestWait 0x0141 (packetRequest .uart (raw ok)) (s ok) = none ∧
    (let asleep := domPut 25 { st := .doze } (withMemory (objPut 0x06010000 { body := zeros 28, st := some .stopped } (boot 7)))
     (requestWait 0x0602 (req uSYS (leBytes 4 0x06010000 ++ zeros 4 ++ leBytes 8 0x1000)) asleep).isSome = true) ∧
    Addressed (req 1 []) uSYS 0 ∧ queried m [1, 0, 0, 0] = some l ∧ queried m [2, 0, 0, 0] = none ∧
    m.cmd.longs = [l] ∧ l.obj = none ∧ l.muted = false ∧ m.cmd.replies.length < 64 ∧ bit l.flags.toNat 1 = false ∧ regF m uSYS 0 0x10C 31 31 = 0 := by
  unfold Addressed
  refine ⟨by decide +kernel, fun t' => by cases t' <;> decide +kernel, ?_⟩
  decide +kernel

theorem witness_RefusedRequestsChangeNothing : (boot 7).cmd.deferred = [] ∧ dryRun (req 1 []) = false ∧
    ∀ op ∈ [0x0140, 0x0602, 0x0B03], requestWait op { req 1 [] with flags := 1 } (boot 7) = none := by decide +kernel

/-- A region object: absent, stopped, running, starting, stopping, and the requests that name it. -/
theorem witness_ObjectsAndFunctions :
    let id := 0x06010000
    let o := fun (st : FnState) => ({ body := zeros 16, st := some st } : Object)
    let s := fun (st : FnState) => objPut id (o st) (boot 7)
    let one := req uSYS (leBytes 4 id)
    (boot 7).cmd.deferred = [] ∧ Addressed one uSYS 0 ∧ fld one.params 0 4 = id ∧ one.params.length = 4 ∧
    hasObjects 6 = true ∧ idOk 6 id = true ∧ idAbsent (boot 7) id = false ∧ isFn id = true ∧
    objFind (boot 7) id = none ∧
    (∀ st ∈ [FnState.stopped, .running, .starting, .stopping], objFind (s st) id = some (o st) ∧
      bodyAbsent (s st) id (o st).body = false ∧ objBusy (s st) id = false) ∧
    LongRoom (boot 7) one ∧ requestWait 0x0603 one (s .stopped) = none ∧ requestWait 0x0603 one (s .running) = none ∧
    (let b := groupBody
     let g := bridgeObj 7
     let r := req uSYS (leBytes 4 g ++ leBytes 2 1 ++ leBytes 2 b.length ++ b)
     r.params.length = 8 + b.length ∧ b = sub r.params 8 b.length ∧ fld r.params 6 2 = b.length ∧ b.length % 4 = 0 ∧
       fld r.params 4 2 < 4 ∧ idOk 4 g = true ∧ isFn g = true ∧ fnCheck (boot 7) g 1 b = 0 ∧ bodyAbsent (boot 7) g b = false) ∧
    (let l : Long := { transport := .pcie, opcode := 0x0604, sequence := 3, unit := 1, inst := 0, flags := 0, params := [],
                       obj := some id }
     let u := { s .stopping with cmd := { (boot 7).cmd with longs := [l] } }
     u.cmd.longs = [l] ∧ l.obj = some id ∧ l.muted = false ∧ u.cmd.replies.length < 64 ∧ (o .stopping).cost ≤ committed u) := by
  unfold Addressed LongRoom; decide +kernel
/-- The state of boot a command of the security family names, its reasons, the images and slots; nothing here needs a
signature to verify. -/
theorem witness_SecurityCommands :
    let r := fun (p : Bytes) => req uSEC p
    let s := boot 7
    let used := { s with sec := { s.sec with owner1 := { ed := some [1] } } }
    let booted := { s with sec := { s.sec with booted := [(1, zeros 12 ++ [3, 0, 0, 0])] } }
    Addressed (r []) uSEC 0 ∧ Addressed (req uFABRIC []) uFABRIC 0 ∧ LongRoom s (r []) ∧
    bootState (boot 7) ≠ 9 ∧ bootState (boot 9) = 9 ∧ bootReason (boot 9) ≤ 4 ∧
    (∀ w ∈ [5, 10, 11], bootState (regPutF uSEC 0 0 15 8 w (boot 9)) = 9 ∧ bootReason (regPutF uSEC 0 0 15 8 w (boot 9)) = w) ∧
    (let p := [0, 0] ++ leBytes 2 0 ++ leBytes 2 4076 ++ [0, 0]
     p.length = 8 ∧ fld p 0 1 ≤ 3 ∧ fld p 1 1 = 0 ∧ fld p 4 2 ≤ 4076 ∧ fld p 6 2 = 0) ∧
    (let p := [1, 0, 0, 0] ++ zeros 4 ++ leBytes 8 (2 ^ 48 - 1)
     p.length = 16 ∧ fld p 0 1 = 1 ∧ fld p 1 3 = 0 ∧ fld p 8 8 < 2 ^ 48 ∧ wantsFirmware (boot 8) = true ∧
       wantsFirmware s = false ∧ fld p 4 4 ≤ slotSize .nv (fld p 0 1) ∧ installOn s = false) ∧
    (let p := [1, 0, 0, 0] ++ leBytes 4 0x100001 ++ leBytes 8 0
     slotSize .nv (fld p 0 1) < fld p 4 4) ∧
    (let l : Long := { transport := .pcie, opcode := 0x0841, sequence := 9, unit := 2, inst := 0, flags := 0, params := [] }
     installOn { s with cmd := { s.cmd with longs := [l] } } = true) ∧
    (let p := leBytes 8 0x1000 ++ leBytes 4 0x40000 ++ zeros 4
     p.length = 16 ∧ fld p 12 4 = 0 ∧ fld p 0 8 < 2 ^ 48 ∧ fld p 8 4 ≤ 0x40000 ∧
       writable (withMemory s) (fld p 0 8) (exportBody s).length = true ∧
       roundUp (exportBody s).length 32 ≤ fld p 8 4) ∧
    (let p := [1, 3, 0, 0]
     p.length = 4 ∧ 1 ≤ fld p 0 1 ∧ fld p 0 1 ≤ 4 ∧ fld p 2 2 = 0 ∧ rollbackOf booted (fld p 0 1) ≤ fld p 1 1 ∧
       (spFind booted.sec.booted (fld p 0 1)).any (fun h => fld p 1 1 ≤ imgVersion h) = true ∧
       rollbackOf s (fld p 0 1) < fld p 1 1 ∧ spFind s.sec.booted (fld p 0 1) = none ∧
       fld p 1 1 < rollbackOf { s with sec := { s.sec with rollback := [4, 0, 0, 0] } } (fld p 0 1)) ∧
    (let p := zeros 1988
     p.length = 1988 ∧ fld p 0 1 ≤ 1 ∧ fld p 1 3 = 0 ∧ programmed s (fld p 0 1) = false ∧ programmed used 1 = true ∧
       (ownerSlot used 1).revoked = false) ∧
    (let p := leBytes 4 0x10000 ++ leBytes 4 32 ++ zeros 8
     p.length = 16 ∧ nvRange (fld p 0 4) (fld p 4 4) = true ∧ nvRange 0x0FFE0 32 = false ∧
       writable (withMemory s) (fld p 8 8) (fld p 4 4) = true) := by
  unfold Addressed LongRoom; decide +kernel

theorem leNat_leBytes_eight (n : Nat) (h : n < 2 ^ 64) : leNat (leBytes 8 n) = n := by
  simp only [leBytes, leNat, BitVec.toNat_ofNat]
  omega

theorem fld_middle (a b c : Bytes) (ha : a.length = 8) (hb : b.length = 8) : fld (a ++ b ++ c) 8 8 = leNat b := by
  unfold fld sub
  rw [List.append_assoc, List.drop_left' ha, List.take_left' hb]
  simp [hb]

theorem fld_first (a c : Bytes) (o w : Nat) (h : o + w ≤ a.length) : fld (a ++ c) o w = fld a o w := by
  unfold fld sub
  rw [List.drop_append_of_le_length (by omega), List.take_append_of_le_length (by simp; omega)]

/-- OWNER_KEY_REVOKE names the device's own serial, whatever it is. -/
theorem witness_SecurityCommands_revoke :
    let p := ([0] ++ zeros 7) ++ leBytes 8 Config.serial.toNat ++ zeros 3376
    p.length = 3392 ∧ fld p 0 1 ≤ 1 ∧ fld p 1 7 = 0 ∧ fld p 8 8 = Config.serial.toNat := by
  have h := leNat_leBytes_eight _ Config.serial.isLt
  refine ⟨?_, ?_, ?_, (fld_middle _ _ _ rfl rfl).trans h⟩
  · simp only [List.length_append, zeros, List.length_replicate]; rfl
  · rw [List.append_assoc, fld_first _ _ _ _ (by decide)]; decide
  · rw [List.append_assoc, fld_first _ _ _ _ (by decide)]; decide

/-- One outstanding long command of each kind, and what its work finds. -/
theorem witness_SecurityCompletions :
    let l := fun (op : Nat) (p : Bytes) => ({ transport := .eth, opcode := op, sequence := 9, unit := 2, inst := 0, flags := 0,
                                              params := p } : Long)
    let s := fun (x : Long) => { boot 7 with cmd := { (boot 7).cmd with longs := [x] } }
    let write := leBytes 4 0x10000 ++ leBytes 4 32 ++ leBytes 8 spmBase
    let mem := regPutF uCREW crewCtl 0x100 7 0 0xC0 (s (l 0x0641 write))
    (∀ x ∈ [l 0x0843 [1, 3, 0, 0], l 0x0847 (zeros 1988), l 0x0848 (zeros 3392), l 0x0641 write, l 0x0841 (1 :: zeros 15),
        l 0x0145 (zeros 16), l 0x0846 (zeros 32)], (s x).cmd.longs = [x] ∧ x.obj = none ∧ x.muted = false ∧ nvPaused (s x) = false) ∧
    nvPaused (regPutF uPOWER 0 0 31 31 1 (boot 7)) = true ∧
    programmed (boot 7) 0 = false ∧
    programmed { boot 7 with sec := { (boot 7).sec with owner0 := { ed := some [] } } } 0 = true ∧
    revokeSigned (l 0x0848 (zeros 3392)) (boot 7) = false ∧
    mem.cmd.longs = [l 0x0641 write] ∧
    readBytes (unitInit uSYS 0) spmBase 32 mem = (.ok, zeros 32, 0, mem) ∧
    (installVerify (l 0x0145 (leBytes 8 spmBase ++ leBytes 4 32 ++ zeros 4)) mem).1.any (· != 0) = true := by
  decide +kernel

/-- The body of a NR carrier of one 20 MHz FDD cell with one antenna each way, whose frame 0 starts at time 0. -/
def nrBody (flags : Nat) : Bytes :=
  [1, 1] ++ leBytes 2 20 ++ leBytes 2 20 ++ [1, 1, 1, 1] ++ leBytes 2 10 ++ leBytes 4 300000 ++ leBytes 4 310000 ++ leBytes 2 5 ++
  [0, BitVec.ofNat 8 flags] ++ leBytes 8 (2 ^ 64 - 315964819000000000) ++ zeros 8 ++ leBytes 2 100 ++ leBytes 2 500 ++
  [16, 1, 1, 14] ++ [1, 1, 48, 0] ++ leBytes 2 60 ++ leBytes 2 61 ++ leBytes 2 62 ++ leBytes 2 63 ++ zeros 20 ++
  [3, 3] ++ leBytes 2 7 ++ [0, 0, 0, 0]

/-- That carrier with identifier 9, in a state, at a time. -/
def withCarrier (flags : Nat) (st : FnState) (ns : Nat) : State :=
  atTime ns (objPut (carrierObj 1 9) { body := nrBody flags, st := some st, cost := 2 } (boot 7))

/-- Its uplink symbol 3 of slot 4 waiting in Spool. -/
def withSymbol (got : List Nat) (ns : Nat) : State :=
  let s := withCarrier 4 .running ns
  { s with carriers := [(9, { symbols := [{ slot := 4, sym := 3, ant := 0, handle := 77, got := got }], released := some 4 })]
           spool := { s.spool with packets := [(77, { cells := [77], st := .opened, fronthaul := true })] } }

theorem witness_CarriersAndFronthaul :
    let id := carrierObj 1 9
    let b := nrBody 4
    let x : UlSymbol := { slot := 4, sym := 3, ant := 0, handle := 77, got := [5] }
    let a : AntEntry := { port := 3, dir := 3, eaxc := 7, ant := 0 }
    let t3 := symbolStart id b 4 3
    let close := symbolStart id b 4 4 + carUlWindowNs b
    regF (boot 7) uFRONTHAUL 0 0x008 1 1 = 0 ∧
    (∀ st ∈ [FnState.starting, .running, .stopping], carrierFind (withCarrier 4 st 0) 9 = some (id, { body := b, st := some st, cost := 2 })) ∧
    (carrierStartAt b 0 ≤ shortNow (withCarrier 4 .starting 10000000) ∧ shortNow (withCarrier 4 .starting 9999999) < carrierStartAt b 0) ∧
    carrierStopAt (withCarrier 4 .stopping 0) 9 id b ≤ shortNow (withCarrier 4 .stopping 0) ∧
    eaxcFind (withSymbol [5] 0) 3 8 1 = none ∧ eaxcFind (withSymbol [5] 0) 3 7 1 = some (9, id, b, a) ∧
    slotServed (withSymbol [5] 0) 9 4 = true ∧ spFind (withSymbol [5] 0).fhSeq (3 * 65536 + 7) = none ∧
    (0 < t3 ∧ shortNow (withSymbol [5] 0) < t3) ∧
    (close < shortNow (withSymbol [5] (close.toNat + 1)) ∧ shortNow (withSymbol [5] close.toNat) ≤ close ∧
      t3 ≤ shortNow (withSymbol [5] close.toNat) ∧ t3 ≤ shortNow (withSymbol [5] t3.toNat)) ∧
    (ulFind (withSymbol [5] close.toNat) 9 4 3 0 = some x ∧ x.complete = false ∧ 50 < carRb id b 4 ∧ 5 ∈ x.got ∧ 6 ∉ x.got) ∧
    (isUplink id b 4 3 = true ∧ carUlAnt b = 1 ∧ isLte id = false ∧ joints (withSymbol [5] 0) = []) ∧
    (let dl := symbolStart id b 4 3 - carDlAdvance b - 10000
     0 < dl ∧ shortNow (withSymbol [5] dl.toNat) ≤ dl ∧ dl < shortNow (withSymbol [5] (dl.toNat + 1)) ∧
       holdable (withSymbol [5] dl.toNat) 77 = true ∧
       (readPacket (unitInit uFRONTHAUL 0) 77 (withSymbol [5] dl.toNat)).2 = withSymbol [5] dl.toNat ∧
       ((antMap b).filter fun e => bit e.dir 0 && e.ant + (if bit e.dir 2 then 64 else 0) == 0) = [a] ∧ a.port < 48 ∧
       (carrierRun (withSymbol [5] 0) 9).lateSymbols.contains (14 * 4 + 3) = false) ∧
    (let cp := slotStart id b 4 - carDlAdvance b - 125000
     0 < cp ∧ shortNow (withSymbol [5] cp.toNat) ≤ cp ∧ cp < shortNow (withSymbol [5] (cp.toNat + 1)) ∧
       (carrierRun (withSymbol [5] 0) 9).lateSlots.contains 4 = false) := by
  decide +kernel

/-- A handset of that carrier with a block to decode in each direction. -/
def withHarq (ns : Nat) : State :=
  { withCarrier 4 .running ns with
    handsets := [(5, { ctx := leBytes 2 5 ++ [9, 0] ++ zeros 20
                       harq := [{ up := true, proc := 2, slot := 4 }, { up := false, proc := 2, slot := 4 }] })] }

theorem witness_CarriersAndFronthaul_decode :
    NoLaunch (withSymbol [5] 0) ∧ (carrierRun (withSymbol [5] 0) 9).dropped.contains (ulKey 4 3 0) = false ∧
    (carrierFind (withHarq 0) 9).any (fun e => e.2.st == some .running) = true ∧
    ∀ up : Bool, (spFind (withHarq 0).handsets 5).any (fun y => handsetCarrier y == 9 &&
      (harqFind y up 2).any fun q => !q.failed && decide (slotStart (carrierObj 1 9) (nrBody 4) (q.slot + 2) ≤ shortNow (withHarq 6000000)) &&
        decide ((shortNow (withHarq 0) : Int) < slotStart (carrierObj 1 9) (nrBody 4) (q.slot + 2))) = true := by
  unfold NoLaunch; decide +kernel

/-- A handset's context for that carrier, with one bearer. -/
def contextBody : Bytes :=
  leBytes 2 5 ++ [9, 0] ++ leBytes 2 100 ++ [1, 1, 2, 0] ++ leBytes 2 1 ++ zeros 12 ++ ([1, 4, 0, 12, 0, 0, 0, 0] ++ zeros 56)

theorem witness_HandsetsAndScheduling :
    let id := carrierObj 1 9
    let s := withCarrier 4 .running 3000000
    let x : Handset := { ctx := stripKeys contextBody, next := some (contextBody, 0) }
    let h := { s with handsets := [(5, x)] }
    let r := req uSYS contextBody
    carrierFind s 9 = some (id, { body := nrBody 4, st := some .running, cost := 2 }) ∧
    dueSlot id (nrBody 4) (shortNow s) = some 9 ∧ (queue s (fld (nrBody 4) 58 2)).items = [] ∧ s.handsets = [] ∧ s.handsets.length < 16384 ∧
    ((carrierRun s 9).first ≤ 9 ∧ (carrierRun s 9).released = none ∧ (carrierRun s 9).items = [] ∧ carFlag (nrBody 4) 1 = false) ∧
    (handsetCarrier x = 9 ∧ x.next = some (contextBody, 0) ∧ x.removed = none ∧ (slotAt id (nrBody 4) 0).getD 0 ≤ 9) ∧
    (let y := { x with removed := some 3, next := none }
     handsetCarrier y = 9 ∧ y.removed = some 3 ∧ 3 ≤ 9 ∧ bit (fld y.ctx 9 1) 0 = false) ∧
    (carrierRun (withSymbol [] 0) 9).released = some 4 ∧ dueSlot id (nrBody 4) (shortNow (withSymbol [] 0)) = some 3 ∧
    (let s := withCarrier 4 .running 500000000
     slotAt id (nrBody 4) (shortNow s) = some 1000 ∧ carFlag (nrBody 4) 2 = true ∧ (carrierRun s 9).statsSlot < 1000 ∧
       (carrierRun s 9).period + 1000 ≤ 1000) ∧
    carFlag (nrBody 0) 2 = false ∧
    (dryRun r = false ∧ r.reserved = false ∧ { r with transport := .uart }.transport ≠ .pcie ∧ fld r.params 2 1 = 9 ∧ contextCheck s r false = 0 ∧ contextCheck s r true = 0 ∧ fld r.params 0 2 = 5 ∧
      spFind s.handsets 5 = none ∧ (handsetsOf s 9).length < 4096 ∧ spFind h.handsets 5 = some x ∧
      fld r.params 16 8 = 0) ∧
    (let q := req uSYS ([5, 0] ++ zeros 6)
     Addressed q uSYS 0 ∧ q.params.length = 8 ∧ fld q.params 0 2 < 0x4000 ∧ fld q.params 2 6 = 0 ∧ bit (fld x.ctx 9 1) 0 = false) ∧
    (let q := req uSYS (9 :: zeros 7)
     q.params.length = 8 ∧ fld q.params 0 1 = 9 ∧ fld q.params 1 7 = 0) := by
  unfold Addressed; decide +kernel
/-- A task descriptor for slot 0: class 1, 64 bytes as R158 lays them out. -/
def descBytes (flags init bindQ target : Nat) : Bytes :=
  leBytes 2 0 ++ [1, BitVec.ofNat 8 flags] ++ leBytes 2 init ++ leBytes 2 0 ++ leBytes 2 0xFFF ++ [0, BitVec.ofNat 8 target] ++
  leBytes 4 100 ++ leBytes 8 0 ++ leBytes 8 1000000000 ++ leBytes 6 0x1000 ++ leBytes 2 bindQ ++ leBytes 8 7 ++
  leBytes 2 5 ++ List.replicate 6 0xFF ++ zeros 8

/-- That descriptor at the task base, its slot owned by a running task set. -/
def withDesc (b : Bytes) : State :=
  let s := withMemory (objPut (objId 0x0B 1 0) { body := zeros 8, st := some .running } (boot 7))
  { s with mem := (List.range 64).zip b
           shuttle := { s.shuttle with owned := [{ obj := objId 0x0B 1 0, tFirst := 0, tCount := 16, fFirst := 0, fCount := 4,
                                                   class0 := false }] } }

/-- A state whose slot 0 is as given. -/
def withSlot (x : Slot) : State := slotPut 0 x (boot 7)

theorem witness_ArmingAndCompletion_arm :
    let arm := fun (b : Bytes) => readBytes (unitInit uSHUTTLE 0) (taskBase (withDesc b) + 64 * 0) 64 (withDesc b) =
      (.ok, b, 0, withDesc b) ∧ armReason 0 .ok b (withDesc b) = 0
    let plain := descBytes 0 2 0xFFFF 0
    let template := descBytes 1 1 300 0
    let desc := fun (b : Bytes) => ownedDesc (withDesc b) 0 b
    let taken := slotPut 0 { st := .ready } (withDesc plain)
    (arm plain ∧ (desc plain).template = false ∧ (desc plain).ordered = false) ∧
    (arm template ∧ (desc template).template = true ∧ (desc template).bindQ ≠ 0xFFFF) ∧
    (readBytes (unitInit uSHUTTLE 0) (taskBase taken + 64 * 0) 64 taken = (.ok, plain, 0, taken) ∧ (slot taken 0).st ≠ .free) := by
  decide +kernel

theorem witness_ArmingAndCompletion :
    let d := parseDesc (descBytes 0 2 0xFFFF 0)
    let t := parseDesc (descBytes 1 1 0xFFFF 1)
    (slot (withSlot { st := .ready, desc := d }) 0).st ≠ .free ∧
    Quiet (withSlot { st := .waiting, desc := d, count := 2 }) ∧
    (slot (withSlot { st := .waiting, desc := d, count := 2 }) 0).st = .waiting ∧
    (∀ g ∈ [6, 0], let x := slot (withSlot { st := .waiting, desc := { d with target := g } }) 0
      x.st = .waiting ∧ x.count = 0 ∧ x.desc.release ≤ shortNow (boot 7) ∧ x.desc.cancelLate = false ∧ x.desc.template = false ∧
        x.desc.target = g) ∧
    noCrew (withSlot { st := .waiting, desc := d }) d = false ∧
    (let s := withSlot { st := .armedTemplate, desc := t, count := 1, pending := 1 }
     (slot s 0).st = .armedTemplate ∧ (slot s 0).pending = 1 ∧ canCreate s t = true ∧ t.template = true ∧ t.target = 1 ∧
       t.bindQ = 0xFFFF ∧ t.ordered = false) ∧
    (d.template = false ∧ d.ordered = false ∧ d.cls ≠ 0 ∧ ownerOfTask (withSlot { st := .running, desc := d }) 0 = none) ∧
    (let r : Running := { work := { task := 0, deadline := 5 }, start := 0, done := some 0 }
     let s := corePut 3 { core (boot 7) 3 with run := .drain } { boot 7 with shuttle := { (boot 7).shuttle with running := [(3, r)] } }
     spFind s.shuttle.running 3 = some r ∧ (core s 3).run = .drain ∧ r.done = some 0 ∧ drained s 3 = true ∧ (core s 3).writes = [] ∧
       (let u := corePut 3 { core s 3 with regWait := some 0 } s
        spFind u.shuttle.running 3 = some r ∧ (core u 3).writes = [] ∧ (core u 3).regWait ≠ none) ∧
       ({ r with done := none } : Running).done = none) := by
  unfold Quiet; decide +kernel

/-- Two ready core tasks and an engine's, in EDF order and in NORMAL service. -/
theorem witness_DispatchChoosesByDeadline :
    let d := parseDesc (descBytes 0 2 0xFFFF 0)
    let work := fun (t deadline : Nat) => ({ task := t, deadline := deadline } : Work)
    let s := fun (g : Nat) (v : Service) =>
      let u := slotPut 1 { st := .ready, desc := { d with target := g } } (withSlot { st := .ready, desc := { d with target := g } })
      corePut 11 { core (boot 7) 11 with run := .taskWait }
        { u with shuttle := { u.shuttle with service := v, ready := [work 0 9, work 1 5] } }
    (∀ g ∈ [0, 1, 5], (failUnrunnable (s g .startup)).shuttle = (s g .startup).shuttle) ∧
    failUnrunnable (s 0 .startup) = s 0 .startup ∧
    crewUsable (s 0 .startup) (11 / 8) = true ∧ (core (s 0 .startup) 11).run ≠ .reset ∧
    spFind (s 0 .startup).shuttle.staged 11 = none ∧ chooseFor (s 0 .startup) 11 = some (work 1 5) ∧
    chooseFor (s 0 .normal) 0 = some (work 1 5) ∧
    (poolKeys 1).find? (engineFree (s 1 .normal)) = some 0 ∧
    leastBy (edfKey (s 1 .normal)) ((s 1 .normal).shuttle.ready.filter fun v =>
      (descOf (s 1 .normal) v).target == 1 && !lateCancel (s 1 .normal) v) = some (work 1 5) ∧
    (dmaCh (s 5 .normal) 7).staged = none ∧
    leastBy (edfKey (s 5 .normal)) ((s 5 .normal).shuttle.ready.filter fun v =>
      (descOf (s 5 .normal) v).target == 5 && (descOf (s 5 .normal) v).arg % 64 == 7 && !lateCancel (s 5 .normal) v) =
      some (work 1 5) := by
  decide +kernel

theorem witness_ShuttleDeadlinesAndOrder :
    let d := { parseDesc (descBytes 0 2 0xFFFF 0) with flow := 3, ordered := true, flowValid := true, cancelLate := true }
    let w : Work := { task := 0, deadline := 5, seq := 8 }
    let r : Running := { work := w, start := 0 }
    let u := withSlot { st := .running, desc := d }
    let s := fun (v : Service) (run : Sparse Running) (ns : Nat) =>
      { u with now := ns, coxCount := ns * 2 ^ 48, shuttle := { u.shuttle with service := v, running := run, ready := [w] } }
    let q : BeamSeq := { num := 8, taken := 0 }
    let x : Flow := { window := 4, timeoutUs := 10, head := 8, next := 9, seqs := [q] }
    let limit := 0 + regF (boot 7) uSHUTTLE 0 0x014 31 24 * d.cost
    ((s .startup [] 0).shuttle.service = .startup ∧ (s .startup [] 0).shuttle.running = []) ∧
    ((s .test [(3, r)] 100).shuttle.running = [(3, r)] ∧ r.overrun = false ∧
      r.start + (descOf (s .test [(3, r)] 100) w).cost ≤ (s .test [(3, r)] 100).now) ∧
    ((s .normal [(3, r)] limit).now = limit ∧ 0 < limit ∧ spFind (s .normal [(3, r)] limit).shuttle.running 3 = some r) ∧
    ((s .normal [] 5).shuttle.ready = [w] ∧ w.task = 0 ∧ w.inst = 0 ∧ lateCancel (s .normal [] 5) w = true) ∧
    (let v := flowPut 3 x (s .normal [(3, r)] 0)
     (descOf v w).ordered = true ∧ (descOf v w).flow = 3 ∧ (flow v 3).seqs = [q] ∧ (flow v 3).skipped = [] ∧ q.num = w.seq ∧
       q.outs.length < 64 ∧ beamHeld v < 131072) ∧
    (let u := s .normal [(3, { r with done := some 0 })] limit
     r.done = none ∧ spFind u.shuttle.running 3 = some { r with done := some 0 } ∧ drained u 3 = true) ∧
    beamEnding (flowPut 3 x (s .normal [] 10001)) 3 q.num = false ∧
    ((flow (flowPut 3 x (s .normal [] 10001)) 3).seqs = [q] ∧ x.timeoutUs ≠ 0 ∧ q.taken + x.timeoutUs * 1000 < 10001 ∧ q.closed = none) ∧
    (let v := objPut (objId 0x0B 1 4) { st := some .stopping } (boot 7)
     objFind v (objId 0x0B 1 4) = some { st := some .stopping } ∧ ownerIdle v (objId 0x0B 1 4) = true) := by
  decide +kernel

theorem witness_ServiceAndCrewFailure :
    (boot 7).shuttle.service ≠ .recovery ∧
    ({ boot 7 with shuttle := { (boot 7).shuttle with service := .recovery } } : State).shuttle.service = .recovery ∧
    crewUsable (boot 7) 11 = true ∧ regF (boot 7) (0x10 + 11) 8 0x008 3 0 = 0 ∧
    regF (regPutF (0x10 + 11) 8 0x008 3 0 1 (boot 7)) (0x10 + 11) 8 0x008 3 0 ≠ 0 ∧
    Addressed (req uSHUTTLE [1, 0, 0, 0]) uSHUTTLE 0 ∧ (fld [15, 0, 0, 0] 0 1 = 15 ∧ fld [15, 0, 0, 0] 1 3 = 0) ∧
    LongRoom (boot 7) (req uSHUTTLE [11, 0, 0, 0]) ∧ crewWhole (boot 7) 11 = true ∧
    ((List.range 12).filter (crewWhole (boot 7))).length ≠ 1 := by
  unfold Addressed LongRoom; decide +kernel
/-- A core that runs in its crew's scratchpad. -/
def running : Core := { run := .run, pc := BitVec.ofNat 48 spmBase }

/-- Core 3 of crew 11 as given. -/
def onCore (x : Core) : State := corePut 91 x (boot 7)

/-- A running core whose s1 and s2 hold two values. -/
def withRegs (a b : Word) : Core := setS (setS running 1 a) 2 b

theorem ready_running : Ready (onCore running) 91 := by unfold Ready; decide +kernel

/-- The scalar statements take every running core and all registers; their further conditions at the edges of their ranges. -/
theorem witness_ScalarResults : Ready (onCore (withRegs 1 2)) 91 ∧ (1 : Fin 32) ≠ 0 ∧ (2 : Fin 32) ≠ 1 := by
  unfold Ready; decide +kernel

theorem witness_ScalarCornerCases :
    Ready (onCore (withRegs 1 0)) 91 ∧ getS (core (onCore (withRegs 1 0)) 91) 2 = 0 ∧
    getS (core (onCore (withRegs (BitVec.ofInt 64 (-(2 ^ 63))) (BitVec.ofInt 64 (-1)))) 91) 1 = BitVec.ofInt 64 (-(2 ^ 63)) ∧
    getS (core (onCore (withRegs (BitVec.ofInt 64 (-(2 ^ 63))) (BitVec.ofInt 64 (-1)))) 91) 2 = BitVec.ofInt 64 (-1) ∧
    (core (onCore running) 91).exc = false ∧
    (getS (core (onCore (withRegs 2 0)) 91) 1 + (0 : BitVec 16).signExtend 64).toNat % 4 ≠ 0 ∧
    2 ^ 48 ≤ (getS (core (onCore (withRegs (BitVec.ofNat 64 (2 ^ 48)) 0)) 91) 1 + (0 : BitVec 16).signExtend 64).toNat := by
  unfold Ready; decide +kernel

theorem witness_BranchesAndJumps :
    Ready (onCore (withRegs 4 2)) 91 ∧ (getS (begun (core (onCore (withRegs 4 2)) 91)) 1 + (0 : BitVec 16).signExtend 64).toNat % 4 = 0 ∧
    (getS (begun (core (onCore (withRegs 4 2)) 91)) 1 + (0 : BitVec 16).signExtend 64).toNat < 2 ^ 48 := by
  unfold Ready; decide +kernel

theorem witness_AccumulatorsAndSearches :
    Ready (onCore running) 91 ∧ (55 : BitVec 6).toNat < 56 ∧ 56 ≤ (56 : BitVec 6).toNat ∧ (30 : Fin 32).val % 2 = 0 ∧
    (30 : Fin 32) ≠ 0 ∧ (31 : Fin 32).val % 2 = 1 ∧ (core (onCore running) 91).exc = false := by
  unfold Ready; decide +kernel

/-- A core whose s1 is `a` and whose cache holds the line of 0x1000, dirty or not. -/
def withLine (dirty : Bool) (a : Word) : Core :=
  { withRegs a 7 with dcache := [{ addr := 0x1000, data := zeros 64, dirty := dirty }] }

theorem witness_CachedLoadsAndStores :
    (let s := onCore (withLine false 0x1038)
     Ready s 91 ∧ cacheable (core s 91) 91 0x1038 = true ∧
       (core s 91).dcache.find? (·.addr == 0x1038 / 64 * 64) = some { addr := 0x1000, data := zeros 64 } ∧ 0x1038 % 8 = 0) ∧
    (let s := onCore (withLine true 0x1038)
     Ready s 91 ∧ cacheable (begun (core s 91)) 91 0x1038 = true ∧ dirtyAt s 91 0x1038 = true ∧
       storeHeld (begun (core s 91)) = false) := by
  unfold Ready; decide +kernel

theorem witness_AddressTraps :
    (core (onCore running) 91).exc = false ∧ (0x1003 : Nat) % 2 ≠ 0 ∧ regionOf 0x8000000000000000 = .nothing ∧
    (0x8000000000000000 : Nat) % 8 = 0 ∧
    (let x := { withRegs 0x1000 7 with ucLimit := 0x2000 }
     Ready (onCore x) 91 ∧ cacheable (core (onCore x) 91) 91 0x1000 = false ∧ regionOf 0x1000 = .sdram) ∧
    (cacheable (core (onCore running) 91) 91 spmBase = false ∧ regionOf spmBase = .spm 0 0) ∧
    (cacheable (core (onCore running) 91) 91 cellBase = false ∧ regionOf cellBase = .cell) := by
  unfold Ready; decide +kernel

theorem witness_ExceptionsAndInterrupts :
    (Ready (onCore running) 91 ∧ (core (onCore running) 91).exc = false) ∧
    (let s := onCore { running with ie := true, doorbell := true, irqEn := 8 }
     crewUsable s (91 / 8) = true ∧ awake s (some (91 / 8)) = true ∧ (core s 91).run = .run ∧ (core s 91).ie = true ∧
       (core s 91).exc = false ∧ irqReady s (core s 91) ≠ 0) ∧
    ((core (onCore running) 91).ie = false ∧ (core (onCore running) 91).run ≠ .reset) := by
  unfold Ready; decide +kernel

theorem witness_FencesCachesAndCsrs :
    (let s := onCore (withLine false 0x1000)
     Ready s 91 ∧ drained s 91 = true ∧ ∀ l ∈ (core s 91).dcache, l.dirty = false) ∧
    (let s := onCore { running with regWait := some 0 }
     Ready s 91 ∧ (begun (core s 91)).writes = [] ∧ (begun (core s 91)).regWait ≠ none) ∧
    (let s := onCore running
     let x := begun (core s 91)
     csrGet s 91 x 5 = some 0 ∧ csrRoWritten 5 0 (BitVec.allOnes 64) = false ∧ csrGet s 91 x 0xFFF = none ∧
       (csrGet s 91 x 3).isSome = true ∧ csrRoWritten 3 0 1 = true ∧ (core s 91).exc = false) := by
  unfold Ready; decide +kernel

theorem witness_TaskInstructions :
    let w : Work := { task := 0, deadline := 5 }
    let staged := { onCore running with shuttle := { (boot 7).shuttle with staged := [(91, w)] } }
    let held := { onCore { running with task := true } with
                  shuttle := { (boot 7).shuttle with running := [(91, { work := w, start := 0 })] } }
    (Ready staged 91 ∧ (begun (core staged 91)).task = false ∧ irqTakes staged (begun (core staged 91)) = false ∧ spFind staged.shuttle.staged 91 = some w) ∧
    spFind (onCore running).shuttle.staged 91 = none ∧
    (let s := onCore { running with ie := true, doorbell := true, irqEn := 8 }
     Ready s 91 ∧ (begun (core s 91)).task = false ∧ irqTakes s (begun (core s 91)) = true) ∧
    (Ready held 91 ∧ (begun (core held 91)).task = true ∧ (begun (core held 91)).dcache = [] ∧
      spFind held.shuttle.running 91 = some { work := w, start := 0 } ∧ (core held 91).exc = false) ∧
    awake (onCore running) (some (91 / 8)) = true := by
  unfold Ready; decide +kernel

theorem witness_CoreResetsAndCrewControl :
    (let s := onCore { running with exc := true }
     crewUsable s (91 / 8) = true ∧ awake s (some (91 / 8)) = true ∧ (core s 91).dcache = [] ∧ (core s 91).writes = [] ∧ spFind s.shuttle.staged 91 = none ∧
       spFind s.shuttle.running 91 = none ∧ (core s 91).run ≠ .reset ∧ Ready s 91 ∧ (core s 91).exc = true) ∧
    (core (boot 7) 91).run = .reset ∧
    (crewUsable (boot 7) 11 = true ∧ awake (boot 7) (some 11) = true ∧ (dom (boot 7) 11).fault = false ∧
      ownerOk 11 0xC0 = true ∧ spFind (boot 7).bankPend (32 * 11 + 31) = none ∧
      spFind ({ boot 7 with bankPend := [(32 * 11 + 31, 0xC0)] } : State).bankPend (32 * 11 + 31) = some 0xC0 ∧
      ∀ k < 8, (core (boot 7) (8 * 11 + k)).writes = []) := by
  unfold Ready; decide +kernel

/-- A core with an element type, group code and count in force. -/
def vectorCore (et group count : Nat) : Core :=
  { running with vshape := BitVec.ofNat 64 (et * 8 + group * 64), vcount := BitVec.ofNat 64 count }

theorem witness_VectorArithmetic :
    (∀ et < 8, ∀ g < 4, let h := shapeOf (begun (vectorCore et g 5)); h.et = et ∧ h.grp = 2 ^ g ∧ h.count = 5) ∧
    Ready (onCore (vectorCore 1 3 5)) 91 ∧ (core (onCore (vectorCore 1 3 5)) 91).exc = false ∧
    ((8 : Fin 32).val % 8 = 0 ∧ secondOk (.vv 16) 8 = true ∧ secondOk (.vi 3) 8 = true ∧ secondOk (.vv 17) 8 = false) ∧
    ((8 : Fin 32).val % (2 * 4) = 0 ∧ overlaps 0 4 8 (2 * 4) = false ∧ secondOver (.vv 4) 4 8 (2 * 4) = false ∧
      overlaps 12 4 8 (2 * 4) = true) ∧
    (noSecond (.vi 0) = true ∧ noSecond (.vi 1) = false) ∧ ((-5 : Int) % 2 ^ 1 ≠ 0 ∧ (-4 : Int) % 2 ^ 1 = 0) := by
  unfold Ready; decide +kernel

/-- The classes of binary32 numbers that BinarySpecialOperands names. -/
theorem witness_VectorFloats :
    let ex := fun (w : Nat) => w / 2 ^ 23 % 256
    let nan := fun (w : Nat) => ex w = 255 ∧ w % 2 ^ 23 ≠ 0
    (nan 0x7FC00000 ∧ nan 0x7F800001 ∧ ex 0x3F800000 ≠ 255 ∧ ex 0x3F800000 ≠ 0) ∧
    (158 ≤ ex 0x4F000000 ∧ ¬ nan 0x4F000000 ∧ 0x4F000000 ≠ 0xCF000000) ∧ (158 ≤ ex 0xFF800000 ∧ ¬ nan 0xFF800000) ∧
    (1 ≤ ex 0x00800000 ∧ ex 0x7F7FFFFF < 255) := by
  decide +kernel

theorem witness_VectorCompareResults :
    (Ready (onCore (vectorCore 3 1 5)) 91 ∧ (7 : Fin 32).val < 8 ∧ (30 : Fin 32).val % 2 = 0 ∧ secondOk (.vv 2) 2 = true ∧
      (shapeOf (begun (vectorCore 3 1 5))).et < 4 ∧ (shapeOf (begun (vectorCore 6 1 5))).et = 6) ∧
    (0x7F800001 / 2 ^ 23 % 256 = 255 ∧ 0x7F800001 % 2 ^ 23 ≠ 0) ∧ 8 ≤ (8 : Fin 32).val := by
  unfold Ready; decide +kernel

theorem witness_VectorPermutes :
    let x := begun (vectorCore 2 1 5)
    Ready (onCore (vectorCore 2 1 5)) 91 ∧ (2 : Fin 32).val % (shapeOf x).grp = 0 ∧ overlaps 2 (shapeOf x).grp 4 (shapeOf x).grp = false ∧
    (getS x 0).toNat < (shapeOf x).vlmax ∧ (shapeOf x).vlmax ≤ (getS (setS x 1 32) 1).toNat := by
  unfold Ready; decide +kernel

theorem witness_VectorReductionsAndShape :
    let none_ := begun (vectorCore 2 0 0)
    let some_ := begun (vectorCore 2 0 16)
    (Ready (onCore (vectorCore 2 0 16)) 91 ∧ (shapeOf some_).et < 4 ∧ (3 : Fin 32).val % (shapeOf some_).grp = 0 ∧
      (30 : Fin 32).val % 2 = 0 ∧ (30 : Fin 32) ≠ 0) ∧
    (List.range (shapeOf none_).count).filter (activeAt none_ false 0) = [] ∧
    (List.range (shapeOf some_).count).filter (activeAt some_ false 0) ≠ [] ∧
    ((0xD0 : BitVec 8).toNat % 2 = 0 ∧ (0xD1 : BitVec 8).toNat % 2 = 1) := by
  unfold Ready; decide +kernel

/-- A vector core whose s1 is 0x1000 and whose cache holds two lines from there. -/
def vectorLines (et count : Nat) (dirty : Bool) : Core :=
  { setS (vectorCore et 0 count) 1 0x1000 with
    dcache := [{ addr := 0x1000, data := zeros 64, dirty := dirty }, { addr := 0x1040, data := zeros 64, dirty := dirty }] }

theorem witness_VectorTraps :
    let odd := setS (vectorCore 1 0 3) 1 0x8000000000000001
    (Ready (onCore odd) 91 ∧ (core (onCore odd) 91).exc = false ∧ 0 < (shapeOf odd).count ∧ eriPending odd = false ∧
      (getS odd 1).toNat % ((shapeOf odd).ew / 8) ≠ 0 ∧ regionOf (getS odd 1).toNat = .nothing ∧
      (∀ k < (shapeOf odd).count, regionOf (vAddr odd (shapeOf odd) { v := 4, rs1 := 1 } k) = .nothing)) ∧
    ((8 : Nat) < 2 * (shapeOf (vectorCore 1 3 5)).grp ∧ (shapeOf (vectorCore 1 3 5)).et ∉ [4]) ∧
    (5 : Fin 32).val % (shapeOf (vectorCore 1 1 3)).grp ≠ 0 ∧
    (let x := setS (vectorCore 1 0 3) 1 (BitVec.ofNat 64 (spmBase + 8))
     Ready (onCore x) 91 ∧ eriPending x = false ∧ x.vcount ≠ 0 ∧ (getS x 1).toNat % 32 ≠ 0 ∧ (getS x 1).toNat + 64 ≤ 2 ^ 64 ∧
       ∀ k < 64, wordMemory x 91 ((getS x 1).toNat + k) = true) := by
  unfold Ready; decide +kernel

theorem witness_VectorLoadsAndStores :
    let f : VMem := { v := 4, rs1 := 1 }
    let x := vectorLines 2 16 false
    let y := vectorLines 2 16 true
    (Ready (onCore x) 91 ∧ (x.exc || !eriPending x) = true ∧ vMemCheck (shapeOf x) f true = none ∧ (shapeOf x).count ≤ (shapeOf x).vlmax ∧
      (∀ k < (shapeOf x).count, vAddr x (shapeOf x) f k % ((shapeOf x).ew / 8) = 0 ∧ cacheable x 91 (vAddr x (shapeOf x) f k) = true ∧
        (x.dcache.find? (·.addr == vAddr x (shapeOf x) f k / 64 * 64)).any (fun l => !l.bad && !l.ce) = true)) ∧
    (Ready (onCore y) 91 ∧ (y.exc || !eriPending y) = true ∧ storeHeld y = false ∧ (∀ l ∈ y.dcache, l.data.length = 64) ∧
      vMemCheck (shapeOf y) f false = none ∧
      (∀ k < (shapeOf y).count, vAddr y (shapeOf y) f k % ((shapeOf y).ew / 8) = 0 ∧ cacheable y 91 (vAddr y (shapeOf y) f k) = true ∧
        dirtyAt (onCore y) 91 (vAddr y (shapeOf y) f k) = true)) ∧
    ((getS x 1).toNat % 32 = 0 ∧ (getS x 1).toNat + 64 ≤ 2 ^ 64 ∧ x.vcount ≠ 0 ∧ (vectorCore 2 0 0).vcount = 0 ∧
      (∀ k < 64, cacheable y 91 ((getS y 1).toNat + k) = true) ∧ dirtyAt (onCore y) 91 (getS y 1).toNat = true ∧
      dirtyAt (onCore y) 91 ((getS y 1).toNat + 32) = true) := by
  unfold Ready; decide +kernel
/-- A packet of at most 256 bytes waiting on a queue, its one cell being its handle's. -/
def withPacket (q h : Nat) (d : Bytes) (s : State) : State :=
  queuePut q { queue s q with items := [h] } (pktPut h { cells := [h], len := d.length, st := .queued, queue := q }
    { s with mem := (List.range d.length).map fun k => (cellBase + 256 * h + k, d.getD k 0) })

/-- A POWER command of one antenna and one resource block, and a FFT of 64 points, in crew 11's scratchpad. -/
def powerCmd : Bytes := [0x12, 0, 1, 0] ++ leBytes 2 1 ++ [0, 0] ++ leBytes 6 (spmBase + 11 * 0x1000000) ++ zeros 18
def fftCmd : Bytes :=
  [1, 0, 0, 0] ++ leBytes 2 64 ++ leBytes 2 64 ++ leBytes 6 (spmBase + 11 * 0x1000000) ++ zeros 2 ++
  leBytes 6 (spmBase + 11 * 0x1000000 + 0x1000) ++ zeros 10

/-- A core whose s4 to s7 hold a command. -/
def withCommand (b : Bytes) : Core :=
  setS (setS (setS (setS running 4 (BitVec.ofNat 64 (fld b 0 8))) 5 (BitVec.ofNat 64 (fld b 8 8))) 6
    (BitVec.ofNat 64 (fld b 16 8))) 7 (BitVec.ofNat 64 (fld b 24 8))

/-- Its queue holding that command on an engine, with tag 4, the crew's bank 0 owned by core 3. -/
def withQueue (engine : Nat) (b : Bytes) : State :=
  let d : CopCmd := { core := 91, tag := 4, gen := 1, data := b }
  regPutF (uCREW + 11) crewCtl 0x100 7 0 3
    (copPut 11 engine [d] (onCore { running with tags := [(4, { st := .live, gen := 1 })], cpGen := 1 }))

/-- The word of a CPISS of tag 4 to unit 2 with the command at q1. -/
def cpissWord : Nat := 0x3C * 2 ^ 26 + 4 * 2 ^ 21 + 2 * 2 ^ 18 + 2 ^ 15

theorem witness_speculation :
    let s := fun (w : Bytes) => { onCore (withCommand powerCmd) with mem := (List.range 4).map fun k => (spmBase + 4 + k, w.getD k 0) }
    let x := begun (core (s []) 91)
    (specIssue (beginInstr 91 (s (leBytes 4 cpissWord))) 91 (x.pc + 4)).isSome = true ∧
    specIssue (beginInstr 91 (onCore (withCommand powerCmd))) 91 (x.pc + 4) = none ∧ Ready (s (leBytes 4 cpissWord)) 91 ∧
    ((tagOf x 4).st = .free ∧ copParamOk 7 ([0x30] ++ zeros 31) = true ∧ copAddrOk (91 / 8) 7 ([0x30] ++ zeros 31) = true ∧
      copBytes (begun (withCommand ([0x30] ++ zeros 31))) 1 = [0x30] ++ zeros 31) := by
  unfold Ready; decide +kernel

theorem witness_Coprocessors :
    (let s := onCore (withCommand powerCmd)
     let x := begun (core s 91)
     Ready s 91 ∧ (tagOf x 4).st = .free ∧ copBytes x 1 = powerCmd ∧ copParamOk 2 powerCmd = true ∧ copAddrOk (91 / 8) 2 powerCmd = true ∧
       fld powerCmd 1 1 / 128 % 2 = 0 ∧ (copQueue s (91 / 8) (copEngine s (91 / 8) 2)).length < 16 ∧ copParamOk 2 (zeros 32) = false ∧
       (core s 91).exc = false ∧ ∀ k < 32, (tagOf x k).st ≠ .live) ∧
    (let x := { running with tags := [(4, { st := .done }), (5, { st := .live, gen := 1 })] }
     (tagOf x 4).st = .done ∧ (tagOf x 5).st ≠ .free) ∧
    (∀ t ∈ [(2, powerCmd, false), (0, fftCmd, true)],
      let s := withQueue t.1 t.2.1
      let d : CopCmd := { core := 91, tag := 4, gen := 1, data := t.2.1 }
      crewUsable s 11 = true ∧ d.after = none ∧ (tagOf (core s d.core) d.tag).st = .live ∧ (tagOf (core s d.core) d.tag).gen = d.gen ∧
        d.core / 8 = 11 ∧ copQueue s 11 t.1 = d :: [] ∧
        (copReadAll d.core t.2.2 (copInputs d.data) s).1 = .ok ∧
        let z := copReadAll d.core t.2.2 (copInputs d.data) s
        let outs := copOutputs d.data
        let y := copWriteAll d.core (t.1 + 1) none outs (copOut d.data z.2.1 (sumL (outs.map (·.2)))) z.2.2
        y.1 = .ok ∧ core y.2 d.core = core s d.core ∧ awake y.2 (some 11) = true) ∧
    (let d : CopCmd := { core := 91, tag := 4, gen := 1, data := [0x30] ++ zeros 31 }
     let d' := { d with after := some (6, 1) }
     let s := fun (c : CopCmd) => onCore { running with tags := [(4, { st := .live, gen := 1 }), (6, { st := .done, gen := 1, status := 1 })]
                                                        hand := [c] }
     crewUsable (s d) (91 / 8) = true ∧ (core (s d) 91).dcache = [] ∧ (core (s d) 91).hand.find? (·.tag == 4) = some d ∧
       awake (s d) (some (91 / 8)) = true ∧ d.core = 91 ∧ d.tag = 4 ∧ drained (s d) 91 = true ∧ (tagOf (core (s d) 91) 4).st = .live ∧ (tagOf (core (s d) 91) 4).gen = d.gen ∧
       (core (s d') 91).hand.find? (·.tag == 4) = some d' ∧ afterState (s d') d' = some true) := by
  unfold Ready; decide +kernel

/-- A polar encoding descriptor of one block, at 0x1000 with its input and its record in listed memory. -/
def polarDesc : Bytes :=
  [3, 0] ++ leBytes 2 32 ++ leBytes 2 12 ++ [0, 0] ++ leBytes 2 32 ++ zeros 2 ++ leBytes 2 1 ++ zeros 2 ++
  leBytes 6 0x1100 ++ zeros 2 ++ leBytes 6 0x1140 ++ zeros 2 ++ leBytes 6 0x1180 ++ zeros 26

/-- Engine 32 at work on a task whose ENTRY is as given. -/
def withEngine (entry : Nat) : State :=
  let s := withMemory (withSlot { st := .running, desc := { entry := entry, cls := 1 } })
  { s with mem := (List.range 512).map fun k => (0x1000 + k, polarDesc.getD k 0)
           shuttle := { s.shuttle with engines := [(32, { work := { task := 0, deadline := 5 }, start := 0 })] } }

theorem witness_Engines :
    let s := withEngine 0x1000
    let r : Running := { work := { task := 0, deadline := 5 }, start := 0 }
    let z := readBytes (engineInit 32) 0x1000 64 s
    let a := polarRun false 32 z.2.1 z.2.2.2
    spFind s.shuttle.engines 32 = some r ∧ spFind s.shuttle.engineEnds 32 = none ∧
    awake s (domainOf (engineUnit 32).1 (engineUnit 32).2) = true ∧ (slot s 0).desc.entry % 32 = 0 ∧
    (slot (withEngine 0x1010) 0).desc.entry % 32 ≠ 0 ∧ z.1 = .ok ∧ fld z.2.1 0 1 = 3 ∧ polarOk z.2.1 = true ∧
    (writeBytes (engineInit 32) (fld z.2.1 32 6) (statusRecord a.2 (fld z.2.1 12 2) a.1) a.2).1 = .ok ∧
    (∀ e ∈ [({} : EngineEnd), { error := 4 }, { recorded := false }],
      spFind ({ s with shuttle := { s.shuttle with engineEnds := [(32, e)] } } : State).shuttle.engineEnds 32 = some e) := by
  decide +kernel

theorem witness_FrameCodeRoundTrip :
    5 ≤ 11 ∧ ([2, 0, 0, 0, 0x10] : Bytes).length = 5 ∧ ([7, 8] : Bytes).length = hdrLen [2, 0, 0, 0, 0x10] := by decide +kernel

/-- The body of a chirp group of one channel, number 5, with transmission. -/
def chirpBody : Bytes :=
  [3, 4] ++ leBytes 2 7 ++ leBytes 2 8 ++ [1, 1] ++ zeros 12 ++ leBytes 2 60 ++ [0, 1] ++ leBytes 2 500 ++ zeros 6 ++
  [5, 1, 0x7F, 0x34, 0, 0, 6, 0]

/-- That group with number 9, in a state, at a time. -/
def withChirp (st : FnState) (ns : Nat) : State := atTime ns (objPut (chirpObj 9) { body := chirpBody, st := some st, cost := 2 } (boot 7))

/-- A header without payload coding, its symbols of order 7, and a transmit descriptor of two bytes. -/
def chirpHeader : Bytes := [2, 0, 0, 0, 0]
def headerSymbolsOf (h : Bytes) : List (BitVec 11) :=
  let l := codedBits (h ++ [BitVec.ofNat 8 (crc8 h)])
  (symbolsOf 7 l.length l).map (BitVec.ofNat 11)
def txDesc (launch : Nat) : Bytes :=
  leBytes 8 launch ++ [5, 7, 6, 0] ++ leBytes 4 1 ++ [2, 0, 0, 0] ++ leBytes 4 0xABCD ++ zeros 8 ++ [1, 2]

theorem witness_ChirpRadio :
    let e : ChirpEntry := { channel := 5, bw := 1, mask := 0x7F, sync := 0x34, offset := 0, preambleMin := 6 }
    let r : Reception := { so := 7, at_ := 0, bin := 0, floor := 0 }
    let rx := fun (h : Option Bytes) => { withChirp .running 0 with chirp := [(5, { demods := [(0, { r with header := h })] })] }
    let tx := withPacket 60 77 (txDesc 500000) (withChirp .running 100000)
    let sending := fun (started : Bool) =>
      let s := withChirp .running 500000
      { s with chirpMods := [(3, { group := 9, channel := 5, launch := 500000, stop := 500000, cookie := 1, symbols := [], so := 7,
                                   atten := 0, started := started })] }
    (∀ st ∈ [FnState.starting, .running, .stopping], objsOf (withChirp st 0) 3 1 = [(chirpObj 9, { body := chirpBody, st := some st, cost := 2 })] ∧
      objFind (withChirp st 0) (chirpObj 9) = some { body := chirpBody, st := some st, cost := 2 }) ∧
    (fld chirpBody 0 1 = 3 ∧ fld chirpBody 2 2 = 7) ∧
    (shortNow (withChirp .running 2000000) ≤ 0 + 2000000 ∧ 0 + 2000000 < shortNow (withChirp .running 2000001) ∧
      (chirpGroup (withChirp .running 0) 9).seen = none ∧
      (chirpGroup { withChirp .running 0 with chirpGroups := [(9, { seen := some 4 })] } 9).seen = some 4) ∧
    (chirpEntries chirpBody = [e] ∧ regF (boot 7) uCSS 5 0x018 1 1 = 0) ∧
    (withChirp .stopping 0).chirpMods = [] ∧ chirpRunning (withChirp .running 0) 5 = some (chirpObj 9, chirpBody, e) ∧
    (bit e.mask (11 - 5) = true ∧ blanked (withChirp .running 0) 9 = false ∧
      blanked { withChirp .running 0 with chirpGroups := [(9, { blankUntil := 1 })] } 9 = true ∧
      (chirpCh (withChirp .running 0) 5).demods = []) ∧
    (spFind (chirpCh (rx none) 5).demods 0 = some r ∧ decodeHeader 7 [] = none ∧
      decodeHeader 7 (headerSymbolsOf chirpHeader) = some (chirpHeader, 0)) ∧
    (spFind (chirpCh (rx (some chirpHeader)) 5).demods 0 = some { r with header := some chirpHeader } ∧
      0 < payloadSymbols 7 (hdrLen chirpHeader) (hdrCode chirpHeader) ∧
      payloadSymbols 7 (hdrLen chirpHeader) (hdrCode chirpHeader) ≤ 100) ∧
    (queue (withChirp .running 0) (fld chirpBody 20 2)).items = [] ∧
    (let z := takePacket (unitInit uCSS 0) (fld chirpBody 20 2) tx
     z.1 = some (txDesc 500000) ∧ (queue tx (fld chirpBody 20 2)).items.head? = some 77 ∧ packetBytes tx 77 = txDesc 500000 ∧
       txDescOk chirpBody (txDesc 500000) = true ∧ 500000 ≤ shortNow tx + fld chirpBody 24 2 * 1000 ∧
       shortNow tx + txDelay chirpBody + 300000 ≤ 500000 ∧ z.2.chirpMods = []) ∧
    ((spFind (sending false).chirpMods 3).any (fun x => x.launch - txDelay chirpBody ≤ shortNow (sending false) &&
        decide ((shortNow (sending false) - (x.launch - txDelay chirpBody)) * 2 ^ fld chirpBody 6 1 ≤ 625)) = true ∧ chirpFlag chirpBody 0 = false ∧
      (spFind (sending true).chirpMods 3).any (fun x => x.started && x.stop ≤ shortNow (sending true)) = true) ∧
    (cssChannels (boot 7).part ≠ 0 ∧ Addressed (req uCSS (leBytes 4 (2 ^ 18 - 1))) uCSS 0 ∧ fld (leBytes 4 (2 ^ 18 - 1)) 0 4 < 2 ^ 18 ∧
      tagRegistered (boot 7) 5 = false ∧
      tagRegistered { boot 7 with tags := [(5, leBytes 4 (2 ^ 31 + 5) ++ zeros 28)] } 5 = true) := by
  unfold Addressed; decide +kernel

/-- The seen and waiting band messages, the agreement of a preamble, the quiet periods and the corners of transmission. -/
theorem witness_ChirpRadio_times :
    let e : ChirpEntry := { channel := 5, bw := 1, mask := 0x7F, sync := 0x34, offset := 0, preambleMin := 6 }
    let up : UpChirp := { power := 7, timing := 9, bin := 3 }
    let pre : SyncSeen := { upChirps := 8, sync := some 0x34, after := 64, marker := true }
    let seen := fun (got : List Nat) (ns : Nat) =>
      { withChirp .running ns with chirpGroups := [(9, { seen := some 4, got := got })] }
    let tx := withPacket 60 77 (txDesc 500000) (withChirp .running 100000)
    let bad := queuePut 60 { queue tx 60 with mismatch := true } tx
    let sending := { withChirp .running 502000 with
      chirpMods := [(3, { group := 9, channel := 5, launch := 500000, stop := 900000, cookie := 1, symbols := [], so := 7, atten := 0 })] }
    (chirpGroup (seen [] 2100004) 9).seen = some 4 ∧ (chirpGroup (seen [] 2100004) 9).got = [] ∧ 4 + 2100000 ≤ shortNow (seen [] 2100004) ∧
    (chirpGroup (seen [100004] 0) 9).got.contains (4 + 100000) = true ∧ shortNow (seen [] 0) < 4 + 2100000 ∧
    agreeing e 7 (List.replicate 5 up ++ [up]) = some (List.replicate 6 up) ∧ agreeing e 7 ([] ++ [up]) = none ∧
    agreeing e 7 (List.replicate 5 up ++ [{ up with bin := 4 }]) = none ∧
    (e.preambleMin + 2 ≤ pre.upChirps.toNat ∧ pre.sync = some (BitVec.ofNat 8 e.sync) ∧ pre.after.toNat ≤ 64 ∧ pre.marker = true) ∧
    (let s := { withChirp .running 10000000 with now := 10000000 }
     (chirpCh s 5).demods = [] ∧ (chirpCh s 5).busyAt + leastTs e ≤ s.now ∧ (chirpCh s 5).noiseAt + leastTs e ≤ s.now ∧
       (chirpGroup s 9).blankUntil + leastTs e ≤ shortNow s) ∧
    (withChirp .running 0).now < (chirpCh (withChirp .running 0) 5).busyAt + leastTs e ∧
    (let z := takePacket (unitInit uCSS 0) (fld chirpBody 20 2) bad
     z.1 = none ∧ (queue bad (fld chirpBody 20 2)).items.head? = some 77 ∧
       fld (packetBytes bad 77) 0 8 ≤ shortNow bad + fld chirpBody 24 2 * 1000) ∧
    ((spFind sending.chirpMods 3).any (fun x => !x.started && decide (x.launch - txDelay chirpBody ≤ shortNow sending) &&
        decide (625 < (shortNow sending - (x.launch - txDelay chirpBody)) * 2 ^ fld chirpBody 6 1) &&
        decide (shortNow sending < x.stop)) = true) := by
  decide +kernel

/-- That bridge group with number 7, in a state, at a time, with one leg when wanted. -/
def withGroup (st : FnState) (legs : Sparse Leg) (ns : Nat) : State :=
  let s := atTime ns (objPut (bridgeObj 7) { body := groupBody, st := some st, cost := 10 } (boot 7))
  { s with audio := { s.audio with legs := legs } }

/-- A leg of it fed by frames. -/
def aLeg : Leg := { group := 7, source := 0, sink := 0, frame := 48, start := 0 }

/-- An input frame of one sample for leg 9, and a parameter descriptor for it. -/
def inputFrame : Bytes := leBytes 8 5000000000 ++ leBytes 2 9 ++ [5, 0] ++ leBytes 2 1 ++ zeros 18 ++ [1, 2]
def paramBody : Bytes := leBytes 8 0 ++ leBytes 2 9 ++ [3, 0] ++ zeros 4 ++ [1] ++ zeros 47

theorem witness_AudioGroupsAndBlocks :
    let run := withGroup .running [(9, aLeg)] 5000000000
    let fed := withPacket (fld groupBody 4 2) 77 inputFrame run
    let param := regPutF uAUDIO 0 0x004 31 31 1 (regPutF uAUDIO 0 0x004 15 0 60 (withPacket 60 77 paramBody run))
    let span := objPut (bridgeObj 7) { body := putFld (putFld groupBody 8 1 1) 9 1 1 ++ leBytes 4 3, st := some .running } (boot 7)
    (∀ st ∈ [FnState.starting, .running, .stopping], objFind (withGroup st [] 0) (bridgeObj 7) =
      some { body := groupBody, st := some st, cost := 10 }) ∧
    (ceilDiv ((audioGroup (boot 7) 7).admitted + 2000000) 1000000 * 1000000 = 2000000 ∧
      shortNow (withGroup .starting [] 2000000) = 2000000 ∧ shortNow (withGroup .starting [] 1999999) < 2000000) ∧
    (legsOf (withGroup .stopping [] 0) 7 = [] ∧ legsOf (withGroup .stopping [(9, aLeg)] 0) 7 ≠ []) ∧
    (let z := takePacket (unitInit uAUDIO 0) (fld groupBody 4 2) fed
     let v := z.2
     z.1 = some inputFrame ∧ legFind v 9 = some aLeg ∧ aLeg.group = 7 ∧ aLeg.source = 0 ∧
       fld inputFrame 8 2 < 4096 ∧ fld inputFrame 11 1 < 2 ∧ fld inputFrame 14 1 < 4 ∧ fld inputFrame 10 1 < 6 ∧ 1 ≤ fld inputFrame 12 2 ∧ fld inputFrame 12 2 ≤ maxCount (fld inputFrame 10 1) ∧
       rsv inputFrame 15 17 = true ∧ inputFrame.length = 32 + 1 * 2 ∧
       fld inputFrame 0 8 + aLeg.p.playout * 1000 + (1 - 1) * second / rateHz 5 < blockNow v * 1000000 + 256000000) ∧
    isRunning (boot 7) (bridgeObj 7) = false ∧ ({ aLeg with group := 8 } : Leg).group ≠ 7 ∧
    (run.cox.st ≠ .unset ∧ run.audio.last = none ∧ shortNow run ≤ blockNow run * 1000000 + 400000 ∧
      (withGroup .running [] 5000000000).audio.legs = [] ∧ 7 ∈ liveGroups (withGroup .running [] 5000000000) ∧
      bridgeSpan (withGroup .running [] 5000000000) 7 = false ∧ liveGroups (boot 7) = []) ∧
    (let s := withGroup .running [] 5000400000
     blockNow s * 1000000 + 400000 ≤ shortNow s ∧ liveGroups s ≠ [] ∧
       blockNow (withGroup .running [] 5000400001) * 1000000 + 400000 < shortNow (withGroup .running [] 5000400001)) ∧
    (groupLive span 7 = true ∧ bridgeSpan span 7 = true ∧ 3 ∈ bridgeRemotes (bridgeBody span 7) ∧ 4 ∉ bridgeRemotes (bridgeBody span 7)) ∧
    (let z := takePacket (unitInit uAUDIO 0) (regF param uAUDIO 0 0x004 15 0) param
     let v := z.2
     regF param uAUDIO 0 0x004 31 31 = 1 ∧ z.1 = some paramBody ∧ legFind v 9 = some aLeg ∧
       descWf aLeg.group paramBody = true ∧ applyNear v paramBody = true ∧ v.audio.pend.length < 1024) ∧
    (let m : MixSample := { n := 48, v := 5, p := { receive := true, contribute := true } }
     ([m] : List MixSample)[0]? = some m ∧ m.n % 48 = 0 ∧ m.p.listens = [] ∧ m.p.muteOut = false ∧ m.p.outGain = 65536 ∧
       (limitRun 1 [m] (2 ^ 23)).1.length = 1) := by
  decide +kernel

theorem witness_LegsAndHeadsetPorts_legs :
    let run := withGroup .running [(9, aLeg)] 5000000000
    let add := req uAUDIO (leBytes 2 8 ++ leBytes 2 7 ++ [0, 0, 0, 3] ++ leBytes 4 0 ++ zeros 4)
    let key := req uAUDIO (leBytes 2 9 ++ [1, 0x11] ++ zeros 4 ++ List.replicate 44 5 ++ zeros 4)
    (Addressed add uAUDIO 0 ∧ add.params.length = 16 ∧ rsv add.params 12 4 = true ∧ isRunning run (bridgeObj 7) = true ∧
      legFind run 8 = none ∧ (legsOf run 7).length < fld (bridgeBody run 7) 2 2 ∧ legFind run 9 = some aLeg ∧
      (∀ e ∈ run.audio.legs, e.2.source ≠ 1 ∧ e.2.sink ≠ 1)) ∧
    (let p := leBytes 2 9 ++ zeros 6
     p.length = 8 ∧ fld p 0 2 = 9 ∧ rsv p 2 6 = true) ∧
    (fld paramBody 8 2 = 9 ∧ descWf aLeg.group paramBody = true ∧ applyNear run paramBody = true ∧ run.audio.pend.length < 1024) ∧
    (key.transport = .pcie ∧ key.params.length = 56 ∧ fld key.params 2 1 < 2 ∧ fld key.params 3 1 = 0x11 ∧ rsv key.params 4 4 = true ∧
      rsv key.params 52 4 = true) ∧
    (let pend : ParamPend := { time := 0, leg := 9, data := [], came := 0 }
     1024 ≤ ({ run with audio := { run.audio with pend := List.replicate 1024 pend } } : State).audio.pend.length) ∧
    ({ key with transport := .eth }.transport ≠ .pcie ∧ key.reserved = false) := by
  unfold Addressed; decide +kernel

theorem witness_LegsAndHeadsetPorts_ports :
    let plugged := fun (kind ns : Nat) =>
      let s := regPutF uHSP 1 0x000 31 31 1 (regPutF uHSP 1 0x000 30 28 kind (boot 7))
      { s with now := ns, hsp := [(1, { inserted := some 0 })] }
    let mic := { regPutF uHSP 1 0x004 4 4 1 (plugged 3 20000000) with hsp := [(1, { inserted := some 0, reading := buttonOf 150 })] }
    (regF (boot 7) uHSP 1 0x000 31 31 = 0 ∧ awake (boot 7) (some 24) = true ∧ (hsp (boot 7) 1).inserted = none) ∧
    (regF (plugged 6 0) uHSP 1 0x000 31 31 = 1 ∧ (hsp (plugged 6 15000000) 1).inserted = some 0 ∧
      regF (plugged 6 15000000) uHSP 1 0x000 30 28 = 6 ∧ 0 + 15000000 ≤ (plugged 6 15000000).now ∧ (plugged 6 0).now < 0 + 15000000) ∧
    (regF mic uHSP 1 0x000 30 28 = 3 ∧ regF mic uHSP 1 0x004 4 4 = 1 ∧ buttonOf 150 = (hsp mic 1).reading ∧
      (hsp mic 1).since + regF mic uHSP 1 0x008 15 8 * 1000000 ≤ mic.now ∧ awake mic (some 24) = true ∧
      buttonOf 0 ≠ (hsp (plugged 3 0) 1).reading) ∧
    regF (regPutF uHSP 1 0x004 4 4 0 (boot 7)) uHSP 1 0x004 4 4 = 0 ∧
    regF (boot 7) uHSP 1 0x008 31 24 ≤ (300 : BitVec 16).toNat ∧ (0 : BitVec 16).toNat < regF (boot 7) uHSP 1 0x008 31 24 ∧
    regF (plugged 6 0) uHSP 1 0x008 23 16 ≤ (300 : BitVec 16).toNat ∧ (0 : BitVec 16).toNat < regF (plugged 6 0) uHSP 1 0x008 23 16 := by
  decide +kernel
/-- The body of a video session of 1280 × 720 at 30 a second, of a kind. -/
def videoBodyOf (kind source : Nat) : Bytes :=
  [BitVec.ofNat 8 kind, 0] ++ leBytes 2 1280 ++ leBytes 2 720 ++ [4, 10] ++ leBytes 2 60 ++ leBytes 2 0 ++ leBytes 2 source ++
  [5, 10] ++ zeros 12 ++ leBytes 4 1000 ++ [3, 0xFF, 96, 0] ++ zeros 28

/-- That session with number 5, in a state, with its run-time state, at a time. -/
def withVideo (kind source : Nat) (st : FnState) (x : VideoRun) (ns : Nat) : State :=
  videoPut 5 x (atTime ns (objPut (videoObj 5) { body := videoBodyOf kind source, st := some st, cost := 2 } (boot 7)))

/-- An access unit for it. -/
def accessUnit (k : Nat) : Bytes := leBytes 8 1000000 ++ leBytes 2 k ++ [1] ++ zeros 5 ++ [9]

theorem witness_VideoSessions :
    let pic : Picture := { time := 1000000, elig := 2000000 }
    let source := fun (kind : Nat) => layoutPut 3 { outs := [pic] } (withVideo kind 0x8003 .running {} 5000000)
    (∀ st ∈ [FnState.starting, .running, .stopping], objFind (withVideo 0 0 st {} 0) (videoObj 5) =
      some { body := videoBodyOf 0 0, st := some st, cost := 2 }) ∧
    (boundaryFrom 4 2000000 = 33333333 ∧ shortNow (withVideo 0 0 .starting {} 33333333) = 33333333 ∧
      shortNow (withVideo 0 0 .starting {} 33333332) < 33333333) ∧
    ((videoRun (withVideo 1 0 .stopping { stopAt := 5 } 5) 5).stopAt = 5 ∧ shortNow (withVideo 1 0 .stopping { stopAt := 5 } 4) < 5 ∧
      (videoRun (withVideo 1 0 .stopping { stopAt := 5 } 5) 5).decoding = [] ∧ (videoRun (withVideo 1 0 .stopping { stopAt := 5 } 5) 5).rx = [] ∧
      (videoRun (withVideo 0 0 .stopping { decoding := [pic] } 5) 5).decoding ≠ []) ∧
    (∀ n ∈ [5, 6], let s := withPacket (fld (videoBodyOf 0 0) 8 2) 77 (accessUnit n) (withVideo 0 0 .running {} 0)
      let z := takePacket (unitInit uVIDEO ((videoRun s 5).engine.getD 0)) (fld (videoBodyOf 0 0) 8 2) s
      vKind (videoBodyOf 0 0) = 0 ∧ z.1 = some (accessUnit n) ∧ 16 ≤ (accessUnit n).length ∧
        fld (accessUnit n) 8 2 = n ∧ fld (accessUnit n) 10 1 < 2 ∧ rsv (accessUnit n) 11 5 = true) ∧
    (let d := leBytes 8 1000000 ++ leBytes 2 5 ++ [3] ++ zeros 5 ++ [9]
     16 ≤ d.length ∧ fld d 8 2 = 5 ∧ fld d 10 1 < 4 ∧ rsv d 11 5 = true ∧ bit (fld d 10 1) 1 = true) ∧
    (let b := putFld (videoBodyOf 2 0) 4 2 1
     let y : RxPicture := { time := 7, parts := [(0, zeros 3200)] }
     ∀ n, n < vHeight b → vWidth b * 5 / 2 ≤ rxLineBytes y n) ∧
    ((withVideo 3 0x8003 .running {} 0).cox.launches = [] ∧ (withVideo 3 0x8003 .running {} 0).cox.held = []) ∧
    (∀ t ∈ [2000000, 2000001], (videoRun (withVideo 0 0 .running { decoding := [pic] } t) 5).decoding = pic :: []) ∧
    (videoRun (withVideo 0 0 .running {} 0) 5).decoding = [] ∧
    (vKind (videoBodyOf 1 0x8003) = 1 ∧ sourcePicture (source 1) (vSource (videoBodyOf 1 0x8003)) none = some pic ∧
      sourcePicture (withVideo 1 0x8003 .running {} 0) (vSource (videoBodyOf 1 0x8003)) none = none ∧
      vKind (videoBodyOf 3 0x8003) = 3 ∧ sourcePicture (source 3) (vSource (videoBodyOf 3 0x8003)) none = some pic) ∧
    (let b := videoBodyOf 2 0
     vKind b = 2 ∧ fld b 32 1 = 3 ∧ fld b 34 1 = 96 ∧ fld b 40 4 = 0 ∧ shortNow (withVideo 2 0 .running {} 0) < rtpTime 0 0 + vDelay b ∧
       rtpTime 1000000 0 + vDelay b ≤ 1000000 ∧ (videoRun (withVideo 2 0 .running { rx := [{ time := 7 }] } 0) 5).rx = { time := 7 } :: [] ∧
       7 + vDelay b ≤ shortNow (withVideo 2 0 .running { rx := [{ time := 7 }] } 1000007)) := by
  decide +kernel

/-- A layout of one tile with number 3 at 30 a second. -/
def aLayout (apply : Nat) : Bytes :=
  [3, 4, 8, 1] ++ leBytes 2 1280 ++ leBytes 2 720 ++ zeros 8 ++ leBytes 8 apply ++ zeros 24

/-- A video leg's parameters: leg 5 of stream 7, over a port or to a handset. -/
def fwdBody (ip : Bool) : Bytes :=
  leBytes 2 5 ++ leBytes 2 7 ++ [if ip then 1 else 0, 10, 90, 0] ++ leBytes 2 100 ++ leBytes 2 100 ++
  (if ip then [0, 0, 0, 96] else leBytes 2 100 ++ [90, 96]) ++ leBytes 4 1 ++ leBytes 2 9 ++
  (if ip then zeros 5 ++ [4] else leBytes 2 33 ++ leBytes 2 0xFFF ++ [9, 0]) ++ zeros 8 ++
  (if ip then leBytes 4 64 ++ leBytes 4 1000 ++ leBytes 4 500 else zeros 12) ++ zeros 80

theorem witness_LayoutsAndForwarderCommands :
    let tile := zeros 24
    let l := aLayout 0
    let s := fun (x : LayoutRun) (ns : Nat) => layoutPut 3 x (atTime ns (boot 7))
    let set := req uCOMPOSE ([3, 4, 8, 0] ++ leBytes 2 1280 ++ leBytes 2 720 ++ zeros 16)
    (l.length = 24 + tile.length ∧ (s { cur := l } 0).cox.st ≠ .unset ∧ (layoutRun (s { cur := l } 0) 3).cur = l ∧ l ≠ [] ∧
      layTiles l ≠ 0 ∧ (layoutRun (s { cur := l } 0) 3).last = none ∧ boundaryAt (layRate l) 33333333 = 33333333 ∧
      (layoutRun (s { cur := l, last := some 33333333 } 33333333) 3).last = some 33333333) ∧
    ((layoutRun (s { cur := l, waiting := [(aLayout 5, 5), (aLayout 99999999, 99999999)] } 33333333) 3).waiting =
        (aLayout 5, 5) :: [(aLayout 99999999, 99999999)] ∧ aLayout 5 ≠ [] ∧
      boundaryAt (layRate (aLayout 99999999)) (shortNow (s {} 33333333)) < 99999999 ∧
      5 ≤ boundaryAt (layRate (aLayout 5)) (shortNow (s {} 33333333))) ∧
    (boot 7).cox.st = .unset ∧
    (Addressed set uCOMPOSE 0 ∧ fld set.params 0 1 = 3 ∧ 24 ≤ set.params.length ∧ set.params.length = 24 + 24 * layTiles set.params ∧
      layoutOk set.params = true ∧ activeVideo (boot 7) = [] ∧
      sumL (((boot 7).video.layouts.filter (·.1 != 3)).map fun e => layoutMost e.2) + layoutUnits set.params ≤ 128) ∧
    (let big := putFld (putFld (putFld (putFld (zeros 24) 0 1 4) 1 1 7) 3 1 1) 4 4 (4096 + 2304 * 65536)
     let two := layoutPut 5 { cur := big } (layoutPut 4 { cur := big } (boot 7))
     128 < sumL ((two.video.layouts.filter (·.1 != 3)).map fun e => layoutMost e.2) + layoutUnits big) ∧
    (∀ ip ∈ [true, false], let q := req uFWD (fwdBody ip)
      Addressed q uFWD 0 ∧ q.params.length = 128 ∧ fwdLegOk q.params = true ∧ bit (fld q.params 7 1) 2 = false) ∧
    (let q := putFld (fwdBody true) 7 1 4
     q.length = 128 ∧ fwdLegOk q = true ∧ bit (fld q 7 1) 2 = true) ∧
    ((boot 7).video.fwd.legs.length < 4096 ∧ fwdLeg (boot 7) 5 = none ∧ fwdLeg (fwdPut 5 { body := fwdBody true } (boot 7)) 5 ≠ none) ∧
    (let p := leBytes 2 5 ++ zeros 6
     p.length = 8 ∧ fld p 0 2 < 4096 ∧ rsv p 2 6 = true) := by
  unfold Addressed; decide +kernel

/-- A stream packet of stream 7 with four bytes, and a forecast record for handset 33 on carrier 9. -/
def streamPacket (layer flags : Nat) : Bytes :=
  leBytes 8 6000000000 ++ leBytes 2 7 ++ leBytes 2 3 ++ [BitVec.ofNat 8 layer, BitVec.ofNat 8 flags] ++ leBytes 2 4 ++
  leBytes 2 0 ++ zeros 14 ++ [1, 2, 3, 4]
def forecastRec (slot : Nat) : Bytes :=
  leBytes 8 slot ++ leBytes 2 33 ++ [9, 0] ++ leBytes 4 1000 ++ leBytes 4 500 ++ zeros 12

/-- A leg as the statements on packets name it. -/
def sendingLeg (ip : Bool) : FwdLeg :=
  { body := (fwdBody ip).take 80, started := true, cur := (1, 1), tgt := (1, 1), frame := some 3 }

theorem witness_LayeredForwarding :
    let ip := sendingLeg true
    let base := regPutF uETH 4 0x004 31 31 1 (atTime 5000000000 (boot 7))
    let one := fun (x : FwdLeg) (s : State) => { s with video := { s.video with fwd := { s.video.fwd with legs := [(5, x)] } } }
    (∀ b ∈ [streamPacket 10 0, streamPacket 5 0, streamPacket 5 1, [1]],
      let z := takePacket (unitInit uFWD 0) (streamQueue base 7) (withPacket (streamQueue base 7) 77 b (one ip base))
      let v := z.2
      z.1 = some b ∧ v.video.fwd.legs = [(5, ip)] ∧ flStream ip = 7 ∧ shortNow v ≤ 6000000000 ∧
        regF v uETH (fld ip.body 27 1) 0x004 31 31 = 1 ∧ flIp ip = true ∧ ip.recs = [] ∧ ip.held = []) ∧
    ((streamPacket 5 1).length = 32 + 4 ∧ fld (streamPacket 5 1) 14 2 = 4 ∧ fld (streamPacket 5 1) 12 1 % 4 ≤ ip.cur.1 ∧
      fld (streamPacket 5 1) 12 1 / 4 ≤ ip.cur.2 ∧ ip.cur.1 < fld (streamPacket 10 0) 12 1 % 4 ∧
      bit (fld (streamPacket 5 1) 13 1) 0 = true ∧ bit (fld (streamPacket 5 0) 13 1) 0 = false ∧ ip.frame = some (fld (streamPacket 5 1) 10 2)) := by
  decide +kernel

theorem witness_LayeredForwarding_records :
    let hs := sendingLeg false
    let one := fun (x : FwdLeg) (s : State) => { s with video := { s.video with fwd := { s.video.fwd with legs := [(5, x)] } } }
    ((boot 7).video.fwd.measuredAt + 10000000 ≤ ({ boot 7 with now := 10000000 } : State).now ∧
      (boot 7).now < (boot 7).video.fwd.measuredAt + 10000000) ∧
    (let s := withCarrier 2 .running 1000
     let z := takePacket (unitInit uFWD 0) (fld (nrBody 2) 54 2) (withPacket (fld (nrBody 2) 54 2) 77 (forecastRec 500) (one hs s))
     (carrierIn s 9 .running) = some (carrierObj 1 9, nrBody 2) ∧ carFlag (nrBody 2) 1 = true ∧
       z.1 = some (forecastRec 500) ∧ z.2.video.fwd.legs = [(5, hs)]) ∧
    (flIp hs = false ∧ fld hs.body 24 2 = 0xFFF ∧ deviceId (boot 7) = 0xFFF ∧ fld hs.body 26 1 = fld (forecastRec 500) 10 1 ∧
      fld hs.body 22 2 = fld (forecastRec 500) 8 2 ∧ (forecastRec 500).length = 32 ∧ hs.recs = [] ∧ hs.stale = false) := by
  decide +kernel

theorem witness_LayeredForwarding_switches :
    let ip := sendingLeg true
    let hs := sendingLeg false
    let base := regPutF uETH 4 0x004 31 31 1 (atTime 5000000000 (boot 7))
    let one := fun (x : FwdLeg) (s : State) => { s with video := { s.video with fwd := { s.video.fwd with legs := [(5, x)] } } }
    (hs.lastRec + fld hs.body 12 2 * 1000000 = 100000000) ∧
    (let x := { ip with cand := some ((2, 2), 0) }
     fwdLeg (one x (boot 7)) 5 = some x ∧ 0 + fld x.body 8 2 * 1000000 = 100000000) ∧
    (let x := { ip with tgt := (2, 1) }
     x.cur.1 < x.tgt.1 ∧ x.asked = false ∧ x.adoptAt + fld x.body 10 2 * 1000000 = 100000000) ∧
    (let d := zeros 8 ++ leBytes 2 5 ++ [30, 1] ++ leBytes 4 400
     let s := regPutF uFWD 0 0x004 31 31 1 (regPutF uFWD 0 0x004 15 0 61 (withPacket 61 77 d (one ip base)))
     let z := takePacket (unitInit uFWD 0) (regF s uFWD 0 0x004 15 0) s
     regF s uFWD 0 0x004 31 31 = 1 ∧ z.1 = some d ∧ fld d 8 2 = 5 ∧ fwdLeg z.2 5 = some ip) ∧
    (let x := { ip with held := [(3, 0, [])] }
     (one x (boot 7)).video.fwd.legs = [(5, x)] ∧ x.held.any (fun e => e.2.1 + 200000000 ≤ 200000000) = true ∧
       ∀ e ∈ x.held, 199999999 < e.2.1 + 200000000) ∧
    (let x := { ip with waiting := [(0, [])] }
     (one x (boot 7)).video.fwd.legs = [(5, x)] ∧ (∃ e ∈ x.waiting, e.1 + 200000000 ≤ 200000000) ∧ x.held = [] ∧
       ∀ e ∈ x.waiting, ¬ e.1 + 200000000 ≤ 199999999) ∧
    (let x := { ip with cur := (2, 1), tgt := (1, 1) }
     let s := { boot 7 with video := { (boot 7).video with fwd := { (boot 7).video.fwd with streams := [(7, { simulcast := true })] } } }
     x.tgt.1 < x.cur.1 ∧ (fwdStream s (flStream x)).simulcast = true ∧ (fwdStream (boot 7) (flStream x)).simulcast = false) := by
  decide +kernel

/-- A packet of a new frame below the key layer a leg waits for, and the encoder a key picture is asked of. -/
theorem witness_LayeredForwarding_waiting :
    let x := { sendingLeg true with frame := some 2, tgt := (2, 1) }
    let b := streamPacket 0 0
    (b.length = 32 + fld b 14 2 ∧ fld b 8 2 = 7 ∧ fld b 12 1 % 4 < 3 ∧ fld b 12 1 / 4 < 3 ∧ fld b 13 1 < 8 ∧ fld b 16 2 = 0) ∧
    (x.recs = [] ∧ x.waiting = [] ∧ x.frame ≠ some (fld b 10 2) ∧ fld b 12 1 % 4 < keyLayer false x ∧ bit (fld b 13 1) 0 = false) ∧
    ((sendingLeg true).started = true ∧ (sendingLeg true).paused = false ∧ (sendingLeg true).suspended = false ∧
      (sendingLeg true).broken = false ∧ (sendingLeg true).dropping = false ∧ (sendingLeg true).waiting = []) ∧
    NoLaunch (atTime 5000000000 (boot 7)) ∧
    (fwdStream (boot 7) 7).lastReq = none := by
  unfold NoLaunch; decide +kernel

/-- Time settings with one PTP port, on ETH 4, enabled. -/
def timeSettings : Bytes :=
  putFld (putFld (putFld (putFld (putFld (zeros 160) 0 1 1) 5 1 1) 16 4 60) 129 1 4) 32 1 1

/-- A state whose time settings are those. -/
def withTime (x : PtpPort) (s : State) : State := ptpPut 0 x (objPut 0x05010000 { body := timeSettings } s)

theorem witness_ReferencesAndStrobes :
    let parent : Announce := { sender := 0x1234, grandmaster := 9 }
    let slave : PtpPort := { st := 9, sync := some (0, 5), t3 := some 7, valid := true, parent := some parent }
    let s := withTime slave (atTime 5000000000 (boot 7))
    let u := withTime slave (boot 7)
    (portRuns s 0 = true ∧ (ptpPort s 0).st = 9 ∧ refLost s 0 = false ∧ s.cox.st ≠ .unset ∧ u.cox.st = .unset ∧ u.cox.osc = true ∧
      u.cox.epochSet = false ∧ portRuns u 0 = true) ∧
    (ptpDomain s = 0 ∧ (ptpPort s 0).parent = some parent ∧ (ptpPort s 0).sync = some (0, 5) ∧ (ptpPort s 0).t3 = some 7 ∧
      (1 : Nat) ≠ ptpDomain s) ∧
    (slave.syncAt + 3 * logNs (fld (portEntry s 0) 4 1) = 3000000000 ∧ fld (portEntry s 0) 0 1 = 0 ∧
      portLinkUp (regPutF uETH 4 0x004 31 31 1 s) 0 = true ∧ portFlag s 0 0 = false) ∧
    portRuns (boot 7) 0 = false ∧
    (refLost u 16 = false ∧ u.cox.nextPps = none ∧
      refLost { u with power := { u.power with injections := [{ kind := 4, target := 16, sub := 0, until_ := none }] } } 16 = true) ∧
    ((ppsIn (ppsPut 0 { fresh := true } s) 0).fresh = true ∧ (ppsIn s 0).lastAt + 1500000000 = 1500000000) ∧
    (let w := { s with now := 10 * second, cox := { s.cox with ref := 17, epochSet := true } }
     w.cox.st ≠ .unset ∧ w.cox.ref < 31 ∧ refValid w 0 = true ∧ refRank w 0 < refRank w w.cox.ref ∧
       (ptpPort w 0).since + 10 * second ≤ w.now ∧ refValid w 16 = false) ∧
    (strobeDue (.frame 9) (withCarrier 0 .running 10000000) = true ∧ strobeDue (.frame 9) (withCarrier 0 .running 10000001) = false) ∧
    (let w := { s with cox := { s.cox with st := .holdover, holdSince := 0 }, now := 60 * second }
     w.cox.st = .holdover ∧ holdoverS w ≠ 0 ∧ w.cox.holdSince + holdoverS w * second ≤ w.now) ∧
    (strobeDue .second s = true ∧ strobeDue .second (atTime 5000000001 (boot 7)) = false ∧ strobeDue .sample s = true) := by
  decide +kernel

/-- A master port, one-step and two-step, and an Announce from another clock, whatever the device's clockIdentity. -/
theorem witness_ReferencesAndStrobes_master :
    let at_ := atTime 5000000000 (boot 7)
    let two := regPutF uETH 4 0x004 31 31 1 (withTime { st := 6 } at_)
    let one := ptpPut 0 { st := 6 } (objPut 0x05010000 { body := putFld timeSettings 130 1 4 } at_)
    (portRuns one 0 = true ∧ (ptpPort one 0).st = 6 ∧ portFlag one 0 2 = true) ∧
    (portRuns two 0 = true ∧ (ptpPort two 0).st = 6 ∧ portFlag two 0 2 = false ∧ fld (portEntry two 0) 0 1 = 0 ∧
      portLinkUp two 0 = true ∧ NoLaunch two ∧ fld (timeBody two) 1 1 ≠ 2 ∧ refLost two 0 = false ∧ portFlag two 0 0 = false ∧
      ptpDomain two = 0 ∧ (0 : Nat) < 255 ∧ (1 : Nat) ≠ ptpDomain two) := by
  unfold NoLaunch; decide +kernel

theorem witness_ReferencesAndStrobes_announce :
    ∃ a : Announce, a.domain.toNat = 0 ∧ a.steps.toNat < 255 ∧ a.sender.toNat / 2 ^ 16 ≠ Config.clockIdentity.toNat := by
  by_cases h : Config.clockIdentity.toNat = 0
  · exact ⟨{ sender := 0x10000, grandmaster := 9 }, rfl, by decide, by rw [h]; decide⟩
  · exact ⟨{ sender := 0, grandmaster := 9 }, rfl, by decide, fun e => h (by rw [← e]; rfl)⟩

theorem witness_TimeCommandsAndCycles :
    let l : Long := { transport := .pcie, opcode := 0x0540, sequence := 9, unit := 5, inst := 0, flags := 0, params := [] }
    let in_ := fun (st : TimeState) => { boot 7 with cox := { (boot 7).cox with st := st } }
    let set := req uCOX ([0, 0, 0, 0] ++ leBytes 4 999999999 ++ leBytes 8 5)
    let next := { boot 7 with now := 2 * second, cox := { (boot 7).cox with nextPps := some (1, 5, 0) }
                              cmd := { (boot 7).cmd with longs := [l] } }
    (Addressed set uCOX 0 ∧ set.params.length = 16 ∧ fld set.params 1 1 < 4 ∧ fld set.params 2 2 = 0 ∧ nextPpsLong (boot 7) = none ∧
      fld set.params 4 4 < second ∧ (in_ .unset).cox.st = .unset ∧ anyCarrierRunning (boot 7) = false) ∧
    (∀ st ∈ [TimeState.locking, .locked, .freerun, .holdover], (in_ st).cox.st = st) ∧ LongRoom (boot 7) set ∧
    (next.cox.nextPps = some (1, 5, 0) ∧ next.cmd.longs = [l] ∧ l.opcode = 0x0540 ∧ 0 + 2 * second ≤ next.now ∧
      refLost next (16 + 1) = false ∧ next.cox.st = .unset) ∧
    (fld (1 :: zeros 7 ++ leBytes 8 5) 0 1 = 1 ∧ fld (1 :: zeros 7 ++ leBytes 8 5) 1 7 = 0) ∧
    (0 < timePorts (withTime {} (boot 7)) ∧ timePorts (withTime {} (boot 7)) ≤ 1) ∧
    (let s := atTime 9 (onCore { running with run := .wfi, irqEn := 4, timerCmp := 9 })
     awake s (some (91 / 8)) = true ∧ (core s 91).timerCmp.toNat ≤ shortNow s ∧ (core s 91).run = .wfi ∧ irqReady s (core s 91) ≠ 0) ∧
    shortNow (boot 7) < (core (boot 7) 91).timerCmp.toNat ∧ (boot 7).pending = [] ∧ State.reset.sec.held ≠ .no ∧
    (boot 7).sec.held = .no := by
  unfold Addressed LongRoom; decide +kernel

/-- A PPS edge later than the TIME_SET that waits for it, and a mesh and cores with nothing on its way. -/
theorem witness_TimeCommandsAndCycles_edge :
    let l : Long := { transport := .pcie, opcode := 0x0540, sequence := 9, unit := 5, inst := 0, flags := 0, params := [] }
    let next := { boot 7 with now := 1000, cox := { (boot 7).cox with nextPps := some (1, 5, 0) }
                              cmd := { (boot 7).cmd with longs := [l] } }
    (next.cox.nextPps = some (1, 5, 0) ∧ next.cmd.longs = [l] ∧ l.opcode = 0x0540 ∧ 0 < next.now ∧ next.now < 0 + 2 * second ∧
      refLost next (16 + 1) = false ∧ next.cox.st = .unset) ∧
    (boot 7).weft.hops = [] ∧ (boot 7).weft.waiting = [] ∧ ∀ c ∈ List.range 96, (core (boot 7) c).writes = [] := by
  decide +kernel

theorem witness_SpoolOperations :
    let i := unitInit uPCIE 0
    let p : Packet := { cells := [77, 78], len := 300 }
    let s := fun (st : PktState) => ctxPut i { queue := 9, len := 300, cell := 77 } (pktPut 77 { p with st := st } (boot 7))
    let full := queuePut 9 { queue (s .held) 9 with maxCells := 1 } (s .held)
    (alloc .unit 300 (s .held)).1.isSome = true ∧ alloc .unit 0 (boot 7) = (none, boot 7) ∧
    (holdable (s .held) 77 = true ∧ pkt (s .held) 77 = some { p with st := .held } ∧ ptrBad (s .held) 9 = false ∧
      isFull (s .held) 9 2 = false ∧ isFull full 9 2 = true ∧ holdable (s .held) 76 = false) ∧
    (((proxies (s .queued)).all (fun e => e.localQ != 9) && !ptrBad (s .queued) 9) = true ∧
      (queue (queuePut 9 { queue (s .queued) 9 with items := [77] } (s .queued)) 9).items = 77 :: [] ∧ (queue (s .held) 9).items = []) ∧
    ((s .held).spool.packets = [(77, { p with st := .held })] ∧ p.cells = 77 :: 78 :: [] ∧ (ctx (s .held) i).cell = 77) ∧
    (pkt (s .opened) 77 = some { p with st := .opened } ∧ ptrBad (s .opened) p.queue = false ∧
      isFull (s .opened) p.queue p.cells.length = false ∧ pkt (s .held) 77 = some { p with st := .held }) := by
  decide +kernel

theorem witness_CompatibilityAndQueueRequests :
    let on : CompatQ := { en := true, depthLog2 := 4, items := [{}] }
    let s := fun (x : CompatQ) => compatPut 1023 x (boot 7)
    let l : Long := { transport := .pcie, opcode := 0x0B50, sequence := 9, unit := 1, inst := 0, flags := 0, params := [] }
    let r := req uSPOOL (leBytes 2 60 ++ zeros 6)
    ((compat (s on) 1023).en = true ∧ (compat (s on) 1023).mismatch = false ∧ (compat (s on) 1023).items.length < 2 ^ 4 ∧
      (compat (s on) 1023).items = {} :: []) ∧
    (compat (boot 7) 1023).en = false ∧
    (let w := regPutF uMEM 0 0x080 8 0 1 (s { depthLog2 := 16 })
     poolHeld w + ringBytes w + 2 ^ 16 * 16 ≤ poolBytes w ∧ poolBytes (boot 7) < poolHeld (boot 7) + ringBytes (boot 7) + 2 ^ 16 * 16) ∧
    (Addressed r uSPOOL 0 ∧ r.params.length = 8 ∧ fld r.params 2 6 = 0 ∧ LongRoom (boot 7) r ∧ (boot 7).cmd.longs = [] ∧
      (let v := { boot 7 with cmd := { (boot 7).cmd with longs := [l] } }
       LongRoom v r ∧ ∃ x ∈ v.cmd.longs, x.opcode = 0x0B50) ∧ (queue (boot 7) 60).enqueued = 0) := by
  unfold Addressed LongRoom; decide +kernel

/-- Channel 7 at a program word in SDRAM, given as 32 bytes. -/
def withProgram (word : Bytes) (loops : List DmaLoop) : State :=
  let s := withMemory (boot 7)
  { s with mem := (List.range 32).map fun k => (0x2000 + k, word.getD k 0)
           dma := [(7, { run := .run, pc := 0x2000, loops := loops })] }

theorem witness_DmaPrograms :
    (∀ w ∈ [[2, 0, 0, 0] ++ leBytes 4 5 ++ zeros 24, [3] ++ zeros 31, [4] ++ zeros 7 ++ leBytes 8 5 ++ zeros 16, [5, 0] ++ leBytes 2 1 ++ zeros 28,
        [5, 1] ++ leBytes 2 15 ++ zeros 28, [6] ++ zeros 31, [7] ++ zeros 31, zeros 32, [8] ++ zeros 31],
      let s := withProgram w [{ start := 0x1000, count := 2, i := 1 }]
      (readWord (dmaInit 7) (dmaCh s 7).pc s).1 = .ok ∧ (readWord (dmaInit 7) (dmaCh s 7).pc s).2.1 = w ∧ w.length = 32 ∧
        (readWord (dmaInit 7) (dmaCh s 7).pc s).2.2.dma = s.dma ∧ (dmaCh s 7).run = .run ∧
        (dmaCh s 7).loops = [{ start := 0x1000, count := 2, i := 1 }] ∧ (dmaCh s 7).work = none ∧ (dmaCh s 7).signal = none ∧
        (dmaCh s 7).frees = [] ∧ (dmaCh s 7).moves = []) ∧
    (let s := withProgram ([6] ++ zeros 31) []
     (dmaCh (dmaPut 7 { dmaCh s 7 with moves := [{ at_ := 0, left := 64 }] } s) 7).moves ≠ []) ∧
    (let move := [1, 0] ++ [32, 0, 0] ++ [0] ++ zeros 2 ++ leBytes 6 cellBase ++ zeros 2 ++ leBytes 6 (cellBase + 0x3FFFFE0) ++ zeros 10
     let s := withProgram move []
     (readWord (dmaInit 7) (dmaCh s 7).pc s).1 = .ok ∧ (readWord (dmaInit 7) (dmaCh s 7).pc s).2.1 = move ∧ (dmaCh s 7).loops = [] ∧
       fld move 0 1 = 1 ∧ fld move 1 1 = 0 ∧ fld move 2 3 = 32 ∧ fld move 5 1 = 0 ∧ fld move 22 2 = 0 ∧ fld move 24 6 = 0 ∧
       fld move 30 2 = 0 ∧ fld move 8 6 % 32 = 0 ∧ fld move 16 6 % 32 = 0 ∧ regionOf (fld move 8 6) = .cell ∧
       regionOf (fld move 16 6) = .cell ∧ errPat s (fld move 8 6) = {}) := by
  decide +kernel

/-- Channels 0 and 5 have MOVEs under way; channel 5's is of class 0 where it runs a class-0 task. -/
theorem witness_DmaEngines :
    let m : DmaMove := { at_ := 3, left := 256 }
    let s := { boot 7 with dma := [(0, { moves := [m] }), (5, { moves := [{ m with left := 64 }], served := 9 })] }
    let zero := { boot 7 with dma := [(0, { moves := [m] }), (5, { moves := [m], served := 9, cls := 0 })] }
    let last := dmaPut 5 { dmaCh s 5 with ending := some true } s
    dmaBusy s 0 = [0, 5] ∧ dmaTurn s 0 = some 0 ∧ dmaTurn zero 0 = some 5 ∧ dmaTurn (boot 7) 0 = none ∧
    ((dmaCh s 0).moves = m :: [] ∧ (dmaCh s 0).ending = none ∧ 64 < m.left ∧ (dmaCh s 5).moves = { m with left := 64 } :: []) ∧
    ((dmaCh last 5).moves = [{ m with left := 64 }] ∧ (dmaCh last 5).ending = some true) ∧
    dmaReads s 0 = [(0, 1), (5, 1)] ∧ dmaShared s 0 = 0 := by decide +kernel

theorem witness_DmaChannelCommands :
    let s := fun (x : DmaCh) => { boot 7 with dma := [(7, x)] }
    let w : Work := { task := 0, deadline := 5 }
    (let x := dmaCh (s { armed := true, shProg := 0x20 }) 7
     x.run = .idle ∧ x.armed = true ∧ x.shProg % 32 = 0) ∧
    ((dmaCh (boot 7) 7).run = .idle ∧ (dmaCh (boot 7) 7).armed = false ∧ (dmaCh (boot 7) 7).staged = none) ∧
    (let x := dmaCh (s { staged := some w }) 7
     x.run = .idle ∧ x.armed = false ∧ x.staged = some w ∧ x.tasksEn = true ∧ (descOf (s { staged := some w }) w).entry % 32 = 0) ∧
    (let x := dmaCh (s { run := .wait, wait := some (.time 5), deadline := some 9 }) 7
     x.run ≠ .idle ∧ x.run = .wait ∧ x.deadline = some 9 ∧ x.wait = some (.time 5) ∧ shortNow (atTime 5 (boot 7)) = 5) := by
  decide +kernel

/-- A PCI Express link that is up, its BAR 2 window at zero. -/
def hostLink (s : State) : State := regPutF uPCIE 0 0x000 31 31 1 s

theorem witness_RegistersAndHostAccesses :
    let s := hostLink (withMemory (boot 7))
    let addr := fun (n : Nat) => (regGet s uPCIE 0 0x014).toNat * 2 ^ 32 + (regGet s uPCIE 0 0x010).toNat + n
    ((uBUPEX = 0x71 → 5 < unitInstances uBUPEX) ∧ awake (boot 7) (unitDomain (boot 7) uBUPEX 5) = true ∧ (regRow uBUPEX 5 0x000).isSome = true ∧ (boot 7).part = .yd4460 ∧
      unitPresent .yd4420 uCSS 2 = false ∧ 2 < unitInstances uCSS ∧ 0x001 % 4 ≠ 0 ∧ coreOf (unitInit uBUPEX 0) = none ∧
      (unitInit uBUPEX 0).unit.toNat ≠ uPCIE) ∧
    (pcieUp (boot 7) = false ∧ pcieUp s = true ∧ regionOf (addr 0x2000) = .sdram ∧ addr 0x2000 % 32 = 0 ∧ addr 0x2004 % 32 ≠ 0 ∧
      (writeBytes hostInit (addr 0x2000) (List.replicate 32 7) s).1 = .ok ∧ regionOf (addr 0x7000000000) = .nothing) ∧
    (let w := { s with mem := (List.range 32).map fun k => (0x2000 + k, 9) }
     (readBytes hostInit (addr 0x2000) 32 w).1 = .ok ∧ (readBytes hostInit (addr 0x2000) 32 w).2.2.2 = w) ∧
    (regF s uMEM 0 0x000 31 31 = 1 ∧ regF (boot 7) uMEM 0 0x000 31 31 = 0 ∧ sdramAt (boot 7) 0x2000 = none ∧
      sdramAt s 0x2000 = some (0, 0x2000, 0) ∧ (let w := { s with mem := (List.range 128).map fun k => (0x2000 + k, 9) }
       ∀ j ∈ [0, 1, 2, 3], seenPat w (0x2000 + 32 * j) 0 0 = {}) ∧
      regF s uMEM 0 0x070 31 31 = 0 ∧ regF (regPutF uMEM 0 0x070 31 31 1 s) uMEM 0 0x070 31 31 = 1) := by
  decide +kernel

theorem witness_Weft :
    let s := boot 7
    let full := spentPut 45 40 16 s
    let d : Drain := { router := 45, start := 50000, stop := 90000 }
    let put := fun (d : Drain) (st : RouterSt) => routerPut 45 { st := st } { boot 7 with weft := { (boot 7).weft with drains := [d] } }
    let p := fun (n force : Nat) => leBytes 1 n ++ leBytes 1 force ++ zeros 6 ++ leBytes 8 50000 ++ leBytes 8 90000
    let r := fun (n force : Nat) => { req uWEFT (p n force) with inst := 63 }
    let l : Long := { transport := .pcie, opcode := 0x0B60, sequence := 9, unit := 0, inst := 63, flags := 0, params := p 45 1 }
    (window s 45 40 = 16 ∧ spentAt s 45 40 + 5 ≤ window s 45 40 ∧ window full 45 40 < spentAt full 45 40 + 1 ∧
      (∀ n ∈ List.range 64, ∀ o ∈ List.range 5, linkFault s n o = none) ∧ nodeDomains 45 = []) ∧
    (bit 2 31 = false ∧ (2 : Nat) % 16 = minimalMask 0 5 ∧ regF s uWEFT 0 0x010 5 0 = 0 ∧
      Nat.lor 9 (minimalMask 9 0) = minimalMask 9 0 ∧ Nat.lor 2 (minimalMask 9 0) ≠ minimalMask 9 0) ∧
    ((r 45 1).params.length = 24 ∧ fld (p 45 1) 0 1 = 45 ∧ fld (p 45 1) 1 1 = 1 ∧ fld (p 45 1) 2 6 = 0 ∧ shortNow s + 10000 ≤ 50000 ∧
      s.weft.drains = [] ∧ (∃ n ∈ List.range 64, onC0Path s n = true) ∧ (put d .run).weft.drains = [d]) ∧
    (d.started = false ∧ d.start ≤ shortNow (atTime 60000 (put d .run)) ∧ shortNow (put d .run) < d.start ∧
      (router (put { d with started := true } .draining) 45).st = .draining ∧ (router (put d .drained) 45).st = .drained ∧
      (router s 45).st ≠ .drained ∧ d.stop ≤ shortNow (atTime 90000 s) ∧ l.opcode = 0x0B60 ∧ fld l.params 0 1 = d.router ∧
      fld l.params 8 8 = d.start) := by
  decide +kernel

/-- A packet from gateway 40 to gateway 45. -/
def weftHead (vc : Fin 4) (kind : WeftKind) : WeftHead := { src := 40, dst := 45, vc := vc, kind := kind }

/-- Its head in a router, and a mesh that holds those heads. -/
def weftHop (n : Nat) (vc : Fin 4) : Hop := { id := 1, head := weftHead vc .readReq, node := n, inp := 4, seen := 5, here := 1 }
def inMesh (l : List Hop) (s : State) : State := { s with weft := { s.weft with hops := l } }

theorem witness_Weft_heads :
    let s := boot 7
    let h := weftHead 1 .readReq
    let hid := fun (n : Nat) => routerPut n { hidden := true } s
    let room := routerPut 40 { reserved := [(3, 1024)] } s
    let queued := { s with weft := { s.weft with waiting := [h] } }
    let flow : C0Entry := { src := 40, dsts := [45], rate := 1000, burst := 256 }
    (maySend s h = true ∧ s.weft.waiting = [] ∧ isResponse h = false ∧ h.bodyBad = false ∧ meshClear s = true ∧
      nodeDomains 45 = [] ∧ answerFlits h ≠ 0) ∧
    (let way := [(40, 1), (41, 1), (42, 1), (43, 1), (44, 1), (45, 4)]
     let bad := { weftHead 1 .writeReq with bodyBad := true }
     let hurt := { s with power := { s.power with injections := [{ kind := 6, target := 43, sub := 1, until_ := none }] } }
     clearPath s h 15 40 4 = some way ∧ clearPath s (weftHead 1 .readRsp) 15 40 4 = some way ∧
       (∀ e ∈ way, linkFault s e.1 e.2 = none) ∧ maySend s bad = true ∧ bad.kind = .writeReq ∧ clearPath s bad 15 40 4 = some way ∧
       (linkFault hurt 43 1).isSome = true ∧ maySend hurt h = true ∧ meshClear hurt = true ∧ clearPath hurt h 15 40 4 = some way) ∧
    maySend { s with weft := { s.weft with admitted := [(9, [flow])] } } (weftHead 0 .msg) = true ∧
    (maySend s (weftHead 1 .readRsp) = true ∧ isResponse (weftHead 1 .readRsp) = true) ∧
    (meshClear (hid 41) = false ∧ maySend (hid 41) h = true) ∧
    (maySend (hid 40) h = false ∧ maySend room h = false ∧ maySend s (weftHead 0 .msg) = false ∧
      maySend (spentPut 45 40 16 s) h = false ∧ (∃ k ∈ queued.weft.waiting, k.src = 40 ∧ k.vc = h.vc)) := by
  decide +kernel

theorem witness_Weft_arbitration :
    let s := boot 7
    let hid := routerPut 41 { hidden := true } s
    let out := fun (vc : Fin 4) => { weftHop 40 vc with out := some 1 }
    let both := inMesh [out 1, { out 1 with id := 2, inp := 3 }] s
    ((weftHop 45 1).node = (weftHop 45 1).head.dst.val ∧ (weftHop 40 0).node ≠ (weftHop 40 0).head.dst.val ∧
      (weftHop 40 0).head.vc = 0 ∧ (weftHop 40 1).head.vc ≠ 0) ∧
    (directions hid 40 4 45 = [] ∧ directions s 40 4 45 = [1] ∧ chooseOut s (weftHop 40 1) = some 1) ∧
    (offered both 40 1 1 = some { out 1 with id := 2, inp := 3 } ∧ (arbitrate both 40 1).isSome = true) ∧
    ((arbitrate (inMesh [out 1, out 0] s) 40 1).map (·.1) = some (out 0)) := by
  decide +kernel

theorem witness_Weft_drains :
    let d : Drain := { router := 45, start := 50000, stop := 90000, started := true }
    let s := routerPut 45 { st := .draining } { boot 7 with weft := { (boot 7).weft with drains := [d] } }
    s.weft.drains = [d] ∧ d.started = true ∧ (router s 45).st = .draining ∧ (∀ h ∈ s.weft.hops, h.node ≠ 45) ∧
      ∃ h ∈ (inMesh [weftHop 45 1] s).weft.hops, h.node = 45 := by
  decide +kernel

theorem witness_Weft_requests :
    let r := { req uWEFT (leBytes 1 45 ++ leBytes 1 3 ++ zeros 6) with inst := 63 }
    Addressed r uWEFT 63 ∧ LongRoom (boot 7) r ∧ r.params.length = 8 ∧ fld r.params 0 1 < 64 ∧ fld r.params 1 1 < 5 ∧
      fld r.params 2 6 = 0 := by
  unfold Addressed LongRoom; decide +kernel

theorem witness_LanesAndPorts :
    let v := 0x90030600
    let down := after (.ethPortEnable 4 0x90030600) (boot 7)
    let s := regPutF uETH 4 0x004 31 31 1 down
    let parity := regPutF uETH 4 0x000 26 26 1 s
    let link := regPutF uBUPEX 2 0x000 31 31 1
      (objPut (linkObj 2) { body := [0, 1, 6, 1] ++ leBytes 2 10 ++ zeros 10, st := some .running } (laneTake 2 2 4 false 9 (boot 7)))
    (unitPresent (boot 7).part uETH 4 = true ∧ bit (regGet (boot 7) uETH 4 0x000).toNat 31 = false ∧ bit v 31 = true ∧
      portAllowed (boot 7) 4 v = true ∧ (∀ l ∈ portLanes 4 v, laneOwner (boot 7) l = 0) ∧ portAllowed (boot 7) 4 0x900C0600 = false ∧
      ∃ l ∈ portLanes 4 v, laneOwner (laneTake 1 9 4 false 4 (boot 7)) l ≠ 0) ∧
    (bit (regGet down uETH 4 0x000).toNat 31 = true ∧ bit 0x10030600 31 = false ∧ regF down uETH 4 0x004 31 31 = 0 ∧
      lanesOff down = false ∧ (∀ l ∈ lanesOwned down 1 4, laneInjected down l = false)) ∧
    (regF s uETH 4 0x000 13 0 = 0x600 ∧ 64 ≤ (1500 : Nat) ∧ (1500 : Nat) ≤ 0x600 ∧ (63 : Nat) < 64 ∧ 0x600 < (0x601 : Nat) ∧ NoLaunch s ∧
      (let sys := regPutF uETH 48 0x004 31 31 1 (boot 7)
       regF sys uETH 48 0x004 31 31 = 1 ∧ 64 ≤ regF sys uETH 48 0x000 13 0)) ∧
    (regF s uETH 4 0x004 31 31 = 1 ∧ 64 ≤ regF s uETH 4 0x000 13 0 ∧ laneOwner s 4 = 1 ∧ spGet 0 s.serial.owner 4 = 4 ∧
      regF s uLANE 4 0x000 27 27 = 0 ∧ regF s uETH 4 0x000 26 26 = 0 ∧ regF parity uETH 4 0x000 26 26 = 1 ∧
      regF parity uETH 4 0x004 31 31 = 1 ∧ (∀ l ∈ lanesOwned parity 1 4, regF parity uLANE l 0x000 27 27 = 0)) ∧
    (laneOwner link 9 = 2 ∧ spGet 0 link.serial.owner 9 = 2 ∧ linkUp link 2 = true ∧ regF link uLANE 9 0x000 27 27 = 0 ∧
      linkFlag link 2 0 = true ∧ (∀ l ∈ lanesOwned link 2 2, regF link uLANE l 0x000 27 27 = 0) ∧
      let other := regPutF uLANE 10 0x000 27 27 1 (laneTake 2 2 4 false 10 link)
      ∃ l ∈ lanesOwned other 2 2, regF other uLANE l 0x000 27 27 = 1) ∧
    (laneOwner (boot 7) 4 = 0 ∧ prbsOn (boot 7) 4 = false ∧
      prbsOn (regPutF uLANE 4 0x004 30 28 1 (regPutF uLANE 4 0x004 26 26 1 (boot 7))) 4 = true) := by
  unfold NoLaunch; decide +kernel

/-- Settings of a system of devices 3 and 4, device 3 this one; a proxy for queue 100 on device 4. -/
def systemBody : Bytes :=
  leBytes 2 3 ++ leBytes 2 100 ++ leBytes 2 2 ++ [1, 0] ++ zeros 8 ++ leBytes 2 3 ++ [1, 0] ++ leBytes 2 4 ++ [1, 0] ++
    leBytes 2 100 ++ leBytes 2 4 ++ leBytes 2 200 ++ [1, 0]

/-- Bupex link 2, running on lane 9, with a partner 4 that said HELLO at time zero. -/
def systemOf (flags : BitVec 8) (x : LinkRun) (s : State) : State :=
  linkPut 2 x (objPut 0x0A020000 { body := systemBody }
    (objPut (linkObj 2) { body := [9, 1, 6, flags] ++ leBytes 2 10 ++ zeros 10, st := some .running } s))

/-- That link up. -/
def linkOn (x : LinkRun) (s : State) : State :=
  regPutF uBUPEX 2 0x000 31 31 1 (regPutF uBUPEX 2 0x000 27 16 4 (systemOf 12 x s))

/-- The digest of a configuration is an opaque function (log entry 2): which peer digest equals it no concrete witness shows. -/
theorem witness_BupexLinks :
    let heard : LinkRun := { hello := some (4, true, 0) }
    let down := systemOf 12 heard (boot 7)
    let up := linkOn heard (boot 7)
    let late := { up with now := 3000000 }
    let idle := regPutF uBUPEX 2 0x000 29 29 1 late
    let start := objPut (linkObj 2) { body := linkBody up 2, st := some .starting } (boot 7)
    ((∃ o, objFind start (linkObj 2) = some o ∧ o.st = some .starting) ∧ (∃ o, objFind up (linkObj 2) = some o ∧ o.st ≠ some .starting)) ∧
    (isRunning up (linkObj 2) = true ∧ linkDeaf up 2 = false ∧ deviceId up = 3 ∧
      isRunning (boot 7) (linkObj 2) = false) ∧
    ((linkRun down 2).hello = some (4, true, 0) ∧ linkUp down 2 = false ∧ down.now < 30000 ∧ linkUp up 2 = true ∧ 30000 ≤ late.now ∧
      linkIdle idle 2 = true ∧ 3000000 ≤ idle.now ∧ linkIdle up 2 = false) ∧
    (bit (fld (linkBody up 2) 3 1) 2 = true ∧ (linkRun up 2).waiting = [] ∧
      (linkRun late 2).lastTx + fld (linkBody late 2) 4 2 * 1000 ≤ late.now ∧
      up.now < (linkRun up 2).lastTx + fld (linkBody up 2) 4 2 * 1000 ∧ (∀ n ∈ lanesOwned idle 2 2, awake idle (some (33 + n / 12)) = true) ∧
      up.sec.trained = none) ∧
    (spFind up.serial.md.filters 4 = none ∧ (0 : Nat) = ((linkRun (linkOn { heard with lack := 65535 } (boot 7)) 2).lack + 1) % 65536 ∧
      (let d : DupFilter := { high := 9, seen := [7] }
       (9 : Nat) = d.high ∧ (7 + 65536 - d.high) % 65536 ≥ 61440 ∧ 7 ∈ d.seen ∧
         32768 ≤ (40000 + 65536 - d.high) % 65536 ∧ (40000 + 65536 - d.high) % 65536 < 61440) ∧ (5 : Nat) ≠ deviceId up) := by
  decide +kernel

/-- Frames for this device and for another, in and out of order, and an elastic buffer full and overrun. -/
theorem witness_BupexLinks_frames :
    let heard : LinkRun := { hello := some (4, true, 0) }
    let up := linkOn heard (boot 7)
    let rest := fun (f : LinkRun → LinkRun) => linkOn (f heard) (boot 7)
    let seen := fun (d : DupFilter) => { up with serial := { up.serial with md := { up.serial.md with filters := [(4, d)] } } }
    let sub : BupexFrame := { cls := 1, dst := 3, src := 4, lseq := 0, body := .subscribe 77 }
    lanesOff (boot 7) = false ∧ lanesOff State.reset = true ∧
    ((linkRun up 2).tx0 = [] ∧ (linkRun up 2).tx = [] ∧ (linkRun (rest fun x => { x with tx := [{ kind := "ack", data := [], left := 3 }] }) 2).tx ≠ [] ∧
      (linkRun (rest fun x => { x with tx0 := [{ kind := "data", data := [], left := 3 }] }) 2).tx0 ≠ []) ∧
    (linkUp up 2 = true ∧ linkDeaf up 2 = false ∧ up.sec.trained = none ∧ elasticLevel 8 {} ≤ 8 ∧ 8 < elasticLevel 8 { ahead := 1 } ∧
      elasticLevel 8 { spare := 1, ahead := 1 } ≤ 8) ∧
    (sub.crc = true ∧ sub.cls.val ≠ 0 ∧ sub.lseq.toNat = ((linkRun up 2).lack + 1) % 65536 ∧ sub.dst.toNat = deviceId up ∧
      (5 : Nat) ≠ ((linkRun up 2).lack + 1) % 65536 ∧ spFind up.serial.md.filters sub.src.toNat = none) ∧
    spFind (seen { high := 9, seen := [7] }).serial.md.filters sub.src.toNat = some { high := 9, seen := [7] } ∧
    (let on := { sub with cls := 0, dst := 4, src := 5, ttl := 2 }
     on.cls.val = 0 ∧ on.dst.toNat ≠ deviceId up ∧ 1 < on.ttl.toNat ∧ on.dup = false ∧ routeTo up on.dst.toNat 0 = some 2 ∧
       linkIdle up 2 = false ∧ ({ on with ttl := 1 } : BupexFrame).ttl.toNat ≤ 1) := by
  decide +kernel

/-- Frames at a transmitter: begun, not begun, with the replay buffer full, and one on the wire (R555). -/
theorem witness_BupexTransmitter :
    let f : TxFrame := { kind := "ack", data := zeros 12, left := 2 }
    let g : TxFrame := { f with lseq := some 3 }
    let full : LinkRun := { unacked := [{ lseq := 2, kind := "proxy", data := zeros 65536 }] }
    (mayBegin none {} f = true ∧ mayBegin (some 1) {} f = false ∧ 1 < f.left ∧ f.begun = false ∧ 12 ≤ f.data.length) ∧
    (g.lseq.isSome = true ∧ 65536 < 8 * frameBlocks (zeros 65536) + 8 * g.left ∧ full.unacked ≠ []) ∧
    (({ blocks := 1024 } : LinkRun).blocks = 1024 ∧ ({ tx := [{ f with begun := true }] } : LinkRun).tx0 = []) ∧
    (sendBlock none { tx0 := [g], tx := [{ f with begun := true }] }).1.tx = [{ f with begun := true }] ∧
    (wireFrame (zeros 12)).length = 16 ∧ (pieces (zeros 384)).map (·.length) = [192, 192] := by decide +kernel

theorem witness_SystemOfDevices :
    let s := linkOn { hello := some (4, true, 0) } (boot 7)
    let with_ := fun (m : MultiDev) (s : State) => { s with serial := { s.serial with md := m } }
    let away := { with_ { gone := [(4, 0)] } (systemOf 12 {} (boot 7)) with now := 100000000 }
    let back := { with_ { cut := [4], allSince := some 0 } s with now := 100000000 }
    let sent := queuePut 100 { queue s 100 with items := [77] } s
    (deviceId away = 3 ∧ fld (mdBody away) 2 2 = 100 ∧ (∃ e ∈ away.serial.md.gone, e.1 ∉ away.serial.md.cut ∧ e.2 + 100 * 1000000 ≤ away.now) ∧
      2 * votesOf away (reachable away) = votesOf away ((members away).map (·.1)) ∧ (boot 7).serial.md.gone = []) ∧
    (back.serial.md.cut ≠ [] ∧ back.serial.md.allSince = some 0 ∧ 0 + 100 * 1000000 ≤ back.now ∧ (boot 7).serial.md.cut = []) ∧
    ((∃ e, (proxies sent).find? (fun e => e.localQ == 100) = some e ∧ (queue sent 100).items = 77 :: [] ∧ routeTo sent e.home e.cls = some 2 ∧
        routeTo away e.home e.cls = none) ∧ (proxies sent).find? (fun e => e.localQ == 99) = none) ∧
    (reachable s = [3, 4] ∧ reachable away = [3]) := by
  decide +kernel

theorem witness_SystemOfDevices_requests :
    let r := req uBUPEX ([9] ++ zeros 3 ++ leBytes 4 0x2000000 ++ zeros 8)
    Addressed r uBUPEX 0 ∧ LongRoom (boot 7) r ∧ r.params.length = 16 ∧ fld r.params 0 1 < laneCount (boot 7).part ∧
      rsv r.params 1 3 = true ∧ 1 ≤ fld r.params 4 4 ∧ fld r.params 4 4 ≤ 0x2000000 ∧ laneOwner (boot 7) (fld r.params 0 1) = 0 ∧
      laneOwner (laneTake 1 9 4 false 9 (boot 7)) (fld r.params 0 1) ≠ 0 ∧ dryRun r = false := by
  unfold Addressed LongRoom; decide +kernel

/-- A region's object with a configured frame of its block 0. -/
def withRegion (st : FnState) (body : Bytes) (s : State) : State :=
  let s := objPut (regionObj 5) { body := body, st := some st } s
  { s with fabric := { s.fabric with regions := [(5, 1)], frames := [(0, zeros 1024)] } }

/-- What a signed image would verify to and which line a frame drives are opaque functions (log entries 2 and 93): the
clauses about a valid image and about a driven line have no concrete witness. -/
theorem witness_Fabric :
    let mem := { withMemory (boot 7) with mem := (List.range 32).map fun k => (0x2000 + k, 9) }
    let body := [1, 0, 0, 0] ++ leBytes 4 32 ++ leBytes 8 0x2000 ++ zeros 12
    let from_ := withRegion .starting body mem
    let slot := withRegion .starting (zeros 28) (boot 7)
    let z := regionImage body from_
    (z.1 = .ok ∧ (regionVerify 5 body z.2.1 z.2.2).1 ≠ 0 ∧ (regionImage (zeros 28) slot).1 = .busError ∧
      (regionImage body (domPut 25 { st := .doze } from_)).1 = .wait) ∧
    (∀ st ∈ [FnState.starting, .stopping, .running], ∃ o, objFind (withRegion st body mem) (regionObj 5) = some o ∧ o.st = some st) ∧
    (blockRegion (boot 7) 0 = none ∧ blockRegion (withRegion .running body mem) 0 = some 5 ∧
      spFind (withRegion .running body mem).fabric.frames 0 ≠ none ∧ (withRegion .running body mem).fabric.check = 0) ∧
    ((liveFrames (boot 7) 0xFF).find? (fun e => e.1 / 16 == 0 && (Config.tapEnables e.2).getLsbD 0)) = none := by
  decide +kernel

theorem witness_Fabric_ports :
    let own := fun (x : SerialPort) (en : Nat) => (regPutF uFABRIC 0 (0x2000 + 0x20 * 11) 31 31 en
      { boot 7 with fabric := { (boot 7).fabric with ports := [(11, x)], portOwner := [(11, 0xFE)], pinOwner := [(127, 0xFE)] } })
    let full := List.replicate 64 7
    portReg (own {} 1) 11 = true ∧ portReg (boot 7) 11 = false ∧ (serialPort (own {} 1) 11).tx.length < 64 ∧
      64 ≤ (serialPort (own { tx := full } 1) 11).tx.length ∧ (serialPort (own { rx := full } 1) 11).rx = 7 :: List.replicate 63 7 ∧
      64 ≤ (serialPort (own { rx := full } 1) 11).rx.length ∧ regF (own {} 1) uFABRIC 0 (0x2000 + 0x20 * 11) 31 31 = 1 ∧
      regF (own {} 0) uFABRIC 0 (0x2000 + 0x20 * 11) 31 31 = 0 ∧ pinReg (own {} 1) 127 = true ∧ pinReg (boot 7) 127 = false := by
  decide +kernel

/-- The block with a policy of domain `d` that admits OFF and waits 5 microseconds for DOZE. -/
def withPolicy (d : Nat) (x : Domain) (s : State) : State :=
  domPut d x (objPut (policyObj d) { body := [3, 0, 0, 0] ++ leBytes 4 5 ++ zeros 8 } s)

theorem witness_PowerDomains :
    let s := fun (x : Domain) => withPolicy 15 x (boot 7)
    let busy := fun (x : Domain) => spentPut 4 0 1 (s x)
    let group := fun (x : Domain) => withPolicy 33 x (boot 7)
    (domainAbsent (boot 7).part 15 = false ∧ isIdle (s {}) 15 = true ∧ isIdle (busy {}) 15 = false ∧ deepest (s {}) 15 = 3 ∧
      fld (policy (s {}) 15) 4 4 * 1000 ≠ 0 ∧ 0 + fld (policy (s {}) 15) 4 4 * 1000 ≤ ({ s {} with now := 5000 } : State).now ∧
      (s {}).now < 0 + fld (policy (s {}) 15) 4 4 * 1000 ∧ (s {}).power.ended = []) ∧
    (∀ v ∈ [6, 7, 4, 5], bit v 2 = true ∧ v % 4 ≤ deepest (s {}) 15) ∧ deepest (boot 7) 15 < 3 ∧
    (∀ x ∈ [({ trans := some (.entry .doze 0) } : Domain), { trans := some (.entry .off 0) }, { trans := some (.entry .hold 6) },
        { trans := some (.entry .hold 6), wakeNext := true }, { st := .off }, { trans := some (.wake .off 3 0) }],
      dom (s x) 15 = x ∧ x.pend = none ∧ x.fault = false ∧ x.shed = false ∧ isIdle (s x) 15 = true) ∧
    (dom (domPut 0 { trans := some (.entry .hold 2) } (boot 7)) 0).trans = some (.entry .hold 2) ∧
    (33 + 11 / 12 = 33 ∧ 33 + 12 / 12 ≠ 33 ∧ dom (group { st := .hold }) 33 = { st := .hold } ∧
      domainAbsent (boot 7).part 33 = false) ∧
    (∀ k ∈ [0, 1, 2, 3], 0 + 4 * readyTime 15 .off k ≤ 800000 ∧ (boot 7).now < 0 + 4 * readyTime 15 .off k) := by
  decide +kernel

theorem witness_FaultInjections :
    let p := fun (kind target us : Nat) => leBytes 1 kind ++ [0] ++ leBytes 2 target ++ leBytes 2 0 ++ [0, 0] ++ leBytes 4 us
    let one : Injection := { kind := 3, target := 2, sub := 0, until_ := none }
    let s := { boot 7 with power := { (boot 7).power with injections := [one] } }
    let busy := { boot 7 with power := { (boot 7).power with injections := [one, one, one, one] } }
    let clear := fun (kind : Nat) => req uSYS (leBytes 1 kind ++ [0] ++ leBytes 2 2 ++ zeros 4)
    Addressed (req uSYS (p 3 2 10)) uSYS 0 ∧
    (∀ k ∈ [3, 5], (p k 2 10).length = 12 ∧ injectRange (fld (p k 2 10) 0 1) (fld (p k 2 10) 2 2) (fld (p k 2 10) 4 2) = true ∧
      rsv (p k 2 10) 1 1 = true ∧ rsv (p k 2 10) 6 2 = true ∧ injectAbsent s k 2 = false) ∧
    s.power.injections.length < 4 ∧ 4 ≤ busy.power.injections.length ∧ crewUsable s 2 = true ∧
    (∀ k ∈ [3, 4, 5], (clear k).params.length = 8 ∧ rsv (clear k).params 1 1 = true ∧ rsv (clear k).params 4 4 = true) ∧
    (∃ i ∈ s.power.injections, i.kind = 3 ∧ i.target = 2) ∧ (∀ i ∈ s.power.injections, i.kind = 4 → i.target ≠ 2) ∧
    { req uSYS [] with transport := .uart }.transport ≠ .pcie := by
  unfold Addressed; decide +kernel

theorem witness_RailsAndPowerFailure :
    let s := boot 7
    let third := { s with power := { s.power with rails := [(2, { uvFault := 3 }), (7, { uvFault := 3, uvWarn := 3 })] } }
    let set := fun (t : Nat) => req uPOWER ([15, BitVec.ofNat 8 t] ++ zeros 6)
    let cut := { s with power := { s.power with pfailAt := some 0 } }
    s.sec.held = .no ∧ (spGet ({} : RailCount) third.power.rails 2).uvFault = 3 ∧ 800 < fld (supply s) (26 + 8 * 2) 2 ∧
    (spGet ({} : RailCount) third.power.rails 7).uvWarn = 3 ∧ 800 < fld (supply s) (26 + 8 * 7) 2 ∧
    bit (fld (supply s) 1 1) 0 = true ∧ regF s uPOWER 0 0x000 31 31 = 0 ∧
    (linkUp (linkOn {} s) 2 = true ∧ linkDeaf (linkOn {} s) 2 = false ∧ linkUp s 2 = false) ∧
    (cut.power.pfailAt = some 0 ∧ cut.now < 0 + 10000000 ∧ 0 + 10000000 ≤ ({ cut with now := 10000000 } : State).now) ∧
    Addressed (set 1) uPOWER 0 ∧ LongRoom s (set 1) ∧
    ((set 3).params.length = 8 ∧ fld (set 3).params 0 1 = 15 ∧ rsv (set 3).params 2 6 = true ∧ domainAbsent s.part 15 = false ∧
      fld (set 1).params 1 1 ≤ deepest s 15 ∧ deepest s 15 < fld (set 3).params 1 1) := by
  unfold Addressed LongRoom; decide +kernel

/-! ### One step of single commands, with the results that the spec's tables state -/

/-- The core and what scalar register s3 holds after one instruction on s1 and s2. -/
def coreAfter (i : Instr) (a b : Word) : Core := core (after i (onCore (withRegs a b))) 91
def s3After (i : Instr) (a b : Word) : Word := getS (coreAfter i a b) 3

/-- The most negative and a negative operand. -/
abbrev neg (n : Nat) : Word := BitVec.ofInt 64 (-(n : Int))

/-- The low 64 bits of a sum. -/
theorem test_add_wraps : s3After (.add 91 3 1 2) (neg 1) 2 = 1 := by decide +kernel

/-- Division rounds toward zero, the remainder takes the sign of rs1. -/
theorem test_div_rem : s3After (.div 91 3 1 2) (neg 7) 2 = neg 3 ∧ s3After (.rem 91 3 1 2) (neg 7) 2 = neg 1 := by decide +kernel

/-- Division by zero (R216). -/
theorem test_div_zero : s3After (.divu 91 3 1 2) 7 0 = neg 1 ∧ s3After (.remu 91 3 1 2) 7 0 = 7 := by decide +kernel

/-- The high half of a product, signed and unsigned. -/
theorem test_mulh : s3After (.mulh 91 3 1 2) (neg 1) 2 = neg 1 ∧ s3After (.mulhu 91 3 1 2) (neg 1) 2 = 1 := by decide +kernel

/-- Comparison, signed and unsigned. -/
theorem test_slt : s3After (.slt 91 3 1 2) (neg 1) 2 = 1 ∧ s3After (.sltu 91 3 1 2) (neg 1) 2 = 0 := by decide +kernel

/-- SRA shifts by rs2[5:0]. -/
theorem test_sra : s3After (.sra 91 3 1 2) (neg 8) 66 = neg 2 := by decide +kernel

/-- A constant from LUI and ORI. -/
theorem test_lui : s3After (.lui 91 3 0x8000) 0 0 = 0xFFFFFFFF80000000 := by decide +kernel

/-- A write of s0 is discarded (R212). -/
theorem test_s0 : getS (coreAfter (.add 91 0 1 2) 1 2) 0 = 0 := by decide +kernel

/-- A branch that is taken and one that is not. -/
theorem test_branch : (coreAfter (.beq 91 1 2 3) 5 5).pc = BitVec.ofNat 48 (spmBase + 12) ∧
    (coreAfter (.beq 91 1 2 3) 5 6).pc = BitVec.ofNat 48 (spmBase + 4) := by decide +kernel

/-- A JALR target that is no multiple of 4 raises FETCH_ERROR and writes no register (R219). -/
theorem test_jalr_fetch_error : (coreAfter (.jalr 91 3 1 0) 6 0).exc = true ∧ getS (coreAfter (.jalr 91 3 1 0) 6 0) 3 = 0 ∧
    (coreAfter (.jalr 91 3 1 0) 6 0).eaddr = 6 := by decide +kernel

/-- MAC multiplies the low 24 bits as signed numbers. -/
theorem test_mac : (coreAfter (.mac 91 1 1 2) 0xFFFFFD 5).a[1] = BitVec.ofInt 56 (-15) := by decide +kernel

/-- Equal values keep the index that was written first (R224). -/
theorem test_maxi_ties : getS (core (after (.maxi 91 4 1 2) (onCore (setS (setS (withRegs 7 9) 4 7) 5 3))) 91) 5 = 3 := by decide +kernel

/-- A byte load that hits the cache sign-extends, or extends with zeros. -/
theorem test_lb :
    let s := onCore { withRegs 0x1005 7 with dcache := [{ addr := 0x1000, data := List.replicate 64 0x80 }] }
    getS (core (after (.lb 91 3 1 0) s) 91) 3 = neg 128 ∧ getS (core (after (.lbu 91 3 1 0) s) 91) 3 = 128 := by decide +kernel

/-- A store of two bytes that is not aligned raises MISALIGNED and stores nothing (R217). -/
theorem test_sh_misaligned : (coreAfter (.sh 91 2 1 1) (BitVec.ofNat 64 spmBase) 7).exc = true ∧
    (after (.sh 91 2 1 1) (onCore (withRegs (BitVec.ofNat 64 spmBase) 7))).mem = [] := by decide +kernel

/-- The reply of ECHO: opcode, sequence, length in words, unit, instance, flags, version, status, and the parameters. -/
theorem test_echo : (after (.echoCmd (req uSYS [1, 2, 3, 4])) (boot 7)).cmd.replies =
    [leBytes 2 0x0141 ++ leBytes 2 1 ++ leBytes 2 5 ++ [0x01, 0, 0, 1] ++ zeros 6 ++ [1, 2, 3, 4]] := by decide +kernel

/-- SET changes only pins that registers own (R594). -/
theorem test_pin_set_unowned : after (.fabricPinSet 0 1) (boot 7) = boot 7 := by decide +kernel

/-- A credit returns at most what was spent (R521). -/
theorem test_credit : spentAt (after (.credit 40 45 3) (spentPut 45 40 16 (boot 7))) 45 40 = 13 := by decide +kernel

end Sys2Proof.Machine.Tests
end

section
/-!
SUPPORT. Fields of registers and of byte strings: reading back what was set, and what setting leaves alone.
-/
namespace Sys2Proof.Machine
open Sys2Proof

/-! ### Bit fields -/

theorem setBits_eq (n hi lo f : Nat) : setBits n hi lo f =
    2 ^ lo * (2 ^ (hi - lo + 1) * (n / 2 ^ lo / 2 ^ (hi - lo + 1)) + f % 2 ^ (hi - lo + 1)) + n % 2 ^ lo := by
  unfold setBits bits
  generalize 2 ^ lo = a
  generalize 2 ^ (hi - lo + 1) = b
  have h1 := Nat.div_add_mod n a
  have h2 := Nat.div_add_mod (n / a) b
  have h3 : n = a * (b * (n / a / b)) + a * (n / a % b) + n % a := by rw [← Nat.mul_add, h2, h1]
  rw [Nat.mul_add, Nat.mul_comm (n / a % b) a, Nat.mul_comm (f % b) a]
  omega

theorem bits_setBits_same (n hi lo f : Nat) : bits (setBits n hi lo f) hi lo = f % 2 ^ (hi - lo + 1) := by
  have ha : 0 < 2 ^ lo := Nat.two_pow_pos lo
  rw [setBits_eq, bits, Nat.mul_add_div ha, Nat.div_eq_of_lt (Nat.mod_lt n ha), Nat.add_zero,
    Nat.mul_add_mod, Nat.mod_mod]

theorem setBits_mod (n hi lo f : Nat) : setBits n hi lo f % 2 ^ lo = n % 2 ^ lo := by
  rw [setBits_eq, Nat.mul_add_mod, Nat.mod_mod]

theorem setBits_div {hi lo : Nat} (h : lo ≤ hi) (n f : Nat) :
    setBits n hi lo f / 2 ^ (hi + 1) = n / 2 ^ (hi + 1) := by
  have ha : 0 < 2 ^ lo := Nat.two_pow_pos lo
  have hp : 2 ^ (hi + 1) = 2 ^ lo * 2 ^ (hi - lo + 1) := by rw [← pow_add]; congr 1; omega
  rw [setBits_eq, hp, ← Nat.div_div_eq_div_mul, ← Nat.div_div_eq_div_mul, Nat.mul_add_div ha,
    Nat.div_eq_of_lt (Nat.mod_lt n ha), Nat.add_zero, Nat.mul_add_div (Nat.two_pow_pos _),
    Nat.div_eq_of_lt (Nat.mod_lt f (Nat.two_pow_pos _)), Nat.add_zero]

theorem bits_setBits_below {hi' lo : Nat} (h : hi' < lo) (n hi lo' f : Nat) (h' : lo' ≤ hi') :
    bits (setBits n hi lo f) hi' lo' = bits n hi' lo' := by
  have low : ∀ v, bits v hi' lo' = v % 2 ^ lo % 2 ^ (hi' + 1) / 2 ^ lo' := fun v => by
    have hp : 2 ^ (hi' + 1) = 2 ^ lo' * 2 ^ (hi' - lo' + 1) := by rw [← pow_add]; congr 1; omega
    rw [Nat.mod_mod_of_dvd _ (pow_dvd_pow 2 h), bits, hp, Nat.mod_mul_right_div_self]
  rw [low, low, setBits_mod]

theorem bits_setBits_above {hi lo lo' : Nat} (h : lo ≤ hi) (h' : hi < lo') (n hi' f : Nat) :
    bits (setBits n hi lo f) hi' lo' = bits n hi' lo' := by
  have hp : 2 ^ lo' = 2 ^ (hi + 1) * 2 ^ (lo' - (hi + 1)) := by rw [← pow_add]; congr 1; omega
  unfold bits
  rw [hp, ← Nat.div_div_eq_div_mul, ← Nat.div_div_eq_div_mul, setBits_div h]

theorem setBits_lt {hi lo : Nat} (h : lo ≤ hi) (h32 : hi < 32) {n : Nat} (hn : n < 2 ^ 32) (f : Nat) :
    setBits n hi lo f < 2 ^ 32 := by
  have hp : 2 ^ 32 = 2 ^ (hi + 1) * 2 ^ (32 - (hi + 1)) := by rw [← pow_add]; congr 1; omega
  rw [hp, Nat.mul_comm, ← Nat.div_lt_iff_lt_mul (Nat.two_pow_pos _)] at hn ⊢
  rwa [setBits_div h]

theorem bits_lt (v hi lo : Nat) : bits v hi lo < 2 ^ (hi - lo + 1) := Nat.mod_lt _ (Nat.two_pow_pos _)

/-! ### Register fields -/

theorem regGet_regPutF_same (u i o hi lo v : Nat) (s : State) (h : lo ≤ hi) (h32 : hi < 32) :
    (regGet (regPutF u i o hi lo v s) u i o).toNat = setBits (regGet s u i o).toNat hi lo v := by
  rw [regPutF, regGet_regPut_same, BitVec.toNat_ofNat, Nat.mod_eq_of_lt (setBits_lt h h32 (BitVec.isLt _) v)]

theorem regF_regPutF_same (u i o hi lo v : Nat) (s : State) (h : lo ≤ hi) (h32 : hi < 32) :
    regF (regPutF u i o hi lo v s) u i o hi lo = v % 2 ^ (hi - lo + 1) := by
  rw [regF, regGet_regPutF_same u i o hi lo v s h h32, bits_setBits_same]

/-- A field of the same register that does not overlap the one set. -/
theorem regF_regPutF_apart (u i o hi lo hi' lo' v : Nat) (s : State) (h : lo ≤ hi ∧ hi < 32 ∧ lo' ≤ hi')
    (ha : hi' < lo ∨ hi < lo') : regF (regPutF u i o hi lo v s) u i o hi' lo' = regF s u i o hi' lo' := by
  obtain ⟨h, h32, h'⟩ := h
  rw [regF, regGet_regPutF_same u i o hi lo v s h h32]
  rcases ha with ha | ha
  · exact bits_setBits_below ha _ _ _ _ h'
  · exact bits_setBits_above h ha _ _ _

theorem regGet_regPutF_ne {u i o u' i' o' : Nat} (hi lo v : Nat) (s : State) (h : regKey u' i' o' ≠ regKey u i o) :
    regGet (regPutF u i o hi lo v s) u' i' o' = regGet s u' i' o' := regGet_regPut_ne _ _ h

theorem regF_regPutF_ne {u i o u' i' o' : Nat} (hi lo v hi' lo' : Nat) (s : State)
    (h : regKey u' i' o' ≠ regKey u i o) :
    regF (regPutF u i o hi lo v s) u' i' o' hi' lo' = regF s u' i' o' hi' lo' := by
  rw [regF, regGet_regPutF_ne hi lo v s h, ← regF]

theorem regF_lt (s : State) (u i o hi lo : Nat) : regF s u i o hi lo < 2 ^ (hi - lo + 1) := bits_lt _ _ _

/-- A field reads the registers alone. -/
theorem regF_congr {s t : State} (h : s.regs = t.regs) (u i o hi lo : Nat) :
    regF s u i o hi lo = regF t u i o hi lo := by
  unfold regF regGet; rw [h]

/-- The ledger's COMMITTED reads back up to its ten bits. -/
theorem committed_setCommitted (v : Nat) (s : State) : committed (setCommitted v s) = v % 1024 :=
  regF_regPutF_same _ _ _ _ _ _ _ (by decide) (by decide)

theorem committed_lt (s : State) : committed s < 1024 := regF_lt _ _ _ _ _ _

/-! ### Byte strings -/

@[simp] theorem length_leBytes (n v : Nat) : (leBytes n v).length = n := by
  induction n generalizing v with
  | zero => rfl
  | succ n ih => simp [leBytes, ih]

theorem leNat_leBytes (n v : Nat) : leNat (leBytes n v) = v % 256 ^ n := by
  induction n generalizing v with
  | zero => simp [leBytes, leNat, Nat.mod_one]
  | succ n ih =>
    rw [leBytes, leNat, ih, BitVec.toNat_ofNat, pow_succ' (256 : Nat) n, Nat.mod_mul]

/-- A field that lies in the second of two strings. -/
theorem fld_append_right (a b : Bytes) (k w : Nat) : fld (a ++ b) (a.length + k) w = fld b k w := by
  have h : (a ++ b).drop (a.length + k) = b.drop k := by
    rw [List.drop_append]
    simp
  simp only [fld, sub, h]

/-- A field that lies in the first of two strings. -/
theorem fld_append_left (a b : Bytes) {off w : Nat} (h : off + w ≤ a.length) : fld (a ++ b) off w = fld a off w := by
  have hd : (a ++ b).drop off = a.drop off ++ b := List.drop_append_of_le_length (by omega)
  have ht : ((a ++ b).drop off).take w = (a.drop off).take w := by
    rw [hd, List.take_append_of_le_length (by rw [List.length_drop]; omega)]
  simp only [fld, sub, ht]

/-- The whole of a string as one field. -/
theorem fld_whole (b : Bytes) : fld b 0 b.length = leNat b := by
  simp [fld, sub]

theorem fld_leBytes (w v : Nat) : fld (leBytes w v) 0 w = v % 256 ^ w := by
  have h := fld_whole (leBytes w v)
  rwa [length_leBytes, leNat_leBytes] at h

end Sys2Proof.Machine
end

section
/-!
SUPPORT. Requests: when checks refuse one, what DRY_RUN answers, and the generic commands without their deferred list
(02_commands.md, R40, R55, R75).
-/
namespace Sys2Proof.Machine
open Sys2Proof

/-! ### O4 -/

/-- Settles O4: every field of the reset state is its default, and the boot and power registers read their reset value. -/
theorem resetState : Obligations.ResetState := by
  unfold Obligations.ResetState
  exact ⟨rfl, rfl, rfl, rfl, rfl, rfl, rfl, rfl, by decide, by decide, by decide, rfl, rfl, rfl, rfl⟩

/-! ### The answer of a command that is refused or only asks for its checks -/

/-- A request with DRY_RUN set. -/
def dried (r : Request) : Request := { r with flags := r.flags ||| 1 }

@[simp] theorem dryRun_dried (r : Request) : dryRun (dried r) = true := by
  simp [dryRun, dried, bit]

/-- A command answers DRY_RUN with one reply and no results, and the request without it with the same status where that
is a failure. -/
def ChecksFirst (op : Nat) (f : Request → State → State) (r : Request) (s : State) : Prop :=
  ∃ st, f (dried r) s = reply op (dried r) st [] s ∧ (st ≠ 0 → f r s = reply op r st [] s)

theorem headed_eq_zero {r : Request} {c : Nat} : headed r c = 0 ↔ r.reserved = false ∧ c = 0 := by
  unfold headed
  split
  next h => rcases h with h | h | h <;> simp_all
  next h => simp_all

theorem runCmd_refused {op chk : Nat} {r : Request} {act : State → Nat × Bytes × State} {s : State}
    (h : headed r chk ≠ 0) : runCmd op r chk act s = reply op r (headed r chk) [] s := by
  simp [runCmd, h]

theorem runCmd_dry {op chk : Nat} {r : Request} {act : State → Nat × Bytes × State} {s : State}
    (h : dryRun r = true) : runCmd op r chk act s = reply op r (headed r chk) [] s := by
  by_cases hc : headed r chk = 0 <;> simp [runCmd, h, hc]

theorem runCmd_runs {op chk : Nat} {r : Request} {act : State → Nat × Bytes × State} {s : State}
    (hc : headed r chk = 0) (h : dryRun r = false) :
    runCmd op r chk act s = reply op r (act s).1 (act s).2.1 (act s).2.2 := by
  simp [runCmd, h, hc]

/-- The status of a long command's checks (R40, R52, R53). -/
def longStatus (r : Request) (pchk schk : Nat) (s : State) : Nat :=
  firstFail [headed r pchk, need (!seqInUse s r.transport r.sequence) stSEQ_IN_USE,
    need (s.cmd.longs.length < 32) stBUSY, schk]

section
variable {op pchk schk : Nat} {r : Request} {obj : Option Nat} {cancellable : Bool} {act : State → State} {s : State}

theorem runLong_refused (h : longStatus r pchk schk s ≠ 0) :
    runLong op r pchk schk obj cancellable act s = reply op r (longStatus r pchk schk s) [] s := by
  unfold longStatus at h ⊢
  simp only [runLong, h, ne_eq, not_false_eq_true, if_true]

theorem runLong_dry (h : dryRun r = true) :
    runLong op r pchk schk obj cancellable act s = reply op r (longStatus r pchk schk s) [] s := by
  by_cases hc : longStatus r pchk schk s = 0
  · unfold longStatus at hc ⊢
    simp only [runLong, hc, h, ne_eq, not_true_eq_false, if_false, if_true]
  · exact runLong_refused hc

theorem runLong_accepted (hc : longStatus r pchk schk s = 0) (h : dryRun r = false) :
    runLong op r pchk schk obj cancellable act s = reply op r 0x0001 []
      (act { s with cmd := { s.cmd with longs := s.cmd.longs ++ [longOf op r obj cancellable] } }) := by
  unfold longStatus at hc
  simp only [runLong, hc, h, ne_eq, not_true_eq_false, if_false, Bool.false_eq_true]
  rfl

end

theorem checksFirst_runCmd {op : Nat} {f : Request → State → State} {r : Request} {s : State} {chk : Request → Nat}
    {act : Request → State → Nat × Bytes × State} (hf : ∀ q, f q s = runCmd op q (chk q) (act q) s)
    (hc : headed (dried r) (chk (dried r)) = headed r (chk r)) : ChecksFirst op f r s := by
  refine ⟨headed r (chk r), ?_, fun h => ?_⟩
  · rw [hf, runCmd_dry (dryRun_dried r), hc]
  · rw [hf, runCmd_refused h]

theorem checksFirst_runLong {op : Nat} {f : Request → State → State} {r : Request} {s : State}
    {pchk schk : Request → Nat} {obj : Request → Option Nat} {c : Request → Bool} {act : Request → State → State}
    (hf : ∀ q, f q s = runLong op q (pchk q) (schk q) (obj q) (c q) (act q) s)
    (hc : longStatus (dried r) (pchk (dried r)) (schk (dried r)) s = longStatus r (pchk r) (schk r) s) :
    ChecksFirst op f r s := by
  refine ⟨longStatus r (pchk r) (schk r) s, ?_, fun h => ?_⟩
  · rw [hf, runLong_dry (dryRun_dried r), hc]
  · rw [hf, runLong_refused h]

theorem checksFirst_generic {op family low : Nat} {f : Request → State → State} {r : Request} {s : State}
    (he : op = family * 256 + low) (h : ChecksFirst op f r s) :
    ChecksFirst op (fun q => generic family low q (f q)) r s := by
  subst he
  by_cases hf : hasObjects family
  · simpa [ChecksFirst, generic, hf] using h
  · exact ⟨stBAD_OPCODE, by simp [generic, hf], fun _ => by simp [generic, hf]⟩

/-- What O9 says of one row of the opcode table: the request is answered by its checks, with DRY_RUN and without. -/
def AnsweredByChecks (op : Nat) (mk : Request → Instr) (r : Request) (s : State) : Prop :=
  ∃ st, Replies (mk (dried r)) s op (dried r) st [] s ∧ (st ≠ 0 → Replies (mk r) s op r st [] s)

section
variable {op : Nat} {mk : Request → Instr} {f : Request → State → State} {r : Request} {s : State}

theorem answered_of_checksFirst (h : ChecksFirst op f r s)
    (he : ∀ q, exec (mk q) s = done (f q s) := by exact fun _ => rfl) : AnsweredByChecks op mk r s := by
  obtain ⟨st, hd, hr⟩ := h
  exact ⟨st, ⟨_, he _, hd⟩, fun h0 => ⟨_, he _, hr h0⟩⟩

/-- The row of an immediate command. -/
theorem answered_immediate {chk : Request → Nat} {act : Request → State → Nat × Bytes × State}
    (hf : ∀ q, f q s = runCmd op q (chk q) (act q) s)
    (hc : headed (dried r) (chk (dried r)) = headed r (chk r) := by rfl)
    (he : ∀ q, exec (mk q) s = done (f q s) := by exact fun _ => rfl) : AnsweredByChecks op mk r s :=
  answered_of_checksFirst (checksFirst_runCmd hf hc) he

/-- The row of a long command. -/
theorem answered_long {pchk schk : Request → Nat} {obj : Request → Option Nat} {c : Request → Bool}
    {act : Request → State → State} (hf : ∀ q, f q s = runLong op q (pchk q) (schk q) (obj q) (c q) (act q) s)
    (hc : longStatus (dried r) (pchk (dried r)) (schk (dried r)) s = longStatus r (pchk r) (schk r) s := by rfl)
    (he : ∀ q, exec (mk q) s = done (f q s) := by exact fun _ => rfl) : AnsweredByChecks op mk r s :=
  answered_of_checksFirst (checksFirst_runLong hf hc) he

/-- The row of a generic command. -/
theorem answered_generic {family low : Nat} (h : ChecksFirst (family * 256 + low) f r s)
    (he : ∀ q, exec (mk q) s = done (generic family low q (f q) s) := by exact fun _ => rfl) :
    AnsweredByChecks (family * 256 + low) mk r s :=
  answered_of_checksFirst (checksFirst_generic rfl h) he

end

/-! ### The generic commands where no start is deferred -/

theorem undefer_of_none {s : State} (h : s.cmd.deferred = []) (r : Request) (chk id : Nat) :
    undefer r chk id s = s := by
  unfold undefer
  split
  · rw [h, List.filter_nil, ← h]
  · rfl

section
variable {s : State} (family : Nat) (r : Request)

/-- The target and parameter checks of OBJ_SET (R60, R61). -/
def objSetParams (s : State) (family : Nat) (r : Request) : Nat :=
  let p := r.params
  let id := fld p 0 4
  let n := fld p 6 2
  let b := sub p 8 n
  let whole := 8 ≤ p.length && p.length == 8 + n && n % 4 == 0 && n ≤ 4072
  firstFail [need (!(4 ≤ p.length && idOk family id && (idAbsent s id || (whole && bodyAbsent s id b)))) stUNIT_ABSENT,
    targetCheck s r uSYS 0, need whole stBAD_LENGTH, need (idOk family id) stBAD_PARAM, recordCheck s id (fld p 4 2) b]

/-- The target and parameter checks of START and STOP: the object is a function. -/
def fnParams (s : State) (family : Nat) (r : Request) : Nat :=
  firstFail [idCheck s family r 4, need (isFn (fld r.params 0 4)) stBAD_PARAM]

/-- The state and admission checks of START (R62, R64, R66). -/
def startState (s : State) (id : Nat) : Nat :=
  match objFind s id with
  | none => stOBJECT_UNKNOWN
  | some o => match o.st with
    | some .running => stFUNCTION_RUNNING
    | some .stopped => if objBusy s id then stBUSY else fnAdmit s id o
    | _ => stBUSY

/-- The state check of STOP (R64 to R66). -/
def stopState (s : State) (id : Nat) : Nat :=
  match objFind s id with
  | none => stOBJECT_UNKNOWN
  | some o => match o.st with
    | some .running => need (!objBusy s id) stBUSY
    | some .stopped => stFUNCTION_STOPPED
    | _ => stBUSY

theorem objSetOp_eq (h : s.cmd.deferred = []) :
    objSetOp family r s = runCmd (family * 256 + 1) r
      (firstFail [objSetParams s family r, changeState s (fld r.params 0 4),
        if isFn (fld r.params 0 4) then 0 else settingState s (fld r.params 0 4) (sub r.params 8 (fld r.params 6 2))])
      (fun s => (stDONE, [], setObject (fld r.params 0 4) (fld r.params 4 2) (sub r.params 8 (fld r.params 6 2)) s)) s := by
  unfold objSetOp
  simp only [undefer_of_none h]
  rfl

theorem objDeleteOp_eq (h : s.cmd.deferred = []) :
    objDeleteOp family r s = runCmd (family * 256 + 5) r
      (firstFail [firstFail [idCheck s family r 4, need (family != 6) stBAD_PARAM],
        need (objFind s (fld r.params 0 4)).isSome stOBJECT_UNKNOWN, changeState s (fld r.params 0 4),
        if isFn (fld r.params 0 4) then 0 else settingState s (fld r.params 0 4) []])
      (fun s => (stDONE, [], if isFn (fld r.params 0 4) then objDel (fld r.params 0 4) s
        else settingApplied (fld r.params 0 4) (((objFind s (fld r.params 0 4)).map (·.body)).getD [])
          (objDel (fld r.params 0 4) s))) s := by
  unfold objDeleteOp
  simp only [undefer_of_none h]

theorem startOp_eq (h : s.cmd.deferred = []) (hw : requestWait (family * 256 + 3) r s = none) :
    startOp family r s = runLong (family * 256 + 3) r (fnParams s family r) (startState s (fld r.params 0 4))
      (some (fld r.params 0 4)) false (fnStart (fld r.params 0 4)) s := by
  unfold startOp
  rw [hw]
  simp only [undefer_of_none h]
  congr 1
  unfold startState
  cases objFind s (fld r.params 0 4) with
  | none => rfl
  | some o =>
    obtain ⟨_, _, st, _, _, _, _⟩ := o
    rcases st with _ | st
    · rfl
    · cases st <;> cases hb : objBusy s (fld r.params 0 4) <;> simp [need]

theorem stopOp_eq (h : s.cmd.deferred = []) :
    stopOp family r s = runLong (family * 256 + 4) r (fnParams s family r) (stopState s (fld r.params 0 4))
      (some (fld r.params 0 4)) false (fnStopping (fld r.params 0 4)) s := by
  unfold stopOp
  simp only [undefer_of_none h]
  rfl

end

/-! ### O9 -/

section
variable {s : State} {r : Request} (family : Nat)

theorem checksFirst_objSetOp (h : s.cmd.deferred = []) : ChecksFirst (family * 256 + 1) (objSetOp family) r s :=
  checksFirst_runCmd (fun q => objSetOp_eq family q h) rfl

theorem checksFirst_objDeleteOp (h : s.cmd.deferred = []) : ChecksFirst (family * 256 + 5) (objDeleteOp family) r s :=
  checksFirst_runCmd (fun q => objDeleteOp_eq family q h) rfl

theorem checksFirst_objStateOp : ChecksFirst (family * 256 + 6) (objStateOp family) r s :=
  checksFirst_runCmd (fun q => objStateOp.eq_def family q s) rfl

theorem checksFirst_objListOp : ChecksFirst (family * 256 + 7) (objListOp family) r s :=
  checksFirst_runCmd (fun q => objListOp.eq_def family q s) rfl

theorem checksFirst_objGetOp : ChecksFirst (family * 256 + 2) (objGetOp family) r s := by
  refine ⟨objGetCheck s family r, ?_, fun h => ?_⟩
  · have hc : objGetCheck s family (dried r) = objGetCheck s family r := rfl
    by_cases h : objGetCheck s family r = 0
    · simp [objGetOp, hc, h]
    · simp [objGetOp, hc, h]
  · simp [objGetOp, h]

/-- Whether a START waits for a memory does not depend on DRY_RUN. -/
theorem requestWait_dried_start (r : Request) (s : State) :
    requestWait (family * 256 + 3) (dried r) s = requestWait (family * 256 + 3) r s := by
  have h2 : (family * 256 + 3) % 256 ≠ 2 := by omega
  simp only [requestWait, h2, false_and, if_false]
  rfl

theorem checksFirst_startOp (h : s.cmd.deferred = []) (hw : requestWait (family * 256 + 3) (dried r) s = none) :
    ChecksFirst (family * 256 + 3) (startOp family) r s := by
  have hr : requestWait (family * 256 + 3) r s = none := by
    rw [← hw]; exact (requestWait_dried_start family r s).symm
  refine ⟨longStatus r (fnParams s family r) (startState s (fld r.params 0 4)) s, ?_, fun hst => ?_⟩
  · rw [startOp_eq family (dried r) h hw, runLong_dry (dryRun_dried r)]; rfl
  · rw [startOp_eq family r h hr, runLong_refused hst]

theorem checksFirst_stopOp (h : s.cmd.deferred = []) : ChecksFirst (family * 256 + 4) (stopOp family) r s :=
  checksFirst_runLong (fun q => stopOp_eq family q h) rfl

end

/-- A command that acts itself where its checks pass, and answers through `runCmd` else. -/
theorem checksFirst_guarded {op : Nat} {f : Request → State → State} {r : Request} {s : State} {chk : Request → Nat}
    {go : Request → State} {act : Request → State → Nat × Bytes × State}
    (hf : ∀ q, f q s = if headed q (chk q) = 0 ∧ !dryRun q then go q else runCmd op q (headed q (chk q)) (act q) s)
    (hc : headed (dried r) (chk (dried r)) = headed r (chk r)) : ChecksFirst op f r s := by
  refine ⟨headed r (headed r (chk r)), ?_, fun h => ?_⟩
  · rw [hf, dryRun_dried, if_neg (by simp), runCmd_dry (dryRun_dried r), hc]
    rfl
  · have hn : headed r (chk r) ≠ 0 := fun h0 => h (by rw [h0]; exact headed_eq_zero.2 ⟨(headed_eq_zero.1 h0).1, rfl⟩)
    rw [hf, if_neg fun c => hn c.1, runCmd_refused h]

section
variable {s : State} {r : Request}

theorem checksFirst_deviceResetOp : ChecksFirst 0x0146 deviceResetOp r s :=
  checksFirst_guarded (fun q => deviceResetOp.eq_def q s) rfl

/-- The checks of CANCEL (R55): the sequence is outstanding, and its command can be cancelled now. -/
def cancelCheck (s : State) (r : Request) : Nat :=
  firstFail [queryCheck s r, match queried s r.params with
    | none => stBAD_PARAM
    | some l => need (l.cancellable && (l.opcode != 0x0740 || (powerCancel l s).1)) stBUSY]

theorem cancelOp_of_none (h : queried s r.params = none) :
    cancelOp r s = runCmd 0x0143 r (headed r (cancelCheck s r)) (fun s => (stDONE, [], s)) s := by
  unfold cancelOp cancelCheck
  simp only [h]

theorem cancelOp_of_some {l : Long} (h : queried s r.params = some l) :
    cancelOp r s = if headed r (cancelCheck s r) = 0 ∧ !dryRun r then
        completeLong l stCANCELLED [] (cutShort l (reply 0x0143 r stDONE [] s))
      else runCmd 0x0143 r (headed r (cancelCheck s r)) (fun s => (stDONE, [], s)) s := by
  unfold cancelOp cancelCheck
  simp only [h]

theorem cancelCheck_of_none (h : queried s r.params = none) : cancelCheck s r ≠ 0 := by
  unfold cancelCheck
  simp only [h, firstFail]
  split <;> simp_all

theorem checksFirst_cancelOp : ChecksFirst 0x0143 cancelOp r s := by
  refine checksFirst_guarded (chk := cancelCheck s) (act := fun _ s => (stDONE, [], s))
    (go := fun q => match queried s q.params with
      | some l => completeLong l stCANCELLED [] (cutShort l (reply 0x0143 q stDONE [] s))
      | none => s) (fun q => ?_) rfl
  cases h : queried s q.params with
  | some l => exact cancelOp_of_some h
  | none => rw [cancelOp_of_none h, if_neg fun c => cancelCheck_of_none h (headed_eq_zero.1 c.1).2]

theorem checksFirst_configExportOp : ChecksFirst 0x0144 configExportOp r s :=
  ⟨_, (configExportOp.eq_def (dried r) s).trans (runLong_dry (dryRun_dried r)),
    fun h => (configExportOp.eq_def r s).trans (runLong_refused h)⟩

/-- TIME_SET is immediate with MODE 0 and long with MODE 1. -/
theorem checksFirst_timeSetOp : ChecksFirst 0x0540 timeSetOp r s := by
  by_cases h : fld r.params 0 1 = 0
  · exact ⟨_, ((timeSetOp.eq_def (dried r) s).trans (if_pos h)).trans (runCmd_dry (dryRun_dried r)),
      fun hst => ((timeSetOp.eq_def r s).trans (if_pos h)).trans (runCmd_refused hst)⟩
  · exact ⟨_, ((timeSetOp.eq_def (dried r) s).trans (if_neg h)).trans (runLong_dry (dryRun_dried r)),
      fun hst => ((timeSetOp.eq_def r s).trans (if_neg h)).trans (runLong_refused hst)⟩

end

/-- Settles O9: every command of the table runs its checks before anything else, so the first that fails is its one
reply, and DRY_RUN answers it likewise. -/
theorem refusedRequestsChangeNothing : Obligations.RefusedRequestsChangeNothing := by
  unfold Obligations.RefusedRequestsChangeNothing
  intro s r h _ fam
  simp only [List.forall_mem_cons]
  exact ⟨fun _ => answered_generic (checksFirst_objSetOp _ h),
    fun _ => answered_generic (checksFirst_objGetOp _),
    fun hw => answered_generic (checksFirst_startOp _ h hw),
    fun _ => answered_generic (checksFirst_stopOp _ h),
    fun _ => answered_generic (checksFirst_objDeleteOp _ h),
    fun _ => answered_generic (checksFirst_objStateOp _),
    fun _ => answered_generic (checksFirst_objListOp _),
    fun _ => answered_immediate (capsOp.eq_def · s),
    fun _ => answered_immediate (echoOp.eq_def · s),
    fun _ => answered_immediate (cmdQueryOp.eq_def · s),
    fun _ => answered_of_checksFirst checksFirst_cancelOp,
    fun _ => answered_of_checksFirst checksFirst_configExportOp,
    fun _ => answered_long (configInstallOp.eq_def · s),
    fun _ => answered_of_checksFirst checksFirst_deviceResetOp,
    fun _ => answered_immediate (handsetAddOp.eq_def · s),
    fun _ => answered_immediate (handsetModifyOp.eq_def · s),
    fun _ => answered_immediate (handsetRemoveOp.eq_def · s),
    fun _ => answered_immediate (handsetStatsOp.eq_def · s),
    fun _ => answered_immediate (carrierStatsOp.eq_def · s),
    fun _ => answered_immediate (tagSetOp.eq_def · s),
    fun _ => answered_immediate (tagRemoveOp.eq_def · s),
    fun _ => answered_immediate (tagGetOp.eq_def · s),
    fun _ => answered_immediate (chirpStatsOp.eq_def · s),
    fun _ => answered_immediate (legAddOp.eq_def · s),
    fun _ => answered_immediate (legRemoveOp.eq_def · s),
    fun _ => answered_immediate (legParamOp.eq_def · s),
    fun _ => answered_immediate (legStatsOp.eq_def · s),
    fun _ => answered_immediate (legKeyOp.eq_def · s),
    fun _ => answered_immediate (layoutSetOp.eq_def · s),
    fun _ => answered_immediate (layoutGetOp.eq_def · s),
    fun _ => answered_immediate (fwdAddOp.eq_def · s),
    fun _ => answered_immediate (fwdRemoveOp.eq_def · s),
    fun _ => answered_immediate (fwdStatsOp.eq_def · s),
    fun _ => answered_of_checksFirst checksFirst_timeSetOp,
    fun _ => answered_immediate (timeAdjustOp.eq_def · s),
    fun _ => answered_immediate (timeGetOp.eq_def · s),
    fun _ => answered_immediate (ptpStatsOp.eq_def · s),
    fun _ => answered_long (nvOp.eq_def false · s),
    fun _ => answered_long (nvOp.eq_def true · s),
    fun _ => answered_long (powerSetOp.eq_def · s),
    fun _ => answered_immediate (powerStatusOp.eq_def · s),
    fun _ => answered_long (imagePushOp.eq_def · s),
    fun _ => answered_long (imageInstallOp.eq_def · s),
    fun _ => answered_immediate (bootContinueOp.eq_def · s),
    fun _ => answered_long (rollbackOp.eq_def · s),
    fun _ => answered_immediate (identityOp.eq_def · s),
    fun _ => answered_immediate (certOp.eq_def · s),
    fun _ => answered_long (attestOp.eq_def · s),
    fun _ => answered_long (ownerSetOp.eq_def · s),
    fun _ => answered_long (ownerRevokeOp.eq_def · s),
    fun _ => answered_immediate (sfgStatusOp.eq_def · s),
    fun _ => answered_immediate (faultInjectOp.eq_def · s),
    fun _ => answered_immediate (faultClearOp.eq_def · s),
    fun _ => answered_immediate (mdStatusOp.eq_def · s),
    fun _ => answered_immediate (linkStatsOp.eq_def · s),
    fun _ => answered_long (bootSendOp.eq_def · s),
    fun _ => answered_immediate (serviceSetOp.eq_def · s),
    fun _ => answered_long (crewRetireOp.eq_def · s),
    fun _ => answered_immediate (shuttleStatsOp.eq_def · s),
    fun _ => answered_long (queueReclaimOp.eq_def · s),
    fun _ => answered_immediate (queueStatsOp.eq_def · s),
    fun _ => answered_long (weftDrainOp.eq_def · s),
    fun _ => answered_immediate (linkLoadOp.eq_def · s),
    fun _ => answered_immediate (weftPathOp.eq_def · s),
    fun e he => absurd he List.not_mem_nil⟩

end Sys2Proof.Machine
end

section
/-!
SUPPORT. Objects and functions: what the checks of the generic commands find, what START and STOP do by the function's
state, and how a region's STOP ends (02_commands.md, R59 to R66).
-/
namespace Sys2Proof.Machine
open Sys2Proof

/-! ### Statuses of checks -/

@[simp] theorem firstFail_nil : firstFail [] = 0 := rfl
@[simp] theorem firstFail_zero (xs : List Nat) : firstFail (0 :: xs) = firstFail xs := rfl
theorem firstFail_fails {x : Nat} (h : x ≠ 0) (xs : List Nat) : firstFail (x :: xs) = x := by simp [firstFail, h]
@[simp] theorem firstFail_singleton (x : Nat) : firstFail [x] = x := by by_cases h : x = 0 <;> simp [firstFail, h]
@[simp] theorem firstFail_pair_zero (x : Nat) : firstFail [x, 0] = x := by by_cases h : x = 0 <;> simp [firstFail, h]
@[simp] theorem need_true (st : Nat) : need true st = 0 := rfl
@[simp] theorem need_false (st : Nat) : need false st = st := rfl

theorem headed_of_addressed {r : Request} {u i : Nat} (h : Addressed r u i) (c : Nat) : headed r c = c := by
  obtain ⟨_, _, hres, _⟩ := h
  simp [headed, hres]

theorem targetCheck_addressed {s : State} {r : Request} {u i : Nat} (h : Addressed r u i)
    (hp : unitPresent s.part u i = true) : targetCheck s r u i = 0 := by
  obtain ⟨hu, hi, _, _⟩ := h
  simp [targetCheck, hu, hi, hp]

/-- The system unit is present in every part. -/
theorem targetCheck_system {s : State} {r : Request} (h : Addressed r uSYS 0) : targetCheck s r uSYS 0 = 0 :=
  targetCheck_addressed h (by cases s.part <;> rfl)

theorem replies_of {i : Instr} {s w x : State} {op st : Nat} {r : Request} {res : Bytes} (he : exec i s = done x)
    (h : x = reply op r st res w) : Replies i s op r st res w := ⟨x, he, h⟩

theorem generic_of_hasObjects {family low : Nat} (h : hasObjects family = true) (r : Request) (f : State → State)
    (s : State) : generic family low r f s = f s := by simp [generic, h]

/-- An ID of the opcode's family whose units are present. -/
structure Known (s : State) (family id : Nat) : Prop where
  ok : idOk family id = true
  present : idAbsent s id = false

/-- The units of the object it names are present too. -/
structure Named (s : State) (family id : Nat) : Prop extends Known s family id where
  body : ∀ o, objFind s id = some o → bodyAbsent s id o.body = false

theorem idCheck_named {s : State} {family n : Nat} {r : Request} (ha : Addressed r uSYS 0)
    (hn : Named s family (fld r.params 0 4)) (hl : r.params.length = n) : idCheck s family r n = 0 := by
  obtain ⟨⟨hok, hp⟩, hb⟩ := hn
  have hbody : ((objFind s (fld r.params 0 4)).any fun o => bodyAbsent s (fld r.params 0 4) o.body) = false := by
    cases ho : objFind s (fld r.params 0 4) with
    | none => rfl
    | some o => exact hb o ho
  simp [idCheck, targetCheck_system ha, hl, hok, hp, hbody]

/-! ### Reading objects -/

section
variable {s : State} {r : Request} {fam : BitVec 8}

theorem replies_runCmd {i : Instr} {op chk st : Nat} {res : Bytes} {act : State → Nat × Bytes × State} {w : State}
    {low : Nat} {g : State → State} (hf : hasObjects fam.toNat = true) (ha : Addressed r uSYS 0)
    (he : exec i s = done (generic fam.toNat low r g s)) (hg : g s = runCmd op r chk act s)
    (hc : chk = 0) (hact : act s = (st, res, w)) : Replies i s op r st res w := by
  refine replies_of he ?_
  rw [generic_of_hasObjects hf, hg, runCmd_runs (by rw [headed_of_addressed ha, hc]) ha.2.2.2, hact]

theorem replies_runCmd_refused {i : Instr} {op chk st : Nat} {act : State → Nat × Bytes × State}
    {low : Nat} {g : State → State} (hf : hasObjects fam.toNat = true) (ha : Addressed r uSYS 0)
    (he : exec i s = done (generic fam.toNat low r g s)) (hg : g s = runCmd op r chk act s)
    (hc : chk = st) (hst : st ≠ 0) : Replies i s op r st [] s := by
  subst hc
  refine replies_of he ?_
  rw [generic_of_hasObjects hf, hg, runCmd_refused (by rwa [headed_of_addressed ha]), headed_of_addressed ha]

theorem replies_runLong {i : Instr} {op pchk schk : Nat} {obj : Option Nat} {c : Bool} {act : State → State}
    {low : Nat} {g : State → State} (hf : hasObjects fam.toNat = true) (ha : Addressed r uSYS 0) (hl : LongRoom s r)
    (he : exec i s = done (generic fam.toNat low r g s)) (hg : g s = runLong op r pchk schk obj c act s)
    (hp : pchk = 0) : (schk ≠ 0 → Replies i s op r schk [] s) ∧ (schk = 0 → Accepts i s op r obj c act) := by
  have hs : longStatus r pchk schk s = schk := by
    obtain ⟨hq, hn⟩ := hl
    simp [longStatus, headed_of_addressed ha, hp, hq, hn]
  constructor <;> intro h <;> refine replies_of he ?_
  · rw [generic_of_hasObjects hf, hg, runLong_refused (by rwa [hs]), hs]
  · rw [generic_of_hasObjects hf, hg, runLong_accepted (by rw [hs, h]) ha.2.2.2]

end

section
variable {s : State} {r : Request} {fam : BitVec 8} {o : Object}

/-- OBJ_GET of an object whose record goes into the reply, or is too long for it (R59). -/
theorem replies_objGet (hf : hasObjects fam.toNat = true) (ha : Addressed r uSYS 0)
    (hn : Named s fam.toNat (fld r.params 0 4)) (hl : r.params.length = 16) (h4 : fld r.params 4 4 = 0)
    (h8 : fld r.params 8 8 = 0) (ho : objFind s (fld r.params 0 4) = some o) :
    (o.body.length ≤ 4072 → Replies (.objGet fam r) s (fam.toNat * 256 + 2) r 0
      (leBytes 4 (fld r.params 0 4) ++ leBytes 2 o.attrs ++ leBytes 2 o.body.length ++ o.body) s) ∧
    (4072 < o.body.length → Replies (.objGet fam r) s (fam.toNat * 256 + 2) r 0x0011 [] s) := by
  have hlen : (objRecord s (fld r.params 0 4)).length = 8 + o.body.length := by simp [objRecord, ho]; omega
  have hc : objGetCheck s fam.toNat r = need (8 + o.body.length ≤ 4080) stBAD_LENGTH := by
    simp [objGetCheck, headed_of_addressed ha, idCheck_named ha hn hl, h4, h8, rsv, ho, hlen]
  have he : exec (.objGet fam r) s = done (generic fam.toNat 2 r (objGetOp fam.toNat r) s) := rfl
  constructor <;> intro hb <;> refine replies_of he ?_ <;> rw [generic_of_hasObjects hf]
  · rw [show decide (8 + o.body.length ≤ 4080) = true by simp; omega, need_true] at hc
    simp [objGetOp, hc, ha.2.2.2, h8, objRecord, ho]
  · rw [show decide (8 + o.body.length ≤ 4080) = false by simp; omega, need_false] at hc
    simp [objGetOp, hc]

/-- OBJ_STATE reads a function's record. -/
theorem replies_objState (hf : hasObjects fam.toNat = true) (ha : Addressed r uSYS 0)
    (hn : Named s fam.toNat (fld r.params 0 4)) (hl : r.params.length = 4)
    (ho : objFind s (fld r.params 0 4) = some o) :
    Replies (.objState fam r) s (fam.toNat * 256 + 6) r 0
      ([BitVec.ofNat 8 (stateCode o.st), 0] ++ leBytes 2 o.cost ++ leBytes 2 o.last ++ [0, 0] ++ leBytes 8 o.changed) s :=
  replies_runCmd hf ha rfl (objStateOp.eq_def fam.toNat r s) (by simp [idCheck_named ha hn hl, ho]) (by simp [ho])

end

section
variable {s : State} {r : Request} {fam : BitVec 8}
variable (hd : s.cmd.deferred = []) (hf : hasObjects fam.toNat = true) (ha : Addressed r uSYS 0)
  (hn : Named s fam.toNat (fld r.params 0 4))
include hd hf ha hn

/-- START answers what its state and admission checks find, or is accepted (R62, R64). -/
theorem replies_start (hl : r.params.length = 4) (hfn : isFn (fld r.params 0 4) = true) (hroom : LongRoom s r)
    (hw : requestWait (fam.toNat * 256 + 3) r s = none) {st : Nat} (hst : startState s (fld r.params 0 4) = st) :
    (st ≠ 0 → Replies (.startFn fam r) s (fam.toNat * 256 + 3) r st [] s) ∧
    (st = 0 → Accepts (.startFn fam r) s (fam.toNat * 256 + 3) r (some (fld r.params 0 4)) false
      (fnStart (fld r.params 0 4))) :=
  hst ▸ replies_runLong hf ha hroom rfl (startOp_eq fam.toNat r hd hw)
    (by simp [fnParams, idCheck_named ha hn hl, hfn])

/-- STOP answers what its state check finds, or is accepted (R64, R65). -/
theorem replies_stop (hl : r.params.length = 4) (hfn : isFn (fld r.params 0 4) = true) (hroom : LongRoom s r)
    {st : Nat} (hst : stopState s (fld r.params 0 4) = st) :
    (st ≠ 0 → Replies (.stopFn fam r) s (fam.toNat * 256 + 4) r st [] s) ∧
    (st = 0 → Accepts (.stopFn fam r) s (fam.toNat * 256 + 4) r (some (fld r.params 0 4)) false
      (fnStopping (fld r.params 0 4))) :=
  hst ▸ replies_runLong hf ha hroom rfl (stopOp_eq fam.toNat r hd) (by simp [fnParams, idCheck_named ha hn hl, hfn])

/-- OBJ_DELETE answers what its checks find. -/
theorem replies_delete_refused (hl : r.params.length = 4) (h6 : fam.toNat ≠ 6) {st : Nat} (hst : st ≠ 0)
    (hc : firstFail [need (objFind s (fld r.params 0 4)).isSome stOBJECT_UNKNOWN, changeState s (fld r.params 0 4),
      if isFn (fld r.params 0 4) then 0 else settingState s (fld r.params 0 4) []] = st) :
    Replies (.objDelete fam r) s (fam.toNat * 256 + 5) r st [] s :=
  replies_runCmd_refused hf ha rfl (objDeleteOp_eq fam.toNat r hd)
    (by simpa [idCheck_named ha hn hl, bne_iff_ne.2 h6] using hc) hst

/-- The commands that work on an object answer OBJECT_UNKNOWN where there is none (R66). -/
theorem replies_unknown (hl : r.params.length = 4) (ho : objFind s (fld r.params 0 4) = none) :
    Replies (.objState fam r) s (fam.toNat * 256 + 6) r 0x0102 [] s ∧
    (fam.toNat ≠ 6 → Replies (.objDelete fam r) s (fam.toNat * 256 + 5) r 0x0102 [] s) ∧
    (isFn (fld r.params 0 4) = true → LongRoom s r → Replies (.startFn fam r) s (fam.toNat * 256 + 3) r 0x0102 [] s ∧
      Replies (.stopFn fam r) s (fam.toNat * 256 + 4) r 0x0102 [] s) := by
  refine ⟨?_, fun h6 => ?_, fun hfn hroom => ⟨?_, ?_⟩⟩
  · exact replies_runCmd_refused hf ha rfl (objStateOp.eq_def fam.toNat r s)
      (by simp [idCheck_named ha hn hl, ho]) (by decide)
  · exact replies_delete_refused hd hf ha hn hl h6 (by decide) (by simp [ho, firstFail_fails])
  · have hw : requestWait (fam.toNat * 256 + 3) r s = none := by
      simp [requestWait, ho]
    exact (replies_start hd hf ha hn hl hfn hroom hw (by simp [startState, ho])).1 (by decide)
  · exact (replies_stop hd hf ha hn hl hfn hroom (by simp [stopState, ho])).1 (by decide)

/-- OBJ_DELETE removes a stopped function. -/
theorem replies_delete (hl : r.params.length = 4) (h6 : fam.toNat ≠ 6) {o : Object}
    (ho : objFind s (fld r.params 0 4) = some o) (hfn : isFn (fld r.params 0 4) = true)
    (hst : o.st = some .stopped) (hbusy : objBusy s (fld r.params 0 4) = false) :
    Replies (.objDelete fam r) s (fam.toNat * 256 + 5) r 0 [] (objDel (fld r.params 0 4) s) :=
  replies_runCmd hf ha rfl (objDeleteOp_eq fam.toNat r hd)
    (by simp [idCheck_named ha hn hl, bne_iff_ne.2 h6, ho, changeState, hst, hbusy, hfn]) (by simp [hfn])

end

section
variable {s : State} {r : Request} {fam : BitVec 8}
variable (hf : hasObjects fam.toNat = true) (ha : Addressed r uSYS 0) (hn : Known s fam.toNat (fld r.params 0 4))
include hf ha hn

/-- OBJ_LIST answers the identifiers of its type from its index on. -/
theorem replies_list (hl : r.params.length = 4) {ids : List Nat}
    (hi : ids = (s.objs.map (·.1)).filter fun k => k / 0x10000 = fld r.params 0 4 / 0x10000 ∧ fld r.params 0 4 ≤ k)
    (hlen : ids.length ≤ 1000) :
    Replies (.objList fam r) s (fam.toNat * 256 + 7) r 0 (leBytes 4 ids.length ++ ids.flatMap (leBytes 4)) s := by
  have hfam : fam.toNat * 256 + idType (fld r.params 0 4) = fld r.params 0 4 / 0x10000 := by
    have h := hn.ok
    simp only [idOk, idFamily, Bool.and_eq_true, beq_iff_eq] at h
    obtain ⟨⟨h, _⟩, _⟩ := h
    unfold idType
    omega
  have hids : (((objsOf s fam.toNat (idType (fld r.params 0 4))).map (·.1)).filter fun k => fld r.params 0 4 ≤ k) =
      ids := by
    simp only [hi, objsOf, hfam, List.filter_map, List.filter_filter]
    congr 1
    exact List.filter_congr fun e _ => by simp [Bool.and_comm, Bool.beq_eq_decide_eq]
  refine replies_runCmd hf ha rfl (objListOp.eq_def fam.toNat r s) ?_ ?_
  · simp [targetCheck_system ha, hl, hn.ok, hn.present]
  · simp only [hids, List.take_of_length_le hlen]

/-- The parameters of an OBJ_SET with a body `b` of a function whose checks pass. -/
structure SetsFn (s : State) (r : Request) (b : Bytes) : Prop where
  length : r.params.length = 8 + b.length
  body : b = sub r.params 8 b.length
  size : fld r.params 6 2 = b.length
  words : b.length % 4 = 0
  short : b.length ≤ 4072
  isFn : isFn (fld r.params 0 4) = true
  present : bodyAbsent s (fld r.params 0 4) b = false
  attrs : fld r.params 4 2 < 4
  check : fnCheck s (fld r.params 0 4) (fld r.params 4 2) b = 0

/-- What OBJ_SET leaves of a function it creates or replaces. -/
def objSetTo (s : State) (r : Request) (b : Bytes) : Object :=
  { (objFind s (fld r.params 0 4)).getD { st := some .stopped, changed := shortNow s } with
    attrs := fld r.params 4 2, body := b }

/-- OBJ_SET of a function is refused by the object's state alone, or puts the whole object (R60, R61). -/
theorem replies_set (hd : s.cmd.deferred = []) {b : Bytes} (hs : SetsFn s r b) :
    (changeState s (fld r.params 0 4) ≠ 0 →
      Replies (.objSet fam r) s (fam.toNat * 256 + 1) r (changeState s (fld r.params 0 4)) [] s) ∧
    (changeState s (fld r.params 0 4) = 0 → Replies (.objSet fam r) s (fam.toNat * 256 + 1) r 0 []
      (objPut (fld r.params 0 4) (objSetTo s r b) s)) := by
  obtain ⟨hlen, hb, hsize, h4, hshort, hfn, habs, hattr, hchk⟩ := hs
  have hpar : objSetParams s fam.toNat r = 0 := by
    simp [objSetParams, recordCheck, targetCheck_system ha, hn.ok, hn.present, hsize, ← hb, hlen, h4, hshort, hfn,
      habs, hattr, hchk]
  constructor <;> intro hc
  · exact replies_runCmd_refused hf ha rfl (objSetOp_eq fam.toNat r hd) (by simp [hpar, hfn]) hc
  · refine replies_runCmd hf ha rfl (objSetOp_eq fam.toNat r hd) (by simp [hpar, hfn, hc]) ?_
    simp only [setObject, hfn, if_true, hsize, ← hb]
    rfl

end

theorem effect_of_replies {i : Instr} {s w : State} {op st : Nat} {r : Request} {res : Bytes} {P : State → Prop}
    (h : Replies i s op r st res w) (hw : P w) : Effect i s fun u => ∃ w, u = reply op r st res w ∧ P w := by
  obtain ⟨u, he, hu⟩ := h
  exact ⟨u, he, w, hu, hw⟩

/-- Objects are set, read, listed and deleted as R59 to R61 and R66 say. -/
theorem objectCommands : Claims.ObjectCommands := by
  intro s r fam o hd ha f op id hf hok habs
  have named : (∀ x, objFind s id = some x → bodyAbsent s id x.body = false) → Named s f id :=
    fun h => ⟨⟨hok, habs⟩, h⟩
  have here : objFind s id = some o → bodyAbsent s id o.body = false → Named s f id := fun ho hb =>
    named fun x hx => by rw [ho] at hx; cases hx; exact hb
  refine ⟨fun hl h4 h8 ho hb => replies_objGet hf ha (here ho hb) hl h4 h8 ho,
    fun hl ho hb => replies_objState hf ha (here ho hb) hl ho,
    fun hl ho => replies_unknown hd hf ha (named fun x hx => by rw [ho] at hx; cases hx) hl ho, ?_, ?_, ?_⟩
  · exact fun hl ids hi hlen => replies_list hf ha ⟨hok, habs⟩ hl hi hlen
  · intro hl h6 ho hb hfn
    have hn := here ho hb
    have refused : ∀ st, changeState s id = st → st ≠ 0 → Replies (.objDelete fam r) s (op 5) r st [] s :=
      fun st hc hst => replies_delete_refused hd hf ha hn hl h6 hst (by
        rw [ho, Option.isSome_some, need_true, firstFail_zero, hc, firstFail_fails hst])
    refine ⟨fun hst hbusy => effect_of_replies (replies_delete hd hf ha hn hl h6 ho hfn hst hbusy)
        ⟨objFind_objDel_same id s, fun k hk => objFind_objDel_ne s hk, rfl⟩,
      fun hst => refused _ (by simp [changeState, ho, hst]) (by decide),
      fun hst => refused _ ?_ (by decide)⟩
    rcases hst with hst | hst <;> simp [changeState, ho, hst]
  · intro b hlen hb hsize h4 hshort hfn habs' hattr hchk
    have hs : SetsFn s r b := ⟨hlen, hb, hsize, h4, hshort, hfn, habs', hattr, hchk⟩
    obtain ⟨refused, sets⟩ := replies_set hf ha ⟨hok, habs⟩ hd hs
    have sets_to : ∀ x, objSetTo s r b = x → changeState s id = 0 → Effect (.objSet fam r) s fun u =>
        ∃ w, u = reply (op 1) r 0 [] w ∧ objFind w id = some x ∧ (∀ k, k ≠ id → objFind w k = objFind s k) ∧
          { w with objs := s.objs } = s := fun x hx hc =>
      effect_of_replies (sets hc) ⟨hx ▸ objFind_objPut_same id _ s, fun k hk => objFind_objPut_ne _ s hk, rfl⟩
    have found : ∀ x, objFind s id = x → objFind s (fld r.params 0 4) = x := fun _ h => h
    refine ⟨fun ho => sets_to _ (by rw [objSetTo, found _ ho]; rfl) (by simp [changeState, ho]),
      fun ho hst hbusy => sets_to _ (by rw [objSetTo, found _ ho]; rfl)
        (by simp [changeState, ho, hst, hbusy]),
      fun ho hst => ?_, fun ho hst => ?_⟩
    · have hc : changeState s id = 0x0014 := by simp [changeState, ho, hst]
      exact hc ▸ refused (by rw [hc]; decide)
    · have hc : changeState s id = 0x0017 := by rcases hst with hst | hst <;> simp [changeState, ho, hst]
      exact hc ▸ refused (by rw [hc]; decide)

/-! ### Replies and completions of long commands -/

/-- An output touches what has left, the frames held back and the counters, and nothing else. -/
theorem emit_frame (o : Out) (s : State) : ∃ c x n, emit o s = { s with cox := c, out := x, counters := n } := by
  unfold emit
  split
  · exact ⟨_, _, _, rfl⟩
  · cases o <;> exact ⟨_, _, _, rfl⟩

/-- A reply put in the FIFO, with or without its interrupt. -/
theorem fifoPut_frame (p : Bytes) (note : Bool) (s : State) : ∃ c x n, fifoPut p note s =
    { s with cmd := { s.cmd with replies := s.cmd.replies ++ [p] }, cox := c, out := x, counters := n } := by
  unfold fifoPut
  dsimp only
  split
  · exact emit_frame _ _
  · exact ⟨_, _, _, rfl⟩

theorem fifoPut_fields (p : Bytes) (note : Bool) (s : State) :
    (fifoPut p note s).cmd = { s.cmd with replies := s.cmd.replies ++ [p] } ∧ (fifoPut p note s).objs = s.objs ∧
      (fifoPut p note s).regs = s.regs := by
  obtain ⟨c, x, n, h⟩ := fifoPut_frame p note s
  rw [h]
  exact ⟨rfl, rfl, rfl⟩

/-- A completion on PCI Express with room in its FIFO: the command is no longer outstanding, its reply is queued, and no
object or register changes. -/
theorem completeLong_pcie {l : Long} {s : State} (hm : l.muted = false) (ht : l.transport = .pcie)
    (hr : s.cmd.replies.length < 64) (st : Nat) (res : Bytes) :
    (completeLong l st res s).cmd = { s.cmd with
      longs := s.cmd.longs.erase l
      replies := s.cmd.replies ++
        [replyPacket l.opcode l.sequence l.unit l.inst (0x80 + l.flags.toNat % 4) st res] } ∧
    (completeLong l st res s).objs = s.objs ∧ (completeLong l st res s).regs = s.regs := by
  have h : completeLong l st res s = fifoPut
      (replyPacket l.opcode l.sequence l.unit l.inst (0x80 + l.flags.toNat % 4) st res) (bit l.flags.toNat 1)
      { s with cmd := { s.cmd with longs := s.cmd.longs.erase l } } := by
    unfold completeLong queueReply
    rw [hm, ht]
    exact if_pos hr
  rw [h]
  exact fifoPut_fields _ _ _

/-- The fields of a reply packet's header (Packet format). -/
theorem fld_replyPacket (op : Nat) (seq : BitVec 16) (u i : BitVec 8) (fl st : Nat) (res : Bytes) :
    fld (replyPacket op seq u i fl st res) 0 2 = op % 2 ^ 16 ∧
    fld (replyPacket op seq u i fl st res) 2 2 = seq.toNat ∧
    fld (replyPacket op seq u i fl st res) 8 1 = fl % 2 ^ 8 ∧
    fld (replyPacket op seq u i fl st res) 10 2 = st % 2 ^ 16 := by
  have hs := seq.isLt
  refine ⟨?_, ?_, ?_, ?_⟩ <;> simp [replyPacket, fld, sub, leBytes, leNat] <;> omega

/-- A region function's ID is the one of its index. -/
theorem regionObj_idIndex {id : Nat} (h : idOk 6 id = true) : regionObj (idIndex id) = id := by
  simp only [idOk, Bool.and_eq_true, beq_iff_eq] at h
  obtain ⟨⟨h6, ht⟩, _⟩ := h
  have h1 : idType id = 1 := by
    by_contra hne
    simp [typeKind, hne] at ht
  unfold regionObj objId idIndex
  unfold idFamily at h6
  unfold idType at h1
  omega

section
variable {s : State} {id : Nat} {o : Object}

/-- START of a region takes nothing but its state: its cost is 0 and nothing begins (R62). -/
theorem fnStart_region (h6 : idFamily id = 6) (ho : objFind s id = some o) :
    fnStart id s = setCommitted (committed s + fnCost id o.body)
      (objPut id { o with st := some .starting, cost := fnCost id o.body, changed := shortNow s } s) := by
  simp [fnStart, ho, fnBegin, h6]

theorem fnCost_region (h6 : idFamily id = 6) (b : Bytes) : fnCost id b = 0 := by simp [fnCost, h6]

theorem releaseCost_of_find (ho : objFind s id = some o) :
    releaseCost id s = setCommitted (committed s - o.cost) (objPut id { o with cost := 0 } s) := by
  simp [releaseCost, ho]

theorem setFn_of_find (ho : objFind s id = some o) (st : FnState) :
    setFn id st s = objPut id { o with st := some st, changed := shortNow s } s := by
  simp [setFn, ho]

/-- A function reaches STOPPED with its STOP outstanding: its cost is given back and the command completes (R65). -/
theorem reachStopped_of_find (ho : objFind s id = some o) {l : Long} (hl : longOn s 4 id = some l) :
    ∃ w x, reachStopped id s = completeLong l stDONE (leBytes 8 (shortNow s)) w ∧ objFind w id = some x ∧
      x.st = some .stopped ∧ x.cost = 0 ∧ x.last = 0 ∧ committed w = (committed s - o.cost) % 1024 ∧
      w.cmd = s.cmd := by
  let x : Object := { o with cost := 0, st := some .stopped, changed := shortNow s }
  let w := objPut id { o with cost := 0 } s
  have h : setFn id .stopped (releaseCost id s) = objPut id x (setCommitted (committed s - o.cost) w) := by
    rw [releaseCost_of_find ho]
    have hw : objFind w id = some { o with cost := 0 } := objFind_objPut_same _ _ _
    exact setFn_of_find (s := setCommitted _ w) hw _
  refine ⟨objPut id { x with last := stDONE } (objPut id x (setCommitted (committed s - o.cost) w)),
    { x with last := stDONE }, ?_, objFind_objPut_same _ _ _, rfl, rfl, rfl, committed_setCommitted _ _, rfl⟩
  have hl' : longOn (objPut id x (setCommitted (committed s - o.cost) w)) 4 id = some l := hl
  unfold reachStopped
  rw [h]
  dsimp only
  rw [objFind_objPut_same, hl']
  rfl

/-- A long command with an object that finishes does what its function does (R50, R62, R65). -/
theorem longDone_function {l : Long} (hl : s.cmd.longs = [l]) (hobj : l.obj = some id) (ok : Bool) :
    longDone l.transport l.sequence ok s = functionDone l id ok s := by
  simp [longDone, hl, hobj]

/-- The STOP of a region finishes: the region is stopped, its cost given back, and one completion queued (R65). -/
theorem regionStop_completes (hid : idOk 6 id = true) (ho : objFind s id = some o) (hst : o.st = some .stopping)
    {l : Long} (hl : s.cmd.longs = [l]) (hobj : l.obj = some id) (hop : l.opcode = 0x0604) (hm : l.muted = false)
    (hr : s.cmd.replies.length < 64) (ht : l.transport = .pcie) (ok : Bool) :
    let u := functionDone l id ok s
    (∃ x, objFind u id = some x ∧ x.st = some .stopped ∧ x.cost = 0 ∧ x.last = 0) ∧
    committed u = committed s - o.cost ∧ u.cmd.longs = [] ∧
    ∃ p, u.cmd.replies = s.cmd.replies ++ [p] ∧ fld p 0 2 = 0x0604 ∧ fld p 10 2 = 0 := by
  have h6 : idFamily id = 6 := by simp only [idOk, Bool.and_eq_true, beq_iff_eq] at hid; exact hid.1.1
  have hlong : longOn s 4 id = some l := by simp [longOn, hl, hop, hobj]
  obtain ⟨w, x, hu, hx, hxst, hxcost, hxlast, hcom, hcmd⟩ := reachStopped_of_find ho hlong
  have hdone : functionDone l id ok s = completeLong l stDONE (leBytes 8 (shortNow s)) w := by
    rw [← hu]
    simp [functionDone, hop, h6, regionStopped, regionObj_idIndex hid, ho, hst]
  obtain ⟨hc', hobjs, hregs⟩ := completeLong_pcie (s := w) hm ht (by rwa [hcmd]) stDONE (leBytes 8 (shortNow s))
  obtain ⟨hop', _, _, hst'⟩ := fld_replyPacket l.opcode l.sequence l.unit l.inst (0x80 + l.flags.toNat % 4) stDONE
    (leBytes 8 (shortNow s))
  intro u
  have hu' : u = completeLong l stDONE (leBytes 8 (shortNow s)) w := hdone
  rw [hu']
  refine ⟨⟨x, by rw [objFind, hobjs]; exact hx, hxst, hxcost, hxlast⟩, ?_, by rw [hc', hcmd]; simp [hl],
    _, by rw [hc', hcmd], hop'.trans (by rw [hop]; norm_num), hst'⟩
  rw [committed, regF_congr hregs]
  exact hcom.trans (Nat.mod_eq_of_lt (lt_of_le_of_lt (Nat.sub_le _ _) (committed_lt s)))

end

/-- Functions start and stop by their state as R62 to R65 say. -/
theorem startAndStop : Claims.StartAndStop := by
  intro s r fam o hd ha f id hf hok habs hfn hlen ho hb hroom hw start stop
  have hn : Named s f id := ⟨⟨hok, habs⟩, fun x hx => by rw [ho] at hx; cases hx; exact hb⟩
  have starts : ∀ st, startState s id = st → (st ≠ 0 → start st) ∧ (st = 0 → _) := fun st hst =>
    replies_start hd hf ha hn hlen hfn hroom hw hst
  have stops : ∀ st, stopState s id = st → (st ≠ 0 → stop st) ∧ (st = 0 → _) := fun st hst =>
    replies_stop hd hf ha hn hlen hfn hroom hst
  have h6 : f = 6 → idFamily id = 6 := fun h => by
    simp only [idOk, Bool.and_eq_true, beq_iff_eq] at hok
    exact hok.1.1.trans h
  refine ⟨fun hst hbusy => ?_, fun hst => ?_, fun hst => ?_, fun hst hbusy => ?_, fun hst => ?_, fun hf6 => ?_, ?_⟩
  · have hs : startState s id = fnAdmit s id o := by simp [startState, ho, hst, hbusy]
    exact ⟨fun h => (starts _ hs).2 h, (starts _ hs).1⟩
  · exact (stops 0x0015 (by simp [stopState, ho, hst])).1 (by decide)
  · exact (starts 0x0014 (by simp [startState, ho, hst])).1 (by decide)
  · exact (stops 0 (by simp [stopState, ho, hst, hbusy])).2 rfl
  · rcases hst with hst | hst
    · exact ⟨(starts 0x0017 (by simp [startState, ho, hst])).1 (by decide),
        (stops 0x0017 (by simp [stopState, ho, hst])).1 (by decide)⟩
    · exact ⟨(starts 0x0017 (by simp [startState, ho, hst])).1 (by decide),
        (stops 0x0017 (by simp [stopState, ho, hst])).1 (by decide)⟩
  · intro u
    have hu : u = _ := fnStart_region (h6 hf6) ho
    rw [hu, fnCost_region (h6 hf6)]
    refine ⟨objFind_objPut_same _ _ _, ?_, fun k hk => objFind_objPut_ne _ s hk, rfl⟩
    rw [committed_setCommitted]
    exact Nat.mod_eq_of_lt (committed_lt s)
  · intro l ok hf6 hst hl hobj hop hm hr ht _
    have hid : idOk 6 id = true := hf6 ▸ hok
    exact ⟨_, rfl, by
      rw [← ht, longDone_function hl hobj]
      exact regionStop_completes hid ho hst hl hobj hop hm hr ht ok⟩

/-- Settles O10: the checks of the generic commands come first; what passes them reads, puts or removes the object, or
takes the function to its next state. -/
theorem objectsAndFunctions : Obligations.ObjectsAndFunctions := ⟨objectCommands, startAndStop⟩

end Sys2Proof.Machine
end

section
/-!
SUPPORT. The transports: what the doorbell, a datagram and a console frame queue or count, the round trip of COBS, and what a pop of the reply FIFO and a flush leave (02_commands.md, R34, R36 to R38, R46, R47).
-/
namespace Sys2Proof.Machine
open Sys2Proof

theorem unheld_of_no {s : State} (h : s.sec.held = .no) (f : State → State) : unheld f s = f s := by simp [unheld, h]

theorem satN_eq_min (m v : Nat) : satN m v = min m v := by
  unfold satN
  split <;> omega

/-- A saturating count of sixteen bits raised by one reads the new count; nothing but the register changes. -/
theorem regBump_half (u i o hi lo : Nat) (s : State) (h : hi = lo + 15) (h32 : hi < 32) :
    { regBump u i o hi lo 1 s with regs := s.regs } = s ∧
    regF (regBump u i o hi lo 1 s) u i o hi lo = min 0xFFFF (regF s u i o hi lo + 1) := by
  refine ⟨rfl, ?_⟩
  subst h
  have hw : lo + 15 - lo + 1 = 16 := by omega
  rw [regBump, regF_regPutF_same _ _ _ _ _ _ _ (by omega) h32, hw, satN_eq_min]
  exact Nat.mod_eq_of_lt (by omega)

/-! ### COBS -/

/-- A run shorter than a whole block and what follows it decode to the run, a zero where more follows, and the rest. -/
theorem cobsDecode_block {run rest r : Bytes} (f : Nat) (hl : run.length < 254) (hz : run.any (· == 0) = false)
    (h : cobsDecode f rest = some r) :
    cobsDecode (f + 1) (BitVec.ofNat 8 (run.length + 1) :: (run ++ rest)) =
      some (if rest = [] then run else run ++ 0 :: r) := by
  have hn : (BitVec.ofNat 8 (run.length + 1)).toNat = run.length + 1 := by
    rw [BitVec.toNat_ofNat]; omega
  have h255 : run.length ≠ 254 := by omega
  unfold cobsDecode
  simp only [hn, Nat.add_sub_cancel, List.take_left, List.drop_left, h, hz]
  rw [if_neg (by simp)]
  split <;> simp [h255]

/-- A whole block of 254 bytes and what follows it: no zero stands between. -/
theorem cobsDecode_whole {run rest r : Bytes} (f : Nat) (hl : run.length = 254) (hz : run.any (· == 0) = false)
    (h : cobsDecode f rest = some r) : cobsDecode (f + 1) (255 :: (run ++ rest)) =
      some (if rest = [] then run else run ++ r) := by
  have ht : (run ++ rest).take 254 = run := by rw [← hl, List.take_left]
  have hd : (run ++ rest).drop 254 = rest := by rw [← hl, List.drop_left]
  unfold cobsDecode
  simp only [show (255 : BitVec 8).toNat = 255 from rfl, show 255 - 1 = 254 from rfl, ht, hd, h, hz, hl]
  rw [if_neg (by simp)]
  split <;> rfl

theorem cobsGo_ne_nil (p run : Bytes) : cobsGo p run ≠ [] := by
  induction p generalizing run with
  | nil => simp [cobsGo]
  | cons b p ih =>
    unfold cobsGo
    split
    · simp
    · split
      · simp
      · exact ih _

/-- Decoding what was encoded after a run of non-zero bytes gives the run and the bytes. -/
theorem cobsDecode_cobsGo (p run : Bytes) (f : Nat) (hl : run.length < 254) (hz : run.any (· == 0) = false)
    (hf : p.length < f) : cobsDecode (f + 1) (cobsGo p run) = some (run ++ p) := by
  induction p generalizing run f with
  | nil =>
    obtain ⟨g, rfl⟩ : ∃ g, f = g + 1 := ⟨f - 1, by simp at hf; omega⟩
    simpa [cobsGo] using cobsDecode_block (rest := []) (g + 1) hl hz rfl
  | cons b p ih =>
    obtain ⟨g, rfl⟩ : ∃ g, f = g + 1 := ⟨f - 1, by simp at hf; omega⟩
    have hg : p.length < g := by simpa using hf
    have hrest : cobsDecode (g + 1) (cobsGo p []) = some p := ih [] g (by simp) rfl hg
    unfold cobsGo
    split
    next h0 =>
      rw [List.cons_append, cobsDecode_block _ hl hz hrest, if_neg (cobsGo_ne_nil p []), h0]
    next h0 =>
      have hz' : (run ++ [b]).any (· == 0) = false := by
        simp only [List.any_append, hz, Bool.false_or]
        simpa using h0
      split
      next hfull =>
        rw [List.cons_append, cobsDecode_whole _ (by simp [hfull]) hz' hrest, if_neg (cobsGo_ne_nil p [])]
        simp
      next hfull =>
        rw [ih (run ++ [b]) (g + 1) (by simp; omega) hz' (by omega)]
        simp

/-! ### CRC-16 -/

theorem crcStep_lt (poly : Nat) (hp : poly < 2 ^ 16) (k r : Nat) (hr : r < 2 ^ 16) : crcStep 16 poly k r < 2 ^ 16 := by
  induction k generalizing r with
  | zero => exact hr
  | succ k ih =>
    have h : r * 2 % 2 ^ 16 < 2 ^ 16 := Nat.mod_lt _ (by decide)
    unfold crcStep
    split
    · exact ih _ (Nat.xor_lt_two_pow h hp)
    · exact ih _ h

theorem crc16_lt (p : Bytes) : crc16 p < 2 ^ 16 := by
  suffices h : ∀ r < 2 ^ 16, p.foldl (fun r b => crcStep 16 0x1021 8 (Nat.xor r (b.toNat * 2 ^ (16 - 8)))) r < 2 ^ 16 by
    exact h _ (by decide)
  induction p with
  | nil => exact fun r hr => hr
  | cons b p ih =>
    intro r hr
    have hb : b.toNat * 2 ^ (16 - 8) < 2 ^ 16 := by have := b.isLt; omega
    exact ih _ (crcStep_lt _ (by decide) 8 _ (Nat.xor_lt_two_pow hr hb))

theorem length_lt_cobsGo (p run : Bytes) : p.length + run.length < (cobsGo p run).length := by
  induction p generalizing run with
  | nil => simp [cobsGo]
  | cons b p ih =>
    have h0 := ih []
    have h1 := ih (run ++ [b])
    unfold cobsGo
    split
    · simp at h0 ⊢; omega
    · split
      · simp at h0 ⊢; omega
      · simp at h1 ⊢; omega

/-- A console frame decodes to what it encodes. -/
theorem cobsDecode_frame (d : Bytes) : cobsDecode ((cobsGo d []).length + 1) (cobsGo d []) = some d :=
  cobsDecode_cobsGo d [] _ (by simp) rfl (length_lt_cobsGo d [])

/-! ### What arrives -/

/-- A field inside word `k` of a string of words. -/
theorem fld_in_word (ws : List Nat) {k j w : Nat} (hk : k < ws.length) (hj : j + w ≤ 4) :
    fld (ws.flatMap (leBytes 4)) (4 * k + j) w = fld (leBytes 4 ws[k]) j w := by
  induction ws generalizing k with
  | nil => simp at hk
  | cons v ws ih =>
    rw [List.flatMap_cons]
    cases k with
    | zero =>
      rw [Nat.mul_zero, Nat.zero_add, fld_append_left _ _ (by simpa using hj)]
      rfl
    | succ k =>
      have h4 : 4 * (k + 1) + j = (leBytes 4 v).length + (4 * k + j) := by simp; omega
      rw [h4, fld_append_right]
      exact ih (by simpa using hk)

/-- Word `k` of a string of words. -/
theorem fld_word (ws : List Nat) {k : Nat} (hk : k < ws.length) :
    fld (ws.flatMap (leBytes 4)) (4 * k) 4 = ws[k] % 2 ^ 32 :=
  (fld_in_word ws hk (j := 0) (by decide)).trans (fld_leBytes 4 _)

section
variable {s : State}

/-- The doorbell queues the words of the request window while there is room (R36). -/
theorem doorbellOp_room (len : Nat) (h : s.cmd.reqPcie.length < 16) : ∃ q : RawReq,
    doorbellOp len s = { s with cmd := { s.cmd with reqPcie := s.cmd.reqPcie ++ [q] } } ∧ q.words = some len ∧
    ∀ k, k < min len 1024 → fld q.data (4 * k) 4 = (spGet 0 s.cmd.reqWindow k).toNat := by
  let ws := (List.range (min len 1024)).map fun k => (spGet 0 s.cmd.reqWindow k).toNat
  refine ⟨{ data := ws.flatMap (leBytes 4), words := some len }, ?_, rfl, fun k hk => ?_⟩
  · unfold doorbellOp
    rw [if_neg (by omega), List.flatMap_map]
  · rw [fld_word ws (by simpa [ws] using hk)]
    simp only [ws, List.getElem_map, List.getElem_range]
    exact Nat.mod_eq_of_lt (BitVec.isLt _)

/-- A full queue only sets the doorbell's overflow flag (R37). -/
theorem doorbellOp_full (len : Nat) (h : 16 ≤ s.cmd.reqPcie.length) :
    doorbellOp len s = regPutF uSYS 0 0x104 31 31 1 s := by
  unfold doorbellOp
  rw [if_pos h]

/-- A datagram on a port that serves requests is queued while there is room and else counted (R34). -/
theorem datagramOp_serves (source : Nat) (p : Bytes) (hen : regF s uSYS 0 0x110 1 1 = 1) (ha : mgmtAddressed s = true)
    (hup : regF s uETH 48 0x004 31 31 = 1) : datagramOp source p s =
      if 16 ≤ s.cmd.reqEth.length then regBump uSYS 0 0x120 15 0 1 s
      else { s with cmd := { s.cmd with reqEth := s.cmd.reqEth ++
        [{ data := p, words := if p.length % 4 = 0 then some (p.length / 4) else none, source := source }] } } := by
  unfold datagramOp
  rw [if_neg (by simp [hen, ha, hup])]

/-- A console frame that decodes to nothing whole, fails its CRC or finds no room is counted (R34). -/
theorem uartOp_drops (p : Bytes) (hen : regF s uSYS 0 0x110 2 2 = 1)
    (h : (cobsDecode (p.length + 1) p).all (fun d =>
      d.length < 2 || fld d (d.length - 2) 2 != crc16 (d.take (d.length - 2)) || 16 ≤ s.cmd.reqUart.length) = true) : uartOp p s = regBump uSYS 0 0x120 31 16 1 s := by
  unfold uartOp
  rw [if_neg (by omega)]
  cases hd : cobsDecode (p.length + 1) p with
  | none => rfl
  | some d =>
    rw [hd] at h
    have hor : d.length < 2 ∨ fld d (d.length - 2) 2 ≠ crc16 (d.take (d.length - 2)) ∨
        16 ≤ s.cmd.reqUart.length := by
      simpa [or_assoc] using h
    exact if_pos hor

/-- A console frame of a packet and its CRC queues the packet while there is room (R34). -/
theorem uartOp_queues (p : Bytes) (hen : regF s uSYS 0 0x110 2 2 = 1) (h : s.cmd.reqUart.length < 16) :
    uartOp (cobsGo (p ++ leBytes 2 (crc16 p)) []) s = { s with cmd := { s.cmd with reqUart := s.cmd.reqUart ++
      [{ data := p, words := if p.length % 4 = 0 then some (p.length / 4) else none }] } } := by
  have hl : (p ++ leBytes 2 (crc16 p)).length - 2 = p.length := by simp
  have hcrc : fld (p ++ leBytes 2 (crc16 p)) p.length 2 = crc16 p := by
    rw [← Nat.add_zero p.length, fld_append_right, fld_leBytes]
    exact Nat.mod_eq_of_lt (crc16_lt p)
  unfold uartOp
  rw [if_neg (by omega), cobsDecode_frame]
  dsimp only
  rw [hl, List.take_left, hcrc, if_neg (by simp; omega)]

/-! ### The reply FIFO -/

theorem rplPopOp_alone {p : Bytes} {rest : List Bytes} (h : s.cmd.replies = p :: rest) (hb : s.cmd.backlog = []) :
    rplPopOp s = answer (fld p 0 4) { s with cmd := { s.cmd with
      replies := rest, replyWindow := p, lastSeq := BitVec.ofNat 16 (fld p 2 2) } } := by
  simp only [rplPopOp, h, backlogIn, hb]

/-- A pop that leaves room for the oldest completion that waits outside the FIFO (log 106). -/
theorem rplPopOp_backlog {p d : Bytes} {rest : List Bytes} {note : Bool} {more : List (Bytes × Bool)}
    (h : s.cmd.replies = p :: rest) (hb : s.cmd.backlog = (d, note) :: more) :
    rplPopOp s = answer (fld p 0 4) (fifoPut d note { s with cmd := { s.cmd with
      replies := rest, backlog := more, replyWindow := p, lastSeq := BitVec.ofNat 16 (fld p 2 2) } }) := by
  simp only [rplPopOp, h, backlogIn, hb]

/-- The idle reply's fields (R47). -/
theorem idleReply_fields (s : State) : (idleReply s).length = 16 ∧ fld (idleReply s) 0 2 = 0 ∧
    fld (idleReply s) 2 2 = s.cmd.lastSeq.toNat ∧ fld (idleReply s) 4 2 = 4 ∧ fld (idleReply s) 8 1 = 0x40 ∧
    fld (idleReply s) 10 2 = 2 ∧ fld (idleReply s) 2 2 * 0x10000 = fld (idleReply s) 0 4 := by
  obtain ⟨h0, h2, h8, h10⟩ := fld_replyPacket 0 s.cmd.lastSeq 0 0 0x40 stNOT_READY []
  refine ⟨?_, h0, h2, ?_, h8, h10, ?_⟩
  · simp [idleReply, replyPacket, zeros, fit, sub, roundUp]
  · simp [idleReply, replyPacket, fld, sub, leBytes, leNat, roundUp]
  · simp [idleReply, replyPacket, fld, sub, leBytes, leNat]
    omega

end

/-- Settles O7: each transport's operation appends to its own queue or counts, a pop moves the FIFO on by one, and a flush
empties one transport; the console's frames decode by the round trip of COBS. -/
theorem transportQueues : Obligations.TransportQueues := by
  unfold Obligations.TransportQueues
  intro s len source p rest hheld words muted
  have held : ∀ f, unheld f s = f s := unheld_of_no hheld
  refine ⟨fun h => ?_, fun h => ?_, fun hen ha hup h => ?_, fun hen ha hup h => ?_, fun hb hen h => ?_, fun hb hen h => ?_,
    fun h hb => ?_, fun d note more h hb => ?_, fun h => ?_, ?_, ?_, ?_⟩
  · obtain ⟨q, hq, hw, hd⟩ := doorbellOp_room len.toNat h
    exact ⟨doorbellOp len.toNat s, by rw [exec_cmdDoorbell, execCmdDoorbell, held]; rfl,
      ⟨q, hw, hd, by rw [hq]⟩, by rw [hq]⟩
  · refine ⟨doorbellOp len.toNat s, by rw [exec_cmdDoorbell, execCmdDoorbell, held]; rfl, ?_⟩
    rw [doorbellOp_full _ h]
    exact ⟨regF_regPutF_same _ _ _ _ _ _ _ (by decide) (by decide), rfl⟩
  · refine ⟨datagramOp source p s, by rw [exec_mgmtDatagram, execMgmtDatagram, held]; rfl, ?_⟩
    rw [datagramOp_serves source p hen ha hup, if_neg (by omega)]
    exact ⟨rfl, rfl⟩
  · refine ⟨datagramOp source p s, by rw [exec_mgmtDatagram, execMgmtDatagram, held]; rfl, ?_⟩
    rw [datagramOp_serves source p hen ha hup, if_pos h]
    exact regBump_half _ _ _ _ _ _ rfl (by decide)
  · refine ⟨uartOp (cobsGo (p ++ leBytes 2 (crc16 p)) []) s,
      by rw [exec_uartFrame, execUartFrame, held, if_neg hb]; rfl, ?_⟩
    rw [uartOp_queues p hen h]
    exact ⟨rfl, rfl⟩
  · refine ⟨uartOp p s, by rw [exec_uartFrame, execUartFrame, held, if_neg hb]; rfl, ?_⟩
    rw [uartOp_drops p hen h]
    exact regBump_half _ _ _ _ _ _ rfl (by decide)
  · refine ⟨rplPopOp s, by rw [exec_sysCmdRplPop, execSysCmdRplPop, held]; rfl, ?_⟩
    rw [rplPopOp_alone h hb]
    exact ⟨rfl, rfl, rfl⟩
  · refine ⟨rplPopOp s, by rw [exec_sysCmdRplPop, execSysCmdRplPop, held]; rfl, ?_⟩
    rw [rplPopOp_backlog h hb]
    exact ⟨rfl, (fifoPut_fields _ _ _).1⟩
  · refine ⟨rplPopOp s, by rw [exec_sysCmdRplPop, execSysCmdRplPop, held]; rfl, ?_⟩
    obtain ⟨h1, h2, h3, h4, h5, h6, h7⟩ := idleReply_fields s
    have hp : rplPopOp s = answer (fld (idleReply s) 2 2 * 0x10000)
        { s with cmd := { s.cmd with replyWindow := idleReply s } } := by simp [rplPopOp, h]
    rw [hp]
    generalize idleReply s = w at h1 h2 h3 h4 h5 h6 h7 ⊢
    exact ⟨h1, h2, h3, h4, h5, h6, h7, rfl⟩
  · exact ⟨flushOp .pcie s, rfl, rfl, rfl, rfl, rfl, rfl, rfl, rfl, rfl⟩
  · exact ⟨flushOp .eth s, rfl, rfl, rfl, rfl⟩
  · exact ⟨flushOp .uart s, rfl, rfl, rfl, rfl⟩

end Sys2Proof.Machine
end

section
/-!
SUPPORT. The command interface takes requests in turn, and the queries, CANCEL and completions of the system family
(02_commands.md, R40, R42, R50, R54, R55; 03_boot_identity.md, R100).
-/
namespace Sys2Proof.Machine
open Sys2Proof

/-! ### The rotation -/

section
variable {s : State} {t : Transport} {q : RawReq} {rest : List RawReq}

/-- What the interface does with the request it takes: it waits for its memory, or it runs. -/
def takeRequest (s : State) (t : Transport) (q : RawReq) (rest : List RawReq) : State :=
  match (if packetCheck s t q = 0 then requestWait (fld q.data 0 2) (packetRequest t q) s else none) with
  | some v => v
  | none => runRequest t q { s with cmd := takeOff t rest s.cmd }

theorem takeFrom_skips {before after : List Transport} (hb : ∀ x ∈ before, waitingOn s x = [])
    (hq : waitingOn s t = q :: rest) : takeFrom (before ++ t :: after) s = takeRequest s t q rest := by
  induction before with
  | nil =>
    rw [List.nil_append, takeFrom, hq]
    rfl
  | cons x before ih =>
    rw [List.cons_append, takeFrom, hb x (by simp)]
    exact ih fun y hy => hb y (by simp [hy])

/-- The transports in the order the rotation looks at them. -/
def turnOrder (turn : Nat) : List Transport := (List.range 3).map fun k => transportOf ((turn + k) % 3)

/-- How many transports the rotation looks at before `t`. -/
def turnsBefore (turn : Nat) (t : Transport) : Nat := (transportNo t + 3 - turn) % 3

/-- The rotation reaches each transport after those that are nearer to its turn. -/
theorem turnOrder_split {turn : Nat} (h : turn < 3) (t : Transport) : ∃ before after,
    turnOrder turn = before ++ t :: after ∧ ∀ x ∈ before, turnsBefore turn x < turnsBefore turn t := by
  refine ⟨(turnOrder turn).take (turnsBefore turn t), (turnOrder turn).drop (turnsBefore turn t + 1), ?_⟩
  interval_cases turn <;> cases t <;> decide

theorem requestTaken_eq (hturn : s.cmd.turn < 3) (hq : waitingOn s t = q :: rest)
    (hb : ∀ x, turnsBefore s.cmd.turn x < turnsBefore s.cmd.turn t → waitingOn s x = []) :
    requestTaken s = takeRequest s t q rest := by
  obtain ⟨before, after, he, hlt⟩ := turnOrder_split hturn t
  rw [requestTaken, show ((List.range 3).map fun k => transportOf ((s.cmd.turn + k) % 3)) = _ from he]
  exact takeFrom_skips (fun x hx => hb x (hlt x hx)) hq

theorem takeRequest_refused {st : Nat} (hc : packetCheck s t q = st) (hst : st ≠ 0) : takeRequest s t q rest =
    reply (fld q.data 0 2) (packetRequest t q) st [] { s with cmd := takeOff t rest s.cmd } := by
  have hw : packetCheck { s with cmd := takeOff t rest s.cmd } t q = st := hc
  unfold takeRequest runRequest
  rw [hc, if_neg hst]
  dsimp only
  rw [hw, if_pos hst]

theorem takeRequest_waits {v : State} (hc : packetCheck s t q = 0)
    (hv : requestWait (fld q.data 0 2) (packetRequest t q) s = some v) : takeRequest s t q rest = v := by
  unfold takeRequest
  rw [if_pos hc, hv]

theorem takeRequest_runs {f : Request → State → Res} {u : State} (hc : packetCheck s t q = 0)
    (hv : requestWait (fld q.data 0 2) (packetRequest t q) s = none) (hf : commandOf (fld q.data 0 2) = some f)
    (hu : f (packetRequest t q) { s with cmd := takeOff t rest s.cmd } = .next u) : takeRequest s t q rest = u := by
  have hw : packetCheck { s with cmd := takeOff t rest s.cmd } t q = 0 := hc
  unfold takeRequest runRequest
  rw [if_pos hc, hv]
  dsimp only
  rw [hw, if_neg (by simp), hf]
  dsimp only
  rw [hu]

/-! ### The checks of a packet, in their order (R40, R100) -/

/-- The packet's length field agrees with the length it came with. -/
def WholePacket (q : RawReq) : Prop :=
  4 ≤ fld q.data 4 2 ∧ fld q.data 4 2 ≤ 1024 ∧ q.words = some (fld q.data 4 2)

theorem packetCheck_length (h : ¬ WholePacket q) : packetCheck s t q = 0x0011 := by
  have hb : (4 ≤ fld q.data 4 2 && fld q.data 4 2 ≤ 1024 && q.words == some (fld q.data 4 2)) = false := by
    simpa [WholePacket, and_assoc] using h
  unfold packetCheck
  dsimp only
  rw [hb, need_false, firstFail_fails (by decide)]

/-- The checks after the length. -/
theorem packetCheck_whole (h : WholePacket q) : packetCheck s t q = firstFail [
    need (fld q.data 9 1 == 1) stVERSION_UNSUPPORTED,
    need (fld q.data 8 1 < 4) stBAD_PARAM, need (commandOf (fld q.data 0 2)).isSome stBAD_OPCODE,
    need (familyAllowed s t (fld q.data 0 2 / 256)) stNOT_AUTHORISED, gateStatus s (fld q.data 0 2)] := by
  obtain ⟨h4, h1024, hw⟩ := h
  simp [packetCheck, h4, h1024, hw]

end

/-- Requests are taken in turn and checked in order as R40, R42 and R100 say. -/
theorem requestsAreTakenInTurn : Claims.RequestsAreTakenInTurn := by
  intro s t q rest hheld hturn hq hbefore w d op r refused whole
  have htaken : execRequestTaken s = done (takeRequest s t q rest) := by
    rw [execRequestTaken, unheld_of_no hheld, requestTaken_eq hturn hq hbefore]
  have refuse : ∀ st, packetCheck s t q = st → st ≠ 0 → refused st := fun st hc hst =>
    ⟨_, htaken, takeRequest_refused hc hst⟩
  have check : whole → packetCheck s t q = _ := packetCheck_whole
  refine ⟨fun h => refuse _ (packetCheck_length h) (by decide), fun h hv => refuse _ ?_ (by decide),
    fun h hv hf => refuse _ ?_ (by decide), fun h hv hf hc => refuse _ ?_ (by decide), fun f h hv hfl hc => ?_⟩
  · rw [check h, show (fld q.data 9 1 == 1) = false by simpa using hv, need_false, firstFail_fails (by decide)]
  · rw [check h, show (fld q.data 9 1 == 1) = true by simpa using hv, need_true, firstFail_zero,
      show decide (fld q.data 8 1 < 4) = false by simpa using hf, need_false, firstFail_fails (by decide)]
  · simp [check h, show fld q.data 9 1 = 1 from hv, show fld q.data 8 1 < 4 from hf,
      show commandOf (fld q.data 0 2) = none from hc, firstFail_fails]
  · have known : packetCheck s t q =
        firstFail [need (familyAllowed s t (op / 256)) stNOT_AUTHORISED, gateStatus s op] := by
      simp [check h, show fld q.data 9 1 = 1 from hv, show fld q.data 8 1 < 4 from hfl,
        show commandOf (fld q.data 0 2) = some f from hc, op, d]
    refine ⟨fun ha => refuse _ ?_ (by decide), fun ha => ?_⟩
    · rw [known, ha, need_false, firstFail_fails (by decide)]
    · have gated : packetCheck s t q = gateStatus s op := by
        rw [known, ha, need_true, firstFail_zero, firstFail_singleton]
      refine ⟨fun hg hb => refuse _ ?_ (by decide), fun hg hb => refuse _ ?_ (by decide), fun hg => ?_⟩
      · simp [gated, gateStatus, hg, hb]
      · simp [gated, gateStatus, hg, hb]
      · have h0 : packetCheck s t q = 0 := by
          rw [gated, gateStatus]
          rcases hg with hg | hg
          · rw [if_pos hg]
          · rw [if_neg (show bootState s ≠ 8 by omega), if_neg (show bootState s ≠ 9 by omega), ite_self]
        refine ⟨fun hw => ?_, fun v hv => ⟨_, htaken, takeRequest_waits h0 hv⟩⟩
        obtain ⟨u, hu, _⟩ := keep_commandOf hc r (Keep.refl w)
        exact ⟨u, hu, by rw [exec_requestTaken, htaken, takeRequest_runs h0 hw hc hu]; rfl⟩

/-! ### The queries -/

theorem replies_of_runCmd {i : Instr} {s w : State} {op chk st : Nat} {r : Request} {u n : Nat} {res : Bytes}
    {act : State → Nat × Bytes × State} {f : State} (ha : Addressed r u n) (he : exec i s = done f)
    (hf : f = runCmd op r chk act s) (hc : chk = 0) (hact : act s = (st, res, w)) : Replies i s op r st res w :=
  replies_of he (by rw [hf, runCmd_runs (by rw [headed_of_addressed ha, hc]) ha.2.2.2, hact])

theorem replies_of_runCmd_refused {i : Instr} {s : State} {op chk st : Nat} {r : Request} {u n : Nat}
    {act : State → Nat × Bytes × State} {f : State} (ha : Addressed r u n) (he : exec i s = done f)
    (hf : f = runCmd op r chk act s) (hc : chk = st) (hst : st ≠ 0) : Replies i s op r st [] s := by
  subst hc
  exact replies_of he (by rw [hf, runCmd_refused (by rwa [headed_of_addressed ha]), headed_of_addressed ha])

/-- The nine registers of CAPS as words. -/
def capWords (s : State) : List Nat := (List.range 9).map fun k => capReg s (4 * k)

theorem getElem_capWords (s : State) {k : Nat} (h : k < (capWords s).length) : (capWords s)[k] = capReg s (4 * k) := by
  simp [capWords]

theorem capReg_ledger (s : State) : capReg s 32 = committed s * 2 ^ 20 + spare s * 2 ^ 10 + available s := by
  simp [capReg]

/-- The ledger fits its register: its three parts are below ten bits each. -/
theorem ledger_lt (s : State) : committed s * 2 ^ 20 + spare s * 2 ^ 10 + available s < 2 ^ 32 := by
  have h1 := committed_lt s
  have h2 : spare s < 1024 := regF_lt _ _ _ _ _ _
  have h3 : available s ≤ 64 * 12 := by
    have hl := List.length_filter_le (fun n => !bit (failedMask s) n) (List.range (crewCount s.part))
    have hn : crewCount s.part ≤ 12 := by cases s.part <;> decide
    rw [List.length_range] at hl
    unfold available crewCapacity
    omega
  omega

theorem fld_high_half (v : Nat) : fld (leBytes 4 v) 2 2 = v / 65536 % 65536 := by
  simp [fld, sub, leBytes, leNat]
  omega

theorem fld_low_half (v : Nat) : fld (leBytes 4 v) 0 2 = v % 65536 := by
  simp [fld, sub, leBytes, leNat]
  omega

/-- CAPS: the part's number, its crews and the ledger stand in the nine registers (R21, R22). -/
theorem caps_fields (s : State) : let res := (capWords s).flatMap (leBytes 4)
    res.length = 36 ∧
    fld res 2 2 = (match s.part with | .yd4460 => 0x4460 | .yd4440 => 0x4440 | .yd4420 => 0x4420) ∧
    fld res 12 2 = 2 ^ crewCount s.part - 1 ∧
    fld res 32 4 = committed s * 2 ^ 20 + spare s * 2 ^ 10 + available s := by
  intro res
  have hlen : (capWords s).length = 9 := by simp [capWords]
  refine ⟨by simp [res, capWords, List.length_flatMap, Function.comp_def], ?_, ?_, ?_⟩
  · have h := fld_in_word (capWords s) (k := 0) (j := 2) (w := 2) (by omega) (by decide)
    have hmaj := (Config.siliconMajor s.part).isLt
    have hmin := (Config.siliconMinor s.part).isLt
    rw [getElem_capWords, fld_high_half] at h
    refine h.trans ?_
    simp only [capReg, Nat.mul_zero, if_true]
    cases hp : s.part <;> rw [hp] at hmaj hmin <;> dsimp only <;> omega
  · have h := fld_in_word (capWords s) (k := 3) (j := 0) (w := 2) (by omega) (by decide)
    rw [getElem_capWords, fld_low_half] at h
    refine h.trans ?_
    have hcap : capReg s (4 * 3) = failedMask s * 0x10000 + (2 ^ crewCount s.part - 1) := by simp [capReg]
    rw [hcap]
    cases s.part <;> simp only [crewCount] <;> omega
  · have h := fld_word (capWords s) (k := 8) (by omega)
    rw [getElem_capWords, capReg_ledger, Nat.mod_eq_of_lt (ledger_lt s)] at h
    exact h

section
variable {s : State} {r : Request}

theorem replies_caps (ha : Addressed r uSYS 0) (hp : r.params = []) :
    Replies (.capsCmd r) s 0x0140 r 0 ((capWords s).flatMap (leBytes 4)) s :=
  replies_of_runCmd ha rfl (capsOp.eq_def r s) (by simp [targetCheck_system ha, hp])
    (by simp only [capWords, List.flatMap_map])

theorem replies_echo (ha : Addressed r uSYS 0) : Replies (.echoCmd r) s 0x0141 r 0 r.params s :=
  replies_of_runCmd ha rfl (echoOp.eq_def r s) (targetCheck_system ha) rfl

variable (ha : Addressed r uSYS 0) (hl : r.params.length = 4) (ht : fld r.params 2 1 < 3) (hz : fld r.params 3 1 = 0)
include ha hl ht hz

theorem queryCheck_passes : queryCheck s r = 0 := by
  simp [queryCheck, targetCheck_system ha, hl, ht, hz, rsv]

/-- CMD_QUERY and CANCEL of a sequence that is not outstanding. -/
theorem replies_query_none (hq : queried s r.params = none) :
    Replies (.cmdQuery r) s 0x0142 r 0 (zeros 4) s ∧ Replies (.cancelCmd r) s 0x0143 r 0x0012 [] s := by
  have hc : cancelCheck s r = 0x0012 := by simp [cancelCheck, queryCheck_passes ha hl ht hz, hq]
  refine ⟨replies_of_runCmd ha rfl (cmdQueryOp.eq_def r s) (queryCheck_passes ha hl ht hz) (by simp [hq]),
    replies_of_runCmd_refused ha rfl (cancelOp_of_none hq) ?_ (by decide)⟩
  rw [headed_of_addressed ha, hc]

/-- CMD_QUERY of an outstanding sequence, and CANCEL of one that cannot be cancelled, or of a transfer (R54, R55). -/
theorem replies_query_some {l : Long} (hq : queried s r.params = some l) :
    Replies (.cmdQuery r) s 0x0142 r 0 ([1, BitVec.ofNat 8 (b2n l.cancellable)] ++ leBytes 2 l.opcode) s ∧
    (l.cancellable = false → Replies (.cancelCmd r) s 0x0143 r 0x0017 [] s) ∧
    (l.cancellable = true → l.opcode = 0x0640 ∨ l.opcode = 0x0840 →
      Effect (.cancelCmd r) s fun u => u = completeLong l 0x0104 [] (reply 0x0143 r 0 [] s)) := by
  have hc : cancelCheck s r = need (l.cancellable && (l.opcode != 0x0740 || (powerCancel l s).1)) stBUSY := by
    simp [cancelCheck, queryCheck_passes ha hl ht hz, hq]
  refine ⟨replies_of_runCmd ha rfl (cmdQueryOp.eq_def r s) (queryCheck_passes ha hl ht hz) (by simp [hq]),
    fun hcan => ?_, fun hcan hop => ⟨cancelOp r s, rfl, ?_⟩⟩
  · have hb : cancelCheck s r = 0x0017 := by rw [hc, hcan]; rfl
    refine replies_of_runCmd_refused ha rfl ((cancelOp_of_some hq).trans (if_neg ?_)) ?_ (by decide)
    · rw [headed_of_addressed ha, hb]; simp
    · rw [headed_of_addressed ha, hb]
  · have hcut : ∀ w, cutShort l w = w := fun w => by rcases hop with h | h <;> simp [cutShort, h]
    have hpass : cancelCheck s r = 0 := by rcases hop with h | h <;> simp [hc, hcan, h]
    rw [cancelOp_of_some hq, if_pos ⟨by rw [headed_of_addressed ha, hpass], by simp [ha.2.2.2]⟩, hcut]

end

/-- A completion of a command that is not outstanding does nothing. -/
theorem longDone_of_none {s : State} {t : Transport} {q : BitVec 16} (ok : Bool)
    (h : ∀ l ∈ s.cmd.longs, l.transport = t → l.sequence ≠ q) : longDone t q ok s = s := by
  have hn : (s.cmd.longs.find? fun l => l.transport == t && l.sequence == q) = none :=
    List.find?_eq_none.2 fun l hl => by simpa using h l hl
  unfold longDone
  rw [hn]

/-- ATTEST finishes with its report, or fails (R50, R109). -/
theorem longDone_attest {s : State} {l : Long} (hl : s.cmd.longs = [l]) (hobj : l.obj = none) (hop : l.opcode = 0x0846)
    (ok : Bool) : ∃ res, longDone l.transport l.sequence ok s = completeLong l (if ok then 0 else 0x0040) res s := by
  cases ok
  · exact ⟨[], by simp [longDone, hl, hobj, hop, ownEvent, cutShort]⟩
  · exact ⟨reportBytes l.params s ++ sub (Config.signReport (reportBytes l.params s)) 0 3373 ++ zeros 3,
      by simp [longDone, hl, hobj, hop, ownEvent, workDone, attestDone]⟩

/-- The queries and CANCEL answer as R22, R54 and R55 say. -/
theorem queriesAndCancel : Claims.QueriesAndCancel := by
  intro s r l ha
  refine ⟨fun hp => ⟨_, replies_caps ha hp, caps_fields s⟩, replies_echo ha,
    fun hl ht hz => ⟨replies_query_none ha hl ht hz, replies_query_some ha hl ht hz⟩,
    fun t q ok h => ⟨_, rfl, longDone_of_none ok h⟩, fun q ok hl ht hq hobj hop hm hr _ _ => ?_⟩
  obtain ⟨res, hdone⟩ := longDone_attest hl hobj hop ok
  obtain ⟨hcmd, _, _⟩ := completeLong_pcie hm ht hr (if ok then 0 else 0x0040) res
  obtain ⟨h0, h2, h8, h10⟩ := fld_replyPacket l.opcode l.sequence l.unit l.inst (0x80 + l.flags.toNat % 4)
    (if ok then 0 else 0x0040) res
  refine ⟨longDone .pcie q ok s, rfl, ?_⟩
  rw [← ht, ← hq, hdone]
  dsimp only
  rw [hcmd]
  refine ⟨by simp [hl], _, rfl, h0.trans (by rw [hop]; norm_num), h2, h8.trans (Nat.mod_eq_of_lt (by omega)), ?_⟩
  rw [h10]
  cases ok <;> rfl

/-- Settles O8: the rotation reaches the first transport that waits, whose request its checks refuse in order or its
command's row takes; the system family's own commands answer from the state. -/
theorem requestsAndQueries : Obligations.RequestsAndQueries := ⟨requestsAreTakenInTurn, queriesAndCancel⟩

end Sys2Proof.Machine
end

section
/-!
SUPPORT. A deferred task set starts while the time state is UNSET (02_commands.md, R74, R75; 05_shuttle.md, R208).
-/
namespace Sys2Proof.Machine
open Sys2Proof

/-- The body of a task set of one task that costs 12 crews (R207). -/
def costlySet : Bytes := leBytes 2 768 ++ leBytes 2 0 ++ leBytes 2 1 ++ zeros 18

/-- A running device without time of day, its event queue disabled by the host. A task set stands on its deferred list, as
AUTOSTART leaves one whose tables lie in a memory that is asleep; the tables read now, but a crew is committed and the
set's cost no longer fits. -/
def taskSetDeferred : State :=
  { sec := { held := .no }
    regs := [(regKey uSYS 0 0x020, BitVec.ofNat 32 (64 * 2 ^ 20)), (regKey uSEC 0 0x000, BitVec.ofNat 32 (7 * 2 ^ 20))]
    spool := { queues := [(0, { en := false })] }
    objs := [(objId 0x0B 1 0, { attrs := 2, body := costlySet, st := some .stopped })]
    cmd := { deferred := [objId 0x0B 1 0] } }

/-- The body is one that OBJ_SET accepts. -/
theorem fnCheck_costlySet : fnCheck taskSetDeferred (objId 0x0B 1 0) 2 costlySet = 0 := by decide

/-- The device is in RUNNING with its time UNSET, and nothing of it waits to be delivered. -/
theorem taskSetDeferred_running : taskSetDeferred.sec.held = .no ∧ bootState taskSetDeferred = 7 ∧
    taskSetDeferred.cox.st = .unset ∧ Quiet taskSetDeferred := ⟨rfl, by decide, rfl, rfl, rfl, rfl⟩

/-- A task set needs no time of day, so its deferred start is tried, is refused with AUTOSTART_REFUSED (0x0102) and leaves
the list. -/
theorem deferredOp_taskSetDeferred : (deferredOp taskSetDeferred).evq.map (·.code) = [0x0102] ∧
    (settle 4096 (deferredOp taskSetDeferred)).cmd.deferred = [] := by
  decide +kernel

/-- Refutes O6 in its clause on UNSET time: a task set may stand on the deferred list too (it waits there for a memory that
is asleep), and DEFERRED_AUTOSTART starts it whatever the time state is. -/
theorem not_phasesOfBoot : ¬ Obligations.PhasesOfBoot := by
  unfold Obligations.PhasesOfBoot
  intro h
  obtain ⟨hheld, hboot, hunset, hevq, hnotices, heval⟩ := taskSetDeferred_running
  obtain ⟨_, _, _, _, _, _, _, _, _, _, _, _, _, _, _, hdeferred, _⟩ := h taskSetDeferred false 0 0 []
  obtain ⟨u, hexec, hu⟩ := hdeferred ⟨hheld, hboot⟩ hunset
  have hsettled : settle 4096 (deferredOp taskSetDeferred) = settle 4096 u := by
    rw [exec_deferredAutostart, execDeferredAutostart, done] at hexec
    exact Host.Outcome.next.inj hexec
  have hlist : (settle 4096 (deferredOp taskSetDeferred)).cmd.deferred = taskSetDeferred.cmd.deferred := by
    rw [hsettled, hu, settle_quiet 4096 hevq hnotices heval]
  rw [deferredOp_taskSetDeferred.2] at hlist
  exact absurd hlist (by decide)

end Sys2Proof.Machine
end

section
/-!
SUPPORT. What a reply and a completion leave alone (02_commands.md, R35, R39, R50), and the lengths of parts of byte
strings.
-/
namespace Sys2Proof.Machine
open Sys2Proof

@[simp] theorem length_sub (b : Bytes) (o n : Nat) : (sub b o n).length = n := by
  simp only [sub, List.length_append, List.length_replicate]
  have := List.length_take_le n (b.drop o)
  omega

@[simp] theorem length_fit (n : Nat) (b : Bytes) : (fit n b).length = n := length_sub b 0 n

/-! ### Replies and completions leave all but the command interface and the outputs -/

/-- A reply queued on its transport: in the FIFO or behind it, or sent out. -/
theorem queueReply_frame (t : Transport) (src : Nat) (p : Bytes) (note : Bool) (s : State) : ∃ q b c x n,
    queueReply t src p note s =
      { s with cmd := { s.cmd with replies := q, backlog := b }, cox := c, out := x, counters := n } := by
  cases t with
  | pcie =>
    unfold queueReply
    dsimp only
    split
    · obtain ⟨c, x, n, h⟩ := fifoPut_frame p note s
      exact ⟨_, _, c, x, n, h⟩
    · exact ⟨_, _, _, _, _, rfl⟩
  | eth => obtain ⟨c, x, n, h⟩ := emit_frame (.reply .eth src p) s; exact ⟨_, _, c, x, n, h⟩
  | uart => obtain ⟨c, x, n, h⟩ := emit_frame (.reply .uart src (uartFrameOf p)) s; exact ⟨_, _, c, x, n, h⟩

/-- An immediate reply changes no memory, and no long command begins or ends. -/
theorem reply_frame (op : Nat) (r : Request) (st : Nat) (res : Bytes) (s : State) : (reply op r st res s).part = s.part ∧
    (reply op r st res s).cmd.longs = s.cmd.longs ∧ (reply op r st res s).mem = s.mem := by
  obtain ⟨q, b, c, x, n, h⟩ := queueReply_frame r.transport r.source
    (replyPacket op r.sequence r.unit r.inst (r.flags.toNat % 4) st res) false s
  rw [reply, h]
  exact ⟨rfl, rfl, rfl⟩

/-- A completion ends its command and queues at most one reply. -/
theorem completeLong_frame (l : Long) (st : Nat) (res : Bytes) (s : State) : ∃ q b c x n,
    completeLong l st res s =
      { s with cmd := { s.cmd with longs := s.cmd.longs.erase l, replies := q, backlog := b }
               cox := c, out := x, counters := n } := by
  unfold completeLong
  dsimp only
  split
  · exact ⟨_, _, _, _, _, rfl⟩
  · obtain ⟨q, b, c, x, n, h⟩ := queueReply_frame l.transport l.source
      (replyPacket l.opcode l.sequence l.unit l.inst (0x80 + l.flags.toNat % 4) st res)
      (l.transport == .pcie && bit l.flags.toNat 1) { s with cmd := { s.cmd with longs := s.cmd.longs.erase l } }
    exact ⟨q, b, c, x, n, h⟩

section
variable (l : Long) (st : Nat) (res : Bytes) (s : State)

@[simp] theorem completeLong_longs : (completeLong l st res s).cmd.longs = s.cmd.longs.erase l := by
  obtain ⟨q, b, c, x, n, h⟩ := completeLong_frame l st res s
  rw [h]

@[simp] theorem completeLong_sec : (completeLong l st res s).sec = s.sec := by
  obtain ⟨q, b, c, x, n, h⟩ := completeLong_frame l st res s
  rw [h]

@[simp] theorem completeLong_regs : (completeLong l st res s).regs = s.regs := by
  obtain ⟨q, b, c, x, n, h⟩ := completeLong_frame l st res s
  rw [h]

end

end Sys2Proof.Machine
end

section
/-!
SUPPORT. What each reset clears, keeps and records (02_commands.md, R56; 03_boot_identity.md, R76; 18_power.md, R622;
20_electrical.md, R651, R659, R664).
-/
namespace Sys2Proof.Machine
open Sys2Proof

/-! ### A reset -/

theorem resetAll_mem (cause : Nat) (power : Bool) (h : Held) (s : State) : (resetAll cause power h s).mem =
    (s.cmd.longs.foldl (fun s l => interrupted l s) s).mem.filter fun e => survives power e.1 := by
  unfold resetAll
  cases power <;> rfl

/-- What O5 says a reset clears: everything but what lies outside the device's logic. -/
structure Cleared (s u : State) (cause : Nat) (h : Held) : Prop where
  held : u.sec.held = h
  cause : regF u uPOWER 0 0x000 25 24 = cause
  cmd : u.cmd = {}
  objs : u.objs = []
  cores : u.cores = []
  keys : u.keys = []
  time : u.cox.st = .unset
  boot : bootState u = 0
  part : u.part = s.part

theorem bootState_unwritten {s : State} (h : s.regs = []) : bootState s = 0 :=
  (regF_congr (t := State.reset) h _ _ _ _ _).trans (by decide)

theorem cleared_resetAll {cause : Nat} (hc : cause < 4) (power : Bool) (h : Held) (s : State) :
    Cleared s (resetAll cause power h s) cause h where
  held := by unfold resetAll; cases power <;> rfl
  cause := by
    unfold resetAll
    rw [regF_regPutF_same _ _ _ _ _ _ _ (by decide) (by decide)]
    exact Nat.mod_eq_of_lt hc
  cmd := by unfold resetAll; cases power <;> rfl
  objs := by unfold resetAll; cases power <;> rfl
  cores := by unfold resetAll; cases power <;> rfl
  keys := by unfold resetAll; cases power <;> rfl
  time := by unfold resetAll; cases power <;> rfl
  boot := by
    unfold resetAll bootState
    rw [regF_regPutF_ne _ _ _ _ _ _ (by decide)]
    cases power with
    | true => exact bootState_unwritten rfl
    | false =>
      rw [if_neg (by decide), regF_regPutF_apart _ _ _ _ _ _ _ _ _ (by decide) (.inl (by decide))]
      exact bootState_unwritten rfl
  part := (keep_resetAll (Keep.refl s)).part

/-- A byte found in a table is found where its entry is kept. -/
theorem spFind_filter {α : Type} (m : Sparse α) (p : Nat → Bool) {k : Nat} (h : p k = true) :
    spFind (m.filter fun e => p e.1) k = spFind m k := by
  induction m with
  | nil => rfl
  | cons e r ih =>
    obtain ⟨j, v⟩ := e
    by_cases hj : j = k
    · subst hj; simp [h, spFind]
    · by_cases hp : p j = true <;> simp [hp, spFind, hj, ih]

/-- While power is kept SDRAM keeps its bytes (R455). -/
theorem memByte_resetAll (cause : Nat) (h : Held) {s : State} (hl : s.cmd.longs = []) {a : Nat}
    (ha : regionOf a = .sdram) : memByte (resetAll cause false h s).mem a = memByte s.mem a := by
  rw [resetAll_mem, hl, List.foldl_nil]
  unfold memByte
  rw [spFind_filter s.mem (survives false) (by simp [survives, ha])]

/-- A reset with power kept, after a reply or at once: what it clears, and that SDRAM keeps its bytes. -/
theorem cleared_and_kept {s t : State} {cause : Nat} (hc : cause < 4) (h : Held) (hp : t.part = s.part)
    (hl : t.cmd.longs = s.cmd.longs) (hm : t.mem = s.mem) :
    Cleared s (resetAll cause false h t) cause h ∧ (s.cmd.longs = [] → ∀ a, regionOf a = .sdram →
      memByte (resetAll cause false h t).mem a = memByte s.mem a) :=
  ⟨{ cleared_resetAll hc false h t with part := (cleared_resetAll hc false h t).part.trans hp },
    fun hn a ha => by rw [memByte_resetAll cause h (hl.trans hn) ha, hm]⟩

/-! ### The straps and what holds the device -/

/-- Only what holds the device and registers differ. -/
def OnlyHeld (s u : State) : Prop := { u with sec := { u.sec with held := s.sec.held }, regs := s.regs } = s

theorem strapOf_sampleStraps (v : Fin 8) (s : State) : strapOf (sampleStraps v s) = v.val := by
  rw [strapOf, sampleStraps, regF_regPutF_same _ _ _ _ _ _ _ (by decide) (by decide)]
  exact Nat.mod_eq_of_lt v.isLt

section
variable {s : State}

/-- A rising edge of RESET_N ends the reset it held, with the straps sampled (R76). -/
theorem resetRise_of_resetN (h : s.sec.held = .resetN) (v : Fin 8) : (resetRise v s).sec.held = .no ∧
    strapOf (resetRise v s) = v.val ∧ OnlyHeld s (resetRise v s) := by
  have hr : resetRise v s = sampleStraps v (setHeld .no s) := by unfold resetRise; rw [h]
  rw [hr]
  exact ⟨rfl, strapOf_sampleStraps v _, rfl⟩

/-- Power-on reset notes a rising edge of RESET_N and goes on (R651). -/
theorem resetRise_of_powerOn {b : Bool} (h : s.sec.held = .powerOn b) (v : Nat) :
    (resetRise v s).sec.held = .powerOn true ∧ OnlyHeld s (resetRise v s) := by
  have hr : resetRise v s = setHeld (.powerOn true) s := by unfold resetRise; rw [h]
  rw [hr]
  exact ⟨rfl, rfl⟩

theorem powerOnEnd_blocked (h : railsGood s (List.range 8) = false) (v : Nat) (osc : Bool) : powerOnEnd v osc s = s := by
  unfold powerOnEnd
  split
  · rw [if_pos (.inr (by rw [h]; rfl))]
  · rfl

/-- Power-on reset ends: the device is released, or held by RESET_N that is still low (R651, R659). -/
theorem powerOnEnd_good {b : Bool} (h : s.sec.held = .powerOn b) (ht : s.power.thermtrip = false)
    (hg : railsGood s (List.range 8) = true) (v : Nat) (osc : Bool) : powerOnEnd v osc s =
      if b then sampleStraps v (setHeld .no (coxMod (fun (c : Cox) => { c with osc := osc }) s))
      else setHeld .resetN (coxMod (fun (c : Cox) => { c with osc := osc }) s) := by
  unfold powerOnEnd
  rw [h]
  dsimp only
  rw [if_neg (by simp [ht, hg])]

theorem brownoutEnd_good {low : Bool} (h : s.sec.held = .brownout low) (hg : railsGood s brownoutRails = true) :
    (brownoutEnd s).sec.held = (if low then .resetN else .no) ∧ OnlyHeld s (brownoutEnd s) := by
  have hr : brownoutEnd s = setHeld (if low then .resetN else .no) s := by
    unfold brownoutEnd; rw [h]; exact if_pos hg
  rw [hr]
  exact ⟨rfl, rfl⟩

theorem resetFall_of_no (h : s.sec.held = .no) : resetFall s = resetAll 1 false .resetN s := by
  unfold resetFall; rw [h]

theorem brownoutOp_aon (h : railFault s [0] = true) : brownoutOp s =
    powerMod (fun (p : Power) => { p with thermtrip := false }) (resetAll 0 true (.powerOn false) s) := by
  unfold brownoutOp; exact if_pos h

theorem brownoutOp_core (h0 : railFault s [0] = false) (h : railFault s brownoutRails = true) (hn : s.sec.held = .no) :
    brownoutOp s = resetAll 3 false (.brownout false) s := by
  unfold brownoutOp
  rw [if_neg (by rw [h0]; decide), if_pos h, hn]

theorem brownoutOp_none (h0 : railFault s [0] = false) (h : railFault s brownoutRails = false) : brownoutOp s = s := by
  unfold brownoutOp
  rw [if_neg (by rw [h0]; decide), if_neg (by rw [h]; decide)]

theorem thermtripOp_hot {k : Nat} (hk : k < 16) (hv : bit (regGet s uPOWER 0 (0x500 + 4 * k)).toNat 31 = true)
    (ht : 2160 ≤ toS 13 (regF s uPOWER 0 (0x500 + 4 * k) 12 0)) : thermtripOp s =
      powerMod (fun (p : Power) => { p with thermtrip := true }) (resetAll 0 false (.powerOn false) s) := by
  unfold thermtripOp
  exact if_pos (List.any_eq_true.2 ⟨k, List.mem_range.2 hk, by simp [hv, ht]⟩)

/-- DEVICE_RESET with its key, after its reply (R56). -/
theorem deviceResetOp_keyed {r : Request} (ha : Addressed r uSYS 0) (hl : r.params.length = 4)
    (hk : fld r.params 0 4 = 0x52535444) :
    deviceResetOp r s = resetAll 2 false .no (reply 0x0146 r 0 [] s) := by
  unfold deviceResetOp
  exact if_pos ⟨by simp [headed_of_addressed ha, targetCheck_system ha, hl, hk], by simp [ha.2.2.2]⟩

/-- THERMTRIP_N is no part of what a reset clears. -/
theorem cleared_powerMod {u : State} {cause : Nat} {h : Held} (hc : Cleared s u cause h) (f : Power → Power) :
    Cleared s (powerMod f u) cause h :=
  ⟨hc.held, hc.cause, hc.cmd, hc.objs, hc.cores, hc.keys, hc.time, hc.boot, hc.part⟩

end

theorem Cleared.all {s u : State} {cause : Nat} {h : Held} (hc : Cleared s u cause h) :
    u.sec.held = h ∧ regF u uPOWER 0 0x000 25 24 = cause ∧ u.cmd = {} ∧ u.objs = [] ∧ u.cores = [] ∧ u.keys = [] ∧
      u.cox.st = .unset ∧ bootState u = 0 ∧ u.part = s.part :=
  ⟨hc.held, hc.cause, hc.cmd, hc.objs, hc.cores, hc.keys, hc.time, hc.boot, hc.part⟩

/-- Settles O5: every reset is `resetAll` with its cause, and the edges of RESET_N and the ends of the resets change only
what holds the device. -/
theorem resetsOfTheDevice : Obligations.ResetsOfTheDevice := by
  unfold Obligations.ResetsOfTheDevice
  intro s straps osc r cleared keeps sampled only
  have reset : ∀ {cause : Nat} (_ : cause < 4) (h : Held),
      cleared (resetAll cause false h s) cause h ∧ keeps (resetAll cause false h s) := fun hc h =>
    (cleared_and_kept hc h rfl rfl rfl).imp_left Cleared.all
  refine ⟨fun h => ⟨_, rfl, resetRise_of_resetN h straps⟩, fun b h => ⟨_, rfl, resetRise_of_powerOn h straps⟩,
    fun h => ⟨_, rfl, ?_⟩, fun h ht hg => ⟨_, rfl, ?_⟩, fun h ht hg => ⟨_, rfl, ?_⟩,
    fun hg => ⟨_, rfl, powerOnEnd_blocked hg straps osc⟩, fun ha hl hk => ⟨_, rfl, ?_⟩, fun h => ⟨_, rfl, ?_⟩,
    fun h0 h hn => ⟨_, rfl, ?_⟩, fun h0 h => ⟨_, rfl, brownoutOp_none h0 h⟩,
    fun low h hg => ⟨_, rfl, brownoutEnd_good h hg⟩, fun ⟨k, hk, hv, ht⟩ => ⟨_, rfl, ?_⟩⟩
  · rw [resetFall_of_no h]
    exact reset (by decide) .resetN
  · rw [powerOnEnd_good h ht hg]
    exact ⟨rfl, strapOf_sampleStraps straps _, rfl, rfl⟩
  · rw [powerOnEnd_good h ht hg]
    exact ⟨rfl, rfl, rfl⟩
  · obtain ⟨hpart, hlongs, hmem⟩ := reply_frame 0x0146 r 0 [] s
    rw [deviceResetOp_keyed ha hl hk]
    exact (cleared_and_kept (by decide) .no hpart hlongs hmem).imp_left Cleared.all
  · rw [brownoutOp_aon h]
    exact ⟨(cleared_powerMod (cleared_resetAll (by decide) true (.powerOn false) s) _).all, rfl⟩
  · rw [brownoutOp_core h0 h hn]
    exact reset (by decide) (.brownout false)
  · rw [thermtripOp_hot hk hv ht]
    obtain ⟨hcleared, hkept⟩ := cleared_and_kept (s := s) (t := s) (cause := 0) (by decide) (.powerOn false) rfl rfl rfl
    exact ⟨(cleared_powerMod hcleared _).all, rfl, hkept⟩

end Sys2Proof.Machine
end

section
/-!
SUPPORT. The security and image commands as they are taken (03_boot_identity.md, R86 to R110; 02_commands.md, R71, R72;
17_jortanu_fabric.md, R600).
-/
namespace Sys2Proof.Machine
open Sys2Proof

/-! ### Commands of a unit that every part has -/

section
variable {s : State} {r : Request}

theorem targetCheck_security (h : Addressed r uSEC 0) : targetCheck s r uSEC 0 = 0 :=
  targetCheck_addressed h (by cases s.part <;> rfl)

theorem targetCheck_fabric (h : Addressed r uFABRIC 0) : targetCheck s r uFABRIC 0 = 0 :=
  targetCheck_addressed h (by cases s.part <;> rfl)

/-- With room for it, a long command's own checks give its status. -/
theorem longStatus_room {u n : Nat} (ha : Addressed r u n) (hr : LongRoom s r) (pchk schk : Nat) :
    longStatus r pchk schk s = firstFail [pchk, schk] := by
  obtain ⟨hq, hn⟩ := hr
  unfold longStatus
  rw [headed_of_addressed ha, hq, decide_eq_true hn]
  by_cases hp : pchk = 0
  · simp [hp]
  · rw [firstFail_fails hp, firstFail_fails hp]

section
variable {i : Instr} {op u n pchk schk st : Nat} {obj : Option Nat} {c : Bool} {act : State → State}

theorem accepts_long (ha : Addressed r u n) (hr : LongRoom s r)
    (he : exec i s = done (runLong op r pchk schk obj c act s)) (hc : firstFail [pchk, schk] = 0) :
    Accepts i s op r obj c act :=
  replies_of he (runLong_accepted (by rw [longStatus_room ha hr, hc]) ha.2.2.2)

theorem replies_long (ha : Addressed r u n) (hr : LongRoom s r)
    (he : exec i s = done (runLong op r pchk schk obj c act s)) (hc : firstFail [pchk, schk] = st) (hst : st ≠ 0) :
    Replies i s op r st [] s := by
  have hs : longStatus r pchk schk s = st := (longStatus_room ha hr pchk schk).trans hc
  exact replies_of he (by rw [runLong_refused (by rwa [hs]), hs])

end

/-! ### Identity and certificates -/

/-- IDENTITY_GET answers the serial and the two device keys (R110). -/
theorem replies_identity (ha : Addressed r uSEC 0) (hp : r.params = []) :
    Replies (.identityGet r) s 0x0844 r 0
      (leBytes 8 Config.serial.toNat ++ fit 32 Config.deviceEd ++ fit 1952 Config.deviceMldsa) s :=
  replies_of_runCmd ha rfl (identityOp.eq_def r s) (by simp [targetCheck_security ha, hp]) rfl

theorem identity_fields {ed ml : Bytes} (he : ed.length = 32) (hm : ml.length = 1952) :
    (leBytes 8 Config.serial.toNat ++ ed ++ ml).length = 1992 ∧
      fld (leBytes 8 Config.serial.toNat ++ ed ++ ml) 0 8 = Config.serial.toNat := by
  have hs := Config.serial.isLt
  refine ⟨by simp [he, hm], ?_⟩
  rw [List.append_assoc, fld_append_left _ _ (by simp), fld_leBytes, Nat.mod_eq_of_lt (by omega)]

/-- CERT_GET answers a part of a certificate (R110). -/
theorem replies_certificate (ha : Addressed r uSEC 0) (hl : r.params.length = 8) (hk : fld r.params 0 1 ≤ 3)
    (hz : fld r.params 1 1 = 0) (hn : fld r.params 4 2 ≤ 4076) (hy : fld r.params 6 2 = 0) :
    let d := ((certificate (fld r.params 0 1)).drop (fld r.params 2 2)).take (fld r.params 4 2)
    Replies (.certGet r) s 0x0845 r 0 (leBytes 2 (certificate (fld r.params 0 1)).length ++ leBytes 2 d.length ++ d) s :=
  replies_of_runCmd ha rfl (certOp.eq_def r s) (by simp [targetCheck_security ha, hl, hk, hz, hn, hy, rsv]) rfl

/-! ### BOOT_CONTINUE (R102) -/

/-- The phase that BOOT_CONTINUE goes on with, by the reason. -/
def continueAt (why : Nat) : Nat := if why = 5 then 4 else if why = 6 then 5 else 6

/-- Boot resumed at a phase: nothing but SEC_BOOT_STATUS changes. -/
theorem resume_boot (n : Nat) (hn : n < 16) (s : State) :
    bootState (regPutF uSEC 0 0x000 15 8 0 (setBoot n s)) = n ∧
    bootReason (regPutF uSEC 0 0x000 15 8 0 (setBoot n s)) = 0 ∧
    { regPutF uSEC 0 0x000 15 8 0 (setBoot n s) with regs := s.regs } = s := by
  refine ⟨?_, regF_regPutF_same _ _ _ _ _ _ _ (by decide) (by decide), rfl⟩
  rw [bootState, regF_regPutF_apart _ _ _ _ _ _ _ _ _ (by decide) (.inr (by decide)), setBoot,
    regF_regPutF_same _ _ _ _ _ _ _ (by decide) (by decide)]
  exact Nat.mod_eq_of_lt hn

theorem continueAt_lt (why : Nat) : continueAt why < 16 := by
  unfold continueAt
  repeat' split
  all_goals decide

theorem replies_bootContinue (ha : Addressed r uSEC 0) (hp : r.params = []) :
    (bootState s ≠ 9 → Replies (.bootContinue r) s 0x0842 r 0x0801 [] s) ∧
    (bootState s = 9 → bootReason s ≤ 4 → Replies (.bootContinue r) s 0x0842 r 0x0024 [] s) ∧
    (bootState s = 9 → bootReason s = 0x0B → Replies (.bootContinue r) s 0x0842 r 0x0040 [] s) ∧
    (bootState s = 9 → 5 ≤ bootReason s → bootReason s ≤ 0x0A → Replies (.bootContinue r) s 0x0842 r 0 []
      (regPutF uSEC 0 0x000 15 8 0 (setBoot (continueAt (bootReason s)) s))) := by
  have ht := targetCheck_security (s := s) ha
  refine ⟨fun h => ?_, fun h hw => ?_, fun h hw => ?_, fun h h5 ha' => ?_⟩
  · exact replies_of_runCmd_refused ha rfl (bootContinueOp.eq_def r s) (by simp [ht, hp, h]) (by decide)
  · exact replies_of_runCmd_refused ha rfl (bootContinueOp.eq_def r s)
      (by simp [ht, hp, h, hw, show bootReason s ≠ 0x0B by omega]) (by decide)
  · exact replies_of_runCmd_refused ha rfl (bootContinueOp.eq_def r s) (by simp [ht, hp, h, hw]) (by decide)
  · exact replies_of_runCmd ha rfl (bootContinueOp.eq_def r s)
      (by simp [ht, hp, h, show bootReason s ≠ 0x0B by omega, show ¬ bootReason s ≤ 4 by omega]) rfl

/-! ### The long commands -/

variable (hr : LongRoom s r)
include hr

theorem accepts_attest (ha : Addressed r uSEC 0) (hl : r.params.length = 32) :
    Accepts (.attest r) s 0x0846 r none false id :=
  accepts_long ha hr rfl (by simp [targetCheck_security ha, hl])

/-- IMAGE_PUSH is accepted while the device waits for firmware (R101). -/
theorem replies_imagePush (ha : Addressed r uSEC 0) (hl : r.params.length = 16) (ht : fld r.params 0 1 = 1)
    (hz : fld r.params 1 3 = 0) (haddr : fld r.params 8 8 < 2 ^ 48) :
    (wantsFirmware s = true → Accepts (.imagePush r) s 0x0840 r none true id) ∧
    (wantsFirmware s = false → Replies (.imagePush r) s 0x0840 r 0x0801 [] s) := by
  have hp := targetCheck_security (s := s) ha
  exact ⟨fun h => accepts_long ha hr rfl (by simp [hp, hl, ht, hz, haddr, -Nat.reducePow, rsv, h]),
    fun h => replies_long ha hr rfl (by simp [hp, hl, ht, hz, haddr, -Nat.reducePow, rsv, h]) (by decide)⟩

/-- IMAGE_INSTALL to the NV store: one install at a time, of an image that fits its slot (R92, R95). -/
theorem replies_imageInstall (ha : Addressed r uSEC 0) (hl : r.params.length = 16)
    (ht : fld r.params 0 1 = 1 ∨ fld r.params 0 1 = 3 ∨ fld r.params 0 1 = 4) (hw : fld r.params 1 1 = 0)
    (hz : fld r.params 2 2 = 0) (haddr : fld r.params 8 8 < 2 ^ 48) :
    (installOn s = false → fld r.params 4 4 ≤ slotSize .nv (fld r.params 0 1) →
      Accepts (.imageInstall r) s 0x0841 r none true id) ∧
    (installOn s = false → slotSize .nv (fld r.params 0 1) < fld r.params 4 4 →
      Replies (.imageInstall r) s 0x0841 r 0x0016 [] s) ∧
    (installOn s = true → Replies (.imageInstall r) s 0x0841 r 0x0017 [] s) := by
  have hp := targetCheck_security (s := s) ha
  have htype : (fld r.params 0 1 == 1 || fld r.params 0 1 == 3 || fld r.params 0 1 == 4) = true := by
    simpa [or_assoc] using ht
  exact ⟨fun h hn => accepts_long ha hr rfl (by simp [hp, hl, htype, hw, hz, haddr, -Nat.reducePow, rsv, h, hn]),
    fun h hn => replies_long ha hr rfl
      (by simp [hp, hl, htype, hw, hz, haddr, -Nat.reducePow, rsv, h, Nat.not_le.2 hn]) (by decide),
    fun h => replies_long ha hr rfl
      (by simp [hp, hl, htype, hw, hz, haddr, -Nat.reducePow, rsv, h, firstFail_fails]) (by decide)⟩

theorem replies_configInstall (ha : Addressed r uSYS 0) (hl : r.params.length = 16) (hz : fld r.params 12 4 = 0)
    (haddr : fld r.params 0 8 < 2 ^ 48) :
    (installOn s = false → fld r.params 8 4 ≤ 0x40000 → Accepts (.configInstall r) s 0x0145 r none true id) ∧
    (installOn s = true → Replies (.configInstall r) s 0x0145 r 0x0017 [] s) := by
  have hp := targetCheck_system (s := s) ha
  exact ⟨fun h hn => accepts_long ha hr rfl (by simp [hp, hl, hz, haddr, -Nat.reducePow, rsv, h, slotSize, hn]),
    fun h => replies_long ha hr rfl (by simp [hp, hl, hz, haddr, -Nat.reducePow, rsv, h, firstFail_fails]) (by decide)⟩

/-- CONFIG_EXPORT takes the running set as it stands, into a buffer that holds it (R71). -/
theorem replies_configExport (ha : Addressed r uSYS 0) (hl : r.params.length = 16) (hz : fld r.params 12 4 = 0)
    (haddr : fld r.params 0 8 < 2 ^ 48) (hw : writable s (fld r.params 0 8) (exportBody s).length = true) :
    (roundUp (exportBody s).length 32 ≤ fld r.params 8 4 →
      Accepts (.configExport r) s 0x0144 { r with params := r.params ++ exportBody s } none true id) ∧
    (fld r.params 8 4 < roundUp (exportBody s).length 32 → Replies (.configExport r) s 0x0144 r 0x0016 [] s) := by
  have hp := targetCheck_system (s := s) ha
  exact ⟨fun h => accepts_long (r := { r with params := r.params ++ exportBody s }) ha hr rfl
      (by simp [hp, hl, hz, haddr, -Nat.reducePow, rsv, hw, h]),
    fun h => replies_long (r := { r with params := r.params ++ exportBody s }) ha hr rfl
      (by simp [hp, hl, hz, haddr, -Nat.reducePow, rsv, hw, Nat.not_le.2 h]) (by decide)⟩

/-- ROLLBACK_ADVANCE: never back, and never above the version of the booted image (R97). -/
theorem replies_rollback (ha : Addressed r uSEC 0) (hl : r.params.length = 4) (h1 : 1 ≤ fld r.params 0 1)
    (h4 : fld r.params 0 1 ≤ 4) (hz : fld r.params 2 2 = 0) :
    let now := rollbackOf s (fld r.params 0 1)
    (now ≤ fld r.params 1 1 → (∃ h, spFind s.sec.booted (fld r.params 0 1) = some h ∧ fld r.params 1 1 ≤ imgVersion h) →
      Accepts (.rollbackAdvance r) s 0x0843 r none false id) ∧
    (fld r.params 1 1 < now → Replies (.rollbackAdvance r) s 0x0843 r 0x0012 [] s) ∧
    (now < fld r.params 1 1 → spFind s.sec.booted (fld r.params 0 1) = none →
      Replies (.rollbackAdvance r) s 0x0843 r 0x0012 [] s) := by
  have hp := targetCheck_security (s := s) ha
  intro now
  refine ⟨fun hn ⟨h, hb, hv⟩ => accepts_long ha hr rfl ?_, fun hn => replies_long ha hr rfl ?_ (by decide),
    fun hn hb => replies_long ha hr rfl ?_ (by decide)⟩
  · simp [hp, hl, h1, h4, hz, rsv, hb, hv, show rollbackOf s (fld r.params 0 1) ≤ fld r.params 1 1 from hn]
  · simp [hp, hl, h1, h4, hz, rsv, Nat.not_le.2 (show fld r.params 1 1 < rollbackOf s (fld r.params 0 1) from hn)]
  · have hlt : rollbackOf s (fld r.params 0 1) < fld r.params 1 1 := hn
    simp [hp, hl, h1, h4, hz, rsv, hb, Nat.not_le.2 hlt, beq_eq_false_iff_ne.2 (Nat.ne_of_gt hlt)]

/-- OWNER_KEYS_SET takes an unprogrammed slot (R107). -/
theorem replies_ownerKeysSet (ha : Addressed r uSEC 0) (hl : r.params.length = 1988) (h1 : fld r.params 0 1 ≤ 1)
    (hz : fld r.params 1 3 = 0) :
    (programmed s (fld r.params 0 1) = false → Accepts (.ownerKeysSet r) s 0x0847 r none false id) ∧
    (programmed s (fld r.params 0 1) = true → Replies (.ownerKeysSet r) s 0x0847 r 0x0802 [] s) := by
  have hp := targetCheck_security (s := s) ha
  exact ⟨fun h => accepts_long ha hr rfl (by simp [hp, hl, h1, hz, rsv, h]),
    fun h => replies_long ha hr rfl (by simp [hp, hl, h1, hz, rsv, h]) (by decide)⟩

/-- OWNER_KEY_REVOKE needs the other slot (R108). -/
theorem replies_ownerKeyRevoke (ha : Addressed r uSEC 0) (hl : r.params.length = 3392) (h1 : fld r.params 0 1 ≤ 1)
    (hz : fld r.params 1 7 = 0) (hs : fld r.params 8 8 = Config.serial.toNat) :
    (programmed s (1 - fld r.params 0 1) = true → (ownerSlot s (1 - fld r.params 0 1)).revoked = false →
      Accepts (.ownerKeyRevoke r) s 0x0848 r none false id) ∧
    (programmed s (1 - fld r.params 0 1) = false → Replies (.ownerKeyRevoke r) s 0x0848 r 0x0803 [] s) := by
  have hp := targetCheck_security (s := s) ha
  exact ⟨fun h hv => accepts_long ha hr rfl (by simp [hp, hl, h1, hz, hs, rsv, h, hv]),
    fun h => replies_long ha hr rfl (by simp [hp, hl, h1, hz, hs, rsv, h]) (by decide)⟩

/-- NV_READ and NV_WRITE take ranges of the NV user area (R600). -/
theorem replies_nv (ha : Addressed r uFABRIC 0) (hl : r.params.length = 16) :
    (nvRange (fld r.params 0 4) (fld r.params 4 4) = true → Accepts (.nvWrite r) s 0x0641 r none true id ∧
      (writable s (fld r.params 8 8) (fld r.params 4 4) = true → Accepts (.nvRead r) s 0x0640 r none true id)) ∧
    (nvRange (fld r.params 0 4) (fld r.params 4 4) = false → Replies (.nvWrite r) s 0x0641 r 0x0604 [] s ∧
      Replies (.nvRead r) s 0x0640 r 0x0604 [] s) := by
  have hp := targetCheck_fabric (s := s) ha
  refine ⟨fun h => ⟨accepts_long ha hr rfl ?_, fun hw => accepts_long ha hr rfl ?_⟩,
    fun h => ⟨replies_long ha hr rfl ?_ (by decide), replies_long ha hr rfl ?_ (by decide)⟩⟩
  · simp [hp, hl, h]
  · simp [hp, hl, h, hw]
  · simp [hp, hl, h, firstFail_fails]
  · simp [hp, hl, h, firstFail_fails]

end

/-- Settles O11: each command's checks pass or fail as the clauses say, and its row answers by them. -/
theorem securityCommands : Obligations.SecurityCommands := by
  unfold Obligations.SecurityCommands
  intro s r p sec why
  refine ⟨fun ha hp => ⟨_, replies_identity ha hp, identity_fields (length_fit _ _) (length_fit _ _)⟩,
    replies_certificate, fun ha hp => ?_,
    fun hr => ⟨accepts_attest hr, replies_imagePush hr, replies_imageInstall hr, fun ha hl hz haddr => ?_,
      replies_rollback hr, replies_ownerKeysSet hr, replies_ownerKeyRevoke hr, replies_nv hr⟩⟩
  · obtain ⟨hstate, hfirmware, hmemory, hresume⟩ := replies_bootContinue (s := s) ha hp
    exact ⟨hstate, hfirmware, hmemory, fun h h5 h10 =>
      effect_of_replies (hresume h h5 h10) (resume_boot _ (continueAt_lt why) s)⟩
  · obtain ⟨haccept, hbusy⟩ := replies_configInstall hr ha hl hz haddr
    exact ⟨haccept, hbusy, replies_configExport hr ha hl hz haddr⟩

end Sys2Proof.Machine
end

section
/-!
SUPPORT. Reading memory and verifying an image leave the security island's stores and fuses and the command interface
(01_architecture.md, R18; 03_boot_identity.md, R87).
-/
namespace Sys2Proof.Machine
open Sys2Proof

/-! ### Reading memory leaves the security island and the command interface -/

/-- The security island and the command interface of a state. -/
def island (s : State) : Sec × CmdIf := (s.sec, s.cmd)

theorem sec_of_island {s t : State} (h : island t = island s) : t.sec = s.sec := congrArg Prod.fst h
theorem cmd_of_island {s t : State} (h : island t = island s) : t.cmd = s.cmd := congrArg Prod.snd h

section
variable (s : State)

@[simp] theorem island_regPut (u i o : Nat) (v : W32) : island (regPut u i o v s) = island s := rfl
@[simp] theorem island_regBump (u i o hi lo n : Nat) : island (regBump u i o hi lo n s) = island s := rfl
@[simp] theorem island_raise (c u i n : Nat) (d : Bytes) : island (raise c u i n d s) = island s := rfl
@[simp] theorem island_domPut (d : Nat) (x : Domain) : island (domPut d x s) = island s := rfl
@[simp] theorem island_storeRaw (a : Nat) (b : Bytes) : island (storeRaw a b s) = island s := rfl
@[simp] theorem island_putErr (w : Nat) (p : ErrPat) : island (putErr w p s) = island s := rfl
@[simp] theorem island_beginWake (d : Nat) : island (beginWake d s) = island s := rfl
@[simp] theorem island_waitAt (t : State) : island (waitAt s t) = island s := rfl

@[simp] theorem island_raiseLim (ns k c u i n : Nat) (d : Bytes) : island (raiseLim ns k c u i n d s) = island s := by
  unfold raiseLim
  dsimp only
  split
  · split <;> rfl
  · rfl

@[simp] theorem island_domAccount (d k : Nat) (t : PState) (u i : Nat) : island (domAccount d k t u i s) = island s := by
  unfold domAccount
  dsimp only
  split <;> rfl

@[simp] theorem island_powerEnd (d : Nat) (t : PState) (st u i : Nat) : island (powerEnd d t st u i s) = island s := rfl

@[simp] theorem island_powerRefuse (d : Nat) (t : PState) (u i : Nat) : island (powerRefuse d t u i s) = island s := by
  simp [powerRefuse]

@[simp] theorem island_putBack (crew : Nat) (rs : List Retained) : island (putBack crew rs s) = island s := by
  unfold putBack
  induction rs generalizing s with
  | nil => rfl
  | cons r rs ih => rw [List.foldl_cons, ih, island_putErr, island_storeRaw]

@[simp] theorem island_abortEntry (d u i : Nat) : island (abortEntry d u i s) = island s := by
  unfold abortEntry
  dsimp only
  split
  · split <;> simp
  · rfl

@[simp] theorem island_wakeRequestBase (d u i : Nat) : island (wakeRequestBase d u i s) = island s := by
  unfold wakeRequestBase
  dsimp only
  repeat' split
  all_goals simp

@[simp] theorem island_touch (d : Nat) : island (touch d s) = island s := by
  unfold touch
  split <;> rfl

@[simp] theorem island_reach (d : Option Nat) : island (reach d s).2 = island s := by
  unfold reach
  cases d with
  | none => rfl
  | some d =>
    dsimp only
    repeat' split
    all_goals simp

@[simp] theorem island_memDevCount (ch rank pos : Nat) : island (memDevCount ch rank pos s) = island s := by
  unfold memDevCount
  dsimp only
  split <;> rfl

@[simp] theorem island_memCe (ch rank pos w : Nat) : island (memCe ch rank pos w s) = island s := by
  simp [memCe]

@[simp] theorem island_memUe (ch rank w : Nat) (m : Bool) (i : Initiator) :
    island (memUe ch rank w m i s) = island s := by
  unfold memUe
  dsimp only
  split <;> rfl

@[simp] theorem island_sdramRead (i : Initiator) (w ch rank : Nat) : island (sdramRead i w ch rank s).2.2 = island s := by
  unfold sdramRead
  dsimp only
  split
  · rfl
  · split <;> simp

@[simp] theorem island_sramCe (u i a : Nat) : island (sramCe u i a s) = island s := by
  unfold sramCe
  dsimp only
  split <;> simp

@[simp] theorem island_sramUe (u i a : Nat) (w : Initiator) : island (sramUe u i a w s) = island s := by
  unfold sramUe
  dsimp only
  split <;> simp

@[simp] theorem island_sramRead (u i : Nat) (x : Initiator) (w : Nat) : island (sramRead u i x w s).2.2 = island s := by
  unfold sramRead
  dsimp only
  split
  · rfl
  · split <;> simp

@[simp] theorem island_bankDenied (crew bank : Nat) (i : Initiator) (a : Nat) :
    island (bankDenied crew bank i a s) = island s := by simp [bankDenied]

@[simp] theorem island_spmRead (i : Initiator) (code : Nat) (count : Bool) (w crew off : Nat) :
    island (spmRead i code count w crew off s).2.2 = island s := by
  have hr := island_reach s (some crew)
  unfold spmRead
  generalize reach (some crew) s = g at hr ⊢
  obtain ⟨g, t⟩ := g
  cases g <;> dsimp only at hr ⊢ <;> repeat' split
  all_goals simp [hr]

@[simp] theorem island_readWord (i : Initiator) (w : Nat) : island (readWord i w s).2.2 = island s := by
  unfold readWord
  dsimp only
  cases regionOf (wordOf w) with
  | sdram =>
    dsimp only
    cases sdramOpen s i false (wordOf w) with
    | none => rfl
    | some c =>
      have hr := island_reach s (some (25 + c.1))
      dsimp only
      generalize reach (some (25 + c.1)) s = g at hr ⊢
      obtain ⟨g, t⟩ := g
      cases g <;> simpa using hr
  | outbound off => dsimp only; split <;> rfl
  | _ => simp

@[simp] theorem island_readWords (i : Initiator) (w n : Nat) : island (readWords i w n s).2.2.2 = island s := by
  induction n generalizing s w with
  | zero => rfl
  | succ n ih =>
    have hw := island_readWord s i w
    unfold readWords
    generalize readWord i w s = g at hw ⊢
    obtain ⟨g, b, t⟩ := g
    cases g with
    | ok => exact (ih t (w + 32)).trans hw
    | _ => exact hw

@[simp] theorem island_readBytes (i : Initiator) (a n : Nat) : island (readBytes i a n s).2.2.2 = island s := by
  have hw := island_readWords s i (wordOf a) ((a + n + 31) / 32 - a / 32)
  unfold readBytes
  generalize readWords i (wordOf a) ((a + n + 31) / 32 - a / 32) s = g at hw ⊢
  obtain ⟨g, b, e, t⟩ := g
  cases g <;> exact hw

@[simp] theorem island_imageIn (a n : Nat) : island (imageIn a n s).2.2 = island s := by
  have hb := island_readBytes s (unitInit uSYS 0) a n
  unfold imageIn
  generalize readBytes (unitInit uSYS 0) a n s = g at hb ⊢
  obtain ⟨g, b, e, t⟩ := g
  cases g with
  | wait => rfl
  | _ => exact hb

@[simp] theorem island_verifyImage (type : Nat) (b : Bytes) : island (verifyImage type b s).2 = island s := by
  unfold verifyImage
  split <;> rfl

@[simp] theorem island_installVerify (l : Long) : island (installVerify l s).2.2 = island s := by
  have hi := island_imageIn s (installAddr l) (installLen l)
  unfold installVerify
  generalize imageIn (installAddr l) (installLen l) s = g at hi ⊢
  obtain ⟨g, b, t⟩ := g
  have hv := island_verifyImage t (installType l) b
  cases g <;> dsimp only at hi hv ⊢
  · repeat' split
    all_goals exact hv.trans hi
  all_goals exact hi

end

end Sys2Proof.Machine
end

section
/-!
SUPPORT. The stores of images: what a write leaves, commit records, and that an install makes its image the newest of its
type (03_boot_identity.md, R90 to R92).
-/
namespace Sys2Proof.Machine
open Sys2Proof

/-! ### Bytes of a store -/

theorem spGet_storePut_outside (m : Sparse (BitVec 8)) (a : Nat) (bs : Bytes) {c : Nat}
    (h : c < a ∨ a + bs.length ≤ c) : spGet 0 (storePut m a bs) c = spGet 0 m c := by
  induction bs generalizing m a with
  | nil => rfl
  | cons b r ih =>
    rw [List.length_cons] at h
    rw [storePut, ih _ _ (by omega), spGet_spSet_ne 0 m b (by omega)]

theorem storeBytes_storePut_apart (m : Sparse (BitVec 8)) {a o n : Nat} {bs : Bytes}
    (h : o + n ≤ a ∨ a + bs.length ≤ o) : storeBytes (storePut m a bs) o n = storeBytes m o n := by
  unfold storeBytes
  exact List.map_congr_left fun k hk =>
    spGet_storePut_outside m a bs (by have := List.mem_range.1 hk; omega)

/-- A byte string just written reads back. -/
theorem storeBytes_storePut_same (m : Sparse (BitVec 8)) (a : Nat) (bs : Bytes) :
    storeBytes (storePut m a bs) a bs.length = bs := by
  induction bs generalizing m a with
  | nil => rfl
  | cons b r ih =>
    have htail := ih (spSet 0 m a b) (a + 1)
    have hhead : spGet 0 (storePut (spSet 0 m a b) (a + 1) r) a = b := by
      rw [spGet_storePut_outside _ _ _ (by omega), spGet_spSet_same]
    unfold storeBytes at htail ⊢
    rw [List.length_cons, List.range_succ_eq_map, List.map_cons, List.map_map, storePut]
    have hshift : ∀ k, a + 1 + k = a + (k + 1) := fun k => by omega
    simp only [hshift] at htail
    exact congrArg₂ List.cons hhead htail

@[simp] theorem storeOf_storeWrite (w : Store) (a : Nat) (bs : Bytes) (s : State) :
    storeOf (storeWrite w a bs s) w = storePut (storeOf s w) a bs := by
  cases w <;> rfl

/-! ### Commit records (R90, R91) -/

theorem crcStepLsb_lt {poly : Nat} (hp : poly < 2 ^ 32) (k r : Nat) (hr : r < 2 ^ 32) :
    crcStepLsb poly k r < 2 ^ 32 := by
  induction k generalizing r with
  | zero => exact hr
  | succ k ih =>
    have h : r / 2 < 2 ^ 32 := by omega
    unfold crcStepLsb
    split
    · exact ih _ (Nat.xor_lt_two_pow h hp)
    · exact ih _ h

theorem crc32_lt (b : Bytes) : crc32 b < 2 ^ 32 := by
  suffices h : ∀ r < 2 ^ 32, b.foldl (fun r b => crcStepLsb 0xEDB88320 8 (Nat.xor r b.toNat)) r < 2 ^ 32 from
    Nat.xor_lt_two_pow (h _ (by decide)) (by decide)
  induction b with
  | nil => exact fun r hr => hr
  | cons x b ih =>
    intro r hr
    have hx : x.toNat < 2 ^ 32 := by have := x.isLt; omega
    exact ih _ (crcStepLsb_lt (by decide) 8 _ (Nat.xor_lt_two_pow hr hx))

/-- A part of a string that lies behind its first `a`. -/
theorem sub_append_right (a b : Bytes) (k w : Nat) : sub (a ++ b) (a.length + k) w = sub b k w := by
  have h : (a ++ b).drop (a.length + k) = b.drop k := by rw [List.drop_append]; simp
  simp only [sub, h]

/-- The first part of a string. -/
theorem sub_append_left (a b : Bytes) : sub (a ++ b) 0 a.length = a := by
  simp [sub]

/-- A commit record without its CRC. -/
def recordBody (img : Bytes) (serial : Nat) : Bytes :=
  [0x59, 0x44, 0x43, 0x4D] ++ (leBytes 4 img.length ++ (leBytes 8 serial ++ (fit 64 (Config.sha512 img) ++ zeros 12)))

theorem length_recordBody (img : Bytes) (serial : Nat) : (recordBody img serial).length = 92 := by
  simp [recordBody, zeros]

theorem commitRecord_eq (img : Bytes) (serial : Nat) :
    commitRecord img serial = recordBody img serial ++ leBytes 4 (crc32 (recordBody img serial)) := by
  simp only [commitRecord, recordBody, List.append_assoc]

theorem length_commitRecord (img : Bytes) (serial : Nat) : (commitRecord img serial).length = 96 := by
  rw [commitRecord_eq, List.length_append, length_recordBody, length_leBytes]

theorem sub_record_digest (img : Bytes) (serial : Nat) :
    sub (commitRecord img serial) 16 64 = fit 64 (Config.sha512 img) := by
  have h := sub_append_right ([0x59, 0x44, 0x43, 0x4D] ++ leBytes 4 img.length ++ leBytes 8 serial)
    (fit 64 (Config.sha512 img) ++ (zeros 12 ++ leBytes 4 (crc32 (recordBody img serial)))) 0 64
  have hl := sub_append_left (fit 64 (Config.sha512 img)) (zeros 12 ++ leBytes 4 (crc32 (recordBody img serial)))
  rw [length_fit] at hl
  rw [hl] at h
  simpa [commitRecord_eq, recordBody] using h

theorem sub_record_magic (img : Bytes) (serial : Nat) :
    sub (commitRecord img serial) 0 4 = [0x59, 0x44, 0x43, 0x4D] := by
  rw [commitRecord_eq, recordBody, List.append_assoc]
  exact sub_append_left [0x59, 0x44, 0x43, 0x4D] _

theorem fld_record_length (img : Bytes) (serial : Nat) (h : img.length < 2 ^ 32) :
    fld (commitRecord img serial) 4 4 = img.length := by
  have hr := fld_append_right [0x59, 0x44, 0x43, 0x4D] (leBytes 4 img.length ++ (leBytes 8 serial ++
    (fit 64 (Config.sha512 img) ++ zeros 12) ++ leBytes 4 (crc32 (recordBody img serial)))) 0 4
  rw [fld_append_left (leBytes 4 img.length) _ (by simp), fld_leBytes, Nat.mod_eq_of_lt (h.trans_le (by norm_num))] at hr
  simpa [commitRecord_eq, recordBody] using hr

theorem fld_record_serial (img : Bytes) (serial : Nat) (h : serial < 2 ^ 64) :
    fld (commitRecord img serial) 8 8 = serial := by
  have hr := fld_append_right ([0x59, 0x44, 0x43, 0x4D] ++ leBytes 4 img.length) (leBytes 8 serial ++
    (fit 64 (Config.sha512 img) ++ zeros 12 ++ leBytes 4 (crc32 (recordBody img serial)))) 0 8
  rw [fld_append_left (leBytes 8 serial) _ (by simp), fld_leBytes, Nat.mod_eq_of_lt (h.trans_le (by norm_num))] at hr
  simpa [commitRecord_eq, recordBody] using hr

theorem record_crc (img : Bytes) (serial : Nat) :
    fld (commitRecord img serial) 92 4 = crc32 (sub (commitRecord img serial) 0 92) := by
  have hl := length_recordBody img serial
  have hr := fld_append_right (recordBody img serial) (leBytes 4 (crc32 (recordBody img serial))) 0 4
  have hs := sub_append_left (recordBody img serial) (leBytes 4 (crc32 (recordBody img serial)))
  rw [hl] at hr hs
  rw [commitRecord_eq, hs, hr, fld_leBytes]
  exact Nat.mod_eq_of_lt (crc32_lt _)

section
variable {s t : State} {w : Store} {type n : Nat} {img : Bytes} {serial : Nat}

theorem slotSize_lt (w : Store) (type : Nat) : slotSize w type < 2 ^ 32 := by
  unfold slotSize
  cases w <;> dsimp only <;> repeat' split
  all_goals decide

/-- A slot whose record is that of the image it holds is committed. -/
theorem committedIn_of_record (hr : storeBytes (storeOf s w) (recordAt w type n) 96 = commitRecord img serial)
    (hi : storeBytes (storeOf s w) (slotAtStore w type n) img.length = img) (hl : img.length ≤ slotSize w type)
    (hs : serial < 2 ^ 64) : committedIn s w type n = some (serial, img) := by
  have hlen := fld_record_length img serial (hl.trans_lt (slotSize_lt w type))
  unfold committedIn
  dsimp only
  rw [hr, hlen, hi, fld_record_serial img serial hs,
    if_pos ⟨sub_record_magic img serial, record_crc img serial, hl, sub_record_digest img serial⟩]

/-- Whether a slot is committed depends on its record and on the bytes within its size. -/
theorem committedIn_congr
    (hr : storeBytes (storeOf t w) (recordAt w type n) 96 = storeBytes (storeOf s w) (recordAt w type n) 96)
    (hi : ∀ len ≤ slotSize w type,
      storeBytes (storeOf t w) (slotAtStore w type n) len = storeBytes (storeOf s w) (slotAtStore w type n) len) :
    committedIn t w type n = committedIn s w type n := by
  unfold committedIn
  dsimp only
  rw [hr]
  by_cases hlen : fld (storeBytes (storeOf s w) (recordAt w type n) 96) 4 4 ≤ slotSize w type
  · rw [hi _ hlen]
  · rw [if_neg fun ⟨_, _, h, _⟩ => hlen h, if_neg fun ⟨_, _, h, _⟩ => hlen h]

/-! ### The two slots of a type do not overlap, nor do their records (R90) -/

theorem record_before_slot (h1 : 1 ≤ type) (h4 : type ≤ 4) (n k : Nat) (hn : n ≤ 1) :
    recordAt w type n + 96 ≤ slotAtStore w type k := by
  unfold recordAt slotAtStore
  cases w <;> dsimp only
  · repeat' split
    all_goals omega
  · omega

theorem records_apart {n k : Nat} (h : n < k) : recordAt w type n + 96 ≤ recordAt w type k := by
  unfold recordAt
  cases w with
  | nv => dsimp only; generalize 2 * (type - 1) = base; omega
  | spi => dsimp only; omega

theorem slots_apart (h1 : 1 ≤ type) (h4 : type ≤ 4) {n k : Nat} (h : n < k) :
    slotAtStore w type n + slotSize w type ≤ slotAtStore w type k := by
  unfold slotAtStore slotSize
  cases w <;> dsimp only
  · repeat' split
    all_goals omega
  · omega

/-! ### An install (R90, R92) -/

theorem newestSlot_congr (h : storeOf t w = storeOf s w) : newestSlot t w type = newestSlot s w type := by
  have hc : ∀ n, committedIn t w type n = committedIn s w type n := fun n =>
    committedIn_congr (by rw [h]) fun _ _ => by rw [h]
  unfold newestSlot
  rw [hc, hc]

theorem storeOf_congr (h : t.sec = s.sec) (w : Store) : storeOf t w = storeOf s w := by
  cases w <;> simp only [storeOf, h]

theorem island_emit (o : Out) (s : State) : island (emit o s) = island s := by
  obtain ⟨c, x, n, h⟩ := emit_frame o s
  rw [h]; rfl

theorem island_slotReads (w : Store) (type : Nat) (s : State) : island (slotReads w type s) = island s := by
  have hr : ∀ a n s, island (storeRead w a n s) = island s := fun a n s => by
    cases w
    · rfl
    · exact island_emit _ _
  simp only [slotReads, List.foldl_cons, List.foldl_nil, hr]

theorem newestSlot_of_newer (hn : n ≤ 1) (hc : committedIn s w type n = some (serial, img))
    (ho : ∀ k ≤ 1, k ≠ n → ∀ x, committedIn s w type k = some x → x.1 < serial) :
    newestSlot s w type = some (n, serial, img) := by
  unfold newestSlot
  interval_cases n
  · rw [hc]
    cases h : committedIn s w type 1 with
    | none => rfl
    | some x => exact if_neg (Nat.not_lt.2 (ho 1 le_rfl (by decide) x h).le)
  · rw [hc]
    cases h : committedIn s w type 0 with
    | none => rfl
    | some x => exact if_pos (ho 0 (by decide) (by decide) x h)

/-- The serial an install writes. -/
def nextSerial (s : State) (w : Store) (type : Nat) : Nat := 1 + ((newestSlot s w type).map fun x => x.2.1).getD 0

/-- The serial an install writes is above every committed one. -/
theorem serial_lt_next {k : Nat} (hk : k ≤ 1) {x : Nat × Bytes} (h : committedIn s w type k = some x) :
    x.1 < nextSerial s w type := by
  unfold nextSerial newestSlot
  interval_cases k
  · rw [h]
    cases committedIn s w type 1 with
    | none => simp
    | some y =>
      dsimp only
      split
      all_goals
        simp only [Option.map_some, Option.getD_some]
        omega
  · rw [h]
    cases committedIn s w type 0 with
    | none => simp
    | some y =>
      dsimp only
      split
      all_goals
        simp only [Option.map_some, Option.getD_some]
        omega

theorem storeOf_installImage : storeOf (installImage w type img s).2 w =
    storePut (storePut (storePut (storeOf s w) (recordAt w type (installSlot s w type)) (zeros 96))
      (slotAtStore w type (installSlot s w type)) img)
      (recordAt w type (installSlot s w type)) (commitRecord img (nextSerial s w type)) := by
  have h : storeOf (slotReads w type s) w = storeOf s w :=
    storeOf_congr (sec_of_island (island_slotReads w type s)) w
  unfold installImage nextSerial
  simp only [storeOf_storeWrite, h, newestSlot_congr h]

theorem installSlot_le : installSlot s w type ≤ 1 := by
  unfold installSlot
  split <;> decide

section
variable (h1 : 1 ≤ type) (h4 : type ≤ 4) (hl : img.length ≤ slotSize w type)
include h1 h4 hl

theorem committedIn_installImage (hs : nextSerial s w type < 2 ^ 64) :
    committedIn (installImage w type img s).2 w type (installSlot s w type) = some (nextSerial s w type, img) := by
  refine committedIn_of_record ?_ ?_ hl hs
  · rw [storeOf_installImage, ← length_commitRecord img (nextSerial s w type)]
    exact storeBytes_storePut_same _ _ _
  · have hb := record_before_slot (w := w) h1 h4 (installSlot s w type) (installSlot s w type) installSlot_le
    rw [storeOf_installImage, storeBytes_storePut_apart _ (.inr (by rw [length_commitRecord]; exact hb)),
      storeBytes_storePut_same]

theorem committedIn_installImage_other {k : Nat} (hk : k ≤ 1) (hne : k ≠ installSlot s w type) :
    committedIn (installImage w type img s).2 w type k = committedIn s w type k := by
  have hn : installSlot s w type ≤ 1 := installSlot_le
  generalize hm : installSlot s w type = m at hne hn
  have hrec := record_before_slot (w := w) h1 h4
  have hra : recordAt w type k + 96 ≤ recordAt w type m ∨ recordAt w type m + 96 ≤ recordAt w type k :=
    (Nat.lt_or_gt_of_ne hne).imp records_apart records_apart
  have hsa : slotAtStore w type k + slotSize w type ≤ slotAtStore w type m ∨
      slotAtStore w type m + slotSize w type ≤ slotAtStore w type k :=
    (Nat.lt_or_gt_of_ne hne).imp (slots_apart h1 h4) (slots_apart h1 h4)
  have hz : (zeros 96).length = 96 := by simp [zeros]
  have hc := length_commitRecord img (nextSerial s w type)
  have hkm := hrec k m hk
  have hmk := hrec m k hn
  refine committedIn_congr ?_ fun len hlen => ?_
  all_goals
    rw [storeOf_installImage, hm, storeBytes_storePut_apart _ (by omega), storeBytes_storePut_apart _ (by omega),
      storeBytes_storePut_apart _ (by omega)]

/-- An installed image is its type's newest slot, with a serial one above the largest. -/
theorem newestSlot_installImage (hs : nextSerial s w type < 2 ^ 64) :
    newestSlot (installImage w type img s).2 w type = some (installSlot s w type, nextSerial s w type, img) := by
  refine newestSlot_of_newer installSlot_le (committedIn_installImage h1 h4 hl hs) fun k hk hne x hx => ?_
  rw [committedIn_installImage_other h1 h4 hl hk hne] at hx
  exact serial_lt_next hk hx

end
end

end Sys2Proof.Machine
end

section
/-!
SUPPORT. What the long commands of the security family leave when they complete (03_boot_identity.md, R92, R95, R97, R107
to R109; 17_jortanu_fabric.md, R600; 18_power.md, R623).
-/
namespace Sys2Proof.Machine
open Sys2Proof

/-! ### Owner slots -/

theorem ownerSlot_ownerMod_same (n : Nat) (f : OwnerSlot → OwnerSlot) (s : State) :
    ownerSlot (ownerMod n f s) n = f (ownerSlot s n) := by
  by_cases h : n = 0 <;> simp [ownerSlot, ownerMod, secMod, h]

theorem ownerSlot_ownerMod_other {n : Nat} (hn : n ≤ 1) (f : OwnerSlot → OwnerSlot) (s : State) :
    ownerSlot (ownerMod n f s) (1 - n) = ownerSlot s (1 - n) := by
  interval_cases n <;> simp [ownerSlot, ownerMod, secMod]

@[simp] theorem ownerSlot_storeWrite (w : Store) (a : Nat) (bs : Bytes) (s : State) (n : Nat) :
    ownerSlot (storeWrite w a bs s) n = ownerSlot s n := by
  cases w <;> rfl

theorem ownerMod_cmd (n : Nat) (f : OwnerSlot → OwnerSlot) (s : State) : (ownerMod n f s).cmd = s.cmd := by
  unfold ownerMod
  split <;> rfl

theorem storeWrite_cmd (w : Store) (a : Nat) (bs : Bytes) (s : State) : (storeWrite w a bs s).cmd = s.cmd := by
  cases w <;> rfl

theorem cmd_installImage (w : Store) (type : Nat) (img : Bytes) (s : State) :
    (installImage w type img s).2.cmd = s.cmd := by
  simp only [installImage, storeWrite_cmd, cmd_of_island (island_slotReads w type s)]

/-! ### A long command whose completion is the end of its work -/

/-- The commands that `workDone` ends. -/
def worked (op : Nat) : Bool := op != 0x0740 && op != 0x0A42 && !ownEvent op

/-- What O12 says of a command's end: its completion, after which it is no longer outstanding, leaves `P`. -/
def Ends (s : State) (l : Long) (P : State → Nat → Prop) : Prop :=
  Effect (.longCommandCompletion l.transport l.sequence true) s fun u =>
    u.cmd.longs = [] ∧ ∃ st v res, u = completeLong l st res v ∧ P u st

/-- The store bytes and fuses of the security island. -/
def stored (s : State) : Sparse (BitVec 8) × Sparse (BitVec 8) × List Nat × OwnerSlot × OwnerSlot :=
  (s.sec.nv, s.sec.spi, s.sec.rollback, s.sec.owner0, s.sec.owner1)

section
variable {s v : State} {l : Long}

theorem newestSlot_completeLong (st : Nat) (res : Bytes) (s : State) (w : Store) (type : Nat) :
    newestSlot (completeLong l st res s) w type = newestSlot s w type :=
  newestSlot_congr (storeOf_congr (completeLong_sec _ _ _ _) w)

@[simp] theorem ownerSlot_completeLong (st : Nat) (res : Bytes) (s : State) (n : Nat) :
    ownerSlot (completeLong l st res s) n = ownerSlot s n := by
  simp only [ownerSlot, completeLong_sec]

theorem stored_completeLong (st : Nat) (res : Bytes) (h : v.sec = s.sec) :
    stored (completeLong l st res v) = stored s := by
  simp only [stored, completeLong_sec, h]

theorem workDone_install (hop : l.opcode = 0x0145 ∨ l.opcode = 0x0841) : workDone l s = installDone l s := by
  rcases hop with h | h <;> simp [workDone, h]

theorem worked_install (hop : l.opcode = 0x0145 ∨ l.opcode = 0x0841) : worked l.opcode = true := by
  rcases hop with h | h <;> rw [h] <;> rfl

section
variable {b : Bytes} {w : State} (hpf : nvPaused s = false)
include hpf

theorem installDone_verified (hv : installVerify l s = (some 0, b, w)) : installDone l s =
    completeLong l 0 [BitVec.ofNat 8 (installImage (installStore l) (installType l) b w).1, 0, 0, 0]
      (installImage (installStore l) (installType l) b w).2 := by
  unfold installDone
  rw [hpf, if_neg (by simp), hv]
  rfl

theorem installDone_refused {no : Nat} (hv : installVerify l s = (some no, b, w)) (hno : no ≠ 0) :
    installDone l s = completeLong l no [] w := by
  unfold installDone
  rw [hpf, if_neg (by simp), hv]
  cases no with
  | zero => exact absurd rfl hno
  | succ no => rfl

end

variable (hlongs : s.cmd.longs = [l]) (hobj : l.obj = none)
include hlongs hobj

theorem longDone_worked (hw : worked l.opcode = true) : longDone l.transport l.sequence true s = workDone l s := by
  obtain ⟨⟨h1, h2⟩, h3⟩ : (l.opcode ≠ 0x0740 ∧ l.opcode ≠ 0x0A42) ∧ ownEvent l.opcode = false := by
    simpa [worked] using hw
  simp [longDone, hlongs, hobj, h1, h2, h3]

/-- A command whose work leads to its completion. -/
theorem ends_of_work {st : Nat} {res : Bytes} {P : State → Nat → Prop} (hw : worked l.opcode = true)
    (h : workDone l s = completeLong l st res v) (hc : v.cmd = s.cmd) (hp : P (completeLong l st res v) st) :
    Ends s l P :=
  ⟨_, rfl, by rw [longDone_worked hlongs hobj hw, h, completeLong_longs, hc, hlongs]; simp,
    st, v, res, by rw [longDone_worked hlongs hobj hw, h], by rwa [longDone_worked hlongs hobj hw, h]⟩

/-- While PFAIL is set no unit of the NV store and no fuse is begun: the command waits (R623). -/
theorem effect_paused (hpf : nvPaused s = true) (hop : l.opcode = 0x0843 ∨ l.opcode = 0x0847 ∨ l.opcode = 0x0848 ∨
    l.opcode = 0x0641 ∨ l.opcode = 0x0145) :
    Effect (.longCommandCompletion l.transport l.sequence true) s fun u => u = s := by
  have hreg : regF s uPOWER 0 0x000 31 31 = 1 := by simpa [nvPaused] using hpf
  refine ⟨_, rfl, ?_⟩
  rcases hop with h | h | h | h | h <;> rw [longDone_worked hlongs hobj (by rw [h]; rfl)]
  · simp [workDone, h, rollbackDone, hpf]
  · simp [workDone, h, ownerSetDone, hpf]
  · simp [workDone, h, ownerRevokeDone, hpf]
  · simp [workDone, h, nvDone, hreg]
  · simp [workDone, h, installDone, installStore, hpf]

/-- ATTEST changes nothing (R109). -/
theorem ends_attest (hop : l.opcode = 0x0846) :
    Ends s l fun u st => st = 0 ∧ stored u = stored s ∧ bootState u = bootState s := by
  have hwork : workDone l s = completeLong l 0 (reportBytes l.params s ++
      sub (Config.signReport (reportBytes l.params s)) 0 3373 ++ zeros 3) s := by simp [workDone, hop, attestDone]
  exact ends_of_work hlongs hobj (by rw [hop]; rfl) hwork rfl
    ⟨rfl, stored_completeLong _ _ rfl, regF_congr (completeLong_regs _ _ _ _) _ _ _ _ _⟩

section
variable (hpf : nvPaused s = false)
include hpf

/-- ROLLBACK_ADVANCE never lowers its counter (R97). -/
theorem ends_rollback (hop : l.opcode = 0x0843) : Ends s l fun u st => st = 0 ∧
    u.sec.rollback = s.sec.rollback.set (fld l.params 0 1 - 1)
      (max (rollbackOf s (fld l.params 0 1)) (fld l.params 1 1)) ∧ u.sec.nv = s.sec.nv := by
  have hwork : workDone l s = completeLong l 0
      [BitVec.ofNat 8 (max (rollbackOf s (fld l.params 0 1)) (fld l.params 1 1))]
      (setRollback (fld l.params 0 1) (max (rollbackOf s (fld l.params 0 1)) (fld l.params 1 1)) s) := by
    simp [workDone, hop, rollbackDone, hpf]
  exact ends_of_work hlongs hobj (by rw [hop]; rfl) hwork rfl ⟨rfl, by rw [completeLong_sec]; rfl,
    by rw [completeLong_sec]; rfl⟩

/-- OWNER_KEYS_SET stores the digests of its keys in the fuses of its slot (R107). -/
theorem ends_ownerKeysSet (hop : l.opcode = 0x0847) (hn : fld l.params 0 1 ≤ 1)
    (hfree : programmed s (fld l.params 0 1) = false) : Ends s l fun u st => st = 0 ∧
      (ownerSlot u (fld l.params 0 1)).ed = some (Config.sha512 (sub l.params 4 32)) ∧
      (ownerSlot u (fld l.params 0 1)).ml = Config.sha512 (sub l.params 36 1952) ∧
      ownerSlot u (1 - fld l.params 0 1) = ownerSlot s (1 - fld l.params 0 1) := by
  have hwork : workDone l s = completeLong l 0 [] (ownerProgram l s) := by
    simp [workDone, hop, ownerSetDone, hpf, hfree]
  refine ends_of_work hlongs hobj (by rw [hop]; rfl) hwork ?_ ⟨rfl, ?_, ?_, ?_⟩
  · exact ownerMod_cmd _ _ _
  · rw [ownerSlot_completeLong, ownerProgram, ownerSlot_ownerMod_same]
  · rw [ownerSlot_completeLong, ownerProgram, ownerSlot_ownerMod_same]
  · rw [ownerSlot_completeLong, ownerProgram, ownerSlot_ownerMod_other hn, ownerSlot_storeWrite]

/-- OWNER_KEYS_SET of a slot that another has programmed since (R107). -/
theorem ends_ownerKeysSet_refused (hop : l.opcode = 0x0847) (hfull : programmed s (fld l.params 0 1) = true) :
    Ends s l fun u st => st = 0x0802 ∧ stored u = stored s := by
  have hwork : workDone l s = completeLong l 0x0802 [] s := by simp [workDone, hop, ownerSetDone, hpf, hfull]
  exact ends_of_work hlongs hobj (by rw [hop]; rfl) hwork rfl ⟨rfl, stored_completeLong _ _ rfl⟩

/-- OWNER_KEY_REVOKE blows its fuse under the other slot's signatures (R108). -/
theorem ends_ownerKeyRevoke (hop : l.opcode = 0x0848) (hn : fld l.params 0 1 ≤ 1) (hsigned : revokeSigned l s = true) :
    Ends s l fun u st => st = 0 ∧ (ownerSlot u (fld l.params 0 1)).revoked = true ∧
      ownerSlot u (1 - fld l.params 0 1) = ownerSlot s (1 - fld l.params 0 1) := by
  have hwork : workDone l s = completeLong l 0 [] (revokeFuse l s) := by
    simp [workDone, hop, ownerRevokeDone, hpf, hsigned]
  refine ends_of_work hlongs hobj (by rw [hop]; rfl) hwork (ownerMod_cmd _ _ _) ⟨rfl, ?_, ?_⟩
  · rw [ownerSlot_completeLong, revokeFuse, ownerSlot_ownerMod_same]
  · rw [ownerSlot_completeLong, revokeFuse, ownerSlot_ownerMod_other hn]

theorem ends_ownerKeyRevoke_refused (hop : l.opcode = 0x0848) (hsigned : revokeSigned l s = false) :
    Ends s l fun u st => st = 0x0803 ∧ stored u = stored s := by
  have hwork : workDone l s = completeLong l 0x0803 [] s := by simp [workDone, hop, ownerRevokeDone, hpf, hsigned]
  exact ends_of_work hlongs hobj (by rw [hop]; rfl) hwork rfl ⟨rfl, stored_completeLong _ _ rfl⟩

/-- NV_WRITE stores the bytes it reads (R600). -/
theorem ends_nvWrite (hop : l.opcode = 0x0641) {b : Bytes} {e : Nat}
    (hread : readBytes (unitInit uSYS 0) (fld l.params 8 8) (fld l.params 4 4) s = (.ok, b, e, s)) :
    Ends s l fun u st => st = 0 ∧ storeBytes u.sec.nv (fld l.params 0 4) b.length = b := by
  have hreg : regF s uPOWER 0 0x000 31 31 ≠ 1 := by simpa [nvPaused] using hpf
  have hwork : workDone l s = completeLong l 0 (leBytes 4 (fld l.params 4 4))
      (storeWrite .nv (fld l.params 0 4) b s) := by simp [workDone, hop, nvDone, hreg, hread]
  refine ends_of_work hlongs hobj (by rw [hop]; rfl) hwork rfl ⟨rfl, ?_⟩
  rw [completeLong_sec]
  exact storeBytes_storePut_same _ _ _

/-! ### Installs (R72, R92, R95) -/

variable (hop : l.opcode = 0x0145 ∨ l.opcode = 0x0841)
include hop

/-- An image that does not verify is not written. -/
theorem ends_install_refused {no : Nat} (hv : (installVerify l s).1 = some no) (hno : no ≠ 0) :
    Ends s l fun u st => st = no ∧ stored u = stored s := by
  have hisland := island_installVerify s l
  have hwork : workDone l s = completeLong l no [] (installVerify l s).2.2 := by
    rw [workDone_install hop]
    exact installDone_refused hpf (Prod.ext hv rfl) hno
  exact ends_of_work hlongs hobj (worked_install hop) hwork (cmd_of_island hisland)
    ⟨rfl, stored_completeLong _ _ (sec_of_island hisland)⟩

/-- An image that verifies becomes the newest slot of its type, with a serial one above the largest. -/
theorem ends_install {b : Bytes} {w : State} (hv : installVerify l s = (some 0, b, w)) (h1 : 1 ≤ installType l)
    (h4 : installType l ≤ 4) (hlen : b.length ≤ slotSize (installStore l) (installType l))
    (hser : nextSerial s (installStore l) (installType l) < 2 ^ 64) : Ends s l fun u st => st = 0 ∧
      newestSlot u (installStore l) (installType l) = some (installSlot s (installStore l) (installType l),
        nextSerial s (installStore l) (installType l), b) := by
  have hisland : island w = island s := by rw [← island_installVerify s l, hv]
  have hwork : workDone l s = completeLong l 0
      [BitVec.ofNat 8 (installImage (installStore l) (installType l) b w).1, 0, 0, 0]
      (installImage (installStore l) (installType l) b w).2 := by
    rw [workDone_install hop, installDone_verified hpf hv]
  have hstore := newestSlot_congr (type := installType l) (storeOf_congr (sec_of_island hisland) (installStore l))
  have hslot : installSlot w (installStore l) (installType l) = installSlot s (installStore l) (installType l) := by
    simp only [installSlot, hstore]
  have hnext : nextSerial w (installStore l) (installType l) = nextSerial s (installStore l) (installType l) := by
    simp only [nextSerial, hstore]
  refine ends_of_work hlongs hobj (worked_install hop) hwork
    ((cmd_installImage _ _ _ _).trans (cmd_of_island hisland)) ⟨rfl, ?_⟩
  rw [newestSlot_completeLong, newestSlot_installImage h1 h4 hlen (hnext ▸ hser), hslot, hnext]

end
end

/-- The next serial fits its field while the newest is below the largest. -/
theorem nextSerial_lt {s : State} {w : Store} {type : Nat}
    (h : ∀ k ser img, newestSlot s w type = some (k, ser, img) → ser < 2 ^ 64 - 1) : nextSerial s w type < 2 ^ 64 := by
  unfold nextSerial
  cases hn : newestSlot s w type with
  | none => decide
  | some x =>
    have := h x.1 x.2.1 x.2.2 hn
    simp only [Option.map_some, Option.getD_some]
    omega

/-- Settles O12: each kind of command ends by its own work, and while PFAIL is set by none. -/
theorem securityCompletions : Obligations.SecurityCompletions := by
  unfold Obligations.SecurityCompletions
  intro s l b w hlongs hobj _ n ends stores
  exact ⟨effect_paused hlongs hobj, fun hpf => ⟨ends_rollback hlongs hobj hpf,
    fun hop hfree hn => ends_ownerKeysSet hlongs hobj hpf hop hn hfree,
    ends_ownerKeysSet_refused hlongs hobj hpf,
    ends_ownerKeyRevoke hlongs hobj hpf,
    ends_ownerKeyRevoke_refused hlongs hobj hpf,
    fun _ hop hread => ends_nvWrite hlongs hobj hpf hop hread,
    fun hop hv h1 h4 _ hlen hser => ends_install hlongs hobj hpf hop hv h1 h4 hlen (nextSerial_lt hser),
    fun _ hop hv hno => ends_install_refused hlongs hobj hpf hop hv hno⟩,
    ends_attest hlongs hobj⟩

end Sys2Proof.Machine
end

section
/-!
SUPPORT. What a packet sent by a unit and the delivery of events and decrements leave alone: the carriers' run-time
state, and every counter that has begun to count (04_baseband.md, R140; 05_shuttle.md, R162 to R189; 14_spool_dma.md,
R477 to R487).
-/
namespace Sys2Proof.Machine
open Sys2Proof

/-- From `p` to `s` no carrier's run-time state changes, and no counter returns to zero. -/
structure Aside (p s : State) : Prop where
  carriers : s.carriers = p.carriers
  counts : ∀ k, cntGet p k ≠ 0 → cntGet s k ≠ 0

section
variable {p s t : State}

theorem Aside.refl (s : State) : Aside s s := ⟨rfl, fun _ => id⟩

/-- What writes neither table stands aside. -/
theorem Aside.same (hk : Aside p s) (hc : t.carriers = s.carriers) (hn : t.counters = s.counters) : Aside p t :=
  ⟨hc.trans hk.carriers, fun k h => by rw [cntGet, hn]; exact hk.counts k h⟩

theorem Aside.foldl {α : Type} {f : State → α → State} (l : List α) (hk : Aside p s)
    (hf : ∀ t a, Aside p t → Aside p (f t a)) : Aside p (l.foldl f s) := by
  induction l generalizing s with
  | nil => exact hk
  | cons a r ih => exact ih (hf s a hk)

theorem Aside.ite {c : Prop} [Decidable c] (hs : Aside p s) (ht : Aside p t) : Aside p (if c then s else t) := by
  split
  · exact hs
  · exact ht

theorem Aside.ite_snd {α : Type} {c : Prop} [Decidable c] {x y : α × State} (hx : Aside p x.2) (hy : Aside p y.2) :
    Aside p (if c then x else y).2 := by
  split
  · exact hx
  · exact hy

/-! ### What writes other parts of the state -/

theorem aside_regPut {u i o : Nat} {v : W32} (hk : Aside p s) : Aside p (regPut u i o v s) := hk.same rfl rfl
theorem aside_regBump {u i o hi lo n : Nat} (hk : Aside p s) : Aside p (regBump u i o hi lo n s) := hk.same rfl rfl
theorem aside_raise {c u i n : Nat} {d : Bytes} (hk : Aside p s) : Aside p (raise c u i n d s) := hk.same rfl rfl
theorem aside_queuePut {q : Nat} {x : Queue} (hk : Aside p s) : Aside p (queuePut q x s) := hk.same rfl rfl
theorem aside_pktPut {h : Nat} {x : Packet} (hk : Aside p s) : Aside p (pktPut h x s) := hk.same rfl rfl
theorem aside_pktFree {h : Nat} (hk : Aside p s) : Aside p (pktFree h s) := hk.same rfl rfl
theorem aside_putErr {w : Nat} {e : ErrPat} (hk : Aside p s) : Aside p (putErr w e s) := hk.same rfl rfl
theorem aside_storeRaw {a : Nat} {b : Bytes} (hk : Aside p s) : Aside p (storeRaw a b s) := hk.same rfl rfl
theorem aside_slotPut {t : Nat} {x : Slot} (hk : Aside p s) : Aside p (slotPut t x s) := hk.same rfl rfl
theorem aside_flowPut {f : Nat} {x : Flow} (hk : Aside p s) : Aside p (flowPut f x s) := hk.same rfl rfl
theorem aside_shuttle {x : Shuttle} (hk : Aside p s) : Aside p { s with shuttle := x } := hk.same rfl rfl

/-! ### Counts, events and outputs -/

theorem aside_cntBump {j n : Nat} (hk : Aside p s) : Aside p (cntBump j n s) := by
  refine ⟨hk.carriers, fun k h => ?_⟩
  have hs := hk.counts k h
  by_cases hj : k = j
  · subst hj
    rw [cntGet, cntBump, spGet_spSet_same, satN]
    split <;> omega
  · rwa [cntGet, cntBump, spGet_spSet_ne _ _ _ hj]

theorem aside_raiseLim {ns key code u i sev : Nat} {d : Bytes} (hk : Aside p s) :
    Aside p (raiseLim ns key code u i sev d s) := by
  unfold raiseLim
  dsimp only
  split
  · exact hk.ite (hk.same rfl rfl)
  · exact hk.same rfl rfl

theorem aside_emit {o : Out} (hk : Aside p s) : Aside p (emit o s) := by
  unfold emit
  split
  · exact hk.same rfl rfl
  · unfold sendOut
    cases o with
    | eth => exact aside_cntBump (hk.same rfl rfl)
    | bupex => exact aside_cntBump (hk.same rfl rfl)
    | _ => exact hk.same rfl rfl

/-! ### Packets and their cells -/

theorem aside_badHandle {h q : Nat} {i : Initiator} (hk : Aside p s) : Aside p (badHandle h q i s) :=
  aside_raiseLim (hk.same rfl rfl)

theorem aside_quarantine {q : Nat} {extra : List Nat} (hk : Aside p s) : Aside p (quarantine q extra s) := by
  refine aside_raise (aside_queuePut (hk.foldl _ fun t h ht => ?_))
  split
  · exact aside_pktPut ht
  · exact ht

theorem aside_dequeue {q : Nat} (hk : Aside p s) : Aside p (dequeue q s).2 := by
  unfold dequeue
  split
  · exact hk.same rfl rfl
  · split
    · dsimp only
      exact aside_queuePut (aside_quarantine (hk.same rfl rfl))
    · dsimp only
      split
      · exact hk.same rfl rfl
      · dsimp only
        split
        · exact hk.same rfl rfl
        · exact hk.same rfl rfl

theorem aside_sendNotice {q : Nat} {named : Option Nat} {e : Bool} {i : Initiator} (hk : Aside p s) :
    Aside p (sendNotice q named e i s) := by
  unfold sendNotice
  cases named with
  | some t => exact hk.same rfl rfl
  | none => exact Aside.ite (hk.same rfl rfl) (Aside.ite (aside_emit hk) hk)

theorem aside_enqueue {q h : Nat} {named : Option Nat} {i : Initiator} (hk : Aside p s) :
    Aside p (enqueue q h named i s).2 := by
  unfold enqueue
  split
  · exact aside_badHandle hk
  · split
    · exact aside_quarantine (hk.same rfl rfl)
    · dsimp only
      split
      · exact aside_raiseLim (hk.same rfl rfl)
      · exact aside_sendNotice (hk.same rfl rfl)

theorem aside_unitEnqueue {q h : Nat} {named : Option Nat} {i : Initiator} (hk : Aside p s) :
    Aside p (unitEnqueue q h named i s).2 := by
  have he : Aside p (enqueue q h named i s).2 := aside_enqueue hk
  unfold unitEnqueue
  generalize enqueue q h named i s = e at he ⊢
  obtain ⟨k, u⟩ := e
  cases k with
  | full => exact he.same rfl rfl
  | _ => exact he

theorem aside_pickCells {used : List Nat} {base size n : Nat} (hk : Aside p s) :
    Aside p (pickCells used base size n s).2 := by
  induction n generalizing used s with
  | zero => exact hk
  | succ n ih => exact ih (hk.same rfl rfl)

theorem aside_alloc {who : Allocator} {len : Nat} (hk : Aside p s) : Aside p (alloc who len s).2 := by
  unfold alloc
  extract_lets n freeOn usable freeExt
  by_cases hroom : len = 0 ∨ n > usable + freeExt
  · rw [if_pos hroom]
    exact hk
  · rw [if_neg hroom]
    dsimp only
    split
    · exact aside_pickCells (aside_pickCells hk)
    · exact aside_pktPut (aside_pickCells (aside_pickCells hk))

theorem aside_memFlip {ch w : Nat} (hk : Aside p s) : Aside p (memFlip ch w s).2 := by
  unfold memFlip
  dsimp only
  split
  · exact aside_regPut (hk.foldl _ fun t _ ht => aside_regPut ht)
  · exact hk

theorem aside_sdramStore {ch w : Nat} {b : Bytes} (hk : Aside p s) : Aside p (sdramStore ch w b s) :=
  aside_putErr (aside_storeRaw (aside_memFlip hk))

theorem aside_memDevCount {ch rank pos : Nat} (hk : Aside p s) : Aside p (memDevCount ch rank pos s) := by
  unfold memDevCount
  dsimp only
  exact Aside.ite (hk.same rfl rfl) (hk.same rfl rfl)

theorem aside_memCe {ch rank pos w : Nat} (hk : Aside p s) : Aside p (memCe ch rank pos w s) :=
  aside_raiseLim (aside_memDevCount (aside_regPut (aside_regPut (aside_regBump hk))))

theorem aside_memUe {ch rank w : Nat} {m : Bool} {i : Initiator} (hk : Aside p s) :
    Aside p (memUe ch rank w m i s) := by
  unfold memUe
  dsimp only
  exact aside_raise (Aside.ite (aside_regBump hk) (aside_regPut (aside_regPut (aside_regBump hk))))

theorem aside_mergeWords {i : Initiator} {ch rank : Nat} {l : List Nat} (hk : Aside p s) :
    Aside p (mergeWords i ch rank l s) := by
  induction l generalizing s with
  | nil => exact hk
  | cons w ws ih =>
    unfold mergeWords
    refine ih (Aside.ite (aside_sdramStore hk) ?_)
    split
    · exact aside_sdramStore hk
    · exact aside_sdramStore (aside_memCe hk)
    · exact aside_memUe hk

theorem aside_cellEncode {w : Nat} (hk : Aside p s) : Aside p (cellEncode w s) := by
  unfold cellEncode
  split
  · exact aside_putErr (aside_memFlip hk)
  · exact hk.same rfl rfl

theorem aside_cellMerge {a n : Nat} (hk : Aside p s) : Aside p (cellMerge a n s) := by
  unfold cellMerge
  split
  · exact aside_mergeWords hk
  · exact hk

theorem aside_fillCells {l : List Nat} {b : Bytes} (hk : Aside p s) : Aside p (fillCells l b s) := by
  induction l generalizing b s with
  | nil => exact hk
  | cons c cs ih =>
    refine ih (Aside.foldl _ (aside_storeRaw (aside_cellMerge hk)) fun t _ ht => aside_cellEncode ht)

theorem aside_fillPacket {h : Nat} {b : Bytes} (hk : Aside p s) : Aside p (fillPacket h b s) := by
  unfold fillPacket
  split
  · exact aside_fillCells hk
  · exact hk

/-- A packet that a unit sends. -/
theorem aside_unitSend {who : Allocator} {q : Nat} {b : Bytes} {i : Initiator} (hk : Aside p s) :
    Aside p (unitSend who q b i s).2 := by
  have ha : Aside p (alloc who b.length s).2 := aside_alloc hk
  unfold unitSend
  generalize alloc who b.length s = x at ha ⊢
  obtain ⟨_ | h, u⟩ := x
  · exact aside_raiseLim ha
  · have he : Aside p (unitEnqueue q h none i (fillPacket h b u)).2 := aside_unitEnqueue (aside_fillPacket ha)
    dsimp only
    generalize unitEnqueue q h none i (fillPacket h b u) = y at he ⊢
    obtain ⟨_ | _, v⟩ := y
    · exact he
    · exact he

/-! ### Decrements and completed work -/

theorem aside_shCount {k n : Nat} (hk : Aside p s) : Aside p (shCount k n s) := aside_cntBump hk

theorem aside_shCountCrew {crew k n : Nat} (hk : Aside p s) : Aside p (shCountCrew crew k n s) :=
  aside_cntBump (aside_cntBump hk)

theorem aside_beamFree {h : Nat} (hk : Aside p s) : Aside p (beamFree h s) :=
  Aside.ite (hk.same rfl rfl) (aside_badHandle hk)

theorem aside_beamRelease {f n : Nat} (hk : Aside p s) : Aside p (beamRelease f n s) := by
  induction n generalizing s with
  | zero => exact hk
  | succ n ih =>
    unfold beamRelease
    dsimp only
    split
    · exact hk
    · split
      · exact hk
      · refine ih (Aside.foldl _ (hk.same rfl rfl) fun t h ht => ?_)
        split
        · exact aside_unitEnqueue ht
        · exact aside_beamFree ht

theorem aside_closeSeq {f n : Nat} {rel : Bool} (hk : Aside p s) : Aside p (closeSeq f n rel s) := by
  unfold closeSeq
  dsimp only
  split
  · exact Aside.foldl _ (hk.same rfl rfl) fun t h ht => aside_beamFree ht
  · exact aside_beamRelease (hk.same rfl rfl)

theorem aside_decSuccessors {d : TaskDesc} {t : Nat} {ok : Bool} (hk : Aside p s) :
    Aside p (decSuccessors d t ok s) :=
  Aside.ite hk (hk.same rfl rfl)

theorem aside_completeWork {w : Work} {ok : Bool} {crew : Nat} (hk : Aside p s) :
    Aside p (completeWork w ok crew s) := by
  unfold completeWork
  extract_lets x d t s1 s2 s3
  have h1 : Aside p s1 := Aside.ite (aside_raiseLim (Aside.ite (aside_shCount hk) (aside_shCountCrew hk))) hk
  have h2 : Aside p s2 := Aside.ite h1 (aside_slotPut h1)
  have h3 : Aside p s3 := aside_decSuccessors (aside_shuttle h2)
  exact Aside.ite (aside_closeSeq h3) h3

theorem aside_becomeReady {w : Work} (hk : Aside p s) : Aside p (becomeReady w s) :=
  Aside.ite (aside_completeWork hk) (Aside.ite (aside_raise (aside_completeWork hk))
    (aside_shuttle (Aside.ite hk (aside_slotPut hk))))

theorem aside_createInstance {t : Nat} {failed : Bool} (hk : Aside p s) : Aside p (createInstance t failed s) := by
  have hb : Aside p (if (slot s t).desc.bindQ = 0xFFFF then (none, s) else dequeue (slot s t).desc.bindQ s).2 :=
    Aside.ite_snd hk (aside_dequeue hk)
  exact aside_becomeReady (Aside.ite_snd (aside_flowPut hb) hb)

theorem aside_noticeTemplate {t n : Nat} {failed : Bool} (hk : Aside p s) : Aside p (noticeTemplate t failed n s) := by
  induction n generalizing s with
  | zero => exact hk
  | succ n ih =>
    exact ih (Aside.ite (aside_createInstance hk) (Aside.ite (aside_slotPut hk) (aside_raise (aside_shCount hk))))

theorem aside_decrement {n : Notice} (hk : Aside p s) : Aside p (decrement n s) := by
  unfold decrement
  dsimp only
  split
  · exact Aside.ite hk (aside_raise (aside_shCount hk))
  · exact aside_noticeTemplate hk
  · exact Aside.ite hk (Aside.ite (aside_raise (aside_shCount (aside_slotPut hk))) (aside_slotPut hk))

/-! ### The delivery of events -/

theorem aside_deliverTo {q : Nat} {b : Bytes} (hk : Aside p s) : Aside p (deliverTo q b s) := by
  have ha : Aside p (alloc .event 32 s).2 := aside_alloc hk
  unfold deliverTo
  dsimp only
  refine Aside.ite (aside_regBump hk) ?_
  generalize alloc .event 32 s = x at ha ⊢
  obtain ⟨_ | h, u⟩ := x
  · exact aside_regBump ha
  · have he : Aside p (enqueue q h none (unitInit uSYS 0) (fillPacket h b u)).2 := aside_enqueue (aside_fillPacket ha)
    dsimp only
    generalize enqueue q h none (unitInit uSYS 0) (fillPacket h b u) = y at he ⊢
    obtain ⟨k, v⟩ := y
    cases k with
    | joined => exact he
    | full => exact aside_regBump (aside_pktFree he)
    | _ => exact aside_regBump he

theorem aside_deliver {e : Event} (hk : Aside p s) : Aside p (deliver e s) := by
  have h0 : Aside p (deliverTo 0 (eventBytes s e) { s with evSeq := (s.evSeq + 1) % 65536 }) :=
    aside_deliverTo (hk.same rfl rfl)
  refine Aside.foldl _ (Aside.foldl _ h0 fun t n ht => ?_) fun t v ht => aside_emit ht
  exact Aside.ite ht (aside_deliverTo ht)

/-! ### The evaluation of the projections -/

theorem aside_holdSlack {k : Nat} {ok : Bool} (hk : Aside p s) : Aside p (holdSlack k ok s).2 := by
  unfold holdSlack
  dsimp only
  split
  · exact aside_shuttle hk
  · split
    · exact hk
    · exact aside_shuttle hk

theorem aside_countOverruns (hk : Aside p s) : Aside p (countOverruns s) :=
  hk.foldl _ fun _ _ ht => Aside.ite (aside_shCountCrew (aside_shuttle ht)) ht

theorem aside_setService {v : Service} (hk : Aside p s) : Aside p (setService v s) := by
  have hcrews : Aside p (s.shuttle.crewRescue.foldl (fun s n => rescueEvent false n s) s) :=
    hk.foldl _ fun _ _ ht => aside_raise ht
  have hends : Aside p (endRescues s) := aside_shuttle (Aside.ite (aside_raise hcrews) hcrews)
  exact aside_shuttle (Aside.ite hends hk)

theorem aside_evalCrew {n : Nat} (hk : Aside p s) : Aside p (evalCrew n s) := by
  unfold evalCrew
  dsimp only
  have hh : Aside p (holdSlack n (slackOk s (some n)) s).2 := aside_holdSlack hk
  exact Aside.ite (Aside.ite (aside_raise (aside_shuttle hh)) hh)
    (Aside.ite (aside_shCountCrew (aside_raise (aside_shuttle hk))) hk)

theorem aside_rescueEval (hk : Aside p s) : Aside p (rescueEval s) := by
  have h0 : Aside p (countOverruns { s with shuttle := { s.shuttle with evalDue := false } }) :=
    aside_countOverruns (aside_shuttle hk)
  unfold rescueEval
  generalize countOverruns { s with shuttle := { s.shuttle with evalDue := false } } = u at h0 ⊢
  dsimp only
  split
  · have h1 : Aside p ((List.range 12).foldl (fun s n => evalCrew n s) u) := h0.foldl _ fun _ _ ht => aside_evalCrew ht
    generalize (List.range 12).foldl (fun s n => evalCrew n s) u = v at h1 ⊢
    have hh : Aside p (holdSlack 15 (slackOk v none) v).2 := aside_holdSlack h1
    exact Aside.ite (Aside.ite (aside_raise (aside_shuttle hh)) hh)
      (Aside.ite (aside_shCount (aside_raise (aside_shuttle h1))) h1)
  · have hh : Aside p (holdSlack 15 (slackOk u none) u).2 := aside_holdSlack h0
    exact Aside.ite (aside_setService hh) hh
  · exact h0

/-- All that a step raised, carried through. -/
theorem aside_settle {n : Nat} (hk : Aside p s) : Aside p (settle n s) := by
  induction n generalizing s with
  | zero => exact hk
  | succ n ih =>
    unfold settle
    split
    · exact ih (aside_decrement (hk.same rfl rfl))
    · split
      · exact ih (aside_deliver (hk.same rfl rfl))
      · exact Aside.ite (ih (aside_rescueEval hk)) hk

end

end Sys2Proof.Machine
end

section
/-!
SUPPORT. A U-plane message that is taken and not counted: the state it arrives in, and what it leaves (04_baseband.md,
R133, R135, R140; 13_memory_ecc.md, R465, R469).
-/
namespace Sys2Proof.Machine
open Sys2Proof

/-- An NR carrier of 20 MHz FDD at 15 kHz with one antenna each way, on port 3 and eAxC 7. -/
def fddBody : Bytes :=
  [0, 1] ++ leBytes 2 20 ++ leBytes 2 20 ++ [1, 1, 1, 1] ++ leBytes 2 8 ++ leBytes 4 300000 ++ leBytes 4 310000 ++
  leBytes 2 1 ++ zeros 18 ++ leBytes 2 200 ++ leBytes 2 400 ++ [9, 1, 1, 4, 2, 2, 48, 0] ++ leBytes 2 70 ++
  leBytes 2 71 ++ leBytes 2 72 ++ leBytes 2 73 ++ zeros 20 ++ [3, 3] ++ leBytes 2 7 ++ zeros 4

/-- Symbol 0 of its slot 0 on antenna 0, of which nothing has arrived; its packet lies in the first extension cell. -/
def emptySymbol : UlSymbol := { slot := 0, sym := 0, ant := 0, handle := onChip }

/-- The entry of its antenna map. -/
def fddAntenna : AntEntry := { port := 3, dir := 3, eaxc := 7, ant := 0 }

/-- Two symbols of a code word wrong, which no decoder of Code D corrects (R461). -/
def twoSymbolsWrong : ErrPat := { data := 0x10001 }

/-- The carrier runs, at the start of its frame 0. The one SDRAM channel in service bears the number 0x1A00, which no
part has: the register that counts its uncorrectable errors has the key of FRONTHAUL_CNT_CTRL. Of the burst that holds
the packet's two code words the other two are not correctable. The host has disabled the event queue. -/
def mergeFreezes : State :=
  { coxCount := 315964819000000000 * 2 ^ 48
    objs := [(carrierObj 1 9, { body := fddBody, st := some .running, cost := 2 })]
    carriers := [(9, { symbols := [emptySymbol] })]
    spool := { packets := [(onChip, { cells := [onChip], len := 48, st := .opened, fronthaul := true })]
               queues := [(0, { en := false })] }
    memChans := [0x1A00], memGib := 1
    ecc := [(64, twoSymbolsWrong), (96, twoSymbolsWrong)] }

/-- The first resource block of the symbol, all zero. -/
def zeroBlock : Prb := { mantissas := List.replicate 24 0 }

/-- The error count of that channel and the register with FREEZE are one. -/
theorem memUe_count_key : regKey uMEM 0x1A00 0x008 = regKey uFRONTHAUL 0 0x008 := rfl

/-- OBJ_SET accepts the carrier's body. -/
theorem carrierCheck_fddBody : carrierCheck mergeFreezes (carrierObj 1 9) fddBody = 0 := by decide +kernel

/-- FREEZE is clear, and the symbol's first block arrives within its window for a carrier that serves it. -/
theorem mergeFreezes_receives :
    regF mergeFreezes uFRONTHAUL 0 0x008 1 1 = 0 ∧
    carrierFind mergeFreezes 9 = some (carrierObj 1 9, { body := fddBody, st := some .running, cost := 2 }) ∧
    eaxcFind mergeFreezes 3 7 1 = some (9, carrierObj 1 9, fddBody, fddAntenna) ∧
    slotServed mergeFreezes 9 0 = true ∧ spFind mergeFreezes.fhSeq (3 * 65536 + 7) = none ∧
    symbolStart (carrierObj 1 9) fddBody 0 0 ≤ shortNow mergeFreezes ∧
    shortNow mergeFreezes ≤ symbolStart (carrierObj 1 9) fddBody 0 1 + carUlWindowNs fddBody ∧
    (∀ p ∈ (List.range 1).map (· + 0), p < carRb (carrierObj 1 9) fddBody 4) ∧
    (carrierRun mergeFreezes 9).dropped.contains (ulKey 0 0 0) = false ∧
    ulFind mergeFreezes 9 0 0 0 = some emptySymbol := by
  decide +kernel

/-- Writing the block merges the rest of its burst, which counts two errors in the register with FREEZE before the block
would be counted. -/
theorem mergeFreezes_counts_nothing :
    cntGet (settle 4096 (uplaneMessage 3 7 0 0 0 0 [zeroBlock] mergeFreezes)) (cntKey uFRONTHAUL 9 fhACCEPTED) = 0 := by
  decide +kernel

/-- Refutes O13 in its clause on blocks taken within their window, which is stated of every `State`: where the list of
channels in service names one that no part has, the memory errors met while a block is written set FREEZE, and ACCEPTED
does not count the block. No delivery of events makes up for it: a counter that has begun to count never returns to
zero. -/
theorem not_carriersAndFronthaul : ¬ Obligations.CarriersAndFronthaul := by
  unfold Obligations.CarriersAndFronthaul
  intro h
  obtain ⟨hfreeze, hfind, heaxc, hserved, hseq, hstart, hclose, hblocks, hdropped, hsymbol⟩ := mergeFreezes_receives
  obtain ⟨_, _, _, hmessage, _⟩ :=
    h mergeFreezes 9 _ _ 3 7 0 0 0 0 [zeroBlock] fddAntenna emptySymbol 0 [] hfreeze hfind
  obtain ⟨_, _, hwindow⟩ := hmessage heaxc hserved hseq
  obtain ⟨htaken, _⟩ := hwindow hstart hclose hblocks hdropped hsymbol rfl
  obtain ⟨u, hexec, hcount, _⟩ := htaken fun _ _ => List.not_mem_nil
  have hsettled : settle 4096 (uplaneMessage 3 7 0 0 0 0 [zeroBlock] mergeFreezes) = settle 4096 u :=
    Host.Outcome.next.inj hexec
  have hcounted : cntGet u (cntKey uFRONTHAUL 9 fhACCEPTED) ≠ 0 := by
    intro h0
    have h1 : (0 : Nat) = min 0xFFFFFFFF (_ + 1) := h0.symm.trans hcount
    omega
  refine (aside_settle (n := 4096) (Aside.refl u)).counts _ hcounted ?_
  rw [← hsettled]
  exact mergeFreezes_counts_nothing

end Sys2Proof.Machine
end

section
/-!
SUPPORT. A carrier that runs: the slot whose scheduling is due, and the end of a statistics period (04_baseband.md,
R141, R151 to R153, R155).
-/
namespace Sys2Proof.Machine
open Sys2Proof

/-- What one element of a list brings about, and none undoes, holds after all of them. -/
theorem foldl_establishes {α β : Type} {P : β → Prop} {f : β → α → β} {l : List α} {k : α}
    (hk : ∀ s, P (f s k)) (hkeep : ∀ s a, P s → P (f s a)) (hmem : k ∈ l) (s : β) : P (l.foldl f s) := by
  have kept : ∀ (r : List α) t, P t → P (r.foldl f t) := fun r => by
    induction r with
    | nil => exact fun _ ht => ht
    | cons a r ih => exact fun t ht => ih _ (hkeep t a ht)
  induction l generalizing s with
  | nil => exact absurd hmem List.not_mem_nil
  | cons a r ih =>
    rcases List.mem_cons.1 hmem with h | h
    · subst h
      exact kept r _ (hk s)
    · exact ih h _

/-- A loop that writes only the key store. -/
theorem foldl_keys_frame {α : Type} {f : State → α → State} (hf : ∀ s a, ∃ m, f s a = { s with keys := m })
    (l : List α) (s : State) : ∃ m, l.foldl f s = { s with keys := m } := by
  induction l generalizing s with
  | nil => exact ⟨s.keys, rfl⟩
  | cons a r ih =>
    obtain ⟨m, hm⟩ := hf s a
    obtain ⟨m', hm'⟩ := ih (f s a)
    exact ⟨m', by rw [List.foldl_cons, hm', hm]⟩

/-! ### The keys of a handset (R312, R313) -/

/-- The keys of bearer `k` in a request. -/
def requestKeys (p : Bytes) (k : Nat) : KeySlot :=
  { first := sub p (56 + 64 * k) 16, second := sub p (72 + 64 * k) 16 }

/-- Key slot `k` of a handset as a request writes it, and cleared. -/
def keyWrite (h : Nat) (p : Bytes) (s : State) (k : Nat) : State :=
  if k < fld p 10 2 then { s with keys := spPut s.keys (h * 8 + k) (requestKeys p k) }
  else { s with keys := spDel s.keys (h * 8 + k) }
def keyClear (h : Nat) (s : State) (k : Nat) : State := { s with keys := spDel s.keys (h * 8 + k) }

section
variable {s : State} {h k : Nat} {p : Bytes}

theorem keysWrite_eq (h : Nat) (p : Bytes) (s : State) : keysWrite h p s = (List.range 8).foldl (keyWrite h p) s := by
  have h1 : ∀ k, 24 + 64 * k + 32 = 56 + 64 * k := fun k => by omega
  have h2 : ∀ k, 24 + 64 * k + 48 = 72 + 64 * k := fun k => by omega
  simp only [keysWrite, h1, h2]
  rfl

theorem keysClear_eq (h : Nat) (s : State) : keysClear h s = (List.range 8).foldl (keyClear h) s := rfl

theorem spFind_keyWrite_same (hk : k < fld p 10 2) (s : State) :
    spFind (keyWrite h p s k).keys (h * 8 + k) = some (requestKeys p k) := by
  rw [keyWrite, if_pos hk]
  exact spFind_spPut_same _ _ _

theorem spFind_keyWrite_ne {j : Nat} (hj : j ≠ k) (s : State) :
    spFind (keyWrite h p s j).keys (h * 8 + k) = spFind s.keys (h * 8 + k) := by
  unfold keyWrite
  split
  · exact spFind_spPut_ne _ _ (by omega)
  · exact spFind_spDel_ne _ (by omega)

theorem spFind_keysWrite (hk : k < fld p 10 2) (h8 : k < 8) (s : State) :
    spFind (keysWrite h p s).keys (h * 8 + k) = some (requestKeys p k) := by
  rw [keysWrite_eq]
  refine foldl_establishes (f := keyWrite h p) (P := fun u => spFind u.keys (h * 8 + k) = some (requestKeys p k))
    (spFind_keyWrite_same hk) (fun u j hu => ?_) (List.mem_range.2 h8) s
  by_cases hj : j = k
  · subst hj
    exact spFind_keyWrite_same hk u
  · exact (spFind_keyWrite_ne hj u).trans hu

theorem spFind_keysClear (h8 : k < 8) (s : State) : spFind (keysClear h s).keys (h * 8 + k) = none := by
  rw [keysClear_eq]
  refine foldl_establishes (f := keyClear h) (P := fun u => spFind u.keys (h * 8 + k) = none)
    (fun _ => spFind_spDel_same _ _) (fun u j hu => ?_) (List.mem_range.2 h8) s
  by_cases hj : j = k
  · subst hj
    exact spFind_spDel_same _ _
  · exact (spFind_spDel_ne _ (by omega)).trans hu

theorem keysWrite_frame (h : Nat) (p : Bytes) (s : State) : ∃ m, keysWrite h p s = { s with keys := m } := by
  rw [keysWrite_eq]
  refine foldl_keys_frame (fun s k => ?_) _ s
  unfold keyWrite
  split
  · exact ⟨_, rfl⟩
  · exact ⟨_, rfl⟩

theorem keysClear_frame (h : Nat) (s : State) : ∃ m, keysClear h s = { s with keys := m } :=
  foldl_keys_frame (f := keyClear h) (fun _ _ => ⟨_, rfl⟩) _ s

/-- A handset with a context of a request in force. -/
def adopted (x : Handset) (p : Bytes) : Handset :=
  { x with ctx := stripKeys p, bearers := newBearers x.bearers p, next := none
           published := if bit (fld p 9 1) 0 && !bit (fld x.ctx 9 1) 0 then none else x.published }

theorem adoptContext_eq (h : Nat) (x : Handset) (p : Bytes) (s : State) :
    adoptContext h x p s = handsetPut h (adopted x p) (keysWrite h p s) := rfl

/-- A context put in force writes its handset and the key store. -/
theorem adoptContext_frame (h : Nat) (x : Handset) (p : Bytes) (s : State) : ∃ m,
    adoptContext h x p s = { s with handsets := spPut s.handsets h (adopted x p), keys := m } := by
  obtain ⟨m, hm⟩ := keysWrite_frame h p s
  rw [adoptContext_eq, hm]
  exact ⟨m, rfl⟩

end

/-! ### The carrier -/

section
variable {s : State} {c id n : Nat} {o : Object} {b : Bytes}

theorem carrierIn_of_find {st : FnState} (hf : carrierFind s c = some (id, o)) (hst : o.st = some st) :
    carrierIn s c st = some (id, o.body) := by
  simp [carrierIn, hf, hst]

theorem carrierFind_index (hc : c < 0x10000) (hf : carrierFind s c = some (id, o)) : id % 0x10000 = c := by
  have hid : id = carrierObj 1 c ∨ id = carrierObj 2 c := by
    unfold carrierFind at hf
    split at hf
    · exact .inl (by cases hf; rfl)
    · obtain ⟨x, _, hx⟩ := Option.map_eq_some_iff.1 hf
      exact .inr (by cases hx; rfl)
  unfold carrierObj objId at hid
  omega

/-! ### The scheduling stage (R141, R151 to R153) -/

theorem publish_off (h : carFlag b 1 = false) (k : Nat) : publish id b n k s = s := by
  unfold publish
  split
  · rfl
  · simp [h]

theorem airItems_none (h : (carrierRun s c).items = []) (l : List (Fin 6 × BitVec 8)) : airItems c id b n l s = s := by
  simp [airItems, h]

/-- A carrier's run-time state once slot `n` is released, with no broadcast item. -/
def releasedRun (s : State) (c id : Nat) (b : Bytes) (n : Nat) (air : CarrierFigure) : CarrierRun :=
  { carrierRun s c with
    released := some n, items := []
    dlPrb := (carrierRun s c).dlPrb + air.dlPrb.toNat, ulPrb := (carrierRun s c).ulPrb + air.ulPrb.toNat
    sinr := air.sinr.getD (carrierRun s c).sinr, ni := air.ni.getD (carrierRun s c).ni
    stages := slotStages id b n (shortNow s) (carrierRun s c).stages }

/-- The handsets whose removal takes effect in slot `n`. -/
def goneHandsets (s : State) (c n : Nat) : List (Nat × Handset) :=
  (handsetsOf s c).filter fun e => e.2.removed.any fun m => m ≤ n

/-- The handsets whose new context takes effect in slot `n`, with it. -/
def dueContexts (s : State) (c id : Nat) (b : Bytes) (n : Nat) : List (Nat × Handset × Bytes) :=
  (handsetsOf s c).filterMap fun e => match e.2.next with
    | some (p, t) => if (slotAt id b t).getD 0 ≤ n then some (e.1, e.2, p) else none
    | none => none

/-- The handsets served in slot `n`. -/
def servedHandsets (s : State) (c n : Nat) : List (Nat × Handset) :=
  (handsetsOf s c).filter fun e => e.2.first ≤ n && e.2.removed.isNone

/-- The removals and the new contexts of slot `n` taken into account. -/
def contextsOf (c id : Nat) (b : Bytes) (n : Nat) (s : State) : State :=
  let s := (goneHandsets s c n).foldl (fun s e => handsetGone id b n e.1 s) s
  (dueContexts s c id b n).foldl (fun s e => adoptContext e.1 e.2.1 e.2.2 s) s

section
variable (hin : carrierIn s c .running = some (id, b))
include hin

/-- The stage of a slot that has been released already does nothing (R141). -/
theorem macScheduling_released {m : Nat} (hm : (carrierRun s c).released = some m)
    (hdue : dueSlot id b (shortNow s) = some n) (hnm : n ≤ m)
    (figs : List SlotFigure) (air : CarrierFigure) : macScheduling c figs air s = s := by
  simp [macScheduling, carrierServing, hin, hdue, hm, hnm]

/-- The stage of a slot with nothing queued for it, no figures and no broadcast item. -/
theorem macScheduling_eq (hdue : dueSlot id b (shortNow s) = some n)
    (hrel : ∀ m, (carrierRun s c).released = some m → m < n) (hfirst : (carrierRun s c).first ≤ n)
    (hqueue : (queue s (fld b 58 2)).items = []) (hitems : (carrierRun s c).items = []) (air : CarrierFigure) :
    macScheduling c [] air s =
      let u := contextsOf c id b n (carrierPut c (releasedRun s c id b n air) s)
      airItems c id b n air.aired ((servedHandsets u c n).foldl (fun s e => publish id b n e.1 s) u) := by
  have hnew : ¬(n < (carrierRun s c).first ∨ (carrierRun s c).released.any (fun m => n ≤ m) = true) := by
    rintro (h | h)
    · omega
    · obtain ⟨m, hm, hnm⟩ := (Option.any_eq_true _ _).1 h
      exact absurd (of_decide_eq_true hnm) (Nat.not_le.2 (hrel m hm))
  unfold macScheduling
  simp only [carrierServing, hin, hdue, if_neg hnew, hqueue, List.length_nil, takeHostItems, hitems, applyItems,
    List.foldl_nil]
  rfl

end

theorem foldl_publish_off (hflag : carFlag b 1 = false) (l : List (Nat × Handset)) (u : State) :
    l.foldl (fun s e => publish id b n e.1 s) u = u :=
  List.foldl_fixed' (fun e => publish_off hflag e.1) l

/-- No context changes in a slot while no handset has a removal or a replacement to come. -/
theorem contextsOf_settled (h : ∀ e ∈ s.handsets, e.2.next = none ∧ e.2.removed = none) :
    contextsOf c id b n s = s := by
  have hmem : ∀ e ∈ handsetsOf s c, e.2.next = none ∧ e.2.removed = none :=
    fun e he => h e (List.mem_of_mem_filter he)
  have hgone : goneHandsets s c n = [] :=
    List.filter_eq_nil_iff.2 fun e he => by simp [(hmem e he).2]
  have hdue : dueContexts s c id b n = [] :=
    List.filterMap_eq_nil_iff.2 fun e he => by simp [(hmem e he).1]
  simp only [contextsOf, hgone, hdue, List.foldl_nil]

section
variable {h : Nat} {x : Handset} (hone : s.handsets = [(h, x)]) (hc : handsetCarrier x = c)
include hone hc

theorem handsetsOf_single : handsetsOf s c = [(h, x)] := by
  simp [handsetsOf, hone, hc]

/-- A replacement due in the slot comes into force. -/
theorem contextsOf_due {q : Bytes} {t : Nat} (hr : x.removed = none) (hn : x.next = some (q, t))
    (ht : (slotAt id b t).getD 0 ≤ n) : contextsOf c id b n s = adoptContext h x q s := by
  have hgone : goneHandsets s c n = [] := by simp [goneHandsets, handsetsOf_single hone hc, hr]
  have hdue : dueContexts s c id b n = [(h, x, q)] := by simp [dueContexts, handsetsOf_single hone hc, hn, ht]
  simp only [contextsOf, hgone, hdue, List.foldl_nil, List.foldl_cons]

/-- A removal due in the slot takes the context and its keys out; without FORECAST no record goes out. -/
theorem contextsOf_gone {m : Nat} (hr : x.removed = some m) (hm : m ≤ n) (hfc : bit (fld x.ctx 9 1) 0 = false) :
    contextsOf c id b n s = keysClear h { s with handsets := [] } := by
  obtain ⟨k, hk⟩ := keysClear_frame h { s with handsets := [] }
  have hgone : goneHandsets s c n = [(h, x)] := by simp [goneHandsets, handsetsOf_single hone hc, hr, hm]
  have hgo : handsetGone id b n h s = keysClear h { s with handsets := [] } := by
    simp [handsetGone, hone, spFind, spDel, hfc]
  have hdue : dueContexts (keysClear h { s with handsets := [] }) c id b n = [] := by
    rw [hk]
    rfl
  simp only [contextsOf, hgone, List.foldl_cons, List.foldl_nil, hgo, hdue]

end

section
variable (hin : carrierIn s c .running = some (id, b)) (hdue : dueSlot id b (shortNow s) = some n)
  (hrel : ∀ m, (carrierRun s c).released = some m → m < n) (hfirst : (carrierRun s c).first ≤ n)
  (hqueue : (queue s (fld b 58 2)).items = []) (hitems : (carrierRun s c).items = []) (air : CarrierFigure)
include hin hdue hrel hfirst hqueue hitems

/-- A slot in which no context changes. -/
theorem macScheduling_settled (hflag : carFlag b 1 = false)
    (hh : ∀ e ∈ s.handsets, e.2.next = none ∧ e.2.removed = none) :
    macScheduling c [] air s = carrierPut c (releasedRun s c id b n air) s := by
  rw [macScheduling_eq hin hdue hrel hfirst hqueue hitems air,
    contextsOf_settled (s := carrierPut c (releasedRun s c id b n air) s) hh]
  dsimp only
  rw [foldl_publish_off hflag, airItems_none (by rw [carrierRun_carrierPut_same]; rfl)]

section
variable {h : Nat} {x : Handset} (hone : s.handsets = [(h, x)]) (hc : handsetCarrier x = c)
include hone hc

/-- A slot in which a replacement comes into force. -/
theorem macScheduling_due (hflag : carFlag b 1 = false) {q : Bytes} {t : Nat} (hr : x.removed = none)
    (hn : x.next = some (q, t)) (ht : (slotAt id b t).getD 0 ≤ n) : macScheduling c [] air s =
      adoptContext h x q (carrierPut c (releasedRun s c id b n air) s) := by
  obtain ⟨m, hm⟩ := adoptContext_frame h x q (carrierPut c (releasedRun s c id b n air) s)
  rw [macScheduling_eq hin hdue hrel hfirst hqueue hitems air,
    contextsOf_due (s := carrierPut c (releasedRun s c id b n air) s) hone hc hr hn ht]
  dsimp only
  rw [foldl_publish_off hflag, airItems_none]
  rw [hm]
  exact congrArg CarrierRun.items (carrierRun_carrierPut_same _ _ _)

/-- A slot in which a removal takes effect. -/
theorem macScheduling_gone {m : Nat} (hr : x.removed = some m) (hm : m ≤ n) (hfc : bit (fld x.ctx 9 1) 0 = false) :
    macScheduling c [] air s =
      keysClear h { carrierPut c (releasedRun s c id b n air) s with handsets := [] } := by
  obtain ⟨k, hk⟩ := keysClear_frame h { carrierPut c (releasedRun s c id b n air) s with handsets := [] }
  rw [macScheduling_eq hin hdue hrel hfirst hqueue hitems air,
    contextsOf_gone (s := carrierPut c (releasedRun s c id b n air) s) hone hc hr hm hfc, hk]
  exact airItems_none (congrArg CarrierRun.items (carrierRun_carrierPut_same _ _ _)) _

end
end

/-! ### The end of a statistics period (R155) -/

/-- The last slot looked at. -/
def lookedAt (s : State) (c n : Nat) : State := carrierPut c { carrierRun s c with statsSlot := n } s

/-- The record of a period that has ended, sent where STATS_EN asks for it. -/
def recordSent (id : Nat) (b : Bytes) (n slots : Nat) (s : State) : State :=
  if carFlag b 2 then fhSend (fld b 52 2) (carrierRecord s id b (slotStart id b n).toNat slots) s else s

/-- Sending a record leaves the carriers as they were. -/
theorem carrierRun_recordSent (slots d : Nat) : carrierRun (recordSent id b n slots s) d = carrierRun s d := by
  have hk : Aside s (recordSent id b n slots s) := Aside.ite (aside_unitSend (Aside.refl s)) (Aside.refl s)
  rw [carrierRun, hk.carriers, carrierRun]

section
variable (hin : carrierIn s c .running = some (id, b)) (hslot : slotAt id b (shortNow s) = some n)
include hin hslot

theorem statsPeriod_seen (hn : n ≤ (carrierRun s c).statsSlot) : statsPeriod c s = s := by
  simp [statsPeriod, hin, hslot, hn]

/-- A period's end without a handset: the record, and the counts begun anew. -/
theorem statsPeriod_ends (hh : s.handsets = []) (hn : (carrierRun s c).statsSlot < n)
    (hp : (carrierRun s c).period + 1000 ≤ n) : statsPeriod c s =
      let w := recordSent id b n (n - (carrierRun s c).period) (lookedAt s c n)
      carrierPut c { carrierRun s c with
        statsSlot := n, period := n, dlLate := 0, ulLost := 0, harqMiss := 0, air := {}
        dlPrb := 0, ulPrb := 0 } w := by
  have hrun : carrierRun (recordSent id b n (n - (carrierRun s c).period) (lookedAt s c n)) c =
      { carrierRun s c with statsSlot := n } := by
    rw [carrierRun_recordSent, lookedAt, carrierRun_carrierPut_same]
  have hnone : handsetsOf s c = [] := by simp [handsetsOf, hh]
  unfold statsPeriod
  simp only [hin, hslot, if_neg (Nat.not_le.2 hn), hnone, List.filter_nil, List.foldl_nil, if_pos hp]
  rw [← recordSent, ← lookedAt, hrun]

end
end
end Sys2Proof.Machine
end

section
/-!
SUPPORT. The requests about handsets and carriers (04_baseband.md, R149 to R156).
-/
namespace Sys2Proof.Machine
open Sys2Proof

/-! ### Fields of records put together from parts -/

theorem fld_append_from (a b : Bytes) {off w : Nat} (h : a.length ≤ off) :
    fld (a ++ b) off w = fld b (off - a.length) w := by
  have := fld_append_right a b (off - a.length) w
  rwa [Nat.add_sub_cancel' h] at this

theorem fld_cons_succ (x : BitVec 8) (b : Bytes) (off w : Nat) : fld (x :: b) (off + 1) w = fld b off w := rfl

theorem fld_cons_byte (x : BitVec 8) (b : Bytes) : fld (x :: b) 0 1 = x.toNat := by
  simp [fld, sub, leNat]

section
variable (t h c : Nat) (x : Handset)

theorem length_linkRecord : (linkRecord t h c x).length = 32 := by
  simp [linkRecord]

/-- The fields of a link-quality record (R155). -/
theorem fld_linkRecord (hh : h < 0x4000) (hc : c < 64) : fld (linkRecord t h c x) 0 8 = t % 2 ^ 64 ∧
    fld (linkRecord t h c x) 8 2 = h ∧ fld (linkRecord t h c x) 10 1 = c ∧
    fld (linkRecord t h c x) 11 1 = x.link.rank.toNat ∧ fld (linkRecord t h c x) 14 2 = evmOf x.air % 65536 ∧
    fld (linkRecord t h c x) 24 4 = x.air.dlBits / 8 % 2 ^ 32 ∧
    fld (linkRecord t h c x) 28 4 = x.air.ulBits / 8 % 2 ^ 32 := by
  have hh' : h % 65536 = h := Nat.mod_eq_of_lt (by omega)
  have hc' : c % 256 = c := Nat.mod_eq_of_lt (by omega)
  refine ⟨?_, ?_, ?_, ?_, ?_, ?_, ?_⟩
  all_goals
    simp (disch := simp) [linkRecord, fld_append_left, fld_append_from, fld_cons_succ, fld_cons_byte,
      fld_leBytes, hh', hc']

end

section
variable (s : State) (id : Nat) (b : Bytes) (t slots : Nat)

theorem length_carrierRecord : (carrierRecord s id b t slots).length = 64 := by
  simp [carrierRecord, zeros]

/-- The fields of a carrier's record (R155). -/
theorem fld_carrierRecord {c : Nat} (hid : id % 0x10000 = c) (hc : c < 64) :
    fld (carrierRecord s id b t slots) 0 8 = t % 2 ^ 64 ∧ fld (carrierRecord s id b t slots) 8 1 = c ∧
    fld (carrierRecord s id b t slots) 26 2 = (handsetsOf s c).length % 65536 ∧
    fld (carrierRecord s id b t slots) 28 4 = (carrierRun s c).dlLate % 2 ^ 32 ∧
    fld (carrierRecord s id b t slots) 32 4 = (carrierRun s c).ulLost % 2 ^ 32 ∧
    fld (carrierRecord s id b t slots) 36 4 = (carrierRun s c).harqMiss % 2 ^ 32 := by
  have hc' : c % 256 = c := Nat.mod_eq_of_lt (by omega)
  refine ⟨?_, ?_, ?_, ?_, ?_, ?_⟩
  all_goals
    simp (disch := simp) [carrierRecord, fld_append_left, fld_append_from, fld_cons_succ, fld_cons_byte,
      fld_leBytes, hid, hc']

end

/-! ### HANDSET_ADD and HANDSET_MODIFY (R149 to R152) -/

section
variable {s : State} {r : Request} {c id : Nat} {o : Object} {x : Handset}

/-- A request that is to be carried out, whatever it is addressed to. -/
theorem addressed_own (hd : dryRun r = false) (hr : r.reserved = false) : Addressed r r.unit.toNat r.inst.toNat :=
  ⟨rfl, rfl, hr, hd⟩

theorem contextCheck_transport (ht : r.transport ≠ .pcie) (modify : Bool) :
    contextCheck s r modify = stNOT_AUTHORISED := by
  have : (r.transport == Transport.pcie) = false := by simpa using ht
  rw [contextCheck, this]
  exact firstFail_fails (by decide) _

theorem handsetFind_none {h : Nat} (hx : spFind s.handsets h = none) : handsetFind s h = none := by
  rw [handsetFind, hx]
  rfl

theorem handsetFind_some {h : Nat} (hx : spFind s.handsets h = some x) (hrem : x.removed = none) :
    handsetFind s h = some x := by
  simp [handsetFind, hx, Option.filter, hrem]

theorem handsetPut_find (h : Nat) (x : Handset) (s : State) : spFind (handsetPut h x s).handsets h = some x :=
  spFind_spPut_same _ _ _

theorem handsetPut_find_ne {h j : Nat} (hj : j ≠ h) (x : Handset) (s : State) :
    spFind (handsetPut h x s).handsets j = spFind s.handsets j := spFind_spPut_ne _ _ hj

section
variable (hd : dryRun r = false) (hr : r.reserved = false)
include hd hr

/-- Contexts with their keys come over PCI Express only (R150). -/
theorem replies_context_transport (ht : r.transport ≠ .pcie) :
    Replies (.handsetAdd r) s 0x0240 r 0x0023 [] s ∧ Replies (.handsetModify r) s 0x0241 r 0x0023 [] s :=
  ⟨replies_of_runCmd_refused (addressed_own hd hr) rfl (handsetAddOp.eq_def r s)
      (by rw [contextCheck_transport ht]; exact firstFail_fails (by decide) _) (by decide),
    replies_of_runCmd_refused (addressed_own hd hr) rfl (handsetModifyOp.eq_def r s)
      (by rw [contextCheck_transport ht]; exact firstFail_fails (by decide) _) (by decide)⟩

/-- HANDSET_ADD of an identifier in use. -/
theorem replies_handsetAdd_used (hc : contextCheck s r false = 0) (hx : spFind s.handsets (fld r.params 0 2) = some x) :
    Replies (.handsetAdd r) s 0x0240 r 0x0204 [] s :=
  replies_of_runCmd_refused (addressed_own hd hr) rfl (handsetAddOp.eq_def r s)
    (by rw [hc, hx]; rfl) (by decide)

/-- HANDSET_MODIFY of a handset that is not there. -/
theorem replies_handsetModify_none (hc : contextCheck s r true = 0) (hx : spFind s.handsets (fld r.params 0 2) = none) :
    Replies (.handsetModify r) s 0x0241 r 0x0205 [] s :=
  replies_of_runCmd_refused (addressed_own hd hr) rfl (handsetModifyOp.eq_def r s)
    (by rw [hc, handsetFind_none hx]; rfl) (by decide)

variable (hc : fld r.params 2 1 = c) (hin : carrierIn s c .running = some (id, o.body))
include hc hin

/-- HANDSET_ADD of a new identifier puts its context in force from the next slot to be scheduled. -/
theorem replies_handsetAdd (hchk : contextCheck s r false = 0) (hx : spFind s.handsets (fld r.params 0 2) = none)
    (hall : s.handsets.length < 16384) (hof : (handsetsOf s c).length < 4096) :
    Replies (.handsetAdd r) s 0x0240 r 0 (leBytes 8 (slotStart id o.body (nextSlot s c id o.body)).toNat)
      (adoptContext (fld r.params 0 2) { ctx := zeros 24, first := nextSlot s c id o.body } r.params s) := by
  subst hc
  exact replies_of_runCmd (addressed_own hd hr) rfl (handsetAddOp.eq_def r s) (by simp [hchk, hx, hall, hof])
    (by simp [hin])

/-- HANDSET_MODIFY without a time leaves the new context for the next slot to be scheduled. -/
theorem replies_handsetModify (hchk : contextCheck s r true = 0) (hx : spFind s.handsets (fld r.params 0 2) = some x)
    (hcar : handsetCarrier x = c) (hrem : x.removed = none) (happly : fld r.params 16 8 = 0) :
    Replies (.handsetModify r) s 0x0241 r 0 (leBytes 8 (slotStart id o.body (nextSlot s c id o.body)).toNat)
      (handsetPut (fld r.params 0 2) { x with
        next := some (r.params, (slotStart id o.body (nextSlot s c id o.body)).toNat) } s) := by
  subst hc
  exact replies_of_runCmd (addressed_own hd hr) rfl (handsetModifyOp.eq_def r s)
    (by simp [hchk, handsetFind_some hx hrem, hcar, hin, happly]) (by simp [hin, hx, happly])

end

/-! ### Commands that name a handset, and CARRIER_STATS (R153, R155) -/

section
variable (ha : Addressed r uSYS 0) (hl : r.params.length = 8)
include ha hl

section
variable (hh : fld r.params 0 2 < 0x4000) (hz : fld r.params 2 6 = 0)
include hh hz

theorem handsetCheck_none (hx : spFind s.handsets (fld r.params 0 2) = none) : handsetCheck s r = 0x0205 := by
  simp [handsetCheck, targetCheck_system ha, hl, hh, rsv, hz, handsetFind_none hx]

theorem replies_handset_none (hx : spFind s.handsets (fld r.params 0 2) = none) :
    Replies (.handsetRemove r) s 0x0242 r 0x0205 [] s ∧ Replies (.handsetStats r) s 0x0243 r 0x0205 [] s :=
  ⟨replies_of_runCmd_refused ha rfl (handsetRemoveOp.eq_def r s) (handsetCheck_none ha hl hh hz hx) (by decide),
    replies_of_runCmd_refused ha rfl (handsetStatsOp.eq_def r s) (handsetCheck_none ha hl hh hz hx) (by decide)⟩

section
variable (hx : spFind s.handsets (fld r.params 0 2) = some x) (hrem : x.removed = none)
  (hcar : handsetCarrier x = c) (hin : carrierIn s c .running = some (id, o.body))
include hx hrem hcar hin

theorem handsetCheck_passes : handsetCheck s r = 0 := by
  simp [handsetCheck, targetCheck_system ha, hl, hh, rsv, hz, handsetFind_some hx hrem, hcar, hin]

/-- HANDSET_REMOVE discards queue and HARQ processes and leaves the context to the next release. -/
theorem replies_handsetRemove : Replies (.handsetRemove r) s 0x0242 r 0 (leBytes 4 x.queue.length)
    (handsetPut (fld r.params 0 2) { x with
      removed := some (nextSlot s c id o.body), queue := [], harq := [], next := none } s) :=
  replies_of_runCmd ha rfl (handsetRemoveOp.eq_def r s) (handsetCheck_passes ha hl hh hz hx hrem hcar hin)
    (by simp [hx, hcar, hin])

theorem replies_handsetStats : Replies (.handsetStats r) s 0x0243 r 0
    (linkRecord (shortNow s) (fld r.params 0 2) c x) s :=
  replies_of_runCmd ha rfl (handsetStatsOp.eq_def r s) (handsetCheck_passes ha hl hh hz hx hrem hcar hin)
    (by simp [hx, hcar])

end
end

theorem replies_carrierStats (hid : fld r.params 0 1 = c) (hc : c < 64) (hz : fld r.params 1 7 = 0)
    (hin : carrierIn s c .running = some (id, o.body)) :
    ∃ slots, Replies (.carrierStats r) s 0x0244 r 0 (carrierRecord s id o.body (shortNow s) slots) s := by
  subst hid
  exact ⟨(slotAt id o.body (shortNow s)).getD 0 - (carrierRun s (fld r.params 0 1)).period,
    replies_of_runCmd ha rfl (carrierStatsOp.eq_def r s) (by simp [targetCheck_system ha, hl, hc, rsv, hz, hin])
      (by simp [hin])⟩

end
end

/-! ### The statement -/

theorem effect_of_eq {i : Instr} {s f u : State} {P : State → Prop} (he : exec i s = done f) (hu : f = u) (hp : P u) :
    Effect i s P := ⟨f, he, hu ▸ hp⟩

/-- A context put in force is found, with the keys of its request, and nothing else changes. -/
theorem adoptContext_effect (h : Nat) (x : Handset) (p : Bytes) (s : State) :
    spFind (adoptContext h x p s).handsets h = some (adopted x p) ∧
    (∀ j, j ≠ h → spFind (adoptContext h x p s).handsets j = spFind s.handsets j) ∧
    (∀ k, k < fld p 10 2 → k < 8 → spFind (adoptContext h x p s).keys (h * 8 + k) = some (requestKeys p k)) ∧
    carrierRun (adoptContext h x p s) = carrierRun s ∧
    { adoptContext h x p s with handsets := s.handsets, keys := s.keys } = s := by
  have hkeys : ∀ k, k < fld p 10 2 → k < 8 →
      spFind (adoptContext h x p s).keys (h * 8 + k) = some (requestKeys p k) := fun k hk h8 => spFind_keysWrite hk h8 s
  obtain ⟨m, hm⟩ := adoptContext_frame h x p s
  rw [hm] at hkeys ⊢
  exact ⟨spFind_spPut_same _ _ _, fun j hj => spFind_spPut_ne _ _ hj, hkeys, rfl, rfl⟩

theorem released_releasedRun (s t : State) (c id : Nat) (b : Bytes) (n : Nat) (air : CarrierFigure) :
    (carrierRun (carrierPut c (releasedRun s c id b n air) t) c).released = some n :=
  congrArg CarrierRun.released (carrierRun_carrierPut_same _ _ _)

/-- Settles O14: the scheduling stage and the period's end act on the carrier and the contexts then due; each request
does what its checks leave it to do. -/
theorem handsetsAndScheduling : Obligations.HandsetsAndScheduling := by
  unfold Obligations.HandsetsAndScheduling
  intro s r c id o x air n hf hst b run p h keysOff
  have hin : carrierIn s c .running = some (id, b) := carrierIn_of_find hf hst
  refine ⟨fun hdue hrel hfirst hqueue hitems => ⟨fun hflag hh => ?settled,
      fun t q hflag hone hc hr hn ht => ?replaced, fun m hone hc hr hm hfc => ?gone⟩,
    fun m hm hdue hnm => ⟨_, rfl, macScheduling_released hin hm hdue hnm [] air⟩,
    fun hslot hh hn hp => ?periodEnds, fun hslot hn => ⟨_, rfl, statsPeriod_seen hin hslot hn⟩,
    fun hd hr hc => ⟨fun hchk => ⟨fun hx hall hof => ?added, replies_handsetAdd_used hd hr hchk⟩,
      replies_context_transport hd hr, fun hchk hx hcar hrem happly => ?modified, replies_handsetModify_none hd hr⟩,
    fun ha hl hh hz => ⟨fun hx hcar hrem => ⟨?discarded, ?handsetRead⟩, replies_handset_none ha hl hh hz⟩,
    fun ha hl hc hz => ?carrierRead⟩
  case settled =>
    refine effect_of_eq rfl (macScheduling_settled hin hdue hrel hfirst hqueue hitems air hflag hh)
      ⟨released_releasedRun _ _ _ _ _ _ _, ?_, rfl⟩
    rw [carrierRun_carrierPut_same]
    rfl
  case replaced =>
    obtain ⟨hfound, _, _, hrun, _⟩ := adoptContext_effect h x q (carrierPut c (releasedRun s c id b n air) s)
    refine effect_of_eq rfl (macScheduling_due hin hdue hrel hfirst hqueue hitems air hone hc hflag hr hn ht)
      ⟨?_, adopted x q, hfound, rfl, rfl, rfl⟩
    rw [hrun]
    exact released_releasedRun _ _ _ _ _ _ _
  case gone =>
    let w : State := { carrierPut c (releasedRun s c id b n air) s with handsets := [] }
    obtain ⟨k, hk⟩ := keysClear_frame h w
    refine effect_of_eq rfl (macScheduling_gone hin hdue hrel hfirst hqueue hitems air hone hc hr hm hfc)
      ⟨?_, ?_, fun k h8 => spFind_keysClear h8 w⟩
    · rw [hk]
      exact released_releasedRun _ _ _ _ _ _ _
    · rw [hk]
  case periodEnds =>
    refine effect_of_eq rfl (statsPeriod_ends hin hslot hh hn hp) ?_
    dsimp only
    rw [carrierRun_carrierPut_same]
    refine ⟨rfl, rfl, rfl, rfl, rfl, rfl, rfl, rfl, rfl, fun hflag => ?_⟩
    rw [recordSent, hflag]
    rfl
  case added =>
    obtain ⟨hfound, hothers, hkeys, _, hrest⟩ :=
      adoptContext_effect h { ctx := zeros 24, first := nextSlot s c id b } p s
    obtain ⟨u, he, hu⟩ := replies_handsetAdd hd hr hc hin hchk hx hall hof
    exact ⟨u, he, _, _, hu, length_leBytes _ _, ⟨_, hfound, rfl, rfl, rfl, rfl⟩, hothers, hkeys, hrest⟩
  case modified =>
    obtain ⟨u, he, hu⟩ := replies_handsetModify hd hr hc hin hchk hx hcar hrem happly
    exact ⟨u, he, _, _, hu, length_leBytes _ _, handsetPut_find _ _ _, fun j hj => handsetPut_find_ne hj _ _, rfl⟩
  case discarded =>
    obtain ⟨u, he, hu⟩ := replies_handsetRemove ha hl hh hz hx hrem hcar hin
    exact ⟨u, he, _, hu, handsetPut_find _ _ _, fun j hj => handsetPut_find_ne hj _ _, rfl⟩
  case handsetRead =>
    exact ⟨_, replies_handsetStats ha hl hh hz hx hrem hcar hin, length_linkRecord _ _ _ _,
      fld_linkRecord _ _ _ _ hh c.isLt⟩
  case carrierRead =>
    obtain ⟨slots, hreply⟩ := replies_carrierStats ha hl hc c.isLt hz hin
    exact ⟨_, hreply, length_carrierRecord _ _ _ _ _,
      fld_carrierRecord _ _ _ _ _ (carrierFind_index (by omega) hf) c.isLt⟩

end Sys2Proof.Machine
end

section
/-!
SUPPORT. TASK_WAIT, TASK_DONE and DOORBELL: the staged task taken by its core, the drain, and the doorbells of a crew
(05_shuttle.md, R172 to R175; 06_crew_cores.md, R225, R226, R230).
-/
namespace Sys2Proof.Machine
open Sys2Proof

/-! ### An instruction that raises nothing -/

/-- An instruction of a core that can execute, to a state in which the core has not entered its handler. -/
theorem effect_onCore_of {i : Instr} {c : Fin 96} {f : Core → State → State} {s t : State} {P : State → Prop}
    (hi : exec i s = onCore c f s) (h : Ready s c) (hf : f (begun (core s c)) (beginInstr c s) = t)
    (he : (core t c).exc = (core s c).exc) (hp : P t) : Effect i s P := by
  refine effect_onCoreR (f := fun _ x s => (true, f x s)) hi h (by rw [hf]) ?_
  rwa [endInstr_same fun hx => he.trans hx]

/-! ### A task taken by its core (R172, R173) -/

section
variable (s : State) (w : Work) (x : Core)

/-- What TASK_WAIT returns in s6: INPUT_FAILED, REPLAYED, the Beam sequence and the flow. -/
def taskFlags : Nat :=
  let d := descOf s w
  b2n w.inputFailed + 2 * b2n w.replayed + (if d.ordered then w.seq * 0x10000 else 0) + d.flow * 2 ^ 32 +
    b2n d.flowValid * 2 ^ 44

theorem taskRegs_eq : taskRegs s w x =
    setS (setS (setS (setS (setS (setS x 1 (BitVec.ofNat 64 (w.task + w.inst * 0x10000))) 2
      (BitVec.ofNat 64 (descOf s w).arg)) 3 (BitVec.ofNat 64 (w.handle.getD noHandle))) 4
      (BitVec.ofNat 64 (descOf s w).entry)) 5 (BitVec.ofNat 64 w.deadline)) 6 (BitVec.ofNat 64 (taskFlags s w)) := rfl

theorem getS_taskRegs :
    getS (taskRegs s w x) 1 = BitVec.ofNat 64 (w.task + w.inst * 0x10000) ∧
    getS (taskRegs s w x) 2 = BitVec.ofNat 64 (descOf s w).arg ∧
    getS (taskRegs s w x) 3 = BitVec.ofNat 64 (w.handle.getD noHandle) ∧
    getS (taskRegs s w x) 4 = BitVec.ofNat 64 (descOf s w).entry ∧
    getS (taskRegs s w x) 5 = BitVec.ofNat 64 w.deadline ∧
    getS (taskRegs s w x) 6 = BitVec.ofNat 64 (taskFlags s w) := by
  simp [taskRegs_eq, getS_setS_ne, getS_setS_same]

theorem getS_taskRegs_above {r : Fin 32} (h : 6 < r.val) : getS (taskRegs s w x) r = getS x r := by
  have hne : ∀ q : Fin 32, q.val ≤ 6 → r ≠ q := fun q hq e => absurd hq (by rw [← e]; omega)
  rw [taskRegs_eq, getS_setS_ne _ _ (hne 6 (by decide)), getS_setS_ne _ _ (hne 5 (by decide)),
    getS_setS_ne _ _ (hne 4 (by decide)), getS_setS_ne _ _ (hne 3 (by decide)), getS_setS_ne _ _ (hne 2 (by decide)),
    getS_setS_ne _ _ (hne 1 (by decide))]

/-- The parameters of a task are the only pieces of the core they change. -/
theorem taskRegs_frame : { taskRegs s w x with s := x.s } = x := rfl

theorem taskFlags_mod : taskFlags s w % 4 = b2n w.inputFailed + 2 * b2n w.replayed := by
  have hb : ∀ b, b2n b < 2 := fun b => by cases b <;> decide
  have h1 := hb w.inputFailed
  have h2 := hb w.replayed
  unfold taskFlags
  dsimp only
  split <;> omega

theorem taskFlags_bits : (BitVec.ofNat 64 (taskFlags s w)).getLsbD 0 = w.inputFailed ∧
    (BitVec.ofNat 64 (taskFlags s w)).getLsbD 1 = w.replayed := by
  have low : ∀ k, k < 2 → (BitVec.ofNat 64 (taskFlags s w)).getLsbD k =
      (b2n w.inputFailed + 2 * b2n w.replayed).testBit k := fun k hk => by
    rw [BitVec.getLsbD_ofNat, ← taskFlags_mod s w, show 4 = 2 ^ 2 from rfl, Nat.testBit_mod_two_pow,
      decide_eq_true (show k < 64 by omega), decide_eq_true hk]
  rw [low 0 (by decide), low 1 (by decide)]
  cases w.inputFailed <;> cases w.replayed <;> decide

end

/-- A core with a staged task takes it: it runs with the task's parameters, and the task is staged no longer but runs from
now on. -/
theorem takeStaged_takes {s : State} {c : Nat} {w : Work} (h : spFind s.shuttle.staged c = some w) : ∃ m,
    takeStaged c s = { corePut c (retire { taskRegs s w (core s c) with run := .run, task := true }) s with
      shuttle := { s.shuttle with
        slots := m
        staged := spDel s.shuttle.staged c
        running := spPut s.shuttle.running c { work := w, start := s.now } } } ∧
    ((descOf s w).template = false → (spGet {} m w.task).st = .running) := by
  rw [takeStaged, h]
  unfold slotState
  dsimp only
  split
  · next hd => exact ⟨_, rfl, fun hn => absurd (hn.symm.trans hd) Bool.false_ne_true⟩
  · exact ⟨_, rfl, fun _ => congrArg Slot.st (spGet_spSet_same _ _ _ _)⟩

theorem taskWaitOp_takes {s : State} {c : Nat} {x : Core} {w : Work} (ht : x.task = false)
    (hirq : irqTakes s x = false) (hw : spFind s.shuttle.staged c = some w) : taskWaitOp c x s = takeStaged c s := by
  simp [taskWaitOp, ht, hirq, hw]

theorem taskWaitOp_blocks {s : State} {c : Nat} {x : Core} (ht : x.task = false)
    (h : spFind s.shuttle.staged c = none ∨ irqTakes s x = true) :
    taskWaitOp c x s = corePut c { x with run := .taskWait } s := by
  rcases h with h | h <;> simp [taskWaitOp, ht, h]

@[simp] theorem irqTakes_beginInstr (c : Nat) (s : State) (x : Core) : irqTakes (beginInstr c s) x = irqTakes s x := by
  have hnow : shortNow (beginInstr c s) = shortNow s := by rw [shortNow, beginInstr_coxCount]; rfl
  rw [irqTakes, irqReady, irqPend, hnow]
  rfl

theorem taskWaitOp_holds {s : State} {c : Nat} {x : Core} (ht : x.task = true) :
    taskWaitOp c x s = exception c exTASK_STATE 0 s := by
  simp [taskWaitOp, ht]

/-- The beginning of an instruction changes nothing but its core. -/
theorem beginInstr_rest (c : Nat) (s : State) : { beginInstr c s with cores := s.cores, shuttle := s.shuttle } = s := by
  rw [← beginInstr_shuttle c s]
  exact (coreBecomes_beginInstr c s).2.2

/-- TASK_WAIT with a task staged and no interrupt to take. -/
theorem effect_taskWait {s : State} {c : Fin 96} {w : Work} (h : Ready s c) (ht : (begun (core s c)).task = false)
    (hirq : irqTakes s (begun (core s c)) = false) (hw : spFind s.shuttle.staged c = some w) :
    Effect (.taskWait c) s fun u =>
      core u c = retire { taskRegs s w (begun (core s c)) with run := .run, task := true } ∧
      spFind u.shuttle.staged c = none ∧ spFind u.shuttle.running c = some { work := w, start := s.now } ∧
      ((descOf s w).template = false → (slot u w.task).st = .running) ∧
      { u with cores := s.cores, shuttle := s.shuttle } = s := by
  have hsh : (beginInstr c s).shuttle = s.shuttle := beginInstr_shuttle c s
  have hd : descOf (beginInstr c s) w = descOf s w := by rw [descOf, slot, hsh]; rfl
  have hregs : taskRegs (beginInstr c s) w (core (beginInstr c s) c) = taskRegs s w (begun (core s c)) := by
    rw [core_beginInstr, taskRegs_eq, taskRegs_eq, taskFlags, taskFlags, hd]
  have hw' : spFind (beginInstr c s).shuttle.staged c = some w := by rw [hsh, hw]
  obtain ⟨m, htaken, hslot⟩ := takeStaged_takes hw'
  rw [hregs, hsh, beginInstr_now] at htaken
  rw [hd] at hslot
  have hwait := (taskWaitOp_takes ht (by rwa [irqTakes_beginInstr]) hw').trans htaken
  refine effect_onCore_of rfl h hwait ?_ ⟨core_corePut_same c _ _, spFind_spDel_same _ _, spFind_spPut_same _ _ _,
    hslot, beginInstr_rest c s⟩
  exact (congrArg Core.exc (core_corePut_same c _ _)).trans (begun_exc (core s c))

/-! ### A task done (R175) -/

/-- A core whose cache holds no line has none to clean. -/
theorem linesIn_none {s : State} {c : Nat} (h : (core s c).dcache = []) (a n : Nat) : linesIn s c a n = [] := by
  simp [linesIn, h, sortBy]

/-- TASK_DONE with nothing to clean keeps its status for the completion and leaves the core draining. -/
theorem taskDoneOp_drains {s : State} {c : Nat} {x : Core} {r : Running} (status : Word) (hx : core s c = x)
    (ht : x.task = true) (hc : x.dcache = []) (hr : spFind s.shuttle.running c = some r) :
    taskDoneOp c status x s =
      { corePut c { x with run := .drain } s with shuttle := { s.shuttle with
          running := spPut s.shuttle.running c { r with done := some (if status = 0 then 0 else 1) } } } := by
  subst hx
  simp [taskDoneOp, ht, hr, linesIn_none hc]

theorem taskDoneOp_idle {s : State} {c : Nat} {x : Core} (status : Word) (ht : x.task = false) :
    taskDoneOp c status x s = exception c exTASK_STATE 0 s := by
  simp [taskDoneOp, ht]

/-! ### Doorbells (R230) -/

theorem bit_eq_testBit (v k : Nat) : bit v k = v.testBit k := by
  rw [Nat.testBit_eq_decide_div_mod_eq]
  rfl

/-- A wake request finds a domain whose units work as it is (R612). -/
theorem wakeRequestBase_awake {s : State} {d : Nat} (h : awake s (some d) = true) (u i : Nat) :
    wakeRequestBase d u i s = s := by
  simp only [awake, Bool.and_eq_true, beq_iff_eq] at h
  obtain ⟨hst, htr⟩ := h
  simp [wakeRequestBase, hst, htr]

/-- Where a crew's domain works, a wake of WFI changes nothing but the core, and of it neither registers nor doorbell. -/
theorem wakeWfi_awake {s : State} {c : Nat} (h : awake s (some (c / 8)) = true) :
    ∃ x, CoreBecomes c x s (wakeWfi c s) ∧ x.s = (core s c).s ∧ x.exc = (core s c).exc ∧
      x.doorbell = (core s c).doorbell := by
  unfold wakeWfi
  rw [wakeRequestBase_awake h]
  dsimp only
  split
  · exact ⟨_, coreBecomes_refl c s, rfl, rfl, rfl⟩
  · split
    · exact ⟨_, coreBecomes_corePut _ _ _, rfl, rfl, rfl⟩
    · exact ⟨_, coreBecomes_refl c s, rfl, rfl, rfl⟩

/-- The DOORBELL bit of core `c` set, and the core woken from WFI. -/
def ringCore (c : Nat) (s : State) : State := wakeWfi c (corePut c { core s c with doorbell := true } s)

theorem ringCore_awake {s : State} {c : Nat} (h : awake s (some (c / 8)) = true) :
    ∃ x, CoreBecomes c x s (ringCore c s) ∧ x.s = (core s c).s ∧ x.exc = (core s c).exc ∧ x.doorbell = true := by
  obtain ⟨x, hb, hs, he, hd⟩ := wakeWfi_awake (s := corePut c { core s c with doorbell := true } s) h
  rw [core_corePut_same] at hs he hd
  exact ⟨x, (coreBecomes_corePut _ _ _).trans hb, hs, he, hd⟩

theorem doorbellRing_eq (n mask : Nat) (s : State) : doorbellRing n mask s =
    (List.range 8).foldl (fun s k => if bit mask k then ringCore (8 * n + k) s else s) s := rfl

/-- From `s` to `t` the cores of crew `n` that `rung` names have gained their doorbell, and nothing else has changed but
that a core waiting in WFI may have gone on. -/
structure Rung (n : Nat) (rung : Nat → Bool) (s t : State) : Prop where
  rest : { t with cores := s.cores } = s
  others : ∀ j, (∀ k, rung k = true → j ≠ 8 * n + k) → core t j = core s j
  regs : ∀ j, (core t j).s = (core s j).s ∧ (core t j).exc = (core s j).exc
  bells : ∀ k, (core t (8 * n + k)).doorbell = ((core s (8 * n + k)).doorbell || rung k)

section
variable {n : Nat} {p q : Nat → Bool} {s t u : State}

theorem rung_none (hp : ∀ k, p k = false) : Rung n p s s :=
  ⟨rfl, fun _ _ => rfl, fun _ => ⟨rfl, rfl⟩, fun k => by rw [hp, Bool.or_false]⟩

theorem Rung.trans (h : Rung n p s t) (k : Rung n q t u) : Rung n (fun j => p j || q j) s u := by
  refine ⟨?_, fun j hj => ?_, fun j => ?_, fun j => ?_⟩
  · calc { u with cores := s.cores } = { ({ u with cores := t.cores } : State) with cores := s.cores } := rfl
      _ = s := by rw [k.rest, h.rest]
  · rw [k.others j fun i hi => hj i (by rw [hi, Bool.or_true]), h.others j fun i hi => hj i (by rw [hi, Bool.true_or])]
  · rw [(k.regs j).1, (k.regs j).2]
    exact h.regs j
  · rw [k.bells, h.bells, Bool.or_assoc]

theorem Rung.awake (h : Rung n p s t) (d : Option Nat) : awake t d = awake s d := by
  have hp := congrArg State.power h.rest
  dsimp only at hp
  simp only [Machine.awake, dom, hp]

/-- One doorbell rung in a crew whose domain works. -/
theorem rung_one {k : Nat} (h : awake s (some n) = true) (hk : k < 8) :
    Rung n (fun j => j == k) s (ringCore (8 * n + k) s) := by
  obtain ⟨x, ⟨hx, hne, hrest⟩, hs, he, hd⟩ := ringCore_awake (s := s) (c := 8 * n + k) (by
    rwa [show (8 * n + k) / 8 = n by omega])
  refine ⟨hrest, fun j hj => hne j (hj k (by simp)), fun j => ?_, fun j => ?_⟩
  · by_cases hj : j = 8 * n + k
    · rw [hj, hx]
      exact ⟨hs, he⟩
    · rw [hne j hj]
      exact ⟨rfl, rfl⟩
  · by_cases hj : j = k
    · subst hj
      rw [hx, hd]
      simp
    · rw [hne _ (by omega)]
      simp [hj]

/-- The doorbells of a crew whose domain works: those the mask names are rung. -/
theorem rung_doorbellRing (mask : Nat) (h : awake s (some n) = true) :
    Rung n (fun k => decide (k < 8) && bit mask k) s (doorbellRing n mask s) := by
  have go : ∀ (l : List Nat) (t : State), (∀ k ∈ l, k < 8) → awake t (some n) = true →
      Rung n (fun j => l.any fun k => bit mask k && j == k) t
        (l.foldl (fun s k => if bit mask k then ringCore (8 * n + k) s else s) t) := by
    intro l
    induction l with
    | nil => exact fun t _ _ => rung_none fun _ => rfl
    | cons k r ih =>
      intro t hl ht
      have hone : Rung n (fun j => bit mask k && j == k) t (if bit mask k then ringCore (8 * n + k) t else t) := by
        cases bit mask k
        · exact rung_none fun _ => rfl
        · exact rung_one ht (hl k (by simp))
      exact hone.trans (ih _ (fun j hj => hl j (by simp [hj])) (by rw [hone.awake]; exact ht))
  have hnames : (fun k => decide (k < 8) && bit mask k) =
      fun j => (List.range 8).any fun k => bit mask k && j == k := by
    funext j
    rw [Bool.eq_iff_iff]
    simp [and_comm]
  rw [hnames, doorbellRing_eq]
  exact go (List.range 8) s (fun k hk => List.mem_range.1 hk) h

end

/-- Settles O27: a core takes its staged task or blocks, drains with its status kept, and rings its crew's doorbells. -/
theorem taskInstructions : Obligations.TaskInstructions := by
  unfold Obligations.TaskInstructions
  intro s c rs1 h x
  have hx : core (beginInstr c s) c = x := core_beginInstr c s
  have hsh : (beginInstr c s).shuttle = s.shuttle := beginInstr_shuttle c s
  refine ⟨fun ht hirq w hw => ?takes, fun ht hblock => ?blocks, fun ht he => ?holds, fun ht hc r hr => ?drains,
    fun ht he => ?idle, fun haw => ?rings⟩
  case takes =>
    obtain ⟨u, hu, hcore, hstaged, hrun, hslot, hrest⟩ := effect_taskWait h ht hirq hw
    obtain ⟨h1, h2, h3, h4, h5, h6⟩ := getS_taskRegs s w x
    obtain ⟨hfail, hrep⟩ := taskFlags_bits s w
    refine ⟨u, hu, ?_⟩
    dsimp only
    rw [hcore]
    refine ⟨h1, h2, h3, h4, h5, ?_, ?_, fun r hr => getS_taskRegs_above s w x hr, rfl, rfl, hstaged, hrun, hslot,
      hrest⟩
    · rw [← hfail, ← h6]
      rfl
    · rw [← hrep, ← h6]
      rfl
  case blocks =>
    exact effect_onCore rfl h (taskWaitOp_blocks ht (by rwa [hsh, irqTakes_beginInstr])) fun he => by
      rw [← he]; exact begun_exc _
  case holds => exact traps_onCore rfl h he (taskWaitOp_holds ht)
  case drains =>
    have hdrain := taskDoneOp_drains (getS x rs1) hx ht hc (by rw [hsh, hr])
    refine effect_onCore_of (f := fun x s => taskDoneOp c (getS x rs1) x s) rfl h hdrain ?_ ⟨?_, ?_, ?_⟩
    · exact (congrArg Core.exc (core_corePut_same c _ _)).trans (begun_exc _)
    · exact core_corePut_same c _ _
    · exact spFind_spPut_same _ _ _
    · exact beginInstr_rest c s
  case idle => exact traps_onCore rfl h he (taskDoneOp_idle _ ht)
  case rings =>
    let v := corePut c (retire x) (beginInstr c s)
    obtain ⟨hv, hne, hrest⟩ : CoreBecomes c (retire x) s v :=
      (coreBecomes_beginInstr c s).trans (coreBecomes_corePut _ _ _)
    have hpow : awake v (some (c / 8)) = true := by
      rw [← haw]
      simp [awake, dom, v]
    have hr := rung_doorbellRing ((getS x rs1).toNat % 256) hpow
    refine effect_onCore_of (f := fun x s => doorbellRing (c / 8) ((getS x rs1).toNat % 256) (corePut c (retire x) s))
      (t := doorbellRing (c / 8) ((getS x rs1).toNat % 256) v) rfl h rfl ?_ ⟨fun k hk => ?_, fun j hj => ?_, ?_, ?_⟩
    · exact (hr.regs c).2.trans ((congrArg Core.exc hv).trans (begun_exc _))
    · have hbell : (core v (8 * (c / 8) + k)).doorbell = (core s (8 * (c / 8) + k)).doorbell := by
        by_cases hj : 8 * (c.val / 8) + k = c
        · rw [hj, hv]
          exact begun_doorbell _
        · rw [hne _ hj]
      have hmask : bit ((getS x rs1).toNat % 256) k = (getS x rs1).getLsbD k := by
        rw [bit_eq_testBit, show 256 = 2 ^ 8 from rfl, Nat.testBit_mod_two_pow, decide_eq_true hk]
        rfl
      rw [Nat.mul_comm, ← hbell, ← hmask]
      refine (hr.bells k).trans ?_
      rw [decide_eq_true hk]
      rfl
    · refine (hr.others j fun k hk => ?_).trans (hne j fun e => hj (by rw [e]))
      simp only [Bool.and_eq_true, decide_eq_true_eq] at hk
      omega
    · exact (hr.regs c).1.trans (by rw [hv]; rfl)
    · calc _ = { ({ doorbellRing (c / 8) ((getS x rs1).toNat % 256) v with cores := v.cores } : State) with
              cores := s.cores } := rfl
        _ = s := by rw [hr.rest, hrest]

end Sys2Proof.Machine
end

section
/-!
SUPPORT. Arming, readiness and completion of tasks (05_shuttle.md, R158 to R170, R175).
-/
namespace Sys2Proof.Machine
open Sys2Proof

/-! ### A write of SHUTTLE_ARM (R159) -/

section
variable {s : State} {t n : Nat} {b : Bytes}

/-- A descriptor read without an error is armed or refused by the checks of R159 alone. -/
theorem armOp_read (h : readBytes (unitInit uSHUTTLE 0) (taskBase s + 64 * t) 64 s = (.ok, b, n, s)) :
    armOp t s = if armReason t .ok b s = 0 then armSlot t b s else armRefused t (armReason t .ok b s) s := by
  have hw : armWaits t s = false := by simp [armWaits, h]
  simp [armOp, hw, h]

theorem armSlot_plain (ht : (ownedDesc s t b).template = false) (ho : (ownedDesc s t b).ordered = false) :
    armSlot t b s =
      slotPut t { st := .waiting, desc := ownedDesc s t b, count := (ownedDesc s t b).init } s := by
  simp [armSlot, ht, ho]

theorem armSlot_template (ht : (ownedDesc s t b).template = true) (hb : (ownedDesc s t b).bindQ ≠ 0xFFFF) :
    armSlot t b s = slotPut t { st := .armedTemplate, desc := ownedDesc s t b, count := 1 }
      (queuePut (ownedDesc s t b).bindQ
        { queue s (ownedDesc s t b).bindQ with notifyKind := 1, notifyTarget := t } s) := by
  simp [armSlot, ht, hb]

/-- A slot in use is refused first of all. -/
theorem armReason_used (h : (slot s t).st ≠ .free) (r : Bus) : armReason t r b s = 1 := by
  simp [armReason, h]

theorem cntGet_cntBump (k m : Nat) (s : State) :
    cntGet (cntBump k m s) k = min 0xFFFFFFFF (cntGet s k + m) := by
  rw [cntBump, cntGet, spGet_spSet_same, satN_eq_min]

end

/-! ### Decrements (R162) -/

/-- A decrement that a waiting slot still expects. -/
theorem decrement_waiting {s : State} {n : Notice} (hst : (slot s n.task).st = .waiting) (h0 : 0 < n.count)
    (hn : n.count ≤ (slot s n.task).count) (hf : n.failed = false) :
    decrement n s = slotPut n.task { slot s n.task with count := (slot s n.task).count - n.count } s := by
  simp [decrement, hst, hf, show n.count ≠ 0 by omega, show (slot s n.task).count ≠ 0 by omega, Nat.not_lt.2 hn]

theorem settle_takes {s : State} {x : Notice} {r : List Notice} (n : Nat) (h : s.notices = x :: r) :
    settle (n + 1) s = settle n (decrement x { s with notices := r }) := by
  rw [settle, h]

/-- A decrement sent while nothing else is under way is all that is delivered, where it leaves nothing to deliver. -/
theorem done_notify {s u : State} {t k : Nat} {i : Initiator} (hs : Quiet s)
    (hd : decrement { task := t, count := k, source := i } s = u) (hu : Quiet u) : done (notify t k i s) = .next u := by
  obtain ⟨-, hnone, -⟩ := hs
  obtain ⟨he, hn, hdue⟩ := hu
  have hsent : (notify t k i s).notices = [{ task := t, count := k, source := i }] := by rw [notify, hnone]; rfl
  have hback : ({ notify t k i s with notices := [] } : State) = s := by rw [← hnone]; rfl
  have hstep : settle 4096 (notify t k i s) = settle 4095 u :=
    (settle_takes 4095 hsent).trans (congrArg (settle 4095) ((congrArg (decrement _) hback).trans hd))
  rw [done, hstep, settle_quiet _ he hn hdue]

/-! ### Readiness (R163) -/

/-- The work of a slot that has become ready. -/
def slotWork (s : State) (t : Nat) : Work :=
  { task := t, deadline := (slot s t).desc.deadline, inputFailed := (slot s t).inputFailed, seq := (slot s t).seq }

section
variable {s : State} {t : Nat}

theorem readyOp_due (hst : (slot s t).st = .waiting) (hc : (slot s t).count = 0)
    (hr : (slot s t).desc.release ≤ shortNow s) (hl : (slot s t).desc.cancelLate = false) :
    readyOp t s = becomeReady (slotWork s t) s := by
  simp [readyOp, hst, hc, hr, hl, slotWork]

theorem readyOp_early (h : (slot s t).count ≠ 0 ∨ shortNow s < (slot s t).desc.release) : readyOp t s = s := by
  unfold readyOp
  dsimp only
  rw [if_neg]
  rintro ⟨-, hc, hr⟩
  rcases h with h | h
  · exact h hc
  · omega

end

section
variable {s : State} {w : Work}

theorem becomeReady_join (h : (slot s w.task).desc.target = 6) :
    becomeReady w s = completeWork w (!w.inputFailed) 15 s := by
  simp [becomeReady, h]

theorem becomeReady_plain (h : (slot s w.task).desc.target ≠ 6) (hc : noCrew s (slot s w.task).desc = false)
    (ht : (slot s w.task).desc.template = false) :
    becomeReady w s = addReady w (slotPut w.task { slot s w.task with st := .ready } s) := by
  simp [becomeReady, h, hc, ht]

theorem becomeReady_instance (h : (slot s w.task).desc.target ≠ 6) (hc : noCrew s (slot s w.task).desc = false)
    (ht : (slot s w.task).desc.template = true) : becomeReady w s = addReady w s := by
  simp [becomeReady, h, hc, ht]

end

/-! ### Instances of templates (R168 to R170) -/

section
variable {s : State} {t : Nat}

/-- The work created from a template that binds no queue and orders nothing. -/
theorem createInstance_unbound (failed : Bool) (hb : (slot s t).desc.bindQ = 0xFFFF)
    (ho : (slot s t).desc.ordered = false) : ∃ w : Work, w.task = t ∧ createInstance t failed s = becomeReady w s := by
  unfold createInstance
  simp only [hb, ho, if_true, Bool.false_eq_true, if_false]
  exact ⟨_, rfl, rfl⟩

/-- A slot whose oldest pending notice has been taken. -/
def oldestTaken (x : Slot) : Slot :=
  { x with pending := x.pending - 1, failedAt := (x.failedAt.filter (· != 0)).map (· - 1) }

/-- An armed template with room makes work of its oldest pending notice, and goes on. -/
theorem drainPending_takes (n : Nat) (hst : (slot s t).st = .armedTemplate) (hp : 0 < (slot s t).pending)
    (hc : canCreate s (slot s t).desc = true) : drainPending t (n + 1) s = drainPending t n
      (createInstance t ((slot s t).failedAt.contains 0) (slotPut t (oldestTaken (slot s t)) s)) := by
  rw [drainPending]
  exact if_pos ⟨hst, hp, hc⟩

theorem drainPending_none (n : Nat) (hp : (slot s t).pending = 0) : drainPending t n s = s := by
  cases n <;> simp [drainPending, hp]

end

/-! ### Completion (R160 to R162, R175) -/

/-- A task outside class 0 that is no template and orders nothing frees its slot and notifies its successors. -/
theorem completeWork_plain {s : State} {w : Work} (ok : Bool) (crew : Nat) (ht : (slot s w.task).desc.template = false)
    (ho : (slot s w.task).desc.ordered = false) (hc : (slot s w.task).desc.cls ≠ 0)
    (hn : ownerOfTask s w.task = none) :
    completeWork w ok crew s = { evalNext (slotPut w.task {} s) with
      notices := s.notices ++ (slot s w.task).desc.succ.map fun t =>
        { task := t, count := 1, source := unitInit uSHUTTLE 0, failed := !ok } } := by
  have howner : ownerOfTask (evalNext (slotPut w.task {} s)) w.task = none := hn
  simp only [completeWork, hc, false_and, if_false, ht, ho, Bool.false_eq_true]
  rw [decSuccessors, howner]
  rfl

section
variable {s : State} {c : Nat} {r : Running}

/-- A core none of whose write-backs waits has nothing to write back again. -/
theorem drainWrites_none (h : (core s c).writes = []) : drainWrites c s = s := by
  simp [drainWrites, h]

theorem taskCompletionOp_undone (hr : spFind s.shuttle.running c = some r) (hd : r.done = none)
    (hw : (core s c).writes = []) : taskCompletionOp c s = s := by
  simp [taskCompletionOp, drainWrites_none hw, hr, hd]

theorem taskCompletionOp_waits (hw : (core s c).writes = []) (hreg : (core s c).regWait ≠ none) :
    taskCompletionOp c s = s := by
  have hdr : drained s c = false := by simp [drained, Option.isNone_eq_false_iff, Option.isSome_iff_ne_none, hreg]
  simp [taskCompletionOp, drainWrites_none hw, hdr]

theorem taskCompletionOp_ends (hr : spFind s.shuttle.running c = some r) (hdr : drained s c = true) {st : Nat}
    (hd : r.done = some st) (hx : (core s c).run = .drain) :
    taskCompletionOp c s = rescueEval (completeWork r.work (st == 0) (c / 8)
      { corePut c (retire { core s c with run := .run, task := false }) s with
        shuttle := { s.shuttle with running := spDel s.shuttle.running c } }) := by
  have hw : (core s c).writes = [] := by
    simp only [drained, Bool.and_eq_true, List.isEmpty_iff] at hdr
    exact hdr.1
  simp [taskCompletionOp, drainWrites_none hw, hdr, hr, hd, hx, corePut]

end

theorem armingAndDependences : Claims.ArmingAndDependences := by
  intro s task b n1 i n t x d read
  refine ⟨fun hr hk ht ho => ?plain, fun hr hk ht hb => ?template, fun hr hx => ?used, fun hq hx h0 hn => ?counts,
    fun hx hc hrel hl => ⟨fun hj => ?joins, fun hj ht hcrew => ?readies⟩, fun hx he => ?early,
    fun hx hp hc ht htgt hb ho => ?instances⟩
  case plain => exact effect_done rfl (by rw [armOp_read hr, if_pos hk, armSlot_plain ht ho])
  case template => exact effect_done rfl (by rw [armOp_read hr, if_pos hk, armSlot_template ht hb])
  case used =>
    refine effect_done (u := armRefused t 1 s) ?_ ⟨fun _ => rfl, cntGet_cntBump _ _ _, rfl⟩
    rw [exec_shuttleArm, execShuttleArm, armOp_read hr, armReason_used hx, if_neg (by decide)]
  case counts =>
    exact done_notify hq (decrement_waiting (n := { task := t, count := n.toNat, source := i }) hx h0 hn rfl) hq
  case joins => exact effect_done rfl (by rw [readyOp_due hx hc hrel hl, becomeReady_join hj]; rfl)
  case readies => exact effect_done rfl (by rw [readyOp_due hx hc hrel hl, becomeReady_plain hj hcrew ht]; rfl)
  case early => exact effect_done rfl (by rw [readyOp_early he])
  case instances =>
    let v := slotPut t (oldestTaken x) s
    have hv : slot v t = oldestTaken x := slot_slotPut_same _ _ _
    obtain ⟨w, hw, hcreate⟩ := createInstance_unbound (s := v) (t := t) (x.failedAt.contains 0) (by rw [hv]; exact hb)
      (by rw [hv]; exact ho)
    have hd : (slot v w.task).desc = x.desc := by rw [hw, hv]; rfl
    have hready : becomeReady w v = addReady w v :=
      becomeReady_instance (by rw [hd, htgt]; decide) (by simp [noCrew, hd, htgt]) (by rw [hd, ht])
    have h0 : (slot (addReady w v) t).pending = 0 := by
      rw [show slot (addReady w v) t = slot v t from rfl, hv, oldestTaken, hp]
    refine effect_done (u := addReady w v) ?_ ⟨h0, _, rfl, hw, rfl⟩
    rw [exec_pendingInstanceCreate, execPendingInstanceCreate, drainPending_takes 4094 hx (by rw [hp]; decide) hc, hcreate,
      hready, drainPending_none _ h0]

theorem taskCompletes : Claims.TaskCompletes := by
  intro s c r w ok crew
  exact ⟨fun ht ho hc hn => completeWork_plain ok crew ht ho hc hn,
    fun hr hd hw => effect_done rfl (taskCompletionOp_undone hr hd hw),
    fun _ hw hreg => effect_done rfl (taskCompletionOp_waits hw hreg),
    fun hr hdr st hd hx => effect_done rfl (taskCompletionOp_ends hr hdr hd hx)⟩

/-- Settles O15, from the arming of a slot and its dependences, and from the completion of a task. -/
theorem armingAndCompletion : Obligations.ArmingAndCompletion := ⟨armingAndDependences, taskCompletes⟩

end Sys2Proof.Machine
end

section
/-!
SUPPORT. Dispatch: the choice of the least, and what goes to a core, an engine or a DMA channel (05_shuttle.md, R178 to
R186).
-/
namespace Sys2Proof.Machine
open Sys2Proof

/-! ### The least under a key -/

/-- Only an empty list has no least. -/
theorem leastBy_none {α : Type} {key : α → Nat} {l : List α} (h : leastBy key l = none) : l = [] := by
  cases l with
  | nil => rfl
  | cons a r =>
    unfold leastBy at h
    split at h
    · cases h
    · split at h <;> cases h

/-- The least of a list is one of its elements, and no other has a smaller key. -/
theorem leastBy_spec {α : Type} {key : α → Nat} {l : List α} {x : α} (h : leastBy key l = some x) :
    x ∈ l ∧ ∀ y ∈ l, key x ≤ key y := by
  induction l generalizing x with
  | nil => cases h
  | cons a r ih =>
    unfold leastBy at h
    cases hr : leastBy key r with
    | none =>
      simp only [hr, Option.some.injEq] at h
      subst h
      simp [leastBy_none hr]
    | some m =>
      obtain ⟨hm, hle⟩ := ih hr
      simp only [hr] at h
      split at h
      · next ham =>
        obtain rfl := Option.some.inj h
        exact ⟨List.mem_cons_self, List.forall_mem_cons.2 ⟨le_rfl, fun y hy => ham.trans (hle y hy)⟩⟩
      · next ham =>
        obtain rfl := Option.some.inj h
        exact ⟨List.mem_cons_of_mem _ hm, List.forall_mem_cons.2 ⟨by omega, hle⟩⟩

/-- The least of those that a test admits. -/
theorem leastBy_filter {α : Type} {key : α → Nat} {p : α → Bool} {l : List α} {x : α}
    (h : leastBy key (l.filter p) = some x) : x ∈ l ∧ p x = true ∧ ∀ y ∈ l, p y = true → key x ≤ key y := by
  obtain ⟨hx, hle⟩ := leastBy_spec h
  obtain ⟨hmem, hp⟩ := List.mem_filter.1 hx
  exact ⟨hmem, hp, fun y hy hpy => hle y (List.mem_filter.2 ⟨hy, hpy⟩)⟩

/-! ### The choice for a core (R181 to R183) -/

/-- A ready task that core `c` may be given: a core task whose mask names the crew, and not to be cancelled. -/
def mayRun (s : State) (c : Nat) (v : Work) : Bool :=
  (descOf s v).target == 0 && !lateCancel s v && bit (descOf s v).crewMask (c / 8)

section
variable {s : State} {c : Nat} {w : Work}

theorem admitted_eq (s : State) (c : Nat) :
    ((readyCore s).filter fun v => !lateCancel s v && bit (descOf s v).crewMask (c / 8)) =
      s.shuttle.ready.filter (mayRun s c) := by
  rw [readyCore, List.filter_filter]
  congr 1
  funext v
  simp only [mayRun, Bool.and_comm, Bool.and_left_comm]

/-- Outside NORMAL service an idle core is given the least in EDF order, and no other core anything. -/
theorem chooseFor_edf (h : s.shuttle.service ≠ .normal) : chooseFor s c =
    if coreIdle s c then leastBy (edfKey s) (s.shuttle.ready.filter (mayRun s c)) else none := by
  have hedf : edfDevice s = true := by simp [edfDevice, h]
  rw [chooseFor, hedf, admitted_eq]
  rfl

/-- Whatever the service, what is chosen for a core may run on it. -/
theorem chooseFor_mayRun (h : chooseFor s c = some w) : mayRun s c w = true := by
  have some_of : ∀ {key : Work → Nat} {p : Work → Bool},
      leastBy key ((s.shuttle.ready.filter (mayRun s c)).filter p) = some w → mayRun s c w = true := fun hl =>
    (List.mem_filter.1 (leastBy_filter hl).1).2
  have free_of : (if coreIdle s c then
      leastBy (edfKey s) ((s.shuttle.ready.filter (mayRun s c)).filter fun v => (boundCore s v).isNone)
      else none) = some w → mayRun s c w = true := fun hf => by
    split at hf
    · exact some_of hf
    · cases hf
  rw [chooseFor, admitted_eq] at h
  dsimp only at h
  split at h
  · split at h
    · exact (leastBy_filter h).2.1
    · cases h
  · split at h
    · split at h
      · split at h
        · next hm =>
          obtain rfl := Option.some.inj h
          exact some_of hm
        · exact some_of h
      · cases h
    · split at h
      · next hm =>
        obtain rfl := Option.some.inj h
        exact some_of hm
      · exact free_of h

/-- Outside NORMAL service the core chosen for holds nothing, and its work is the least in EDF order that it may run. -/
theorem chooseFor_least (hs : s.shuttle.service ≠ .normal) (h : chooseFor s c = some w) :
    spFind s.shuttle.running c = none ∧ w ∈ s.shuttle.ready ∧ mayRun s c w = true ∧
      ∀ v ∈ s.shuttle.ready, mayRun s c v = true → edfKey s w ≤ edfKey s v := by
  rw [chooseFor_edf hs] at h
  split at h
  · next hidle =>
    simp only [coreIdle, Bool.and_eq_true, Option.isNone_iff_eq_none] at hidle
    exact ⟨hidle.2, leastBy_filter h⟩
  · cases h

/-! ### What dispatch does with its choice -/

theorem dispatchCore_stages (hf : failUnrunnable s = s) (hu : crewUsable s (c / 8) = true) (hr : (core s c).run ≠ .reset)
    (hst : spFind s.shuttle.staged c = none) (hw : chooseFor s c = some w) : dispatchCore c s = stageOn c w s := by
  simp [dispatchCore, hf, hu, hr, hst, hw]

theorem dispatchCore_staged (hf : failUnrunnable s = s) (hst : spFind s.shuttle.staged c = some w) :
    dispatchCore c s = s := by
  simp [dispatchCore, hf, hst]

/-- A ready task of pool `target` that is not to be cancelled. -/
def mayServe (s : State) (target : Nat) (v : Work) : Bool := (descOf s v).target == target && !lateCancel s v

theorem dispatchPool_starts {target k : Nat} (hk : (poolKeys target).find? (engineFree s) = some k)
    (hw : leastBy (edfKey s) (s.shuttle.ready.filter (mayServe s target)) = some w) :
    dispatchPool target s = startEngine k w s := by
  unfold mayServe at hw
  simp only [dispatchPool, hw, hk]

/-- A ready task of DMA channel `ch` that is not to be cancelled. -/
def mayMove (s : State) (ch : Nat) (v : Work) : Bool :=
  (descOf s v).target == 5 && (descOf s v).arg % 64 == ch && !lateCancel s v

theorem dmaStage_stages {ch : Nat} (hst : (dmaCh s ch).staged = none)
    (hw : leastBy (edfKey s) (s.shuttle.ready.filter (mayMove s ch)) = some w) :
    (dmaCh (dmaStage ch s) ch).staged = some w ∧ (dmaStage ch s).shuttle.ready = s.shuttle.ready.erase w := by
  unfold mayMove at hw
  simp only [dmaStage, hst, hw]
  refine ⟨congrArg DmaCh.staged (dmaCh_dmaPut_same _ _ _), ?_⟩
  unfold slotState
  split <;> rfl

end

/-- Settles O16: what is dispatched is the least in EDF order of what the place may take, where nothing is staged. -/
theorem dispatchChoosesByDeadline : Obligations.DispatchChoosesByDeadline := by
  unfold Obligations.DispatchChoosesByDeadline
  intro s c target ch w hf
  exact ⟨fun hu hr hst hw => ⟨effect_done rfl (congrArg rescueEval (dispatchCore_stages hf hu hr hst hw)),
      chooseFor_mayRun hw, fun hs => chooseFor_least hs hw⟩,
    fun v hv => effect_done rfl (congrArg rescueEval (dispatchCore_staged hf hv)),
    fun k hk hw => ⟨effect_done rfl (congrArg rescueEval (dispatchPool_starts hk hw)), leastBy_filter hw⟩,
    fun hst hw => ⟨effect_done rfl ⟨_, rfl, dmaStage_stages hst hw⟩, leastBy_filter hw⟩⟩

end Sys2Proof.Machine
end

section
/-!
SUPPORT. Overruns, the watchdog, late cancellation, Beam's sequences and the stop of a task set (05_shuttle.md, R184 to
R209).
-/
namespace Sys2Proof.Machine
open Sys2Proof

/-! ### The evaluation (R184, R188) -/

/-- The projections counted as evaluated. -/
def evaluated (s : State) : State := { s with shuttle := { s.shuttle with evalDue := false } }

section
variable {s : State} {c : Nat} {r : Running}

/-- In STARTUP and TEST service an evaluation only counts overruns. -/
theorem rescueEval_counts (h : (countOverruns (evaluated s)).shuttle.service = .startup ∨
    (countOverruns (evaluated s)).shuttle.service = .test) : rescueEval s = countOverruns (evaluated s) := by
  unfold evaluated at h ⊢
  unfold rescueEval
  generalize countOverruns { s with shuttle := { s.shuttle with evalDue := false } } = u at h ⊢
  dsimp only
  rcases h with h | h <;> rw [h]

theorem countOverruns_none (h : s.shuttle.running = []) : countOverruns s = s := by
  rw [countOverruns, h]
  rfl

/-- The one running task past its declared cost is counted, once. -/
theorem countOverruns_one (h : s.shuttle.running = [(c, r)]) (ho : r.overrun = false)
    (hc : r.start + (descOf s r.work).cost ≤ s.now) : countOverruns s = shCountCrew (c / 8) 3 1
      { s with shuttle := { s.shuttle with running := [(c, { r with overrun := true })] } } := by
  rw [countOverruns, h]
  simp [ho, hc, h, spPut]

/-- A device's count is none of the crews'. -/
theorem cntGet_shCountCrew {crew : Nat} (h : crew ≠ 15) (idx n : Nat) (s : State) :
    cntGet (shCountCrew crew idx n s) (cntKey uSHUTTLE 15 idx) =
      min 0xFFFFFFFF (cntGet s (cntKey uSHUTTLE 15 idx) + n) := by
  have hne : cntKey uSHUTTLE 15 idx ≠ cntKey uSHUTTLE crew idx := by unfold cntKey; omega
  rw [shCountCrew, shCount, cntGet_cntBump]
  congr 2
  exact spGet_spSet_ne _ _ _ hne

end

/-! ### The watchdog and late cancellation (R190, R191) -/

section
variable {s : State} {c : Nat} {r : Running}

/-- The end of the time that the watchdog leaves a task. -/
def watchdogLimit (s : State) (r : Running) : Nat :=
  r.start + regF s uSHUTTLE 0 0x014 31 24 * (descOf s r.work).cost

theorem watchdogOp_early (hr : spFind s.shuttle.running c = some r) (h : s.now < watchdogLimit s r) :
    watchdogOp c s = s := by
  simp only [watchdogOp, hr]
  exact if_neg fun hk => absurd hk.1 (Nat.not_le.2 h)

theorem watchdogOp_drained (hr : spFind s.shuttle.running c = some r) (hd : r.done ≠ none) (hw : drained s c = true) :
    watchdogOp c s = s := by
  simp [watchdogOp, hr, hw, Option.isSome_iff_ne_none.2 hd]

theorem watchdogOp_ends (hr : spFind s.shuttle.running c = some r) (h : watchdogLimit s r ≤ s.now) (hd : r.done = none) :
    watchdogOp c s = rescueEval (coreResetOp c true (raise 0x0604 uSHUTTLE 0 2
      (leBytes 2 r.work.task ++ [BitVec.ofNat 8 (c / 8), BitVec.ofNat 8 (c % 8)] ++
        leBytes 4 (descOf s r.work).cost)) s) := by
  simp only [watchdogOp, hr]
  exact if_pos ⟨h, by rw [hd]; rfl⟩

theorem cancelLateOp_ready {w : Work} (hr : s.shuttle.ready = [w]) (hl : lateCancel s w = true) :
    cancelLateOp w.task w.inst s = cancelWork w { s with shuttle := { s.shuttle with ready := [] } } := by
  simp [cancelLateOp, hr, hl, unready]

end

/-! ### Beam (R198, R202) -/

section
variable {s : State} {c f : Nat} {r : Running} {q : BeamSeq} {rest : List BeamSeq}

theorem coreOf_coreInit (h : c < 96) : coreOf (coreInit c) = some c := by
  have hu : (0x10 + c / 8) % 256 = 0x10 + c / 8 := Nat.mod_eq_of_lt (by omega)
  have hi : c % 8 % 256 = c % 8 := Nat.mod_eq_of_lt (by omega)
  simp only [coreOf, coreInit, unitInit, BitVec.toNat_ofNat, hu, hi]
  rw [if_pos (by omega)]
  congr 1
  omega

/-- An output of an ordered task joins its sequence, at the head of its flow. -/
theorem beamPutOp_joins (h : Nat) (hc : c < 96) (hr : spFind s.shuttle.running c = some r)
    (ho : (descOf s r.work).ordered = true) (hf : (descOf s r.work).flow = f) (hseqs : (flow s f).seqs = q :: rest)
    (hskip : (flow s f).skipped = []) (hq : q.num = r.work.seq) (hne : ∀ p ∈ rest, p.num ≠ q.num)
    (hlen : q.outs.length < 64) (hheld : beamHeld s < 131072) : (beamPutOp (coreInit c) h s).2 =
      flowPut f { flow s f with seqs := { q with outs := q.outs ++ [h] } :: rest } s := by
  have hrest : rest.map (fun p => if p.num = r.work.seq then { p with outs := p.outs ++ [h] } else p) = rest :=
    (List.map_congr_left fun p hp => if_neg (hq ▸ hne p hp)).trans (List.map_id' rest)
  simp [beamPutOp, coreOf_coreInit hc, hr, ho, hf, hseqs, hskip, hq, Nat.not_le.2 hlen, Nat.not_le.2 hheld, hrest]

theorem beamRelease_nil (n : Nat) (h : (flow s f).seqs = []) : beamRelease f n s = s := by
  cases n <;> simp [beamRelease, h]

/-- A head sequence that waits too long alone in its flow is skipped, and no other flow changes. -/
theorem beamTimeoutOp_skips (hseqs : (flow s f).seqs = [q]) (ht : (flow s f).timeoutUs ≠ 0)
    (hlate : q.taken + (flow s f).timeoutUs * 1000 < s.now) (hq : q.closed = none) (he : beamEnding s f q.num = false) :
    beamTimeoutOp f s = raise 0x060A uSHUTTLE 0 1 (leBytes 2 f ++ leBytes 2 q.num) (shCount 10 1 (flowPut f
      { flow s f with seqs := [], head := (q.num + 1) % 65536, skipped := (flow s f).skipped ++ [q] } s)) := by
  simp only [beamTimeoutOp, hseqs]
  rw [if_neg (by simp [ht, hq, he, hlate])]
  exact beamRelease_nil _ (congrArg Flow.seqs (flow_flowPut_same _ _ _))

end

/-- Settles O17, from the evaluation, the watchdog, the cancellation, Beam's put and timeout, and the stop of a task set. -/
theorem shuttleDeadlinesAndOrder : Obligations.ShuttleDeadlinesAndOrder := by
  unfold Obligations.ShuttleDeadlinesAndOrder
  intro s c r task index inst w f h q rest x
  refine ⟨fun hs hr => ?evaluates, fun hs hr ho hc => ?overruns, fun hr => ⟨fun hl => ?watches, fun hl hd => ?ends,
    fun hd hw => ?wins⟩, fun hr ht hi hl => ?cancels, fun hr ho hf hseqs hskip hq hne hlen hheld => ?joins,
    fun hseqs ht hlate hq he => ?skips, fun o ho hst hidle => ?stops⟩
  case evaluates =>
    have hn : countOverruns (evaluated s) = evaluated s := countOverruns_none hr
    exact effect_done rfl ((rescueEval_counts (by rw [hn]; exact hs)).trans hn)
  case overruns =>
    have hn := countOverruns_one (s := evaluated s) (c := c) hr ho hc
    refine effect_done (u := countOverruns (evaluated s)) ?_ ?_
    · rw [exec_rescueEvaluation, execRescueEvaluation, rescueEval_counts (by rw [hn]; exact .inr hs)]
    · rw [hn]
      exact ⟨rfl, cntGet_shCountCrew (by omega) 3 1 _⟩
  case watches => exact effect_done rfl (watchdogOp_early hr hl)
  case ends => exact effect_done rfl (watchdogOp_ends hr hl hd)
  case wins => exact effect_done rfl (watchdogOp_drained hr hd hw)
  case cancels =>
    refine effect_done rfl ?_
    rw [← ht, ← hi, cancelLateOp_ready hr hl]
  case joins => exact effect_done rfl (beamPutOp_joins h.toNat c.isLt hr ho hf hseqs hskip hq hne hlen hheld)
  case skips =>
    refine effect_done (congrArg done (beamTimeoutOp_skips hseqs ht hlate hq he))
      ⟨flow_flowPut_same _ _ _, fun g hg => flow_flowPut_ne _ _ hg⟩
  case stops =>
    refine effect_done rfl ?_
    rw [taskSetStoppedOp]
    exact if_pos (by simp [ho, hst, hidle])

end Sys2Proof.Machine
end

section
/-!
SUPPORT. What the end of tasks, the release of Beam's sequences and the evaluation of the projections leave alone
(05_shuttle.md, R160 to R202; 14_spool_dma.md, R481 to R487).
-/
namespace Sys2Proof.Machine
open Sys2Proof

/-- A property of states that nothing written in the end of a task or an evaluation undoes: neither the tables of Shuttle
and Spool, counts, outputs and notices, nor an event raised, nor Spool's count of bad handles. -/
structure Indifferent (P : State → Prop) : Prop where
  tables : ∀ {s t}, P s → t = { s with
    shuttle := t.shuttle, spool := t.spool, power := t.power, cox := t.cox, counters := t.counters, out := t.out
    notices := t.notices, raised := t.raised } → P t
  event : ∀ {s} c u i n d, P s → P (raise c u i n d s)
  badHandles : ∀ {s} v, P s → P (regPutF uSPOOL 0 0x014 31 0 v s)

theorem ite_keeps {α : Type} {P : α → Prop} {c : Prop} [Decidable c] {x y : α} (hx : P x) (hy : P y) :
    P (if c then x else y) :=
  iteInduction (fun _ => hx) fun _ => hy

theorem foldl_keeps {α β : Type} {P : β → Prop} {f : β → α → β} {x : β} (l : List α) (hx : P x)
    (hf : ∀ y a, P y → P (f y a)) : P (l.foldl f x) :=
  List.foldlRecOn l f hx fun y hy a _ => hf y a hy

section
variable {P : State → Prop} (hP : Indifferent P) {s : State}
include hP

theorem shuttle_keeps (x : Shuttle) (hk : P s) : P { s with shuttle := x } := hP.tables hk rfl

theorem emit_keeps (o : Out) (hk : P s) : P (emit o s) := by
  obtain ⟨c, x, n, h⟩ := emit_frame o s
  rw [h]
  exact hP.tables hk rfl

theorem raiseLim_keeps (ns key c u i n : Nat) (d : Bytes) (hk : P s) : P (raiseLim ns key c u i n d s) := by
  have hraised : ∀ m, P (raise c u i n d { s with raised := m }) := fun _ =>
    hP.event _ _ _ _ _ (hP.tables hk rfl)
  unfold raiseLim
  dsimp only
  split
  · exact ite_keeps hk (hraised _)
  · exact hraised _

theorem badHandle_keeps (h q : Nat) (i : Initiator) (hk : P s) : P (badHandle h q i s) :=
  raiseLim_keeps hP _ _ _ _ _ _ _ (hP.badHandles _ hk)

/-! ### Packets joining queues, and freed (R481 to R487) -/

theorem quarantine_keeps (q : Nat) (extra : List Nat) (hk : P s) : P (quarantine q extra s) := by
  refine hP.event _ _ _ _ _ (hP.tables (foldl_keeps _ hk fun t h ht => ?_) rfl)
  split
  · exact hP.tables ht rfl
  · exact ht

theorem sendNotice_keeps (q : Nat) (named : Option Nat) (e : Bool) (i : Initiator) (hk : P s) :
    P (sendNotice q named e i s) := by
  unfold sendNotice
  cases named with
  | some t => exact hP.tables hk rfl
  | none => exact ite_keeps (hP.tables hk rfl) (ite_keeps (emit_keeps hP _ hk) hk)

theorem enqueue_keeps (q h : Nat) (named : Option Nat) (i : Initiator) (hk : P s) : P (enqueue q h named i s).2 := by
  unfold enqueue
  split
  · exact badHandle_keeps hP _ _ _ hk
  · split
    · exact quarantine_keeps hP _ _ (hP.tables hk rfl)
    · dsimp only
      split
      · exact raiseLim_keeps hP _ _ _ _ _ _ _ (hP.tables hk rfl)
      · exact sendNotice_keeps hP _ _ _ _ (hP.tables hk rfl)

theorem unitEnqueue_keeps (q h : Nat) (named : Option Nat) (i : Initiator) (hk : P s) :
    P (unitEnqueue q h named i s).2 := by
  have he : P (enqueue q h named i s).2 := enqueue_keeps hP q h named i hk
  unfold unitEnqueue
  generalize enqueue q h named i s = e at he ⊢
  obtain ⟨k, u⟩ := e
  cases k with
  | full => exact hP.tables he rfl
  | _ => exact he

/-! ### The end of a task (R160 to R167, R200, R201) -/

theorem beamFree_keeps (h : Nat) (hk : P s) : P (beamFree h s) :=
  ite_keeps (hP.tables hk rfl) (badHandle_keeps hP _ _ _ hk)

theorem beamRelease_keeps (f n : Nat) (hk : P s) : P (beamRelease f n s) := by
  induction n generalizing s with
  | zero => exact hk
  | succ n ih =>
    unfold beamRelease
    dsimp only
    split
    · exact hk
    · split
      · exact hk
      · refine ih (foldl_keeps _ (shuttle_keeps hP _ hk) fun t h ht => ?_)
        exact ite_keeps (unitEnqueue_keeps hP _ _ _ _ ht) (beamFree_keeps hP _ ht)

theorem closeSeq_keeps (f n : Nat) (rel : Bool) (hk : P s) : P (closeSeq f n rel s) := by
  unfold closeSeq
  dsimp only
  split
  · exact foldl_keeps _ (shuttle_keeps hP _ hk) fun t h ht => beamFree_keeps hP _ ht
  · exact beamRelease_keeps hP _ _ (shuttle_keeps hP _ hk)

theorem completeWork_keeps (w : Work) (ok : Bool) (crew : Nat) (hk : P s) : P (completeWork w ok crew s) := by
  unfold completeWork
  extract_lets x d t s1 s2 s3
  have hlate : P (if crew = 15 then shCount 1 1 s else shCountCrew crew 1 1 s) :=
    ite_keeps (hP.tables hk rfl) (hP.tables hk rfl)
  have h1 : P s1 := ite_keeps (raiseLim_keeps hP _ _ _ _ _ _ _ hlate) hk
  have h2 : P s2 := ite_keeps h1 (shuttle_keeps hP _ h1)
  have h3 : P s3 := ite_keeps (shuttle_keeps hP _ h2) (hP.tables h2 rfl)
  exact ite_keeps (closeSeq_keeps hP _ _ _ h3) h3

theorem failUnrunnable_keeps (hk : P s) : P (failUnrunnable s) :=
  foldl_keeps _ hk fun _ _ ht => hP.event _ _ _ _ _ (completeWork_keeps hP _ _ _ (shuttle_keeps hP _ ht))

/-! ### The evaluation of the projections, and the service modes (R179, R184 to R189) -/

theorem holdSlack_keeps (k : Nat) (ok : Bool) (hk : P s) : P (holdSlack k ok s).2 := by
  unfold holdSlack
  dsimp only
  split
  · exact shuttle_keeps hP _ hk
  · split
    · exact hk
    · exact shuttle_keeps hP _ hk

theorem countOverruns_keeps (hk : P s) : P (countOverruns s) :=
  foldl_keeps _ hk fun _ _ ht => ite_keeps (hP.tables ht rfl) ht

theorem rescueEvent_keeps (enter : Bool) (k : Nat) (x : Shuttle) (hk : P s) :
    P (rescueEvent enter k { s with shuttle := x }) :=
  hP.event _ _ _ _ _ (shuttle_keeps hP _ hk)

theorem setService_keeps (v : Service) (hk : P s) : P (setService v s) := by
  have hcrews : P (s.shuttle.crewRescue.foldl (fun s n => rescueEvent false n s) s) :=
    foldl_keeps _ hk fun _ _ ht => hP.event _ _ _ _ _ ht
  have hends : P (endRescues s) := shuttle_keeps hP _ (ite_keeps (hP.event _ _ _ _ _ hcrews) hcrews)
  exact shuttle_keeps hP _ (ite_keeps hends hk)

theorem evalCrew_keeps (n : Nat) (hk : P s) : P (evalCrew n s) := by
  unfold evalCrew
  dsimp only
  have hh : P (holdSlack n (slackOk s (some n)) s).2 := holdSlack_keeps hP _ _ hk
  exact ite_keeps (ite_keeps (rescueEvent_keeps hP _ _ _ hh) hh)
    (ite_keeps (hP.tables (rescueEvent_keeps hP _ _ _ hk) rfl) hk)

theorem rescueEval_keeps (hk : P s) : P (rescueEval s) := by
  have h0 : P (countOverruns { s with shuttle := { s.shuttle with evalDue := false } }) :=
    countOverruns_keeps hP (shuttle_keeps hP _ hk)
  unfold rescueEval
  generalize countOverruns { s with shuttle := { s.shuttle with evalDue := false } } = u at h0 ⊢
  dsimp only
  split
  · have h1 : P ((List.range 12).foldl (fun s n => evalCrew n s) u) :=
      foldl_keeps _ h0 fun _ n ht => evalCrew_keeps hP n ht
    generalize (List.range 12).foldl (fun s n => evalCrew n s) u = v at h1 ⊢
    have hh : P (holdSlack 15 (slackOk v none) v).2 := holdSlack_keeps hP _ _ h1
    exact ite_keeps (ite_keeps (rescueEvent_keeps hP _ _ _ hh) hh)
      (ite_keeps (hP.tables (rescueEvent_keeps hP _ _ _ h1) rfl) h1)
  · have hh : P (holdSlack 15 (slackOk u none) u).2 := holdSlack_keeps hP _ _ h0
    exact ite_keeps (setService_keeps hP _ hh) hh
  · exact h0

/-! ### The tasks of a crew that fails (R193) -/

theorem unstage_keeps (c : Nat) (hk : P s) : P (unstage c s) := by
  unfold unstage
  split
  · exact hk
  · dsimp only
    exact shuttle_keeps hP _ (ite_keeps hk (shuttle_keeps hP _ hk))

theorem requeue_keeps (w : Work) (hk : P s) : P (requeue w s) :=
  ite_keeps (hP.tables hk rfl) (hP.tables hk rfl)

theorem failCoreWork_keeps (c : Nat) {acc : Nat × Nat × State} (hk : P acc.2.2) : P (failCoreWork c acc).2.2 := by
  obtain ⟨rep, fl, s⟩ := acc
  unfold failCoreWork
  dsimp only at hk ⊢
  split
  · exact hk
  · split
    · exact hP.tables (requeue_keeps hP _ (shuttle_keeps hP _ hk)) rfl
    · exact completeWork_keeps hP _ _ _ (shuttle_keeps hP _ hk)

theorem failCoreWorks_keeps (cs : List Nat) {acc : Nat × Nat × State} (hk : P acc.2.2) :
    P (cs.foldl (fun acc c => failCoreWork c acc) acc).2.2 :=
  foldl_keeps (P := fun acc : Nat × Nat × State => P acc.2.2) cs hk fun _ c h => failCoreWork_keeps hP c h

end

end Sys2Proof.Machine
end

section
/-!
SUPPORT. Service requests, and what a failed crew leaves: the cores, the coprocessors' queues, the registers and the
events already raised (05_shuttle.md, R180, R193, R210; 06_crew_cores.md, R262, R263).
-/
namespace Sys2Proof.Machine
open Sys2Proof

/-- From `p` to `s` no core and no coprocessor's queue changes, events are only added, and of the registers at most Spool's
count of bad handles and the ledger change. -/
structure Beside (p s : State) : Prop where
  cores : s.cores = p.cores
  cops : s.cops = p.cops
  events : p.evq <+: s.evq
  regs : ∀ u i o, regKey u i o ≠ regKey uSPOOL 0 0x014 → regKey u i o ≠ regKey uSYS 0 0x020 →
    regGet s u i o = regGet p u i o

section
variable {p s t : State}

theorem Beside.refl (s : State) : Beside s s := ⟨rfl, rfl, List.prefix_rfl, fun _ _ _ _ _ => rfl⟩

/-- What writes none of these pieces stands beside them. -/
theorem Beside.same (hk : Beside p s) (hc : t.cores = s.cores) (ho : t.cops = s.cops) (he : t.evq = s.evq)
    (hr : t.regs = s.regs) : Beside p t :=
  ⟨hc.trans hk.cores, ho.trans hk.cops, he ▸ hk.events, fun u i o h1 h2 => by
    rw [regGet, hr]
    exact hk.regs u i o h1 h2⟩

theorem indifferent_beside (p : State) : Indifferent (Beside p) where
  tables hk h := hk.same (by rw [h]) (by rw [h]) (by rw [h]) (by rw [h])
  event _ _ _ _ _ hk := ⟨hk.cores, hk.cops, hk.events.trans (List.prefix_append _ _), hk.regs⟩
  badHandles _ hk := ⟨hk.cores, hk.cops, hk.events, fun u i o h1 h2 =>
    (regGet_regPutF_ne _ _ _ _ h1).trans (hk.regs u i o h1 h2)⟩

theorem beside_setSpare (v : Nat) (hk : Beside p s) : Beside p (setSpare v s) :=
  ⟨hk.cores, hk.cops, hk.events, fun u i o h1 h2 => (regGet_regPutF_ne _ _ _ s h2).trans (hk.regs u i o h1 h2)⟩

theorem beside_completeLong (l : Long) (st : Nat) (res : Bytes) (hk : Beside p s) :
    Beside p (completeLong l st res s) := by
  obtain ⟨q, b, c, x, n, h⟩ := completeLong_frame l st res s
  rw [h]
  exact hk.same rfl rfl rfl rfl

theorem Beside.core (hk : Beside p s) (c : Nat) : core s c = core p c := by rw [Machine.core, hk.cores]; rfl

theorem Beside.copQueue (hk : Beside p s) (crew e : Nat) : copQueue s crew e = copQueue p crew e := by
  rw [Machine.copQueue, hk.cops]
  rfl

theorem Beside.regF (hk : Beside p s) {u i o : Nat} (hi lo : Nat) (h1 : regKey u i o ≠ regKey uSPOOL 0 0x014)
    (h2 : regKey u i o ≠ regKey uSYS 0 0x020) : regF s u i o hi lo = regF p u i o hi lo := by
  rw [Machine.regF, hk.regs u i o h1 h2]
  rfl

end

/-! ### The steps of R193 -/

/-- FAILED with the bit of crew `n` set. -/
def markFailed (n : Nat) (s : State) : State := regPutF uSYS 0 0x00C 27 16 (Nat.lor (failedMask s) (2 ^ n)) s

/-- The cores and the coprocessors' queues of crew `n` as at reset. -/
def clearCrew (n : Nat) (s : State) : State :=
  { s with cores := s.cores.filter fun e => e.1 / 8 != n, cops := s.cops.filter fun e => e.1 / 8 != n }

/-- A failing crew is marked, then cleared; of the rest only the end of its tasks and the ledger are felt. -/
theorem crewFail_steps (n : Nat) (s : State) :
    ∃ t, Beside (markFailed n s) t ∧ Beside (clearCrew n t) (crewFail n s).2.2 := by
  have hP := indifferent_beside (markFailed n s)
  unfold crewFail
  extract_lets s1 s2 cs s3
  clear_value cs
  have h1 : Beside (markFailed n s) s1 := Beside.refl _
  have h2 : Beside (markFailed n s) s2 := ite_keeps (beside_setSpare 0 h1) (ite_keeps (hP.event _ _ _ _ _ h1) h1)
  have h3 : Beside (markFailed n s) s3 :=
    foldl_keeps (P := Beside (markFailed n s)) cs h2 fun _ c ht => unstage_keeps hP c ht
  have h4 := failCoreWorks_keeps hP cs (acc := (0, 0, s3)) h3
  generalize List.foldl _ _ cs = acc at h4 ⊢
  obtain ⟨rep, fl, t⟩ := acc
  have hQ := indifferent_beside (clearCrew n t)
  refine ⟨t, h4, ?_⟩
  dsimp only
  refine rescueEval_keeps hQ (failUnrunnable_keeps hQ ?_)
  refine hQ.event _ _ _ _ _ (setService_keeps hQ _ ?_)
  exact (Beside.refl (clearCrew n t)).same rfl rfl rfl rfl

theorem spFind_filter_out {α : Type} (m : Sparse α) (p : Nat → Bool) {k : Nat} (h : p k = false) :
    spFind (m.filter fun e => p e.1) k = none := by
  induction m with
  | nil => rfl
  | cons e r ih =>
    obtain ⟨j, v⟩ := e
    by_cases hj : j = k
    · subst hj
      rw [List.filter_cons_of_neg (by simp [h]), ih]
    · cases hp : p j
      · rw [List.filter_cons_of_neg (by simp [hp]), ih]
      · rw [List.filter_cons_of_pos (by simp [hp]), spFind, if_neg hj, ih]

/-- A bit set in a field that has room for it. -/
theorem bit_lor_mod (m : Nat) {k w : Nat} (h : k < w) : bit (Nat.lor m (2 ^ k) % 2 ^ w) k = true := by
  change bit ((m ||| 2 ^ k) % 2 ^ w) k = true
  rw [bit_eq_testBit, Nat.testBit_mod_two_pow, Nat.testBit_or, Nat.testBit_two_pow_self, decide_eq_true h,
    Bool.or_true, Bool.and_true]

section
variable {n : Nat} {s : State}

theorem core_clearCrew_own (k : Nat) (hk : k < 8) : core (clearCrew n s) (8 * n + k) = {} := by
  have hp : ((8 * n + k) / 8 != n) = false := by simp; omega
  rw [core, clearCrew, spGet, spFind_filter_out s.cores (fun j => j / 8 != n) hp]
  rfl

theorem core_clearCrew_other {j : Nat} (hj : j / 8 ≠ n) : core (clearCrew n s) j = core s j := by
  rw [core, clearCrew, spGet, spFind_filter s.cores (fun j => j / 8 != n) (by simp [hj])]
  rfl

theorem copQueue_clearCrew (e : Nat) (he : e < 8) : copQueue (clearCrew n s) n e = [] := by
  have hp : (copKey n e / 8 != n) = false := by simp [copKey]; omega
  rw [copQueue, clearCrew, spGet, spFind_filter_out s.cops (fun j => j / 8 != n) hp]
  rfl

theorem failedMask_markFailed (hn : n < 12) : bit (failedMask (markFailed n s)) n = true := by
  rw [failedMask, markFailed, regF_regPutF_same _ _ _ _ _ _ _ (by decide) (by decide)]
  exact bit_lor_mod _ hn

end

/-- What a failed crew leaves: its bit in FAILED, its cores as at reset and its coprocessors' queues empty, and the
other crews' cores as they were in `s`. -/
def CrewFallen (n : Nat) (s u : State) : Prop :=
  bit (failedMask u) n = true ∧ (∀ k < 8, core u (8 * n + k) = {}) ∧ (∀ j, j / 8 ≠ n → core u j = core s j) ∧
    (∀ e < 8, copQueue u n e = [])

section
variable {n : Nat} {s t u : State}

/-- The fault bits of a crew are none of the registers that the failure writes. -/
theorem faultKey_apart {n : Nat} (o : Nat) (ho : o < 0x10000) :
    regKey (uCREW + n) crewCtl 0x008 ≠ regKey uSPOOL 0 o ∧
    regKey (uCREW + n) crewCtl 0x008 ≠ regKey uSYS 0 o := by
  unfold regKey uCREW crewCtl uSPOOL uSYS
  omega

theorem crewFallen_of_steps (hn : n < 12) (h1 : Beside (markFailed n s) t) (h2 : Beside (clearCrew n t) u) :
    CrewFallen n s u := by
  refine ⟨?_, fun k hk => ?_, fun j hj => ?_, fun e he => ?_⟩
  · have hmask : failedMask u = failedMask (markFailed n s) :=
      (h2.regF 27 16 (by decide) (by decide)).trans (h1.regF 27 16 (by decide) (by decide))
    rw [hmask, failedMask_markFailed hn]
  · rw [h2.core, core_clearCrew_own k hk]
  · rw [h2.core, core_clearCrew_other hj, h1.core]
    rfl
  · rw [h2.copQueue, copQueue_clearCrew e he]

/-- A crew with a fault bit set fails, its fault bits stay, and what was raised before its failure stays raised. -/
theorem crewFailureOp_fails (hn : n < 12) (hu : crewUsable s n = true) (hf : regF s (uCREW + n) crewCtl 0x008 3 0 ≠ 0) :
    CrewFallen n s (crewFailureOp n s) ∧ s.evq <+: (crewFailureOp n s).evq ∧
      regF (crewFailureOp n s) (uCREW + n) crewCtl 0x008 3 0 = regF s (uCREW + n) crewCtl 0x008 3 0 := by
  obtain ⟨t, h1, h2⟩ := crewFail_steps n s
  have hgo : (!crewUsable s n || regF s (uCREW + n) crewCtl 0x008 3 0 == 0) = false := by simp [hu, hf]
  have h3 : Beside (clearCrew n t) (crewFailureOp n s) := by
    rw [crewFailureOp, hgo, if_neg Bool.false_ne_true]
    generalize crewFail n s = acc at h2 ⊢
    obtain ⟨rep, fl, u⟩ := acc
    exact foldl_keeps (P := Beside (clearCrew n t)) _ h2 fun _ l hl => beside_completeLong l _ _ hl
  obtain ⟨hspool, hsys⟩ := faultKey_apart (n := n) 0x014 (by decide)
  obtain ⟨-, hledger⟩ := faultKey_apart (n := n) 0x020 (by decide)
  obtain ⟨-, hfailed⟩ := faultKey_apart (n := n) 0x00C (by decide)
  refine ⟨crewFallen_of_steps hn h1 h3, h1.events.trans h3.events, ?_⟩
  calc regF (crewFailureOp n s) (uCREW + n) crewCtl 0x008 3 0
      = regF (clearCrew n t) (uCREW + n) crewCtl 0x008 3 0 := h3.regF _ _ hspool hledger
    _ = regF (markFailed n s) (uCREW + n) crewCtl 0x008 3 0 := h1.regF _ _ hspool hledger
    _ = regF s (uCREW + n) crewCtl 0x008 3 0 := regF_regPutF_ne _ _ _ _ _ _ hfailed

theorem crewFailureOp_sound (hf : regF s (uCREW + n) crewCtl 0x008 3 0 = 0) : crewFailureOp n s = s := by
  simp [crewFailureOp, hf]

/-- The fault bits of crew `n` with bit `b` set. -/
def faultsWith (n b : Nat) (s : State) : Nat := Nat.lor (regF s (uCREW + n) crewCtl 0x008 3 0) (2 ^ b)

/-- A fault bit sets in a usable crew: CREW_FATAL is raised, and nothing else changes. -/
theorem crewFatalOp_raises {b : Nat} (hu : crewUsable s n = true) (hb : b < 3) : crewFatalOp n b s =
    raise 0x1005 (uCREW + n) 8 2 [BitVec.ofNat 8 (faultsWith n b s)]
      (regPutF (uCREW + n) crewCtl 0x008 3 0 (faultsWith n b s) s) := by
  simp [crewFatalOp, faultsWith, hu, Nat.not_le.2 hb]

/-- The crew of a fault bit that sets fails at once: what it leaves, its fault bit, and CREW_FATAL raised before. -/
theorem crewFatal_fails {b : Nat} (hn : n < 12) (hu : crewUsable s n = true) (hb : b < 3) :
    CrewFallen n s (crewFailureOp n (crewFatalOp n b s)) ∧
    bit (regF (crewFailureOp n (crewFatalOp n b s)) (uCREW + n) crewCtl 0x008 3 0) b = true ∧
    ∃ d es, (crewFailureOp n (crewFatalOp n b s)).evq =
      s.evq ++ { code := 0x1005, unit := uCREW + n, inst := 8, sev := 2, data := d } :: es := by
  have hv := crewFatalOp_raises hu hb
  generalize crewFatalOp n b s = v at hv ⊢
  have hfault : regF v (uCREW + n) crewCtl 0x008 3 0 = faultsWith n b s % 2 ^ 4 := by
    rw [hv]
    exact regF_regPutF_same _ _ _ _ _ _ s (by decide) (by decide)
  have hbit : bit (faultsWith n b s % 2 ^ 4) b = true := bit_lor_mod _ (by omega)
  have hne : faultsWith n b s % 2 ^ 4 ≠ 0 := fun h0 => by
    rw [h0, bit_eq_testBit, Nat.zero_testBit] at hbit
    cases hbit
  have husable : crewUsable v n = true := by
    obtain ⟨-, hfailed⟩ := faultKey_apart (n := n) 0x00C (by decide)
    have hmask : failedMask v = failedMask s := by
      rw [hv]
      exact regF_regPutF_ne _ _ _ _ _ s hfailed.symm
    rw [← hu, crewUsable, crewUsable, crewPresent, crewPresent, hmask, hv]
    rfl
  have hcore : ∀ j, core v j = core s j := fun j => by rw [hv]; rfl
  obtain ⟨⟨hmask, hown, hothers, hcops⟩, ⟨es, hev⟩, hkept⟩ :=
    crewFailureOp_fails hn husable (by rw [hfault]; exact hne)
  refine ⟨⟨hmask, hown, fun j hj => (hothers j hj).trans (hcore j), hcops⟩, ?_,
    fit 16 [BitVec.ofNat 8 (faultsWith n b s)], es, ?_⟩
  · rw [hkept, hfault, hbit]
  · rw [← hev, hv]
    exact List.append_assoc _ _ _

end

/-! ### The commands of R210 -/

section
variable {s : State} {r : Request}

theorem serviceReqOp_code (hs : s.shuttle.service ≠ .recovery) :
    serviceReqOp 1 s = setService .normal s ∧ serviceReqOp 2 s = setService .test s := by
  simp [serviceReqOp, hs]

theorem targetCheck_shuttle (h : Addressed r uSHUTTLE 0) : targetCheck s r uSHUTTLE 0 = 0 :=
  targetCheck_addressed h (by cases s.part <;> rfl)

theorem replies_serviceSet (ha : Addressed r uSHUTTLE 0) (hp : r.params = [1, 0, 0, 0])
    (hs : s.shuttle.service ≠ .recovery) :
    Replies (.serviceSet r) s 0x0B40 r 0 (leBytes 4 (serviceCode s.shuttle.service)) (setService .normal s) := by
  have hl : r.params.length = 4 := by rw [hp]; rfl
  have h1 : fld r.params 0 1 = 1 := by rw [hp]; rfl
  have hz : rsv r.params 1 3 = true := by rw [hp]; rfl
  exact replies_of_runCmd ha rfl (serviceSetOp.eq_def r s) (by simp [targetCheck_shuttle ha, hl, h1, hz, bne_iff_ne.2 hs])
    (by rw [if_pos h1])

theorem replies_shuttleStats (ha : Addressed r uSHUTTLE 0) (hl : r.params.length = 4)
    (hn : fld r.params 0 1 < 12 ∨ fld r.params 0 1 = 15) (hz : fld r.params 1 3 = 0) :
    Replies (.shuttleStats r) s 0x0B42 r 0
      ((List.range 16).flatMap fun k => leBytes 4 (cntGet s (cntKey uSHUTTLE (fld r.params 0 1) k))) s :=
  have hcrew : (decide (fld r.params 0 1 < 12) || fld r.params 0 1 == 15) = true := by simpa using hn
  replies_of_runCmd ha rfl (shuttleStatsOp.eq_def r s) (by simp [targetCheck_shuttle ha, hl, hcrew, hz, rsv]) rfl

theorem accepts_crewRetire {crew : Nat} (hn : fld r.params 0 1 = crew) (ha : Addressed r uSHUTTLE 0)
    (hl : r.params.length = 4) (hz : fld r.params 1 3 = 0) (hw : crewWhole s crew = true) (hroom : LongRoom s r)
    (hlast : ((List.range 12).filter (crewWhole s)).length ≠ 1) :
    Accepts (.crewRetire r) s 0x0B41 r none false (regPutF (uCREW + crew) crewCtl 0x008 3 3 1) := by
  subst hn
  exact accepts_long ha hroom rfl (by simp [targetCheck_shuttle ha, hl, hz, rsv, hw, bne_iff_ne.2 hlast])

end

/-- Settles O18, from the steps of a crew's failure and from the commands of R210. -/
theorem serviceAndCrewFailure : Obligations.ServiceAndCrewFailure := by
  unfold Obligations.ServiceAndCrewFailure
  intro s crew fault r failed
  refine ⟨fun hs => ⟨effect_done rfl ⟨(serviceReqOp_code hs).1, ?_⟩, effect_done rfl ⟨(serviceReqOp_code hs).2, ?_⟩⟩,
    fun hs v => effect_done rfl (if_pos hs),
    fun hu hf => effect_done rfl (crewFailureOp_fails crew.isLt hu hf).1,
    fun hu hf => effect_done rfl (crewFailureOp_sound hf),
    fun hu => effect_done rfl (crewFatal_fails crew.isLt hu fault.isLt),
    fun ha hp hs => replies_serviceSet ha hp hs, fun ha hl hn hz => replies_shuttleStats ha hl hn hz,
    fun ha hp hw hroom hlast => accepts_crewRetire ?_ ha (by rw [hp]; rfl) (by rw [hp]; rfl) hw hroom hlast⟩
  · exact congrArg (·.shuttle.service) (serviceReqOp_code hs).1
  · exact congrArg (·.shuttle.service) (serviceReqOp_code hs).2
  · rw [hp, fld_cons_byte, BitVec.toNat_ofNat, Nat.mod_eq_of_lt (by omega)]

end Sys2Proof.Machine
end

section
/-!
SUPPORT. The scalar instructions: results of one and two registers, division, the accumulators, the searches and a bad
JALR target (06_crew_cores.md, Scalar instructions; R212, R216, R219 to R224).
-/
namespace Sys2Proof.Machine
open Sys2Proof

/-! ### An instruction that writes one register -/

section
variable {i : Instr} {s : State} {c : Fin 96} {rd rs1 rs2 : Fin 32} {v : Word}

theorem writes_onCore {f : Core → State → State} (hi : exec i s = onCore c f s) (h : Ready s c)
    (hf : f (begun (core s c)) (beginInstr c s) = writeS c rd v (beginInstr c s)) : Writes i s c rd v := by
  refine effect_onCore hi h (hf.trans ?_) fun he => ?_
  · rw [writeS, core_beginInstr]
  · rw [exc_retire, exc_setS, begun_exc, he]

theorem writes_alu2 {f : Word → Word → Word} (hi : exec i s = alu2 c rd rs1 rs2 f s) (h : Ready s c)
    (hv : f (getS (core s c) rs1) (getS (core s c) rs2) = v) : Writes i s c rd v :=
  writes_onCore hi h (by rw [getS_begun, getS_begun, hv])

theorem writes_alu1 {f : Word → Word} (hi : exec i s = alu1 c rd rs1 f s) (h : Ready s c)
    (hv : f (getS (core s c) rs1) = v) : Writes i s c rd v :=
  writes_onCore hi h (by rw [getS_begun, hv])

end

/-! ### What the operations compute -/

theorem w01_slt (a b : Word) : w01 (a.slt b) = if a.toInt < b.toInt then 1 else 0 := by
  simp [w01, BitVec.slt]

theorem w01_ult (a b : Word) : w01 (a.ult b) = if a.toNat < b.toNat then 1 else 0 := by
  simp [w01, BitVec.ult]

/-- The upper half of a product of 128 bits. -/
theorem upperHalf_ofInt (p : Int) : (BitVec.ofInt 128 p >>> 64).setWidth 64 = BitVec.ofInt 64 (p / 2 ^ 64) := by
  apply BitVec.eq_of_toNat_eq
  simp only [BitVec.toNat_setWidth, BitVec.toNat_ushiftRight, BitVec.toNat_ofInt, Nat.shiftRight_eq_div_pow]
  omega

/-- The high half of the signed product (MULH). -/
theorem mulh_eq (a b : Word) : ((a.signExtend 128 * b.signExtend 128) >>> 64).setWidth 64 =
    BitVec.ofInt 64 (a.toInt * b.toInt / 2 ^ 64) := by
  rw [← upperHalf_ofInt, BitVec.ofInt_mul]
  rfl

/-- The high half of the unsigned product (MULHU). -/
theorem mulhu_eq (a b : Word) : ((a.setWidth 128 * b.setWidth 128) >>> 64).setWidth 64 =
    BitVec.ofNat 64 (a.toNat * b.toNat / 2 ^ 64) := by
  have hp : a.toNat * b.toNat < 2 ^ 128 :=
    calc a.toNat * b.toNat < 2 ^ 64 * 2 ^ 64 := Nat.mul_lt_mul'' a.isLt b.isLt
      _ = 2 ^ 128 := by norm_num
  have ha : a.toNat % 2 ^ 128 = a.toNat := Nat.mod_eq_of_lt (by omega)
  have hb : b.toNat % 2 ^ 128 = b.toNat := Nat.mod_eq_of_lt (by omega)
  apply BitVec.eq_of_toNat_eq
  simp only [BitVec.toNat_setWidth, BitVec.toNat_ushiftRight, BitVec.toNat_mul, BitVec.toNat_ofNat,
    Nat.shiftRight_eq_div_pow, ha, hb, Nat.mod_eq_of_lt hp]

/-- The immediate of LUI above 16 zero bits, sign-extended. -/
theorem lui_eq (imm : BitVec 16) :
    ((imm.setWidth 32) <<< 16).signExtend 64 = BitVec.ofInt 64 (imm.toInt * 2 ^ 16) := by
  refine congrArg (BitVec.ofInt 64) ?_
  have h := imm.isLt
  simp only [BitVec.toInt_eq_toNat_cond, BitVec.toNat_shiftLeft, BitVec.toNat_setWidth, Nat.shiftLeft_eq]
  split <;> split <;> omega

/-- CLZ counts the zeros above the highest one. -/
theorem clz64_spec (a : Word) : clz64 a ≤ 64 ∧ (∀ j < clz64 a, a.getLsbD (63 - j) = false) ∧
    (clz64 a < 64 → a.getLsbD (63 - clz64 a) = true) := by
  unfold clz64
  cases hf : (List.range 64).find? fun k => a.getLsbD (63 - k) with
  | none =>
    rw [List.find?_range_eq_none] at hf
    exact ⟨le_rfl, fun j hj => by simpa using hf j hj, fun h => absurd h (lt_irrefl _)⟩
  | some k =>
    rw [List.find?_range_eq_some] at hf
    obtain ⟨hbit, hk, hbelow⟩ := hf
    exact ⟨(List.mem_range.1 hk).le, fun j hj => by simpa using hbelow j hj, fun _ => hbit⟩

theorem popc64_eq (a : Word) : popc64 a = (List.range 64).countP fun k => a.getLsbD k :=
  (List.countP_eq_length_filter ..).symm

/-- Settles O19: the register file, then each instruction as the operation on one or two registers that it is. -/
theorem scalarResults : Obligations.ScalarResults := by
  refine ⟨fun x r q v => ?file, fun s c rd rs1 rs2 h => ?two, fun s c rd rs1 imm n h => ?immediate⟩
  case file =>
    refine ⟨getS_zero x, setS_zero x v, getS_setS_same x v, getS_setS_ne x v, ?_⟩
    unfold setS
    split <;> rfl
  case two =>
    exact ⟨writes_alu2 (exec_add ..) h rfl, writes_alu2 (exec_sub ..) h rfl, writes_alu2 (exec_andOp ..) h rfl,
      writes_alu2 (exec_orOp ..) h rfl, writes_alu2 (exec_xorOp ..) h rfl, writes_alu2 (exec_sll ..) h rfl,
      writes_alu2 (exec_srl ..) h rfl, writes_alu2 (exec_sra ..) h rfl, writes_alu2 (exec_slt ..) h (w01_slt _ _),
      writes_alu2 (exec_sltu ..) h (w01_ult _ _), writes_alu2 (exec_mul ..) h rfl,
      writes_alu2 (exec_mulh ..) h (mulh_eq _ _), writes_alu2 (exec_mulhu ..) h (mulhu_eq _ _)⟩
  case immediate =>
    obtain ⟨hle, hzeros, hone⟩ := clz64_spec (getS (core s c) rs1)
    exact ⟨writes_alu1 (exec_addi ..) h rfl, writes_alu1 (exec_andi ..) h rfl, writes_alu1 (exec_ori ..) h rfl,
      writes_alu1 (exec_xori ..) h rfl, writes_alu1 (exec_slti ..) h (w01_slt _ _),
      writes_alu1 (exec_sltiu ..) h (w01_ult _ _), writes_alu1 (exec_slli ..) h rfl, writes_alu1 (exec_srli ..) h rfl,
      writes_alu1 (exec_srai ..) h rfl, writes_alu1 (exec_lui ..) h (lui_eq imm), writes_alu1 (exec_shori ..) h rfl,
      ⟨_, hle, writes_alu1 (exec_clz ..) h rfl, hzeros, hone⟩,
      writes_alu1 (exec_popc ..) h (congrArg _ (popc64_eq _))⟩

/-! ### Division (R216) and a bad JALR target (R219) -/

theorem divS_of_ne {a b : Word} (h : b ≠ 0) : divS a b = BitVec.ofInt 64 (a.toInt.tdiv b.toInt) := by
  apply BitVec.eq_of_toInt_eq
  rw [divS, if_neg h, BitVec.toInt_sdiv, BitVec.toInt_ofInt]

theorem divU_of_ne {a b : Word} (h : b ≠ 0) : divU a b = BitVec.ofNat 64 (a.toNat / b.toNat) := by
  rw [divU, if_neg h, ← BitVec.toNat_udiv, BitVec.ofNat_toNat, BitVec.setWidth_eq]
  rfl

theorem remS_of_ne {a b : Word} (h : b ≠ 0) : remS a b = BitVec.ofInt 64 (a.toInt.tmod b.toInt) := by
  rw [remS, if_neg h, ← BitVec.toInt_srem, BitVec.ofInt_toInt]

theorem remU_of_ne {a b : Word} (h : b ≠ 0) : remU a b = BitVec.ofNat 64 (a.toNat % b.toNat) := by
  rw [remU, if_neg h, ← BitVec.toNat_umod, BitVec.ofNat_toNat, BitVec.setWidth_eq]
  rfl

/-- Settles O20: the four divisions by their divisor, and JALR's check of its target. -/
theorem scalarCornerCases : Obligations.ScalarCornerCases := by
  refine ⟨fun s c rd rs1 rs2 h => ⟨fun hb => ?zero, fun hab => ?least, fun hb => ?other⟩,
    fun s c rd rs1 imm h he => ?jalr⟩
  case zero =>
    exact ⟨writes_alu2 (exec_div ..) h (if_pos hb), writes_alu2 (exec_divu ..) h (if_pos hb),
      writes_alu2 (exec_rem ..) h (if_pos hb), writes_alu2 (exec_remu ..) h (if_pos hb)⟩
  case least =>
    obtain ⟨ha, hb⟩ := hab
    exact ⟨writes_alu2 (exec_div ..) h (by rw [ha, hb]; decide), writes_alu2 (exec_rem ..) h (by rw [ha, hb]; decide)⟩
  case other =>
    exact ⟨writes_alu2 (exec_div ..) h (divS_of_ne hb), writes_alu2 (exec_divu ..) h (divU_of_ne hb),
      writes_alu2 (exec_rem ..) h (remS_of_ne hb), writes_alu2 (exec_remu ..) h (remU_of_ne hb)⟩
  case jalr =>
    intro t ht
    refine traps_onCore (exec_jalr ..) h he ?_
    dsimp only
    rw [effAddr, getS_begun]
    exact if_pos ht

/-! ### The accumulators (R220 to R222) -/

theorem sshiftRight_signExtend (v : BitVec 56) (k : Nat) :
    (v.signExtend 64).sshiftRight k = BitVec.ofInt 64 (v.toInt / 2 ^ k) := by
  have hv : (v.signExtend 64).toInt = v.toInt := BitVec.toInt_signExtend_of_le (by decide)
  rw [← BitVec.ofInt_toInt (x := (v.signExtend 64).sshiftRight k), BitVec.toInt_sshiftRight, hv,
    Int.shiftRight_eq_div_pow]
  norm_cast

theorem toInt_sshiftRight_signExtend (v : BitVec 56) (k : Nat) :
    ((v.signExtend 64).sshiftRight k).toInt = v.toInt / 2 ^ k := by
  rw [BitVec.toInt_sshiftRight, BitVec.toInt_signExtend_of_le (by decide), Int.shiftRight_eq_div_pow]
  norm_cast

theorem satS_24 (v : Int) : satS 24 v = max (-(2 ^ 23)) (min (2 ^ 23 - 1) v) := by
  unfold satS
  split
  · omega
  · split <;> omega

/-- The limited value, and whether it differs from the exact one. -/
theorem clip24_eq (v : Int) : clip24 v =
    (max (-(2 ^ 23)) (min (2 ^ 23 - 1) v), decide (max (-(2 ^ 23)) (min (2 ^ 23 - 1) v) ≠ v)) := by
  rw [clip24, satS_24]
  exact congrArg _ (Bool.eq_iff_iff.2 (bne_iff_ne.trans decide_eq_true_iff.symm))

section
variable {i : Instr} {s : State} {c : Fin 96} {rd rs1 rs2 : Fin 32}

/-- A search whose pair is legal takes the pair or keeps it (R223, R224). -/
theorem leaves_search {p : Word → Word → Bool} (hi : exec i s = search c rd rs1 rs2 p s) (h : Ready s c)
    (heven : rd.val % 2 = 0) (hrd : rd ≠ 0) :
    Leaves i s c (if p (getS (begun (core s c)) rs1) (getS (begun (core s c)) rd) then
      retire (setS (setS (begun (core s c)) rd (getS (begun (core s c)) rs1)) (rd + 1) (getS (begun (core s c)) rs2))
      else retire (begun (core s c))) := by
  have hpair : pairOk rd = true := by
    have hval : rd.val ≠ 0 := fun e => hrd (Fin.ext e)
    simp [pairOk, heven, hval]
  refine effect_onCore hi h ?_ fun he => ?_
  · simp only [hpair, Bool.not_true, Bool.false_eq_true, if_false]
    split <;> rfl
  · split <;> simp [he]

/-- A search refuses an odd rd and s0 (R223). -/
theorem traps_search {p : Word → Word → Bool} (hi : exec i s = search c rd rs1 rs2 p s) (h : Ready s c)
    (he : (core s c).exc = false) (hrd : rd.val % 2 = 1 ∨ rd = 0) : Traps i s c 0x01 0 := by
  have hpair : pairOk rd = false := by
    rcases hrd with hodd | hzero
    · simp [pairOk, hodd]
    · simp [pairOk, hzero]
  exact traps_onCore hi h he (by rw [hpair]; rfl)

end

theorem accumulatorResults : Claims.AccumulatorResults := by
  intro s c rd rs1 rs2 acc n h x p put outside moved clipped
  have hx : (core s c).exc = false → x.exc = false := fun he => (begun_exc _).trans he
  refine ⟨effect_onCore (exec_mac ..) h rfl hx, effect_onCore (exec_msu ..) h rfl hx,
    effect_onCore (exec_mula ..) h rfl hx, effect_onCore (exec_accld ..) h rfl hx, fun hn => ?accx, fun hn => ?accxs⟩
  case accx =>
    refine writes_onCore (exec_accx ..) h ?_
    rw [if_neg (by omega), sshiftRight_signExtend]
  case accxs =>
    refine effect_onCore (exec_accxs ..) h ?_ fun he => (exc_setS x rd _).trans (hx he)
    rw [if_neg (by omega)]
    dsimp only
    rw [toInt_sshiftRight_signExtend, clip24_eq]

/-- Settles O22: the accumulators, the searches, and the operands they refuse. -/
theorem accumulatorsAndSearches : Obligations.AccumulatorsAndSearches := by
  refine ⟨accumulatorResults, fun s c rd rs1 rs2 h heven hrd => ?searches,
    fun s c rd rs1 rs2 acc n h he => ⟨fun hn => ?shift, fun hrd => ?pair⟩⟩
  case searches =>
    exact ⟨leaves_search (exec_maxi ..) h heven hrd, leaves_search (exec_mini ..) h heven hrd,
      leaves_search (exec_maxiu ..) h heven hrd, leaves_search (exec_miniu ..) h heven hrd⟩
  case shift => exact ⟨traps_onCore (exec_accx ..) h he (if_pos hn), traps_onCore (exec_accxs ..) h he (if_pos hn)⟩
  case pair =>
    exact ⟨traps_search (exec_maxi ..) h he hrd, traps_search (exec_mini ..) h he hrd,
      traps_search (exec_maxiu ..) h he hrd, traps_search (exec_miniu ..) h he hrd⟩

end Sys2Proof.Machine
end

section
/-!
SUPPORT. The loads and stores of a core: what they find in and leave in its data cache, and the addresses they refuse
(06_crew_cores.md, R217, R218, R233 to R236, R259).
-/
namespace Sys2Proof.Machine
open Sys2Proof

/-! ### An instruction of a core, by what becomes of the core -/

/-- An instruction that goes through and leaves its core as `y`, by whatever steps. -/
theorem leaves_of_becomes {i : Instr} {c : Fin 96} {f : Bool → Core → State → Bool × State} {s t : State} {y : Core}
    (hi : exec i s = onCoreR c f s) (h : Ready s c)
    (hf : f (!(core s c).exc && eriPending (core s c)) (begun (core s c)) (beginInstr c s) = (true, t))
    (ht : CoreBecomes c y (beginInstr c s) t) (he : (core s c).exc = false → y.exc = false) : Leaves i s c y := by
  have hy : CoreBecomes c y s t := (coreBecomes_beginInstr c s).trans ht
  refine effect_onCoreR hi h hf ?_
  rwa [endInstr_same fun hx => (congrArg Core.exc hy.1).trans (he hx)]

/-! ### What the data cache answers and takes -/

section
variable {s : State} {c a n : Nat} {x : Core} {l : Line}

@[simp] theorem cacheable_begun (x : Core) (c a : Nat) : cacheable (begun x) c a = cacheable x c a := by
  simp only [cacheable, begun_ucBase, begun_ucLimit, begun_spmCached]

@[simp] theorem dirtyAt_beginInstr (s : State) (c a : Nat) : dirtyAt (beginInstr c s) c a = dirtyAt s c a := by
  rw [dirtyAt, core_beginInstr, begun_dcache, dirtyAt]

/-- Only SDRAM and scratchpad are cacheable (Caches and ordering). -/
theorem region_of_cacheable (h : cacheable x c a = true) :
    regionOf a = .sdram ∨ ∃ crew off, regionOf a = .spm crew off := by
  unfold cacheable at h
  split at h
  · next hr => exact .inl hr
  · next crew off hr => exact .inr ⟨crew, off, hr⟩
  · cases h

/-- A good line that is present needs no fill, and nothing is corrected in it. -/
theorem fillLine_hit (hl : (core s c).dcache.find? (·.addr == a) = some l) (hbad : l.bad = false) (hce : l.ce = false) :
    fillLine c a s = (.ok, s) := by
  simp [fillLine, hl, hbad, lineCorrect, hce]

theorem lineBytes_hit (hl : (core s c).dcache.find? (·.addr == a / 64 * 64) = some l) :
    lineBytes s c a n = sub l.data (a % 64) n := by
  rw [lineBytes, hl]

/-- A load of a cacheable address that a good line holds finds the line's bytes. -/
theorem dataRead_hit (hc : cacheable (core s c) c a = true)
    (hl : (core s c).dcache.find? (·.addr == a / 64 * 64) = some l) (hbad : l.bad = false) (hce : l.ce = false) :
    dataRead c a n s = (.ok, sub l.data (a % 64) n, s) := by
  have hcached : loadCached s c a = true := by rw [loadCached, hc, Bool.true_or]
  unfold dataRead
  rcases region_of_cacheable hc with hr | ⟨crew, off, hr⟩ <;>
    simp [hr, hcached, fillLine_hit hl hbad hce, lineBytes_hit hl]

/-- A load of an address in no region is answered with a bus error (R18). -/
theorem dataRead_nothing (hr : regionOf a = .nothing) : dataRead c a n s = (.busError, [], s) := by
  rw [dataRead, hr]

theorem cacheStore_dirty (bs : Bytes) (hd : dirtyAt s c a = true) : cacheStore c a bs s = (.ok, lineStore c a bs s) := by
  rw [cacheStore, if_pos hd]

/-- The line at `a` with bytes stored in it. -/
def storedLine (a : Nat) (bs : Bytes) (l : Line) : Line :=
  if l.addr = a / 64 * 64 then
    { l with data := sub l.data 0 (a % 64) ++ bs ++ l.data.drop (a % 64 + bs.length), dirty := true }
  else l

theorem coreBecomes_lineStore (s : State) (c a : Nat) (bs : Bytes) :
    CoreBecomes c { core s c with dcache := (core s c).dcache.map (storedLine a bs) } s (lineStore c a bs s) := by
  have hmap : (core s c).dcache.map (fun l : Line => if l.addr == a / 64 * 64 then
      { l with data := sub l.data 0 (a % 64) ++ bs ++ l.data.drop (a % 64 + bs.length), dirty := true } else l) =
      (core s c).dcache.map (storedLine a bs) := by
    simp only [beq_iff_eq]
    rfl
  rw [lineStore, hmap]
  exact coreBecomes_corePut _ _ _

end

/-! ### Loads -/

/-- The address of a load or store, from the core before its instruction begins. -/
theorem effAddr_begun (x : Core) (rs1 : Fin 32) (imm : BitVec 16) :
    effAddr (begun x) rs1 imm = getS x rs1 + imm.signExtend 64 := by
  rw [effAddr, getS_begun]
  rfl

section
variable {i : Instr} {s : State} {c : Fin 96} {rs1 : Fin 32} {imm : BitVec 16} {n a : Nat}

section
variable {rd : Fin 32} {signed : Bool} (hi : exec i s = loadOp c rd rs1 imm n signed s) (h : Ready s c)
  (haddr : (getS (core s c) rs1 + imm.signExtend 64).toNat = a)
include hi h haddr

theorem traps_load_misaligned (he : (core s c).exc = false) (ha : a % n ≠ 0) : Traps i s c 0x03 a := by
  refine traps_onCoreR hi h he ?_
  simp only [effAddr_begun, haddr, ha, ne_eq, not_false_eq_true, if_true]

theorem traps_load_nothing (he : (core s c).exc = false) (ha : a % n = 0) (hr : regionOf a = .nothing) :
    Traps i s c 0x04 a := by
  refine traps_onCoreR hi h he ?_
  simp only [effAddr_begun, haddr, ha, ne_eq, not_true_eq_false, if_false, dataRead_nothing hr]

/-- A load that hits a good line writes the line's bytes to rd. -/
theorem writes_load_hit {l : Line} {v : Word} (hc : cacheable (core s c) c a = true)
    (hl : (core s c).dcache.find? (·.addr == a / 64 * 64) = some l) (hbad : l.bad = false) (hce : l.ce = false)
    (hv : loadValue signed (sub l.data (a % 64) n) = v) (ha : a % n = 0) : Writes i s c rd v := by
  have hread := dataRead_hit (s := beginInstr c s) (n := n) (by rwa [core_beginInstr, cacheable_begun])
    (by rwa [core_beginInstr, begun_dcache]) hbad hce
  refine leaves_onCoreR hi h ?_ fun he => (exc_setS (begun (core s c)) rd v).trans ((begun_exc _).trans he)
  simp only [effAddr_begun, haddr, ha, ne_eq, not_true_eq_false, if_false, hread, hv, writeS, core_beginInstr]

end

/-! ### Stores -/

section
variable {rs2 : Fin 32} (hi : exec i s = storeOp c rs2 rs1 imm n s) (h : Ready s c)
  (haddr : (getS (core s c) rs1 + imm.signExtend 64).toNat = a)
include hi h haddr

theorem traps_store_misaligned (he : (core s c).exc = false) (ha : a % n ≠ 0) : Traps i s c 0x03 a := by
  refine traps_onCoreR hi h he ?_
  simp only [effAddr_begun, haddr, ha, ne_eq, not_false_eq_true, if_true]

theorem traps_store_nothing (he : (core s c).exc = false) (ha : a % n = 0) (hr : regionOf a = .nothing) :
    Traps i s c 0x06 a := by
  refine traps_onCoreR hi h he ?_
  simp only [effAddr_begun, haddr, ha, ne_eq, not_true_eq_false, if_false, hr]

/-- A store past the cache to memory, which takes whole words of 32 bytes only (R259). -/
theorem traps_store_narrow (he : (core s c).exc = false) (hc : cacheable (core s c) c a = false)
    (hr : regionOf a = .sdram ∨ (∃ crew off, regionOf a = .spm crew off) ∨ regionOf a = .cell) (ha : a % n = 0) :
    Traps i s c 0x05 a := by
  refine traps_onCoreR hi h he ?_
  rcases hr with hr | ⟨crew, off, hr⟩ | hr <;>
    simp only [effAddr_begun, haddr, ha, ne_eq, not_true_eq_false, if_false, hr, cacheable_begun, hc, Bool.not_false,
      if_true]

/-- A store that hits a dirty line stores its bytes there. -/
theorem leaves_store_dirty (hc : cacheable (core s c) c a = true) (hd : dirtyAt s c a = true)
    (hh : storeHeld (begun (core s c)) = false) (ha : a % n = 0) :
    Leaves i s c (retire { begun (core s c) with
      dcache := (begun (core s c)).dcache.map (storedLine a (leBytes n (getS (begun (core s c)) rs2).toNat)) }) := by
  have hstore := cacheStore_dirty (leBytes n (getS (begun (core s c)) rs2).toNat) ((dirtyAt_beginInstr s c a).trans hd)
  have hline := coreBecomes_lineStore (beginInstr c s) c a (leBytes n (getS (begun (core s c)) rs2).toNat)
  rw [core_beginInstr] at hline
  refine leaves_of_becomes hi h ?_ (hline.trans (coreBecomes_corePut _ _ _)) fun he => (begun_exc _).trans he
  rcases region_of_cacheable hc with hr | ⟨crew, off, hr⟩ <;>
    simp only [effAddr_begun, haddr, ha, ne_eq, not_true_eq_false, if_false, hr, cacheable_begun, hc, Bool.not_true,
      Bool.false_eq_true, hh, hstore, hline.1]

end

end

/-- Settles O23, from the load that hits and the store to a dirty line, at each width. -/
theorem cachedLoadsAndStores : Obligations.CachedLoadsAndStores := by
  refine ⟨?loads, ?stores⟩
  case loads =>
    intro s c rd rs1 imm l h a hc hl hbad hce
    have hvalue : ∀ n signed, loadValue signed (sub l.data (a % 64) n) =
        if signed then BitVec.ofInt 64 (toS (8 * n) (leNat (sub l.data (a % 64) n)))
        else BitVec.ofNat 64 (leNat (sub l.data (a % 64) n)) := fun n signed => by rw [loadValue, length_sub]
    exact ⟨writes_load_hit (exec_lb ..) h rfl hc hl hbad hce (hvalue 1 true),
      writes_load_hit (exec_lbu ..) h rfl hc hl hbad hce (hvalue 1 false),
      writes_load_hit (exec_lh ..) h rfl hc hl hbad hce (hvalue 2 true),
      writes_load_hit (exec_lhu ..) h rfl hc hl hbad hce (hvalue 2 false),
      writes_load_hit (exec_lw ..) h rfl hc hl hbad hce (hvalue 4 true),
      writes_load_hit (exec_lwu ..) h rfl hc hl hbad hce (hvalue 4 false),
      writes_load_hit (exec_ld ..) h rfl hc hl hbad hce (hvalue 8 false)⟩
  case stores =>
    intro s c rs2 rs1 imm h x a hc hd hh stored stores
    have haddr : (getS (core s c) rs1 + imm.signExtend 64).toNat = a := by rw [← getS_begun]
    have hx : cacheable (core s c) c a = true := by rwa [← cacheable_begun]
    have hline : ∀ n, stored n = storedLine a (leBytes n (getS x rs2).toNat) := fun n => by
      funext l
      rw [storedLine, length_leBytes]
    have hstores : ∀ (i : Instr) n, exec i s = storeOp c rs2 rs1 imm n s → stores i n := fun i n hi ha => by
      rw [hline]
      exact leaves_store_dirty hi h haddr hx hd hh ha
    exact ⟨hstores _ 1 (exec_sb ..), hstores _ 2 (exec_sh ..), hstores _ 4 (exec_sw ..), hstores _ 8 (exec_sd ..)⟩

/-- Settles O24: the address is checked before anything else is done, and then its region. -/
theorem addressTraps : Obligations.AddressTraps := by
  refine ⟨?refused, ?narrow⟩
  case refused =>
    intro s c rd rs1 imm h he a load store
    have hload : ∀ (i : Instr) n signed, exec i s = loadOp c rd rs1 imm n signed s → load i n := fun i n _ hi =>
      ⟨traps_load_misaligned hi h rfl he, traps_load_nothing hi h rfl he⟩
    have hstore : ∀ (i : Instr) n, exec i s = storeOp c rd rs1 imm n s → store i n := fun i n hi =>
      ⟨traps_store_misaligned hi h rfl he, traps_store_nothing hi h rfl he⟩
    exact ⟨hload _ 1 _ (exec_lb ..), hload _ 1 _ (exec_lbu ..), hload _ 2 _ (exec_lh ..), hload _ 2 _ (exec_lhu ..),
      hload _ 4 _ (exec_lw ..), hload _ 4 _ (exec_lwu ..), hload _ 8 _ (exec_ld ..), hstore _ 1 (exec_sb ..),
      hstore _ 2 (exec_sh ..), hstore _ 4 (exec_sw ..), hstore _ 8 (exec_sd ..)⟩
  case narrow =>
    intro s c rs2 rs1 imm h he a hc hr
    exact ⟨traps_store_narrow (exec_sb ..) h rfl he hc hr (Nat.mod_one _),
      traps_store_narrow (exec_sh ..) h rfl he hc hr, traps_store_narrow (exec_sw ..) h rfl he hc hr,
      traps_store_narrow (exec_sd ..) h rfl he hc hr⟩

end Sys2Proof.Machine
end

section
/-!
SUPPORT. Interrupts, store errors, fences, cache maintenance of clean lines and the CSR instructions (06_crew_cores.md,
R213, R214, R229 to R232, R237, R239, R245).
-/
namespace Sys2Proof.Machine
open Sys2Proof

/-! ### The handler (R229, R230) -/

/-- The lowest pending interrupt is set, and none below it is. -/
theorem lowestBit_spec {v : Nat} (h0 : v ≠ 0) (h : v < 32) :
    bit v (lowestBit v) = true ∧ ∀ j < lowestBit v, bit v j = false := by
  unfold lowestBit
  cases hf : (List.range 5).find? fun k => bit v k with
  | none =>
    rw [List.find?_range_eq_none] at hf
    refine absurd (Nat.eq_of_testBit_eq fun j => ?_) h0
    rw [Nat.zero_testBit]
    by_cases hj : j < 5
    · rw [← bit_eq_testBit]
      simpa using hf j hj
    · exact Nat.testBit_lt_two_pow (h.trans_le (Nat.pow_le_pow_right (n := 2) (by decide) (by omega : 5 ≤ j)))
  | some k =>
    rw [List.find?_range_eq_some] at hf
    obtain ⟨hbit, -, hbelow⟩ := hf
    exact ⟨hbit, fun j hj => by simpa using hbelow j hj⟩

theorem irqReady_lt (s : State) (x : Core) : irqReady s x < 32 :=
  Nat.and_lt_two_pow (n := 5) _ (Nat.mod_lt _ (by decide))

/-- A core that may take an interrupt enters its handler with the lowest pending one. -/
theorem interruptEntry_takes {s : State} {c : Nat} (hu : crewUsable s (c / 8) = true)
    (ha : awake s (some (c / 8)) = true) (hr : (core s c).run = .run ∨ (core s c).run = .taskWait)
    (ht : irqTakes s (core s c) = true) :
    interruptEntry c s = corePut c (enterHandler (core s c) (core s c).pc
      (BitVec.ofNat 64 (2 ^ 63 + lowestBit (irqReady s (core s c)))) (BitVec.ofNat 64 (draw s).1)) (draw s).2 :=
  if_pos ⟨hu, ha, hr, ht⟩

theorem interruptEntry_none {s : State} {c : Nat} (ht : irqTakes s (core s c) = false) : interruptEntry c s = s :=
  if_neg fun h => by simp [ht] at h

theorem irqTakes_iff {s : State} {x : Core} :
    irqTakes s x = true ↔ x.ie = true ∧ x.exc = false ∧ irqReady s x ≠ 0 := by
  simp [irqTakes, and_assoc]

/-- STORE_ERROR and its address recorded, a second one in bit 63 (R232). -/
def storeErrorCore (a : BitVec 48) (x : Core) : Core :=
  { x with storeError := true, irqAddr := if x.storeError then x.irqAddr ||| (1 <<< 63) else a.setWidth 64 }

theorem storeErrorOp_eq (c : Nat) (a : BitVec 48) (s : State) :
    storeErrorOp c a.toNat s = wakeWfi c (corePut c (storeErrorCore a (core s c)) s) := by
  have ha : BitVec.ofNat 64 (a.toNat % 2 ^ 48) = a.setWidth 64 := by rw [Nat.mod_eq_of_lt a.isLt, BitVec.ofNat_toNat]
  unfold storeErrorOp
  dsimp only
  split
  · next hx =>
    rw [storeErrorCore, if_pos hx]
    simp [hx]
  · next hx => rw [storeErrorCore, if_neg hx, ha]

/-- Where a crew's domain works, a wake of WFI leaves its core as it is or lets it go on at the next word. -/
theorem wakeWfi_becomes {s : State} {c : Nat} (h : awake s (some (c / 8)) = true) :
    CoreBecomes c (core s c) s (wakeWfi c s) ∨ CoreBecomes c (retire { core s c with run := .run }) s (wakeWfi c s) := by
  unfold wakeWfi
  rw [wakeRequestBase_awake h]
  dsimp only
  split
  · exact .inl (coreBecomes_refl c s)
  · split
    · exact .inr (coreBecomes_corePut _ _ _)
    · exact .inl (coreBecomes_refl c s)

/-- A store error changes its core alone, and of it the error's record and, where it ends a WFI, how the core goes on. -/
theorem storeErrorOp_becomes {s : State} {c : Nat} (a : BitVec 48) (h : awake s (some (c / 8)) = true) :
    ∃ y, CoreBecomes c y s (storeErrorOp c a.toNat s) ∧ y.storeError = true ∧
      y.irqAddr = (storeErrorCore a (core s c)).irqAddr ∧ y.s = (core s c).s := by
  have hput := coreBecomes_corePut c (storeErrorCore a (core s c)) s
  have hwake := wakeWfi_becomes (s := corePut c (storeErrorCore a (core s c)) s) h
  rw [core_corePut_same] at hwake
  rw [storeErrorOp_eq]
  rcases hwake with hw | hw
  · exact ⟨_, hput.trans hw, rfl, rfl, rfl⟩
  · exact ⟨_, hput.trans hw, rfl, rfl, rfl⟩

theorem exceptionEntryAndReturn : Claims.ExceptionEntryAndReturn := by
  intro s c h x entered y
  have hrun : x.run = .run := by
    have hruns := h.1
    simp only [runs, Bool.and_eq_true, beq_iff_eq] at hruns
    obtain ⟨⟨-, hrun⟩, -⟩ := hruns
    exact hrun
  have hentered : ∀ code, enterHandler x x.pc (BitVec.ofNat 64 code) (BitVec.ofNat 64 0) = entered code := fun code => by
    rw [enterHandler, ← hrun]
    rfl
  refine ⟨fun he => ⟨?_, ?_⟩, ?_⟩
  · rw [← hentered]
    exact traps_onCore (exec_ecall ..) h he rfl
  · rw [← hentered]
    exact traps_onCore (exec_ebreak ..) h he rfl
  · exact effect_onCore (exec_eret ..) h rfl fun _ => rfl

theorem interruptsOfACore : Claims.InterruptsOfACore := by
  intro s c addr hu ha x ready
  refine ⟨fun hr hie he h0 => ?taken, fun hnot => ?refused, fun hrun => ?storeError⟩
  case taken =>
    obtain ⟨hbit, hbelow⟩ := lowestBit_spec h0 (irqReady_lt s x)
    refine effect_done (exec_interruptEntry ..) ?_
    rw [interruptEntry_takes hu ha hr (irqTakes_iff.2 ⟨hie, he, h0⟩)]
    exact ⟨_, _, hbit, hbelow, core_corePut_same .., fun j hj => core_corePut_ne _ _ hj, rfl⟩
  case refused =>
    refine effect_done (exec_interruptEntry ..) (interruptEntry_none ?_)
    rw [Bool.eq_false_iff, ne_eq, irqTakes_iff]
    rintro ⟨hie, he, h0⟩
    rcases hnot with h | h | h
    · exact Bool.false_ne_true (h.symm.trans hie)
    · exact Bool.false_ne_true (he.symm.trans h)
    · exact h0 h
  case storeError =>
    obtain ⟨y, ⟨hcore, hothers, hrest⟩, herror, haddr, hregs⟩ := storeErrorOp_becomes addr ha
    refine effect_done (u := storeErrorOp c addr.toNat s) ?_ ?_
    · rw [exec_storeError, execStoreError, if_pos ⟨hu, hrun⟩]
    · rw [hcore]
      exact ⟨herror, haddr, hregs, hothers, hrest⟩

/-- Settles O25: exceptions and ERET change their own core alone, and so do interrupts and the errors of stores. -/
theorem exceptionsAndInterrupts : Obligations.ExceptionsAndInterrupts :=
  ⟨exceptionEntryAndReturn, interruptsOfACore⟩

/-! ### Fences and waits (R237) -/

section
variable {i : Instr} {s : State} {c : Fin 96}

theorem drained_iff {s : State} {c : Nat} : drained s c = true ↔ (core s c).writes = [] ∧ (core s c).regWait = none := by
  simp [drained]

@[simp] theorem begun_writes (x : Core) : (begun x).writes = x.writes := by unfold begun; split <;> rfl
@[simp] theorem begun_regWait (x : Core) : (begun x).regWait = x.regWait := by unfold begun; split <;> rfl

/-- An instruction whose access waits has not begun. -/
theorem leaves_onCoreR_waits {f : Bool → Core → State → Bool × State} (hi : exec i s = onCoreR c f s) (h : Ready s c)
    (hf : f (!(core s c).exc && eriPending (core s c)) (begun (core s c)) (beginInstr c s) = (false, beginInstr c s)) :
    Leaves i s c (core s c) := by
  obtain ⟨hruns, hfetch⟩ := h
  refine ⟨corePut c (core s c) (beginInstr c s), ?_, (coreBecomes_beginInstr c s).trans (coreBecomes_corePut _ _ _)⟩
  rw [hi, onCoreR, done]
  simp [hruns, hfetch, hf]

theorem leaves_fence (hi : exec i s = fenceOp c s) (h : Ready s c) (hd : drained s c = true) :
    Leaves i s c (retire (begun (core s c))) := by
  obtain ⟨hw, hr⟩ := drained_iff.1 hd
  have hd' : drained (beginInstr c s) c = true := drained_iff.2 (by simp [hw, hr])
  refine leaves_onCoreR hi h ?_ fun he => (begun_exc _).trans he
  simp [drainWrites_none, hw, hd']

theorem leaves_fence_waits (hi : exec i s = fenceOp c s) (h : Ready s c) (hw : (core s c).writes = [])
    (hr : (core s c).regWait ≠ none) : Leaves i s c (core s c) := by
  have hd : drained (beginInstr c s) c = false := by
    rw [Bool.eq_false_iff, ne_eq, drained_iff]
    simp [hr]
  refine leaves_onCoreR_waits hi h ?_
  simp [drainWrites_none, hw, hd]

end

@[simp] theorem irqReady_beginInstr (c : Nat) (s : State) (x : Core) : irqReady (beginInstr c s) x = irqReady s x := by
  have hnow : shortNow (beginInstr c s) = shortNow s := by rw [shortNow, beginInstr_coxCount]; rfl
  rw [irqReady, irqPend, hnow]
  rfl

theorem fencesAndWaits : Claims.FencesAndWaits := by
  intro s c rs1 h x
  have hx : (core s c).exc = false → x.exc = false := fun he => (begun_exc _).trans he
  refine ⟨fun hd => ⟨leaves_fence (exec_fence ..) h hd, leaves_fence (exec_fenceW ..) h hd⟩, fun hw hr => ?waits,
    effect_onCore (exec_iinval ..) h rfl hx,
    effect_onCore (f := fun x s => corePut c (retire x) s) (exec_iinvalAll ..) h rfl hx, ?wfi⟩
  case waits =>
    rw [begun_writes] at hw
    rw [begun_regWait] at hr
    exact ⟨leaves_fence_waits (exec_fence ..) h hw hr, leaves_fence_waits (exec_fenceW ..) h hw hr⟩
  case wfi =>
    refine effect_onCore (exec_wfi ..) h ?_ fun he => ?_
    · rw [irqReady_beginInstr]
    · split
      · exact hx he
      · exact hx he

/-! ### The lines of a range -/

theorem mem_insBy {α : Type} (key : α → Nat) (x y : α) (l : List α) : y ∈ insBy key x l ↔ y = x ∨ y ∈ l := by
  induction l with
  | nil => simp [insBy]
  | cons z r ih =>
    unfold insBy
    split
    · simp
    · simp only [List.mem_cons, ih]
      tauto

theorem mem_sortBy {α : Type} (key : α → Nat) (l : List α) (y : α) : y ∈ sortBy key l ↔ y ∈ l := by
  have go : ∀ (l acc : List α), y ∈ l.foldl (fun acc x => insBy key x acc) acc ↔ y ∈ l ∨ y ∈ acc := by
    intro l
    induction l with
    | nil => simp
    | cons z r ih =>
      intro acc
      simp only [List.foldl_cons, ih, mem_insBy, List.mem_cons]
      tauto
  simp [sortBy, go]

/-! ### Cache maintenance of clean lines (R239) -/

/-- A core with the lines of its data cache that `p` keeps. -/
def keepLines (p : Line → Bool) (x : Core) : Core := { x with dcache := x.dcache.filter p }

/-- No line of a core's data cache is dirty. -/
def CleanCache (x : Core) : Prop := ∀ l ∈ x.dcache, l.dirty = false

theorem keepLines_congr {p q : Line → Bool} {x : Core} (h : ∀ l ∈ x.dcache, p l = q l) :
    keepLines p x = keepLines q x := by
  rw [keepLines, keepLines, List.filter_congr h]

theorem keepLines_all {p : Line → Bool} {x : Core} (h : ∀ l ∈ x.dcache, p l = true) : keepLines p x = x := by
  rw [keepLines, List.filter_eq_self.2 h]

theorem keepLines_keepLines (p q : Line → Bool) (x : Core) :
    keepLines q (keepLines p x) = keepLines (fun l => p l && q l) x := by
  rw [keepLines, keepLines, keepLines, List.filter_filter]
  simp only [Bool.and_comm]

theorem cleanCache_keepLines {x : Core} (h : CleanCache x) (p : Line → Bool) : CleanCache (keepLines p x) :=
  fun l hl => h l (List.mem_of_mem_filter hl)

section
variable {s : State} {c : Nat}

/-- Cleaning a clean line writes nothing back. -/
theorem coreBecomes_cleanLine (h : CleanCache (core s c)) (a : Nat) :
    CoreBecomes c (core s c) s (cleanLine c a s) := by
  unfold cleanLine
  split
  · exact coreBecomes_refl c s
  · next l hl =>
    have hclean : l.dirty = false := h l (List.mem_of_find?_eq_some hl)
    have hmap : ((core s c).dcache.map fun k => if k.addr == a then { k with dirty := false } else k) =
        (core s c).dcache := by
      refine (List.map_congr_left fun k hk => ?_).trans (List.map_id _)
      split
      · rw [← h k hk]
        rfl
      · rfl
    simp only [writeBack, hclean, Bool.not_false, if_true, Bool.false_eq_true, and_false, if_false, setLines, hmap]
    exact coreBecomes_corePut _ _ _

theorem coreBecomes_invalLine (a : Nat) (s : State) :
    CoreBecomes c (keepLines (·.addr != a) (core s c)) s (invalLine c a s) := coreBecomes_corePut _ _ _

theorem coreBecomes_flushLine (h : CleanCache (core s c)) (a : Nat) :
    CoreBecomes c (keepLines (·.addr != a) (core s c)) s (flushLine c a s) := by
  have hclean := coreBecomes_cleanLine h a
  have hinval := coreBecomes_invalLine (c := c) a (cleanLine c a s)
  rw [hclean.1] at hinval
  exact hclean.trans hinval

/-- A maintenance operation on one line after another keeps the lines that each of them keeps. -/
theorem coreBecomes_foldl {g : Nat → State → State} {p : Nat → Line → Bool}
    (hg : ∀ a t, CleanCache (core t c) → CoreBecomes c (keepLines (p a) (core t c)) t (g a t)) (as : List Nat) (s : State)
    (h : CleanCache (core s c)) :
    CoreBecomes c (keepLines (fun l => as.all fun a => p a l) (core s c)) s (as.foldl (fun s a => g a s) s) := by
  induction as generalizing s with
  | nil =>
    rw [keepLines_all (p := fun l => [].all fun a => p a l) fun _ _ => rfl]
    exact coreBecomes_refl c s
  | cons a as ih =>
    have hone := hg a s h
    have hrest := ih (g a s) (by rw [hone.1]; exact cleanCache_keepLines h _)
    rw [hone.1, keepLines_keepLines] at hrest
    exact hone.trans hrest

/-- The lines of a range that the cache holds. -/
theorem mem_linesIn {a n k : Nat} :
    k ∈ linesIn s c a n ↔ (∃ l ∈ (core s c).dcache, l.addr = k) ∧ a < k + 64 ∧ k < a + n := by
  simp [linesIn, mem_sortBy]

/-- The lines of a range, as the maintenance instructions name them. -/
theorem mem_linesOf {rs1 rs2 : Fin 32} {x : Core} {l : Line} (hl : l ∈ (core s c).dcache) :
    l.addr ∈ linesOf c rs1 rs2 x s ↔ (getS x rs1).toNat < l.addr + 64 ∧
      l.addr < (getS x rs1).toNat + (getS x rs2).toNat ∧ getS x rs2 ≠ 0 := by
  unfold linesOf
  split
  · next h0 => exact ⟨fun h => absurd h List.not_mem_nil, fun ⟨_, _, hne⟩ => absurd h0 hne⟩
  · next h0 =>
    rw [mem_linesIn]
    exact ⟨fun ⟨_, hlo, hhi⟩ => ⟨hlo, hhi, h0⟩, fun ⟨hlo, hhi, _⟩ => ⟨⟨l, hl, rfl⟩, hlo, hhi⟩⟩

theorem all_ne_eq (as : List Nat) (k : Nat) : (as.all fun a => k != a) = !decide (k ∈ as) := by
  rw [Bool.eq_iff_iff]
  simp only [List.all_eq_true, bne_iff_ne, Bool.not_eq_true', decide_eq_false_iff_not]
  exact ⟨fun h hk => h k hk rfl, fun h a ha e => h (e ▸ ha)⟩

end

/-! ### The maintenance instructions -/

section
variable {i : Instr} {s : State} {c : Fin 96} {lines : Core → State → List Nat} {g : Nat → State → State}

/-- An instruction that works on its core by some operation and then goes on at the next word. -/
theorem leaves_retire {f : Core → State → State} {y : Core}
    (hi : exec i s = onCore c (fun x s => corePut c (retire (core (f x s) c)) (f x s)) s) (h : Ready s c)
    (hf : CoreBecomes c y (beginInstr c s) (f (begun (core s c)) (beginInstr c s)))
    (he : (core s c).exc = false → y.exc = false) : Leaves i s c (retire y) := by
  have hcore := hf.1
  exact leaves_of_becomes (f := fun _ x s => (true, corePut c (retire (core (f x s) c)) (f x s))) hi h rfl
    (hcore ▸ hf.trans (coreBecomes_corePut _ _ _)) he

/-- A maintenance instruction on a clean cache keeps the lines that its operation keeps at each address it names. -/
theorem leaves_lineOp {p : Nat → Line → Bool} {q : Line → Bool} (hi : exec i s = lineOp c lines g s) (h : Ready s c)
    (hclean : CleanCache (core s c))
    (hg : ∀ a t, CleanCache (core t c) → CoreBecomes c (keepLines (p a) (core t c)) t (g a t))
    (hq : ∀ l ∈ (core s c).dcache, ((lines (begun (core s c)) (beginInstr c s)).all fun a => p a l) = q l) :
    Leaves i s c (retire (keepLines q (begun (core s c)))) := by
  have hb : CleanCache (core (beginInstr c s) c) := by rwa [core_beginInstr, CleanCache, begun_dcache]
  have hfold := coreBecomes_foldl hg (lines (begun (core s c)) (beginInstr c s)) (beginInstr c s) hb
  rw [core_beginInstr, keepLines_congr (q := q) (by rwa [begun_dcache])] at hfold
  exact leaves_retire hi h hfold (begun_exc _).trans

/-- Cleaning keeps every line. -/
theorem leaves_clean (hi : exec i s = lineOp c lines (fun a s => cleanLine c a s) s) (h : Ready s c)
    (hclean : CleanCache (core s c)) : Leaves i s c (retire (begun (core s c))) := by
  have hx := leaves_lineOp (p := fun _ _ => true) (q := fun _ => true) hi h hclean
    (fun a t ht => by rw [keepLines_all fun _ _ => rfl]; exact coreBecomes_cleanLine ht a)
    fun _ _ => List.all_eq_true.2 fun _ _ => rfl
  rwa [keepLines_all fun _ _ => rfl] at hx

/-- Invalidating or flushing drops the lines named. -/
theorem leaves_drop {q : Line → Bool}
    (hi : exec i s = lineOp c lines (fun a s => invalLine c a s) s ∨ exec i s = lineOp c lines (fun a s => flushLine c a s) s)
    (h : Ready s c) (hclean : CleanCache (core s c))
    (hq : ∀ l ∈ (core s c).dcache, (!decide (l.addr ∈ lines (begun (core s c)) (beginInstr c s))) = q l) :
    Leaves i s c (retire (keepLines q (begun (core s c)))) := by
  have hq' : ∀ l ∈ (core s c).dcache, ((lines (begun (core s c)) (beginInstr c s)).all fun a => l.addr != a) = q l :=
    fun l hl => (all_ne_eq _ _).trans (hq l hl)
  rcases hi with hi | hi
  · exact leaves_lineOp hi h hclean (fun a t _ => coreBecomes_invalLine a t) hq'
  · exact leaves_lineOp hi h hclean (fun a t ht => coreBecomes_flushLine ht a) hq'

end

/-- The addresses of all lines of a core's data cache. -/
def allLines (c : Nat) (_ : Core) (s : State) : List Nat := sortBy id ((core s c).dcache.map (·.addr))

theorem execCcleanAll_eq (c : Fin 96) (s : State) :
    execCcleanAll c s = lineOp c (allLines c) (fun a s => cleanLine c a s) s := by
  unfold execCcleanAll lineOp cleanAll allLines
  rfl

theorem execCflushAll_eq (c : Fin 96) (s : State) :
    execCflushAll c s = lineOp c (allLines c) (fun a s => flushLine c a s) s := by
  unfold execCflushAll lineOp flushAll allLines
  rfl

theorem cacheMaintenanceOfCleanLines : Claims.CacheMaintenanceOfCleanLines := by
  intro s c rs1 rs2 h hclean x a keeps off out
  have hoff : ∀ l ∈ (core s c).dcache, (!decide (l.addr ∈ lineOf rs1 x)) = off l := fun l _ => by
    simp only [lineOf, List.mem_singleton]
    rfl
  have hout : ∀ l ∈ (core s c).dcache, (!decide (l.addr ∈ linesOf c rs1 rs2 x (beginInstr c s))) = out l := fun l hl => by
    simp only [mem_linesOf (show l ∈ (core (beginInstr c s) c).dcache by rwa [core_beginInstr, begun_dcache])]
    simp only [out, a, Bool.decide_and, Bool.and_assoc]
    simp [bne, beq_eq_decide]
  have hnone : ∀ l ∈ (core s c).dcache,
      (!decide (l.addr ∈ allLines c x (beginInstr c s))) = false := fun l hl => by
    simp only [allLines, mem_sortBy, core_beginInstr, begun_dcache, List.mem_map_of_mem hl, decide_true, Bool.not_true]
  refine ⟨?_, ?_, ?_, ?_, ?_, ?_, ?_, ?_⟩
  · exact leaves_clean (lines := fun x _ => lineOf rs1 x) (exec_cclean ..) h hclean
  · exact leaves_clean (lines := linesOf c rs1 rs2) (exec_ccleanR ..) h hclean
  · exact leaves_clean ((exec_ccleanAll ..).trans (execCcleanAll_eq c s)) h hclean
  · exact leaves_drop (lines := fun x _ => lineOf rs1 x) (.inl (exec_cinval ..)) h hclean hoff
  · exact leaves_drop (lines := fun x _ => lineOf rs1 x) (.inr (exec_cflush ..)) h hclean hoff
  · exact leaves_drop (lines := linesOf c rs1 rs2) (.inl (exec_cinvalR ..)) h hclean hout
  · exact leaves_drop (lines := linesOf c rs1 rs2) (.inr (exec_cflushR ..)) h hclean hout
  · exact leaves_drop (.inr ((exec_cflushAll ..).trans (execCflushAll_eq c s))) h hclean hnone

/-! ### The CSR instructions (R214) -/

@[simp] theorem csrGet_beginInstr (s : State) (c n : Nat) (x : Core) : csrGet (beginInstr c s) c x n = csrGet s c x n := by
  have hcores : ∃ z, beginInstr c s = { s with cores := z } := by
    unfold beginInstr
    dsimp only
    split <;> exact ⟨_, rfl⟩
  obtain ⟨z, hz⟩ := hcores
  rw [hz]
  rfl

@[simp] theorem exc_csrPut (n : Nat) (v : Word) (x : Core) : (csrPut n v x).exc = x.exc := by
  simp only [csrPut, apply_ite Core.exc, ite_self]

section
variable {i : Instr} {s : State} {c : Fin 96} {rd rs1 : Fin 32} {csr : BitVec 12} {f : Word → Word → Word} {old : Word}

theorem leaves_csrOp (hi : exec i s = csrOp c rd rs1 csr f s) (h : Ready s c)
    (hold : csrGet s c (begun (core s c)) csr.toNat = some old)
    (hro : csrRoWritten csr.toNat old (f old (getS (begun (core s c)) rs1)) = false) :
    Leaves i s c (retire (setS (csrPut csr.toNat (f old (getS (begun (core s c)) rs1)) (begun (core s c))) rd old)) := by
  refine effect_onCore hi h ?_ fun he => ?_
  · simp only [csrGet_beginInstr, hold, hro, Bool.false_eq_true, if_false]
  · rw [exc_retire, exc_setS, exc_csrPut, begun_exc, he]

theorem traps_csrOp (hi : exec i s = csrOp c rd rs1 csr f s) (h : Ready s c) (he : (core s c).exc = false)
    (hbad : csrGet s c (begun (core s c)) csr.toNat = none ∨ ∃ old, csrGet s c (begun (core s c)) csr.toNat = some old ∧
      csrRoWritten csr.toNat old (f old (getS (begun (core s c)) rs1)) = true) : Traps i s c 0x01 0 := by
  refine traps_onCore hi h he ?_
  rcases hbad with hnone | ⟨old, hold, hro⟩
  · simp only [csrGet_beginInstr, hnone]
  · simp only [csrGet_beginInstr, hold, hro, if_true]

end

theorem csrInstructions : Claims.CsrInstructions := by
  intro s c rd rs1 csr h x n writes
  refine ⟨fun old hold => ?read, fun he hnone => ?unlisted, ?csrw, ?csrs, ?csrc⟩
  case read =>
    have hold' := (csrGet_beginInstr s c n x).trans hold
    exact writes_onCore (exec_csrr ..) h (by simp only [hold', x, n])
  case unlisted =>
    have hnone' := (csrGet_beginInstr s c n x).trans hnone
    exact traps_onCore (exec_csrr ..) h he (by simp only [hnone', x, n])
  case csrw =>
    exact ⟨fun old => leaves_csrOp (f := fun _ v => v) (exec_csrw ..) h, traps_csrOp (f := fun _ v => v) (exec_csrw ..) h⟩
  case csrs =>
    exact ⟨fun old => leaves_csrOp (f := fun old v => old ||| v) (exec_csrs ..) h,
      traps_csrOp (f := fun old v => old ||| v) (exec_csrs ..) h⟩
  case csrc =>
    exact ⟨fun old => leaves_csrOp (f := fun old v => old &&& ~~~v) (exec_csrc ..) h,
      traps_csrOp (f := fun old v => old &&& ~~~v) (exec_csrc ..) h⟩

/-- Settles O26: the fences and waits, the maintenance of a clean cache, and the CSR instructions. -/
theorem fencesCachesAndCsrs : Obligations.FencesCachesAndCsrs :=
  ⟨fencesAndWaits, cacheMaintenanceOfCleanLines, csrInstructions⟩

end Sys2Proof.Machine
end

section
/-!
SUPPORT. A core reset written to a crew whose domain is in FAULT (06_crew_cores.md, R261; 18_power.md, R615).
-/
namespace Sys2Proof.Machine
open Sys2Proof

/-- Core 3 of crew 11 runs at address 4 and caches nothing. The crew's domain is in RUN and in no transition, with FAULT
set; the host has disabled the event queue. -/
def faultyCrew : State :=
  { cores := [(91, { run := .run, pc := 4 })]
    power := { domains := [(11, { fault := true })] }
    spool := { queues := [(0, { en := false })] } }

/-- The crew is usable and awake, and the core has nothing to write back and no task. -/
theorem faultyCrew_works :
    crewUsable faultyCrew (91 / 8) = true ∧ awake faultyCrew (some (91 / 8)) = true ∧ (core faultyCrew 91).dcache = [] ∧
    (core faultyCrew 91).writes = [] ∧ spFind faultyCrew.shuttle.staged 91 = none ∧
    spFind faultyCrew.shuttle.running 91 = none ∧ (core faultyCrew 91).run ≠ .reset := by
  decide +kernel

/-- Nothing of it waits to be delivered. -/
theorem faultyCrew_quiet : Quiet faultyCrew := ⟨rfl, rfl, rfl⟩

/-- The write of CREW_CTRL is answered with a bus error (R615), and the core goes on where it is. -/
theorem coreReset_faultyCrew :
    (core (settle 4096 (registerWrite hostInit (uCREW + 91 / 8) crewCtl 0x000 (2 ^ (8 + 91 % 8)) faultyCrew)) 91).pc = 4 := by
  decide +kernel

theorem bootVec_faultyCrew : bootVec faultyCrew (91 / 8) = 0 := by decide +kernel

/-- Refutes O28 in its clause on CORE_RESET, which is stated of every usable crew whose domain is in RUN: where the domain
also has FAULT set (the hypothesis that the clauses on the crew control's commands make), the write of CREW_CTRL does not
reach the crew, and the core is not restarted. -/
theorem not_coreResetsAndCrewControl : ¬ Obligations.CoreResetsAndCrewControl := by
  unfold Obligations.CoreResetsAndCrewControl
  rintro ⟨hresets, -⟩
  obtain ⟨husable, hawake, hcache, hwrites, hstaged, hrunning, hrun⟩ := faultyCrew_works
  obtain ⟨hreset, -, -⟩ := hresets faultyCrew 91 husable hawake hcache hwrites hstaged hrunning
  obtain ⟨u, hexec, ⟨hcore, -, -, hrest⟩, hevq⟩ := hreset hrun
  have hsettled : settle 4096 (registerWrite hostInit (uCREW + 91 / 8) crewCtl 0x000 (2 ^ (8 + 91 % 8)) faultyCrew) =
      settle 4096 u := Host.Outcome.next.inj hexec
  obtain ⟨hevents, hnotices, heval⟩ := faultyCrew_quiet
  have hquiet : settle 4096 u = u := by
    refine settle_quiet 4096 (hevq.trans hevents) ?_ ?_
    · exact (congrArg State.notices hrest).trans hnotices
    · exact (congrArg (·.shuttle.evalDue) hrest).trans heval
  have hpc : (core u 91).pc = 4 := by rw [← hquiet, ← hsettled, coreReset_faultyCrew]
  rw [show core u 91 = _ from hcore] at hpc
  exact absurd (bootVec_faultyCrew.symm.trans hpc) (by decide)

end Sys2Proof.Machine
end

section
/-!
SUPPORT. The vector arithmetic: what VSHAPE allows, the widths of elements and their parts, and an instruction on elements
of its own width, of twice it, and from twice it (07_vector.md, R265 to R273).
-/
namespace Sys2Proof.Machine
open Sys2Proof

/-! ### The shape in force -/

section
variable (x : Core)

theorem ew_shapeOf : (shapeOf x).ew = ewOf (shapeOf x).et := rfl

theorem et_shapeOf_lt : (shapeOf x).et < 8 := Nat.mod_lt _ (by decide)

theorem grp_shapeOf : (shapeOf x).grp = 1 ∨ (shapeOf x).grp = 2 ∨ (shapeOf x).grp = 4 ∨ (shapeOf x).grp = 8 := by
  have hlt : bits x.vshape.toNat 7 6 < 4 := Nat.mod_lt _ (by decide)
  have hgrp : (shapeOf x).grp = 2 ^ bits x.vshape.toNat 7 6 := rfl
  rw [hgrp]
  interval_cases bits x.vshape.toNat 7 6 <;> decide

theorem grp_shapeOf_le : (shapeOf x).grp ≤ 8 := by
  rcases grp_shapeOf x with h | h | h | h <;> omega

end

theorem isIntT_of_lt {t : Nat} (h : t < 4) : isIntT t = true := decide_eq_true h

theorem isIntT_or_isCintT {t : Nat} (h : t < 6) : (isIntT t || isCintT t) = true := by
  interval_cases t <;> decide

theorem narrowable {t : Nat} (h : t < 6) (h0 : t ≠ 0) : ((isIntT t || isCintT t) && t != 0) = true := 
  Bool.and_eq_true_iff.2 ⟨isIntT_or_isCintT h, bne_iff_ne.2 h0⟩

/-! ### Parts of an element -/

section
variable {h : Shape} (hew : h.ew = ewOf h.et)

/-- A type of one part. -/
theorem partW_of_real (hc : isCplxT h.et = false) : partW h = h.ew := by rw [partW, hc]; rfl

include hew

/-- A type of two parts, I and Q. -/
theorem ew_of_cplx (hc : isCplxT h.et = true) : h.ew = partW h + partW h := by
  have ht : h.et = 4 ∨ h.et = 5 ∨ h.et = 7 := by simpa [isCplxT, or_assoc] using hc
  rw [partW, hc, hew]
  rcases ht with ht | ht | ht <;> rw [ht] <;> rfl

theorem partW_le_ew : partW h ≤ h.ew := by
  cases hc : isCplxT h.et
  · rw [partW_of_real hc]
  · have := ew_of_cplx hew hc
    omega

theorem ew_pos : 0 < h.ew := hew ▸ ewOf_pos h.et

end

theorem ofS_lt (w : Nat) (v : Int) : ofS w v < 2 ^ w := by
  have hpos : (0 : Int) < (2 ^ w : Nat) := by exact_mod_cast Nat.two_pow_pos w
  have hmod := Int.emod_lt_of_pos v hpos
  have hnonneg := Int.emod_nonneg v hpos.ne'
  unfold ofS
  omega

@[simp] theorem ofS_mod (w : Nat) (v : Int) : ofS w v % 2 ^ w = ofS w v := Nat.mod_eq_of_lt (ofS_lt w v)

theorem toS_mod (w v : Nat) : toS w (v % 2 ^ w) = toS w v := by rw [toS, toS, Nat.mod_mod]

/-- The second operand fits an element, but for the immediate of a shift. -/
theorem secondOp_lt {h : Shape} (hew : h.ew = ewOf h.et) (x : Core) (b : VOperand) (k : Nat) :
    secondOp x h b false k < 2 ^ h.ew := by
  cases b with
  | vv r => exact elemAt_lt _ _ _
  | vs r => exact Nat.mod_lt _ (Nat.two_pow_pos _)
  | vi imm => exact (ofS_lt _ _).trans_le (Nat.pow_le_pow_right (by decide) (partW_le_ew hew))

/-- Two parts side by side fill an element of twice the width. -/
theorem join_lt {w i q : Nat} (hi : i < 2 ^ w) (hq : q < 2 ^ w) : i + 2 ^ w * q < 2 ^ (w + w) := by
  have hq' : 2 ^ w * (q + 1) ≤ 2 ^ w * 2 ^ w := Nat.mul_le_mul_left _ hq
  rw [pow_add]
  rw [Nat.mul_succ] at hq'
  omega

section
variable {h : Shape} {v w : Nat} {op : Nat → Nat → Nat × Nat} {a b : Nat}

theorem byParts_real (hc : isCplxT h.et = false) : byParts h v w op a b = op a b := by
  rw [byParts, hc]
  rfl

theorem byParts_cplx (hc : isCplxT h.et = true) : byParts h v w op a b =
    ((op (a % 2 ^ v) (b % 2 ^ v)).1 % 2 ^ w + 2 ^ w * ((op (a / 2 ^ v % 2 ^ v) (b / 2 ^ v % 2 ^ v)).1 % 2 ^ w),
      Nat.lor (op (a % 2 ^ v) (b % 2 ^ v)).2 (op (a / 2 ^ v % 2 ^ v) (b / 2 ^ v % 2 ^ v)).2) := by
  rw [byParts, hc, Nat.mul_comm]
  rfl

end

theorem isCplxT_of_int {t : Nat} (h : t < 6) : isCplxT t = decide (t = 4 ∨ t = 5) := by
  interval_cases t <;> rfl

/-! ### The conditions that gather -/

theorem gathered_zero (h : Shape) (act : Nat → Bool) : gathered h act (fun _ => 0) = 0 := by
  unfold gathered
  induction (List.range (min h.count h.vlmax)).filter act with
  | nil => rfl
  | cons k l ih => exact (congrArg (List.foldl _ · l) (Nat.or_zero 0)).trans ih

/-! ### An arithmetic instruction by what it makes of an element -/

/-- An operation's answer as an element of width `w` takes it, with its conditions. -/
def trim (w : Nat) (y : Nat × Nat) : Nat × Nat := (y.1 % 2 ^ w, y.2)

theorem trim_of_lt {w : Nat} {y : Nat × Nat} (hy : y.1 < 2 ^ w) : trim w y = y :=
  congrArg (·, y.2) (Nat.mod_eq_of_lt hy)

theorem wide_le {b : Bool} {n : Nat} (h : n ≤ 8) (hb : b = true → n ≤ 4) : wide b n ≤ 8 := by
  cases b with
  | false => exact h
  | true => exact Nat.mul_le_mul_left 2 (hb rfl)

/-- An arithmetic instruction whose type, groups and registers are allowed: it writes the elements `e` and sets the
conditions `fl` that its operation makes of the sources. -/
theorem writesGroup_op {i : Instr} {s : State} {c : Fin 96} {f : VArith} {types : Nat → Bool} {kind : VKind} {shift : Bool}
    {op : Shape → Nat → Nat → Nat → Nat × Nat} {x : Core} {h : Shape} {e fl : Nat → Nat} {g : Nat}
    (hi : exec i s = vArith c f types kind shift op s) (hr : Ready s c) (hx : begun (core s c) = x) (hh : shapeOf x = h)
    (ht : types h.et = true) (hg : kind ≠ .same → h.grp ≤ 4) (hd : f.vd.val % wide (kind == .widen) h.grp = 0)
    (ha : f.vs1.val % wide (kind == .narrow) h.grp = 0) (hb : secondOk f.b h.grp = true)
    (ho : kind = .widen → overlaps f.vs1 h.grp f.vd (2 * h.grp) = false ∧ secondOver f.b h.grp f.vd (2 * h.grp) = false)
    (hop : ∀ k, trim (wide (kind == .widen) h.ew)
      (op h (elemAt (getGroup x f.vd (wide (kind == .widen) h.grp)) (wide (kind == .widen) h.ew) k)
        (elemAt (getGroup x f.vs1 (wide (kind == .narrow) h.grp)) (wide (kind == .narrow) h.ew) k)
        (secondOp x h f.b shift k)) = (e k, fl k))
    (hfl : gathered h (activeAt x f.men f.msel) fl = g) :
    WritesGroup i s c f.vd (wide (kind == .widen) h.grp) (wide (kind == .widen) h.ew)
      (loopElem h (activeAt x f.men f.msel)
        (elemAt (getGroup x f.vd (wide (kind == .widen) h.grp)) (wide (kind == .widen) h.ew)) e) g := by
  subst hx hfl
  rw [shapeOf_begun] at hh
  subst hh
  have hgrp := grp_shapeOf_le (core s c)
  have hdest : wide (kind == .widen) (shapeOf (core s c)).grp ≤ 8 :=
    wide_le hgrp fun hk => hg fun hs => by rw [hs] at hk; cases hk
  have hsrc : wide (kind == .narrow) (shapeOf (core s c)).grp ≤ 8 :=
    wide_le hgrp fun hk => hg fun hs => by rw [hs] at hk; cases hk
  obtain rfl : e = _ := funext fun k => (congrArg Prod.fst (hop k)).symm
  obtain rfl : fl = _ := funext fun k => (congrArg Prod.snd (hop k)).symm
  exact writesGroup_vArith hi hr ht hdest hsrc hd ha hb ho

end Sys2Proof.Machine
end

section
/-!
SUPPORT. The rounding of discarded bits, and the vector instructions that wrap (07_vector.md, R265 to R272).
-/
namespace Sys2Proof.Machine
open Sys2Proof

/-! ### Rounding (R271) -/

section
variable {rm : RMode} {v : Int} {k : Nat}

theorem fdiv_two_pow (v : Int) (k : Nat) : Int.fdiv v (2 ^ k) = v / 2 ^ k := Int.fdiv_eq_ediv_of_nonneg v (by positivity)

/-- Whether a division by 2^k is inexact, as the rounding decides it. -/
theorem floor_mul_ne_iff : Int.fdiv v (2 ^ k) * 2 ^ k ≠ v ↔ v % 2 ^ k ≠ 0 := by
  have h := Int.ediv_mul_add_emod v (2 ^ k)
  rw [fdiv_two_pow]
  omega

theorem rndShift_exact (rm : RMode) (h : v % 2 ^ k = 0) : rndShift rm v k = v / 2 ^ k := by
  have hexact : decide (Int.fdiv v (2 ^ k) * 2 ^ k ≠ v) = false := decide_eq_false fun hne => floor_mul_ne_iff.1 hne h
  unfold rndShift
  dsimp only
  rw [hexact, fdiv_two_pow]
  rfl

/-- An inexact quotient is rounded to the floor or the integer above it. -/
theorem rndShift_inexact (rm : RMode) (h : v % 2 ^ k ≠ 0) : rndShift rm v k =
    match rm with
    | .rdn => v / 2 ^ k
    | .rtz => if v < 0 then v / 2 ^ k + 1 else v / 2 ^ k
    | .rup => v / 2 ^ k + 1
    | .rod => if v / 2 ^ k % 2 = 0 then v / 2 ^ k + 1 else v / 2 ^ k := by
  have hinexact : decide (Int.fdiv v (2 ^ k) * 2 ^ k ≠ v) = true := decide_eq_true (floor_mul_ne_iff.2 h)
  unfold rndShift
  dsimp only
  rw [hinexact, fdiv_two_pow]
  rfl

/-- The quotient rounded up, by the floor of the negated one. -/
theorem neg_floor_neg (v : Int) (k : Nat) :
    -Int.fdiv (-v) (2 ^ k) = if v % 2 ^ k = 0 then v / 2 ^ k else v / 2 ^ k + 1 := by
  have hpos : (0 : Int) < 2 ^ k := by positivity
  have hv := Int.mul_ediv_add_emod v (2 ^ k)
  have hlow := Int.emod_nonneg v hpos.ne'
  have hhigh := Int.emod_lt_of_pos v hpos
  rw [fdiv_two_pow]
  split
  · next hz => rw [Int.neg_ediv_of_dvd (Int.dvd_of_emod_eq_zero hz), neg_neg]
  · next hz =>
    have hq : -v / 2 ^ k = -(v / 2 ^ k) - 1 :=
      (Int.ediv_emod_unique hpos (r := 2 ^ k - v % 2 ^ k)).2 ⟨by linear_combination -hv, by omega, by omega⟩ |>.1
    omega

end

theorem roundingOfDiscardedBits : Claims.RoundingOfDiscardedBits := by
  intro v k
  refine ⟨?rdn, ?rtz, ?rup, fun hexact rm => ?exact, fun hinexact => ?odd⟩
  case rdn =>
    rw [fdiv_two_pow]
    by_cases hz : v % 2 ^ k = 0
    · exact rndShift_exact _ hz
    · exact rndShift_inexact _ hz
  case rtz =>
    have hsign : Int.sign (2 ^ k) = 1 := Int.sign_eq_one_of_pos (by positivity)
    rw [Int.tdiv_eq_ediv, hsign]
    by_cases hz : v % 2 ^ k = 0
    · rw [rndShift_exact _ hz, if_pos (.inr (Int.dvd_of_emod_eq_zero hz)), add_zero]
    · have hdvd : ¬ (2 : Int) ^ k ∣ v := fun hd => hz (Int.emod_eq_zero_of_dvd hd)
      rw [rndShift_inexact _ hz]
      by_cases hneg : v < 0
      · simp [hneg, hdvd]
      · simp [hneg, not_lt.1 hneg]
  case rup =>
    rw [neg_floor_neg]
    split
    · next hz => exact rndShift_exact _ hz
    · next hz => exact rndShift_inexact _ hz
  case exact => rw [rndShift_exact rm hexact, Int.ediv_mul_cancel (Int.dvd_of_emod_eq_zero hexact)]
  case odd =>
    rw [rndShift_inexact _ hinexact, fdiv_two_pow]
    dsimp only
    split <;> omega

/-! ### What the wrapping instructions make of an element -/

section
variable {h : Shape} {v w a b : Nat} {op : Nat → Nat → Nat}

/-- A wrapping operation on integers, part by part where they are complex. -/
theorem trim_byParts_wrap (hew : h.ew = ewOf h.et) (hint : h.et < 6) :
    trim h.ew (byParts h v (partW h) (fun p q => (op p q, 0)) a b) =
      (if h.et = 4 ∨ h.et = 5 then op (a % 2 ^ v) (b % 2 ^ v) % 2 ^ partW h +
          2 ^ partW h * (op (a / 2 ^ v % 2 ^ v) (b / 2 ^ v % 2 ^ v) % 2 ^ partW h)
        else op a b % 2 ^ partW h, 0) := by
  have hcplx := isCplxT_of_int hint
  by_cases ht : h.et = 4 ∨ h.et = 5
  · have hc : isCplxT h.et = true := by rw [hcplx]; exact decide_eq_true ht
    have hfits := join_lt (Nat.mod_lt (op (a % 2 ^ v) (b % 2 ^ v)) (Nat.two_pow_pos (partW h)))
      (Nat.mod_lt (op (a / 2 ^ v % 2 ^ v) (b / 2 ^ v % 2 ^ v)) (Nat.two_pow_pos (partW h)))
    rw [byParts_cplx hc, if_pos ht, ew_of_cplx hew hc, trim_of_lt hfits]
    exact congrArg _ (Nat.or_zero 0)
  · have hc : isCplxT h.et = false := by rw [hcplx]; exact decide_eq_false ht
    rw [byParts_real hc, if_neg ht, partW_of_real hc]
    rfl

end

theorem vectorWrappingResults : Claims.VectorWrappingResults := by
  intro s c f hr x h w old a a2 b n parts signed gives hd hb
  have hew : h.ew = ewOf h.et := ew_shapeOf x
  have hold : ∀ k, old k < 2 ^ h.ew := elemAt_lt _ _
  have ha : ∀ k, a k < 2 ^ h.ew := elemAt_lt _ _
  have hbk : ∀ k, b k < 2 ^ h.ew := secondOp_lt hew x f.b
  refine ⟨fun h1 => ?same, fun h1 hg hint h0 => ?narrow⟩
  case same =>
    have same : ∀ {i : Instr} {types shift op} {e : Nat → Nat}, exec i s = vArith c f types .same shift op s →
        types h.et = true → (∀ k, trim h.ew (op h (old k) (a k) (secondOp x h f.b shift k)) = (e k, 0)) → gives i e :=
      fun hi ht hop => writesGroup_op hi hr rfl rfl ht (absurd rfl) hd h1 hb nofun hop (gathered_zero _ _)
    have fits : ∀ {i : Instr} {types shift op} {e : Nat → Nat}, exec i s = vArith c f types .same shift op s →
        types h.et = true → (∀ k, op h (old k) (a k) (secondOp x h f.b shift k) = (e k, 0)) → (∀ k, e k < 2 ^ h.ew) →
        gives i e :=
      fun hi ht hop hlt => same hi ht fun k => by rw [hop k, trim_of_lt (hlt k)]
    have hcond : ∀ (p : Prop) [Decidable p] k, (if p then b k else a k) < 2 ^ h.ew := fun p _ k => by
      split
      · exact hbk k
      · exact ha k
    refine ⟨fun hint => same (exec_vadd ..) (isIntT_or_isCintT hint) fun k => trim_byParts_wrap hew hint,
      fun hint => same (exec_vsub ..) (isIntT_or_isCintT hint) fun k => trim_byParts_wrap hew hint,
      fits (exec_vand ..) rfl (fun k => rfl) fun k => Nat.and_lt_two_pow _ (hbk k),
      fits (exec_vor ..) rfl (fun k => rfl) fun k => Nat.or_lt_two_pow (ha k) (hbk k),
      fits (exec_vxor ..) rfl (fun k => rfl) fun k => Nat.xor_lt_two_pow (ha k) (hbk k),
      fun ht => fits (exec_vmin ..) (isIntT_of_lt ht) (fun k => rfl) fun k => hcond _ k,
      fun ht => fits (exec_vmax ..) (isIntT_of_lt ht) (fun k => rfl) fun k => hcond _ k,
      fun ht => fits (exec_vminu ..) (isIntT_of_lt ht) (fun k => ?minu) fun k => (min_le_left _ _).trans_lt (ha k),
      fun ht => fits (exec_vmaxu ..) (isIntT_of_lt ht) (fun k => ?maxu) fun k => max_lt (ha k) (hbk k),
      fun ht => same (exec_vsll ..) (isIntT_of_lt ht) fun k => rfl,
      fun ht => fits (exec_vsrl ..) (isIntT_of_lt ht) (fun k => rfl) fun k => (Nat.div_le_self _ _).trans_lt (ha k),
      fun ht => fits (exec_vsra ..) (isIntT_of_lt ht) (fun k => rfl) fun k => ofS_lt _ _,
      fun ht => same (exec_vmul ..) (isIntT_of_lt ht) fun k => rfl⟩
    · have hmin : min (a k) (b k) = if b k < a k then b k else a k := by
        split <;> omega
      rw [hmin]
    · have hmax : max (a k) (b k) = if a k < b k then b k else a k := by
        split <;> omega
      rw [hmax]
  case narrow =>
    refine writesGroup_op (exec_vnsra ..) hr rfl rfl (narrowable hint h0) (fun _ => hg) hd h1 hb nofun
      (fun k => (trim_byParts_wrap hew hint).trans ?_) (gathered_zero _ _)
    simp only [ofS_mod]
    rfl

/-- Settles O29: the rounding by its exact and inexact quotients, and each instruction by what it makes of one element. -/
theorem wrappingAndRounding : Obligations.WrappingAndRounding :=
  ⟨roundingOfDiscardedBits, vectorWrappingResults⟩

end Sys2Proof.Machine
end

section
/-!
SUPPORT. The vector instructions that saturate or widen (07_vector.md, R272, R273).
-/
namespace Sys2Proof.Machine
open Sys2Proof

/-! ### The limits of a signed part -/

/-- The nearest value of `w` bits of two's complement (R272). -/
def limited (w : Nat) (v : Int) : Int := max (-(2 ^ (w - 1))) (min (2 ^ (w - 1) - 1) v)

theorem satS_eq_limited (w : Nat) (v : Int) : satS w v = limited w v := by
  have hpos : (0 : Int) < 2 ^ (w - 1) := by positivity
  unfold satS limited
  push_cast
  split
  · omega
  · split <;> omega

theorem limited_eq_self_iff {w : Nat} {v : Int} : limited w v = v ↔ -(2 ^ (w - 1)) ≤ v ∧ v ≤ 2 ^ (w - 1) - 1 := by
  have hpos : (0 : Int) < 2 ^ (w - 1) := by positivity
  unfold limited
  omega

theorem satFlag_eq (w : Nat) (v : Int) : satFlag w v = (ofS w (limited w v), if limited w v = v then 0 else 0x40) := by
  rw [satFlag, satS_eq_limited]

theorem accFlag_eq (w : Nat) (v : Int) :
    accFlag w v = (ofS w v, if -(2 ^ (w - 1)) ≤ v ∧ v ≤ 2 ^ (w - 1) - 1 then 0 else 0x20) := by
  rw [accFlag, satS_eq_limited]
  simp only [limited_eq_self_iff]

/-- A condition that neither of two parts may set. -/
theorem lor_ite (P Q : Prop) [Decidable P] [Decidable Q] (n : Nat) :
    Nat.lor (if P then 0 else n) (if Q then 0 else n) = if P ∧ Q then 0 else n := by
  change ((if P then 0 else n) ||| if Q then 0 else n) = _
  by_cases hp : P <;> by_cases hq : Q <;> simp [hp, hq]

/-! ### Elements of one or two saturated parts -/

/-- The element of saturated parts, one or two, and SAT when a part clips. -/
def satElem (w : Nat) (cplx : Prop) [Decidable cplx] (lo hi : Int) : Nat × Nat :=
  (if cplx then ofS w (limited w lo) + 2 ^ w * ofS w (limited w hi) else ofS w (limited w lo),
    if limited w lo = lo ∧ (cplx → limited w hi = hi) then 0 else 0x40)

section
variable {w : Nat} {cplx : Prop} [Decidable cplx] {lo hi : Int}

theorem satElem_real (hc : ¬ cplx) : satElem w cplx lo hi = satFlag w lo := by
  simp only [satElem, satFlag_eq, hc, if_false, false_implies, and_true]

theorem satElem_cplx (hc : cplx) : satElem w cplx lo hi =
    ((satFlag w lo).1 + 2 ^ w * (satFlag w hi).1, Nat.lor (satFlag w lo).2 (satFlag w hi).2) := by
  simp only [satElem, satFlag_eq, hc, if_true, true_implies, lor_ite]

end

section
variable {h : Shape} {v a b : Nat} {op : Nat → Nat → Int} {lo hi : Int}

/-- A saturating operation on integers, part by part where they are complex. -/
theorem trim_byParts_sat (hew : h.ew = ewOf h.et) (hint : h.et < 6) (hreal : op a b = lo)
    (hre : op (a % 2 ^ v) (b % 2 ^ v) = lo) (him : op (a / 2 ^ v % 2 ^ v) (b / 2 ^ v % 2 ^ v) = hi) :
    trim h.ew (byParts h v (partW h) (fun p q => satFlag (partW h) (op p q)) a b) =
      satElem (partW h) (h.et = 4 ∨ h.et = 5) lo hi := by
  have hcplx := isCplxT_of_int hint
  have hlt : ∀ z, (satFlag (partW h) z).1 < 2 ^ partW h := fun z => ofS_lt _ _
  by_cases ht : h.et = 4 ∨ h.et = 5
  · have hc : isCplxT h.et = true := by rw [hcplx]; exact decide_eq_true ht
    rw [byParts_cplx hc, satElem_cplx ht, hre, him, Nat.mod_eq_of_lt (hlt lo), Nat.mod_eq_of_lt (hlt hi),
      ew_of_cplx hew hc, trim_of_lt (join_lt (hlt lo) (hlt hi))]
  · have hc : isCplxT h.et = false := by rw [hcplx]; exact decide_eq_false ht
    rw [byParts_real hc, satElem_real ht, hreal, ← partW_of_real hc, trim_of_lt (hlt lo)]

end

theorem vectorSaturatingResults : Claims.VectorSaturatingResults := by
  intro s c f hr x h w act a a2 b n cplx lim gives re im hd hb
  have hew : h.ew = ewOf h.et := ew_shapeOf x
  have hre : ∀ v p, toS v (p % 2 ^ v) = re v p := toS_mod
  have him : ∀ v p, toS v (p / 2 ^ v % 2 ^ v) = im v p := fun v p => toS_mod v _
  refine ⟨fun h1 => ?same, fun h1 hg hint h0 => ?narrow⟩
  case same =>
    have same : ∀ {i : Instr} {types op} {lo hi : Nat → Int}, exec i s = vArith c f types .same false op s →
        types h.et = true →
        (∀ k, trim h.ew (op h (elemAt (getGroup x f.vd h.grp) h.ew k) (a k) (b k)) = satElem w cplx (lo k) (hi k)) →
        gives i lo hi :=
      fun hi ht hop => writesGroup_op hi hr rfl rfl ht (absurd rfl) hd h1 hb nofun hop rfl
    refine ⟨fun hint => ?adds, fun hint => ?subs, fun ht => ?mulq, fun ht => ?cmulq⟩
    case adds =>
      exact same (exec_vadds ..) (isIntT_or_isCintT hint) fun k =>
        trim_byParts_sat hew hint rfl (by rw [hre, hre]) (by rw [him, him])
    case subs =>
      exact same (exec_vsubs ..) (isIntT_or_isCintT hint) fun k =>
        trim_byParts_sat hew hint rfl (by rw [hre, hre]) (by rw [him, him])
    case mulq =>
      have hnot : ¬ cplx := by
        rintro (h4 | h5) <;> omega
      have hc : isCplxT h.et = false := by
        rcases ht with ht | ht <;> rw [ht] <;> rfl
      have htypes : (h.et == 1 || h.et == 2) = true := by simpa using ht
      refine same (exec_vmulq ..) htypes fun k => ?_
      rw [satElem_real hnot, trim_of_lt (ofS_lt _ _), ← partW_of_real hc]
    case cmulq =>
      have hw : w = 16 := by
        simp only [w, partW, hew, ht]
        rfl
      have hew32 : h.ew = 16 + 16 := by rw [hew, ht]; rfl
      refine same (exec_vcmulq ..) (beq_iff_eq.2 ht) fun k => ?_
      rw [satElem_cplx (.inl ht), hew32, hw]
      exact trim_of_lt (join_lt (ofS_lt _ _) (ofS_lt _ _))
  case narrow =>
    exact writesGroup_op (exec_vnsras ..) hr rfl rfl (narrowable hint h0) (fun _ => hg) hd h1 hb nofun
      (fun k =>
        trim_byParts_sat hew hint rfl (congrArg (rndShift h.rm · _) (hre _ _)) (congrArg (rndShift h.rm · _) (him _ _))) rfl

/-! ### Accumulation at twice the width -/

theorem trim_accFlag (w : Nat) (v : Int) : trim w (accFlag w v) = accFlag w v := trim_of_lt (ofS_lt _ _)

/-- A cint32 element of two exact sums, and AOV when one lies outside its range. -/
theorem trim_caccFlag (p q : Int) : trim 64 (caccFlag p q) = (ofS 32 p + 2 ^ 32 * ofS 32 q,
    if (-(2 ^ (32 - 1)) ≤ p ∧ p ≤ 2 ^ (32 - 1) - 1) ∧ -(2 ^ (32 - 1)) ≤ q ∧ q ≤ 2 ^ (32 - 1) - 1 then 0 else 0x20) := by
  rw [trim_of_lt (join_lt (w := 32) (ofS_lt _ _) (ofS_lt _ _)), caccFlag, accFlag_eq, accFlag_eq]
  refine congrArg _ ?_
  exact lor_ite _ _ _

theorem vectorWideningResults : Claims.VectorWideningResults := by
  intro s c f hr x h act dw old a b inside re im gives complex hg hd h1 hb ho hs
  have hew : h.ew = ewOf h.et := ew_shapeOf x
  have widen : ∀ {i : Instr} {types op} {e fl : Nat → Nat} {g : Nat}, exec i s = vArith c f types .widen false op s →
      types h.et = true → (∀ k, trim dw (op h (old k) (a k) (b k)) = (e k, fl k)) → gathered h act fl = g →
      WritesGroup i s c f.vd (2 * h.grp) dw (loopElem h act old e) g :=
    fun hi ht hop hfl => writesGroup_op hi hr rfl rfl ht (fun _ => hg) hd h1 hb (fun _ => ⟨ho, hs⟩) hop hfl
  refine ⟨fun ht => ?real, fun ht => ?cplx⟩
  case real =>
    have htypes : (isIntT h.et && h.et != 3) = true := by
      interval_cases h.et <;> rfl
    exact ⟨widen (exec_vmacw ..) htypes (fun k => (trim_accFlag _ _).trans (accFlag_eq _ _)) rfl,
      widen (exec_vmsuw ..) htypes (fun k => (trim_accFlag _ _).trans (accFlag_eq _ _)) rfl⟩
  case cplx =>
    have hdw : dw = 64 := by
      simp only [dw, hew, ht]
      rfl
    have hacc : ∀ p q, trim dw (caccFlag p q) = (ofS 32 p + 2 ^ 32 * ofS 32 q,
        if inside 32 p ∧ inside 32 q then 0 else 0x20) := fun p q => by
      rw [hdw]
      exact trim_caccFlag p q
    refine ⟨widen (exec_vcmulw ..) (beq_iff_eq.2 ht) (fun k => ?product) (gathered_zero _ _),
      widen (exec_vcmacw ..) (beq_iff_eq.2 ht) (fun k => hacc _ _) rfl,
      widen (exec_vcmacjw ..) (beq_iff_eq.2 ht) (fun k => ?conj) rfl⟩
    case product =>
      rw [hdw]
      exact trim_of_lt (join_lt (w := 32) (ofS_lt _ _) (ofS_lt _ _))
    case conj =>
      rw [hacc, cprod]
      simp only [if_true, mul_neg, sub_neg_eq_add, neg_add_eq_sub]
      rfl

/-- Settles O30: saturation and wide accumulation, each by what it makes of one element. -/
theorem saturatingAndWidening : Obligations.SaturatingAndWidening :=
  ⟨vectorSaturatingResults, vectorWideningResults⟩

end Sys2Proof.Machine
end

section
/-!
SUPPORT. The vector compare instructions, and the operands of binary32 that they and the arithmetic meet
(07_vector.md, R270, R274).
-/
namespace Sys2Proof.Machine
open Sys2Proof

/-! ### The value of a binary32 word -/

section
variable {w : Nat} (ftz : Bool)

theorem fpDecode_nan (hex : w / 2 ^ 23 % 256 = 255) (hfr : w % 2 ^ 23 ≠ 0) :
    fpDecode ftz w = .nan (!bit (bits w 22 0) 22) := by
  have hfrac : bits w 22 0 ≠ 0 := by simpa [bits] using hfr
  exact (if_pos hex).trans (if_neg hfrac)

theorem fpDecode_inf (hex : w / 2 ^ 23 % 256 = 255) (hfr : w % 2 ^ 23 = 0) : fpDecode ftz w = .inf (bit w 31) := by
  have hfrac : bits w 22 0 = 0 := by simpa [bits] using hfr
  exact (if_pos hex).trans (if_pos hfrac)

theorem fpDecode_normal (h0 : w / 2 ^ 23 % 256 ≠ 0) (h255 : w / 2 ^ 23 % 256 ≠ 255) :
    fpDecode ftz w = .fin (bit w 31) (2 ^ 23 + w % 2 ^ 23) ((w / 2 ^ 23 % 256 : Nat) - 150) := by
  have hfrac : bits w 22 0 = w % 2 ^ 23 := by simp [bits]
  have hdecode : fpDecode ftz w = .fin (bit w 31) (2 ^ 23 + bits w 22 0) ((w / 2 ^ 23 % 256 : Nat) - 150) :=
    (if_neg h255).trans (if_neg h0)
  rw [hdecode, hfrac]

/-- Only an exponent field of ones decodes as a NaN. -/
theorem fpIsNan_fpDecode (hex : w / 2 ^ 23 % 256 ≠ 255) : fpIsNan (fpDecode ftz w) = none := by
  have hdecode : fpDecode ftz w = if bits w 30 23 = 0 then .fin (bit w 31) (if ftz then 0 else bits w 22 0) (-149)
      else .fin (bit w 31) (2 ^ 23 + bits w 22 0) ((bits w 30 23 : Int) - 150) := if_neg hex
  rw [hdecode]
  split <;> rfl

end

section
variable {x : Fv} {y : Fv} {v w : Nat} {ftz g : Bool}

/-- Equality with a NaN is false. -/
theorem fpEq_nan (h : fpIsNan (fpDecode ftz v) = some g ∨ fpIsNan (fpDecode ftz w) = some g) :
    (fpEq ftz v w).1 = false := by
  unfold fpEq
  rcases h with h | h
  · simp only [h]
  · cases hv : fpIsNan (fpDecode ftz v) <;> simp only [h, hv]

/-- An order with a NaN is false. -/
theorem fpLt_nan (h : fpIsNan (fpDecode ftz v) = some g ∨ fpIsNan (fpDecode ftz w) = some g) :
    (fpLt ftz v w).1 = false := by
  unfold fpLt
  rcases h with h | h
  · simp only [h]
  · cases hv : fpIsNan (fpDecode ftz v) <;> simp only [h, hv]

end

/-! ### Bits of a mask under the element loop -/

theorem vlmax_shapeOf_le (x : Core) : (shapeOf x).vlmax ≤ 512 := by
  have hew : 8 ≤ (shapeOf x).ew := by
    rw [ew_shapeOf]
    unfold ewOf
    split_ifs <;> decide
  calc (shapeOf x).vlmax = (shapeOf x).grp * 512 / (shapeOf x).ew := vlmax_shapeOf x
    _ ≤ 8 * 512 / 8 := Nat.div_le_div (Nat.mul_le_mul_right _ (grp_shapeOf_le x)) hew (by decide)

theorem fromElems_lt (w : Nat) (es : List Nat) : fromElems w es < 2 ^ (w * es.length) := by
  induction es with
  | nil => exact Nat.one_pos
  | cons e es ih =>
    have he := Nat.mod_lt e (Nat.two_pow_pos w)
    have hcons : fromElems w (e :: es) = e % 2 ^ w + 2 ^ w * fromElems w es := rfl
    have hstep : 2 ^ w * (fromElems w es + 1) ≤ 2 ^ w * 2 ^ (w * es.length) := Nat.mul_le_mul_left _ ih
    rw [hcons, List.length_cons, Nat.mul_succ, Nat.add_comm (w * es.length), pow_add]
    rw [Nat.mul_succ] at hstep
    omega

/-- The element loop leaves what lies above its elements. -/
theorem elemLoop_above (h : Shape) (act : Nat → Bool) (w old : Nat) (op : Nat → Nat × Nat) :
    (elemLoop h act w old op).1 / 2 ^ (w * h.vlmax) = old / 2 ^ (w * h.vlmax) := by
  unfold elemLoop
  dsimp only
  rw [Nat.add_mul_div_right _ _ (Nat.two_pow_pos _), Nat.div_eq_of_lt, Nat.zero_add]
  refine (fromElems_lt w _).trans_eq ?_
  rw [List.length_map, List.length_map, List.length_range]

theorem elemAt_one (g k : Nat) : elemAt g 1 k = b2n (g.testBit k) := by
  rw [elemAt, Nat.one_mul, Nat.pow_one, Nat.testBit_eq_decide_div_mod_eq]
  rcases Nat.mod_two_eq_zero_or_one (g / 2 ^ k) with h | h <;> simp [h, b2n]

theorem b2n_eq_one (b : Bool) : decide (b2n b = 1) = b := by cases b <;> rfl

/-- A mask bit under the element loop. -/
theorem testBit_elemLoop (h : Shape) (act p : Nat → Bool) (fl : Nat → Nat) (m : BitVec 512) {k : Nat} (hk : k < h.vlmax) :
    (elemLoop h act 1 m.toNat fun i => (b2n (p i), fl i)).1.testBit k =
      if k < h.count then (if act k then p k else !h.maskZero && m.getLsbD k) else !h.tailZero && m.getLsbD k := by
  have hbit : ∀ g, g.testBit k = decide (elemAt g 1 k = 1) := fun g => by rw [elemAt_one, b2n_eq_one]
  have hnew : b2n (p k) % 2 ^ 1 = b2n (p k) := by cases p k <;> rfl
  rw [hbit, elemAt_elemLoop h act 1 m.toNat _ k hk, loopElem, BitVec.getLsbD, elemAt_one]
  split
  · split
    · rw [hnew, b2n_eq_one]
    · cases h.maskZero with
      | true => rfl
      | false => exact b2n_eq_one _
  · cases h.tailZero with
    | true => rfl
    | false => exact b2n_eq_one _

/-! ### A compare instruction as a whole -/

section
variable {i : Instr} {s : State} {c : Fin 96} {f : VArith} {types : Nat → Bool} {op : Shape → Nat → Nat → Bool × Nat}
  (hi : exec i s = vCompare c f types op s) (hr : Ready s c)
include hi hr

/-- A compare instruction whose type and registers are allowed. -/
theorem leaves_vCompare {x : Core} {h : Shape} {p : Nat → Bool} {fl : Nat → Nat} {g : Nat} (hx : begun (core s c) = x)
    (hh : shapeOf x = h) (hd : f.vd.val < 8) (ht : types h.et = true) (ha : f.vs1.val % h.grp = 0)
    (hb : secondOk f.b h.grp = true)
    (hop : ∀ k, op h (elemAt (getGroup x f.vs1 h.grp) h.ew k) (secondOp x h f.b false k) = (p k, fl k))
    (hfl : gathered h (activeAt x f.men f.msel) fl = g) :
    ∃ m : BitVec 512, Leaves i s c (retire (stick g { x with m := x.m.set (Fin.ofNat 8 f.vd.val) m })) ∧
      (∀ k, k < h.vlmax → m.getLsbD k =
        (if k < h.count then
          (if activeAt x f.men f.msel k then p k else !h.maskZero && x.m[Fin.ofNat 8 f.vd.val].getLsbD k)
         else !h.tailZero && x.m[Fin.ofNat 8 f.vd.val].getLsbD k)) ∧
      (∀ k, h.vlmax ≤ k → m.getLsbD k = x.m[Fin.ofNat 8 f.vd.val].getLsbD k) := by
  have hflags : (elemLoop h (activeAt x f.men f.msel) 1 x.m[Fin.ofNat 8 f.vd.val].toNat fun k => (b2n (p k), fl k)).2 = g :=
    (elemLoop_flags ..).trans hfl
  have hle : h.vlmax ≤ 512 := hh ▸ vlmax_shapeOf_le x
  refine ⟨BitVec.ofNat 512 (elemLoop h (activeAt x f.men f.msel) 1 x.m[Fin.ofNat 8 f.vd.val].toNat
    fun k => (b2n (p k), fl k)).1, effect_onCore hi hr ?writes ?noTrap, fun k hk => ?low, fun k hk => ?high⟩
  case writes =>
    rw [hx]
    dsimp only
    rw [hh, if_neg (by omega), if_neg (by simp [ht]), if_neg (by simp [ha, hb])]
    simp only [hop, hflags]
  case noTrap =>
    intro he
    rw [← hx]
    exact (begun_exc _).trans he
  case low =>
    rw [BitVec.getLsbD_ofNat, testBit_elemLoop h _ p fl _ hk, decide_eq_true (by omega), Bool.true_and]
  case high =>
    have hsplit : ∀ n, n.testBit k = (n / 2 ^ (1 * h.vlmax)).testBit (k - h.vlmax) := fun n => by
      rw [Nat.one_mul, Nat.testBit_div_two_pow, Nat.sub_add_cancel hk]
    rw [BitVec.getLsbD_ofNat, hsplit, elemLoop_above, ← hsplit]
    by_cases hk' : k < 512
    · rw [decide_eq_true hk', Bool.true_and]
      rfl
    · rw [BitVec.getLsbD_of_ge _ _ (by omega), decide_eq_false hk', Bool.false_and]

end

/-- The signed value tells elements of the same width apart. -/
theorem toS_inj {w a b : Nat} (ha : a < 2 ^ w) (hb : b < 2 ^ w) : toS w a = toS w b ↔ a = b := by
  unfold toS
  rw [Nat.mod_eq_of_lt ha, Nat.mod_eq_of_lt hb]
  split <;> split <;> omega

/-- Settles O33: each comparison of one element, the bits the element loop leaves, and NaNs by their decoding. -/
theorem vectorCompareResults : Obligations.VectorCompareResults := by
  intro s c f hr x h act a b md gives all
  have hew : h.ew = ewOf h.et := ew_shapeOf x
  have ha : ∀ k, a k < 2 ^ h.ew := elemAt_lt _ _
  have hb : ∀ k, b k < 2 ^ h.ew := secondOp_lt hew x f.b
  refine ⟨fun hd h1 h2 => ⟨fun ht => ?int, fun ht => ?float⟩, fun v w hex hfr z => ?nan, fun he hd => ?register⟩
  case int =>
    have hgives : ∀ {i : Instr} {signed q} {p : Nat → Bool}, exec i s = vCmpInt c f signed q s →
        (∀ k, q (if signed then toS h.ew (a k) else a k) (if signed then toS h.ew (b k) else b k) = p k) → gives i p 0 :=
      fun hi hq => leaves_vCompare hi hr rfl rfl hd (isIntT_of_lt ht) h1 h2 (fun k => congrArg (·, 0) (hq k))
        (gathered_zero _ _)
    have heq : ∀ k, (toS h.ew (a k) == toS h.ew (b k)) = (a k == b k) := fun k =>
      Bool.eq_iff_iff.2 (by rw [beq_iff_eq, beq_iff_eq, toS_inj (ha k) (hb k)])
    have hlt : ∀ k, decide ((a k : Int) < (b k : Int)) = decide (a k < b k) := fun k =>
      decide_eq_decide.2 Nat.cast_lt
    have hle : ∀ k, decide ((a k : Int) ≤ (b k : Int)) = decide (a k ≤ b k) := fun k =>
      decide_eq_decide.2 Nat.cast_le
    exact ⟨hgives (exec_vcmpeq ..) heq, hgives (exec_vcmpne ..) fun k => congrArg (! ·) (heq k),
      hgives (exec_vcmplt ..) fun k => rfl, hgives (exec_vcmpltu ..) hlt, hgives (exec_vcmple ..) fun k => rfl,
      hgives (exec_vcmpleu ..) hle⟩
  case float =>
    have hgives : ∀ {i : Instr} {op : Bool → Nat → Nat → Bool × Nat},
        exec i s = vCompare c f (fun t => t == 6) (fun h a b => op h.ftz a b) s →
        gives i (fun k => (op h.ftz (a k) (b k)).1) (gathered h act fun k => (op h.ftz (a k) (b k)).2) :=
      fun hi => leaves_vCompare hi hr rfl rfl hd (beq_iff_eq.2 ht) h1 h2 (fun k => rfl) rfl
    exact ⟨hgives (exec_vfcmpeq ..), hgives (exec_vfcmplt ..)⟩
  case nan =>
    have hnan : fpIsNan (fpDecode z v) = some (!bit (bits v 22 0) 22) := congrArg fpIsNan (fpDecode_nan z hex hfr)
    exact ⟨fpEq_nan (.inl hnan), fpEq_nan (.inr hnan), fpLt_nan (.inl hnan), fpLt_nan (.inr hnan)⟩
  case register =>
    have hrefuse : ∀ {i : Instr} {types op}, exec i s = vCompare c f types op s → Traps i s c 0x01 0 :=
      fun hi => traps_onCore hi hr he (if_pos hd)
    have hrefuseInt : ∀ {i : Instr} {signed q}, exec i s = vCmpInt c f signed q s → Traps i s c 0x01 0 :=
      fun hi => hrefuse hi
    simp only [all, List.forall_mem_cons]
    exact ⟨hrefuseInt (exec_vcmpeq ..), hrefuseInt (exec_vcmpne ..), hrefuseInt (exec_vcmplt ..),
      hrefuseInt (exec_vcmpltu ..), hrefuseInt (exec_vcmple ..), hrefuseInt (exec_vcmpleu ..),
      hrefuse (exec_vfcmpeq ..), hrefuse (exec_vfcmplt ..), List.forall_mem_nil _⟩

end Sys2Proof.Machine
end

section
/-!
SUPPORT. The binary32 operations of the vector unit: every result is a word, and what they answer on special operands
(07_vector.md, R274, R275).
-/
namespace Sys2Proof.Machine
open Sys2Proof

/-! ### Every result is a word of 32 bits -/

theorem ite_lt {p : Prop} [Decidable p] {x y n : Nat} (hx : x < n) (hy : y < n) : (if p then x else y) < n := by
  split
  · exact hx
  · exact hy

theorem fst_ite_lt {p : Prop} [Decidable p] {x y : Nat × Nat} {n : Nat} (hx : x.1 < n) (hy : y.1 < n) :
    (if p then x else y).1 < n := by
  rw [apply_ite Prod.fst]
  exact ite_lt hx hy

theorem fpZero_le (neg : Bool) : fpZero neg ≤ 2 ^ 31 := by cases neg <;> decide

theorem fpInf_lt (neg : Bool) : fpInf neg < 2 ^ 32 := by cases neg <;> decide

theorem passNan_lt (a b d : Nat) : passNan a b d < 2 ^ 32 :=
  Nat.or_lt_two_pow (Config.nanPayload a b d).isLt (by decide)

/-- A magnitude of at most 24 bits above the unit it is rounded to has at most 24 bits after rounding, or is 2^24. -/
theorem quantize_le {len : Nat} (rm : RMode) (neg : Bool) {num : Nat} (sticky : Bool) {e q : Int} (hnum : num < 2 ^ len)
    (hq : len + e - 24 ≤ q) : (quantize rm neg num sticky e q).1 ≤ 2 ^ 24 := by
  have hmant : (if q ≤ e then (num * 2 ^ (e - q).toNat, sticky)
      else (num / 2 ^ (q - e).toNat, sticky || num % 2 ^ (q - e).toNat != 0)).1 < 2 ^ 24 := by
    split
    · calc num * 2 ^ (e - q).toNat < 2 ^ len * 2 ^ (e - q).toNat := Nat.mul_lt_mul_of_pos_right hnum (Nat.two_pow_pos _)
        _ = 2 ^ (len + (e - q).toNat) := (pow_add ..).symm
        _ ≤ 2 ^ 24 := Nat.pow_le_pow_right (by decide) (by omega)
    · refine Nat.div_lt_of_lt_mul ?_
      calc num < 2 ^ len := hnum
        _ ≤ 2 ^ ((q - e).toNat + 24) := Nat.pow_le_pow_right (by decide) (by omega)
        _ = 2 ^ (q - e).toNat * 2 ^ 24 := pow_add ..
  unfold quantize
  generalize (if q ≤ e then _ else _ : Nat × Bool) = y at hmant ⊢
  dsimp only
  split <;> omega

/-- A rounded value is a word. -/
theorem fpRound_lt (rm : RMode) (ftz neg : Bool) (num : Nat) (sticky : Bool) (e : Int) :
    (fpRound rm ftz neg num sticky e).1 < 2 ^ 32 := by
  unfold fpRound
  extract_lets len q
  have hlow : -149 ≤ q := by
    simp only [q]
    split <;> omega
  have hm0 : (quantize rm neg num sticky e q).1 ≤ 2 ^ 24 :=
    quantize_le rm neg sticky Nat.lt_log2_self (by simp only [q, len]; split <;> omega)
  generalize hz : quantize rm neg num sticky e q = z at hm0 ⊢
  obtain ⟨m0, inexact⟩ := z
  dsimp only at hm0 ⊢
  have hm : (if m0 = 2 ^ 24 then (2 ^ 23, q + 1) else (m0, q) : Nat × Int).1 < 2 ^ 24 ∧
      -149 ≤ (if m0 = 2 ^ 24 then (2 ^ 23, q + 1) else (m0, q) : Nat × Int).2 := by
    split
    · exact ⟨by norm_num, by dsimp only; omega⟩
    · exact ⟨by dsimp only; omega, hlow⟩
  generalize (if m0 = 2 ^ 24 then (2 ^ 23, q + 1) else (m0, q) : Nat × Int) = y at hm ⊢
  obtain ⟨m, p⟩ := y
  obtain ⟨hm, hp⟩ := hm
  have hsign := fpZero_le neg
  have hinf := fpInf_lt neg
  dsimp only at hm hp ⊢
  split
  · exact ite_lt hinf (by omega)
  · split
    · exact fst_ite_lt (by dsimp only; omega) (by dsimp only; omega)
    · dsimp only
      omega

theorem fpSum_lt (rm : RMode) (ftz : Bool) {nan : Nat} (bad : Bool) (ts : List Fv) (hn : nan < 2 ^ 32) :
    (fpSum rm ftz nan bad ts).1 < 2 ^ 32 := by
  unfold fpSum
  extract_lets isNan isSig pInf nInf lo v neg zeros
  split
  · exact hn
  split
  · decide
  split
  · exact fpInf_lt false
  split
  · exact fpInf_lt true
  split
  · exact (fpZero_le _).trans_lt (by decide)
  · exact fpRound_lt ..

theorem fpDot_lt (rm : RMode) (ftz : Bool) {nan : Nat} (prods : List (Bool × Nat × Nat)) (terms : List Nat)
    (hn : nan < 2 ^ 32) : (fpDot rm ftz nan prods terms).1 < 2 ^ 32 := fpSum_lt _ _ _ _ hn

section
variable (rm : RMode) (ftz : Bool) (d a b : Nat)

theorem fpAdd_lt : (fpAdd rm ftz a b).1 < 2 ^ 32 := fpDot_lt _ _ _ _ (passNan_lt ..)
theorem fpSub_lt : (fpSub rm ftz a b).1 < 2 ^ 32 := fpSum_lt _ _ _ _ (passNan_lt ..)
theorem fpMul_lt : (fpMul rm ftz a b).1 < 2 ^ 32 := fpDot_lt _ _ _ _ (passNan_lt ..)
theorem fpFma_lt : (fpFma rm ftz d a b).1 < 2 ^ 32 := fpDot_lt _ _ _ _ (passNan_lt ..)

theorem cfpFma_lt (h : Shape) (d : Option Nat) : (cfpFma h d a b).1 < 2 ^ 64 :=
  join_lt (w := 32) (fpDot_lt _ _ _ _ (passNan_lt ..)) (fpDot_lt _ _ _ _ (passNan_lt ..))

theorem fpFlush_lt {w : Nat} (hw : w < 2 ^ 32) : fpFlush ftz w < 2 ^ 32 :=
  ite_lt ((fpZero_le _).trans_lt (by decide)) hw

theorem fpMinMax_lt (mx : Bool) {a b : Nat} (ha : a < 2 ^ 32) (hb : b < 2 ^ 32) : (fpMinMax mx ftz a b).1 < 2 ^ 32 := by
  unfold fpMinMax
  dsimp only
  split
  · exact passNan_lt ..
  · exact fpFlush_lt ftz hb
  · exact fpFlush_lt ftz ha
  · exact fpFlush_lt ftz (ite_lt ha hb)

theorem fpToInt_lt : (fpToInt rm ftz a).1 < 2 ^ 32 := by
  unfold fpToInt
  split
  · decide
  · exact ite_lt (by decide) (by decide)
  · exact fst_ite_lt (by decide) (fst_ite_lt (ofS_lt 32 _) (ofS_lt 32 _))

theorem fpOfInt_lt : (fpOfInt rm a).1 < 2 ^ 32 := fst_ite_lt (by decide) (fpRound_lt ..)

theorem fpRece_lt : (fpRece rm ftz a).1 < 2 ^ 32 := by
  unfold fpRece
  split
  · exact passNan_lt ..
  · exact (fpZero_le _).trans_lt (by decide)
  · exact fst_ite_lt (fpInf_lt _) (fst_ite_lt (Config.recipEstimate _).isLt (fpRound_lt ..))

theorem fpRsqe_lt : (fpRsqe rm ftz a).1 < 2 ^ 32 := by
  unfold fpRsqe
  split
  · exact passNan_lt ..
  · exact fst_ite_lt (by decide) (by decide)
  · refine fst_ite_lt (fpInf_lt _) (fst_ite_lt (by decide) ?_)
    exact fst_ite_lt (Config.rsqrtEstimate _).isLt (fpRound_lt ..)

end

end Sys2Proof.Machine
end

section
/-!
SUPPORT. The binary32 vector instructions on every element, and on special operands (07_vector.md, R274, R275).
-/
namespace Sys2Proof.Machine
open Sys2Proof

/-! ### The instructions -/

/-- A binary32 operation of fp32 or, part by part, of cfp32. -/
theorem trim_byParts_float {h : Shape} {op : Nat → Nat → Nat × Nat} {a b : Nat} (hlt : ∀ p q, (op p q).1 < 2 ^ 32)
    (hc : isCplxT h.et = true) (ha : a < 2 ^ 64) (hb : b < 2 ^ 64) :
    trim 64 (byParts h 32 32 op a b) =
      ((op (a % 2 ^ 32) (b % 2 ^ 32)).1 + 2 ^ 32 * (op (a / 2 ^ 32) (b / 2 ^ 32)).1,
        (op (a % 2 ^ 32) (b % 2 ^ 32)).2 ||| (op (a / 2 ^ 32) (b / 2 ^ 32)).2) := by
  have hhigh : ∀ v : Nat, v < 2 ^ 64 → v / 2 ^ 32 % 2 ^ 32 = v / 2 ^ 32 := fun v hv =>
    Nat.mod_eq_of_lt (Nat.div_lt_of_lt_mul hv)
  rw [byParts_cplx hc, hhigh a ha, hhigh b hb, Nat.mod_eq_of_lt (hlt ..), Nat.mod_eq_of_lt (hlt ..)]
  exact trim_of_lt (join_lt (w := 32) (hlt ..) (hlt ..))

theorem vectorFloatResults : Claims.VectorFloatResults := by
  intro s c f hr x h act old a b gives parts hd h1 hb
  have hew : h.ew = ewOf h.et := ew_shapeOf x
  have ha : ∀ k, a k < 2 ^ h.ew := elemAt_lt _ _
  have hbk : ∀ k, b k < 2 ^ h.ew := secondOp_lt hew x f.b
  have same : ∀ {i : Instr} {types op} {r : Nat → Nat × Nat}, exec i s = vArith c f types .same false op s →
      types h.et = true → (∀ k, trim h.ew (op h (old k) (a k) (b k)) = r k) → gives i r :=
    fun hi ht hop => writesGroup_op hi hr rfl rfl ht (absurd rfl) hd h1 hb nofun hop rfl
  refine ⟨fun ht => ?fp32, fun ht => ?cfp32⟩
  case fp32 =>
    have hreal : isCplxT h.et = false := by rw [ht]; rfl
    have hew32 : h.ew = 32 := by rw [hew, ht]; rfl
    have h7 : h.et ≠ 7 := by omega
    have htypes : (h.et == 6 || h.et == 7) = true := by rw [ht]; rfl
    have htype : (h.et == 6) = true := beq_iff_eq.2 ht
    rw [hew32] at ha hbk
    have fits : ∀ {i : Instr} {types op} {r : Nat → Nat × Nat}, exec i s = vArith c f types .same false op s →
        types h.et = true → (∀ k, op h (old k) (a k) (b k) = r k) → (∀ k, (r k).1 < 2 ^ 32) → gives i r :=
      fun hi ht hop hlt => same hi ht fun k => by rw [hop k, hew32, trim_of_lt (hlt k)]
    refine ⟨fits (exec_vfadd ..) htypes (fun k => byParts_real hreal) fun k => fpAdd_lt ..,
      fits (exec_vfsub ..) htypes (fun k => byParts_real hreal) fun k => fpSub_lt ..,
      fits (exec_vfmul ..) htypes (fun k => if_neg h7) fun k => fpMul_lt ..,
      fits (exec_vfma ..) htypes (fun k => if_neg h7) fun k => fpFma_lt ..,
      fits (exec_vfmin ..) htype (fun k => rfl) fun k => fpMinMax_lt _ _ (ha k) (hbk k),
      fits (exec_vfmax ..) htype (fun k => rfl) fun k => fpMinMax_lt _ _ (ha k) (hbk k),
      fits (exec_vfcvtI ..) htype (fun k => rfl) fun k => fpToInt_lt ..,
      fits (exec_vfcvtF ..) htype (fun k => rfl) fun k => fpOfInt_lt .., fun hn => ?estimates⟩
    have estimate : ∀ {i : Instr} {op : Shape → Nat → Nat × Nat}, exec i s = vEstimate c f op s →
        exec i s = vArith c f (fun t => t == 6) .same false (fun h _ a _ => op h a) s :=
      fun hi => hi.trans (if_pos hn)
    exact ⟨fits (estimate (exec_vfrece ..)) htype (fun k => rfl) fun k => fpRece_lt ..,
      fits (estimate (exec_vfrsqe ..)) htype (fun k => rfl) fun k => fpRsqe_lt ..⟩
  case cfp32 =>
    have hcplx : isCplxT h.et = true := by rw [ht]; rfl
    have hew64 : h.ew = 64 := by rw [hew, ht]; rfl
    have htypes : (h.et == 6 || h.et == 7) = true := by rw [ht]; rfl
    rw [hew64] at ha hbk
    refine ⟨same (exec_vfadd ..) htypes fun k => ?_, same (exec_vfsub ..) htypes fun k => ?_,
      same (exec_vfmul ..) htypes fun k => ?_, same (exec_vfma ..) htypes fun k => ?_⟩
    · rw [hew64]
      exact trim_byParts_float (fpAdd_lt _ _) hcplx (ha k) (hbk k)
    · rw [hew64]
      exact trim_byParts_float (fpSub_lt _ _) hcplx (ha k) (hbk k)
    · rw [hew64, if_pos ht, trim_of_lt (cfpFma_lt ..)]
    · rw [hew64, if_pos ht, trim_of_lt (cfpFma_lt ..)]

/-! ### Special operands -/

section
variable {rm : RMode} {ftz : Bool} {w : Nat}

theorem fpFlush_normal {v : Nat} (hv : v / 2 ^ 23 % 256 ≠ 0) : fpFlush ftz v = v := by
  have hexp : (bits v 30 23 == 0) = false := beq_eq_false_iff_ne.2 hv
  rw [fpFlush, hexp, Bool.and_false]
  rfl

/-- A minimum or maximum with one NaN returns the other operand. -/
theorem fpMinMax_nan {v : Nat} (hex : w / 2 ^ 23 % 256 = 255) (hfr : w % 2 ^ 23 ≠ 0) (h255 : v / 2 ^ 23 % 256 ≠ 255)
    (h0 : v / 2 ^ 23 % 256 ≠ 0) (mx : Bool) : (fpMinMax mx ftz w v).1 = v ∧ (fpMinMax mx ftz v w).1 = v := by
  have hw : fpIsNan (fpDecode ftz w) = some (!bit (bits w 22 0) 22) := congrArg fpIsNan (fpDecode_nan ftz hex hfr)
  have hv := fpIsNan_fpDecode ftz h255
  simp only [fpMinMax, hw, hv, fpFlush_normal h0, and_self]

/-- A conversion past the range of int32 gives the nearest limit with NV (R275). -/
theorem satS_int32_above {v : Int} (h : 2 ^ 31 ≤ v) : satS 32 v = 2 ^ 31 - 1 := by
  rw [satS_eq_limited, limited]
  omega

theorem satS_int32_below {v : Int} (h : v < -2 ^ 31) : satS 32 v = -2 ^ 31 := by
  rw [satS_eq_limited, limited]
  omega

/-- The sign bit of a word. -/
theorem bit_31_eq (hw : w < 2 ^ 32) : bit w 31 = decide (2 ^ 31 ≤ w) := by
  unfold bit
  rw [Bool.eq_iff_iff, beq_iff_eq, decide_eq_true_iff]
  omega

theorem fpToInt_outside (hw : w < 2 ^ 32) (hex : 158 ≤ w / 2 ^ 23 % 256) (hnan : ¬ (w / 2 ^ 23 % 256 = 255 ∧ w % 2 ^ 23 ≠ 0))
    (hmin : w ≠ 0xCF000000) : fpToInt rm ftz w = (if w < 2 ^ 31 then 0x7FFFFFFF else 0x80000000, 8) := by
  have hsign : (if bit w 31 then 0x80000000 else 0x7FFFFFFF) = if w < 2 ^ 31 then 0x7FFFFFFF else 0x80000000 := by
    rw [bit_31_eq hw]
    simp only [decide_eq_true_eq]
    split <;> split <;> omega
  by_cases hinf : w / 2 ^ 23 % 256 = 255
  · have hfr : w % 2 ^ 23 = 0 := by
      by_contra hne
      exact hnan ⟨hinf, hne⟩
    rw [fpToInt, fpDecode_inf ftz hinf hfr]
    exact congrArg (·, 8) hsign
  · set m := 2 ^ 23 + w % 2 ^ 23 with hm
    set d := w / 2 ^ 23 % 256 - 150 with hd
    have hquantize : ∀ neg, quantize rm neg m false ((w / 2 ^ 23 % 256 : Nat) - 150) 0 = (m * 2 ^ d, false) := fun neg => by
      have he : ((w / 2 ^ 23 % 256 : Nat) - 150 - 0 : Int).toNat = d := by omega
      rw [quantize, if_pos (by omega), he]
      rfl
    have hpow : 2 ^ 8 ≤ 2 ^ d := Nat.pow_le_pow_right (by decide) (by omega)
    have hlarge : 2 ^ 31 ≤ m * 2 ^ d := calc
      2 ^ 31 = 2 ^ 23 * 2 ^ 8 := by norm_num
      _ ≤ m * 2 ^ d := Nat.mul_le_mul (by omega) hpow
    have hlarge' : 2 ^ 31 ≤ w → 2 ^ 31 < m * 2 ^ d := fun hneg => by
      by_cases hd8 : d = 8
      · rw [hd8]
        omega
      · calc
          2 ^ 31 < 2 ^ 23 * 2 ^ 9 := by norm_num
          _ ≤ m * 2 ^ d := Nat.mul_le_mul (by omega) (Nat.pow_le_pow_right (by decide) (by omega))
    have hm0 : m ≠ 0 := by omega
    rw [fpToInt, fpDecode_normal ftz (by omega) hinf]
    simp only [← hm, hm0, if_false, hquantize, bit_31_eq hw]
    by_cases hneg : 2 ^ 31 ≤ w
    · have hsat : satS 32 (-((m * 2 ^ d : Nat) : Int)) = -2 ^ 31 := satS_int32_below (by have := hlarge' hneg; omega)
      have hne : (-2 ^ 31 : Int) ≠ -((m * 2 ^ d : Nat) : Int) := by have := hlarge' hneg; omega
      rw [decide_eq_true hneg]
      simp only [if_true, hsat, hne, ne_eq, not_false_eq_true, if_neg (not_lt.2 hneg)]
      rfl
    · have hsat : satS 32 ((m * 2 ^ d : Nat) : Int) = 2 ^ 31 - 1 := satS_int32_above (by omega)
      have hne : (2 ^ 31 - 1 : Int) ≠ ((m * 2 ^ d : Nat) : Int) := by omega
      rw [decide_eq_false hneg]
      simp only [if_false, hsat, hne, ne_eq, not_false_eq_true, if_true, if_pos (not_le.1 hneg), Bool.false_eq_true]
      rfl

/-! ### Multiplication by one -/

theorem fpSum_single {nan m : Nat} {neg : Bool} {e : Int} (hm : m ≠ 0) (he : e < 200) :
    fpSum rm ftz nan false [.fin neg m e] = fpRound rm ftz neg m false e := by
  have hlow : lowExp [.fin neg m e] = e := if_pos he
  have hsum : finSum e [.fin neg m e] = (if neg then -1 else 1) * m := by
    simp [finSum]
  have hv : ((if neg then -1 else 1) * m : Int) ≠ 0 := by cases neg <;> simpa using hm
  have hlt : decide (((if neg then -1 else 1) * m : Int) < 0) = neg := by
    cases neg with
    | false => simp
    | true =>
      simp only [if_true, decide_eq_true_eq]
      omega
  have habs : ((if neg then -1 else 1) * m : Int).natAbs = m := by cases neg <;> simp
  have hinf : ∀ n, ([.fin neg m e] : List Fv).contains (.inf n) = false := fun n => rfl
  unfold fpSum
  simp only [List.any_cons, List.any_nil, Bool.or_false, hinf, Bool.false_and, Bool.false_eq_true, if_false, hlow, hsum, hv,
    hlt, habs]

/-- A significand of 24 bits with 23 zeros below it is rounded to itself. -/
theorem fpRound_exact {neg : Bool} {m : Nat} {q : Int} (hm : 2 ^ 23 ≤ m) (hm' : m < 2 ^ 24) (hq : -149 ≤ q) (hq' : q ≤ 104) :
    fpRound rm ftz neg (m * 2 ^ 23) false (q - 23) = (fpZero neg + (q + 150).toNat * 2 ^ 23 + (m - 2 ^ 23), 0) := by
  have hlog : Nat.log2 (m * 2 ^ 23) = 46 := (Nat.log2_eq_iff (by omega)).2 ⟨by omega, by omega⟩
  have hunit : (if ((46 : Nat) : Int) + 1 + (q - 23) - 24 < -149 then -149 else ((46 : Nat) : Int) + 1 + (q - 23) - 24) = q := by
    rw [if_neg (by omega)]
    omega
  have hquantize : quantize rm neg (m * 2 ^ 23) false (q - 23) q = (m, false) := by
    have hd : (q - (q - 23)).toNat = 23 := by omega
    rw [quantize, if_neg (by omega), hd, Nat.mul_div_cancel _ (by decide), Nat.mul_mod_left]
    rfl
  have hne : m ≠ 2 ^ 24 := by omega
  unfold fpRound
  simp only [hlog, hunit, hquantize, if_neg hne, Bool.and_false, if_neg (not_lt.2 hq'), if_neg (not_lt.2 hm)]
  rfl

/-- A normal word is its sign, exponent and fraction put together again. -/
theorem fp_reassemble (hw : w < 2 ^ 32) (h0 : 1 ≤ w / 2 ^ 23 % 256) :
    fpZero (bit w 31) + ((w / 2 ^ 23 % 256 : Nat) - 150 + 150 : Int).toNat * 2 ^ 23 + (2 ^ 23 + w % 2 ^ 23 - 2 ^ 23) = w := by
  rw [bit_31_eq hw, fpZero]
  by_cases hneg : 2 ^ 31 ≤ w
  · rw [decide_eq_true hneg, if_pos rfl]
    omega
  · rw [decide_eq_false hneg, if_neg Bool.false_ne_true]
    omega

theorem fpMul_one (hw : w < 2 ^ 32) (h0 : 1 ≤ w / 2 ^ 23 % 256) (h255 : w / 2 ^ 23 % 256 < 255) :
    fpMul rm ftz w 0x3F800000 = (w, 0) ∧ fpMul rm ftz 0x3F800000 w = (w, 0) := by
  have hone : fpDecode ftz 0x3F800000 = .fin false (2 ^ 23) (-23) := rfl
  have hdecode := fpDecode_normal ftz (w := w) (by omega) (by omega)
  have hround := fpRound_exact (rm := rm) (ftz := ftz) (neg := bit w 31) (m := 2 ^ 23 + w % 2 ^ 23)
    (q := (w / 2 ^ 23 % 256 : Nat) - 150) (by omega) (by omega) (by omega) (by omega)
  rw [fp_reassemble hw h0] at hround
  constructor
  · have hprod : fpProd (fpDecode ftz w) (fpDecode ftz 0x3F800000) =
        some (.fin (bit w 31) ((2 ^ 23 + w % 2 ^ 23) * 2 ^ 23) ((w / 2 ^ 23 % 256 : Nat) - 150 - 23)) := by
      rw [hdecode, hone, fpProd, Bool.bne_false]
      rfl
    have hmul : ∀ nan, fpDot rm ftz nan [(false, w, 0x3F800000)] [] =
        fpSum rm ftz nan false [.fin (bit w 31) ((2 ^ 23 + w % 2 ^ 23) * 2 ^ 23) ((w / 2 ^ 23 % 256 : Nat) - 150 - 23)] :=
      fun nan => by simp [fpDot, hprod]
    rw [fpMul, hmul, fpSum_single (by omega) (by omega), hround]
  · have hprod : fpProd (fpDecode ftz 0x3F800000) (fpDecode ftz w) =
        some (.fin (bit w 31) ((2 ^ 23 + w % 2 ^ 23) * 2 ^ 23) ((w / 2 ^ 23 % 256 : Nat) - 150 - 23)) := by
      rw [hdecode, hone, fpProd, Bool.false_bne, Nat.mul_comm, Int.add_comm]
      rfl
    have hmul : ∀ nan, fpDot rm ftz nan [(false, 0x3F800000, w)] [] =
        fpSum rm ftz nan false [.fin (bit w 31) ((2 ^ 23 + w % 2 ^ 23) * 2 ^ 23) ((w / 2 ^ 23 % 256 : Nat) - 150 - 23)] :=
      fun nan => by simp [fpDot, hprod]
    rw [fpMul, hmul, fpSum_single (by omega) (by omega), hround]

end

theorem binarySpecialOperands : Claims.BinarySpecialOperands := by
  intro rm ftz w hw ex fr nan
  refine ⟨rfl, rfl, by cases ftz <;> rfl, by cases ftz <;> rfl, ?minMax, ?toIntNan, fun hex hnan hmin => fpToInt_outside hw hex hnan hmin,
    fun h0 h255 => fpMul_one hw h0 h255⟩
  case minMax =>
    rintro ⟨hex, hfr⟩ v - h255 h0 mx
    exact fpMinMax_nan hex hfr h255 h0 mx
  case toIntNan =>
    rintro ⟨hex, hfr⟩
    rw [fpToInt, fpDecode_nan ftz hex hfr]

/-- Settles O32: the instructions by what they make of one element, and the operations on special operands. -/
theorem vectorFloats : Obligations.VectorFloats := ⟨vectorFloatResults, binarySpecialOperands⟩

end Sys2Proof.Machine
end

section
/-!
SUPPORT. The reductions, the mask operations and VSET (07_vector.md, Reductions and permutes; Mask operations; R268, R269).
-/
namespace Sys2Proof.Machine
open Sys2Proof

/-! ### Folds over the active elements -/

/-- The first of the elements that no other betters: what a reduction to an extreme keeps as it passes element `k`. -/
def keepBetter (better : Int → Int → Bool) (v : Nat → Int) (best : Option (Int × Nat)) (k : Nat) : Option (Int × Nat) :=
  match best with
  | none => some (v k, k)
  | some (w, j) => if better (v k) w then some (v k, k) else some (w, j)

/-- A strict order's reduction over rising numbers keeps an extreme, and of equal ones the lowest number. -/
theorem foldl_keepBetter {better : Int → Int → Bool} (v : Nat → Int)
    (htotal : ∀ a b, better a b = true ∨ a = b ∨ better b a = true)
    (htrans : ∀ a b d, better a b = true → better b d = true → better a d = true) {l : List Nat}
    (hl : l.Pairwise (· < ·)) (hne : l ≠ []) :
    ∃ j ∈ l, (∀ k ∈ l, better (v j) (v k) = true ∨ (v k = v j ∧ j ≤ k)) ∧
      l.foldl (keepBetter better v) none = some (v j, j) := by
  induction l using List.reverseRecOn with
  | nil => exact absurd rfl hne
  | append_singleton l i ih =>
    obtain ⟨hl, -, hlt⟩ := List.pairwise_append.1 hl
    rw [List.foldl_append]
    by_cases hnil : l = []
    · subst hnil
      exact ⟨i, List.mem_singleton_self i, fun k hk => .inr (by rw [List.mem_singleton.1 hk]; exact ⟨rfl, le_rfl⟩), rfl⟩
    · obtain ⟨j, hj, hbest, hfold⟩ := ih hl hnil
      have hji : j < i := hlt j hj i (List.mem_singleton_self i)
      rw [hfold]
      cases hb : better (v i) (v j) with
      | true =>
        refine ⟨i, List.mem_append_right _ (List.mem_singleton_self i), fun k hk => ?_, by simp [keepBetter, hb]⟩
        rcases List.mem_append.1 hk with hk | hk
        · rcases hbest k hk with hjk | ⟨hjk, -⟩
          · exact .inl (htrans _ _ _ hb hjk)
          · exact .inl (hjk ▸ hb)
        · exact .inr (by rw [List.mem_singleton.1 hk]; exact ⟨rfl, le_rfl⟩)
      | false =>
        refine ⟨j, List.mem_append_left _ hj, fun k hk => ?_, by simp [keepBetter, hb]⟩
        rcases List.mem_append.1 hk with hk | hk
        · exact hbest k hk
        · rw [List.mem_singleton.1 hk]
          rcases htotal (v i) (v j) with hij | hij | hij
          · exact absurd (hb.symm.trans hij) Bool.false_ne_true
          · exact .inr ⟨hij, hji.le⟩
          · exact .inl hij

theorem foldl_active_sum (l : List Nat) (act : Nat → Bool) (v : Nat → Int) :
    l.foldl (fun acc k => if act k then acc + v k else acc) 0 = ((l.filter act).map v).sum := by
  rw [← List.foldl_filter (f := fun acc k => acc + v k), List.sum_eq_foldl, List.foldl_map]

/-! ### The reductions -/

section
variable {i : Instr} {s : State} {c : Fin 96} {rd vs1 : Fin 32} {men : Bool} {msel : Fin 8} {x : Core} {h : Shape}

theorem pairOk_of_even (heven : rd.val % 2 = 0) (hrd : rd ≠ 0) : pairOk rd = true := by
  have hval : rd.val ≠ 0 := fun e => hrd (Fin.ext e)
  simp [pairOk, heven, hval]

/-- What a reduction to an extreme writes, from the pair of the extreme and its index. -/
def extremePair (none0 : Word) : Option (Int × Nat) → Word × Word
  | some (v, k) => (BitVec.ofInt 64 v, BitVec.ofNat 64 k)
  | none => (none0, BitVec.allOnes 64)

/-- A reduction to an extreme whose pair, type and register are allowed. -/
theorem leaves_vExtreme {none0 : Word} {better : Int → Int → Bool}
    (hi : exec i s = vExtreme c rd vs1 men msel none0 better s) (hr : Ready s c) (hx : begun (core s c) = x)
    (hh : shapeOf x = h) (heven : rd.val % 2 = 0) (hrd : rd ≠ 0) (ht : h.et < 4) (ha : vs1.val % h.grp = 0)
    {a b : Word} (hbest : extremePair none0 (((List.range h.count).filter (activeAt x men msel)).foldl
      (keepBetter better fun k => toS h.ew (elemAt (getGroup x vs1 h.grp) h.ew k)) none) = (a, b)) :
    Leaves i s c (retire (setS (setS x rd a) (rd + 1) b)) := by
  obtain rfl : a = _ := (congrArg Prod.fst hbest).symm
  obtain rfl : b = _ := (congrArg Prod.snd hbest).symm
  refine effect_onCore hi hr ?_ fun he => ?_
  · rw [hx]
    dsimp only
    rw [hh, pairOk_of_even heven hrd, isIntT_of_lt ht, ha, List.foldl_filter]
    rfl
  · rw [exc_retire, exc_setS, exc_setS, ← hx, begun_exc, he]

/-- The reduction to a sum; with VCOUNT 0 nothing is written (R269). -/
theorem leaves_vredsum_empty (hr : Ready s c) (hx : begun (core s c) = x) (hh : shapeOf x = h) (ht : h.et < 4)
    (ha : vs1.val % h.grp = 0) (hcount : h.count = 0) : Leaves (.vredsum c rd vs1 men msel) s c (retire x) := by
  refine effect_onCore (exec_vredsum ..) hr ?_ fun he => ?_
  · rw [hx]
    dsimp only
    rw [hh, isIntT_of_lt ht, ha, if_neg (by decide), if_neg (by decide), if_pos hcount]
  · rw [exc_retire, ← hx, begun_exc, he]

theorem writes_vredsum (hr : Ready s c) (hx : begun (core s c) = x) (hh : shapeOf x = h) (ht : h.et < 4)
    (ha : vs1.val % h.grp = 0) (hcount : 0 < h.count) :
    Writes (.vredsum c rd vs1 men msel) s c rd (BitVec.ofInt 64 (((List.range h.count).filter (activeAt x men msel)).map
      fun k => toS h.ew (elemAt (getGroup x vs1 h.grp) h.ew k)).sum) := by
  refine writes_onCore (exec_vredsum ..) hr ?_
  rw [hx]
  dsimp only
  rw [hh, isIntT_of_lt ht, ha, if_neg (by decide), if_neg (by decide), if_neg (by omega), foldl_active_sum]

end

theorem vectorReductionsAndMasks : Claims.VectorReductionsAndMasks := by
  intro s c rd vs1 men msel md ms1 ms2 hr x h active v below pair mask
  have hx : (core s c).exc = false → x.exc = false := fun he => (begun_exc _).trans he
  have hmask : ∀ {i : Instr} {op : BitVec 512 → BitVec 512 → BitVec 512}, exec i s = vMask c md ms1 ms2 op s →
      mask i (op x.m[ms1] x.m[ms2]) := fun hi => effect_onCore hi hr rfl hx
  refine ⟨fun ht ha => ⟨fun hcount => writes_vredsum hr rfl rfl ht ha hcount,
      fun hcount => leaves_vredsum_empty hr rfl rfl ht ha hcount, fun heven hrd => ⟨fun hnone => ?none, fun hsome => ?some⟩⟩,
    hmask (exec_vmand ..), hmask (exec_vmor ..), hmask (exec_vmxor ..), hmask (op := fun a b => a &&& ~~~b) (exec_vmandn ..),
    effect_onCore (exec_vmset ..) hr rfl hx, effect_onCore (exec_vmclr ..) hr rfl hx, writes_onCore (exec_vmpopc ..) hr rfl,
    writes_onCore (exec_vmfirst ..) hr ?first⟩
  case none =>
    have hfold : ∀ better, active.foldl (keepBetter better v) none = none := fun better =>
      congrArg (List.foldl (keepBetter better v) none) hnone
    exact ⟨leaves_vExtreme (exec_vredmax ..) hr rfl rfl heven hrd ht ha (congrArg (extremePair _) (hfold _)),
      leaves_vExtreme (exec_vredmin ..) hr rfl rfl heven hrd ht ha (congrArg (extremePair _) (hfold _))⟩
  case some =>
    have hsorted : active.Pairwise (· < ·) := List.pairwise_lt_range.filter _
    obtain ⟨j, hj, hbest, hfold⟩ := foldl_keepBetter (better := fun a b => decide (a > b)) v (by simp; omega) (by simp; omega)
      hsorted hsome
    obtain ⟨j', hj', hbest', hfold'⟩ := foldl_keepBetter (better := fun a b => decide (a < b)) v (by simp; omega)
      (by simp; omega) hsorted hsome
    exact ⟨⟨j, hj, fun k hk => by simpa using hbest k hk,
        leaves_vExtreme (exec_vredmax ..) hr rfl rfl heven hrd ht ha (congrArg (extremePair _) hfold)⟩,
      ⟨j', hj', fun k hk => by simpa using hbest' k hk,
        leaves_vExtreme (exec_vredmin ..) hr rfl rfl heven hrd ht ha (congrArg (extremePair _) hfold')⟩⟩
  case first =>
    have hhead : (List.range x.vcount.toNat).find? (fun k => maskBit x ms1 k) = below.head? := List.head?_filter.symm
    rw [hhead]
    cases below <;> rfl

/-! ### VSET -/

theorem ewOf_eq_table {t : Nat} (h : t < 8) : ewOf t = [8, 16, 32, 64, 32, 64, 32, 64].getD t 0 := by
  interval_cases t <;> rfl

/-- VLMAX of a shape of 8 bits. -/
theorem vlmaxOf_byte {v : Nat} (h : v < 2 ^ 8) :
    vlmaxOf v = 2 ^ (v / 64) * 512 / [8, 16, 32, 64, 32, 64, 32, 64].getD (v / 8 % 8) 0 := by
  have hgroup : bits v 7 6 = v / 64 := Nat.mod_eq_of_lt (by omega)
  have htype : bits v 5 3 = v / 8 % 8 := rfl
  rw [vlmaxOf, hgroup, htype, ewOf_eq_table (Nat.mod_lt _ (by decide))]

theorem vsetShape : Claims.VsetShape := by
  intro s c rd rs1 shape hr x vlmax n
  have hbit : shape.getLsbD 0 = decide (shape.toNat % 2 = 1) := Nat.testBit_zero _
  have hvlmax : vlmaxOf shape.toNat = vlmax := vlmaxOf_byte shape.isLt
  refine ⟨fun heven => ?sets, fun hodd he => ?traps⟩
  case sets =>
    refine effect_onCore (exec_vset ..) hr ?_ fun he => ?_
    · dsimp only
      rw [hbit, decide_eq_false (by omega), if_neg Bool.false_ne_true, hvlmax]
    · rw [exc_retire, exc_setS]
      exact (begun_exc _).trans he
  case traps =>
    refine traps_onCore (exec_vset ..) hr he ?_
    dsimp only
    rw [hbit, decide_eq_true hodd, if_pos rfl]

/-- Settles O35: the reductions by their folds over the active elements, the mask operations, and VSET by its shape. -/
theorem vectorReductionsAndShape : Obligations.VectorReductionsAndShape := ⟨vectorReductionsAndMasks, vsetShape⟩

end Sys2Proof.Machine
end

section
/-!
SUPPORT. The vector loads: where no resume is pending an instruction begins at element 0, and what its elements find in good
lines of the data cache (07_vector.md, Memory access; R276 to R286).
-/
namespace Sys2Proof.Machine
open Sys2Proof

/-! ### An instruction that consumes no resume -/

section
variable {s : State} {c : Nat}

theorem begun_fresh {x : Core} (hp : (x.exc || !eriPending x) = true) : begun x = x := by
  refine if_neg fun h => ?_
  simp only [Bool.and_eq_true, Bool.not_eq_true'] at h
  simp [h.1, h.2] at hp

theorem beginInstr_fresh (hp : ((core s c).exc || !eriPending (core s c)) = true) : beginInstr c s = s := by
  refine if_neg fun h => ?_
  simp only [Bool.and_eq_true, Bool.not_eq_true'] at h
  simp [h.1, h.2] at hp

end

/-- An instruction that consumes no resume, goes through and leaves its core as `y`. -/
theorem leaves_fresh {i : Instr} {s t : State} {c : Fin 96} {f : Bool → Core → State → Bool × State} {y : Core}
    (hi : exec i s = onCoreR c f s) (hr : Ready s c) (hp : ((core s c).exc || !eriPending (core s c)) = true)
    (hf : f false (core s c) s = (true, t)) (ht : CoreBecomes c y s t) (he : (core s c).exc = false → y.exc = false) :
    Leaves i s c y := by
  have hresume : (!(core s c).exc && eriPending (core s c)) = false := by
    rw [← Bool.not_inj_iff, Bool.not_and, Bool.not_not, hp]
    rfl
  refine leaves_of_becomes hi hr ?_ (t := t) ?_ he
  · rw [hresume, begun_fresh hp, beginInstr_fresh hp, hf]
  · rwa [beginInstr_fresh hp]

/-! ### Addresses and bytes in the cache -/

section
variable {s : State} {x : Core} {c a n : Nat}

/-- A store past the cache takes no part in a cacheable access. -/
theorem wordMemory_of_cacheable (h : cacheable x c a = true) : wordMemory x c a = false := by
  unfold wordMemory
  rcases region_of_cacheable h with hr | ⟨crew, off, hr⟩ <;> simp only [hr, h, Bool.not_true]

/-- An aligned element of a cacheable region has no fault of its own (R276). -/
theorem elemFault_cacheable (store : Bool) (h : cacheable x c a = true) (ha : a % n = 0) : elemFault store a n = none := by
  unfold elemFault
  rw [if_neg (not_not.2 ha)]
  rcases region_of_cacheable h with hr | ⟨crew, off, hr⟩ <;> simp only [hr]

/-- The address is cacheable, and a good line holds it. -/
def GoodHit (s : State) (c a : Nat) : Prop :=
  cacheable (core s c) c a = true ∧
    ∃ l, (core s c).dcache.find? (·.addr == a / 64 * 64) = some l ∧ l.bad = false ∧ l.ce = false

theorem GoodHit.dataRead (h : GoodHit s c a) : dataRead c a n s = (.ok, lineBytes s c a n, s) := by
  obtain ⟨hc, l, hl, hbad, hce⟩ := h
  rw [dataRead_hit hc hl hbad hce, lineBytes_hit hl]

theorem GoodHit.length_lineBytes (h : GoodHit s c a) : (lineBytes s c a n).length = n := by
  obtain ⟨-, l, hl, -, -⟩ := h
  rw [lineBytes_hit hl, length_sub]

theorem leNat_lt (b : Bytes) : leNat b < 256 ^ b.length := by
  have hpos : 0 < 256 ^ b.length := Nat.pow_pos (by decide)
  induction b with
  | nil => exact Nat.one_pos
  | cons b bs ih =>
    have hb := b.isLt
    have hbs := ih (Nat.pow_pos (by decide))
    rw [leNat, List.length_cons, pow_succ]
    omega

theorem leNat_append (a b : Bytes) : leNat (a ++ b) = leNat a + 256 ^ a.length * leNat b := by
  induction a with
  | nil => simp [leNat]
  | cons x a ih =>
    rw [List.cons_append, leNat, leNat, ih, List.length_cons, pow_succ]
    ring

theorem eight_dvd_ewOf (t : Nat) : ewOf t = 8 * (ewOf t / 8) := by unfold ewOf; split_ifs <;> rfl

/-- The bytes of an element fit its width. -/
theorem GoodHit.leNat_lt {h : Shape} (hew : h.ew = ewOf h.et) (hit : GoodHit s c a) :
    leNat (lineBytes s c a (h.ew / 8)) < 2 ^ h.ew := by
  have hlt := Machine.leNat_lt (lineBytes s c a (h.ew / 8))
  have hwidth : h.ew = 8 * (h.ew / 8) := by rw [hew]; exact eight_dvd_ewOf h.et
  rw [hit.length_lineBytes] at hlt
  calc leNat (lineBytes s c a (h.ew / 8)) < 256 ^ (h.ew / 8) := hlt
    _ = 2 ^ (8 * (h.ew / 8)) := by rw [pow_mul]; norm_num
    _ = 2 ^ h.ew := by rw [← hwidth]

end

/-! ### Loads -/

section
variable {s : State} {c : Fin 96} {x : Core} {h : Shape} {f : VMem}

/-- The value a load finds for element `k`, none where it is masked off. -/
def loadedValue (s : State) (c : Nat) (x : Core) (h : Shape) (f : VMem) (k : Nat) : Option Nat :=
  if activeAt x f.men f.msel k then some (leNat (lineBytes s c (vAddr x h f k) (h.ew / 8))) else none

/-- Elements that hit are all loaded, and nothing changes. -/
theorem vLoadFrom_hits (n i : Nat) (hhit : ∀ k, i ≤ k → k < i + n → activeAt x f.men f.msel k = true →
      vAddr x h f k % (h.ew / 8) = 0 ∧ GoodHit s c (vAddr x h f k)) :
    vLoadFrom c x h f i n s = ((List.range' i n).map (loadedValue s c x h f), .ok, s) := by
  induction n generalizing i with
  | zero => rfl
  | succ n ih =>
    have hrest := ih (i + 1) fun k h1 h2 => hhit k (by omega) (by omega)
    rw [List.range'_succ, List.map_cons, vLoadFrom, loadedValue]
    cases hact : activeAt x f.men f.msel i with
    | false =>
      rw [hrest]
      rfl
    | true =>
      obtain ⟨ha, hit⟩ := hhit i le_rfl (by omega) hact
      simp only [Bool.not_true, Bool.false_eq_true, if_false, elemFault_cacheable false hit.1 ha, hit.dataRead, hrest,
        if_true]

/-- The destination of a load whose elements all came. -/
theorem elemAt_vLoaded {old k : Nat} (hew : h.ew = ewOf h.et) (hk : k < h.vlmax)
    (hhit : ∀ k < h.count, activeAt x f.men f.msel k = true → GoodHit s c (vAddr x h f k)) :
    elemAt (vLoaded h old 0 ((List.range' 0 h.count).map (loadedValue s c x h f)) true) h.ew k =
      loopElem h (activeAt x f.men f.msel) (elemAt old h.ew)
        (fun k => leNat (lineBytes s c (vAddr x h f k) (h.ew / 8))) k := by
  have hold : elemAt old h.ew k % 2 ^ h.ew = elemAt old h.ew k := Nat.mod_eq_of_lt (elemAt_lt _ _ _)
  unfold vLoaded
  dsimp only
  rw [elemAt_fromElems h.ew _ h.vlmax _ k (by simp) (by simpa using hk)]
  simp only [List.getElem_map, List.getElem_range, Nat.not_lt_zero, if_false, Nat.sub_zero, List.getElem?_map,
    loopElem]
  by_cases hc : k < h.count
  · rw [List.getElem?_range' hc, if_pos hc]
    simp only [Option.map_some, loadedValue, Nat.zero_add, Nat.one_mul]
    cases hact : activeAt x f.men f.msel k with
    | true => exact Nat.mod_eq_of_lt ((hhit k hc hact).leNat_lt hew)
    | false => cases h.maskZero <;> simp [hold]
  · have hnone : (List.range' 0 h.count)[k]? = none := by simp; omega
    rw [hnone, if_neg hc]
    cases h.tailZero <;> simp [hold, not_lt.1 hc]

/-- FAULTED cleared by a first-fault load (R286). -/
def unfaulted (y : Core) : Core := { y with vstat := BitVec.ofNat 64 (setBits y.vstat.toNat 7 7 0) }

theorem putGroup_vstat (r v n : Nat) (x : Core) : (putGroup r v n x).vstat = x.vstat := by
  induction n generalizing r v x with
  | zero => rfl
  | succ n ih => rw [putGroup, ih]

theorem unfaulted_putGroup (r v n : Nat) (x : Core) : unfaulted (putGroup r v n x) =
    { putGroup r v n x with vstat := BitVec.ofNat 64 (setBits x.vstat.toNat 7 7 0) } := by
  rw [unfaulted, putGroup_vstat]

/-- A load whose elements all hit writes its destination group, and a first-fault load clears FAULTED. -/
theorem leaves_vLoad {i : Instr} {ff : Bool} (hi : exec i s = vLoad c f ff s) (hr : Ready s c)
    (hp : ((core s c).exc || !eriPending (core s c)) = true) (hx : core s c = x) (hh : shapeOf x = h)
    (hff : ff = true → f.men = false) (hcheck : vMemCheck h f true = none)
    (hhit : ∀ k < h.count, activeAt x f.men f.msel k = true →
      vAddr x h f k % (h.ew / 8) = 0 ∧ GoodHit s c (vAddr x h f k)) :
    let r := vLoaded h (getGroup x f.v h.grp) 0 ((List.range' 0 h.count).map (loadedValue s c x h f)) true
    Leaves i s c (retire (if ff then unfaulted (putGroup f.v r h.grp x) else putGroup f.v r h.grp x)) := by
  intro r
  have hstart : (if ff then 0 else vStart false x) = 0 := by cases ff <;> rfl
  have hloads := vLoadFrom_hits (s := s) (c := c) (x := x) (h := h) (f := f) h.count 0 fun k _ hk =>
    hhit k (by omega)
  have hmen : (ff && f.men) = false := by
    cases ff with
    | false => rfl
    | true => rw [hff rfl]; rfl
  refine leaves_fresh hi hr hp ?_ (coreBecomes_corePut _ _ _) fun he => ?_
  · simp only [hx, hh, hmen, Bool.false_eq_true, if_false, hcheck, hstart, false_and, Nat.sub_zero, hloads]
    rfl
  · have hexc : (putGroup f.v r h.grp x).exc = false := by rw [exc_putGroup, ← hx, he]
    rw [exc_retire]
    cases ff <;> exact hexc

/-! ### The load of a mask register -/

/-- VLD.M with VCOUNT 0 (R269). -/
theorem leaves_vldM_empty {md : Fin 8} {rs1 : Fin 32} (hr : Ready s c)
    (hp : ((core s c).exc || !eriPending (core s c)) = true) (hv : (core s c).vcount = 0) :
    Leaves (.vldM c md rs1) s c (retire (core s c)) := by
  have hi : exec (.vldM c md rs1) s = maskLoad c md rs1 s := exec_vldM ..
  refine leaves_fresh hi hr hp ?_ (coreBecomes_corePut _ _ _) id
  have hskip : maskSkipped false (core s c) = true := by rw [maskSkipped, hv]; rfl
  rw [hskip, if_pos rfl]

theorem maskSkipped_fresh (hv : x.vcount ≠ 0) : maskSkipped false x = false := by
  rw [maskSkipped, beq_false_of_ne hv]
  rfl

/-- The two halves of a mask transfer in cacheable regions have no fault of their own. -/
theorem maskFault_cacheable (store : Bool) {a : Nat} (ha : a % 32 = 0) (hend : a + 64 ≤ 2 ^ 64)
    (hlow : cacheable x c a = true) (hhigh : cacheable x c (a + 32) = true) : maskFault store a = none := by
  rw [maskFault, elemFault_cacheable store hlow ha, Nat.mod_eq_of_lt (by omega)]
  exact elemFault_cacheable store hhigh (by omega)

/-- VLD.M from good lines. -/
theorem leaves_vldM {md : Fin 8} {rs1 : Fin 32} {a : Nat} (hr : Ready s c)
    (hp : ((core s c).exc || !eriPending (core s c)) = true) (hx : core s c = x) (haddr : (getS x rs1).toNat = a)
    (hv : x.vcount ≠ 0) (ha : a % 32 = 0) (hend : a + 64 ≤ 2 ^ 64) (hlow : GoodHit s c a) (hhigh : GoodHit s c (a + 32)) :
    Leaves (.vldM c md rs1) s c (retire { x with
      m := x.m.set md (BitVec.ofNat 512 (leNat (lineBytes s c a 32) + 2 ^ 256 * leNat (lineBytes s c (a + 32) 32))) }) := by
  have hnext : (a + 32) % 2 ^ 64 = a + 32 := Nat.mod_eq_of_lt (by omega)
  have hjoin : leNat (lineBytes s c a 32 ++ lineBytes s c (a + 32) 32) =
      leNat (lineBytes s c a 32) + 2 ^ 256 * leNat (lineBytes s c (a + 32) 32) := by
    rw [leNat_append, hlow.length_lineBytes]
    norm_num
  have hi : exec (.vldM c md rs1) s = maskLoad c md rs1 s := exec_vldM ..
  refine leaves_fresh hi hr hp ?_ (coreBecomes_corePut _ _ _) fun he => by rw [← hx]; exact he
  simp only [hx, haddr, maskSkipped_fresh hv, Bool.false_eq_true, if_false, maskFault_cacheable false ha hend hlow.1 hhigh.1,
    hlow.dataRead, hnext, hhigh.dataRead, hjoin]

end

theorem vectorLoads : Claims.VectorLoads := by
  intro s c f md hr hp x h act at_ hit bytes result
  refine ⟨fun hcheck hhit _ => ?elements, leaves_vldM_empty hr hp,
    fun hv ha hend hlow hhigh => leaves_vldM hr hp rfl rfl hv ha hend hlow hhigh⟩
  case elements =>
    have helem := fun k hk => elemAt_vLoaded (old := getGroup x f.v h.grp) (ew_shapeOf x) (k := k) hk
      fun j hj hact => (hhit j hj hact).2
    refine ⟨⟨_, leaves_vLoad (exec_vld ..) hr hp rfl rfl nofun hcheck hhit, helem⟩, fun hmen => ⟨_, ?_, helem⟩⟩
    have hleaves := leaves_vLoad (exec_vldff c f s) hr hp rfl rfl (fun _ => hmen) hcheck hhit
    exact (congrArg (Leaves (.vldff c f) s c) (congrArg retire (unfaulted_putGroup ..))).mp hleaves

end Sys2Proof.Machine
end

section
/-!
SUPPORT. The vector stores to dirty lines of the data cache: what each byte of the cache holds after them (07_vector.md,
R277, R278; 06_crew_cores.md, R233).
-/
namespace Sys2Proof.Machine
open Sys2Proof

/-! ### Bytes of a list of lines -/

/-- The byte that a list of lines holds for an address. -/
def byteIn (ls : List Line) (a : Nat) : Option (BitVec 8) :=
  (ls.find? (·.addr == a / 64 * 64)).map fun l => l.data.getD (a % 64) 0

/-- A dirty line of a list holds an address. -/
def dirtyIn (ls : List Line) (a : Nat) : Bool := ls.any fun l => l.addr == a / 64 * 64 && l.dirty

/-- Every line holds 64 bytes. -/
def FullLines (ls : List Line) : Prop := ∀ l ∈ ls, l.data.length = 64

section
variable {p : Nat} {bs : Bytes} {ls : List Line}

@[simp] theorem storedLine_addr (l : Line) : (storedLine p bs l).addr = l.addr := by
  unfold storedLine
  split <;> rfl

theorem storedLine_dirty {l : Line} (h : l.dirty = true) : (storedLine p bs l).dirty = true := by
  unfold storedLine
  split
  · rfl
  · exact h

theorem dirtyIn_storedLine {a : Nat} (h : dirtyIn ls a = true) : dirtyIn (ls.map (storedLine p bs)) a = true := by
  unfold dirtyIn at h ⊢
  obtain ⟨l, hl, haddr⟩ := List.any_eq_true.1 h
  obtain ⟨haddr, hdirty⟩ := Bool.and_eq_true_iff.1 haddr
  refine List.any_eq_true.2 ⟨storedLine p bs l, List.mem_map_of_mem hl, ?_⟩
  rw [storedLine_addr, haddr, storedLine_dirty hdirty, Bool.and_self]

/-- What is stored inside a line: the bytes before, the new bytes, the bytes after. -/
theorem sub_zero_eq_take {d : Bytes} {n : Nat} (h : n ≤ d.length) : sub d 0 n = d.take n := by
  simp [sub, h]

theorem length_storedLine {l : Line} (hl : l.data.length = 64) (hp : p % 64 + bs.length ≤ 64) :
    (storedLine p bs l).data.length = 64 := by
  unfold storedLine
  split
  · simp only [List.length_append, length_sub, List.length_drop, hl]
    omega
  · exact hl

theorem fullLines_storedLine (h : FullLines ls) (hp : p % 64 + bs.length ≤ 64) : FullLines (ls.map (storedLine p bs)) := by
  intro l hl
  obtain ⟨k, hk, rfl⟩ := List.mem_map.1 hl
  exact length_storedLine (h k hk) hp

/-- A byte of the line stored to. -/
theorem getD_stored {d : Bytes} {j : Nat} (hd : d.length = 64) :
    (sub d 0 (p % 64) ++ bs ++ d.drop (p % 64 + bs.length)).getD j 0 =
      if p % 64 ≤ j ∧ j < p % 64 + bs.length then bs.getD (j - p % 64) 0 else d.getD j 0 := by
  rw [sub_zero_eq_take (by omega)]
  have htake : (d.take (p % 64)).length = p % 64 := by rw [List.length_take]; omega
  simp only [List.getD_eq_getElem?_getD]
  by_cases hbefore : j < p % 64
  · rw [if_neg (by omega), List.append_assoc, List.getElem?_append_left (by omega), List.getElem?_take_of_lt hbefore]
  · by_cases hafter : j < p % 64 + bs.length
    · rw [if_pos ⟨by omega, hafter⟩, List.append_assoc, List.getElem?_append_right (by omega), htake,
        List.getElem?_append_left (by omega)]
    · rw [if_neg (by omega), List.getElem?_append_right (by rw [List.length_append]; omega), List.getElem?_drop,
        List.length_append, htake]
      congr 2
      omega

/-- Each byte of the cache after a store within one line. -/
theorem byteIn_storedLine (hls : FullLines ls) (hp : p % 64 + bs.length ≤ 64) (a : Nat) :
    byteIn (ls.map (storedLine p bs)) a =
      if p ≤ a ∧ a < p + bs.length then (byteIn ls a).map fun _ => bs.getD (a - p) 0 else byteIn ls a := by
  have hfind : (ls.map (storedLine p bs)).find? (·.addr == a / 64 * 64) =
      (ls.find? (·.addr == a / 64 * 64)).map (storedLine p bs) := by
    rw [List.find?_map]
    congr 2
    funext l
    rw [Function.comp_apply, storedLine_addr]
  unfold byteIn
  rw [hfind]
  cases hl : ls.find? (·.addr == a / 64 * 64) with
  | none => simp
  | some l =>
    have haddr : l.addr = a / 64 * 64 := by simpa using List.find?_some hl
    have hlen : l.data.length = 64 := hls l (List.mem_of_find?_eq_some hl)
    simp only [Option.map_some, storedLine]
    by_cases hline : l.addr = p / 64 * 64
    · rw [if_pos hline, getD_stored hlen]
      by_cases hin : p ≤ a ∧ a < p + bs.length
      · rw [if_pos hin, if_pos (by omega)]
        congr 2
        omega
      · rw [if_neg hin, if_neg (by omega)]
    · rw [if_neg hline, if_neg (by omega)]

end

/-! ### A sequence of stores -/

/-- The lines after stores of `val k` at `at_ k`, for the `k` of a list in order. -/
def storeLines (at_ : Nat → Nat) (val : Nat → Bytes) (ks : List Nat) (ls : List Line) : List Line :=
  ks.foldl (fun ls k => ls.map (storedLine (at_ k) (val k))) ls

section
variable {at_ : Nat → Nat} {val : Nat → Bytes} {n : Nat} {ks : List Nat} {ls : List Line}

theorem storeLines_append (k : Nat) :
    storeLines at_ val (ks ++ [k]) ls = (storeLines at_ val ks ls).map (storedLine (at_ k) (val k)) := by
  rw [storeLines, List.foldl_append]
  rfl

theorem fullLines_storeLines (hls : FullLines ls) (hfits : ∀ k ∈ ks, at_ k % 64 + (val k).length ≤ 64) :
    FullLines (storeLines at_ val ks ls) := by
  induction ks using List.reverseRecOn with
  | nil => exact hls
  | append_singleton ks k ih =>
    rw [storeLines_append]
    exact fullLines_storedLine (ih fun j hj => hfits j (List.mem_append_left _ hj))
      (hfits k (List.mem_append_right _ (List.mem_singleton_self k)))

/-- Each byte takes the last of the values stored to it (R278). -/
theorem byteIn_storeLines (hls : FullLines ls) (hlen : ∀ k, (val k).length = n) (hfits : ∀ k ∈ ks, at_ k % 64 + n ≤ 64)
    (a : Nat) : byteIn (storeLines at_ val ks ls) a =
      match (ks.filter fun k => at_ k ≤ a && a < at_ k + n).getLast? with
      | some k => (byteIn ls a).map fun _ => (val k).getD (a - at_ k) 0
      | none => byteIn ls a := by
  induction ks using List.reverseRecOn with
  | nil => rfl
  | append_singleton ks k ih =>
    have hks : ∀ j ∈ ks, at_ j % 64 + n ≤ 64 := fun j hj => hfits j (List.mem_append_left _ hj)
    have hk : at_ k % 64 + (val k).length ≤ 64 := by
      rw [hlen]
      exact hfits k (List.mem_append_right _ (List.mem_singleton_self k))
    rw [storeLines_append, byteIn_storedLine (fullLines_storeLines hls fun j hj => by rw [hlen]; exact hks j hj) hk,
      ih hks, List.filter_append, List.filter_singleton, hlen]
    by_cases hin : at_ k ≤ a ∧ a < at_ k + n
    · have hcover : (decide (at_ k ≤ a) && decide (a < at_ k + n)) = true := by simpa using hin
      rw [if_pos hin, hcover, cond_true, List.getLast?_append_of_ne_nil _ (List.cons_ne_nil _ _)]
      cases (ks.filter fun k => decide (at_ k ≤ a) && decide (a < at_ k + n)).getLast? with
      | none => rfl
      | some j => exact Option.map_map ..
    · have hcover : (decide (at_ k ≤ a) && decide (a < at_ k + n)) = false := by
        simpa using hin
      rw [if_neg hin, hcover, cond_false, List.append_nil]

end

theorem getD_leBytes (n v j : Nat) (h : j < n) : (leBytes n v).getD j 0 = BitVec.ofNat 8 (v / 256 ^ j) := by
  induction n generalizing v j with
  | zero => omega
  | succ n ih =>
    cases j with
    | zero => simp [leBytes]
    | succ j =>
      rw [leBytes, List.getD_cons_succ, ih _ _ (by omega), Nat.div_div_eq_div_mul, pow_succ' (256 : Nat) j]

/-! ### Stores by the elements of a vector -/

section
variable {s : State} {c : Fin 96} {x : Core} {h : Shape} {f : VMem} {data : Nat}

/-- What a store of an element to a dirty line of a cacheable region does: its bytes join the line. -/
theorem elemStore_dirty {a n v : Nat} {m : Sparse WordPart} (hc : cacheable x c a = true) (hd : dirtyAt s c a = true) :
    elemStore c x a n v m s = (.ok, m, lineStore c a (leBytes n v) s) := by
  have hstore := cacheStore_dirty (leBytes n v) hd
  unfold elemStore
  rw [wordMemory_of_cacheable hc, if_neg Bool.false_ne_true]
  rcases region_of_cacheable hc with hr | ⟨crew, off, hr⟩ <;> simp only [hr, hstore]

/-- The bytes of element `k` of the data. -/
def elemBytes (h : Shape) (data k : Nat) : Bytes := leBytes (h.ew / 8) (elemAt data h.ew k)

/-- Elements that hit dirty lines are all stored, in order, and nothing else changes. -/
theorem vStoreFrom_dirty (n i : Nat) (s : State) (hhit : ∀ k, i ≤ k → k < i + n → activeAt x f.men f.msel k = true →
      vAddr x h f k % (h.ew / 8) = 0 ∧ cacheable x c (vAddr x h f k) = true ∧
        dirtyIn (core s c).dcache (vAddr x h f k) = true) :
    ∃ t, vStoreFrom c x h f data i n [] s = (.ok, i + n, [], t) ∧ CoreBecomes c { core s c with
      dcache := storeLines (vAddr x h f) (elemBytes h data) ((List.range' i n).filter (activeAt x f.men f.msel))
        (core s c).dcache } s t := by
  induction n generalizing i s with
  | zero => exact ⟨s, rfl, coreBecomes_refl c s⟩
  | succ n ih =>
    have hend : i + (n + 1) = i + 1 + n := by omega
    rw [vStoreFrom, List.range'_succ, List.filter_cons, hend]
    cases hact : activeAt x f.men f.msel i with
    | false =>
      obtain ⟨t, ht, hcore⟩ := ih (i + 1) s fun k h1 h2 => hhit k (by omega) (by omega)
      exact ⟨t, ht, hcore⟩
    | true =>
      obtain ⟨ha, hc, hd⟩ := hhit i le_rfl (by omega) hact
      have hline := coreBecomes_lineStore s c (vAddr x h f i) (elemBytes h data i)
      obtain ⟨t, ht, hcore⟩ := ih (i + 1) (lineStore c (vAddr x h f i) (elemBytes h data i) s) fun k h1 h2 hk => by
        obtain ⟨hka, hkc, hkd⟩ := hhit k (by omega) (by omega) hk
        exact ⟨hka, hkc, by rw [hline.1]; exact dirtyIn_storedLine hkd⟩
      refine ⟨t, ?_, ?_⟩
      · simp only [Bool.not_true, Bool.false_eq_true, if_false, elemFault_cacheable true hc ha, elemStore_dirty hc hd]
        exact ht
      · have hboth := hline.trans hcore
        rw [hline.1] at hboth
        exact hboth

/-- Elements in cacheable regions touch no code word past the cache (R280). -/
theorem touched_cacheable (n i : Nat) (hhit : ∀ k, i ≤ k → k < i + n → activeAt x f.men f.msel k = true →
      wordMemory x c (vAddr x h f k) = false) : touched c x h f i n = [] := by
  unfold touched
  refine List.foldlRecOn (motive := (· = [])) _ _ rfl fun m hm k hk => ?_
  have hk' := List.mem_range.1 hk
  have hnone : (activeAt x f.men f.msel (i + k) && wordMemory x c (vAddr x h f (i + k))) = false := by
    cases hact : activeAt x f.men f.msel (i + k) with
    | false => rfl
    | true => rw [hhit (i + k) (by omega) (by omega) hact]; rfl
  dsimp only
  rw [hnone, if_neg Bool.false_ne_true, hm]

/-- A store whose elements all hit dirty lines. -/
theorem leaves_vst (hr : Ready s c) (hp : ((core s c).exc || !eriPending (core s c)) = true) (hx : core s c = x)
    (hh : shapeOf x = h) (hheld : storeHeld x = false) (hcheck : vMemCheck h f false = none)
    (hhit : ∀ k < h.count, activeAt x f.men f.msel k = true →
      vAddr x h f k % (h.ew / 8) = 0 ∧ cacheable x c (vAddr x h f k) = true ∧ dirtyIn x.dcache (vAddr x h f k) = true) :
    Leaves (.vst c f) s c (retire { x with
      dcache := storeLines (vAddr x h f) (elemBytes h (getGroup x f.v h.grp))
        ((List.range h.count).filter (activeAt x f.men f.msel)) x.dcache }) := by
  have hi : exec (.vst c f) s = vStore c f s := exec_vst ..
  have htouched : touched c x h f 0 h.count = [] := touched_cacheable h.count 0 fun k _ hk hact =>
    wordMemory_of_cacheable (hhit k (by omega) hact).2.1
  obtain ⟨t, hstored, hcore⟩ := vStoreFrom_dirty (c := c) (x := x) (h := h) (f := f) (data := getGroup x f.v h.grp)
    h.count 0 s fun k _ hk hact => by rw [hx]; exact hhit k (by omega) hact
  rw [hx, ← List.range_eq_range'] at hcore
  have hpart : partWord ([] : Sparse WordPart) = none := rfl
  refine leaves_fresh hi hr hp (t := corePut c (retire (core t c)) t) ?_ ?_ fun he => by rw [← hx]; exact he
  · simp only [hx, hh, hcheck, vStart, Bool.false_eq_true, if_false, false_and, Nat.sub_zero, htouched, hpart, hheld,
      hstored, writeParts]
  · rw [hcore.1]
    exact hcore.trans (coreBecomes_corePut _ _ _)

/-! ### The store of a mask register -/

/-- VST.M with VCOUNT 0 (R269). -/
theorem leaves_vstM_empty {ms : Fin 8} {rs1 : Fin 32} (hr : Ready s c)
    (hp : ((core s c).exc || !eriPending (core s c)) = true) (hv : (core s c).vcount = 0) :
    Leaves (.vstM c ms rs1) s c (retire (core s c)) := by
  have hi : exec (.vstM c ms rs1) s = maskStore c ms rs1 s := exec_vstM ..
  refine leaves_fresh hi hr hp ?_ (coreBecomes_corePut _ _ _) id
  have hskip : maskSkipped false (core s c) = true := by rw [maskSkipped, hv]; rfl
  rw [hskip, if_pos rfl]

/-- A mask store in cacheable regions touches no code word past the cache (R280). -/
theorem maskTouched_cacheable {a : Nat} (hend : a + 64 ≤ 2 ^ 64) (hc : ∀ k < 64, cacheable x c (a + k) = true) :
    maskTouched c x a = [] := by
  unfold maskTouched
  refine List.foldlRecOn (motive := (· = [])) _ _ rfl fun m hm k hk => ?_
  have hk' := List.mem_range.1 hk
  rw [Nat.mod_eq_of_lt (by omega), wordMemory_of_cacheable (hc k hk'), if_neg Bool.false_ne_true, hm]

/-- Lines that are dirty need no fill before a mask store. -/
theorem maskFill_dirty {a : Nat} (hend : a + 64 ≤ 2 ^ 64) (hlow : dirtyAt s c a = true) (hhigh : dirtyAt s c (a + 32) = true) :
    maskFill c x a s = (.ok, s) := by
  have hnext : (a + 32) % 2 ^ 64 = a + 32 := Nat.mod_eq_of_lt (by omega)
  simp only [maskFill, hnext, hlow, hhigh, Bool.not_true, Bool.and_false, Bool.false_eq_true, if_false]

/-- The lines after both halves of a mask register are stored at `a`. -/
def maskLines (a v : Nat) (ls : List Line) : List Line :=
  (ls.map (storedLine a (leBytes 32 (v % 2 ^ 256)))).map (storedLine (a + 32) (leBytes 32 (v / 2 ^ 256)))

/-- VST.M to dirty lines. -/
theorem leaves_vstM {ms : Fin 8} {rs1 : Fin 32} {a : Nat} (hr : Ready s c)
    (hp : ((core s c).exc || !eriPending (core s c)) = true) (hx : core s c = x) (haddr : (getS x rs1).toNat = a)
    (hheld : storeHeld x = false) (hv : x.vcount ≠ 0) (ha : a % 32 = 0) (hend : a + 64 ≤ 2 ^ 64)
    (hc : ∀ k < 64, cacheable x c (a + k) = true) (hlow : dirtyAt s c a = true) (hhigh : dirtyAt s c (a + 32) = true) :
    Leaves (.vstM c ms rs1) s c (retire { x with dcache := maskLines a x.m[ms].toNat x.dcache }) := by
  have hi : exec (.vstM c ms rs1) s = maskStore c ms rs1 s := exec_vstM ..
  have hnext : (a + 32) % 2 ^ 64 = a + 32 := Nat.mod_eq_of_lt (by omega)
  have hclow : cacheable x c a = true := hc 0 (by decide)
  have hchigh : cacheable x c (a + 32) = true := hc 32 (by decide)
  have hpart : partWord ([] : Sparse WordPart) = none := rfl
  have hfirst := coreBecomes_lineStore s c a (leBytes 32 (x.m[ms].toNat % 2 ^ 256))
  have hsecond := coreBecomes_lineStore (lineStore c a (leBytes 32 (x.m[ms].toNat % 2 ^ 256)) s) c (a + 32)
    (leBytes 32 (x.m[ms].toNat / 2 ^ 256))
  have hhigh' : dirtyAt (lineStore c a (leBytes 32 (x.m[ms].toNat % 2 ^ 256)) s) c (a + 32) = true := by
    rw [dirtyAt, hfirst.1]
    exact dirtyIn_storedLine hhigh
  have hboth := hfirst.trans hsecond
  rw [hfirst.1, hx] at hboth
  refine leaves_fresh hi hr hp ?_ (hboth.trans (coreBecomes_corePut _ _ _)) fun he => by rw [← hx]; exact he
  simp only [hx, haddr, maskSkipped_fresh hv, Bool.false_eq_true, if_false, maskTouched_cacheable hend hc, hpart,
    maskFault_cacheable true ha hend hclow hchigh, hheld, maskFill_dirty hend hlow hhigh,
    elemStore_dirty hclow hlow, hnext, elemStore_dirty hchigh hhigh', writeParts, hboth.1]
  rfl

end

/-- The bytes of the low half of a mask register are bytes of the register. -/
theorem ofNat_mod_div {v j : Nat} (h : j < 32) :
    BitVec.ofNat 8 (v % 2 ^ 256 / 256 ^ j) = BitVec.ofNat 8 (v / 256 ^ j) := by
  have hpow : 2 ^ 256 = 256 ^ j * 256 ^ (32 - j) := by
    rw [← pow_add, Nat.add_sub_cancel' h.le]
    norm_num
  have hdvd : 256 ∣ 256 ^ (32 - j) := dvd_pow_self 256 (by omega)
  apply BitVec.eq_of_toNat_eq
  rw [BitVec.toNat_ofNat, BitVec.toNat_ofNat, hpow, Nat.mod_mul_right_div_self]
  exact Nat.mod_mod_of_dvd _ hdvd

/-- Each byte of the cache after a mask register of 64 bytes is stored. -/
theorem byteIn_maskLines {ls : List Line} {a v : Nat} (hls : FullLines ls) (ha : a % 32 = 0) (b : Nat) :
    byteIn (maskLines a v ls) b = match if a ≤ b ∧ b < a + 64 then some (BitVec.ofNat 8 (v / 256 ^ (b - a))) else none with
      | some w => (byteIn ls b).map fun _ => w
      | none => byteIn ls b := by
  have hlow : a % 64 + (leBytes 32 (v % 2 ^ 256)).length ≤ 64 := by rw [length_leBytes]; omega
  have hhigh : (a + 32) % 64 + (leBytes 32 (v / 2 ^ 256)).length ≤ 64 := by rw [length_leBytes]; omega
  rw [maskLines, byteIn_storedLine (fullLines_storedLine hls hlow) hhigh, byteIn_storedLine hls hlow, length_leBytes,
    length_leBytes]
  by_cases h1 : a + 32 ≤ b ∧ b < a + 32 + 32
  · have hbyte : v / 2 ^ 256 / 256 ^ (b - (a + 32)) = v / 256 ^ (b - a) := by
      have hsum : b - a = 32 + (b - (a + 32)) := by omega
      rw [hsum, pow_add, ← Nat.div_div_eq_div_mul]
      norm_num
    rw [if_pos h1, if_neg (by omega), if_pos (by omega), getD_leBytes _ _ _ (by omega), hbyte]
  · rw [if_neg h1]
    by_cases h2 : a ≤ b ∧ b < a + 32
    · rw [if_pos h2, if_pos (by omega), getD_leBytes _ _ _ (by omega), ofNat_mod_div (by omega)]
    · rw [if_neg h2, if_neg (by omega)]

theorem ew_div_eight_dvd {h : Shape} (hew : h.ew = ewOf h.et) : h.ew / 8 ∣ 64 := by
  rw [hew]
  unfold ewOf
  split_ifs <;> decide

/-- An aligned element lies in one line. -/
theorem aligned_fits {n a : Nat} (hn : n ∣ 64) (ha : a % n = 0) : a % 64 + n ≤ 64 := by
  obtain ⟨q, hq⟩ := (Nat.dvd_mod_iff hn).2 (Nat.dvd_of_mod_eq_zero ha)
  obtain ⟨m, hm⟩ := hn
  have hlt : n * q < n * m := by
    rw [← hq, ← hm]
    exact Nat.mod_lt _ (by decide)
  calc a % 64 + n = n * (q + 1) := by rw [hq, Nat.mul_succ]
    _ ≤ n * m := Nat.mul_le_mul_left n (Nat.lt_of_mul_lt_mul_left hlt)
    _ = 64 := hm.symm

theorem vectorStores : Claims.VectorStores := by
  intro s c f ms hr hp hheld hls x h eb act at_ hit bytesIn stores
  refine ⟨fun hcheck hhit => ?elements, leaves_vstM_empty hr hp,
    fun hv ha hend hc hlow hhigh => ⟨_, leaves_vstM hr hp rfl rfl hheld hv ha hend hc hlow hhigh, byteIn_maskLines hls ha⟩⟩
  case elements =>
    have hfits : ∀ k ∈ (List.range h.count).filter act, at_ k % 64 + eb ≤ 64 := fun k hk => by
      obtain ⟨hk, hact⟩ := List.mem_filter.1 hk
      obtain ⟨ha, -⟩ := hhit k (List.mem_range.1 hk) hact
      exact aligned_fits (ew_div_eight_dvd (ew_shapeOf x)) ha
    refine ⟨_, leaves_vst hr hp rfl rfl hheld hcheck fun k hk hact => hhit k hk hact, fun a => ?_⟩
    have hcovering : ((List.range h.count).filter act).filter (fun k => at_ k ≤ a && a < at_ k + eb) =
        (List.range h.count).filter fun k => act k && at_ k ≤ a && a < at_ k + eb := by
      rw [List.filter_filter]
      congr 1
      funext k
      rw [Bool.and_comm, Bool.and_assoc]
    refine (byteIn_storeLines hls (fun k => length_leBytes _ _) hfits a).trans ?_
    rw [hcovering]
    dsimp only
    cases hlast : ((List.range h.count).filter fun k => act k && at_ k ≤ a && a < at_ k + eb).getLast? with
    | none => rfl
    | some k =>
      have hk := List.mem_of_getLast? hlast
      simp only [List.mem_filter, Bool.and_eq_true, decide_eq_true_eq] at hk
      obtain ⟨-, ⟨-, hfrom⟩, hto⟩ := hk
      simp only [Option.map_some]
      rw [getD_leBytes _ _ _ (by omega)]
      rfl

/-- Settles O36: the loads from good lines and the stores to dirty lines, element by element. -/
theorem vectorLoadsAndStores : Obligations.VectorLoadsAndStores := ⟨vectorLoads, vectorStores⟩

end Sys2Proof.Machine
end

section
/-!
SUPPORT. The operands and shapes that the vector arithmetic refuses, and the traps of vector memory accesses
(07_vector.md, R265 to R267, R276, R280, R283, R286).
-/
namespace Sys2Proof.Machine
open Sys2Proof

/-! ### Arithmetic -/

section
variable {i : Instr} {s : State} {c : Fin 96} {f : VArith} {types : Nat → Bool} {kind : VKind} {shift : Bool}
  {op : Shape → Nat → Nat → Nat → Nat × Nat} {h : Shape}
  (hi : exec i s = vArith c f types kind shift op s) (hr : Ready s c) (he : (core s c).exc = false)
  (hh : shapeOf (core s c) = h)
include hi hr he hh

/-- A type or a group that is not allowed (R266, R267). -/
theorem traps_vArith_shape (hbad : types h.et = false ∨ 8 < wide (kind == .widen) h.grp ∨ 8 < wide (kind == .narrow) h.grp) :
    Traps i s c 0x10 0 := by
  refine traps_onCore hi hr he ?_
  dsimp only
  rw [shapeOf_begun, hh]
  refine if_pos ?_
  cases kind <;> simpa [wide, or_assoc] using hbad

/-- A register that is no multiple of its group, or a widening destination that overlaps a source (R265). -/
theorem traps_vArith_register (ht : types h.et = true) (hd : wide (kind == .widen) h.grp ≤ 8)
    (hs : wide (kind == .narrow) h.grp ≤ 8)
    (hbad : f.vd.val % wide (kind == .widen) h.grp ≠ 0 ∨ f.vs1.val % wide (kind == .narrow) h.grp ≠ 0 ∨
      secondOk f.b h.grp = false ∨ (kind = .widen ∧ (overlaps f.vs1 h.grp f.vd (2 * h.grp) = true ∨
        secondOver f.b h.grp f.vd (2 * h.grp) = true))) : Traps i s c 0x11 0 := by
  refine traps_onCore hi hr he ?_
  dsimp only
  rw [shapeOf_begun, hh]
  refine (if_neg ?_).trans (if_pos ?_)
  · cases kind <;> simp_all [wide]
  · cases kind <;> simpa [wide, or_assoc] using hbad

end

theorem vectorOperandTraps : Claims.VectorOperandTraps := by
  intro s c f hr he h traps
  have het : h.et < 8 := et_shapeOf_lt _
  have refused : ∀ {i : Instr} {types kind shift op} {list : List Nat} {dest src : Nat},
      exec i s = vArith c f types kind shift op s → (∀ t < 8, types t = decide (t ∈ list)) →
      (∀ n, wide (kind == .widen) n = dest * n) → (∀ n, wide (kind == .narrow) n = src * n) →
      (dest = 2 → kind = .widen) → traps list dest src i := by
    intro i types kind shift op list dest src hi htypes hdest hsrc hwiden
    constructor
    · intro hbad
      refine traps_vArith_shape hi hr he rfl ?_
      rw [htypes _ het, hdest, hsrc, decide_eq_false_iff_not]
      exact hbad
    · intro hmem hd hs hbad
      refine traps_vArith_register hi hr he rfl (by rw [htypes _ het]; exact decide_eq_true hmem) (by rwa [hdest])
        (by rwa [hsrc]) ?_
      rw [hdest, hsrc]
      exact hbad.imp_right (Or.imp_right (Or.imp_right (And.imp_left hwiden)))
  have same : ∀ {i : Instr} {types shift op} {list : List Nat}, exec i s = vArith c f types .same shift op s →
      (∀ t < 8, types t = decide (t ∈ list)) → traps list 1 1 i := fun hi ht =>
    refused hi ht (fun n => (Nat.one_mul n).symm) (fun n => (Nat.one_mul n).symm) (by decide)
  have widen : ∀ {i : Instr} {types shift op} {list : List Nat}, exec i s = vArith c f types .widen shift op s →
      (∀ t < 8, types t = decide (t ∈ list)) → traps list 2 1 i := fun hi ht =>
    refused hi ht (fun n => rfl) (fun n => (Nat.one_mul n).symm) fun _ => rfl
  have narrow : ∀ {i : Instr} {types shift op} {list : List Nat}, exec i s = vArith c f types .narrow shift op s →
      (∀ t < 8, types t = decide (t ∈ list)) → traps list 1 2 i := fun hi ht =>
    refused hi ht (fun n => (Nat.one_mul n).symm) (fun n => rfl) (by decide)
  have hall : ∀ {p : Instr → Prop} {i : Instr} {l : List Instr}, p i → (∀ j ∈ l, p j) → ∀ j ∈ i :: l, p j :=
    fun hi hl => List.forall_mem_cons.2 ⟨hi, hl⟩
  have hnil : ∀ {p : Instr → Prop}, ∀ j ∈ [], p j := fun {p} => List.forall_mem_nil p
  have estimate : ∀ {i : Instr} {op : Shape → Nat → Nat × Nat}, exec i s = vEstimate c f op s → noSecond f.b = true →
      exec i s = vArith c f (fun t => t == 6) .same false (fun h _ a _ => op h a) s :=
    fun hi hn => hi.trans (if_pos hn)
  have illegal : ∀ {i : Instr} {op : Shape → Nat → Nat × Nat}, exec i s = vEstimate c f op s → noSecond f.b = false →
      Traps i s c 0x01 0 := fun hi hn =>
    traps_onCore (f := fun _ s => exception c exILLEGAL 0 s) (hi.trans (if_neg (by rw [hn]; decide))) hr he rfl
  refine ⟨hall (same (exec_vadd ..) ?_) (hall (same (exec_vsub ..) ?_) (hall (same (exec_vadds ..) ?_)
      (hall (same (exec_vsubs ..) ?_) hnil))),
    hall (same (exec_vand ..) ?_) (hall (same (exec_vor ..) ?_) (hall (same (exec_vxor ..) ?_) hnil)),
    hall (same (exec_vmin ..) ?_) (hall (same (exec_vmax ..) ?_) (hall (same (exec_vminu ..) ?_)
      (hall (same (exec_vmaxu ..) ?_) (hall (same (exec_vsll ..) ?_) (hall (same (exec_vsrl ..) ?_)
      (hall (same (exec_vsra ..) ?_) (hall (same (exec_vmul ..) ?_) hnil))))))),
    hall (narrow (exec_vnsra ..) ?_) (hall (narrow (exec_vnsras ..) ?_) hnil), same (exec_vmulq ..) ?_,
    hall (widen (exec_vmacw ..) ?_) (hall (widen (exec_vmsuw ..) ?_) hnil),
    hall (widen (exec_vcmulw ..) ?_) (hall (widen (exec_vcmacw ..) ?_) (hall (widen (exec_vcmacjw ..) ?_) hnil)),
    same (exec_vcmulq ..) ?_,
    hall (same (exec_vfadd ..) ?_) (hall (same (exec_vfsub ..) ?_) (hall (same (exec_vfmul ..) ?_)
      (hall (same (exec_vfma ..) ?_) hnil))),
    hall (same (exec_vfmin ..) ?_) (hall (same (exec_vfmax ..) ?_) (hall (same (exec_vfcvtI ..) ?_)
      (hall (same (exec_vfcvtF ..) ?_) hnil))),
    fun hn => ⟨same (estimate (exec_vfrece ..) hn) ?_, same (estimate (exec_vfrsqe ..) hn) ?_⟩,
    fun hn => ⟨illegal (exec_vfrece ..) hn, illegal (exec_vfrsqe ..) hn⟩⟩
  all_goals decide

end Sys2Proof.Machine
end

section
/-!
SUPPORT. The traps of vector memory accesses (07_vector.md, Encodings; R266, R276, R280, R283, R286).
-/
namespace Sys2Proof.Machine
open Sys2Proof

/-! ### A group of registers put back as it was -/

/-- A number put together from digits, its lowest digit first. -/
theorem foldr_digits_succ (base : Nat) (digit : Nat → Nat) (r n : Nat) :
    (List.range (n + 1)).foldr (fun k acc => digit (r + k) + base * acc) 0 =
      digit r + base * (List.range n).foldr (fun k acc => digit (r + 1 + k) + base * acc) 0 := by
  have hshift : ∀ k, r + Nat.succ k = r + 1 + k := fun k => by omega
  rw [List.range_succ_eq_map, List.foldr_cons, List.foldr_map]
  refine congrArg (fun g => digit r + base * g) (congrArg (List.foldr · 0 (List.range n)) (funext fun k => ?_))
  rw [hshift]

theorem getGroup_succ (x : Core) (r n : Nat) :
    getGroup x r (n + 1) = (x.v.toArray.getD r 0).toNat + 2 ^ 512 * getGroup x (r + 1) n :=
  foldr_digits_succ (2 ^ 512) (fun k => (x.v.toArray.getD k 0).toNat) r n

/-- The lowest digit of a number, and the rest. -/
theorem digit_split {b low : Nat} (rest : Nat) (h : low < b) :
    (low + b * rest) % b = low ∧ (low + b * rest) / b = rest := by
  rw [Nat.add_mul_mod_self_left, Nat.add_mul_div_left _ _ (Nat.zero_lt_of_lt h), Nat.div_eq_of_lt h, Nat.zero_add]
  exact ⟨Nat.mod_eq_of_lt h, rfl⟩

/-- A register set to the value it holds. -/
theorem setIfInBounds_self (v : Vector (BitVec 512) 32) (r : Nat) : v.setIfInBounds r (v.toArray.getD r 0) = v := by
  ext j hj
  rw [Vector.getElem_setIfInBounds]
  split
  · next h => subst h; simp [Array.getD, hj]
  · rfl

theorem putGroup_getGroup (x : Core) (r n : Nat) : putGroup r (getGroup x r n) n x = x := by
  induction n generalizing r with
  | zero => rfl
  | succ n ih =>
    obtain ⟨hmod, hdiv⟩ := digit_split (getGroup x (r + 1) n) (x.v.toArray.getD r 0).isLt
    have hlow : BitVec.ofNat 512 (getGroup x r (n + 1)) = x.v.toArray.getD r 0 := by
      apply BitVec.eq_of_toNat_eq
      rw [BitVec.toNat_ofNat, getGroup_succ, hmod]
    have hhigh : getGroup x r (n + 1) / 2 ^ 512 = getGroup x (r + 1) n := by rw [getGroup_succ, hdiv]
    rw [putGroup, hlow, hhigh, setIfInBounds_self]
    exact ih (r + 1)

/-- The low elements of a group, put together again. -/
theorem fromElems_elemAt (w g n : Nat) : fromElems w ((List.range n).map (elemAt g w)) = g % 2 ^ (w * n) := by
  induction n generalizing g with
  | zero => simp [fromElems, Nat.mod_one]
  | succ n ih =>
    have hnext : ∀ k, elemAt g w (k + 1) = elemAt (g / 2 ^ w) w k := fun k => by
      rw [elemAt, elemAt, Nat.mul_succ, Nat.add_comm (w * k), pow_add, Nat.div_div_eq_div_mul]
    have hrest : fromElems w ((List.range n).map fun k => elemAt (g / 2 ^ w) w k) = g / 2 ^ w % 2 ^ (w * n) := ih _
    have hfirst : elemAt g w 0 % 2 ^ w = g % 2 ^ w := by simp [elemAt]
    rw [List.range_succ_eq_map, List.map_cons, List.map_map]
    have hcons : ∀ e es, fromElems w (e :: es) = e % 2 ^ w + 2 ^ w * fromElems w es := fun e es => rfl
    have hcomp : elemAt g w ∘ Nat.succ = fun k => elemAt (g / 2 ^ w) w k := funext hnext
    rw [hcons, hfirst, hcomp, hrest, Nat.mul_succ, Nat.add_comm (w * n), pow_add, Nat.mod_mul]

/-- A load cut short at its first element leaves its destination (R283). -/
theorem vLoaded_none (h : Shape) (old : Nat) : vLoaded h old 0 [] false = old := by
  have hall : vLoaded h old 0 [] false = fromElems h.ew ((List.range h.vlmax).map (elemAt old h.ew)) +
      old / 2 ^ (h.ew * h.vlmax) * 2 ^ (h.ew * h.vlmax) := rfl
  rw [hall, fromElems_elemAt, Nat.mod_add_div']

/-! ### Faults of element 0 -/

theorem endInstr_pending {c : Nat} {x : Core} {t : State} (h : eriPending (core t c) = true) : endInstr c x t = t := by
  refine if_neg ?_
  rw [h, Bool.not_true, Bool.and_false]
  exact Bool.false_ne_true

theorem eriPending_armed {x : Core} (h : x.eri = BitVec.ofNat 64 (2 ^ 63)) : eriPending x = true := by
  rw [eriPending, h]
  decide

/-- An instruction that faults at element 0, with no resume pending: ERI is armed and the handler entered (R283). -/
theorem leaves_fault {i : Instr} {s t : State} {c : Fin 96} {f : Bool → Core → State → Bool × State} {x : Core}
    {code a : Nat} (hi : exec i s = onCoreR c f s) (hr : Ready s c) (he : x.exc = false) (hp : eriPending x = false)
    (hx : core s c = x) (hf : f false x s = (true, vFault c 0 code a t)) (ht : CoreBecomes c x s t) :
    Leaves i s c (enterHandler { x with eri := BitVec.ofNat 64 (2 ^ 63) } x.pc (BitVec.ofNat 64 code) (BitVec.ofNat 64 a)) := by
  have hfresh : ((core s c).exc || !eriPending (core s c)) = true := by rw [hx, hp, Bool.not_false, Bool.or_true]
  have hfault : CoreBecomes c (enterHandler { x with eri := BitVec.ofNat 64 (2 ^ 63) } x.pc (BitVec.ofNat 64 code)
      (BitVec.ofNat 64 a)) s (vFault c 0 code a t) := by
    have harmed := ht.trans (coreBecomes_corePut c { core t c with eri := BitVec.ofNat 64 (2 ^ 63 + 0) } t)
    rw [vFault, exception, harmed.1, ht.1]
    rw [ht.1] at harmed
    rw [if_neg (by rw [he]; exact Bool.false_ne_true)]
    exact harmed.trans (coreBecomes_corePut _ _ _)
  refine effect_onCoreR hi hr (t := vFault c 0 code a t) ?_ ?_
  · rw [hx, hp, Bool.and_false, ← hx, begun_fresh hfresh, beginInstr_fresh hfresh, hx, hf]
  · rw [endInstr_pending]
    · exact hfault
    · rw [hfault.1]
      exact eriPending_armed rfl

section
variable {s : State} {c : Fin 96} {x : Core} {h : Shape} {f : VMem} {code : Nat}

/-- A load whose element 0 faults by its address. -/
theorem leaves_vLoad_fault {i : Instr} {ff : Bool} (hi : exec i s = vLoad c f ff s) (hr : Ready s c) (he : x.exc = false)
    (hp : eriPending x = false) (hx : core s c = x) (hh : shapeOf x = h) (hff : (ff && f.men) = false)
    (hcheck : vMemCheck h f true = none) (hcount : 0 < h.count) (hact : activeAt x f.men f.msel 0 = true)
    (hfault : elemFault false (vAddr x h f 0) (h.ew / 8) = some code) :
    Leaves i s c (enterHandler { x with eri := BitVec.ofNat 64 (2 ^ 63) } x.pc (BitVec.ofNat 64 code)
      (BitVec.ofNat 64 (vAddr x h f 0))) := by
  obtain ⟨n, hn⟩ := Nat.exists_eq_succ_of_ne_zero hcount.ne'
  have hstart : (if ff then 0 else vStart false x) = 0 := by cases ff <;> rfl
  have hload : vLoadFrom c x h f 0 h.count s = ([], .fault code, s) := by
    rw [hn, vLoadFrom, hact, hfault]
    rfl
  refine leaves_fault hi hr he hp hx ?_ (coreBecomes_corePut c x s)
  simp only [hh, hff, Bool.false_eq_true, if_false, hcheck, hstart, false_and, Nat.sub_zero, hload, vLoaded_none,
    List.length_nil, Nat.add_zero, ne_eq, not_true_eq_false, and_false, hx, putGroup_getGroup]

/-- A store whose element 0 faults by its address, before it reaches memory. -/
theorem leaves_vst_fault (hr : Ready s c) (he : x.exc = false) (hp : eriPending x = false) (hx : core s c = x)
    (hh : shapeOf x = h) (hcheck : vMemCheck h f false = none) (hcount : 0 < h.count)
    (hwords : ∀ k < h.count, activeAt x f.men f.msel k = true → wordMemory x c (vAddr x h f k) = false)
    (hheld : storeHeld x = false) (hact : activeAt x f.men f.msel 0 = true)
    (hfault : elemFault true (vAddr x h f 0) (h.ew / 8) = some code) :
    Leaves (.vst c f) s c (enterHandler { x with eri := BitVec.ofNat 64 (2 ^ 63) } x.pc (BitVec.ofNat 64 code)
      (BitVec.ofNat 64 (vAddr x h f 0))) := by
  have hi : exec (.vst c f) s = vStore c f s := exec_vst ..
  obtain ⟨n, hn⟩ := Nat.exists_eq_succ_of_ne_zero hcount.ne'
  have htouched : touched c x h f 0 h.count = [] := touched_cacheable h.count 0 fun k _ hk => hwords k (by omega)
  have hstore : vStoreFrom c x h f (getGroup x f.v h.grp) 0 h.count [] s = (.fault code, 0, [], s) := by
    rw [hn, vStoreFrom, hact, hfault]
    rfl
  have hpart : partWord ([] : Sparse WordPart) = none := rfl
  refine leaves_fault hi hr he hp hx ?_ (hx ▸ coreBecomes_refl c s)
  simp only [hh, hcheck, vStart, Bool.false_eq_true, if_false, false_and, Nat.sub_zero, htouched, hpart, hheld, hstore,
    writeParts]

/-! ### Checks before any element -/

theorem traps_vLoad_check {i : Instr} {ff : Bool} (hi : exec i s = vLoad c f ff s) (hr : Ready s c)
    (he : (core s c).exc = false) (hff : (ff && f.men) = false)
    (hcheck : vMemCheck (shapeOf (core s c)) f true = some code) : Traps i s c code 0 := by
  refine traps_onCoreR hi hr he ?_
  simp only [hff, shapeOf_begun, hcheck, Bool.false_eq_true, if_false]

theorem traps_vldff_masked (hr : Ready s c) (he : (core s c).exc = false) (hmen : f.men = true) :
    Traps (.vldff c f) s c 0x01 0 := by
  have hi : exec (.vldff c f) s = vLoad c f true s := exec_vldff ..
  refine traps_onCoreR hi hr he ?_
  rw [hmen]
  rfl

theorem traps_vst_check (hr : Ready s c) (he : (core s c).exc = false)
    (hcheck : vMemCheck (shapeOf (core s c)) f false = some code) : Traps (.vst c f) s c code 0 := by
  have hi : exec (.vst c f) s = vStore c f s := exec_vst ..
  refine traps_onCoreR hi hr he ?_
  simp only [shapeOf_begun, hcheck]

end

/-! ### Mask stores that would write part of a code word -/

/-- The lowest code word of a table is `w`, and its byte 0 is not written. -/
def FirstPartial (w : Nat) (m : Sparse WordPart) : Prop := ∃ p r, m = (w, p) :: r ∧ p.1 % 2 = 0

theorem FirstPartial.partWord {w : Nat} {m : Sparse WordPart} (h : FirstPartial w m) : partWord m = some w := by
  obtain ⟨p, r, rfl, hp⟩ := h
  have hpart : (p.1 != 2 ^ 32 - 1) = true := by
    rw [bne_iff_ne]
    intro hfull
    rw [hfull] at hp
    exact absurd hp (by decide)
  rw [Machine.partWord, List.find?_cons, hpart]
  rfl

/-- A byte other than byte 0 joins a word. -/
theorem lor_even {p j : Nat} (hp : p % 2 = 0) (hj : 0 < j) : Nat.lor p (2 ^ j) % 2 = 0 := by
  have hpow : 2 ^ j % 2 = 0 := Nat.mod_eq_zero_of_dvd (dvd_pow_self 2 hj.ne')
  change (p ||| 2 ^ j) % 2 ^ 1 = 0
  rw [Nat.or_mod_two_pow]
  simp [hp, hpow]

theorem firstPartial_single {b : Nat} (hb : 0 < b % 32) : FirstPartial (wordOf b) (putPart b 0 1 []) :=
  ⟨_, [], rfl, lor_even rfl hb⟩

theorem FirstPartial.putPart {w b : Nat} {m : Sparse WordPart} (h : FirstPartial w m) (hw : w ≤ wordOf b)
    (hb : wordOf b = w → 0 < b % 32) : FirstPartial w (putPart b 0 1 m) := by
  obtain ⟨p, r, rfl, hp⟩ := h
  by_cases hsame : wordOf b = w
  · have hget : spGet (0, 0) ((w, p) :: r) (wordOf b) = p := by simp [spGet, spFind, hsame]
    have hput : Machine.putPart b 0 1 ((w, p) :: r) =
        (w, (Nat.lor p.1 (2 ^ (b % 32)), setBits p.2 (8 * (b % 32) + 7) (8 * (b % 32)) (0 % 256))) :: r := by
      rw [Machine.putPart, Machine.putPart, hget, hsame, spPut, if_neg (lt_irrefl w), if_pos rfl]
    exact ⟨_, r, hput, lor_even hp (hb hsame)⟩
  · have hput : ∃ r', Machine.putPart b 0 1 ((w, p) :: r) = (w, p) :: r' := by
      rw [Machine.putPart, Machine.putPart, spPut, if_neg (Nat.not_lt.2 hw), if_neg hsame]
      exact ⟨_, rfl⟩
    obtain ⟨r', hr'⟩ := hput
    exact ⟨p, r', hr', hp⟩

/-- The words of a mask store at an address that is not a multiple of 32: it would write the first one in part. -/
theorem firstPartial_range {a : Nat} (ha : a % 32 ≠ 0) (n : Nat) :
    FirstPartial (wordOf a) ((List.range (n + 1)).foldl (fun m k => putPart (a + k) 0 1 m) []) := by
  induction n with
  | zero => exact firstPartial_single (Nat.pos_of_ne_zero ha)
  | succ n ih =>
    rw [List.range_succ, List.foldl_append]
    exact ih.putPart (by unfold wordOf; omega) (by unfold wordOf; omega)

theorem partWord_maskTouched {c a : Nat} {x : Core} (ha : a % 32 ≠ 0) (hend : a + 64 ≤ 2 ^ 64)
    (hwords : ∀ k < 64, wordMemory x c (a + k) = true) : partWord (maskTouched c x a) = some (a / 32 * 32) := by
  have hall : maskTouched c x a = (List.range 64).foldl (fun m k => putPart (a + k) 0 1 m) [] := by
    unfold maskTouched
    refine List.foldl_ext _ _ _ fun m k hk => ?_
    have hk' := List.mem_range.1 hk
    rw [Nat.mod_eq_of_lt (by omega), if_pos (hwords k hk')]
  rw [hall]
  exact (firstPartial_range ha 63).partWord

/-- A mask store past the cache at an address that is not a multiple of 32 (R280). -/
theorem traps_vstM_narrow {s : State} {c : Fin 96} {ms : Fin 8} {rs1 : Fin 32} {a : Nat} (hr : Ready s c)
    (he : (core s c).exc = false) (hp : eriPending (core s c) = false) (haddr : (getS (core s c) rs1).toNat = a)
    (hv : (core s c).vcount ≠ 0) (ha : a % 32 ≠ 0) (hend : a + 64 ≤ 2 ^ 64)
    (hwords : ∀ k < 64, wordMemory (core s c) c (a + k) = true) : Traps (.vstM c ms rs1) s c 0x05 (a / 32 * 32) := by
  have hi : exec (.vstM c ms rs1) s = maskStore c ms rs1 s := exec_vstM ..
  have hfresh : ((core s c).exc || !eriPending (core s c)) = true := by rw [hp, Bool.not_false, Bool.or_true]
  refine traps_onCoreR hi hr he ?_
  rw [hp, Bool.and_false, begun_fresh hfresh]
  simp only [haddr, maskSkipped_fresh hv, Bool.false_eq_true, if_false, partWord_maskTouched ha hend hwords]

theorem vectorMemoryTraps : Claims.VectorMemoryTraps := by
  intro s c f ms hr he x h a e faults
  refine ⟨traps_vldff_masked hr he, fun hp hv ha hend hwords => traps_vstM_narrow hr he hp rfl hv ha hend hwords,
    fun hmode => ?illegal, fun hmode hv => ?register, fun hmode hv hmen hcount hp ha => ?misaligned⟩
  case illegal =>
    have hcheck : ∀ load, vMemCheck h f load = some exILLEGAL := fun load => by rw [vMemCheck, hmode]
    refine ⟨traps_vLoad_check (exec_vld c f s) hr he rfl (hcheck true), ?_, traps_vst_check hr he (hcheck false)⟩
    cases hmen : f.men with
    | true => exact traps_vldff_masked hr he hmen
    | false => exact traps_vLoad_check (exec_vldff c f s) hr he (by rw [hmen]; rfl) (hcheck true)
  case register =>
    have hcheck : ∀ load, vMemCheck h f load = some exVREG := fun load => by rw [vMemCheck, hmode]; exact if_pos hv
    exact ⟨traps_vLoad_check (exec_vld c f s) hr he rfl (hcheck true), traps_vst_check hr he (hcheck false)⟩
  case misaligned =>
    have hcheck : ∀ load, vMemCheck h f load = none := fun load => by
      rw [vMemCheck, hmode]
      exact if_neg (not_not.2 hv)
    have haddr : vAddr x h f 0 = a := by
      rw [vAddr, hmode]
      dsimp only
      rw [Nat.zero_mul, Nat.add_zero, Nat.mod_eq_of_lt (BitVec.isLt _)]
    have hact : activeAt x f.men f.msel 0 = true := by rw [activeAt, hmen]; rfl
    have hfault : ∀ store, elemFault store (vAddr x h f 0) (h.ew / 8) = some exMISALIGNED := fun store => by
      rw [haddr]
      exact if_pos ha
    have hload : ∀ {i : Instr} {ff : Bool}, exec i s = vLoad c f ff s → faults i := fun hi => by
      have hleaves := leaves_vLoad_fault hi hr he hp rfl rfl (by rw [hmen, Bool.and_false]) (hcheck true) hcount hact
        (hfault false)
      rwa [haddr] at hleaves
    refine ⟨hload (exec_vld ..), hload (exec_vldff ..), fun _ hnothing hheld => ?_⟩
    have hwords : ∀ k < h.count, activeAt x f.men f.msel k = true → wordMemory x c (vAddr x h f k) = false :=
      fun k hk _ => by rw [wordMemory, hnothing k hk]
    have hleaves := leaves_vst_fault hr he hp rfl rfl (hcheck false) hcount hwords hheld hact (hfault true)
    rwa [haddr] at hleaves

/-- Settles O31: the checks of the arithmetic by type, group and register, and those of memory accesses by mode, register
and address. -/
theorem vectorTraps : Obligations.VectorTraps := ⟨vectorOperandTraps, vectorMemoryTraps⟩

end Sys2Proof.Machine
end

section
/-!
SUPPORT. Branches and jumps, and what a branch may squash on the path it does not take (06_crew_cores.md, Loads, stores and
control transfer; 08_coprocessors.md, R288 and R290).
-/
namespace Sys2Proof.Machine
open Sys2Proof

/-! ### A branch resolved -/

section
variable {s : State} {c : Nat} {a : BitVec 48} {e : Nat} {d : CopCmd}

theorem squash_of_none (h : specIssue s c a = none) : squash c a s = s := by rw [squash, h]

/-- A command that may have been issued and squashed counts for its core at most, and stands in its queue at most. -/
theorem squash_of_some (h : specIssue s c a = some (e, d)) :
    (core (squash c a s) c = core s c ∨ core (squash c a s) c = { core s c with cpGen := d.gen }) ∧
    (∀ j, j ≠ c → core (squash c a s) j = core s j) ∧
    { squash c a s with cores := s.cores, cops := s.cops, free := s.free } = s := by
  rw [squash, h]
  dsimp only
  split
  · exact ⟨.inl rfl, fun _ _ => rfl, rfl⟩
  · exact ⟨.inr (core_corePut_same ..), fun _ hj => core_corePut_ne _ _ hj, rfl⟩

end

/-- The core past a branch: at its target where it is taken, else at the next word. -/
def pastBranch (p : Prop) [Decidable p] (target : BitVec 48) (x : Core) : Core := if p then jumpTo x target else retire x

section
variable (p : Prop) [Decidable p] (target : BitVec 48) (x : Core)

@[simp] theorem exc_pastBranch : (pastBranch p target x).exc = x.exc := by unfold pastBranch; split <;> rfl

theorem pastBranch_cpGen (g : Nat) :
    pastBranch p target { x with cpGen := g } = { pastBranch p target x with cpGen := g } := by
  unfold pastBranch
  split <;> rfl

theorem branchTo_eq (c : Nat) (s : State) : branchTo c (decide p) target s =
    corePut c (pastBranch p target (core (squash c (if p then (core s c).pc + 4 else target) s) c))
      (squash c (if p then (core s c).pc + 4 else target) s) := by
  simp only [branchTo, pastBranch, decide_eq_true_eq]

end

/-- The beginning of an instruction changes nothing but its core, whatever becomes of the coprocessors' queues. -/
theorem beginInstr_rest_cops (c : Nat) (s : State) : { beginInstr c s with cores := s.cores, cops := s.cops } = s := by
  rw [← beginInstr_cops c s]
  exact (coreBecomes_beginInstr c s).2.2

/-- What a branch that is taken where `p` holds does: its core goes on, and nothing else changes, but for what a CPISS first
on the other path leaves open (R290). -/
def BranchesOn (i : Instr) (s : State) (c : Fin 96) (p : Prop) [Decidable p] (target : BitVec 48) : Prop :=
  let x := begun (core s c)
  let went := pastBranch p target x
  let spec := specIssue (beginInstr c s) c (if p then x.pc + 4 else target)
  (spec = none → Leaves i s c went) ∧
  (∀ e d, spec = some (e, d) → Effect i s fun u => (core u c = went ∨ core u c = { went with cpGen := d.gen }) ∧
    (∀ j, j ≠ c.val → core u j = core s j) ∧ { u with cores := s.cores, cops := s.cops, free := s.free } = s)

theorem branchesOn_onCore {i : Instr} {c : Fin 96} {f : Core → State → State} {s : State} {p : Prop} [Decidable p]
    {target : BitVec 48} (hi : exec i s = onCore c f s) (h : Ready s c)
    (hf : f (begun (core s c)) (beginInstr c s) = branchTo c (decide p) target (beginInstr c s)) :
    BranchesOn i s c p target := by
  rw [branchTo_eq, core_beginInstr] at hf
  refine ⟨fun hspec => ?_, fun e d hspec => ?_⟩
  · rw [squash_of_none hspec, core_beginInstr] at hf
    exact effect_onCore hi h hf fun he => by rw [exc_pastBranch, begun_exc, he]
  · obtain ⟨hcore, hothers, hrest⟩ := squash_of_some hspec
    generalize squash c (if p then (begun (core s c)).pc + 4 else target) (beginInstr c s) = t at hf hcore hothers hrest
    rw [core_beginInstr] at hcore
    have hexc : (core t c).exc = (core s c).exc := by rcases hcore with hx | hx <;> rw [hx] <;> exact begun_exc _
    refine effect_onCore_of hi h hf ?_ ⟨?_, fun j hj => ?_, ?_⟩
    · rw [core_corePut_same, exc_pastBranch, hexc]
    · rw [core_corePut_same]
      exact hcore.imp (congrArg _) fun hx => by rw [hx, pastBranch_cpGen]
    · rw [core_corePut_ne _ _ hj, hothers j hj]
      exact (coreBecomes_beginInstr c s).2.1 j hj
    · calc { corePut c (pastBranch p target (core t c)) t with cores := s.cores, cops := s.cops, free := s.free }
          = { ({ ({ t with cores := (beginInstr c s).cores, cops := (beginInstr c s).cops, free := (beginInstr c s).free } :
              State) with cores := s.cores, cops := s.cops } : State) with free := s.free } := rfl
        _ = s := by rw [hrest, beginInstr_rest_cops]

/-- A branch on two registers. -/
theorem branchesOn_branch {i : Instr} {s : State} {c : Fin 96} {rs1 rs2 : Fin 32} {imm : BitVec 16}
    {p : Word → Word → Bool} {taken : Bool} (hi : exec i s = branch c rs1 rs2 imm p s) (h : Ready s c)
    (hp : p (getS (begun (core s c)) rs1) (getS (begun (core s c)) rs2) = taken) :
    BranchesOn i s c (taken = true) (branchTarget (begun (core s c)) imm) :=
  branchesOn_onCore hi h (by rw [hp, Bool.decide_eq_true])

/-- A jump leaves its core past the transfer, with the return address written where it writes one. -/
theorem leaves_jump {i : Instr} {s : State} {c : Fin 96} {f : Core → State → State} {rd : Fin 32} {v : Word}
    {target : BitVec 48} (hi : exec i s = onCore c f s) (h : Ready s c)
    (hf : f (begun (core s c)) (beginInstr c s) =
      corePut c (jumpTo (setS (begun (core s c)) rd v) target) (beginInstr c s)) :
    Leaves i s c (jumpTo (setS (begun (core s c)) rd v) target) :=
  effect_onCore hi h hf fun he => by rw [exc_jumpTo, exc_setS, begun_exc, he]

/-- Settles O21: the branches by the one way they are resolved, and the jumps, of which J writes no register. -/
theorem branchesAndJumps : Obligations.BranchesAndJumps := by
  intro s c rd rs1 rs2 imm wide h x a b near far ret taken branch
  have hbranch : ∀ {i : Instr} {p : Bool}, BranchesOn i s c (p = true) (branchTarget x imm) → branch i p := fun hb => hb
  refine ⟨hbranch (branchesOn_branch (exec_beq ..) h rfl), hbranch (branchesOn_branch (exec_bne ..) h rfl),
    hbranch (branchesOn_branch (exec_blt ..) h rfl), hbranch (branchesOn_branch (exec_bge ..) h rfl),
    hbranch (branchesOn_branch (exec_bltu ..) h rfl), hbranch (branchesOn_branch (exec_bgeu ..) h rfl),
    leaves_jump (rd := 0) (v := 0) (exec_jmp ..) h rfl, leaves_jump (exec_jal ..) h rfl,
    fun haligned hlow => leaves_jump (exec_jalr ..) h (if_neg ?_)⟩
  rintro (hbad | hhigh)
  · exact hbad haligned
  · exact absurd hlow (Nat.not_lt.2 hhigh)

end Sys2Proof.Machine
end

section
/-!
SUPPORT. The coprocessors of a crew: CPISS and the instructions on tags, the command at the head of a queue, and the
hand-overs of a core (08_coprocessors.md, R288 to R305).
-/
namespace Sys2Proof.Machine
open Sys2Proof

/-! ### Tags and queues -/

@[simp] theorem copQueue_copPut_same (crew e : Nat) (q : List CopCmd) (s : State) :
    copQueue (copPut crew e q s) crew e = q := spGet_spSet_same _ _ _ _

theorem copQueue_corePut (c : Nat) (x : Core) (s : State) (crew e : Nat) :
    copQueue (corePut c x s) crew e = copQueue s crew e := rfl

/-- A core and a queue put in place change nothing else. -/
theorem corePut_copPut_rest (c crew e : Nat) (x : Core) (q : List CopCmd) (s : State) (xs : Sparse Core)
    (qs : Sparse (List CopCmd)) :
    { corePut c x (copPut crew e q s) with cores := xs, cops := qs } = { s with cores := xs, cops := qs } := rfl

/-- A coprocessor's queue is read from the queues alone. -/
theorem copQueue_congr {s t : State} (h : s.cops = t.cops) (crew e : Nat) : copQueue s crew e = copQueue t crew e := by
  rw [copQueue, h, copQueue]

theorem copEngine_congr {s t : State} (h : s.cops = t.cops) (crew unit : Nat) :
    copEngine s crew unit = copEngine t crew unit := by
  simp only [copEngine, copQueue_congr h]

theorem tagOf_freeTag_same (t : Nat) (x : Core) : tagOf (freeTag t x) t = {} := by
  simp [tagOf, freeTag, spGet, spFind_spDel_same]

theorem tagOf_freeTag_ne {t k : Nat} (x : Core) (h : k ≠ t) : tagOf (freeTag t x) k = tagOf x k := by
  simp [tagOf, freeTag, spGet, spFind_spDel_ne _ h]

/-! ### CPISS -/

/-- An instruction that goes through, to a state in which the core has not entered its handler. -/
theorem effect_onCoreR_of {i : Instr} {c : Fin 96} {f : Bool → Core → State → Bool × State} {s t : State}
    {P : State → Prop} (hi : exec i s = onCoreR c f s) (h : Ready s c)
    (hf : f (!(core s c).exc && eriPending (core s c)) (begun (core s c)) (beginInstr c s) = (true, t))
    (he : (core t c).exc = (core s c).exc) (hp : P t) : Effect i s P := by
  refine effect_onCoreR hi h hf ?_
  rwa [endInstr_same fun hx => he.trans hx]

/-- The command in s(4q) to s(4q + 3), issued on a tag with no AFTER wait. -/
def issuedCmd (c tag q : Nat) (x : Core) : CopCmd := { core := c, tag := tag, gen := x.cpGen + 1, data := copBytes x q }

/-- The core that has issued its next command on a tag. -/
def issuing (tag : Nat) (x : Core) : Core :=
  { x with tags := spSet {} x.tags tag { st := .live, gen := x.cpGen + 1 }, cpGen := x.cpGen + 1 }

theorem tagOf_issuing_same (tag : Nat) (x : Core) : tagOf (issuing tag x) tag = { st := .live, gen := x.cpGen + 1 } :=
  spGet_spSet_same _ _ _ _

theorem tagOf_issuing_ne {tag k : Nat} (x : Core) (h : k ≠ tag) : tagOf (issuing tag x) k = tagOf x k :=
  spGet_spSet_ne _ _ _ h

section
variable {s : State} {c tag unit q : Nat} {x : Core} (hq : q ≠ 0)
include hq

theorem cpissOp_busy (hst : (tagOf x tag).st ≠ .free) : cpissOp c tag unit q x s = (true, exception c exTAG_BUSY 0 s) := by
  simp [cpissOp, hq, hst]

section
variable (hst : (tagOf x tag).st = .free)
include hst

theorem cpissOp_param (hparam : copParamOk unit (copBytes x q) = false) :
    cpissOp c tag unit q x s = (true, exception c exPARAM 0 s) := by
  simp [cpissOp, hq, hst, hparam]

variable (hparam : copParamOk unit (copBytes x q) = true) (haddr : copAddrOk (c / 8) unit (copBytes x q) = true)
  (hafter : fld (copBytes x q) 1 1 / 128 % 2 = 0)
include hparam haddr hafter

/-- A command for a coprocessor joins the end of its queue (R288, R293). -/
theorem cpissOp_queues (hu : unit ≠ 7) (hroom : (copQueue s (c / 8) (copEngine s (c / 8) unit)).length < 16) :
    cpissOp c tag unit q x s = (true, corePut c (retire (issuing tag x)) (copPut (c / 8) (copEngine s (c / 8) unit)
      (copQueue s (c / 8) (copEngine s (c / 8) unit) ++ [issuedCmd c tag q x]) s)) := by
  have hbit : bit (fld (copBytes x q) 1 1) 7 = false := by simp [bit, hafter]
  simp [cpissOp, hq, hst, hparam, haddr, hbit, hu, Nat.not_le.2 hroom, issuing, issuedCmd]

end

/-- A hand-over joins those of its core. -/
theorem cpissOp_hands (hst : (tagOf x tag).st = .free) (hparam : copParamOk 7 (copBytes x q) = true)
    (haddr : copAddrOk (c / 8) 7 (copBytes x q) = true) (hafter : fld (copBytes x q) 1 1 / 128 % 2 = 0) :
    cpissOp c tag 7 q x s =
      (true, corePut c (retire { issuing tag x with hand := x.hand ++ [issuedCmd c tag q x] }) s) := by
  have hbit : bit (fld (copBytes x q) 1 1) 7 = false := by simp [bit, hafter]
  simp [cpissOp, hq, hst, hparam, haddr, hbit, issuing, issuedCmd]

end

section
variable {s : State} {c : Fin 96} {tag : Fin 32} {unit q : Fin 8} (h : Ready s c) (hq : q ≠ 0)
include h hq

theorem effect_cpiss_queues (hu : unit ≠ 7) (hst : (tagOf (begun (core s c)) tag).st = .free)
    (hparam : copParamOk unit (copBytes (begun (core s c)) q) = true)
    (haddr : copAddrOk (c / 8) unit (copBytes (begun (core s c)) q) = true)
    (hafter : fld (copBytes (begun (core s c)) q) 1 1 / 128 % 2 = 0)
    (hroom : (copQueue s (c / 8) (copEngine s (c / 8) unit)).length < 16) :
    Effect (.cpiss c tag unit q) s fun u =>
      copQueue u (c / 8) (copEngine s (c / 8) unit) = copQueue s (c / 8) (copEngine s (c / 8) unit) ++
        [issuedCmd c tag q (begun (core s c))] ∧
      core u c = retire (issuing tag (begun (core s c))) ∧ { u with cores := s.cores, cops := s.cops } = s := by
  have hcops := beginInstr_cops c s
  have hissue := cpissOp_queues (c := c.val) (s := beginInstr c s) (Fin.val_ne_zero_iff.2 hq) hst hparam haddr hafter
    (Fin.val_ne_iff.2 hu) (by rwa [copEngine_congr hcops, copQueue_congr hcops])
  rw [copEngine_congr hcops, copQueue_congr hcops] at hissue
  refine effect_onCoreR_of (exec_cpiss ..) h hissue ?_ ⟨?_, core_corePut_same .., ?_⟩
  · rw [core_corePut_same]
    exact begun_exc _
  · rw [copQueue_corePut, copQueue_copPut_same]
  · exact (corePut_copPut_rest ..).trans (beginInstr_rest_cops c s)

theorem leaves_cpiss_hands (hst : (tagOf (begun (core s c)) tag).st = .free)
    (hparam : copParamOk 7 (copBytes (begun (core s c)) q) = true)
    (haddr : copAddrOk (c / 8) 7 (copBytes (begun (core s c)) q) = true)
    (hafter : fld (copBytes (begun (core s c)) q) 1 1 / 128 % 2 = 0) :
    Leaves (.cpiss c tag 7 q) s c (retire { issuing tag (begun (core s c)) with
      hand := (begun (core s c)).hand ++ [issuedCmd c tag q (begun (core s c))] }) :=
  leaves_onCoreR (exec_cpiss ..) h (cpissOp_hands (Fin.val_ne_zero_iff.2 hq) hst hparam haddr hafter)
    fun he => (begun_exc _).trans he

end

/-! ### The instructions on tags -/

section
variable {s : State} {c : Fin 96} {rd tag : Fin 32} (h : Ready s c) (heven : rd.val % 2 = 0) (h0 : rd ≠ 0)
include h heven h0

theorem leaves_cpres_done (hst : (tagOf (begun (core s c)) tag).st = .done) : Leaves (.cpres c rd tag) s c
    (retire (freeTag tag (setS (setS (begun (core s c)) rd (tagOf (begun (core s c)) tag).result) (rd + 1)
      (BitVec.ofNat 64 (tagOf (begun (core s c)) tag).status)))) := by
  refine leaves_onCoreR (exec_cpres ..) h ?_ fun he => ?_
  · simp only [pairOk_of_even heven h0, hst]
    rfl
  · exact (exc_setS ..).trans ((exc_setS ..).trans ((begun_exc _).trans he))

theorem traps_cpres_free (hst : (tagOf (begun (core s c)) tag).st = .free) (he : (core s c).exc = false) :
    Traps (.cpres c rd tag) s c 0x23 0 := by
  refine traps_onCoreR (exec_cpres ..) h he ?_
  simp only [pairOk_of_even heven h0, hst]
  rfl

end

/-- Whether CPB takes its branch: on a LIVE tag, one that is not LIVE, or one DONE with an error. -/
abbrev CpbTakes (cond : Fin 32) (t : Tag) : Prop :=
  (cond = 0 ∧ t.st = .live) ∨ (cond = 1 ∧ t.st ≠ .live) ∨ (cond = 2 ∧ t.st = .done ∧ t.status ≠ 0)

theorem cpbTakes_eq {cond : Fin 32} (t : Tag) (hc : cond.val < 3) :
    (if cond.val = 0 then t.st == .live else if cond.val = 1 then t.st != .live else t.st == .done && t.status != cpOK) =
      decide (CpbTakes cond t) := by
  have hcases : cond = 0 ∨ cond = 1 ∨ cond = 2 := by omega
  rw [Bool.eq_iff_iff, decide_eq_true_iff]
  rcases hcases with rfl | rfl | rfl <;> simp [CpbTakes]

theorem branchesOn_cpb {s : State} {c : Fin 96} {tag cond : Fin 32} {imm : BitVec 16} (h : Ready s c) (hc : cond.val < 3) :
    BranchesOn (.cpb c tag cond imm) s c (CpbTakes cond (tagOf (begun (core s c)) tag))
      (branchTarget (begun (core s c)) imm) := by
  refine branchesOn_onCore (exec_cpb ..) h ?_
  dsimp only
  rw [if_neg (Nat.not_le.2 hc), cpbTakes_eq _ hc]

theorem leaves_cpwait {s : State} {c : Fin 96} {rs1 : Fin 32} (h : Ready s c)
    (hnone : ∀ k < 32, (getS (begun (core s c)) rs1).getLsbD k = true → (tagOf (begun (core s c)) k).st ≠ .live) :
    Leaves (.cpwait c rs1) s c (retire (begun (core s c))) := by
  refine leaves_onCoreR (exec_cpwait ..) h (if_neg ?_) fun he => (begun_exc _).trans he
  simpa using hnone

/-- The core with each tag of `l` that `p` names freed. -/
def freeTags (p : Nat → Bool) (l : List Nat) (x : Core) : Core := l.foldl (fun y t => if p t then freeTag t y else y) x

theorem freeTags_cons (p : Nat → Bool) (t : Nat) (l : List Nat) (x : Core) :
    freeTags p (t :: l) x = freeTags p l (if p t then freeTag t x else x) := rfl

theorem tagOf_freeTags (p : Nat → Bool) (l : List Nat) (x : Core) (k : Nat) :
    tagOf (freeTags p l x) k = if k ∈ l ∧ p k = true then {} else tagOf x k := by
  induction l generalizing x with
  | nil => simp [freeTags]
  | cons t l ih =>
    rw [freeTags_cons, ih]
    by_cases hk : k = t
    · subst hk
      by_cases hp : p k = true <;> simp [hp, tagOf_freeTag_same]
    · have hother : tagOf (if p t then freeTag t x else x) k = tagOf x k := by
        split
        · exact tagOf_freeTag_ne x hk
        · rfl
      simp [hk, hother]

/-- Freeing tags changes nothing that freeing one tag leaves alone. -/
theorem freeTags_keeps {α : Type} (g : Core → α) (hg : ∀ t y, g (freeTag t y) = g y) (p : Nat → Bool) (l : List Nat)
    (x : Core) : g (freeTags p l x) = g x := by
  induction l generalizing x with
  | nil => rfl
  | cons t l ih =>
    rw [freeTags_cons, ih]
    split
    · exact hg t x
    · rfl

theorem leaves_cpfree {s : State} {c : Fin 96} {rs1 : Fin 32} (h : Ready s c) : Leaves (.cpfree c rs1) s c
    (retire (freeTags (fun t => (getS (begun (core s c)) rs1).getLsbD t) (List.range 32) (begun (core s c)))) :=
  effect_onCore (exec_cpfree ..) h rfl fun he =>
    (freeTags_keeps Core.exc (fun _ _ => rfl) _ _ _).trans ((begun_exc _).trans he)

theorem coprocessorInstructions : Claims.CoprocessorInstructions := by
  intro s c rd rs1 tag cond unit q imm h x t cmd
  refine ⟨fun hq hu hst hparam haddr hafter hroom => ?queued, fun hq hst hparam haddr hafter => ?handed,
    fun hq hst he => traps_onCoreR (exec_cpiss ..) h he (cpissOp_busy (Fin.val_ne_zero_iff.2 hq) hst),
    fun hq hst hparam he => traps_onCoreR (exec_cpiss ..) h he (cpissOp_param (Fin.val_ne_zero_iff.2 hq) hst hparam),
    leaves_cpres_done h, traps_cpres_free h, fun hc => branchesOn_cpb h hc,
    fun hc he => traps_onCore (exec_cpb ..) h he (if_pos hc), leaves_cpwait h, ?freed,
    writes_onCore (exec_cptst ..) h rfl⟩
  case queued =>
    obtain ⟨u, hexec, hqueue, hcore, hrest⟩ := effect_cpiss_queues h hq hu hst hparam haddr hafter hroom
    refine ⟨u, hexec, hqueue, ?_⟩
    rw [hcore]
    exact ⟨congrArg Tag.st (tagOf_issuing_same ..), fun v hv => tagOf_issuing_ne x hv, rfl, rfl, hrest⟩
  case handed =>
    obtain ⟨u, hexec, hcore, -, hrest⟩ := leaves_cpiss_hands h hq hst hparam haddr hafter
    refine ⟨u, hexec, ?_⟩
    beta_reduce
    rw [hcore]
    exact ⟨rfl, congrArg Tag.st (tagOf_issuing_same ..), fun v hv => tagOf_issuing_ne x hv, rfl, rfl, hrest⟩
  case freed =>
    refine ⟨_, leaves_cpfree h, freeTags_keeps Core.s (fun _ _ => rfl) _ _ _, fun k hk => ?_⟩
    rw [tagOf_freeTags]
    simp [hk, x]

/-! ### The end of a command (R290, R294, R300) -/

/-- A command of the same core that waits for the tag of `d`, told that `d` ended with an error. -/
def failWaiter (d e : CopCmd) : CopCmd :=
  if e.core = d.core ∧ e.after = some (d.tag, d.gen) then { e with depFailed := true } else e

/-- The core with the end of its command `d` in its tag. -/
def tagEnded (d : CopCmd) (result status : Nat) (x : Core) : Core :=
  { x with tags := spSet {} x.tags d.tag { st := .done, result := BitVec.ofNat 64 result, status := status, gen := d.gen }
           cpLate := if status = cpOK then x.cpLate else BitVec.ofNat 32 (setBits x.cpLate.toNat d.tag d.tag 1) }

theorem core_markWaiters (d : CopCmd) (s : State) : core (markWaiters d s) d.core =
    { core s d.core with hand := (core s d.core).hand.map (failWaiter d) } := core_corePut_same ..

section
variable {s : State} {d : CopCmd} (hst : (tagOf (core s d.core) d.tag).st = .live)
  (hgen : (tagOf (core s d.core) d.tag).gen = d.gen)
include hst hgen

theorem endCommand_ok (result : Nat) : endCommand d result 0 s =
    wakeWfi d.core (corePut d.core (tagEnded d result 0 (core s d.core)) s) := by
  simp [endCommand, hst, hgen, tagEnded]

theorem endCommand_error (result : Nat) {status : Nat} (h0 : status ≠ 0) : endCommand d result status s =
    wakeWfi d.core (corePut d.core (tagEnded d result status (core (markWaiters d s) d.core)) (markWaiters d s)) := by
  have htags : tagOf (core (markWaiters d s) d.core) d.tag = tagOf (core s d.core) d.tag := by
    rw [core_markWaiters]
    rfl
  simp [endCommand, hst, hgen, h0, htags, tagEnded]

end

/-- A core whose tag takes an end keeps its hand-overs, whether or not that wakes it, and nothing else changes. -/
theorem wakeWfi_tagEnded {s : State} {d : CopCmd} (ha : awake s (some (d.core / 8)) = true) (result status : Nat) (x : Core) :
    ∃ y, CoreBecomes d.core y s (wakeWfi d.core (corePut d.core (tagEnded d result status x) s)) ∧ y.hand = x.hand ∧
      tagOf y d.tag = { st := .done, result := BitVec.ofNat 64 result, status := status, gen := d.gen } := by
  have hput := coreBecomes_corePut d.core (tagEnded d result status x) s
  have hwake := wakeWfi_becomes (s := corePut d.core (tagEnded d result status x) s) (c := d.core) ha
  rw [core_corePut_same] at hwake
  rcases hwake with hw | hw
  · exact ⟨_, hput.trans hw, rfl, spGet_spSet_same _ _ _ _⟩
  · exact ⟨_, hput.trans hw, rfl, spGet_spSet_same _ _ _ _⟩

/-- Where one core changes, what does not read the cores stays. -/
theorem CoreBecomes.field {α : Type} {c : Nat} {x : Core} {s u : State} (h : CoreBecomes c x s u) (g : State → α)
    (hg : ∀ t cs, g { t with cores := cs } = g t) : g u = g s := by
  obtain ⟨-, -, hrest⟩ := h
  rw [← hg u s.cores, hrest]

/-- The end of a command whose tag still waits for it: the tag takes it, and only an error tells those that wait for it. -/
theorem endCommand_ends {s : State} {d : CopCmd} (hst : (tagOf (core s d.core) d.tag).st = .live)
    (hgen : (tagOf (core s d.core) d.tag).gen = d.gen) (ha : awake s (some (d.core / 8)) = true) (result status : Nat) :
    let u := endCommand d result status s
    tagOf (core u d.core) d.tag = { st := .done, result := BitVec.ofNat 64 result, status := status, gen := d.gen } ∧
    (core u d.core).hand =
      (if status = 0 then (core s d.core).hand else (core s d.core).hand.map (failWaiter d)) ∧
    u.mem = s.mem ∧ u.notices = s.notices ∧ (status = 0 → u.cops = s.cops) := by
  intro u
  by_cases h0 : status = 0
  · subst h0
    obtain ⟨y, hy, hhand, htag⟩ := wakeWfi_tagEnded ha result 0 (core s d.core)
    rw [← endCommand_ok hst hgen] at hy
    have hcore := hy.1
    exact ⟨by rw [hcore, htag], by rw [hcore, hhand, if_pos rfl], hy.field State.mem fun _ _ => rfl,
      hy.field State.notices fun _ _ => rfl, fun _ => hy.field State.cops fun _ _ => rfl⟩
  · obtain ⟨y, hy, hhand, htag⟩ :=
      wakeWfi_tagEnded (s := markWaiters d s) (d := d) ha result status (core (markWaiters d s) d.core)
    rw [← endCommand_error hst hgen result h0] at hy
    have hcore := hy.1
    exact ⟨by rw [hcore, htag], by rw [hcore, hhand, core_markWaiters, if_neg h0], hy.field State.mem fun _ _ => rfl,
      hy.field State.notices fun _ _ => rfl, fun h => absurd h h0⟩

/-! ### The command at the head of a queue (R289, R292, R296) -/

section
variable {s s1 s2 : State} {crew engine cmd : Nat} {coll : Option Nat} {mem : Bool} {result : Bytes → Bytes → Nat}
  {d : CopCmd} {q : List CopCmd} {input : Bytes}

/-- A command that waits for nothing, whose inputs are read and whose outputs are written, leaves its queue and ends. -/
theorem runCop_ends (hu : crewUsable s crew = true) (hafter : d.after = none) (hq : copQueue s crew engine = d :: q)
    (hcmd : fld d.data 0 1 = cmd) (hread : copReadAll d.core mem (copInputs d.data) s = (.ok, input, s1))
    (hwrite : copWriteAll d.core (engine + 1) coll (copOutputs d.data)
      (copOut d.data input (sumL ((copOutputs d.data).map (·.2)))) s1 = (.ok, s2)) :
    runCop crew engine cmd coll mem result s = endCommand d (result d.data input) 0 (copPut crew engine q s2) := by
  simp [runCop, hu, hq, hcmd, afterState, hafter, hread, hwrite]

theorem effect_runCop {i : Instr} (hi : exec i s = done (runCop crew engine cmd coll mem result s))
    (hu : crewUsable s crew = true) (hafter : d.after = none) (hst : (tagOf (core s d.core) d.tag).st = .live)
    (hgen : (tagOf (core s d.core) d.tag).gen = d.gen) (hcrew : d.core / 8 = crew) {ok : Nat → Prop}
    (hok : ok (result d.data input)) (hq : copQueue s crew engine = d :: q) (hcmd : fld d.data 0 1 = cmd)
    (hcore : core s2 d.core = core s d.core) (ha : awake s2 (some crew) = true)
    (hread : copReadAll d.core mem (copInputs d.data) s = (.ok, input, s1))
    (hwrite : copWriteAll d.core (engine + 1) coll (copOutputs d.data)
      (copOut d.data input (sumL ((copOutputs d.data).map (·.2)))) s1 = (.ok, s2)) :
    Effect i s fun u => copQueue u crew engine = q ∧
      (∃ r, ok r ∧ tagOf (core u d.core) d.tag =
        { st := .done, result := BitVec.ofNat 64 r, status := 0, gen := d.gen }) ∧ u.mem = s2.mem := by
  have hput : core (copPut crew engine q s2) d.core = core s d.core := hcore
  obtain ⟨htag, -, hmem, -, hcops⟩ := endCommand_ends (s := copPut crew engine q s2) (d := d) (by rw [hput, hst])
    (by rw [hput, hgen]) (by rw [hcrew]; exact ha) (result d.data input) 0
  refine effect_done (hi.trans (congrArg done (runCop_ends hu hafter hq hcmd hread hwrite))) ⟨?_, ⟨_, hok, htag⟩, hmem⟩
  rw [copQueue_congr (hcops rfl), copQueue_copPut_same]

end

/-- The bin that FFT_PEAK reports lies below N (R289). -/
theorem peakResult_bin_lt (b input : Bytes) (h : 0 < fld b 4 2) : peakResult b input % 2 ^ 16 < fld b 4 2 := by
  have hmod : peakResult b input % 2 ^ 16 = (Config.copResult b input).toNat % fld b 4 2 % 2 ^ 16 := by
    unfold peakResult
    omega
  rw [hmod]
  exact (Nat.mod_le _ _).trans_lt (Nat.mod_lt _ h)

theorem satCount_lt (b input : Bytes) : satCount b input < 0x10000 := Nat.lt_succ_of_le (Nat.min_le_left _ _)

theorem coprocessorCommands : Claims.CoprocessorCommands := by
  intro s crew e coll d q input s1 s2 hu hafter hst hgen hcrew outs runs_ any
  have hruns : ∀ {i : Instr} {engine code : Nat} {mem : Bool} {coll : Option Nat} {result : Bytes → Bytes → Nat}
      {ok : Nat → Prop}, exec i s = done (runCop crew engine code coll mem result s) → ok (result d.data input) →
      runs_ i engine code mem coll ok := fun hi hok => effect_runCop hi hu hafter hst hgen hcrew hok
  exact ⟨hruns (exec_fft ..) trivial, hruns (exec_ifft ..) trivial,
    hruns (exec_fftPeak ..) (peakResult_bin_lt d.data input), hruns (exec_dft ..) trivial, hruns (exec_idft ..) trivial,
    hruns (exec_chest ..) trivial, hruns (exec_mimoDet ..) trivial, hruns (exec_power ..) rfl,
    hruns (exec_bwWeights ..) trivial, hruns (exec_bwApply ..) (satCount_lt d.data input)⟩

/-! ### Hand-overs (R303 to R305) -/

/-- The hand-over `d` taken off those of core `c`. -/
def takeHand (c : Nat) (d : CopCmd) (s : State) : State := corePut c { core s c with hand := (core s c).hand.erase d } s

theorem core_takeHand (c : Nat) (d : CopCmd) (s : State) :
    core (takeHand c d s) c = { core s c with hand := (core s c).hand.erase d } := core_corePut_same ..

/-- A core with an empty cache has no line that a hand-over cleans. -/
theorem handLines_none {s : State} {d : CopCmd} (h : (core s d.core).dcache = []) : handLines s d = [] := by
  simp only [handLines, linesIn_none h, ite_self, List.append_nil, List.nil_append]
  split <;> rfl

section
variable {s : State} {c tag : Nat} {d : CopCmd} (hu : crewUsable s (c / 8) = true)
  (hd : (core s c).hand.find? (·.tag == tag) = some d)
include hu hd

theorem handoverOp_fails (hafter : afterState s d = some true) :
    handoverOp c tag s = endCommand d 0 cpDEP (takeHand c d s) := by
  simp [handoverOp, hu, hd, hafter, takeHand]

theorem handoverOp_sends (hcore : d.core = c) (hcache : (core s c).dcache = []) (hafter : d.after = none)
    (hdr : drained s c = true) :
    handoverOp c tag s = endCommand d 0 (if (slot s (fld d.data 2 2)).st = .free then cpORPHAN else cpOK)
      (notify (fld d.data 2 2) 1 (coreInit c) (takeHand c d s)) := by
  have hlines : handLines s d = [] := handLines_none (by rw [hcore, hcache])
  simp [handoverOp, hu, hd, afterState, hafter, hlines, drainWrites_none (drained_iff.1 hdr).1, hdr, takeHand]

end

theorem handoverSendsOneDecrement : Claims.HandoverSendsOneDecrement := by
  intro s c tag d hu hcache hd ha hcore htag hst hgen t told ended
  have hends : ∀ (v : State) (status : Nat), core v c = core (takeHand c d s) c → awake v (some (c / 8)) = true →
      ended (endCommand d 0 status v) status ∧ (endCommand d 0 status v).mem = v.mem ∧
      (endCommand d 0 status v).notices = v.notices := fun v status hv hva => by
    have htold : failWaiter d = told := by
      funext e
      simp only [failWaiter, told, hcore, htag]
    have htags : tagOf (core v c) tag = tagOf (core s c) tag := by
      rw [hv, core_takeHand]
      rfl
    have hhand : (core v c).hand = (core s c).hand.erase d := by rw [hv, core_takeHand]
    obtain ⟨htagEnd, hhandEnd, hmem, hnotices, -⟩ := endCommand_ends (s := v) (d := d) (by rw [hcore, htag, htags, hst])
      (by rw [hcore, htag, htags, hgen]) (by rw [hcore]; exact hva) 0 status
    rw [hcore, htag] at htagEnd
    rw [hcore, hhand, htold] at hhandEnd
    exact ⟨⟨htagEnd, hhandEnd⟩, hmem, hnotices⟩
  refine ⟨fun hafter hdr => ?sent, fun hafter => ?failed⟩
  case sent =>
    obtain ⟨hended, hmem, hnotices⟩ := hends (notify t 1 (coreInit c) (takeHand c d s))
      (if (slot s t).st = .free then 5 else 0) rfl ha
    exact effect_done ((exec_handover ..).trans (congrArg done (handoverOp_sends hu hd hcore hcache hafter hdr)))
      ⟨hnotices, hended, hmem⟩
  case failed =>
    obtain ⟨hended, hmem, hnotices⟩ := hends (takeHand c d s) 4 rfl ha
    exact effect_done ((exec_handover ..).trans (congrArg done (handoverOp_fails hu hd hafter)))
      ⟨hnotices, hended, hmem⟩

/-- Settles O37: the instructions on tags, the command at the head of a queue, and the hand-over of a core. -/
theorem coprocessors : Obligations.Coprocessors :=
  ⟨coprocessorInstructions, coprocessorCommands, handoverSendsOneDecrement⟩

end Sys2Proof.Machine
end

section
/-!
SUPPORT. The device-wide engines: the work on a task, its status record and its completion (08_coprocessors.md, R306 to R309,
R316).
-/
namespace Sys2Proof.Machine
open Sys2Proof

/-! ### An engine's work (R306, R308) -/

section
variable {s s1 s2 s3 : State} {k op statusAt countAt n1 n2 : Nat} {ops : List Nat} {ok : Bytes → Bool}
  {act : Bytes → State → EngineRun × State} {r : Running} {b : Bytes} {run : EngineRun}

theorem engineRecord_written {status count : Nat}
    (hwrite : writeBytes (engineInit k) status (statusRecord s count run) s = (.ok, n2, s3)) :
    engineRecord k status count run s = { s3 with shuttle := { s3.shuttle with
      engineEnds := spPut s3.shuttle.engineEnds k { error := run.error, addr := run.addr } } } := by
  simp [engineRecord, hwrite]

section
variable (hr : spFind s.shuttle.engines k = some r) (he : spFind s.shuttle.engineEnds k = none)
  (ha : awake s (domainOf (engineUnit k).1 (engineUnit k).2) = true)
include hr he ha

theorem engineWork_misaligned (hentry : (slot s r.work.task).desc.entry % 32 ≠ 0) :
    engineWork k op ops ok statusAt countAt act s = engineNoRecord k enDESC (slot s r.work.task).desc.entry s := by
  simp [engineWork, hr, he, ha, descOf, hentry]

theorem engineWork_runs (hops : ops.contains op = true) (hentry : (slot s r.work.task).desc.entry % 32 = 0)
    (hread : readBytes (engineInit k) (slot s r.work.task).desc.entry 64 s = (.ok, b, n1, s1)) (hop : fld b 0 1 = op)
    (hok : ok b = true) (hact : act b s1 = (run, s2)) (hwait : run.error ≠ enWAIT) :
    engineWork k op ops ok statusAt countAt act s = engineRecord k (fld b statusAt 6) (fld b countAt 2) run s2 := by
  have hmem : op ∈ ops := by simpa using hops
  simp [engineWork, hr, he, ha, descOf, hentry, hread, hop, hmem, hok, hact, hwait]

end

/-- An engine at work on a task of the operation it is asked for, as its descriptor lies and says. -/
theorem effect_engineWork {i : Instr} (hi : exec i s = done (engineWork k op ops ok statusAt countAt act s))
    (hops : ops.contains op = true) (hr : spFind s.shuttle.engines k = some r)
    (he : spFind s.shuttle.engineEnds k = none)
    (ha : awake s (domainOf (engineUnit k).1 (engineUnit k).2) = true) :
    ((slot s r.work.task).desc.entry % 32 ≠ 0 → Effect i s fun u =>
      spFind u.shuttle.engineEnds k =
        some { error := 1, addr := (slot s r.work.task).desc.entry, recorded := false } ∧
      { u with shuttle := s.shuttle } = s) ∧
    ((slot s r.work.task).desc.entry % 32 = 0 →
      readBytes (engineInit k) (slot s r.work.task).desc.entry 64 s = (.ok, b, n1, s1) → fld b 0 1 = op → ok b = true →
      act b s1 = (run, s2) → run.error ≠ 0x100 →
      writeBytes (engineInit k) (fld b statusAt 6) (statusRecord s2 (fld b countAt 2) run) s2 = (.ok, n2, s3) →
      Effect i s fun u =>
        spFind u.shuttle.engineEnds k = some { error := run.error, addr := run.addr, recorded := true } ∧
        { u with shuttle := s3.shuttle } = s3) := by
  refine ⟨fun hentry => ?misaligned, fun hentry hread hop hok hact hwait hwrite => ?runs⟩
  case misaligned =>
    exact effect_done (hi.trans (congrArg done (engineWork_misaligned hr he ha hentry)))
      ⟨spFind_spPut_same _ _ _, rfl⟩
  case runs =>
    exact effect_done (hi.trans (congrArg done ((engineWork_runs hr he ha hops hentry hread hop hok hact hwait).trans
      (engineRecord_written hwrite)))) ⟨spFind_spPut_same _ _ _, rfl⟩

end

theorem engineRuns : Claims.EngineRuns := by
  intro s s1 s2 s3 r b run n1 n2 entry works
  exact ⟨fun e => effect_engineWork (exec_ldpcDecode ..) rfl, fun e => effect_engineWork (exec_ldpcEncode ..) rfl,
    fun e => effect_engineWork (exec_polarDecode ..) rfl, fun e => effect_engineWork (exec_polarEncode ..) rfl,
    fun e => effect_engineWork (exec_cipherTask ..) rfl⟩

/-! ### An engine's completion (R308, R309, R316) -/

/-- An engine freed, with the others that its code blocks were handed to. -/
def freeEngine (k : Nat) (s : State) : State :=
  { s with shuttle := { s.shuttle with
      engines := spDel s.shuttle.engines k, engineEnds := spDel s.shuttle.engineEnds k
      lent := s.shuttle.lent.filter fun e => e.2 ≠ k } }

/-- A count of 32 bits raised by one saturates. -/
theorem regF_regBump_word (u i o : Nat) (s : State) :
    regF (regBump u i o 31 0 1 s) u i o 31 0 = min (2 ^ 32 - 1) (regF s u i o 31 0 + 1) := by
  rw [regBump, regF_regPutF_same _ _ _ _ _ _ _ (by decide) (by decide), satN_eq_min]
  exact Nat.mod_eq_of_lt (by omega)

/-- A limited event changes neither register nor Shuttle. -/
theorem raiseLim_regs_shuttle (ns key c u i n : Nat) (d : Bytes) (s : State) :
    (raiseLim ns key c u i n d s).regs = s.regs ∧ (raiseLim ns key c u i n d s).shuttle = s.shuttle := by
  unfold raiseLim
  dsimp only
  split
  · split <;> exact ⟨rfl, rfl⟩
  · exact ⟨rfl, rfl⟩

section
variable {s : State} {k : Nat} {r : Running} {e : EngineEnd} (hr : spFind s.shuttle.engines k = some r)
include hr

theorem engineCompletionOp_working (he : spFind s.shuttle.engineEnds k = none) : engineCompletionOp k s = s := by
  simp [engineCompletionOp, hr, he]

variable (he : spFind s.shuttle.engineEnds k = some e)
include he

theorem engineCompletionOp_ok (h0 : e.error = 0) (hrec : e.recorded = true) : engineCompletionOp k s =
    rescueEval (completeWork r.work true 15
      (regBump (engineUnit k).1 (engineUnit k).2 0x008 31 0 1 (freeEngine k s))) := by
  simp [engineCompletionOp, hr, he, h0, hrec, freeEngine, bne, beq_eq_decide]

/-- A task that failed raises the engine's error count, and the event of R316. -/
theorem engineCompletionOp_failed (hbad : e.error ≠ 0 ∨ e.recorded = false) : ∃ w,
    engineCompletionOp k s = rescueEval (completeWork r.work false 15 w) ∧
    regF w (engineUnit k).1 (engineUnit k).2 0x00C 31 0 =
      min (2 ^ 32 - 1) (regF s (engineUnit k).1 (engineUnit k).2 0x00C 31 0 + 1) ∧
    w.shuttle = (freeEngine k s).shuttle := by
  have hnot : ¬ (e.error = 0 ∧ e.recorded = true) := fun ⟨h0, hrec⟩ => by simp [h0, hrec] at hbad
  generalize hu : (engineUnit k).1 = u
  generalize hi : (engineUnit k).2 = i
  have hkey : regKey u i 0x00C ≠ regKey u i 0x008 := by
    unfold regKey
    omega
  obtain ⟨hregs, hshuttle⟩ := raiseLim_regs_shuttle second (u * 256 + i) 0x2001 u i 2
    (leBytes 2 r.work.task ++ [BitVec.ofNat 8 e.error, 0, 0, 0, 0, 0] ++ leBytes 8 e.addr)
    (regBump u i 0x00C 31 0 1 (regBump u i 0x008 31 0 1 (freeEngine k s)))
  refine ⟨_, ?_, (regF_congr hregs ..).trans ((regF_regBump_word ..).trans ?_), hshuttle.trans rfl⟩
  · simp [engineCompletionOp, hr, he, hnot, hu, hi, freeEngine, bne, beq_eq_decide]
  · rw [regBump, regF_regPutF_ne _ _ _ _ _ _ hkey]
    rfl

end

theorem engineCompletes : Claims.EngineCompletes := by
  intro s k r e hr u0 i0 freed counted
  refine ⟨fun he => effect_done (exec_engineCompletion ..) (engineCompletionOp_working hr he),
    fun he h0 hrec => effect_done (exec_engineCompletion ..) (engineCompletionOp_ok hr he h0 hrec), fun he hbad => ?_⟩
  obtain ⟨w, hw⟩ := engineCompletionOp_failed hr he hbad
  exact effect_done (exec_engineCompletion ..) ⟨w, hw⟩

/-- Settles O38: the work of each kind of engine as one function runs it, and the completion by how the work ended. -/
theorem engines : Obligations.Engines := ⟨engineRuns, engineCompletes⟩

end Sys2Proof.Machine
end

section
/-!
SUPPORT. The chirp frame code: bits and numbers, Gray-coded symbols, code words, whitening and the CRCs, each undone by its
decoder (09_chirp_radio.md, R323 to R326, R331).
-/
namespace Sys2Proof.Machine
open Sys2Proof

/-! ### Numbers from bits, and their bits -/

/-- The low bits of a number, most significant first. -/
def bitsOfNat (n v : Nat) : List Bool := (List.range n).map fun k => bit v (n - 1 - k)

@[simp] theorem length_bitsOfNat (n v : Nat) : (bitsOfNat n v).length = n := by simp [bitsOfNat]

theorem natOfBits_append_singleton (l : List Bool) (b : Bool) : natOfBits (l ++ [b]) = 2 * natOfBits l + b2n b := by
  simp [natOfBits]

theorem b2n_lt (b : Bool) : b2n b < 2 := by cases b <;> decide

theorem natOfBits_lt (l : List Bool) : natOfBits l < 2 ^ l.length := by
  induction l using List.reverseRecOn with
  | nil => simp [natOfBits]
  | append_singleton l b ih =>
    have hb := b2n_lt b
    rw [natOfBits_append_singleton, List.length_append, List.length_singleton, pow_succ]
    omega

/-- All bits of a number but the last are the bits of its half. -/
theorem bitsOfNat_succ (n v : Nat) : bitsOfNat (n + 1) v = bitsOfNat n (v / 2) ++ [bit v 0] := by
  rw [bitsOfNat, List.range_succ, List.map_append, List.map_singleton, Nat.add_sub_cancel, Nat.sub_self]
  congr 1
  refine List.map_congr_left fun k hk => ?_
  have hk' : n - k = n - 1 - k + 1 := by rw [List.mem_range] at hk; omega
  rw [hk', bit, bit, pow_succ', Nat.div_div_eq_div_mul]

theorem bitsOfNat_natOfBits (l : List Bool) : bitsOfNat l.length (natOfBits l) = l := by
  induction l using List.reverseRecOn with
  | nil => rfl
  | append_singleton l b ih =>
    have hb := b2n_lt b
    have hhalf : (2 * natOfBits l + b2n b) / 2 = natOfBits l := by omega
    have hbit : bit (2 * natOfBits l + b2n b) 0 = b := by
      cases b <;> simp [bit, b2n, Nat.add_mod]
    rw [List.length_append, List.length_singleton, bitsOfNat_succ, natOfBits_append_singleton, hhalf, hbit, ih]

theorem natOfBits_bitsOfNat (n v : Nat) : natOfBits (bitsOfNat n v) = v % 2 ^ n := by
  induction n generalizing v with
  | zero => simp [bitsOfNat, natOfBits, Nat.mod_one]
  | succ n ih =>
    have hbit : b2n (bit v 0) = v % 2 := by
      rcases Nat.mod_two_eq_zero_or_one v with h | h <;> simp [bit, b2n, h]
    rw [bitsOfNat_succ, natOfBits_append_singleton, ih, hbit, pow_succ', Nat.mod_mul]
    omega

/-! ### Symbols (R326) -/

theorem foldl_xor_halves (so u : Nat) :
    (List.range so).foldl (fun a k => Nat.xor a (Nat.xor u (u / 2) / 2 ^ k)) 0 = Nat.xor u (u / 2 ^ so) := by
  induction so with
  | zero => simp
  | succ n ih =>
    have hhalf : Nat.xor u (u / 2) / 2 ^ n = (u / 2 ^ n) ^^^ (u / 2 ^ (n + 1)) := by
      rw [pow_succ', ← Nat.div_div_eq_div_mul]
      simp only [← Nat.shiftRight_eq_div_pow]
      exact Nat.shiftRight_xor_distrib
    rw [List.range_succ, List.foldl_append, ih]
    simp only [List.foldl_cons, List.foldl_nil, hhalf]
    show (u ^^^ u / 2 ^ n) ^^^ (u / 2 ^ n ^^^ u / 2 ^ (n + 1)) = u ^^^ u / 2 ^ (n + 1)
    rw [Nat.xor_assoc, ← Nat.xor_assoc (u / 2 ^ n), Nat.xor_self, Nat.zero_xor]

theorem ungray_gray {so u : Nat} (h : u < 2 ^ so) : ungray so (Nat.xor u (u / 2)) = u := by
  rw [ungray, foldl_xor_halves, Nat.div_eq_of_lt h]
  exact Nat.xor_zero u

theorem gray_lt {so u : Nat} (h : u < 2 ^ so) : Nat.xor u (u / 2) < 2 ^ so :=
  Nat.xor_lt_two_pow h (by omega)

/-- The bits of one symbol value that stand for the integer `u`. -/
theorem bitsOfSymbols_cons {so u : Nat} (h11 : so ≤ 11) (hu : u < 2 ^ so) (l : List (BitVec 11)) :
    bitsOfSymbols so (BitVec.ofNat 11 (Nat.xor u (u / 2)) :: l) = bitsOfNat so u ++ bitsOfSymbols so l := by
  have hg : Nat.xor u (u / 2) < 2 ^ so := gray_lt hu
  have h2 : Nat.xor u (u / 2) < 2 ^ 11 := hg.trans_le (Nat.pow_le_pow_right (by decide) h11)
  rw [bitsOfSymbols, List.flatMap_cons, BitVec.toNat_ofNat, Nat.mod_eq_of_lt h2, Nat.mod_eq_of_lt hg, ungray_gray hu]
  rfl

/-- The bits of one symbol, filled with zeros where the string ends in it. -/
def symbolBlock (so : Nat) (l : List Bool) : List Bool := l.take so ++ List.replicate (so - (l.take so).length) false

@[simp] theorem length_symbolBlock (so : Nat) (l : List Bool) : (symbolBlock so l).length = so := by
  rw [symbolBlock, List.length_append, List.length_replicate]
  have := List.length_take_le so l
  omega

theorem symbolsOf_succ {so n : Nat} {l : List Bool} (h : l ≠ []) : symbolsOf so (n + 1) l =
    Nat.xor (natOfBits (symbolBlock so l)) (natOfBits (symbolBlock so l) / 2) :: symbolsOf so n (l.drop so) := by
  rw [symbolsOf, if_neg h]
  rfl

/-- The bits of a string's symbols begin with the string. -/
theorem bitsOfSymbols_symbolsOf {so : Nat} (h0 : 0 < so) (h11 : so ≤ 11) (n : Nat) (l : List Bool) (hn : l.length ≤ n) :
    ∃ p, bitsOfSymbols so ((symbolsOf so n l).map (BitVec.ofNat 11)) = l ++ p := by
  induction n generalizing l with
  | zero => exact ⟨[], by rw [List.length_eq_zero_iff.1 (Nat.le_zero.1 hn)]; rfl⟩
  | succ n ih =>
    by_cases hl : l = []
    · exact ⟨_, by rw [hl]; rfl⟩
    have hpos : 0 < l.length := List.length_pos_iff.2 hl
    obtain ⟨p, hp⟩ := ih (l.drop so) (by rw [List.length_drop]; omega)
    have hblock : natOfBits (symbolBlock so l) < 2 ^ so := by simpa using natOfBits_lt (symbolBlock so l)
    have hbits : bitsOfNat so (natOfBits (symbolBlock so l)) = symbolBlock so l := by
      simpa using bitsOfNat_natOfBits (symbolBlock so l)
    rw [symbolsOf_succ hl, List.map_cons, bitsOfSymbols_cons h11 hblock, hbits, hp, symbolBlock]
    rcases Nat.le_total so l.length with h | h
    · refine ⟨p, ?_⟩
      rw [List.length_take_of_le h, Nat.sub_self, List.replicate_zero, List.append_nil, ← List.append_assoc,
        List.take_append_drop]
    · rw [List.take_of_length_le h, List.drop_of_length_le h, List.append_assoc]
      exact ⟨_, rfl⟩

theorem length_symbolsOf {so : Nat} (h0 : 0 < so) (n : Nat) (l : List Bool) (hn : l.length ≤ n) :
    (symbolsOf so n l).length = ceilDiv l.length so := by
  induction n generalizing l with
  | zero =>
    rw [List.length_eq_zero_iff.1 (Nat.le_zero.1 hn)]
    exact (Nat.div_eq_of_lt (by simp; omega)).symm
  | succ n ih =>
    by_cases hl : l = []
    · rw [hl]
      exact (Nat.div_eq_of_lt (by simp; omega)).symm
    have hpos : 0 < l.length := List.length_pos_iff.2 hl
    rw [symbolsOf_succ hl, List.length_cons, ih _ (by rw [List.length_drop]; omega), List.length_drop]
    unfold ceilDiv
    rcases Nat.le_total so l.length with h | h
    · rw [← Nat.add_div_right _ h0]
      congr 1
      omega
    · rw [Nat.sub_eq_zero_of_le h, Nat.div_eq_of_lt (by omega : 0 + so - 1 < so),
        Nat.div_eq_of_lt_le (by omega : 1 * so ≤ l.length + so - 1) (by omega)]

/-! ### Code words (R325) -/

theorem hamDecode_hamEncode : ∀ n < 16, hamDecode (hamEncode n % 2 ^ 8) = some (n, 0) := by decide

theorem bitsOf_cons (b : BitVec 8) (bs : Bytes) : bitsOf (b :: bs) = bitsOfNat 8 b.toNat ++ bitsOf bs := rfl

theorem codedBits_cons (b : BitVec 8) (bs : Bytes) : codedBits (b :: bs) =
    bitsOfNat 8 (BitVec.ofNat 8 (hamEncode (b.toNat / 16))).toNat ++
      (bitsOfNat 8 (BitVec.ofNat 8 (hamEncode (b.toNat % 16))).toNat ++ codedBits bs) := by
  rw [codedBits, List.flatMap_cons, bitsOf_cons, bitsOf_cons, List.append_assoc, List.append_assoc]
  rfl

theorem length_bitsOf (bs : Bytes) : (bitsOf bs).length = 8 * bs.length := by
  simp [bitsOf, Nat.mul_comm]

theorem length_codedBits (bs : Bytes) : (codedBits bs).length = 16 * bs.length := by
  simp [codedBits, length_bitsOf, Nat.mul_comm]

theorem natOfBits_byte (v : Nat) (l : List Bool) : natOfBits ((bitsOfNat 8 v ++ l).take 8) = v % 2 ^ 8 := by
  rw [List.take_left' (length_bitsOfNat 8 v), natOfBits_bitsOfNat]

theorem drop_byte (v : Nat) (l : List Bool) : (bitsOfNat 8 v ++ l).drop 8 = l := List.drop_left' (length_bitsOfNat 8 v)

/-- A code word at the front is decoded without a correction. -/
theorem nibblesOf_hamEncode {n : Nat} (hn : n < 16) (k : Nat) (l : List Bool) :
    nibblesOf (k + 1) (bitsOfNat 8 (BitVec.ofNat 8 (hamEncode n)).toNat ++ l) = some (n, 0) :: nibblesOf k l := by
  rw [nibblesOf, natOfBits_byte, drop_byte, BitVec.toNat_ofNat, Nat.mod_mod, hamDecode_hamEncode n hn]

/-- The nibbles of a byte string. -/
def nibbles (bs : Bytes) : List Nat := bs.flatMap fun b => [b.toNat / 16, b.toNat % 16]

/-- They are decoded without a correction. -/
def cleanNibbles (bs : Bytes) : List (Option (Nat × Nat)) := (nibbles bs).map fun n => some (n, 0)

theorem nibblesOf_codedBits (bs : Bytes) (p : List Bool) :
    nibblesOf (2 * bs.length) (codedBits bs ++ p) = cleanNibbles bs := by
  induction bs with
  | nil => rfl
  | cons b bs ih =>
    have hb : b.toNat / 16 < 16 := by have := b.isLt; omega
    rw [codedBits_cons, List.append_assoc, List.append_assoc, List.length_cons, Nat.mul_succ, nibblesOf_hamEncode hb,
      nibblesOf_hamEncode (Nat.mod_lt _ (by decide)), ih]
    rfl

/-- The bytes that nibbles make. -/
def bytesOfNibbles (n : Nat) (v : List Nat) : Bytes :=
  (List.range n).map fun k => BitVec.ofNat 8 (16 * v.getD (2 * k) 0 + v.getD (2 * k + 1) 0)

theorem bytesOfNibbles_nibbles (bs : Bytes) : bytesOfNibbles bs.length (nibbles bs) = bs := by
  induction bs with
  | nil => rfl
  | cons b bs ih =>
    have hb : BitVec.ofNat 8 (16 * (b.toNat / 16) + b.toNat % 16) = b := by
      rw [Nat.div_add_mod, BitVec.ofNat_toNat, BitVec.setWidth_eq]
    rw [bytesOfNibbles, List.length_cons, List.range_succ_eq_map, List.map_cons, List.map_map]
    exact congrArg₂ List.cons hb ih

theorem cleanNibbles_fst (bs : Bytes) : ((cleanNibbles bs).map fun n => (n.getD (0, 0)).1) = nibbles bs := by
  rw [cleanNibbles, List.map_map]
  exact List.map_id _

theorem cleanNibbles_corrections (bs : Bytes) : sumL ((cleanNibbles bs).map fun n => (n.getD (0, 0)).2) = 0 := by
  rw [cleanNibbles, List.map_map, sumL, ← List.sum_eq_foldl]
  exact List.sum_eq_zero (by simp)

theorem cleanNibbles_decodable (bs : Bytes) : (cleanNibbles bs).any Option.isNone = false := by simp [cleanNibbles]

theorem freeNibbles_cleanNibbles (bs : Bytes) (s : State) : freeNibbles (cleanNibbles bs) s = (nibbles bs, s) := by
  unfold cleanNibbles
  induction nibbles bs with
  | nil => rfl
  | cons n r ih => rw [List.map_cons, freeNibbles, ih]

/-! ### Whitening (R324) -/

/-- The eight whitening bits of byte `j` of `n`, as a number. -/
def whiteByte (n j : Nat) : Nat := natOfBits (((whiteSeq (8 * n) (List.replicate 9 true)).drop (8 * j)).take 8)

theorem whiteByte_lt (n j : Nat) : whiteByte n j < 2 ^ 8 :=
  (natOfBits_lt _).trans_le (Nat.pow_le_pow_right (by decide) (List.length_take_le _ _))

@[simp] theorem length_whiten (bs : Bytes) : (whiten bs).length = bs.length := by simp [whiten]

theorem getElem_whiten {bs : Bytes} {j : Nat} (h : j < (whiten bs).length) :
    (whiten bs)[j] = BitVec.ofNat 8 (Nat.xor (bs.getD j 0).toNat (whiteByte bs.length j)) := by
  simp [whiten, whiteByte]

theorem whiten_whiten (bs : Bytes) : whiten (whiten bs) = bs := by
  refine List.ext_getElem (by simp) fun j h hj => ?_
  have hx : Nat.xor bs[j].toNat (whiteByte bs.length j) < 2 ^ 8 := Nat.xor_lt_two_pow bs[j].isLt (whiteByte_lt _ _)
  rw [getElem_whiten, List.getD_eq_getElem _ _ (by simpa using hj), getElem_whiten, List.getD_eq_getElem _ _ hj,
    length_whiten, BitVec.toNat_ofNat, Nat.mod_eq_of_lt hx]
  show BitVec.ofNat 8 ((bs[j].toNat ^^^ whiteByte bs.length j) ^^^ whiteByte bs.length j) = bs[j]
  rw [Nat.xor_assoc, Nat.xor_self, Nat.xor_zero, BitVec.ofNat_toNat, BitVec.setWidth_eq]

/-! ### Bytes without a code -/

/-- The whole bytes of a string of bits. -/
def bytesOfBits (n : Nat) (l : List Bool) : Bytes :=
  (List.range n).map fun k => BitVec.ofNat 8 (natOfBits ((l.drop (8 * k)).take 8))

theorem bytesOfBits_bitsOf (bs : Bytes) (p : List Bool) : bytesOfBits bs.length (bitsOf bs ++ p) = bs := by
  induction bs with
  | nil => rfl
  | cons b bs ih =>
    have hb : BitVec.ofNat 8 (natOfBits ((bitsOf (b :: bs) ++ p).take 8)) = b := by
      rw [bitsOf_cons, List.append_assoc, natOfBits_byte, Nat.mod_eq_of_lt b.isLt, BitVec.ofNat_toNat, BitVec.setWidth_eq]
    have hrest : ∀ k, (bitsOf (b :: bs) ++ p).drop (8 * (k + 1)) = (bitsOf bs ++ p).drop (8 * k) := fun k => by
      rw [bitsOf_cons, List.append_assoc, Nat.mul_succ, Nat.add_comm, ← List.drop_drop, drop_byte]
    rw [bytesOfBits, List.length_cons, List.range_succ_eq_map, List.map_cons, List.map_map]
    refine congrArg₂ List.cons hb (Eq.trans (List.map_congr_left fun k _ => ?_) ih)
    exact congrArg (fun l => BitVec.ofNat 8 (natOfBits (l.take 8))) (hrest k)

/-! ### The header's CRC (R323) -/

theorem crcStep_lt_width {w poly : Nat} (hp : poly < 2 ^ w) (k : Nat) {r : Nat} (hr : r < 2 ^ w) :
    crcStep w poly k r < 2 ^ w := by
  induction k generalizing r with
  | zero => exact hr
  | succ k ih =>
    refine ih ?_
    have hm : r * 2 % 2 ^ w < 2 ^ w := Nat.mod_lt _ (Nat.two_pow_pos w)
    split
    · exact Nat.xor_lt_two_pow hm hp
    · exact hm

theorem crc8_lt (bs : Bytes) : crc8 bs < 2 ^ 8 := by
  refine List.foldlRecOn (motive := fun r => r < 2 ^ 8) bs _ (by decide) fun r hr b _ => ?_
  exact crcStep_lt_width (by decide) 8 (Nat.xor_lt_two_pow hr (by simpa using b.isLt))

/-! ### Decoding what was coded -/

section
variable {so : Nat} {h pay : Bytes} {s : State}

/-- The symbols of a string of bits. -/
def symbolised (so : Nat) (l : List Bool) : List (BitVec 11) := (symbolsOf so l.length l).map (BitVec.ofNat 11)

variable (h0 : 0 < so)
include h0

theorem length_symbolised (l : List Bool) : (symbolised so l).length = ceilDiv l.length so := by
  rw [symbolised, List.length_map, length_symbolsOf h0 _ _ le_rfl]

theorem length_payload (bs : Bytes) (code : Bool) {len : Nat} (hlen : bs.length = len + 3) :
    (symbolised so (if code then codedBits bs else bitsOf bs)).length = payloadSymbols so len code := by
  rw [length_symbolised h0, payloadSymbols, ← hlen]
  cases code
  · exact congrArg (ceilDiv · so) (length_bitsOf bs)
  · exact congrArg (ceilDiv · so) (length_codedBits bs)

variable (h11 : so ≤ 11)
include h11

theorem bitsOfSymbols_symbolised (l : List Bool) : ∃ p, bitsOfSymbols so (symbolised so l) = l ++ p :=
  bitsOfSymbols_symbolsOf h0 h11 _ _ le_rfl

/-- Five header bytes and their CRC. -/
theorem decodeHeader_coded (hh : h.length = 5) :
    decodeHeader so (symbolised so (codedBits (h ++ [BitVec.ofNat 8 (crc8 h)]))) = some (h, 0) := by
  generalize hb : h ++ [BitVec.ofNat 8 (crc8 h)] = bs
  have hlen : bs.length = 6 := by rw [← hb, List.length_append, hh]; rfl
  have hcount : (symbolised so (codedBits bs)).length = headerSymbols so := by
    rw [length_symbolised h0, length_codedBits, hlen, headerSymbols]
  obtain ⟨p, hp⟩ := bitsOfSymbols_symbolised h0 h11 (codedBits bs)
  have hns : nibblesOf 12 (codedBits bs ++ p) = cleanNibbles bs := by rw [← nibblesOf_codedBits bs p, hlen]
  have hbytes : bytesOfNibbles 6 (nibbles bs) = bs := by rw [← hlen, bytesOfNibbles_nibbles]
  have htake : bs.take 5 = h := by rw [← hb, List.take_left' hh]
  have hcrc : crc8 (bs.take 5) = (bs.getD 5 0).toNat := by
    rw [htake, ← hb, ← hh, List.getD_append_right _ _ _ _ le_rfl, Nat.sub_self]
    exact (Nat.mod_eq_of_lt (crc8_lt h)).symm
  unfold decodeHeader
  rw [List.take_of_length_le hcount.le, hp, hns, hcount]
  dsimp only
  rw [cleanNibbles_decodable, if_neg (by simp), cleanNibbles_fst, cleanNibbles_corrections]
  change (if crc8 ((bytesOfNibbles 6 (nibbles bs)).take 5) = ((bytesOfNibbles 6 (nibbles bs)).getD 5 0).toNat
    then some ((bytesOfNibbles 6 (nibbles bs)).take 5, 0) else none) = _
  rw [hbytes, if_pos hcrc, htake]

/-- A payload and its CRC, whitened, with or without the code. -/
theorem decodePayload_coded {bs : Bytes} (hlen : bs.length = hdrLen h + 3) :
    decodePayload so h (symbolised so (if hdrCode h then codedBits (whiten bs) else bitsOf (whiten bs))) s =
      (bs, 0, s) := by
  have hw : (whiten bs).length = hdrLen h + 3 := by rw [length_whiten, hlen]
  obtain ⟨p, hp⟩ := bitsOfSymbols_symbolised h0 h11 (if hdrCode h then codedBits (whiten bs) else bitsOf (whiten bs))
  unfold decodePayload
  rw [hp]
  cases hc : hdrCode h
  case true =>
    have hn : min ((codedBits (whiten bs) ++ p).length / 16) (hdrLen h + 3) = (whiten bs).length := by
      rw [List.length_append, length_codedBits, hw]
      omega
    simp only [if_true, hn, nibblesOf_codedBits, freeNibbles_cleanNibbles, cleanNibbles_corrections]
    change (whiten (bytesOfNibbles (whiten bs).length (nibbles (whiten bs))), 0, s) = _
    rw [bytesOfNibbles_nibbles, whiten_whiten]
  case false =>
    have hn : min ((bitsOf (whiten bs) ++ p).length / 8) (hdrLen h + 3) = (whiten bs).length := by
      rw [List.length_append, length_bitsOf, hw]
      omega
    simp only [Bool.false_eq_true, if_false, hn]
    change (whiten (bytesOfBits (whiten bs).length (bitsOf (whiten bs) ++ p)), 0, s) = _
    rw [bytesOfBits_bitsOf, whiten_whiten]

end

/-- Settles O39: the symbols begin with the bits they were made of, each code word is its nibble's, the header's CRC-8 fits its
byte, and whitening undoes itself. -/
theorem frameCodeRoundTrip : Obligations.FrameCodeRoundTrip := by
  intro s so h pay h5 h11 hh hb crc pb symbols
  have h0 : 0 < so := by omega
  have hcrc : crc.length = 3 := by simp [crc, beBytes]
  have hbits : hb.length = 96 := by rw [length_codedBits, List.length_append, hh]; rfl
  refine ⟨decodeHeader_coded h0 h11 hh, (length_symbolised h0 hb).trans (by rw [hbits, headerSymbols]), fun hp => ?_⟩
  have hlen : (pay ++ crc).length = hdrLen h + 3 := by rw [List.length_append, hp, hcrc]
  exact ⟨decodePayload_coded h0 h11 hlen, length_payload h0 _ _ (by rw [length_whiten, hlen])⟩

end Sys2Proof.Machine
end

section
/-!
SUPPORT. A packet sent by a unit: what its parts keep of any property that they do not touch, and so the radio's tables,
counters and FREEZE bits (09_chirp_radio.md, R344; 13_memory_ecc.md, R465 to R472; 14_spool_dma.md, R475 to R487).
-/
namespace Sys2Proof.Machine
open Sys2Proof

/-- A property of states that no part of the sending of a packet undoes: neither Spool and memory, free values, outputs,
events and notices, nor a register other than those at offset 0x018, of which only MEM_CE_ADDR is written, with the address
of a code word. -/
structure SendsKeep (P : State → Prop) : Prop where
  tables : ∀ {s t}, P s → t = { s with
    free := t.free, mem := t.mem, ecc := t.ecc, memc := t.memc, spool := t.spool, power := t.power, out := t.out
    evq := t.evq, notices := t.notices, raised := t.raised } → P t
  regs : ∀ {s} u i {o} v, o < 0x10000 → o ≠ 0x018 ∨ v.toNat % 32 = 0 → P s → P (regPut u i o v s)

/-- An interrupt is never held back, and no counter counts it (R440). -/
theorem emit_msix (v : Nat) (s : State) : emit (.msix v) s = { s with out := s.out ++ [.msix v] } := rfl

section
variable {P : State → Prop} (hP : SendsKeep P) {s : State}
include hP

theorem regBump_kept (u i : Nat) {o : Nat} (hi lo n : Nat) (ho : o < 0x10000 ∧ o ≠ 0x018) (hk : P s) :
    P (regBump u i o hi lo n s) :=
  hP.regs u i _ ho.1 (.inl ho.2) hk

theorem raiseLim_kept (ns key c u i n : Nat) (d : Bytes) (hk : P s) : P (raiseLim ns key c u i n d s) := by
  unfold raiseLim
  dsimp only
  split
  · exact ite_keeps hk (hP.tables hk rfl)
  · exact hP.tables hk rfl

/-! ### A packet's cells (R472, R475 to R478) -/

theorem pickCells_kept (used : List Nat) (base size n : Nat) (hk : P s) : P (pickCells used base size n s).2 := by
  induction n generalizing used s with
  | zero => exact hk
  | succ n ih => exact ih _ (hP.tables hk rfl)

theorem alloc_kept (who : Allocator) (len : Nat) (hk : P s) : P (alloc who len s).2 := by
  unfold alloc
  extract_lets n freeOn usable freeExt
  by_cases hroom : len = 0 ∨ n > usable + freeExt
  · rw [if_pos hroom]
    exact hk
  · rw [if_neg hroom]
    dsimp only
    split
    · exact pickCells_kept hP _ _ _ _ (pickCells_kept hP _ _ _ _ hk)
    · exact hP.tables (pickCells_kept hP _ _ _ _ (pickCells_kept hP _ _ _ _ hk)) rfl

theorem memFlip_kept (ch w : Nat) (hk : P s) : P (memFlip ch w s).2 := by
  have hmasks : P ((List.range 10).foldl (fun s k => regPut uMEM ch (0x040 + 4 * k) 0 s) s) := by
    refine List.foldlRecOn (motive := P) _ _ hk fun t ht k hmem => ?_
    have hlt : k < 10 := List.mem_range.1 hmem
    exact hP.regs _ _ _ (by omega) (.inl (by omega)) ht
  unfold memFlip
  dsimp only
  split
  · exact hP.regs _ _ _ (by decide) (.inl (by decide)) hmasks
  · exact hk

theorem sdramStore_kept (ch w : Nat) (b : Bytes) (hk : P s) : P (sdramStore ch w b s) :=
  hP.tables (memFlip_kept hP ch w hk) rfl

theorem memCe_kept (ch rank pos w : Nat) (hk : P s) : P (memCe ch rank pos w s) := by
  have hcount := regBump_kept hP uMEM ch 31 0 1 (o := 0x004) (by decide) hk
  have haddr := hP.regs uMEM ch (o := 0x018) (BitVec.ofNat 32 (w / 32 * 32)) (by decide)
    (.inr (by rw [BitVec.toNat_ofNat]; omega)) hcount
  have hwhere := hP.regs uMEM ch (o := 0x01C)
    (BitVec.ofNat 32 (0x80000000 + rank * 2 ^ 29 + pos * 2 ^ 24 + w / 2 ^ 32 % 0x10000)) (by decide) (.inl (by decide)) haddr
  refine raiseLim_kept hP _ _ _ _ _ _ _ ?_
  unfold memDevCount
  exact ite_keeps (hP.tables hwhere rfl) (hP.tables hwhere rfl)

theorem memUe_kept (ch rank w : Nat) (m : Bool) (i : Initiator) (hk : P s) : P (memUe ch rank w m i s) := by
  have hcount := regBump_kept hP uMEM ch 31 0 1 (o := 0x008) (by decide) hk
  refine hP.tables (ite_keeps hcount ?_) rfl
  exact hP.regs _ _ _ (by decide) (.inl (by decide)) (hP.regs _ _ _ (by decide) (.inl (by decide)) hcount)

theorem mergeWords_kept (i : Initiator) (ch rank : Nat) (l : List Nat) (hk : P s) : P (mergeWords i ch rank l s) := by
  induction l generalizing s with
  | nil => exact hk
  | cons w ws ih =>
    refine ih (ite_keeps (sdramStore_kept hP _ _ _ hk) ?_)
    split
    · exact sdramStore_kept hP _ _ _ hk
    · exact sdramStore_kept hP _ _ _ (memCe_kept hP _ _ _ _ hk)
    · exact memUe_kept hP _ _ _ _ _ hk

theorem cellEncode_kept (w : Nat) (hk : P s) : P (cellEncode w s) := by
  unfold cellEncode
  split
  · exact hP.tables (memFlip_kept hP _ _ hk) rfl
  · exact hP.tables hk rfl

theorem cellMerge_kept (a n : Nat) (hk : P s) : P (cellMerge a n s) := by
  unfold cellMerge
  split
  · exact mergeWords_kept hP _ _ _ _ hk
  · exact hk

theorem fillCells_kept (l : List Nat) (b : Bytes) (hk : P s) : P (fillCells l b s) := by
  induction l generalizing b s with
  | nil => exact hk
  | cons c cs ih =>
    exact ih _ (foldl_keeps _ (hP.tables (cellMerge_kept hP _ _ hk) rfl) fun _ _ ht => cellEncode_kept hP _ ht)

theorem fillPacket_kept (h : Nat) (b : Bytes) (hk : P s) : P (fillPacket h b s) := by
  unfold fillPacket
  split
  · exact fillCells_kept hP _ _ hk
  · exact hk

/-! ### A packet that joins a queue, or does not (R481 to R487) -/

theorem badHandle_kept (h q : Nat) (i : Initiator) (hk : P s) : P (badHandle h q i s) :=
  raiseLim_kept hP _ _ _ _ _ _ _ (regBump_kept hP _ _ _ _ _ (by decide) hk)

theorem quarantine_kept (q : Nat) (extra : List Nat) (hk : P s) : P (quarantine q extra s) := by
  refine hP.tables (foldl_keeps _ hk fun t h ht => ?_) rfl
  split
  · exact hP.tables ht rfl
  · exact ht

theorem sendNotice_kept (q : Nat) (named : Option Nat) (e : Bool) (i : Initiator) (hk : P s) :
    P (sendNotice q named e i s) := by
  unfold sendNotice
  cases named with
  | some t => exact hP.tables hk rfl
  | none => exact ite_keeps (hP.tables hk rfl) (ite_keeps (hP.tables hk (emit_msix _ s)) hk)

theorem enqueue_kept (q h : Nat) (named : Option Nat) (i : Initiator) (hk : P s) : P (enqueue q h named i s).2 := by
  unfold enqueue
  split
  · exact badHandle_kept hP _ _ _ hk
  · split
    · exact quarantine_kept hP _ _ (hP.tables hk rfl)
    · dsimp only
      split
      · exact raiseLim_kept hP _ _ _ _ _ _ _ (hP.tables hk rfl)
      · exact sendNotice_kept hP _ _ _ _ (hP.tables hk rfl)

theorem unitEnqueue_kept (q h : Nat) (named : Option Nat) (i : Initiator) (hk : P s) :
    P (unitEnqueue q h named i s).2 := by
  have he : P (enqueue q h named i s).2 := enqueue_kept hP q h named i hk
  unfold unitEnqueue
  generalize enqueue q h named i s = e at he ⊢
  obtain ⟨k, u⟩ := e
  cases k with
  | full => exact hP.tables he rfl
  | _ => exact he

/-- A packet that a unit sends. -/
theorem unitSend_kept (who : Allocator) (q : Nat) (b : Bytes) (i : Initiator) (hk : P s) : P (unitSend who q b i s).2 := by
  have ha : P (alloc who b.length s).2 := alloc_kept hP who b.length hk
  unfold unitSend
  generalize alloc who b.length s = x at ha ⊢
  obtain ⟨_ | h, u⟩ := x
  · exact raiseLim_kept hP _ _ _ _ _ _ _ ha
  · have he : P (unitEnqueue q h none i (fillPacket h b u)).2 := unitEnqueue_kept hP _ _ _ _ (fillPacket_kept hP _ _ ha)
    dsimp only
    generalize unitEnqueue q h none i (fillPacket h b u) = y at he ⊢
    obtain ⟨_ | _, v⟩ := y
    · exact he
    · exact he

end

/-! ### The radio's part of the state -/

/-- From `p` to `s` neither counters nor the radio's tables change, and no channel's counters freeze (R344). -/
structure RadioKept (p s : State) : Prop where
  counters : s.counters = p.counters
  chirp : s.chirp = p.chirp
  mods : s.chirpMods = p.chirpMods
  tags : s.tags = p.tags
  freeze : ∀ n, regF p uCSS n 0x018 1 1 = 0 → regF s uCSS n 0x018 1 1 = 0

theorem RadioKept.refl (s : State) : RadioKept s s := ⟨rfl, rfl, rfl, rfl, fun _ => id⟩

theorem RadioKept.trans {p s t : State} (h : RadioKept p s) (k : RadioKept s t) : RadioKept p t :=
  ⟨k.counters.trans h.counters, k.chirp.trans h.chirp, k.mods.trans h.mods, k.tags.trans h.tags,
    fun n hn => k.freeze n (h.freeze n hn)⟩

/-- What writes none of them keeps them. -/
theorem RadioKept.of_regs {s t : State} (hr : t.regs = s.regs) (hn : t.counters = s.counters) (hc : t.chirp = s.chirp)
    (hm : t.chirpMods = s.chirpMods) (ht : t.tags = s.tags) : RadioKept s t :=
  ⟨hn, hc, hm, ht, fun _ h => (regF_congr hr ..).trans h⟩

/-- A register of another offset leaves CSS_CNT_CTRL alone, and one whose low five bits are 0 leaves FREEZE clear. -/
theorem freeze_regPut {s : State} {u i o n : Nat} {v : W32} (ho : o < 0x10000) (hv : o ≠ 0x018 ∨ v.toNat % 32 = 0)
    (h : regF s uCSS n 0x018 1 1 = 0) : regF (regPut u i o v s) uCSS n 0x018 1 1 = 0 := by
  by_cases hkey : regKey uCSS n 0x018 = regKey u i o
  · have hoff : o = 0x018 := by unfold regKey at hkey; omega
    have hlow : v.toNat % 32 = 0 := hv.resolve_left (not_not_intro hoff)
    have hget : regGet (regPut u i o v s) uCSS n 0x018 = v := by
      rw [regGet, regPut, hkey]
      exact spGet_spSet_same _ _ _ _
    rw [regF, hget, bits]
    omega
  · rwa [regF, regGet_regPut_ne _ _ hkey, ← regF]

theorem sendsKeep_radio (p : State) : SendsKeep (RadioKept p) where
  tables := fun {s t} hk ht => hk.trans (by rw [ht]; exact .of_regs rfl rfl rfl rfl rfl)
  regs := fun _ _ _ _ ho hv hk => hk.trans ⟨rfl, rfl, rfl, rfl, fun _ => freeze_regPut ho hv⟩

theorem radioKept_unitSend (who : Allocator) (q : Nat) (b : Bytes) (i : Initiator) (s : State) :
    RadioKept s (unitSend who q b i s).2 := unitSend_kept (sendsKeep_radio s) who q b i (.refl s)

theorem radioKept_raiseLim (ns key c u i n : Nat) (d : Bytes) (s : State) : RadioKept s (raiseLim ns key c u i n d s) :=
  raiseLim_kept (sendsKeep_radio s) ns key c u i n d (.refl s)

end Sys2Proof.Machine
end

section
/-!
SUPPORT. The counters of chirp channels, and the band of a group: its messages, the gaps in them, and its stop
(09_chirp_radio.md, R321, R322, R335, R344).
-/
namespace Sys2Proof.Machine
open Sys2Proof

/-! ### Channels, groups and their counters (R343, R344) -/

section
variable (ch g k : Nat) (s : State)

@[simp] theorem chirpCh_chirpPut_same (x : ChirpCh) : chirpCh (chirpPut ch x s) ch = x := spGet_spSet_same _ _ _ _

@[simp] theorem chirpGroup_chirpGroupPut_same (x : ChirpGroup) : chirpGroup (chirpGroupPut g x s) g = x :=
  spGet_spSet_same _ _ _ _

theorem chirpCh_congr {s t : State} (h : s.chirp = t.chirp) : chirpCh s ch = chirpCh t ch := by rw [chirpCh, h, chirpCh]

theorem cntGet_congr {s t : State} (h : s.counters = t.counters) : cntGet s k = cntGet t k := by rw [cntGet, h, cntGet]

/-- A count changes the counters at most. -/
theorem cssCount_frame : ∃ n, cssCount ch k s = { s with counters := n } := by
  unfold cssCount
  split <;> exact ⟨_, rfl⟩

theorem cssCount_rest {s w : State} (h : { w with chirp := s.chirp, counters := s.counters } = s) :
    { cssCount ch k w with chirp := s.chirp, counters := s.counters } = s := by
  obtain ⟨n, hn⟩ := cssCount_frame ch k w
  rw [hn]
  exact h

/-- With FREEZE clear the counter counts. -/
theorem cssCount_counts (hf : regF s uCSS ch 0x018 1 1 = 0) : cssCount ch k s = cntBump (cntKey uCSS ch k) 1 s :=
  if_neg (by rw [hf]; decide)

theorem cntGet_cssCount_same (hf : regF s uCSS ch 0x018 1 1 = 0) :
    cntGet (cssCount ch k s) (cntKey uCSS ch k) = min 0xFFFFFFFF (cntGet s (cntKey uCSS ch k) + 1) := by
  rw [cssCount_counts ch k s hf, cntGet_cntBump]

theorem cntGet_cssCount_ne {j : Nat} (h : j ≠ k) :
    cntGet (cssCount ch k s) (cntKey uCSS ch j) = cntGet s (cntKey uCSS ch j) := by
  unfold cssCount
  split
  · rfl
  · exact spGet_spSet_ne _ _ _ (by unfold cntKey; omega)

@[simp] theorem cssCount_regs : (cssCount ch k s).regs = s.regs := by
  obtain ⟨_, h⟩ := cssCount_frame ch k s
  rw [h]

@[simp] theorem cssCount_chirp : (cssCount ch k s).chirp = s.chirp := by
  obtain ⟨_, h⟩ := cssCount_frame ch k s
  rw [h]

@[simp] theorem cssCount_chirpMods : (cssCount ch k s).chirpMods = s.chirpMods := by
  obtain ⟨_, h⟩ := cssCount_frame ch k s
  rw [h]

@[simp] theorem cssCount_chirpGroups : (cssCount ch k s).chirpGroups = s.chirpGroups := by
  obtain ⟨_, h⟩ := cssCount_frame ch k s
  rw [h]

@[simp] theorem cssCount_tags : (cssCount ch k s).tags = s.tags := by
  obtain ⟨_, h⟩ := cssCount_frame ch k s
  rw [h]

@[simp] theorem cssCount_mem : (cssCount ch k s).mem = s.mem := by
  obtain ⟨_, h⟩ := cssCount_frame ch k s
  rw [h]

@[simp] theorem cssCount_cox : (cssCount ch k s).cox = s.cox := by
  obtain ⟨_, h⟩ := cssCount_frame ch k s
  rw [h]

@[simp] theorem cssCount_out : (cssCount ch k s).out = s.out := by
  obtain ⟨_, h⟩ := cssCount_frame ch k s
  rw [h]

theorem raiseLim_chirpGroups (ns key c u i n : Nat) (d : Bytes) :
    (raiseLim ns key c u i n d s).chirpGroups = s.chirpGroups := by
  unfold raiseLim
  dsimp only
  split
  · split <;> rfl
  · rfl

theorem radioKept_cssEvent (code : Nat) : RadioKept s (cssEvent code ch k s) :=
  ite_keeps (.refl s) (radioKept_raiseLim _ _ _ _ _ _ _ s)

theorem cssEvent_chirpGroups (code : Nat) : (cssEvent code ch k s).chirpGroups = s.chirpGroups := by
  unfold cssEvent
  split
  · rfl
  · exact raiseLim_chirpGroups ..

theorem radioKept_txLateEvent : RadioKept s (txLateEvent ch s) :=
  ite_keeps (.refl s) (radioKept_raiseLim _ _ _ _ _ _ _ s)

theorem cntGet_cntZero_same : cntGet (cntZero k s) k = 0 := by
  rw [cntGet, cntZero, spGet, spFind_spDel_same]
  rfl

theorem cntGet_cntZero_ne {j : Nat} (h : j ≠ k) : cntGet (cntZero k s) j = cntGet s j := by
  rw [cntGet, cntZero, spGet, spFind_spDel_ne _ h]
  rfl

/-- CLEAR zeroes a channel's sixteen counters and nothing else (R344). -/
theorem cntGet_cssClear (hk : k < 16) : cntGet (cssClear ch s) (cntKey uCSS ch k) = 0 := by
  have zeroed : ∀ (l : List Nat) (t : State), k ∈ l ∨ cntGet t (cntKey uCSS ch k) = 0 →
      cntGet (l.foldl (fun s k => cntZero (cntKey uCSS ch k) s) t) (cntKey uCSS ch k) = 0 := by
    intro l
    induction l with
    | nil => exact fun t h => h.resolve_left List.not_mem_nil
    | cons j l ih =>
      refine fun t h => ih _ ?_
      by_cases hj : k = j
      · exact .inr (hj ▸ cntGet_cntZero_same _ t)
      · exact h.imp (fun hm => (List.mem_cons.1 hm).resolve_left hj)
          ((cntGet_cntZero_ne _ t (by unfold cntKey; omega)).trans ·)
  exact zeroed _ _ (.inl (List.mem_range.2 hk))

theorem cssClear_frame : { cssClear ch s with counters := s.counters } = s :=
  List.foldlRecOn (motive := fun t : State => { t with counters := s.counters } = s) _ _ rfl fun _ h _ _ => h

end

/-! ### A group's band (R321, R335) -/

theorem objFind_of_objsOf {s : State} {f t id : Nat} {o : Object} (h : objsOf s f t = [(id, o)]) :
    objFind s id = some o := by
  have hkey : id / 0x10000 = f * 256 + t := by
    have hmem : (id, o) ∈ objsOf s f t := by rw [h]; exact List.mem_singleton_self _
    simpa using (List.mem_filter.1 hmem).2
  have first : ∀ m : Sparse Object, spFind (m.filter fun e => e.1 / 0x10000 == f * 256 + t) id = spFind m id := by
    intro m
    induction m with
    | nil => rfl
    | cons e r ih =>
      obtain ⟨j, x⟩ := e
      by_cases hj : j / 0x10000 = f * 256 + t
      · rw [List.filter_cons_of_pos (by simpa using hj), spFind, spFind, ih]
      · have hne : j ≠ id := fun hji => hj (hji ▸ hkey)
        rw [List.filter_cons_of_neg (by simpa using hj), spFind, if_neg hne, ih]
  have hone := first s.objs
  change spFind (objsOf s f t) id = _ at hone
  rw [objFind, ← hone, h]
  exact if_pos rfl

section
variable (l : Long) (st : Nat) (res : Bytes) (s : State)

@[simp] theorem completeLong_objs : (completeLong l st res s).objs = s.objs := by
  obtain ⟨q, b, c, x, n, h⟩ := completeLong_frame l st res s
  rw [h]

@[simp] theorem completeLong_chirpGroups : (completeLong l st res s).chirpGroups = s.chirpGroups := by
  obtain ⟨q, b, c, x, n, h⟩ := completeLong_frame l st res s
  rw [h]

end

section
variable {s : State} {id : Nat} {o : Object}

/-- A function that reaches RUNNING, whether or not its START is outstanding (R62). -/
theorem objFind_reachRunning (ho : objFind s id = some o) :
    ∃ y, objFind (reachRunning id s) id = some y ∧ y.st = some .running ∧ y.body = o.body := by
  refine ⟨{ o with st := some .running, changed := shortNow s, last := stDONE }, ?_, rfl, rfl⟩
  unfold reachRunning
  rw [setFn_of_find ho]
  dsimp only
  rw [objFind_objPut_same]
  cases longOn (objPut id _ s) 3 id with
  | some l =>
    dsimp only
    rw [objFind, completeLong_objs]
    exact objFind_objPut_same _ _ _
  | none => exact objFind_objPut_same _ _ _

/-- A function that reaches STOPPED, whether or not its STOP is outstanding (R65). -/
theorem objFind_reachStopped (ho : objFind s id = some o) :
    (∃ y, objFind (reachStopped id s) id = some y ∧ y.st = some .stopped ∧ y.cost = 0) ∧
      (reachStopped id s).chirpGroups = s.chirpGroups := by
  have hfree : objFind (releaseCost id s) id = some { o with cost := 0 } := by
    rw [releaseCost_of_find ho]
    exact objFind_objPut_same _ _ _
  have hgroups : (releaseCost id s).chirpGroups = s.chirpGroups := by rw [releaseCost_of_find ho]; rfl
  unfold reachStopped
  rw [setFn_of_find hfree]
  dsimp only
  rw [objFind_objPut_same]
  cases longOn (objPut id _ (releaseCost id s)) 4 id with
  | some l =>
    dsimp only
    rw [completeLong_chirpGroups, objFind, completeLong_objs]
    exact ⟨⟨_, objFind_objPut_same _ _ _, rfl, rfl⟩, hgroups⟩
  | none => exact ⟨⟨_, objFind_objPut_same _ _ _, rfl, rfl⟩, hgroups⟩

end

section
variable {s : State} {port eaxc last id g : Nat} {o : Object}

/-- The band of the one chirp group carries a port's messages of an eAxC identifier. -/
structure Band (s : State) (port eaxc id : Nat) (o : Object) : Prop where
  only : objsOf s 3 1 = [(id, o)]
  port : fld o.body 0 1 = port
  eaxc : fld o.body 2 2 = eaxc

theorem bandMessage_starts (hb : Band s port eaxc id o) (hst : o.st = some .starting) : bandMessage port eaxc last s =
    fhRefresh (chirpGroupPut (id % 0x10000) { chirpGroup s (id % 0x10000) with seen := some last } (reachRunning id s)) := by
  simp [bandMessage, hb.only, hb.port, hb.eaxc, hst]

/-- A message of a running band: one that is late, or not beyond what was seen, is dropped, and any other follows on. -/
theorem bandMessage_running (hb : Band s port eaxc id o) (hst : o.st = some .running) : bandMessage port eaxc last s =
    if last + 2000000 < shortNow s ∨ (chirpGroup s (id % 0x10000)).seen.any (fun t => last ≤ t) then s
    else chirpGroupPut (id % 0x10000) (bandAdvance ((chirpGroup s (id % 0x10000)).got.length + 1)
      { chirpGroup s (id % 0x10000) with got := (chirpGroup s (id % 0x10000)).got ++ [last] }) s := by
  simp [bandMessage, hb.only, hb.port, hb.eaxc, hst]

/-- What a single message makes of a band that keeps none out of order. -/
theorem bandAdvance_first (x : ChirpGroup) (hs : x.seen = none) (hg : x.got = []) :
    bandAdvance 1 { x with got := [last] } = { x with seen := some last } := by
  obtain ⟨seen, got, blank⟩ := x
  subst hs hg
  rfl

theorem bandAdvance_next {t : Nat} (x : ChirpGroup) (hs : x.seen = some t) (hg : x.got = []) :
    bandAdvance 1 { x with got := [last] } =
      if last = t + 100000 then { x with seen := some last } else { x with got := [last] } := by
  obtain ⟨seen, got, blank⟩ := x
  subst hs hg
  by_cases h : last = t + 100000
  · simp [bandAdvance, h]
  · simp [bandAdvance, h, Ne.symm h]

/-- A band that keeps no message out of order has none to take up. -/
theorem bandAdvance_alone {t : Nat} (x : ChirpGroup) (hs : x.seen = some t) (hg : x.got = []) : bandAdvance 1 x = x := by
  obtain ⟨seen, got, blank⟩ := x
  subst hs hg
  rfl

/-- A message 2 ms overdue is replaced, and each channel of the group counts it. -/
theorem bandGap_replaces {t : Nat} (ho : objFind s (chirpObj g) = some o) (hst : o.st = some .running)
    (hs : (chirpGroup s g).seen = some t) (hdue : t + 2100000 ≤ shortNow s) (hg : (chirpGroup s g).got = []) :
    bandGap g s = (chirpEntries o.body).foldl (fun s e => cssEvent 0x2301 e.channel 11 (cssCount e.channel 11 s))
      (chirpGroupPut g { chirpGroup s g with seen := some (t + 100000), got := [] } s) := by
  rw [bandGap, ho, hs]
  refine (if_pos ⟨hst, (Nat.add_assoc t 100000 2000000).trans_le hdue, by simp [hg]⟩).trans ?_
  rw [hg, List.filter_nil, List.length_nil, Nat.zero_add, bandAdvance_alone _ rfl rfl]

theorem bandGap_waits {t : Nat} (ho : objFind s (chirpObj g) = some o) (hs : (chirpGroup s g).seen = some t)
    (h : (chirpGroup s g).got.contains (t + 100000) = true ∨ shortNow s < t + 2100000) : bandGap g s = s := by
  simp only [bandGap, ho, hs]
  refine if_neg fun ⟨_, hdue, hmiss⟩ => ?_
  rcases h with h | h
  · rw [h] at hmiss
    cases hmiss
  · omega

/-- The channels' counts and events leave the groups. -/
theorem gapCounts_chirpGroups (es : List ChirpEntry) (t : State) :
    (es.foldl (fun s e => cssEvent 0x2301 e.channel 11 (cssCount e.channel 11 s)) t).chirpGroups = t.chirpGroups :=
  foldl_keeps (P := fun u : State => u.chirpGroups = t.chirpGroups) es rfl fun u e hu => by
    rw [cssEvent_chirpGroups, cssCount_chirpGroups, hu]

theorem objFind_fhRefresh (s : State) (k : Nat) : objFind (fhRefresh s) k = objFind s k := rfl
theorem chirpGroup_fhRefresh (s : State) (k : Nat) : chirpGroup (fhRefresh s) k = chirpGroup s k := rfl

theorem chirpStopped_stops (ho : objFind s (chirpObj g) = some o) (hst : o.st = some .stopping)
    (hm : ∀ y ∈ s.chirpMods, y.2.group ≠ g) :
    (∃ y, objFind (chirpStopped g s) (chirpObj g) = some y ∧ y.st = some .stopped ∧ y.cost = 0) ∧
      chirpGroup (chirpStopped g s) g = {} := by
  have hfree : (s.chirpMods.any fun m => m.2.group == g) = false := by simpa using hm
  let channels := (chirpEntries o.body).foldl
    (fun s e => chirpPut e.channel { floorAt := (chirpCh s e.channel).floorAt } s) s
  have hobjs : channels.objs = s.objs :=
    foldl_keeps (P := fun t : State => t.objs = s.objs) (chirpEntries o.body) rfl fun _ _ h => h
  let given := c0Set (chirpObj g) [] { taskGive (chirpObj g) channels with chirpGroups := spDel channels.chirpGroups g }
  have hgiven : objFind given (chirpObj g) = some o := by rw [← ho, objFind, objFind, ← hobjs]; rfl
  have hstop : chirpStopped g s = fhRefresh (reachStopped (chirpObj g) given) := by
    simp only [chirpStopped, ho, hst, hfree]
    rfl
  obtain ⟨hy, hgroups⟩ := objFind_reachStopped hgiven
  rw [hstop, objFind_fhRefresh, chirpGroup_fhRefresh, chirpGroup, hgroups]
  refine ⟨hy, ?_⟩
  change spGet {} (spDel channels.chirpGroups g) g = {}
  rw [spGet, spFind_spDel_same]
  rfl

theorem chirpStopped_waits (ho : objFind s (chirpObj g) = some o) (hm : ∃ y ∈ s.chirpMods, y.2.group = g) :
    chirpStopped g s = s := by
  simp only [chirpStopped, ho]
  exact if_pos (.inr (by simpa using hm))

end

end Sys2Proof.Machine
end

section
/-!
SUPPORT. Reception of chirp frames: detections, header checks and the end of a reception (09_chirp_radio.md, R327 to R332,
R337 to R339).
-/
namespace Sys2Proof.Machine
open Sys2Proof

/-! ### Detections (R327, R328) -/

/-- The up-chirps that agree are the last PREAMBLE_MIN, all of one bin. -/
theorem agreeing_spec {e : ChirpEntry} {so : Nat} {l run : List UpChirp} (h : agreeing e so l = some run) :
    run.length = e.preambleMin ∧ run <:+ l ∧ ∀ p ∈ run, ∀ q ∈ run, p.bin = q.bin := by
  unfold agreeing at h
  dsimp only at h
  split at h
  · cases h
  next c r hrun =>
    split at h
    next hok =>
      obtain rfl := Option.some.inj h
      obtain ⟨hlen, hall⟩ := hok
      have hbin : ∀ p ∈ l.drop (l.length - e.preambleMin), p.bin = c.bin := fun p hp => by
        have := List.all_eq_true.1 hall p hp
        simp only [Bool.and_eq_true, beq_iff_eq] at this
        exact this.1
      exact ⟨hlen, List.drop_suffix _ _, fun p hp q hq => (hbin p hp).trans (hbin q hq).symm⟩
    · cases h

section
variable {s : State} {ch so id at_ bin : Nat} {b : Bytes} {e : ChirpEntry} {chirps run : List UpChirp}
  {checks : List (Nat × SyncSeen × List (BitVec 11))} {frames : List (BitVec 16)} {part : RxData}

theorem detection_ignored (hrun : chirpRunning s ch = some (id, b, e)) (h : so < 5 ∨ bit e.mask (so - 5) = false ∨
    blanked s (id % 0x10000) = true ∨ agreeing e so chirps = none) : detection ch so chirps checks frames part s = s := by
  simp only [detection, hrun]
  by_cases hskip : so < 5 ∨ !bit e.mask (so - 5) ∨ blanked s (id % 0x10000)
  · exact if_pos hskip
  · have hnone : agreeing e so chirps = none := by
      rcases h with h | h | h | h
      · exact absurd (.inl h) hskip
      · exact absurd (.inr (.inl (by simp [h]))) hskip
      · exact absurd (.inr (.inr h)) hskip
      · exact h
    rw [if_neg hskip, hnone]

theorem demods_takeDetection (d : Nat) : (chirpCh (takeDetection ch d so at_ bin s) ch).demods =
    spPut (chirpCh s ch).demods d { so := so, at_ := at_, bin := bin, floor := regF s uCSS ch 0x004 31 16 } := by
  rw [takeDetection, chirpCh_congr ch (cssCount_chirp ch 0 _), chirpCh_chirpPut_same]

theorem takeIdle_free (hd : (chirpCh s ch).demods = []) : takeIdle ch so at_ bin s = takeDetection ch 0 so at_ bin s := by
  rw [takeIdle, hd]
  rfl

/-- A detection of a channel that receives nothing goes to its first demodulator. -/
theorem detected_free (hd : (chirpCh s ch).demods = []) (strength : Int) :
    detected b e ch so strength at_ bin false frames part s =
      takeDetection ch 0 so at_ bin (chirpPut ch { chirpCh s ch with busyAt := s.now } s) := by
  simp only [detected, hd, List.any_nil, List.find?_nil, Bool.false_eq_true, if_false]
  simp only [captureOf, hd, List.filter_nil, List.foldl_nil, Option.map_none]
  exact takeIdle_free (by rw [chirpCh_chirpPut_same])

theorem detection_free {c : UpChirp} (hrun : chirpRunning s ch = some (id, b, e)) (hso : 5 ≤ so)
    (hmask : bit e.mask (so - 5) = true) (hblank : blanked s (id % 0x10000) = false) (ha : agreeing e so chirps = some run)
    (hlast : run.getLast? = some c) (hd : (chirpCh s ch).demods = []) : detection ch so chirps checks frames part s =
      takeDetection ch 0 so c.timing.toNat c.bin.toNat (chirpPut ch { chirpCh s ch with busyAt := s.now } s) := by
  have hdue : (checks.filter fun k => (spFind (chirpCh s ch).demods k.1).any fun r => r.so == so && r.header.isNone) = [] :=
    List.filter_eq_nil_iff.2 fun k _ => by rw [hd]; exact Bool.false_ne_true
  simp only [detection, hrun, ha, hdue]
  rw [if_neg (by simp [hso, hmask, hblank]), List.foldl_nil, List.any_nil, detected_free hd, hlast]
  rfl

end

/-! ### Header checks (R329, R330, R338) -/

section
variable {s : State} {ch d id : Nat} {b h : Bytes} {e : ChirpEntry} {r : Reception} {pre : SyncSeen}
  {symbols : List (BitVec 11)} (hrun : chirpRunning s ch = some (id, b, e)) (hr : spFind (chirpCh s ch).demods d = some r)
include hrun hr

theorem headerCheck_drops (hno : r.header = none) (h : frameFollows e pre = false ∨ decodeHeader r.so symbols = none) :
    headerCheck ch d pre symbols s = cssCount ch 3 (dropDemod ch d s) := by
  have hfail : (if frameFollows e pre then decodeHeader r.so symbols else none) = none := by
    rcases h with h | h
    · rw [h]; rfl
    · rw [h, ite_self]
  simp only [headerCheck, hrun, hr, hno, Option.isSome_none, Bool.false_eq_true, if_false, hfail]

/-- The reception confirmed, with its time at the antenna and its tag's lookup. -/
def confirmed (s : State) (b : Bytes) (e : ChirpEntry) (r : Reception) (h : Bytes) (c : Nat) : Reception :=
  { r with header := some h
           time := quantise b (shortNow s - rxDelay b - headerSymbols r.so * chirpTs r.so e.bw)
           registered := tagRegistered s (hdrTag h), entry := tagRegistered s (hdrTag h), corrections := c }

theorem headerCheck_confirms {c : Nat} (hno : r.header = none) (hf : frameFollows e pre = true)
    (hdec : decodeHeader r.so symbols = some (h, c)) : headerCheck ch d pre symbols s =
      chirpPut ch { chirpCh s ch with demods := spPut (chirpCh s ch).demods d (confirmed s b e r h c) } s := by
  simp only [headerCheck, hrun, hr, hno, Option.isSome_none, Bool.false_eq_true, if_false, hf, if_true, hdec]
  rfl

/-! ### The end of a reception (R332, R337 to R339) -/

theorem receptionEnd_unconfirmed {x : RxData} (hno : r.header = none) : receptionEnd ch d x s = s := by
  simp only [receptionEnd, hrun, hr, hno]

theorem receptionEnd_short {x : RxData} (hh : r.header = some h)
    (hx : x.symbols.length < payloadSymbols r.so (hdrLen h) (hdrCode h)) : receptionEnd ch d x s = s := by
  simp only [receptionEnd, hrun, hr, hh]
  exact if_pos hx

end

theorem frameFollows_iff (e : ChirpEntry) (p : SyncSeen) : frameFollows e p = true ↔ e.preambleMin + 2 ≤ p.upChirps.toNat ∧
    p.sync = some (BitVec.ofNat 8 e.sync) ∧ p.after.toNat ≤ 64 ∧ p.marker = true := by
  simp [frameFollows, and_assoc]

theorem demods_dropDemod (ch d : Nat) (s : State) : spFind (chirpCh (dropDemod ch d s) ch).demods d = none := by
  rw [dropDemod, chirpCh_chirpPut_same]
  exact spFind_spDel_same _ _

theorem demods_placed (ch d : Nat) (y : Reception) (s : State) : spFind (chirpCh
    (chirpPut ch { chirpCh s ch with demods := spPut (chirpCh s ch).demods d y } s) ch).demods d = some y := by
  rw [chirpCh_chirpPut_same]
  exact spFind_spPut_same _ _ _

/-- A payload's free nibbles depend on the free values alone, and draw on nothing else. -/
theorem freeNibbles_draws {l : List (Option (Nat × Nat))} {s t : State} (h : s.free = t.free) :
    (freeNibbles l s).1 = (freeNibbles l t).1 ∧ ∃ n, (freeNibbles l s).2 = { s with free := n } := by
  induction l generalizing s t with
  | nil => exact ⟨rfl, s.free, rfl⟩
  | cons x l ih =>
    cases x with
    | some n =>
      obtain ⟨hv, hs⟩ := ih h
      exact ⟨congrArg (n.1 :: ·) hv, hs⟩
    | none =>
      obtain ⟨hv, n, hs⟩ := ih (s := (draw s).2) (t := (draw t).2) (congrArg (· + 1) h)
      exact ⟨congrArg₂ (fun a v => a :: v) (congrArg (Config.fresh · % 16) h) hv, n, hs⟩

theorem decodePayload_draws (so : Nat) (h : Bytes) (l : List (BitVec 11)) {s t : State} (hf : s.free = t.free) :
    (decodePayload so h l s).1 = (decodePayload so h l t).1 ∧ RadioKept s (decodePayload so h l s).2.2 := by
  unfold decodePayload
  dsimp only
  split
  · obtain ⟨hv, n, hs⟩ := freeNibbles_draws (l := nibblesOf (2 * min ((bitsOfSymbols so l).length / 16) (hdrLen h + 3))
      (bitsOfSymbols so l)) hf
    exact ⟨by dsimp only; rw [hv], by dsimp only; rw [hs]; exact .of_regs rfl rfl rfl rfl rfl⟩
  · exact ⟨rfl, .refl s⟩

/-- What a reception's record leaves: the channels, the registry, and the counters below 8. -/
structure Recorded (ch : Nat) (p s : State) : Prop where
  chirp : s.chirp = p.chirp
  tags : s.tags = p.tags
  counts : ∀ k, k < 8 → cntGet s (cntKey uCSS ch k) = cntGet p (cntKey uCSS ch k)

theorem Recorded.refl (ch : Nat) (s : State) : Recorded ch s s := ⟨rfl, rfl, fun _ _ => rfl⟩

theorem Recorded.trans {ch : Nat} {p s t : State} (h : Recorded ch p s) (k : Recorded ch s t) : Recorded ch p t :=
  ⟨k.chirp.trans h.chirp, k.tags.trans h.tags, fun n hn => (k.counts n hn).trans (h.counts n hn)⟩

theorem RadioKept.recorded {p s : State} (h : RadioKept p s) (ch : Nat) : Recorded ch p s :=
  ⟨h.chirp, h.tags, fun _ _ => cntGet_congr _ h.counters⟩

theorem recorded_cssCount (ch k : Nat) (s : State) (hk : 8 ≤ k) : Recorded ch s (cssCount ch k s) :=
  ⟨cssCount_chirp ch k s, cssCount_tags ch k s, fun _ _ => cntGet_cssCount_ne ch k s (by omega)⟩

theorem recorded_rxRecord (b : Bytes) (ch d outcome : Nat) (known : Option Bool) (dup : Bool)
    (so time last floor corr crc : Nat) (h pay : Bytes) (x : RxData) (s : State) :
    Recorded ch s (rxRecord b ch d outcome known dup so time last floor corr crc h pay x s) := by
  unfold rxRecord
  extract_lets u rec0
  have hu : Recorded ch s u := ite_keeps (recorded_cssCount ch 8 s (by decide)) (.refl ch s)
  refine ite_keeps hu ?_
  have hsend := (radioKept_unitSend .unit (fld b 16 2) (rec0 ++ pay) (unitInit uCSS ch) u).recorded ch
  generalize unitSend .unit (fld b 16 2) (rec0 ++ pay) (unitInit uCSS ch) u = y at hsend ⊢
  obtain ⟨_ | _, v⟩ := y
  · exact (hu.trans hsend).trans ((recorded_cssCount ch 10 v (by decide)).trans ((radioKept_cssEvent ..).recorded ch))
  · exact hu.trans hsend

theorem tagUpdate_keeps (b h : Bytes) (ch last : Nat) (x : RxData) (s : State) :
    (tagUpdate b h ch last x s).2.chirp = s.chirp ∧ (tagUpdate b h ch last x s).2.counters = s.counters := by
  unfold tagUpdate
  dsimp only
  split <;> exact ⟨rfl, rfl⟩

/-- The registry's update, made where the tag's entry stands. -/
theorem registryUpdate_keeps (c : Bool) (b h : Bytes) (ch last : Nat) (x : RxData) (s : State) :
    (if c then tagUpdate b h ch last x s else (false, s)).2.chirp = s.chirp ∧
      (if c then tagUpdate b h ch last x s else (false, s)).2.counters = s.counters := by
  cases c with
  | true => exact tagUpdate_keeps ..
  | false => exact ⟨rfl, rfl⟩

section
variable {s : State} {ch d id : Nat} {b h : Bytes} {e : ChirpEntry} {r : Reception} {x : RxData}

/-- The reception that ended is gone, and its outcome counted. -/
theorem Recorded.ended {k : Nat} {v w u : State} (hu : Recorded ch w u) (hv : RadioKept (dropDemod ch d s) v)
    (hw : w.chirp = v.chirp ∧ w.counters = (cssCount ch k v).counters) (hk : k < 8)
    (hf : regF s uCSS ch 0x018 1 1 = 0) : spFind (chirpCh u ch).demods d = none ∧
      cntGet u (cntKey uCSS ch k) = min 0xFFFFFFFF (cntGet s (cntKey uCSS ch k) + 1) := by
  obtain ⟨hchirp, hcnt⟩ := hw
  refine ⟨?_, ?_⟩
  · rw [chirpCh_congr ch (hu.chirp.trans (hchirp.trans hv.chirp)), demods_dropDemod]
  · rw [hu.counts k hk, cntGet_congr _ hcnt, cntGet_cssCount_same ch k v (hv.freeze ch hf), cntGet_congr _ hv.counters]
    rfl

/-- A whole payload's reception ends, with OK or CRC as its CRC-24 says. -/
theorem receptionEnd_whole (hrun : chirpRunning s ch = some (id, b, e)) (hr : spFind (chirpCh s ch).demods d = some r)
    (hh : r.header = some h) (hx : payloadSymbols r.so (hdrLen h) (hdrCode h) ≤ x.symbols.length) :
    let bs := (decodePayload r.so h x.symbols s).1
    let ok := crc24 (h ++ bs.take (hdrLen h)) = beNat (bs.drop (hdrLen h))
    ∃ v, RadioKept (dropDemod ch d s) v ∧
      (ok → ∃ w, (w.chirp = v.chirp ∧ w.counters = (cssCount ch 1 v).counters) ∧ Recorded ch w (receptionEnd ch d x s)) ∧
      (¬ ok → Recorded ch (cssCount ch 2 v) (receptionEnd ch d x s)) := by
  obtain ⟨hbs, hv⟩ := decodePayload_draws r.so h x.symbols (s := dropDemod ch d s) (t := s) rfl
  rw [← hbs]
  unfold receptionEnd
  rw [hrun, hr]
  dsimp only
  rw [hh]
  dsimp only
  rw [if_neg (Nat.not_lt.2 hx)]
  generalize decodePayload r.so h x.symbols (dropDemod ch d s) = y at hv ⊢
  obtain ⟨bs, c, v⟩ := y
  dsimp only at hv ⊢
  refine ⟨v, hv, fun hok => ?_, fun hbad => ?_⟩
  · rw [if_pos (beq_iff_eq.2 hok)]
    have hz := registryUpdate_keeps r.entry b h ch (shortNow v - rxDelay b) x (cssCount ch 1 v)
    generalize (if r.entry then tagUpdate b h ch (shortNow v - rxDelay b) x (cssCount ch 1 v)
      else (false, cssCount ch 1 v)) = z at hz ⊢
    exact ⟨z.2, hz.imp_left (·.trans (cssCount_chirp ch 1 v)),
      .trans (ite_keeps (recorded_cssCount ch 9 z.2 (by decide)) (.refl ch z.2)) (recorded_rxRecord ..)⟩
  · rw [if_neg (mt beq_iff_eq.1 hbad)]
    exact recorded_rxRecord ..

end

end Sys2Proof.Machine
end

section
/-!
SUPPORT. The noise floor, transmission and the tag registry (09_chirp_radio.md, R334, R336, R340 to R343).
-/
namespace Sys2Proof.Machine
open Sys2Proof

/-! ### The noise floor (R336) -/

section
variable {s : State} {ch power id : Nat} {b : Bytes} {e : ChirpEntry}

/-- A symbol period is not quiet, or does not follow the last one. -/
def Busy (s : State) (ch id : Nat) (e : ChirpEntry) : Prop :=
  (chirpCh s ch).demods ≠ [] ∨ s.now < (chirpCh s ch).busyAt + leastTs e ∨ s.now < (chirpCh s ch).noiseAt + leastTs e ∨
    shortNow s < (chirpGroup s (id % 0x10000)).blankUntil + leastTs e

theorem noisePeriod_busy (hrun : chirpRunning s ch = some (id, b, e)) (h : Busy s ch id e) : noisePeriod ch power s = s := by
  simp only [noisePeriod, hrun]
  exact if_pos h

theorem noisePeriod_quiet (hrun : chirpRunning s ch = some (id, b, e)) (h : ¬ Busy s ch id e) :
    (chirpCh (noisePeriod ch power s) ch).noise =
      ((chirpCh s ch).noise ++ [power]).drop ((chirpCh s ch).noise.length - 63) ∧
    (noisePeriod ch power s).counters = s.counters := by
  simp only [noisePeriod, hrun, if_neg (show ¬ (_ ∨ _) from h)]
  exact ⟨congrArg ChirpCh.noise (chirpCh_chirpPut_same ..), rfl⟩

end

/-! ### Transmission (R334, R340 to R342) -/

theorem radioKept_txResult (b : Bytes) (launch ch m outcome cookie stop : Nat) (s : State) :
    RadioKept s (txResult b launch ch m outcome cookie stop s) := radioKept_unitSend ..

section
variable {s w : State} {g h m : Nat} {o : Object} {t : Bytes} {x : ChirpMod} {parts : List (Nat × Nat × RxData)}

theorem txDequeue_empty (ho : objFind s (chirpObj g) = some o) (hq : (queue s (fld o.body 20 2)).items = []) :
    txDequeue g s = s := by
  simp only [txDequeue, ho, hq]

section
variable (ho : objFind s (chirpObj g) = some o) (hst : o.st = some .running)
  (hq : (queue s (fld o.body 20 2)).items.head? = some h)
  (hdue : fld (packetBytes s h) 0 8 ≤ shortNow s + fld o.body 24 2 * 1000)
include ho hst hq hdue

theorem txDequeue_withheld (ht : takePacket (unitInit uCSS 0) (fld o.body 20 2) s = (none, w)) : txDequeue g s = w := by
  obtain ⟨r, hr⟩ := List.head?_eq_some_iff.1 hq
  simp only [txDequeue, ho, hr, ht]
  exact if_neg (by simp [hst, hdue])

/-- The modulator booked for a descriptor. -/
def bookedMod (g : Nat) (b t : Bytes) : ChirpMod :=
  let e := ((chirpEntries b).find? (·.channel == fld t 8 1)).getD ⟨0, 0, 0, 0, 0, 0⟩
  let syms := frameSymbols (fld t 9 1) (fld t 10 1) e.sync (txHeader t) (t.drop 32)
  { group := g, channel := fld t 8 1, launch := fld t 0 8, stop := fld t 0 8 + syms.length * chirpTs (fld t 9 1) e.bw
    cookie := fld t 20 4, symbols := syms, so := fld t 9 1, atten := fld t 17 1 }

theorem txDequeue_books (ht : takePacket (unitInit uCSS 0) (fld o.body 20 2) s = (some t, w))
    (hok : txDescOk o.body t = true) (htime : shortNow s + txDelay o.body + 300000 ≤ fld t 0 8) (hm : w.chirpMods = []) :
    txDequeue g s = { w with chirpMods := [(0, bookedMod g o.body t)] } := by
  obtain ⟨r, hr⟩ := List.head?_eq_some_iff.1 hq
  have hfirst : ((List.range 64).find? fun m => (spFind w.chirpMods m).isNone) = some 0 := by rw [hm]; rfl
  simp only [txDequeue, ho, hr, ht]
  rw [if_neg (by simp [hst, hdue]), if_neg (by simp [hok]), if_neg (Nat.not_lt.2 htime), if_neg (by simp [hm]), hfirst, hm]
  rfl

end

section
variable (hx : spFind s.chirpMods m = some x) (ho : objFind s (chirpObj x.group) = some o)
include hx ho

theorem txLaunch_early (h : shortNow s < x.launch - txDelay o.body) : txLaunch m parts s = s := by
  simp only [txLaunch, hx, ho]
  exact if_pos (.inr h)

/-- A frame more than a band sample period late is not sent. -/
theorem txLaunch_late (hst : x.started = false) (hdue : x.launch - txDelay o.body ≤ shortNow s)
    (hlate : 625 < (shortNow s - (x.launch - txDelay o.body)) * 2 ^ fld o.body 6 1) : txLaunch m parts s =
      txLateEvent x.channel (cssCount x.channel 13
        (txResult o.body x.launch x.channel m txLATE x.cookie 0 { s with chirpMods := spDel s.chirpMods m })) := by
  simp only [txLaunch, hx, ho]
  rw [if_neg (by simp [hst, hdue]), if_pos hlate]

/-- The message of a frame that leaves. -/
def launchFrame (b : Bytes) (x : ChirpMod) : Bytes :=
  leBytes 2 (fld b 4 2) ++ leBytes 8 x.launch ++
    [BitVec.ofNat 8 x.channel, BitVec.ofNat 8 x.so, BitVec.ofNat 8 x.atten] ++ x.symbols.flatMap (leBytes 2)

/-- A frame leaves at its time, where it blanks no reception. -/
theorem txLaunch_leaves (hst : x.started = false) (hdue : x.launch - txDelay o.body ≤ shortNow s)
    (htime : (shortNow s - (x.launch - txDelay o.body)) * 2 ^ fld o.body 6 1 ≤ 625) (hb : chirpFlag o.body 0 = false) :
    txLaunch m parts s = emit (.eth (fld o.body 0 1) "chirp-tx" (launchFrame o.body x)) (cssCount x.channel 12
      (regBump uCSS m 0x8004 31 0 1 { s with chirpMods := spPut s.chirpMods m { x with started := true } })) := by
  simp only [txLaunch, hx, ho]
  rw [if_neg (by simp [hst, hdue]), if_neg (Nat.not_lt.2 htime), hb]
  rfl

theorem txEnd_frees (hst : x.started = true) (hstop : x.stop ≤ shortNow s) : txEnd m s =
    txResult o.body x.launch x.channel m txLAUNCHED x.cookie x.stop { s with chirpMods := spDel s.chirpMods m } := by
  have ho' : objFind { s with chirpMods := spDel s.chirpMods m } (chirpObj x.group) = some o := ho
  simp only [txEnd, hx]
  rw [if_pos ⟨hst, hstop⟩, ho']

end

theorem txEnd_early (hx : spFind s.chirpMods m = some x) (h : shortNow s < x.stop) : txEnd m s = s := by
  simp only [txEnd, hx]
  exact if_neg fun hk => absurd hk.2 (Nat.not_le.2 h)

/-- With no launch pending and no frame held back, an Ethernet frame leaves at once (R440). -/
theorem emit_eth (hl : NoLaunch s) (p : Nat) (kind : String) (d : Bytes) :
    (emit (.eth p kind d) s).out = s.out ++ [.eth p kind d] ∧ (emit (.eth p kind d) s).chirpMods = s.chirpMods ∧
      (emit (.eth p kind d) s).mem = s.mem ∧ (emit (.eth p kind d) s).regs = s.regs := by
  obtain ⟨hnone, hheld⟩ := hl
  have hfree : portHeld s (.eth p kind d) = false := by simp [portHeld, outPort, hnone, hheld]
  rw [emit, hfree]
  exact ⟨rfl, rfl, rfl, rfl⟩

end

/-! ### The registry's commands (R343) -/

section
variable {s : State} {r : Request}

theorem unitPresent_css {p : Part} {n : Nat} (h : n < cssChannels p) : unitPresent p uCSS n = true := by
  have hmax : cssChannels p ≤ 256 := by cases p <;> decide
  change (decide (n < 256) && decide (n < cssChannels p)) = true
  simp only [Bool.and_eq_true, decide_eq_true_eq]
  omega

theorem tagEntry_set (t : Nat) (v : Bytes) : tagEntry { s with tags := spPut s.tags t v } t = v := by
  rw [tagEntry, spFind_spPut_same]
  rfl

theorem tagEntry_set_ne {t k : Nat} (v : Bytes) (h : k ≠ t) :
    tagEntry { s with tags := spPut s.tags t v } k = tagEntry s k := by
  rw [tagEntry, spFind_spPut_ne _ _ h, tagEntry]

theorem tagRegistered_of_entry {t : Nat} (ht : t < 2 ^ 18) (h : tagEntry s t = leBytes 4 (2 ^ 31 + t) ++ zeros 28) :
    tagRegistered s t = true := by
  have hsum : 2 ^ 31 + t < 256 ^ 4 := by omega
  have hfld : fld (leBytes 4 (2 ^ 31 + t) ++ zeros 28) 0 4 = 2 ^ 31 + t := by
    rw [fld_append_left _ _ (by simp), fld_leBytes, Nat.mod_eq_of_lt hsum]
  rw [tagRegistered, h, hfld, bit, beq_iff_eq]
  omega

section
variable (hc : cssChannels s.part ≠ 0) (ha : Addressed r uCSS 0) (hl : r.params.length = 4) (ht : fld r.params 0 4 < 2 ^ 18)
include hc ha hl ht

theorem tagCheck_eq (known : Bool) :
    tagCheck s r known = if !known || tagRegistered s (fld r.params 0 4) then 0 else 0x0302 := by
  have htarget : targetCheck s r uCSS 0 = 0 := targetCheck_addressed ha (unitPresent_css (Nat.pos_of_ne_zero hc))
  simp only [tagCheck, htarget, hl, decide_eq_true ht, beq_self_eq_true, need_true, firstFail_zero, firstFail_singleton]
  rfl

theorem replies_tagSet : Replies (.tagSet r) s 0x0340 r 0 []
    { s with tags := spPut s.tags (fld r.params 0 4) (leBytes 4 (2 ^ 31 + fld r.params 0 4) ++ zeros 28) } :=
  replies_of_runCmd ha (exec_tagSet ..) (tagSetOp.eq_def r s) (tagCheck_eq hc ha hl ht false) rfl

theorem replies_tagGet (hr : tagRegistered s (fld r.params 0 4) = true) :
    Replies (.tagGet r) s 0x0342 r 0 (tagEntry s (fld r.params 0 4)) s :=
  replies_of_runCmd ha (exec_tagGet ..) (tagGetOp.eq_def r s) (by rw [tagCheck_eq hc ha hl ht, hr]; rfl) rfl

theorem replies_tagRemove (hr : tagRegistered s (fld r.params 0 4) = true) : ∃ w,
    Replies (.tagRemove r) s 0x0341 r 0 [] w ∧ w.tags = spDel s.tags (fld r.params 0 4) ∧
      { w with tags := s.tags, chirp := s.chirp } = s :=
  ⟨_, replies_of_runCmd ha (exec_tagRemove ..) (tagRemoveOp.eq_def r s) (by rw [tagCheck_eq hc ha hl ht, hr]; rfl) rfl,
    rfl, rfl⟩

theorem replies_tag_unknown (hr : tagRegistered s (fld r.params 0 4) = false) :
    Replies (.tagGet r) s 0x0342 r 0x0302 [] s ∧ Replies (.tagRemove r) s 0x0341 r 0x0302 [] s := by
  have hchk : tagCheck s r true = 0x0302 := by rw [tagCheck_eq hc ha hl ht, hr]; rfl
  exact ⟨replies_of_runCmd_refused ha (exec_tagGet ..) (tagGetOp.eq_def r s) hchk (by decide),
    replies_of_runCmd_refused ha (exec_tagRemove ..) (tagRemoveOp.eq_def r s) hchk (by decide)⟩

end

theorem replies_chirpStats (ha : Addressed r uCSS r.inst.toNat) (hn : r.inst.toNat < cssChannels s.part)
    (hp : r.params = []) : Replies (.chirpStats r) s 0x0343 r 0
      (((List.range 16).map fun k => cntGet s (cntKey uCSS r.inst.toNat k)).flatMap (leBytes 4)) s :=
  replies_of_runCmd ha (exec_chirpStats ..) (chirpStatsOp.eq_def r s)
    (by simp [targetCheck_addressed ha (unitPresent_css hn), hp]) (by rw [List.flatMap_map])

end

theorem tagRegistry : Claims.TagRegistry := by
  intro s r hc hdry t
  refine ⟨fun ha hl ht => ⟨?sets, fun hr => ⟨replies_tagGet hc ha hl ht hr, ?removes⟩, replies_tag_unknown hc ha hl ht⟩,
    fun ha hn hp => ⟨_, ?length, fun k hk => ?fields, replies_chirpStats ha hn hp⟩⟩
  case sets =>
    have hset : tagEntry { s with tags := spPut s.tags t (leBytes 4 (2 ^ 31 + t) ++ zeros 28) } t =
        leBytes 4 (2 ^ 31 + t) ++ zeros 28 := tagEntry_set t _
    exact effect_of_replies (replies_tagSet hc ha hl ht)
      ⟨hset, tagRegistered_of_entry ht hset, fun k hk => tagEntry_set_ne _ hk, rfl⟩
  case removes =>
    obtain ⟨w, hw, htags, hrest⟩ := replies_tagRemove hc ha hl ht hr
    refine effect_of_replies hw ⟨?_, fun k hk => ?_, hrest⟩
    · rw [tagRegistered, tagEntry, htags, spFind_spDel_same]
      rfl
    · rw [tagEntry, htags, spFind_spDel_ne _ hk, tagEntry]
  case length => simp [List.length_flatMap, Function.comp_def]
  case fields =>
    rw [fld_word _ (by simpa using hk)]
    simp

end Sys2Proof.Machine
end

section
/-!
SUPPORT. The events of the radio, each from the rules of its operations (09_chirp_radio.md, R321, R322, R327 to R344).
-/
namespace Sys2Proof.Machine
open Sys2Proof

/-! ### The events, as they are carried out -/

section
variable {s : State}

section
variable {port : Fin 48} {eaxc : BitVec 16} {last : BitVec 64} {id : Nat} {o : Object}

theorem effect_bandMessage_starting (hb : Band s port eaxc.toNat id o) (hst : o.st = some .starting) :
    Effect (.bandSampleMessage port eaxc last) s fun u =>
      (∃ y, objFind u id = some y ∧ y.st = some .running ∧ y.body = o.body) ∧
        (chirpGroup u (id % 0x10000)).seen = some last.toNat := by
  refine effect_of_eq (exec_bandSampleMessage ..) (bandMessage_starts hb hst) ⟨?_, ?_⟩
  · rw [objFind_fhRefresh]
    exact objFind_reachRunning (objFind_of_objsOf hb.only)
  · rw [chirpGroup_fhRefresh, chirpGroup_chirpGroupPut_same]

theorem effect_bandMessage_dropped (hb : Band s port eaxc.toNat id o) (hst : o.st = some .running)
    (h : last.toNat + 2000000 < shortNow s ∨ (chirpGroup s (id % 0x10000)).seen.any (fun t => last.toNat ≤ t) = true) :
    Effect (.bandSampleMessage port eaxc last) s fun u => u = s :=
  effect_done (exec_bandSampleMessage ..) ((bandMessage_running hb hst).trans (if_pos h))

/-- A message in time, beyond what was seen, changes the band's record and nothing else. -/
theorem effect_bandMessage_follows {y : ChirpGroup} (hb : Band s port eaxc.toNat id o) (hst : o.st = some .running)
    (hin : shortNow s ≤ last.toNat + 2000000) (hgot : (chirpGroup s (id % 0x10000)).got = [])
    (hseen : (chirpGroup s (id % 0x10000)).seen.any (fun t => last.toNat ≤ t) = false)
    (hy : bandAdvance 1 { chirpGroup s (id % 0x10000) with got := [last.toNat] } = y) :
    Effect (.bandSampleMessage port eaxc last) s fun u =>
      chirpGroup u (id % 0x10000) = y ∧ { u with chirpGroups := s.chirpGroups } = s := by
  have hkeep : ¬ (last.toNat + 2000000 < shortNow s ∨
      (chirpGroup s (id % 0x10000)).seen.any (fun t => last.toNat ≤ t) = true) :=
    not_or.2 ⟨Nat.not_lt.2 hin, Bool.eq_false_iff.1 hseen⟩
  refine effect_of_eq (exec_bandSampleMessage ..) ((bandMessage_running hb hst).trans (if_neg hkeep)) ?_
  simp only [hgot, List.nil_append, List.length_nil, Nat.zero_add, hy]
  exact ⟨chirpGroup_chirpGroupPut_same .., rfl⟩

end

/-- A detection that a channel without receptions takes: its first demodulator holds it, and it is counted. -/
theorem takeDetection_effect {ch so at_ bin busy : Nat} (hf : regF s uCSS ch 0x018 1 1 = 0)
    (hd : (chirpCh s ch).demods = []) :
    let u := takeDetection ch 0 so at_ bin (chirpPut ch { chirpCh s ch with busyAt := busy } s)
    (chirpCh u ch).demods = [(0, { so := so, at_ := at_, bin := bin, floor := regF s uCSS ch 0x004 31 16 })] ∧
      cntGet u (cntKey uCSS ch 0) = min 0xFFFFFFFF (cntGet s (cntKey uCSS ch 0) + 1) ∧
      { u with chirp := s.chirp, counters := s.counters } = s := by
  intro u
  refine ⟨?_, cntGet_cssCount_same ch 0 _ hf, cssCount_rest ch 0 rfl⟩
  rw [demods_takeDetection, chirpCh_chirpPut_same]
  dsimp only
  rw [hd]
  rfl

/-- A reception dropped by its header check, and counted. -/
theorem dropDemod_effect {ch d : Nat} (hf : regF s uCSS ch 0x018 1 1 = 0) :
    let u := cssCount ch 3 (dropDemod ch d s)
    spFind (chirpCh u ch).demods d = none ∧
      cntGet u (cntKey uCSS ch 3) = min 0xFFFFFFFF (cntGet s (cntKey uCSS ch 3) + 1) ∧
      { u with chirp := s.chirp, counters := s.counters } = s := by
  intro u
  refine ⟨?_, cntGet_cssCount_same ch 3 (dropDemod ch d s) hf, cssCount_rest ch 3 rfl⟩
  rw [chirpCh_congr ch (cssCount_chirp ch 3 _), demods_dropDemod]

/-- A frame that ends LATE: its modulator is free, and it is counted. -/
theorem lateFrame_effect {b : Bytes} {ch m launch cookie : Nat} :
    let u := txLateEvent ch (cssCount ch 13 (txResult b launch ch m txLATE cookie 0
      { s with chirpMods := spDel s.chirpMods m }))
    spFind u.chirpMods m = none ∧ (regF s uCSS ch 0x018 1 1 = 0 →
      cntGet u (cntKey uCSS ch 13) = min 0xFFFFFFFF (cntGet s (cntKey uCSS ch 13) + 1)) := by
  intro u
  have hres := radioKept_txResult b launch ch m txLATE cookie 0 { s with chirpMods := spDel s.chirpMods m }
  have hlate : RadioKept (cssCount ch 13 _) u := radioKept_txLateEvent ch _
  refine ⟨?_, fun hf => ?_⟩
  · rw [hlate.mods, cssCount_chirpMods, hres.mods, spFind_spDel_same]
  · rw [cntGet_congr _ hlate.counters, cntGet_cssCount_same ch 13 _ (hres.freeze ch hf), cntGet_congr _ hres.counters]
    rfl

end

theorem chirpChannels : Claims.ChirpChannels := by
  intro s g ch id o e port eaxc last so chirps newest checks pre frames part d symbols power m r x b now fails
    counts message detect follows x0 ts demods
  refine ⟨fun hone hport heaxc => ?band, fun ho hst t hs => ?gap, fun ho hst => ?stops, fun hrun hf => ?receives,
    fun ho => ?dequeues, fun hx ho => ?sends, ?clears⟩
  case band =>
    have hb : Band s port eaxc.toNat id o := ⟨hone, hport, heaxc⟩
    refine ⟨effect_bandMessage_starting hb, fun hst hin hgot => ⟨fun hs => ?first, fun t hs => ⟨fun hlast => ?next,
      fun hlt hne => ?beyond, fun hle => ?seen⟩⟩, fun hst hlate => effect_bandMessage_dropped hb hst (.inl hlate)⟩
    case first =>
      obtain ⟨u, he, hu, hrest⟩ := effect_bandMessage_follows hb hst hin hgot (by rw [hs]; rfl) (bandAdvance_first _ hs hgot)
      exact ⟨u, he, by rw [hu], hrest⟩
    case next =>
      obtain ⟨u, he, hu, hrest⟩ := effect_bandMessage_follows hb hst hin hgot
        (by rw [hs]; exact decide_eq_false (by omega)) ((bandAdvance_next _ hs hgot).trans (if_pos hlast))
      exact ⟨u, he, by rw [hu], by rw [hu]; exact hgot, hrest⟩
    case beyond =>
      obtain ⟨u, he, hu, hrest⟩ := effect_bandMessage_follows hb hst hin hgot
        (by rw [hs]; exact decide_eq_false (Nat.not_le.2 hlt)) ((bandAdvance_next _ hs hgot).trans (if_neg hne))
      exact ⟨u, he, by rw [hu]; exact hs, by rw [hu], hrest⟩
    case seen => exact effect_bandMessage_dropped hb hst (.inr (by rw [hs]; exact decide_eq_true hle))
  case gap =>
    refine ⟨fun hdue hgot => ?replaced, fun h => effect_done (exec_bandGap ..) (bandGap_waits ho hs (.inl h)),
      fun h => effect_done (exec_bandGap ..) (bandGap_waits ho hs (.inr h))⟩
    refine effect_of_eq (exec_bandGap ..) (bandGap_replaces ho hst hs hdue hgot) ⟨?_, fun hf hone hch => ?_⟩
    · rw [chirpGroup, gapCounts_chirpGroups, ← chirpGroup, chirpGroup_chirpGroupPut_same]
    · rw [hone, List.foldl_cons, List.foldl_nil, hch]
      exact (cntGet_congr _ (radioKept_cssEvent ..).counters).trans (cntGet_cssCount_same ch 11 _ hf)
  case stops =>
    exact ⟨fun hm => effect_done (exec_chirpGroupStopped ..) (chirpStopped_stops ho hst hm),
      fun hm => effect_done (exec_chirpGroupStopped ..) (chirpStopped_waits ho hm)⟩
  case receives =>
    refine ⟨fun run ha => ?agrees, fun h => effect_done (exec_detection ..) (detection_ignored hrun h),
      fun hr hno => ⟨fun h => ?drops, fun h c hfol hdec => ?confirms,
        effect_done (exec_receptionEnd ..) (receptionEnd_unconfirmed hrun hr hno)⟩,
      fun h hr hh => ⟨fun hx => effect_done (exec_receptionEnd ..) (receptionEnd_short hrun hr hh hx), fun hx => ?ends⟩,
      fun hd h1 h2 h3 => ?quiet, fun h => effect_done (exec_noiseFloorPeriod ..) (noisePeriod_busy hrun h)⟩
    case agrees =>
      obtain ⟨hlen, hsuf, hbin⟩ := agreeing_spec ha
      refine ⟨hlen, hsuf, hbin, fun c hlast hso hmask hblank hd => ?_⟩
      exact effect_of_eq (exec_detection ..) (detection_free hrun hso hmask hblank ha hlast hd) (takeDetection_effect hf hd)
    case drops =>
      have hfail : frameFollows e pre = false ∨ decodeHeader r.so symbols = none :=
        h.imp_left fun hn => Bool.eq_false_iff.2 (mt (frameFollows_iff e pre).1 hn)
      exact effect_of_eq (exec_headerCheck ..) (headerCheck_drops hrun hr hno hfail) (dropDemod_effect hf)
    case confirms =>
      have hfol' : frameFollows e pre = true := (frameFollows_iff e pre).2 hfol
      exact effect_of_eq (exec_headerCheck ..) (headerCheck_confirms hrun hr hno hfol' hdec)
        ⟨⟨confirmed s b e r h c, demods_placed .., rfl, rfl, rfl⟩, rfl⟩
    case ends =>
      obtain ⟨v, hv, hok, hbad⟩ := receptionEnd_whole hrun hr hh hx
      refine effect_done (exec_receptionEnd ..) ?_
      by_cases h24 : crc24 (h ++ (decodePayload r.so h part.symbols s).1.take (hdrLen h)) =
          beNat ((decodePayload r.so h part.symbols s).1.drop (hdrLen h))
      · obtain ⟨w, hw, hu⟩ := hok h24
        obtain ⟨hgone, hcount⟩ := hu.ended hv hw (by decide) hf
        exact ⟨hgone, fun _ => hcount, fun hn => absurd h24 hn⟩
      · have hu := hbad h24
        obtain ⟨hgone, hcount⟩ := hu.ended hv ⟨cssCount_chirp .., rfl⟩ (by decide) hf
        exact ⟨hgone, fun hy => absurd hy h24, fun _ => ⟨hcount, hu.tags.trans ((cssCount_tags ..).trans hv.tags)⟩⟩
    case quiet =>
      have hquiet : ¬ Busy s ch id e := by
        rintro (h | h | h | h)
        · exact h hd
        · exact absurd h1 (Nat.not_le.2 h)
        · exact absurd h2 (Nat.not_le.2 h)
        · exact absurd h3 (Nat.not_le.2 h)
      exact effect_done (exec_noiseFloorPeriod ..) (noisePeriod_quiet hrun hquiet)
  case dequeues =>
    refine ⟨fun hq => effect_done (exec_txDequeue ..) (txDequeue_empty ho hq), fun h t w hst hq hdue ht hok htime hm => ?_,
      fun h w hst hq ht hdue => effect_done (exec_txDequeue ..) (txDequeue_withheld ho hst hq hdue ht)⟩
    exact effect_of_eq (exec_txDequeue ..) (txDequeue_books ho hst hq hdue ht hok htime hm)
      ⟨bookedMod g o.body t, rfl, rfl, rfl, rfl, rfl, rfl, rfl, Nat.le_add_right _ _⟩
  case sends =>
    refine ⟨fun hst hdue hlate => effect_of_eq (exec_txFrameLaunch ..) (txLaunch_late hx ho hst hdue hlate) lateFrame_effect,
      fun hst hdue htime hflag hl => ?leaves, fun h => effect_done (exec_txFrameLaunch ..) (txLaunch_early hx ho h),
      fun hst hstop => ?frees, fun h => effect_done (exec_txFrameEnd ..) (txEnd_early hx h)⟩
    case leaves =>
      refine effect_of_eq (exec_txFrameLaunch ..) (txLaunch_leaves hx ho hst hdue htime hflag) ?_
      obtain ⟨hout, hmods, hmem, hregs⟩ := emit_eth (s := cssCount x.channel 12 (regBump uCSS m 0x8004 31 0 1
        { s with chirpMods := spPut s.chirpMods m { x with started := true } }))
        (by rw [NoLaunch, cssCount_cox]; exact hl) (fld b 0 1) "chirp-tx" (launchFrame b x)
      refine ⟨⟨launchFrame b x, hout.trans (by rw [cssCount_out]; rfl)⟩, ?_, hmem.trans (by rw [cssCount_mem]; rfl), ?_⟩
      · rw [hmods, cssCount_chirpMods]
        exact spFind_spPut_same _ _ _
      · rw [regF_congr (hregs.trans (cssCount_regs ..))]
        exact regF_regBump_word ..
    case frees =>
      have hres := radioKept_txResult o.body x.launch x.channel m txLAUNCHED x.cookie x.stop
        { s with chirpMods := spDel s.chirpMods m }
      refine effect_of_eq (exec_txFrameEnd ..) (txEnd_frees hx ho hst hstop) ⟨?_, fun k hk => ?_⟩
      · rw [hres.mods, spFind_spDel_same]
      · rw [hres.mods, spFind_spDel_ne _ hk]
  case clears =>
    exact effect_done (exec_cssCntClear ..) ⟨fun k hk => cntGet_cssClear ch k s hk, cssClear_frame ch s⟩

/-- Settles O40: what each event of the radio does, from the rules of its operations; what a packet sent by the unit leaves
alone carries the counts past the records it writes. -/
theorem chirpRadio : Obligations.ChirpRadio := ⟨chirpChannels, tagRegistry⟩

end Sys2Proof.Machine
end

section
/-!
SUPPORT. The audio bridge's legs, groups and counters, its groups' RUNNING and STOPPED, and parameter descriptors as they
join those that wait (10_audio_bridge.md, R349, R350, R367 to R370, R383).
-/
namespace Sys2Proof.Machine
open Sys2Proof

/-! ### Legs, groups and counters -/

section
variable (l g k n : Nat) (s : State)

@[simp] theorem legFind_legPut_same (x : Leg) : legFind (legPut l x s) l = some x := spFind_spPut_same _ _ _

theorem legFind_legPut_ne {l k : Nat} (x : Leg) (h : k ≠ l) : legFind (legPut l x s) k = legFind s k :=
  spFind_spPut_ne _ _ h

@[simp] theorem audioGroup_audioGroupPut_same (x : AudioGroup) : audioGroup (audioGroupPut g x s) g = x :=
  spGet_spSet_same _ _ _ _

theorem audioGroup_audioGroupPut_ne {g k : Nat} (x : AudioGroup) (h : k ≠ g) :
    audioGroup (audioGroupPut g x s) k = audioGroup s k := spGet_spSet_ne _ _ _ h

theorem legFind_congr {s t : State} (h : s.audio = t.audio) : legFind s l = legFind t l := by rw [legFind, h, legFind]

/-- A count changes the counters at most. -/
theorem legCount_frame : ∃ c, legCount l k n s = { s with counters := c } := by
  unfold legCount
  split <;> exact ⟨_, rfl⟩

@[simp] theorem legCount_audio : (legCount l k n s).audio = s.audio := by
  obtain ⟨_, h⟩ := legCount_frame l k n s
  rw [h]

theorem cntGet_legCount (hf : regF s uAUDIO 0 0x00C 1 1 = 0) :
    cntGet (legCount l k 1 s) (cntKey uAUDIO l k) = min 0xFFFFFFFF (cntGet s (cntKey uAUDIO l k) + 1) := by
  rw [legCount, if_neg (by rw [hf]; decide), cntGet_cntBump]

/-- A limited event changes what waits to be delivered and the times of the last ones, and nothing else. -/
theorem raiseLim_frame (ns key c u i sev : Nat) (d : Bytes) :
    ∃ e m, raiseLim ns key c u i sev d s = { s with evq := e, raised := m } := by
  unfold raiseLim
  dsimp only
  split
  · split <;> exact ⟨_, _, rfl⟩
  · exact ⟨_, _, rfl⟩

theorem raiseLim_audio (ns key c u i sev : Nat) (d : Bytes) : (raiseLim ns key c u i sev d s).audio = s.audio := by
  obtain ⟨e, m, h⟩ := raiseLim_frame s ns key c u i sev d
  rw [h]

@[simp] theorem audioLate_audio : (audioLate l s).audio = s.audio := by
  unfold audioLate
  split
  · rfl
  · exact raiseLim_audio ..

@[simp] theorem paramDrop_audio (reason : Nat) : (paramDrop l reason s).audio = s.audio := by
  rw [paramDrop, raiseLim_audio, legCount_audio]

theorem cntGet_paramDrop (reason : Nat) (hf : regF s uAUDIO 0 0x00C 1 1 = 0) :
    cntGet (paramDrop l reason s) (cntKey uAUDIO l 11) = min 0xFFFFFFFF (cntGet s (cntKey uAUDIO l 11) + 1) := by
  obtain ⟨e, m, h⟩ := raiseLim_frame (legCount l 11 1 s) second l 0x2403 uAUDIO 0 1
    (leBytes 2 l ++ [BitVec.ofNat 8 reason])
  rw [paramDrop, h]
  exact cntGet_legCount l 11 s hf

end

/-! ### Functions that reach RUNNING or STOPPED (R62, R65) -/

section
variable {s : State} {id : Nat} {o : Object}

/-- The object of a function that reaches RUNNING, whether or not its START is outstanding. -/
theorem objFind_reachRunning_eq (ho : objFind s id = some o) : objFind (reachRunning id s) id =
    some { o with st := some .running, changed := shortNow s, last := stDONE } := by
  unfold reachRunning
  rw [setFn_of_find ho]
  dsimp only
  rw [objFind_objPut_same]
  cases longOn (objPut id _ s) 3 id with
  | some l =>
    dsimp only
    rw [objFind, completeLong_objs]
    exact objFind_objPut_same _ _ _
  | none => exact objFind_objPut_same _ _ _

theorem completeLong_audio (l : Long) (st : Nat) (res : Bytes) (s : State) :
    (completeLong l st res s).audio = s.audio := by
  obtain ⟨q, b, c, x, n, h⟩ := completeLong_frame l st res s
  rw [h]

theorem setFn_audio (st : FnState) (s : State) : (setFn id st s).audio = s.audio := by
  unfold setFn
  split <;> rfl

theorem releaseCost_audio (s : State) : (releaseCost id s).audio = s.audio := by
  unfold releaseCost
  split <;> rfl

theorem reachStopped_audio (s : State) : (reachStopped id s).audio = s.audio := by
  have hset : (setFn id .stopped (releaseCost id s)).audio = s.audio := (setFn_audio _ _).trans (releaseCost_audio _)
  unfold reachStopped
  dsimp only
  split
  · rw [completeLong_audio]
    exact hset
  · exact hset
  · exact hset

end

/-! ### The states of a bridge group (R349, R350) -/

/-- A stopping group whose run-time state, pool, tasks and class-0 traffic are given back. -/
def freedBridge (g : Nat) (o : Object) (s : State) : State :=
  c0Set (bridgeObj g) [] (taskGive (bridgeObj g)
    (audioMod (fun a => { a with groups := spDel a.groups g }) (objPut (bridgeObj g) { o with pool := 0 } s)))

theorem objFind_freedBridge (g : Nat) (o : Object) (s : State) :
    objFind (freedBridge g o s) (bridgeObj g) = some { o with pool := 0 } :=
  spFind_spPut_same s.objs (bridgeObj g) { o with pool := 0 }

theorem freedBridge_groups (g : Nat) (o : Object) (s : State) :
    (freedBridge g o s).audio.groups = spDel s.audio.groups g := rfl

section
variable {s : State} {g : Nat} {o : Object} (ho : objFind s (bridgeObj g) = some o)
include ho

theorem isRunning_bridge (hst : o.st = some .running) : isRunning s (bridgeObj g) = true := by
  simp [isRunning, ho, hst]

theorem bridgeBody_of_find : bridgeBody s g = o.body := by
  rw [bridgeBody, ho]
  rfl

/-- The first block at least 2 ms after the admission, in nanoseconds. -/
def startTime (s : State) (g : Nat) : Nat := ceilDiv ((audioGroup s g).admitted + 2000000) 1000000 * 1000000

theorem bridgeRunning_runs (hst : o.st = some .starting) (hdue : startTime s g ≤ shortNow s) :
    objFind (bridgeRunning g s) (bridgeObj g) =
      some { o with st := some .running, changed := shortNow s, last := stDONE } := by
  have hsplit : ∀ (devs : List Nat) (t : State), objFind (splitEvent g devs t) (bridgeObj g) = objFind t (bridgeObj g) := by
    intro devs t
    obtain ⟨e, m, h⟩ := raiseLim_frame t second g 0x2405 uAUDIO g 1
      (leBytes 2 (min 7 ((bridgeRemotes (bridgeBody t g)).filter devs.contains).length) ++
        (((bridgeRemotes (bridgeBody t g)).filter devs.contains).take 7).flatMap (leBytes 2))
    unfold splitEvent
    dsimp only
    rw [h]
    split <;> rfl
  rw [bridgeRunning, ho]
  dsimp only
  rw [if_pos ⟨hst, hdue⟩, hsplit]
  exact objFind_reachRunning_eq ho

theorem bridgeRunning_waits (h : shortNow s < startTime s g) : bridgeRunning g s = s := by
  rw [bridgeRunning, ho]
  exact if_neg fun hc => Nat.not_le.2 h hc.2

theorem bridgeStopped_stops (hst : o.st = some .stopping) (hl : legsOf s g = []) :
    (∃ y, objFind (bridgeStopped g s) (bridgeObj g) = some y ∧ y.st = some .stopped ∧ y.cost = 0) ∧
      audioGroup (bridgeStopped g s) g = {} := by
  have hstop : bridgeStopped g s = reachStopped (bridgeObj g) (freedBridge g o s) := by
    rw [bridgeStopped, ho]
    exact if_neg (by simp [hst, hl])
  rw [hstop]
  refine ⟨(objFind_reachStopped (objFind_freedBridge g o s)).1, ?_⟩
  rw [audioGroup, reachStopped_audio, freedBridge_groups, spGet, spFind_spDel_same]
  rfl

theorem bridgeStopped_waits (hl : legsOf s g ≠ []) : bridgeStopped g s = s := by
  rw [bridgeStopped, ho]
  exact if_pos (.inr hl)

end

/-! ### Descriptors that join those that wait (R367, R369) -/

theorem applyTime_fst (s : State) (t : Nat) : (applyTime s t).1 =
    if t = 0 ∨ sampleAt t < 48 * nextBlock s then nextBlock s * 1000000 else t := by
  unfold applyTime
  by_cases h0 : t = 0
  · simp [h0]
  · by_cases hlate : sampleAt t < 48 * nextBlock s <;> simp [h0, hlate]

/-- A descriptor of the queue goes behind all that wait. -/
theorem pendAdd_queue {p : ParamPend} (h : p.cmd = false) (ps : List ParamPend) : pendAdd p ps = ps ++ [p] := by
  simp [pendAdd, h]

/-- What waits once a descriptor has come for leg `l`. -/
def queuedParam (cmd : Bool) (l : Nat) (d : Bytes) (s : State) : ParamPend :=
  { time := (applyTime s (fld d 0 8)).1, leg := l, data := d, came := s.now, cmd := cmd }

/-- It joins the descriptors that wait; besides, only the leg's counters may change. -/
theorem queueParam_frame (cmd : Bool) (l : Nat) (d : Bytes) (s : State) : ∃ c, queueParam cmd l d s =
    { s with audio := { s.audio with pend := pendAdd (queuedParam cmd l d s) s.audio.pend }, counters := c } := by
  unfold queueParam
  dsimp only
  split
  · obtain ⟨c, h⟩ := legCount_frame l 10 1
      (audioMod (fun a => { a with pend := pendAdd (queuedParam cmd l d s) a.pend }) s)
    exact ⟨c, h⟩
  · exact ⟨_, rfl⟩

end Sys2Proof.Machine
end

section
/-!
SUPPORT. Taking a packet from a queue leaves AUDIO_CTRL, and with it FREEZE of the audio counters, as it is
(10_audio_bridge.md, R383; 13_memory_ecc.md, R457 to R469; 14_spool_dma.md, R483, R487).
-/
namespace Sys2Proof.Machine
open Sys2Proof

/-- The register that holds FREEZE of the audio counters (R383). -/
def audioCtrl (s : State) : W32 := regGet s uAUDIO 0 0x00C

theorem audioFreeze_congr {s t : State} (h : audioCtrl s = audioCtrl t) :
    regF s uAUDIO 0 0x00C 1 1 = regF t uAUDIO 0 0x00C 1 1 := congrArg (fun w : W32 => bits w.toNat 1 1) h

/-- It is read from the registers alone. -/
theorem audioCtrl_congr {s t : State} (h : s.regs = t.regs) : audioCtrl s = audioCtrl t := by
  rw [audioCtrl, regGet, h, audioCtrl, regGet]

section
variable (s : State)

/-! ### Registers of other units -/

theorem audioCtrl_regPut {u i o : Nat} (v : W32) (h : regKey uAUDIO 0 0x00C ≠ regKey u i o) :
    audioCtrl (regPut u i o v s) = audioCtrl s := regGet_regPut_ne _ _ h

theorem audioCtrl_regBump {u i o : Nat} (hi lo n : Nat) (h : regKey uAUDIO 0 0x00C ≠ regKey u i o) :
    audioCtrl (regBump u i o hi lo n s) = audioCtrl s := audioCtrl_regPut s _ h

/-- A register at another offset has another key. -/
theorem audioCtrl_key_offset {u i o : Nat} (ho : o < 0x10000) (h : o ≠ 0x00C) :
    regKey uAUDIO 0 0x00C ≠ regKey u i o := by
  unfold regKey
  omega

/-- A register of the power unit has another key, whatever its offset. -/
theorem audioCtrl_key_power (i o : Nat) : regKey uAUDIO 0 0x00C ≠ regKey uPOWER i o := by
  have hlt : regKey uAUDIO 0 0x00C < uPOWER * 0x1000000 := by decide
  exact (hlt.trans_le (Nat.le_add_right_of_le (Nat.le_add_right _ _))).ne

@[simp] theorem audioCtrl_raise (c u i n : Nat) (d : Bytes) : audioCtrl (raise c u i n d s) = audioCtrl s := rfl
@[simp] theorem audioCtrl_domPut (d : Nat) (x : Domain) : audioCtrl (domPut d x s) = audioCtrl s := rfl
@[simp] theorem audioCtrl_beginWake (d : Nat) : audioCtrl (beginWake d s) = audioCtrl s := rfl
@[simp] theorem audioCtrl_powerEnd (d : Nat) (t : PState) (st u i : Nat) :
    audioCtrl (powerEnd d t st u i s) = audioCtrl s := rfl

@[simp] theorem audioCtrl_raiseLim (ns k c u i n : Nat) (d : Bytes) :
    audioCtrl (raiseLim ns k c u i n d s) = audioCtrl s := by
  obtain ⟨e, m, h⟩ := raiseLim_frame s ns k c u i n d
  rw [h]
  rfl

/-! ### Wakes that an access to memory asks for (R536, R612, R615) -/

@[simp] theorem audioCtrl_domAccount (d k : Nat) (t : PState) (u i : Nat) :
    audioCtrl (domAccount d k t u i s) = audioCtrl s := by
  unfold domAccount
  dsimp only
  rw [audioCtrl_regPut _ _ (audioCtrl_key_power _ _)]
  split <;> exact audioCtrl_regBump _ _ _ _ (audioCtrl_key_power _ _)

@[simp] theorem audioCtrl_powerRefuse (d : Nat) (t : PState) (u i : Nat) :
    audioCtrl (powerRefuse d t u i s) = audioCtrl s := by
  simp [powerRefuse]

@[simp] theorem audioCtrl_putBack (crew : Nat) (rs : List Retained) : audioCtrl (putBack crew rs s) = audioCtrl s :=
  foldl_keeps (P := fun t => audioCtrl t = audioCtrl s) rs rfl fun _ _ h => h

@[simp] theorem audioCtrl_abortEntry (d u i : Nat) : audioCtrl (abortEntry d u i s) = audioCtrl s := by
  unfold abortEntry
  dsimp only
  split
  · split <;> simp
  · rfl

@[simp] theorem audioCtrl_wakeRequestBase (d u i : Nat) : audioCtrl (wakeRequestBase d u i s) = audioCtrl s := by
  unfold wakeRequestBase
  dsimp only
  repeat' split
  all_goals simp

@[simp] theorem audioCtrl_touch (d : Nat) : audioCtrl (touch d s) = audioCtrl s := by
  unfold touch
  split <;> rfl

@[simp] theorem audioCtrl_reach (d : Option Nat) : audioCtrl (reach d s).2 = audioCtrl s := by
  unfold reach
  cases d with
  | none => rfl
  | some d =>
    dsimp only
    split
    · rfl
    · split
      · rfl
      · split
        · exact audioCtrl_touch s d
        · split
          · rw [audioCtrl_touch, audioCtrl_wakeRequestBase]
          · rw [audioCtrl_wakeRequestBase, audioCtrl_regPut _ _ (audioCtrl_key_offset (by decide) (by decide))]

/-! ### Code words and the errors found in them (R457 to R469) -/

@[simp] theorem audioCtrl_memDevCount (ch rank pos : Nat) : audioCtrl (memDevCount ch rank pos s) = audioCtrl s := by
  unfold memDevCount
  dsimp only
  split <;> rfl

@[simp] theorem audioCtrl_memCe (ch rank pos w : Nat) : audioCtrl (memCe ch rank pos w s) = audioCtrl s := by
  unfold memCe
  dsimp only
  rw [audioCtrl_raiseLim, audioCtrl_memDevCount, audioCtrl_regPut _ _ (audioCtrl_key_offset (by decide) (by decide)),
    audioCtrl_regPut _ _ (audioCtrl_key_offset (by decide) (by decide)),
    audioCtrl_regBump _ _ _ _ (audioCtrl_key_offset (by decide) (by decide))]

@[simp] theorem audioCtrl_memUe (ch rank w : Nat) (m : Bool) (i : Initiator) :
    audioCtrl (memUe ch rank w m i s) = audioCtrl s := by
  have hcount : audioCtrl (regBump uMEM ch 0x008 31 0 1 s) = audioCtrl s :=
    audioCtrl_regBump _ _ _ _ (audioCtrl_key_offset (by decide) (by decide))
  unfold memUe
  dsimp only
  rw [audioCtrl_raise]
  split
  · exact hcount
  · rw [audioCtrl_regPut _ _ (audioCtrl_key_offset (by decide) (by decide)),
      audioCtrl_regPut _ _ (audioCtrl_key_offset (by decide) (by decide)), hcount]

@[simp] theorem audioCtrl_sdramRead (i : Initiator) (w ch rank : Nat) :
    audioCtrl (sdramRead i w ch rank s).2.2 = audioCtrl s := by
  unfold sdramRead
  dsimp only
  split
  · rfl
  · split <;> simp

@[simp] theorem audioCtrl_sramRead (u i : Nat) (x : Initiator) (w : Nat) :
    audioCtrl (sramRead u i x w s).2.2 = audioCtrl s := by
  have hce : audioCtrl (sramCe u i w s) = audioCtrl s := by
    unfold sramCe
    dsimp only
    rw [audioCtrl_raiseLim]
    split
    · exact audioCtrl_regBump _ _ _ _ (audioCtrl_key_offset (by decide) (by decide))
    · rfl
  have hue : audioCtrl (sramUe u i w x s) = audioCtrl s := by
    unfold sramUe
    dsimp only
    rw [audioCtrl_raise]
    split
    · exact audioCtrl_regBump _ _ _ _ (audioCtrl_key_offset (by decide) (by decide))
    · rfl
  unfold sramRead
  dsimp only
  split
  · rfl
  · split
    · rfl
    · exact hce
    · exact hue

/-! ### The packet -/

@[simp] theorem audioCtrl_cellWord (i : Initiator) (w : Nat) : audioCtrl (cellWord i w s).2 = audioCtrl s := by
  unfold cellWord
  dsimp only
  split
  all_goals
    rename_i hr
    refine (congrArg (fun r : Bus × Bytes × State => audioCtrl r.2.2) hr).symm.trans ?_
    split
    · split
      · rw [audioCtrl_sdramRead, audioCtrl_reach]
      · rfl
    · exact audioCtrl_sramRead s _ _ _ _

@[simp] theorem audioCtrl_cellsRead (i : Initiator) (ws : List Nat) : audioCtrl (cellsRead i ws s).2 = audioCtrl s := by
  induction ws generalizing s with
  | nil => rfl
  | cons w ws ih => exact (ih _).trans (audioCtrl_cellWord s i w)

theorem quarantine_regs (q : Nat) (extra : List Nat) : (quarantine q extra s).regs = s.regs :=
  foldl_keeps (P := fun t : State => t.regs = s.regs) _ rfl fun t h ht => by
    split
    · exact ht
    · exact ht

theorem dequeue_regs (q : Nat) : (dequeue q s).2.regs = s.regs := by
  unfold dequeue
  split
  · rfl
  · split
    · exact quarantine_regs (endPtr q s) q []
    · dsimp only
      split
      · rfl
      · dsimp only
        split <;> rfl

theorem audioCtrl_takePacket (i : Initiator) (q : Nat) : audioCtrl (takePacket i q s).2 = audioCtrl s := by
  have hdeq : audioCtrl (dequeue q s).2 = audioCtrl s := audioCtrl_congr (dequeue_regs s q)
  unfold takePacket
  generalize dequeue q s = x at hdeq ⊢
  obtain ⟨_ | h, t⟩ := x
  · exact hdeq
  · exact (audioCtrl_cellsRead t i _).trans hdeq

end

/-- FREEZE as it was, once a packet has been taken. -/
theorem audioFreeze_of_take {s v : State} {i : Initiator} {q : Nat} {p : Option Bytes}
    (h : takePacket i q s = (p, v)) : regF v uAUDIO 0 0x00C 1 1 = regF s uAUDIO 0 0x00C 1 1 := by
  have hv : v = (takePacket i q s).2 := by rw [h]
  rw [hv]
  exact audioFreeze_congr (audioCtrl_takePacket s i q)

end Sys2Proof.Machine
end

section
/-!
SUPPORT. What a block computes where no group has legs, the sums of a block, and the limiter (10_audio_bridge.md, R355,
R357, R362, R363, R365, R371).
-/
namespace Sys2Proof.Machine
open Sys2Proof

/-! ### The sum less one leg (R362, R363) -/

/-- What a leg's samples contribute at place `k` of a block. -/
def contribution (k : Nat) (ms : List MixSample) : Int :=
  match ms[k]? with
  | some m => if m.p.contribute then m.v else 0
  | none => 0

theorem contribution_of_sample {k : Nat} {ms : List MixSample} {m : MixSample} (h : ms[k]? = some m)
    (hc : m.p.contribute = true) : contribution k ms = m.v := by
  rw [contribution, h]
  exact if_pos hc

theorem sumOf_getD {k : Nat} (hk : k < 48) (ls : List (List MixSample)) :
    (sumOf ls).getD k 0 = (ls.map (contribution k)).sum := by
  rw [sumOf, List.getD_eq_getElem _ _ (by simpa using hk), List.getElem_map, List.getElem_range, List.sum_eq_foldl,
    List.foldl_map]
  refine List.foldl_ext _ _ _ fun acc ms _ => ?_
  unfold contribution
  cases ms[k]? with
  | none => exact (Int.add_zero acc).symm
  | some m => by_cases hc : m.p.contribute <;> simp [hc]

/-- The sum without a leg's own contribution is the sum of the others'. -/
theorem sumOf_less_own {k : Nat} (hk : k < 48) (pre post : List (List MixSample)) {own : List MixSample} {m : MixSample}
    (h : own[k]? = some m) (hc : m.p.contribute = true) :
    (sumOf (pre ++ [own] ++ post)).getD k 0 - m.v = (sumOf (pre ++ post)).getD k 0 := by
  simp only [sumOf_getD hk, List.map_append, List.sum_append, List.map_cons, List.map_nil, List.sum_cons, List.sum_nil,
    contribution_of_sample h hc]
  omega

theorem outValue_unity {s : State} {b : Nat} {sum : List Int} {m : MixSample} (hr : m.p.receive = true)
    (hc : m.p.contribute = true) (hl : m.p.listens = []) (hm : m.p.muteOut = false) (hg : m.p.outGain = 65536) :
    outValue s b sum m = sum.getD (m.n % 48) 0 - m.v := by
  simp only [outValue, hr, hc, hl, hm, hg, List.foldl_nil, Bool.not_true, Bool.false_eq_true, if_false, if_true]
  exact Int.mul_ediv_cancel _ (by decide)

/-! ### The limiter (R365) -/

/-- A gain within what a sample requires keeps it within LIMIT. -/
theorem natAbs_limited_le {m : MixSample} {g : Nat} (hg : g ≤ needGain m) :
    (m.v * g / 8388608).natAbs ≤ m.p.limit := by
  have hprod : (m.v * g).natAbs ≤ m.p.limit * 8388608 := by
    rw [Int.natAbs_mul, Int.natAbs_natCast]
    unfold needGain at hg
    split at hg
    · exact Nat.mul_le_mul ‹_› hg
    · exact (Nat.mul_comm _ _).trans_le ((Nat.mul_le_mul_right _ hg).trans (Nat.div_mul_le_self _ _))
  generalize m.v * g = z at hprod ⊢
  omega

/-- The gain after the look-ahead from a sample on, at most `up`. -/
def aheadGain (l : List MixSample) (up : Nat) : Nat := (l.take 48).foldl (fun a x => min a (needGain x)) up

theorem aheadGain_le (m : MixSample) (ms : List MixSample) (up : Nat) : aheadGain (m :: ms) up ≤ needGain m :=
  foldl_keeps (P := fun a => a ≤ needGain m) (ms.take 47) (Nat.min_le_right _ _) fun _ _ h => (Nat.min_le_left _ _).trans h

theorem needGain_le (m : MixSample) : needGain m ≤ 8388608 := by
  unfold needGain
  split
  · exact le_rfl
  · exact Nat.div_le_of_le_mul (Nat.mul_le_mul_right _ (by omega))

theorem limitRun_cons (k : Nat) (m : MixSample) (ms : List MixSample) (g : Nat) :
    (limitRun (k + 1) (m :: ms) g).1 =
      let gain := aheadGain (m :: ms) (g + ceilDiv (8388608 - g) (48 * m.p.release))
      (m.n, m.p.outDelay, m.v * gain / 8388608, decide (gain < 8388608)) :: (limitRun k ms gain).1 := rfl

/-- Each output is its sample's, within its LIMIT, and the sample itself where it was not limited. -/
theorem limitRun_spec (xs : List MixSample) (n gain : Nat) (i : Nat) {m : MixSample} {e : Nat × Nat × Int × Bool}
    (hx : xs[i]? = some m) (he : (limitRun n xs gain).1[i]? = some e) :
    e.1 = m.n ∧ e.2.2.1.natAbs ≤ m.p.limit ∧ (e.2.2.2 = false → e.2.2.1 = m.v) := by
  induction xs generalizing n gain i with
  | nil => cases hx
  | cons y ys ih =>
    cases n with
    | zero => cases he
    | succ n =>
      rw [limitRun_cons] at he
      cases i with
      | succ i => exact ih n _ i hx he
      | zero =>
        generalize hgain : aheadGain (y :: ys) _ = g at he
        have hg : g ≤ needGain y := hgain ▸ aheadGain_le y ys _
        cases hx
        cases he
        refine ⟨rfl, natAbs_limited_le hg, fun hfull => ?_⟩
        have hone : g = 8388608 := Nat.le_antisymm (hg.trans (needGain_le m)) (Nat.not_lt.1 (of_decide_eq_false hfull))
        rw [hone]
        exact Int.mul_ediv_cancel _ (by decide)

/-! ### Messages to other devices -/

section
variable (s : State)

/-- Frames on links change the links and the numbers of messages, and nothing else (R555 to R557). -/
theorem linkSend_frame (l cls : Nat) (kind : String) (d : Bytes) : ∃ z, linkSend l cls kind d s = { s with serial := z } := by
  unfold linkSend linkQueue
  dsimp only
  split
  · exact ⟨_, rfl⟩
  · split <;> exact ⟨_, rfl⟩

theorem sendData_frame (d cls : Nat) (kind : String) (b : Bytes) : ∃ z, sendData d cls kind b s = { s with serial := z } := by
  have hlink : ∀ (t : State) (l : Nat) (data : Bytes), (∃ z, t = { s with serial := z }) →
      ∃ z, linkSend l cls kind data t = { s with serial := z } := by
    rintro _ l data ⟨z, rfl⟩
    exact linkSend_frame _ l cls kind data
  unfold sendData
  dsimp only
  split
  · rename_i hring
    rw [hring.1] at hlink
    exact foldl_keeps (P := fun t : State => ∃ z, t = { s with serial := z }) _ ⟨_, rfl⟩ fun t _ ht => hlink t _ _ ht
  · split
    · exact hlink _ _ _ ⟨_, rfl⟩
    · exact ⟨_, rfl⟩

theorem sendTo_frame (d cls : Nat) (kind : String) (sel b : Bytes) :
    ∃ z, sendTo d cls kind sel b s = { s with serial := z } :=
  foldl_keeps (P := fun t : State => ∃ z, t = { s with serial := z }) _ ⟨_, rfl⟩ fun t _ ht => by
    obtain ⟨z, rfl⟩ := ht
    exact sendData_frame _ d cls kind _

end

/-! ### A group without legs in a block (R355, R371) -/

/-- From `p` to `s` no object and no register changes, no group but `g` does, and there are no legs. -/
structure OnlyGroup (g : Nat) (p s : State) : Prop where
  objs : s.objs = p.objs
  regs : s.regs = p.regs
  legs : s.audio.legs = []
  others : ∀ h, h ≠ g → audioGroup s h = audioGroup p h

theorem legsOf_nil {s : State} (h : s.audio.legs = []) (g : Nat) : legsOf s g = [] := by
  rw [legsOf, h]
  rfl

theorem bridgeSpan_congr {s t : State} (h : s.objs = t.objs) (g : Nat) : bridgeSpan s g = bridgeSpan t g := by
  rw [bridgeSpan, bridgeBody, objFind, h]
  rfl

theorem localGroup_legless {s : State} (h : s.audio.legs = []) (b g : Nat) (silent : Bool) :
    localGroup b g silent s = ([], s) := by
  rw [localGroup, legsOf_nil h]
  rfl

section
variable {p s : State} {g : Nat}

theorem OnlyGroup.refl (h : s.audio.legs = []) : OnlyGroup g s s := ⟨rfl, rfl, h, fun _ _ => rfl⟩

theorem OnlyGroup.groupPut (hk : OnlyGroup g p s) (x : AudioGroup) : OnlyGroup g p (audioGroupPut g x s) :=
  ⟨hk.objs, hk.regs, hk.legs, fun h hh => (audioGroup_audioGroupPut_ne s x hh).trans (hk.others h hh)⟩

theorem OnlyGroup.formed (hk : OnlyGroup g p s) (b : Nat) (sum : List Int) : OnlyGroup g p (formed g b sum s) :=
  hk.groupPut _

theorem OnlyGroup.spanTotal (hk : OnlyGroup g p s) (m : Nat) (loc : List Int) :
    OnlyGroup g p (spanTotal g m loc s).2 := by
  rw [Machine.spanTotal]
  dsimp only
  rw [legsOf_nil (hk.groupPut _).legs]
  exact hk.groupPut _

end

/-- The local sums of a group without legs on their way to the devices it spans. -/
def sentSums (b g : Nat) (s : State) : State :=
  (bridgeRemotes (bridgeBody s g)).foldl (fun s d =>
    sendTo d 0 "sub-sum" (leBytes 2 g ++ leBytes 8 (b * 1000000)) ((sumOf []).flatMap fun v => leBytes 8 (ofS 64 v)) s) s

section
variable {s : State} (hl : s.audio.legs = []) (b g : Nat) (silent : Bool)
include hl

theorem onlyGroup_sentSums : OnlyGroup g s (sentSums b g s) :=
  foldl_keeps (P := OnlyGroup g s) _ (.refl hl) fun t d ht => by
    obtain ⟨z, hz⟩ := sendTo_frame t d 0 "sub-sum" (leBytes 2 g ++ leBytes 8 (b * 1000000))
      ((sumOf []).flatMap fun v => leBytes 8 (ofS 64 v))
    rw [hz]
    exact ⟨ht.objs, ht.regs, ht.legs, ht.others⟩

theorem groupBlock_alone (hs : bridgeSpan s g = false) :
    groupBlock b g silent s = (some (b, []), formed g b (sumOf []) s) := by
  rw [groupBlock, localGroup_legless hl]
  exact if_neg (by rw [hs]; decide)

theorem groupBlock_first (hs : bridgeSpan s g = true) (hx : (audioGroup s g).local_ = none) : groupBlock b g silent s =
    (none, audioGroupPut g { audioGroup (sentSums b g s) g with local_ := some (b, sumOf []) } (sentSums b g s)) := by
  rw [groupBlock, localGroup_legless hl]
  refine (if_pos hs).trans ?_
  dsimp only
  rw [hx]
  rfl

theorem groupBlock_next {m : Nat} {old : List Int} (hs : bridgeSpan s g = true)
    (hx : (audioGroup s g).local_ = some (m, old)) : groupBlock b g silent s =
      let z := spanTotal g m old (sentSums b g s)
      let w := formed g m z.1 z.2
      (some (m, []), audioGroupPut g { audioGroup w g with local_ := some (b, sumOf []) } w) := by
  rw [groupBlock, localGroup_legless hl]
  refine (if_pos hs).trans ?_
  dsimp only
  rw [hx, legsOf_nil hl]
  rfl

/-- A group without legs changes itself alone, and leaves no leg's output to come. -/
theorem groupBlock_legless : OnlyGroup g s (groupBlock b g silent s).2 ∧ ∀ t ∈ (groupBlock b g silent s).1, t.2 = [] := by
  cases hs : bridgeSpan s g with
  | false =>
    rw [groupBlock_alone hl b g silent hs]
    exact ⟨(OnlyGroup.refl hl).formed _ _, fun t ht => by cases ht; rfl⟩
  | true =>
    have hsent := onlyGroup_sentSums hl b g
    cases hx : (audioGroup s g).local_ with
    | none =>
      rw [groupBlock_first hl b g silent hs hx]
      exact ⟨hsent.groupPut _, fun t ht => by cases ht⟩
    | some e =>
      obtain ⟨m, old⟩ := e
      rw [groupBlock_next hl b g silent hs hx]
      exact ⟨((hsent.spanTotal m old).formed m _).groupPut _, fun t ht => by cases ht; rfl⟩

end

/-! ### A block where no group has legs -/

/-- The groups of a block in their order, each with the output its legs are to give. -/
def groupsBlock (b : Nat) (silent : Bool) (gs : List Nat) (s : State) :
    List (Nat × Option (Nat × List (Nat × List MixSample))) × State :=
  gs.foldl (fun acc g => (acc.1 ++ [(g, (groupBlock b g silent acc.2).1)], (groupBlock b g silent acc.2).2)) ([], s)

/-- What a part of the groups leaves: objects and registers as they were, no legs, and no output to come. -/
structure GroupsDone (p : State) (acc : List (Nat × Option (Nat × List (Nat × List MixSample))) × State) : Prop where
  objs : acc.2.objs = p.objs
  regs : acc.2.regs = p.regs
  legs : acc.2.audio.legs = []
  todo : ∀ t ∈ acc.1, ∀ x ∈ t.2, x.2 = []

theorem groupsDone_groupsBlock (b : Nat) (silent : Bool) (gs : List Nat) {s : State} (hl : s.audio.legs = []) :
    GroupsDone s (groupsBlock b silent gs s) :=
  foldl_keeps (P := GroupsDone s) gs ⟨rfl, rfl, hl, fun _ h => nomatch h⟩ fun acc g ⟨hobjs, hregs, hlegs, htodo⟩ => by
    obtain ⟨hk, hout⟩ := groupBlock_legless hlegs b g silent
    refine ⟨hk.objs.trans hobjs, hk.regs.trans hregs, hk.legs, fun t ht => ?_⟩
    rcases List.mem_append.1 ht with ht | ht
    · exact htodo t ht
    · rw [List.mem_singleton.1 ht]
      exact hout

/-- A group that does not span has formed a sum of zeros. -/
theorem sums_groupsBlock {b g : Nat} {silent : Bool} {gs : List Nat} {s : State} (hl : s.audio.legs = [])
    (hg : g ∈ gs) (hs : bridgeSpan s g = false) :
    (audioGroup (groupsBlock b silent gs s).2 g).sums.head? = some (b, List.replicate 48 0) := by
  induction gs using List.reverseRecOn with
  | nil => cases hg
  | append_singleton gs h ih =>
    have hdone := groupsDone_groupsBlock b silent gs hl
    rw [groupsBlock, List.foldl_append]
    change (audioGroup (groupBlock b h silent (groupsBlock b silent gs s).2).2 g).sums.head? = _
    by_cases hgh : g = h
    · rw [← hgh, groupBlock_alone hdone.legs b g silent ((bridgeSpan_congr hdone.objs g).trans hs), formed,
        audioGroup_audioGroupPut_same]
      rfl
    · rw [(groupBlock_legless hdone.legs b h silent).1.others g hgh]
      exact ih ((List.mem_append.1 hg).resolve_right fun hm => hgh (List.mem_singleton.1 hm))

/-- Without legs a block is the work of its groups. -/
theorem computeBlock_legless {s : State} (hl : s.audio.legs = []) (b : Nat) (mics : List (List Int)) (silent : Bool) :
    computeBlock b mics silent s =
      audioMod (fun a => { a with last := some b }) (groupsBlock b silent (liveGroups s) s).2 := by
  have hmics : (if silent then s else placeMics b mics s) = s := by
    rw [placeMics, hl]
    exact ite_self _
  have hdone := groupsDone_groupsBlock b silent (liveGroups s) hl
  rw [computeBlock, hmics]
  refine congrArg (audioMod fun a => { a with last := some b }) ?_
  change List.foldl _ (groupsBlock b silent (liveGroups s) s).2 (groupsBlock b silent (liveGroups s) s).1 = _
  refine List.foldlRecOn (motive := fun t => t = (groupsBlock b silent (liveGroups s) s).2) _ _ rfl fun t ht e he => ?_
  obtain ⟨g, _ | ⟨m, ls⟩⟩ := e
  · dsimp only
    rw [ht, legsOf_nil hdone.legs]
    rfl
  · have hls : ls = [] := hdone.todo _ he _ rfl
    rw [hls]
    exact ht

end Sys2Proof.Machine
end

section
/-!
SUPPORT. The events of the audio bridge: input frames, blocks in time and late, remote sub-sums and descriptors taken from
their queue (10_audio_bridge.md, R345, R346, R349 to R357, R367, R370, R371).
-/
namespace Sys2Proof.Machine
open Sys2Proof

/-! ### Input frames (R345, R346, R351) -/

/-- A frame whose header is in range and whose samples are all there (R345). -/
structure FrameOk (d : Bytes) : Prop where
  leg : fld d 8 2 < 4096
  rate : fld d 10 1 < 6
  width : fld d 11 1 < 2
  some : 1 ≤ fld d 12 2
  most : fld d 12 2 ≤ maxCount (fld d 10 1)
  flags : fld d 14 1 < 4
  reserved : rsv d 15 17 = true
  length : d.length = 32 + fld d 12 2 * (if fld d 11 1 = 0 then 2 else 4)

theorem inputFrame_stopped {s : State} {g : Nat} (h : isRunning s (bridgeObj g) = false) : inputFrame g s = s := by
  simp [inputFrame, h]

section
variable {s v : State} {g : Nat} {o : Object} {d : Bytes} {x : Leg} (ho : objFind s (bridgeObj g) = some o)
  (hst : o.st = some .running) (ht : takePacket (unitInit uAUDIO 0) (fld o.body 4 2) s = (some d, v))
  (hx : legFind v (fld d 8 2 % 4096) = some x)
include ho hst ht hx

/-- What becomes of a frame of a leg. -/
theorem inputFrame_of_leg : ∃ ok : Bool, (ok = true ↔ FrameOk d) ∧ inputFrame g s =
    if ok && x.group == g && x.source == 0 then placeFrame (fld d 8 2 % 4096) x d v
    else legCount (fld d 8 2 % 4096) 12 1 v := by
  rw [inputFrame, isRunning_bridge ho hst, bridgeBody_of_find ho]
  dsimp only
  rw [ht]
  dsimp only
  rw [hx]
  refine ⟨_, ?_, rfl⟩
  simp only [Bool.and_eq_true, decide_eq_true_eq, beq_iff_eq]
  constructor
  · rintro ⟨⟨⟨⟨⟨⟨⟨⟨-, hleg⟩, hrate⟩, hwidth⟩, hsome⟩, hmost⟩, hflags⟩, hres⟩, hlen⟩
    exact ⟨hleg, hrate, hwidth, hsome, hmost, hflags, hres, hlen⟩
  · rintro ⟨hleg, hrate, hwidth, hsome, hmost, hflags, hres, hlen⟩
    exact ⟨⟨⟨⟨⟨⟨⟨⟨hlen ▸ Nat.le_add_right _ _, hleg⟩, hrate⟩, hwidth⟩, hsome⟩, hmost⟩, hflags⟩, hres⟩, hlen⟩

theorem inputFrame_refused (h : x.group ≠ g ∨ x.source ≠ 0 ∨ d.length < 32) :
    inputFrame g s = legCount (fld d 8 2 % 4096) 12 1 v := by
  obtain ⟨ok, hok, heq⟩ := inputFrame_of_leg ho hst ht hx
  rw [heq]
  refine if_neg ?_
  simp only [Bool.and_eq_true, beq_iff_eq]
  rintro ⟨⟨hb, hg⟩, hsrc⟩
  have hlen := (hok.1 hb).length
  omega

theorem inputFrame_placed (hok : FrameOk d) (hg : x.group = g) (hsrc : x.source = 0) :
    inputFrame g s = placeFrame (fld d 8 2 % 4096) x d v := by
  obtain ⟨ok, hiff, heq⟩ := inputFrame_of_leg ho hst ht hx
  rw [heq, hiff.2 hok, hg, hsrc]
  simp

end

/-- The counts of a frame's arrival. -/
theorem frameCounts_frame (l : Nat) (b : Bool) (s : State) : ∃ c,
    (if b then legCount l 6 1 (legCount l 0 1 s) else legCount l 0 1 s) = { s with counters := c } := by
  obtain ⟨c, hc⟩ := legCount_frame l 0 1 s
  rw [hc]
  split
  · obtain ⟨c', hc'⟩ := legCount_frame l 6 1 { s with counters := c }
    exact ⟨c', hc'⟩
  · exact ⟨c, rfl⟩

/-- A frame in time is placed: its leg converts on from its end, and no other leg changes (R351 to R353). -/
theorem placeFrame_in_time {s : State} {l : Nat} {x : Leg} {d : Bytes}
    (h : fld d 0 8 + x.p.playout * 1000 + (fld d 12 2 - 1) * second / rateHz (fld d 10 1) <
      blockNow s * 1000000 + 256000000) :
    (∃ y, legFind (placeFrame l x d s) l = some y ∧ y.heard = true ∧ y.rate = fld d 10 1 ∧ y.p = x.p ∧
      y.srcEnd = some (fld d 0 8 + fld d 12 2 * second / rateHz (fld d 10 1))) ∧
      ∀ k, k ≠ l → legFind (placeFrame l x d s) k = legFind s k := by
  obtain ⟨c, hc⟩ := frameCounts_frame l (bit (fld d 14 1) 0) s
  have hin : ¬ blockNow { s with counters := c } * 1000000 + 256000000 ≤
      fld d 0 8 + x.p.playout * 1000 + (fld d 12 2 - 1) * second / rateHz (fld d 10 1) := Nat.not_le.2 h
  have hlast : ∀ (late : Nat) (t : State), (if late = 0 then t else audioLate l t).audio = t.audio := fun late t =>
    ite_keeps (P := fun u : State => u.audio = t.audio) rfl (audioLate_audio l t)
  unfold placeFrame
  dsimp only
  rw [hc, if_neg hin]
  refine ⟨⟨_, (legFind_congr l ((hlast _ _).trans ((legCount_audio ..).trans (legCount_audio ..)))).trans
    (legFind_legPut_same l _ _), rfl, rfl, rfl, rfl⟩, fun k hk => ?_⟩
  exact (legFind_congr k ((hlast _ _).trans ((legCount_audio ..).trans (legCount_audio ..)))).trans
    (legFind_legPut_ne _ _ hk)

/-! ### Blocks (R355, R357) -/

theorem anyFrom_false {s : State} {b : Nat} (h : ∀ m, s.audio.last = some m → m < b) :
    s.audio.last.any (fun m => b ≤ m) = false := by
  cases hl : s.audio.last with
  | none => rfl
  | some m => exact decide_eq_false (Nat.not_le.2 (h m hl))

section
variable {s : State} {mics : List (List Int)} {took : Nat}

theorem blockCompute_computes (hset : s.cox.st ≠ .unset) (hnew : ∀ m, s.audio.last = some m → m < blockNow s)
    (hin : shortNow s ≤ blockNow s * 1000000 + 400000) : blockCompute mics took s =
      computeBlock (blockNow s) mics false (regPutF uAUDIO 0 0x008 15 0 (max took (regF s uAUDIO 0 0x008 15 0)) s) := by
  have hfree := anyFrom_false hnew
  refine if_neg ?_
  rw [hfree]
  rintro (h | h | h)
  · exact hset h
  · cases h
  · omega

theorem blockCompute_late (h : blockNow s * 1000000 + 400000 < shortNow s) : blockCompute mics took s = s :=
  if_pos (.inr (.inr h))

theorem blockCompute_done {m : Nat} (hl : s.audio.last = some m) (h : blockNow s ≤ m) : blockCompute mics took s = s :=
  if_pos (.inr (.inl (by rw [hl]; exact decide_eq_true h)))

/-- A block not computed in time, before its event. -/
def overrun (s : State) : State := computeBlock (blockNow s) [] true (regBump uAUDIO 0 0x008 31 16 1 s)

theorem blockOverrun_overruns (hset : s.cox.st ≠ .unset) (hnew : ∀ m, s.audio.last = some m → m < blockNow s)
    (hdue : blockNow s * 1000000 + 400000 ≤ shortNow s) (hg : liveGroups s ≠ []) :
    (blockOverrun s).audio = (overrun s).audio ∧ (blockOverrun s).regs = (overrun s).regs := by
  have hfree := anyFrom_false hnew
  have hover : blockOverrun s = raiseLim second 0xFFFF 0x2404 uAUDIO 0 2
      ([0xFF, 0xFF, 0, 0] ++ leBytes 4 (regF (overrun s) uAUDIO 0 0x008 31 16) ++ leBytes 8 (blockNow s * 1000000))
      (overrun s) := by
    refine if_neg ?_
    rw [hfree]
    rintro (h | h | h | h)
    · exact hset h
    · cases h
    · omega
    · exact hg h
  obtain ⟨e, m, h⟩ := raiseLim_frame (overrun s) second 0xFFFF 0x2404 uAUDIO 0 2
    ([0xFF, 0xFF, 0, 0] ++ leBytes 4 (regF (overrun s) uAUDIO 0 0x008 31 16) ++ leBytes 8 (blockNow s * 1000000))
  rw [hover, h]
  exact ⟨rfl, rfl⟩

theorem blockOverrun_early (h : shortNow s < blockNow s * 1000000 + 400000) : blockOverrun s = s :=
  if_pos (.inr (.inr (.inl h)))

theorem blockOverrun_done {m : Nat} (hl : s.audio.last = some m) (h : blockNow s ≤ m) : blockOverrun s = s :=
  if_pos (.inr (.inl (by rw [hl]; exact decide_eq_true h)))

end

theorem computeBlock_last (b : Nat) (mics : List (List Int)) (silent : Bool) (s : State) :
    (computeBlock b mics silent s).audio.last = some b := rfl

theorem computeBlock_legless_regs {s : State} (hl : s.audio.legs = []) (b : Nat) (mics : List (List Int))
    (silent : Bool) : (computeBlock b mics silent s).regs = s.regs := by
  rw [computeBlock_legless hl]
  exact (groupsDone_groupsBlock b silent (liveGroups s) hl).regs

/-- With neither legs nor groups a block changes the engine alone. -/
theorem computeBlock_groupless {s : State} (hl : s.audio.legs = []) (hg : liveGroups s = []) (b : Nat)
    (mics : List (List Int)) (silent : Bool) :
    computeBlock b mics silent s = audioMod (fun a => { a with last := some b }) s := by
  rw [computeBlock_legless hl, hg]
  rfl

theorem liveGroups_congr {s t : State} (h : s.objs = t.objs) : liveGroups s = liveGroups t := by
  have hlive : groupLive s = groupLive t := funext fun g => by rw [groupLive, objFind, h, groupLive, objFind]
  rw [liveGroups, objsOf, h, hlive, liveGroups, objsOf]

/-! ### Remote sub-sums (R371) -/

section
variable {s : State} {g dev t : Nat} {vs : List Int}

theorem subsumReceived_joins (hlive : groupLive s g = true) (hspan : bridgeSpan s g = true)
    (hdev : dev ∈ bridgeRemotes (bridgeBody s g)) : subsumReceived g dev t vs s =
      audioGroupPut g { audioGroup s g with subs := (audioGroup s g).subs ++ [(dev, t / 1000000, vs)] } s :=
  if_neg (by simp [hlive, hspan, hdev])

theorem subsumReceived_stranger (hdev : dev ∉ bridgeRemotes (bridgeBody s g)) : subsumReceived g dev t vs s = s :=
  if_pos (by simp [hdev])

end

/-! ### Descriptors from the queue (R367, R370) -/

theorem paramDescriptor_disabled {s : State} (h : regF s uAUDIO 0 0x004 31 31 = 0) : paramDescriptor s = s := if_pos h

section
variable {s v : State} {d : Bytes} (hen : regF s uAUDIO 0 0x004 31 31 = 1)
  (ht : takePacket (unitInit uAUDIO 0) (regF s uAUDIO 0 0x004 15 0) s = (some d, v))
include hen ht

theorem paramDescriptor_unknown (hx : legFind v (fld d 8 2 % 4096) = none) :
    ∃ reason, paramDescriptor s = paramDrop (fld d 8 2 % 4096) reason v := by
  refine ⟨if descWf 512 d && applyNear v d then 2 else 1, ?_⟩
  rw [paramDescriptor, if_neg (by rw [hen]; decide), ht]
  dsimp only
  rw [hx]

theorem paramDescriptor_queues {x : Leg} (hx : legFind v (fld d 8 2 % 4096) = some x) (hwf : descWf x.group d = true)
    (hnear : applyNear v d = true) (hroom : v.audio.pend.length < 1024) :
    paramDescriptor s = queueParam false (fld d 8 2 % 4096) d v := by
  rw [paramDescriptor, if_neg (by rw [hen]; decide), ht]
  dsimp only
  rw [hx]
  dsimp only
  rw [hwf, hnear]
  exact (if_neg (by decide)).trans (if_neg (Nat.not_le.2 hroom))

end

end Sys2Proof.Machine
end

section
/-!
SUPPORT. The statement on bridge groups and blocks (10_audio_bridge.md, R345 to R371).
-/
namespace Sys2Proof.Machine
open Sys2Proof

/-- A block in time that no leg takes part in. -/
theorem blockCompute_legless {s : State} {mics : List (List Int)} {took : BitVec 16} (hset : s.cox.st ≠ .unset)
    (hnew : ∀ m, s.audio.last = some m → m < blockNow s) (hin : shortNow s ≤ blockNow s * 1000000 + 400000)
    (hl : s.audio.legs = []) :
    let u := blockCompute mics took.toNat s
    regF u uAUDIO 0 0x008 15 0 = max took.toNat (regF s uAUDIO 0 0x008 15 0) ∧
      (liveGroups s = [] → { u with regs := s.regs, audio := s.audio } = s) ∧
      ∀ g ∈ liveGroups s, bridgeSpan s g = false →
        (audioGroup u g).sums.head? = some (blockNow s, List.replicate 48 0) := by
  have hu := blockCompute_computes (mics := mics) (took := took.toNat) hset hnew hin
  generalize ht : regPutF uAUDIO 0 0x008 15 0 (max took.toNat (regF s uAUDIO 0 0x008 15 0)) s = t at hu
  have hregs : t.audio.legs = [] := by rw [← ht]; exact hl
  have hlive : liveGroups t = liveGroups s := liveGroups_congr (by rw [← ht]; rfl)
  rw [hu]
  refine ⟨?_, fun hg => ?_, fun g hg hs => ?_⟩
  · have htook := took.isLt
    have hread : regF s uAUDIO 0 0x008 15 0 < 2 ^ 16 := regF_lt ..
    rw [regF_congr (computeBlock_legless_regs hregs ..), ← ht, regF_regPutF_same _ _ _ _ _ _ _ (by decide) (by decide)]
    exact Nat.mod_eq_of_lt (max_lt htook hread)
  · rw [computeBlock_groupless hregs (hlive.trans hg), ← ht]
    rfl
  · rw [computeBlock_legless hregs, hlive]
    have hspan : bridgeSpan t g = false := by rw [← ht]; exact hs
    exact sums_groupsBlock hregs hg hspan

/-- Settles O41: the groups' states and frames by their rules, blocks without legs by what each group does, descriptors by
how they join those that wait; the sum is additive, and the limiter's gain is within what each sample requires. -/
theorem audioGroupsAndBlocks : Obligations.AudioGroupsAndBlocks := by
  intro s g o mic0 mic1 took device block samples now b fails counts begun
  refine ⟨fun ho => ⟨fun hst => ⟨fun hdue => ?runs, fun h => ?waits⟩, fun hst => ⟨fun hl => ?stops, fun hl => ?stays⟩,
      fun hst d v x ht => ?frames⟩,
    fun h => effect_done (exec_inputFrame ..) (inputFrame_stopped h),
    fun ⟨hset, hnew⟩ => ⟨fun hin => ?computed, fun h => effect_done (exec_blockCompute ..) (blockCompute_late h),
      fun hdue hg => ?overrun, fun h => effect_done (exec_audioBlockOverrun ..) (blockOverrun_early h)⟩,
    fun m hl h => ⟨effect_done (exec_blockCompute ..) (blockCompute_done hl h),
      effect_done (exec_audioBlockOverrun ..) (blockOverrun_done hl h)⟩,
    fun hlive hspan hdev => ?joins, fun h => effect_done (exec_subsumReceived ..) (subsumReceived_stranger h),
    fun hen d v ht => ?descriptors,
    fun h => effect_done (exec_paramDescriptor ..) (paramDescriptor_disabled h),
    fun pre post own m k hm hk hn hr hc hls hmute hgain => ?lessOwn,
    fun xs n gain _ i m e hm he => limitRun_spec xs n gain i hm he⟩
  case runs =>
    exact effect_done (exec_bridgeGroupRunning ..) ⟨_, bridgeRunning_runs ho hst hdue, rfl, rfl, rfl⟩
  case waits => exact effect_done (exec_bridgeGroupRunning ..) (bridgeRunning_waits ho h)
  case stops => exact effect_done (exec_bridgeGroupStopped ..) (bridgeStopped_stops ho hst hl)
  case stays => exact effect_done (exec_bridgeGroupStopped ..) (bridgeStopped_waits ho hl)
  case frames =>
    intro l hx
    refine ⟨fun h => ?_, fun hg hsrc hleg hrate hwidth hsome hmost hflags hres hlen hin => ?_⟩
    · exact effect_of_eq (exec_inputFrame ..) (inputFrame_refused ho hst ht hx h) ⟨rfl, legCount_audio ..⟩
    · have hok : FrameOk d := ⟨hleg, hrate, hwidth, hsome, hmost, hflags, hres, hlen⟩
      obtain ⟨⟨y, hy, hheard, hyrate, hp, hend⟩, hothers⟩ := placeFrame_in_time (l := l) (x := x) hin
      exact effect_of_eq (exec_inputFrame ..) (inputFrame_placed ho hst ht hx hok hg hsrc)
        ⟨y, hy, hheard, hyrate, hp, hend, hothers⟩
  case computed =>
    refine effect_done (exec_blockCompute ..) ⟨?_, fun hl => ?_⟩
    · rw [blockCompute_computes hset hnew hin]
      exact computeBlock_last ..
    · obtain ⟨hread, hnone, hsums⟩ := blockCompute_legless hset hnew hin hl
      exact ⟨hread, hnone, hsums g⟩
  case overrun =>
    obtain ⟨haudio, hregs⟩ := blockOverrun_overruns hset hnew hdue hg
    refine effect_done (exec_audioBlockOverrun ..) ⟨?_, fun hl => ?_⟩
    · rw [haudio]
      exact computeBlock_last ..
    · have hover : (overrun s).regs = (regBump uAUDIO 0 0x008 31 16 1 s).regs :=
        computeBlock_legless_regs (s := regBump uAUDIO 0 0x008 31 16 1 s) hl _ _ _
      rw [regF_congr (hregs.trans hover)]
      exact (regBump_half uAUDIO 0 0x008 31 16 s rfl (by decide)).2
  case joins =>
    exact effect_of_eq (exec_subsumReceived ..) (subsumReceived_joins hlive hspan hdev)
      ⟨congrArg AudioGroup.subs (audioGroup_audioGroupPut_same ..), rfl⟩
  case descriptors =>
    intro l
    refine ⟨fun hx => ?_, fun x hx hwf hnear hroom => ?_⟩
    · obtain ⟨reason, hdrop⟩ := paramDescriptor_unknown hen ht hx
      refine effect_of_eq (exec_paramDescriptor ..) hdrop ⟨paramDrop_audio .., fun hf => ?_⟩
      exact cntGet_paramDrop l v reason ((audioFreeze_of_take ht).trans hf)
    · obtain ⟨c, hc⟩ := queueParam_frame false l d v
      refine effect_of_eq (exec_paramDescriptor ..) ((paramDescriptor_queues hen ht hx hwf hnear hroom).trans hc) ?_
      rw [pendAdd_queue rfl, queuedParam, applyTime_fst]
  case lessOwn =>
    rw [outValue_unity hr hc hls hmute hgain, hn]
    exact sumOf_less_own hk pre post hm hc

end Sys2Proof.Machine
end

section
/-!
SUPPORT. The leg commands (10_audio_bridge.md, R366, R367, R369, R374 to R377, R383).
-/
namespace Sys2Proof.Machine
open Sys2Proof

/-! ### Counters set to zero (R383) -/

/-- The counters of a list of keys set to zero. -/
theorem cntGet_foldl_cntZero (f : Nat → Nat) {l : List Nat} {k : Nat} (s : State) (hk : k ∈ l) :
    cntGet (l.foldl (fun s j => cntZero (f j) s) s) (f k) = 0 := by
  induction l using List.reverseRecOn with
  | nil => cases hk
  | append_singleton l j ih =>
    rw [List.foldl_append, List.foldl_cons, List.foldl_nil]
    by_cases hj : f k = f j
    · rw [hj]
      exact cntGet_cntZero_same _ _
    · rw [cntGet_cntZero_ne _ _ hj]
      exact ih ((List.mem_append.1 hk).resolve_right fun h => hj (congrArg f (List.mem_singleton.1 h)))

theorem cntGet_audioClear {i k : Nat} (s : State) (hi : i < 0x10000000) (hk : k < 16) :
    cntGet (audioClear s) (cntKey uAUDIO i k) = 0 := by
  have hunit : (!(cntKey uAUDIO i k / 0x100000000 == uAUDIO)) = false := by
    simp only [Bool.not_eq_false', beq_iff_eq, cntKey]
    omega
  rw [cntGet, spGet, audioClear, cntZeroAll, spFind_filter_out s.counters (fun j => !(j / 0x100000000 == uAUDIO)) hunit]
  rfl

/-- A leg's sixteen counters set to zero. -/
def zeroedLeg (l : Nat) (s : State) : State := (List.range 16).foldl (fun s k => cntZero (cntKey uAUDIO l k) s) s

theorem cntGet_zeroedLeg (l : Nat) {k : Nat} (s : State) (hk : k < 16) :
    cntGet (zeroedLeg l s) (cntKey uAUDIO l k) = 0 := cntGet_foldl_cntZero (cntKey uAUDIO l) s (List.mem_range.2 hk)

theorem zeroedLeg_frame (l : Nat) (s : State) : ∃ c, zeroedLeg l s = { s with counters := c } :=
  foldl_keeps (P := fun t : State => ∃ c, t = { s with counters := c }) _ ⟨_, rfl⟩ fun t k ⟨c, hc⟩ => by
    rw [hc]
    exact ⟨_, rfl⟩

/-! ### The checks on a request (R374) -/

section
variable {s : State} {r : Request}

theorem targetCheck_audio (ha : Addressed r uAUDIO 0) : targetCheck s r uAUDIO 0 = 0 :=
  targetCheck_addressed ha (by cases s.part <;> rfl)

theorem legState_here {l : Nat} {x : Leg} (hx : legFind s l = some x) (hrun : isRunning s (bridgeObj x.group) = true) :
    legState s l = 0 := by
  simp [legState, hx, hrun]

theorem legState_none {l : Nat} (hx : legFind s l = none) : legState s l = 0x0402 := by
  simp [legState, hx]

theorem legCheck_eq (ha : Addressed r uAUDIO 0) (hlen : r.params.length = 8) (hl : fld r.params 0 2 < 4096)
    (hres : rsv r.params 2 6 = true) : legCheck s r = legState s (fld r.params 0 2) := by
  simp [legCheck, targetCheck_audio ha, hlen, hl, hres]

/-- LEG_REMOVE and LEG_STATS of a leg that is not there. -/
theorem replies_leg_unknown (ha : Addressed r uAUDIO 0) (hlen : r.params.length = 8) (hl : fld r.params 0 2 < 4096)
    (hres : rsv r.params 2 6 = true) (hx : legFind s (fld r.params 0 2) = none) :
    Replies (.legRemove r) s 0x0441 r 0x0402 [] s ∧ Replies (.legStats r) s 0x0443 r 0x0402 [] s := by
  have hchk : legCheck s r = 0x0402 := (legCheck_eq ha hlen hl hres).trans (legState_none hx)
  exact ⟨replies_of_runCmd_refused ha (exec_legRemove ..) (legRemoveOp.eq_def r s) hchk (by decide),
    replies_of_runCmd_refused ha (exec_legStats ..) (legStatsOp.eq_def r s) hchk (by decide)⟩

end

/-! ### LEG_ADD (R375) -/

/-- A request for a leg in range, of a RUNNING group. -/
structure LegAddOk (s : State) (p : Bytes) : Prop where
  length : p.length = 16
  leg : fld p 0 2 < 4096
  group : fld p 2 2 < 512
  source : fld p 4 1 < 4
  sink : fld p 5 1 < 4
  frame : fld p 6 1 < 5
  flags : fld p 7 1 < 4
  playout : fld p 8 4 ≤ 200000
  port : fld p 4 1 = 1 ∨ fld p 4 1 = 2 → 1000 ≤ fld p 8 4
  reserved : rsv p 12 4 = true
  running : isRunning s (bridgeObj (fld p 2 2)) = true

/-- No leg uses a headset port that the request names. -/
def PortsFree (s : State) (p : Bytes) : Prop :=
  ∀ e ∈ s.audio.legs, ∀ k, k = 1 ∨ k = 2 → fld p 4 1 = k ∨ fld p 5 1 = k → e.2.source ≠ k ∧ e.2.sink ≠ k

/-- The leg of a request, in its group from block `b`. -/
def addedLeg (p : Bytes) (b : Nat) : Leg :=
  { group := fld p 2 2, source := fld p 4 1, sink := fld p 5 1, frame := [48, 120, 240, 480, 960].getD (fld p 6 1) 48
    p := { contribute := bit (fld p 7 1) 0, receive := bit (fld p 7 1) 1, playout := fld p 8 4 }
    start := b }

section
variable {s : State} {r : Request}

/-- A leg uses a headset port that the request names. -/
def portsBusy (s : State) (p : Bytes) : Bool :=
  let ports := [fld p 4 1, fld p 5 1].filter fun k => k == 1 || k == 2
  s.audio.legs.any fun e => ports.contains e.2.source || ports.contains e.2.sink

theorem portsBusy_false {p : Bytes} (h : PortsFree s p) : portsBusy s p = false := by
  have hport : ∀ k, ([fld p 4 1, fld p 5 1].filter fun k => k == 1 || k == 2).contains k = true →
      (k = 1 ∨ k = 2) ∧ (fld p 4 1 = k ∨ fld p 5 1 = k) := by
    intro k hk
    obtain ⟨hmem, h12⟩ := List.mem_filter.1 (List.contains_iff_mem.1 hk)
    exact ⟨by simpa using h12, by simpa [eq_comm] using hmem⟩
  refine List.any_eq_false.2 fun e he hbusy => ?_
  rcases (Bool.or_eq_true _ _).mp hbusy with hb | hb
  · obtain ⟨h12, hnamed⟩ := hport _ hb
    exact (h e he _ h12 hnamed).1 rfl
  · obtain ⟨h12, hnamed⟩ := hport _ hb
    exact (h e he _ h12 hnamed).2 rfl

variable (ha : Addressed r uAUDIO 0) (hok : LegAddOk s r.params)
include ha hok

/-- The checks left for a request in range: the leg, its group's room and its ports. -/
theorem legAddOp_checks : ∃ act, legAddOp r s = runCmd 0x0440 r (firstFail [
      need (legFind s (fld r.params 0 2)).isNone 0x0401,
      need (decide ((legsOf s (fld r.params 2 2)).length < fld (bridgeBody s (fld r.params 2 2)) 2 2)) 0x0403,
      need (!portsBusy s r.params) 0x0404]) act s ∧
    act s = (stDONE, leBytes 8 (nextBlock s * 1000000),
      legPut (fld r.params 0 2) (addedLeg r.params (nextBlock s)) (zeroedLeg (fld r.params 0 2) s)) := by
  obtain ⟨hlen, hleg, hgroup, hsource, hsink, hframe, hflags, hplayout, hport, hres, hrun⟩ := hok
  have hmin : (!(fld r.params 4 1 == 1 || fld r.params 4 1 == 2) || decide (1000 ≤ fld r.params 8 4)) = true := by
    simp only [Bool.or_eq_true, Bool.not_eq_true', Bool.or_eq_false_iff, beq_eq_false_iff_ne, decide_eq_true_eq]
    omega
  rw [legAddOp]
  dsimp only
  rw [targetCheck_audio ha, hmin]
  simp only [hlen, hleg, hgroup, hsource, hsink, hframe, hflags, hplayout, hres, hrun, decide_true, beq_self_eq_true,
    Bool.and_self, need_true, firstFail_zero]
  refine ⟨_, rfl, ?_⟩
  rfl

theorem replies_legAdd (hfree : legFind s (fld r.params 0 2) = none)
    (hroom : (legsOf s (fld r.params 2 2)).length < fld (bridgeBody s (fld r.params 2 2)) 2 2)
    (hports : PortsFree s r.params) : Replies (.legAdd r) s 0x0440 r 0 (leBytes 8 (nextBlock s * 1000000))
      (legPut (fld r.params 0 2) (addedLeg r.params (nextBlock s)) (zeroedLeg (fld r.params 0 2) s)) := by
  obtain ⟨act, hop, hact⟩ := legAddOp_checks ha hok
  refine replies_of_runCmd ha (exec_legAdd ..) hop ?_ hact
  rw [hfree, decide_eq_true hroom, portsBusy_false hports]
  rfl

theorem replies_legAdd_there (hthere : legFind s (fld r.params 0 2) ≠ none) :
    Replies (.legAdd r) s 0x0440 r 0x0401 [] s := by
  obtain ⟨x, hx⟩ := Option.ne_none_iff_exists'.1 hthere
  obtain ⟨act, hop, -⟩ := legAddOp_checks ha hok
  refine replies_of_runCmd_refused ha (exec_legAdd ..) hop ?_ (by decide)
  rw [hx]
  rfl

end

/-! ### LEG_REMOVE (R374, R376) -/

/-- Packets freed are not found, and the queues and everything outside Spool are as they were. -/
theorem foldl_pktFree (hs : List Nat) (s : State) :
    let t := hs.foldl (fun s h => pktFree h s) s
    (∃ p, t = { s with spool := { s.spool with packets := p } }) ∧ ∀ h ∈ hs, pkt t h = none := by
  induction hs using List.reverseRecOn with
  | nil => exact ⟨⟨_, rfl⟩, fun _ h => nomatch h⟩
  | append_singleton hs k ih =>
    obtain ⟨⟨p, hp⟩, hgone⟩ := ih
    rw [List.foldl_append, List.foldl_cons, List.foldl_nil]
    refine ⟨⟨spDel p k, by rw [hp]; rfl⟩, fun h hh => ?_⟩
    by_cases hk : h = k
    · rw [hk]
      exact spFind_spDel_same _ _
    · refine (spFind_spDel_ne _ hk).trans (hgone h ?_)
      exact (List.mem_append.1 hh).resolve_right fun hm => hk (List.mem_singleton.1 hm)

/-- A leg's frames leave its group's IN_Q, are counted and freed (R374). -/
theorem discardFrames_spec {s : State} {l : Nat} {x : Leg} (hx : legFind s l = some x) :
    let q := fld (bridgeBody s x.group) 4 2
    let mine := fun h => fld (packetBytes s h) 8 2 == l
    let u := (discardFrames l s).2
    (discardFrames l s).1 = (queue s q).items.countP mine ∧ (∃ z, u = { s with spool := z }) ∧
      (queue u q).items = (queue s q).items.filter (fun h => !mine h) ∧
      ∀ h ∈ (queue s q).items, mine h = true → pkt u h = none := by
  intro q mine u
  have hq : fld (bridgeBody s (((legFind s l).map (·.group)).getD 0)) 4 2 = q := by rw [hx]; rfl
  have hdiscard : discardFrames l s = (((queue s q).items.filter mine).length, ((queue s q).items.filter mine).foldl
      (fun s h => pktFree h s)
      (queuePut q { queue s q with items := (queue s q).items.filter fun h => !mine h } s)) := by
    rw [discardFrames, hq]
  obtain ⟨⟨p, hp⟩, hgone⟩ := foldl_pktFree ((queue s q).items.filter mine)
    (queuePut q { queue s q with items := (queue s q).items.filter fun h => !mine h } s)
  have hu : u = _ := congrArg Prod.snd hdiscard
  refine ⟨(congrArg Prod.fst hdiscard).trans List.countP_eq_length_filter.symm, ⟨_, hu.trans hp⟩, ?_, fun h hh hm => ?_⟩
  · rw [hu, hp]
    exact congrArg Queue.items (queue_queuePut_same q _ s)
  · rw [hu]
    exact hgone h (List.mem_filter.2 ⟨hh, hm⟩)

/-- A leg `x` that ends with the block in progress, without descriptors and keys. -/
def removedLeg (l : Nat) (x : Leg) (s : State) : State :=
  audioMod (fun a => { a with pend := a.pend.filter fun p => p.leg != l })
    (legKeysClear l (legPut l { x with stopAt := some (nextBlock s) } s))

theorem legRemove_of_find {s : State} {l : Nat} {x : Leg} (hx : legFind s l = some x) :
    legRemove l s = removedLeg l x s := by
  rw [legRemove, hx]
  rfl

theorem legKeysClear_keys (l : Nat) (s : State) : spFind (legKeysClear l s).keys (131072 + 2 * l) = none ∧
    spFind (legKeysClear l s).keys (131073 + 2 * l) = none := by
  refine ⟨?_, spFind_spDel_same _ _⟩
  exact (spFind_spDel_ne _ (by omega)).trans (spFind_spDel_same _ _)

/-- A command's descriptor goes before the queue's of the same cycle. -/
theorem pendAdd_command {p : ParamPend} (h : p.cmd = true) (ps : List ParamPend) :
    pendAdd p ps = ps.filter (fun e => !(!e.cmd && e.came == p.came)) ++
      p :: ps.filter fun e => !e.cmd && e.came == p.came := by
  simp only [pendAdd, h, Bool.true_and]

theorem descWf_length {g : Nat} {d : Bytes} (h : descWf g d = true) : d.length = 64 := by
  simp only [descWf, Bool.and_eq_true, beq_iff_eq] at h
  exact h.1.1.1.1

section
variable {s : State} {r : Request} {x : Leg} (ha : Addressed r uAUDIO 0)
include ha

section
variable (hlen : r.params.length = 8) (hl : fld r.params 0 2 < 4096) (hres : rsv r.params 2 6 = true)
  (hx : legFind s (fld r.params 0 2) = some x) (hrun : isRunning s (bridgeObj x.group) = true)
include hlen hl hres hx hrun

theorem replies_legRemove : Replies (.legRemove r) s 0x0441 r 0 (leBytes 4 (discardFrames (fld r.params 0 2) s).1)
    (legRemove (fld r.params 0 2) (discardFrames (fld r.params 0 2) s).2) :=
  replies_of_runCmd ha (exec_legRemove ..) (legRemoveOp.eq_def r s)
    ((legCheck_eq ha hlen hl hres).trans (legState_here hx hrun)) rfl

theorem replies_legStats : Replies (.legStats r) s 0x0443 r 0
    (((List.range 16).map fun k => cntGet s (cntKey uAUDIO (fld r.params 0 2) k)).flatMap (leBytes 4)) s :=
  replies_of_runCmd ha (exec_legStats ..) (legStatsOp.eq_def r s)
    ((legCheck_eq ha hlen hl hres).trans (legState_here hx hrun)) (by rw [List.flatMap_map]; rfl)

end

/-! ### LEG_PARAM (R366, R367, R369) -/

section
variable (hx : legFind s (fld r.params 8 2) = some x) (hrun : isRunning s (bridgeObj x.group) = true)
  (hwf : descWf x.group r.params = true) (hnear : applyNear s r.params = true)
include hx hrun hwf hnear

theorem legParamOp_checks : ∃ act, legParamOp r s = runCmd 0x0442 r
      (firstFail [need (decide (s.audio.pend.length < 1024)) stNO_RESOURCE]) act s ∧
    act s = (stDONE, [], queueParam true (fld r.params 8 2) r.params s) := by
  have hg : ((legFind s (fld r.params 8 2)).map (·.group)).getD 512 = x.group := by rw [hx]; rfl
  rw [legParamOp]
  rw [hg, targetCheck_audio ha, hwf, hnear, descWf_length hwf, legState_here hx hrun]
  exact ⟨_, rfl, rfl⟩

theorem replies_legParam (hroom : s.audio.pend.length < 1024) :
    Replies (.legParam r) s 0x0442 r 0 [] (queueParam true (fld r.params 8 2) r.params s) := by
  obtain ⟨act, hop, hact⟩ := legParamOp_checks ha hx hrun hwf hnear
  exact replies_of_runCmd ha (exec_legParam ..) hop (by rw [decide_eq_true hroom]; rfl) hact

theorem replies_legParam_full (hfull : 1024 ≤ s.audio.pend.length) :
    Replies (.legParam r) s 0x0442 r 0x0016 [] s := by
  obtain ⟨act, hop, -⟩ := legParamOp_checks ha hx hrun hwf hnear
  exact replies_of_runCmd_refused ha (exec_legParam ..) hop (by rw [decide_eq_false (Nat.not_lt.2 hfull)]; rfl) (by decide)

end

/-! ### LEG_KEY_SET (R377) -/

theorem replies_legKeySet (htr : r.transport = .pcie) (hlen : r.params.length = 56) (hl : fld r.params 0 2 < 4096)
    (hslot : fld r.params 2 1 < 2) (hsize : fld r.params 3 1 = 0x10 ∨ fld r.params 3 1 = 0x11)
    (h4 : rsv r.params 4 4 = true) (h52 : rsv r.params 52 4 = true) (hx : legFind s (fld r.params 0 2) = some x)
    (hrun : isRunning s (bridgeObj x.group) = true) :
    let k := 131072 + 2 * fld r.params 0 2 + fld r.params 2 1
    Replies (.legKeySet r) s 0x0444 r 0 (leBytes 4 k) { s with
      keys := spPut s.keys k { first := sub r.params 8 (if fld r.params 3 1 = 0x10 then 16 else 32)
                               second := sub r.params 40 12 } } := by
  refine replies_of_runCmd ha (exec_legKeySet ..) (legKeyOp.eq_def r s) ?_ rfl
  have hcode : (fld r.params 3 1 == 0x10 || fld r.params 3 1 == 0x11) = true := by simpa using hsize
  rw [targetCheck_audio ha, htr, hlen, hcode, h4, h52, decide_eq_true hl, decide_eq_true hslot, legState_here hx hrun]
  rfl

end

/-- Only the host sets keys (R313). -/
theorem replies_legKeySet_refused {s : State} {r : Request} (htr : r.transport ≠ .pcie) (hres : r.reserved = false) :
    Replies (.legKeySet r) s 0x0444 r 0x0023 [] s := by
  have hfail : (r.transport == Transport.pcie) = false := beq_false_of_ne htr
  have hchk : ∀ xs, headed r (firstFail (need (r.transport == .pcie) stNOT_AUTHORISED :: xs)) = 0x0023 := by
    intro xs
    rw [hfail, need_false, firstFail_fails (by decide), headed, hres]
    rfl
  refine replies_of (exec_legKeySet ..) ?_
  rw [legKeyOp]
  dsimp only
  rw [runCmd_refused (by rw [hchk]; decide), hchk]

end Sys2Proof.Machine
end

section
/-!
SUPPORT. The statement on the leg commands (10_audio_bridge.md, R366, R367, R374 to R377, R383).
-/
namespace Sys2Proof.Machine
open Sys2Proof

section
variable {s : State} {r : Request} {x : Leg}

theorem legPut_counters (l : Nat) (y : Leg) (s : State) : (legPut l y s).counters = s.counters := rfl

/-- A leg added is in its group from the next block with its counters 0, and nothing else changes (R375, R383). -/
theorem addedLeg_effect (l : Nat) (y : Leg) :
    let w := legPut l y (zeroedLeg l s)
    legFind w l = some y ∧ (∀ k, k < 16 → cntGet w (cntKey uAUDIO l k) = 0) ∧
      (∀ k, k ≠ l → legFind w k = legFind s k) ∧
      { w with audio := { w.audio with legs := s.audio.legs }, counters := s.counters } = s := by
  intro w
  obtain ⟨c, hc⟩ := zeroedLeg_frame l s
  refine ⟨legFind_legPut_same .., fun k hk => ?_, fun k hk => ?_, ?_⟩
  · exact (cntGet_congr _ (legPut_counters ..)).trans (cntGet_zeroedLeg l s hk)
  · refine (legFind_legPut_ne _ y hk).trans (legFind_congr k ?_)
    rw [hc]
  · have hw : w = legPut l y { s with counters := c } := congrArg (legPut l y) hc
    rw [hw]
    rfl

/-- A removal writes the legs, the descriptors and the keys. -/
theorem removedLeg_frame (l : Nat) (x : Leg) (s : State) :
    ∃ a k, removedLeg l x s = { s with audio := a, keys := k } := by
  obtain ⟨a, ha⟩ : ∃ a, legPut l { x with stopAt := some (nextBlock s) } s = { s with audio := a } := ⟨_, rfl⟩
  obtain ⟨k, hk⟩ : ∃ k, legKeysClear l { s with audio := a } = { s with audio := a, keys := k } := ⟨_, rfl⟩
  rw [removedLeg, ha, hk]
  exact ⟨_, _, rfl⟩

/-- A leg removed ends with the block in progress; its descriptors, its keys and its waiting frames are gone (R374, R376). -/
theorem removedLeg_effect {l : Nat} (hx : legFind s l = some x) :
    let q := fld (bridgeBody s x.group) 4 2
    let w := legRemove l (discardFrames l s).2
    legFind w l = some { x with stopAt := some (nextBlock s) } ∧ (∀ k, k ≠ l → legFind w k = legFind s k) ∧
      (∀ e ∈ w.audio.pend, e.leg ≠ l) ∧ spFind w.keys (131072 + 2 * l) = none ∧
      spFind w.keys (131073 + 2 * l) = none ∧
      (queue w q).items = (queue s q).items.filter (fun h => fld (packetBytes s h) 8 2 != l) ∧
      (∀ h ∈ (queue s q).items, fld (packetBytes s h) 8 2 = l → pkt w h = none) ∧
      { w with audio := s.audio, keys := s.keys, spool := s.spool } = s := by
  intro q w
  obtain ⟨-, ⟨z, hz⟩, hitems, hgone⟩ := discardFrames_spec hx
  rw [hz] at hitems hgone
  have hx' : legFind { s with spool := z } l = some x := hx
  have hw : w = removedLeg l x { s with spool := z } := by
    change legRemove l (discardFrames l s).2 = _
    rw [hz, legRemove_of_find hx']
  obtain ⟨hkey0, hkey1⟩ := legKeysClear_keys l { s with spool := z }
  rw [hw]
  refine ⟨spFind_spPut_same .., fun k hk => spFind_spPut_ne _ _ hk, fun e he => ?_, hkey0, hkey1, hitems,
    fun h hh hm => hgone h hh (beq_iff_eq.2 hm), ?_⟩
  · simpa using (List.mem_filter.1 he).2
  · obtain ⟨a, k, hrest⟩ := removedLeg_frame l x { s with spool := z }
    rw [hrest]

end

/-- The leg commands, each from its reply and what it leaves. -/
theorem legCommands : Claims.LegCommands := by
  intro s r x p l here
  refine ⟨fun ha => ⟨?adds, fun hlen hl hres => ⟨fun ⟨hx, hrun⟩ => ?there, replies_leg_unknown ha hlen hl hres⟩,
      fun ⟨hx, hrun⟩ hwf hnear => ⟨fun hroom => ?queues, replies_legParam_full ha hx hrun hwf hnear⟩, ?keys⟩,
    replies_legKeySet_refused, ?clears⟩
  case adds =>
    intro h1 h2 h3 h4 h5 h6 h7 h8 h9 h10 hrun
    have hok : LegAddOk s p := ⟨h1, h2, h3, h4, h5, h6, h7, h8, h9, h10, hrun⟩
    refine ⟨fun hfree hroom hports => ?_, replies_legAdd_there ha hok⟩
    obtain ⟨u, he, hu⟩ := replies_legAdd ha hok hfree hroom hports
    obtain ⟨hy, hcounts, hothers, hrest⟩ := addedLeg_effect (s := s) l (addedLeg p (nextBlock s))
    have hframe : (addedLeg p (nextBlock s)).frame = [48, 120, 240, 480, 960].getD (fld p 6 1) 0 := by
      rw [addedLeg, List.getD_eq_getElem _ _ h6, List.getD_eq_getElem _ _ h6]
    exact ⟨u, he, _, _, hu, hy, rfl, rfl, rfl, hframe, rfl, rfl, rfl, rfl, rfl, hcounts, hothers, hrest⟩
  case there =>
    obtain ⟨hcount, -⟩ := discardFrames_spec hx
    have hremove := replies_legRemove ha hlen hl hres hx hrun
    rw [hcount] at hremove
    refine ⟨effect_of_replies hremove (removedLeg_effect hx), _, replies_legStats ha hlen hl hres hx hrun, ?_, fun k hk => ?_⟩
    · simp [List.length_flatMap, Function.comp_def]
    · rw [fld_word _ (by simpa using hk), List.getElem_map, List.getElem_range]
  case queues =>
    obtain ⟨c, hc⟩ := queueParam_frame true (fld p 8 2) p s
    refine effect_of_replies (replies_legParam ha hx hrun hwf hnear hroom) ?_
    rw [hc, pendAdd_command rfl, queuedParam, applyTime_fst]
    exact ⟨rfl, rfl⟩
  case keys =>
    intro htr hlen hl hslot hsize h4 h52 hhere k
    exact effect_of_replies (replies_legKeySet ha htr hlen hl hslot hsize h4 h52 hhere.1 hhere.2)
      ⟨spFind_spPut_same .., fun j hj => spFind_spPut_ne _ _ hj, rfl⟩
  case clears =>
    exact effect_done (exec_audioClearAll ..) ⟨fun i k hi hk => cntGet_audioClear s hi hk, rfl⟩

end Sys2Proof.Machine
end

section
/-!
SUPPORT. The headset ports (10_audio_bridge.md, R378 to R380, R382), and the statement on them and the leg commands.
-/
namespace Sys2Proof.Machine
open Sys2Proof

/-! ### A port's registers -/

section
variable {n : Nat} {s : State}

theorem hspKey_ne {a b : Nat} (h : a ≠ b) : regKey uHSP n a ≠ regKey uHSP n b := by
  unfold regKey
  omega

/-- A value that fits its field reads back. -/
theorem regF_regPutF_fits {u i o hi lo v : Nat} (s : State) (h : lo ≤ hi) (h32 : hi < 32) (hv : v < 2 ^ (hi - lo + 1)) :
    regF (regPutF u i o hi lo v s) u i o hi lo = v := by
  rw [regF_regPutF_same _ _ _ _ _ _ _ h h32, Nat.mod_eq_of_lt hv]

/-- A register of a port keeps its fields when another register of the port is written. -/
theorem hsp_regF_regPutF_ne {a b : Nat} (hi lo v hi' lo' : Nat) (s : State) (h : a ≠ b) :
    regF (regPutF uHSP n b hi lo v s) uHSP n a hi' lo' = regF s uHSP n a hi' lo' :=
  regF_regPutF_ne hi lo v hi' lo' s (hspKey_ne h)

theorem regF_hspEvent_same (k : Nat) (s : State) (h : k < 32) : regF (hspEvent n k s) uHSP n 0x00C k k = 1 :=
  regF_regPutF_fits s le_rfl h (by rw [Nat.sub_self]; decide)

theorem hsp_hspEvent (k : Nat) (s : State) : hsp (hspEvent n k s) n = hsp s n := rfl

theorem regF_hspEvent_ne {a : Nat} (k hi lo : Nat) (s : State) (h : a ≠ 0x00C) :
    regF (hspEvent n k s) uHSP n a hi lo = regF s uHSP n a hi lo := hsp_regF_regPutF_ne _ _ _ _ _ s h

@[simp] theorem regF_hspPut (x : Hsp) (u i o hi lo : Nat) (s : State) :
    regF (hspPut n x s) u i o hi lo = regF s u i o hi lo := rfl

theorem regF_raiseLim (ns key c v j sev : Nat) (d : Bytes) (u i o hi lo : Nat) (s : State) :
    regF (raiseLim ns key c v j sev d s) u i o hi lo = regF s u i o hi lo :=
  regF_congr (raiseLim_regs_shuttle ns key c v j sev d s).1 u i o hi lo

theorem raiseLim_hsp (ns key c v j sev : Nat) (d : Bytes) (s : State) :
    (raiseLim ns key c v j sev d s).hsp = s.hsp := by
  obtain ⟨e, m, h⟩ := raiseLim_frame s ns key c v j sev d
  rw [h]

@[simp] theorem hsp_hspPut_same (x : Hsp) (s : State) : hsp (hspPut n x s) n = x := spGet_spSet_same _ _ _ _

/-! ### Insertion (R379) -/

/-- A port whose plug has come in. -/
def insertedPort (n : Nat) (s : State) : State :=
  hspEvent n 0 (hspPut n { inserted := some s.now } (regPutF uHSP n 0x000 31 31 1 (regPutF uHSP n 0x000 30 28 6 s)))

theorem hspInsert_stable {stable : Nat} (hout : regF s uHSP n 0x000 31 31 = 0)
    (hst : regF s uHSP n 0x008 31 24 ≤ stable) (haw : awake s (some 24) = true) :
    hspInsert n stable s = insertedPort n s := by
  have hawake : awake (regPutF uHSP n 0x000 31 31 1 (regPutF uHSP n 0x000 30 28 6 s)) (some 24) = true := haw
  rw [hspInsert, if_neg (by omega), wakeRequestBase_awake hawake]
  rfl

theorem insertedPort_spec (n : Nat) (s : State) : let u := insertedPort n s
    regF u uHSP n 0x000 31 31 = 1 ∧ regF u uHSP n 0x000 30 28 = 6 ∧ regF u uHSP n 0x00C 0 0 = 1 ∧
      (hsp u n).inserted = some s.now ∧ { u with regs := s.regs, hsp := s.hsp } = s := by
  refine ⟨?_, ?_, regF_hspEvent_same _ _ (by decide), ?_, rfl⟩
  · rw [insertedPort, regF_hspEvent_ne _ _ _ _ (by decide), regF_hspPut, regF_regPutF_fits _ (by decide) (by decide) (by decide)]
  · rw [insertedPort, regF_hspEvent_ne _ _ _ _ (by decide), regF_hspPut,
      regF_regPutF_apart _ _ _ _ _ _ _ _ _ (by decide) (by decide), regF_regPutF_fits _ (by decide) (by decide) (by decide)]
  · rw [insertedPort, hsp_hspEvent, hsp_hspPut_same]

/-! ### Detection (R379, R382) -/

/-- A step that leaves a port's plug register and what the ports hold beyond their registers. -/
structure PlugKept (n : Nat) (s u : State) : Prop where
  plug : ∀ hi lo, regF u uHSP n 0x000 hi lo = regF s uHSP n 0x000 hi lo
  hsp : u.hsp = s.hsp

theorem PlugKept.trans {s t u : State} (h : PlugKept n s t) (g : PlugKept n t u) : PlugKept n s u :=
  ⟨fun hi lo => (g.plug hi lo).trans (h.plug hi lo), g.hsp.trans h.hsp⟩

theorem plugKept_regPutF {b : Nat} (hi lo v : Nat) (s : State) (h : 0x000 ≠ b) : PlugKept n s (regPutF uHSP n b hi lo v s) :=
  ⟨fun hi' lo' => hsp_regF_regPutF_ne hi lo v hi' lo' s h, rfl⟩

theorem plugKept_raiseLim (ns key c v j sev : Nat) (d : Bytes) (s : State) :
    PlugKept n s (raiseLim ns key c v j sev d s) :=
  ⟨fun hi lo => regF_raiseLim ns key c v j sev d uHSP n 0x000 hi lo s, raiseLim_hsp ..⟩

theorem plugKept_hspFault (contact load : Nat) (s : State) : PlugKept n s (hspFault n contact load s) :=
  ((plugKept_regPutF 1 1 1 s (by decide)).trans (plugKept_regPutF 3 3 1 _ (by decide))).trans (plugKept_raiseLim ..)

/-- A load fault mutes the outputs and is reported. -/
theorem hspFault_fields (contact load : Nat) (s : State) :
    regF (hspFault n contact load s) uHSP n 0x004 1 1 = 1 ∧ regF (hspFault n contact load s) uHSP n 0x00C 3 3 = 1 := by
  constructor
  · rw [hspFault, regF_raiseLim, regF_hspEvent_ne _ _ _ _ (by decide),
      regF_regPutF_fits _ (by decide) (by decide) (by decide)]
  · rw [hspFault, regF_raiseLim, regF_hspEvent_same _ _ (by decide)]

/-- A port that unmutes itself does so for the accessory `a`. -/
def unmutedPort (n a : Nat) (s : State) : State :=
  if regF s uHSP n 0x004 5 5 = 1 ∧ !outputsOff s then
    if a = 2 ∨ a = 3 then regPutF uHSP n 0x004 0 0 0 (regPutF uHSP n 0x004 1 1 0 s) else regPutF uHSP n 0x004 1 1 0 s
  else s

theorem plugKept_unmutedPort (a : Nat) (s : State) : PlugKept n s (unmutedPort n a s) := by
  have hout := plugKept_regPutF (n := n) 1 1 0 s (b := 0x004) (by decide)
  unfold unmutedPort
  split
  · split
    · exact hout.trans (plugKept_regPutF 0 0 0 _ (by decide))
    · exact hout
  · exact ⟨fun _ _ => rfl, rfl⟩

/-- A port whose accessory `a` has been detected and reported. -/
def detectedPort (n a : Nat) (s : State) : State :=
  unmutedPort n a (raiseLim second n 0x3201 uHSP n 0 [BitVec.ofNat 8 a] (regPutF uHSP n 0x000 30 28 a s))

theorem detectedPort_kept (a : Nat) (s : State) : PlugKept n (regPutF uHSP n 0x000 30 28 a s) (detectedPort n a s) :=
  (plugKept_raiseLim ..).trans (plugKept_unmutedPort a _)

section
variable {t r1 short onS onR2 : Nat}

theorem hspDetect_none (h : (hsp s n).inserted = none) : hspDetect n t r1 short onS onR2 s = s := by
  rw [hspDetect, h]

theorem hspDetect_early {at_ : Nat} (h : (hsp s n).inserted = some at_) (hnow : s.now < at_ + 15000000) :
    hspDetect n t r1 short onS onR2 s = s := by
  rw [hspDetect, h]
  exact if_pos (.inr hnow)

section
variable {at_ : Nat} (h : (hsp s n).inserted = some at_) (h6 : regF s uHSP n 0x000 30 28 = 6)
  (hnow : at_ + 15000000 ≤ s.now)
include h h6 hnow

theorem hspDetect_due : hspDetect n t r1 short onS onR2 s =
    let u := detectedPort n (accessory t r1 short onS onR2) s
    if t < 4 then hspFault n 0 t u else if r1 < 4 then hspFault n 1 r1 u else u := by
  rw [hspDetect, h]
  dsimp only
  rw [if_neg (by omega)]
  rfl

/-- 15 ms after insertion the plug register tells the accessory. -/
theorem hspDetect_plug {k : Nat} (hk : accessory t r1 short onS onR2 = k) (hk8 : k < 8) :
    let u := hspDetect n t r1 short onS onR2 s
    regF u uHSP n 0x000 30 28 = k ∧ regF u uHSP n 0x000 31 31 = regF s uHSP n 0x000 31 31 ∧ u.hsp = s.hsp := by
  intro u
  have hfault : ∀ v, PlugKept n v
      (if t < 4 then hspFault n 0 t v else if r1 < 4 then hspFault n 1 r1 v else v) := by
    intro v
    split
    · exact plugKept_hspFault ..
    · split
      · exact plugKept_hspFault ..
      · exact ⟨fun _ _ => rfl, rfl⟩
  have hkept : PlugKept n (regPutF uHSP n 0x000 30 28 k s) u := by
    have hu : u = _ := hspDetect_due h h6 hnow
    rw [hu, hk]
    exact (detectedPort_kept k s).trans (hfault _)
  refine ⟨?_, ?_, hkept.hsp⟩
  · rw [hkept.plug, regF_regPutF_fits _ (by decide) (by decide) hk8]
  · rw [hkept.plug, regF_regPutF_apart _ _ _ _ _ _ _ _ _ (by decide) (by decide)]

end

/-! The accessory of its measured resistances. -/

theorem accessory_of_ears (ht : 8 ≤ t ∧ t ≤ 600) (hr : 8 ≤ r1 ∧ r1 ≤ 600) : accessory t r1 short onS onR2 =
    if short < 10 then 1 else if 600 ≤ onS ∧ onS ≤ 5000 then 2 else if 600 ≤ onR2 ∧ onR2 ≤ 5000 then 3 else 5 := by
  simp [accessory, ht, hr]

theorem accessory_of_open (ht : 5000 < t) (hr : 5000 < r1) : accessory t r1 short onS onR2 = 4 := by
  have hears : ¬ t ≤ 600 := by omega
  simp [accessory, ht, hr, hears]

theorem accessory_of_short (ht : t < 4) : accessory t r1 short onS onR2 = 5 := by
  have hears : ¬ 8 ≤ t := by omega
  have hopen : ¬ 5000 < t := by omega
  simp [accessory, hears, hopen]

end

/-! ### Removal (R378 to R380) -/

/-- A port whose plug has gone, muted. -/
def removedPort (n : Nat) (s : State) : State :=
  raiseLim second n 0x3202 uHSP n 0 [] (hspEvent n 1 (hspPut n {}
    (regPutF uHSP n 0x000 31 16 0 (regPutF uHSP n 0x004 1 0 3 s))))

/-- Buttons that read pressed no longer do, and that is reported. -/
def releasedButtons (n : Nat) (s : State) : State :=
  if regF s uHSP n 0x000 19 16 = 0 then s else raiseLim second n 0x3203 uHSP n 0 [0] (hspEvent n 2 s)

theorem hspRemove_stable {stable : Nat} (hin : regF s uHSP n 0x000 31 31 = 1)
    (hst : regF s uHSP n 0x008 23 16 ≤ stable) :
    hspRemove n stable s = removedPort n (releasedButtons n s) := if_neg (by omega)

theorem removedPort_spec (n : Nat) (s : State) : let u := removedPort n s
    regF u uHSP n 0x000 31 16 = 0 ∧ regF u uHSP n 0x004 1 0 = 3 ∧ regF u uHSP n 0x00C 1 1 = 1 ∧ hsp u n = {} := by
  refine ⟨?_, ?_, ?_, ?_⟩
  · rw [removedPort, regF_raiseLim, regF_hspEvent_ne _ _ _ _ (by decide), regF_hspPut,
      regF_regPutF_fits _ (by decide) (by decide) (by decide)]
  · rw [removedPort, regF_raiseLim, regF_hspEvent_ne _ _ _ _ (by decide), regF_hspPut,
      hsp_regF_regPutF_ne _ _ _ _ _ _ (by decide), regF_regPutF_fits _ (by decide) (by decide) (by decide)]
  · rw [removedPort, regF_raiseLim, regF_hspEvent_same _ _ (by decide)]
  · rw [hsp, removedPort, raiseLim_hsp]
    exact hsp_hspPut_same _ _

/-! ### Buttons (R380) -/

/-- A port whose microphone contact has been measured. -/
def measuredPort (n ohms : Nat) (s : State) : State := regPutF uHSP n 0x000 15 0 (satN 0xFFFF ohms) s

/-- What the plug register reads of a button. -/
def buttonBits (k : Nat) : Nat := if k = 0 then 0 else 2 ^ (k - 1)

theorem buttonBits_lt (v : Nat) : buttonBits (buttonOf v) < 16 := by
  unfold buttonOf
  split_ifs <;> decide

theorem measuredPort_resistance (ohms : Nat) (s : State) :
    regF (measuredPort n ohms s) uHSP n 0x000 15 0 = min 0xFFFF ohms := by
  rw [measuredPort, satN_eq_min, regF_regPutF_fits _ (by decide) (by decide) (by omega)]

theorem measuredPort_buttons (ohms : Nat) (s : State) :
    regF (measuredPort n ohms s) uHSP n 0x000 19 16 = regF s uHSP n 0x000 19 16 :=
  regF_regPutF_apart _ _ _ _ _ _ _ _ _ (by decide) (by decide)

/-- A port that reports what its buttons read. -/
def pressedPort (n new : Nat) (s : State) : State :=
  raiseLim second n 0x3203 uHSP n 0 [BitVec.ofNat 8 new] (hspEvent n 2 (regPutF uHSP n 0x000 19 16 new s))

theorem pressedPort_plug {new : Nat} (hnew : new < 16) (s : State) :
    regF (pressedPort n new s) uHSP n 0x000 19 16 = new ∧
      regF (pressedPort n new s) uHSP n 0x000 15 0 = regF s uHSP n 0x000 15 0 := by
  constructor
  · rw [pressedPort, regF_raiseLim, regF_hspEvent_ne _ _ _ _ (by decide),
      regF_regPutF_fits _ (by decide) (by decide) hnew]
  · rw [pressedPort, regF_raiseLim, regF_hspEvent_ne _ _ _ _ (by decide),
      regF_regPutF_apart _ _ _ _ _ _ _ _ _ (by decide) (by decide)]

theorem micMeasure_off {ohms : Nat} (hen : regF s uHSP n 0x004 4 4 = 0) : micMeasure n ohms s = s :=
  if_pos (.inr hen)

section
variable {ohms : Nat} (ha : regF s uHSP n 0x000 30 28 = 2 ∨ regF s uHSP n 0x000 30 28 = 3)
  (hen : regF s uHSP n 0x004 4 4 = 1)
include ha hen

/-- A new reading starts its time. -/
theorem micMeasure_new (hk : buttonOf ohms ≠ (hsp s n).reading) : micMeasure n ohms s =
    hspPut n { hsp s n with reading := buttonOf ohms, since := s.now } (measuredPort n ohms s) := by
  rw [micMeasure]
  dsimp only
  rw [if_neg (by omega)]
  exact if_pos hk

/-- A reading stable for BUTTON_MS is what the buttons read. -/
theorem micMeasure_stable (hk : buttonOf ohms = (hsp s n).reading)
    (hst : (hsp s n).since + regF s uHSP n 0x008 15 8 * 1000000 ≤ s.now) (haw : awake s (some 24) = true) :
    micMeasure n ohms s =
      if regF s uHSP n 0x000 19 16 = buttonBits (buttonOf ohms) then measuredPort n ohms s
      else pressedPort n (buttonBits (buttonOf ohms)) (measuredPort n ohms s) := by
  have htime : regF (measuredPort n ohms s) uHSP n 0x008 15 8 = regF s uHSP n 0x008 15 8 :=
    hsp_regF_regPutF_ne _ _ _ _ _ _ (by decide)
  have hnot : ¬ (s.now < (hsp s n).since + regF (measuredPort n ohms s) uHSP n 0x008 15 8 * 1000000) := by
    rw [htime]
    omega
  have hawake : awake (hspEvent n 2 (regPutF uHSP n 0x000 19 16 (buttonBits (buttonOf ohms)) (measuredPort n ohms s)))
      (some 24) = true := haw
  have hmeasure : micMeasure n ohms s =
      if s.now < (hsp s n).since + regF (measuredPort n ohms s) uHSP n 0x008 15 8 * 1000000 ∨
        regF (measuredPort n ohms s) uHSP n 0x000 19 16 = buttonBits (buttonOf ohms) then measuredPort n ohms s
      else raiseLim second n 0x3203 uHSP n 0 [BitVec.ofNat 8 (buttonBits (buttonOf ohms))] (wakeRequestBase 24 uHSP n
        (hspEvent n 2 (regPutF uHSP n 0x000 19 16 (buttonBits (buttonOf ohms)) (measuredPort n ohms s)))) := by
    rw [micMeasure]
    dsimp only
    rw [if_neg (by omega)]
    exact if_neg (not_not.2 hk)
  simp only [hmeasure, wakeRequestBase_awake hawake, hnot, false_or, measuredPort_buttons, pressedPort]

end

end

/-- The headset ports, each step from what it leaves of the port. -/
theorem headsetPorts : Claims.HeadsetPorts := by
  intro s n stable t r1 short onS onR2 ohms plug detect fails ears mic becomes inMs outMs
  refine ⟨fun hout hst haw => ?inserts, fun h => ?insertFails, fun at_ hat h6 => ⟨fun hnow => ?early, fun hnow => ?classifies⟩,
    fun hnone => effect_of_eq (exec_accessoryDetection ..) (hspDetect_none hnone) rfl, fun hin hst => ?removes,
    fun h => ?removeFails, fun ha hen => ⟨fun hk => ?reads, fun hk hst haw => ?presses⟩,
    fun hoff => effect_of_eq (exec_micMeasurement ..) (micMeasure_off hoff) rfl⟩
  case inserts =>
    exact effect_of_eq (exec_hspInsertion ..) (hspInsert_stable hout hst haw) (insertedPort_spec n s)
  case insertFails => exact effect_of_eq (exec_hspInsertion ..) (if_pos h) rfl
  case early => exact effect_of_eq (exec_accessoryDetection ..) (hspDetect_early hat hnow) rfl
  case classifies =>
    have hbecomes : ∀ k, accessory t.toNat r1.toNat short.toNat onS.toNat onR2.toNat = k → k < 8 → becomes k :=
      fun k hk hk8 => effect_done (exec_accessoryDetection ..) (hspDetect_plug hat h6 hnow hk hk8)
    refine ⟨fun ⟨h1, h2, h3, h4⟩ hs => ?_, fun ⟨h1, h2, h3, h4⟩ hs hm => ?_, fun ⟨h1, h2, h3, h4⟩ hs hm hm2 => ?_,
      fun ⟨h1, h2, h3, h4⟩ hs hm hm2 => ?_, fun ht hr => hbecomes 4 (accessory_of_open ht hr) (by decide), fun ht => ?_⟩
    · refine hbecomes 1 ?_ (by decide)
      rw [accessory_of_ears ⟨h1, h2⟩ ⟨h3, h4⟩, if_pos hs]
    · refine hbecomes 2 ?_ (by decide)
      rw [accessory_of_ears ⟨h1, h2⟩ ⟨h3, h4⟩, if_neg (Nat.not_lt.2 hs), if_pos hm]
    · refine hbecomes 3 ?_ (by decide)
      rw [accessory_of_ears ⟨h1, h2⟩ ⟨h3, h4⟩, if_neg (Nat.not_lt.2 hs), if_neg hm, if_pos hm2]
    · refine hbecomes 5 ?_ (by decide)
      rw [accessory_of_ears ⟨h1, h2⟩ ⟨h3, h4⟩, if_neg (Nat.not_lt.2 hs), if_neg hm, if_neg hm2]
    · refine effect_done (exec_accessoryDetection ..)
        ⟨(hspDetect_plug hat h6 hnow (accessory_of_short ht) (by decide)).1, ?_⟩
      rw [hspDetect_due hat h6 hnow]
      dsimp only
      rw [if_pos ht]
      exact hspFault_fields ..
  case removes =>
    exact effect_of_eq (exec_hspRemoval ..) (hspRemove_stable hin hst) (removedPort_spec n _)
  case removeFails => exact effect_of_eq (exec_hspRemoval ..) (if_pos h) rfl
  case reads =>
    refine effect_of_eq (exec_micMeasurement ..) (micMeasure_new ha hen hk) ⟨?_, ?_, ?_, ?_⟩
    · rw [hsp_hspPut_same]
    · rw [hsp_hspPut_same]
    · exact measuredPort_resistance ohms.toNat s
    · exact measuredPort_buttons ohms.toNat s
  case presses =>
    refine effect_of_eq (exec_micMeasurement ..) (micMeasure_stable ha hen hk hst haw) ?_
    obtain ⟨hbuttons, hohms⟩ := pressedPort_plug (n := n) (buttonBits_lt ohms.toNat) (measuredPort n ohms.toNat s)
    split
    next hsame => exact ⟨(measuredPort_buttons ..).trans hsame, measuredPort_resistance ohms.toNat s⟩
    next => exact ⟨hbuttons, hohms.trans (measuredPort_resistance ohms.toNat s)⟩

/-- Settles O42: the leg commands from their replies and what they leave (R366 to R377, R383), and the headset ports from
what each step leaves of a port (R378 to R380, R382). -/
theorem legsAndHeadsetPorts : Obligations.LegsAndHeadsetPorts := ⟨legCommands, headsetPorts⟩

end Sys2Proof.Machine
end

section
/-!
SUPPORT. Taking a packet from a queue: of the state only registers, memory and its errors, Spool, the power domains, free
values and what is raised can change, and FWD_CTRL stays as it is (11_video_bridge.md, R416; 13_memory_ecc.md, R457 to R469;
14_spool_dma.md, R483, R487; 15_weft_network.md, R536).
-/
namespace Sys2Proof.Machine
open Sys2Proof

/-- From `p` to `s` nothing changes that reading memory and taking a packet from Spool do not touch; of the registers
FWD_CTRL, which holds FREEZE, is the same. -/
structure Taken (p s : State) : Prop where
  frame : s = { p with
    free := s.free, regs := s.regs, mem := s.mem, ecc := s.ecc, memc := s.memc, spool := s.spool, power := s.power
    evq := s.evq, raised := s.raised }
  ctrl : regGet s uFWD 0 0x010 = regGet p uFWD 0 0x010

/-- A register at another offset has another key than FWD_CTRL. -/
theorem fwdCtrl_key_offset {u i o : Nat} (ho : o < 0x10000) (h : o ≠ 0x010) : regKey uFWD 0 0x010 ≠ regKey u i o := by
  unfold regKey
  omega

/-- A register of the power unit has another key, whatever its offset. -/
theorem fwdCtrl_key_power (i o : Nat) : regKey uFWD 0 0x010 ≠ regKey uPOWER i o := by
  have hlt : regKey uFWD 0 0x010 < uPOWER * 0x1000000 := by decide
  exact (hlt.trans_le (Nat.le_add_right_of_le (Nat.le_add_right _ _))).ne

section
variable {p s t : State}

theorem Taken.refl (s : State) : Taken s s := ⟨rfl, rfl⟩

/-- What leaves the registers alone. -/
theorem Taken.tables (h : Taken p s) (ht : t = { s with
    free := t.free, mem := t.mem, ecc := t.ecc, memc := t.memc, spool := t.spool, power := t.power, evq := t.evq
    raised := t.raised }) : Taken p t := by
  obtain ⟨hframe, hctrl⟩ := h
  rw [hframe] at ht hctrl
  rw [ht]
  exact ⟨rfl, hctrl⟩

theorem Taken.now (h : Taken p s) : s.now = p.now := by rw [h.frame]

theorem Taken.freeze (h : Taken p s) : regF s uFWD 0 0x010 1 1 = regF p uFWD 0 0x010 1 1 := by rw [regF, h.ctrl, ← regF]

theorem taken_regPut {u i o : Nat} (v : W32) (h : regKey uFWD 0 0x010 ≠ regKey u i o) (hk : Taken p s) :
    Taken p (regPut u i o v s) := by
  refine ⟨?_, (regGet_regPut_ne v s h).trans hk.ctrl⟩
  rw [hk.frame]
  rfl

theorem taken_regBump {u i o : Nat} (hi lo n : Nat) (h : regKey uFWD 0 0x010 ≠ regKey u i o) (hk : Taken p s) :
    Taken p (regBump u i o hi lo n s) := taken_regPut _ h hk

theorem taken_raiseLim (ns key c u i n : Nat) (d : Bytes) (hk : Taken p s) : Taken p (raiseLim ns key c u i n d s) := by
  obtain ⟨e, m, h⟩ := raiseLim_frame s ns key c u i n d
  rw [h]
  exact hk.tables rfl

/-! ### The gateway of a memory domain -/

theorem taken_domAccount (d k : Nat) (x : PState) (u i : Nat) (hk : Taken p s) : Taken p (domAccount d k x u i s) :=
  taken_regPut _ (fwdCtrl_key_power _ _) <|
    ite_keeps (taken_regBump _ _ _ (fwdCtrl_key_power _ _) hk) (taken_regBump _ _ _ (fwdCtrl_key_power _ _) hk)

theorem taken_powerRefuse (d : Nat) (x : PState) (u i : Nat) (hk : Taken p s) : Taken p (powerRefuse d x u i s) :=
  (taken_domAccount d 1 x u i hk).tables rfl

theorem taken_putBack (crew : Nat) (rs : List Retained) (hk : Taken p s) : Taken p (putBack crew rs s) :=
  foldl_keeps _ hk fun _ _ h => h.tables rfl

theorem taken_abortEntry (d u i : Nat) (hk : Taken p s) : Taken p (abortEntry d u i s) := by
  unfold abortEntry
  dsimp only
  split
  case h_1 dest _ _ =>
    have hend : Taken p (powerEnd d dest 0x0702 u i (domAccount d 2 dest u i s)) :=
      (taken_domAccount d 2 dest u i hk).tables rfl
    exact ite_keeps (hend.tables rfl) (taken_putBack _ _ (hend.tables rfl))
  case h_2 => exact hk

theorem taken_wakeRequestBase (d u i : Nat) (hk : Taken p s) : Taken p (wakeRequestBase d u i s) := by
  have habort := taken_abortEntry d u i hk
  unfold wakeRequestBase
  dsimp only
  refine ite_keeps hk ?_
  split
  · refine ite_keeps (ite_keeps habort ?_) (hk.tables rfl)
    split
    · exact taken_powerRefuse _ _ _ _ (habort.tables rfl)
    · exact habort
  · exact hk
  · exact ite_keeps hk (hk.tables rfl)

theorem taken_touch (d : Nat) (hk : Taken p s) : Taken p (touch d s) := ite_keeps (hk.tables rfl) hk

theorem taken_reach (d : Option Nat) (hk : Taken p s) : Taken p (reach d s).2 := by
  unfold reach
  cases d with
  | none => exact hk
  | some d =>
    dsimp only
    split
    · exact hk
    · split
      · exact hk
      · split
        · exact taken_touch d hk
        · split
          · exact taken_touch d (taken_wakeRequestBase _ _ _ hk)
          · exact taken_wakeRequestBase _ _ _ (taken_regPut _ (fwdCtrl_key_offset (by decide) (by decide)) hk)

/-! ### Code words and the errors found in them -/

theorem taken_memCe (ch rank pos w : Nat) (hk : Taken p s) : Taken p (memCe ch rank pos w s) := by
  have hcount := taken_regBump 31 0 1 (fwdCtrl_key_offset (u := uMEM) (i := ch) (o := 0x004) (by decide) (by decide)) hk
  have haddr := taken_regPut (BitVec.ofNat 32 (w / 32 * 32))
    (fwdCtrl_key_offset (u := uMEM) (i := ch) (o := 0x018) (by decide) (by decide)) hcount
  have hwhere := taken_regPut (BitVec.ofNat 32 (0x80000000 + rank * 2 ^ 29 + pos * 2 ^ 24 + w / 2 ^ 32 % 0x10000))
    (fwdCtrl_key_offset (u := uMEM) (i := ch) (o := 0x01C) (by decide) (by decide)) haddr
  exact taken_raiseLim _ _ _ _ _ _ _ (ite_keeps (hwhere.tables rfl) (hwhere.tables rfl))

theorem taken_memUe (ch rank w : Nat) (m : Bool) (i : Initiator) (hk : Taken p s) : Taken p (memUe ch rank w m i s) := by
  have hcount := taken_regBump 31 0 1 (fwdCtrl_key_offset (u := uMEM) (i := ch) (o := 0x008) (by decide) (by decide)) hk
  unfold memUe
  dsimp only
  split
  · exact hcount.tables rfl
  · exact Taken.tables (taken_regPut _ (fwdCtrl_key_offset (by decide) (by decide)) <|
      taken_regPut _ (fwdCtrl_key_offset (by decide) (by decide)) hcount) rfl

theorem taken_sramCe (u i a : Nat) (hk : Taken p s) : Taken p (sramCe u i a s) :=
  taken_raiseLim _ _ _ _ _ _ _ (ite_keeps (taken_regBump _ _ _ (fwdCtrl_key_offset (by decide) (by decide)) hk) hk)

theorem taken_sramUe (u i a : Nat) (x : Initiator) (hk : Taken p s) : Taken p (sramUe u i a x s) := by
  unfold sramUe
  dsimp only
  split
  · exact (taken_regBump 31 0 1 (fwdCtrl_key_offset (u := u) (i := crewCtl) (o := 0x020) (by decide) (by decide)) hk).tables rfl
  · exact hk.tables rfl

theorem taken_sdramRead (i : Initiator) (w ch rank : Nat) (hk : Taken p s) : Taken p (sdramRead i w ch rank s).2.2 := by
  unfold sdramRead
  dsimp only
  split
  · exact hk
  · split
    · exact hk
    · exact taken_memCe _ _ _ _ hk
    · exact taken_memUe _ _ _ _ _ hk

theorem taken_sramRead (u i : Nat) (x : Initiator) (w : Nat) (hk : Taken p s) : Taken p (sramRead u i x w s).2.2 := by
  unfold sramRead
  dsimp only
  split
  · exact hk
  · split
    · exact hk
    · exact taken_sramCe _ _ _ hk
    · exact taken_sramUe _ _ _ _ hk

theorem taken_cellWord (i : Initiator) (w : Nat) (hk : Taken p s) : Taken p (cellWord i w s).2 := by
  unfold cellWord
  dsimp only
  split
  case' h_2 => refine Taken.tables ?_ (rfl : (draw _).2 = _)
  all_goals
    rename_i hr
    refine (congrArg (fun r : Bus × Bytes × State => Taken p r.2.2) hr).mp ?_
    split
    · split
      · exact taken_sdramRead _ _ _ _ (taken_reach _ hk)
      · exact hk
    · exact taken_sramRead _ _ _ _ hk

theorem taken_cellsRead (i : Initiator) (ws : List Nat) (hk : Taken p s) : Taken p (cellsRead i ws s).2 := by
  induction ws generalizing s with
  | nil => exact hk
  | cons w ws ih => exact ih (taken_cellWord i w hk)

/-! ### The packet -/

theorem taken_quarantine (q : Nat) (extra : List Nat) (hk : Taken p s) : Taken p (quarantine q extra s) := by
  unfold quarantine
  extract_lets x hs n u
  have hu : Taken p u := foldl_keeps _ hk fun t h ht => by
    split
    · exact ht.tables rfl
    · exact ht
  exact hu.tables rfl

theorem taken_dequeue (q : Nat) (hk : Taken p s) : Taken p (dequeue q s).2 := by
  unfold dequeue
  split
  · exact hk.tables rfl
  · split
    · exact (taken_quarantine (s := endPtr q s) q [] (hk.tables rfl)).tables rfl
    · dsimp only
      split
      · exact hk.tables rfl
      · dsimp only
        split
        · exact hk.tables rfl
        · exact hk.tables rfl

theorem taken_takePacket {i : Initiator} {q : Nat} {d : Option Bytes} (h : takePacket i q s = (d, t)) : Taken s t := by
  have hdeq : Taken s (dequeue q s).2 := taken_dequeue q (.refl s)
  have ht : t = (takePacket i q s).2 := by rw [h]
  rw [ht]
  unfold takePacket
  generalize dequeue q s = x at hdeq ⊢
  obtain ⟨_ | h, u⟩ := x
  · exact hdeq
  · exact (taken_cellsRead i (packetWords u h) hdeq).tables rfl

end

end Sys2Proof.Machine
end

section
/-!
SUPPORT. The forwarder's legs, streams and counters, a leg's target, and a key picture requested for it
(11_video_bridge.md, R404 to R409, R416).
-/
namespace Sys2Proof.Machine
open Sys2Proof

/-! ### Legs and streams -/

section
variable (l k n m : Nat) (s : State)

@[simp] theorem fwdLeg_fwdPut_same (x : FwdLeg) : fwdLeg (fwdPut l x s) l = some x := spFind_spPut_same _ _ _

theorem fwdLeg_fwdPut_ne {l k : Nat} (x : FwdLeg) (h : k ≠ l) : fwdLeg (fwdPut l x s) k = fwdLeg s k :=
  spFind_spPut_ne _ _ h

@[simp] theorem fwdStream_streamPut_same (x : FwdStream) : fwdStream (streamPut n x s) n = x := spGet_spSet_same _ _ _ _

theorem fwdStream_streamPut_ne {n m : Nat} (x : FwdStream) (h : m ≠ n) :
    fwdStream (streamPut n x s) m = fwdStream s m := spGet_spSet_ne _ _ _ h

theorem fwdLeg_congr {s t : State} (h : s.video = t.video) : fwdLeg s l = fwdLeg t l := by rw [fwdLeg, h, fwdLeg]

theorem fwdStream_congr {s t : State} (h : s.video = t.video) : fwdStream s n = fwdStream t n := by
  rw [fwdStream, h, fwdStream]

/-! ### Counters (R416) -/

/-- A count changes the counters at most. -/
theorem fwdCount_frame : ∃ c, fwdCount l k n s = { s with counters := c } := by
  unfold fwdCount
  split <;> exact ⟨_, rfl⟩

@[simp] theorem fwdCount_video : (fwdCount l k n s).video = s.video := by
  obtain ⟨_, h⟩ := fwdCount_frame l k n s
  rw [h]

@[simp] theorem fwdCount_regs : (fwdCount l k n s).regs = s.regs := by
  obtain ⟨_, h⟩ := fwdCount_frame l k n s
  rw [h]

@[simp] theorem fwdCount_out : (fwdCount l k n s).out = s.out := by
  obtain ⟨_, h⟩ := fwdCount_frame l k n s
  rw [h]

@[simp] theorem fwdCount_now : (fwdCount l k n s).now = s.now := by
  obtain ⟨_, h⟩ := fwdCount_frame l k n s
  rw [h]

@[simp] theorem fwdLeg_fwdCount (j : Nat) : fwdLeg (fwdCount l k n s) j = fwdLeg s j := fwdLeg_congr j (fwdCount_video ..)

@[simp] theorem fwdStream_fwdCount (j : Nat) : fwdStream (fwdCount l k n s) j = fwdStream s j :=
  fwdStream_congr j (fwdCount_video ..)

/-- With FREEZE clear the counter counts. -/
theorem cntGet_fwdCount (hf : regF s uFWD 0 0x010 1 1 = 0) (hn : n ≠ 0) :
    cntGet (fwdCount l k n s) (cntKey uFWD l k) = min 0xFFFFFFFF (cntGet s (cntKey uFWD l k) + n) := by
  have hcounts : ¬ (regF s uFWD 0 0x010 1 1 = 1 ∨ n = 0) := by omega
  rw [fwdCount, if_neg hcounts, cntGet_cntBump]

theorem cntGet_fwdCount_ne {j : Nat} (h : j ≠ k) :
    cntGet (fwdCount l k n s) (cntKey uFWD l j) = cntGet s (cntKey uFWD l j) := by
  unfold fwdCount
  split
  · rfl
  · exact spGet_spSet_ne _ _ _ (by unfold cntKey; omega)

/-- What a count leaves in the counters depends on the registers and the counters alone. -/
theorem fwdCount_counters_congr {s t : State} (hr : t.regs = s.regs) (hc : t.counters = s.counters) :
    (fwdCount l k n t).counters = (fwdCount l k n s).counters := by
  unfold fwdCount
  rw [regF_congr hr]
  split
  · exact hc
  · rw [cntBump, cntBump, cntGet, cntGet, hc]

end

/-! ### Packets sent, events and outputs -/

/-- A packet that a unit sends leaves video and the counters as they are. -/
theorem sendsKeep_video (p : State) : SendsKeep fun s => s.video = p.video ∧ s.counters = p.counters where
  tables := fun hk ht => by rw [ht]; exact hk
  regs := fun _ _ _ _ _ _ hk => hk

section
variable (s : State)

theorem unitSend_video (who : Allocator) (q : Nat) (b : Bytes) (i : Initiator) :
    (unitSend who q b i s).2.video = s.video := (unitSend_kept (sendsKeep_video s) who q b i ⟨rfl, rfl⟩).1

theorem unitSend_counters (who : Allocator) (q : Nat) (b : Bytes) (i : Initiator) :
    (unitSend who q b i s).2.counters = s.counters := (unitSend_kept (sendsKeep_video s) who q b i ⟨rfl, rfl⟩).2

@[simp] theorem raiseLim_video (ns key c u i n : Nat) (d : Bytes) : (raiseLim ns key c u i n d s).video = s.video := by
  obtain ⟨_, _, h⟩ := raiseLim_frame s ns key c u i n d
  rw [h]

theorem raiseLim_counters (ns key c u i n : Nat) (d : Bytes) : (raiseLim ns key c u i n d s).counters = s.counters := by
  obtain ⟨_, _, h⟩ := raiseLim_frame s ns key c u i n d
  rw [h]

@[simp] theorem emit_video (o : Out) : (emit o s).video = s.video := by
  obtain ⟨_, _, _, h⟩ := emit_frame o s
  rw [h]

@[simp] theorem fwdDropEvent_video (l : Nat) : (fwdDropEvent l s).video = s.video :=
  ite_keeps (P := fun t : State => t.video = s.video) rfl (raiseLim_video ..)

theorem fwdDropEvent_counters (l : Nat) : (fwdDropEvent l s).counters = s.counters :=
  ite_keeps (P := fun t : State => t.counters = s.counters) rfl (raiseLim_counters ..)

/-- With no launch pending an Ethernet frame leaves at once, counted by its port alone (R440). -/
theorem emit_eth_sends {s : State} (hl : NoLaunch s) (p : Nat) (kind : String) (d : Bytes) :
    emit (.eth p kind d) s =
      cntBump (uETH * 0x100000000 + p * 16 + 1) 1 { s with out := s.out ++ [.eth p kind d] } := by
  obtain ⟨hnone, hheld⟩ := hl
  have hfree : portHeld s (.eth p kind d) = false := by simp [portHeld, outPort, hnone, hheld]
  rw [emit, hfree]
  rfl

end

/-! ### A leg's target (R404 to R407) -/

/-- A new target changes neither a leg's selection nor its budget nor what it holds. -/
theorem retarget_frame (st : FwdStream) (now : Nat) (x : FwdLeg) : ∃ t c a b p, retarget st now x =
    { x with tgt := t, cand := c, adoptAt := a, asked := b, paused := p } := by
  unfold retarget
  dsimp only
  repeat' split
  all_goals exact ⟨_, _, _, _, _, rfl⟩

/-- A stale leg falls back to the base layer at once (R404). -/
theorem retarget_stale (st : FwdStream) (now : Nat) {x : FwdLeg} (h : x.stale = true) :
    retarget st now x = adopt (0, 0) now x := by
  have hbase : computed st x = some (0, 0) := by simp [computed, h]
  have hlower : (0, 0).1 < x.cur.1 ∨ (0, 0).2 < x.cur.2 ∨ (0, 0) = x.cur := by
    obtain ⟨a, t⟩ := x.cur
    simp only [Prod.mk.injEq]
    omega
  rw [retarget, hbase]
  exact if_pos hlower

section
variable {s : State} {l : Nat} {x : FwdLeg}

theorem legRetarget_of_find (hx : fwdLeg s l = some x) :
    legRetarget l s = fwdPut l (retarget (fwdStream s (flStream x)) s.now x) s := by
  rw [legRetarget, hx]

/-! ### Records whose time has come (R401) -/

theorem spFind_map_snd {α β : Type} (f : α → β) (m : Sparse α) (k : Nat) :
    spFind (m.map fun e => (e.1, f e.2)) k = (spFind m k).map f := by
  induction m with
  | nil => rfl
  | cons e r ih =>
    obtain ⟨j, v⟩ := e
    by_cases hj : j = k
    · simp [spFind, hj]
    · simpa [spFind, hj] using ih

theorem fwdLeg_fwdAdvance (l : Nat) (s : State) : fwdLeg (fwdAdvance s) l =
    (fwdLeg s l).map fun x => applyRecs (shortNow s) (fwdStream s (flStream x)) s.now x :=
  spFind_map_snd (fun x => applyRecs (shortNow s) (fwdStream s (flStream x)) s.now x) _ l

@[simp] theorem fwdAdvance_counters (s : State) : (fwdAdvance s).counters = s.counters := rfl
@[simp] theorem fwdStream_fwdAdvance (n : Nat) (s : State) : fwdStream (fwdAdvance s) n = fwdStream s n := rfl

theorem applyRecs_idle (t : Nat) (st : FwdStream) (now : Nat) (h : x.recs = []) : applyRecs t st now x = x := by
  rw [applyRecs, h]
  change { x with recs := [] } = x
  rw [← h]

/-- Where no leg has a record that waits, nothing is brought up to date. -/
theorem fwdAdvance_idle (h : ∀ e ∈ s.video.fwd.legs, e.2.recs = []) : fwdAdvance s = s := by
  have hlegs : (s.video.fwd.legs.map fun e =>
      (e.1, applyRecs (shortNow s) (spGet {} s.video.fwd.streams (flStream e.2)) s.now e.2)) = s.video.fwd.legs := by
    refine (List.map_congr_left fun e he => ?_).trans (List.map_id _)
    rw [applyRecs_idle _ _ _ (h e he)]
    rfl
  rw [fwdAdvance, fwdMod, videoMod, hlegs]

theorem applyRecs_early {t now : Nat} {st : FwdStream} {r : BudgetRec} (hr : x.recs = [r]) (h : t < r.time) :
    applyRecs t st now x = x := by
  have hdue : (x.recs.filter fun r => decide (r.time ≤ t)) = [] := by simp [hr, h]
  have hlate : (x.recs.filter fun r => decide (t < r.time)) = x.recs := by simp [hr, h]
  rw [applyRecs, hdue, hlate]
  rfl

theorem applyRecs_due {t now : Nat} {st : FwdStream} {r : BudgetRec} (hr : x.recs = [r]) (h : r.time ≤ t) :
    applyRecs t st now x = applyRec t st now { x with recs := [] } r := by
  have hdue : (x.recs.filter fun r => decide (r.time ≤ t)) = [r] := by simp [hr, h]
  have hlate : (x.recs.filter fun r => decide (t < r.time)) = [] := by simp [hr, h]
  rw [applyRecs, hdue, hlate]
  rfl

/-! ### A key picture requested (R409) -/

/-- A request counts, and leaves every leg as it is. -/
theorem requestKey_keeps (hx : fwdLeg s l = some x) :
    (requestKey l s).video.fwd.legs = s.video.fwd.legs ∧ (requestKey l s).counters = (fwdCount l 5 1 s).counters := by
  obtain ⟨c, hc⟩ := fwdCount_frame l 5 1 s
  rw [requestKey, hx]
  dsimp only
  rw [hc]
  split
  · exact ⟨rfl, rfl⟩
  · split
    · exact ⟨rfl, rfl⟩
    · split
      · rw [unitSend_video, unitSend_counters]
        exact ⟨rfl, rfl⟩
      · exact ⟨rfl, rfl⟩

theorem fwdLeg_requestKey (hx : fwdLeg s l = some x) (k : Nat) : fwdLeg (requestKey l s) k = fwdLeg s k := by
  rw [fwdLeg, (requestKey_keeps hx).1, fwdLeg]

/-- The first request for a stream that an encoder feeds goes to that encoder. -/
theorem requestKey_encoder {k : Nat} (hx : fwdLeg s l = some x) (hk : encoderOf s (flStream x) = some k)
    (hreq : (fwdStream s (flStream x)).lastReq = none) :
    (videoRun (requestKey l s) k).wantKey = true ∧
      (fwdStream (requestKey l s) (flStream x)).lastReq = some s.now := by
  obtain ⟨c, hc⟩ := fwdCount_frame l 5 1 s
  have hfirst : ¬ (fwdStream s (flStream x)).lastReq.any (fun t => s.now < t + 500000000) = true := by simp [hreq]
  have henc : encoderOf (streamPut (flStream x) { fwdStream s (flStream x) with lastReq := some s.now }
      { s with counters := c }) (flStream x) = some k := hk
  rw [requestKey, hx]
  dsimp only
  rw [hc]
  dsimp only
  rw [if_neg hfirst, henc]
  dsimp only
  refine ⟨?_, ?_⟩
  · rw [videoRun, videoPut]
    exact congrArg VideoRun.wantKey (spGet_spSet_same _ _ _ _)
  · exact congrArg FwdStream.lastReq (fwdStream_streamPut_same ..)

end

end Sys2Proof.Machine
end

section
/-!
SUPPORT. A stream's packets at the legs of the forwarder: what selection, holding and sending leave of every stream's window,
and what becomes of a packet of one leg (11_video_bridge.md, R400, R406, R408 to R412).
-/
namespace Sys2Proof.Machine
open Sys2Proof

/-! ### The packets of the last second -/

/-- The window of a stream, from which its rates are measured. -/
def fwdWindow (n : Nat) (s : State) : List (Nat × Nat × Nat × Nat) := (fwdStream s n).window

section
variable (n l : Nat) (st : FwdStream) (s : State)

theorem fwdWindow_congr {s t : State} (h : s.video = t.video) : fwdWindow n s = fwdWindow n t := by
  rw [fwdWindow, fwdStream_congr n h, fwdWindow]

@[simp] theorem fwdWindow_fwdPut (x : FwdLeg) : fwdWindow n (fwdPut l x s) = fwdWindow n s := rfl

@[simp] theorem fwdWindow_fwdCount (k m : Nat) : fwdWindow n (fwdCount l k m s) = fwdWindow n s :=
  fwdWindow_congr n (fwdCount_video ..)

@[simp] theorem fwdWindow_requestKey : fwdWindow n (requestKey l s) = fwdWindow n s := by
  have hcount := fwdWindow_fwdCount n l s 5 1
  unfold requestKey
  split
  · rfl
  · rename_i x hx
    extract_lets m st u v
    have hu : fwdWindow n u = fwdWindow n s := hcount
    have hv : fwdWindow n v = fwdWindow n s := by
      by_cases hm : n = m
      · subst hm
        rw [fwdWindow, fwdStream_streamPut_same]
        rfl
      · rw [fwdWindow, fwdStream_streamPut_ne _ _ hm]
        exact hu
    split
    · exact hu
    · split
      · exact hv
      · split
        · exact (fwdWindow_congr n (unitSend_video ..)).trans hv
        · exact hv

@[simp] theorem fwdWindow_legBreak : fwdWindow n (legBreak l s) = fwdWindow n s := by
  unfold legBreak
  split
  · rfl
  · have hdrop : fwdWindow n (fwdDropEvent l (fwdCount l 2 1 s)) = fwdWindow n s :=
      (fwdWindow_congr n (fwdDropEvent_video ..)).trans (fwdWindow_fwdCount ..)
    dsimp only
    split
    · exact hdrop
    · rw [fwdWindow_requestKey, fwdWindow_fwdCount, fwdWindow_fwdPut]
      exact hdrop

@[simp] theorem fwdWindow_legSend (d : Bytes) (marker : Bool) : fwdWindow n (legSend l d marker s) = fwdWindow n s := by
  unfold legSend
  split
  · rfl
  · dsimp only
    split
    · split
      · rw [fwdWindow_fwdCount, fwdWindow_fwdPut]
        exact fwdWindow_congr n (emit_video ..)
      · exact fwdWindow_legBreak ..
    · rename_i x _ _
      have hsent := unitSend_video s .unit (fld x.body 28 2)
        (Config.ipUdp (sub x.body 48 16) (sub x.body 64 16) (fld x.body 30 2) (fld x.body 32 2) 0 (rtpPacket s l x d marker) ++
          rtpPacket s l x d marker) (unitInit uFWD 0)
      split
      all_goals
        rename_i hsend
        rw [hsend] at hsent
      · rw [fwdWindow_fwdCount, fwdWindow_fwdPut]
        exact fwdWindow_congr n hsent
      · rw [fwdWindow_legBreak]
        exact fwdWindow_congr n hsent

@[simp] theorem fwdWindow_flushHeld (f : Nat) (ended : Bool) : fwdWindow n (flushHeld l f ended s) = fwdWindow n s := by
  unfold flushHeld
  split
  · rfl
  · dsimp only
    split
    · rfl
    · exact foldl_keeps (P := fun t => fwdWindow n t = fwdWindow n s) _ rfl fun t e ht =>
        (fwdWindow_legSend ..).trans ht

@[simp] theorem fwdWindow_legDeliver (e : Nat × Bytes) : fwdWindow n (legDeliver l st s e) = fwdWindow n s := by
  unfold legDeliver
  dsimp only
  split
  · rfl
  · have hheld := fwdWindow_flushHeld n l s (fld e.2 10 2) false
    have hcount := fwdWindow_fwdCount n l s 1 1
    refine ite_keeps (P := fun t => fwdWindow n t = fwdWindow n s) ((fwdWindow_flushHeld ..).trans ?_) ?_
    all_goals
      refine ite_keeps (P := fun t => fwdWindow n t = fwdWindow n s) ?_ hcount
      split
      · exact ite_keeps (P := fun t => fwdWindow n t = fwdWindow n s) hheld hheld
      · exact hheld

@[simp] theorem fwdWindow_decideFrame : fwdWindow n (decideFrame l st s) = fwdWindow n s := by
  unfold decideFrame
  split
  · rfl
  · exact ite_keeps (P := fun t => fwdWindow n t = fwdWindow n s) rfl ((fwdWindow_fwdCount ..).trans rfl)

@[simp] theorem fwdWindow_releaseFrame : fwdWindow n (releaseFrame l st s) = fwdWindow n s := by
  unfold releaseFrame
  split
  · rfl
  · exact ite_keeps (P := fun t => fwdWindow n t = fwdWindow n s) rfl <|
      foldl_keeps (P := fun t => fwdWindow n t = fwdWindow n s) _ (fwdWindow_decideFrame ..) fun t e ht =>
        (fwdWindow_legDeliver ..).trans ht

theorem fwdWindow_legPacket (d : Bytes) : fwdWindow n (legPacket l st d s) = fwdWindow n s := by
  unfold legPacket
  dsimp only
  split
  · rfl
  · rename_i x hx
    split
    · exact fwdWindow_legDeliver ..
    · have hrel : fwdWindow n (if x.frame = some (fld d 10 2) then s else releaseFrame l st s) = fwdWindow n s :=
        ite_keeps (P := fun t => fwdWindow n t = fwdWindow n s) rfl (fwdWindow_releaseFrame ..)
      generalize (if x.frame = some (fld d 10 2) then s else releaseFrame l st s) = u at hrel ⊢
      split
      · exact hrel
      · exact ite_keeps (P := fun t => fwdWindow n t = fwdWindow n s) ((fwdWindow_releaseFrame ..).trans hrel) hrel

end

/-! ### One leg -/

section
variable {s : State} {l : Nat} {x : FwdLeg} {d : Bytes}

/-- The first packets of a frame wait while a KEY of a higher layer can still decide the selection (R408). -/
theorem legPacket_waits {st : FwdStream} (hx : fwdLeg s l = some x) (hf : x.frame ≠ some (fld d 10 2)) (hw : x.waiting = [])
    (hkey : fld d 12 1 % 4 < keyLayer st.simulcast x) (hfin : bit (fld d 13 1) 0 = false) :
    legPacket l st d s = fwdPut l { x with frame := some (fld d 10 2), waiting := [(s.now, d)] } s := by
  have hrel : releaseFrame l st s = s := by
    rw [releaseFrame, hx]
    exact if_pos hw
  have hwait : ¬ (keyLayer st.simulcast x ≤ fld d 12 1 % 4 ∨ bit (fld d 13 1) 0 = true) := by
    rw [hfin]
    simpa using hkey
  rw [legPacket]
  dsimp only
  rw [hx]
  dsimp only
  rw [if_neg fun h => hf h.1, if_neg hf, hrel, hx]
  dsimp only
  rw [hw, if_neg hwait]
  rfl

theorem legPacket_decided {st : FwdStream} (hx : fwdLeg s l = some x) (hf : x.frame = some (fld d 10 2))
    (hw : x.waiting = []) : legPacket l st d s = legDeliver l st s (s.now, d) := by
  rw [legPacket]
  dsimp only
  rw [hx]
  exact if_pos ⟨hf, hw⟩

/-- A leg that holds nothing has nothing to send. -/
theorem flushHeld_empty (hx : fwdLeg s l = some x) (hh : x.held = []) (f : Nat) (ended : Bool) :
    flushHeld l f ended s = fwdPut l x s := by
  have hsame : { x with held := x.held.filter (·.1 != f) } = x := by
    rw [hh]
    change { x with held := [] } = x
    rw [← hh]
  rw [flushHeld, hx]
  dsimp only
  rw [hsame, hh]
  exact ite_self _

/-- A leg that sends what is selected. -/
structure LegSends (x : FwdLeg) : Prop where
  started : x.started = true
  paused : x.paused = false
  suspended : x.suspended = false
  broken : x.broken = false
  dropping : x.dropping = false

section
variable {st : FwdStream} {t : Nat} (hx : fwdLeg s l = some x) (hh : x.held = []) (hsim : st.simulcast = false)
include hx hh hsim

/-- A packet above the leg's layers is counted and goes no further. -/
theorem legDeliver_drops (h : x.cur.1 < fld d 12 1 % 4 ∨ x.cur.2 < fld d 12 1 / 4) :
    let u := legDeliver l st s (t, d)
    fwdLeg u l = some x ∧ u.out = s.out ∧ u.counters = (fwdCount l 1 1 s).counters := by
  have hsel : (decide (fld d 12 1 / 4 ≤ x.cur.2) && decide (fld d 12 1 % 4 ≤ x.cur.1)) = false := by
    simp only [Bool.and_eq_false_iff, decide_eq_false_iff_not]
    omega
  have hx' : fwdLeg (fwdCount l 1 1 s) l = some x := (fwdLeg_fwdCount ..).trans hx
  rw [legDeliver]
  dsimp only
  rw [hx]
  dsimp only
  simp only [hsim, Bool.false_eq_true, ↓reduceIte, hsel, Bool.and_false, flushHeld_empty hx' hh]
  split
  · exact ⟨fwdLeg_fwdPut_same .., fwdCount_out .., rfl⟩
  · exact ⟨hx', fwdCount_out .., rfl⟩

/-- A selected packet is held back; with the last one its frame is sent (R410). -/
theorem legDeliver_holds (hlive : LegSends x) (ha : fld d 12 1 % 4 ≤ x.cur.1) (ht : fld d 12 1 / 4 ≤ x.cur.2) :
    let u := fwdPut l { x with held := [(fld d 10 2, t, d)] } (fwdPut l x s)
    legDeliver l st s (t, d) = if bit (fld d 13 1) 0 then flushHeld l (fld d 10 2) true u else u := by
  obtain ⟨hstarted, hpaused, hsuspended, hbroken, hdropping⟩ := hlive
  rw [legDeliver]
  dsimp only
  rw [hx]
  dsimp only
  simp only [hsim, Bool.false_eq_true, ↓reduceIte, hstarted, hpaused, hsuspended, hbroken, hdropping, decide_eq_true ha,
    decide_eq_true ht, Bool.not_false, Bool.and_self, flushHeld_empty hx hh, fwdLeg_fwdPut_same, hh, List.nil_append]

end

/-- What a leg becomes with each packet it sends. -/
def legSent (x : FwdLeg) : FwdLeg := { x with seq := (x.seq + 1) % 65536, roc := (x.roc + (x.seq + 1) / 65536) % 2 ^ 32 }

/-- An IP leg's packet leaves by its port and is counted (R410, R416). -/
theorem legSend_ip (hx : fwdLeg s l = some x) (hip : flIp x = true)
    (hport : regF s uETH (fld x.body 27 1) 0x004 31 31 = 1) (hl : NoLaunch s) (marker : Bool) :
    ∃ e, legSend l d marker s = fwdCount l 0 1 (fwdPut l (legSent x)
      (cntBump (uETH * 0x100000000 + fld x.body 27 1 * 16 + 1) 1
        { s with out := s.out ++ [.eth (fld x.body 27 1) "rtp" e] })) := by
  rw [legSend, hx]
  dsimp only
  rw [if_pos hip, if_pos hport, emit_eth_sends hl]
  exact ⟨_, rfl⟩

/-- The frame of one held packet is sent when it ends. -/
theorem flushHeld_single {f : Nat} {e : Nat × Bytes} (hx : fwdLeg s l = some x) (hh : x.held = [(f, e)])
    (hs : x.suspended = false) (hb : x.broken = false) (ended : Bool) :
    flushHeld l f ended s = legSend l e.2 ended (fwdPut l { x with held := [] } s) := by
  rw [flushHeld, hx]
  dsimp only
  rw [hh, hs, hb]
  simp

end

end Sys2Proof.Machine
end

section
/-!
SUPPORT. A stream packet taken from its queue, and packets that have been held too long (11_video_bridge.md, R400, R406,
R408, R410, R412).
-/
namespace Sys2Proof.Machine
open Sys2Proof

section
variable {s v : State} {n : Nat} {d : Bytes} (ht : takePacket (unitInit uFWD 0) (streamQueue s n) s = (some d, v))
include ht

/-- A packet whose length is out of range or not its own is dropped; the legs are brought up to date all the same. -/
theorem streamPacket_malformed (h : fld d 14 2 < 1 ∨ 1200 < fld d 14 2 ∨ d.length ≠ 32 + fld d 14 2) :
    streamPacket n s = fwdAdvance v := by
  rw [streamPacket, ht]
  dsimp only
  refine if_pos ?_
  omega

/-- A well-formed packet of stream `n` without SIMULCAST and extension. -/
structure LayerPacket (n : Nat) (d : Bytes) : Prop where
  length : d.length = 32 + fld d 14 2
  stream : fld d 8 2 = n
  spatial : fld d 12 1 % 4 < 3
  temporal : fld d 12 1 / 4 < 3
  flags : fld d 13 1 < 8
  least : 1 ≤ fld d 14 2
  most : fld d 14 2 ≤ 1200
  extension : fld d 16 2 = 0

/-- A packet in time is noted in its stream's window and goes to the stream's legs. -/
theorem streamPacket_in_time (hok : LayerPacket n d) (hin : shortNow v ≤ fld d 0 8) : ∃ st : FwdStream,
    st.simulcast = false ∧ st.window = (fwdStream v n).window ++
      [(v.now, 8 * (fld d 14 2 + 40), fld d 12 1 % 4, fld d 12 1 / 4)] ∧
    streamPacket n s = (((fwdAdvance v).video.fwd.legs.filter fun e => flStream e.2 == n).map (·.1)).foldl
      (fun s l => legPacket l st d s) (streamPut n st (fwdAdvance v)) := by
  obtain ⟨hlen, hstream, hspatial, htemporal, hflags, hleast, hmost, hext⟩ := hok
  have hwf : ¬ (d.length ≠ 32 + fld d 14 2 ∨ fld d 8 2 ≠ n ∨ 16 ≤ fld d 12 1 ∨ 2 < fld d 12 1 % 4 ∨ 2 < fld d 12 1 / 4 ∨
      16 ≤ fld d 13 1 ∨ fld d 14 2 < 1 ∨ 1200 < fld d 14 2 ∨ fld d 16 2 % 4 ≠ 0 ∨ fld d 14 2 ≤ fld d 16 2) := by omega
  have hlate : ¬ fld d 0 8 < shortNow (fwdAdvance v) := Nat.not_lt.2 hin
  have hsim : bit (fld d 13 1) 3 = false := by
    rw [bit, Nat.div_eq_of_lt (show fld d 13 1 < 2 ^ 3 from hflags)]
    rfl
  rw [streamPacket, ht]
  dsimp only
  rw [if_neg hwf, if_neg hlate]
  exact ⟨_, hsim, rfl, rfl⟩

/-- The window of its stream grows by the packet, whatever becomes of it at the legs. -/
theorem streamPacket_window (hok : LayerPacket n d) (hin : shortNow v ≤ fld d 0 8) :
    (fwdStream (streamPacket n s) n).window = (fwdStream v n).window ++
      [(v.now, 8 * (fld d 14 2 + 40), fld d 12 1 % 4, fld d 12 1 / 4)] := by
  obtain ⟨st, -, hwindow, hrun⟩ := streamPacket_in_time ht hok hin
  have hput : fwdWindow n (streamPut n st (fwdAdvance v)) = st.window :=
    congrArg FwdStream.window (fwdStream_streamPut_same ..)
  rw [hrun, ← hwindow]
  exact foldl_keeps (P := fun t => fwdWindow n t = st.window) _ hput fun t l h => (fwdWindow_legPacket n l st t d).trans h

/-- With one leg, which no record waits for, the packet goes to that leg. -/
theorem streamPacket_single {l : Nat} {x : FwdLeg} (hok : LayerPacket n d) (hin : shortNow v ≤ fld d 0 8)
    (hlegs : v.video.fwd.legs = [(l, x)]) (hs : flStream x = n) (hr : x.recs = []) :
    ∃ st : FwdStream, st.simulcast = false ∧ streamPacket n s = legPacket l st d (streamPut n st v) := by
  obtain ⟨st, hsim, -, hrun⟩ := streamPacket_in_time ht hok hin
  have hidle : fwdAdvance v = v := fwdAdvance_idle (by simp [hlegs, hr])
  refine ⟨st, hsim, ?_⟩
  rw [hrun, hidle, hlegs, List.filter_cons_of_pos (by simp [hs])]
  rfl

end

theorem fwdLeg_of_single {s : State} {l : Nat} {x : FwdLeg} (h : s.video.fwd.legs = [(l, x)]) : fwdLeg s l = some x := by
  rw [fwdLeg, h]
  exact if_pos rfl

/-- The one packet of a frame that an IP leg holds leaves by its port, and the port and the leg count it (R410, R416). -/
theorem flushHeld_ip {s : State} {l f : Nat} {x : FwdLeg} {e : Nat × Bytes}
    (hx : fwdLeg s l = some { x with held := [(f, e)] }) (hh : x.held = []) (hlive : LegSends x) (hip : flIp x = true)
    (hport : regF s uETH (fld x.body 27 1) 0x004 31 31 = 1) (hl : NoLaunch s) :
    let u := flushHeld l f true s
    fwdLeg u l = some (legSent x) ∧ (∃ b, u.out = s.out ++ [.eth (fld x.body 27 1) "rtp" b]) ∧
      (regF s uFWD 0 0x010 1 1 = 0 →
        cntGet u (cntKey uFWD l 0) = min 0xFFFFFFFF (cntGet s (cntKey uFWD l 0) + 1)) := by
  have hsame : { x with held := [] } = x := by rw [← hh]
  have hflush := flushHeld_single (f := f) hx rfl hlive.suspended hlive.broken true
  dsimp only at hflush
  rw [hsame] at hflush
  obtain ⟨b, hb⟩ := legSend_ip (s := fwdPut l x s) (d := e.2) (fwdLeg_fwdPut_same ..) hip hport hl true
  rw [hflush, hb]
  refine ⟨(fwdLeg_fwdCount ..).trans (fwdLeg_fwdPut_same ..), ⟨b, fwdCount_out ..⟩, fun hfreeze => ?_⟩
  refine (cntGet_fwdCount _ _ _ _ ?_ (by decide)).trans ?_
  · exact hfreeze
  have hother : cntKey uFWD l 0 ≠ uETH * 0x100000000 + fld x.body 27 1 * 16 + 1 := by unfold cntKey; omega
  exact congrArg (fun c => min 0xFFFFFFFF (c + 1)) (spGet_spSet_ne _ _ _ hother)

end Sys2Proof.Machine
end

section
/-!
SUPPORT. Forecast records and their absence, layer rates, held targets, key requests, feedback and the expiry of packets
(11_video_bridge.md, R401 to R409, R412).
-/
namespace Sys2Proof.Machine
open Sys2Proof

/-! ### Forecast records (R401 to R404) -/

/-- The record a leg makes of a forecast record. -/
def legRecord (x : FwdLeg) (d : Bytes) : BudgetRec :=
  { time := fld d 0 8, budget := (if flFlag x 0 then fld d 16 4 else fld d 12 4) * fld x.body 14 1 / 100
    flags := fld d 11 1 }

/-- What a leg `x` that a record reaches at elapsed time `t` and Cox time `now` becomes: the record waits for its time or is
applied. -/
structure RecordTaken (x : FwdLeg) (d : Bytes) (t now : Nat) (y : FwdLeg) : Prop where
  lastRec : y.lastRec = t
  stale : y.stale = false
  waits : x.stale = false → now < fld d 0 8 → y = { x with recs := [legRecord x d], lastRec := t, stale := false }
  applied : fld d 0 8 ≤ now →
    y.budget = (legRecord x d).budget ∧ y.recs = [] ∧ y.suspect = bit (legRecord x d).flags 1

/-- A leg with one record, once the records whose time has come are applied. -/
theorem recordTaken_applyRecs {x z : FwdLeg} {d : Bytes} {t now el : Nat} {st : FwdStream} (hr : z.recs = [legRecord x d])
    (hl : z.lastRec = t) (hs : z.stale = false)
    (hz : x.stale = false → z = { x with recs := [legRecord x d], lastRec := t, stale := false }) :
    RecordTaken x d t now (applyRecs now st el z) := by
  by_cases h : now < fld d 0 8
  · rw [applyRecs_early hr h]
    exact ⟨hl, hs, fun hx _ => hz hx, fun hle => absurd h (Nat.not_lt.2 hle)⟩
  · obtain ⟨g, c, a, b, p, hframe⟩ := retarget_frame st (max z.lastRec (el - (now - (legRecord x d).time)))
      { z with recs := [], budget := (legRecord x d).budget, suspect := bit (legRecord x d).flags 1
               suspended := z.suspended || bit (legRecord x d).flags 0 }
    rw [applyRecs_due hr (Nat.not_lt.1 h), applyRec]
    dsimp only
    rw [hframe]
    exact ⟨hl, hs, fun _ hlt => absurd hlt h, fun _ => ⟨rfl, rfl, rfl⟩⟩

section
variable {s : State} {l : Nat} {x : FwdLeg}

/-- A record taken by a leg for which none waits. -/
theorem recordFor_spec (hx : fwdLeg s l = some x) (hr : x.recs = []) (d : Bytes) :
    (∃ y, fwdLeg (recordFor l d s) l = some y ∧ RecordTaken x d s.now (shortNow s) y) ∧
      (recordFor l d s).counters = (fwdCount l 7 1 s).counters := by
  let x1 : FwdLeg := { x with recs := [legRecord x d], lastRec := s.now, stale := false }
  let s1 : State := fwdPut l x1 (fwdAdvance s)
  have hx0 : fwdLeg (fwdAdvance s) l = some x := by
    rw [fwdLeg_fwdAdvance, hx]
    exact congrArg some (applyRecs_idle _ _ _ hr)
  have hrecord : recordFor l d s = fwdAdvance (fwdCount l 7 1 (if x.stale then legRetarget l s1 else s1)) := by
    rw [recordFor]
    dsimp only
    rw [hx0]
    dsimp only
    rw [hr]
    rfl
  obtain ⟨z, w, hw, hz, hzr, hzl, hzs, hzx⟩ : ∃ z w, (if x.stale then legRetarget l s1 else s1) = { s with video := w } ∧
      fwdLeg { s with video := w } l = some z ∧ z.recs = [legRecord x d] ∧ z.lastRec = s.now ∧ z.stale = false ∧
      (x.stale = false → z = x1) := by
    have hx1 : fwdLeg s1 l = some x1 := fwdLeg_fwdPut_same ..
    cases x.stale with
    | false => exact ⟨x1, s1.video, rfl, hx1, rfl, rfl, rfl, fun _ => rfl⟩
    | true =>
      obtain ⟨g, c, a, b, p, hframe⟩ := retarget_frame (fwdStream s1 (flStream x1)) s1.now x1
      rw [if_pos rfl, legRetarget_of_find hx1, hframe]
      exact ⟨_, (fwdPut l { x1 with tgt := g, cand := c, adoptAt := a, asked := b, paused := p } s1).video, rfl,
        spFind_spPut_same _ _ _, rfl, rfl, rfl, nofun⟩
  obtain ⟨c, hc⟩ := fwdCount_frame l 7 1 { s with video := w }
  rw [hrecord, hw]
  refine ⟨?_, fwdCount_counters_congr _ _ _ rfl rfl⟩
  rw [hc, fwdLeg_fwdAdvance]
  change ∃ y, (fwdLeg { s with video := w } l).map _ = some y ∧ _
  rw [hz]
  exact ⟨_, rfl, recordTaken_applyRecs hzr hzl hzs hzx⟩

/-- A record that names the forwarder's one leg. -/
theorem legsNamed_single {dev : Nat} {d : Bytes} (hlegs : s.video.fwd.legs = [(l, x)])
    (hn : flIp x = false ∧ fld x.body 24 2 = dev ∧ fld x.body 26 1 = fld d 10 1 ∧ fld x.body 22 2 = fld d 8 2) :
    legsNamed s dev d = [l] := by
  obtain ⟨hip, hdev, hcar, hhs⟩ := hn
  rw [legsNamed, hlegs, List.filter_cons_of_pos (by simp [hip, hdev, hcar, hhs])]
  rfl

theorem forecastRelay_single {dev : Nat} {d : Bytes} (hlegs : s.video.fwd.legs = [(l, x)])
    (hn : flIp x = false ∧ fld x.body 24 2 = dev ∧ fld x.body 26 1 = fld d 10 1 ∧ fld x.body 22 2 = fld d 8 2) :
    forecastRelay dev d s = recordFor l d s := by
  rw [forecastRelay, legsNamed_single hlegs hn]
  rfl

section
variable {v : State} {c i : Nat} {b d : Bytes} (hc : carrierIn s c .running = some (i, b)) (hf : carFlag b 1 = true)
  (ht : takePacket (unitInit uFWD 0) (fld b 54 2) s = (some d, v))
include hc hf ht

theorem forecastRecordOp_taken : forecastRecordOp c s =
    ((((legsNamed v (deviceId v) d).foldl (fun s l => recordFor l d s) v).video.fwd.subs.filter fun e =>
      e.2 == fld d 8 2).map (·.1)).foldl (fun s dev => sendTo dev 0 "forecast" [] d s)
      ((legsNamed v (deviceId v) d).foldl (fun s l => recordFor l d s) v) := by
  rw [forecastRecordOp, hc]
  dsimp only
  rw [hf, ht]
  rfl

/-- Without legs and subscriptions a record goes nowhere. -/
theorem forecastRecordOp_unnamed (hlegs : v.video.fwd.legs = []) (hsubs : v.video.fwd.subs = []) :
    forecastRecordOp c s = v := by
  have hnone : legsNamed v (deviceId v) d = [] := by rw [legsNamed, hlegs]; rfl
  rw [forecastRecordOp_taken hc hf ht, hnone, List.foldl_nil, hsubs]
  rfl

/-- A record that names the forwarder's one leg is taken by it; subscriptions do not touch the forwarder. -/
theorem forecastRecordOp_single (hlegs : v.video.fwd.legs = [(l, x)])
    (hn : flIp x = false ∧ fld x.body 24 2 = deviceId v ∧ fld x.body 26 1 = fld d 10 1 ∧ fld x.body 22 2 = fld d 8 2) :
    (forecastRecordOp c s).video = (recordFor l d v).video ∧
      (forecastRecordOp c s).counters = (recordFor l d v).counters := by
  rw [forecastRecordOp_taken hc hf ht, legsNamed_single hlegs hn]
  refine foldl_keeps (P := fun t : State => t.video = (recordFor l d v).video ∧ t.counters = (recordFor l d v).counters) _
    ⟨rfl, rfl⟩ fun t dev hk => ?_
  obtain ⟨z, hz⟩ := sendTo_frame t dev 0 "forecast" [] d
  rw [hz]
  exact hk

end

/-! ### A leg without records (R404), held targets (R407) and key requests (R409) -/

theorem forecastStale_waits (hx : fwdLeg s l = some x)
    (h : flIp x = true ∨ x.stale = true ∨ s.now < x.lastRec + fld x.body 12 2 * 1000000) : forecastStale l s = s := by
  rw [forecastStale, hx]
  exact if_pos h

/-- A leg without a record for STALE_MS falls back to the base layer, and is counted. -/
theorem forecastStale_falls (hx : fwdLeg s l = some x) (hip : flIp x = false) (hs : x.stale = false)
    (hdue : x.lastRec + fld x.body 12 2 * 1000000 ≤ s.now) :
    fwdLeg (forecastStale l s) l = some (adopt (0, 0) s.now { x with stale := true }) ∧
      (forecastStale l s).counters = (fwdCount l 6 1 s).counters := by
  let y : FwdLeg := { x with stale := true }
  have hnot : ¬ (flIp x = true ∨ x.stale = true ∨ s.now < x.lastRec + fld x.body 12 2 * 1000000) := by
    simp [hip, hs, hdue]
  have hy : legRetarget l (fwdPut l y s) = fwdPut l (adopt (0, 0) s.now y) (fwdPut l y s) := by
    rw [legRetarget_of_find (fwdLeg_fwdPut_same ..), retarget_stale _ _ (show y.stale = true from rfl)]
    rfl
  rw [forecastStale, hx]
  dsimp only
  rw [if_neg hnot, hy]
  refine ⟨(fwdLeg_congr l (raiseLim_video ..)).trans ((fwdLeg_fwdCount ..).trans (fwdLeg_fwdPut_same ..)), ?_⟩
  rw [raiseLim_counters]
  exact fwdCount_counters_congr _ _ _ rfl rfl

theorem upHold_adopts {t : Nat × Nat} {since : Nat} (hx : fwdLeg s l = some x) (hc : x.cand = some (t, since))
    (hdue : since + fld x.body 8 2 * 1000000 ≤ s.now) : upHold l s = fwdPut l (adopt t s.now x) s := by
  rw [upHold, hx]
  dsimp only
  rw [hc]
  exact if_pos hdue

theorem upHold_waits {t : Nat × Nat} {since : Nat} (hx : fwdLeg s l = some x) (hc : x.cand = some (t, since))
    (h : s.now < since + fld x.body 8 2 * 1000000) : upHold l s = s := by
  rw [upHold, hx]
  dsimp only
  rw [hc]
  exact if_neg (Nat.not_le.2 h)

theorem waitsKey_iff (simulcast : Bool) (x : FwdLeg) :
    waitsKey simulcast x = true ↔ x.cur.1 < x.tgt.1 ∨ (simulcast = true ∧ x.tgt.1 < x.cur.1) := by
  simp [waitsKey]

theorem keyRequest_asks (hx : fwdLeg s l = some x) (hw : waitsKey (fwdStream s (flStream x)).simulcast x = true)
    (ha : x.asked = false) (hdue : x.adoptAt + fld x.body 10 2 * 1000000 ≤ s.now) :
    keyRequest l s = requestKey l (fwdPut l { x with asked := true } s) := by
  rw [keyRequest, hx]
  exact if_pos ⟨hw, by rw [ha]; rfl, hdue⟩

theorem keyRequest_waits (hx : fwdLeg s l = some x)
    (h : waitsKey (fwdStream s (flStream x)).simulcast x = false ∨ x.asked = true) : keyRequest l s = s := by
  rw [keyRequest, hx]
  refine if_neg fun ⟨hw, ha, _⟩ => ?_
  rcases h with h | h
  · rw [h] at hw
    cases hw
  · rw [h] at ha
    cases ha

/-! ### Feedback (R405) -/

theorem feedbackBudget_eq (b loss flags tmmbr lo hi : Nat) :
    let b1 := if 25 < loss then b - b * loss / 512 else if loss < 5 then b + b * 8 / 100 else b
    let b2 := if bit flags 0 then min tmmbr b1 else b1
    feedbackBudget b loss flags tmmbr lo hi = max lo (min hi b2) := by
  unfold feedbackBudget
  cases bit flags 0
  all_goals
    simp only [Bool.false_eq_true, false_and, true_and, if_true, if_false]
    split_ifs <;> omega

theorem feedbackRecord_disabled (h : regF s uFWD 0 0x004 31 31 = 0) : feedbackRecord s = s := if_pos h

/-- A feedback record is counted, and sets the budget of an IP leg; a key picture it asks for leaves both as they are. -/
theorem feedbackRecord_sets {v : State} {d : Bytes} (hen : regF s uFWD 0 0x004 31 31 = 1)
    (ht : takePacket (unitInit uFWD 0) (regF s uFWD 0 0x004 15 0) s = (some d, v)) (hd : fld d 8 2 = l)
    (hx : fwdLeg v l = some x) :
    (∃ y, fwdLeg (feedbackRecord s) l = some y ∧ y.budget = if flIp x then
      feedbackBudget x.budget (fld d 10 1) (fld d 11 1) (fld d 12 4) (fld x.body 36 4) (fld x.body 40 4)
      else x.budget) ∧
    cntGet (feedbackRecord s) (cntKey uFWD l 8) = cntGet (fwdCount l 8 1 v) (cntKey uFWD l 8) := by
  let b := feedbackBudget x.budget (fld d 10 1) (fld d 11 1) (fld d 12 4) (fld x.body 36 4) (fld x.body 40 4)
  let w := fwdCount l 8 1 v
  let u := if flIp x then legRetarget l (fwdPut l { x with budget := b } w) else w
  have hu : feedbackRecord s = if bit (fld d 11 1) 1 then requestKey l u else u := by
    rw [feedbackRecord, if_neg (by rw [hen]; decide), ht]
    dsimp only
    rw [hd, hx]
  obtain ⟨y, hy, hbudget, hcounters⟩ : ∃ y, fwdLeg u l = some y ∧ y.budget = (if flIp x then b else x.budget) ∧
      u.counters = w.counters := by
    change ∃ y, fwdLeg (if flIp x = true then _ else _) l = some y ∧ _ ∧
      State.counters (if flIp x = true then _ else _) = _
    cases flIp x with
    | false => exact ⟨x, (fwdLeg_fwdCount ..).trans hx, rfl, rfl⟩
    | true =>
      obtain ⟨g, c, a, q, p, hframe⟩ := retarget_frame (fwdStream (fwdPut l { x with budget := b } w) (flStream x))
        w.now { x with budget := b }
      simp only [if_true]
      rw [legRetarget_of_find (fwdLeg_fwdPut_same ..)]
      exact ⟨_, fwdLeg_fwdPut_same .., congrArg FwdLeg.budget hframe, rfl⟩
  rw [hu]
  split
  · refine ⟨⟨y, (fwdLeg_requestKey hy l).trans hy, hbudget⟩, ?_⟩
    rw [cntGet_congr _ (requestKey_keeps hy).2, cntGet_fwdCount_ne _ _ _ _ (by decide), cntGet_congr _ hcounters]
  · exact ⟨⟨y, hy, hbudget⟩, cntGet_congr _ hcounters⟩

/-! ### Packets held too long (R412) -/

/-- A leg without the packets that have waited for 200 ms. -/
def unexpired (now : Nat) (x : FwdLeg) : FwdLeg :=
  { x with held := x.held.filter fun e => decide (now < e.2.1 + 200000000)
           waiting := x.waiting.filter fun e => decide (now < e.1 + 200000000) }

/-- The packets it skips. -/
def expiredCount (now : Nat) (x : FwdLeg) : Nat :=
  x.held.countP (fun e => e.2.1 + 200000000 ≤ now) + x.waiting.countP fun e => e.1 + 200000000 ≤ now

theorem length_sub_filter_not {α : Type} (p : α → Prop) [DecidablePred p] (xs : List α) :
    xs.length = xs.countP (fun e => p e) + (xs.filter fun e => ¬ p e).length := by
  rw [← List.countP_eq_length_filter, List.length_eq_countP_add_countP (fun e => decide (p e))]
  congr 2
  funext e
  exact decide_eq_decide.2 (by simp)

theorem streamExpiry_single {n : Nat} (hlegs : s.video.fwd.legs = [(l, x)]) (hs : flStream x = n) :
    streamExpiry n s = if expiredCount s.now x = 0 then s
      else fwdDropEvent l (fwdCount l 2 (expiredCount s.now x) (fwdPut l (unexpired s.now x) s)) := by
  have hx := fwdLeg_of_single hlegs
  have hcount : x.held.length + x.waiting.length - (unexpired s.now x).held.length - (unexpired s.now x).waiting.length =
      expiredCount s.now x := by
    have hheld := length_sub_filter_not (fun e : Nat × Nat × List (BitVec 8) => e.2.1 + 200000000 ≤ s.now) x.held
    have hwaiting := length_sub_filter_not (fun e : Nat × List (BitVec 8) => e.1 + 200000000 ≤ s.now) x.waiting
    simp only [Nat.not_le] at hheld hwaiting
    simp only [expiredCount, unexpired]
    omega
  rw [streamExpiry, hlegs, List.filter_cons_of_pos (by simp [hs]), ← hcount]
  change (match fwdLeg s l with | none => s | some x => _) = _
  rw [hx]
  rfl

end

/-! ### Layer rates (R406) -/

/-- An entry that is 0 reads the same left out. -/
theorem spGet_filter_nonzero {m : Sparse Nat} (h : rising m) (k : Nat) :
    spGet 0 (m.filter (·.2 != 0)) k = spGet 0 m k := by
  have habsent : ∀ r : Sparse Nat, (∀ e ∈ r, k < e.1) → spFind (r.filter (·.2 != 0)) k = none := by
    intro r hr
    induction r with
    | nil => rfl
    | cons e r ih =>
      obtain ⟨he, hrest⟩ := List.forall_mem_cons.1 hr
      rw [List.filter_cons]
      split
      · rw [spFind, if_neg (ne_of_gt he)]
        exact ih hrest
      · exact ih hrest
  induction m with
  | nil => rfl
  | cons e r ih =>
    obtain ⟨j, v⟩ := e
    obtain ⟨hlater, hrest⟩ := List.pairwise_cons.1 h
    have hr := ih hrest
    unfold spGet at hr ⊢
    rw [List.filter_cons]
    by_cases hj : j = k
    · subst hj
      by_cases hv : v = 0
      · simp [hv, spFind, habsent r hlater]
      · simp [hv, spFind]
    · by_cases hv : v = 0
      · simpa [hv, spFind, hj] using hr
      · simpa [hv, spFind, hj] using hr

/-- The rates of layered stream, read by their layers. -/
theorem measureStream_rate (now : Nat) {x : FwdStream} (hs : x.simulcast = false) {a t : Nat} (ha : a < 3) (ht : t < 3) :
    spGet 0 (measureStream now x).rates (4 * a + t) =
      sumL (((x.window.filter fun p => now < p.1 + second).filter fun p => p.2.2.1 ≤ a && p.2.2.2 ≤ t).map (·.2.1)) /
        1000 := by
  have hrising : ∀ f : Nat → Nat → Nat,
      rising ((List.range 3).flatMap fun a => (List.range 3).map fun t => (4 * a + t, f a t)) := fun f => by
    simp [rising, List.range_succ]
  unfold measureStream
  dsimp only
  rw [spGet_filter_nonzero (hrising _), hs]
  interval_cases a <;> interval_cases t <;> rfl

theorem spGet_map_snd {α β : Type} {f : α → β} {d : α} {e : β} (hd : f d = e) (m : Sparse α) (k : Nat) :
    spGet e (m.map fun p => (p.1, f p.2)) k = f (spGet d m k) := by
  rw [spGet, spFind_map_snd, spGet]
  cases spFind m k with
  | none => exact hd.symm
  | some v => rfl

/-- A stream of which nothing is known has no rates. -/
theorem measureStream_empty (now : Nat) : measureStream now {} = {} := by
  simpa [measureStream, sumL] using fun _ _ _ _ _ _ _ h => h.symm

section
variable {s : State} (h : s.video.fwd.measuredAt + 10000000 ≤ s.now)
include h

theorem layerRates_measures : (layerRates s).video.fwd.measuredAt = s.now ∧
    ∀ n, fwdStream (layerRates s) n = measureStream s.now (fwdStream s n) := by
  rw [layerRates, if_neg (Nat.not_lt.2 h)]
  exact ⟨rfl, fun n => spGet_map_snd (measureStream_empty s.now) s.video.fwd.streams n⟩

end

end Sys2Proof.Machine
end

section
/-!
SUPPORT. The statement on the layered forwarder (11_video_bridge.md, R401 to R413).
-/
namespace Sys2Proof.Machine
open Sys2Proof

/-- With FREEZE clear a count is read back, wherever the state it stands in came from. -/
theorem counts_of_counters {l k m : Nat} {s u : State} (h : u.counters = (fwdCount l k m s).counters) (hm : m ≠ 0) :
    regF s uFWD 0 0x010 1 1 = 0 →
      cntGet u (cntKey uFWD l k) = min 0xFFFFFFFF (cntGet s (cntKey uFWD l k) + m) :=
  fun hf => (cntGet_congr _ h).trans (cntGet_fwdCount l k m s hf hm)

/-- A packet of a frame that the leg's selection is decided for goes where that selection says. -/
theorem streamPacket_delivers {s v : State} {n l : Nat} {x : FwdLeg} {d : Bytes}
    (ht : takePacket (unitInit uFWD 0) (streamQueue s n) s = (some d, v)) (hok : LayerPacket n d)
    (hin : shortNow v ≤ fld d 0 8) (hlegs : v.video.fwd.legs = [(l, x)]) (hs : flStream x = n) (hr : x.recs = [])
    (hf : x.frame = some (fld d 10 2)) (hw : x.waiting = []) : ∃ st : FwdStream, st.simulcast = false ∧
      fwdLeg (streamPut n st v) l = some x ∧
      streamPacket n s = legDeliver l st (streamPut n st v) (v.now, d) := by
  obtain ⟨st, hsim, hrun⟩ := streamPacket_single ht hok hin hlegs hs hr
  have hx : fwdLeg (streamPut n st v) l = some x := fwdLeg_of_single hlegs
  exact ⟨st, hsim, hx, hrun.trans (legPacket_decided hx hf hw)⟩

/-- Settles O45: a packet by its way through selection, holding and sending, records by what they make of the leg they name,
and each timed step from what it changes of a leg; the window of a stream grows by each packet whatever its legs do. -/
theorem layeredForwarding : Obligations.LayeredForwarding := by
  intro s n l c device rec x counts fails target taken named
  refine ⟨fun d v ht => ?packets, fun h => ?rates, fun h => effect_done (exec_layerRateMeasure ..) (if_pos h),
    fun i b d v hc hf ht => ?record, fun hlegs hr hlen hn => ?relay, fun hx => ?leg,
    fun h => effect_done (exec_feedbackRecord ..) (feedbackRecord_disabled h), fun hlegs hs => ?expiry⟩
  case packets =>
    intro len a t
    have hkeep := (taken_takePacket ht).freeze
    refine ⟨fun h => effect_done (exec_streamPacket ..) (streamPacket_malformed ht h),
      fun hlen hd ha ht3 hflags h1 h1200 hext hin => ?_⟩
    have hok : LayerPacket n d := ⟨hlen, hd, ha, ht3, hflags, h1, h1200, hext⟩
    refine effect_done (exec_streamPacket ..) ⟨streamPacket_window ht hok hin,
      fun hlegs hs hr hw hf hkey hfin => ?_, fun hlegs hs hr hh hw hst hpa hsu hbr hdr hf => ?_⟩
    · obtain ⟨st, hsim, hrun⟩ := streamPacket_single ht hok hin hlegs hs hr
      have hx : fwdLeg (streamPut n st v) l = some x := fwdLeg_of_single hlegs
      rw [hrun, legPacket_waits hx hf hw (by rwa [hsim]) hfin]
      exact ⟨rfl, _, fwdLeg_fwdPut_same .., rfl⟩
    · have hlive : LegSends x := ⟨hst, hpa, hsu, hbr, hdr⟩
      obtain ⟨st, hsim, hx, hrun⟩ := streamPacket_delivers ht hok hin hlegs hs hr hf hw
      rw [hrun]
      refine ⟨fun habove => ?_, fun hle hte hfin => ?_, fun hle hte hfin hip hport hl => ?_⟩
      · obtain ⟨hleg, hout, hcounters⟩ := legDeliver_drops hx hh hsim habove (t := v.now)
        have hcount := hcounters.trans (fwdCount_counters_congr l 1 1 (s := v) rfl rfl)
        exact ⟨⟨x, hleg, rfl⟩, hout, fun hfreeze => counts_of_counters hcount (by decide) (hkeep.trans hfreeze)⟩
      · rw [legDeliver_holds hx hh hsim hlive hle hte, hfin]
        exact ⟨rfl, _, fwdLeg_fwdPut_same .., rfl⟩
      · rw [legDeliver_holds hx hh hsim hlive hle hte, hfin]
        obtain ⟨hleg, hout, hcount⟩ := flushHeld_ip (f := fld d 10 2) (fwdLeg_fwdPut_same l
          (fwdPut l x (streamPut n st v)) { x with held := [(fld d 10 2, v.now, d)] }) hh hlive hip hport hl
        exact ⟨⟨_, hleg, rfl⟩, hout, fun hfreeze => hcount (hkeep.trans hfreeze)⟩
  case rates =>
    obtain ⟨hat, hstreams⟩ := layerRates_measures h
    refine effect_done (exec_layerRateMeasure ..) ⟨hat, ?_, fun hs a t ha ht => ?_⟩
    · rw [hstreams]
      rfl
    · rw [hstreams]
      exact measureStream_rate s.now hs ha ht
  case record =>
    refine ⟨fun hlegs hsubs => effect_done (exec_forecastRecord ..) (forecastRecordOp_unnamed hc hf ht hlegs hsubs),
      fun hlegs hr hn => ?_⟩
    obtain ⟨hvideo, hcounters⟩ := forecastRecordOp_single hc hf ht hlegs hn
    obtain ⟨⟨y, hy, htaken⟩, hcount⟩ := recordFor_spec (fwdLeg_of_single hlegs) hr d
    rw [(taken_takePacket ht).now] at htaken
    refine effect_done (exec_forecastRecord ..)
      ⟨⟨y, (fwdLeg_congr l hvideo).trans hy, htaken.lastRec, htaken.stale, htaken.waits, htaken.applied⟩,
        fun hfreeze => counts_of_counters (hcounters.trans hcount) (by decide)
          ((taken_takePacket ht).freeze.trans hfreeze)⟩
  case relay =>
    obtain ⟨⟨y, hy, htaken⟩, hcount⟩ := recordFor_spec (fwdLeg_of_single hlegs) hr rec
    have hwhole : fit 32 rec = rec := by simp [fit, sub, hlen]
    refine effect_of_eq (exec_forecastRelay ..) (by rw [hwhole]; exact forecastRelay_single hlegs hn)
      ⟨⟨y, hy, htaken.lastRec, htaken.stale, htaken.waits, htaken.applied⟩, counts_of_counters hcount (by decide)⟩
  case leg =>
    refine ⟨fun hip hst => ⟨fun hdue => ?stale, fun h => ?early⟩,
      fun hip => effect_done (exec_forecastStale ..) (forecastStale_waits hx (.inl hip)),
      fun t since hcand => ⟨fun hdue => ?held, fun h => effect_done (exec_upHoldExpiry ..) (upHold_waits hx hcand h)⟩,
      fun hw ha hdue => ?asks, fun h => ?asksNot, fun hen d v ht => ?feedback⟩
    case stale =>
      obtain ⟨hleg, hcounters⟩ := forecastStale_falls hx hip hst hdue
      exact effect_done (exec_forecastStale ..) ⟨counts_of_counters hcounters (by decide), _, hleg, rfl, rfl⟩
    case early => exact effect_done (exec_forecastStale ..) (forecastStale_waits hx (.inr (.inr h)))
    case held =>
      exact effect_of_eq (exec_upHoldExpiry ..) (upHold_adopts hx hcand hdue)
        ⟨⟨_, fwdLeg_fwdPut_same .., rfl, rfl, rfl⟩, rfl⟩
    case asks =>
      have hwaits : waitsKey (fwdStream s (flStream x)).simulcast x = true := by
        rw [waitsKey_iff]
        exact hw.imp_right fun ⟨hs, hlt⟩ => ⟨Bool.not_eq_false _ ▸ hs, hlt⟩
      have hasked : fwdLeg (fwdPut l { x with asked := true } s) l = some { x with asked := true } :=
        fwdLeg_fwdPut_same ..
      refine effect_of_eq (exec_keyRequest ..) (keyRequest_asks hx hwaits ha hdue)
        ⟨⟨_, (fwdLeg_requestKey hasked l).trans hasked, rfl⟩, ?_,
          fun k hk hreq => requestKey_encoder (x := { x with asked := true }) hasked hk hreq⟩
      refine counts_of_counters ((requestKey_keeps hasked).2.trans ?_) (by decide)
      exact fwdCount_counters_congr _ _ _ rfl rfl
    case asksNot =>
      refine effect_done (exec_keyRequest ..) (keyRequest_waits hx ?_)
      rcases h with heq | ⟨hs, hlt⟩ | ha
      · exact .inl (by simp [waitsKey, heq])
      · exact .inl (by simp [waitsKey, hs, hlt.le])
      · exact .inr ha
    case feedback =>
      intro loss b1 b2 hd hxv
      obtain ⟨⟨y, hy, hbudget⟩, hcount⟩ := feedbackRecord_sets hen ht hd hxv
      rw [feedbackBudget_eq] at hbudget
      refine effect_done (exec_feedbackRecord ..) ⟨fun hf => ?_, y, hy, hbudget⟩
      rw [hcount, cntGet_fwdCount _ _ _ _ ((taken_takePacket ht).freeze.trans hf) (by decide)]
  case expiry =>
    have hrun := streamExpiry_single hlegs hs
    have hzero : expiredCount s.now x = 0 ↔
        (∀ e ∈ x.held, ¬ e.2.1 + 200000000 ≤ s.now) ∧ ∀ e ∈ x.waiting, ¬ e.1 + 200000000 ≤ s.now := by
      simp [expiredCount, List.countP_eq_zero]
    refine ⟨fun h => ?_, fun hheld hwaiting => ?_⟩
    · have hsome : expiredCount s.now x ≠ 0 := by
        rw [Ne, hzero]
        rintro ⟨hheld, hwaiting⟩
        rcases h with ⟨e, he, hold⟩ | ⟨e, he, hold⟩
        · exact hheld e he hold
        · exact hwaiting e he hold
      rw [if_neg hsome] at hrun
      refine effect_of_eq (exec_streamPacketExpiry ..) hrun
        ⟨⟨_, (fwdLeg_congr l (fwdDropEvent_video ..)).trans ((fwdLeg_fwdCount ..).trans (fwdLeg_fwdPut_same ..)), ?_⟩, ?_⟩
      · simp only [unexpired, Nat.not_le]
      · refine counts_of_counters ((fwdDropEvent_counters ..).trans ?_) hsome
        exact fwdCount_counters_congr _ _ _ rfl rfl
    · rw [if_pos (hzero.2 ⟨hheld, hwaiting⟩)] at hrun
      exact effect_done (exec_streamPacketExpiry ..) hrun

end Sys2Proof.Machine
end

section
/-!
SUPPORT. The compositor's frames, LAYOUT_SET and LAYOUT_GET (11_video_bridge.md, R393 to R396, R414).
-/
namespace Sys2Proof.Machine
open Sys2Proof

/-! ### Layouts in force and waiting (R396) -/

section
variable {s : State} {k now : Nat} {x : LayoutRun}

@[simp] theorem layoutRun_layoutPut_same (k : Nat) (x : LayoutRun) (s : State) : layoutRun (layoutPut k x s) k = x :=
  spGet_spSet_same _ _ _ _

/-- A waiting layout's frame has come, and no frame of that boundary or a later one is composed yet. -/
def layoutDue (now : Nat) (last : Option Nat) (e : Bytes × Nat) : Bool :=
  decide (e.2 ≤ boundaryAt (layRate e.1) now) && last.all fun m => decide (m < boundaryAt (layRate e.1) now)

theorem adoptLayouts_eq (now : Nat) (x : LayoutRun) : adoptLayouts now x = { x with
    cur := (((x.waiting.filter (layoutDue now x.last)).getLast?).map (·.1)).getD x.cur
    waiting := x.waiting.filter fun e => !layoutDue now x.last e } := rfl

/-- The present layout stays while none waits. -/
theorem adoptLayouts_nothing (h : x.waiting = []) : adoptLayouts now x = x := by
  obtain ⟨cur, waiting, last, used, outs⟩ := x
  obtain rfl : waiting = [] := h
  rfl

/-- The first waiting layout takes effect at its time while those after it wait on. -/
theorem adoptLayouts_first {next : Bytes} {t : Nat} {rest : List (Bytes × Nat)} (hw : x.waiting = (next, t) :: rest)
    (hdue : t ≤ boundaryAt (layRate next) now) (hlast : ∀ m, x.last = some m → m < boundaryAt (layRate next) now)
    (hrest : ∀ e ∈ rest, boundaryAt (layRate e.1) now < e.2) :
    adoptLayouts now x = { x with cur := next, waiting := rest } := by
  have hfirst : layoutDue now x.last (next, t) = true := by
    simpa [layoutDue, hdue, Option.all_eq_true] using hlast
  have hlater : ∀ e ∈ rest, layoutDue now x.last e = false := fun e he => by
    simp [layoutDue, hrest e he]
  have hnone : rest.filter (layoutDue now x.last) = [] := List.filter_eq_nil_iff.2 fun e he => by simp [hlater e he]
  have hall : rest.filter (fun e => !layoutDue now x.last e) = rest :=
    List.filter_eq_self.2 fun e he => by simp [hlater e he]
  rw [adoptLayouts_eq, hw, List.filter_cons_of_pos hfirst, List.filter_cons_of_neg (by simp [hfirst]), hnone, hall]
  rfl

/-! ### A frame at its boundary (R394, R395) -/

/-- The newest of the pictures kept is the one just added. -/
theorem getLast?_drop_concat (ps : List Picture) (p : Picture) :
    ((ps ++ [p]).drop ((ps ++ [p]).length - 4)).getLast? = some p := by
  rw [List.getLast?_drop, if_neg (by simp), List.getLast?_concat]

theorem composeFrame_unset (h : s.cox.st = .unset) : composeFrame k s = s := if_pos (.inl h)

section
variable (hcox : s.cox.st ≠ .unset) (hx : adoptLayouts (shortNow s) (layoutRun s k) = x) (hcur : x.cur ≠ [])
include hcox hx hcur

/-- A disabled layout has no frames, and a frame is composed once. -/
theorem composeFrame_waits (h : layTiles x.cur = 0 ∨ ∃ m, x.last = some m ∧ boundaryAt (layRate x.cur) (shortNow s) ≤ m) :
    composeFrame k s = layoutPut k x s := by
  have hdone : layTiles x.cur = 0 ∨ (x.last.any fun m => decide (boundaryAt (layRate x.cur) (shortNow s) ≤ m)) = true := by
    simpa [Option.any_eq_true] using h
  subst hx
  exact (if_neg (not_or.2 ⟨hcox, hcur⟩)).trans (if_pos hdone)

/-- A composed frame is the newest output picture, eligible one frame period after its boundary. -/
theorem composeFrame_composes (htiles : layTiles x.cur ≠ 0)
    (hlast : ∀ m, x.last = some m → m < boundaryAt (layRate x.cur) (shortNow s)) :
    let b := boundaryAt (layRate x.cur) (shortNow s)
    ∃ n used outs y, composeFrame k s =
        regBump uCOMPOSE 0 0x004 31 0 n (layoutPut k { x with last := some b, used := used, outs := outs } s) ∧
      outs.getLast? = some y ∧ y.time = b ∧ y.elig = b + framePeriod (layRate x.cur) := by
  have hnew : ¬ (layTiles x.cur = 0 ∨
      (x.last.any fun m => decide (boundaryAt (layRate x.cur) (shortNow s) ≤ m)) = true) := by
    simpa [Option.any_eq_true, htiles] using hlast
  subst hx
  refine ⟨_, _, _, _, (if_neg (not_or.2 ⟨hcox, hcur⟩)).trans (if_neg hnew), getLast?_drop_concat _ _, rfl, rfl⟩

end

/-! ### LAYOUT_SET and LAYOUT_GET (R414) -/

/-- A number of one byte in 24 bytes. -/
theorem leBytes_byte {k : Nat} (hk : k < 256) : leBytes 24 k = BitVec.ofNat 8 k :: zeros 23 := by
  change BitVec.ofNat 8 k :: leBytes 23 (k / 256) = _
  rw [Nat.div_eq_of_lt hk]
  rfl

section
variable {r : Request} (ha : Addressed r uCOMPOSE 0)
include ha

theorem targetCheck_compose : targetCheck s r uCOMPOSE 0 = 0 := targetCheck_addressed ha (by cases s.part <;> rfl)

section
variable (hk : fld r.params 0 1 = k) (h24 : 24 ≤ r.params.length)
  (hlen : r.params.length = 24 + 24 * layTiles r.params) (hok : layoutOk r.params = true)
  (hfree : ∀ e ∈ activeVideo s, vSource e.2 ≠ 0x8000 + k)
include hk h24 hlen hok hfree

/-- What is left of LAYOUT_SET's checks for a layout in range that no running session takes: its output units. -/
theorem layoutSetOp_checks :
    let from_ := nextFrame s (layoutRun s k) (layRate r.params) (fld r.params 16 8)
    ∃ act, layoutSetOp r s = runCmd 0x0450 r (need (decide (sumL ((s.video.layouts.filter (·.1 != k)).map
        fun e => layoutMost e.2) + layoutUnits r.params ≤ 128)) stADMISSION_REFUSED) act s ∧
      act s = (stDONE, leBytes 8 from_, layoutPut k
        { layoutRun s k with waiting := addLayout r.params from_ (layoutRun s k).waiting } s) := by
  subst hk
  have hnamed : ((activeVideo s).any fun e => (vKind e.2 == 1 || vKind e.2 == 3) &&
      vSource e.2 == 0x8000 + fld r.params 0 1) = false :=
    List.any_eq_false.2 fun e he => by simp [hfree e he]
  have hlength : (decide (24 ≤ r.params.length) && r.params.length == 24 + 24 * layTiles r.params) = true := by
    rw [decide_eq_true h24, beq_iff_eq.2 hlen]
    rfl
  rw [layoutSetOp]
  dsimp only
  rw [targetCheck_compose ha, hnamed, hlength, hok, Bool.false_and, Bool.not_false]
  simp only [need_true, firstFail_zero, firstFail_singleton]
  exact ⟨_, rfl, rfl⟩

theorem replies_layoutSet (hroom : sumL ((s.video.layouts.filter (·.1 != k)).map fun e => layoutMost e.2) +
    layoutUnits r.params ≤ 128) :
    let from_ := nextFrame s (layoutRun s k) (layRate r.params) (fld r.params 16 8)
    Replies (.layoutSet r) s 0x0450 r 0 (leBytes 8 from_) (layoutPut k
      { layoutRun s k with waiting := addLayout r.params from_ (layoutRun s k).waiting } s) := by
  obtain ⟨act, hop, hact⟩ := layoutSetOp_checks ha hk h24 hlen hok hfree
  exact replies_of_runCmd ha (exec_layoutSet ..) hop (by rw [decide_eq_true hroom]; rfl) hact

theorem replies_layoutSet_refused (hroom : 128 < sumL ((s.video.layouts.filter (·.1 != k)).map fun e => layoutMost e.2) +
    layoutUnits r.params) : Replies (.layoutSet r) s 0x0450 r 0x0018 [] s := by
  obtain ⟨act, hop, -⟩ := layoutSetOp_checks ha hk h24 hlen hok hfree
  exact replies_of_runCmd_refused ha (exec_layoutSet ..) hop (by rw [decide_eq_false (Nat.not_le.2 hroom)]; rfl)
    (by decide)

end

theorem replies_layoutGet (hk : fld r.params 0 1 = k) (hk8 : k < 8) (hlen : r.params.length = 8)
    (hres : rsv r.params 1 7 = true) : Replies (.layoutGet r) s 0x0451 r 0
      (if (layoutRun s k).cur = [] then leBytes 24 k else (layoutRun s k).cur) s := by
  subst hk
  rw [leBytes_byte (hk8.trans (by decide))]
  refine replies_of_runCmd ha (exec_layoutGet ..) (layoutGetOp.eq_def r s) ?_ rfl
  rw [targetCheck_compose ha, beq_iff_eq.2 hlen, decide_eq_true hk8, hres]
  rfl

end

end

/-- The compositor's statement, from what a frame makes of the layouts and what the commands reply. -/
theorem composedLayouts : Claims.ComposedLayouts := by
  intro s r k l next t rest x b compose
  refine ⟨fun hcox hl hne hw => ?once, fun hcox hl hw hne hrest => ?replaced,
    fun h => effect_of_eq (exec_composeFrame ..) (composeFrame_unset h) rfl,
    fun ha hk => ⟨fun h24 hlen hok hfree => ⟨fun hroom => ?sets, replies_layoutSet_refused ha hk h24 hlen hok hfree⟩,
      replies_layoutGet ha hk k.isLt⟩⟩
  case once =>
    have hx : adoptLayouts (shortNow s) (layoutRun s k) = x := adoptLayouts_nothing hw
    subst hl
    refine ⟨fun htiles hlast => ?_, fun m hm hbm => ?_⟩
    · obtain ⟨n, used, outs, y, hrun, hy⟩ := composeFrame_composes hcox hx hne htiles hlast
      refine effect_of_eq (exec_composeFrame ..) hrun ?_
      have hput : layoutRun (regBump uCOMPOSE 0 0x004 31 0 n (layoutPut k { x with last := some b, used, outs } s)) k =
          { x with last := some b, used, outs } := layoutRun_layoutPut_same _ _ _
      rw [hput]
      exact ⟨rfl, rfl, rfl, y, hy⟩
    · exact effect_of_eq (exec_composeFrame ..) (composeFrame_waits hcox hx hne (.inr ⟨m, hm, hbm⟩))
        ⟨layoutRun_layoutPut_same _ _ _, rfl⟩
  case replaced =>
    intro c hdue hlast
    have hx : adoptLayouts (shortNow s) (layoutRun s k) = { x with cur := next, waiting := rest } :=
      adoptLayouts_first hw hdue hlast hrest
    by_cases htiles : layTiles next = 0
    · refine effect_of_eq (exec_composeFrame ..) (composeFrame_waits hcox hx hne (.inl htiles)) ?_
      rw [layoutRun_layoutPut_same]
      exact ⟨rfl, rfl⟩
    · obtain ⟨n, used, outs, -, hrun, -⟩ := composeFrame_composes hcox hx hne htiles hlast
      refine effect_of_eq (exec_composeFrame ..) hrun ?_
      have hput : layoutRun (regBump uCOMPOSE 0 0x004 31 0 n
          (layoutPut k { x with cur := next, waiting := rest, last := some c, used, outs } s)) k =
          { x with cur := next, waiting := rest, last := some c, used, outs } := layoutRun_layoutPut_same _ _ _
      exact ⟨congrArg LayoutRun.cur hput, congrArg LayoutRun.waiting hput⟩
  case sets =>
    exact effect_of_replies (replies_layoutSet ha hk h24 hlen hok hfree hroom) ⟨layoutRun_layoutPut_same _ _ _, rfl⟩

end Sys2Proof.Machine
end

section
/-!
SUPPORT. The forwarder's leg commands (11_video_bridge.md, R403, R405, R414 to R416), and the statement on them and the
compositor.
-/
namespace Sys2Proof.Machine
open Sys2Proof

/-! ### Counters set to zero (R416) -/

theorem cntGet_fwdClear {i k : Nat} (s : State) (hi : i < 0x10000000) (hk : k < 16) :
    cntGet (fwdClear s) (cntKey uFWD i k) = 0 := by
  have hunit : (!(cntKey uFWD i k / 0x100000000 == uFWD)) = false := by
    simp only [Bool.not_eq_false', beq_iff_eq, cntKey]
    omega
  rw [cntGet, spGet, fwdClear, cntZeroAll, spFind_filter_out s.counters (fun j => !(j / 0x100000000 == uFWD)) hunit]
  rfl

/-- A forwarder leg's sixteen counters set to zero. -/
def zeroedFwdLeg (l : Nat) (s : State) : State := (List.range 16).foldl (fun s k => cntZero (cntKey uFWD l k) s) s

theorem cntGet_zeroedFwdLeg (l : Nat) {k : Nat} (s : State) (hk : k < 16) :
    cntGet (zeroedFwdLeg l s) (cntKey uFWD l k) = 0 := cntGet_foldl_cntZero (cntKey uFWD l) s (List.mem_range.2 hk)

theorem zeroedFwdLeg_frame (l : Nat) (s : State) : ∃ c, zeroedFwdLeg l s = { s with counters := c } :=
  foldl_keeps (P := fun t : State => ∃ c, t = { s with counters := c }) _ ⟨_, rfl⟩ fun t k ⟨c, hc⟩ => by
    rw [hc]
    exact ⟨_, rfl⟩

/-! ### What FWD_LEG_ADD does before the leg is there (R403, R411) -/

/-- The leg has SRTP. -/
def legSecured (p : Bytes) : Bool := bit (fld p 7 1) 2

/-- The key and salt of a leg with SRTP. -/
def legSecret (p : Bytes) : KeySlot := { first := sub p 80 (if bit (fld p 7 1) 3 then 32 else 16), second := sub p 112 12 }

/-- The state with the key of a leg with SRTP. -/
def keyedLeg (p : Bytes) (s : State) : State :=
  if legSecured p then { s with keys := spPut s.keys (139264 + fld p 0 2) (legSecret p) } else s

/-- The state with a leg's handset subscribed to at another device. -/
def subscribedLeg (p : Bytes) (s : State) : State :=
  if fld p 4 1 = 0 ∧ fld p 24 2 ≠ deviceId s then sendTo (fld p 24 2) 3 "forecast-subscribe" (sub p 22 2) [] s else s

/-- The state in which a request's leg is put: its counters zero, its key set, its handset subscribed to. -/
def preparedLeg (p : Bytes) (s : State) : State := subscribedLeg p (keyedLeg p (zeroedFwdLeg (fld p 0 2) s))

/-- The leg of a request before its target is computed. -/
def requestedLeg (p : Bytes) (s : State) : FwdLeg :=
  { body := sub p 0 80, budget := if fld p 4 1 = 1 then fld p 44 4 else 0, seq := fld p 20 2
    lastRec := s.now, adoptAt := s.now, frame := (fwdStream s (fld p 2 2)).frame }

/-- The leg of a request. -/
def addedFwdLeg (p : Bytes) (s : State) : FwdLeg :=
  retarget (fwdStream (preparedLeg p s) (flStream (requestedLeg p s))) (preparedLeg p s).now (requestedLeg p s)

section
variable (p : Bytes) (s : State)

theorem keyedLeg_frame : ∃ k, keyedLeg p s = { s with keys := k } :=
  ite_keeps (P := fun t : State => ∃ k, t = { s with keys := k }) ⟨_, rfl⟩ ⟨_, rfl⟩

theorem spFind_keyedLeg (h : legSecured p = true) :
    spFind (keyedLeg p s).keys (139264 + fld p 0 2) = some (legSecret p) := by
  rw [keyedLeg, if_pos h]
  exact spFind_spPut_same _ _ _

theorem subscribedLeg_frame : ∃ z, subscribedLeg p s = { s with serial := z } :=
  ite_keeps (P := fun t : State => ∃ z, t = { s with serial := z }) (sendTo_frame ..) ⟨_, rfl⟩

/-- Before the leg is there only counters, keys and what leaves on links have changed. -/
theorem preparedLeg_frame : ∃ c k z, preparedLeg p s = { s with counters := c, keys := k, serial := z } := by
  obtain ⟨c, hc⟩ := zeroedFwdLeg_frame (fld p 0 2) s
  obtain ⟨k, hk⟩ := keyedLeg_frame p (zeroedFwdLeg (fld p 0 2) s)
  obtain ⟨z, hz⟩ := subscribedLeg_frame p (keyedLeg p (zeroedFwdLeg (fld p 0 2) s))
  exact ⟨c, k, z, by rw [preparedLeg, hz, hk, hc]⟩

theorem cntGet_preparedLeg {k : Nat} (hk : k < 16) : cntGet (preparedLeg p s) (cntKey uFWD (fld p 0 2) k) = 0 := by
  obtain ⟨j, hkeyed⟩ := keyedLeg_frame p (zeroedFwdLeg (fld p 0 2) s)
  obtain ⟨z, hsub⟩ := subscribedLeg_frame p (keyedLeg p (zeroedFwdLeg (fld p 0 2) s))
  refine (cntGet_congr _ ?_).trans (cntGet_zeroedFwdLeg (fld p 0 2) s hk)
  rw [preparedLeg, hsub, hkeyed]

theorem spFind_preparedLeg (h : legSecured p = true) :
    spFind (preparedLeg p s).keys (139264 + fld p 0 2) = some (legSecret p) := by
  obtain ⟨z, hsub⟩ := subscribedLeg_frame p (keyedLeg p (zeroedFwdLeg (fld p 0 2) s))
  rw [preparedLeg, hsub]
  exact spFind_keyedLeg p _ h

/-- A leg added is there with its counters 0 and, with SRTP, its key; no other leg changes (R403, R405, R411). -/
theorem addedFwdLeg_effect (hlen : p.length = 128) :
    let l := fld p 0 2
    let w := fwdPut l (addedFwdLeg p s) (preparedLeg p s)
    ∃ y, fwdLeg w l = some y ∧ y.body = p.take 80 ∧ y.seq = fld p 20 2 ∧ y.started = false ∧
      (∀ k, k ≠ l → fwdLeg w k = fwdLeg s k) ∧ y.budget = (if fld p 4 1 = 1 then fld p 44 4 else 0) ∧
      (∀ k, k < 16 → cntGet w (cntKey uFWD l k) = 0) ∧
      (bit (fld p 7 1) 2 = true → ∃ z, spFind w.keys (139264 + l) = some z ∧ z.second = sub p 112 12 ∧
        z.first = sub p 80 (if bit (fld p 7 1) 3 then 32 else 16)) := by
  intro l w
  have hbody : sub p 0 80 = p.take 80 := sub_zero_eq_take (by omega)
  have hvideo : (preparedLeg p s).video = s.video := by
    obtain ⟨c, k, z, hw⟩ := preparedLeg_frame p s
    rw [hw]
  obtain ⟨t, c, a, b, q, hadded⟩ : ∃ t c a b q, addedFwdLeg p s =
      { requestedLeg p s with tgt := t, cand := c, adoptAt := a, asked := b, paused := q } := retarget_frame ..
  exact ⟨_, (fwdLeg_fwdPut_same ..).trans (congrArg some hadded), hbody, rfl, rfl,
    fun k hk => (fwdLeg_fwdPut_ne _ _ hk).trans (fwdLeg_congr k hvideo), rfl, fun k hk => cntGet_preparedLeg p s hk,
    fun h => ⟨_, spFind_preparedLeg p s h, rfl, rfl⟩⟩

end

/-! ### FWD_LEG_ADD (R414) -/

section
variable {s : State} {r : Request}

theorem targetCheck_forwarder (ha : Addressed r uFWD 0) : targetCheck s r uFWD 0 = 0 :=
  targetCheck_addressed ha (by cases s.part <;> rfl)

/-- A request for a leg in range, from the host where it carries a key. -/
structure FwdAddOk (r : Request) : Prop where
  addressed : Addressed r uFWD 0
  length : r.params.length = 128
  ranges : fwdLegOk r.params = true
  host : bit (fld r.params 7 1) 2 = false ∨ r.transport = .pcie

/-- The checks left for a request in range: the leg is new and there is room for it. -/
theorem fwdAddOp_checks (hok : FwdAddOk r) : ∃ act, fwdAddOp r s = runCmd 0x0452 r (firstFail [
      need (fwdLeg s (fld r.params 0 2)).isNone 0x0405,
      need (decide (s.video.fwd.legs.length < 4096)) stNO_RESOURCE]) act s ∧
    act s = (stDONE, leBytes 8 (shortNow (preparedLeg r.params s)),
      fwdPut (fld r.params 0 2) (addedFwdLeg r.params s) (preparedLeg r.params s)) := by
  obtain ⟨ha, hlen, hranges, hhost⟩ := hok
  have hallowed : (!bit (fld r.params 7 1) 2 || r.transport == .pcie) = true := by simpa using hhost
  rw [fwdAddOp]
  dsimp only
  rw [hallowed, targetCheck_forwarder ha, beq_iff_eq.2 hlen, hranges]
  simp only [need_true, firstFail_zero]
  exact ⟨_, rfl, rfl⟩

theorem replies_fwdLegAdd (hok : FwdAddOk r) (hroom : s.video.fwd.legs.length < 4096)
    (hnew : fwdLeg s (fld r.params 0 2) = none) : Replies (.fwdLegAdd r) s 0x0452 r 0 (leBytes 8 (shortNow s))
      (fwdPut (fld r.params 0 2) (addedFwdLeg r.params s) (preparedLeg r.params s)) := by
  obtain ⟨act, hop, hact⟩ := fwdAddOp_checks (s := s) hok
  have htime : shortNow (preparedLeg r.params s) = shortNow s := by
    obtain ⟨c, k, z, hw⟩ := preparedLeg_frame r.params s
    rw [hw]
    rfl
  rw [htime] at hact
  refine replies_of_runCmd hok.addressed (exec_fwdLegAdd ..) hop ?_ hact
  rw [hnew, decide_eq_true hroom]
  rfl

theorem replies_fwdLegAdd_there (hok : FwdAddOk r) (hthere : fwdLeg s (fld r.params 0 2) ≠ none) :
    Replies (.fwdLegAdd r) s 0x0452 r 0x0405 [] s := by
  obtain ⟨x, hx⟩ := Option.ne_none_iff_exists'.1 hthere
  obtain ⟨act, hop, -⟩ := fwdAddOp_checks (s := s) hok
  refine replies_of_runCmd_refused hok.addressed (exec_fwdLegAdd ..) hop ?_ (by decide)
  rw [hx]
  rfl

/-- Only the host sets keys (R313). -/
theorem replies_fwdLegAdd_refused (hkey : bit (fld r.params 7 1) 2 = true) (htr : r.transport ≠ .pcie)
    (hres : r.reserved = false) : Replies (.fwdLegAdd r) s 0x0452 r 0x0023 [] s := by
  have hbarred : (!bit (fld r.params 7 1) 2 || r.transport == .pcie) = false := by
    rw [hkey, beq_false_of_ne htr]
    rfl
  have hchk : ∀ xs, headed r (firstFail (need (!bit (fld r.params 7 1) 2 || r.transport == .pcie) stNOT_AUTHORISED :: xs)) =
      0x0023 := by
    intro xs
    rw [hbarred, need_false, firstFail_fails (by decide), headed, hres]
    rfl
  refine replies_of (exec_fwdLegAdd ..) ?_
  rw [fwdAddOp]
  dsimp only
  rw [runCmd_refused (by rw [hchk]; decide), hchk]

/-! ### FWD_LEG_REMOVE and FWD_LEG_STATS (R415, R416) -/

/-- A leg taken away, with its key. -/
def removedFwdLeg (l : Nat) (s : State) : State :=
  fwdMod (fun (f : Fwd) => { f with legs := spDel f.legs l }) { s with keys := spDel s.keys (139264 + l) }

theorem removedFwdLeg_effect (l : Nat) (s : State) :
    let w := removedFwdLeg l s
    fwdLeg w l = none ∧ (∀ k, k ≠ l → fwdLeg w k = fwdLeg s k) ∧ spFind w.keys (139264 + l) = none ∧
      { w with video := s.video, keys := s.keys } = s :=
  ⟨spFind_spDel_same _ _, fun _ hk => spFind_spDel_ne _ hk, spFind_spDel_same _ _, rfl⟩

/-- The counts of a leg as words. -/
def legWords (l : Nat) (s : State) : List Nat := (List.range 12).map fun k => cntGet s (cntKey uFWD l k)

@[simp] theorem length_legWords (l : Nat) (s : State) : (legWords l s).length = 12 := by simp [legWords]

theorem getElem_legWords (l : Nat) (s : State) {k : Nat} (h : k < (legWords l s).length) :
    (legWords l s)[k] = cntGet s (cntKey uFWD l k) := by simp [legWords]

section
variable (ha : Addressed r uFWD 0) (hlen : r.params.length = 8) (hl : fld r.params 0 2 < 4096)
  (hres : rsv r.params 2 6 = true)
include ha hlen hl hres

theorem fwdLegCheck_eq : fwdLegCheck s r = need (fwdLeg s (fld r.params 0 2)).isSome 0x0406 := by
  simp [fwdLegCheck, targetCheck_forwarder ha, hlen, hl, hres]

theorem replies_fwdLeg_unknown (hx : fwdLeg s (fld r.params 0 2) = none) :
    Replies (.fwdLegRemove r) s 0x0453 r 0x0406 [] s ∧ Replies (.fwdLegStats r) s 0x0454 r 0x0406 [] s := by
  have hchk : fwdLegCheck s r = 0x0406 := by
    rw [fwdLegCheck_eq ha hlen hl hres, hx]
    rfl
  exact ⟨replies_of_runCmd_refused ha (exec_fwdLegRemove ..) (fwdRemoveOp.eq_def r s) hchk (by decide),
    replies_of_runCmd_refused ha (exec_fwdLegStats ..) (fwdStatsOp.eq_def r s) hchk (by decide)⟩

theorem replies_fwdLeg_there (hthere : fwdLeg s (fld r.params 0 2) ≠ none) :
    Replies (.fwdLegRemove r) s 0x0453 r 0 (leBytes 4 (cntGet s (cntKey uFWD (fld r.params 0 2) 0)))
      (removedFwdLeg (fld r.params 0 2) s) ∧
    Replies (.fwdLegStats r) s 0x0454 r 0 ((legWords (fld r.params 0 2) s).flatMap (leBytes 4)) s := by
  obtain ⟨x, hx⟩ := Option.ne_none_iff_exists'.1 hthere
  have hchk : fwdLegCheck s r = 0 := by
    rw [fwdLegCheck_eq ha hlen hl hres, hx]
    rfl
  exact ⟨replies_of_runCmd ha (exec_fwdLegRemove ..) (fwdRemoveOp.eq_def r s) hchk rfl,
    replies_of_runCmd ha (exec_fwdLegStats ..) (fwdStatsOp.eq_def r s) hchk (by rw [legWords, List.flatMap_map]; rfl)⟩

end

end

/-- The forwarder's commands, each from its reply and what it leaves. -/
theorem forwarderLegCommands : Claims.ForwarderLegCommands := by
  intro s r p l others
  refine ⟨fun ha => ⟨fun hlen hranges hhost hroom => ?adds,
      fun hlen hl hres => ⟨fun hthere => ?there, replies_fwdLeg_unknown ha hlen hl hres⟩⟩,
    replies_fwdLegAdd_refused, effect_done (exec_fwdClearAll ..) ⟨fun i k hi hk => cntGet_fwdClear s hi hk, rfl⟩⟩
  case adds =>
    have hok : FwdAddOk r := ⟨ha, hlen, hranges, hhost⟩
    refine ⟨fun hnew => ?_, replies_fwdLegAdd_there hok⟩
    obtain ⟨u, he, hu⟩ := replies_fwdLegAdd hok hroom hnew
    obtain ⟨y, hy⟩ := addedFwdLeg_effect p s hlen
    exact ⟨u, he, _, y, hu, hy⟩
  case there =>
    obtain ⟨hremove, hstats⟩ := replies_fwdLeg_there ha hlen hl hres hthere
    refine ⟨effect_of_replies hremove (removedFwdLeg_effect l s), _, hstats, ?_, fun k hk => ?_⟩
    · simp [List.length_flatMap]
    · rw [fld_word _ (by simpa using hk), getElem_legWords]

/-- Settles O44: the compositor from what each frame makes of the layouts, the forwarder's commands from their replies. -/
theorem layoutsAndForwarderCommands : Obligations.LayoutsAndForwarderCommands := ⟨composedLayouts, forwarderLegCommands⟩

end Sys2Proof.Machine
end
